-- ==== Sys2Proof/Word.lean ====
section
/-! DEFINITION. The word types of the model and their plainest arithmetic. -/

namespace Sys2Proof

abbrev Byte := BitVec 8
/-- A 64-bit register or register-file word. -/
abbrev Word := BitVec 64
abbrev W32 := BitVec 32
/-- A 64-byte line or a descriptor register (Table 4-1), and a V register of 64 lanes of 32 bits. -/
abbrev DWord := BitVec 512
abbrev VWord := BitVec 2048

abbrev TileId := BitVec 11
abbrev DieId := BitVec 5
abbrev StackId := BitVec 4
abbrev DevId := BitVec 15
abbrev QIdx := BitVec 6
abbrev SemIdx := BitVec 6
abbrev SlotIdx := BitVec 6
abbrev WinIdx := BitVec 5
abbrev PairIdx := BitVec 5
abbrev SReg := BitVec 5
abbrev VReg := BitVec 4
abbrev PReg := BitVec 3
abbrev DReg := BitVec 4
abbrev GReg := BitVec 4
abbrev GroupId := BitVec 12
abbrev ExpertId := BitVec 16
abbrev RegionId := BitVec 16
abbrev PortId := BitVec 5
abbrev DomId := BitVec 6

end Sys2Proof
end

