-- ==== Sys2Proof/Syntax.lean ====
section
/-! DEFINITION. The commands of the block: one constructor of `Instr` per row of the opcode table, with the operands a row
needs to say which part acts and what the outside world supplies (a host's value, a reply, a sensor's reading). -/

namespace Sys2Proof

/-- Completion status codes (R33, Table 2-1). -/
inductive Status where
  | ok | retryLater | aborted | timeout | windowClosed | faultEcc | faultResidue | translation | protection
  | budgetDeferred | expertFetching | groupEpoch | stepMismatch | draining
  deriving DecidableEq, Repr

/-- One host access through BAR2 (R38): a read of `n` bytes or a write. -/
inductive HostAcc where
  | read (n : Nat)
  | write (data : List Byte)
  deriving DecidableEq, Repr

/-- What the host bus answers while a COPY runs (R509): nothing wrong, or Unsupported Request or Completer Abort, a Completion
Timeout, or poisoned data for the read of a host address. -/
inductive HostFault where
  | none
  | refused (addr : BitVec 64)
  | timeout (addr : BitVec 64)
  | poison (addr : BitVec 64)
  deriving DecidableEq, Repr

/-- The used IMM32 fields of a CE or GME instruction (Table 4-9). -/
structure EngImm where
  lin    : PairIdx
  linEn  : Bool
  lout   : PairIdx
  loutEn : Bool
  acc    : Bool
  ta     : Bool
  tb     : Bool
  deriving DecidableEq, Repr

/-- What another module answers for one 64-byte line (device, line-aligned local address): a status and the line's bytes. -/
structure ExtLine where
  dev    : DevId
  addr   : Nat
  status : Status
  data   : DWord
  deriving DecidableEq, Repr

/-- What the outside world supplies to one run of an engine: the answers of other modules' lines; for each chunk, segment,
record or row (by number) how many of its residue checks fail in a row; the column or lane and the tile's role in its quad
that the last failing check names; whether a quad link payload has an uncorrectable error; and the lines (local address ÷ 64) whose
payload has one on the mesh. -/
structure EngEnv where
  ext     : List ExtLine
  residue : List (Nat × Nat)
  col     : Nat
  role    : BitVec 2
  linkErr : Bool
  mesh    : List Nat
  deriving DecidableEq, Repr

/-- Nothing supplied from outside. -/
def EngEnv.none : EngEnv := ⟨[], [], 0, 0, false, []⟩

/-- A fabric packet (R352): its 32-byte header of Table 13-5, byte 0 in bits [7:0], and the bytes of its data flits. -/
structure Packet where
  hdr  : BitVec 256
  data : List Byte
  deriving DecidableEq, Repr

/-- A link group (R345, R346): the 1,536 bytes of its slots 0 to 23, and the 64 bytes of its trailer. -/
structure LinkGroup where
  slots   : List Byte
  trailer : DWord
  deriving DecidableEq, Repr

/-- The energy a tick counts for one command, or for none: an event of Table 14-1 and its count. -/
structure EventCount where
  owner : Option (QIdx × W32)
  event : BitVec 4
  count : Nat
  deriving DecidableEq, Repr

/-- A mesh transaction that a tick counts (R20, R382, R504): the command its unit works for, the tile it starts from, the tile it runs
to, or the stack, and the bytes it carries. -/
structure MeshMove where
  owner : Option (QIdx × W32)
  src   : TileId
  dst   : TileId
  stack : Option (BitVec 4)
  bytes : Nat
  deriving DecidableEq, Repr

/-- A memory error that has arisen (Table 1-5): the codeword, by its local address divided by 32, and whether it is beyond
correction. -/
structure Upset where
  cw    : Nat
  fatal : Bool
  deriving DecidableEq, Repr

/-- What the built-in self-test finds at a cold start (R473): the control dies and stacks that pass, tiles that fail otherwise, and
the failing cube columns of tiles. -/
structure SelfTest where
  ctlOk  : BitVec 2
  stkOk  : BitVec 16
  failed : List TileId
  cols   : List (TileId × List (BitVec 4))
  deriving DecidableEq, Repr, Inhabited

/-- Why the hot-swap stage disconnects the input (R496). -/
inductive InputFault where
  | under | over | current
  deriving DecidableEq, Repr

/-- The commands. Each constructor's comment gives its row of the opcode table and the rule. -/
inductive Instr where
  /-- REGISTER_WRITE (R7): Host or CSR write to a register field that has no row of its own, acting by its access type (RW, W1C, W1S, WO). -/
  | registerWrite (off : BitVec 28) (bytes : BitVec 4) (v : BitVec 64)
  /-- RC_COUNTER_READ (R9): Read of an RC counter returns its value and clears it, keeping any increment of the same cycle. -/
  | rcCounterRead (off : BitVec 28) (bytes : BitVec 4)
  /-- BAR2_ACCESS (R38): Host access through BAR2 reaches HBM of the stack that HOSTWIN selects, without translation. -/
  | bar2Access (off : BitVec 36) (acc : HostAcc)
  /-- HOSTWIN_WRITE (R38): Host write to HOSTWIN changes the BAR2 stack, ordered after earlier posted BAR2 writes. -/
  | hostwinWrite (v : BitVec 32)
  /-- QUEUE_ENABLE (R46): QCFG.EN written 1: the queue goes RUNNING with its ring indices zeroed, or stays DISABLED with CFG_ERR, or holds PEND_EN while draining. -/
  | queueEnable (q : QIdx) (cfg : BitVec 32)
  /-- QUEUE_DISABLE (R46): QCFG.EN written 0: a RUNNING or STOPPED queue enters DRAINING and dispatches nothing more. -/
  | queueDisable (q : QIdx) (cfg : BitVec 32)
  /-- QUEUE_RESUME (R506): QCFG.RESUME with EN 1 on a STOPPED queue aborts dependent commands and continues dispatch. -/
  | queueResume (q : QIdx) (cfg : BitVec 32)
  /-- SQ_DOORBELL (R45): Host write of QSQ_DB.TAIL posts new submission entries, or sets DB_DISABLED when the queue is DISABLED. -/
  | sqDoorbell (q : QIdx) (tail : BitVec 16)
  /-- CQ_DOORBELL (R47): Host write of QCQ_DB.HEAD releases completion entries and lets a queue halted on CQ_FULL dispatch again. -/
  | cqDoorbell (q : QIdx) (head : BitVec 16)
  /-- COMMAND_FETCH (R49): The command processor fetches a submission entry and its commands and checks each command when it fetches it. -/
  | commandFetch (q : QIdx)
  /-- REFUSED_COMMAND_STOP (R49): Once every earlier command has been dispatched, a refused command writes its ABORTED record, sets BAD_CMD and stops the queue. -/
  | refusedCommandStop (q : QIdx)
  /-- QUEUE_DRAIN_DONE (R46): The last dispatched command of a DRAINING queue writes its record, and the queue goes DISABLED or acts on a held enable. -/
  | queueDrainDone (q : QIdx)
  /-- COMMAND_DISPATCH (R55): A command that has become eligible through its dependences, window and tile set becomes a ledger candidate and is dispatched once admitted. -/
  | commandDispatch (q : QIdx) (seq : BitVec 32) (raced : List Nat)
  /-- NOP (R51): Command NOP takes effect in queue order and writes a record only when CREC is 1. -/
  | cmdNop (q : QIdx) (seq : BitVec 32)
  /-- LAUNCH (R58): LAUNCH command starts the program on the enabled tiles or complete quads of its set, with the start registers of Table 2-12. -/
  | launch (q : QIdx) (seq : BitVec 32)
  /-- LAUNCH_COMPLETE (R59): A launch completes once every X-core has retired END and its writes are visible. -/
  | launchComplete (q : QIdx) (seq : BitVec 32) (energy : BitVec 32) (kcc : BitVec 32) (dests : List Nat)
  /-- COMMAND_COMPLETE (R60): A command other than LAUNCH completes, releases its completion-ring reservation and writes its record when one is due. -/
  | commandComplete (q : QIdx) (seq : BitVec 32) (energy : BitVec 32) (kcc : BitVec 32)
  /-- COPY (R509): COPY command checks its local ranges and moves BYTES from source to destination. -/
  | copy (q : QIdx) (seq : BitVec 32) (host : HostFault)
  /-- EVENT_SIGNAL (R43): EVENT_SIGNAL adds VALUE to counter EVTn modulo 2^32. -/
  | eventSignal (q : QIdx) (seq : BitVec 32)
  /-- EVENT_WAIT (R53): EVENT_WAIT blocks later dispatch of its queue until EVTn reaches VALUE. -/
  | eventWait (q : QIdx) (seq : BitVec 32)
  /-- EVENT_WAIT_SATISFIED (R53): A pending EVENT_WAIT completes when its counter reaches VALUE, unsigned. -/
  | eventWaitSatisfied (q : QIdx) (seq : BitVec 32)
  /-- STEP_BEGIN (R52): STEP_BEGIN checks the routing epoch, the horizon and the recovery state, writes the firn log record and sets the step in force for later launches. -/
  | stepBegin (q : QIdx) (seq : BitVec 32)
  /-- FIRN_RECORD_DURABLE (R52): The firn log record becomes durable in HBM, with the partner's acknowledgement when paired, and STEP_BEGIN completes. -/
  | firnRecordDurable (q : QIdx) (seq : BitVec 32)
  /-- STEP_END (R439): STEP_END copies the loss into the record, pushes the mirror, sets MIRRORED and FIRN_LAST, and in replay compares the loss. -/
  | stepEnd (q : QIdx) (seq : BitVec 32)
  /-- CHAIN (R51): CHAIN continues fetch in the named buffer. -/
  | chain (q : QIdx) (seq : BitVec 32)
  /-- HEARTBEAT (R64): The primary control die sends its heartbeat to the standby every 1 ms. -/
  | heartbeat
  /-- TAKEOVER (R64): After 10 ms without a heartbeat the standby fences the old primary, reconciles and resumes dispatch as primary. -/
  | takeover (gap : BitVec 32) (unacked : List (QIdx×W32)) (recs : List (QIdx×BitVec 16))
  /-- SEM_WRITE (R80): Write to SEMn performs SET of the semaphore value. -/
  | semWrite (t : TileId) (n : SemIdx) (v : BitVec 32)
  /-- SEMAPHORE_POST (R79): A POST from a local or remote unit arrives and adds n to the semaphore, saturating and setting OVF. -/
  | semaphorePost (id : Nat)
  /-- ACQUIRE_GRANT (R81): A pending acquire is granted once the value allows, oldest first, and the value falls by n. -/
  | acquireGrant (t : TileId) (n : SemIdx)
  /-- HELD_POST_RELEASE (R101): A held POST takes effect once every earlier write of the posting unit is visible. -/
  | heldPostRelease (t : TileId)
  /-- WINDOW_OPEN (R90): WIN_CTL.CMD OPEN opens a window and zeroes COUNT, or starts a reopen. -/
  | windowOpen (t : TileId) (w : WinIdx)
  /-- WINDOW_CLOSE (R90): WIN_CTL.CMD CLOSE closes a window in one cycle and withdraws a pending reopen. -/
  | windowClose (t : TileId) (w : WinIdx)
  /-- WINDOW_REOPEN_DONE (R90): A reopen ends when earlier accepted writes are counted, and COUNT is set to the bytes accepted since the OPEN. -/
  | windowReopenDone (t : TileId) (w : WinIdx)
  /-- WIN_RANGE_WRITE (R90): Write to WIN_RANGEw is ignored while the window is open. -/
  | winRangeWrite (t : TileId) (w : WinIdx) (v : BitVec 32)
  /-- SWIZZLE_RANGE_WRITE (R74): Write to SPAD_SWZRn changes bank placement, making the contents of affected units undefined. -/
  | swizzleRangeWrite (t : TileId) (n : BitVec 3) (v : BitVec 32)
  /-- REMOTE_WRITE (R91): A remote write arrives at a tile's window stage and is accepted and counted, or refused whole. -/
  | remoteWrite (id : Nat) (bad : Bool)
  /-- REMOTE_READ (R71): A mesh read of another tile's scratchpad arrives and returns data. -/
  | remoteRead (id : Nat)
  /-- REMOTE_ATOMIC_ADD (R78): An atomic add arrives at a scratchpad and is applied in the bank as a read-modify-write. -/
  | remoteAtomicAdd (id : Nat) (bad : Bool)
  /-- MESH_REPLY (R71): A reply or acknowledgement of an on-module mesh access reaches the issuing unit. -/
  | meshReply (id : Nat) (bad : Bool)
  /-- XLAT_INVAL (R100): XLAT_INVAL.GO invalidates the die translation cache and the TLBs of the die, and sets BUSY. -/
  | xlatInval (d : DieId)
  /-- XLAT_INVAL_DONE (R100): Translations under way end and held entries are dropped, and XLAT_STATUS.BUSY clears. -/
  | xlatInvalDone (d : DieId)
  /-- TILE_RESET (R422): PDC_TILE_RST.GO aborts the tile's launch, drains the tile and runs tile reset. -/
  | tileReset (t : TileId)
  /-- TILE_RESET_DONE (R77): Tile reset finishes zeroing the scratchpad and registers, and BUSY clears. -/
  | tileResetDone (t : TileId)
  /-- XC_NOP (R106): SYS NOP does nothing. -/
  | xNop (t : TileId)
  /-- END (R117): END retires once engine work and the F-core program are done, and the X-core goes IDLE. -/
  | xEnd (t : TileId)
  /-- FENCE (R117): FENCE retires once earlier X-core loads have returned and earlier writes have taken effect. -/
  | xFence (t : TileId)
  /-- FENCE_E (R117): FENCE.E retires as FENCE does and also once earlier CE, GME, COLL and UPD instructions are complete. -/
  | xFenceE (t : TileId)
  /-- IFLUSH (R104): IFLUSH invalidates the X-core instruction cache. -/
  | xIflush (t : TileId)
  /-- BRK (R125): BRK halts the X-core in debug at expert level, and acts as a NOP otherwise. -/
  | xBrk (t : TileId)
  /-- ADD (R106): ALU add of two S registers. -/
  | xAdd (t : TileId) (rd : SReg) (rs1 : SReg) (rs2 : SReg)
  /-- SUB (R106): ALU subtract. -/
  | xSub (t : TileId) (rd : SReg) (rs1 : SReg) (rs2 : SReg)
  /-- AND (R106): ALU bitwise AND. -/
  | xAnd (t : TileId) (rd : SReg) (rs1 : SReg) (rs2 : SReg)
  /-- OR (R106): ALU bitwise OR. -/
  | xOr (t : TileId) (rd : SReg) (rs1 : SReg) (rs2 : SReg)
  /-- XOR (R106): ALU bitwise XOR. -/
  | xXor (t : TileId) (rd : SReg) (rs1 : SReg) (rs2 : SReg)
  /-- SLL (R107): Shift left logical by the low 6 bits of S[RS2]. -/
  | xSll (t : TileId) (rd : SReg) (rs1 : SReg) (rs2 : SReg)
  /-- SRL (R107): Shift right logical. -/
  | xSrl (t : TileId) (rd : SReg) (rs1 : SReg) (rs2 : SReg)
  /-- SRA (R107): Shift right arithmetic. -/
  | xSra (t : TileId) (rd : SReg) (rs1 : SReg) (rs2 : SReg)
  /-- MUL (R106): Low 64 bits of the product. -/
  | xMul (t : TileId) (rd : SReg) (rs1 : SReg) (rs2 : SReg)
  /-- MULHU (R106): High 64 bits of the unsigned product. -/
  | xMulhu (t : TileId) (rd : SReg) (rs1 : SReg) (rs2 : SReg)
  /-- SLT (R106): Signed set-less-than. -/
  | xSlt (t : TileId) (rd : SReg) (rs1 : SReg) (rs2 : SReg)
  /-- SLTU (R106): Unsigned set-less-than. -/
  | xSltu (t : TileId) (rd : SReg) (rs1 : SReg) (rs2 : SReg)
  /-- MIN (R106): Signed minimum. -/
  | xMin (t : TileId) (rd : SReg) (rs1 : SReg) (rs2 : SReg)
  /-- MAX (R106): Signed maximum. -/
  | xMax (t : TileId) (rd : SReg) (rs1 : SReg) (rs2 : SReg)
  /-- MINU (R106): Unsigned minimum. -/
  | xMinu (t : TileId) (rd : SReg) (rs1 : SReg) (rs2 : SReg)
  /-- MAXU (R106): Unsigned maximum. -/
  | xMaxu (t : TileId) (rd : SReg) (rs1 : SReg) (rs2 : SReg)
  /-- ADDI (R106): Add of a sign-extended 12-bit immediate. -/
  | xAddi (t : TileId) (rd : SReg) (rs1 : SReg) (imm : BitVec 12)
  /-- ANDI (R106): AND with an immediate. -/
  | xAndi (t : TileId) (rd : SReg) (rs1 : SReg) (imm : BitVec 12)
  /-- ORI (R106): OR with an immediate. -/
  | xOri (t : TileId) (rd : SReg) (rs1 : SReg) (imm : BitVec 12)
  /-- XORI (R106): XOR with an immediate. -/
  | xXori (t : TileId) (rd : SReg) (rs1 : SReg) (imm : BitVec 12)
  /-- SLLI (R106): Shift left by an immediate. -/
  | xSlli (t : TileId) (rd : SReg) (rs1 : SReg) (sh : BitVec 6)
  /-- SRLI (R106): Logical shift right by an immediate. -/
  | xSrli (t : TileId) (rd : SReg) (rs1 : SReg) (sh : BitVec 6)
  /-- SRAI (R106): Arithmetic shift right by an immediate. -/
  | xSrai (t : TileId) (rd : SReg) (rs1 : SReg) (sh : BitVec 6)
  /-- SLTI (R106): Signed compare with an immediate. -/
  | xSlti (t : TileId) (rd : SReg) (rs1 : SReg) (imm : BitVec 12)
  /-- SLTIU (R106): Unsigned compare with an immediate. -/
  | xSltiu (t : TileId) (rd : SReg) (rs1 : SReg) (imm : BitVec 12)
  /-- LB (R107): Load a sign-extended byte. -/
  | xLb (t : TileId) (rd : SReg) (rs1 : SReg) (imm : BitVec 12)
  /-- LH (R107): Load a sign-extended halfword. -/
  | xLh (t : TileId) (rd : SReg) (rs1 : SReg) (imm : BitVec 12)
  /-- LW (R107): Load a sign-extended word. -/
  | xLw (t : TileId) (rd : SReg) (rs1 : SReg) (imm : BitVec 12)
  /-- LD (R107): Load a doubleword, faulting precisely on failure. -/
  | xLd (t : TileId) (rd : SReg) (rs1 : SReg) (imm : BitVec 12)
  /-- LBU (R107): Load a zero-extended byte. -/
  | xLbu (t : TileId) (rd : SReg) (rs1 : SReg) (imm : BitVec 12)
  /-- LHU (R107): Load a zero-extended halfword. -/
  | xLhu (t : TileId) (rd : SReg) (rs1 : SReg) (imm : BitVec 12)
  /-- LWU (R107): Load a zero-extended word. -/
  | xLwu (t : TileId) (rd : SReg) (rs1 : SReg) (imm : BitVec 12)
  /-- SB (R107): Store a byte as a posted write. -/
  | xSb (t : TileId) (rs1 : SReg) (rs2 : SReg) (imm : BitVec 12)
  /-- SH (R107): Store a halfword. -/
  | xSh (t : TileId) (rs1 : SReg) (rs2 : SReg) (imm : BitVec 12)
  /-- SW (R107): Store a word. -/
  | xSw (t : TileId) (rs1 : SReg) (rs2 : SReg) (imm : BitVec 12)
  /-- SD (R107): Store a doubleword. -/
  | xSd (t : TileId) (rs1 : SReg) (rs2 : SReg) (imm : BitVec 12)
  /-- BEQ (R106): Branch if equal. -/
  | xBeq (t : TileId) (rs1 : SReg) (rs2 : SReg) (off : BitVec 13)
  /-- BNE (R106): Branch if not equal. -/
  | xBne (t : TileId) (rs1 : SReg) (rs2 : SReg) (off : BitVec 13)
  /-- BLT (R106): Branch if less, signed. -/
  | xBlt (t : TileId) (rs1 : SReg) (rs2 : SReg) (off : BitVec 13)
  /-- BGE (R106): Branch if greater or equal, signed. -/
  | xBge (t : TileId) (rs1 : SReg) (rs2 : SReg) (off : BitVec 13)
  /-- BLTU (R106): Branch if less, unsigned. -/
  | xBltu (t : TileId) (rs1 : SReg) (rs2 : SReg) (off : BitVec 13)
  /-- BGEU (R106): Branch if greater or equal, unsigned. -/
  | xBgeu (t : TileId) (rs1 : SReg) (rs2 : SReg) (off : BitVec 13)
  /-- BPANY (R106): Branch if any lane of the predicate is set. -/
  | xBpany (t : TileId) (p : PReg) (off : BitVec 13)
  /-- BPNONE (R106): Branch if no lane of the predicate is set. -/
  | xBpnone (t : TileId) (p : PReg) (off : BitVec 13)
  /-- JAL (R106): Jump and link, PC-relative. -/
  | xJal (t : TileId) (rd : SReg) (off : BitVec 21)
  /-- JALR (R106): Jump and link through a register. -/
  | xJalr (t : TileId) (rd : SReg) (rs1 : SReg) (imm : BitVec 12)
  /-- CSRR_W (R108): Read a 4-byte register of the tile's own block. -/
  | xCsrrW (t : TileId) (rd : SReg) (rs1 : SReg) (imm : BitVec 12)
  /-- CSRW_W (R108): Write a 4-byte register of the own block; the X-core control block ignores it. -/
  | xCsrwW (t : TileId) (rd : SReg) (rs1 : SReg) (imm : BitVec 12)
  /-- CSRR_D (R108): Read an 8-byte own-tile register. -/
  | xCsrrD (t : TileId) (rd : SReg) (rs1 : SReg) (imm : BitVec 12)
  /-- CSRW_D (R108): Write an 8-byte own-tile register. -/
  | xCsrwD (t : TileId) (rd : SReg) (rs1 : SReg) (imm : BitVec 12)
  /-- AADD_W (R109): Posted 32-bit integer atomic add. -/
  | xAaddW (t : TileId) (rs1 : SReg) (rs2 : SReg)
  /-- AADD_D (R109): Posted 64-bit integer atomic add. -/
  | xAaddD (t : TileId) (rs1 : SReg) (rs2 : SReg)
  /-- AADDR_W (R109): 32-bit atomic add that returns the old value. -/
  | xAaddrW (t : TileId) (rd : SReg) (rs1 : SReg) (rs2 : SReg)
  /-- AADDR_D (R109): 64-bit atomic add that returns the old value. -/
  | xAaddrD (t : TileId) (rd : SReg) (rs1 : SReg) (rs2 : SReg)
  /-- VFADD (R111): FP32 vector add. -/
  | vfadd (t : TileId) (pg : PReg) (vd : VReg) (va : VReg) (vb : VReg)
  /-- VFSUB (R111): FP32 vector subtract. -/
  | vfsub (t : TileId) (pg : PReg) (vd : VReg) (va : VReg) (vb : VReg)
  /-- VFMUL (R111): FP32 vector multiply. -/
  | vfmul (t : TileId) (pg : PReg) (vd : VReg) (va : VReg) (vb : VReg)
  /-- VFMA (R111): FP32 fused multiply-add into Vd. -/
  | vfma (t : TileId) (pg : PReg) (vd : VReg) (va : VReg) (vb : VReg)
  /-- VFMIN (R111): FP32 vector minimum. -/
  | vfmin (t : TileId) (pg : PReg) (vd : VReg) (va : VReg) (vb : VReg)
  /-- VFMAX (R111): FP32 vector maximum. -/
  | vfmax (t : TileId) (pg : PReg) (vd : VReg) (va : VReg) (vb : VReg)
  /-- VFABS (R111): FP32 absolute value. -/
  | vfabs (t : TileId) (pg : PReg) (vd : VReg) (va : VReg)
  /-- VFNEG (R111): FP32 negate. -/
  | vfneg (t : TileId) (pg : PReg) (vd : VReg) (va : VReg)
  /-- VFRCP (R111): Correctly rounded FP32 reciprocal. -/
  | vfrcp (t : TileId) (pg : PReg) (vd : VReg) (va : VReg)
  /-- VFRSQ (R111): Correctly rounded FP32 reciprocal square root. -/
  | vfrsq (t : TileId) (pg : PReg) (vd : VReg) (va : VReg)
  /-- VFEXP2 (R111): Correctly rounded FP32 exp2. -/
  | vfexp2 (t : TileId) (pg : PReg) (vd : VReg) (va : VReg)
  /-- VFLOG2 (R111): Correctly rounded FP32 log2. -/
  | vflog2 (t : TileId) (pg : PReg) (vd : VReg) (va : VReg)
  /-- VADD (R110): INT32 vector add. -/
  | vadd (t : TileId) (pg : PReg) (vd : VReg) (va : VReg) (vb : VReg)
  /-- VSUB (R110): INT32 vector subtract. -/
  | vsub (t : TileId) (pg : PReg) (vd : VReg) (va : VReg) (vb : VReg)
  /-- VMUL (R110): INT32 multiply, low 32 bits. -/
  | vmul (t : TileId) (pg : PReg) (vd : VReg) (va : VReg) (vb : VReg)
  /-- VAND (R110): INT32 vector AND. -/
  | vand (t : TileId) (pg : PReg) (vd : VReg) (va : VReg) (vb : VReg)
  /-- VOR (R110): INT32 vector OR. -/
  | vor (t : TileId) (pg : PReg) (vd : VReg) (va : VReg) (vb : VReg)
  /-- VXOR (R110): INT32 vector XOR. -/
  | vxor (t : TileId) (pg : PReg) (vd : VReg) (va : VReg) (vb : VReg)
  /-- VSLL (R110): INT32 shift left. -/
  | vsll (t : TileId) (pg : PReg) (vd : VReg) (va : VReg) (vb : VReg)
  /-- VSRL (R110): INT32 logical shift right. -/
  | vsrl (t : TileId) (pg : PReg) (vd : VReg) (va : VReg) (vb : VReg)
  /-- VSRA (R110): INT32 arithmetic shift right. -/
  | vsra (t : TileId) (pg : PReg) (vd : VReg) (va : VReg) (vb : VReg)
  /-- VMIN (R110): INT32 signed minimum. -/
  | vmin (t : TileId) (pg : PReg) (vd : VReg) (va : VReg) (vb : VReg)
  /-- VMAX (R110): INT32 signed maximum. -/
  | vmax (t : TileId) (pg : PReg) (vd : VReg) (va : VReg) (vb : VReg)
  /-- VMINU (R110): INT32 unsigned minimum. -/
  | vminu (t : TileId) (pg : PReg) (vd : VReg) (va : VReg) (vb : VReg)
  /-- VMAXU (R110): INT32 unsigned maximum. -/
  | vmaxu (t : TileId) (pg : PReg) (vd : VReg) (va : VReg) (vb : VReg)
  /-- VMOV (R110): Vector move. -/
  | vmov (t : TileId) (pg : PReg) (vd : VReg) (va : VReg)
  /-- VBCAST (R110): Broadcast S[RS1][31:0] to all lanes. -/
  | vbcast (t : TileId) (pg : PReg) (vd : VReg) (rs : SReg)
  /-- VEXT (R510): Extract one lane to an S register, not governed by PG. -/
  | vext (t : TileId) (pg : PReg) (rd : SReg) (va : VReg) (rs : SReg)
  /-- VINS (R510): Insert a value into one lane when that lane is active. -/
  | vins (t : TileId) (pg : PReg) (vd : VReg) (rs1 : SReg) (rs2 : SReg)
  /-- VSHUF (R110): Lane shuffle by the indices in Vb. -/
  | vshuf (t : TileId) (pg : PReg) (vd : VReg) (va : VReg) (vb : VReg)
  /-- VIOTA (R110): Write the lane index into each lane. -/
  | viota (t : TileId) (pg : PReg) (vd : VReg)
  /-- VSEL (R510): Select Va or Vb per lane by the predicate. -/
  | vsel (t : TileId) (pg : PReg) (vd : VReg) (va : VReg) (vb : VReg)
  /-- VRSUM (R112): FP32 sum of lanes in the fixed pairwise tree. -/
  | vrsum (t : TileId) (pg : PReg) (rd : SReg) (va : VReg)
  /-- VRMAX (R112): FP32 maximum reduction. -/
  | vrmax (t : TileId) (pg : PReg) (rd : SReg) (va : VReg)
  /-- VRMIN (R112): FP32 minimum reduction. -/
  | vrmin (t : TileId) (pg : PReg) (rd : SReg) (va : VReg)
  /-- VRADD (R112): INT32 wrapping sum reduction. -/
  | vradd (t : TileId) (pg : PReg) (rd : SReg) (va : VReg)
  /-- VCVT_F2I (R130): FP32 to INT32, round to nearest even and saturate. -/
  | vcvtF2i (t : TileId) (pg : PReg) (vd : VReg) (va : VReg)
  /-- VCVT_I2F (R130): INT32 to FP32. -/
  | vcvtI2f (t : TileId) (pg : PReg) (vd : VReg) (va : VReg)
  /-- VCVT_F2BF16 (R130): FP32 to BF16. -/
  | vcvtF2bf16 (t : TileId) (pg : PReg) (vd : VReg) (va : VReg)
  /-- VCVT_BF162F (R510): BF16 to FP32. -/
  | vcvtBf162f (t : TileId) (pg : PReg) (vd : VReg) (va : VReg)
  /-- VCVT_F2FP16 (R130): FP32 to FP16. -/
  | vcvtF2fp16 (t : TileId) (pg : PReg) (vd : VReg) (va : VReg)
  /-- VCVT_FP162F (R510): FP16 to FP32. -/
  | vcvtFp162f (t : TileId) (pg : PReg) (vd : VReg) (va : VReg)
  /-- VCVT_F2E4M3 (R130): FP32 to E4M3, saturating. -/
  | vcvtF2e4m3 (t : TileId) (pg : PReg) (vd : VReg) (va : VReg)
  /-- VCVT_E4M32F (R510): E4M3 to FP32. -/
  | vcvtE4m32f (t : TileId) (pg : PReg) (vd : VReg) (va : VReg)
  /-- VCVT_F2E5M2 (R130): FP32 to E5M2, saturating. -/
  | vcvtF2e5m2 (t : TileId) (pg : PReg) (vd : VReg) (va : VReg)
  /-- VCVT_E5M22F (R510): E5M2 to FP32. -/
  | vcvtE5m22f (t : TileId) (pg : PReg) (vd : VReg) (va : VReg)
  /-- VLD (R113): Load 256 bytes into 64 lanes. -/
  | vld (t : TileId) (pg : PReg) (vd : VReg) (rs1 : SReg) (imm : BitVec 10)
  /-- VST (R113): Store 64 lanes as 256 bytes, remote lines checked against windows. -/
  | vst (t : TileId) (pg : PReg) (vd : VReg) (rs1 : SReg) (imm : BitVec 10)
  /-- VLD_H (R113): Load 64 halfwords, zero-extended. -/
  | vldH (t : TileId) (pg : PReg) (vd : VReg) (rs1 : SReg) (imm : BitVec 10)
  /-- VST_H (R113): Store 64 halfwords. -/
  | vstH (t : TileId) (pg : PReg) (vd : VReg) (rs1 : SReg) (imm : BitVec 10)
  /-- VLD_B (R113): Load 64 bytes, zero-extended. -/
  | vldB (t : TileId) (pg : PReg) (vd : VReg) (rs1 : SReg) (imm : BitVec 10)
  /-- VST_B (R113): Store 64 bytes. -/
  | vstB (t : TileId) (pg : PReg) (vd : VReg) (rs1 : SReg) (imm : BitVec 10)
  /-- VLD_BC (R113): Load 4 bytes into every active lane. -/
  | vldBc (t : TileId) (pg : PReg) (vd : VReg) (rs1 : SReg) (imm : BitVec 10)
  /-- VFEQ (R110): FP32 equal compare into a predicate. -/
  | vfeq (t : TileId) (pg : PReg) (pd : PReg) (va : VReg) (vb : VReg)
  /-- VFLT (R110): FP32 less-than compare. -/
  | vflt (t : TileId) (pg : PReg) (pd : PReg) (va : VReg) (vb : VReg)
  /-- VFLE (R110): FP32 less-or-equal compare. -/
  | vfle (t : TileId) (pg : PReg) (pd : PReg) (va : VReg) (vb : VReg)
  /-- VIEQ (R110): INT32 equal compare. -/
  | vieq (t : TileId) (pg : PReg) (pd : PReg) (va : VReg) (vb : VReg)
  /-- VILT (R110): INT32 signed less-than. -/
  | vilt (t : TileId) (pg : PReg) (pd : PReg) (va : VReg) (vb : VReg)
  /-- VILE (R110): INT32 signed less-or-equal. -/
  | vile (t : TileId) (pg : PReg) (pd : PReg) (va : VReg) (vb : VReg)
  /-- VILTU (R110): INT32 unsigned less-than. -/
  | viltu (t : TileId) (pg : PReg) (pd : PReg) (va : VReg) (vb : VReg)
  /-- PAND (R110): Predicate AND. -/
  | pand (t : TileId) (pg : PReg) (pd : PReg) (pa : PReg) (pb : PReg)
  /-- POR (R110): Predicate OR. -/
  | por (t : TileId) (pg : PReg) (pd : PReg) (pa : PReg) (pb : PReg)
  /-- PXOR (R110): Predicate XOR. -/
  | pxor (t : TileId) (pg : PReg) (pd : PReg) (pa : PReg) (pb : PReg)
  /-- PNOT (R110): Predicate NOT. -/
  | pnot (t : TileId) (pg : PReg) (pd : PReg) (pa : PReg)
  /-- PFIRST (R110): Set the first S[RS1] lanes of a predicate. -/
  | pfirst (t : TileId) (pg : PReg) (pd : PReg) (rs : SReg)
  /-- PCNT (R510): Count the set bits of a predicate in active lanes. -/
  | pcnt (t : TileId) (pg : PReg) (rd : SReg) (pa : PReg)
  /-- LI (R106): Load a sign-extended 32-bit immediate. -/
  | xLi (t : TileId) (rt : SReg) (imm : BitVec 32)
  /-- LIH (R106): Load the upper 32 bits of an S register. -/
  | xLih (t : TileId) (rt : SReg) (imm : BitVec 32)
  /-- ADDI32 (R106): Add a 32-bit immediate. -/
  | xAddi32 (t : TileId) (rt : SReg) (rs : SReg) (imm : BitVec 32)
  /-- DLD (R106): Load a 64-byte descriptor register from memory. -/
  | xDld (t : TileId) (da : DReg) (rs : SReg) (imm : BitVec 32)
  /-- DST (R106): Store a descriptor register to memory. -/
  | xDst (t : TileId) (da : DReg) (rs : SReg) (imm : BitVec 32)
  /-- DINS (R106): Insert a 64-bit field into a descriptor register. -/
  | xDins (t : TileId) (da : DReg) (rt : SReg) (fld : BitVec 3)
  /-- DEXT (R106): Extract a 64-bit field of a descriptor register. -/
  | xDext (t : TileId) (da : DReg) (rt : SReg) (fld : BitVec 3)
  /-- DMOV (R106): Copy one descriptor register to another. -/
  | xDmov (t : TileId) (da : DReg) (db : DReg)
  /-- CE_MM (R114): Issue a dense product to the Cube Engine queue, copying its descriptors. -/
  | ceMm (t : TileId) (da : DReg) (db : DReg) (dc : DReg) (imm : EngImm)
  /-- CE_GROUPED (R271): Issue a grouped-operation table walk to the Cube Engine. -/
  | ceGrouped (t : TileId) (da : DReg) (rs : SReg) (rt : SReg) (imm : EngImm)
  /-- CE_EXECUTE (R188): The Cube Engine takes a queued instruction and runs its steps, deferring grouped entries on demand fetches. -/
  | ceExecute (t : TileId) (env : EngEnv)
  /-- CE_INSTRUCTION_COMPLETE (R195): A CE instruction's writes become visible, and it posts LOUT FULL or reports its status. -/
  | ceInstructionComplete (t : TileId)
  /-- GROUPED_RESIDENCY_POLL (R272): A deferred grouped entry re-reads its residency every 1,024 cc. -/
  | groupedResidencyPoll (t : TileId) (env : EngEnv)
  /-- DEMAND_TIMEOUT (R272): A deferred entry still not resident after 2^DEMAND_LOG2 cc ends the instruction with TIMEOUT. -/
  | demandTimeout (t : TileId)
  /-- GME_GATHER (R215): Copy the table rows that an index list names into the destination. -/
  | gmeGather (t : TileId) (da : DReg) (db : DReg) (dc : DReg) (imm : EngImm)
  /-- GME_SEGRED (R216): Segmented reduction in fixed runs of 32 rows and a pairwise tree. -/
  | gmeSegred (t : TileId) (da : DReg) (db : DReg) (dc : DReg) (imm : EngImm)
  /-- GME_MERGE (R218): Merge two sorted key-value lists. -/
  | gmeMerge (t : TileId) (da : DReg) (db : DReg) (dc : DReg) (imm : EngImm)
  /-- GME_SCATTER (R219): Scatter source rows into table rows, copying or adding in FP32. -/
  | gmeScatter (t : TileId) (da : DReg) (db : DReg) (dc : DReg) (imm : EngImm)
  /-- GME_EXECUTE (R211): The GME takes a queued instruction or prediction command and runs its body. -/
  | gmeExecute (t : TileId) (env : EngEnv)
  /-- GME_INSTRUCTION_COMPLETE (R211): A GME instruction's writes become visible, and it posts or reports its status. -/
  | gmeInstructionComplete (t : TileId)
  /-- TOPK (R258): GME.RANK OP TOPK writes K route records per token. -/
  | topk (t : TileId) (da : DReg) (db : DReg) (dc : DReg) (imm : EngImm)
  /-- BUCKET (R259): GME.RANK OP BUCKET sorts records by destination, expert and key and writes key headers. -/
  | bucket (t : TileId) (da : DReg) (db : DReg) (dc : DReg) (imm : EngImm)
  /-- CUT (R261): GME.RANK OP CUT ranks each hosted expert's records, keeps C, writes replies and adds drops to EXD_DROP. -/
  | cut (t : TileId) (da : DReg) (db : DReg) (dc : DReg) (imm : EngImm)
  /-- PLACE (R262): GME.RANK OP PLACE writes the send list of kept records. -/
  | place (t : TileId) (da : DReg) (db : DReg) (dc : DReg) (imm : EngImm)
  /-- JOIN (R262): GME.RANK OP JOIN writes each token's combine list. -/
  | join (t : TileId) (da : DReg) (db : DReg) (dc : DReg) (imm : EngImm)
  /-- RPOST (R117): Post to a semaphore of another tile or module as a release. -/
  | xRpost (t : TileId) (rs : SReg) (rt : SReg) (treg : Bool) (tile : TileId) (count : BitVec 16) (n : SemIdx)
  /-- COLL_SEG (R371): Issue one collective segment of the group's TSEG_KIND, checking the group epoch. -/
  | collSeg (t : TileId) (da : DReg) (dc : DReg) (rs : SReg) (grp : GroupId) (link : PairIdx) (linkEn : Bool) (seg : BitVec 14)
  /-- COLL_NULL (R371): Issue a null contribution to a segment. -/
  | collNull (t : TileId) (rs : SReg) (grp : GroupId) (link : PairIdx) (linkEn : Bool) (seg : BitVec 14)
  /-- UPD_POST (R320): Send the Ablation command in D[DA] to the stack of its region. -/
  | updPost (t : TileId) (da : DReg) (link : PairIdx) (linkEn : Bool)
  /-- RGN_ACQ (R304): Request a reader reference on a region's epoch E. -/
  | rgnAcq (t : TileId) (rs : SReg) (r : RegionId) (link : PairIdx)
  /-- RGN_REL (R306): Release a reader reference once earlier reads are done. -/
  | rgnRel (t : TileId) (rs : SReg) (r : RegionId)
  /-- SACQ (R117): Acquire n on a semaphore, blocking until granted. -/
  | xSacq (t : TileId) (rs : SReg) (imm : BitVec 11) (n : SemIdx)
  /-- SPOST (R117): Post n on a semaphore as a release once earlier accesses are done. -/
  | xSpost (t : TileId) (rs : SReg) (imm : BitVec 11) (n : SemIdx)
  /-- SSET (R117): Set a semaphore value as the first event of its cycle. -/
  | xSset (t : TileId) (rs : SReg) (imm : BitVec 11) (n : SemIdx)
  /-- SRD (R117): Read a semaphore value into S[RS]. -/
  | xSrd (t : TileId) (rs : SReg) (n : SemIdx)
  /-- STRY (R117): Try to acquire without blocking, returning 1 or 0. -/
  | xStry (t : TileId) (rs : SReg) (imm : BitVec 11) (n : SemIdx)
  /-- WOPEN (R117): Open or reopen a window, waiting for a reopen to end. -/
  | xWopen (t : TileId) (rs : SReg) (w : WinIdx)
  /-- WCLOSE (R117): Close a window. -/
  | xWclose (t : TileId) (w : WinIdx)
  /-- WWAIT (R95): Wait until a window's COUNT reaches a threshold. -/
  | xWwait (t : TileId) (rs : SReg) (imm : BitVec 11) (w : WinIdx)
  /-- WCNT (R117): Read a window's COUNT. -/
  | xWcnt (t : TileId) (rs : SReg) (w : WinIdx)
  /-- EWAIT_CE (R117): Wait until outstanding CE instructions fall to a limit. -/
  | xEwaitCe (t : TileId) (n : BitVec 4)
  /-- EWAIT_GME (R117): Wait until outstanding GME instructions fall to a limit. -/
  | xEwaitGme (t : TileId) (n : BitVec 4)
  /-- ESTAT (R117): Read the outstanding CE and GME counts. -/
  | xEstat (t : TileId) (rs : SReg)
  /-- LHINT (R120): Give the ledger a power class hint. -/
  | xLhint (t : TileId) (cls : BitVec 2)
  /-- SCOMMIT (R175): Raise COMMITTED of a run-ahead stream. -/
  | xScommit (t : TileId) (rs : SReg) (imm : BitVec 11) (sl : SlotIdx)
  /-- SCANCEL (R175): Set a stream's new length and drop the buffers beyond it. -/
  | xScancel (t : TileId) (rs : SReg) (imm : BitVec 11) (sl : SlotIdx)
  /-- SSTAT (R175): Read a slot's status word. -/
  | xSstat (t : TileId) (rs : SReg) (sl : SlotIdx)
  /-- SWAIT (R175): Wait until a slot ends or LANDED reaches T. -/
  | xSwait (t : TileId) (rs : SReg) (imm : BitVec 11) (sl : SlotIdx)
  /-- WAIT_SATISFIED (R126): A blocked X-core instruction's condition holds, and the X-core returns to RUNNING. -/
  | waitSatisfied (t : TileId)
  /-- IMPRECISE_FAULT (R121): A late fault from a posted write, an engine or a stream reaches the X-core, which enters FAULTED. -/
  | impreciseFault (t : TileId)
  /-- WATCHDOG_TIMEOUT (R123): XC_WDOG reaches its threshold without a retire, and the X-core takes a TIMEOUT fault. -/
  | watchdogTimeout (t : TileId)
  /-- XC_RESUME (R125): XC_CTL.RESUME takes a HALTED X-core back to RUNNING. -/
  | xcResume (t : TileId)
  /-- FNOP (R155): F-core no-op. -/
  | fNop (t : TileId)
  /-- FEND (R155): Retires when every slot is idle and no transfer is in flight, and the F-core enters ENDED. -/
  | fEnd (t : TileId)
  /-- FADD (R155): F-core add. -/
  | fAdd (t : TileId) (gd : GReg) (ga : GReg) (gb : GReg)
  /-- FSUB (R155): F-core subtract. -/
  | fSub (t : TileId) (gd : GReg) (ga : GReg) (gb : GReg)
  /-- FMUL (R155): F-core multiply. -/
  | fMul (t : TileId) (gd : GReg) (ga : GReg) (gb : GReg)
  /-- FADDI (R155): F-core add of an immediate. -/
  | fAddi (t : TileId) (gd : GReg) (ga : GReg) (imm : BitVec 14)
  /-- FSLLI (R155): F-core shift left by an immediate. -/
  | fSlli (t : TileId) (gd : GReg) (ga : GReg) (sh : BitVec 6)
  /-- FSRLI (R155): F-core logical shift right. -/
  | fSrli (t : TileId) (gd : GReg) (ga : GReg) (sh : BitVec 6)
  /-- FORI (R155): F-core OR with an immediate. -/
  | fOri (t : TileId) (gd : GReg) (ga : GReg) (imm : BitVec 14)
  /-- FANDI (R155): F-core AND with an immediate. -/
  | fAndi (t : TileId) (gd : GReg) (ga : GReg) (imm : BitVec 14)
  /-- FLD (R158): F-core 8-byte load. -/
  | fLd (t : TileId) (gd : GReg) (ga : GReg) (imm : BitVec 14)
  /-- FST (R158): F-core 8-byte store. -/
  | fSt (t : TileId) (ga : GReg) (gb : GReg) (imm : BitVec 14)
  /-- FBEQ (R155): F-core branch if equal. -/
  | fBeq (t : TileId) (ga : GReg) (gb : GReg) (imm : BitVec 14)
  /-- FBNE (R155): F-core branch if not equal. -/
  | fBne (t : TileId) (ga : GReg) (gb : GReg) (imm : BitVec 14)
  /-- FBLT (R155): F-core branch if less, signed. -/
  | fBlt (t : TileId) (ga : GReg) (gb : GReg) (imm : BitVec 14)
  /-- FBLTU (R155): F-core branch if less, unsigned. -/
  | fBltu (t : TileId) (ga : GReg) (gb : GReg) (imm : BitVec 14)
  /-- SOPEN (R157): Open a slot with a stream descriptor, waiting for the slot to be free. -/
  | fSopen (t : TileId) (ga : GReg) (sl : SlotIdx)
  /-- SJOIN (R155): Wait until a slot is IDLE or ABORTED. -/
  | fSjoin (t : TileId) (sl : SlotIdx)
  /-- FSACQ (R156): F-core program acquire on a semaphore. -/
  | fSacq (t : TileId) (ga : GReg) (cnt : BitVec 8) (n : SemIdx)
  /-- FSPOST (R156): F-core program post on a semaphore. -/
  | fSpost (t : TileId) (ga : GReg) (cnt : BitVec 8) (n : SemIdx)
  /-- FSTAT (R155): Read a slot's status word into G[GD]. -/
  | fStat (t : TileId) (gd : GReg) (sl : SlotIdx)
  /-- STREAM_ACCEPT (R163): A slot accepts or refuses a stream descriptor once its reads return, setting its pair and snapshot. -/
  | streamAccept (t : TileId) (sl : SlotIdx) (env : EngEnv)
  /-- STREAM_TRANSFER_ISSUE (R167): The F-core issues one 64-byte transfer per cc for a RUNNING slot, round-robin. -/
  | streamTransferIssue (t : TileId) (sl : SlotIdx)
  /-- TRANSFER_REPLY (R168): A transfer reply lands, and a completed buffer makes its posts in buffer order. -/
  | transferReply (t : TileId) (id : Nat) (bad : Bool)
  /-- TRANSFER_TIMEOUT (R169): A transfer with no reply after 65,536 cc ends with TIMEOUT. -/
  | transferTimeout (t : TileId) (id : Nat)
  /-- PROGRESS_TIMEOUT (R179): FC_PROGRESS reaches its limit, and the youngest BLOCKED slot or the waiting F-core program is aborted. -/
  | progressTimeout (t : TileId)
  /-- STREAM_ABORT_COMPLETE (R171): An ABORTING slot's transfers end, its semaphores return to the snapshot and it enters ABORTED. -/
  | streamAbortComplete (t : TileId) (sl : SlotIdx)
  /-- CANCEL_COMPLETE (R175): Dropped transfers drain and credits are returned, ending CANCELLING. -/
  | cancelComplete (t : TileId) (sl : SlotIdx)
  /-- SCAN (R242): Prediction command SCAN writes the active lists and the audit lists of each list block. -/
  | scan (t : TileId)
  /-- CHECK (R246): Prediction command CHECK counts the audited misses and adds them to the tally. -/
  | check (t : TileId) (env : EngEnv)
  /-- VERDICT (R247): Prediction command VERDICT reads the tally and sets PRED_VERDICT. -/
  | verdict (t : TileId) (env : EngEnv)
  /-- ADOPT_RES (R279): EXD_CMD ADOPT_RES makes a NONE entry RESIDENT at VA. -/
  | adoptRes (e : ExpertId)
  /-- ADOPT_REST (R279): EXD_CMD ADOPT_REST makes a NONE entry RESTING. -/
  | adoptRest (e : ExpertId)
  /-- DROP (R279): EXD_CMD DROP returns an entry to NONE. -/
  | drop (e : ExpertId)
  /-- COMMIT (R277): EXD_CMD COMMIT copies the staged routing parts into the next epoch image. -/
  | commit
  /-- EXD_COMMIT_COMPLETE (R277): The image copy ends, CURRENT increments and BUSY clears. -/
  | exdCommitComplete
  /-- RETRY (R279): EXD_CMD RETRY starts a fetch of a FAULTED expert. -/
  | retry (e : ExpertId)
  /-- FETCH (R286): EXPERT_PREFETCH FETCH queues fetches of the named experts. -/
  | fetch (q : QIdx) (seq : BitVec 32)
  /-- EVICT (R286): EXPERT_PREFETCH EVICT queues evictions of the named experts. -/
  | evict (q : QIdx) (seq : BitVec 32)
  /-- PIN (R286): EXPERT_PREFETCH PIN sets PINNED. -/
  | pin (q : QIdx) (seq : BitVec 32)
  /-- UNPIN (R286): EXPERT_PREFETCH UNPIN clears PINNED. -/
  | unpin (q : QIdx) (seq : BitVec 32)
  /-- DIRECTORY_TRANSFER_START (R283): The directory starts its next fetch or write-back, demands first, choosing a victim slot if needed. -/
  | directoryTransferStart
  /-- FETCH_COMPLETE (R281): A fetch ends RESIDENT with the residency-table write, or FAULTED. -/
  | fetchComplete (bad : Bool)
  /-- EVICTION_COMPLETE (R281): A write-back ends RESTING with the slot freed, or back to RESIDENT on error. -/
  | evictionComplete (bad : Bool)
  /-- MORAINE_TIMEOUT (R289): A CXL.mem transaction without completion in 1 ms ends with TIMEOUT. -/
  | moraineTimeout (lines : List Nat)
  /-- REGION_ACQUIRE (R308): An RGN.ACQ reaches the version entry and is granted, held or refused. -/
  | regionAcquire (t : TileId) (r : RegionId)
  /-- REGION_RELEASE (R306): An RGN.REL lowers a reader count, possibly starting a waiting update or a flip. -/
  | regionRelease (t : TileId) (r : RegionId)
  /-- ABLATION_COMMAND_ARRIVAL (R322): An accepted Ablation command reaches its region's version entry as an update. -/
  | ablationCommandArrival (st : StackId)
  /-- READER_WAIT_TIMEOUT (R308): WAIT_MS elapses in WAIT_READERS, and the update ends TIMEOUT. -/
  | readerWaitTimeout (r : RegionId)
  /-- RGNV_WRITE (R311): Host write to a version entry's EPOCH, DOUBLE or counts under its state conditions. -/
  | rgnvWrite (r : RegionId) (k : BitVec 2) (v : BitVec 32)
  /-- UPDATE (R319): UPDATE command delivers n Ablation commands to their stacks in body order. -/
  | update (q : QIdx) (seq : BitVec 32)
  /-- APPLY (R326): Ablation command APPLY updates a region by plain descent or the two-moment rule and writes its image. -/
  | apply (st : StackId) (residue : List (Nat×Nat))
  /-- EMPTY (R333): Ablation command EMPTY skips or decays a region that received no token. -/
  | empty (st : StackId) (residue : List (Nat×Nat))
  /-- REIMAGE (R331): Ablation command REIMAGE rewrites the image from the master and advances the epoch. -/
  | reimage (st : StackId) (residue : List (Nat×Nat))
  /-- ABLATION_COMMAND_COMPLETE (R334): An Ablation command's last writes become visible and the version entry advances. -/
  | ablationCommandComplete (st : StackId)
  /-- ABLATION_COMMAND_TIMEOUT (R338): A command in WRITING that completes no block for TIMEOUT_MS ends with TIMEOUT. -/
  | ablationCommandTimeout (st : StackId)
  /-- INBOX_BUFFER (R324): A gradient buffer, possibly null, lands in an inbox channel and is later consumed, returning a credit. -/
  | inboxBuffer (st : StackId) (ch : BitVec 4)
  /-- INBOX_RESET (R325): ABL_INBOXc.RESET discards held buffers, returns credits and clears FAILED. -/
  | inboxReset (st : StackId) (ch : BitVec 4)
  /-- ABL_MC_LOAD (R339): ABL_MC_CTL.LOAD starts draining for a microcode load, or sets PEND. -/
  | ablMcLoad (st : StackId)
  /-- ABL_DRAIN_DONE (R339): The Ablation queue empties, and the sequencer reads and verifies the staged image. -/
  | ablDrainDone (st : StackId)
  /-- ABL_MC_LOAD_DONE (R339): The load ends on the new microcode or, on error, on the old one. -/
  | ablMcLoadDone (st : StackId)
  /-- PORT_ENABLE (R350): MOSP_CTL.EN written 1 starts training of a port. -/
  | portEnable (p : PortId)
  /-- PORT_DISABLE (R350): MOSP_CTL.EN written 0 drains or disables a port. -/
  | portDisable (p : PortId)
  /-- FABRIC_DISABLE (R350): MOS_CTL.EN written 0 disables every port and drops held packets. -/
  | fabricDisable
  /-- PORT_TRAINED (R350): Both ends train and the first intact trailer arrives, and the port goes UP. -/
  | portTrained (p : PortId)
  /-- PORT_ACK_TIMEOUT (R350): No ACK progress, lane lock or intact trailer for 100 µs sends the port to RETRAIN. -/
  | portAckTimeout (p : PortId)
  /-- PORT_RETRAINED (R350): Retraining succeeds within 1 ms and the port resumes UP, resending from ACK + 1. -/
  | portRetrained (p : PortId)
  /-- RETRAIN_TIMEOUT (R350): 1 ms of failed retraining restarts training or, the third time, sends the port DOWN. -/
  | retrainTimeout (p : PortId)
  /-- PORT_DRAIN_DONE (R350): Every sent group is acknowledged or 100 µs pass, and the port is DISABLED. -/
  | portDrainDone (p : PortId)
  /-- LINK_GROUP_RECEIVE (R348): A group of 25 slots arrives and is accepted or discarded with NAK, returning credits. -/
  | linkGroupReceive (p : PortId) (g : LinkGroup) (corr : Nat) (unc : Nat)
  /-- WRITE (R354): A WRITE packet arrives or is forwarded, and at its target delivers line writes and one REPLY. -/
  | write (p : PortId) (k : Packet) (bad : Bool)
  /-- READ (R354): A READ packet arrives and is answered with read data. -/
  | read (p : PortId) (k : Packet) (bad : Bool)
  /-- AADD (R361): An AADD packet performs an atomic add at its target. -/
  | aadd (p : PortId) (k : Packet) (bad : Bool)
  /-- POST (R361): A MSG POST packet posts to a semaphore of its target tile. -/
  | post (p : PortId) (k : Packet) (bad : Bool)
  /-- NOTICE_EPOCH (R373): A NOTICE_EPOCH message ends the sender's segment with GROUP_EPOCH. -/
  | noticeEpoch (p : PortId) (k : Packet) (bad : Bool)
  /-- NOTICE_ABORT (R374): A NOTICE_ABORT of the current epoch sends the group to FAILED. -/
  | noticeAbort (p : PortId) (k : Packet) (bad : Bool)
  /-- SEG (R366): A SEG packet arrives, or is held, and is folded or copied into its segment. -/
  | seg (p : PortId) (k : Packet) (bad : Bool)
  /-- REPLY (R354): A REPLY packet returns status, data or an old value to its requester, or is dropped as an orphan. -/
  | reply (p : PortId) (k : Packet) (bad : Bool)
  /-- FABRIC_HOLD_DROP (R359): A REQ or RSP packet held 100 µs at a module is dropped. -/
  | fabricHoldDrop (k : Nat)
  /-- COLLECTIVE (R370): COLLECTIVE command cuts its contribution into segments and runs them on the group. -/
  | collective (q : QIdx) (seq : BitVec 32)
  /-- SEGMENT_COMPLETE (R366): A segment completes locally with its writes or inbox buffers delivered. -/
  | segmentComplete (g : GroupId) (seq : BitVec 32) (peers : List (Option (List Byte))) (fails : Nat) (memErr : Bool) (env : EngEnv)
  /-- SEGMENT_TIMEOUT (R374): A segment without progress for TIMEOUT_MS ends with TIMEOUT and sends NOTICE_ABORT. -/
  | segmentTimeout (g : GroupId) (seq : BitVec 32)
  /-- GROUP_DESCRIPTOR_WRITE (R364): Host write to a group descriptor takes effect only in IDLE or FAILED and resets SEQ. -/
  | groupDescriptorWrite (g : GroupId) (k : BitVec 3) (v : BitVec 64)
  /-- LEDGER_TICK (R392): Each 10 µs the ledger applies completions, updates the balance, sets its mode and runs admission. -/
  | ledgerTick (counts : List EventCount) (moves : List MeshMove) (upsets : List Upset) (tj : BitVec 8) (pwrbrk : Bool)
  /-- RECONCILE (R385): Every 1 ms the ledger reads rail telemetry and updates LEDG_RECON. -/
  | reconcile (measured : Option (BitVec 64))
  /-- AVS_VDONE (R399): The regulator signals VDone, and a pending faster divider is switched in. -/
  | avsVdone
  /-- AVS_ATTEMPT_TIMEOUT (R401): A voltage attempt without VDone in 1 ms is retried or, after three, sets AVS_FAIL. -/
  | avsAttemptTimeout
  /-- TAG_CLR (R389): LEDG_CTL.TAG_CLR resets every tag entry at the next tick. -/
  | tagClr
  /-- MODE_REQUEST (R409): PDC_MODE.REQ requests the domain states of a module mode. -/
  | modeRequest (m : BitVec 2)
  /-- DOMAIN_REQUEST (R410): PDC_DOM_REQn requests OFF, RIME or ON for one domain at expert level. -/
  | domainRequest (n : DomId) (v : BitVec 4)
  /-- DOMAIN_POWER_UP_DONE (R411): Power good and reset released move a domain to INIT or ON. -/
  | domainPowerUpDone (n : DomId)
  /-- DOMAIN_POWER_UP_TIMEOUT (R411): 200 µs in POWERING_UP or EXITING_RIME fails the attempt, retries or sets FAILED. -/
  | domainPowerUpTimeout (n : DomId)
  /-- DOMAIN_INIT_DONE (R411): Init completes and the domain is ON. -/
  | domainInitDone (n : DomId)
  /-- DOMAIN_INIT_TIMEOUT (R411): Init exceeds its limit and counts as a power-up failure. -/
  | domainInitTimeout (n : DomId)
  /-- DOMAIN_DRAIN_DONE (R426): Every unit of a domain has drained, and the domain powers down or enters Rime. -/
  | domainDrainDone (n : DomId)
  /-- DRAIN_LIMIT_EXPIRY (R424): A unit's drain limit passes, abandoning outstanding requests. -/
  | drainLimitExpiry (n : DomId) (t : TileId)
  /-- RIME_ENTRY_DONE (R416): The Rime entry sequence ends and the domain is in RIME. -/
  | rimeEntryDone (n : DomId) (levels : BitVec 5)
  /-- RIME_EXIT_DONE (R411): Rails reach run level and clocks run, and the domain is ON. -/
  | rimeExitDone (n : DomId)
  /-- DOMAIN_POWER_DOWN_DONE (R411): Rails are off, and the domain is OFF, acting on any held request. -/
  | domainPowerDownDone (n : DomId)
  /-- WAKE_EVENT (R415): An enabled wake source brings RIME domains or Frost-watch AON back on. -/
  | wakeEvent (srcs : BitVec 5)
  /-- FROST_SAMPLE (R418): Every PERIOD_MS, Frost-watch runs CLK_PERI to read sensors and level sources. -/
  | frostSample (readings : List (Nat×Int)) (levels : BitVec 5)
  /-- THERMAL_TRIP (R427): A junction reading reaches 105 °C, and every domain but AON goes OFF with TRIPPED set. -/
  | thermalTrip (tj : BitVec 8)
  /-- RAIL_FAULT (R419): A rail falls out of range and the module shuts down as on a thermal trip. -/
  | railFault
  /-- POWER_ON (R419): Input rails reach power-good at power-on, and the module comes up with a cold reset. -/
  | powerOn (feed : BitVec 4) (slot : BitVec 6) (bist : SelfTest)
  /-- COLD_RESET (R420): PDC_RESET.LEVEL cold resets every domain but AON with self-test and Repair Record check. -/
  | coldReset (bist : SelfTest)
  /-- WARM_RESET (R420): PDC_RESET.LEVEL warm drains every unit and resets domains without power cycling. -/
  | warmReset
  /-- PERST_ASSERT (R493): PERST# asserted starts a cold reset, held while TRIPPED. -/
  | perstAssert
  /-- PERST_DEASSERT (R493): PERST# deasserted starts the 1 s to ready. -/
  | perstDeassert (bist : SelfTest)
  /-- FUNCTION_LEVEL_RESET (R420): A PCIe Function Level Reset starts a warm reset. -/
  | functionLevelReset
  /-- RETRY_RESEND (R425): 64 cc after a RETRY_LATER refusal, the requester resends the request. -/
  | retryResend (id : Nat)
  /-- MESH_TRANSACTION_TIMEOUT (R429): A request without final reply 2^20 cc after first issue ends with TIMEOUT. -/
  | meshTransactionTimeout (id : Nat)
  /-- HOT_SWAP_DISCONNECT (R496): Input under- or overvoltage or overcurrent disconnects the input. -/
  | hotSwapDisconnect (why : InputFault)
  /-- HOT_SWAP_RECONNECT (R496): After 100 ms inside 40–60 V, the input reconnects and the module powers on. -/
  | hotSwapReconnect (feed : BitVec 4) (slot : BitVec 6) (bist : SelfTest)
  /-- REFCLK_LOST (R499): A root PLL out of lock for 10 µs takes every domain but AON OFF and sets MGMT. -/
  | refclkLost
  /-- FIRN_COMMIT_WRITE (R440): Host write to FIRN_COMMIT releases gated UPDATE commands up to that step. -/
  | firnCommitWrite (step : BitVec 32)
  /-- PAIR (R443): MIR_CTL.PAIR writes the own header and starts pairing. -/
  | pair
  /-- UNPAIR (R443): MIR_CTL.UNPAIR returns the mirror to UNPAIRED. -/
  | unpair
  /-- MIRROR_HEADER_POLL (R443): Every 1 ms the partner's header is read and checked, possibly completing pairing. -/
  | mirrorHeaderPoll (st : Status) (h : DWord)
  /-- PAIRING_TIMEOUT (R443): 1 s of PAIRING without a matching header ends REFUSED with TIMEOUT. -/
  | pairingTimeout
  /-- CALVE (R451): REC_CMD CALVE removes a device from routes and groups and fences it. -/
  | calve (dev : DevId)
  /-- CALVE_COMPLETE (R451): Calving's group updates end and REC_STATE.BUSY clears. -/
  | calveComplete
  /-- FILL (R453): REC_CMD FILL records the spare and source, and on the spare starts the fill engine. -/
  | fill (dev : DevId) (source : DevId) (snap : Bool)
  /-- FILL_READ_REPLY (R456): A fill READ reply is written to the spare, or ends the fill with its status. -/
  | fillReadReply (id : Nat)
  /-- FILL_DONE (R456): Every plan entry is copied, ACC_STATUS goes DONE and the device-event vector is raised. -/
  | fillDone
  /-- DONE (R453): REC_CMD DONE removes the head of PEND and moves toward RUN or REPLAYING. -/
  | done
  /-- CLEAR (R453): REC_CMD CLEAR returns STOPPED to RUN. -/
  | clear
  /-- UNFENCE (R452): REC_CMD UNFENCE removes a device from the fence list. -/
  | unfence (dev : DevId)
  /-- COMMIT_SVN (R471): SEC_CTL.COMMIT_SVN raises MIN_SVN to the running slot's SVN. -/
  | commitSvn
  /-- GET_VERSION (R478): SPDM GET_VERSION request. -/
  | getVersion (pcie : Bool)
  /-- GET_CAPABILITIES (R478): SPDM GET_CAPABILITIES request. -/
  | getCapabilities (pcie : Bool)
  /-- NEGOTIATE_ALGORITHMS (R478): SPDM NEGOTIATE_ALGORITHMS with Ed25519 and SHA-512. -/
  | negotiateAlgorithms (pcie : Bool) (ed25519 : Bool) (sha512 : Bool)
  /-- GET_DIGESTS (R478): SPDM GET_DIGESTS of the certificate slots. -/
  | getDigests (pcie : Bool)
  /-- GET_CERTIFICATE (R466): SPDM GET_CERTIFICATE returns the primary's chain. -/
  | getCertificate (pcie : Bool) (slot : BitVec 8) (off : BitVec 16) (len : BitVec 16)
  /-- CHALLENGE (R467): SPDM CHALLENGE answered with an alias-key signature. -/
  | challenge (pcie : Bool) (slot : BitVec 8) (nonce : BitVec 256)
  /-- GET_MEASUREMENTS (R478): SPDM GET_MEASUREMENTS returns SEC_MEAS0 to SEC_MEAS5. -/
  | getMeasurements (pcie : Bool) (sign : Bool) (nonce : BitVec 256)
  /-- GET_TID (R478): PLDM GetTID request. -/
  | getTid (pcie : Bool)
  /-- GET_PLDM_VERSION (R478): PLDM GetPLDMVersion request. -/
  | getPldmVersion (pcie : Bool) (ty : BitVec 8)
  /-- GET_PLDM_TYPES (R478): PLDM GetPLDMTypes request. -/
  | getPldmTypes (pcie : Bool)
  /-- GET_PLDM_COMMANDS (R478): PLDM GetPLDMCommands request. -/
  | getPldmCommands (pcie : Bool) (ty : BitVec 8)
  /-- GET_PDR (R478): PLDM PDR repository access. -/
  | getPdr (pcie : Bool) (handle : BitVec 32)
  /-- GET_SENSOR_READING (R479): PLDM GetSensorReading of a numeric sensor. -/
  | getSensorReading (pcie : Bool) (id : BitVec 16)
  /-- GET_STATE_SENSOR_READINGS (R479): PLDM GetStateSensorReadings, such as the ledger mode. -/
  | getStateSensorReadings (pcie : Bool) (id : BitVec 16)
  /-- SET_EVENT_RECEIVER (R480): PLDM SetEventReceiver names the receiver of alert messages. -/
  | setEventReceiver (pcie : Bool) (eid : BitVec 8)
  /-- ALERT_CLEAR (R481): Effecter ALERT_CLEAR clears one MGMT_ALERT bit. -/
  | alertClear (pcie : Bool) (st : BitVec 8)
  /-- TRIP_CLEAR (R481): Effecter TRIP_CLEAR clears TRIPPED below 95 °C and starts a cold reset. -/
  | tripClear (pcie : Bool) (st : BitVec 8) (bist : SelfTest)
  /-- MODE (R481): Effecter MODE writes PDC_MODE.REQ unless tripped. -/
  | mode (pcie : Bool) (st : BitVec 8)
  /-- RESET (R481): Effecter RESET issues the management warm or cold reset. -/
  | reset (pcie : Bool) (st : BitVec 8) (bist : SelfTest)
  /-- REQUEST_UPDATE (R477): PLDM Type 5 request to enter update mode, refused for a second agent. -/
  | requestUpdate (pcie : Bool)
  /-- FIRMWARE_COMPONENT_TRANSFER (R475): A firmware component is written to the inactive slot and verified. -/
  | firmwareComponentTransfer (pcie : Bool) (comp : BitVec 8) (svn : BitVec 8) (ok : Bool) (ver : BitVec 32) (bytes : List Byte)
  /-- ACTIVATE_FIRMWARE (R476): Activation names the updated slot, or copies and loads Ablation microcode. -/
  | activateFirmware (pcie : Bool)
  /-- SENSOR_UPDATE (R479): Every 1 ms the management controller updates its sensors. -/
  | sensorUpdate (readings : List (Nat×Int))
  /-- MCTP_EID_ASSIGN (R478): The bus owner assigns the MCTP endpoint ID. -/
  | mctpEidAssign (pcie : Bool) (eid : BitVec 8)
  /-- CLEAR_FAULTS (R494): PMBus CLEAR_FAULTS clears STATUS_WORD bits whose cause has ended. -/
  | clearFaults
  /-- STATUS_WORD (R494): PMBus STATUS_WORD returns input and coolant faults. -/
  | statusWord
  /-- READ_VIN (R494): PMBus READ_VIN returns input voltage. -/
  | readVin
  /-- READ_IIN (R494): PMBus READ_IIN returns input current. -/
  | readIin
  /-- READ_TEMPERATURE_1 (R494): PMBus READ_TEMPERATURE_1 returns coolant inlet temperature. -/
  | readTemperature1
  /-- READ_PIN (R494): PMBus READ_PIN returns input power. -/
  | readPin
  /-- RESERVED_ENCODING (R106): The X-core issues an instruction word with a reserved class, FN, SUB, COND or non-zero unused field and takes a precise ABORTED fault with XC_FAULT.ILLEGAL set. -/
  | reservedEncoding (t : TileId) (w0 : BitVec 32) (w1 : BitVec 32)
  /-- FC_RESERVED_ENCODING (R155): The F-core program reaches a word with a reserved OP or non-zero unused field and enters FAULTED with FC_FAULT.ILLEGAL and status ABORTED. -/
  | fcReservedEncoding (t : TileId) (w : BitVec 32)
  /-- LANE_LOCK_LOST (R350): A Mosija port in UP loses lane lock and enters RETRAIN at once. -/
  | laneLockLost (p : PortId)
  /-- EXPANDER_CONFIGURED (R287): A CXL port's link finishes training and the device has enumerated the expander and programmed its HDM decoder, setting MOR_PORTn.UP. -/
  | expanderConfigured (port : Bool) (width : BitVec 5) (gib : BitVec 13)
  /-- STANDBY_MIRROR_COMPLETE (R408): A standby control die that has been powered on again completes its mirror of the primary and sets CP_STATUS.STANDBY_OK. -/
  | standbyMirrorComplete
  /-- HEARTBEAT_LOSS_WITH_NO_STANDBY (R428): With no standby present, 10 ms without a primary heartbeat makes the management controller start a warm reset with cause heartbeat loss. -/
  | heartbeatLossWithNoStandby
  /-- VRALERT (R480): The module regulator controller asserts its fault alert, which sets MGMT_ALERT bit 13 and asserts ALERT# while the module runs. -/
  | vralert
  /-- TEST_ACCESS_PORT_OPEN (R480): A Kyolan-signed challenge response bound to the identity key opens the package test-access port and sets SEC_STATUS.TAP_OPEN. -/
  | testAccessPortOpen (good : Bool)
  deriving DecidableEq, Repr

end Sys2Proof
end

