-- ==== Sys2Proof/Decode.lean ====
section
/-! DEFINITION. Words to commands. The opcode table of this block gives no row any bits, so no table word spells a command. The
spec gives encodings to the instructions of the execute core and of the fetch core: their decoders stand here (R105, R106,
Tables 4-2 to 4-11; R154, R155, Tables 6-1, 6-2), with an encoder from the same tables. -/

namespace Sys2Proof

/-- No row of the opcode table has bits: every word is refused. -/
def decodeTableWord (_nbits _w : Nat) : Option Instr := none

/-! ### Layouts (Tables 4-2, 4-3, 6-1) -/

structure RForm where
  sub : BitVec 4
  pg  : BitVec 3
  fn  : BitVec 4
  rs2 : BitVec 5
  rs1 : BitVec 5
  rd  : BitVec 5
  deriving DecidableEq, Repr

/-- The I form; the S form has its data register at RD's place. -/
structure IForm where
  imm : BitVec 12
  fn  : BitVec 4
  rs1 : BitVec 5
  rd  : BitVec 5
  deriving DecidableEq, Repr

structure BForm where
  off  : BitVec 13
  cond : BitVec 3
  rs2  : BitVec 5
  rs1  : BitVec 5
  deriving DecidableEq, Repr

structure MForm where
  imm : BitVec 10
  pg  : BitVec 3
  fn  : BitVec 3
  rs1 : BitVec 5
  vd  : BitVec 5
  deriving DecidableEq, Repr

structure YForm where
  imm : BitVec 11
  rs  : BitVec 5
  obj : BitVec 6
  fn  : BitVec 4
  deriving DecidableEq, Repr

structure WForm where
  imm : BitVec 32
  rt  : BitVec 5
  rs  : BitVec 5
  dc  : BitVec 4
  db  : BitVec 4
  da  : BitVec 4
  fn  : BitVec 4
  deriving DecidableEq, Repr

structure WRForm where
  resHi : BitVec 4
  treg  : BitVec 1
  tile  : BitVec 11
  count : BitVec 16
  rt    : BitVec 5
  rs    : BitVec 5
  resLo : BitVec 6
  sem   : BitVec 6
  fn    : BitVec 4
  deriving DecidableEq, Repr

structure FForm where
  imm : BitVec 14
  gb  : BitVec 4
  ga  : BitVec 4
  gd  : BitVec 4
  deriving DecidableEq, Repr

def rForm (w : W32) : RForm :=
  ⟨w.extractLsb' 28 4, w.extractLsb' 25 3, w.extractLsb' 21 4, w.extractLsb' 16 5, w.extractLsb' 11 5, w.extractLsb' 6 5⟩
def iForm (w : W32) : IForm := ⟨w.extractLsb' 20 12, w.extractLsb' 16 4, w.extractLsb' 11 5, w.extractLsb' 6 5⟩
def bForm (w : W32) : BForm := ⟨w.extractLsb' 19 13, w.extractLsb' 16 3, w.extractLsb' 11 5, w.extractLsb' 6 5⟩
def mForm (w : W32) : MForm :=
  ⟨w.extractLsb' 22 10, w.extractLsb' 19 3, w.extractLsb' 16 3, w.extractLsb' 11 5, w.extractLsb' 6 5⟩
def yForm (w : W32) : YForm := ⟨w.extractLsb' 21 11, w.extractLsb' 16 5, w.extractLsb' 10 6, w.extractLsb' 6 4⟩
def wForm (w0 w1 : W32) : WForm :=
  ⟨w1, w0.extractLsb' 27 5, w0.extractLsb' 22 5, w0.extractLsb' 18 4, w0.extractLsb' 14 4, w0.extractLsb' 10 4,
    w0.extractLsb' 6 4⟩
def wrForm (w0 w1 : W32) : WRForm :=
  ⟨w1.extractLsb' 28 4, w1.extractLsb' 27 1, w1.extractLsb' 16 11, w1.extractLsb' 0 16, w0.extractLsb' 27 5,
    w0.extractLsb' 22 5, w0.extractLsb' 16 6, w0.extractLsb' 10 6, w0.extractLsb' 6 4⟩
def fForm (w : W32) : FForm := ⟨w.extractLsb' 18 14, w.extractLsb' 14 4, w.extractLsb' 10 4, w.extractLsb' 6 4⟩

/-- Words built from their fields: class, then the fields from the highest down. -/
def eR (cls : BitVec 5) (sub : BitVec 4) (pg : BitVec 3) (fn : BitVec 4) (rs2 rs1 rd : BitVec 5) : W32 :=
  sub ++ pg ++ fn ++ rs2 ++ rs1 ++ rd ++ cls ++ 0#1
def eI (cls : BitVec 5) (imm : BitVec 12) (fn : BitVec 4) (rs1 rd : BitVec 5) : W32 := imm ++ fn ++ rs1 ++ rd ++ cls ++ 0#1
def eB (off : BitVec 13) (cond : BitVec 3) (rs2 rs1 : BitVec 5) : W32 := off ++ cond ++ rs2 ++ rs1 ++ 0x05#5 ++ 0#1
def eJ (off : BitVec 21) (rd : BitVec 5) : W32 := off ++ rd ++ 0x06#5 ++ 0#1
def eM (imm : BitVec 10) (pg fn : BitVec 3) (rs1 vd : BitVec 5) : W32 := imm ++ pg ++ fn ++ rs1 ++ vd ++ 0x0A#5 ++ 0#1
def eY (cls : BitVec 5) (imm : BitVec 11) (rs : BitVec 5) (obj : BitVec 6) (fn : BitVec 4) : W32 :=
  imm ++ rs ++ obj ++ fn ++ cls ++ 0#1
def eW (cls : BitVec 5) (imm : BitVec 32) (rt rs : BitVec 5) (dc db da fn : BitVec 4) : W32 × W32 :=
  (rt ++ rs ++ dc ++ db ++ da ++ fn ++ cls ++ 1#1, imm)
def eWR (treg : Bool) (tile : BitVec 11) (count : BitVec 16) (rt rs : BitVec 5) (sem : BitVec 6) : W32 × W32 :=
  (rt ++ rs ++ 0#6 ++ sem ++ 0#4 ++ 0x04#5 ++ 1#1, 0#4 ++ BitVec.ofBool treg ++ tile ++ count)
def eF (imm : BitVec 14) (gb ga gd : BitVec 4) (op : BitVec 6) : W32 := imm ++ gb ++ ga ++ gd ++ op

/-- A field that names a V register has bit 4 zero; one that names a P register bits 4 and 3 (R105). -/
def vField (x : BitVec 5) : Option VReg := if x.toNat < 16 then some (x.setWidth 4) else none
def pField (x : BitVec 5) : Option PReg := if x.toNat < 8 then some (x.setWidth 3) else none

/-- An instruction whose zero fields are zero. -/
def whenZ (z : Bool) (i : Instr) : Option Instr := if z then some i else none

def RForm.subZ (f : RForm) : Bool := f.sub == 0 && f.pg == 0
def RForm.allZ (f : RForm) : Bool := f.subZ && f.rs2 == 0 && f.rs1 == 0 && f.rd == 0

/-- IMM32 of a CE or GME instruction. -/
def engImm (v : W32) : EngImm :=
  ⟨v.extractLsb' 0 5, v.getLsbD 5, v.extractLsb' 6 5, v.getLsbD 11, v.getLsbD 12, v.getLsbD 13, v.getLsbD 14⟩
def immEng (e : EngImm) : W32 :=
  0#17 ++ BitVec.ofBool e.tb ++ BitVec.ofBool e.ta ++ BitVec.ofBool e.acc ++ BitVec.ofBool e.loutEn ++ e.lout ++
    BitVec.ofBool e.linEn ++ e.lin
/-- IMM32 of COLL, of UPD.POST and of RGN.ACQ (Table 4-9, R304). -/
def immColl (grp : GroupId) (link : PairIdx) (linkEn : Bool) (seg : BitVec 14) : W32 :=
  seg ++ BitVec.ofBool linkEn ++ link ++ grp
def immUpd (link : PairIdx) (linkEn : Bool) : W32 := 0#26 ++ BitVec.ofBool linkEn ++ link
def immAcq (r : RegionId) (link : PairIdx) : W32 := 0#10 ++ 1#1 ++ link ++ r

/-! ### Decoders by class -/

/-- SYS (Table 4-5): every other field is zero. -/
def decSys (t : TileId) (f : RForm) : Option Instr :=
  match f.fn.toNat with
  | 0 => whenZ f.allZ (.xNop t)
  | 1 => whenZ f.allZ (.xEnd t)
  | 2 => whenZ f.allZ (.xFence t)
  | 3 => whenZ f.allZ (.xFenceE t)
  | 4 => whenZ f.allZ (.xIflush t)
  | 5 => whenZ f.allZ (.xBrk t)
  | _ => none

/-- ALU (Table 4-5). -/
def decAlu (t : TileId) (f : RForm) : Option Instr :=
  match f.fn.toNat with
  | 0 => whenZ f.subZ (.xAdd t f.rd f.rs1 f.rs2)
  | 1 => whenZ f.subZ (.xSub t f.rd f.rs1 f.rs2)
  | 2 => whenZ f.subZ (.xAnd t f.rd f.rs1 f.rs2)
  | 3 => whenZ f.subZ (.xOr t f.rd f.rs1 f.rs2)
  | 4 => whenZ f.subZ (.xXor t f.rd f.rs1 f.rs2)
  | 5 => whenZ f.subZ (.xSll t f.rd f.rs1 f.rs2)
  | 6 => whenZ f.subZ (.xSrl t f.rd f.rs1 f.rs2)
  | 7 => whenZ f.subZ (.xSra t f.rd f.rs1 f.rs2)
  | 8 => whenZ f.subZ (.xMul t f.rd f.rs1 f.rs2)
  | 9 => whenZ f.subZ (.xMulhu t f.rd f.rs1 f.rs2)
  | 10 => whenZ f.subZ (.xSlt t f.rd f.rs1 f.rs2)
  | 11 => whenZ f.subZ (.xSltu t f.rd f.rs1 f.rs2)
  | 12 => whenZ f.subZ (.xMin t f.rd f.rs1 f.rs2)
  | 13 => whenZ f.subZ (.xMax t f.rd f.rs1 f.rs2)
  | 14 => whenZ f.subZ (.xMinu t f.rd f.rs1 f.rs2)
  | 15 => whenZ f.subZ (.xMaxu t f.rd f.rs1 f.rs2)
  | _ => none

/-- ALUI (Table 4-5); a shift has IMM12[11:6] zero. -/
def decAlui (t : TileId) (f : IForm) : Option Instr :=
  match f.fn.toNat with
  | 0 => some (.xAddi t f.rd f.rs1 f.imm)
  | 1 => some (.xAndi t f.rd f.rs1 f.imm)
  | 2 => some (.xOri t f.rd f.rs1 f.imm)
  | 3 => some (.xXori t f.rd f.rs1 f.imm)
  | 4 => whenZ (f.imm.toNat < 64) (.xSlli t f.rd f.rs1 (f.imm.setWidth 6))
  | 5 => whenZ (f.imm.toNat < 64) (.xSrli t f.rd f.rs1 (f.imm.setWidth 6))
  | 6 => whenZ (f.imm.toNat < 64) (.xSrai t f.rd f.rs1 (f.imm.setWidth 6))
  | 7 => some (.xSlti t f.rd f.rs1 f.imm)
  | 8 => some (.xSltiu t f.rd f.rs1 f.imm)
  | _ => none

/-- LD (Table 4-5). -/
def decLd (t : TileId) (f : IForm) : Option Instr :=
  match f.fn.toNat with
  | 0 => some (.xLb t f.rd f.rs1 f.imm)
  | 1 => some (.xLh t f.rd f.rs1 f.imm)
  | 2 => some (.xLw t f.rd f.rs1 f.imm)
  | 3 => some (.xLd t f.rd f.rs1 f.imm)
  | 4 => some (.xLbu t f.rd f.rs1 f.imm)
  | 5 => some (.xLhu t f.rd f.rs1 f.imm)
  | 6 => some (.xLwu t f.rd f.rs1 f.imm)
  | _ => none

/-- ST (Table 4-5): the data register stands at [10:6]. -/
def decSt (t : TileId) (f : IForm) : Option Instr :=
  match f.fn.toNat with
  | 0 => some (.xSb t f.rs1 f.rd f.imm)
  | 1 => some (.xSh t f.rs1 f.rd f.imm)
  | 2 => some (.xSw t f.rs1 f.rd f.imm)
  | 3 => some (.xSd t f.rs1 f.rd f.imm)
  | _ => none

/-- BR (Table 4-5). -/
def decBr (t : TileId) (f : BForm) : Option Instr :=
  match f.cond.toNat with
  | 0 => some (.xBeq t f.rs1 f.rs2 f.off)
  | 1 => some (.xBne t f.rs1 f.rs2 f.off)
  | 2 => some (.xBlt t f.rs1 f.rs2 f.off)
  | 3 => some (.xBge t f.rs1 f.rs2 f.off)
  | 4 => some (.xBltu t f.rs1 f.rs2 f.off)
  | 5 => some (.xBgeu t f.rs1 f.rs2 f.off)
  | 6 => if f.rs2 = 0 then (pField f.rs1).map (fun p => .xBpany t p f.off) else none
  | 7 => if f.rs2 = 0 then (pField f.rs1).map (fun p => .xBpnone t p f.off) else none
  | _ => none

/-- CSR (Table 4-5). -/
def decCsr (t : TileId) (f : IForm) : Option Instr :=
  match f.fn.toNat with
  | 0 => some (.xCsrrW t f.rd f.rs1 f.imm)
  | 1 => some (.xCsrwW t f.rd f.rs1 f.imm)
  | 2 => some (.xCsrrD t f.rd f.rs1 f.imm)
  | 3 => some (.xCsrwD t f.rd f.rs1 f.imm)
  | _ => none

/-- ATOM (Table 4-5): AADD has RD zero. -/
def decAtom (t : TileId) (f : RForm) : Option Instr :=
  match f.fn.toNat with
  | 0 => whenZ (f.subZ && f.rd == 0) (.xAaddW t f.rs1 f.rs2)
  | 1 => whenZ (f.subZ && f.rd == 0) (.xAaddD t f.rs1 f.rs2)
  | 2 => whenZ f.subZ (.xAaddrW t f.rd f.rs1 f.rs2)
  | 3 => whenZ f.subZ (.xAaddrD t f.rd f.rs1 f.rs2)
  | _ => none

/-- VOP with SUB 0 (Table 4-6). -/
def decVop0 (t : TileId) (f : RForm) : Option Instr :=
  match f.fn.toNat with
  | 0 => (vField f.rd).bind (fun xrd => (vField f.rs1).bind (fun xrs1 => (vField f.rs2).bind (fun xrs2 => some (.vfadd t f.pg xrd xrs1 xrs2))))
  | 1 => (vField f.rd).bind (fun xrd => (vField f.rs1).bind (fun xrs1 => (vField f.rs2).bind (fun xrs2 => some (.vfsub t f.pg xrd xrs1 xrs2))))
  | 2 => (vField f.rd).bind (fun xrd => (vField f.rs1).bind (fun xrs1 => (vField f.rs2).bind (fun xrs2 => some (.vfmul t f.pg xrd xrs1 xrs2))))
  | 3 => (vField f.rd).bind (fun xrd => (vField f.rs1).bind (fun xrs1 => (vField f.rs2).bind (fun xrs2 => some (.vfma t f.pg xrd xrs1 xrs2))))
  | 4 => (vField f.rd).bind (fun xrd => (vField f.rs1).bind (fun xrs1 => (vField f.rs2).bind (fun xrs2 => some (.vfmin t f.pg xrd xrs1 xrs2))))
  | 5 => (vField f.rd).bind (fun xrd => (vField f.rs1).bind (fun xrs1 => (vField f.rs2).bind (fun xrs2 => some (.vfmax t f.pg xrd xrs1 xrs2))))
  | 6 => (vField f.rd).bind (fun xrd => (vField f.rs1).bind (fun xrs1 => whenZ (f.rs2 == 0) (.vfabs t f.pg xrd xrs1)))
  | 7 => (vField f.rd).bind (fun xrd => (vField f.rs1).bind (fun xrs1 => whenZ (f.rs2 == 0) (.vfneg t f.pg xrd xrs1)))
  | 8 => (vField f.rd).bind (fun xrd => (vField f.rs1).bind (fun xrs1 => whenZ (f.rs2 == 0) (.vfrcp t f.pg xrd xrs1)))
  | 9 => (vField f.rd).bind (fun xrd => (vField f.rs1).bind (fun xrs1 => whenZ (f.rs2 == 0) (.vfrsq t f.pg xrd xrs1)))
  | 10 => (vField f.rd).bind (fun xrd => (vField f.rs1).bind (fun xrs1 => whenZ (f.rs2 == 0) (.vfexp2 t f.pg xrd xrs1)))
  | 11 => (vField f.rd).bind (fun xrd => (vField f.rs1).bind (fun xrs1 => whenZ (f.rs2 == 0) (.vflog2 t f.pg xrd xrs1)))
  | _ => none

/-- VOP with SUB 1 (Table 4-6). -/
def decVop1 (t : TileId) (f : RForm) : Option Instr :=
  match f.fn.toNat with
  | 0 => (vField f.rd).bind (fun xrd => (vField f.rs1).bind (fun xrs1 => (vField f.rs2).bind (fun xrs2 => some (.vadd t f.pg xrd xrs1 xrs2))))
  | 1 => (vField f.rd).bind (fun xrd => (vField f.rs1).bind (fun xrs1 => (vField f.rs2).bind (fun xrs2 => some (.vsub t f.pg xrd xrs1 xrs2))))
  | 2 => (vField f.rd).bind (fun xrd => (vField f.rs1).bind (fun xrs1 => (vField f.rs2).bind (fun xrs2 => some (.vmul t f.pg xrd xrs1 xrs2))))
  | 3 => (vField f.rd).bind (fun xrd => (vField f.rs1).bind (fun xrs1 => (vField f.rs2).bind (fun xrs2 => some (.vand t f.pg xrd xrs1 xrs2))))
  | 4 => (vField f.rd).bind (fun xrd => (vField f.rs1).bind (fun xrs1 => (vField f.rs2).bind (fun xrs2 => some (.vor t f.pg xrd xrs1 xrs2))))
  | 5 => (vField f.rd).bind (fun xrd => (vField f.rs1).bind (fun xrs1 => (vField f.rs2).bind (fun xrs2 => some (.vxor t f.pg xrd xrs1 xrs2))))
  | 6 => (vField f.rd).bind (fun xrd => (vField f.rs1).bind (fun xrs1 => (vField f.rs2).bind (fun xrs2 => some (.vsll t f.pg xrd xrs1 xrs2))))
  | 7 => (vField f.rd).bind (fun xrd => (vField f.rs1).bind (fun xrs1 => (vField f.rs2).bind (fun xrs2 => some (.vsrl t f.pg xrd xrs1 xrs2))))
  | 8 => (vField f.rd).bind (fun xrd => (vField f.rs1).bind (fun xrs1 => (vField f.rs2).bind (fun xrs2 => some (.vsra t f.pg xrd xrs1 xrs2))))
  | 9 => (vField f.rd).bind (fun xrd => (vField f.rs1).bind (fun xrs1 => (vField f.rs2).bind (fun xrs2 => some (.vmin t f.pg xrd xrs1 xrs2))))
  | 10 => (vField f.rd).bind (fun xrd => (vField f.rs1).bind (fun xrs1 => (vField f.rs2).bind (fun xrs2 => some (.vmax t f.pg xrd xrs1 xrs2))))
  | 11 => (vField f.rd).bind (fun xrd => (vField f.rs1).bind (fun xrs1 => (vField f.rs2).bind (fun xrs2 => some (.vminu t f.pg xrd xrs1 xrs2))))
  | 12 => (vField f.rd).bind (fun xrd => (vField f.rs1).bind (fun xrs1 => (vField f.rs2).bind (fun xrs2 => some (.vmaxu t f.pg xrd xrs1 xrs2))))
  | _ => none

/-- VOP with SUB 2 (Table 4-6). -/
def decVop2 (t : TileId) (f : RForm) : Option Instr :=
  match f.fn.toNat with
  | 0 => (vField f.rd).bind (fun xrd => (vField f.rs1).bind (fun xrs1 => whenZ (f.rs2 == 0) (.vmov t f.pg xrd xrs1)))
  | 1 => (vField f.rd).bind (fun xrd => whenZ (f.rs2 == 0) (.vbcast t f.pg xrd f.rs1))
  | 2 => (vField f.rs1).bind (fun xrs1 => some (.vext t f.pg f.rd xrs1 f.rs2))
  | 3 => (vField f.rd).bind (fun xrd => some (.vins t f.pg xrd f.rs1 f.rs2))
  | 4 => (vField f.rd).bind (fun xrd => (vField f.rs1).bind (fun xrs1 => (vField f.rs2).bind (fun xrs2 => some (.vshuf t f.pg xrd xrs1 xrs2))))
  | 5 => (vField f.rd).bind (fun xrd => whenZ (f.rs1 == 0 && f.rs2 == 0) (.viota t f.pg xrd))
  | 6 => (vField f.rd).bind (fun xrd => (vField f.rs1).bind (fun xrs1 => (vField f.rs2).bind (fun xrs2 => some (.vsel t f.pg xrd xrs1 xrs2))))
  | _ => none

/-- VOP with SUB 3 (Table 4-6). -/
def decVop3 (t : TileId) (f : RForm) : Option Instr :=
  match f.fn.toNat with
  | 0 => (vField f.rs1).bind (fun xrs1 => whenZ (f.rs2 == 0) (.vrsum t f.pg f.rd xrs1))
  | 1 => (vField f.rs1).bind (fun xrs1 => whenZ (f.rs2 == 0) (.vrmax t f.pg f.rd xrs1))
  | 2 => (vField f.rs1).bind (fun xrs1 => whenZ (f.rs2 == 0) (.vrmin t f.pg f.rd xrs1))
  | 3 => (vField f.rs1).bind (fun xrs1 => whenZ (f.rs2 == 0) (.vradd t f.pg f.rd xrs1))
  | _ => none

/-- VOP with SUB 4 (Table 4-6). -/
def decVop4 (t : TileId) (f : RForm) : Option Instr :=
  match f.fn.toNat with
  | 0 => (vField f.rd).bind (fun xrd => (vField f.rs1).bind (fun xrs1 => whenZ (f.rs2 == 0) (.vcvtF2i t f.pg xrd xrs1)))
  | 1 => (vField f.rd).bind (fun xrd => (vField f.rs1).bind (fun xrs1 => whenZ (f.rs2 == 0) (.vcvtI2f t f.pg xrd xrs1)))
  | 2 => (vField f.rd).bind (fun xrd => (vField f.rs1).bind (fun xrs1 => whenZ (f.rs2 == 0) (.vcvtF2bf16 t f.pg xrd xrs1)))
  | 3 => (vField f.rd).bind (fun xrd => (vField f.rs1).bind (fun xrs1 => whenZ (f.rs2 == 0) (.vcvtBf162f t f.pg xrd xrs1)))
  | 4 => (vField f.rd).bind (fun xrd => (vField f.rs1).bind (fun xrs1 => whenZ (f.rs2 == 0) (.vcvtF2fp16 t f.pg xrd xrs1)))
  | 5 => (vField f.rd).bind (fun xrd => (vField f.rs1).bind (fun xrs1 => whenZ (f.rs2 == 0) (.vcvtFp162f t f.pg xrd xrs1)))
  | 6 => (vField f.rd).bind (fun xrd => (vField f.rs1).bind (fun xrs1 => whenZ (f.rs2 == 0) (.vcvtF2e4m3 t f.pg xrd xrs1)))
  | 7 => (vField f.rd).bind (fun xrd => (vField f.rs1).bind (fun xrs1 => whenZ (f.rs2 == 0) (.vcvtE4m32f t f.pg xrd xrs1)))
  | 8 => (vField f.rd).bind (fun xrd => (vField f.rs1).bind (fun xrs1 => whenZ (f.rs2 == 0) (.vcvtF2e5m2 t f.pg xrd xrs1)))
  | 9 => (vField f.rd).bind (fun xrd => (vField f.rs1).bind (fun xrs1 => whenZ (f.rs2 == 0) (.vcvtE5m22f t f.pg xrd xrs1)))
  | _ => none

/-- VOP by its SUB. -/
def decVop (t : TileId) (f : RForm) : Option Instr :=
  match f.sub.toNat with
  | 0 => decVop0 t f
  | 1 => decVop1 t f
  | 2 => decVop2 t f
  | 3 => decVop3 t f
  | 4 => decVop4 t f
  | _ => none

/-- VMEM (Table 4-7). -/
def decVmem (t : TileId) (f : MForm) : Option Instr :=
  match f.fn.toNat with
  | 0 => (vField f.vd).map (fun v => .vld t f.pg v f.rs1 f.imm)
  | 1 => (vField f.vd).map (fun v => .vst t f.pg v f.rs1 f.imm)
  | 2 => (vField f.vd).map (fun v => .vldH t f.pg v f.rs1 f.imm)
  | 3 => (vField f.vd).map (fun v => .vstH t f.pg v f.rs1 f.imm)
  | 4 => (vField f.vd).map (fun v => .vldB t f.pg v f.rs1 f.imm)
  | 5 => (vField f.vd).map (fun v => .vstB t f.pg v f.rs1 f.imm)
  | 6 => (vField f.vd).map (fun v => .vldBc t f.pg v f.rs1 f.imm)
  | _ => none

/-- PRED (Table 4-8). -/
def decPred (t : TileId) (f : RForm) : Option Instr :=
  match f.fn.toNat with
  | 0 => if f.sub = 0 then (pField f.rd).bind (fun xrd => (vField f.rs1).bind (fun xrs1 => (vField f.rs2).bind (fun xrs2 => some (.vfeq t f.pg xrd xrs1 xrs2)))) else none
  | 1 => if f.sub = 0 then (pField f.rd).bind (fun xrd => (vField f.rs1).bind (fun xrs1 => (vField f.rs2).bind (fun xrs2 => some (.vflt t f.pg xrd xrs1 xrs2)))) else none
  | 2 => if f.sub = 0 then (pField f.rd).bind (fun xrd => (vField f.rs1).bind (fun xrs1 => (vField f.rs2).bind (fun xrs2 => some (.vfle t f.pg xrd xrs1 xrs2)))) else none
  | 3 => if f.sub = 0 then (pField f.rd).bind (fun xrd => (vField f.rs1).bind (fun xrs1 => (vField f.rs2).bind (fun xrs2 => some (.vieq t f.pg xrd xrs1 xrs2)))) else none
  | 4 => if f.sub = 0 then (pField f.rd).bind (fun xrd => (vField f.rs1).bind (fun xrs1 => (vField f.rs2).bind (fun xrs2 => some (.vilt t f.pg xrd xrs1 xrs2)))) else none
  | 5 => if f.sub = 0 then (pField f.rd).bind (fun xrd => (vField f.rs1).bind (fun xrs1 => (vField f.rs2).bind (fun xrs2 => some (.vile t f.pg xrd xrs1 xrs2)))) else none
  | 6 => if f.sub = 0 then (pField f.rd).bind (fun xrd => (vField f.rs1).bind (fun xrs1 => (vField f.rs2).bind (fun xrs2 => some (.viltu t f.pg xrd xrs1 xrs2)))) else none
  | 7 => if f.sub = 0 then (pField f.rd).bind (fun xrd => (pField f.rs1).bind (fun xrs1 => (pField f.rs2).bind (fun xrs2 => some (.pand t f.pg xrd xrs1 xrs2)))) else none
  | 8 => if f.sub = 0 then (pField f.rd).bind (fun xrd => (pField f.rs1).bind (fun xrs1 => (pField f.rs2).bind (fun xrs2 => some (.por t f.pg xrd xrs1 xrs2)))) else none
  | 9 => if f.sub = 0 then (pField f.rd).bind (fun xrd => (pField f.rs1).bind (fun xrs1 => (pField f.rs2).bind (fun xrs2 => some (.pxor t f.pg xrd xrs1 xrs2)))) else none
  | 10 => if f.sub = 0 then (pField f.rd).bind (fun xrd => (pField f.rs1).bind (fun xrs1 => whenZ (f.rs2 == 0) (.pnot t f.pg xrd xrs1))) else none
  | 11 => if f.sub = 0 then (pField f.rd).bind (fun xrd => whenZ (f.rs2 == 0) (.pfirst t f.pg xrd f.rs1)) else none
  | 12 => if f.sub = 0 then (pField f.rs1).bind (fun xrs1 => whenZ (f.rs2 == 0) (.pcnt t f.pg f.rd xrs1)) else none
  | _ => none

/-- SEM (Table 4-11). SRD takes no count, and R106 asks only unread register fields to be zero. DEDUCED: log entry 35. -/
def decSem (t : TileId) (f : YForm) : Option Instr :=
  match f.fn.toNat with
  | 0 => some (.xSacq t f.rs f.imm f.obj)
  | 1 => some (.xSpost t f.rs f.imm f.obj)
  | 2 => some (.xSset t f.rs f.imm f.obj)
  | 3 => some (.xSrd t f.rs f.obj)
  | 4 => some (.xStry t f.rs f.imm f.obj)
  | _ => none

/-- WIN (Table 4-11, R117): OBJ[5] is zero. IMM11 is free where it is not read; log entry 35. -/
def decWin (t : TileId) (f : YForm) : Option Instr :=
  match f.fn.toNat with
  | 0 => whenZ (f.obj.toNat < 32) (.xWopen t f.rs (f.obj.setWidth 5))
  | 1 => whenZ (f.obj.toNat < 32 && f.rs == 0) (.xWclose t (f.obj.setWidth 5))
  | 2 => whenZ (f.obj.toNat < 32) (.xWwait t f.rs f.imm (f.obj.setWidth 5))
  | 3 => whenZ (f.obj.toNat < 32) (.xWcnt t f.rs (f.obj.setWidth 5))
  | _ => none

/-- STRM (Table 4-11). -/
def decStrm (t : TileId) (f : YForm) : Option Instr :=
  match f.fn.toNat with
  | 0 => some (.xScommit t f.rs f.imm f.obj)
  | 1 => some (.xScancel t f.rs f.imm f.obj)
  | 2 => some (.xSstat t f.rs f.obj)
  | 3 => some (.xSwait t f.rs f.imm f.obj)
  | _ => none

/-- ENG (Table 4-11, R117). -/
def decEng (t : TileId) (f : YForm) : Option Instr :=
  match f.fn.toNat with
  | 0 => whenZ (f.obj == 0 && f.rs == 0 && decide (f.imm.toNat < 16)) (.xEwaitCe t (f.imm.setWidth 4))
  | 1 => whenZ (f.obj == 0 && f.rs == 0 && decide (f.imm.toNat < 16)) (.xEwaitGme t (f.imm.setWidth 4))
  | 2 => whenZ (f.obj == 0) (.xEstat t f.rs)
  | _ => none

/-- HINT (Table 4-11, R117). -/
def decHint (t : TileId) (f : YForm) : Option Instr :=
  match f.fn.toNat with
  | 0 => whenZ (f.obj == 0 && f.rs == 0 && decide (f.imm.toNat < 4)) (.xLhint t (f.imm.setWidth 2))
  | _ => none

/-- LIMM (Table 4-9). -/
def decLimm (t : TileId) (f : WForm) : Option Instr :=
  match f.fn.toNat with
  | 0 => whenZ (f.rs == 0 && f.dc == 0 && f.db == 0 && f.da == 0) (.xLi t f.rt f.imm)
  | 1 => whenZ (f.rs == 0 && f.dc == 0 && f.db == 0 && f.da == 0) (.xLih t f.rt f.imm)
  | 2 => whenZ (f.dc == 0 && f.db == 0 && f.da == 0) (.xAddi32 t f.rt f.rs f.imm)
  | _ => none

/-- DESC (Table 4-9). -/
def decDesc (t : TileId) (f : WForm) : Option Instr :=
  match f.fn.toNat with
  | 0 => whenZ (f.rt == 0 && f.dc == 0 && f.db == 0) (.xDld t f.da f.rs f.imm)
  | 1 => whenZ (f.rt == 0 && f.dc == 0 && f.db == 0) (.xDst t f.da f.rs f.imm)
  | 2 => whenZ (f.rs == 0 && f.dc == 0 && f.db == 0 && decide (f.imm.toNat < 8)) (.xDins t f.da f.rt (f.imm.setWidth 3))
  | 3 => whenZ (f.rs == 0 && f.dc == 0 && f.db == 0 && decide (f.imm.toNat < 8)) (.xDext t f.da f.rt (f.imm.setWidth 3))
  | 4 => whenZ (f.rt == 0 && f.rs == 0 && f.dc == 0 && f.imm == 0) (.xDmov t f.da f.db)
  | _ => none

/-- CE (Table 4-9): IMM32[31:15] is zero. -/
def decCe (t : TileId) (f : WForm) : Option Instr :=
  match f.fn.toNat with
  | 0 => whenZ (f.rt == 0 && f.rs == 0 && decide (f.imm.toNat < 2 ^ 15)) (.ceMm t f.da f.db f.dc (engImm f.imm))
  | 1 => whenZ (f.dc == 0 && f.db == 0 && decide (f.imm.toNat < 2 ^ 15)) (.ceGrouped t f.da f.rs f.rt (engImm f.imm))
  | _ => none

/-- GME (Table 4-9, R212): TA and TB are zero. What GME.RANK does stands in its descriptor, whose operation is `rank` (Table 10-2). -/
def decGme (t : TileId) (rank : Nat) (f : WForm) : Option Instr :=
  if f.rt == 0 && f.rs == 0 && decide (f.imm.toNat < 2 ^ 13) then
    match f.fn.toNat with
    | 0 => some (.gmeGather t f.da f.db f.dc (engImm f.imm))
    | 1 => some (.gmeSegred t f.da f.db f.dc (engImm f.imm))
    | 2 => some (.gmeMerge t f.da f.db f.dc (engImm f.imm))
    | 3 => some (.gmeScatter t f.da f.db f.dc (engImm f.imm))
    | 4 =>
      match rank with
      | 0 => some (.topk t f.da f.db f.dc (engImm f.imm))
      | 1 => some (.bucket t f.da f.db f.dc (engImm f.imm))
      | 2 => some (.cut t f.da f.db f.dc (engImm f.imm))
      | 3 => some (.place t f.da f.db f.dc (engImm f.imm))
      | _ => some (.join t f.da f.db f.dc (engImm f.imm))
    | _ => none
  else none

/-- RPOST (Tables 4-3, 4-10): the field that does not name the target is zero. -/
def decRpost (t : TileId) (f : WRForm) : Option Instr :=
  whenZ (f.fn == 0 && f.resHi == 0 && f.resLo == 0 && (if f.treg = 1 then f.tile == 0 else f.rt == 0))
    (.xRpost t f.rs f.rt (f.treg == 1) f.tile f.count f.sem)

/-- COLL (Table 4-9). -/
def decColl (t : TileId) (f : WForm) : Option Instr :=
  match f.fn.toNat with
  | 0 => whenZ (f.rt == 0 && f.db == 0) (.collSeg t f.da f.dc f.rs (f.imm.extractLsb' 0 12) (f.imm.extractLsb' 12 5) (f.imm.getLsbD 17) (f.imm.extractLsb' 18 14))
  | 1 => whenZ (f.rt == 0 && f.db == 0 && f.dc == 0 && f.da == 0) (.collNull t f.rs (f.imm.extractLsb' 0 12) (f.imm.extractLsb' 12 5) (f.imm.getLsbD 17) (f.imm.extractLsb' 18 14))
  | _ => none

/-- UPD (Table 4-9, R304): RGN.ACQ has LINK_EN = 1. -/
def decUpd (t : TileId) (f : WForm) : Option Instr :=
  match f.fn.toNat with
  | 0 => whenZ (f.rt == 0 && f.rs == 0 && f.dc == 0 && f.db == 0 && decide (f.imm.toNat < 64)) (.updPost t f.da (f.imm.extractLsb' 0 5) (f.imm.getLsbD 5))
  | 1 => whenZ (f.rt == 0 && f.dc == 0 && f.db == 0 && f.da == 0 && f.imm.extractLsb' 21 11 == 1) (.rgnAcq t f.rs (f.imm.extractLsb' 0 16) (f.imm.extractLsb' 16 5))
  | 2 => whenZ (f.rt == 0 && f.dc == 0 && f.db == 0 && f.da == 0 && decide (f.imm.toNat < 2 ^ 16)) (.rgnRel t f.rs (f.imm.setWidth 16))
  | _ => none

/-- The instruction that the words at an X-core's PC spell (R105, R106, Table 4-4): `w1` is the second word, which the 32-bit form
does not read; `rank` is the operation of D[DA], which tells the GME.RANK operations apart. Log entry 35. -/
def xDecode (t : TileId) (rank : Nat) (w0 w1 : W32) : Option Instr :=
  let cls := (w0.extractLsb' 1 5).toNat
  if w0.getLsbD 0 then
    match cls with
    | 0x00 => decLimm t (wForm w0 w1)
    | 0x01 => decDesc t (wForm w0 w1)
    | 0x02 => decCe t (wForm w0 w1)
    | 0x03 => decGme t rank (wForm w0 w1)
    | 0x04 => decRpost t (wrForm w0 w1)
    | 0x05 => decColl t (wForm w0 w1)
    | 0x06 => decUpd t (wForm w0 w1)
    | _ => none
  else
    match cls with
    | 0x00 => decSys t (rForm w0)
    | 0x01 => decAlu t (rForm w0)
    | 0x02 => decAlui t (iForm w0)
    | 0x03 => decLd t (iForm w0)
    | 0x04 => decSt t (iForm w0)
    | 0x05 => decBr t (bForm w0)
    | 0x06 => some (.xJal t (w0.extractLsb' 6 5) (w0.extractLsb' 11 21))
    | 0x07 => whenZ ((iForm w0).fn == 0) (.xJalr t (iForm w0).rd (iForm w0).rs1 (iForm w0).imm)
    | 0x08 => decCsr t (iForm w0)
    | 0x09 => decVop t (rForm w0)
    | 0x0A => decVmem t (mForm w0)
    | 0x0B => decPred t (rForm w0)
    | 0x0C => decSem t (yForm w0)
    | 0x0D => decWin t (yForm w0)
    | 0x0E => decStrm t (yForm w0)
    | 0x0F => decEng t (yForm w0)
    | 0x10 => decAtom t (rForm w0)
    | 0x11 => decHint t (yForm w0)
    | _ => none

/-- The instruction that the word at an F-core's PC spells (R154 to R156, Tables 6-1, 6-2); log entry 35. -/
def fDecode (t : TileId) (w : W32) : Option Instr :=
  match (w.extractLsb' 0 6).toNat with
  | 0 => whenZ ((fForm w).gd == 0 && (fForm w).ga == 0 && (fForm w).gb == 0 && (fForm w).imm == 0) (.fNop t)
  | 1 => whenZ ((fForm w).gd == 0 && (fForm w).ga == 0 && (fForm w).gb == 0 && (fForm w).imm == 0) (.fEnd t)
  | 2 => whenZ ((fForm w).imm == 0) (.fAdd t (fForm w).gd (fForm w).ga (fForm w).gb)
  | 3 => whenZ ((fForm w).imm == 0) (.fSub t (fForm w).gd (fForm w).ga (fForm w).gb)
  | 4 => whenZ ((fForm w).imm == 0) (.fMul t (fForm w).gd (fForm w).ga (fForm w).gb)
  | 5 => whenZ ((fForm w).gb == 0) (.fAddi t (fForm w).gd (fForm w).ga (fForm w).imm)
  | 6 => whenZ ((fForm w).gb == 0 && decide ((fForm w).imm.toNat < 64)) (.fSlli t (fForm w).gd (fForm w).ga ((fForm w).imm.setWidth 6))
  | 7 => whenZ ((fForm w).gb == 0 && decide ((fForm w).imm.toNat < 64)) (.fSrli t (fForm w).gd (fForm w).ga ((fForm w).imm.setWidth 6))
  | 8 => whenZ ((fForm w).gb == 0) (.fOri t (fForm w).gd (fForm w).ga (fForm w).imm)
  | 9 => whenZ ((fForm w).gb == 0) (.fAndi t (fForm w).gd (fForm w).ga (fForm w).imm)
  | 10 => whenZ ((fForm w).gb == 0) (.fLd t (fForm w).gd (fForm w).ga (fForm w).imm)
  | 11 => whenZ ((fForm w).gd == 0) (.fSt t (fForm w).ga (fForm w).gb (fForm w).imm)
  | 12 => whenZ ((fForm w).gd == 0) (.fBeq t (fForm w).ga (fForm w).gb (fForm w).imm)
  | 13 => whenZ ((fForm w).gd == 0) (.fBne t (fForm w).ga (fForm w).gb (fForm w).imm)
  | 14 => whenZ ((fForm w).gd == 0) (.fBlt t (fForm w).ga (fForm w).gb (fForm w).imm)
  | 15 => whenZ ((fForm w).gd == 0) (.fBltu t (fForm w).ga (fForm w).gb (fForm w).imm)
  | 16 => whenZ ((fForm w).gd == 0 && (fForm w).gb == 0 && decide ((fForm w).imm.toNat < 64)) (.fSopen t (fForm w).ga ((fForm w).imm.setWidth 6))
  | 17 => whenZ ((fForm w).gd == 0 && (fForm w).ga == 0 && (fForm w).gb == 0 && decide ((fForm w).imm.toNat < 64)) (.fSjoin t ((fForm w).imm.setWidth 6))
  | 18 => whenZ ((fForm w).gd == 0 && (fForm w).gb == 0 && ((fForm w).ga == 0 || decide ((fForm w).imm.toNat < 64))) (.fSacq t (fForm w).ga ((fForm w).imm.extractLsb' 6 8) ((fForm w).imm.setWidth 6))
  | 19 => whenZ ((fForm w).gd == 0 && (fForm w).gb == 0 && ((fForm w).ga == 0 || decide ((fForm w).imm.toNat < 64))) (.fSpost t (fForm w).ga ((fForm w).imm.extractLsb' 6 8) ((fForm w).imm.setWidth 6))
  | 20 => whenZ ((fForm w).ga == 0 && (fForm w).gb == 0 && decide ((fForm w).imm.toNat < 64)) (.fStat t (fForm w).gd ((fForm w).imm.setWidth 6))
  | _ => none

/-! ### Encoder -/

/-- The words of an X-core instruction, from the same tables; none for a command that is no X-core instruction. The second is 0 in the
32-bit form. -/
def xEncode : Instr → Option (W32 × W32)
  | .xNop _ => some (eR 0x00 0 0 0 0 0 0, 0)
  | .xEnd _ => some (eR 0x00 0 0 1 0 0 0, 0)
  | .xFence _ => some (eR 0x00 0 0 2 0 0 0, 0)
  | .xFenceE _ => some (eR 0x00 0 0 3 0 0 0, 0)
  | .xIflush _ => some (eR 0x00 0 0 4 0 0 0, 0)
  | .xBrk _ => some (eR 0x00 0 0 5 0 0 0, 0)
  | .xAdd _ rd rs1 rs2 => some (eR 0x01 0 0 0 rs2 rs1 rd, 0)
  | .xSub _ rd rs1 rs2 => some (eR 0x01 0 0 1 rs2 rs1 rd, 0)
  | .xAnd _ rd rs1 rs2 => some (eR 0x01 0 0 2 rs2 rs1 rd, 0)
  | .xOr _ rd rs1 rs2 => some (eR 0x01 0 0 3 rs2 rs1 rd, 0)
  | .xXor _ rd rs1 rs2 => some (eR 0x01 0 0 4 rs2 rs1 rd, 0)
  | .xSll _ rd rs1 rs2 => some (eR 0x01 0 0 5 rs2 rs1 rd, 0)
  | .xSrl _ rd rs1 rs2 => some (eR 0x01 0 0 6 rs2 rs1 rd, 0)
  | .xSra _ rd rs1 rs2 => some (eR 0x01 0 0 7 rs2 rs1 rd, 0)
  | .xMul _ rd rs1 rs2 => some (eR 0x01 0 0 8 rs2 rs1 rd, 0)
  | .xMulhu _ rd rs1 rs2 => some (eR 0x01 0 0 9 rs2 rs1 rd, 0)
  | .xSlt _ rd rs1 rs2 => some (eR 0x01 0 0 10 rs2 rs1 rd, 0)
  | .xSltu _ rd rs1 rs2 => some (eR 0x01 0 0 11 rs2 rs1 rd, 0)
  | .xMin _ rd rs1 rs2 => some (eR 0x01 0 0 12 rs2 rs1 rd, 0)
  | .xMax _ rd rs1 rs2 => some (eR 0x01 0 0 13 rs2 rs1 rd, 0)
  | .xMinu _ rd rs1 rs2 => some (eR 0x01 0 0 14 rs2 rs1 rd, 0)
  | .xMaxu _ rd rs1 rs2 => some (eR 0x01 0 0 15 rs2 rs1 rd, 0)
  | .xAddi _ rd rs1 imm => some (eI 0x02 imm 0 rs1 rd, 0)
  | .xAndi _ rd rs1 imm => some (eI 0x02 imm 1 rs1 rd, 0)
  | .xOri _ rd rs1 imm => some (eI 0x02 imm 2 rs1 rd, 0)
  | .xXori _ rd rs1 imm => some (eI 0x02 imm 3 rs1 rd, 0)
  | .xSlli _ rd rs1 sh => some (eI 0x02 (sh.setWidth 12) 4 rs1 rd, 0)
  | .xSrli _ rd rs1 sh => some (eI 0x02 (sh.setWidth 12) 5 rs1 rd, 0)
  | .xSrai _ rd rs1 sh => some (eI 0x02 (sh.setWidth 12) 6 rs1 rd, 0)
  | .xSlti _ rd rs1 imm => some (eI 0x02 imm 7 rs1 rd, 0)
  | .xSltiu _ rd rs1 imm => some (eI 0x02 imm 8 rs1 rd, 0)
  | .xLb _ rd rs1 imm => some (eI 0x03 imm 0 rs1 rd, 0)
  | .xLh _ rd rs1 imm => some (eI 0x03 imm 1 rs1 rd, 0)
  | .xLw _ rd rs1 imm => some (eI 0x03 imm 2 rs1 rd, 0)
  | .xLd _ rd rs1 imm => some (eI 0x03 imm 3 rs1 rd, 0)
  | .xLbu _ rd rs1 imm => some (eI 0x03 imm 4 rs1 rd, 0)
  | .xLhu _ rd rs1 imm => some (eI 0x03 imm 5 rs1 rd, 0)
  | .xLwu _ rd rs1 imm => some (eI 0x03 imm 6 rs1 rd, 0)
  | .xSb _ rs1 rs2 imm => some (eI 0x04 imm 0 rs1 rs2, 0)
  | .xSh _ rs1 rs2 imm => some (eI 0x04 imm 1 rs1 rs2, 0)
  | .xSw _ rs1 rs2 imm => some (eI 0x04 imm 2 rs1 rs2, 0)
  | .xSd _ rs1 rs2 imm => some (eI 0x04 imm 3 rs1 rs2, 0)
  | .xBeq _ rs1 rs2 off => some (eB off 0 rs2 rs1, 0)
  | .xBne _ rs1 rs2 off => some (eB off 1 rs2 rs1, 0)
  | .xBlt _ rs1 rs2 off => some (eB off 2 rs2 rs1, 0)
  | .xBge _ rs1 rs2 off => some (eB off 3 rs2 rs1, 0)
  | .xBltu _ rs1 rs2 off => some (eB off 4 rs2 rs1, 0)
  | .xBgeu _ rs1 rs2 off => some (eB off 5 rs2 rs1, 0)
  | .xBpany _ p off => some (eB off 6 0 (p.setWidth 5), 0)
  | .xBpnone _ p off => some (eB off 7 0 (p.setWidth 5), 0)
  | .xJal _ rd off => some (eJ off rd, 0)
  | .xJalr _ rd rs1 imm => some (eI 0x07 imm 0 rs1 rd, 0)
  | .xCsrrW _ rd rs1 imm => some (eI 0x08 imm 0 rs1 rd, 0)
  | .xCsrwW _ rd rs1 imm => some (eI 0x08 imm 1 rs1 rd, 0)
  | .xCsrrD _ rd rs1 imm => some (eI 0x08 imm 2 rs1 rd, 0)
  | .xCsrwD _ rd rs1 imm => some (eI 0x08 imm 3 rs1 rd, 0)
  | .xAaddW _ rs1 rs2 => some (eR 0x10 0 0 0 rs2 rs1 0, 0)
  | .xAaddD _ rs1 rs2 => some (eR 0x10 0 0 1 rs2 rs1 0, 0)
  | .xAaddrW _ rd rs1 rs2 => some (eR 0x10 0 0 2 rs2 rs1 rd, 0)
  | .xAaddrD _ rd rs1 rs2 => some (eR 0x10 0 0 3 rs2 rs1 rd, 0)
  | .vfadd _ pg vd va vb => some (eR 0x09 0 pg 0 (vb.setWidth 5) (va.setWidth 5) (vd.setWidth 5), 0)
  | .vfsub _ pg vd va vb => some (eR 0x09 0 pg 1 (vb.setWidth 5) (va.setWidth 5) (vd.setWidth 5), 0)
  | .vfmul _ pg vd va vb => some (eR 0x09 0 pg 2 (vb.setWidth 5) (va.setWidth 5) (vd.setWidth 5), 0)
  | .vfma _ pg vd va vb => some (eR 0x09 0 pg 3 (vb.setWidth 5) (va.setWidth 5) (vd.setWidth 5), 0)
  | .vfmin _ pg vd va vb => some (eR 0x09 0 pg 4 (vb.setWidth 5) (va.setWidth 5) (vd.setWidth 5), 0)
  | .vfmax _ pg vd va vb => some (eR 0x09 0 pg 5 (vb.setWidth 5) (va.setWidth 5) (vd.setWidth 5), 0)
  | .vfabs _ pg vd va => some (eR 0x09 0 pg 6 0 (va.setWidth 5) (vd.setWidth 5), 0)
  | .vfneg _ pg vd va => some (eR 0x09 0 pg 7 0 (va.setWidth 5) (vd.setWidth 5), 0)
  | .vfrcp _ pg vd va => some (eR 0x09 0 pg 8 0 (va.setWidth 5) (vd.setWidth 5), 0)
  | .vfrsq _ pg vd va => some (eR 0x09 0 pg 9 0 (va.setWidth 5) (vd.setWidth 5), 0)
  | .vfexp2 _ pg vd va => some (eR 0x09 0 pg 10 0 (va.setWidth 5) (vd.setWidth 5), 0)
  | .vflog2 _ pg vd va => some (eR 0x09 0 pg 11 0 (va.setWidth 5) (vd.setWidth 5), 0)
  | .vadd _ pg vd va vb => some (eR 0x09 1 pg 0 (vb.setWidth 5) (va.setWidth 5) (vd.setWidth 5), 0)
  | .vsub _ pg vd va vb => some (eR 0x09 1 pg 1 (vb.setWidth 5) (va.setWidth 5) (vd.setWidth 5), 0)
  | .vmul _ pg vd va vb => some (eR 0x09 1 pg 2 (vb.setWidth 5) (va.setWidth 5) (vd.setWidth 5), 0)
  | .vand _ pg vd va vb => some (eR 0x09 1 pg 3 (vb.setWidth 5) (va.setWidth 5) (vd.setWidth 5), 0)
  | .vor _ pg vd va vb => some (eR 0x09 1 pg 4 (vb.setWidth 5) (va.setWidth 5) (vd.setWidth 5), 0)
  | .vxor _ pg vd va vb => some (eR 0x09 1 pg 5 (vb.setWidth 5) (va.setWidth 5) (vd.setWidth 5), 0)
  | .vsll _ pg vd va vb => some (eR 0x09 1 pg 6 (vb.setWidth 5) (va.setWidth 5) (vd.setWidth 5), 0)
  | .vsrl _ pg vd va vb => some (eR 0x09 1 pg 7 (vb.setWidth 5) (va.setWidth 5) (vd.setWidth 5), 0)
  | .vsra _ pg vd va vb => some (eR 0x09 1 pg 8 (vb.setWidth 5) (va.setWidth 5) (vd.setWidth 5), 0)
  | .vmin _ pg vd va vb => some (eR 0x09 1 pg 9 (vb.setWidth 5) (va.setWidth 5) (vd.setWidth 5), 0)
  | .vmax _ pg vd va vb => some (eR 0x09 1 pg 10 (vb.setWidth 5) (va.setWidth 5) (vd.setWidth 5), 0)
  | .vminu _ pg vd va vb => some (eR 0x09 1 pg 11 (vb.setWidth 5) (va.setWidth 5) (vd.setWidth 5), 0)
  | .vmaxu _ pg vd va vb => some (eR 0x09 1 pg 12 (vb.setWidth 5) (va.setWidth 5) (vd.setWidth 5), 0)
  | .vmov _ pg vd va => some (eR 0x09 2 pg 0 0 (va.setWidth 5) (vd.setWidth 5), 0)
  | .vbcast _ pg vd rs => some (eR 0x09 2 pg 1 0 rs (vd.setWidth 5), 0)
  | .vext _ pg rd va rs => some (eR 0x09 2 pg 2 rs (va.setWidth 5) rd, 0)
  | .vins _ pg vd rs1 rs2 => some (eR 0x09 2 pg 3 rs2 rs1 (vd.setWidth 5), 0)
  | .vshuf _ pg vd va vb => some (eR 0x09 2 pg 4 (vb.setWidth 5) (va.setWidth 5) (vd.setWidth 5), 0)
  | .viota _ pg vd => some (eR 0x09 2 pg 5 0 0 (vd.setWidth 5), 0)
  | .vsel _ pg vd va vb => some (eR 0x09 2 pg 6 (vb.setWidth 5) (va.setWidth 5) (vd.setWidth 5), 0)
  | .vrsum _ pg rd va => some (eR 0x09 3 pg 0 0 (va.setWidth 5) rd, 0)
  | .vrmax _ pg rd va => some (eR 0x09 3 pg 1 0 (va.setWidth 5) rd, 0)
  | .vrmin _ pg rd va => some (eR 0x09 3 pg 2 0 (va.setWidth 5) rd, 0)
  | .vradd _ pg rd va => some (eR 0x09 3 pg 3 0 (va.setWidth 5) rd, 0)
  | .vcvtF2i _ pg vd va => some (eR 0x09 4 pg 0 0 (va.setWidth 5) (vd.setWidth 5), 0)
  | .vcvtI2f _ pg vd va => some (eR 0x09 4 pg 1 0 (va.setWidth 5) (vd.setWidth 5), 0)
  | .vcvtF2bf16 _ pg vd va => some (eR 0x09 4 pg 2 0 (va.setWidth 5) (vd.setWidth 5), 0)
  | .vcvtBf162f _ pg vd va => some (eR 0x09 4 pg 3 0 (va.setWidth 5) (vd.setWidth 5), 0)
  | .vcvtF2fp16 _ pg vd va => some (eR 0x09 4 pg 4 0 (va.setWidth 5) (vd.setWidth 5), 0)
  | .vcvtFp162f _ pg vd va => some (eR 0x09 4 pg 5 0 (va.setWidth 5) (vd.setWidth 5), 0)
  | .vcvtF2e4m3 _ pg vd va => some (eR 0x09 4 pg 6 0 (va.setWidth 5) (vd.setWidth 5), 0)
  | .vcvtE4m32f _ pg vd va => some (eR 0x09 4 pg 7 0 (va.setWidth 5) (vd.setWidth 5), 0)
  | .vcvtF2e5m2 _ pg vd va => some (eR 0x09 4 pg 8 0 (va.setWidth 5) (vd.setWidth 5), 0)
  | .vcvtE5m22f _ pg vd va => some (eR 0x09 4 pg 9 0 (va.setWidth 5) (vd.setWidth 5), 0)
  | .vld _ pg vd rs1 imm => some (eM imm pg 0 rs1 (vd.setWidth 5), 0)
  | .vst _ pg vd rs1 imm => some (eM imm pg 1 rs1 (vd.setWidth 5), 0)
  | .vldH _ pg vd rs1 imm => some (eM imm pg 2 rs1 (vd.setWidth 5), 0)
  | .vstH _ pg vd rs1 imm => some (eM imm pg 3 rs1 (vd.setWidth 5), 0)
  | .vldB _ pg vd rs1 imm => some (eM imm pg 4 rs1 (vd.setWidth 5), 0)
  | .vstB _ pg vd rs1 imm => some (eM imm pg 5 rs1 (vd.setWidth 5), 0)
  | .vldBc _ pg vd rs1 imm => some (eM imm pg 6 rs1 (vd.setWidth 5), 0)
  | .vfeq _ pg pd va vb => some (eR 0x0B 0 pg 0 (vb.setWidth 5) (va.setWidth 5) (pd.setWidth 5), 0)
  | .vflt _ pg pd va vb => some (eR 0x0B 0 pg 1 (vb.setWidth 5) (va.setWidth 5) (pd.setWidth 5), 0)
  | .vfle _ pg pd va vb => some (eR 0x0B 0 pg 2 (vb.setWidth 5) (va.setWidth 5) (pd.setWidth 5), 0)
  | .vieq _ pg pd va vb => some (eR 0x0B 0 pg 3 (vb.setWidth 5) (va.setWidth 5) (pd.setWidth 5), 0)
  | .vilt _ pg pd va vb => some (eR 0x0B 0 pg 4 (vb.setWidth 5) (va.setWidth 5) (pd.setWidth 5), 0)
  | .vile _ pg pd va vb => some (eR 0x0B 0 pg 5 (vb.setWidth 5) (va.setWidth 5) (pd.setWidth 5), 0)
  | .viltu _ pg pd va vb => some (eR 0x0B 0 pg 6 (vb.setWidth 5) (va.setWidth 5) (pd.setWidth 5), 0)
  | .pand _ pg pd pa pb => some (eR 0x0B 0 pg 7 (pb.setWidth 5) (pa.setWidth 5) (pd.setWidth 5), 0)
  | .por _ pg pd pa pb => some (eR 0x0B 0 pg 8 (pb.setWidth 5) (pa.setWidth 5) (pd.setWidth 5), 0)
  | .pxor _ pg pd pa pb => some (eR 0x0B 0 pg 9 (pb.setWidth 5) (pa.setWidth 5) (pd.setWidth 5), 0)
  | .pnot _ pg pd pa => some (eR 0x0B 0 pg 10 0 (pa.setWidth 5) (pd.setWidth 5), 0)
  | .pfirst _ pg pd rs => some (eR 0x0B 0 pg 11 0 rs (pd.setWidth 5), 0)
  | .pcnt _ pg rd pa => some (eR 0x0B 0 pg 12 0 (pa.setWidth 5) rd, 0)
  | .xSacq _ rs imm n => some (eY 0x0C imm rs n 0, 0)
  | .xSpost _ rs imm n => some (eY 0x0C imm rs n 1, 0)
  | .xSset _ rs imm n => some (eY 0x0C imm rs n 2, 0)
  | .xSrd _ rs n => some (eY 0x0C 0 rs n 3, 0)
  | .xStry _ rs imm n => some (eY 0x0C imm rs n 4, 0)
  | .xWopen _ rs w => some (eY 0x0D 0 rs (w.setWidth 6) 0, 0)
  | .xWclose _ w => some (eY 0x0D 0 0 (w.setWidth 6) 1, 0)
  | .xWwait _ rs imm w => some (eY 0x0D imm rs (w.setWidth 6) 2, 0)
  | .xWcnt _ rs w => some (eY 0x0D 0 rs (w.setWidth 6) 3, 0)
  | .xScommit _ rs imm sl => some (eY 0x0E imm rs sl 0, 0)
  | .xScancel _ rs imm sl => some (eY 0x0E imm rs sl 1, 0)
  | .xSstat _ rs sl => some (eY 0x0E 0 rs sl 2, 0)
  | .xSwait _ rs imm sl => some (eY 0x0E imm rs sl 3, 0)
  | .xEwaitCe _ n => some (eY 0x0F (n.setWidth 11) 0 0 0, 0)
  | .xEwaitGme _ n => some (eY 0x0F (n.setWidth 11) 0 0 1, 0)
  | .xEstat _ rs => some (eY 0x0F 0 rs 0 2, 0)
  | .xLhint _ cls => some (eY 0x11 (cls.setWidth 11) 0 0 0, 0)
  | .xLi _ rt imm => some (eW 0x00 imm rt 0 0 0 0 0)
  | .xLih _ rt imm => some (eW 0x00 imm rt 0 0 0 0 1)
  | .xAddi32 _ rt rs imm => some (eW 0x00 imm rt rs 0 0 0 2)
  | .xDld _ da rs imm => some (eW 0x01 imm 0 rs 0 0 da 0)
  | .xDst _ da rs imm => some (eW 0x01 imm 0 rs 0 0 da 1)
  | .xDins _ da rt fld => some (eW 0x01 (fld.setWidth 32) rt 0 0 0 da 2)
  | .xDext _ da rt fld => some (eW 0x01 (fld.setWidth 32) rt 0 0 0 da 3)
  | .xDmov _ da db => some (eW 0x01 0 0 0 0 db da 4)
  | .ceMm _ da db dc imm => some (eW 0x02 (immEng imm) 0 0 dc db da 0)
  | .ceGrouped _ da rs rt imm => some (eW 0x02 (immEng imm) rt rs 0 0 da 1)
  | .gmeGather _ da db dc imm => some (eW 0x03 (immEng imm) 0 0 dc db da 0)
  | .gmeSegred _ da db dc imm => some (eW 0x03 (immEng imm) 0 0 dc db da 1)
  | .gmeMerge _ da db dc imm => some (eW 0x03 (immEng imm) 0 0 dc db da 2)
  | .gmeScatter _ da db dc imm => some (eW 0x03 (immEng imm) 0 0 dc db da 3)
  | .topk _ da db dc imm => some (eW 0x03 (immEng imm) 0 0 dc db da 4)
  | .bucket _ da db dc imm => some (eW 0x03 (immEng imm) 0 0 dc db da 4)
  | .cut _ da db dc imm => some (eW 0x03 (immEng imm) 0 0 dc db da 4)
  | .place _ da db dc imm => some (eW 0x03 (immEng imm) 0 0 dc db da 4)
  | .join _ da db dc imm => some (eW 0x03 (immEng imm) 0 0 dc db da 4)
  | .xRpost _ rs rt treg tile count n => some (eWR treg tile count rt rs n)
  | .collSeg _ da dc rs grp link linkEn seg => some (eW 0x05 (immColl grp link linkEn seg) 0 rs dc 0 da 0)
  | .collNull _ rs grp link linkEn seg => some (eW 0x05 (immColl grp link linkEn seg) 0 rs 0 0 0 1)
  | .updPost _ da link linkEn => some (eW 0x06 (immUpd link linkEn) 0 0 0 0 da 0)
  | .rgnAcq _ rs r link => some (eW 0x06 (immAcq r link) 0 rs 0 0 0 1)
  | .rgnRel _ rs r => some (eW 0x06 (r.setWidth 32) 0 rs 0 0 0 2)
  | _ => none

/-- The word of an F-core instruction. -/
def fEncode : Instr → Option W32
  | .fNop _ => some (eF 0 0 0 0 0)
  | .fEnd _ => some (eF 0 0 0 0 1)
  | .fAdd _ gd ga gb => some (eF 0 gb ga gd 2)
  | .fSub _ gd ga gb => some (eF 0 gb ga gd 3)
  | .fMul _ gd ga gb => some (eF 0 gb ga gd 4)
  | .fAddi _ gd ga imm => some (eF imm 0 ga gd 5)
  | .fSlli _ gd ga sh => some (eF (sh.setWidth 14) 0 ga gd 6)
  | .fSrli _ gd ga sh => some (eF (sh.setWidth 14) 0 ga gd 7)
  | .fOri _ gd ga imm => some (eF imm 0 ga gd 8)
  | .fAndi _ gd ga imm => some (eF imm 0 ga gd 9)
  | .fLd _ gd ga imm => some (eF imm 0 ga gd 10)
  | .fSt _ ga gb imm => some (eF imm gb ga 0 11)
  | .fBeq _ ga gb imm => some (eF imm gb ga 0 12)
  | .fBne _ ga gb imm => some (eF imm gb ga 0 13)
  | .fBlt _ ga gb imm => some (eF imm gb ga 0 14)
  | .fBltu _ ga gb imm => some (eF imm gb ga 0 15)
  | .fSopen _ ga sl => some (eF (sl.setWidth 14) 0 ga 0 16)
  | .fSjoin _ sl => some (eF (sl.setWidth 14) 0 0 0 17)
  | .fSacq _ ga cnt n => some (eF (cnt ++ n) 0 ga 0 18)
  | .fSpost _ ga cnt n => some (eF (cnt ++ n) 0 ga 0 19)
  | .fStat _ gd sl => some (eF (sl.setWidth 14) 0 0 gd 20)
  | _ => none

end Sys2Proof
end

