-- ==== Sys2Proof/Config.lean ====
section
/-! DEFINITION. What the spec leaves open: free values. Each is an opaque constant: nothing can evaluate it or prove a value
of it, so a claim holds whatever it is. -/

namespace Sys2Proof

/-- The bytes of a destination whose contents the spec calls undefined, by the counter `State.freeCtr`. Log entry 3. -/
opaque Config.freeByte : Nat → Byte
/-- Other undefined words, by the same counter. Log entry 3. -/
opaque Config.freeWord : Nat → Word
/-- Which of several writes of one instruction to one place its last value comes from (R142), by the same counter and the place.
Log entry 3. -/
opaque Config.freePick : Nat → Nat → Nat
/-- Which held entry a full TLB or die translation cache gives up, by the address that misses. Log entry 7. -/
opaque Config.tlbVictim : Nat → Nat

/-- SHA-512 (FIPS 180-4), which the spec names and does not define; byte 0 of a digest in bits [7:0]. Log entry 30. -/
opaque Config.sha512 : List Byte → DWord
/-- The digest of the mask ROM (R469), and the digest that stands for the test-access state (R480). Log entry 30. -/
opaque Config.romDigest : DWord
opaque Config.tapDigest : Bool → DWord
/-- Identity public key of a control die (R465), and Ed25519 signatures (RFC 8032) by its identity key and by the alias key derived
from it and the measurements (R467). Log entry 30. -/
opaque Config.identity : Nat → BitVec 256
opaque Config.sign : Nat → List Byte → DWord
opaque Config.aliasSign : Nat → List DWord → List Byte → DWord
/-- The PLDM terminus ID, and the version a PLDM type reports, which the spec does not state. Log entry 30. -/
opaque Config.pldmTid : Byte
opaque Config.pldmVersion : Nat → W32
/-- What the self-test finds at a cold reset that a register write asks for, by the same counter. Log entry 33. -/
opaque Config.selfTest : Nat → SelfTest

end Sys2Proof
end

