-- ==== Sys2Proof/Machine/Float.lean ====
section
/-! DEFINITION. Exact binary arithmetic and rounding to nearest, ties to even: FP32 operations as R111 gives them, and the
element formats of Table 5-1. A finite value is an integer times a power of two, computed exactly and rounded once. -/

namespace Sys2Proof.Machine

/-- A value of a floating format: NaN, an infinity, or (-1)^neg × m × 2^e. -/
inductive FV where
  | nan
  | inf (neg : Bool)
  | fin (neg : Bool) (m : Nat) (e : Int)
  deriving DecidableEq, Repr

/-- A binary format: significand bits with the hidden one, exponent of its smallest subnormal, largest finite magnitude
code, bits in all (Table 5-1). -/
structure Fmt where
  p    : Nat
  emin : Int
  maxc : Nat
  w    : Nat
  deriving DecidableEq, Repr

def fmtF32 : Fmt := ⟨24, -149, 0x7F7FFFFF, 32⟩
def fmtBf16 : Fmt := ⟨8, -133, 0x7F7F, 16⟩
def fmtF16 : Fmt := ⟨11, -24, 0x7BFF, 16⟩
def fmtE4m3 : Fmt := ⟨4, -9, 0x7E, 8⟩
def fmtE5m2 : Fmt := ⟨3, -16, 0x7B, 8⟩
def fmtE3m2 : Fmt := ⟨3, -4, 0x1F, 6⟩
def fmtE2m3 : Fmt := ⟨4, -3, 0x1F, 6⟩
def fmtE2m1 : Fmt := ⟨2, -1, 0x7, 4⟩

/-- Number of bits of a natural number. -/
def bitLen (m : Nat) : Nat := if m = 0 then 0 else Nat.log2 m + 1

/-- m ÷ 2^k rounded to nearest, ties to even. -/
def rneShift (m k : Nat) : Nat :=
  let q := m >>> k
  let r := m % 2 ^ k
  if 2 * r > 2 ^ k ∨ (2 * r = 2 ^ k ∧ q % 2 = 1) then q + 1 else q

/-- m × 2^e rounded to the grid of a format, as its magnitude code; codes above `maxc` are overflows. -/
def roundCode (f : Fmt) (m : Nat) (e : Int) : Nat :=
  if m = 0 then 0
  else
    let q := max ((bitLen m : Int) + e - f.p) f.emin
    let m' := if q ≤ e then m <<< (e - q).toNat else rneShift m (q - e).toNat
    (q - f.emin).toNat * 2 ^ (f.p - 1) + m'

/-- The magnitude a code of a format names, as integer and exponent. -/
def codeMag (f : Fmt) (c : Nat) : Nat × Int :=
  let ex := c / 2 ^ (f.p - 1)
  let mt := c % 2 ^ (f.p - 1)
  if ex = 0 then (mt, f.emin) else (mt + 2 ^ (f.p - 1), f.emin + ex - 1)

/-- Read an element of a format whose codes above `maxc` are: infinity then NaN (`ieee`), NaN only, or none. -/
def readFmt (f : Fmt) (ieee : Bool) (x : Nat) : FV :=
  let neg := x.testBit (f.w - 1)
  let c := x % 2 ^ (f.w - 1)
  if c ≤ f.maxc then .fin neg (codeMag f c).1 (codeMag f c).2
  else if ieee && c == f.maxc + 1 then .inf neg
  else .nan

/-- An FP32 word read. -/
def rdF32 (x : Nat) : FV := readFmt fmtF32 true (x % 2 ^ 32)

/-- The one NaN that FP32 arithmetic produces (R111). -/
def qnan : Nat := 0x7FC00000

def signBit (neg : Bool) (w : Nat) : Nat := if neg then 2 ^ (w - 1) else 0

/-- FP32 infinity of a sign. -/
def f32Inf (neg : Bool) : Nat := signBit neg 32 + 0x7F800000

/-- m × 2^e of a sign rounded to FP32. -/
def f32Round (neg : Bool) (m : Nat) (e : Int) : Nat :=
  let c := roundCode fmtF32 m e
  if c > fmtF32.maxc then f32Inf neg else signBit neg 32 + c

/-- A value as an FP32 word. -/
def wrF32 : FV → Nat
  | .nan => qnan
  | .inf neg => f32Inf neg
  | .fin neg m e => f32Round neg m e

/-! ### Exact sums -/

/-- A signed integer times a power of two. -/
structure Dy where
  m : Int
  e : Int
  deriving DecidableEq, Repr

def Dy.zero : Dy := ⟨0, 0⟩

/-- Exact sum. -/
def dyAdd (a b : Dy) : Dy :=
  if a.m = 0 then b else if b.m = 0 then a
  else if a.e ≤ b.e then ⟨a.m + b.m * 2 ^ (b.e - a.e).toNat, a.e⟩
  else ⟨a.m * 2 ^ (a.e - b.e).toNat + b.m, b.e⟩

/-- Exact product. -/
def dyMul (a b : Dy) : Dy := ⟨a.m * b.m, a.e + b.e⟩

/-- The exact value of a finite reading. -/
def finDy (neg : Bool) (m : Nat) (e : Int) : Dy := ⟨if neg then -(m : Int) else m, e⟩

/-- An exact value rounded to FP32; a zero takes the given sign. -/
def dyF32 (zneg : Bool) (a : Dy) : Nat :=
  if a.m = 0 then signBit zneg 32 else f32Round (decide (a.m < 0)) a.m.natAbs a.e

/-- Order of exact values. -/
def dyLt (a b : Dy) : Bool := decide ((dyAdd a ⟨-b.m, b.e⟩).m < 0)

/-! ### FP32 operations (R111) -/

def f32Neg (x : Nat) : Nat := x.xor 0x80000000

/-- a + b. -/
def f32Add (x y : Nat) : Nat :=
  match rdF32 x, rdF32 y with
  | .nan, _ | _, .nan => qnan
  | .inf a, .inf b => if a = b then f32Inf a else qnan
  | .inf a, _ => f32Inf a
  | _, .inf b => f32Inf b
  | .fin a m e, .fin b n g =>
    dyF32 (m == 0 && n == 0 && a && b) (dyAdd (finDy a m e) (finDy b n g))

/-- a - b. -/
def f32Sub (x y : Nat) : Nat :=
  match rdF32 y with
  | .nan => qnan
  | _ => f32Add x (f32Neg y)

/-- a × b. -/
def f32Mul (x y : Nat) : Nat :=
  match rdF32 x, rdF32 y with
  | .nan, _ | _, .nan => qnan
  | .inf a, .inf b => f32Inf (a ^^ b)
  | .inf a, .fin b n _ => if n = 0 then qnan else f32Inf (a ^^ b)
  | .fin a m _, .inf b => if m = 0 then qnan else f32Inf (a ^^ b)
  | .fin a m e, .fin b n g => f32Round (a ^^ b) (m * n) (e + g)

/-- c + a × b with one rounding. -/
def f32Fma (c x y : Nat) : Nat :=
  match rdF32 x, rdF32 y with
  | .nan, _ | _, .nan => qnan
  | .fin a m e, .fin b n g =>
    match rdF32 c with
    | .nan => qnan
    | .inf d => f32Inf d
    | .fin d k h =>
      dyF32 (m * n == 0 && k == 0 && (a ^^ b) && d) (dyAdd (finDy d k h) (dyMul (finDy a m e) (finDy b n g)))
  | _, _ =>
    let p := f32Mul x y
    match rdF32 p, rdF32 c with
    | .nan, _ | _, .nan => qnan
    | _, _ => f32Add p c

/-- Order of two numbers with −0 below +0, as a key. -/
def f32Key (x : Nat) : Int :=
  if x.testBit 31 then -(x % 2 ^ 31 : Nat) - 1 else (x % 2 ^ 31 : Nat)

/-- The smaller; the number when exactly one is NaN (R111). -/
def f32Min (x y : Nat) : Nat :=
  match rdF32 x, rdF32 y with
  | .nan, .nan => qnan
  | .nan, _ => y
  | _, .nan => x
  | _, _ => if f32Key y < f32Key x then y else x

/-- The larger; the number when exactly one is NaN (R111). -/
def f32Max (x y : Nat) : Nat :=
  match rdF32 x, rdF32 y with
  | .nan, .nan => qnan
  | .nan, _ => y
  | _, .nan => x
  | _, _ => if f32Key x < f32Key y then y else x

/-- Absolute value; every NaN result is the one NaN. -/
def f32Abs (x : Nat) : Nat :=
  match rdF32 x with
  | .nan => qnan
  | _ => x % 2 ^ 31

/-- Negation; every NaN result is the one NaN. -/
def f32NegOp (x : Nat) : Nat :=
  match rdF32 x with
  | .nan => qnan
  | _ => f32Neg x

/-- a = b; false with a NaN. -/
def f32Eq (x y : Nat) : Bool :=
  match rdF32 x, rdF32 y with
  | .nan, _ | _, .nan => false
  | .fin _ m _, .fin _ n _ => (m == 0 && n == 0) || x == y
  | _, _ => x == y

/-- a < b; false with a NaN. -/
def f32Lt (x y : Nat) : Bool :=
  match rdF32 x, rdF32 y with
  | .nan, _ | _, .nan => false
  | .fin _ m _, .fin _ n _ => !(m == 0 && n == 0) && decide (f32Key x < f32Key y)
  | _, _ => decide (f32Key x < f32Key y)

/-- a ≤ b; false with a NaN. -/
def f32Le (x y : Nat) : Bool := f32Lt x y || f32Eq x y

/-! ### Correctly rounded functions (R111) -/

/-- 1 ÷ x. -/
def f32Rcp (x : Nat) : Nat :=
  match rdF32 x with
  | .nan => qnan
  | .inf a => signBit a 32
  | .fin a m e =>
    if m = 0 then f32Inf a
    else
      let k := bitLen m + 64
      let q := 2 ^ k / m
      f32Round a (2 * q + b2n (2 ^ k % m != 0)) (-(k : Int) - 1 - e)

/-- a ÷ b. -/
def f32Div (x y : Nat) : Nat :=
  match rdF32 x, rdF32 y with
  | .nan, _ | _, .nan => qnan
  | .inf _, .inf _ => qnan
  | .inf a, .fin b _ _ => f32Inf (a ^^ b)
  | .fin a _ _, .inf b => signBit (a ^^ b) 32
  | .fin a m e, .fin b n g =>
    if n = 0 then (if m = 0 then qnan else f32Inf (a ^^ b))
    else
      let k := bitLen n + 64
      let q := m * 2 ^ k / n
      f32Round (a ^^ b) (2 * q + b2n (m * 2 ^ k % n != 0)) (e - g - (k : Int) - 1)

/-- Integer square root by bits, from bit `n` down. -/
def isqrtBits (v : Nat) : Nat → Nat → Nat
  | 0, r => r
  | n + 1, r =>
    let r' := r + 2 ^ n
    isqrtBits v n (if r' * r' ≤ v then r' else r)

/-- Integer square root. -/
def isqrt (v : Nat) : Nat := isqrtBits v (bitLen v / 2 + 1) 0

/-- 1 ÷ √x; a zero gives an infinity of its sign, a negative number the NaN. -/
def f32Rsq (x : Nat) : Nat :=
  match rdF32 x with
  | .nan => qnan
  | .inf a => if a then qnan else 0
  | .fin a m e =>
    if m = 0 then f32Inf a
    else if a then qnan
    else
      let m1 := if e % 2 = 0 then m else 2 * m
      let e1 := if e % 2 = 0 then e else e - 1
      let k := bitLen m1 + 64
      let y := isqrt (2 ^ (2 * k) / m1)
      f32Round false (2 * y + b2n (m1 * y * y != 2 ^ (2 * k))) (-(k : Int) - 1 - e1 / 2)

/-- √x; a zero is kept, a negative number gives the NaN. -/
def f32Sqrt (x : Nat) : Nat :=
  match rdF32 x with
  | .nan => qnan
  | .inf a => if a then qnan else f32Inf false
  | .fin a m e =>
    if m = 0 then signBit a 32
    else if a then qnan
    else
      let m1 := (if e % 2 = 0 then m else 2 * m) <<< 64
      let e1 := (if e % 2 = 0 then e else e - 1) - 64
      let y := isqrt m1
      f32Round false (2 * y + b2n (y * y != m1)) (e1 / 2 - 1)

/-- ln 2 in units of 2^-200, rounded down. -/
def ln2Fix : Nat := 0xB17217F7D1CF79ABC9E3B39803F2F6AF40F343267298B62D8A

/-- Terms t^k ÷ k! of the exponential series in units of 2^-200, summed while `n` lasts. -/
def expTerms (t : Nat) : Nat → Nat → Nat → Nat → Nat
  | 0, _, _, acc => acc
  | n + 1, k, term, acc =>
    let term' := term * t / 2 ^ 200 / k
    expTerms t n (k + 1) term' (acc + term')

/-- 2^x. A non-integer x has an irrational result, so the value held to 2^-190 decides the rounding (log entry 9). -/
def f32Exp2 (x : Nat) : Nat :=
  match rdF32 x with
  | .nan => qnan
  | .inf a => if a then 0 else f32Inf false
  | .fin a m e =>
    if m = 0 then 0x3F800000
    else
      -- x in units of 2^-149, rounded toward zero only where |x| already overflows
      let v : Int := finDy a m e |>.m
      if e ≥ 0 ∧ (bitLen m : Int) + e > 10 then (if a then 0 else f32Inf false)
      else
        let fx : Int := v * 2 ^ (e + 149).toNat
        let n := fx / 2 ^ 149
        let f := (fx % 2 ^ 149).toNat
        if n ≥ 128 then f32Inf false
        else if n < -151 then 0
        else if f = 0 then f32Round false 1 n
        else
          let t := f * ln2Fix / 2 ^ 149
          f32Round false (2 * expTerms t 60 1 (2 ^ 200) (2 ^ 200) + 1) (n - 201)

/-- Binary digits of log2 of y in [1, 2), y in units of 2^-448, by repeated squaring. -/
def log2Bits : Nat → Nat → Nat → Nat
  | 0, _, acc => acc
  | n + 1, y, acc =>
    let y2 := y * y / 2 ^ 448
    if y2 ≥ 2 ^ 449 then log2Bits n (y2 / 2) (2 * acc + 1) else log2Bits n y2 (2 * acc)

/-- log2 x. Exact for a power of two, else irrational, so 160 fraction digits decide the rounding (log entry 9). A zero
gives −∞, a negative number the NaN. -/
def f32Log2 (x : Nat) : Nat :=
  match rdF32 x with
  | .nan => qnan
  | .inf a => if a then qnan else f32Inf false
  | .fin a m e =>
    if m = 0 then f32Inf true
    else if a then qnan
    else
      let l := bitLen m - 1
      let n : Int := (l : Int) + e
      if m = 2 ^ l then dyF32 false ⟨n, 0⟩
      else
        let y := m * 2 ^ (448 - l)
        dyF32 false ⟨2 * (n * 2 ^ 160 + (log2Bits 160 y 0 : Int)) + 1, -161⟩

/-! ### Conversions (R130, Table 5-2) -/

/-- FP32 to a narrower IEEE format with infinities (BF16, FP16). -/
def narrowIeee (f : Fmt) (nan : Nat) (x : Nat) : Nat :=
  match rdF32 x with
  | .nan => nan
  | .inf a => signBit a f.w + f.maxc + 1
  | .fin a m e => signBit a f.w + min (roundCode f m e) (f.maxc + 1)

/-- FP32 to an unscaled 8-bit format, saturating (E4M3, E5M2). -/
def narrowSat (f : Fmt) (nan : Nat) (x : Nat) : Nat :=
  match rdF32 x with
  | .nan => nan
  | .inf a => signBit a f.w + f.maxc
  | .fin a m e => signBit a f.w + min (roundCode f m e) f.maxc

def f32ToBf16 (x : Nat) : Nat := narrowIeee fmtBf16 0x7FC0 x
def f32ToF16 (x : Nat) : Nat := narrowIeee fmtF16 0x7E00 x
def f32ToE4m3 (x : Nat) : Nat := narrowSat fmtE4m3 0x7F x
def f32ToE5m2 (x : Nat) : Nat := narrowSat fmtE5m2 0x7E x

def bf16ToF32 (x : Nat) : Nat := wrF32 (readFmt fmtBf16 true (x % 2 ^ 16))
def f16ToF32 (x : Nat) : Nat := wrF32 (readFmt fmtF16 true (x % 2 ^ 16))
def e4m3ToF32 (x : Nat) : Nat := wrF32 (readFmt fmtE4m3 false (x % 2 ^ 8))
def e5m2ToF32 (x : Nat) : Nat := wrF32 (readFmt fmtE5m2 true (x % 2 ^ 8))

/-- An exact value rounded to an integer, ties to even. -/
def dyToInt (a : Dy) : Int :=
  if 0 ≤ a.e then a.m * 2 ^ a.e.toNat
  else
    let r := rneShift a.m.natAbs (-a.e).toNat
    if a.m < 0 then -(r : Int) else r

/-- An integer saturated to `w` signed bits. -/
def satInt (w : Nat) (i : Int) : Int := max (-(2 ^ (w - 1) : Nat) : Int) (min i ((2 ^ (w - 1) : Nat) - 1 : Int))

/-- FP32 to INT32, nearest even, saturating, NaN to 0 (Table 5-2). -/
def f32ToInt (x : Nat) : Nat :=
  match rdF32 x with
  | .nan => 0
  | .inf a => if a then 0x80000000 else 0x7FFFFFFF
  | .fin a m e => ofInt 32 (satInt 32 (dyToInt (finDy a m e)))

/-- INT32 to FP32. -/
def intToF32 (x : Nat) : Nat := dyF32 false ⟨sx x 32, 0⟩

end Sys2Proof.Machine
end

