-- ==== Sys2Proof/Machine/Formats.lean ====
section
/-! DEFINITION. Number formats, microscaling and KB16 blocks, tensor descriptors, and the addresses, padding and stride rules
they give (R128 to R152, R511). -/

namespace Sys2Proof.Machine

/-! ### Formats (Tables 5-1, 5-3, 5-5) -/

/-- How the elements of a FORMAT code are read. -/
inductive Elem where
  | float (f : Fmt) (ieee : Bool)
  | int (w : Nat) (scale : Int)
  | uint (w : Nat)
  deriving DecidableEq, Repr

/-- A FORMAT: its element, the element's bits, data bytes per block (0 where it is no block format), emax. -/
structure Format where
  elem  : Elem
  w     : Nat
  block : Nat
  emax  : Int
  deriving DecidableEq, Repr

/-- The format of a FORMAT code (Table 5-5); none where the code is reserved. -/
def formatOf (c : Nat) : Option Format :=
  match c with
  | 0x00 => some ⟨.float fmtF32 true, 32, 0, 0⟩
  | 0x01 => some ⟨.float fmtBf16 true, 16, 0, 0⟩
  | 0x02 => some ⟨.float fmtF16 true, 16, 0, 0⟩
  | 0x03 => some ⟨.float fmtE4m3 false, 8, 0, 0⟩
  | 0x04 => some ⟨.float fmtE5m2 true, 8, 0, 0⟩
  | 0x08 => some ⟨.float fmtE4m3 false, 8, 32, 8⟩
  | 0x09 => some ⟨.float fmtE5m2 true, 8, 32, 15⟩
  | 0x0A => some ⟨.float fmtE3m2 false, 6, 24, 4⟩
  | 0x0B => some ⟨.float fmtE2m3 false, 6, 24, 2⟩
  | 0x0C => some ⟨.float fmtE2m1 false, 4, 16, 2⟩
  | 0x0D => some ⟨.int 8 (-6), 8, 32, 0⟩
  | 0x10 => some ⟨.int 16 (-15), 16, 64, 15⟩
  | 0x18 => some ⟨.int 32 0, 32, 0, 0⟩
  | 0x19 => some ⟨.uint 16, 16, 0, 0⟩
  | 0x1A => some ⟨.uint 32, 32, 0, 0⟩
  | _ => none

def fKb16 : Nat := 0x10

/-- A format code that has blocks (codes 0x08 to 0x10). -/
def isBlock (c : Nat) : Bool := ((formatOf c).elim 0 (·.block)) != 0

/-- Bytes of an element of a format without blocks. -/
def elemBytes (c : Nat) : Nat := (formatOf c).elim 1 (fun f => f.w / 8)

/-- Data bytes of a block. -/
def blockBytes (c : Nat) : Nat := (formatOf c).elim 0 (·.block)

/-- The value of an element code before any block scale. -/
def elemValue (f : Format) (x : Nat) : FV :=
  match f.elem with
  | .float g ieee => readFmt g ieee x
  | .int w sc => let v := sx x w; .fin (decide (v < 0)) v.natAbs sc
  | .uint w => .fin false (x % 2 ^ w) 0

/-- The value of an element of a block with scale field E (R129, R132, R134): a scale of 0xFF makes it NaN. -/
def scaledValue (f : Format) (scale x : Nat) : FV :=
  if scale = 0xFF then .nan
  else
    match elemValue f x with
    | .fin n m e => .fin n m (e + ((scale : Int) - 127))
    | v => v

/-- Element `i` of a block's data bytes (R131). -/
def blockElem (f : Format) (data : List Byte) (i : Nat) : Nat := bits (leNat data) (f.w * i) f.w

/-- Elements of one width packed into bytes. -/
def packElems (w : Nat) (l : List Nat) : List Byte :=
  natLe (l.length * w / 8) (l.zipIdx.foldl (fun a p => a + (p.1 % 2 ^ w) <<< (w * p.2)) 0)

/-! ### Quantisation (R130, R132, R135) -/

/-- floor(log2 |v|) of a finite non-zero value. -/
def floorLog2 (m : Nat) (e : Int) : Int := (bitLen m : Int) - 1 + e

/-- Largest floor(log2) among finite values; none when all are zero. -/
def maxLog2 (l : List FV) : Option Int :=
  l.foldl (fun a v =>
    match v with
    | .fin _ m e => if m = 0 then a else some (match a with | some b => max b (floorLog2 m e) | none => floorLog2 m e)
    | _ => a) none

def isFinite : FV → Bool
  | .fin _ _ _ => true
  | _ => false

def isNegZero : FV → Bool
  | .fin n m _ => n && m == 0
  | _ => false

def clampScale (x : Int) : Int := max (-127) (min 127 x)

/-- An element of a block: the value divided by 2^X, rounded and saturated at the largest finite code (Table 5-2). -/
def quantElem (f : Format) (x : Int) : FV → Nat
  | .fin n m e =>
    match f.elem with
    | .float g _ => signBit n f.w + min (roundCode g m (e - x)) g.maxc
    | .int w sc =>
      let r := dyToInt (finDy n m (e - x - sc))
      ofInt w (max (-((2 ^ (w - 1) : Nat) - 1 : Int)) (min r ((2 ^ (w - 1) : Nat) - 1 : Int)))
    | .uint _ => 0
  | _ => 0

/-- 32 FP32 values quantised to a block: its scale byte and its data bytes. KB16 takes X one above the largest exponent. -/
def quantBlock (code : Nat) (l : List FV) : Nat × List Byte :=
  match formatOf code with
  | none => (0, [])
  | some f =>
    if l.all isFinite then
      match maxLog2 l with
      | none =>
        let z := l.map (fun v =>
          match f.elem with
          | .float _ _ => if isNegZero v then 2 ^ (f.w - 1) else 0
          | _ => 0)
        (0x7F, packElems f.w z)
      | some a =>
        let x := clampScale (if code = fKb16 then a + 1 else a - f.emax)
        ((x + 127).toNat, packElems f.w (l.map (quantElem f x)))
    else (0xFF, packElems f.w (l.map (fun _ => 0)))

/-- A value converted to an element of a format without blocks (R130, Table 5-2). -/
def convElem (code : Nat) (v : FV) : Nat :=
  let w := wrF32 v
  match code with
  | 0x00 => w
  | 0x01 => f32ToBf16 w
  | 0x02 => f32ToF16 w
  | 0x03 => f32ToE4m3 w
  | 0x04 => f32ToE5m2 w
  | 0x18 => f32ToInt w
  | _ => 0

/-! ### Padding values (R511, Table 5-9) -/

/-- Element code of PADV in a format. -/
def padElem (code padv : Nat) : Nat :=
  match formatOf code with
  | none => 0
  | some f =>
    match padv with
    | 1 =>
      match f.elem with
      | .float g _ => 2 ^ (f.w - 1) + g.maxc
      | .int w _ => if isBlock code then ofInt w (-((2 ^ (w - 1) : Nat) - 1 : Int)) else 2 ^ (w - 1)
      | .uint _ => 0
    | 2 =>
      match f.elem with
      | .float g _ => g.maxc
      | .int w _ => 2 ^ (w - 1) - 1
      | .uint w => 2 ^ w - 1
    | _ => 0

/-- Data bytes of a padded block; its scale is 0x7F (R144). -/
def padBlock (code padv : Nat) : List Byte :=
  match formatOf code with
  | some f => packElems f.w (List.replicate 32 (padElem code padv))
  | none => []

/-! ### Tensor descriptors (R136, Table 5-4) -/

/-- A tensor descriptor. -/
structure TDesc where
  base   : Nat
  sbase  : Nat
  ext    : List Nat
  str0   : Int
  str1   : Int
  str2   : Int
  str3   : Int
  fmt    : Nat
  flags  : Nat
  sstr   : Nat
  p0lo   : Nat
  p0hi   : Nat
  p1lo   : Nat
  p1hi   : Nat
  rsvd   : Nat
  deriving DecidableEq, Repr

/-- A field of a 64-byte object: `n` bytes at an offset. -/
def dF (d : DWord) (off n : Nat) : Nat := bits d.toNat (8 * off) (8 * n)

/-- The descriptor held in 64 bytes. -/
def tdOf (d : DWord) : TDesc where
  base := dF d 0x00 8
  sbase := dF d 0x08 8
  ext := [dF d 0x10 4, dF d 0x14 4, dF d 0x18 4, dF d 0x1C 4]
  str0 := sx (dF d 0x2C 2) 16
  str1 := sx (dF d 0x20 4) 32
  str2 := sx (dF d 0x24 4) 32
  str3 := sx (dF d 0x28 4) 32
  fmt := dF d 0x2E 1
  flags := dF d 0x2F 1
  sstr := dF d 0x30 1
  p0lo := dF d 0x32 2
  p0hi := dF d 0x34 2
  p1lo := dF d 0x36 2
  p1hi := dF d 0x38 2
  rsvd := dF d 0x31 1 + dF d 0x3A 6

def tExt (d : TDesc) (k : Nat) : Nat := d.ext.getD k 1
def tSep (d : TDesc) : Bool := bit d.flags 0
def tPadFill (d : TDesc) : Bool := bit d.flags 1
def tPadv (d : TDesc) : Nat := bits d.flags 2 2

/-- The refusals of Table 5-8; `acc` says which FORMAT codes the unit accepts. -/
def tdRefused (acc : Nat → Bool) (d : TDesc) : Bool :=
  (formatOf d.fmt).isNone || !acc d.fmt ||
  d.ext.any (fun e => e == 0 || decide (16777216 < e)) ||
  decide (tExt d 0 < d.p0lo + d.p0hi) || decide (tExt d 1 < d.p1lo + d.p1hi) ||
  decide (2 ^ 48 ≤ d.base) || d.rsvd != 0 || decide (16 ≤ d.flags) || tPadv d == 3 ||
  (if isBlock d.fmt then
    let n := tExt d 0 - d.p0lo - d.p0hi
    d.str0 != 1 || n == 0 || n % 32 != 0 || d.p0lo % 32 != 0 || d.p0hi % 32 != 0 ||
    d.base % 8 != 0 || d.str1 % 8 != 0 || d.str2 % 8 != 0 || d.str3 % 8 != 0 ||
    (if tSep d then
      d.str1 % (blockBytes d.fmt : Int) != 0 || d.str2 % (blockBytes d.fmt : Int) != 0 ||
      d.str3 % (blockBytes d.fmt : Int) != 0 || d.sstr == 0 || decide (64 < d.sstr)
    else d.fmt == fKb16 || d.sstr != 0 || d.sbase != 0)
  else
    tSep d || d.sstr != 0 || d.sbase != 0 ||
    d.base % elemBytes d.fmt != 0 || d.str1 % (elemBytes d.fmt : Int) != 0 ||
    d.str2 % (elemBytes d.fmt : Int) != 0 || d.str3 % (elemBytes d.fmt : Int) != 0)

/-! ### Addresses (R139, R140) -/

/-- A signed address as the virtual address of an access; one outside 48 bits never translates. -/
def vaOf (i : Int) : Nat := ofInt 64 i

/-- Row start for a stored row position j1 and outer indices. -/
def rowStart (d : TDesc) (j1 i2 i3 : Int) : Int := d.base + d.str1 * j1 + d.str2 * i2 + d.str3 * i3

/-- Address of element j0 of a row, for a format without blocks. -/
def elemAddr (d : TDesc) (row j0 : Int) : Int := row + d.str0 * j0 * (elemBytes d.fmt : Int)

/-- Stored blocks of a row. -/
def rowBlocks (d : TDesc) : Nat := (tExt d 0 - d.p0lo - d.p0hi) / 32

/-- Address of block b of a row. -/
def blockAddr (d : TDesc) (row b : Int) : Int := row + b * (blockBytes d.fmt : Int)

/-- Address of the scale of block b of a row (R140). -/
def scaleAddr (d : TDesc) (row b : Int) : Int :=
  if tSep d then d.sbase + (d.sstr : Int) * ((row - d.base) / (blockBytes d.fmt : Int) + b)
  else row + (rowBlocks d : Int) * (blockBytes d.fmt : Int) + b

/-- A position along D0 holds a stored element. -/
def stored0 (d : TDesc) (i0 : Nat) : Bool := decide (d.p0lo ≤ i0 ∧ i0 + d.p0hi < tExt d 0)

/-- A position along D1 holds a stored row. -/
def stored1 (d : TDesc) (i1 : Nat) : Bool := decide (d.p1lo ≤ i1 ∧ i1 + d.p1hi < tExt d 1)

/-! ### Rows as byte plans

A row of EXT0 logical elements in packed logical order (R161): where each byte of the packed row comes from or goes to. -/

/-- Bytes of a packed row. -/
def rowBytes (d : TDesc) : Nat :=
  if isBlock d.fmt then tExt d 0 / 32 * (blockBytes d.fmt + 1) else tExt d 0 * elemBytes d.fmt

/-- The packed bytes of a row of padding. -/
def padRow (d : TDesc) : List Byte :=
  if isBlock d.fmt then
    (List.range (tExt d 0 / 32)).flatMap (fun _ => padBlock d.fmt (tPadv d)) ++ List.replicate (tExt d 0 / 32) 0x7F
  else (List.range (tExt d 0)).flatMap (fun _ => natLe (elemBytes d.fmt) (padElem d.fmt (tPadv d)))

/-- For each stored byte of a row: its virtual address and its offset in the packed row. `all` takes padded positions too. -/
def rowCells (d : TDesc) (row : Int) (all : Bool) : List (Nat × Nat) :=
  if isBlock d.fmt then
    let bb := blockBytes d.fmt
    let nl := tExt d 0 / 32
    (List.range nl).flatMap (fun b =>
      if all || stored0 d (32 * b) then
        let j : Int := (b : Int) - (d.p0lo / 32 : Nat)
        (List.range bb).map (fun (k : Nat) => (vaOf (blockAddr d row j + (k : Int)), bb * b + k)) ++
          [(vaOf (scaleAddr d row j), nl * bb + b)]
      else [])
  else
    let sz := elemBytes d.fmt
    (List.range (tExt d 0)).flatMap (fun i0 =>
      if all || stored0 d i0 then
        (List.range sz).map (fun (k : Nat) => (vaOf (elemAddr d row ((i0 : Int) - d.p0lo) + (k : Int)), sz * i0 + k))
      else [])

/-- The last position along D0 that a write through stride zero leaves (R142): none where STR0 is not zero. -/
def onlyPos0 (d : TDesc) : Option Nat :=
  if d.str0 = 0 then some (if tPadFill d then tExt d 0 - 1 else tExt d 0 - d.p0hi - 1) else none

/-- The bytes a write of a row stores: virtual address, offset in the packed row. Under pad-fill padded positions are written
too; through stride zero only the last position (R142, R145). -/
def writeCells (d : TDesc) (row : Int) : List (Nat × Nat) :=
  let cs := rowCells d row (tPadFill d)
  match onlyPos0 d with
  | some p => cs.filter (fun c => decide (c.2 / elemBytes d.fmt = p))
  | none => cs

/-- The row positions (i1, i2, i3) of a tensor by their number in iteration order (R141). -/
def rowIndex (d : TDesc) (r : Nat) : Nat × Nat × Nat :=
  (r % tExt d 1, r / tExt d 1 % tExt d 2, r / tExt d 1 / tExt d 2)

/-- Rows of a tensor. -/
def rowCount (d : TDesc) : Nat := tExt d 1 * tExt d 2 * tExt d 3

/-- A dimension index that a write visits: all of them, or only the last that writes where the stride is zero (R142). -/
def writesDim (str : Int) (ext last i : Nat) : Bool := str != 0 || ext == 1 || i == last

/-- A row at D1 position i1 is one that a write writes: a stored row, or under pad-fill any (R145). -/
def rowPos (d : TDesc) (i1 : Nat) : Bool := tPadFill d || stored1 d i1

/-- The row at (i1, i2, i3) is written by a write in iteration order. -/
def rowWrites (d : TDesc) (i1 i2 i3 : Nat) : Bool :=
  rowPos d i1 &&
  writesDim d.str1 (tExt d 1) (if tPadFill d then tExt d 1 - 1 else tExt d 1 - d.p1hi - 1) i1 &&
  writesDim d.str2 (tExt d 2) (tExt d 2 - 1) i2 && writesDim d.str3 (tExt d 3) (tExt d 3 - 1) i3

/-- The place of a row among those that differ from it in no dimension but those of stride zero: a write leaves only the last
(R142). -/
def rowKey (d : TDesc) (i : Nat × Nat × Nat) : Nat × Nat × Nat :=
  (if d.str1 = 0 then 0 else i.1, if d.str2 = 0 then 0 else i.2.1, if d.str3 = 0 then 0 else i.2.2)

/-- Of the entries with one key, the last (R142). -/
def keepLast {κ α : Type} [DecidableEq κ] : List (κ × α) → List (κ × α)
  | [] => []
  | x :: xs => if xs.any (fun y => decide (y.1 = x.1)) then keepLast xs else x :: keepLast xs

/-- The field that a byte at an address belongs to, for writes that reach one address: an element, the three bytes of four 6-bit
elements, or a byte. The bytes of one field come from one write (R142). -/
def fieldKey (d : TDesc) (va : Nat) : Nat :=
  if isBlock d.fmt then
    (if blockBytes d.fmt = 24 then (va + (2 ^ 64 - d.base % 2 ^ 64)) % 2 ^ 64 / 3 else if d.fmt = fKb16 then va / 2 else va)
  else va / elemBytes d.fmt

/-- Row start of the row at (i1, i2, i3). -/
def rowAt (d : TDesc) (i1 i2 i3 : Nat) : Int := rowStart d ((i1 : Int) - d.p1lo) i2 i3

/-- Row start of the row an index names (R139): i1 = x whatever EXT1 holds, i2 = i3 = 0. -/
def rowOfIndex (d : TDesc) (x : Nat) : Int := rowStart d ((x : Int) - d.p1lo) 0 0

/-- The values of a packed row's elements, as FP32 arithmetic meets them (R130): block elements with their scales. -/
def rowValues (d : TDesc) (packed : List Byte) : List FV :=
  match formatOf d.fmt with
  | none => []
  | some f =>
    if f.block = 0 then
      (List.range (tExt d 0)).map (fun i => elemValue f (leAt packed (i * (f.w / 8)) (f.w / 8)))
    else
      let nl := tExt d 0 / 32
      (List.range nl).flatMap (fun b =>
        let data := (packed.drop (b * f.block)).take f.block
        let sc := leAt packed (nl * f.block + b) 1
        (List.range 32).map (fun i => scaledValue f sc (blockElem f data i)))

/-- Values packed as a row of a format: quantised blocks and their scales, or converted elements. -/
def packRow (code : Nat) (vals : List FV) : List Byte :=
  if isBlock code then
    let blocks := (List.range (vals.length / 32)).map (fun b => quantBlock code ((vals.drop (32 * b)).take 32))
    blocks.flatMap (·.2) ++ blocks.map (fun b => BitVec.ofNat 8 b.1)
  else vals.flatMap (fun v => natLe (elemBytes code) (convElem code v))

end Sys2Proof.Machine
end

