-- ==== Sys2Proof/Machine/Regs.lean ====
section
/-! DEFINITION. The register maps of every chapter, transcribed from the spec's tables: for each register its offset in its
block, its size, how many instances it has, and its fields with their place, access type (Table 0-4) and reset value.
Reserved bits have no field: they read zero and take no write (R11). `R.NAME` gives a register's BAR0 offset and
`F.REGISTER_FIELD` a field's place. -/

namespace Sys2Proof.Machine

/-- Access types (R7, Table 0-4). -/
inductive Acc where
  | rw | ro | wo | w1c | w1s | rc
  deriving DecidableEq, Repr

/-- The place of a field: its lowest bit and its width. -/
structure Fld where
  lo : Nat
  w  : Nat
  deriving DecidableEq, Repr

/-- One field of a register table row. -/
structure FieldRow where
  fld   : Fld
  acc   : Acc
  reset : Nat
  deriving DecidableEq, Repr

/-- One register of a block: offset of instance 0, bytes (4 or 8), number of instances, stride between them, fields. -/
structure RegRow where
  off    : Nat
  bytes  : Nat
  count  : Nat
  stride : Nat
  fields : List FieldRow
  deriving DecidableEq, Repr

/-- One block of registers: BAR0 offset of instance 0, number of instances, stride, registers. -/
structure RegBlock where
  base   : Nat
  count  : Nat
  stride : Nat
  size   : Nat
  regs   : List RegRow

/-- `DEV_IDENT`, R2 (Table 0-1). -/
def R.DEV_IDENT : Nat := 0x0
def F.DEV_IDENT_PART : Fld := ⟨16, 16⟩
def F.DEV_IDENT_STEP_LETTER : Fld := ⟨8, 8⟩
def F.DEV_IDENT_STEP_NUM : Fld := ⟨0, 8⟩

/-- The registers of Table 0-1. -/
def tab_0_1 : List RegRow := [
  ⟨0x0, 4, 1, 0, [⟨F.DEV_IDENT_PART, .ro, 16406⟩, ⟨F.DEV_IDENT_STEP_LETTER, .ro, 65⟩, ⟨F.DEV_IDENT_STEP_NUM, .ro, 1⟩]⟩]

/-- `CP_STATUS`, R41 (Table 2-4). -/
def R.CP_STATUS : Nat := 0x10
def F.CP_STATUS_PRIMARY : Fld := ⟨0, 1⟩
def F.CP_STATUS_STANDBY_OK : Fld := ⟨1, 1⟩
def F.CP_STATUS_TAKEOVER : Fld := ⟨2, 1⟩
def F.CP_STATUS_TAKEOVER_COUNT : Fld := ⟨8, 8⟩

/-- The registers of Table 2-4. -/
def tab_2_4 : List RegRow := [
  ⟨0x10, 4, 1, 0, [⟨F.CP_STATUS_PRIMARY, .ro, 0⟩, ⟨F.CP_STATUS_STANDBY_OK, .ro, 1⟩, ⟨F.CP_STATUS_TAKEOVER, .w1c, 0⟩, ⟨F.CP_STATUS_TAKEOVER_COUNT, .ro, 0⟩]⟩]

/-- `CP_CFG`, R42 (Table 2-5). -/
def R.CP_CFG : Nat := 0x18
def F.CP_CFG_DEVIRQ_VEC : Fld := ⟨0, 11⟩
/-- `HOSTWIN`, R42 (Table 2-5). -/
def R.HOSTWIN : Nat := 0x20
def F.HOSTWIN_STACK : Fld := ⟨0, 4⟩

/-- The registers of Table 2-5. -/
def tab_2_5 : List RegRow := [
  ⟨0x18, 4, 1, 0, [⟨F.CP_CFG_DEVIRQ_VEC, .rw, 2047⟩]⟩,
  ⟨0x20, 4, 1, 0, [⟨F.HOSTWIN_STACK, .rw, 0⟩]⟩]

/-- `QCFG`, R44 (Table 2-6). -/
def R.QCFG (q : Nat) : Nat := 0x100000 + 0x0 + 0x1000 * q
def F.QCFG_EN : Fld := ⟨0, 1⟩
def F.QCFG_RESUME : Fld := ⟨1, 1⟩
def F.QCFG_EXPERT : Fld := ⟨2, 1⟩
def F.QCFG_SQ_LOG2 : Fld := ⟨4, 5⟩
def F.QCFG_CQ_LOG2 : Fld := ⟨9, 5⟩
def F.QCFG_LOOKAHEAD : Fld := ⟨14, 5⟩
/-- `QSQ_BASE`, R44 (Table 2-6). -/
def R.QSQ_BASE (q : Nat) : Nat := 0x100000 + 0x8 + 0x1000 * q
def F.QSQ_BASE_ADDR : Fld := ⟨12, 52⟩
/-- `QCQ_BASE`, R44 (Table 2-6). -/
def R.QCQ_BASE (q : Nat) : Nat := 0x100000 + 0x10 + 0x1000 * q
def F.QCQ_BASE_ADDR : Fld := ⟨12, 52⟩
/-- `QSQ_DB`, R44 (Table 2-6). -/
def R.QSQ_DB (q : Nat) : Nat := 0x100000 + 0x18 + 0x1000 * q
def F.QSQ_DB_TAIL : Fld := ⟨0, 16⟩
/-- `QSQ_HEAD`, R44 (Table 2-6). -/
def R.QSQ_HEAD (q : Nat) : Nat := 0x100000 + 0x1C + 0x1000 * q
def F.QSQ_HEAD_HEAD : Fld := ⟨0, 16⟩
/-- `QCQ_DB`, R44 (Table 2-6). -/
def R.QCQ_DB (q : Nat) : Nat := 0x100000 + 0x20 + 0x1000 * q
def F.QCQ_DB_HEAD : Fld := ⟨0, 16⟩
/-- `QCQ_TAIL`, R44 (Table 2-6). -/
def R.QCQ_TAIL (q : Nat) : Nat := 0x100000 + 0x24 + 0x1000 * q
def F.QCQ_TAIL_TAIL : Fld := ⟨0, 16⟩
/-- `QSTAT`, R44 (Table 2-6). -/
def R.QSTAT (q : Nat) : Nat := 0x100000 + 0x28 + 0x1000 * q
def F.QSTAT_STATE : Fld := ⟨0, 2⟩
def F.QSTAT_CQ_FULL : Fld := ⟨2, 1⟩
def F.QSTAT_PEND_EN : Fld := ⟨3, 1⟩
def F.QSTAT_BAD_CMD : Fld := ⟨8, 1⟩
def F.QSTAT_CMD_FAULT : Fld := ⟨9, 1⟩
def F.QSTAT_DB_DISABLED : Fld := ⟨10, 1⟩
def F.QSTAT_CFG_ERR : Fld := ⟨11, 1⟩
def F.QSTAT_TAKEOVER : Fld := ⟨12, 1⟩
/-- `QERR_SEQ`, R44 (Table 2-6). -/
def R.QERR_SEQ (q : Nat) : Nat := 0x100000 + 0x30 + 0x1000 * q
def F.QERR_SEQ_SEQ : Fld := ⟨0, 32⟩

/-- The registers of Table 2-6. -/
def tab_2_6 : List RegRow := [
  ⟨0x0, 4, 1, 0, [⟨F.QCFG_EN, .rw, 0⟩, ⟨F.QCFG_RESUME, .wo, 0⟩, ⟨F.QCFG_EXPERT, .rw, 0⟩, ⟨F.QCFG_SQ_LOG2, .rw, 6⟩, ⟨F.QCFG_CQ_LOG2, .rw, 6⟩, ⟨F.QCFG_LOOKAHEAD, .rw, 31⟩]⟩,
  ⟨0x8, 8, 1, 0, [⟨F.QSQ_BASE_ADDR, .rw, 0⟩]⟩,
  ⟨0x10, 8, 1, 0, [⟨F.QCQ_BASE_ADDR, .rw, 0⟩]⟩,
  ⟨0x18, 4, 1, 0, [⟨F.QSQ_DB_TAIL, .wo, 0⟩]⟩,
  ⟨0x1C, 4, 1, 0, [⟨F.QSQ_HEAD_HEAD, .ro, 0⟩]⟩,
  ⟨0x20, 4, 1, 0, [⟨F.QCQ_DB_HEAD, .wo, 0⟩]⟩,
  ⟨0x24, 4, 1, 0, [⟨F.QCQ_TAIL_TAIL, .ro, 0⟩]⟩,
  ⟨0x28, 4, 1, 0, [⟨F.QSTAT_STATE, .ro, 0⟩, ⟨F.QSTAT_CQ_FULL, .ro, 0⟩, ⟨F.QSTAT_PEND_EN, .ro, 0⟩, ⟨F.QSTAT_BAD_CMD, .w1c, 0⟩, ⟨F.QSTAT_CMD_FAULT, .w1c, 0⟩, ⟨F.QSTAT_DB_DISABLED, .w1c, 0⟩, ⟨F.QSTAT_CFG_ERR, .w1c, 0⟩, ⟨F.QSTAT_TAKEOVER, .w1c, 0⟩]⟩,
  ⟨0x30, 4, 1, 0, [⟨F.QERR_SEQ_SEQ, .ro, 0⟩]⟩]

/-- `CP_DEVEVT`, R63 (Table 2-15). -/
def R.CP_DEVEVT : Nat := 0x28
def F.CP_DEVEVT_TAKEOVER : Fld := ⟨0, 1⟩
def F.CP_DEVEVT_FILL_DONE : Fld := ⟨1, 1⟩

/-- The registers of Table 2-15. -/
def tab_2_15 : List RegRow := [
  ⟨0x28, 4, 1, 0, [⟨F.CP_DEVEVT_TAKEOVER, .w1c, 0⟩, ⟨F.CP_DEVEVT_FILL_DONE, .w1c, 0⟩]⟩]

/-- `TILE_ID`, R69 (Table 3-2). -/
def R.TILE_ID (t : Nat) : Nat := 0x8000000 + 0x0 + 0x10000 * t
def F.TILE_ID_ID : Fld := ⟨0, 11⟩
def F.TILE_ID_X : Fld := ⟨11, 6⟩
def F.TILE_ID_Y : Fld := ⟨17, 5⟩
def F.TILE_ID_ENABLED : Fld := ⟨22, 1⟩
/-- `TILE_STATE`, R69 (Table 3-2). -/
def R.TILE_STATE (t : Nat) : Nat := 0x8000000 + 0x8 + 0x10000 * t
def F.TILE_STATE_STATE : Fld := ⟨0, 2⟩
/-- `SPAD_BYTES`, R69 (Table 3-2). -/
def R.SPAD_BYTES (t : Nat) : Nat := 0x8000000 + 0x10 + 0x10000 * t
def F.SPAD_BYTES_BYTES : Fld := ⟨0, 32⟩
/-- `SPAD_ECC`, R69 (Table 3-2). -/
def R.SPAD_ECC (t : Nat) : Nat := 0x8000000 + 0x20 + 0x10000 * t
def F.SPAD_ECC_CORR : Fld := ⟨0, 16⟩
def F.SPAD_ECC_UNCORR : Fld := ⟨16, 16⟩
/-- `SPAD_ERRADDR`, R69 (Table 3-2). -/
def R.SPAD_ERRADDR (t : Nat) : Nat := 0x8000000 + 0x28 + 0x10000 * t
def F.SPAD_ERRADDR_CW : Fld := ⟨5, 16⟩

/-- The registers of Table 3-2. -/
def tab_3_2 : List RegRow := [
  ⟨0x0, 4, 1, 0, [⟨F.TILE_ID_ID, .ro, 0⟩, ⟨F.TILE_ID_X, .ro, 0⟩, ⟨F.TILE_ID_Y, .ro, 0⟩, ⟨F.TILE_ID_ENABLED, .ro, 0⟩]⟩,
  ⟨0x8, 4, 1, 0, [⟨F.TILE_STATE_STATE, .ro, 0⟩]⟩,
  ⟨0x10, 4, 1, 0, [⟨F.SPAD_BYTES_BYTES, .ro, 1572864⟩]⟩,
  ⟨0x20, 4, 1, 0, [⟨F.SPAD_ECC_CORR, .rc, 0⟩, ⟨F.SPAD_ECC_UNCORR, .rc, 0⟩]⟩,
  ⟨0x28, 4, 1, 0, [⟨F.SPAD_ERRADDR_CW, .ro, 0⟩]⟩]

/-- `SPAD_SWZR`, R73 (Table 3-5). -/
def R.SPAD_SWZR (t : Nat) (n : Nat) : Nat := 0x8000000 + 0x40 + 0x10000 * t + 4 * n
def F.SPAD_SWZR_EN : Fld := ⟨0, 1⟩
def F.SPAD_SWZR_PATTERN : Fld := ⟨1, 2⟩
def F.SPAD_SWZR_BASE : Fld := ⟨8, 5⟩
def F.SPAD_SWZR_LIMIT : Fld := ⟨16, 5⟩

/-- The registers of Table 3-5. -/
def tab_3_5 : List RegRow := [
  ⟨0x40, 4, 8, 4, [⟨F.SPAD_SWZR_EN, .rw, 0⟩, ⟨F.SPAD_SWZR_PATTERN, .rw, 0⟩, ⟨F.SPAD_SWZR_BASE, .rw, 0⟩, ⟨F.SPAD_SWZR_LIMIT, .rw, 0⟩]⟩]

/-- `SEM`, R80 (Table 3-7). -/
def R.SEM (t : Nat) (n : Nat) : Nat := 0x8000000 + 0x100 + 0x10000 * t + 4 * n
def F.SEM_VALUE : Fld := ⟨0, 16⟩
def F.SEM_OVF : Fld := ⟨16, 1⟩
def F.SEM_WAITERS : Fld := ⟨24, 7⟩

/-- The registers of Table 3-7. -/
def tab_3_7 : List RegRow := [
  ⟨0x100, 4, 64, 4, [⟨F.SEM_VALUE, .rw, 0⟩, ⟨F.SEM_OVF, .w1c, 0⟩, ⟨F.SEM_WAITERS, .ro, 0⟩]⟩]

/-- `WIN_RANGE`, R89 (Table 3-10). -/
def R.WIN_RANGE (t : Nat) (n : Nat) : Nat := 0x8000000 + 0x400 + 0x10000 * t + 16 * n
def F.WIN_RANGE_BASE_LINE : Fld := ⟨0, 15⟩
def F.WIN_RANGE_LEN_LINES : Fld := ⟨16, 15⟩
/-- `WIN_CTL`, R89 (Table 3-10). -/
def R.WIN_CTL (t : Nat) (n : Nat) : Nat := 0x8000000 + 0x404 + 0x10000 * t + 16 * n
def F.WIN_CTL_CMD : Fld := ⟨0, 2⟩
def F.WIN_CTL_OPEN : Fld := ⟨2, 1⟩
def F.WIN_CTL_LATE : Fld := ⟨3, 1⟩
/-- `WIN_COUNT`, R89 (Table 3-10). -/
def R.WIN_COUNT (t : Nat) (n : Nat) : Nat := 0x8000000 + 0x408 + 0x10000 * t + 16 * n
def F.WIN_COUNT_COUNT : Fld := ⟨0, 32⟩
/-- `WIN_LATE`, R89 (Table 3-10). -/
def R.WIN_LATE (t : Nat) : Nat := 0x8000000 + 0x600 + 0x10000 * t
def F.WIN_LATE_COUNT : Fld := ⟨0, 32⟩
/-- `WIN_LAST_LATE`, R89 (Table 3-10). -/
def R.WIN_LAST_LATE (t : Nat) : Nat := 0x8000000 + 0x608 + 0x10000 * t
def F.WIN_LAST_LATE_DEV : Fld := ⟨0, 15⟩
def F.WIN_LAST_LATE_TILE : Fld := ⟨15, 11⟩
def F.WIN_LAST_LATE_WIN : Fld := ⟨26, 5⟩
def F.WIN_LAST_LATE_VALID : Fld := ⟨31, 1⟩
/-- `MESH_ORPHAN`, R89 (Table 3-10). -/
def R.MESH_ORPHAN (t : Nat) : Nat := 0x8000000 + 0x610 + 0x10000 * t
def F.MESH_ORPHAN_COUNT : Fld := ⟨0, 32⟩

/-- The registers of Table 3-10. -/
def tab_3_10 : List RegRow := [
  ⟨0x400, 4, 32, 16, [⟨F.WIN_RANGE_BASE_LINE, .rw, 0⟩, ⟨F.WIN_RANGE_LEN_LINES, .rw, 0⟩]⟩,
  ⟨0x404, 4, 32, 16, [⟨F.WIN_CTL_CMD, .wo, 0⟩, ⟨F.WIN_CTL_OPEN, .ro, 0⟩, ⟨F.WIN_CTL_LATE, .w1c, 0⟩]⟩,
  ⟨0x408, 4, 32, 16, [⟨F.WIN_COUNT_COUNT, .ro, 0⟩]⟩,
  ⟨0x600, 4, 1, 0, [⟨F.WIN_LATE_COUNT, .rc, 0⟩]⟩,
  ⟨0x608, 4, 1, 0, [⟨F.WIN_LAST_LATE_DEV, .ro, 0⟩, ⟨F.WIN_LAST_LATE_TILE, .ro, 0⟩, ⟨F.WIN_LAST_LATE_WIN, .ro, 0⟩, ⟨F.WIN_LAST_LATE_VALID, .ro, 0⟩]⟩,
  ⟨0x610, 4, 1, 0, [⟨F.MESH_ORPHAN_COUNT, .rc, 0⟩]⟩]

/-- `XLAT_MISS`, R99 (Table 3-15). -/
def R.XLAT_MISS (t : Nat) : Nat := 0x8000000 + 0x800 + 0x10000 * t
def F.XLAT_MISS_COUNT : Fld := ⟨0, 32⟩
/-- `XLAT_FAULT_VA`, R99 (Table 3-15). -/
def R.XLAT_FAULT_VA (t : Nat) : Nat := 0x8000000 + 0x808 + 0x10000 * t
def F.XLAT_FAULT_VA_VA : Fld := ⟨0, 48⟩
/-- `XLAT_FAULT_INFO`, R99 (Table 3-15). -/
def R.XLAT_FAULT_INFO (t : Nat) : Nat := 0x8000000 + 0x810 + 0x10000 * t
def F.XLAT_FAULT_INFO_STATUS : Fld := ⟨0, 8⟩
def F.XLAT_FAULT_INFO_UNIT : Fld := ⟨8, 2⟩

/-- The registers of Table 3-15. -/
def tab_3_15_T : List RegRow := [
  ⟨0x800, 4, 1, 0, [⟨F.XLAT_MISS_COUNT, .rc, 0⟩]⟩,
  ⟨0x808, 8, 1, 0, [⟨F.XLAT_FAULT_VA_VA, .ro, 0⟩]⟩,
  ⟨0x810, 4, 1, 0, [⟨F.XLAT_FAULT_INFO_STATUS, .ro, 0⟩, ⟨F.XLAT_FAULT_INFO_UNIT, .ro, 0⟩]⟩]

/-- `XLAT_BASE`, R99 (Table 3-15). -/
def R.XLAT_BASE (d : Nat) : Nat := 0x7000000 + 0x0 + 0x80000 * d
def F.XLAT_BASE_ADDR : Fld := ⟨21, 23⟩
/-- `XLAT_INVAL`, R99 (Table 3-15). -/
def R.XLAT_INVAL (d : Nat) : Nat := 0x7000000 + 0x8 + 0x80000 * d
def F.XLAT_INVAL_GO : Fld := ⟨0, 1⟩
/-- `XLAT_STATUS`, R99 (Table 3-15). -/
def R.XLAT_STATUS (d : Nat) : Nat := 0x7000000 + 0x10 + 0x80000 * d
def F.XLAT_STATUS_BUSY : Fld := ⟨0, 1⟩

/-- The registers of Table 3-15. -/
def tab_3_15_D : List RegRow := [
  ⟨0x0, 8, 1, 0, [⟨F.XLAT_BASE_ADDR, .rw, 0⟩]⟩,
  ⟨0x8, 4, 1, 0, [⟨F.XLAT_INVAL_GO, .wo, 0⟩]⟩,
  ⟨0x10, 4, 1, 0, [⟨F.XLAT_STATUS_BUSY, .ro, 0⟩]⟩]

/-- `XC_CTL`, R125 (Table 4-16). -/
def R.XC_CTL (t : Nat) : Nat := 0x8000000 + 0x2000 + 0x10000 * t
def F.XC_CTL_EXPERT : Fld := ⟨0, 1⟩
def F.XC_CTL_DEBUG : Fld := ⟨1, 1⟩
def F.XC_CTL_STEP : Fld := ⟨2, 1⟩
def F.XC_CTL_RESUME : Fld := ⟨3, 1⟩
def F.XC_CTL_WDOG_LOG2 : Fld := ⟨4, 5⟩
/-- `XC_STATUS`, R125 (Table 4-16). -/
def R.XC_STATUS (t : Nat) : Nat := 0x8000000 + 0x2008 + 0x10000 * t
def F.XC_STATUS_STATE : Fld := ⟨0, 3⟩
def F.XC_STATUS_WAIT_OBJ : Fld := ⟨8, 6⟩
def F.XC_STATUS_CE_OUT : Fld := ⟨16, 4⟩
def F.XC_STATUS_GME_OUT : Fld := ⟨20, 4⟩
/-- `XC_PC`, R125 (Table 4-16). -/
def R.XC_PC (t : Nat) : Nat := 0x8000000 + 0x2010 + 0x10000 * t
def F.XC_PC_PC : Fld := ⟨0, 48⟩
/-- `XC_FAULT`, R125 (Table 4-16). -/
def R.XC_FAULT (t : Nat) : Nat := 0x8000000 + 0x2018 + 0x10000 * t
def F.XC_FAULT_STATUS : Fld := ⟨0, 8⟩
def F.XC_FAULT_SOURCE : Fld := ⟨8, 3⟩
def F.XC_FAULT_ILLEGAL : Fld := ⟨11, 1⟩
def F.XC_FAULT_PRECISE : Fld := ⟨12, 1⟩
/-- `XC_FAULT_PC`, R125 (Table 4-16). -/
def R.XC_FAULT_PC (t : Nat) : Nat := 0x8000000 + 0x2020 + 0x10000 * t
def F.XC_FAULT_PC_PC : Fld := ⟨0, 48⟩
/-- `XC_RETIRED`, R125 (Table 4-16). -/
def R.XC_RETIRED (t : Nat) : Nat := 0x8000000 + 0x2028 + 0x10000 * t
def F.XC_RETIRED_COUNT : Fld := ⟨0, 64⟩
/-- `XC_CYCLES`, R125 (Table 4-16). -/
def R.XC_CYCLES (t : Nat) : Nat := 0x8000000 + 0x2030 + 0x10000 * t
def F.XC_CYCLES_COUNT : Fld := ⟨0, 64⟩
/-- `XC_BRK`, R125 (Table 4-16). -/
def R.XC_BRK (t : Nat) : Nat := 0x8000000 + 0x2038 + 0x10000 * t
def F.XC_BRK_EN : Fld := ⟨0, 1⟩
def F.XC_BRK_PC : Fld := ⟨2, 46⟩
/-- `XC_WDOG`, R125 (Table 4-16). -/
def R.XC_WDOG (t : Nat) : Nat := 0x8000000 + 0x2040 + 0x10000 * t
def F.XC_WDOG_COUNT : Fld := ⟨0, 32⟩

/-- The registers of Table 4-16. -/
def tab_4_16 : List RegRow := [
  ⟨0x2000, 4, 1, 0, [⟨F.XC_CTL_EXPERT, .rw, 0⟩, ⟨F.XC_CTL_DEBUG, .rw, 0⟩, ⟨F.XC_CTL_STEP, .rw, 0⟩, ⟨F.XC_CTL_RESUME, .wo, 0⟩, ⟨F.XC_CTL_WDOG_LOG2, .rw, 24⟩]⟩,
  ⟨0x2008, 4, 1, 0, [⟨F.XC_STATUS_STATE, .ro, 0⟩, ⟨F.XC_STATUS_WAIT_OBJ, .ro, 0⟩, ⟨F.XC_STATUS_CE_OUT, .ro, 0⟩, ⟨F.XC_STATUS_GME_OUT, .ro, 0⟩]⟩,
  ⟨0x2010, 8, 1, 0, [⟨F.XC_PC_PC, .ro, 0⟩]⟩,
  ⟨0x2018, 4, 1, 0, [⟨F.XC_FAULT_STATUS, .ro, 0⟩, ⟨F.XC_FAULT_SOURCE, .ro, 0⟩, ⟨F.XC_FAULT_ILLEGAL, .ro, 0⟩, ⟨F.XC_FAULT_PRECISE, .ro, 0⟩]⟩,
  ⟨0x2020, 8, 1, 0, [⟨F.XC_FAULT_PC_PC, .ro, 0⟩]⟩,
  ⟨0x2028, 8, 1, 0, [⟨F.XC_RETIRED_COUNT, .ro, 0⟩]⟩,
  ⟨0x2030, 8, 1, 0, [⟨F.XC_CYCLES_COUNT, .ro, 0⟩]⟩,
  ⟨0x2038, 8, 1, 0, [⟨F.XC_BRK_EN, .rw, 0⟩, ⟨F.XC_BRK_PC, .rw, 0⟩]⟩,
  ⟨0x2040, 4, 1, 0, [⟨F.XC_WDOG_COUNT, .ro, 0⟩]⟩]

/-- `FC_CTL`, R181 (Table 6-9). -/
def R.FC_CTL (t : Nat) : Nat := 0x8000000 + 0x4000 + 0x10000 * t
def F.FC_CTL_EXPERT : Fld := ⟨0, 1⟩
def F.FC_CTL_PROG_LOG2 : Fld := ⟨4, 5⟩
/-- `FC_STATUS`, R181 (Table 6-9). -/
def R.FC_STATUS (t : Nat) : Nat := 0x8000000 + 0x4008 + 0x10000 * t
def F.FC_STATUS_STATE : Fld := ⟨0, 3⟩
def F.FC_STATUS_WAIT_OBJ : Fld := ⟨8, 6⟩
def F.FC_STATUS_WAIT_KIND : Fld := ⟨14, 2⟩
def F.FC_STATUS_OUTSTANDING : Fld := ⟨16, 9⟩
/-- `FC_PC`, R181 (Table 6-9). -/
def R.FC_PC (t : Nat) : Nat := 0x8000000 + 0x4010 + 0x10000 * t
def F.FC_PC_PC : Fld := ⟨0, 48⟩
/-- `FC_FAULT`, R181 (Table 6-9). -/
def R.FC_FAULT (t : Nat) : Nat := 0x8000000 + 0x4018 + 0x10000 * t
def F.FC_FAULT_STATUS : Fld := ⟨0, 8⟩
def F.FC_FAULT_SLOT : Fld := ⟨8, 6⟩
def F.FC_FAULT_PROG : Fld := ⟨14, 1⟩
def F.FC_FAULT_ILLEGAL : Fld := ⟨15, 1⟩
/-- `FC_PROGRESS`, R181 (Table 6-9). -/
def R.FC_PROGRESS (t : Nat) : Nat := 0x8000000 + 0x4020 + 0x10000 * t
def F.FC_PROGRESS_COUNT : Fld := ⟨0, 32⟩
/-- `FC_MUTUAL`, R181 (Table 6-9). -/
def R.FC_MUTUAL (t : Nat) : Nat := 0x8000000 + 0x4028 + 0x10000 * t
def F.FC_MUTUAL_COUNT : Fld := ⟨0, 32⟩
/-- `FC_XFER_TO`, R181 (Table 6-9). -/
def R.FC_XFER_TO (t : Nat) : Nat := 0x8000000 + 0x4030 + 0x10000 * t
def F.FC_XFER_TO_COUNT : Fld := ⟨0, 32⟩
/-- `FC_LATE`, R181 (Table 6-9). -/
def R.FC_LATE (t : Nat) : Nat := 0x8000000 + 0x4034 + 0x10000 * t
def F.FC_LATE_COUNT : Fld := ⟨0, 32⟩
/-- `FC_SPEC_DROP`, R181 (Table 6-9). -/
def R.FC_SPEC_DROP (t : Nat) : Nat := 0x8000000 + 0x4038 + 0x10000 * t
def F.FC_SPEC_DROP_COUNT : Fld := ⟨0, 32⟩
/-- `FC_SEQ`, R181 (Table 6-9). -/
def R.FC_SEQ (t : Nat) : Nat := 0x8000000 + 0x4040 + 0x10000 * t
def F.FC_SEQ_NEXT : Fld := ⟨0, 32⟩

/-- The registers of Table 6-9. -/
def tab_6_9 : List RegRow := [
  ⟨0x4000, 4, 1, 0, [⟨F.FC_CTL_EXPERT, .rw, 0⟩, ⟨F.FC_CTL_PROG_LOG2, .rw, 16⟩]⟩,
  ⟨0x4008, 4, 1, 0, [⟨F.FC_STATUS_STATE, .ro, 0⟩, ⟨F.FC_STATUS_WAIT_OBJ, .ro, 0⟩, ⟨F.FC_STATUS_WAIT_KIND, .ro, 0⟩, ⟨F.FC_STATUS_OUTSTANDING, .ro, 0⟩]⟩,
  ⟨0x4010, 8, 1, 0, [⟨F.FC_PC_PC, .ro, 0⟩]⟩,
  ⟨0x4018, 4, 1, 0, [⟨F.FC_FAULT_STATUS, .ro, 0⟩, ⟨F.FC_FAULT_SLOT, .ro, 0⟩, ⟨F.FC_FAULT_PROG, .ro, 0⟩, ⟨F.FC_FAULT_ILLEGAL, .ro, 0⟩]⟩,
  ⟨0x4020, 4, 1, 0, [⟨F.FC_PROGRESS_COUNT, .ro, 0⟩]⟩,
  ⟨0x4028, 4, 1, 0, [⟨F.FC_MUTUAL_COUNT, .rc, 0⟩]⟩,
  ⟨0x4030, 4, 1, 0, [⟨F.FC_XFER_TO_COUNT, .rc, 0⟩]⟩,
  ⟨0x4034, 4, 1, 0, [⟨F.FC_LATE_COUNT, .rc, 0⟩]⟩,
  ⟨0x4038, 4, 1, 0, [⟨F.FC_SPEC_DROP_COUNT, .rc, 0⟩]⟩,
  ⟨0x4040, 4, 1, 0, [⟨F.FC_SEQ_NEXT, .ro, 0⟩]⟩]

/-- `SLOT_STATE`, R182 (Table 6-10). -/
def R.SLOT_STATE (t : Nat) (n : Nat) : Nat := 0x8000000 + 0x5000 + 0x10000 * t + 64 * n
def F.SLOT_STATE_STATE : Fld := ⟨0, 3⟩
def F.SLOT_STATE_RUNAHEAD : Fld := ⟨3, 1⟩
def F.SLOT_STATE_STATUS : Fld := ⟨4, 8⟩
def F.SLOT_STATE_HELD_FAULT : Fld := ⟨12, 1⟩
/-- `SLOT_LENGTH`, R182 (Table 6-10). -/
def R.SLOT_LENGTH (t : Nat) (n : Nat) : Nat := 0x8000000 + 0x5004 + 0x10000 * t + 64 * n
def F.SLOT_LENGTH_BUFS : Fld := ⟨0, 32⟩
/-- `SLOT_LANDED`, R182 (Table 6-10). -/
def R.SLOT_LANDED (t : Nat) (n : Nat) : Nat := 0x8000000 + 0x5008 + 0x10000 * t + 64 * n
def F.SLOT_LANDED_BUFS : Fld := ⟨0, 32⟩
/-- `SLOT_COMMITTED`, R182 (Table 6-10). -/
def R.SLOT_COMMITTED (t : Nat) (n : Nat) : Nat := 0x8000000 + 0x500C + 0x10000 * t + 64 * n
def F.SLOT_COMMITTED_BUFS : Fld := ⟨0, 32⟩
/-- `SLOT_POSTED`, R182 (Table 6-10). -/
def R.SLOT_POSTED (t : Nat) (n : Nat) : Nat := 0x8000000 + 0x5010 + 0x10000 * t + 64 * n
def F.SLOT_POSTED_BUFS : Fld := ⟨0, 32⟩
/-- `SLOT_SNAP`, R182 (Table 6-10). -/
def R.SLOT_SNAP (t : Nat) (n : Nat) : Nat := 0x8000000 + 0x5014 + 0x10000 * t + 64 * n
def F.SLOT_SNAP_EMPTY : Fld := ⟨0, 16⟩
def F.SLOT_SNAP_FULL : Fld := ⟨16, 16⟩
/-- `SLOT_SNAP2`, R182 (Table 6-10). -/
def R.SLOT_SNAP2 (t : Nat) (n : Nat) : Nat := 0x8000000 + 0x5018 + 0x10000 * t + 64 * n
def F.SLOT_SNAP2_CREDIT : Fld := ⟨0, 16⟩
/-- `SLOT_SEQ`, R182 (Table 6-10). -/
def R.SLOT_SEQ (t : Nat) (n : Nat) : Nat := 0x8000000 + 0x501C + 0x10000 * t + 64 * n
def F.SLOT_SEQ_SEQ : Fld := ⟨0, 32⟩
/-- `SLOT_DESC_VA`, R182 (Table 6-10). -/
def R.SLOT_DESC_VA (t : Nat) (n : Nat) : Nat := 0x8000000 + 0x5020 + 0x10000 * t + 64 * n
def F.SLOT_DESC_VA_VA : Fld := ⟨0, 48⟩

/-- The registers of Table 6-10. -/
def tab_6_10 : List RegRow := [
  ⟨0x5000, 4, 64, 64, [⟨F.SLOT_STATE_STATE, .ro, 0⟩, ⟨F.SLOT_STATE_RUNAHEAD, .ro, 0⟩, ⟨F.SLOT_STATE_STATUS, .ro, 0⟩, ⟨F.SLOT_STATE_HELD_FAULT, .ro, 0⟩]⟩,
  ⟨0x5004, 4, 64, 64, [⟨F.SLOT_LENGTH_BUFS, .ro, 0⟩]⟩,
  ⟨0x5008, 4, 64, 64, [⟨F.SLOT_LANDED_BUFS, .ro, 0⟩]⟩,
  ⟨0x500C, 4, 64, 64, [⟨F.SLOT_COMMITTED_BUFS, .ro, 0⟩]⟩,
  ⟨0x5010, 4, 64, 64, [⟨F.SLOT_POSTED_BUFS, .ro, 0⟩]⟩,
  ⟨0x5014, 4, 64, 64, [⟨F.SLOT_SNAP_EMPTY, .ro, 0⟩, ⟨F.SLOT_SNAP_FULL, .ro, 0⟩]⟩,
  ⟨0x5018, 4, 64, 64, [⟨F.SLOT_SNAP2_CREDIT, .ro, 0⟩]⟩,
  ⟨0x501C, 4, 64, 64, [⟨F.SLOT_SEQ_SEQ, .ro, 0⟩]⟩,
  ⟨0x5020, 8, 64, 64, [⟨F.SLOT_DESC_VA_VA, .ro, 0⟩]⟩]

/-- `CE_CTL`, R207 (Table 7-4). -/
def R.CE_CTL (t : Nat) : Nat := 0x8000000 + 0x6000 + 0x10000 * t
def F.CE_CTL_EXPERT : Fld := ⟨0, 1⟩
def F.CE_CTL_RETRY : Fld := ⟨1, 2⟩
def F.CE_CTL_RDQ : Fld := ⟨4, 7⟩
/-- `CE_WIDTH`, R207 (Table 7-4). -/
def R.CE_WIDTH (t : Nat) : Nat := 0x8000000 + 0x6008 + 0x10000 * t
def F.CE_WIDTH_WIDTH : Fld := ⟨0, 5⟩
def F.CE_WIDTH_BYP_A : Fld := ⟨8, 4⟩
def F.CE_WIDTH_BYP_A_V : Fld := ⟨12, 1⟩
def F.CE_WIDTH_BYP_B : Fld := ⟨16, 4⟩
def F.CE_WIDTH_BYP_B_V : Fld := ⟨20, 1⟩
/-- `CE_STATUS`, R207 (Table 7-4). -/
def R.CE_STATUS (t : Nat) : Nat := 0x8000000 + 0x6010 + 0x10000 * t
def F.CE_STATUS_BUSY : Fld := ⟨0, 1⟩
def F.CE_STATUS_QUEUED : Fld := ⟨1, 4⟩
def F.CE_STATUS_QUAD : Fld := ⟨5, 1⟩
def F.CE_STATUS_QROLE : Fld := ⟨6, 2⟩
def F.CE_STATUS_QWIDTH : Fld := ⟨8, 6⟩
/-- `CE_RESIDUE`, R207 (Table 7-4). -/
def R.CE_RESIDUE (t : Nat) : Nat := 0x8000000 + 0x6018 + 0x10000 * t
def F.CE_RESIDUE_CORR : Fld := ⟨0, 16⟩
def F.CE_RESIDUE_UNCORR : Fld := ⟨16, 16⟩
/-- `CE_ERRINFO`, R207 (Table 7-4). -/
def R.CE_ERRINFO (t : Nat) : Nat := 0x8000000 + 0x6020 + 0x10000 * t
def F.CE_ERRINFO_COL : Fld := ⟨0, 4⟩
def F.CE_ERRINFO_VALID : Fld := ⟨4, 1⟩
/-- `CE_STEPS`, R207 (Table 7-4). -/
def R.CE_STEPS (t : Nat) : Nat := 0x8000000 + 0x6028 + 0x10000 * t
def F.CE_STEPS_COUNT : Fld := ⟨0, 64⟩
/-- `CE_STALL`, R207 (Table 7-4). -/
def R.CE_STALL (t : Nat) : Nat := 0x8000000 + 0x6030 + 0x10000 * t
def F.CE_STALL_COUNT : Fld := ⟨0, 32⟩

/-- The registers of Table 7-4. -/
def tab_7_4 : List RegRow := [
  ⟨0x6000, 4, 1, 0, [⟨F.CE_CTL_EXPERT, .rw, 0⟩, ⟨F.CE_CTL_RETRY, .rw, 1⟩, ⟨F.CE_CTL_RDQ, .rw, 64⟩]⟩,
  ⟨0x6008, 4, 1, 0, [⟨F.CE_WIDTH_WIDTH, .ro, 0⟩, ⟨F.CE_WIDTH_BYP_A, .ro, 0⟩, ⟨F.CE_WIDTH_BYP_A_V, .ro, 0⟩, ⟨F.CE_WIDTH_BYP_B, .ro, 0⟩, ⟨F.CE_WIDTH_BYP_B_V, .ro, 0⟩]⟩,
  ⟨0x6010, 4, 1, 0, [⟨F.CE_STATUS_BUSY, .ro, 0⟩, ⟨F.CE_STATUS_QUEUED, .ro, 0⟩, ⟨F.CE_STATUS_QUAD, .ro, 0⟩, ⟨F.CE_STATUS_QROLE, .ro, 0⟩, ⟨F.CE_STATUS_QWIDTH, .ro, 0⟩]⟩,
  ⟨0x6018, 4, 1, 0, [⟨F.CE_RESIDUE_CORR, .rc, 0⟩, ⟨F.CE_RESIDUE_UNCORR, .rc, 0⟩]⟩,
  ⟨0x6020, 4, 1, 0, [⟨F.CE_ERRINFO_COL, .ro, 0⟩, ⟨F.CE_ERRINFO_VALID, .w1c, 0⟩]⟩,
  ⟨0x6028, 8, 1, 0, [⟨F.CE_STEPS_COUNT, .ro, 0⟩]⟩,
  ⟨0x6030, 4, 1, 0, [⟨F.CE_STALL_COUNT, .rc, 0⟩]⟩]

/-- `GME_CTL`, R233 (Table 8-9). -/
def R.GME_CTL (t : Nat) : Nat := 0x8000000 + 0x7000 + 0x10000 * t
def F.GME_CTL_EXPERT : Fld := ⟨0, 1⟩
def F.GME_CTL_CHOICE : Fld := ⟨1, 2⟩
def F.GME_CTL_RETRY : Fld := ⟨3, 2⟩
def F.GME_CTL_RDQ : Fld := ⟨8, 8⟩
/-- `GME_THRESH`, R233 (Table 8-9). -/
def R.GME_THRESH (t : Nat) : Nat := 0x8000000 + 0x7008 + 0x10000 * t
def F.GME_THRESH_CSR : Fld := ⟨0, 10⟩
def F.GME_THRESH_COO : Fld := ⟨10, 10⟩
def F.GME_THRESH_BELL : Fld := ⟨20, 10⟩
def F.GME_THRESH_BITMAP : Fld := ⟨30, 10⟩
def F.GME_THRESH_RRL : Fld := ⟨40, 10⟩
/-- `GME_SPLIT`, R233 (Table 8-9). -/
def R.GME_SPLIT (t : Nat) : Nat := 0x8000000 + 0x7010 + 0x10000 * t
def F.GME_SPLIT_ROWS : Fld := ⟨0, 16⟩
/-- `GME_STATUS`, R233 (Table 8-9). -/
def R.GME_STATUS (t : Nat) : Nat := 0x8000000 + 0x7018 + 0x10000 * t
def F.GME_STATUS_BUSY : Fld := ⟨0, 1⟩
def F.GME_STATUS_QUEUED : Fld := ⟨1, 4⟩
def F.GME_STATUS_CE_SERVE : Fld := ⟨5, 1⟩
/-- `GME_RESIDUE`, R233 (Table 8-9). -/
def R.GME_RESIDUE (t : Nat) : Nat := 0x8000000 + 0x7020 + 0x10000 * t
def F.GME_RESIDUE_CORR : Fld := ⟨0, 16⟩
def F.GME_RESIDUE_UNCORR : Fld := ⟨16, 16⟩
/-- `GME_ERRINFO`, R233 (Table 8-9). -/
def R.GME_ERRINFO (t : Nat) : Nat := 0x8000000 + 0x7028 + 0x10000 * t
def F.GME_ERRINFO_LANE : Fld := ⟨0, 5⟩
def F.GME_ERRINFO_VALID : Fld := ⟨5, 1⟩
/-- `GME_SPARSE_BLK`, R233 (Table 8-9). -/
def R.GME_SPARSE_BLK (t : Nat) : Nat := 0x8000000 + 0x7030 + 0x10000 * t
def F.GME_SPARSE_BLK_COUNT : Fld := ⟨0, 32⟩
/-- `GME_DENSE_BLK`, R233 (Table 8-9). -/
def R.GME_DENSE_BLK (t : Nat) : Nat := 0x8000000 + 0x7034 + 0x10000 * t
def F.GME_DENSE_BLK_COUNT : Fld := ⟨0, 32⟩
/-- `GME_SPLITS`, R233 (Table 8-9). -/
def R.GME_SPLITS (t : Nat) : Nat := 0x8000000 + 0x7038 + 0x10000 * t
def F.GME_SPLITS_COUNT : Fld := ⟨0, 32⟩
/-- `GME_STALL`, R233 (Table 8-9). -/
def R.GME_STALL (t : Nat) : Nat := 0x8000000 + 0x703C + 0x10000 * t
def F.GME_STALL_COUNT : Fld := ⟨0, 32⟩
/-- `GME_GATHERS`, R233 (Table 8-9). -/
def R.GME_GATHERS (t : Nat) : Nat := 0x8000000 + 0x7040 + 0x10000 * t
def F.GME_GATHERS_COUNT : Fld := ⟨0, 64⟩

/-- The registers of Table 8-9. -/
def tab_8_9 : List RegRow := [
  ⟨0x7000, 4, 1, 0, [⟨F.GME_CTL_EXPERT, .rw, 0⟩, ⟨F.GME_CTL_CHOICE, .rw, 0⟩, ⟨F.GME_CTL_RETRY, .rw, 1⟩, ⟨F.GME_CTL_RDQ, .rw, 128⟩]⟩,
  ⟨0x7008, 8, 1, 0, [⟨F.GME_THRESH_CSR, .rw, 60⟩, ⟨F.GME_THRESH_COO, .rw, 40⟩, ⟨F.GME_THRESH_BELL, .rw, 300⟩, ⟨F.GME_THRESH_BITMAP, .rw, 450⟩, ⟨F.GME_THRESH_RRL, .rw, 700⟩]⟩,
  ⟨0x7010, 4, 1, 0, [⟨F.GME_SPLIT_ROWS, .rw, 256⟩]⟩,
  ⟨0x7018, 4, 1, 0, [⟨F.GME_STATUS_BUSY, .ro, 0⟩, ⟨F.GME_STATUS_QUEUED, .ro, 0⟩, ⟨F.GME_STATUS_CE_SERVE, .ro, 0⟩]⟩,
  ⟨0x7020, 4, 1, 0, [⟨F.GME_RESIDUE_CORR, .rc, 0⟩, ⟨F.GME_RESIDUE_UNCORR, .rc, 0⟩]⟩,
  ⟨0x7028, 4, 1, 0, [⟨F.GME_ERRINFO_LANE, .ro, 0⟩, ⟨F.GME_ERRINFO_VALID, .w1c, 0⟩]⟩,
  ⟨0x7030, 4, 1, 0, [⟨F.GME_SPARSE_BLK_COUNT, .rc, 0⟩]⟩,
  ⟨0x7034, 4, 1, 0, [⟨F.GME_DENSE_BLK_COUNT, .rc, 0⟩]⟩,
  ⟨0x7038, 4, 1, 0, [⟨F.GME_SPLITS_COUNT, .rc, 0⟩]⟩,
  ⟨0x703C, 4, 1, 0, [⟨F.GME_STALL_COUNT, .rc, 0⟩]⟩,
  ⟨0x7040, 8, 1, 0, [⟨F.GME_GATHERS_COUNT, .ro, 0⟩]⟩]

/-- `PRED_CTL`, R252 (Table 9-6). -/
def R.PRED_CTL (t : Nat) : Nat := 0x8000000 + 0x8000 + 0x10000 * t
def F.PRED_CTL_EXPERT : Fld := ⟨0, 1⟩
def F.PRED_CTL_STRICT : Fld := ⟨1, 1⟩
def F.PRED_CTL_AUDIT_OFF : Fld := ⟨2, 1⟩
/-- `PRED_LIMIT`, R252 (Table 9-6). -/
def R.PRED_LIMIT (t : Nat) : Nat := 0x8000000 + 0x8008 + 0x10000 * t
def F.PRED_LIMIT_LIMIT : Fld := ⟨0, 10⟩
/-- `PRED_GO`, R252 (Table 9-6). -/
def R.PRED_GO (t : Nat) : Nat := 0x8000000 + 0x8010 + 0x10000 * t
def F.PRED_GO_LINE : Fld := ⟨0, 15⟩
/-- `PRED_STATUS`, R252 (Table 9-6). -/
def R.PRED_STATUS (t : Nat) : Nat := 0x8000000 + 0x8018 + 0x10000 * t
def F.PRED_STATUS_BUSY : Fld := ⟨0, 1⟩
def F.PRED_STATUS_OP : Fld := ⟨1, 2⟩
def F.PRED_STATUS_STATUS : Fld := ⟨8, 8⟩
/-- `PRED_TALLY_A`, R252 (Table 9-6). -/
def R.PRED_TALLY_A (t : Nat) : Nat := 0x8000000 + 0x8020 + 0x10000 * t
def F.PRED_TALLY_A_AUDITED : Fld := ⟨0, 64⟩
/-- `PRED_TALLY_M`, R252 (Table 9-6). -/
def R.PRED_TALLY_M (t : Nat) : Nat := 0x8000000 + 0x8028 + 0x10000 * t
def F.PRED_TALLY_M_MISSED : Fld := ⟨0, 64⟩
/-- `PRED_VERDICT`, R252 (Table 9-6). -/
def R.PRED_VERDICT (t : Nat) : Nat := 0x8000000 + 0x8030 + 0x10000 * t
def F.PRED_VERDICT_VALID : Fld := ⟨0, 1⟩
def F.PRED_VERDICT_DENSE : Fld := ⟨1, 1⟩
/-- `PRED_MISS`, R252 (Table 9-6). -/
def R.PRED_MISS (t : Nat) : Nat := 0x8000000 + 0x8040 + 0x10000 * t
def F.PRED_MISS_COUNT : Fld := ⟨0, 32⟩
/-- `PRED_AUDIT`, R252 (Table 9-6). -/
def R.PRED_AUDIT (t : Nat) : Nat := 0x8000000 + 0x8044 + 0x10000 * t
def F.PRED_AUDIT_COUNT : Fld := ⟨0, 32⟩
/-- `PRED_LISTED`, R252 (Table 9-6). -/
def R.PRED_LISTED (t : Nat) : Nat := 0x8000000 + 0x8048 + 0x10000 * t
def F.PRED_LISTED_COUNT : Fld := ⟨0, 32⟩
/-- `PRED_DENSE`, R252 (Table 9-6). -/
def R.PRED_DENSE (t : Nat) : Nat := 0x8000000 + 0x804C + 0x10000 * t
def F.PRED_DENSE_COUNT : Fld := ⟨0, 32⟩

/-- The registers of Table 9-6. -/
def tab_9_6 : List RegRow := [
  ⟨0x8000, 4, 1, 0, [⟨F.PRED_CTL_EXPERT, .rw, 0⟩, ⟨F.PRED_CTL_STRICT, .rw, 0⟩, ⟨F.PRED_CTL_AUDIT_OFF, .rw, 0⟩]⟩,
  ⟨0x8008, 4, 1, 0, [⟨F.PRED_LIMIT_LIMIT, .rw, 50⟩]⟩,
  ⟨0x8010, 4, 1, 0, [⟨F.PRED_GO_LINE, .wo, 0⟩]⟩,
  ⟨0x8018, 4, 1, 0, [⟨F.PRED_STATUS_BUSY, .ro, 0⟩, ⟨F.PRED_STATUS_OP, .ro, 0⟩, ⟨F.PRED_STATUS_STATUS, .ro, 0⟩]⟩,
  ⟨0x8020, 8, 1, 0, [⟨F.PRED_TALLY_A_AUDITED, .ro, 0⟩]⟩,
  ⟨0x8028, 8, 1, 0, [⟨F.PRED_TALLY_M_MISSED, .ro, 0⟩]⟩,
  ⟨0x8030, 4, 1, 0, [⟨F.PRED_VERDICT_VALID, .ro, 0⟩, ⟨F.PRED_VERDICT_DENSE, .ro, 0⟩]⟩,
  ⟨0x8040, 4, 1, 0, [⟨F.PRED_MISS_COUNT, .rc, 0⟩]⟩,
  ⟨0x8044, 4, 1, 0, [⟨F.PRED_AUDIT_COUNT, .rc, 0⟩]⟩,
  ⟨0x8048, 4, 1, 0, [⟨F.PRED_LISTED_COUNT, .rc, 0⟩]⟩,
  ⟨0x804C, 4, 1, 0, [⟨F.PRED_DENSE_COUNT, .rc, 0⟩]⟩]

/-- `EXD_CTL`, R292 (Table 10-13). -/
def R.EXD_CTL : Nat := 0x2000000 + 0x0
def F.EXD_CTL_EXPERT : Fld := ⟨0, 1⟩
def F.EXD_CTL_FIXED_ORDER : Fld := ⟨1, 1⟩
def F.EXD_CTL_DEMAND_EN : Fld := ⟨2, 1⟩
def F.EXD_CTL_DEMAND_LOG2 : Fld := ⟨8, 5⟩
/-- `EXD_EPOCH`, R292 (Table 10-13). -/
def R.EXD_EPOCH : Nat := 0x2000000 + 0x8
def F.EXD_EPOCH_CURRENT : Fld := ⟨0, 32⟩
/-- `EXD_IMAGE_BASE`, R292 (Table 10-13). -/
def R.EXD_IMAGE_BASE : Nat := 0x2000000 + 0x10
def F.EXD_IMAGE_BASE_ADDR : Fld := ⟨21, 23⟩
/-- `EXD_RESTAB_BASE`, R292 (Table 10-13). -/
def R.EXD_RESTAB_BASE : Nat := 0x2000000 + 0x18
def F.EXD_RESTAB_BASE_ADDR : Fld := ⟨21, 23⟩
/-- `EXD_CMD`, R292 (Table 10-13). -/
def R.EXD_CMD : Nat := 0x2000000 + 0x20
def F.EXD_CMD_OP : Fld := ⟨0, 4⟩
def F.EXD_CMD_EXPERT : Fld := ⟨16, 16⟩
/-- `EXD_CMD_STAT`, R292 (Table 10-13). -/
def R.EXD_CMD_STAT : Nat := 0x2000000 + 0x28
def F.EXD_CMD_STAT_BUSY : Fld := ⟨0, 1⟩
def F.EXD_CMD_STAT_STATUS : Fld := ⟨8, 8⟩
/-- `EXD_DROP`, R292 (Table 10-13). -/
def R.EXD_DROP : Nat := 0x2000000 + 0x30
def F.EXD_DROP_COUNT : Fld := ⟨0, 32⟩
/-- `EXD_FETCHES`, R292 (Table 10-13). -/
def R.EXD_FETCHES : Nat := 0x2000000 + 0x34
def F.EXD_FETCHES_COUNT : Fld := ⟨0, 32⟩
/-- `EXD_EVICTS`, R292 (Table 10-13). -/
def R.EXD_EVICTS : Nat := 0x2000000 + 0x38
def F.EXD_EVICTS_COUNT : Fld := ⟨0, 32⟩
/-- `EXD_DEMAND`, R292 (Table 10-13). -/
def R.EXD_DEMAND : Nat := 0x2000000 + 0x3C
def F.EXD_DEMAND_COUNT : Fld := ⟨0, 32⟩
/-- `EXD_WB_FAIL`, R292 (Table 10-13). -/
def R.EXD_WB_FAIL : Nat := 0x2000000 + 0x40
def F.EXD_WB_FAIL_COUNT : Fld := ⟨0, 32⟩

/-- The registers of Table 10-13. -/
def tab_10_13 : List RegRow := [
  ⟨0x0, 4, 1, 0, [⟨F.EXD_CTL_EXPERT, .rw, 0⟩, ⟨F.EXD_CTL_FIXED_ORDER, .rw, 0⟩, ⟨F.EXD_CTL_DEMAND_EN, .rw, 1⟩, ⟨F.EXD_CTL_DEMAND_LOG2, .rw, 22⟩]⟩,
  ⟨0x8, 4, 1, 0, [⟨F.EXD_EPOCH_CURRENT, .ro, 0⟩]⟩,
  ⟨0x10, 8, 1, 0, [⟨F.EXD_IMAGE_BASE_ADDR, .rw, 0⟩]⟩,
  ⟨0x18, 8, 1, 0, [⟨F.EXD_RESTAB_BASE_ADDR, .rw, 0⟩]⟩,
  ⟨0x20, 4, 1, 0, [⟨F.EXD_CMD_OP, .wo, 0⟩, ⟨F.EXD_CMD_EXPERT, .wo, 0⟩]⟩,
  ⟨0x28, 4, 1, 0, [⟨F.EXD_CMD_STAT_BUSY, .ro, 0⟩, ⟨F.EXD_CMD_STAT_STATUS, .ro, 0⟩]⟩,
  ⟨0x30, 4, 1, 0, [⟨F.EXD_DROP_COUNT, .rc, 0⟩]⟩,
  ⟨0x34, 4, 1, 0, [⟨F.EXD_FETCHES_COUNT, .rc, 0⟩]⟩,
  ⟨0x38, 4, 1, 0, [⟨F.EXD_EVICTS_COUNT, .rc, 0⟩]⟩,
  ⟨0x3C, 4, 1, 0, [⟨F.EXD_DEMAND_COUNT, .rc, 0⟩]⟩,
  ⟨0x40, 4, 1, 0, [⟨F.EXD_WB_FAIL_COUNT, .rc, 0⟩]⟩]

/-- `MOR_CTL`, R293 (Table 10-14). -/
def R.MOR_CTL : Nat := 0x5000000 + 0x0
def F.MOR_CTL_EN : Fld := ⟨0, 1⟩
def F.MOR_CTL_ILV : Fld := ⟨1, 1⟩
/-- `MOR_PORT`, R293 (Table 10-14). -/
def R.MOR_PORT (n : Nat) : Nat := 0x5000000 + 0x8 + 4 * n
def F.MOR_PORT_UP : Fld := ⟨0, 1⟩
def F.MOR_PORT_WIDTH : Fld := ⟨1, 5⟩
def F.MOR_PORT_CAP_GIB : Fld := ⟨16, 13⟩
/-- `MOR_POOL_BASE`, R293 (Table 10-14). -/
def R.MOR_POOL_BASE : Nat := 0x5000000 + 0x10
def F.MOR_POOL_BASE_ADDR : Fld := ⟨21, 23⟩
/-- `MOR_POOL_VA`, R293 (Table 10-14). -/
def R.MOR_POOL_VA : Nat := 0x5000000 + 0x18
def F.MOR_POOL_VA_VA : Fld := ⟨21, 27⟩
/-- `MOR_POOL_CFG`, R293 (Table 10-14). -/
def R.MOR_POOL_CFG : Nat := 0x5000000 + 0x20
def F.MOR_POOL_CFG_SLOTS : Fld := ⟨0, 16⟩
def F.MOR_POOL_CFG_SLOT_PAGES : Fld := ⟨16, 16⟩
/-- `MOR_SLOTS`, R293 (Table 10-14). -/
def R.MOR_SLOTS : Nat := 0x5000000 + 0x28
def F.MOR_SLOTS_FREE : Fld := ⟨0, 16⟩
/-- `MOR_ERR`, R293 (Table 10-14). -/
def R.MOR_ERR : Nat := 0x5000000 + 0x30
def F.MOR_ERR_POISON : Fld := ⟨0, 16⟩
def F.MOR_ERR_TIMEOUT : Fld := ⟨16, 16⟩

/-- The registers of Table 10-14. -/
def tab_10_14 : List RegRow := [
  ⟨0x0, 4, 1, 0, [⟨F.MOR_CTL_EN, .rw, 0⟩, ⟨F.MOR_CTL_ILV, .rw, 1⟩]⟩,
  ⟨0x8, 4, 2, 4, [⟨F.MOR_PORT_UP, .ro, 0⟩, ⟨F.MOR_PORT_WIDTH, .ro, 0⟩, ⟨F.MOR_PORT_CAP_GIB, .ro, 0⟩]⟩,
  ⟨0x10, 8, 1, 0, [⟨F.MOR_POOL_BASE_ADDR, .rw, 0⟩]⟩,
  ⟨0x18, 8, 1, 0, [⟨F.MOR_POOL_VA_VA, .rw, 0⟩]⟩,
  ⟨0x20, 4, 1, 0, [⟨F.MOR_POOL_CFG_SLOTS, .rw, 0⟩, ⟨F.MOR_POOL_CFG_SLOT_PAGES, .rw, 0⟩]⟩,
  ⟨0x28, 4, 1, 0, [⟨F.MOR_SLOTS_FREE, .ro, 0⟩]⟩,
  ⟨0x30, 4, 1, 0, [⟨F.MOR_ERR_POISON, .rc, 0⟩, ⟨F.MOR_ERR_TIMEOUT, .rc, 0⟩]⟩]

/-- `RGNV_EPOCH`, R311 (Table 11-4). -/
def R.RGNV_EPOCH (st : Nat) (n : Nat) : Nat := 0x3000000 + 0x80000 + 0x100000 * st + 16 * n
def F.RGNV_EPOCH_EPOCH : Fld := ⟨0, 32⟩
/-- `RGNV_STATE`, R311 (Table 11-4). -/
def R.RGNV_STATE (st : Nat) (n : Nat) : Nat := 0x3000000 + 0x80004 + 0x100000 * st + 16 * n
def F.RGNV_STATE_STATE : Fld := ⟨0, 2⟩
def F.RGNV_STATE_DOUBLE : Fld := ⟨2, 1⟩
def F.RGNV_STATE_CUR : Fld := ⟨3, 1⟩
def F.RGNV_STATE_UPD_QUEUED : Fld := ⟨4, 1⟩
def F.RGNV_STATE_HELD : Fld := ⟨16, 16⟩
/-- `RGNV_COUNT0`, R311 (Table 11-4). -/
def R.RGNV_COUNT0 (st : Nat) (n : Nat) : Nat := 0x3000000 + 0x80008 + 0x100000 * st + 16 * n
def F.RGNV_COUNT0_COUNT0 : Fld := ⟨0, 20⟩
/-- `RGNV_COUNT1`, R311 (Table 11-4). -/
def R.RGNV_COUNT1 (st : Nat) (n : Nat) : Nat := 0x3000000 + 0x8000C + 0x100000 * st + 16 * n
def F.RGNV_COUNT1_COUNT1 : Fld := ⟨0, 20⟩

/-- The registers of Table 11-4. -/
def tab_11_4 : List RegRow := [
  ⟨0x80000, 4, 4096, 16, [⟨F.RGNV_EPOCH_EPOCH, .rw, 0⟩]⟩,
  ⟨0x80004, 4, 4096, 16, [⟨F.RGNV_STATE_STATE, .ro, 0⟩, ⟨F.RGNV_STATE_DOUBLE, .rw, 0⟩, ⟨F.RGNV_STATE_CUR, .ro, 0⟩, ⟨F.RGNV_STATE_UPD_QUEUED, .ro, 0⟩, ⟨F.RGNV_STATE_HELD, .ro, 0⟩]⟩,
  ⟨0x80008, 4, 4096, 16, [⟨F.RGNV_COUNT0_COUNT0, .rw, 0⟩]⟩,
  ⟨0x8000C, 4, 4096, 16, [⟨F.RGNV_COUNT1_COUNT1, .rw, 0⟩]⟩]

/-- `RGN_CFG`, R312 (Table 11-5). -/
def R.RGN_CFG (st : Nat) : Nat := 0x3000000 + 0x90000 + 0x100000 * st
def F.RGN_CFG_EXPERT : Fld := ⟨0, 1⟩
def F.RGN_CFG_WAIT_MS : Fld := ⟨8, 16⟩
/-- `RGN_WAITS`, R312 (Table 11-5). -/
def R.RGN_WAITS (st : Nat) : Nat := 0x3000000 + 0x90008 + 0x100000 * st
def F.RGN_WAITS_COUNT : Fld := ⟨0, 32⟩
/-- `RGN_REFUSED`, R312 (Table 11-5). -/
def R.RGN_REFUSED (st : Nat) : Nat := 0x3000000 + 0x9000C + 0x100000 * st
def F.RGN_REFUSED_COUNT : Fld := ⟨0, 32⟩
/-- `RGN_FLIPS`, R312 (Table 11-5). -/
def R.RGN_FLIPS (st : Nat) : Nat := 0x3000000 + 0x90010 + 0x100000 * st
def F.RGN_FLIPS_COUNT : Fld := ⟨0, 32⟩
/-- `RGN_UNDER`, R312 (Table 11-5). -/
def R.RGN_UNDER (st : Nat) : Nat := 0x3000000 + 0x90014 + 0x100000 * st
def F.RGN_UNDER_COUNT : Fld := ⟨0, 32⟩

/-- The registers of Table 11-5. -/
def tab_11_5 : List RegRow := [
  ⟨0x90000, 4, 1, 0, [⟨F.RGN_CFG_EXPERT, .rw, 0⟩, ⟨F.RGN_CFG_WAIT_MS, .rw, 1000⟩]⟩,
  ⟨0x90008, 4, 1, 0, [⟨F.RGN_WAITS_COUNT, .rc, 0⟩]⟩,
  ⟨0x9000C, 4, 1, 0, [⟨F.RGN_REFUSED_COUNT, .rc, 0⟩]⟩,
  ⟨0x90010, 4, 1, 0, [⟨F.RGN_FLIPS_COUNT, .rc, 0⟩]⟩,
  ⟨0x90014, 4, 1, 0, [⟨F.RGN_UNDER_COUNT, .rc, 0⟩]⟩]

/-- `ABL_CTL`, R340 (Table 12-7). -/
def R.ABL_CTL (st : Nat) : Nat := 0x3000000 + 0x0 + 0x100000 * st
def F.ABL_CTL_EXPERT : Fld := ⟨0, 1⟩
def F.ABL_CTL_SKIP_EMPTY : Fld := ⟨1, 1⟩
def F.ABL_CTL_RETRY : Fld := ⟨2, 2⟩
def F.ABL_CTL_TIMEOUT_MS : Fld := ⟨8, 8⟩
/-- `ABL_STATUS`, R340 (Table 12-7). -/
def R.ABL_STATUS (st : Nat) : Nat := 0x3000000 + 0x8 + 0x100000 * st
def F.ABL_STATUS_STATE : Fld := ⟨0, 2⟩
def F.ABL_STATUS_QUEUED : Fld := ⟨2, 7⟩
def F.ABL_STATUS_CUR : Fld := ⟨16, 12⟩
def F.ABL_STATUS_ACTIVE : Fld := ⟨28, 1⟩
/-- `ABL_STEPDIFF`, R340 (Table 12-7). -/
def R.ABL_STEPDIFF (st : Nat) : Nat := 0x3000000 + 0x10 + 0x100000 * st
def F.ABL_STEPDIFF_COUNT : Fld := ⟨0, 32⟩
/-- `ABL_SKIPS`, R340 (Table 12-7). -/
def R.ABL_SKIPS (st : Nat) : Nat := 0x3000000 + 0x14 + 0x100000 * st
def F.ABL_SKIPS_COUNT : Fld := ⟨0, 32⟩
/-- `ABL_TIMEOUTS`, R340 (Table 12-7). -/
def R.ABL_TIMEOUTS (st : Nat) : Nat := 0x3000000 + 0x18 + 0x100000 * st
def F.ABL_TIMEOUTS_COUNT : Fld := ⟨0, 32⟩
/-- `ABL_ECC`, R340 (Table 12-7). -/
def R.ABL_ECC (st : Nat) : Nat := 0x3000000 + 0x20 + 0x100000 * st
def F.ABL_ECC_CORR : Fld := ⟨0, 16⟩
def F.ABL_ECC_UNCORR : Fld := ⟨16, 16⟩
/-- `ABL_RESIDUE`, R340 (Table 12-7). -/
def R.ABL_RESIDUE (st : Nat) : Nat := 0x3000000 + 0x24 + 0x100000 * st
def F.ABL_RESIDUE_CORR : Fld := ⟨0, 16⟩
def F.ABL_RESIDUE_UNCORR : Fld := ⟨16, 16⟩
/-- `ABL_ERRINFO`, R340 (Table 12-7). -/
def R.ABL_ERRINFO (st : Nat) : Nat := 0x3000000 + 0x28 + 0x100000 * st
def F.ABL_ERRINFO_REGION : Fld := ⟨0, 12⟩
def F.ABL_ERRINFO_VALID : Fld := ⟨12, 1⟩
def F.ABL_ERRINFO_BLOCK : Fld := ⟨16, 23⟩
def F.ABL_ERRINFO_STATUS : Fld := ⟨40, 8⟩
/-- `ABL_MC_CTL`, R340 (Table 12-7). -/
def R.ABL_MC_CTL (st : Nat) : Nat := 0x3000000 + 0x40 + 0x100000 * st
def F.ABL_MC_CTL_LOAD : Fld := ⟨0, 1⟩
def F.ABL_MC_CTL_PEND : Fld := ⟨1, 1⟩
/-- `ABL_MC_SRC`, R340 (Table 12-7). -/
def R.ABL_MC_SRC (st : Nat) : Nat := 0x3000000 + 0x48 + 0x100000 * st
def F.ABL_MC_SRC_OFF : Fld := ⟨6, 30⟩
/-- `ABL_MC_VER`, R340 (Table 12-7). -/
def R.ABL_MC_VER (st : Nat) : Nat := 0x3000000 + 0x50 + 0x100000 * st
def F.ABL_MC_VER_VER : Fld := ⟨0, 32⟩
/-- `ABL_MC_STAT`, R340 (Table 12-7). -/
def R.ABL_MC_STAT (st : Nat) : Nat := 0x3000000 + 0x58 + 0x100000 * st
def F.ABL_MC_STAT_ERR : Fld := ⟨0, 1⟩
/-- `ABL_INBOX`, R340 (Table 12-7). -/
def R.ABL_INBOX (st : Nat) (n : Nat) : Nat := 0x3000000 + 0x100 + 0x100000 * st + 8 * n
def F.ABL_INBOX_FILLED : Fld := ⟨0, 3⟩
def F.ABL_INBOX_FAILED : Fld := ⟨3, 1⟩
def F.ABL_INBOX_RESET : Fld := ⟨4, 1⟩

/-- The registers of Table 12-7. -/
def tab_12_7 : List RegRow := [
  ⟨0x0, 4, 1, 0, [⟨F.ABL_CTL_EXPERT, .rw, 0⟩, ⟨F.ABL_CTL_SKIP_EMPTY, .rw, 0⟩, ⟨F.ABL_CTL_RETRY, .rw, 1⟩, ⟨F.ABL_CTL_TIMEOUT_MS, .rw, 5⟩]⟩,
  ⟨0x8, 4, 1, 0, [⟨F.ABL_STATUS_STATE, .ro, 0⟩, ⟨F.ABL_STATUS_QUEUED, .ro, 0⟩, ⟨F.ABL_STATUS_CUR, .ro, 0⟩, ⟨F.ABL_STATUS_ACTIVE, .ro, 0⟩]⟩,
  ⟨0x10, 4, 1, 0, [⟨F.ABL_STEPDIFF_COUNT, .rc, 0⟩]⟩,
  ⟨0x14, 4, 1, 0, [⟨F.ABL_SKIPS_COUNT, .rc, 0⟩]⟩,
  ⟨0x18, 4, 1, 0, [⟨F.ABL_TIMEOUTS_COUNT, .rc, 0⟩]⟩,
  ⟨0x20, 4, 1, 0, [⟨F.ABL_ECC_CORR, .rc, 0⟩, ⟨F.ABL_ECC_UNCORR, .rc, 0⟩]⟩,
  ⟨0x24, 4, 1, 0, [⟨F.ABL_RESIDUE_CORR, .rc, 0⟩, ⟨F.ABL_RESIDUE_UNCORR, .rc, 0⟩]⟩,
  ⟨0x28, 8, 1, 0, [⟨F.ABL_ERRINFO_REGION, .ro, 0⟩, ⟨F.ABL_ERRINFO_VALID, .w1c, 0⟩, ⟨F.ABL_ERRINFO_BLOCK, .ro, 0⟩, ⟨F.ABL_ERRINFO_STATUS, .ro, 0⟩]⟩,
  ⟨0x40, 4, 1, 0, [⟨F.ABL_MC_CTL_LOAD, .wo, 0⟩, ⟨F.ABL_MC_CTL_PEND, .ro, 0⟩]⟩,
  ⟨0x48, 8, 1, 0, [⟨F.ABL_MC_SRC_OFF, .rw, 0⟩]⟩,
  ⟨0x50, 4, 1, 0, [⟨F.ABL_MC_VER_VER, .ro, 0⟩]⟩,
  ⟨0x58, 4, 1, 0, [⟨F.ABL_MC_STAT_ERR, .w1c, 0⟩]⟩,
  ⟨0x100, 4, 16, 8, [⟨F.ABL_INBOX_FILLED, .ro, 0⟩, ⟨F.ABL_INBOX_FAILED, .ro, 0⟩, ⟨F.ABL_INBOX_RESET, .wo, 0⟩]⟩]

/-- `MOS_CTL`, R378 (Table 13-15). -/
def R.MOS_CTL : Nat := 0x4000000 + 0x0
def F.MOS_CTL_EN : Fld := ⟨0, 1⟩
/-- `MOS_DEVID`, R378 (Table 13-15). -/
def R.MOS_DEVID : Nat := 0x4000000 + 0x8
def F.MOS_DEVID_ID : Fld := ⟨0, 15⟩
/-- `MOS_COORD`, R378 (Table 13-15). -/
def R.MOS_COORD : Nat := 0x4000000 + 0x10
def F.MOS_COORD_X : Fld := ⟨0, 8⟩
def F.MOS_COORD_Y : Fld := ⟨8, 8⟩
def F.MOS_COORD_Z : Fld := ⟨16, 8⟩
/-- `MOS_DIM`, R378 (Table 13-15). -/
def R.MOS_DIM : Nat := 0x4000000 + 0x18
def F.MOS_DIM_SX : Fld := ⟨0, 8⟩
def F.MOS_DIM_SY : Fld := ⟨8, 8⟩
def F.MOS_DIM_SZ : Fld := ⟨16, 8⟩
/-- `MOS_UNROUTABLE`, R378 (Table 13-15). -/
def R.MOS_UNROUTABLE : Nat := 0x4000000 + 0x20
def F.MOS_UNROUTABLE_COUNT : Fld := ⟨0, 32⟩
/-- `MOS_HOLD_DROP`, R378 (Table 13-15). -/
def R.MOS_HOLD_DROP : Nat := 0x4000000 + 0x24
def F.MOS_HOLD_DROP_COUNT : Fld := ⟨0, 32⟩
/-- `MOS_LINK_DROP`, R378 (Table 13-15). -/
def R.MOS_LINK_DROP : Nat := 0x4000000 + 0x28
def F.MOS_LINK_DROP_COUNT : Fld := ⟨0, 32⟩
/-- `MOS_ROUTE`, R378 (Table 13-15). -/
def R.MOS_ROUTE (n : Nat) : Nat := 0x4000000 + 0x20000 + 4 * n
def F.MOS_ROUTE_ENTRY : Fld := ⟨0, 32⟩

/-- The registers of Table 13-15. -/
def tab_13_15 : List RegRow := [
  ⟨0x0, 4, 1, 0, [⟨F.MOS_CTL_EN, .rw, 0⟩]⟩,
  ⟨0x8, 4, 1, 0, [⟨F.MOS_DEVID_ID, .rw, 0⟩]⟩,
  ⟨0x10, 4, 1, 0, [⟨F.MOS_COORD_X, .rw, 0⟩, ⟨F.MOS_COORD_Y, .rw, 0⟩, ⟨F.MOS_COORD_Z, .rw, 0⟩]⟩,
  ⟨0x18, 4, 1, 0, [⟨F.MOS_DIM_SX, .rw, 1⟩, ⟨F.MOS_DIM_SY, .rw, 1⟩, ⟨F.MOS_DIM_SZ, .rw, 1⟩]⟩,
  ⟨0x20, 4, 1, 0, [⟨F.MOS_UNROUTABLE_COUNT, .rc, 0⟩]⟩,
  ⟨0x24, 4, 1, 0, [⟨F.MOS_HOLD_DROP_COUNT, .rc, 0⟩]⟩,
  ⟨0x28, 4, 1, 0, [⟨F.MOS_LINK_DROP_COUNT, .rc, 0⟩]⟩,
  ⟨0x20000, 4, 32768, 4, [⟨F.MOS_ROUTE_ENTRY, .rw, 0⟩]⟩]

/-- `MOSP_CTL`, R379 (Table 13-16). -/
def R.MOSP_CTL (n : Nat) : Nat := 0x4000000 + 0x1000 + 256 * n
def F.MOSP_CTL_EN : Fld := ⟨0, 1⟩
/-- `MOSP_STATUS`, R379 (Table 13-16). -/
def R.MOSP_STATUS (n : Nat) : Nat := 0x4000000 + 0x1008 + 256 * n
def F.MOSP_STATUS_STATE : Fld := ⟨0, 3⟩
def F.MOSP_STATUS_RETRAINS : Fld := ⟨8, 8⟩
/-- `MOSP_REPLAY`, R379 (Table 13-16). -/
def R.MOSP_REPLAY (n : Nat) : Nat := 0x4000000 + 0x1010 + 256 * n
def F.MOSP_REPLAY_COUNT : Fld := ⟨0, 32⟩
/-- `MOSP_CRCERR`, R379 (Table 13-16). -/
def R.MOSP_CRCERR (n : Nat) : Nat := 0x4000000 + 0x1014 + 256 * n
def F.MOSP_CRCERR_COUNT : Fld := ⟨0, 32⟩
/-- `MOSP_FEC`, R379 (Table 13-16). -/
def R.MOSP_FEC (n : Nat) : Nat := 0x4000000 + 0x1018 + 256 * n
def F.MOSP_FEC_CORR : Fld := ⟨0, 32⟩
/-- `MOSP_FEC_UNC`, R379 (Table 13-16). -/
def R.MOSP_FEC_UNC (n : Nat) : Nat := 0x4000000 + 0x101C + 256 * n
def F.MOSP_FEC_UNC_COUNT : Fld := ⟨0, 32⟩
/-- `MOSP_TXFLITS`, R379 (Table 13-16). -/
def R.MOSP_TXFLITS (n : Nat) : Nat := 0x4000000 + 0x1020 + 256 * n
def F.MOSP_TXFLITS_COUNT : Fld := ⟨0, 64⟩
/-- `MOSP_RXFLITS`, R379 (Table 13-16). -/
def R.MOSP_RXFLITS (n : Nat) : Nat := 0x4000000 + 0x1028 + 256 * n
def F.MOSP_RXFLITS_COUNT : Fld := ⟨0, 64⟩

/-- The registers of Table 13-16. -/
def tab_13_16 : List RegRow := [
  ⟨0x1000, 4, 24, 256, [⟨F.MOSP_CTL_EN, .rw, 0⟩]⟩,
  ⟨0x1008, 4, 24, 256, [⟨F.MOSP_STATUS_STATE, .ro, 0⟩, ⟨F.MOSP_STATUS_RETRAINS, .ro, 0⟩]⟩,
  ⟨0x1010, 4, 24, 256, [⟨F.MOSP_REPLAY_COUNT, .rc, 0⟩]⟩,
  ⟨0x1014, 4, 24, 256, [⟨F.MOSP_CRCERR_COUNT, .rc, 0⟩]⟩,
  ⟨0x1018, 4, 24, 256, [⟨F.MOSP_FEC_CORR, .rc, 0⟩]⟩,
  ⟨0x101C, 4, 24, 256, [⟨F.MOSP_FEC_UNC_COUNT, .rc, 0⟩]⟩,
  ⟨0x1020, 8, 24, 256, [⟨F.MOSP_TXFLITS_COUNT, .ro, 0⟩]⟩,
  ⟨0x1028, 8, 24, 256, [⟨F.MOSP_RXFLITS_COUNT, .ro, 0⟩]⟩]

/-- `CLE_STATUS`, R380 (Table 13-17). -/
def R.CLE_STATUS (n : Nat) : Nat := 0x4000000 + 0x300000 + 4096 * n
def F.CLE_STATUS_SEGS : Fld := ⟨0, 4⟩
/-- `CLE_RESIDUE`, R380 (Table 13-17). -/
def R.CLE_RESIDUE (n : Nat) : Nat := 0x4000000 + 0x300008 + 4096 * n
def F.CLE_RESIDUE_CORR : Fld := ⟨0, 16⟩
def F.CLE_RESIDUE_UNCORR : Fld := ⟨16, 16⟩
/-- `CLE_STALE`, R380 (Table 13-17). -/
def R.CLE_STALE (n : Nat) : Nat := 0x4000000 + 0x300010 + 4096 * n
def F.CLE_STALE_COUNT : Fld := ⟨0, 32⟩
/-- `CLE_TIMEOUTS`, R380 (Table 13-17). -/
def R.CLE_TIMEOUTS (n : Nat) : Nat := 0x4000000 + 0x300014 + 4096 * n
def F.CLE_TIMEOUTS_COUNT : Fld := ⟨0, 32⟩
/-- `CLE_ERRINFO`, R380 (Table 13-17). -/
def R.CLE_ERRINFO (n : Nat) : Nat := 0x4000000 + 0x300018 + 4096 * n
def F.CLE_ERRINFO_GROUP : Fld := ⟨0, 12⟩
def F.CLE_ERRINFO_VALID : Fld := ⟨12, 1⟩
def F.CLE_ERRINFO_STATUS : Fld := ⟨16, 8⟩

/-- The registers of Table 13-17. -/
def tab_13_17 : List RegRow := [
  ⟨0x300000, 4, 4, 4096, [⟨F.CLE_STATUS_SEGS, .ro, 0⟩]⟩,
  ⟨0x300008, 4, 4, 4096, [⟨F.CLE_RESIDUE_CORR, .rc, 0⟩, ⟨F.CLE_RESIDUE_UNCORR, .rc, 0⟩]⟩,
  ⟨0x300010, 4, 4, 4096, [⟨F.CLE_STALE_COUNT, .rc, 0⟩]⟩,
  ⟨0x300014, 4, 4, 4096, [⟨F.CLE_TIMEOUTS_COUNT, .rc, 0⟩]⟩,
  ⟨0x300018, 4, 4, 4096, [⟨F.CLE_ERRINFO_GROUP, .ro, 0⟩, ⟨F.CLE_ERRINFO_VALID, .w1c, 0⟩, ⟨F.CLE_ERRINFO_STATUS, .ro, 0⟩]⟩]

/-- `LEDG_CTL`, R406 (Table 14-7). -/
def R.LEDG_CTL : Nat := 0x1000000 + 0x0
def F.LEDG_CTL_EXPERT : Fld := ⟨0, 1⟩
def F.LEDG_CTL_TAGSCALE : Fld := ⟨1, 1⟩
def F.LEDG_CTL_HINT_EN : Fld := ⟨2, 1⟩
def F.LEDG_CTL_FIXED : Fld := ⟨3, 1⟩
def F.LEDG_CTL_FIX_DIV : Fld := ⟨4, 2⟩
def F.LEDG_CTL_TAG_CLR : Fld := ⟨6, 1⟩
def F.LEDG_CTL_SYS_PRIO : Fld := ⟨8, 3⟩
/-- `LEDG_BUDGET`, R406 (Table 14-7). -/
def R.LEDG_BUDGET : Nat := 0x1000000 + 0x8
def F.LEDG_BUDGET_W : Fld := ⟨0, 16⟩
/-- `LEDG_PEAK`, R406 (Table 14-7). -/
def R.LEDG_PEAK : Nat := 0x1000000 + 0xC
def F.LEDG_PEAK_W : Fld := ⟨0, 16⟩
/-- `LEDG_CAP`, R406 (Table 14-7). -/
def R.LEDG_CAP : Nat := 0x1000000 + 0x10
def F.LEDG_CAP_J : Fld := ⟨0, 16⟩
/-- `LEDG_RESERVE`, R406 (Table 14-7). -/
def R.LEDG_RESERVE : Nat := 0x1000000 + 0x14
def F.LEDG_RESERVE_J : Fld := ⟨0, 16⟩
/-- `LEDG_MAX_DEFER`, R406 (Table 14-7). -/
def R.LEDG_MAX_DEFER : Nat := 0x1000000 + 0x18
def F.LEDG_MAX_DEFER_MS : Fld := ⟨0, 16⟩
/-- `LEDG_BAL`, R406 (Table 14-7). -/
def R.LEDG_BAL : Nat := 0x1000000 + 0x20
def F.LEDG_BAL_B : Fld := ⟨0, 32⟩
/-- `LEDG_RESV`, R406 (Table 14-7). -/
def R.LEDG_RESV : Nat := 0x1000000 + 0x24
def F.LEDG_RESV_R : Fld := ⟨0, 32⟩
/-- `LEDG_STATUS`, R406 (Table 14-7). -/
def R.LEDG_STATUS : Nat := 0x1000000 + 0x28
def F.LEDG_STATUS_MODE : Fld := ⟨0, 2⟩
def F.LEDG_STATUS_DIV : Fld := ⟨2, 2⟩
def F.LEDG_STATUS_CHANGING : Fld := ⟨4, 1⟩
def F.LEDG_STATUS_AVS_FAIL : Fld := ⟨5, 1⟩
def F.LEDG_STATUS_PWRBRK : Fld := ⟨6, 1⟩
def F.LEDG_STATUS_TJ_MAX : Fld := ⟨8, 8⟩
def F.LEDG_STATUS_WAITING : Fld := ⟨16, 12⟩
/-- `LEDG_EFF`, R406 (Table 14-7). -/
def R.LEDG_EFF : Nat := 0x1000000 + 0x30
def F.LEDG_EFF_PERMILLE : Fld := ⟨0, 10⟩
/-- `LEDG_RECON`, R406 (Table 14-7). -/
def R.LEDG_RECON : Nat := 0x1000000 + 0x34
def F.LEDG_RECON_FACTOR : Fld := ⟨0, 16⟩
/-- `LEDG_STATIC`, R406 (Table 14-7). -/
def R.LEDG_STATIC : Nat := 0x1000000 + 0x38
def F.LEDG_STATIC_W : Fld := ⟨0, 16⟩
/-- `LEDG_THERM`, R406 (Table 14-7). -/
def R.LEDG_THERM : Nat := 0x1000000 + 0x40
def F.LEDG_THERM_SOFT : Fld := ⟨0, 8⟩
def F.LEDG_THERM_HARD : Fld := ⟨8, 8⟩
/-- `LEDG_VTAB`, R406 (Table 14-7). -/
def R.LEDG_VTAB : Nat := 0x1000000 + 0x48
def F.LEDG_VTAB_V4 : Fld := ⟨0, 8⟩
def F.LEDG_VTAB_V5 : Fld := ⟨8, 8⟩
def F.LEDG_VTAB_V6 : Fld := ⟨16, 8⟩
def F.LEDG_VTAB_V8 : Fld := ⟨24, 8⟩
/-- `LEDG_HINTW`, R406 (Table 14-7). -/
def R.LEDG_HINTW : Nat := 0x1000000 + 0x68
def F.LEDG_HINTW_C : Fld := ⟨0, 32⟩
/-- `LEDG_ECOUNT`, R406 (Table 14-7). -/
def R.LEDG_ECOUNT : Nat := 0x1000000 + 0x70
def F.LEDG_ECOUNT_E : Fld := ⟨0, 64⟩
/-- `LEDG_EMEAS`, R406 (Table 14-7). -/
def R.LEDG_EMEAS : Nat := 0x1000000 + 0x78
def F.LEDG_EMEAS_E : Fld := ⟨0, 64⟩
/-- `LEDG_DEFERS`, R406 (Table 14-7). -/
def R.LEDG_DEFERS : Nat := 0x1000000 + 0x80
def F.LEDG_DEFERS_COUNT : Fld := ⟨0, 32⟩
/-- `LEDG_AVS_ERR`, R406 (Table 14-7). -/
def R.LEDG_AVS_ERR : Nat := 0x1000000 + 0x84
def F.LEDG_AVS_ERR_COUNT : Fld := ⟨0, 32⟩
/-- `LEDG_DIVCHG`, R406 (Table 14-7). -/
def R.LEDG_DIVCHG : Nat := 0x1000000 + 0x88
def F.LEDG_DIVCHG_COUNT : Fld := ⟨0, 32⟩
/-- `LEDG_COEF`, R406 (Table 14-7). -/
def R.LEDG_COEF (n : Nat) : Nat := 0x1000000 + 0x100 + 4 * n
def F.LEDG_COEF_FJ : Fld := ⟨0, 24⟩
/-- `LEDG_TAG`, R406 (Table 14-7). -/
def R.LEDG_TAG (n : Nat) : Nat := 0x1000000 + 0x1000 + 4 * n
def F.LEDG_TAG_RATIO : Fld := ⟨0, 16⟩
def F.LEDG_TAG_SAMPLES : Fld := ⟨16, 16⟩

/-- The registers of Table 14-7. -/
def tab_14_7 : List RegRow := [
  ⟨0x0, 4, 1, 0, [⟨F.LEDG_CTL_EXPERT, .rw, 0⟩, ⟨F.LEDG_CTL_TAGSCALE, .rw, 0⟩, ⟨F.LEDG_CTL_HINT_EN, .rw, 0⟩, ⟨F.LEDG_CTL_FIXED, .rw, 0⟩, ⟨F.LEDG_CTL_FIX_DIV, .rw, 0⟩, ⟨F.LEDG_CTL_TAG_CLR, .wo, 0⟩, ⟨F.LEDG_CTL_SYS_PRIO, .rw, 7⟩]⟩,
  ⟨0x8, 4, 1, 0, [⟨F.LEDG_BUDGET_W, .rw, 4200⟩]⟩,
  ⟨0xC, 4, 1, 0, [⟨F.LEDG_PEAK_W, .rw, 5000⟩]⟩,
  ⟨0x10, 4, 1, 0, [⟨F.LEDG_CAP_J, .rw, 1000⟩]⟩,
  ⟨0x14, 4, 1, 0, [⟨F.LEDG_RESERVE_J, .rw, 100⟩]⟩,
  ⟨0x18, 4, 1, 0, [⟨F.LEDG_MAX_DEFER_MS, .rw, 50⟩]⟩,
  ⟨0x20, 4, 1, 0, [⟨F.LEDG_BAL_B, .ro, 62500000⟩]⟩,
  ⟨0x24, 4, 1, 0, [⟨F.LEDG_RESV_R, .ro, 0⟩]⟩,
  ⟨0x28, 4, 1, 0, [⟨F.LEDG_STATUS_MODE, .ro, 0⟩, ⟨F.LEDG_STATUS_DIV, .ro, 0⟩, ⟨F.LEDG_STATUS_CHANGING, .ro, 0⟩, ⟨F.LEDG_STATUS_AVS_FAIL, .w1c, 0⟩, ⟨F.LEDG_STATUS_PWRBRK, .ro, 0⟩, ⟨F.LEDG_STATUS_TJ_MAX, .ro, 0⟩, ⟨F.LEDG_STATUS_WAITING, .ro, 0⟩]⟩,
  ⟨0x30, 4, 1, 0, [⟨F.LEDG_EFF_PERMILLE, .rw, 940⟩]⟩,
  ⟨0x34, 4, 1, 0, [⟨F.LEDG_RECON_FACTOR, .ro, 4096⟩]⟩,
  ⟨0x38, 4, 1, 0, [⟨F.LEDG_STATIC_W, .rw, 300⟩]⟩,
  ⟨0x40, 4, 1, 0, [⟨F.LEDG_THERM_SOFT, .rw, 95⟩, ⟨F.LEDG_THERM_HARD, .rw, 102⟩]⟩,
  ⟨0x48, 4, 1, 0, [⟨F.LEDG_VTAB_V4, .rw, 0⟩, ⟨F.LEDG_VTAB_V5, .rw, 0⟩, ⟨F.LEDG_VTAB_V6, .rw, 0⟩, ⟨F.LEDG_VTAB_V8, .rw, 0⟩]⟩,
  ⟨0x68, 4, 1, 0, [⟨F.LEDG_HINTW_C, .rw, 1614288902⟩]⟩,
  ⟨0x70, 8, 1, 0, [⟨F.LEDG_ECOUNT_E, .ro, 0⟩]⟩,
  ⟨0x78, 8, 1, 0, [⟨F.LEDG_EMEAS_E, .ro, 0⟩]⟩,
  ⟨0x80, 4, 1, 0, [⟨F.LEDG_DEFERS_COUNT, .rc, 0⟩]⟩,
  ⟨0x84, 4, 1, 0, [⟨F.LEDG_AVS_ERR_COUNT, .rc, 0⟩]⟩,
  ⟨0x88, 4, 1, 0, [⟨F.LEDG_DIVCHG_COUNT, .rc, 0⟩]⟩,
  ⟨0x100, 4, 16, 4, [⟨F.LEDG_COEF_FJ, .rw, 0⟩]⟩,
  ⟨0x1000, 4, 1024, 4, [⟨F.LEDG_TAG_RATIO, .ro, 4096⟩, ⟨F.LEDG_TAG_SAMPLES, .ro, 0⟩]⟩]

/-- `PDC_CTL`, R431 (Table 15-9). -/
def R.PDC_CTL : Nat := 0x1000000 + 0x2000
def F.PDC_CTL_EXPERT : Fld := ⟨0, 1⟩
/-- `PDC_MODE`, R431 (Table 15-9). -/
def R.PDC_MODE : Nat := 0x1000000 + 0x2008
def F.PDC_MODE_REQ : Fld := ⟨0, 2⟩
def F.PDC_MODE_CUR : Fld := ⟨4, 2⟩
def F.PDC_MODE_BUSY : Fld := ⟨6, 1⟩
/-- `PDC_WAKE_EN`, R431 (Table 15-9). -/
def R.PDC_WAKE_EN : Nat := 0x1000000 + 0x2010
def F.PDC_WAKE_EN_EN : Fld := ⟨0, 5⟩
/-- `PDC_WAKE_SRC`, R431 (Table 15-9). -/
def R.PDC_WAKE_SRC : Nat := 0x1000000 + 0x2018
def F.PDC_WAKE_SRC_SRC : Fld := ⟨0, 3⟩
def F.PDC_WAKE_SRC_VALID : Fld := ⟨3, 1⟩
/-- `PDC_FROST`, R431 (Table 15-9). -/
def R.PDC_FROST : Nat := 0x1000000 + 0x2020
def F.PDC_FROST_PERIOD_MS : Fld := ⟨0, 16⟩
def F.PDC_FROST_SAMPLE_MS : Fld := ⟨16, 8⟩
/-- `PDC_RESET`, R431 (Table 15-9). -/
def R.PDC_RESET : Nat := 0x1000000 + 0x2028
def F.PDC_RESET_LEVEL : Fld := ⟨0, 2⟩
/-- `PDC_RST_CAUSE`, R431 (Table 15-9). -/
def R.PDC_RST_CAUSE : Nat := 0x1000000 + 0x2030
def F.PDC_RST_CAUSE_CAUSE : Fld := ⟨0, 3⟩
/-- `PDC_TILE_RST`, R431 (Table 15-9). -/
def R.PDC_TILE_RST : Nat := 0x1000000 + 0x2038
def F.PDC_TILE_RST_TILE : Fld := ⟨0, 11⟩
def F.PDC_TILE_RST_GO : Fld := ⟨15, 1⟩
def F.PDC_TILE_RST_BUSY : Fld := ⟨16, 1⟩
/-- `PDC_TRIP`, R431 (Table 15-9). -/
def R.PDC_TRIP : Nat := 0x1000000 + 0x2040
def F.PDC_TRIP_TRIPPED : Fld := ⟨0, 1⟩
def F.PDC_TRIP_TJ : Fld := ⟨8, 8⟩
/-- `PDC_PUP_FAIL`, R431 (Table 15-9). -/
def R.PDC_PUP_FAIL : Nat := 0x1000000 + 0x2048
def F.PDC_PUP_FAIL_COUNT : Fld := ⟨0, 32⟩
/-- `PDC_ORPHAN`, R431 (Table 15-9). -/
def R.PDC_ORPHAN : Nat := 0x1000000 + 0x204C
def F.PDC_ORPHAN_COUNT : Fld := ⟨0, 32⟩
/-- `PDC_HOST_DROP`, R431 (Table 15-9). -/
def R.PDC_HOST_DROP : Nat := 0x1000000 + 0x2050
def F.PDC_HOST_DROP_COUNT : Fld := ⟨0, 32⟩
/-- `PDC_DOM_REQ`, R431 (Table 15-9); the reserved IDs 10 to 15 have no register. -/
def R.PDC_DOM_REQ (n : Nat) : Nat := 0x1000000 + 0x2100 + 4 * n
def F.PDC_DOM_REQ_REQ : Fld := ⟨0, 2⟩
def F.PDC_DOM_REQ_FORCE : Fld := ⟨2, 1⟩
def F.PDC_DOM_REQ_WAKE : Fld := ⟨3, 1⟩
/-- `PDC_DOM_STAT`, R431 (Table 15-9); the reserved IDs 10 to 15 have no register. -/
def R.PDC_DOM_STAT (n : Nat) : Nat := 0x1000000 + 0x2200 + 4 * n
def F.PDC_DOM_STAT_STATE : Fld := ⟨0, 4⟩
def F.PDC_DOM_STAT_PEND : Fld := ⟨4, 1⟩
def F.PDC_DOM_STAT_PEND_REQ : Fld := ⟨5, 2⟩
def F.PDC_DOM_STAT_TRIES : Fld := ⟨7, 2⟩

/-- The registers of Table 15-9. -/
def tab_15_9 : List RegRow := [
  ⟨0x2000, 4, 1, 0, [⟨F.PDC_CTL_EXPERT, .rw, 0⟩]⟩,
  ⟨0x2008, 4, 1, 0, [⟨F.PDC_MODE_REQ, .rw, 0⟩, ⟨F.PDC_MODE_CUR, .ro, 0⟩, ⟨F.PDC_MODE_BUSY, .ro, 0⟩]⟩,
  ⟨0x2010, 4, 1, 0, [⟨F.PDC_WAKE_EN_EN, .rw, 31⟩]⟩,
  ⟨0x2018, 4, 1, 0, [⟨F.PDC_WAKE_SRC_SRC, .ro, 0⟩, ⟨F.PDC_WAKE_SRC_VALID, .w1c, 0⟩]⟩,
  ⟨0x2020, 4, 1, 0, [⟨F.PDC_FROST_PERIOD_MS, .rw, 1000⟩, ⟨F.PDC_FROST_SAMPLE_MS, .rw, 4⟩]⟩,
  ⟨0x2028, 4, 1, 0, [⟨F.PDC_RESET_LEVEL, .wo, 0⟩]⟩,
  ⟨0x2030, 4, 1, 0, [⟨F.PDC_RST_CAUSE_CAUSE, .ro, 0⟩]⟩,
  ⟨0x2038, 4, 1, 0, [⟨F.PDC_TILE_RST_TILE, .wo, 0⟩, ⟨F.PDC_TILE_RST_GO, .wo, 0⟩, ⟨F.PDC_TILE_RST_BUSY, .ro, 0⟩]⟩,
  ⟨0x2040, 4, 1, 0, [⟨F.PDC_TRIP_TRIPPED, .w1c, 0⟩, ⟨F.PDC_TRIP_TJ, .ro, 0⟩]⟩,
  ⟨0x2048, 4, 1, 0, [⟨F.PDC_PUP_FAIL_COUNT, .rc, 0⟩]⟩,
  ⟨0x204C, 4, 1, 0, [⟨F.PDC_ORPHAN_COUNT, .rc, 0⟩]⟩,
  ⟨0x2050, 4, 1, 0, [⟨F.PDC_HOST_DROP_COUNT, .rc, 0⟩]⟩,
  ⟨0x2100, 4, 10, 4, [⟨F.PDC_DOM_REQ_REQ, .rw, 2⟩, ⟨F.PDC_DOM_REQ_FORCE, .rw, 0⟩, ⟨F.PDC_DOM_REQ_WAKE, .rw, 1⟩]⟩,
  ⟨0x2140, 4, 48, 4, [⟨F.PDC_DOM_REQ_REQ, .rw, 2⟩, ⟨F.PDC_DOM_REQ_FORCE, .rw, 0⟩, ⟨F.PDC_DOM_REQ_WAKE, .rw, 1⟩]⟩,
  ⟨0x2200, 4, 10, 4, [⟨F.PDC_DOM_STAT_STATE, .ro, 3⟩, ⟨F.PDC_DOM_STAT_PEND, .ro, 0⟩, ⟨F.PDC_DOM_STAT_PEND_REQ, .ro, 0⟩, ⟨F.PDC_DOM_STAT_TRIES, .ro, 0⟩]⟩,
  ⟨0x2240, 4, 48, 4, [⟨F.PDC_DOM_STAT_STATE, .ro, 3⟩, ⟨F.PDC_DOM_STAT_PEND, .ro, 0⟩, ⟨F.PDC_DOM_STAT_PEND_REQ, .ro, 0⟩, ⟨F.PDC_DOM_STAT_TRIES, .ro, 0⟩]⟩]

/-- `FIRN_CTL`, R463 (Table 16-11). -/
def R.FIRN_CTL : Nat := 0x4400000 + 0x0
def F.FIRN_CTL_EN : Fld := ⟨0, 1⟩
def F.FIRN_CTL_EXPERT : Fld := ⟨1, 1⟩
def F.FIRN_CTL_GATE : Fld := ⟨2, 1⟩
def F.FIRN_CTL_REPLAY : Fld := ⟨3, 1⟩
/-- `FIRN_BASE`, R463 (Table 16-11). -/
def R.FIRN_BASE : Nat := 0x4400000 + 0x8
def F.FIRN_BASE_ADDR : Fld := ⟨21, 23⟩
/-- `FIRN_CFG`, R463 (Table 16-11). -/
def R.FIRN_CFG : Nat := 0x4400000 + 0x10
def F.FIRN_CFG_DEPTH_LOG2 : Fld := ⟨0, 5⟩
def F.FIRN_CFG_RANK : Fld := ⟨16, 15⟩
/-- `FIRN_GEN`, R463 (Table 16-11). -/
def R.FIRN_GEN : Nat := 0x4400000 + 0x18
def F.FIRN_GEN_GEN : Fld := ⟨0, 32⟩
/-- `FIRN_SNAP`, R463 (Table 16-11). -/
def R.FIRN_SNAP : Nat := 0x4400000 + 0x20
def F.FIRN_SNAP_STEP : Fld := ⟨0, 32⟩
def F.FIRN_SNAP_VALID : Fld := ⟨32, 1⟩
/-- `FIRN_COMMIT`, R463 (Table 16-11). -/
def R.FIRN_COMMIT : Nat := 0x4400000 + 0x28
def F.FIRN_COMMIT_STEP : Fld := ⟨0, 32⟩
/-- `FIRN_REPLAY`, R463 (Table 16-11). -/
def R.FIRN_REPLAY : Nat := 0x4400000 + 0x30
def F.FIRN_REPLAY_TO : Fld := ⟨0, 32⟩
/-- `FIRN_STATUS`, R463 (Table 16-11). -/
def R.FIRN_STATUS : Nat := 0x4400000 + 0x38
def F.FIRN_STATUS_DIVERGED : Fld := ⟨0, 1⟩
def F.FIRN_STATUS_SEED_DIFF : Fld := ⟨1, 1⟩
def F.FIRN_STATUS_HORIZON : Fld := ⟨2, 1⟩
def F.FIRN_STATUS_NO_RECORD : Fld := ⟨3, 1⟩
/-- `FIRN_DIV_STEP`, R463 (Table 16-11). -/
def R.FIRN_DIV_STEP : Nat := 0x4400000 + 0x3C
def F.FIRN_DIV_STEP_STEP : Fld := ⟨0, 32⟩
/-- `FIRN_LAST`, R463 (Table 16-11). -/
def R.FIRN_LAST : Nat := 0x4400000 + 0x40
def F.FIRN_LAST_STEP : Fld := ⟨0, 32⟩
/-- `FIRN_VERIFIED`, R463 (Table 16-11). -/
def R.FIRN_VERIFIED : Nat := 0x4400000 + 0x44
def F.FIRN_VERIFIED_COUNT : Fld := ⟨0, 32⟩
/-- `FIRN_UNVERIFIED`, R463 (Table 16-11). -/
def R.FIRN_UNVERIFIED : Nat := 0x4400000 + 0x48
def F.FIRN_UNVERIFIED_COUNT : Fld := ⟨0, 32⟩
/-- `MIR_CTL`, R463 (Table 16-11). -/
def R.MIR_CTL : Nat := 0x4400000 + 0x100
def F.MIR_CTL_PAIR : Fld := ⟨0, 1⟩
def F.MIR_CTL_UNPAIR : Fld := ⟨1, 1⟩
/-- `MIR_PEER`, R463 (Table 16-11). -/
def R.MIR_PEER : Nat := 0x4400000 + 0x108
def F.MIR_PEER_DEV : Fld := ⟨0, 15⟩
/-- `MIR_IN_BASE`, R463 (Table 16-11). -/
def R.MIR_IN_BASE : Nat := 0x4400000 + 0x110
def F.MIR_IN_BASE_ADDR : Fld := ⟨21, 23⟩
/-- `MIR_PEER_BASE`, R463 (Table 16-11). -/
def R.MIR_PEER_BASE : Nat := 0x4400000 + 0x118
def F.MIR_PEER_BASE_ADDR : Fld := ⟨21, 23⟩
/-- `MIR_CFG`, R463 (Table 16-11). -/
def R.MIR_CFG : Nat := 0x4400000 + 0x120
def F.MIR_CFG_BANK_2M : Fld := ⟨0, 16⟩
/-- `MIR_STATUS`, R463 (Table 16-11). -/
def R.MIR_STATUS : Nat := 0x4400000 + 0x128
def F.MIR_STATUS_STATE : Fld := ⟨0, 3⟩
def F.MIR_STATUS_SHARED_FEED : Fld := ⟨3, 1⟩
def F.MIR_STATUS_OWN_FEED : Fld := ⟨4, 4⟩
def F.MIR_STATUS_PEER_FEED : Fld := ⟨8, 4⟩
def F.MIR_STATUS_STATUS : Fld := ⟨16, 8⟩
/-- `MIR_BANK`, R463 (Table 16-11). -/
def R.MIR_BANK : Nat := 0x4400000 + 0x130
def F.MIR_BANK_STEP : Fld := ⟨0, 32⟩
def F.MIR_BANK_BANK : Fld := ⟨32, 1⟩
/-- `REC_CMD`, R463 (Table 16-11). -/
def R.REC_CMD : Nat := 0x4400000 + 0x200
def F.REC_CMD_OP : Fld := ⟨0, 4⟩
def F.REC_CMD_SNAP : Fld := ⟨4, 1⟩
def F.REC_CMD_DEV : Fld := ⟨5, 15⟩
def F.REC_CMD_SOURCE : Fld := ⟨20, 15⟩
/-- `REC_STATE`, R463 (Table 16-11). -/
def R.REC_STATE : Nat := 0x4400000 + 0x208
def F.REC_STATE_STATE : Fld := ⟨0, 3⟩
def F.REC_STATE_RESTART : Fld := ⟨3, 1⟩
def F.REC_STATE_PEND : Fld := ⟨4, 3⟩
def F.REC_STATE_BUSY : Fld := ⟨7, 1⟩
def F.REC_STATE_STATUS : Fld := ⟨8, 8⟩
/-- `REC_PEND`, R463 (Table 16-11). -/
def R.REC_PEND (n : Nat) : Nat := 0x4400000 + 0x210 + 4 * n
def F.REC_PEND_DEV : Fld := ⟨0, 15⟩
def F.REC_PEND_VALID : Fld := ⟨15, 1⟩
/-- `REC_SPARE`, R463 (Table 16-11). -/
def R.REC_SPARE : Nat := 0x4400000 + 0x220
def F.REC_SPARE_SPARE : Fld := ⟨0, 15⟩
def F.REC_SPARE_SOURCE : Fld := ⟨16, 15⟩
/-- `CALVE_FENCED`, R463 (Table 16-11). -/
def R.CALVE_FENCED : Nat := 0x4400000 + 0x228
def F.CALVE_FENCED_COUNT : Fld := ⟨0, 32⟩
/-- `CALVE_GROUPS`, R463 (Table 16-11). -/
def R.CALVE_GROUPS : Nat := 0x4400000 + 0x230
def F.CALVE_GROUPS_COUNT : Fld := ⟨0, 32⟩
/-- `ACC_PLAN`, R463 (Table 16-11). -/
def R.ACC_PLAN : Nat := 0x4400000 + 0x300
def F.ACC_PLAN_ADDR : Fld := ⟨5, 39⟩
/-- `ACC_N`, R463 (Table 16-11). -/
def R.ACC_N : Nat := 0x4400000 + 0x308
def F.ACC_N_N : Fld := ⟨0, 16⟩
/-- `ACC_STATUS`, R463 (Table 16-11). -/
def R.ACC_STATUS : Nat := 0x4400000 + 0x310
def F.ACC_STATUS_STATE : Fld := ⟨0, 2⟩
def F.ACC_STATUS_STATUS : Fld := ⟨8, 8⟩
def F.ACC_STATUS_ENTRY : Fld := ⟨16, 16⟩
/-- `ACC_BYTES`, R463 (Table 16-11). -/
def R.ACC_BYTES : Nat := 0x4400000 + 0x318
def F.ACC_BYTES_COUNT : Fld := ⟨0, 64⟩
/-- `MIR_ENT_SRC`, R463 (Table 16-11). -/
def R.MIR_ENT_SRC (n : Nat) : Nat := 0x4400000 + 0x1000 + 16 * n
def F.MIR_ENT_SRC_SRC_LA : Fld := ⟨0, 44⟩
/-- `MIR_ENT_BYTES`, R463 (Table 16-11). -/
def R.MIR_ENT_BYTES (n : Nat) : Nat := 0x4400000 + 0x1008 + 16 * n
def F.MIR_ENT_BYTES_BYTES : Fld := ⟨0, 32⟩
/-- `MIR_ENT_DST`, R463 (Table 16-11). -/
def R.MIR_ENT_DST (n : Nat) : Nat := 0x4400000 + 0x100C + 16 * n
def F.MIR_ENT_DST_DST_OFF : Fld := ⟨0, 32⟩
/-- `CALVE_FENCE`, R463 (Table 16-11). -/
def R.CALVE_FENCE (n : Nat) : Nat := 0x4400000 + 0x2000 + 4 * n
def F.CALVE_FENCE_DEV : Fld := ⟨0, 15⟩
def F.CALVE_FENCE_VALID : Fld := ⟨15, 1⟩

/-- The registers of Table 16-11. -/
def tab_16_11 : List RegRow := [
  ⟨0x0, 4, 1, 0, [⟨F.FIRN_CTL_EN, .rw, 0⟩, ⟨F.FIRN_CTL_EXPERT, .rw, 0⟩, ⟨F.FIRN_CTL_GATE, .rw, 0⟩, ⟨F.FIRN_CTL_REPLAY, .rw, 0⟩]⟩,
  ⟨0x8, 8, 1, 0, [⟨F.FIRN_BASE_ADDR, .rw, 0⟩]⟩,
  ⟨0x10, 4, 1, 0, [⟨F.FIRN_CFG_DEPTH_LOG2, .rw, 10⟩, ⟨F.FIRN_CFG_RANK, .rw, 0⟩]⟩,
  ⟨0x18, 4, 1, 0, [⟨F.FIRN_GEN_GEN, .rw, 0⟩]⟩,
  ⟨0x20, 8, 1, 0, [⟨F.FIRN_SNAP_STEP, .rw, 0⟩, ⟨F.FIRN_SNAP_VALID, .rw, 0⟩]⟩,
  ⟨0x28, 4, 1, 0, [⟨F.FIRN_COMMIT_STEP, .rw, 0⟩]⟩,
  ⟨0x30, 4, 1, 0, [⟨F.FIRN_REPLAY_TO, .rw, 0⟩]⟩,
  ⟨0x38, 4, 1, 0, [⟨F.FIRN_STATUS_DIVERGED, .w1c, 0⟩, ⟨F.FIRN_STATUS_SEED_DIFF, .w1c, 0⟩, ⟨F.FIRN_STATUS_HORIZON, .w1c, 0⟩, ⟨F.FIRN_STATUS_NO_RECORD, .w1c, 0⟩]⟩,
  ⟨0x3C, 4, 1, 0, [⟨F.FIRN_DIV_STEP_STEP, .ro, 0⟩]⟩,
  ⟨0x40, 4, 1, 0, [⟨F.FIRN_LAST_STEP, .ro, 0⟩]⟩,
  ⟨0x44, 4, 1, 0, [⟨F.FIRN_VERIFIED_COUNT, .rc, 0⟩]⟩,
  ⟨0x48, 4, 1, 0, [⟨F.FIRN_UNVERIFIED_COUNT, .rc, 0⟩]⟩,
  ⟨0x100, 4, 1, 0, [⟨F.MIR_CTL_PAIR, .wo, 0⟩, ⟨F.MIR_CTL_UNPAIR, .wo, 0⟩]⟩,
  ⟨0x108, 4, 1, 0, [⟨F.MIR_PEER_DEV, .rw, 0⟩]⟩,
  ⟨0x110, 8, 1, 0, [⟨F.MIR_IN_BASE_ADDR, .rw, 0⟩]⟩,
  ⟨0x118, 8, 1, 0, [⟨F.MIR_PEER_BASE_ADDR, .rw, 0⟩]⟩,
  ⟨0x120, 4, 1, 0, [⟨F.MIR_CFG_BANK_2M, .rw, 1⟩]⟩,
  ⟨0x128, 4, 1, 0, [⟨F.MIR_STATUS_STATE, .ro, 0⟩, ⟨F.MIR_STATUS_SHARED_FEED, .ro, 0⟩, ⟨F.MIR_STATUS_OWN_FEED, .ro, 0⟩, ⟨F.MIR_STATUS_PEER_FEED, .ro, 0⟩, ⟨F.MIR_STATUS_STATUS, .ro, 0⟩]⟩,
  ⟨0x130, 8, 1, 0, [⟨F.MIR_BANK_STEP, .ro, 4294967295⟩, ⟨F.MIR_BANK_BANK, .ro, 0⟩]⟩,
  ⟨0x200, 8, 1, 0, [⟨F.REC_CMD_OP, .wo, 0⟩, ⟨F.REC_CMD_SNAP, .wo, 0⟩, ⟨F.REC_CMD_DEV, .wo, 0⟩, ⟨F.REC_CMD_SOURCE, .wo, 0⟩]⟩,
  ⟨0x208, 4, 1, 0, [⟨F.REC_STATE_STATE, .ro, 0⟩, ⟨F.REC_STATE_RESTART, .ro, 0⟩, ⟨F.REC_STATE_PEND, .ro, 0⟩, ⟨F.REC_STATE_BUSY, .ro, 0⟩, ⟨F.REC_STATE_STATUS, .ro, 0⟩]⟩,
  ⟨0x210, 4, 4, 4, [⟨F.REC_PEND_DEV, .ro, 0⟩, ⟨F.REC_PEND_VALID, .ro, 0⟩]⟩,
  ⟨0x220, 4, 1, 0, [⟨F.REC_SPARE_SPARE, .ro, 0⟩, ⟨F.REC_SPARE_SOURCE, .ro, 0⟩]⟩,
  ⟨0x228, 4, 1, 0, [⟨F.CALVE_FENCED_COUNT, .rc, 0⟩]⟩,
  ⟨0x230, 4, 1, 0, [⟨F.CALVE_GROUPS_COUNT, .ro, 0⟩]⟩,
  ⟨0x300, 8, 1, 0, [⟨F.ACC_PLAN_ADDR, .rw, 0⟩]⟩,
  ⟨0x308, 4, 1, 0, [⟨F.ACC_N_N, .rw, 0⟩]⟩,
  ⟨0x310, 4, 1, 0, [⟨F.ACC_STATUS_STATE, .ro, 0⟩, ⟨F.ACC_STATUS_STATUS, .ro, 0⟩, ⟨F.ACC_STATUS_ENTRY, .ro, 0⟩]⟩,
  ⟨0x318, 8, 1, 0, [⟨F.ACC_BYTES_COUNT, .ro, 0⟩]⟩,
  ⟨0x1000, 8, 256, 16, [⟨F.MIR_ENT_SRC_SRC_LA, .rw, 0⟩]⟩,
  ⟨0x1008, 4, 256, 16, [⟨F.MIR_ENT_BYTES_BYTES, .rw, 0⟩]⟩,
  ⟨0x100C, 4, 256, 16, [⟨F.MIR_ENT_DST_DST_OFF, .rw, 0⟩]⟩,
  ⟨0x2000, 4, 64, 4, [⟨F.CALVE_FENCE_DEV, .ro, 0⟩, ⟨F.CALVE_FENCE_VALID, .ro, 0⟩]⟩]

/-- `SEC_STATUS`, R483 (Table 17-7). -/
def R.SEC_STATUS : Nat := 0x6000000 + 0x0
def F.SEC_STATUS_SLOT : Fld := ⟨0, 1⟩
def F.SEC_STATUS_FALLBACK : Fld := ⟨1, 1⟩
def F.SEC_STATUS_RR_NEW : Fld := ⟨2, 1⟩
def F.SEC_STATUS_RR_TAMPER : Fld := ⟨3, 1⟩
def F.SEC_STATUS_TAP_OPEN : Fld := ⟨4, 1⟩
def F.SEC_STATUS_SVN : Fld := ⟨8, 8⟩
def F.SEC_STATUS_MIN_SVN : Fld := ⟨16, 8⟩
/-- `SEC_CTL`, R483 (Table 17-7). -/
def R.SEC_CTL : Nat := 0x6000000 + 0x8
def F.SEC_CTL_SCRUB : Fld := ⟨0, 1⟩
def F.SEC_CTL_COMMIT_SVN : Fld := ⟨1, 1⟩
/-- `SEC_MEAS0`, R483 (Table 17-7). -/
def R.SEC_MEAS0 (n : Nat) : Nat := 0x6000000 + 0x100 + 64 * n
def F.SEC_MEAS0_DIGEST : Fld := ⟨0, 64⟩
/-- `SEC_MEAS1`, R483 (Table 17-7). -/
def R.SEC_MEAS1 (n : Nat) : Nat := 0x6000000 + 0x108 + 64 * n
def F.SEC_MEAS1_DIGEST : Fld := ⟨0, 64⟩
/-- `SEC_MEAS2`, R483 (Table 17-7). -/
def R.SEC_MEAS2 (n : Nat) : Nat := 0x6000000 + 0x110 + 64 * n
def F.SEC_MEAS2_DIGEST : Fld := ⟨0, 64⟩
/-- `SEC_MEAS3`, R483 (Table 17-7). -/
def R.SEC_MEAS3 (n : Nat) : Nat := 0x6000000 + 0x118 + 64 * n
def F.SEC_MEAS3_DIGEST : Fld := ⟨0, 64⟩
/-- `SEC_MEAS4`, R483 (Table 17-7). -/
def R.SEC_MEAS4 (n : Nat) : Nat := 0x6000000 + 0x120 + 64 * n
def F.SEC_MEAS4_DIGEST : Fld := ⟨0, 64⟩
/-- `SEC_MEAS5`, R483 (Table 17-7). -/
def R.SEC_MEAS5 (n : Nat) : Nat := 0x6000000 + 0x128 + 64 * n
def F.SEC_MEAS5_DIGEST : Fld := ⟨0, 64⟩
/-- `SEC_MEAS6`, R483 (Table 17-7). -/
def R.SEC_MEAS6 (n : Nat) : Nat := 0x6000000 + 0x130 + 64 * n
def F.SEC_MEAS6_DIGEST : Fld := ⟨0, 64⟩
/-- `SEC_MEAS7`, R483 (Table 17-7). -/
def R.SEC_MEAS7 (n : Nat) : Nat := 0x6000000 + 0x138 + 64 * n
def F.SEC_MEAS7_DIGEST : Fld := ⟨0, 64⟩
/-- `MGMT_ALERT`, R483 (Table 17-7). -/
def R.MGMT_ALERT : Nat := 0x6000000 + 0x1000
def F.MGMT_ALERT_EVENTS : Fld := ⟨0, 14⟩
/-- `MGMT_ALERT_EN`, R483 (Table 17-7). -/
def R.MGMT_ALERT_EN : Nat := 0x6000000 + 0x1008
def F.MGMT_ALERT_EN_EN : Fld := ⟨0, 14⟩
/-- `MGMT_EID`, R483 (Table 17-7). -/
def R.MGMT_EID : Nat := 0x6000000 + 0x1010
def F.MGMT_EID_I3C : Fld := ⟨0, 8⟩
def F.MGMT_EID_PCIE : Fld := ⟨8, 8⟩
/-- `MGMT_UPD`, R483 (Table 17-7). -/
def R.MGMT_UPD : Nat := 0x6000000 + 0x1018
def F.MGMT_UPD_STATE : Fld := ⟨0, 2⟩
def F.MGMT_UPD_AGENT : Fld := ⟨2, 1⟩

/-- The registers of Table 17-7. -/
def tab_17_7 : List RegRow := [
  ⟨0x0, 4, 1, 0, [⟨F.SEC_STATUS_SLOT, .ro, 0⟩, ⟨F.SEC_STATUS_FALLBACK, .ro, 0⟩, ⟨F.SEC_STATUS_RR_NEW, .ro, 0⟩, ⟨F.SEC_STATUS_RR_TAMPER, .ro, 0⟩, ⟨F.SEC_STATUS_TAP_OPEN, .ro, 0⟩, ⟨F.SEC_STATUS_SVN, .ro, 0⟩, ⟨F.SEC_STATUS_MIN_SVN, .ro, 0⟩]⟩,
  ⟨0x8, 4, 1, 0, [⟨F.SEC_CTL_SCRUB, .rw, 0⟩, ⟨F.SEC_CTL_COMMIT_SVN, .wo, 0⟩]⟩,
  ⟨0x100, 8, 6, 64, [⟨F.SEC_MEAS0_DIGEST, .ro, 0⟩]⟩,
  ⟨0x108, 8, 6, 64, [⟨F.SEC_MEAS1_DIGEST, .ro, 0⟩]⟩,
  ⟨0x110, 8, 6, 64, [⟨F.SEC_MEAS2_DIGEST, .ro, 0⟩]⟩,
  ⟨0x118, 8, 6, 64, [⟨F.SEC_MEAS3_DIGEST, .ro, 0⟩]⟩,
  ⟨0x120, 8, 6, 64, [⟨F.SEC_MEAS4_DIGEST, .ro, 0⟩]⟩,
  ⟨0x128, 8, 6, 64, [⟨F.SEC_MEAS5_DIGEST, .ro, 0⟩]⟩,
  ⟨0x130, 8, 6, 64, [⟨F.SEC_MEAS6_DIGEST, .ro, 0⟩]⟩,
  ⟨0x138, 8, 6, 64, [⟨F.SEC_MEAS7_DIGEST, .ro, 0⟩]⟩,
  ⟨0x1000, 4, 1, 0, [⟨F.MGMT_ALERT_EVENTS, .w1c, 0⟩]⟩,
  ⟨0x1008, 4, 1, 0, [⟨F.MGMT_ALERT_EN_EN, .rw, 16383⟩]⟩,
  ⟨0x1010, 4, 1, 0, [⟨F.MGMT_EID_I3C, .ro, 0⟩, ⟨F.MGMT_EID_PCIE, .ro, 0⟩]⟩,
  ⟨0x1018, 4, 1, 0, [⟨F.MGMT_UPD_STATE, .ro, 0⟩, ⟨F.MGMT_UPD_AGENT, .ro, 0⟩]⟩]

/-- `MOD_STRAP`, R490 (Table 18-4). -/
def R.MOD_STRAP : Nat := 0x6002000 + 0x0
def F.MOD_STRAP_FEED_ID : Fld := ⟨0, 4⟩
def F.MOD_STRAP_SLOT_ID : Fld := ⟨4, 6⟩
def F.MOD_STRAP_PWRBRK : Fld := ⟨16, 1⟩
def F.MOD_STRAP_REFCLK_LOST : Fld := ⟨17, 1⟩

/-- The registers of Table 18-4. -/
def tab_18_4 : List RegRow := [
  ⟨0x0, 4, 1, 0, [⟨F.MOD_STRAP_FEED_ID, .ro, 0⟩, ⟨F.MOD_STRAP_SLOT_ID, .ro, 0⟩, ⟨F.MOD_STRAP_PWRBRK, .ro, 0⟩, ⟨F.MOD_STRAP_REFCLK_LOST, .w1c, 0⟩]⟩]

/-- `EVT`, R43 (R43). -/
def R.EVT (n : Nat) : Nat := 0x1000 + 4 * n
def F.EVT_COUNT : Fld := ⟨0, 32⟩

/-- The registers of R43. -/
def tab_R43 : List RegRow := [
  ⟨0x1000, 4, 256, 4, [⟨F.EVT_COUNT, .rw, 0⟩]⟩]

/-- Registers of block G (Table 2-3). -/
def blkG : RegBlock := ⟨0, 1, 0, 0x2000, tab_0_1 ++ tab_2_4 ++ tab_2_5 ++ tab_2_15 ++ tab_R43⟩
/-- Registers of block Q (Table 2-3). -/
def blkQ : RegBlock := ⟨0x100000, 64, 0x1000, 0x1000, tab_2_6⟩
/-- Registers of block LEDG (Table 2-3). -/
def blkLEDG : RegBlock := ⟨0x1000000, 1, 0, 0x1000000, tab_14_7 ++ tab_15_9⟩
/-- Registers of block EXD (Table 2-3). -/
def blkEXD : RegBlock := ⟨0x2000000, 1, 0, 0x1000000, tab_10_13⟩
/-- Registers of block ABL (Table 2-3). -/
def blkABL : RegBlock := ⟨0x3000000, 16, 0x100000, 0x100000, tab_11_4 ++ tab_11_5 ++ tab_12_7⟩
/-- Registers of block REC (Table 2-3). -/
def blkREC : RegBlock := ⟨0x4400000, 1, 0, 0x100000, tab_16_11⟩
/-- Registers of block MOS (Table 2-3). -/
def blkMOS : RegBlock := ⟨0x4000000, 1, 0, 0x1000000, tab_13_15 ++ tab_13_16 ++ tab_13_17⟩
/-- Registers of block MOR (Table 2-3). -/
def blkMOR : RegBlock := ⟨0x5000000, 1, 0, 0x1000000, tab_10_14⟩
/-- Registers of block SEC (Table 2-3). -/
def blkSEC : RegBlock := ⟨0x6000000, 1, 0, 0x2000, tab_17_7⟩
/-- Registers of block MODS (Table 2-3). -/
def blkMODS : RegBlock := ⟨0x6002000, 1, 0, 0x1000, tab_18_4⟩
/-- Registers of block D (Table 2-3). -/
def blkD : RegBlock := ⟨0x7000000, 32, 0x80000, 0x80000, tab_3_15_D⟩
/-- Registers of block T (Table 2-3). -/
def blkT : RegBlock := ⟨0x8000000, 2048, 0x10000, 0x10000, tab_3_2 ++ tab_3_5 ++ tab_3_7 ++ tab_3_10 ++ tab_3_15_T ++ tab_4_16 ++ tab_6_9 ++ tab_6_10 ++ tab_7_4 ++ tab_8_9 ++ tab_9_6⟩
/-! ### The Expert Directory's entries (R275, Table 10-9) -/

/-- Expert `e`'s directory entry: its routing words, its resting copy and state, its virtual address. -/
def R.DIR_ROUTE (e : Nat) : Nat := 0x2100000 + 32 * e
def R.DIR_REPL (e : Nat) : Nat := 0x2100008 + 32 * e
def R.DIR_LOCAL (e : Nat) : Nat := 0x2100010 + 32 * e
def R.DIR_VA (e : Nat) : Nat := 0x2100018 + 32 * e
def F.DIR_HOME : Fld := ⟨0, 15⟩
def F.DIR_NREPL : Fld := ⟨16, 8⟩
def F.DIR_VALID : Fld := ⟨24, 1⟩
def F.DIR_REGION : Fld := ⟨32, 16⟩
def F.DIR_PAGES : Fld := ⟨48, 16⟩
def F.DIR_REPL0 : Fld := ⟨0, 15⟩
def F.DIR_REPL1 : Fld := ⟨16, 15⟩
def F.DIR_REPL2 : Fld := ⟨32, 15⟩
def F.DIR_REPL3 : Fld := ⟨48, 15⟩
def F.DIR_MOR_LA : Fld := ⟨0, 44⟩
def F.DIR_PINNED : Fld := ⟨48, 1⟩
def F.DIR_REST_RO : Fld := ⟨49, 1⟩
def F.DIR_RES : Fld := ⟨56, 8⟩
def F.DIR_VA : Fld := ⟨0, 48⟩

/-- The Expert Directory's entries. -/
def blkDIR : RegBlock := ⟨0x2100000, 65536, 32, 32, [
  ⟨0x00, 8, 1, 0, [⟨F.DIR_HOME, .rw, 0⟩, ⟨F.DIR_NREPL, .rw, 0⟩, ⟨F.DIR_VALID, .rw, 0⟩, ⟨F.DIR_REGION, .rw, 0⟩, ⟨F.DIR_PAGES, .rw, 0⟩]⟩,
  ⟨0x08, 8, 1, 0, [⟨F.DIR_REPL0, .rw, 0⟩, ⟨F.DIR_REPL1, .rw, 0⟩, ⟨F.DIR_REPL2, .rw, 0⟩, ⟨F.DIR_REPL3, .rw, 0⟩]⟩,
  ⟨0x10, 8, 1, 0, [⟨F.DIR_MOR_LA, .rw, 0⟩, ⟨F.DIR_PINNED, .rw, 0⟩, ⟨F.DIR_REST_RO, .rw, 0⟩, ⟨F.DIR_RES, .ro, 0⟩]⟩,
  ⟨0x18, 8, 1, 0, [⟨F.DIR_VA, .rw, 0⟩]⟩]⟩

/-! ### Region descriptors (R315, Table 12-1) -/

/-- 64-bit word `k` of the descriptor of region entry `n` of stack `st`. -/
def R.RGND (st n k : Nat) : Nat := 0x3040000 + 0x100000 * st + 64 * n + 8 * k
def F.WORD64 : Fld := ⟨0, 64⟩

/-- The region descriptors of a stack's Ablation Unit. -/
def blkRGND : RegBlock := ⟨0x3040000, 16, 0x100000, 0x40000, [⟨0, 8, 32768, 8, [⟨F.WORD64, .rw, 0⟩]⟩]⟩

/-! ### Group descriptors (R363, Table 13-9) -/

/-- 64-bit word `k` of group `g`'s descriptor. -/
def R.GRP (g k : Nat) : Nat := 0x4100000 + 64 * g + 8 * k
def F.GRP_STATE : Fld := ⟨0, 8⟩
def F.GRP_LAST_STATUS : Fld := ⟨8, 8⟩
def F.GRP_SHARED_FEED : Fld := ⟨16, 1⟩
def F.GRP_SEQ : Fld := ⟨32, 32⟩

/-- The group descriptors. -/
def blkGRP : RegBlock := ⟨0x4100000, 4096, 64, 64, [⟨0, 8, 6, 8, [⟨F.WORD64, .rw, 0⟩]⟩,
  ⟨0x30, 8, 1, 0, [⟨F.GRP_STATE, .ro, 0⟩, ⟨F.GRP_LAST_STATUS, .ro, 0⟩, ⟨F.GRP_SHARED_FEED, .ro, 0⟩, ⟨F.GRP_SEQ, .ro, 0⟩]⟩]⟩

/-! ### The MSI-X table and pending bits (R35, R37; their format is PCI's, log entry 13) -/

def R.MSIX_ADDR (v : Nat) : Nat := 0x140000 + 16 * v
def R.MSIX_DATA (v : Nat) : Nat := 0x140008 + 16 * v
def R.MSIX_CTL (v : Nat) : Nat := 0x14000C + 16 * v
def R.MSIX_PBA (k : Nat) : Nat := 0x148000 + 8 * k
def F.MSIX_DATA : Fld := ⟨0, 32⟩
def F.MSIX_CTL_MASK : Fld := ⟨0, 1⟩

/-- The MSI-X table. -/
def blkMSIX : RegBlock := ⟨0x140000, 1, 0, 0x8000, [⟨0, 8, 2048, 16, [⟨F.WORD64, .rw, 0⟩]⟩,
  ⟨8, 4, 2048, 16, [⟨F.MSIX_DATA, .rw, 0⟩]⟩, ⟨12, 4, 2048, 16, [⟨F.MSIX_CTL_MASK, .rw, 1⟩]⟩]⟩

/-- The MSI-X pending bit array. -/
def blkPBA : RegBlock := ⟨0x148000, 1, 0, 0x100, [⟨0, 8, 32, 8, [⟨F.WORD64, .ro, 0⟩]⟩]⟩


/-- Every register block of BAR0 (R37). `blkREC` lies inside the range of `blkMOS` and comes first. -/
def blocks : List RegBlock := [blkDIR, blkRGND, blkGRP, blkMSIX, blkPBA, blkG, blkQ, blkLEDG, blkEXD, blkABL, blkREC, blkMOS, blkMOR, blkSEC, blkMODS, blkD, blkT]

end Sys2Proof.Machine
end

