-- ==== Sys2Proof/Machine/Sparse.lean ====
section
/-! DEFINITION. Sparse data: a list of (key, value) pairs in one canonical form, keys strictly rising and no entry equal to
what an unlisted key reads as. Memory, register files and tables of parts are held so, and equal contents are equal data. -/

namespace Sys2Proof.Machine

/-- Sparse data by natural-number key. -/
abbrev Map (α : Type) := List (Nat × α)

/-- The value at a key; an unlisted key reads as `d k`. -/
def mget {α : Type} (d : Nat → α) : Map α → Nat → α
  | [], k => d k
  | (k', v) :: m, k => if k = k' then v else mget d m k

/-- The map without its entry for a key. -/
def mdel {α : Type} (m : Map α) (k : Nat) : Map α :=
  m.filter (fun e => e.1 != k)

/-- The map with an entry put at its place in rising key order. -/
def mins {α : Type} : Map α → Nat → α → Map α
  | [], k, v => [(k, v)]
  | (k', v') :: m, k, v =>
    if k < k' then (k, v) :: (k', v') :: m
    else if k = k' then (k, v) :: m
    else (k', v') :: mins m k v

/-- Write a value at a key; writing what the unlisted key reads as removes the entry. -/
def mset {α : Type} [DecidableEq α] (d : Nat → α) (m : Map α) (k : Nat) (v : α) : Map α :=
  if v = d k then mdel m k else mins m k v

/-- Change the value at a key. -/
def mmod {α : Type} [DecidableEq α] (d : Nat → α) (m : Map α) (k : Nat) (f : α → α) : Map α :=
  mset d m k (f (mget d m k))

/-- Write many values. -/
def msets {α : Type} [DecidableEq α] (d : Nat → α) (m : Map α) (l : List (Nat × α)) : Map α :=
  l.foldl (fun m e => mset d m e.1 e.2) m

/-- Every listed key is above a bound, and the rest rises from it. -/
def mrising {α : Type} : Nat → Map α → Bool
  | _, [] => true
  | b, (k, _) :: m => decide (b ≤ k) && mrising (k + 1) m

/-- The canonical form: keys strictly rising, no entry equal to the unlisted value. -/
def mwf {α : Type} [DecidableEq α] (d : Nat → α) (m : Map α) : Bool :=
  mrising 0 m && m.all (fun e => !decide (e.2 = d e.1))

/-- Drop every entry whose key lies in `[lo, hi)`: those keys then read as unlisted. -/
def mclear {α : Type} (m : Map α) (lo hi : Nat) : Map α :=
  m.filter (fun e => decide (e.1 < lo) || decide (hi ≤ e.1))

/-- Lookup in a map of optional parts: none where the key is unlisted. -/
def mfind {α : Type} (m : Map α) (k : Nat) : Option α :=
  (m.find? (fun e => e.1 == k)).map (·.2)

end Sys2Proof.Machine
end

