-- ==== Sys2Proof/Machine/Types.lean ====
section
/-! DEFINITION. The parts of the state: what a tile, a stream slot, an engine queue, a host queue and the other units hold
beside their registers. Plain data only. -/

namespace Sys2Proof.Machine

/-- State of one error-protection codeword (R75, R76). -/
inductive EccMark where
  | good | correctable | uncorrectable | poisoned
  deriving DecidableEq, Repr

/-- Where a request goes: another tile of this module, or another module. -/
inductive Dest where
  | tile (t : TileId)
  | dev (d : DevId)
  deriving DecidableEq, Repr

/-- What a memory request does, with the local addresses it touches at its destination. -/
inductive MemOp where
  | write (cells : List (Nat × Byte))
  | read (addrs : List Nat)
  | aadd (addr : Nat) (wide : Bool) (v : Word) (ret : Bool)
  | post (tile : TileId) (sem : SemIdx) (n : Nat)
  deriving DecidableEq, Repr

/-- The unit that issued a request and waits for its reply; `slotPost`: a stream, by its slot and sequence number; `abandoned`:
nobody waits any more, and the number is that of an X-core's write on which a retired post still waits (R121); `acked`: a write of
an engine, whose answer came with the engine's run. -/
inductive Issuer where
  | xwrite (t : TileId) (pc : Nat) (seq : Nat)
  | xload (t : TileId) (part : Nat)
  | fload (t : TileId)
  | fwrite (t : TileId)
  | xfer (t : TileId) (id : Nat)
  | slotPost (t : TileId) (sl : SlotIdx) (seq : Nat)
  | fill (entry : Nat)
  | mirror (q : QIdx) (seq : W32)
  | firn (q : QIdx) (seq : W32)
  | abandoned (t : TileId) (seq : Option Nat)
  | acked (t : TileId)
  | collWrite
  deriving DecidableEq, Repr

/-- Where a request stands: on its way, dropped on the way (only a timeout ends it, R423), refused with RETRY_LATER and to
be resent (R425), or its reply on the way back. -/
inductive TxnPhase where
  | request
  | lost
  | refused
  | reply (st : Status) (data : List Byte)
  deriving DecidableEq, Repr

/-- A request between units of the module, or to another module. -/
structure Txn where
  iss   : Issuer
  dst   : Dest
  va    : Nat
  op    : MemOp
  phase : TxnPhase
  deriving DecidableEq, Repr

/-- A cached translation (R96, R98): the virtual page (of 2 MiB units), whether it is a 1 GiB page, and its leaf entry. -/
structure TlbEntry where
  vpn   : Nat
  big   : Bool
  entry : Nat
  deriving DecidableEq, Repr

/-- A unit that acquires a semaphore (R81). -/
inductive AcqWho where
  | xcore
  | slot (sl : SlotIdx)
  | fprog
  | ce
  | gme
  deriving DecidableEq, Repr

/-- A pending acquire: who waits, and for how many. -/
structure Waiter where
  who : AcqWho
  n   : Nat
  deriving DecidableEq, Repr

/-- The semaphore a post names. -/
inductive PostTarget where
  | own (sem : SemIdx)
  | remote (dst : Dest) (tile : TileId) (sem : SemIdx)
  deriving DecidableEq, Repr

/-- A post that is held until its release condition is met (R101, Table 4-11). -/
structure HeldPost where
  target : PostTarget
  n      : Nat
  pc     : Nat
  seq    : Nat
  deriving DecidableEq, Repr

/-- What a blocked X-core instruction waits for (Table 4-11). -/
inductive XWait where
  | sacq (n : SemIdx) (granted : Bool)
  | wwait (w : WinIdx) (thr : Nat)
  | reopen (w : WinIdx)
  | fence
  | fenceE
  | finish
  | ewaitCe (n : Nat)
  | ewaitGme (n : Nat)
  | swait (sl : SlotIdx) (thr : Nat)
  | post (h : HeldPost)
  deriving DecidableEq, Repr

/-- Where a load puts its bytes. -/
inductive LoadDst where
  | scalar (rd : SReg) (size : Nat) (signed : Bool)
  | vec (vd : VReg) (esz : Nat) (lanes : BitVec 64)
  | bcast (vd : VReg) (lanes : BitVec 64)
  | desc (da : DReg)
  deriving DecidableEq, Repr

/-- One line of a load: the bytes of the access it carries, and their values once they have come. -/
structure LoadPart where
  idx  : List Nat
  data : Option (List Byte)
  deriving DecidableEq, Repr

/-- A load that waits for another tile or module. -/
structure PendLoad where
  dst   : LoadDst
  len   : Nat
  parts : List LoadPart
  deriving DecidableEq, Repr

/-- A fault on its way to the X-core (Table 4-15). -/
structure XFault where
  source : Nat
  status : Status
  pc     : Nat
  va     : Nat
  deriving DecidableEq, Repr

/-- A COLL or UPD.POST instruction that has not completed (R115, R116, R320): its number, whether it is COLL, its PC, the link
pair whose FULL its unit posts, and whether its unit has accepted it. -/
structure UnitOut where
  id     : Nat
  isColl : Bool
  pc     : Nat
  link   : Option PairIdx
  taken  : Bool
  deriving DecidableEq, Repr

/-- The X-core beside its control registers (R103, Table 4-1). `seq` numbers its memory accesses; `failed` is the number of the
oldest posted write or post of the launch that failed and so never takes effect. -/
structure XCore where
  s       : Map Word
  v       : Map VWord
  p       : Map (BitVec 64)
  d       : Map DWord
  wait    : Option XWait
  load    : Option PendLoad
  held    : List HeldPost
  seq     : Nat
  skipBrk : Bool
  faults  : List XFault
  launch  : Option (QIdx × W32)
  units   : List UnitOut
  hint    : Option (BitVec 2)
  failed  : Option Nat
  deriving DecidableEq, Repr

/-- What the F-core program waits for. -/
inductive FWait where
  | sem (n : SemIdx) (granted : Bool)
  | slot (sl : SlotIdx)
  | join (sl : SlotIdx)
  | opening (sl : SlotIdx)
  | finish
  | sopen (sl : SlotIdx) (va : Nat)
  deriving DecidableEq, Repr

/-- The F-core program (R153). `undef`: a register of the F-core was written while an instruction of the program was under way, so
the result of that instruction is undefined (Table 4-18). -/
structure FCore where
  g    : Map Word
  wait : Option FWait
  load : Option (GReg × List LoadPart)
  store : Bool
  undef : Bool
  deriving DecidableEq, Repr

/-- What an engine queue entry holds: an instruction (Table 4-9, Table 10-3), or a prediction command (R235). -/
inductive EngOp where
  | ceMm | ceGrouped
  | gather | segred | merge | scatter
  | topk | bucket | cut | place | join
  | pred
  deriving DecidableEq, Repr

/-- The metadata of a sparse A: for each row its entries (column, stored value number); for each block of 16 rows its count
eb and whether its pointers decrease (R234); the addresses read. -/
structure SpMeta where
  rows : List (List (Nat × Nat))
  eb   : List Nat
  bad  : List Bool
  vas  : List Nat
  deriving DecidableEq, Repr

/-- What an engine has formed from its inputs and not yet written (R115): a sparse A's metadata, the bytes with the tile that
writes each, the bytes of the destination that are undefined, and all addresses of the destination. -/
structure EngHeld where
  sp    : Option SpMeta
  cells : List (TileId × Nat × Byte)
  undef : List Nat
  dest  : List Nat
  deriving DecidableEq, Repr

/-- How far a queued engine instruction has come: not begun, waiting for a link acquire, its input link held, both held, run
with a status, or its remaining grouped entries deferred on a demand fetch (R272). -/
inductive EngPhase where
  | queued
  | waitIn
  | haveIn
  | waitOut
  | ready
  | deferred (entries : List Nat)
  | done (st : Status) (va : Nat)
  deriving DecidableEq, Repr

/-- An outstanding CE or GME instruction: what it copied at issue (R114), how far it has come, the three templates that a
CE.GROUPED read when it was accepted (R271), and the C descriptors of the grouped entries it has run. A prediction command holds
its line in `s0` and, once taken, its 64 bytes in `da`. `held`: what it has formed once its reads are done. `undef`: a register of
the unit was written while it ran, so its result is undefined (Table 4-18). `no`: its place in the X-core's order of issue. -/
structure EngCmd where
  op    : EngOp
  da    : DWord
  db    : DWord
  dc    : DWord
  s0    : Word
  s1    : Word
  imm   : EngImm
  pc    : Nat
  phase : EngPhase
  tmpl  : Option (DWord × DWord × DWord)
  outs  : List DWord
  held  : Option EngHeld
  undef : Bool
  no    : Nat
  deriving DecidableEq, Repr

/-- A stream buffer between its first transfer and its end posts (R168, R172, R173): its number, transfers without a reply,
whether all are issued, whether it has landed, a held fault, and what its lines brought for the ring. The ring's own bytes are
undefined until the end posts (R87, R174): they hold free values till then. -/
structure SBuf where
  no     : Nat
  left   : Nat
  issued : Bool
  landed : Bool
  held   : Option (Status × Nat)
  data   : List (Nat × Byte)
  deriving DecidableEq, Repr

/-- A stream slot beside its registers: whether a descriptor was accepted, the descriptors it copied (R163), the descriptors and
length of its index stream as they stood then, the rows or indices it carries, the buffer, row and line it issues next, how many
of the buffer's acquires are granted, the semaphore it waits on and whether that is the index pair's, index buffers acquired and
indices read, its buffers in flight, the credits a cancel still has to return, and whether it ends once its transfers have drained
(R175). -/
structure Slot where
  acc      : Bool
  sdesc    : DWord
  tdesc    : DWord
  idxS     : DWord
  idxT     : DWord
  idxLen   : Nat
  len      : Nat
  buf      : Nat
  row      : Nat
  line     : Nat
  stage    : Nat
  waiting  : Option SemIdx
  wantIdx  : Bool
  idxHave  : Nat
  idxRead  : Nat
  bufs     : List SBuf
  credits  : Nat
  ending   : Bool
  deriving DecidableEq, Repr

/-- A transfer in flight (R167): its slot and buffer, whether it reads memory, the addresses it touches there with the ring
offset of each byte, the device that holds them, and the answer once it is known. -/
structure Xfer where
  slot  : SlotIdx
  buf   : Nat
  reads : Bool
  va    : Nat
  dev   : Nat
  cells : List (Nat × Nat)
  data  : List Byte
  reply : Option (Status × List Byte)
  sent  : Bool
  deriving DecidableEq, Repr

/-- One tile beside its registers. `late` holds transfers that timed out and may still be answered (R169); `fixed` is
`EXD_CTL.FIXED_ORDER` as sampled at launch start (R262). -/
structure Tile where
  x       : XCore
  f       : FCore
  slots   : Map Slot
  xfers   : Map Xfer
  late    : Map Xfer
  xferSeq : Nat
  rrNext  : Nat
  ce      : List EngCmd
  gme     : List EngCmd
  tlb     : List TlbEntry
  waiters : Map (List Waiter)
  reopen  : Map Nat
  fixed   : Bool
  deriving DecidableEq, Repr

def XCore.reset : XCore :=
  ⟨[], [], [], [], none, none, [], 0, false, [], none, [], none, none⟩

def FCore.reset : FCore := ⟨[], none, none, false, false⟩

def Slot.reset : Slot := ⟨false, 0, 0, 0, 0, 0, 0, 0, 0, 0, 0, none, false, 0, 0, [], 0, false⟩

/-- A tile after tile reset. -/
def Tile.reset : Tile :=
  ⟨XCore.reset, FCore.reset, [], [], [], 0, 0, [], [], [], [], [], false⟩

/-- The bypassed columns of one tile's cube (R198): column of half A and half B, none where it has no bypass. -/
structure Bypass where
  a : Option (BitVec 4)
  b : Option (BitVec 4)
  deriving DecidableEq, Repr

/-- The Repair Record in force (R473): disabled tiles in ascending order, bypassed columns by tile, the voltage table. -/
structure RepairRecord where
  disabled : List Nat
  bypass   : Map Bypass
  vtab     : W32
  deriving DecidableEq, Repr

/-- Where a command of a host queue stands. -/
inductive CmdPhase where
  /-- fetched, not yet eligible or offered -/
  | waiting
  /-- offered to the Snowpack ledger (R394) -/
  | candidate
  /-- admitted by the ledger, to start -/
  | admitted
  /-- running -/
  | running
  /-- ended, its record not yet written -/
  | ended
  deriving DecidableEq, Repr

/-- A fetched command of a host queue. `space` is the address space of its buffer; `refused` the status it was refused with at
fetch (R49, R57, R508); `badRef` the ring index of a bad buffer reference; `bitmap` the copy of a tile bitmap (R57); `status`
the first status that stops the queue (R34), with its detail and address; `skips` the completion detail of a command that ends
well; `step`, `epoch` those in force when it was dispatched; `tiles` the tiles of its set; `wait` its deferral timer in ticks;
`est`, `peak`, `used` its energy estimate, peak power (nJ and mW at the input) and used energy; `baseEst` the estimate without
its tag factor; `left` the parts of its own work that have not ended; `raced` the local addresses that it shares, unordered, with
something else while it runs (R31, R102; log entry 53). -/
structure Cmd where
  seq       : W32
  bytes     : List Byte
  space     : Nat
  phase     : CmdPhase
  refused   : Option Status
  badRef    : Option Nat
  bitmap    : List Byte
  status    : Option Status
  detail    : Nat
  faultAddr : Nat
  skips     : Nat
  stepMis   : Bool
  deferred  : Bool
  reserved  : Bool
  step      : W32
  epoch     : W32
  tiles     : List Nat
  wait      : Nat
  div       : Nat
  est       : Nat
  baseEst   : Nat
  peak      : Nat
  used      : Nat
  left      : Nat
  raced     : List Nat
  deriving DecidableEq, Repr

/-- A command as it stands when fetched. -/
def Cmd.fetched (seq : W32) (bytes : List Byte) (space : Nat) : Cmd :=
  ⟨seq, bytes, space, .waiting, none, none, [], none, 0, 0, 0, false, false, false, 0, 0, [], 0, 0, 0, 0, 0, 0, 0, []⟩

/-- Where a queue fetches next inside a command buffer: address, bytes left, space (R48). -/
structure Cursor where
  addr  : Nat
  left  : Nat
  space : Nat
  deriving DecidableEq, Repr

/-- A host queue beside its registers: the host's ring indices, the phase of the records it writes, where it fetches, its
commands that have not completed, the commands that ended with a code that stops the queue since the last RESUME, the ones
that count as resolved or aborted under R506, the SEQ of the last command fetched and whether a succession was broken (R50),
the step and routing epoch of its last STEP_BEGIN, whether fetching waits for a CHAIN or behind a refused command, and the
records the host has not released, as the mirror holds them (R65): slot, bytes, the vector raised. -/
structure HostQueue where
  sqTail  : Nat
  cqHead  : Nat
  phase   : Bool
  cursor  : Option Cursor
  cmds    : List Cmd
  stops   : List W32
  lost    : List W32
  lastSeq : Option W32
  broken  : Bool
  step    : W32
  epoch   : W32
  blocked : Bool
  recs    : List (Nat × List Byte × Option Nat)
  deriving DecidableEq, Repr

def HostQueue.reset : HostQueue := ⟨0, 0, true, none, [], [], [], none, false, 0, 0, false, []⟩

/-- The Expert Directory beside its registers and entries (R276, R281 to R286): the routing part of each entry in force, bytes
0x00 to 0x07 as the last commit took them; copies queued on demands, and those queued on prefetches and evictions, each in arrival
order (true for a write-back, false for a fetch; a victim's write-back stands before the fetch it makes room for); the running
copy; the slot each pool copy holds; demands held for want of a slot; demands held until an eviction ends; evictions held by
readers; when each expert's last read reference ended; and the status of the last failed fetch. -/
structure Exd where
  live      : Map Nat
  demands   : List (Bool × Nat)
  prefs     : List (Bool × Nat)
  job       : Option (Bool × Nat)
  slots     : Map Nat
  held      : List Nat
  after     : List Nat
  heldEvict : List Nat
  lastRef   : Map Nat
  refSeq    : Nat
  faults    : Map Status
  deriving DecidableEq, Repr

def Exd.reset : Exd := ⟨[], [], [], none, [], [], [], [], [], 0, []⟩

/-! ### Regions and Ablation Units -/

/-- An RGN.ACQ or RGN.REL on its way to its version entry, or an acquire held there (R304 to R308): the launch and the tile it
belongs to, region, epoch, link pair, PC, and its place in the X-core's order of issue. -/
structure RgnReq where
  acq    : Bool
  owner  : Option (QIdx × W32)
  tile   : TileId
  region : RegionId
  epoch  : W32
  link   : PairIdx
  pc     : Nat
  no     : Nat
  held   : Bool
  deriving DecidableEq, Repr

/-- Who issued an Ablation command: a command of a host queue, or an UPD.POST of a tile. -/
inductive AblOwner where
  | cmd (q : QIdx) (seq : W32)
  | tile (t : TileId) (id : Nat)
  deriving DecidableEq, Repr

/-- Where an Ablation command stands: sent to its stack, held at its version entry, WRITING there, running, or ended with a
status and the block it failed at. -/
inductive AblPhase where
  | sent
  | held
  | writing
  | running
  | done (st : Status) (block : Nat)
  deriving DecidableEq, Repr

/-- An Ablation command (R318, R322): its 64 bytes, its owner, and the inbox buffers it has consumed (none for a null one);
whether its channel's writer ended with a status (R325), whether the host has written its region's descriptor since it was
accepted, and whether its gradient is undefined (Table 12-8). -/
structure AblJob where
  cmd    : DWord
  owner  : AblOwner
  phase  : AblPhase
  grad   : List (Option (List Byte))
  lost   : Bool
  spoilt : Bool
  odd    : Bool
  deriving DecidableEq, Repr

/-! ### Fabric and collectives -/

/-- A packet sent on a port and not yet acknowledged: SEQ of its last group, how many of its groups are unacknowledged, whether its
data go with an uncorrectable error (R351), and the packet. -/
structure SentPkt where
  last   : Nat
  groups : Nat
  bad    : Bool
  pkt    : Packet
  deriving DecidableEq, Repr

/-- A Mosija port beside its registers (R348 to R350): SEQ of the next group it sends and of the next it expects, whether it
asks for a resend, what is unacknowledged, the credits of its six channels where they are not 1,024, the flits freed in its receive
buffers that no trailer has returned yet, the channels whose last header flit sent or received has room for a second header (R352),
the class it served last and, of each class, the input it served last (R349), and the retrains that have failed since it left UP. -/
structure Port where
  txSeq   : Nat
  rxSeq   : Nat
  nak     : Bool
  unacked : List SentPkt
  credits : Map Nat
  owed    : Map Nat
  halfTx  : List Nat
  halfRx  : List Nat
  turn    : Nat
  inTurn  : Map Nat
  tries   : Nat
  deriving DecidableEq, Repr

def Port.reset : Port := ⟨0, 0, false, [], [], [], [], [], 0, [], 0⟩

/-- Where a packet came in: the port, the channel, and the flits of its receive buffer that the packet still fills. -/
structure InBuf where
  port  : Nat
  vc    : Nat
  flits : Nat
  deriving DecidableEq, Repr

/-- A packet held at this module (R349, R359, R367): its fabric I/O die, where it came in (none: from this module), the port in
whose queue it waits (none: it waits for a port, or for its Collective Engine), whether its data have an uncorrectable error
(R351), and the packet, with the header of its next hop where it is in a queue. -/
structure HeldPkt where
  fio : Nat
  inp : Option InBuf
  out : Option Nat
  bad : Bool
  pkt : Packet
  deriving DecidableEq, Repr

/-- Who issued a segment. -/
inductive SegOwner where
  | cmd (q : QIdx) (seq : W32)
  | tile (t : TileId) (id : Nat)
  deriving DecidableEq, Repr

/-- A segment in flight (R366): its group, SEQ, label and kind, its owner, whether its contribution is null, its elements per
rank, the addresses or the descriptors of contribution and result, the inbox it feeds, its first element in the command's
whole, and the status it ended with. -/
structure Seg where
  group  : GroupId
  seq    : Nat
  label  : Nat
  kind   : Nat
  owner  : SegOwner
  null   : Bool
  elems  : Nat
  src    : Nat
  dst    : Nat
  da     : DWord
  dc     : DWord
  inbox  : Option Nat
  ended  : Option Status
  deriving DecidableEq, Repr

/-! ### Ledger, domains, recovery -/

/-- The Snowpack ledger beside its registers: the balance in nJ, counted silicon energy of the current millisecond in nJ, counted
input energy since cold reset in nJ below one register unit, ticks since the last divider change, the voltage request that is
outstanding and the newer target that waits, the attempts it has had, the divider to take when it is acknowledged, whether the
tag table is to be cleared, the budget registers as the current tick sees them, the launches that have completed since the last
tick (tag, used energy and estimate without tag factor, nJ), measured energy below one register unit, and the correction as
mirrored to the standby (R403); and the voltage of VDD_CORE in units of 5 mV, after a reset that of ÷4 in the Repair Record (R399;
log entry 44). -/
structure Ledger where
  bal     : Int
  silicon : Nat
  inRem   : Nat
  hold    : Nat
  volt    : Option Nat
  next    : Option Nat
  tries   : Nat
  goal    : Option Nat
  tagClr  : Bool
  budget  : Nat
  cap     : Nat
  reserve : Nat
  defer   : Nat
  done    : List (Nat × Nat × Nat)
  measRem : Nat
  recon   : Nat
  vdd     : Nat
  deriving DecidableEq, Repr

/-- The ledger after cold reset: the balance is the reset CAP of 1,000 J. -/
def Ledger.reset : Ledger := ⟨1000000000000, 0, 0, 100, none, none, 0, none, false, 0x1068, 0x3E8, 0x64, 0x32, [], 0, 0x1000, 160⟩

/-- A STEP_END under way (R439, R445): its command and step, whether it has a record, the stage (0 clears STEPb, 1 copies, 2
sets STEPb, 3 waits for the record to be durable), and the status its push ended with. -/
structure Push where
  q     : QIdx
  seq   : W32
  step  : W32
  log   : Bool
  stage : Nat
  st    : Status
  deriving DecidableEq, Repr

/-- The fill engine (R456): the plan entry it issues next, how many bytes of it are issued, and READs without a reply. -/
structure FillPos where
  entry : Nat
  off   : Nat
  out   : Nat
  deriving DecidableEq, Repr

/-! ### Power, reset and management -/

/-- Why the module stays down until a cold reset or the return of its input: the reference clock was lost (R499), a rail is out of
range (R419), the input is disconnected (R496), no image of either slot was accepted (R470), or no control die passed its
self-test (R473). -/
inductive OffWhy where
  | refclk | rail | input | noImage | noControl
  deriving DecidableEq, Repr

/-- The power domain controller beside its registers: PERST# asserted, PRSNT# mated (R487), WAKE# asserted, the old primary fenced
(R67), a cold reset in progress, its boot still to come, a warm reset in progress and the domains whose units still drain for it,
domains waiting for their needs, the target of each DRAINING domain (1 RIME, 0 OFF), domains whose held request is forced,
Frost-watch requested, and why the module is down. -/
structure Power where
  perst  : Bool
  prsnt  : Bool
  wake   : Bool
  fenced : Bool
  cold   : Bool
  boot   : Bool
  warmOn : Bool
  warm   : List Nat
  want   : List Nat
  target : Map Nat
  forced : List Nat
  frost  : Bool
  off    : Option OffWhy
  deriving DecidableEq, Repr

def Power.reset : Power := ⟨false, true, false, false, false, false, false, [], [], [], [], false, none⟩

/-- A firmware image (R469): its security version, whether its signature and its chain verify (R470), the version it reports, its
bytes. -/
structure Image where
  svn   : Byte
  ok    : Bool
  ver   : W32
  bytes : List Byte
  deriving DecidableEq, Repr

/-- A copy of the Repair Record (R472): whether its signature and IDENT are good, SEQ, the die that signed it, the dies and stacks
that passed, and the rest of its contents. -/
structure RepairCopy where
  valid  : Bool
  seq    : W32
  signer : Nat
  ctlOk  : BitVec 2
  stkOk  : BitVec 16
  record : RepairRecord
  deriving DecidableEq, Repr

/-- How a management request ends. -/
inductive Completion where
  | success | invalidData | notReady | alreadyInUpdateMode | refused
  deriving DecidableEq, Repr

/-- What the management controller answers (Table 17-4, Table 18-5), each with what the spec says it returns. -/
inductive Reply where
  | done (c : Completion)
  | spdmVersion (major minor : Nat)
  | spdmCapabilities (certificates challenge measurements sessions : Bool)
  | spdmAlgorithms (ed25519 sha512 : Bool)
  | spdmDigests (l : List (Nat × DWord))
  | spdmCertificate (slot : Nat) (bytes : List Byte)
  | spdmChallenge (slot : Nat) (signature : DWord)
  | spdmMeasurements (l : List (Nat × DWord)) (signature : Option DWord)
  | pldmTid (tid : Byte)
  | pldmVersion (v : W32)
  | pldmTypes (l : List Nat)
  | pldmCommands (l : List String)
  | pdrSensor (id : Nat)
  | pdrEffecter (id : Nat)
  | reading (v : Int)
  | state (v : Nat)
  | word (undervoltage overvoltage overcurrent temperature : Bool)
  deriving DecidableEq, Repr

/-- Security block and management controller beside their registers: the images of the flash's slots by 8 × slot + component, the
slot the flash header names, MIN_SVN of the Version Record, the certificate slots' bytes, the two Repair Record copies; the
microcode in force with its version, digest and the stacks where it is marked verified; components staged by the running
update; sensors (Table 17-5); the event receiver (over PCIe, EID) and the PlatformEventMessages sent to it, by alert bit; the
last answer; and the fault bits of STATUS_WORD. -/
structure Mgmt where
  images   : Map Image
  active   : Nat
  minSvn   : Nat
  certs    : List Byte
  rr0      : RepairCopy
  rr1      : RepairCopy
  mcVer    : W32
  mcDigest : DWord
  mcLen    : Nat
  mcMarked : List Nat
  staged   : List Nat
  sensors  : Map Int
  receiver : Option (Bool × Byte)
  events   : List Nat
  reply    : Option Reply
  uv       : Bool
  ov       : Bool
  oc       : Bool
  hot      : Bool
  deriving DecidableEq, Repr

end Sys2Proof.Machine
end

