-- ==== Sys2Proof/Machine/State.lean ====
section
/-! DEFINITION. The machine's state as plain data, and the state after reset. -/

namespace Sys2Proof.Machine

/-- Reasons a step stops with a fault. No command of this block does: a spec-given failure is a status, a flag or a record
in the next state. -/
inductive Fault where
  /-- Raised by no command. -/
  | none
  deriving DecidableEq, Repr

/-- Reasons a step is refused. -/
inductive Refusal where
  /-- A command with no meaning yet; raised by `exec` alone. Safe: the machine stops. -/
  | notModelled (mnemonic : String)
  deriving DecidableEq, Repr

/-- Default energy coefficients in fJ (Table 14-1); index 15 has no event. -/
def coefReset : List Nat :=
  [819200, 1024000, 5000, 2000, 1500, 20000, 8000, 12000, 6000, 1024000, 2048000, 2560000, 1000, 1600000, 96000, 0]

/-- The register that holds a block-relative offset: its own offset and its row. -/
def findRow (rows : List RegRow) (o : Nat) : Option (Nat × RegRow) :=
  rows.findSome? (fun r =>
    if o < r.off then none
    else
      let k := if r.stride = 0 then 0 else (o - r.off) / r.stride
      let start := r.off + k * r.stride
      if k < r.count ∧ o < start + r.bytes then some (start, r) else none)

/-- The register of BAR0 that holds an offset (R37): its BAR0 offset and its row; none in a gap. -/
def findReg (o : Nat) : Option (Nat × RegRow) :=
  blocks.findSome? (fun b =>
    if o < b.base then none
    else
      let k := if b.stride = 0 then 0 else (o - b.base) / b.stride
      let start := b.base + k * b.stride
      if k < b.count ∧ o < start + b.size then
        (findRow b.regs (o - start)).map (fun p => (start + p.1, p.2))
      else none)

/-- Reset value of a register row. -/
def rowReset (r : RegRow) : Nat :=
  r.fields.foldl (fun a f => a + f.reset <<< f.fld.lo) 0

/-- Voltage table of the Repair Record that `State.reset` holds: 1.00, 0.925, 0.875, 0.8125 V. Log entry 4. -/
def vtabReset : Nat := 160 + 148 <<< 8 + 140 <<< 16 + 130 <<< 24

/-- What a register reads as before anything wrote it: its reset value. -/
def regReset (o : Nat) : Word :=
  if R.LEDG_COEF 0 ≤ o ∧ o < R.LEDG_COEF 16 ∧ o % 4 = 0 then
    BitVec.ofNat 64 (coefReset.getD ((o - R.LEDG_COEF 0) / 4) 0)
  else if o = R.LEDG_VTAB then BitVec.ofNat 64 vtabReset
  else
    match findReg o with
    | some (start, r) => if start = o then BitVec.ofNat 64 (rowReset r) else 0
    | none => 0

/-- The state. -/
structure State where
  pending  : List Instr
  regs     : Map Word
  mem      : Map Byte
  ecc      : Map EccMark
  hostMem  : Map Byte
  tiles    : Map Tile
  dieCache : Map (List TlbEntry)
  txns     : Map Txn
  txnNext  : Nat
  queues   : Map HostQueue
  repair   : RepairRecord
  hostRead : List Byte
  exd      : Exd
  morLost  : List Nat
  rgns     : List RgnReq
  abl      : Map (List AblJob)
  inbox    : Map (List (Option (List Byte)))
  ports    : Map Port
  heldPkts : List HeldPkt
  segs     : List Seg
  segQ     : List Seg
  earlySeg : List HeldPkt
  waitSeg  : List HeldPkt
  inboxOut : Map (List (Option (List Byte)))
  inboxOdd : List Nat
  ledger   : Ledger
  push     : List Push
  recLast  : Option W32
  recMoved : Option W32
  peerBank : Nat
  fill     : Option FillPos
  power    : Power
  mgmt     : Mgmt
  freeCtr  : Nat
  deriving DecidableEq, Repr

/-- The Repair Record that `State.reset` holds: every tile enabled, no column bypassed. Log entry 4. -/
def RepairRecord.reset : RepairRecord := ⟨[], [], BitVec.ofNat 32 vtabReset⟩

/-- The flash that `State.reset` holds: slot A with four accepted images, a valid Repair Record copy (log entry 4). -/
def Mgmt.reset : Mgmt where
  images := [(1, ⟨0, true, 0, []⟩), (2, ⟨0, true, 0, []⟩), (3, ⟨0, true, 0, []⟩), (4, ⟨0, true, 0, []⟩)]
  active := 0
  minSvn := 0
  certs := []
  rr0 := ⟨true, 0, 0, 3, 0xFFFF, RepairRecord.reset⟩
  rr1 := ⟨false, 0, 0, 0, 0, RepairRecord.reset⟩
  mcVer := 0
  mcDigest := 0
  mcLen := 0
  mcMarked := []
  staged := []
  sensors := []
  receiver := none
  events := []
  reply := none
  uv := false
  ov := false
  oc := false
  hot := false

/-- The state after reset. -/
def State.reset : State where
  pending := []
  regs := []
  mem := []
  ecc := []
  hostMem := []
  tiles := []
  dieCache := []
  txns := []
  txnNext := 0
  queues := []
  repair := RepairRecord.reset
  hostRead := []
  exd := Exd.reset
  morLost := []
  rgns := []
  abl := []
  inbox := []
  ports := []
  heldPkts := []
  segs := []
  segQ := []
  earlySeg := []
  waitSeg := []
  inboxOut := []
  inboxOdd := []
  ledger := Ledger.reset
  push := []
  recLast := none
  recMoved := none
  peerBank := 0
  fill := none
  power := Power.reset
  mgmt := Mgmt.reset
  freeCtr := 0

end Sys2Proof.Machine
end

