-- ==== Sys2Proof/Machine/Ops.lean ====
section
/-! DEFINITION. The named operations over registers, memory and the parts of a tile that every chapter uses. -/

namespace Sys2Proof


/-! ### Status codes (Table 2-1) -/

/-- The code of a status. -/
def Status.code : Status → Nat
  | .ok => 0x00 | .retryLater => 0x01 | .aborted => 0x02 | .timeout => 0x03 | .windowClosed => 0x04
  | .faultEcc => 0x05 | .faultResidue => 0x06 | .translation => 0x07 | .protection => 0x08
  | .budgetDeferred => 0x09 | .expertFetching => 0x0A | .groupEpoch => 0x0B | .stepMismatch => 0x0C | .draining => 0x0D

/-- The status of a code; codes above 0x0D are never produced (R33). -/
def Status.ofCode : Nat → Status
  | 0x01 => .retryLater | 0x02 => .aborted | 0x03 => .timeout | 0x04 => .windowClosed
  | 0x05 => .faultEcc | 0x06 => .faultResidue | 0x07 => .translation | 0x08 => .protection
  | 0x09 => .budgetDeferred | 0x0A => .expertFetching | 0x0B => .groupEpoch | 0x0C => .stepMismatch | 0x0D => .draining
  | _ => .ok

/-- Codes marked "stops queue" (R33). -/
def Status.stops : Status → Bool
  | .ok | .retryLater | .budgetDeferred | .expertFetching | .stepMismatch => false
  | _ => true

end Sys2Proof

namespace Sys2Proof.Machine

/-! ### Registers -/

/-- A register's value. -/
def rraw (s : State) (o : Nat) : Nat := (mget regReset s.regs o).toNat

/-- Bits [lo+w-1:lo] of a value replaced. -/
def putBits (v lo w x : Nat) : Nat := v - (bits v lo w) <<< lo + (x % 2 ^ w) <<< lo

/-- A register's whole value written. -/
def rput (o v : Nat) (s : State) : State :=
  { s with regs := mset regReset s.regs o (BitVec.ofNat 64 v) }

/-- A field of a register. -/
def rget (s : State) (o : Nat) (f : Fld) : Nat := bits (rraw s o) f.lo f.w

/-- A field written. -/
def rset (o : Nat) (f : Fld) (v : Nat) (s : State) : State :=
  rput o (putBits (rraw s o) f.lo f.w v) s

/-- A one-bit field read as a truth value. -/
def rbit (s : State) (o : Nat) (f : Fld) : Bool := rget s o f != 0

/-- An event counter raised, saturating at all ones (R10). -/
def rinc (o : Nat) (f : Fld) (n : Nat) (s : State) : State := rset o f (satAdd f.w (rget s o f) n) s

/-- A counter whose register map says that it wraps (R10). -/
def rwrap (o : Nat) (f : Fld) (n : Nat) (s : State) : State := rset o f (rget s o f + n) s

/-- Every register in a range back at its reset value. -/
def rclear (lo hi : Nat) (s : State) : State := { s with regs := mclear s.regs lo hi }

/-! ### Tiles -/

/-- What tile `t` holds beside its registers. -/
def State.tile (s : State) (t : TileId) : Tile := mget (fun _ => Tile.reset) s.tiles t.toNat

/-- A tile changed. -/
def State.modTile (s : State) (t : TileId) (f : Tile → Tile) : State :=
  { s with tiles := mset (fun _ => Tile.reset) s.tiles t.toNat (f (s.tile t)) }

/-- An X-core changed. -/
def State.modX (s : State) (t : TileId) (f : XCore → XCore) : State :=
  s.modTile t (fun c => { c with x := f c.x })

/-- An F-core changed. -/
def State.modF (s : State) (t : TileId) (f : FCore → FCore) : State :=
  s.modTile t (fun c => { c with f := f c.f })

/-- The Repair Record leaves the tile enabled (R19). -/
def State.enabled (s : State) (t : TileId) : Bool := !s.repair.disabled.contains t.toNat

/-- The compute die of a tile (R18). -/
def tileDie (t : TileId) : Nat := t.toNat / 64

/-- Mesh column of a tile (R16, R18). -/
def tileX (t : TileId) : Nat := (tileDie t % 8) * 8 + t.toNat % 8

/-- Mesh row of a tile (R16, R18). -/
def tileY (t : TileId) : Nat := (tileDie t / 8) * 8 + t.toNat % 64 / 8

/-- The tile at mesh coordinates (R18). -/
def tileAt (x y : Nat) : TileId := BitVec.ofNat 11 ((y / 8 * 8 + x / 8) * 64 + y % 8 * 8 + x % 8)

/-! ### The package and the mesh (R16 to R20, R504) -/

/-- An edge of a compute die that an outer die or a stack joins (Table 1-2). -/
inductive Edge where
  | north | south | west | east
  deriving DecidableEq, Repr

/-- Stack `k`: the compute die it joins, and the edge (Table 1-2). -/
def stackJoins (k : Nat) : Nat × Edge := if k < 8 then (k, .north) else (24 + (k - 8), .south)

/-- Fabric I/O die `k` (Table 1-2). -/
def fioJoins (k : Nat) : Nat × Edge := if k < 2 then (8 + 8 * k, .west) else (15 + 8 * (k - 2), .east)

/-- Host I/O die `k` (Table 1-2). -/
def hioJoins (k : Nat) : Nat × Edge := if k = 0 then (0, .west) else (7, .east)

/-- Control die `k` (Table 1-2). -/
def ctlJoins (k : Nat) : Nat × Edge := if k = 0 then (24, .west) else (31, .east)

/-- The port tile of stack `k` for a requester in mesh column `x` (R504). -/
def portTile (k x : Nat) : TileId :=
  let lo := 8 * ((stackJoins k).1 % 8)
  tileAt (max lo (min x (lo + 7))) (if (stackJoins k).2 = .north then 0 else 31)

/-- The route between two tiles: the tiles it passes, along x and then along y (R20). -/
def meshRoute (t u : TileId) : List TileId :=
  let span (a b : Nat) : List Nat :=
    if a ≤ b then (List.range (b - a)).map (a + 1 + ·) else (List.range (a - b)).map (a - 1 - ·)
  (span (tileX t) (tileX u)).map (tileAt · (tileY t)) ++ (span (tileY t) (tileY u)).map (tileAt (tileX u) ·)

/-- The hops of a mesh transaction between two tiles (R20). -/
def meshHops (t u : TileId) : Nat := (meshRoute t u).length

/-- The die edges a route crosses, from a tile on (R20). -/
def edgesFrom (t : TileId) : List TileId → Nat
  | [] => 0
  | u :: us => (if tileDie u = tileDie t then 0 else 1) + edgesFrom u us

/-- The die edges that a mesh transaction between two tiles crosses (R20). -/
def meshEdges (t u : TileId) : Nat := edgesFrom t (meshRoute t u)

/-- `TILE_STATE` values (Table 3-2). -/
def tsIdle : Nat := 0
def tsRunning : Nat := 1
def tsDraining : Nat := 2
def tsDisabled : Nat := 3

/-- The module's own device ID. -/
def State.devId (s : State) : Nat := rget s R.MOS_DEVID F.MOS_DEVID_ID

/-- Forward progress of a tile: `FC_PROGRESS` is set to zero (R178). -/
def progress (t : TileId) (s : State) : State := rput (R.FC_PROGRESS t.toNat) 0 s

/-! ### Domains (R407, R423) -/

/-- Domain `n` is ON: state code 3 of Table 15-3. -/
def State.domOn (s : State) (n : Nat) : Bool := rget s (R.PDC_DOM_STAT n) F.PDC_DOM_STAT_STATE == 3

/-- Domain `n` still serves its neighbours: ON, or draining and refusing for itself (R423, R424). -/
def State.domReach (s : State) (n : Nat) : Bool :=
  let k := rget s (R.PDC_DOM_STAT n) F.PDC_DOM_STAT_STATE
  k == 3 || k == 4

/-- A host write to a part of domain `n`, through HIO0: dropped and counted while the domain is not ON, and outside AON while a
cold reset is in progress (R421, R423). With HIO0 down PCIe presents no function and nothing arrives. -/
def hostWrite (n : Nat) (f : State → State) (s : State) : State :=
  let drop := rinc R.PDC_HOST_DROP F.PDC_HOST_DROP_COUNT 1 s
  if s.power.cold then (if n = 0 then f s else drop)
  else if !s.domReach 3 then s
  else if s.domOn n then f s
  else drop

/-- No tile of a compute die runs a launch. -/
def State.dieFree (s : State) (d : Nat) : Bool :=
  (List.range 64).all (fun i => (s.tile (BitVec.ofNat 11 (64 * d + i))).x.launch.isNone)

/-- The tile refuses new inbound requests: DRAINING, or its domain drains and no launch is left on the die (R424, R426). -/
def State.tileDraining (s : State) (t : TileId) : Bool :=
  rget s (R.TILE_STATE t.toNat) F.TILE_STATE_STATE == tsDraining ||
    (rget s (R.PDC_DOM_STAT (16 + tileDie t)) F.PDC_DOM_STAT_STATE == 4 && s.enabled t && s.dieFree (tileDie t))

/-- A host write to a tile's registers; a disabled tile keeps its reset values (R69). -/
def hostTile (t : TileId) (f : State → State) (s : State) : State :=
  hostWrite (16 + tileDie t) (fun s => if s.enabled t then f s else s) s

/-! ### Address map (R22, Table 1-4) -/

/-- What a local address names. -/
inductive Place where
  | hbm (stack : Nat)
  | spad (t : TileId) (off : Nat)
  | csr (off : Nat)
  | moraine (off : Nat)
  | none
  deriving DecidableEq, Repr

def hbmTop : Nat := 0x10000000000
def spadBase : Nat := 0x40000000000
def csrBase : Nat := 0x60000000000
def morBase : Nat := 0x80000000000
def spadBytes : Nat := 1572864

/-- The part of the address map a local address lies in. -/
def place (a : Nat) : Place :=
  if a < hbmTop then .hbm (a / 2 ^ 36)
  else if spadBase ≤ a ∧ a < spadBase + 2 ^ 35 then .spad (BitVec.ofNat 11 ((a - spadBase) / 2 ^ 24)) (a % 2 ^ 24)
  else if csrBase ≤ a ∧ a < csrBase + 2 ^ 28 then .csr (a - csrBase)
  else if morBase ≤ a ∧ a < morBase + 2 ^ 43 then .moraine (a - morBase)
  else .none

/-- The local address of a scratchpad byte. -/
def spadAddr (t : TileId) (off : Nat) : Nat := spadBase + t.toNat * 2 ^ 24 + off

/-- Capacity of CXL port `n` in bytes; 0 while the port is down. -/
def morCap (s : State) (n : Nat) : Nat :=
  if rbit s (R.MOR_PORT n) F.MOR_PORT_UP then rget s (R.MOR_PORT n) F.MOR_PORT_CAP_GIB * 2 ^ 30 else 0

/-- A moraine offset lies in mapped capacity and the tier is enabled (R288). -/
def morOk (s : State) (o : Nat) : Bool :=
  rbit s R.MOR_CTL F.MOR_CTL_EN &&
  (if rbit s R.MOR_CTL F.MOR_CTL_ILV then decide (o < 2 * min (morCap s 0) (morCap s 1))
   else if o < 2 ^ 42 then decide (o < morCap s 0) else decide (o - 2 ^ 42 < morCap s 1))

/-- A local address that memory accesses may reach: neither reserved, nor past `SPAD_BYTES`, nor a disabled tile's, nor CSR
space, nor unmapped moraine (R23, R97, R288). -/
def addrOk (s : State) (a : Nat) : Bool :=
  match place a with
  | .hbm _ => true
  | .spad t off => decide (off < spadBytes) && s.enabled t
  | .csr _ => false
  | .moraine o => morOk s o
  | .none => false

/-! ### Memory bytes and codewords -/

/-- The byte held at a local address; memory that nothing has written reads zero (log entry 2). -/
def rdByte (s : State) (a : Nat) : Byte := mget (fun _ => 0) s.mem a

/-- Bytes held at consecutive local addresses. -/
def rdBytes (s : State) (a n : Nat) : List Byte := (List.range n).map (fun i => rdByte s (a + i))

/-- Bytes stored. -/
def wrCells (cells : List (Nat × Byte)) (s : State) : State :=
  { s with mem := msets (fun _ => 0) s.mem cells }

/-- A byte list stored at consecutive addresses. -/
def wrBytes (a : Nat) (l : List Byte) (s : State) : State :=
  wrCells (l.zipIdx.map (fun p => (a + p.2, p.1))) s

/-- The codewords (aligned 32-byte halves of a line) that addresses lie in (R75). -/
def codewords (addrs : List Nat) : List Nat := (addrs.map (· / 32)).dedup

/-- State of a codeword. -/
def eccAt (s : State) (c : Nat) : EccMark := mget (fun _ => .good) s.ecc c

/-- A codeword marked. -/
def setEcc (c : Nat) (m : EccMark) (s : State) : State := { s with ecc := mset (fun _ => .good) s.ecc c m }

/-- Count a scratchpad's newly found uncorrectable codeword and record it (R76). -/
def countUncorr (c : Nat) (s : State) : State :=
  match place (c * 32) with
  | .spad t off =>
    rset (R.SPAD_ERRADDR t.toNat) F.SPAD_ERRADDR_CW (off / 32) (rinc (R.SPAD_ECC t.toNat) F.SPAD_ECC_UNCORR 1 s)
  | _ => s

/-- A line of the moraine tier, by its local address divided by 64. -/
def morLine (l : Nat) : Bool :=
  match place (l * 64) with
  | .moraine _ => true
  | _ => false

/-- The moraine lines of an access whose data are poisoned or uncorrectable, counted in `MOR_ERR` (R289). -/
def countPoison (cs : List Nat) (s : State) : State :=
  let n := (((cs.filter (fun c => eccAt s c == .uncorrectable || eccAt s c == .poisoned)).map (· / 2)).dedup.filter morLine).length
  if n = 0 then s else rinc R.MOR_ERR F.MOR_ERR_POISON n s

/-- The moraine lines of an access whose transaction gets no completion (R289, log entry 59). -/
def lostLines (s : State) (addrs : List Nat) : List Nat :=
  s.morLost.filter (fun l => morLine l && addrs.any (fun a => a / 64 == l))

/-- Such transactions end: each is counted, and is over. -/
def loseLines (ls : List Nat) (s : State) : State :=
  rinc R.MOR_ERR F.MOR_ERR_TIMEOUT ls.dedup.length { s with morLost := s.morLost.filter (fun l => !ls.contains l) }

/-- Count one access that corrected data of line `l`, once for both its codewords (R76). -/
def countCorr (l : Nat) (s : State) : State :=
  match place (l * 64) with
  | .spad t _ => rinc (R.SPAD_ECC t.toNat) F.SPAD_ECC_CORR 1 s
  | _ => s

/-- The lines in which an access to codewords corrects data, each counted once (R76). -/
def countCorrs (cs : List Nat) (s : State) : State :=
  (((cs.filter (fun c => eccAt s c == .correctable)).map (· / 2)).dedup).foldl (fun s l => countCorr l s) s

/-- One codeword met by a read or a read-modify-write: whether its data can be used. An uncorrectable codeword is marked
poisoned and counted once (R76). -/
def meetCodeword (c : Nat) (s : State) : Bool × State :=
  match eccAt s c with
  | .good | .correctable => (true, s)
  | .uncorrectable => (false, setEcc c .poisoned (countUncorr c s))
  | .poisoned => (false, s)

/-- The codewords of a read, in order; false when any cannot be used. -/
def meetCodewords : List Nat → State → Bool × State
  | [], s => (true, s)
  | c :: cs, s =>
    let r := meetCodeword c s
    let q := meetCodewords cs r.2
    (r.1 && q.1, q.2)

/-! ### Bytes in a race (R31, R39, R102) -/

/-- The local addresses that commands under way share, unordered, with something that writes them (log entry 53). -/
def racedBytes (s : State) : List Nat :=
  s.queues.flatMap (fun e => e.2.cmds.flatMap (fun c => if c.phase = .running then c.raced else []))

/-- Cells as a race leaves them: a byte in a race takes a fresh free value, every other byte its own (R31, R102). -/
def raceCells (cells : List (Nat × Byte)) (s : State) : List (Nat × Byte) × State :=
  let r := racedBytes s
  if cells.all (fun e => !r.contains e.1) then (cells, s)
  else
    (cells.zipIdx.map (fun p => if r.contains p.1.1 then (p.1.1, Config.freeByte (s.freeCtr + p.2)) else p.1),
      { s with freeCtr := s.freeCtr + cells.length })

/-- A read of bytes that exist: TIMEOUT when a moraine transaction has no completion (R289), FAULT_ECC when a codeword cannot be
used (R25, R76, R289); a byte in a race reads as a free value. -/
def memRead (addrs : List Nat) (s : State) : Status × List Byte × State :=
  let cs := codewords addrs
  let r := meetCodewords cs (countPoison cs (countCorrs cs s))
  if !(lostLines s addrs).isEmpty then (.timeout, [], loseLines (lostLines s addrs) s)
  else if r.1 then
    let q := raceCells (addrs.map (fun a => (a, rdByte s a))) r.2
    (.ok, q.1.map (·.2), q.2)
  else (.faultEcc, [], r.2)

/-- The cells of one codeword. -/
def ofCodeword (c : Nat) (cells : List (Nat × Byte)) : List (Nat × Byte) := cells.filter (fun e => e.1 / 32 == c)

/-- The cells fill the codeword. -/
def fillsCodeword (c : Nat) (cells : List (Nat × Byte)) : Bool := ((ofCodeword c cells).map (·.1)).dedup.length == 32

/-- The cells of one codeword written: a write of all 32 bytes replaces it; a smaller one merges, and writes nothing where
the codeword cannot be used (R75, R76). In HBM and the moraine tier, where Table 1-5 says only FAULT_ECC, a write of part of an
uncorrectable codeword acts as R76 gives for a scratchpad: no byte of it is written and its mark becomes poisoned (DESIGN
CHOICE, log entry 54). -/
def writeCodeword (c : Nat) (cells : List (Nat × Byte)) (s : State) : Bool × State :=
  if fillsCodeword c cells then (true, setEcc c .good (wrCells (ofCodeword c cells) s))
  else
    let r := meetCodeword c s
    if r.1 then (true, setEcc c .good (wrCells (ofCodeword c cells) r.2)) else (false, r.2)

/-- The codewords of a write, in order. -/
def writeCodewords (cells : List (Nat × Byte)) : List Nat → State → Bool × State
  | [], s => (true, s)
  | c :: cs, s =>
    let r := writeCodeword c cells s
    let q := writeCodewords cells cs r.2
    (r.1 && q.1, q.2)

/-- Bytes whose contents the spec leaves undefined: each takes a fresh free value (log entry 3). -/
def freeBytes (addrs : List Nat) (s : State) : State :=
  { wrCells (addrs.zipIdx.map (fun p => (p.1, Config.freeByte (s.freeCtr + p.2)))) s with
    freeCtr := s.freeCtr + addrs.length }

/-- A write of bytes that exist; a byte in a race takes a free value. TIMEOUT, and the bytes are undefined, when a moraine
transaction has no completion (R26, R289). -/
def memWrite (cells : List (Nat × Byte)) (s : State) : Status × State :=
  let cs := codewords (cells.map (·.1))
  let part := cs.filter (fun c => !fillsCodeword c cells)
  let q := raceCells cells (countPoison part (countCorrs part s))
  let r := writeCodewords q.1 cs q.2
  let lost := lostLines s (cells.map (·.1))
  if !lost.isEmpty then (.timeout, freeBytes (cells.map (·.1)) (loseLines lost s))
  else (if r.1 then .ok else .faultEcc, r.2)

/-- A read at local addresses: PROTECTION where R23 refuses one. -/
def localRead (addrs : List Nat) (s : State) : Status × List Byte × State :=
  if addrs.all (addrOk s) then memRead addrs s else (.protection, [], s)

/-- A write at local addresses: PROTECTION, nothing written, where R23 refuses one. -/
def localWrite (cells : List (Nat × Byte)) (s : State) : Status × State :=
  if cells.all (fun c => addrOk s c.1) then memWrite cells s else (.protection, s)

/-- An atomic add at a local address, 4 or 8 bytes naturally aligned, wrapping; the old value comes back. It is one
read-modify-write of its codeword, which it meets once (R76). A moraine address ends with PROTECTION (R78, R109). -/
def localAadd (addr : Nat) (wide : Bool) (v : Word) (s : State) : Status × List Byte × State :=
  let n := if wide then 8 else 4
  let a := addr / n * n
  let addrs := (List.range n).map (a + ·)
  match place a with
  | .moraine _ => (.protection, [], s)
  | _ =>
    let r := localRead addrs s
    match r.1 with
    | .ok =>
      (.ok, r.2.1, setEcc (a / 32) .good (wrCells (addrs.zip (natLe n (leNat r.2.1 + v.toNat))) r.2.2))
    | st => (st, [], r.2.2)

/-! ### Free values -/

/-- A fresh undefined word. -/
def freeWord (s : State) : Word × State := (Config.freeWord s.freeCtr, { s with freeCtr := s.freeCtr + 1 })

/-! ### Steps that may fail -/

/-- A step that may fail, followed by what needs its result. -/
def emBind {ε α β : Type} (x : Except ε α × State) (f : α → State → Except ε β × State) : Except ε β × State :=
  match x with
  | (.error e, s) => (.error e, s)
  | (.ok a, s) => f a s

/-- Such steps over a list, in order. -/
def emMap {ε α β : Type} (f : α → State → Except ε β × State) : List α → State → Except ε (List β) × State
  | [], s => (.ok [], s)
  | a :: as, s => emBind (f a s) (fun b s => emBind (emMap f as s) (fun bs s => (.ok (b :: bs), s)))

/-- A step that may fail, followed by what each outcome needs. -/
def emElim {ε α β : Type} (x : Except ε α × State) (bad : ε → State → β × State) (good : α → State → β × State) : β × State :=
  match x with
  | (.error e, s) => bad e s
  | (.ok a, s) => good a s

end Sys2Proof.Machine
end

