-- ==== Sys2Proof/Machine/Link.lean ====
section
/-! DEFINITION. Packets, their routing and their way out of the module (R349, R352 to R359), and requests between units. -/

namespace Sys2Proof.Machine

/-! ### Packet headers (Table 13-5, Table 13-6) -/

/-- `n` bytes of a header at an offset. -/
def pF (p : Packet) (off n : Nat) : Nat := bits p.hdr.toNat (8 * off) (8 * n)

def pkWrite : Nat := 1
def pkRead : Nat := 2
def pkAadd : Nat := 3
def pkMsg : Nat := 4
def pkSeg : Nat := 5
def pkReply : Nat := 8

end Sys2Proof.Machine

namespace Sys2Proof

open Sys2Proof.Machine

def Packet.type (p : Packet) : Nat := pF p 0x00 1
def Packet.sub (p : Packet) : Nat := pF p 0x01 1
def Packet.src (p : Packet) : Nat := pF p 0x02 2 % 2 ^ 15
def Packet.dst (p : Packet) : Nat := pF p 0x04 2 % 2 ^ 15
def Packet.unit (p : Packet) : Nat := pF p 0x06 2 % 2 ^ 11
def Packet.route (p : Packet) : Nat := pF p 0x08 4
def Packet.tag (p : Packet) : Nat := pF p 0x0C 2
def Packet.lines (p : Packet) : Nat := pF p 0x0E 1
def Packet.vc (p : Packet) : Nat := pF p 0x0F 1 % 8

/-- A header field replaced. -/
def Packet.put (p : Packet) (off n v : Nat) : Packet :=
  { p with hdr := BitVec.ofNat 256 (putBits p.hdr.toNat (8 * off) (8 * n) v) }

end Sys2Proof

namespace Sys2Proof.Machine

/-- A packet from its fields; `args` is the value of the 16 ARGS bytes. -/
def mkPacket (type sub src dst unit route tag lines vc args : Nat) (data : List Byte) : Packet :=
  ⟨BitVec.ofNat 256 (type + sub <<< 8 + src <<< 16 + dst <<< 32 + unit <<< 48 + route <<< 64 + tag <<< 96 +
    lines <<< 112 + vc <<< 120 + args <<< 128), data⟩

/-- First virtual channel of a type's class: requests 0, replies 2, segments 4 (R349). -/
def classVc (type : Nat) : Nat := if type = pkReply then 2 else if type = pkSeg then 4 else 0

/-- TYPE, SUB and VC are none of the reserved ones, and every zero field is zero (R353). -/
def packetOk (p : Packet) : Bool :=
  let a (o n : Nat) := pF p (0x10 + o) n
  !bit (pF p 0x02 2) 15 && !bit (pF p 0x04 2) 15 && pF p 0x06 2 / 2 ^ 11 == 0 && pF p 0x0F 1 / 8 == 0 && decide (p.vc < 6) &&
  (if p.type = pkWrite then p.sub == 0 && a 9 7 == 0 && (decide (p.lines ≤ 1) || a 8 1 == 0)
    else if p.type = pkRead then p.sub == 0 && a 9 7 == 0
    else if p.type = pkAadd then decide (p.sub < 4)
    else if p.type = pkMsg then
      if p.sub = 0 then a 3 1 == 0 && a 6 10 == 0
      else (p.sub == 2 || p.sub == 3) && a 2 2 == 0 && a 13 3 == 0
    else if p.type = pkSeg then p.sub == 0 && decide (a 15 1 < 8)
    else if p.type = pkReply then
      decide (p.sub < 4) && a 1 7 == 0 && (p.sub == 2 || a 8 8 == 0)
    else false)

/-- The LINES, ADDR, BYTES, NLINES or COUNT of a well-formed request are outside what Table 13-6 allows. R353 does not discard
such a packet, and no rule gives it an effect; its target refuses it (log entry 41). -/
def packetOdd (p : Packet) : Bool :=
  let a (o n : Nat) := pF p (0x10 + o) n
  if p.type = pkWrite then
    p.lines == 0 || decide (64 < p.lines) ||
      (if p.lines = 1 then decide (64 < a 8 1) || decide (64 < a 0 8 % 64 + (if a 8 1 = 0 then 64 else a 8 1))
        else a 0 8 % 64 != 0)
  else if p.type = pkRead then p.lines != 0 || a 0 8 % 64 != 0 || a 8 1 == 0 || decide (64 < a 8 1)
  else if p.type = pkAadd then p.lines != 0 || a 0 8 % (if bit p.sub 0 then 8 else 4) != 0
  else if p.type = pkMsg ∧ p.sub = 0 then p.lines != 0 || a 4 2 == 0
  else false

/-! ### Ports (R349, R350) -/

def poDisabled : Nat := 0
def poTraining : Nat := 1
def poUp : Nat := 2
def poRetrain : Nat := 3
def poDraining : Nat := 4
def poDown : Nat := 5

def State.port (s : State) (p : Nat) : Port := mget (fun _ => Port.reset) s.ports p

def State.modPort (s : State) (p : Nat) (f : Port → Port) : State :=
  { s with ports := mmod (fun _ => Port.reset) s.ports p f }

def portState (s : State) (p : Nat) : Nat := rget s (R.MOSP_STATUS p) F.MOSP_STATUS_STATE

def setPortState (p v : Nat) (s : State) : State := rset (R.MOSP_STATUS p) F.MOSP_STATUS_STATE v s

/-- Credits a sender holds for a channel of a port (R349). -/
def credits (s : State) (p vc : Nat) : Nat := mget (fun _ => 1024) (s.port p).credits vc

/-- Flits a packet takes: its data, and its header unless the channel's last header flit has room for it (R352); `half` are the
channels where it has. -/
def pktFlits (half : List Nat) (p : Packet) : Nat := p.lines + b2n (!half.contains p.vc)

/-- The channels with room for a second header after one more header. -/
def flipHalf (half : List Nat) (vc : Nat) : List Nat := if half.contains vc then half.erase vc else vc :: half

/-- Groups that are sent and unacknowledged on a port. -/
def unackedGroups (s : State) (p : Nat) : Nat := (s.port p).unacked.foldl (fun n e => n + e.groups) 0

/-- The packet may be placed on the port now: it is UP, or DRAINING what is queued, the channel's credits suffice, and at most 256
groups stay unacknowledged (R348 to R350). -/
def canSend (s : State) (p : Nat) (k : Packet) : Bool :=
  let n := pktFlits (s.port p).halfTx k
  (portState s p == poUp || portState s p == poDraining) && decide (n ≤ credits s p k.vc) &&
    decide (unackedGroups s p + ceilDiv n 24 ≤ 256)

/-- The packet leaves through a port, and the trailers of its groups return credits, 255 of a channel at most each (Table 13-3). -/
def sendOn (p : Nat) (bad : Bool) (k : Packet) (s : State) : State :=
  let f := pktFlits (s.port p).halfTx k
  let n := ceilDiv f 24
  let s := rinc (R.MOSP_TXFLITS p) F.MOSP_TXFLITS_COUNT f s
  s.modPort p (fun q => { q with
    credits := mset (fun _ => 1024) q.credits k.vc (mget (fun _ => 1024) q.credits k.vc - f)
    owed := (List.range 6).foldl (fun m vc => mset (fun _ => 0) m vc (mget (fun _ => 0) m vc - 255 * n)) q.owed
    halfTx := flipHalf q.halfTx k.vc
    txSeq := (q.txSeq + n) % 65536
    unacked := q.unacked ++ [⟨(q.txSeq + n + 65535) % 65536, n, bad, k⟩] })

/-- What a packet filled of a receive buffer is free: a later trailer returns the credits (R349). -/
def freeBuf (b : Option InBuf) (s : State) : State :=
  match b with
  | some b => s.modPort b.port (fun q => { q with owed := mmod (fun _ => 0) q.owed b.vc (· + b.flits) })
  | none => s

/-! ### Routing (R356 to R359) -/

/-- The dimensions of an ORDER; a reserved one names none. -/
def orderDims : Nat → List Nat
  | 0 => [0, 1, 2] | 1 => [0, 2, 1] | 2 => [1, 0, 2] | 3 => [1, 2, 0] | 4 => [2, 0, 1] | 5 => [2, 1, 0] | _ => []

/-- Signed remaining hops of a dimension. -/
def hops (route dim : Nat) : Int := sx (bits route (8 * dim) 8) 8

/-- The packet has no hops left. -/
def arrived (k : Packet) : Bool := bits k.route 0 24 == 0

/-- The dimension of the next hop under the route's ORDER. -/
def nextDim (route : Nat) : Option Nat := (orderDims (bits route 24 3)).find? (fun d => decide (hops route d ≠ 0))

/-- Direction of a hop (Table 13-1). -/
def hopDir (route dim : Nat) : Nat := 2 * dim + b2n (decide (hops route dim < 0))

/-- Torus coordinate and size of a dimension; a size of 0 acts as 1. -/
def coordOf (s : State) (dim : Nat) : Nat := bits (rraw s R.MOS_COORD) (8 * dim) 8
def sizeOf' (s : State) (dim : Nat) : Nat := max 1 (bits (rraw s R.MOS_DIM) (8 * dim) 8)

/-- The header after one hop: the count one step toward zero, and the channel of R357; `from?` is the dimension of the hop that
brought the packet here. -/
def hopPacket (s : State) (k : Packet) (dim : Nat) (from? : Option Nat) : Packet :=
  let h := hops k.route dim
  let h' := if h < 0 then h + 1 else h - 1
  let wraps := if h < 0 then decide (coordOf s dim = 0) else decide (coordOf s dim + 1 = sizeOf' s dim)
  let odd := wraps || (decide (from? = some dim) && k.vc % 2 == 1)
  (k.put 0x08 4 (putBits k.route (8 * dim) 8 (ofInt 8 h'))).put 0x0F 1 (classVc k.type + b2n odd)

/-- The fabric I/O die whose port in direction `d` the packet takes: at a forwarding module the die it arrived on when that port
is UP, else the first UP one from (SRC + DST + TAG) mod 4 on (R358). -/
def chooseFio (s : State) (k : Packet) (d : Nat) (here : Option Nat) : Option Nat :=
  let up (f : Nat) := portState s (6 * f + d) == poUp
  match here with
  | some f => if up f then some f else
    ((List.range 4).map (fun i => (k.src + k.dst + k.tag + i) % 4)).find? up
  | none => ((List.range 4).map (fun i => (k.src + k.dst + k.tag + i) % 4)).find? up

/-- Every port of a direction is DOWN or DISABLED. -/
def allDown (s : State) (d : Nat) : Bool :=
  (List.range 4).all (fun f => portState s (6 * f + d) == poDown || portState s (6 * f + d) == poDisabled)

/-- Where a packet goes next: into the queue of a port, with the header of its next hop; it waits for a port; it is routed again by
ALT; or it is dropped (R357 to R359). -/
inductive Hop where
  | out (p : Nat) (k : Packet)
  | wait
  | alt
  | drop
  deriving DecidableEq, Repr

/-- The next hop of a packet by its ORDER; `inp` is the port it came in by. -/
def nextHop (s : State) (inp : Option Nat) (k : Packet) : Hop :=
  match nextDim k.route with
  | none => .drop
  | some dim =>
    let d := hopDir k.route dim
    match chooseFio s k d (inp.map (· / 6)) with
    | some f => .out (6 * f + d) (hopPacket s k dim (inp.map (· % 6 / 2)))
    | none => if bit k.route 30 then .alt else if allDown s d then .drop else .wait

/-- ORDER ← ALT and ALT_EN ← 0. -/
def useAlt (k : Packet) : Packet := k.put 0x08 4 (putBits (putBits k.route 24 3 (bits k.route 27 3)) 30 1 0)

/-- Class of a packet, and the input of a port that it comes from: a port of the die or, 24, the die's mesh ingress (R349). -/
def heldClass (h : HeldPkt) : Nat := h.pkt.vc / 2
def heldInput (h : HeldPkt) : Nat := h.inp.elim 24 (·.port)

/-- The place of a packet in a port's turn: one class after another, and within a class one input after another (R349). -/
def turnKey (q : Port) (h : HeldPkt) : Nat :=
  (heldClass h + 2 - q.turn) % 3 * 25 + (heldInput h + 24 - mget (fun _ => 24) q.inTurn (heldClass h)) % 25

/-- The packet that a port sends next, of the first of each class and input in its queue that may leave. -/
def nextHeld (s : State) (p : Nat) : Option HeldPkt :=
  let q := s.heldPkts.filter (fun h => h.out == some p)
  let heads := q.zipIdx.filter (fun e => !(q.take e.2).any (fun g => heldClass g == heldClass e.1 && heldInput g == heldInput e.1))
  ((heads.map (·.1)).filter (fun h => canSend s p h.pkt)).foldl (fun b h =>
    match b with
    | some g => if turnKey (s.port p) h < turnKey (s.port p) g then some h else b
    | none => some h) none

/-- The packet leaves a port's queue through the port. -/
def sendHeld (p : Nat) (h : HeldPkt) (s : State) : State :=
  let s := freeBuf h.inp { s with heldPkts := s.heldPkts.erase h }
  (sendOn p h.bad h.pkt s).modPort p (fun q => { q with
    turn := heldClass h
    inTurn := mset (fun _ => 24) q.inTurn (heldClass h) (heldInput h) })

/-- A port sends of its queue what it can, at most `n` packets. -/
def serveQueue : Nat → Nat → State → State
  | 0, _, s => s
  | n + 1, p, s =>
    match nextHeld s p with
    | some h => serveQueue n p (sendHeld p h s)
    | none => s

/-- What a port has queued, sent as far as it can be. -/
def servePort (p : Nat) (s : State) : State :=
  serveQueue (s.heldPkts.countP (fun h => h.out == some p)) p s

/-- A packet that has hops left is routed, by ORDER, then once by ALT: into the queue of a port, kept until a port may be UP, or
dropped and counted (R357 to R359). -/
def routePkt (h : HeldPkt) (s : State) : State :=
  let inp := h.inp.map (·.port)
  let k := if nextHop s inp h.pkt = .alt then useAlt h.pkt else h.pkt
  match nextHop s inp k with
  | .out p k' => servePort p { s with heldPkts := s.heldPkts ++ [{ h with fio := p / 6, out := some p, pkt := k' }] }
  | .drop => freeBuf h.inp (rinc R.MOS_UNROUTABLE F.MOS_UNROUTABLE_COUNT 1 s)
  | _ => { s with heldPkts := s.heldPkts ++ [{ h with pkt := k }] }

/-- A packet of this module starts on its way. -/
def sendPkt (k : Packet) (s : State) : State := routePkt ⟨(k.src + k.dst + k.tag) % 4, none, none, false, k⟩ s

/-- Held packets tried again, in order, after a credit, an acknowledgement or a change of a port: those that wait for a port are
routed, and the ports serve their queues. -/
def retryPkts (s : State) : State :=
  let s := (s.heldPkts.filter (·.out.isNone)).foldl (fun s h => routePkt h s)
    { s with heldPkts := s.heldPkts.filter (·.out.isSome) }
  (List.range 24).foldl (fun s p => servePort p s) s

/-- The route entry of a device (Table 13-7). -/
def routeEntry (s : State) (d : Nat) : Nat := rget s (R.MOS_ROUTE d) F.MOS_ROUTE_ENTRY

/-! ### Requests between units -/

/-- Tile of a request's issuer; 0x7FE for the command processor and the engines of the recovery block. -/
def issuerUnit : Issuer → Nat
  | .xwrite t _ _ | .xload t _ | .fload t | .fwrite t | .xfer t _ | .slotPost t _ _ | .abandoned t _ | .acked t => t.toNat
  | .collWrite => 0x7FF
  | .fill _ | .mirror _ _ | .firn _ _ => 0x7FE

/-- The packet of a request to another module (Table 13-6). -/
def txnPacket (s : State) (id : Nat) (x : Txn) (d : Nat) : Packet :=
  let mk (type sub lines args : Nat) (data : List Byte) : Packet :=
    mkPacket type sub s.devId d (issuerUnit x.iss) (routeEntry s d) (id % 65536) lines (classVc type) args data
  match x.op with
  | .write cells =>
    let a := (cells.headD (0, 0)).1
    let n := cells.length
    if n ≤ 64 then mk pkWrite 0 1 (a + (n % 64) <<< 64) (padTo 64 (cells.map (·.2)))
    else mk pkWrite 0 (n / 64) a (cells.map (·.2))
  | .read addrs =>
    let a := addrs.headD 0 / 64 * 64
    mk pkRead 0 0 (a + ((addrs.getLastD 0) / 64 - a / 64 + 1) <<< 64) []
  | .aadd a wide v ret => mk pkAadd (b2n wide + 2 * b2n ret) 0 (a + v.toNat <<< 64) []
  | .post t n c => mk pkMsg 0 0 (t.toNat + n.toNat <<< 16 + c <<< 32) []

/-- A write cut into runs of bytes that follow one another: a WRITE carries one run (Table 13-6). -/
def writeRuns (cells : List (Nat × Byte)) : List (List (Nat × Byte)) :=
  cells.foldr (fun c rs =>
    match rs with
    | (d :: r) :: l => if c.1 + 1 = d.1 then (c :: d :: r) :: l else [c] :: (d :: r) :: l
    | _ => [[c]]) []

/-- A request to another module leaves, or is held at its fabric I/O die. -/
def emitTxn (id : Nat) (x : Txn) (s : State) : State :=
  match x.dst, x.phase with
  | .dev d, .request => sendPkt (txnPacket s id x d.toNat) s
  | _, _ => s

/-- A request put on its way under the next number. -/
def sendTxn (x : Txn) (s : State) : State :=
  emitTxn s.txnNext x { s with txns := mins s.txns s.txnNext x, txnNext := s.txnNext + 1 }

/-- A write of one line to another module: a request for each run of bytes (R361). -/
def sendWrite (iss : Issuer) (d : DevId) (va : Nat) (cells : List (Nat × Byte)) (s : State) : State :=
  (writeRuns cells).foldl (fun s r => sendTxn ⟨iss, .dev d, va, .write r, .request⟩ s) s

/-- A request replaced. -/
def putTxn (id : Nat) (x : Txn) (s : State) : State := { s with txns := mins s.txns id x }

/-- A request ended. -/
def dropTxn (id : Nat) (s : State) : State := { s with txns := mdel s.txns id }

end Sys2Proof.Machine
end

