-- ==== Sys2Proof/Machine/Xlat.lean ====
section
/-! DEFINITION. Translation and protection (R96 to R100), and where a translated access goes. -/

namespace Sys2Proof.Machine

/-- What a translation gives: a device and a local address there, or a status. -/
inductive Xlat where
  | ok (dev : Nat) (addr : Nat)
  | bad (st : Status)
  deriving DecidableEq, Repr

/-- The unit recorded in `XLAT_FAULT_INFO.UNIT` (Table 3-15). -/
def unitX : Nat := 0
def unitF : Nat := 1
def unitCe : Nat := 2
def unitGme : Nat := 3

/-- The address a leaf entry gives for a virtual address: FRAME joined with the page offset (Table 3-13). -/
def leafAddr (va : Nat) (big : Bool) (e : Nat) : Nat :=
  if big then (bits e 30 29) <<< 30 + va % 2 ^ 30 else (bits e 21 38) <<< 21 + va % 2 ^ 21

/-- The checks on a leaf entry (R97): permissions, the moraine bit, CSR space, and what R23 refuses. -/
def leafCheck (s : State) (va : Nat) (big : Bool) (e : Nat) (rd wr : Bool) : Xlat :=
  let ga := leafAddr va big e
  let dev := ga / 2 ^ 44
  let la := ga % 2 ^ 44
  if (rd && !bit e 2) || (wr && !bit e 3) then .bad .protection
  else
    match place la with
    | .moraine _ =>
      if !bit e 4 then .bad .protection
      else if dev = s.devId ∧ addrOk s la = false then .bad .protection else .ok dev la
    | .csr _ => .bad .protection
    | _ => if dev = s.devId ∧ addrOk s la = false then .bad .protection else .ok dev la

/-- Start of a compute die's level-1 table. -/
def xlatBase (s : State) (d : Nat) : Nat := (rget s (R.XLAT_BASE d) F.XLAT_BASE_ADDR) <<< 21

/-- One table entry read from HBM: none when the table does not lie in HBM (R97); FAULT_ECC when it cannot be read (R98). -/
def readEntry (table size idx : Nat) (s : State) : Except Status Nat × State :=
  if size + table ≤ hbmTop then
    let r := memRead ((List.range 8).map (table + 8 * idx + ·)) s
    if r.1 = .ok then (.ok (leNat r.2.1), r.2.2) else (.error r.1, r.2.2)
  else (.error .translation, s)

/-- The walk of R96: a leaf entry and its page size, or the status that ends the access. -/
def walk (d va : Nat) (s : State) : Except Status (Bool × Nat) × State :=
  match readEntry (xlatBase s d) (2 ^ 21) (va / 2 ^ 30) s with
  | (.error st, s1) => (.error st, s1)
  | (.ok e1, s1) =>
    if !bit e1 0 then (.error .translation, s1)
    else if bit e1 1 then (.ok (true, e1), s1)
    else
      match readEntry ((bits e1 21 32) <<< 12) 4096 (va / 2 ^ 21 % 512) s1 with
      | (.error st, s2) => (.error st, s2)
      | (.ok e2, s2) =>
        if !bit e2 0 || !bit e2 1 then (.error .translation, s2) else (.ok (false, e2), s2)

/-- A held entry serves the address. -/
def tlbHit (va : Nat) (e : TlbEntry) : Bool :=
  if e.big then e.vpn == va / 2 ^ 30 else e.vpn == va / 2 ^ 21

/-- A new entry held; a full store gives one up (log entry 7). -/
def tlbFill (cap va : Nat) (l : List TlbEntry) (e : TlbEntry) : List TlbEntry :=
  if l.length < cap then l ++ [e] else l.set (Config.tlbVictim va % cap) e

/-- Entries a compute die's translation cache holds. -/
def dieEntries (s : State) (d : Nat) : List TlbEntry := mget (fun _ => []) s.dieCache d

/-- The leaf entry that the tables hold for an address now, as stored. -/
def leafNow (s : State) (d va : Nat) : Option (Bool × Nat) :=
  let e1 := leNat (rdBytes s (xlatBase s d + 8 * (va / 2 ^ 30)) 8)
  if !bit e1 0 then none
  else if bit e1 1 then some (true, e1)
  else
    let e2 := leNat (rdBytes s ((bits e1 21 32) <<< 12 + 8 * (va / 2 ^ 21 % 512)) 8)
    if bit e2 0 && bit e2 1 then some (false, e2) else none

/-- The held entry that serves an address, if any. Where the tables have changed under it, the spec leaves undefined what an access
through it does (R100): a free value says whether the held entry or the tables' serves (log entry 56). -/
def heldEntry (d va : Nat) (l : List TlbEntry) (s : State) : Option TlbEntry × State :=
  match l.find? (tlbHit va) with
  | some e =>
    if leafNow s d va = some (e.big, e.entry) then (some e, s)
    else
      let f := freeWord s
      (if f.1.getLsbD 0 then some e else none, f.2)
  | none => (none, s)

/-- The leaf entry for an address: from the tile's TLB, else from the die's cache, else by the walk; a miss is counted and
fills what missed (Table 3-14, R98). -/
def findLeaf (t : TileId) (va : Nat) (s : State) : Except Status (Bool × Nat) × State :=
  match heldEntry (tileDie t) va (s.tile t).tlb s with
  | (some e, s) => (.ok (e.big, e.entry), s)
  | (none, s) =>
    let s := rinc (R.XLAT_MISS t.toNat) F.XLAT_MISS_COUNT 1 s
    match heldEntry (tileDie t) va (dieEntries s (tileDie t)) s with
    | (some e, s) => (.ok (e.big, e.entry), s.modTile t (fun c => { c with tlb := tlbFill 64 va c.tlb e }))
    | (none, s) =>
      match walk (tileDie t) va s with
      | (.error st, s1) => (.error st, s1)
      | (.ok (big, e), s1) =>
        let h : TlbEntry := ⟨if big then va / 2 ^ 30 else va / 2 ^ 21, big, e⟩
        let s2 := s1.modTile t (fun c => { c with tlb := tlbFill 64 va c.tlb h })
        (.ok (big, e),
          { s2 with dieCache := mset (fun _ => []) s2.dieCache (tileDie t) (tlbFill 4096 va (dieEntries s2 (tileDie t)) h) })

/-- Translation of one address by a unit of tile `t` for a read, a write or both (R96, R97). An address outside 48 bits ends
with TRANSLATION (R139; log entry 8). -/
def translate (t : TileId) (va : Nat) (rd wr : Bool) (s : State) : Xlat × State :=
  if va < 2 ^ 48 then
    match findLeaf t va s with
    | (.error st, s1) => (.bad st, s1)
    | (.ok (big, e), s1) => (leafCheck s1 va big e rd wr, s1)
  else (.bad .translation, s)

/-- Record a translation or protection failure (R97, Table 3-15). -/
def xlatFault (t : TileId) (va : Nat) (st : Status) (unit : Nat) (s : State) : State :=
  if st = .translation ∨ st = .protection then
    rput (R.XLAT_FAULT_INFO t.toNat) (st.code + unit * 256) (rput (R.XLAT_FAULT_VA t.toNat) (va % 2 ^ 48) s)
  else s

/-- How a translated access of a unit of tile `t` is carried: at once (own scratchpad, HBM, moraine), as a request to another
tile or another module, lost because its target's domain is not ON (R423), or refused for want of a route (R356). -/
inductive Route where
  | now
  | tile (t : TileId)
  | dev (d : Nat)
  | lost
  | noRoute
  deriving DecidableEq, Repr

/-- The port of a moraine offset: 4 KiB granules alternate between the ports with interleaving (R288). -/
def morPort (s : State) (o : Nat) : Nat := if rbit s R.MOR_CTL F.MOR_CTL_ILV then o / 4096 % 2 else if o < 2 ^ 42 then 0 else 1

/-- The host I/O die of a moraine offset's port is ON (R423). -/
def morReach (s : State) (o : Nat) : Bool := s.domOn (3 + morPort s o)

/-- The route of an access. -/
def route (s : State) (t : TileId) (dev la : Nat) : Route :=
  if dev = s.devId then
    match place la with
    | .spad u _ => if u = t then .now else .tile u
    | .hbm k => if s.domReach (48 + k) then .now else .lost
    | .moraine o => if morReach s o then .now else .lost
    | _ => .now
  else if bit (rget s (R.MOS_ROUTE dev) F.MOS_ROUTE_ENTRY) 31 then .dev dev
  else .noRoute

/-- The die registers' INVAL: the die cache and the TLBs of the die's tiles are emptied and BUSY is set (R100). -/
def invalDie (d : Nat) (s : State) : State :=
  let s := { s with dieCache := mdel s.dieCache d }
  let s := (List.range 64).foldl (fun s i => s.modTile (BitVec.ofNat 11 (d * 64 + i)) (fun c => { c with tlb := [] })) s
  rset (R.XLAT_STATUS d) F.XLAT_STATUS_BUSY 1 s

/-- XLAT_INVAL: a write of GO. -/
def execXlatInval (d : DieId) (s : State) : Host.Outcome State Fault Refusal :=
  .next (hostWrite (16 + d.toNat) (invalDie d.toNat) s)

/-- XLAT_INVAL_DONE: nothing is under way any more and BUSY clears. -/
def execXlatInvalDone (d : DieId) (s : State) : Host.Outcome State Fault Refusal :=
  .next (rset (R.XLAT_STATUS d.toNat) F.XLAT_STATUS_BUSY 0 s)

end Sys2Proof.Machine
end

