-- ==== Sys2Proof/Machine/Sync.lean ====
section
/-! DEFINITION. Semaphores (R79 to R85), remote-write windows (R88 to R95), and the arrival of mesh requests at a tile. -/

namespace Sys2Proof.Machine

/-! ### Semaphores -/

/-- A semaphore's value. -/
def semVal (s : State) (t : TileId) (n : SemIdx) : Nat := rget s (R.SEM t.toNat n.toNat) F.SEM_VALUE

/-- SET(x) (Table 3-6). -/
def semSet (t : TileId) (n : SemIdx) (x : Nat) (s : State) : State := rset (R.SEM t.toNat n.toNat) F.SEM_VALUE x s

/-- POST(n): saturating, with OVF (Table 3-6). POST(0) posts nothing. -/
def semPost (t : TileId) (n : SemIdx) (cnt : Nat) (s : State) : State :=
  if cnt = 0 then s
  else
    let v := semVal s t n + cnt
    let s := rset (R.SEM t.toNat n.toNat) F.SEM_VALUE (min v 0xFFFF) s
    progress t (if 0xFFFF < v then rset (R.SEM t.toNat n.toNat) F.SEM_OVF 1 s else s)

/-- Pending acquires of a semaphore, oldest first. -/
def semWaiters (s : State) (t : TileId) (n : SemIdx) : List Waiter := mget (fun _ => []) (s.tile t).waiters n.toNat

def setWaiters (t : TileId) (n : SemIdx) (l : List Waiter) (s : State) : State :=
  s.modTile t (fun c => { c with waiters := mset (fun _ => []) c.waiters n.toNat l })

/-- The first queued instruction of an engine, changed. -/
def modHead (f : EngCmd → EngCmd) : List EngCmd → List EngCmd
  | [] => []
  | c :: cs => f c :: cs

/-- An engine's grant: the link acquire its first instruction waits for is held. -/
def engGrant (c : EngCmd) : EngCmd :=
  match c.phase with
  | .waitIn => { c with phase := .haveIn }
  | .waitOut => { c with phase := .ready }
  | _ => c

/-- The slot's stream is a STORE or SCATTER (Table 6-4). -/
def outStream (q : Slot) : Bool := bits q.sdesc.toNat 0 8 == 3 || bits q.sdesc.toNat 0 8 == 4

/-- Tell the acquiring unit that its acquire of semaphore `n` is granted. A buffer of a STORE or SCATTER stream is committed when
its FULL acquire is granted (R172). -/
def tellGrant (t : TileId) (n : SemIdx) (who : AcqWho) (s : State) : State :=
  match who with
  | .xcore => s.modX t (fun x => { x with wait := some (.sacq n true) })
  | .slot sl =>
    let q := mget (fun _ => Slot.reset) (s.tile t).slots sl.toNat
    let s := if !q.wantIdx && q.stage == 0 && outStream q then
        rwrap (R.SLOT_COMMITTED t.toNat sl.toNat) F.SLOT_COMMITTED_BUFS 1 s else s
    rset (R.SLOT_STATE t.toNat sl.toNat) F.SLOT_STATE_STATE 2
      (s.modTile t (fun c => { c with slots := mmod (fun _ => Slot.reset) c.slots sl.toNat (fun q =>
        if q.wantIdx then { q with idxHave := q.idxHave + 1, waiting := none, wantIdx := false }
        else { q with stage := q.stage + 1, waiting := none }) }))
  | .fprog => s.modF t (fun f => { f with wait := some (.sem n true) })
  | .ce => s.modTile t (fun c => { c with ce := modHead engGrant c.ce })
  | .gme => s.modTile t (fun c => { c with gme := modHead engGrant c.gme })

/-- The oldest pending acquire granted, where the value allows it (R81 step 3, R82). -/
def semGrant (t : TileId) (n : SemIdx) (s : State) : State :=
  match semWaiters s t n with
  | [] => s
  | w :: ws =>
    if w.n ≤ semVal s t n then
      tellGrant t n w.who (setWaiters t n ws (semSet t n (semVal s t n - w.n) s))
    else s

/-- Every grant the value allows, oldest first. -/
def semGrants : Nat → TileId → SemIdx → State → State
  | 0, _, _, s => s
  | k + 1, t, n, s => semGrants k t n (semGrant t n s)

/-- ACQUIRE(n) arrives: granted at once with n = 0, or with nothing older pending and the value enough; else it stays
pending (R79, R82). -/
def acquire (t : TileId) (n : SemIdx) (who : AcqWho) (cnt : Nat) (s : State) : Bool × State :=
  if cnt = 0 then (true, s)
  else if semWaiters s t n = [] ∧ cnt ≤ semVal s t n then (true, semSet t n (semVal s t n - cnt) s)
  else (false, setWaiters t n (semWaiters s t n ++ [⟨who, cnt⟩]) s)

/-- A unit's pending acquires withdrawn without effect. -/
def withdraw (t : TileId) (who : AcqWho) (s : State) : State :=
  s.modTile t (fun c => { c with
    waiters := (c.waiters.map (fun e => (e.1, e.2.filter (fun w => !decide (w.who = who))))).filter (fun e => !e.2.isEmpty) })

/-- EMPTY and FULL of a link pair (R86). -/
def emptySem (k : PairIdx) : SemIdx := BitVec.ofNat 6 (2 * k.toNat)
def fullSem (k : PairIdx) : SemIdx := BitVec.ofNat 6 (2 * k.toNat + 1)

/-- A write of `SEMn` (R80): SET of VALUE, and OVF cleared where a 1 is written. -/
def semWrite (t : TileId) (n : SemIdx) (v : Nat) (s : State) : State :=
  let s := if bit v 16 then rset (R.SEM t.toNat n.toNat) F.SEM_OVF 0 s else s
  semSet t n (v % 2 ^ 16) s

/-- A link of the tile that uses pair `k` carries buffers: a stream of the pair is under way, or an instruction of a unit that takes
from or posts to it (Table 4-18). -/
def linkBusy (s : State) (t : TileId) (k : PairIdx) : Bool :=
  let c := s.tile t
  let live (n : Nat) : Bool :=
    let v := rget s (R.SLOT_STATE t.toNat n) F.SLOT_STATE_STATE
    v != 0 && v != 7
  c.slots.any (fun e => e.2.sdesc.extractLsb' 16 5 == k && live e.1) ||
    (c.ce ++ c.gme).any (fun e => (e.imm.linEn && e.imm.lin == k) || (e.imm.loutEn && e.imm.lout == k)) ||
    c.x.units.any (fun u => u.link == some k)

/-- What an X-core's SSET or CSR write leaves in a semaphore: the value, or a free value while a link of its pair carries buffers
(Table 4-18). -/
def semPut (t : TileId) (n : SemIdx) (v : Nat) (s : State) : Nat × State :=
  if linkBusy s t (n.extractLsb' 1 5) then ((freeWord s).1.toNat % 2 ^ 16, (freeWord s).2) else (v, s)

/-- SEM_WRITE: the host writes `SEMn`. A disabled tile takes no write (R69). -/
def execSemWrite (t : TileId) (n : SemIdx) (v : BitVec 32) (s : State) : Host.Outcome State Fault Refusal :=
  .next (hostTile t (semWrite t n v.toNat) s)

/-! ### Windows -/

def winIsOpen (s : State) (t : TileId) (w : WinIdx) : Bool := rbit s (R.WIN_CTL t.toNat w.toNat) F.WIN_CTL_OPEN

def winBase (s : State) (t : TileId) (w : WinIdx) : Nat := rget s (R.WIN_RANGE t.toNat w.toNat) F.WIN_RANGE_BASE_LINE

def winLen (s : State) (t : TileId) (w : WinIdx) : Nat := rget s (R.WIN_RANGE t.toNat w.toNat) F.WIN_RANGE_LEN_LINES

def winCount (s : State) (t : TileId) (w : WinIdx) : Nat := rget s (R.WIN_COUNT t.toNat w.toNat) F.WIN_COUNT_COUNT

/-- The bounds of R90 on a window's range. -/
def winRangeOk (base len : Nat) : Bool := decide (1 ≤ len ∧ base + len ≤ 24576)

/-- A window's range covers a scratchpad offset. -/
def winCovers (s : State) (t : TileId) (w : WinIdx) (off : Nat) : Bool :=
  decide (winBase s t w * 64 ≤ off ∧ off < (winBase s t w + winLen s t w) * 64)

/-- Bytes a window has accepted since the OPEN of a reopen that waits; none when no reopen waits. -/
def winReopen (s : State) (t : TileId) (w : WinIdx) : Option Nat := mfind (s.tile t).reopen w.toNat

def setReopen (t : TileId) (w : WinIdx) (v : Option Nat) (s : State) : State :=
  s.modTile t (fun c => { c with reopen := match v with
    | some n => mins c.reopen w.toNat n
    | none => mdel c.reopen w.toNat })

/-- OPEN of a window (R90): CLOSED with a legal range opens it with COUNT 0; OPEN starts a reopen. False where the range is
refused. For an OPEN while a reopen already waits, which Table 3-11 leaves out, the tally starts again at 0 and one end of the
reopen serves both (DESIGN CHOICE, log entry 55). -/
def winOpen (t : TileId) (w : WinIdx) (s : State) : Bool × State :=
  if winIsOpen s t w then (true, setReopen t w (some 0) s)
  else if winRangeOk (winBase s t w) (winLen s t w) then
    (true, rset (R.WIN_COUNT t.toNat w.toNat) F.WIN_COUNT_COUNT 0 (rset (R.WIN_CTL t.toNat w.toNat) F.WIN_CTL_OPEN 1 s))
  else (false, s)

/-- CLOSE of a window (R90): a waiting reopen is withdrawn and COUNT keeps its value. -/
def winClose (t : TileId) (w : WinIdx) (s : State) : State :=
  if winIsOpen s t w then setReopen t w none (rset (R.WIN_CTL t.toNat w.toNat) F.WIN_CTL_OPEN 0 s) else s

/-- A reopen ends: COUNT becomes the bytes accepted since the OPEN, saturating (R90, R95). -/
def winReopenDone (t : TileId) (w : WinIdx) (s : State) : State :=
  match winReopen s t w with
  | some n => setReopen t w none (rset (R.WIN_COUNT t.toNat w.toNat) F.WIN_COUNT_COUNT (min n 0xFFFFFFFF) s)
  | none => s

/-- A write of `WIN_RANGEw` (R90): ignored while the window is open. -/
def winRangeWrite (t : TileId) (w : WinIdx) (v : Nat) (s : State) : State :=
  if winIsOpen s t w then s
  else rset (R.WIN_RANGE t.toNat w.toNat) F.WIN_RANGE_LEN_LINES (bits v 16 15)
    (rset (R.WIN_RANGE t.toNat w.toNat) F.WIN_RANGE_BASE_LINE (bits v 0 15) s)

def allWins : List WinIdx := (List.range 32).map (BitVec.ofNat 5)

/-- What the window stage decides for a write to scratchpad offsets (R91). -/
inductive WinVerdict where
  | accept (w : WinIdx)
  | split
  | closed
  deriving DecidableEq, Repr

/-- The check of R91: the lowest-numbered open window that covers every byte accepts; a byte in some open window without
that is PROTECTION; none at all is WINDOW_CLOSED. -/
def winCheck (s : State) (t : TileId) (offs : List Nat) : WinVerdict :=
  match allWins.find? (fun w => winIsOpen s t w && offs.all (winCovers s t w)) with
  | some w => .accept w
  | none =>
    if allWins.any (fun w => winIsOpen s t w && offs.any (winCovers s t w)) then .split else .closed

/-- The window named in `WIN_LAST_LATE.WIN` for a refused write whose first byte lies in line `ln` (R91). -/
def lateWin (s : State) (t : TileId) (ln : Nat) : Nat :=
  (allWins.foldl (fun (best : Option WinIdx) w =>
    if winLen s t w = 0 ∨ ln < winBase s t w then best
    else match best with
      | none => some w
      | some b => if winBase s t b < winBase s t w then some w else some b) none).elim 0 (·.toNat)

/-- A write refused with WINDOW_CLOSED: counted, its writer recorded, LATE set on closed windows it touches (R91). -/
def winLate (t : TileId) (offs : List Nat) (wdev : Nat) (wtile : Nat) (s : State) : State :=
  let o := R.WIN_LAST_LATE t.toNat
  let win := lateWin s t (offs.headD 0 / 64)
  let s := rinc (R.WIN_LATE t.toNat) F.WIN_LATE_COUNT 1 s
  let s := rset o F.WIN_LAST_LATE_VALID 1 (rset o F.WIN_LAST_LATE_WIN win
    (rset o F.WIN_LAST_LATE_TILE wtile (rset o F.WIN_LAST_LATE_DEV wdev s)))
  allWins.foldl (fun s w =>
    if !winIsOpen s t w && offs.any (winCovers s t w) then rset (R.WIN_CTL t.toNat w.toNat) F.WIN_CTL_LATE 1 s else s) s

/-- Bytes counted for an accepted write (R92). -/
def winAdd (t : TileId) (w : WinIdx) (n : Nat) (s : State) : State :=
  let s := rinc (R.WIN_COUNT t.toNat w.toNat) F.WIN_COUNT_COUNT n s
  let s := match winReopen s t w with
    | some k => setReopen t w (some (k + n)) s
    | none => s
  progress t s

/-- A remote write at the window stage (R91, R92): accepted whole and counted, or refused whole. An accepted write that ends
FAULT_ECC counts all its bytes, those of the codeword it could not write among them (DESIGN CHOICE, log entry 55). -/
def windowWrite (t : TileId) (cells : List (Nat × Byte)) (wdev wtile : Nat) (s : State) : Status × State :=
  let offs := cells.map (fun c => c.1 % 2 ^ 24)
  if cells.all (fun c => addrOk s c.1) then
    match winCheck s t offs with
    | .accept w =>
      let r := memWrite cells s
      (r.1, winAdd t w cells.length r.2)
    | .split => (.protection, s)
    | .closed => (.windowClosed, winLate t offs wdev wtile s)
  else (.protection, s)

/-- A remote atomic add at the window stage (R78, R92). -/
def windowAadd (t : TileId) (addr : Nat) (wide : Bool) (v : Word) (wdev wtile : Nat) (s : State) :
    Status × List Byte × State :=
  let n := if wide then 8 else 4
  let a := addr / n * n
  let offs := (List.range n).map (fun i => (a + i) % 2 ^ 24)
  if addrOk s a then
    match winCheck s t offs with
    | .accept w =>
      let r := localAadd a wide v s
      (r.1, r.2.1, winAdd t w n r.2.2)
    | .split => (.protection, [], s)
    | .closed => (.windowClosed, [], winLate t offs wdev wtile s)
  else (.protection, [], s)

/-- WINDOW_OPEN: the host writes CMD OPEN; a range R90 refuses has no effect. -/
def execWindowOpen (t : TileId) (w : WinIdx) (s : State) : Host.Outcome State Fault Refusal :=
  .next (hostTile t (fun s => (winOpen t w s).2) s)

/-- WINDOW_CLOSE: the host writes CMD CLOSE. -/
def execWindowClose (t : TileId) (w : WinIdx) (s : State) : Host.Outcome State Fault Refusal :=
  .next (hostTile t (winClose t w) s)

/-- WINDOW_REOPEN_DONE: every write accepted before the OPEN is counted. -/
def execWindowReopenDone (t : TileId) (w : WinIdx) (s : State) : Host.Outcome State Fault Refusal :=
  .next (winReopenDone t w s)

/-- WIN_RANGE_WRITE: the host writes `WIN_RANGEw`. -/
def execWinRangeWrite (t : TileId) (w : WinIdx) (v : BitVec 32) (s : State) : Host.Outcome State Fault Refusal :=
  .next (hostTile t (winRangeWrite t w v.toNat) s)

/-! ### Swizzle ranges -/

/-- The swizzle pattern of a 64 KiB unit (R72, R73). -/
def unitPattern (s : State) (t : TileId) (u : Nat) : Nat :=
  match (List.range 8).find? (fun n =>
    let o := R.SPAD_SWZR t.toNat n
    rbit s o F.SPAD_SWZR_EN && decide (rget s o F.SPAD_SWZR_LIMIT ≤ 23 ∧ rget s o F.SPAD_SWZR_BASE ≤ u ∧
      u ≤ rget s o F.SPAD_SWZR_LIMIT)) with
  | some n => rget s (R.SPAD_SWZR t.toNat n) F.SPAD_SWZR_PATTERN
  | none => 0

/-- The bank that holds a scratchpad offset (R72, Table 3-4). -/
def bankOf (s : State) (t : TileId) (off : Nat) : Nat :=
  match unitPattern s t (off / 65536) with
  | 1 => (bits off 6 4).xor (bits off 10 4)
  | 2 => (bits off 6 4).xor (bits off 12 4)
  | 3 => (bits off 6 4).xor (bits off 14 4)
  | _ => bits off 6 4

/-- A write of `SPAD_SWZRn` (R74): the contents of every unit whose pattern changes are undefined. Error and poison marks stay
with the offsets that had them (DESIGN CHOICE, log entry 55). -/
def swizzleWrite (t : TileId) (n : Nat) (v : Nat) (s : State) : State :=
  let s' := rput (R.SPAD_SWZR t.toNat n) (v % 2 ^ 3 + (bits v 8 5) <<< 8 + (bits v 16 5) <<< 16) s
  (List.range 24).foldl (fun a u =>
    if unitPattern s t u = unitPattern s' t u then a
    else freeBytes ((List.range 65536).map (spadAddr t (u * 65536) + ·)) a) s'

/-- SWIZZLE_RANGE_WRITE: the host writes `SPAD_SWZRn`. -/
def execSwizzleRangeWrite (t : TileId) (n : BitVec 3) (v : BitVec 32) (s : State) : Host.Outcome State Fault Refusal :=
  .next (hostTile t (swizzleWrite t n.toNat v.toNat) s)

/-! ### Requests arriving at a tile -/

/-- The device and tile that `WIN_LAST_LATE` records for a request's issuer; tile 0x7FF for a Collective Engine. -/
def writerOf (s : State) : Issuer → Nat × Nat
  | .xwrite t _ _ | .xload t _ | .fload t | .fwrite t | .xfer t _ | .slotPost t _ _ | .abandoned t _ | .acked t => (s.devId, t.toNat)
  | .collWrite => (s.devId, 0x7FF)
  | .fill _ | .mirror _ _ | .firn _ _ => (s.devId, 0x7FE)

/-- The unit of a tile that issued a request: 0 the X-core, 1 the F-core, 2 another unit. -/
def issuerPart : Issuer → Option (TileId × Nat)
  | .xwrite t _ _ | .xload t _ => some (t, 0)
  | .abandoned t k => some (t, if k.isSome then 0 else 2)
  | .acked t => some (t, 2)
  | .fload t | .fwrite t | .xfer t _ | .slotPost t _ _ => some (t, 1)
  | .fill _ | .mirror _ _ | .firn _ _ | .collWrite => none

/-- The local addresses a request touches. -/
def opAddrs : MemOp → List Nat
  | .write cells => cells.map (·.1)
  | .read addrs => addrs
  | .aadd a wide _ _ => (List.range (if wide then 8 else 4)).map (a / (if wide then 8 else 4) * (if wide then 8 else 4) + ·)
  | .post _ _ _ => []

/-- An older request of the same unit still has to take effect at an address that request `id` touches: accesses by one unit to
one address take effect in its issue order (R101 rule 1). -/
def olderWaits (s : State) (id : Nat) (x : Txn) : Bool :=
  (issuerPart x.iss).isSome && s.txns.any (fun e =>
    decide (e.1 < id) && decide (issuerPart e.2.iss = issuerPart x.iss) && decide (e.2.dst = x.dst) &&
      (match e.2.phase with
      | .request | .refused => (opAddrs e.2.op).any ((opAddrs x.op).contains ·)
      | _ => false))

/-- A request reaches tile `t`'s router: dropped and counted when the tile's domain is not ON (R423), refused while the tile
drains (R424), else served; an older request of its unit to the same address goes first (R101). -/
def arrive (id : Nat) (x : Txn) (t : TileId) (serve : State → Status × List Byte × State) (s : State) : State :=
  if !s.domReach (16 + tileDie t) then
    putTxn id { x with phase := .lost } (rinc (R.MESH_ORPHAN t.toNat) F.MESH_ORPHAN_COUNT 1 s)
  else if s.tileDraining t then putTxn id { x with phase := .reply .retryLater [] } s
  else if olderWaits s id x then s
  else
    let r := serve s
    putTxn id { x with phase := .reply r.1 r.2.1 } r.2.2

/-- An answer whose request came with an uncorrectable error in its payload (R25): FAULT_ECC. -/
def spoiled (bad : Bool) (st : Status) : Status := if bad ∧ st = .ok then .faultEcc else st

/-- Cells as they reach the window stage: a payload with an uncorrectable error is not passed on as good, and the bytes it was to
write are undefined (R26). -/
def payload (bad : Bool) (cells : List (Nat × Byte)) (s : State) : List (Nat × Byte) × State :=
  if bad then
    (cells.zipIdx.map (fun p => (p.1.1, Config.freeByte (s.freeCtr + p.2))), { s with freeCtr := s.freeCtr + cells.length })
  else (cells, s)

/-- REMOTE_WRITE: write request `id` reaches its tile; `bad` says that its payload has an uncorrectable error (R25). -/
def execRemoteWrite (id : Nat) (bad : Bool) (s : State) : Host.Outcome State Fault Refusal :=
  .next (match mfind s.txns id with
    | some x =>
      match x.phase, x.dst, x.op with
      | .request, .tile t, .write cells =>
        arrive id x t (fun s =>
          let p := payload bad cells s
          let r := windowWrite t p.1 (writerOf s x.iss).1 (writerOf s x.iss).2 p.2
          (spoiled bad r.1, [], r.2)) s
      | _, _, _ => s
    | none => s)

/-- REMOTE_READ: read request `id` reaches its tile. -/
def execRemoteRead (id : Nat) (s : State) : Host.Outcome State Fault Refusal :=
  .next (match mfind s.txns id with
    | some x =>
      match x.phase, x.dst, x.op with
      | .request, .tile t, .read addrs => arrive id x t (localRead addrs) s
      | _, _, _ => s
    | none => s)

/-- REMOTE_ATOMIC_ADD: atomic request `id` reaches its tile; with an uncorrectable error in its payload what it adds is free. -/
def execRemoteAtomicAdd (id : Nat) (bad : Bool) (s : State) : Host.Outcome State Fault Refusal :=
  .next (match mfind s.txns id with
    | some x =>
      match x.phase, x.dst, x.op with
      | .request, .tile t, .aadd a wide v ret =>
        arrive id x t (fun s =>
          let p := if bad then freeWord s else (v, s)
          let r := windowAadd t a wide p.1 (writerOf s x.iss).1 (writerOf s x.iss).2 p.2
          (spoiled bad r.1, if ret && !bad then r.2.1 else [], r.2.2)) s
      | _, _, _ => s
    | none => s)

/-- SEMAPHORE_POST: post request `id` reaches its tile; a disabled tile refuses it with PROTECTION (R119). -/
def execSemaphorePost (id : Nat) (s : State) : Host.Outcome State Fault Refusal :=
  .next (match mfind s.txns id with
    | some x =>
      match x.phase, x.dst, x.op with
      | .request, .tile t, .post _ n cnt =>
        if s.enabled t then arrive id x t (fun s => (.ok, [], semPost t n cnt s)) s
        else putTxn id { x with phase := .reply .protection [] } s
      | _, _, _ => s
    | none => s)

end Sys2Proof.Machine
end

