-- ==== Sys2Proof/Machine/Csr.lean ====
section
/-! DEFINITION. Register accesses: what a read of a register gives and clears, what a write changes (R7 to R11, R505), the
fields that are computed from other state, and the effects of a write to a tile's own registers. -/

namespace Sys2Proof.Machine

/-- The mask of a field. -/
def fldMask (f : Fld) : Nat := (2 ^ f.w - 1) <<< f.lo

/-- The mask of a register's fields of some access types. -/
def accMask (r : RegRow) (p : Acc → Bool) : Nat :=
  r.fields.foldl (fun a f => if p f.acc then a ||| fldMask f.fld else a) 0

/-- A computed field put into a register value. -/
def putF (f : Fld) (x v : Nat) : Nat := putBits v f.lo f.w x

/-- CE bypass of a tile (R198); none recorded means no bypass. -/
def bypassOf (s : State) (t : TileId) : Bypass := (mfind s.repair.bypass t.toNat).getD ⟨none, none⟩

/-- Columns a tile's cube works with: 16 less the bypassed ones (R198). -/
def ceWidth (s : State) (t : TileId) : Nat :=
  16 - b2n (bypassOf s t).a.isSome - b2n (bypassOf s t).b.isSome

/-- The physical columns of a tile's cube that are not bypassed, ascending: output column j of a chunk is computed by the j-th
(R198). -/
def physCols (s : State) (t : TileId) : List Nat :=
  (List.range 16).filter (fun c =>
    (bypassOf s t).a.elim true (fun x => x.toNat != c) && (bypassOf s t).b.elim true (fun x => x.toNat != c))

/-- The GME serves a CE.MM with a sparse A: the cube has read that A and has not completed the instruction (R230). -/
def ceServe (c : Tile) : Bool :=
  match c.ce with
  | e :: _ => decide (e.op = .ceMm) && e.held.any (fun h => h.sp.isSome)
  | [] => false

/-- The oldest instruction of an engine's queue runs: the engine has taken it. -/
def engRuns (l : List EngCmd) : Bool := l.head?.any (fun e => decide (e.phase ≠ .queued))

/-- Tile of a BAR0 offset in the tile region, and the offset in its block. -/
def tileOff (o : Nat) : Option (TileId × Nat) :=
  if 0x8000000 ≤ o ∧ o < 0x10000000 then some (BitVec.ofNat 11 ((o - 0x8000000) / 0x10000), o % 0x10000) else none

/-- Fields of a tile's registers that are computed from other state. -/
def tileView (s : State) (t : TileId) (lo : Nat) (v : Nat) : Nat :=
  let c := s.tile t
  if lo = 0x0000 then
    putF F.TILE_ID_ENABLED (b2n (s.enabled t)) (putF F.TILE_ID_Y (tileY t) (putF F.TILE_ID_X (tileX t) t.toNat))
  else if lo = 0x6008 then
    let b := bypassOf s t
    ceWidth s t + (b.a.elim 0 (fun x => x.toNat <<< 8 + 1 <<< 12)) + (b.b.elim 0 (fun x => x.toNat <<< 16 + 1 <<< 20))
  else if !s.enabled t then (if lo = 0x0008 then tsDisabled else (regReset (0x8000000 + 0x10000 * t.toNat + lo)).toNat)
  else if lo = 0x0008 then (if s.tileDraining t then tsDraining else v)
  else if 0x0100 ≤ lo ∧ lo < 0x0200 then
    putF F.SEM_WAITERS (min 127 (semWaiters s t (BitVec.ofNat 6 ((lo - 0x100) / 4))).length) v
  else if lo = 0x2008 then putF F.XC_STATUS_GME_OUT c.gme.length (putF F.XC_STATUS_CE_OUT c.ce.length v)
  else if lo = 0x4008 then putF F.FC_STATUS_OUTSTANDING c.xfers.length v
  else if lo = 0x6010 then
    putF F.CE_STATUS_QUEUED (min 8 c.ce.length) (putF F.CE_STATUS_BUSY (b2n (engRuns c.ce)) v)
  else if lo = 0x7018 then
    putF F.GME_STATUS_QUEUED (min 8 c.gme.length) (putF F.GME_STATUS_CE_SERVE (b2n (ceServe c))
      (putF F.GME_STATUS_BUSY (b2n (engRuns c.gme || ceServe c)) v))
  else v

/-- What an access of a register sees: its stored value with the computed fields in place. -/
def regView (s : State) (o : Nat) : Nat :=
  match tileOff o with
  | some (t, lo) => tileView s t lo (rraw s o)
  | none => rraw s o

/-- A 4-byte piece of a register read at an offset: its readable bits, and the RC fields of the piece cleared (R7, R505). A
gap reads zero (R11). -/
def regRead4 (o : Nat) (s : State) : Nat × State :=
  match findReg o with
  | some (start, r) =>
    let sh := 8 * (o - start)
    let v := (regView s start).land (accMask r (fun a => decide (a ≠ .wo)))
    let clr := (accMask r (fun a => decide (a = .rc))).land (0xFFFFFFFF <<< sh)
    (bits v sh 32, if clr = 0 then s else rput start ((rraw s start) - (rraw s start).land clr) s)
  | none => (0, s)

/-- A register value after a plain write of the bits under `mask` (R7): RW bits take the value, a 1 clears a W1C bit and sets
a W1S bit, the others stay. -/
def regMerge (r : RegRow) (old mask v : Nat) : Nat :=
  let rw := (accMask r (fun a => decide (a = .rw))).land mask
  let w1c := ((accMask r (fun a => decide (a = .w1c))).land mask).land v
  let w1s := ((accMask r (fun a => decide (a = .w1s))).land mask).land v
  let a := old - old.land rw + v.land rw
  (a - a.land w1c).lor w1s

/-- The plain write of a register. -/
def regPlain (start : Nat) (r : RegRow) (mask v : Nat) (s : State) : State :=
  rput start (regMerge r (rraw s start) mask v) s

/-- The window of a tile-block offset in the window region. -/
def winOfOff (lo : Nat) : WinIdx := BitVec.ofNat 5 ((lo - 0x400) / 16)

/-- Leave HALTED (R125): the core runs on. -/
def xResume (t : TileId) (s : State) : State :=
  if rget s (R.XC_STATUS t.toNat) F.XC_STATUS_STATE = 3 then rset (R.XC_STATUS t.toNat) F.XC_STATUS_STATE 1 s else s

/-- An engine's instruction that is under way, marked: its result is undefined (Table 4-18). -/
def markUndef (e : EngCmd) : EngCmd :=
  match e.phase with
  | .queued => e
  | _ => { e with undef := true }

/-- An X-core's write to the registers of a unit that runs an instruction: the instruction's result is undefined (Table 4-18). A
write of `PRED_GO` while BUSY is one to the prediction command, queued or running (R235). -/
def unitWritten (t : TileId) (lo : Nat) (s : State) : State :=
  if 0x4000 ≤ lo ∧ lo < 0x6000 then
    if (s.tile t).f.load.isSome then s.modTile t (fun c => { c with f := { c.f with undef := true } }) else s
  else if 0x6000 ≤ lo ∧ lo < 0x7000 then s.modTile t (fun c => { c with ce := modHead markUndef c.ce })
  else if lo = 0x8010 then s.modTile t (fun c => { c with gme := c.gme.map (fun e =>
      if e.op = .pred then { e with undef := true } else e) })
  else if 0x7000 ≤ lo ∧ lo < 0x9000 then
    s.modTile t (fun c => { c with gme := modHead (fun e =>
      if (e.op == .pred) == decide (0x8000 ≤ lo) then markUndef e else e) c.gme })
  else s

/-- A write of `PRED_GO` (R235): a prediction command joins the GME queue and BUSY is set; one of a VERDICT clears VALID
(R247). While BUSY it starts nothing. -/
def predGo (t : TileId) (line : Nat) (s : State) : State :=
  let o := R.PRED_STATUS t.toNat
  if rbit s o F.PRED_STATUS_BUSY || decide (8 ≤ (s.tile t).gme.length) then s
  else
    let s := rset o F.PRED_STATUS_BUSY 1 s
    let s := if rdByte s (spadAddr t (64 * line)) = 2 then rset (R.PRED_VERDICT t.toNat) F.PRED_VERDICT_VALID 0 s else s
    s.modTile t (fun c => { c with
      gme := c.gme ++ [⟨.pred, 0, 0, 0, BitVec.ofNat 64 line, 0, ⟨0, false, 0, false, false, false, false⟩,
        rget s (R.XC_PC t.toNat) F.XC_PC_PC, .queued, none,
        [], none, false, c.x.seq⟩] })

/-- A write of the bits under `mask` to a tile's register at block offset `lo`, with its effect. A disabled tile takes no
write (R69). -/
def tileRegWrite (t : TileId) (lo start : Nat) (r : RegRow) (mask v : Nat) (s : State) : State :=
  if !s.enabled t then s
  else if 0x0100 ≤ lo ∧ lo < 0x0200 then
    if mask.land 0xFFFFFFFF = 0xFFFFFFFF then semWrite t (BitVec.ofNat 6 ((lo - 0x100) / 4)) v s else s
  else if 0x0400 ≤ lo ∧ lo < 0x0600 then
    let w := winOfOff lo
    if lo % 16 = 0 then winRangeWrite t w v s
    else if lo % 16 = 4 then
      let s := regPlain start r mask v s
      if v % 4 = 1 then (winOpen t w s).2 else if v % 4 = 2 then winClose t w s else s
    else s
  else if 0x0040 ≤ lo ∧ lo < 0x0060 then swizzleWrite t ((lo - 0x40) / 4) v s
  else if lo = 0x2000 then
    let s := regPlain start r mask v s
    if bit v 3 then xResume t s else s
  else if lo = 0x8010 then
    predGo t (v % 2 ^ 15) s
  else regPlain start r mask v s

/-- An X-core's read of its own tile's register block (R108): 4 or 8 bytes at an aligned offset. -/
def tileCsrRead (t : TileId) (lo n : Nat) (s : State) : Nat × State :=
  let o := 0x8000000 + 0x10000 * t.toNat + lo
  let r := regRead4 o s
  if n = 8 then
    let h := regRead4 (o + 4) r.2
    (r.1 + h.1 <<< 32, h.2)
  else r

/-- The registers an aligned access of 4 or 8 bytes reaches, in address order: start, row, mask of the bits covered and the
value lined up with the register (R505). -/
def regPieces (o n v : Nat) : List (Nat × RegRow × Nat × Nat) :=
  match findReg o with
  | some (start, r) =>
    if r.bytes = 8 ∨ n = 4 then
      let sh := 8 * (o - start)
      [(start, r, (2 ^ (8 * n) - 1) <<< sh, v <<< sh)]
    else
      (start, r, 0xFFFFFFFF, v % 2 ^ 32) ::
        (match findReg (o + 4) with
        | some (st2, r2) => [(st2, r2, 0xFFFFFFFF <<< (8 * (o + 4 - st2)), (v / 2 ^ 32) <<< (8 * (o + 4 - st2)))]
        | none => [])
  | none =>
    if n = 8 then
      match findReg (o + 4) with
      | some (st2, r2) => [(st2, r2, 0xFFFFFFFF <<< (8 * (o + 4 - st2)), (v / 2 ^ 32) <<< (8 * (o + 4 - st2)))]
      | none => []
    else []

/-- An X-core's write of its own tile's register block (R108): the control block at 0x2000 to 0x3FFF takes none. -/
def tileCsrWrite (t : TileId) (lo n v : Nat) (s : State) : State :=
  if 0x2000 ≤ lo ∧ lo < 0x4000 then s
  else
    (regPieces (0x8000000 + 0x10000 * t.toNat + lo) n v).foldl
      (fun s p => tileRegWrite t (p.1 % 0x10000) p.1 p.2.1 p.2.2.1 p.2.2.2 (unitWritten t (p.1 % 0x10000) s)) s

end Sys2Proof.Machine
end

