-- ==== Sys2Proof/Machine/XCore.lean ====
section
/-! DEFINITION. The X-core's states, issue and retire, faults and aborts, loads, stores and posts (R103 to R126), shared by
every instruction of the execute core. -/

namespace Sys2Proof.Machine

/-! ### Host queues and their commands, as units see them -/

def State.queue (s : State) (q : QIdx) : HostQueue := mget (fun _ => HostQueue.reset) s.queues q.toNat

def State.modQueue (s : State) (q : QIdx) (f : HostQueue → HostQueue) : State :=
  { s with queues := mset (fun _ => HostQueue.reset) s.queues q.toNat (f (s.queue q)) }

/-- The command of a queue with a sequence number, if it has not completed. -/
def State.cmd (s : State) (q : QIdx) (seq : W32) : Option Cmd := (s.queue q).cmds.find? (fun c => c.seq == seq)

/-- The first command with a sequence number, changed. Where the host breaks R50 and two commands share one, the younger waits
until the older is gone. -/
def modSeq (seq : W32) (f : Cmd → Cmd) : List Cmd → List Cmd
  | [] => []
  | c :: cs => if c.seq = seq then f c :: cs else c :: modSeq seq f cs

def State.modCmd (s : State) (q : QIdx) (seq : W32) (f : Cmd → Cmd) : State :=
  s.modQueue q (fun h => { h with cmds := modSeq seq f h.cmds })

/-- A final status reported for a command (R34): the first that stops the queue stays, with its detail and address. -/
def cmdReport (q : QIdx) (seq : W32) (st : Status) (detail va : Nat) (s : State) : State :=
  s.modCmd q seq (fun c =>
    if st.stops then
      if c.status.isSome then c else { c with status := some st, detail := detail, faultAddr := va }
    else if st = .stepMismatch then { c with stepMis := true }
    else c)

/-! ### State names (Table 4-17, Table 6-9, Table 6-6) -/

def xcIdle : Nat := 0
def xcRunning : Nat := 1
def xcWaiting : Nat := 2
def xcHalted : Nat := 3
def xcFaulted : Nat := 4

def fcIdle : Nat := 0
def fcRunning : Nat := 1
def fcWaiting : Nat := 2
def fcFaulted : Nat := 3
def fcEnded : Nat := 4

def slIdle : Nat := 0
def slOpening : Nat := 1
def slRunning : Nat := 2
def slBlocked : Nat := 3
def slFlushing : Nat := 4
def slCancelling : Nat := 5
def slAborting : Nat := 6
def slAborted : Nat := 7

def xState (s : State) (t : TileId) : Nat := rget s (R.XC_STATUS t.toNat) F.XC_STATUS_STATE

def setXState (t : TileId) (v : Nat) (s : State) : State := rset (R.XC_STATUS t.toNat) F.XC_STATUS_STATE v s

def fState (s : State) (t : TileId) : Nat := rget s (R.FC_STATUS t.toNat) F.FC_STATUS_STATE

/-- The F-core program's state, with WAIT_OBJ and WAIT_KIND zero until a wait sets them (log entry 17). -/
def setFState (t : TileId) (v : Nat) (s : State) : State :=
  let o := R.FC_STATUS t.toNat
  rset o F.FC_STATUS_STATE v (rset o F.FC_STATUS_WAIT_KIND 0 (rset o F.FC_STATUS_WAIT_OBJ 0 s))

def slotState (s : State) (t : TileId) (sl : SlotIdx) : Nat :=
  rget s (R.SLOT_STATE t.toNat sl.toNat) F.SLOT_STATE_STATE

def setSlotState (t : TileId) (sl : SlotIdx) (v : Nat) (s : State) : State :=
  rset (R.SLOT_STATE t.toNat sl.toNat) F.SLOT_STATE_STATE v s

def xPc (s : State) (t : TileId) : Nat := rget s (R.XC_PC t.toNat) F.XC_PC_PC

/-- Expert level of the X-core with a control bit set (R125). -/
def xExpert (s : State) (t : TileId) : Bool := rbit s (R.XC_CTL t.toNat) F.XC_CTL_EXPERT

def xDebug (s : State) (t : TileId) : Bool := xExpert s t && rbit s (R.XC_CTL t.toNat) F.XC_CTL_DEBUG

/-! ### Registers (Table 4-1) -/

def rdS (s : State) (t : TileId) (r : SReg) : Word :=
  if r = 0 then 0 else mget (fun _ => 0) (s.tile t).x.s r.toNat

/-- Writes to S0 are discarded. -/
def wrS (t : TileId) (r : SReg) (v : Word) (s : State) : State :=
  if r = 0 then s else s.modX t (fun x => { x with s := mset (fun _ => 0) x.s r.toNat v })

def rdV (s : State) (t : TileId) (r : VReg) : VWord := mget (fun _ => 0) (s.tile t).x.v r.toNat

def wrV (t : TileId) (r : VReg) (v : VWord) (s : State) : State :=
  s.modX t (fun x => { x with v := mset (fun _ => 0) x.v r.toNat v })

def rdP (s : State) (t : TileId) (r : PReg) : BitVec 64 := mget (fun _ => 0) (s.tile t).x.p r.toNat

def wrP (t : TileId) (r : PReg) (v : BitVec 64) (s : State) : State :=
  s.modX t (fun x => { x with p := mset (fun _ => 0) x.p r.toNat v })

def rdD (s : State) (t : TileId) (r : DReg) : DWord := mget (fun _ => 0) (s.tile t).x.d r.toNat

def wrD (t : TileId) (r : DReg) (v : DWord) (s : State) : State :=
  s.modX t (fun x => { x with d := mset (fun _ => 0) x.d r.toNat v })

/-- The lanes that are active under PG (R110). -/
def activeLanes (s : State) (t : TileId) (pg : PReg) : BitVec 64 :=
  if pg = 0 then BitVec.allOnes 64 else rdP s t pg

/-! ### Faults and aborts -/

/-- A slot sent to ABORTING with a status, its pending acquires withdrawn and its held faults dropped or acted on (R165, R171,
R173); a slot already ABORTING, ABORTED or IDLE stays. -/
def slotAbort (t : TileId) (sl : SlotIdx) (st : Status) (s : State) : State :=
  let k := slotState s t sl
  if slOpening ≤ k ∧ k ≤ slCancelling then
    let s := withdraw t (.slot sl) s
    let s := s.modTile t (fun c => { c with
      slots := mmod (fun _ => Slot.reset) c.slots sl.toNat (fun q => { q with waiting := none, wantIdx := false }) })
    rset (R.SLOT_STATE t.toNat sl.toNat) F.SLOT_STATE_HELD_FAULT 0
      (rset (R.SLOT_STATE t.toNat sl.toNat) F.SLOT_STATE_STATUS st.code (setSlotState t sl slAborting s))
  else s

def allSlots : List SlotIdx := (List.range 64).map (BitVec.ofNat 6)

/-- The tile's engines and streams stop (R121, R206, R232, R237, R165): queued engine and prediction instructions are
discarded, every open stream aborts, and the F-core program stops (log entry 12). -/
def stopUnits (t : TileId) (s : State) : State :=
  let s := withdraw t .gme (withdraw t .ce s)
  let s := withdraw t .fprog s
  let s := s.modTile t (fun c => { c with ce := [], gme := [], f := { c.f with wait := none, load := none, store := false } })
  let s := rset (R.PRED_STATUS t.toNat) F.PRED_STATUS_BUSY 0 s
  let s := allSlots.foldl (fun s sl => slotAbort t sl .aborted s) s
  if fState s t = fcRunning ∨ fState s t = fcWaiting then setFState t fcIdle s else s

/-- Record the fault of a launch; later faults of the same launch are not recorded (R122). -/
def recordXFault (t : TileId) (source : Nat) (st : Status) (pc : Nat) (precise illegal : Bool) (s : State) : State :=
  rput (R.XC_FAULT_PC t.toNat) pc
    (rput (R.XC_FAULT t.toNat) (st.code + source <<< 8 + b2n illegal <<< 11 + b2n precise <<< 12) s)

/-- Requests of a stopped X-core go on to their end, and nobody waits for their replies. -/
def abandonTxns (t : TileId) (s : State) : State :=
  { s with txns := s.txns.map (fun e =>
      match e.2.iss with
      | .xwrite u _ k => if u = t then (e.1, { e.2 with iss := .abandoned t (some k) }) else e
      | .xload u _ => if u = t then (e.1, { e.2 with iss := .abandoned t none }) else e
      | .fload u => if u = t then (e.1, { e.2 with iss := .abandoned t none }) else e
      | .fwrite u => if u = t then (e.1, { e.2 with iss := .abandoned t none }) else e
      | _ => e) }

/-- No write of the X-core that was issued before number `seq` has failed: a post behind one that failed never takes effect,
since not every earlier write takes effect (Table 4-11). -/
def postLives (x : XCore) (seq : Nat) : Bool :=
  match x.failed with
  | some k => decide (seq ≤ k)
  | none => true

/-- What an X-core leaves when it stops: nothing waits or loads, and a pending SACQ, WWAIT or reopen is withdrawn (R124). The posts
of instructions that have retired stay, and take effect once their release condition holds (R121). -/
def quitX (t : TileId) (s : State) : State :=
  let s := match (s.tile t).x.wait with
    | some (.reopen w) => setReopen t w none s
    | _ => s
  let s := abandonTxns t (withdraw t .xcore s)
  let s := rset (R.XC_STATUS t.toNat) F.XC_STATUS_WAIT_OBJ 0 s
  s.modX t (fun x => { x with
    wait := none, load := none, held := x.held.filter (fun h => postLives x h.seq), faults := [], skipBrk := false })

/-- The command processor aborts a tile at its next instruction boundary (R59, R124, R126). -/
def abortTile (t : TileId) (s : State) : State :=
  if xState s t = xcIdle then s
  else
    let s := if xState s t = xcFaulted then s else recordXFault t 6 .aborted (xPc s t) false false s
    let s := stopUnits t (quitX t s)
    rset (R.TILE_STATE t.toNat) F.TILE_STATE_STATE
      (if s.tileDraining t then tsDraining else tsIdle)
      (setXState t xcIdle (s.modX t (fun x => { x with launch := none })))

/-- The command processor aborts every other tile of a launch's set (R59). -/
def abortOthers (q : QIdx) (seq : W32) (t : TileId) (s : State) : State :=
  match s.cmd q seq with
  | some c => c.tiles.foldl (fun s u => if u = t.toNat then s else abortTile (BitVec.ofNat 11 u) s) s
  | none => s

/-- A tile's status reported to the command processor, which acts under R59. -/
def reportTile (t : TileId) (st : Status) (va : Nat) (s : State) : State :=
  match (s.tile t).x.launch with
  | some (q, seq) =>
    let s := cmdReport q seq st t.toNat va s
    if st.stops then abortOthers q seq t s else s
  | none => s

/-- The X-core enters FAULTED, records the fault and reports it; the tile's engines and streams stop (R121). -/
def enterFault (t : TileId) (source : Nat) (st : Status) (pc va : Nat) (precise illegal : Bool) (s : State) : State :=
  let s := recordXFault t source st pc precise illegal s
  let s := setXState t xcFaulted (stopUnits t (quitX t s))
  reportTile t st va s

/-- A precise fault at the current instruction, SOURCE 0 (Table 4-15). -/
def preciseFault (t : TileId) (st : Status) (va : Nat) (s : State) : State :=
  enterFault t 0 st (xPc s t) va true false s

/-- A fault on its way to the X-core, delivered by IMPRECISE_FAULT. -/
def pushFault (t : TileId) (f : XFault) (s : State) : State :=
  s.modX t (fun x => { x with faults := x.faults ++ [f] })

/-- A posted write or post with number `seq` failed and never takes effect. -/
def markFailed (t : TileId) (seq : Nat) (s : State) : State :=
  s.modX t (fun x => { x with failed := some (x.failed.elim seq (min seq)) })

/-- A posted write or post fails: an imprecise fault with SOURCE 4 (R107, R121). -/
def writeFault (t : TileId) (st : Status) (pc va seq : Nat) (s : State) : State :=
  markFailed t seq (pushFault t ⟨4, st, pc, va⟩ s)

/-! ### Issue and retire -/

/-- How an instruction's body ends: it retires with `len` bytes of code passed; it retires to another PC; it blocks; it waits
for a load; it stalls and retires nothing; it faults precisely. -/
inductive XOut where
  | retire (s : State)
  | jump (pc : Nat) (s : State)
  | wait (obj : Nat) (w : XWait) (s : State)
  | load (l : PendLoad) (s : State)
  | stall (s : State)
  | fault (st : Status) (va : Nat) (s : State)

/-- An instruction retires and the PC moves (R105, R123, R125, R178). -/
def xRetire (t : TileId) (pc : Nat) (s : State) : State :=
  let s := rput (R.XC_PC t.toNat) (pc % 2 ^ 48 / 4 * 4) s
  let s := rput (R.XC_WDOG t.toNat) 0 (rinc (R.XC_RETIRED t.toNat) F.XC_RETIRED_COUNT 1 s)
  let s := progress t (s.modX t (fun x => { x with skipBrk := false }))
  if xDebug s t && rbit s (R.XC_CTL t.toNat) F.XC_CTL_STEP then
    (if xState s t = xcRunning then setXState t xcHalted s else s)
  else s

/-- The core blocks on an instruction of Table 4-11 (R126). -/
def xBlock (t : TileId) (obj : Nat) (w : XWait) (s : State) : State :=
  let s := s.modX t (fun x => { x with wait := some w })
  rset (R.XC_STATUS t.toNat) F.XC_STATUS_WAIT_OBJ obj (setXState t xcWaiting s)

/-- The core is about to execute the instruction at its PC. -/
def xReady (s : State) (t : TileId) : Bool :=
  s.enabled t && xState s t == xcRunning && (s.tile t).x.load.isNone

/-- The PC matches the enabled breakpoint in debug, and the core has not already halted before this instruction (R125). -/
def xAtBreak (s : State) (t : TileId) : Bool :=
  xDebug s t && !(s.tile t).x.skipBrk && rbit s (R.XC_BRK t.toNat) F.XC_BRK_EN &&
  decide (rget s (R.XC_BRK t.toNat) F.XC_BRK_PC * 4 = xPc s t)

/-- Halt before the instruction at the PC (R125). -/
def xHalt (t : TileId) (s : State) : State :=
  setXState t xcHalted (s.modX t (fun x => { x with skipBrk := true }))

/-- A core's fetch of the 4 bytes at `pc` through translation with RD (R104): the status that ends it, if any. The word is read
where it lies at once; another tile's or module's is taken as it comes (log entry 6). -/
def fetchWord (t : TileId) (unit pc : Nat) (s : State) : Option Status × State :=
  match translate t pc true false s with
  | (.bad st, s1) => (some st, xlatFault t pc st unit s1)
  | (.ok dev la, s1) =>
    match route s1 t dev la with
    | .now =>
      let r := localRead ((List.range 4).map (la + ·)) s1
      (if r.1 = .ok then none else some r.1, r.2.2)
    | .lost => (some .timeout, rinc R.PDC_ORPHAN F.PDC_ORPHAN_COUNT 1 s1)
    | .noRoute => (some .protection, xlatFault t pc .protection unit s1)
    | .tile _ | .dev _ => (none, s1)

/-- The fetch of an instruction's words (R104, R105): the failing address and status, if any. -/
def xFetch (t : TileId) (len : Nat) (s : State) : Option (Nat × Status) × State :=
  let pc := xPc s t
  match fetchWord t unitX pc s with
  | (some st, s1) => (some (pc, st), s1)
  | (none, s1) =>
    if len = 8 then
      match fetchWord t unitX (pc + 4) s1 with
      | (some st, s2) => (some (pc + 4, st), s2)
      | (none, s2) => (none, s2)
    else (none, s1)

/-- What the end of a body makes of the state. -/
def xFinish (t : TileId) (len : Nat) : XOut → State
  | .retire s => xRetire t (xPc s t + len) s
  | .jump pc s => xRetire t pc s
  | .wait obj w s => xBlock t obj w s
  | .load l s => s.modX t (fun x => { x with load := some l })
  | .stall s => s
  | .fault st va s => preciseFault t st va s

/-- An instruction of `len` bytes at the PC of tile `t`: it runs only on a RUNNING core that waits for no load, after the
breakpoint and the fetch. On any other core the command finds nothing to do (log entry 1). -/
def xIssue (t : TileId) (len : Nat) (body : State → XOut) (s : State) : State :=
  if xReady s t then
    if xAtBreak s t then xHalt t s
    else
      match xFetch t len s with
      | (some (va, st), s1) => preciseFault t st va s1
      | (none, s1) => xFinish t len (body s1)
  else s

/-- A 32-bit instruction as a step. -/
def xRun (t : TileId) (body : State → XOut) (s : State) : Host.Outcome State Fault Refusal := .next (xIssue t 4 body s)

/-- A 64-bit instruction as a step. -/
def xRun8 (t : TileId) (body : State → XOut) (s : State) : Host.Outcome State Fault Refusal := .next (xIssue t 8 body s)

/-! ### Loads -/

/-- The byte of a load with index `k`, from the parts that carry it. -/
def loadByte (parts : List LoadPart) (k : Nat) : Byte :=
  parts.foldl (fun b p =>
    match p.data with
    | some d => match (p.idx.zip d).find? (fun e => e.1 == k) with
      | some e => e.2
      | none => b
    | none => b) 0

/-- Every part of a load has come. -/
def partsDone (parts : List LoadPart) : Bool := parts.all (fun p => p.data.isSome)

/-- Lanes built from a function of the lane number, lanes outside the mask kept (R110). -/
def lanesOf (old : VWord) (mask : BitVec 64) (f : Nat → Nat) : VWord :=
  (List.range 64).foldl (fun v i =>
    if mask.getLsbD i then
      BitVec.ofNat 2048 (putBits v.toNat (32 * i) 32 (f i % 2 ^ 32))
    else v) old

/-- Lane `i` of a V register. -/
def lane (v : VWord) (i : Nat) : Nat := bits v.toNat (32 * i) 32

/-- A finished load writes its register (Table 4-5, Table 4-7, Table 4-9). -/
def loadWrite (t : TileId) (dst : LoadDst) (parts : List LoadPart) (s : State) : State :=
  match dst with
  | .scalar rd size signed =>
    let v := leNat ((List.range size).map (loadByte parts))
    wrS t rd (BitVec.ofInt 64 (if signed then sx v (8 * size) else v)) s
  | .vec vd esz m =>
    wrV t vd (lanesOf (rdV s t vd) m (fun i => leNat ((List.range esz).map (fun j => loadByte parts (esz * i + j))))) s
  | .bcast vd m =>
    wrV t vd (lanesOf (rdV s t vd) m (fun _ => leNat ((List.range 4).map (loadByte parts)))) s
  | .desc da => wrD t da (BitVec.ofNat 512 (leNat ((List.range 64).map (loadByte parts)))) s

/-- The byte indices of an access grouped by the 64-byte line they fall in, in rising order. -/
def groupLines (va : Nat) (idx : List Nat) : List (List Nat) :=
  ((idx.map (fun k => (va + k) / 64)).dedup).map (fun l => idx.filter (fun k => (va + k) / 64 == l))

/-- One line of a read by the X-core: translated with RD, then read at once or sent to the tile or module that holds it.
Answers the status that ends the access, or the part. -/
def readLine (t : TileId) (va : Nat) (idx : List Nat) (iss : Issuer) (unit : Nat) (s : State) :
    Except Status LoadPart × State :=
  let a := va + idx.headD 0
  match translate t a true false s with
  | (.bad st, s1) => (.error st, xlatFault t a st unit s1)
  | (.ok dev la, s1) =>
    let addrs := idx.map (fun k => la + (k - idx.headD 0))
    match route s1 t dev la with
    | .now =>
      let r := localRead addrs s1
      if r.1 = .ok then (.ok ⟨idx, some r.2.1⟩, r.2.2) else (.error r.1, r.2.2)
    | .tile u => (.ok ⟨idx, none⟩, sendTxn ⟨iss, .tile u, a, .read addrs, .request⟩ s1)
    | .dev d => (.ok ⟨idx, none⟩, sendTxn ⟨iss, .dev (BitVec.ofNat 15 d), a, .read addrs, .request⟩ s1)
    | .lost =>
      (.ok ⟨idx, none⟩, sendTxn ⟨iss, .tile t, a, .read addrs, .lost⟩ (rinc R.PDC_ORPHAN F.PDC_ORPHAN_COUNT 1 s1))
    | .noRoute => (.error .protection, xlatFault t a .protection unit s1)

/-- The lines of a read, in order, numbered from `k`; the first that fails ends it with its address. -/
def readLines (t : TileId) (va : Nat) (mk : Nat → Issuer) (unit : Nat) :
    Nat → List (List Nat) → State → Except (Status × Nat) (List LoadPart) × State
  | _, [], s => (.ok [], s)
  | k, g :: gs, s =>
    match readLine t va g (mk k) unit s with
    | (.error st, s1) => (.error (st, va + g.headD 0), s1)
    | (.ok p, s1) =>
      match readLines t va mk unit (k + 1) gs s1 with
      | (.error e, s2) => (.error e, s2)
      | (.ok ps, s2) => (.ok (p :: ps), s2)

/-- A load of the bytes `idx` of an access at `va` (R104, R107, R113): done at once, waiting, or a precise fault. -/
def xLoad (t : TileId) (va : Nat) (idx : List Nat) (dst : LoadDst) (s : State) : XOut :=
  match readLines t va (.xload t) unitX 0 (groupLines va idx) s with
  | (.error (st, a), s1) => .fault st a s1
  | (.ok ps, s1) => if partsDone ps then .retire (loadWrite t dst ps s1) else .load ⟨dst, 4, ps⟩ s1

/-! ### Stores and atomics -/

/-- One line of a posted write: done at once, or sent; a failure is an imprecise fault with SOURCE 4 (R107, R121). -/
def storeLine (t : TileId) (cells : List (Nat × Byte)) (s : State) : State :=
  let a := (cells.headD (0, 0)).1
  let pc := xPc s t
  let seq := (s.tile t).x.seq
  match translate t a false true s with
  | (.bad st, s1) => writeFault t st pc a seq (xlatFault t a st unitX s1)
  | (.ok dev la, s1) =>
    let lc := cells.map (fun c => (la + (c.1 - a), c.2))
    match route s1 t dev la with
    | .now =>
      let r := localWrite lc s1
      if r.1 = .ok then r.2 else writeFault t r.1 pc a seq r.2
    | .tile u => sendTxn ⟨.xwrite t pc seq, .tile u, a, .write lc, .request⟩ s1
    | .dev d => sendWrite (.xwrite t pc seq) (BitVec.ofNat 15 d) a lc s1
    | .lost =>
      sendTxn ⟨.xwrite t pc seq, .tile t, a, .write lc, .lost⟩ (rinc R.PDC_ORPHAN F.PDC_ORPHAN_COUNT 1 s1)
    | .noRoute => writeFault t .protection pc a seq (xlatFault t a .protection unitX s1)

/-- The next number of an X-core memory access, by which a post knows the accesses issued before it (R117). -/
def nextSeq (t : TileId) (s : State) : State := s.modX t (fun x => { x with seq := x.seq + 1 })

/-- A store of bytes at virtual addresses, one posted write per 64-byte line (R107, R113). -/
def xStore (t : TileId) (cells : List (Nat × Byte)) (s : State) : XOut :=
  let lines := ((cells.map (fun c => c.1 / 64)).dedup).map (fun l => cells.filter (fun c => c.1 / 64 == l))
  .retire (nextSeq t (lines.foldl (fun s g => storeLine t g s) s))

/-- An atomic add (R78, R109): posted, or returning the old value as a load does. -/
def xAtomic (t : TileId) (addr : Nat) (wide : Bool) (v : Word) (ret : Option SReg) (s : State) : XOut :=
  let n := if wide then 8 else 4
  let a := addr / n * n
  let pc := xPc s t
  let seq := (s.tile t).x.seq
  let dst : LoadDst := .scalar (ret.getD 0) n false
  let fail (st : Status) (s : State) : XOut :=
    if ret.isSome then .fault st a s else .retire (writeFault t st pc a seq s)
  let iss : Issuer := if ret.isSome then .xload t 0 else .xwrite t pc seq
  let wait (s : State) : XOut :=
    if ret.isSome then .load ⟨dst, 4, [⟨List.range n, none⟩]⟩ s else .retire (nextSeq t s)
  match translate t a true true s with
  | (.bad st, s1) => fail st (xlatFault t a st unitX s1)
  | (.ok dev la, s1) =>
    match route s1 t dev la with
    | .now =>
      let r := localAadd la wide v s1
      if r.1 = .ok then
        (if ret.isSome then .retire (loadWrite t dst [⟨List.range n, some r.2.1⟩] r.2.2) else .retire (nextSeq t r.2.2))
      else fail r.1 r.2.2
    | .tile u => wait (sendTxn ⟨iss, .tile u, a, .aadd la wide v ret.isSome, .request⟩ s1)
    | .dev d => wait (sendTxn ⟨iss, .dev (BitVec.ofNat 15 d), a, .aadd la wide v ret.isSome, .request⟩ s1)
    | .lost =>
      wait (sendTxn ⟨iss, .tile t, a, .aadd la wide v ret.isSome, .lost⟩ (rinc R.PDC_ORPHAN F.PDC_ORPHAN_COUNT 1 s1))
    | .noRoute => fail .protection (xlatFault t a .protection unitX s1)

/-! ### Posts and fences -/

/-- The X-core writes, atomics and remote posts of a tile that have not taken effect and were issued before number `seq`. -/
def xOutstanding (s : State) (t : TileId) (seq : Nat) : Bool :=
  s.txns.any (fun e =>
    match e.2.iss with
    | .xwrite u _ k => u == t && decide (k < seq)
    | .abandoned u (some k) => u == t && decide (k < seq)
    | _ => false)

/-- Who waits for the reply to a post of the X-core: nobody once the core has stopped. -/
def postIssuer (s : State) (t : TileId) (h : HeldPost) : Issuer :=
  if xState s t = xcIdle ∨ xState s t = xcFaulted then .abandoned t (some h.seq) else .xwrite t h.pc h.seq

/-- A post takes effect: a local one on its semaphore, a remote one as a request (R117, R119). A count of 0 posts nothing. -/
def firePost (t : TileId) (h : HeldPost) (s : State) : State :=
  if h.n = 0 then s
  else
    match h.target with
    | .own n => semPost t n h.n s
    | .remote (.tile u) _ n =>
      if u = t then semPost t n h.n s
      else sendTxn ⟨postIssuer s t h, .tile u, 0, .post u n h.n, .request⟩ s
    | .remote (.dev d) u n =>
      if bit (rget s (R.MOS_ROUTE d.toNat) F.MOS_ROUTE_ENTRY) 31 then
        sendTxn ⟨postIssuer s t h, .dev d, 0, .post u n h.n, .request⟩ s
      else if xState s t = xcIdle ∨ xState s t = xcFaulted then s
      else writeFault t .protection h.pc 0 h.seq s

/-- A post by SPOST or RPOST: at once when nothing earlier is outstanding, held or has failed, held while fewer than 8 are, else the
instruction blocks (Table 4-11). -/
def xPost (t : TileId) (target : PostTarget) (cnt : Nat) (obj : Nat) (s : State) : XOut :=
  let x := (s.tile t).x
  let h : HeldPost := ⟨target, cnt, xPc s t, x.seq⟩
  if cnt = 0 then .retire s
  else if x.held = [] ∧ xOutstanding s t x.seq = false ∧ postLives x x.seq = true then .retire (firePost t h (nextSeq t s))
  else if x.held.length < 8 then .retire (nextSeq t (s.modX t (fun x => { x with held := x.held ++ [h] })))
  else .wait obj (.post h) s

/-- FENCE's condition: every earlier load has returned and every earlier write, atomic and remote post has taken effect; one
that failed has a fault on its way, which is taken before the FENCE retires (log entry 38). -/
def fenceOk (s : State) (t : TileId) : Bool :=
  !xOutstanding s t ((s.tile t).x.seq + 1) && (s.tile t).x.held.isEmpty && (s.tile t).x.faults.isEmpty

/-- FENCE.E's condition: FENCE's, and every CE, GME, COLL and UPD instruction complete. -/
def fenceEOk (s : State) (t : TileId) : Bool :=
  let c := s.tile t
  fenceOk s t && c.ce.isEmpty && c.gme.isEmpty && c.x.units.isEmpty && !s.rgns.any (fun r => decide (r.tile = t))

/-- END's condition: FENCE.E's, and the F-core program ended with no transfer in flight. -/
def endOk (s : State) (t : TileId) : Bool :=
  fenceEOk s t && (fState s t == fcIdle || fState s t == fcEnded) && (s.tile t).xfers.isEmpty

/-- SWAIT's condition (Table 6-7). -/
def swaitOk (s : State) (t : TileId) (sl : SlotIdx) (thr : Nat) : Bool :=
  let k := slotState s t sl
  k == slIdle || k == slAborted ||
    (thr != 0 && decide (thr ≤ rget s (R.SLOT_LANDED t.toNat sl.toNat) F.SLOT_LANDED_BUFS))

/-- A blocked instruction's condition (Table 4-11). -/
def waitOk (s : State) (t : TileId) : XWait → Bool
  | .sacq _ g => g
  | .wwait w thr => decide (thr ≤ winCount s t w)
  | .reopen w => (winReopen s t w).isNone
  | .fence => fenceOk s t
  | .fenceE => fenceEOk s t
  | .finish => endOk s t
  | .ewaitCe n => decide ((s.tile t).ce.length ≤ n)
  | .ewaitGme n => decide ((s.tile t).gme.length ≤ n)
  | .swait sl thr => swaitOk s t sl thr
  | .post _ => decide ((s.tile t).x.held.length < 8)

/-- END retires: the core is IDLE and the tile's part of the launch is complete (R117, R126). -/
def xEndRetire (t : TileId) (s : State) : State :=
  let s := xRetire t (xPc s t + 4) s
  let s := setXState t xcIdle (s.modX t (fun x => { x with launch := none }))
  if s.tileDraining t then s else rset (R.TILE_STATE t.toNat) F.TILE_STATE_STATE tsIdle s

/-- A blocked instruction retires once its condition holds. -/
def waitRetire (t : TileId) (w : XWait) (s : State) : State :=
  let s := setXState t xcRunning (s.modX t (fun x => { x with wait := none }))
  let s := rset (R.XC_STATUS t.toNat) F.XC_STATUS_WAIT_OBJ 0 s
  match w with
  | .finish => xEndRetire t s
  | .post h =>
    let len := match h.target with
      | .own _ => 4
      | .remote _ _ _ => 8
    xRetire t (xPc s t + len) (nextSeq t (s.modX t (fun x => { x with held := x.held ++ [h] })))
  | _ => xRetire t (xPc s t + 4) s

/-- WAIT_SATISFIED: the blocked instruction's condition holds and it retires. -/
def execWaitSatisfied (t : TileId) (s : State) : Host.Outcome State Fault Refusal :=
  .next (if xState s t = xcWaiting then
      match (s.tile t).x.wait with
      | some w => if waitOk s t w then waitRetire t w s else s
      | none => s
    else s)

/-- HELD_POST_RELEASE: the oldest held post takes effect once nothing issued before it is outstanding, and nothing before it has
failed (R101, R117). -/
def execHeldPostRelease (t : TileId) (s : State) : Host.Outcome State Fault Refusal :=
  .next (match (s.tile t).x.held with
    | h :: hs =>
      if xOutstanding s t h.seq ∨ postLives (s.tile t).x h.seq = false then s
      else firePost t h (s.modX t (fun x => { x with held := hs }))
    | [] => s)

/-- The pending fault that is taken first: the lowest SOURCE, then the oldest (R122). -/
def firstFault : List XFault → Option XFault
  | [] => none
  | f :: fs =>
    match firstFault fs with
    | some g => if g.source < f.source then some g else some f
    | none => some f

/-- IMPRECISE_FAULT: a late fault reaches the X-core, RUNNING, WAITING or HALTED, at an instruction boundary (R121). -/
def execImpreciseFault (t : TileId) (s : State) : Host.Outcome State Fault Refusal :=
  .next (match firstFault (s.tile t).x.faults with
    | some f =>
      if xState s t = xcRunning ∨ xState s t = xcWaiting ∨ xState s t = xcHalted then
        enterFault t f.source f.status f.pc f.va false false s
      else s
    | none => s)

/-- The watchdog threshold in cc (R123). -/
def wdogLimit (s : State) (t : TileId) : Nat :=
  let l := rget s (R.XC_CTL t.toNat) F.XC_CTL_WDOG_LOG2
  if xExpert s t && decide (20 ≤ l ∧ l ≤ 26) then 2 ^ l else 2 ^ 24

/-- WATCHDOG_TIMEOUT: `XC_WDOG.COUNT` has reached its threshold; TIMEOUT with SOURCE 5 (R123). -/
def execWatchdogTimeout (t : TileId) (s : State) : Host.Outcome State Fault Refusal :=
  .next (if (xState s t = xcRunning ∨ xState s t = xcWaiting) ∧
      wdogLimit s t ≤ rget s (R.XC_WDOG t.toNat) F.XC_WDOG_COUNT then
      enterFault t 5 .timeout (xPc s t) 0 false false s
    else s)

/-- XC_RESUME: the host writes `XC_CTL.RESUME` to a HALTED core (R125). -/
def execXcResume (t : TileId) (s : State) : Host.Outcome State Fault Refusal :=
  .next (hostTile t (xResume t) s)

end Sys2Proof.Machine
end

