-- ==== Sys2Proof/Machine/EngMem.lean ====
section
/-! DEFINITION. Memory accesses of units that complete inside one command (engine runs, descriptor reads): each line is
translated and reaches its place at once; what another module answers comes with the command (`EngEnv`). -/

namespace Sys2Proof.Machine

/-- What another module answers for a line; no answer is the mesh transaction timeout (R429). -/
def extLine (env : EngEnv) (dev line : Nat) : Status × DWord :=
  match env.ext.find? (fun e => e.dev.toNat == dev && e.addr == line * 64) with
  | some e => (e.status, e.data)
  | none => (.timeout, 0)

/-- The state of another tile that a request finds: none where it is served (R423, R424). A refused or dropped request ends
under its own timeout (R429). -/
def tileBars (s : State) (u : TileId) : Option Status :=
  if !s.domReach (16 + tileDie u) || s.tileDraining u then some .timeout else none

/-- The payload of a line that a unit reads or writes over the mesh has an uncorrectable error (R25): every line but those of the
scratchpad of the tile that it is part of goes over the mesh. -/
def meshBad (own : Option TileId) (env : EngEnv) (la : Nat) : Bool :=
  env.mesh.contains (la / 64) &&
    (match place la with
    | .spad u _ => own != some u
    | _ => true)

/-- Bytes of one line read by a unit of tile `t`, at virtual addresses in that line. -/
def engReadLine (t : TileId) (unit : Nat) (env : EngEnv) (vas : List Nat) (s : State) :
    Except (Status × Nat) (List Byte) × State :=
  let a := vas.headD 0
  match translate t a true false s with
  | (.bad st, s1) => (.error (st, a), xlatFault t a st unit s1)
  | (.ok dev la, s1) =>
    let addrs := vas.map (fun v => la + v - a)
    match route s1 t dev la with
    | .dev d =>
      let r := extLine env d (la / 64)
      if r.1 = .ok then (.ok (addrs.map (fun x => r.2.extractLsb' (8 * (x % 64)) 8)), s1) else (.error (r.1, a), s1)
    | .lost => (.error (.timeout, a), rinc R.PDC_ORPHAN F.PDC_ORPHAN_COUNT 1 s1)
    | .noRoute => (.error (.protection, a), xlatFault t a .protection unit s1)
    | .tile u =>
      match tileBars s1 u with
      | some st => (.error (st, a), s1)
      | none =>
        let r := localRead addrs s1
        if r.1 ≠ .ok then (.error (r.1, a), r.2.2)
        else if meshBad (some t) env la then (.error (.faultEcc, a), r.2.2)
        else (.ok r.2.1, r.2.2)
    | .now =>
      let r := localRead addrs s1
      if r.1 ≠ .ok then (.error (r.1, a), r.2.2)
      else if meshBad (some t) env la then (.error (.faultEcc, a), r.2.2)
      else (.ok r.2.1, r.2.2)

/-- The lines of a read in order; the first that fails ends it. Answers (address, byte) pairs. -/
def engReadLines (t : TileId) (unit : Nat) (env : EngEnv) :
    List (List Nat) → State → Except (Status × Nat) (List (Nat × Byte)) × State
  | [], s => (.ok [], s)
  | g :: gs, s =>
    match engReadLine t unit env g s with
    | (.error e, s1) => (.error e, s1)
    | (.ok bs, s1) =>
      match engReadLines t unit env gs s1 with
      | (.error e, s2) => (.error e, s2)
      | (.ok rest, s2) => (.ok (g.zip bs ++ rest), s2)

/-- Virtual addresses grouped by line. -/
def vaLines (vas : List Nat) : List (List Nat) :=
  ((vas.map (· / 64)).dedup).map (fun l => vas.filter (fun v => v / 64 == l))

/-- The GME's line accesses counted in `GME_GATHERS` (R209). -/
def countGathers (t : TileId) (unit n : Nat) (s : State) : State :=
  if unit = unitGme then rinc (R.GME_GATHERS t.toNat) F.GME_GATHERS_COUNT n s else s

/-- Bytes at virtual addresses read by a unit of tile `t` (R149). -/
def engRead (t : TileId) (unit : Nat) (env : EngEnv) (vas : List Nat) (s : State) :
    Except (Status × Nat) (List Byte) × State :=
  match engReadLines t unit env (vaLines vas) (countGathers t unit (vaLines vas).length s) with
  | (.error e, s1) => (.error e, s1)
  | (.ok ps, s1) => (.ok (vas.map (fun v => ((ps.find? (fun p => p.1 == v)).elim 0 (·.2)))), s1)

/-- Who writes for an instruction of tile `t`: a unit of the tile, which passes the windows of other tiles but for `exempt` (Table
3-9), or a Collective Engine, which passes every tile's (R88). -/
inductive Writer where
  | unit (exempt : List TileId)
  | coll

/-- Where a write goes: a Collective Engine reaches the tile's own scratchpad as it reaches another's. -/
def Writer.route (w : Writer) (s : State) (t : TileId) (dev la : Nat) : Route :=
  match w, place la, Machine.route s t dev la with
  | .coll, .spad u _, .now => .tile u
  | _, _, r => r

/-- The tiles whose windows a writer does not pass, and the TILE that a refusal records (Table 3-10). -/
def Writer.exempt : Writer → List TileId
  | .unit l => l
  | .coll => []
def Writer.tile (t : TileId) : Writer → Nat
  | .unit _ => t.toNat
  | .coll => 0x7FF

/-- The tile that a writer is part of. -/
def Writer.own (t : TileId) : Writer → Option TileId
  | .unit _ => some t
  | .coll => none

/-- The issuer of a write to another module whose answer comes with the command. -/
def Writer.issuer (t : TileId) : Writer → Issuer
  | .unit _ => .acked t
  | .coll => .collWrite

/-- One line written for tile `t`: own scratchpad and HBM at once, another tile through its windows but for those a writer is exempt
from, another module by a request whose answer is given. -/
def engWriteLine (t : TileId) (unit : Nat) (w : Writer) (env : EngEnv) (cells : List (Nat × Byte)) (s : State) :
    Option (Status × Nat) × State :=
  let a := (cells.headD (0, 0)).1
  let done (r : Status × State) : Option (Status × Nat) × State := (if r.1 = .ok then none else some (r.1, a), r.2)
  match translate t a false true s with
  | (.bad st, s1) => (some (st, a), xlatFault t a st unit s1)
  | (.ok dev la, s1) =>
    let lc := cells.map (fun c => (la + c.1 - a, c.2))
    if meshBad (w.own t) env la then (some (.faultEcc, a), s1)
    else match w.route s1 t dev la with
    | .dev d =>
      done ((extLine env d (la / 64)).1, sendWrite (w.issuer t) (BitVec.ofNat 15 d) a lc s1)
    | .lost => (some (.timeout, a), rinc R.PDC_ORPHAN F.PDC_ORPHAN_COUNT 1 s1)
    | .noRoute => (some (.protection, a), xlatFault t a .protection unit s1)
    | .tile u =>
      match tileBars s1 u with
      | some st => (some (st, a), s1)
      | none => if w.exempt.contains u then done (localWrite lc s1) else done (windowWrite u lc s1.devId (w.tile t) s1)
    | .now => done (localWrite lc s1)

/-- The lines of a write in order. A line that fails ends the write; the destination is then undefined (R26, R151). -/
def engWriteLines (t : TileId) (unit : Nat) (w : Writer) (env : EngEnv) :
    List (List (Nat × Byte)) → State → Option (Status × Nat) × State
  | [], s => (none, s)
  | g :: gs, s =>
    match engWriteLine t unit w env g s with
    | (some e, s1) => (some e, s1)
    | (none, s1) => engWriteLines t unit w env gs s1

/-- Where several writes of one instruction reach one address, the address holds one of their values and the spec leaves
open which (R142): a fresh free value picks it, the same for all bytes of a field (log entry 3). `va` is the address of a cell. -/
def pickOne {α : Type} (va : α → Nat) (key : Nat → Nat) (ctr : Nat) (cells : List α) : List α :=
  let vas := (cells.map va).dedup
  if vas.length = cells.length then cells
  else vas.filterMap (fun a =>
    let c := cells.filter (fun e => va e == a)
    (c.drop (Config.freePick ctr (key a) % c.length)).head?)

/-- The writes of an instruction, each address once (R142). -/
def pickWrites {α : Type} (va : α → Nat) (key : Nat → Nat) (cells : List α) (s : State) : List α × State :=
  let out := ((cells.map (fun c => va c / 64)).dedup).flatMap (fun l =>
    pickOne va key s.freeCtr (cells.filter (fun c => va c / 64 == l)))
  (out, if out.length = cells.length then s else { s with freeCtr := s.freeCtr + 1 })

/-- Bytes written at virtual addresses, each once, for tile `t`. -/
def engWriteX (t : TileId) (unit : Nat) (w : Writer) (env : EngEnv) (cells : List (Nat × Byte)) (s : State) :
    Option (Status × Nat) × State :=
  let lines := ((cells.map (fun c => c.1 / 64)).dedup).map (fun l => cells.filter (fun c => c.1 / 64 == l))
  engWriteLines t unit w env lines (countGathers t unit lines.length s)

/-- Bytes written at virtual addresses, each once, by a unit of tile `t`. -/
def engWrite (t : TileId) (unit : Nat) (env : EngEnv) (cells : List (Nat × Byte)) (s : State) :
    Option (Status × Nat) × State :=
  engWriteX t unit (.unit []) env cells s

/-- A window of tile `u` would accept a write of these local addresses (R91). -/
def winTakes (s : State) (u : TileId) (addrs : List Nat) : Bool :=
  match winCheck s u (addrs.map (· % 2 ^ 24)) with
  | .accept _ => true
  | _ => false

/-- The local addresses of this module at which writes of a unit of tile `t` to virtual addresses of one line may land. -/
def reachLine (t : TileId) (w : Writer) (s : State) (vas : List Nat) : List Nat :=
  match (translate t (vas.headD 0) false true s).1 with
  | .bad _ => []
  | .ok dev la =>
    let addrs := vas.map (fun v => la + v - vas.headD 0)
    match w.route s t dev la with
    | .now => addrs
    | .tile u => if (tileBars s u).isNone && (w.exempt.contains u || winTakes s u addrs) then addrs else []
    | _ => []

/-- A destination whose contents the spec leaves undefined: each of its bytes that writes may reach takes a free value, and nothing
else changes: no counter, no window, no record of a fault (R26, R151; log entry 3). A destination in another module changes
there. -/
def undefineVas (t : TileId) (w : Writer) (vas : List Nat) (s : State) : State :=
  freeBytes ((vaLines vas).flatMap (reachLine t w s)) s

/-- What an address of a unit of tile `t` names: device and local address in one number, none where it does not translate. -/
def physOf (s : State) (t : TileId) (va : Nat) : Option Nat :=
  match findLeaf t va s with
  | (.ok (big, e), _) => some (leafAddr va big e)
  | (.error _, _) => none

/-- Two sets of virtual addresses, each of the tile that translates it, name a byte in common. -/
def pairsOverlap (s : State) (a b : List (TileId × Nat)) : Bool :=
  let lines (l : List (TileId × Nat)) : List Nat :=
    ((l.map (fun p => (p.1, p.2 / 64 * 64))).dedup).filterMap (fun p => physOf s p.1 p.2)
  let common := (lines a).filter ((lines b).contains ·)
  if common.isEmpty then false
  else
    let hit (p : TileId × Nat) : Option Nat := (physOf s p.1 p.2).filter (fun g => common.contains (g / 64 * 64))
    let pb := b.filterMap hit
    (a.filterMap hit).any (pb.contains ·)

/-- Two sets of virtual addresses of one tile name a byte in common. -/
def vasOverlap (s : State) (t : TileId) (a b : List Nat) : Bool := pairsOverlap s (a.map (t, ·)) (b.map (t, ·))

/-- An object of 64 bytes read at a virtual address. -/
def engRead64 (t : TileId) (unit : Nat) (env : EngEnv) (va : Nat) (s : State) : Except (Status × Nat) DWord × State :=
  match engRead t unit env ((List.range 64).map (va + ·)) s with
  | (.error e, s1) => (.error e, s1)
  | (.ok bs, s1) => (.ok (BitVec.ofNat 512 (leNat bs)), s1)

end Sys2Proof.Machine
end

