-- ==== Sys2Proof/Machine/Directory.lean ====
section
/-! DEFINITION. The Expert Directory and the moraine tier's copies (R275 to R290): states, demands, victims, slots. -/

namespace Sys2Proof.Machine

/-- An event of Table 17-6 sets its bit of `MGMT_ALERT`; with an event receiver, one PlatformEventMessage goes out per setting of an
enabled bit (R480). -/
def alert (n : Nat) (s : State) : State :=
  let old := rget s R.MGMT_ALERT F.MGMT_ALERT_EVENTS
  let s := rset R.MGMT_ALERT F.MGMT_ALERT_EVENTS (old.lor (2 ^ n)) s
  if !bit old n && bit (rraw s R.MGMT_ALERT_EN) n && s.mgmt.receiver.isSome then
    { s with mgmt := { s.mgmt with events := s.mgmt.events ++ [n] } }
  else s

def resNone : Nat := 0
def resResting : Nat := 1
def resFetching : Nat := 2
def resResident : Nat := 3
def resEvicting : Nat := 4
def resFaulted : Nat := 5

def pageBytes : Nat := 2097152

/-- Residency state of expert `e` (Table 10-11). -/
def resOf (s : State) (e : Nat) : Nat := rget s (R.DIR_LOCAL e) F.DIR_RES

def dirVa (s : State) (e : Nat) : Nat := rget s (R.DIR_VA e) F.DIR_VA
/-- The routing part of an entry in force: the one copied at the last commit (R276). -/
def dirLive (s : State) (e : Nat) : Nat := (mfind s.exd.live e).getD 0
def dirPages (s : State) (e : Nat) : Nat := bits (dirLive s e) F.DIR_PAGES.lo F.DIR_PAGES.w
def dirMor (s : State) (e : Nat) : Nat := rget s (R.DIR_LOCAL e) F.DIR_MOR_LA
def dirRestRo (s : State) (e : Nat) : Bool := rbit s (R.DIR_LOCAL e) F.DIR_REST_RO
def dirPinned (s : State) (e : Nat) : Bool := rbit s (R.DIR_LOCAL e) F.DIR_PINNED

/-- Local address of the residency table entry of an expert (R280). -/
def restabAddr (s : State) (e : Nat) : Nat := (rget s R.EXD_RESTAB_BASE F.EXD_RESTAB_BASE_ADDR) <<< 21 + 8 * e

/-- The residency table shows a state: the address while RESIDENT, and RESTING from the start of an eviction (R280, R281). -/
def writeRestab (e : Nat) (s : State) : State :=
  let r := resOf s e
  let v := if r = resResident then dirVa s e + resResident <<< 48
    else (if r = resEvicting then resResting else r) <<< 48
  (memWrite ((natLe 8 v).zipIdx.map (fun p => (restabAddr s e + p.2, p.1))) s).2

/-- An expert takes a residency state; its table entry follows. -/
def setRes (e r : Nat) (s : State) : State := writeRestab e (rset (R.DIR_LOCAL e) F.DIR_RES r s)

/-- The expert's virtual address, as the directory holds it. -/
def setDirVa (e v : Nat) (s : State) : State := rset (R.DIR_VA e) F.DIR_VA v s

/-- Local HBM address of a pool slot (R290). -/
def slotLa (s : State) (i : Nat) : Nat :=
  (rget s R.MOR_POOL_BASE F.MOR_POOL_BASE_ADDR) <<< 21 +
    i * (rget s R.MOR_POOL_CFG F.MOR_POOL_CFG_SLOT_PAGES * pageBytes)

/-- Virtual address of a pool slot. -/
def slotVa (s : State) (i : Nat) : Nat :=
  (rget s R.MOR_POOL_VA F.MOR_POOL_VA_VA) <<< 21 + i * (rget s R.MOR_POOL_CFG F.MOR_POOL_CFG_SLOT_PAGES * pageBytes)

/-- A slot may be used: it crosses no stack boundary (R290). -/
def slotUsable (s : State) (i : Nat) : Bool :=
  let n := rget s R.MOR_POOL_CFG F.MOR_POOL_CFG_SLOT_PAGES * pageBytes
  decide (slotLa s i / 2 ^ 36 = (slotLa s i + n - 1) / 2 ^ 36)

/-- The free pool slots. -/
def freeSlots (s : State) : List Nat :=
  (List.range (rget s R.MOR_POOL_CFG F.MOR_POOL_CFG_SLOTS)).filter (fun i =>
    slotUsable s i && !s.exd.slots.any (fun p => p.2 == i))

/-- `MOR_SLOTS.FREE` follows the pool. -/
def updSlots (s : State) : State := rset R.MOR_SLOTS F.MOR_SLOTS_FREE (freeSlots s).length s

def State.modExd (s : State) (f : Exd → Exd) : State := { s with exd := f s.exd }

/-- The reader counts of an expert's region (R304, R311). -/
def regionReaders (s : State) (e : Nat) : Nat :=
  let r := bits (dirLive s e) F.DIR_REGION.lo F.DIR_REGION.w
  rget s (R.RGNV_COUNT0 (r / 4096) (r % 4096)) F.RGNV_COUNT0_COUNT0 +
    rget s (R.RGNV_COUNT1 (r / 4096) (r % 4096)) F.RGNV_COUNT1_COUNT1

/-- The expert's copy lies in the pool. -/
def isPool (s : State) (e : Nat) : Bool := (mfind s.exd.slots e).isSome

/-- An expert that may be chosen as victim (R282). A read reference lasts only inside one engine run. -/
def canEvict (s : State) (e : Nat) : Bool :=
  resOf s e == resResident && isPool s e && !dirPinned s e && regionReaders s e == 0

/-- When the last read reference on an expert ended; 0 for none. -/
def lastRef (s : State) (e : Nat) : Nat := (mfind s.exd.lastRef e).getD 0

/-- The victim: the one whose last reference ended earliest, ties to the lower expert ID (R282). -/
def victim (s : State) : Option Nat :=
  (s.exd.slots.map (·.1)).foldl (fun (b : Option Nat) e =>
    if canEvict s e then
      match b with
      | none => some e
      | some c => if lastRef s e < lastRef s c then some e else some c
    else b) none

/-- A slot is assigned to an expert if one is free. -/
def assignSlot (e : Nat) (s : State) : State :=
  match freeSlots s with
  | i :: _ => updSlots (s.modExd (fun x => { x with slots := mins x.slots e i }))
  | [] => s

/-- A copy joins its class of R283. -/
def queueCopy (demand : Bool) (j : Bool × Nat) (s : State) : State :=
  s.modExd (fun x => if demand then { x with demands := x.demands ++ [j] } else { x with prefs := x.prefs ++ [j] })

/-- A victim that needs no write-back is RESTING at once, and its slot goes to expert `e` (Table 10-11). -/
def passSlot (v e : Nat) (s : State) : State :=
  let s := setDirVa v 0 (setRes v resResting s)
  match mfind s.exd.slots v with
  | some i => updSlots (s.modExd (fun x => { x with slots := mins (mdel x.slots v) e i }))
  | none => s

/-- Room for a fetch: a free slot, or a victim whose slot it gets at once or after its write-back (Table 10-11, R282). -/
def claimSlot (e : Nat) (demand : Bool) (s : State) : State :=
  if !(freeSlots s).isEmpty then assignSlot e s
  else
    match victim s with
    | some v => if dirRestRo s v then passSlot v e s else queueCopy demand (true, v) (setRes v resEvicting s)
    | none => s

/-- A fetch of an expert is queued: FETCHING, with a slot or a victim that makes room (Table 10-11). `demand` says which class of
R283. -/
def queueFetch (e : Nat) (demand : Bool) (s : State) : State :=
  queueCopy demand (false, e) (claimSlot e demand (setRes e resFetching s))

/-- A demand, RETRY or prefetch of an expert (Table 10-11). -/
def requestFetch (e : Nat) (demand : Bool) (s : State) : State :=
  let r := resOf s e
  if r = resResting ∨ r = resFaulted then
    if !(freeSlots s).isEmpty || (victim s).isSome then queueFetch e demand s
    else if demand && !s.exd.held.contains e then s.modExd (fun x => { x with held := x.held ++ [e] })
    else s
  else if r = resEvicting ∧ demand = true ∧ !s.exd.after.contains e then
    s.modExd (fun x => { x with after := x.after ++ [e] })
  else s

/-- Held demands tried again at a slot release. -/
def retryHeld (s : State) : State :=
  let l := s.exd.held
  l.foldl (fun s e => requestFetch e true s) (s.modExd (fun x => { x with held := [] }))

/-- The queued fetches of a class that have no slot yet, in arrival order. -/
def needSlot (s : State) (l : List (Bool × Nat)) : List Nat := (l.filter (fun j => !j.1 && !isPool s j.2)).map (·.2)

/-- A slot released: the expert's copy is in the pool no more. It goes to the queued fetch that has waited longest for one, demands
first (R283); then held demands are tried again. -/
def freeSlot (e : Nat) (s : State) : State :=
  let s := s.modExd (fun x => { x with slots := mdel x.slots e })
  retryHeld (updSlots (match needSlot s (s.exd.demands ++ s.exd.prefs) with
    | d :: _ => assignSlot d s
    | [] => s))

/-- An expert reaches RESTING: its slot is free, its address zero, and a fetch held for it starts. -/
def becomeResting (e : Nat) (s : State) : State :=
  let s := freeSlot e (setDirVa e 0 (setRes e resResting s))
  if s.exd.after.contains e then
    requestFetch e true (s.modExd (fun x => { x with after := x.after.filter (· != e) }))
  else s

/-- An eviction begins: with REST_RO it is RESTING at once, else EVICTING with its write-back queued (Table 10-11). -/
def startEvict (e : Nat) (queue : Bool) (s : State) : State :=
  if dirRestRo s e then becomeResting e s
  else
    let s := setRes e resEvicting s
    if queue then s.modExd (fun x => { x with prefs := x.prefs ++ [(true, e)] }) else s

/-- EVICT of an expert: done, held while readers remain, or nothing (Table 10-11). -/
def requestEvict (e : Nat) (s : State) : State :=
  if canEvict s e then startEvict e true s
  else if resOf s e = resResident ∧ isPool s e = true ∧ dirPinned s e = false ∧ !s.exd.heldEvict.contains e then
    s.modExd (fun x => { x with heldEvict := x.heldEvict ++ [e] })
  else s

/-- Held evictions whose readers have gone are carried out. -/
def retryEvicts (s : State) : State :=
  let l := s.exd.heldEvict
  l.foldl (fun s e => requestEvict e s) (s.modExd (fun x => { x with heldEvict := [] }))

/-- A range of memory copied as stored bytes: what the source lists appears at the destination, whose own contents go. False
where a codeword of the source cannot be used. -/
def copyRange (src dst len : Nat) (s : State) : Bool × State :=
  let bad := s.ecc.any (fun p => decide (src ≤ p.1 * 32 ∧ p.1 * 32 < src + len) &&
    (p.2 == .uncorrectable || p.2 == .poisoned))
  if bad then (false, s)
  else
    let cells := (s.mem.filter (fun p => decide (src ≤ p.1 ∧ p.1 < src + len))).map (fun p => (p.1 - src + dst, p.2))
    (true, { s with
      mem := msets (fun _ => 0) (mclear s.mem dst (dst + len)) cells
      ecc := mclear s.ecc (dst / 32) ((dst + len) / 32) })

/-- A fetch ends FAULTED with a status; its slot is free (Table 10-11). -/
def fetchFault (e : Nat) (st : Status) (s : State) : State :=
  let s := setRes e resFaulted s
  freeSlot e (s.modExd (fun x => { x with faults := mins x.faults e st }))

/-- A write-back fails: RESIDENT again (Table 10-11). -/
def writeBackFault (e : Nat) (s : State) : State :=
  alert 6 (rinc R.EXD_WB_FAIL F.EXD_WB_FAIL_COUNT 1 (setRes e resResident s))

/-- A read reference on an expert ends. -/
def endRef (e : Nat) (s : State) : State :=
  s.modExd (fun x => { x with lastRef := mins x.lastRef e (x.refSeq + 1), refSeq := x.refSeq + 1 })

/-! ### Directory commands (R279, Table 10-10) -/

def cmdStat (st : Status) (s : State) : State := rset R.EXD_CMD_STAT F.EXD_CMD_STAT_STATUS st.code s

/-- Control-die registers are those of the primary die. -/
def hostCtl (s : State) : Nat := 1 + rget s R.CP_STATUS F.CP_STATUS_PRIMARY

/-- A directory command that applies in some states: PROTECTION elsewhere; ignored while another runs. -/
def exdDo (ok : State → Bool) (eff : State → State) (s : State) : State :=
  if rbit s R.EXD_CMD_STAT F.EXD_CMD_STAT_BUSY then s
  else if ok s then cmdStat .ok (eff s) else cmdStat .protection s

/-- The host's write of a directory command. -/
def exdCmd (ok : State → Bool) (eff : State → State) (s : State) : Host.Outcome State Fault Refusal :=
  .next (hostWrite (hostCtl s) (exdDo ok eff) s)

/-- ADOPT_RES: RESIDENT with VA as written; not a pool copy. -/
def execAdoptRes (e : ExpertId) (s : State) : Host.Outcome State Fault Refusal :=
  exdCmd (fun s => resOf s e.toNat == resNone) (setRes e.toNat resResident) s

/-- ADOPT_REST: RESTING. -/
def execAdoptRest (e : ExpertId) (s : State) : Host.Outcome State Fault Refusal :=
  exdCmd (fun s => resOf s e.toNat == resNone) (setRes e.toNat resResting) s

/-- DROP: NONE, from RESTING, RESIDENT outside the pool, or FAULTED. -/
def execDrop (e : ExpertId) (s : State) : Host.Outcome State Fault Refusal :=
  exdCmd (fun s => resOf s e.toNat == resResting || resOf s e.toNat == resFaulted ||
      (resOf s e.toNat == resResident && !isPool s e.toNat))
    (fun s => setRes e.toNat resNone (setDirVa e.toNat 0
      (s.modExd (fun x => { x with held := x.held.filter (· != e.toNat) })))) s

/-- COMMIT: the image copy starts (R277). -/
def execCommit (s : State) : Host.Outcome State Fault Refusal :=
  exdCmd (fun _ => true) (rset R.EXD_CMD_STAT F.EXD_CMD_STAT_BUSY 1) s

/-- RETRY: a FAULTED expert's fetch starts as a demand does. -/
def execRetry (e : ExpertId) (s : State) : Host.Outcome State Fault Refusal :=
  exdCmd (fun s => resOf s e.toNat == resFaulted) (requestFetch e.toNat true) s

/-- The directory entries that anything has written: their numbers. An entry that lists nothing holds zeros. -/
def listedExperts (s : State) : List Nat :=
  ((s.regs.filter (fun p => decide (0x2100000 ≤ p.1 ∧ p.1 < 0x2100000 + 32 * 65536))).map
    (fun p => (p.1 - 0x2100000) / 32)).dedup

/-- Local address of the directory image of an epoch (R277). -/
def imageBase (s : State) (epoch : Nat) : Nat :=
  (rget s R.EXD_IMAGE_BASE F.EXD_IMAGE_BASE_ADDR) <<< 21 + epoch % 2 * pageBytes

/-- EXD_COMMIT_COMPLETE: the staged routing parts fill the image of the next epoch, which is then in force (R276, R277). -/
def execExdCommitComplete (s : State) : Host.Outcome State Fault Refusal :=
  .next (if rbit s R.EXD_CMD_STAT F.EXD_CMD_STAT_BUSY then
      let base := imageBase s (rget s R.EXD_EPOCH F.EXD_EPOCH_CURRENT + 1)
      let cells := (listedExperts s).flatMap (fun e =>
        ((natLe 8 (rraw s (R.DIR_ROUTE e)) ++ natLe 8 (rraw s (R.DIR_REPL e))).zipIdx.map
          (fun p => (base + 16 * e + p.2, p.1))))
      let s := { s with
        mem := msets (fun _ => 0) (mclear s.mem base (base + 16 * 65536)) cells
        ecc := mclear s.ecc (base / 32) ((base + 16 * 65536) / 32) }
      let live := (listedExperts s).foldl (fun m e => mset (fun _ => 0) m e (rraw s (R.DIR_ROUTE e))) []
      let s := s.modExd (fun x => { x with live := live })
      rset R.EXD_CMD_STAT F.EXD_CMD_STAT_BUSY 0 (rwrap R.EXD_EPOCH F.EXD_EPOCH_CURRENT 1 s)
    else s)

/-! ### Fetches and write-backs (R281 to R283) -/

/-- A queued copy may start: a write-back, or a fetch that has its slot. -/
def copyReady (s : State) (j : Bool × Nat) : Bool := j.1 || isPool s j.2

/-- The first copy of a class that may start runs. Where none may and a fetch waits for a slot, a victim makes room: its write-back
runs, or the fetch itself where the victim needs none (R282). None: the class starts nothing. -/
def startCopy (l : List (Bool × Nat)) (drop : Bool × Nat → Exd → Exd) (s : State) : Option State :=
  let run (j : Bool × Nat) (s : State) : State := s.modExd (fun x => { drop j x with job := some j })
  match l.find? (copyReady s) with
  | some j => some (run j s)
  | none =>
    match needSlot s l, victim s with
    | e :: _, some v =>
      some (if dirRestRo s v then run (false, e) (passSlot v e s)
        else (setRes v resEvicting s).modExd (fun x => { x with job := some (true, v) }))
    | _, _ => none

/-- DIRECTORY_TRANSFER_START: with nothing running, the next copy starts: demands before prefetches and evictions, each class in
arrival order (R283). A fetch that waits for a slot takes one that has become free. -/
def execDirectoryTransferStart (s : State) : Host.Outcome State Fault Refusal :=
  .next (if s.exd.job.isSome then s
    else
      let s := (needSlot s (s.exd.demands ++ s.exd.prefs)).foldl (fun s e => assignSlot e s) s
      match startCopy s.exd.demands (fun j x => { x with demands := x.demands.erase j }) s with
      | some u => u
      | none => (startCopy s.exd.prefs (fun j x => { x with prefs := x.prefs.erase j }) s).getD s)

/-- The host I/O dies of a copy's moraine range serve it: one that is not ON gives no completion, and the copy ends under its own
timeout (R289, R423, R424). -/
def copyServed (s : State) (e : Nat) : Bool :=
  match place (dirMor s e) with
  | .moraine o => s.domReach (3 + morPort s o) && s.domReach (3 + morPort s (o + 4096))
  | _ => true

/-- FETCH_COMPLETE: the running fetch's last page; `bad` says that an uncorrectable error or poison was met. -/
def execFetchComplete (bad : Bool) (s : State) : Host.Outcome State Fault Refusal :=
  .next (match s.exd.job with
    | some (false, e) =>
      if copyServed s e = false then s else
      let s := s.modExd (fun x => { x with job := none })
      match mfind s.exd.slots e with
      | some i =>
        let n := dirPages s e * pageBytes
        if (place (dirMor s e) matches .moraine _) && addrOk s (dirMor s e) && addrOk s (dirMor s e + n - 1) then
          let r := copyRange (dirMor s e) (slotLa s i) n s
          if bad || !r.1 then fetchFault e .faultEcc (rinc R.MOR_ERR F.MOR_ERR_POISON 1 r.2)
          else
            rinc R.EXD_FETCHES F.EXD_FETCHES_COUNT 1 (setRes e resResident (setDirVa e (slotVa s i) r.2))
        else fetchFault e .protection s
      | none => s
    | _ => s)

/-- EVICTION_COMPLETE: the running write-back's last page; `bad` says that an error was met. -/
def execEvictionComplete (bad : Bool) (s : State) : Host.Outcome State Fault Refusal :=
  .next (match s.exd.job with
    | some (true, e) =>
      if copyServed s e = false then s else
      let s := s.modExd (fun x => { x with job := none })
      match mfind s.exd.slots e with
      | some i =>
        let n := dirPages s e * pageBytes
        if (place (dirMor s e) matches .moraine _) && addrOk s (dirMor s e) && addrOk s (dirMor s e + n - 1) then
          let r := copyRange (slotLa s i) (dirMor s e) n s
          if bad || !r.1 then writeBackFault e r.2
          else rinc R.EXD_EVICTS F.EXD_EVICTS_COUNT 1 (becomeResting e r.2)
        else writeBackFault e s
      | none => s
    | _ => s)

/-- The running copy ends for want of a completion (R289). -/
def copyTimeout (s : State) : State :=
  match s.exd.job with
  | some (evict, e) =>
    let s := rinc R.MOR_ERR F.MOR_ERR_TIMEOUT 1 (s.modExd (fun x => { x with job := none }))
    if evict then writeBackFault e s else fetchFault e .timeout s
  | none => s

/-- MORAINE_TIMEOUT: a CXL.mem transaction has no completion in 1 ms (R289): one of the running copy where no line is named, else
the next one to each line named. -/
def execMoraineTimeout (lines : List Nat) (s : State) : Host.Outcome State Fault Refusal :=
  .next (if lines.isEmpty then copyTimeout s else { s with morLost := s.morLost ++ lines.filter morLine })

/-- EXPANDER_CONFIGURED: a port's link is trained and its expander's decoder programmed (R287). -/
def execExpanderConfigured (port : Bool) (width : BitVec 5) (gib : BitVec 13) (s : State) :
    Host.Outcome State Fault Refusal :=
  let o := R.MOR_PORT (b2n port)
  .next (rset o F.MOR_PORT_UP 1 (rset o F.MOR_PORT_WIDTH width.toNat (rset o F.MOR_PORT_CAP_GIB gib.toNat s)))

end Sys2Proof.Machine
end

