-- ==== Sys2Proof/Machine/Tensor.lean ====
section
/-! DEFINITION. Tensors as matrices of values: rows read and written through descriptors by an engine (R136 to R152), exact
sums of products (R188, R189), and the residue checks' recomputations (R203, R231). -/

namespace Sys2Proof.Machine

/-- Position along D0 of the first element that a packed byte of a row holds. -/
def cellPos (td : TDesc) (off : Nat) : Nat :=
  if isBlock td.fmt then
    let nl := tExt td 0 / 32
    let bb := blockBytes td.fmt
    if off < nl * bb then off / bb * 32 + off % bb * 8 / ((formatOf td.fmt).elim 8 (·.w)) else (off - nl * bb) * 32
  else off / elemBytes td.fmt

/-- Bytes of a list replaced. -/
def overlay (base : List Byte) (cells : List (Nat × Byte)) : List Byte := cells.foldl (fun l c => l.set c.1 c.2) base

/-- The stored bytes of a row read by the tiles that share the work, over its padding. -/
def readCellsBy (unit : Nat) (env : EngEnv) (who : Nat → TileId) (td : TDesc) (cs : List (Nat × Nat)) :
    List TileId → List Byte → State → Except (Status × Nat) (List Byte) × State
  | [], acc, s => (.ok acc, s)
  | u :: us, acc, s =>
    let mine := cs.filter (fun c => who (cellPos td c.2) == u)
    match engRead u unit env (mine.map (·.1)) s with
    | (.error e, s1) => (.error e, s1)
    | (.ok bs, s1) => readCellsBy unit env who td cs us (overlay acc ((mine.map (·.2)).zip bs)) s1

/-- A packed logical row read; a padded row reads nothing (R144). -/
def readRowBy (tiles : List TileId) (unit : Nat) (env : EngEnv) (who : Nat → TileId) (td : TDesc) (row : Int)
    (stored : Bool) (s : State) : Except (Status × Nat) (List Byte) × State :=
  if stored then readCellsBy unit env who td (rowCells td row false) tiles (padRow td) s else (.ok (padRow td), s)

/-- A packed logical row read by one tile. -/
def readRow (t : TileId) (unit : Nat) (env : EngEnv) (td : TDesc) (row : Int) (stored : Bool) (s : State) :
    Except (Status × Nat) (List Byte) × State :=
  readRowBy [t] unit env (fun _ => t) td row stored s

/-- The rows (i1, i2, i3) of a list, each packed; the first failure ends the read. -/
def readRowsBy (tiles : List TileId) (unit : Nat) (env : EngEnv) (who : Nat → Nat → TileId) (td : TDesc) (i2 i3 : Nat) :
    List Nat → State → Except (Status × Nat) (List (List Byte)) × State
  | [], s => (.ok [], s)
  | i1 :: is, s =>
    match readRowBy tiles unit env (who i1) td (rowAt td i1 i2 i3) (stored1 td i1) s with
    | (.error e, s1) => (.error e, s1)
    | (.ok r, s1) =>
      match readRowsBy tiles unit env who td i2 i3 is s1 with
      | (.error e, s2) => (.error e, s2)
      | (.ok rs, s2) => (.ok (r :: rs), s2)

/-- The bytes a row of results stores where it writes: results, or PADV at padded positions that are written (R145, R190). -/
def rowOut (td : TDesc) (i1 i2 i3 : Nat) (packed : List Byte) : List (Nat × Nat × Byte) :=
  let pad := padRow td
  (writeCells td (rowAt td i1 i2 i3)).map (fun c =>
    (c.1, c.2, if stored1 td i1 && stored0 td (cellPos td c.2) then packed.getD c.2 0 else pad.getD c.2 0))

/-- The bytes a row of a whole tensor of results stores; none where a later row takes its place (R142, R145). -/
def outCells (td : TDesc) (i1 i2 i3 : Nat) (packed : List Byte) : List (Nat × Nat × Byte) :=
  if rowWrites td i1 i2 i3 then rowOut td i1 i2 i3 packed else []

/-- Every row of a tensor, in iteration order. -/
def allRows (td : TDesc) : List (Nat × Nat × Nat) := (List.range (rowCount td)).map (rowIndex td)

/-- Every virtual address a read of the whole tensor touches. -/
def readVas (td : TDesc) : List Nat :=
  (allRows td).flatMap (fun i =>
    if stored1 td i.1 then (rowCells td (rowAt td i.1 i.2.1 i.2.2) false).map (·.1) else [])

/-- Every virtual address a write of the whole tensor touches. -/
def writeVas (td : TDesc) : List Nat :=
  (allRows td).flatMap (fun i =>
    if rowWrites td i.1 i.2.1 i.2.2 then (writeCells td (rowAt td i.1 i.2.1 i.2.2)).map (·.1) else [])

/-- The addresses a read of the whole tensor touches, each with the tile that reads it. -/
def readPairs (who : Nat → Nat → TileId) (td : TDesc) : List (TileId × Nat) :=
  (allRows td).flatMap (fun i =>
    if stored1 td i.1 then
      (rowCells td (rowAt td i.1 i.2.1 i.2.2) false).map (fun c => (who i.1 (cellPos td c.2), c.1))
    else [])

/-- The addresses a write of the rows of a tensor that meet a condition touches, each with the tile that writes it. -/
def writePairs (who : Nat → Nat → TileId) (td : TDesc) (p : Nat × Nat × Nat → Bool) : List (TileId × Nat) :=
  ((allRows td).filter p).flatMap (fun i =>
    if rowWrites td i.1 i.2.1 i.2.2 then
      (writeCells td (rowAt td i.1 i.2.1 i.2.2)).map (fun c => (who i.1 (cellPos td c.2), c.1))
    else [])

/-! ### Exact products and sums (R188, R189) -/

/-- An exact product of two element values. -/
def fvMul : FV → FV → FV
  | .nan, _ => .nan
  | _, .nan => .nan
  | .inf a, .inf b => .inf (a ^^ b)
  | .inf a, .fin b m _ => if m = 0 then .nan else .inf (a ^^ b)
  | .fin a m _, .inf b => if m = 0 then .nan else .inf (a ^^ b)
  | .fin a m e, .fin b n g => .fin (a ^^ b) (m * n) (e + g)

/-- The exact value of a finite reading; 0 for the others. -/
def fvDy : FV → Dy
  | .fin a m e => finDy a m e
  | _ => Dy.zero

def fvIsInf (neg : Bool) : FV → Bool
  | .inf a => a == neg
  | _ => false

/-- An exact sum rounded once to FP32. -/
def sumF32 (l : List FV) : Nat :=
  if l.contains .nan || (l.any (fvIsInf false) && l.any (fvIsInf true)) then qnan
  else if l.any (fvIsInf false) then f32Inf false
  else if l.any (fvIsInf true) then f32Inf true
  else dyF32 (l.all isNegZero) (l.foldl (fun a v => dyAdd a (fvDy v)) Dy.zero)

/-- One step of the accumulator: unchanged with no term, else the rounded sum of itself and the terms (R188, R223). -/
def accStep (acc : Option Nat) (terms : List FV) : Option Nat :=
  match terms with
  | [] => acc
  | _ => some (sumF32 ((acc.map rdF32).toList ++ terms))

/-- The tree run for a number of levels. -/
def treeLevels (f : Nat → Nat → Nat) : Nat → List Nat → List Nat
  | 0, l => l
  | n + 1, l => treeLevels f n (pairUp f l)

/-- The single value a tree ends in. -/
def treeOf (f : Nat → Nat → Nat) (l : List Nat) : Option Nat := (treeLevels f (bitLen l.length) l).head?

/-! ### Residue checks (R203, R231) -/

/-- What the checks of units `first` to `first + n − 1` come to with `retry` recomputations allowed: how many were corrected,
how many recomputations ran, and the first that none passed. -/
def residueRun (env : EngEnv) (first n retry : Nat) : Nat × Nat × Option Nat :=
  (List.range n).foldl (fun (r : Nat × Nat × Option Nat) i =>
    match r.2.2 with
    | some _ => r
    | none =>
      let k := ((env.residue.find? (fun e => e.1 == first + i)).map (·.2)).getD 0
      if k = 0 then r
      else if k ≤ retry then (r.1 + 1, r.2.1 + k, none)
      else (r.1, r.2.1 + retry, some (first + i))) (0, 0, none)

end Sys2Proof.Machine
end

