-- ==== Sys2Proof/Machine/SparseA.lean ====
section
/-! DEFINITION. Sparse operands of CE.MM (R221 to R229): the sparse descriptor, the entries each format stores, and the choice
of the dense or the sparse path. -/

namespace Sys2Proof.Machine

/-- The `n`-byte word read at an address. -/
def engWord (t : TileId) (unit : Nat) (env : EngEnv) (n va : Nat) (s : State) : Except (Status × Nat) Nat × State :=
  emBind (engRead t unit env ((List.range n).map (va + ·)) s) (fun bs s => (.ok (leNat bs), s))

/-- Words `idx` of an array of `n`-byte words at an address. -/
def engWords (t : TileId) (unit : Nat) (env : EngEnv) (va n : Nat) (idx : List Nat) (s : State) :
    Except (Status × Nat) (List Nat) × State :=
  emBind (engRead t unit env (idx.flatMap (fun i => (List.range n).map (va + n * i + ·))) s) (fun bs s =>
    (.ok ((List.range idx.length).map (fun i => leAt bs (n * i) n)), s))

/-! ### The sparse descriptor (Table 8-5) -/

def isSparse (d : DWord) : Bool := decide (0x20 ≤ dF d 0x2E 1 ∧ dF d 0x2E 1 ≤ 0x25)
def spFmt (d : DWord) : Nat := dF d 0x2E 1
def spVal (d : DWord) : Nat := dF d 0x00 8
def spScale (d : DWord) : Nat := dF d 0x08 8
def spPtr (d : DWord) : Nat := dF d 0x10 8
def spIdx (d : DWord) : Nat := dF d 0x18 8
def spRows (d : DWord) : Nat := dF d 0x20 4
def spCols (d : DWord) : Nat := dF d 0x24 4
def spParam (d : DWord) : Nat := dF d 0x28 2
def spIdxw (d : DWord) : Nat := dF d 0x2A 1
def spVfmt (d : DWord) : Nat := dF d 0x2F 1

/-- Formats the cube takes as A or B (Table 7-1). -/
def ceFormat (c : Nat) : Bool := [0x01, 0x02, 0x03, 0x04, 0x08, 0x09, 0x0A, 0x0B, 0x0C, 0x0D].contains c

/-- Bytes of one element of the index array (Table 8-6). -/
def spIdxBytes (d : DWord) : Nat :=
  match spFmt d with
  | 0x22 | 0x23 => 2
  | 0x24 => if spParam d = 0 then 1 else 2
  | _ => if spIdxw d = 0 then 2 else 4

/-- The refusals of Table 8-7. -/
def spRefused (d : DWord) : Bool :=
  let f := spFmt d
  let ptr := f == 0x20 || f == 0x21 || f == 0x23 || f == 0x25
  dF d 0x2B 3 != 0 || dF d 0x30 16 != 0 ||
  decide (2 ^ 48 ≤ spVal d) || decide (2 ^ 48 ≤ spScale d) || decide (2 ^ 48 ≤ spPtr d) || decide (2 ^ 48 ≤ spIdx d) ||
  !ceFormat (spVfmt d) ||
  spRows d == 0 || decide (16777216 < spRows d) || spCols d == 0 || decide (16777216 < spCols d) ||
  decide (1 < spIdxw d) || (spIdxw d != 0 && (f == 0x22 || f == 0x23 || f == 0x24)) ||
  (if f = 0x22 then spParam d == 0 || decide (4096 < spParam d) else if f = 0x24 then decide (1 < spParam d)
    else spParam d != 0) ||
  (f == 0x24 && spCols d % (if spParam d = 0 then 4 else 8) != 0) ||
  (isBlock (spVfmt d) == (spScale d == 0)) || (ptr == (spPtr d == 0)) ||
  spPtr d % 4 != 0 || spIdx d % spIdxBytes d != 0

/-! ### Stored entries (Table 8-6) -/

/-- Row blocks of M rows. -/
def rowBlocks16 (m : Nat) : Nat := ceilDiv m 16

/-- The numbers from `a` up to `b`. -/
def span (a b : Nat) : List Nat := (List.range (b - a)).map (a + ·)

/-- Addresses of words of an array. -/
def wordVas (va n : Nat) (idx : List Nat) : List Nat := idx.flatMap (fun i => (List.range n).map (va + n * i + ·))

/-- Set bits of a window's bitmap, ascending. -/
def bitList (x : Nat) : List Nat := (List.range 16).filter (x.testBit ·)

/-- Entries of row `m` given its pointers: the index words it reads, and the entries they give. -/
def rowPlan (d : DWord) (ptr : List Nat) (m : Nat) : List Nat × (List Nat → List (Nat × Nat)) :=
  let p (i : Nat) : Nat := ptr.getD i 0
  let k := spCols d
  match spFmt d with
  | 0x20 =>
    let es := span (p m) (p (m + 1))
    (es, fun ix => ix.zip es)
  | 0x22 =>
    let js := (List.range (spParam d)).map (m * spParam d + ·)
    (js, fun ix => (ix.zip js).flatMap (fun e =>
      if e.1 = 0xFFFF then [] else (List.range 16).map (fun i => (16 * e.1 + i, e.2 * 16 + i))))
  | 0x23 =>
    let nw := ceilDiv k 16
    ((List.range nw).map (m * nw + ·), fun ix =>
      let ks := ix.zipIdx.flatMap (fun e => (bitList e.1).map (16 * e.2 + ·))
      ks.zipIdx.map (fun e => (e.1, p m + e.2)))
  | 0x24 =>
    let g := if spParam d = 0 then 4 else 8
    let n := g / 2
    let b := if spParam d = 0 then 2 else 3
    ((List.range (k / g)).map (m * (k / g) + ·), fun ix => ix.zipIdx.flatMap (fun e =>
      (List.range n).map (fun i => (e.2 * g + bits e.1 (b * i) b, (m * (k / g) + e.2) * n + i))))
  | 0x25 =>
    let rs := span (p (2 * m)) (p (2 * m + 2))
    (rs.flatMap (fun r => [2 * r, 2 * r + 1]), fun ix =>
      let runs := (List.range rs.length).map (fun i => (ix.getD (2 * i) 0, ix.getD (2 * i + 1) 0))
      let ks := runs.flatMap (fun r => (List.range r.2).map (r.1 + ·))
      ks.zipIdx.map (fun e => (e.1, p (2 * m + 1) + e.2)))
  | _ => ([], fun _ => [])

/-- Words of the pointer array (Table 8-6). -/
def ptrCount (d : DWord) : Nat :=
  match spFmt d with
  | 0x20 | 0x23 => spRows d + 1
  | 0x21 => rowBlocks16 (spRows d) + 1
  | 0x25 => 2 * (spRows d + 1)
  | _ => 0

/-- Pointers of a row block decrease: the rows of C are undefined (Table 8-12). -/
def blockBad (d : DWord) (ptr : List Nat) (b : Nat) : Bool :=
  let p (i : Nat) : Nat := ptr.getD i 0
  let ms := span (16 * b) (min (16 * b + 16) (spRows d))
  match spFmt d with
  | 0x20 | 0x23 => ms.any (fun m => decide (p (m + 1) < p m))
  | 0x21 => decide (p (b + 1) < p b)
  | 0x25 => ms.any (fun m => decide (p (2 * m + 2) < p (2 * m)) || decide (p (2 * m + 3) < p (2 * m + 1)))
  | _ => false

/-- eb of a row block from the metadata; `slots` counts a BELL-16 block's non-null slots. -/
def blockEntries (d : DWord) (ptr : List Nat) (slots b : Nat) : Nat :=
  let p (i : Nat) : Nat := ptr.getD i 0
  let hi := min (16 * b + 16) (spRows d)
  match spFmt d with
  | 0x20 | 0x23 => p hi - p (16 * b)
  | 0x21 => p (b + 1) - p b
  | 0x25 => p (2 * hi + 1) - p (2 * (16 * b) + 1)
  | 0x22 => 16 * slots
  | _ => 16 * spCols d / 2

/-- The rows of a sparse A read through its index array; for COO by row block. -/
def spRead (t : TileId) (env : EngEnv) (d : DWord) (s : State) : Except (Status × Nat) SpMeta × State :=
  let n := spIdxBytes d
  let m := spRows d
  let nb := rowBlocks16 m
  let pidx := List.range (ptrCount d)
  emBind (engWords t unitGme env (spPtr d) 4 pidx s) (fun ptr s =>
    let pvas := wordVas (spPtr d) 4 pidx
    let bad := (List.range nb).map (blockBad d ptr)
    if spFmt d = 0x21 then
      let es (b : Nat) : List Nat := span (ptr.getD b 0) (ptr.getD (b + 1) 0)
      emBind (emMap (fun b s =>
          emBind (engWords t unitGme env (spIdx d) n ((es b).flatMap (fun e => [2 * e, 2 * e + 1])) s) (fun ix s =>
            (.ok ((es b).zipIdx.map (fun e => (ix.getD (2 * e.2) 0, ix.getD (2 * e.2 + 1) 0, e.1))), s)))
          (List.range nb) s) (fun blks s =>
        let row (r : Nat) : List (Nat × Nat) :=
          (((blks.getD (r / 16) []).filter (fun e => e.1 == r)).map (·.2)).filter (fun e => decide (e.1 < spCols d))
        (.ok ⟨(List.range m).map row, (List.range nb).map (blockEntries d ptr 0), bad,
          pvas ++ (List.range nb).flatMap (fun b =>
            wordVas (spIdx d) n ((es b).flatMap (fun e => [2 * e, 2 * e + 1])))⟩, s))
    else
      emBind (emMap (fun r s =>
          emBind (engWords t unitGme env (spIdx d) n (rowPlan d ptr r).1 s) (fun ix s =>
            (.ok (ix, ((rowPlan d ptr r).2 ix).filter (fun e => decide (e.1 < spCols d))), s)))
          (List.range m) s) (fun rows s =>
        let slots (b : Nat) : Nat :=
          (((rows.drop (16 * b)).take 16).flatMap (·.1)).countP (fun x => x != 0xFFFF)
        (.ok ⟨rows.map (·.2), (List.range nb).map (fun b => blockEntries d ptr (slots b) b), bad,
          pvas ++ (List.range m).flatMap (fun r => wordVas (spIdx d) n (rowPlan d ptr r).1)⟩, s)))

/-- Addresses of a stored value's bytes and of its scale. -/
def spValueVas (d : DWord) (v : Nat) : List Nat :=
  let w := (formatOf (spVfmt d)).elim 8 (·.w)
  (span (v * w / 8) ((v * w + w - 1) / 8 + 1)).map (spVal d + ·) ++
    (if isBlock (spVfmt d) then [spScale d + v / 32] else [])

/-- A stored value read (R222). -/
def spValue (t : TileId) (env : EngEnv) (d : DWord) (v : Nat) (s : State) : Except (Status × Nat) FV × State :=
  match formatOf (spVfmt d) with
  | none => (.ok .nan, s)
  | some f =>
    emBind (engRead t unitGme env (spValueVas d v) s) (fun bs s =>
      let n := (v * f.w + f.w - 1) / 8 + 1 - v * f.w / 8
      let x := bits (leNat (bs.take n)) (v * f.w % 8) f.w
      (.ok (if isBlock (spVfmt d) then scaledValue f (leNat (bs.drop n)) x else elemValue f x), s))

/-! ### Dense or sparse execution (R226 to R229) -/

/-- Threshold per 1,000 of a format: the defaults of Table 8-8 at basic level. -/
def spThreshold (s : State) (t : TileId) (f : Nat) : Nat :=
  let o := R.GME_THRESH t.toNat
  let x := rbit s (R.GME_CTL t.toNat) F.GME_CTL_EXPERT
  let pick (d : Nat) (g : Fld) : Nat := if x then min 1000 (rget s o g) else d
  match f with
  | 0x20 => pick 60 F.GME_THRESH_CSR
  | 0x21 => pick 40 F.GME_THRESH_COO
  | 0x22 => pick 300 F.GME_THRESH_BELL
  | 0x23 => pick 450 F.GME_THRESH_BITMAP
  | 0x25 => pick 700 F.GME_THRESH_RRL
  | _ => 0

/-- A row block with `eb` entries runs on the sparse path (R226, R227). -/
def spSparsePath (s : State) (t : TileId) (d : DWord) (eb : Nat) : Bool :=
  let o := R.GME_CTL t.toNat
  let c := if rbit s o F.GME_CTL_EXPERT then rget s o F.GME_CTL_CHOICE else 0
  if c = 1 then false
  else if c = 2 then true
  else spFmt d == 0x24 || decide (1000 * eb < spThreshold s t (spFmt d) * 16 * spCols d)

/-- Stored entries per 100 cc of the sparse path in the 8-bit class (Table 8-8). -/
def spRate (f : Nat) : Nat :=
  match f with
  | 0x20 => 1536
  | 0x21 => 1024
  | 0x22 => 7680
  | 0x23 => 11520
  | 0x24 => 25600
  | _ => 17920

/-- cc per column chunk of a row block (R229): 16-bit operands halve the sparse rate, 4-bit ones double it. -/
def spCost (d : DWord) (kstep eb : Nat) (sparse : Bool) : Nat :=
  if sparse then max 1 (ceilDiv (eb * 100 * 16) (spRate (spFmt d) * kstep)) else ceilDiv (spCols d) kstep

end Sys2Proof.Machine
end

