-- ==== Sys2Proof/Machine/Cube.lean ====
section
/-! DEFINITION. The Cube Engine (R184 to R208), quad ganging (R199 to R201) and CE.GROUPED (R270 to R273). -/

namespace Sys2Proof.Machine

/-! ### Classes and refusals -/

/-- The K-step of an operand pair; none where the pair is in no class (Table 7-1). -/
def kStep (a b : Nat) : Option Nat :=
  let c8 (c : Nat) : Bool := [0x03, 0x04, 0x08, 0x09, 0x0A, 0x0B].contains c
  if c8 a && c8 b then some 16
  else if a = 0x0C ∧ b = 0x0C then some 32
  else if (a == 0x0C && c8 b) || (c8 a && b == 0x0C) then some 16
  else if a = 0x0D ∧ b = 0x0D then some 16
  else if (a == 1 || a == 2) && (b == 1 || b == 2) then some 8
  else none

/-- Formats of C (R185). -/
def ceOutFormat (c : Nat) : Bool :=
  [0x00, 0x01, 0x02, 0x03, 0x04, 0x08, 0x09, 0x0A, 0x0B, 0x0C, 0x0D].contains c

/-- Descriptor index of the K dimension: A runs it along D0 unless TA, B along D1 unless TB (Table 7-2). -/
def aK (ta : Bool) (a : TDesc) : Nat := if ta then tExt a 1 else tExt a 0
def aM (ta : Bool) (a : TDesc) : Nat := if ta then tExt a 0 else tExt a 1
def bK (tb : Bool) (b : TDesc) : Nat := if tb then tExt b 0 else tExt b 1
def bN (tb : Bool) (b : TDesc) : Nat := if tb then tExt b 1 else tExt b 0

/-- An operand's batch extent is 1 or C's (R187). -/
def batchOk (x c : TDesc) : Bool :=
  (tExt x 2 == 1 || tExt x 2 == tExt c 2) && (tExt x 3 == 1 || tExt x 3 == tExt c 3)

/-- Tile `t` runs in a quad (R199). -/
def inQuad (s : State) (t : TileId) : Bool := rbit s (R.CE_STATUS t.toNat) F.CE_STATUS_QUAD

/-- The four tiles of the quad that tile `t` leads: leader, north-east, south-west, south-east. -/
def quadTiles (t : TileId) : List TileId :=
  let x := tileX t
  let y := tileY t
  [t, tileAt (x + 1) y, tileAt x (y + 1), tileAt (x + 1) (y + 1)]

/-- The refusals of R187, R224 and R225. A sparse A is for the A position of a CE.MM only (R221): `sparse` says that this is one. -/
def ceRefused (s : State) (t : TileId) (sparse : Bool) (aw bw cw : DWord) (imm : EngImm) : Bool :=
  let b := tdOf bw
  let c := tdOf cw
  tdRefused (fun _ => true) b || tdRefused ceOutFormat c || bN imm.tb b != tExt c 0 ||
  (if sparse && isSparse aw then
    spRefused aw || imm.ta || inQuad s t || (kStep (spVfmt aw) b.fmt).isNone || bK imm.tb b != spCols aw ||
    tExt c 1 != spRows aw || tExt b 2 != 1 || tExt b 3 != 1 || tExt c 2 != 1 || tExt c 3 != 1
  else
    let a := tdOf aw
    tdRefused (fun _ => true) a || (kStep a.fmt b.fmt).isNone || bK imm.tb b != aK imm.ta a || aM imm.ta a != tExt c 1 ||
    !batchOk a c || !batchOk b c)

/-! ### Operands -/

/-- The tiles that take part, and the columns each half of a chunk holds. -/
structure CeShape where
  tiles : List TileId
  rows  : Nat
  half  : Nat
  deriving DecidableEq, Repr

/-- The shape of tile `t`'s cube: alone, or with its quad (R199). -/
def ceShape (s : State) (t : TileId) : CeShape :=
  if inQuad s t then
    let q := quadTiles t
    ⟨q, 32, q.foldl (fun w u => min w (ceWidth s u)) 16⟩
  else ⟨[t], 16, ceWidth s t⟩

def CeShape.cols (h : CeShape) : Nat := if h.tiles.length = 1 then h.half else 2 * h.half

/-- The tile that reads A's row m, B's column n, and that computes C[m, n] (R199, R200). -/
def CeShape.aTile (h : CeShape) (m : Nat) : TileId :=
  if m % 32 < 16 then h.tiles.getD 0 0 else h.tiles.getD 2 (h.tiles.getD 0 0)
def CeShape.bTile (h : CeShape) (n : Nat) : TileId :=
  if n % (2 * h.half) < h.half then h.tiles.getD 0 0 else h.tiles.getD 1 (h.tiles.getD 0 0)
def CeShape.cTile (h : CeShape) (m n : Nat) : TileId :=
  h.tiles.getD ((if m % 32 < 16 then 0 else 2) + (if n % (2 * h.half) < h.half then 0 else 1)) (h.tiles.getD 0 0)

/-- The tile that reads position p of row i1 of A or of B as stored. -/
def CeShape.aWho (h : CeShape) (imm : EngImm) (i1 p : Nat) : TileId := h.aTile (if imm.ta then p else i1)
def CeShape.bWho (h : CeShape) (imm : EngImm) (i1 p : Nat) : TileId := h.bTile (if imm.tb then i1 else p)

/-- A matrix of values read through a descriptor for one batch index: its stored rows, each of its D0 elements. -/
def readMatrix (h : CeShape) (env : EngEnv) (who : Nat → Nat → TileId) (td : TDesc) (b2 b3 : Nat) (s : State) :
    Except (Status × Nat) (List (List FV)) × State :=
  let i2 := if tExt td 2 = 1 then 0 else b2
  let i3 := if tExt td 3 = 1 then 0 else b3
  emBind (readRowsBy h.tiles unitCe env who td i2 i3 (List.range (tExt td 1)) s) (fun rows s =>
    (.ok (rows.map (rowValues td)), s))

/-- Columns of a matrix as rows. -/
def transpose (n : Nat) (m : List (List FV)) : List (List FV) :=
  (List.range n).map (fun j => m.map (fun r => r.getD j .nan))

/-- The terms of a row of A grouped by step: step s holds those with k in its span (R188). -/
def rowSteps (k kstep : Nat) (terms : List (Nat × FV)) : List (List (Nat × FV)) :=
  (List.range (ceilDiv k kstep)).map (fun st => terms.filter (fun e => e.1 / kstep == st))

/-- One element of C: its steps in ascending order from the accumulator (R188, R223). An accumulator that stays empty is +0. -/
def ceElem (steps : List (List (Nat × FV))) (bcol : Array FV) (acc : Option Nat) : Nat :=
  (steps.foldl (fun a ts => accStep a (ts.map (fun e => fvMul e.2 (bcol.getD e.1 .nan)))) acc).getD 0

/-- The rows of C for one batch index: each packed. `arows` holds each row's terms by step, `old` the rows ACC reads. -/
def ceRows (c : TDesc) (arows : List (List (List (Nat × FV)))) (bcols : List (Array FV)) (old : Option (List (List FV))) :
    List (List Byte) :=
  arows.zipIdx.map (fun ar =>
    packRow c.fmt (bcols.zipIdx.map (fun bc =>
      rdF32 (ceElem ar.1 bc.1 (old.map (fun o => wrF32 ((o.getD ar.2 []).getD bc.2 .nan)))))))

/-- One batch index of a product: the bytes of C it writes, with the tile that writes each. -/
def ceBatch (h : CeShape) (env : EngEnv) (imm : EngImm) (aterms : Option (List (List (Nat × FV)))) (a b c : TDesc)
    (k kstep b2 b3 : Nat) (s : State) : Except (Status × Nat) (List (TileId × Nat × Byte)) × State :=
  let m := tExt c 1
  let n := tExt c 0
  emBind (match aterms with
    | some ts => (.ok ts, s)
    | none =>
      emBind (readMatrix h env (h.aWho imm) a b2 b3 s) (fun rows s =>
        (.ok ((if imm.ta then transpose m rows else rows).map (fun r => r.zipIdx.map (fun e => (e.2, e.1)))), s)))
    (fun at_ s =>
  emBind (readMatrix h env (h.bWho imm) b b2 b3 s) (fun brows s =>
  let bcols := ((if imm.tb then brows else transpose n brows)).map (·.toArray)
  emBind (if imm.acc then
      emBind (readMatrix h env h.cTile c b2 b3 s) (fun rows s => (.ok (some rows), s))
    else (.ok none, s)) (fun old s =>
  let rows := ceRows c (at_.map (rowSteps k kstep)) bcols old
  (.ok (rows.zipIdx.flatMap (fun r =>
    (outCells c r.2 b2 b3 r.1).map (fun e => (h.cTile r.2 (cellPos c e.2.1), e.1, e.2.2)))), s))))

/-- The bytes of each tile written in turn; a quad partner's scratchpad passes no window (Table 3-9). -/
def ceWriteBy (h : CeShape) (env : EngEnv) (cells : List (TileId × Nat × Byte)) :
    List TileId → State → Option (Status × Nat) × State
  | [], s => (none, s)
  | u :: us, s =>
    let mine := (cells.filter (fun e => e.1 == u)).map (·.2)
    match engWriteX u unitCe (.unit h.tiles) env mine s with
    | (some e, s1) => (some e, s1)
    | (none, s1) => ceWriteBy h env cells us s1

/-- The bytes of C written. Where several of its elements lie at one address, by one tile or by several of a quad, a free value
picks the one that stays (R142). -/
def ceWrite (h : CeShape) (env : EngEnv) (c : TDesc) (cells : List (TileId × Nat × Byte)) (s : State) :
    Option (Status × Nat) × State :=
  let r := pickWrites (fun e => e.2.1) (fieldKey c) cells s
  ceWriteBy h env r.1 h.tiles r.2

/-- How often a mismatch is recomputed (R203). -/
def ceRetry (s : State) (t : TileId) : Nat :=
  let o := R.CE_CTL t.toNat
  if rbit s o F.CE_CTL_EXPERT then rget s o F.CE_CTL_RETRY else 1

/-- The outcome of the residue checks counted and recorded at the tile that detects them (R203, R204). COL is the physical column
that computes the output column at which the last attempt failed (R198). -/
def ceResidue (h : CeShape) (env : EngEnv) (r : Nat × Nat × Option Nat) (s : State) : State :=
  let u := h.tiles.getD env.role.toNat (h.tiles.getD 0 0)
  let o := R.CE_RESIDUE u.toNat
  let s := rinc o F.CE_RESIDUE_CORR r.1 s
  if r.2.2.isSome then
    let s := rput (R.CE_ERRINFO u.toNat) ((physCols s u).getD (env.col % h.half) 0 + 1 <<< 4) s
    alert 2 (rinc o F.CE_RESIDUE_UNCORR 1 s)
  else s

/-- What a run of one product came to: its status, the number of chunks it had, and whether its reads were done. -/
structure CeRun where
  bad    : Option (Status × Nat)
  chunks : Nat
  read   : Bool
  deriving DecidableEq, Repr

/-- The K-step of a product's operands. -/
def ceStep (aw bw : DWord) : Nat := (kStep (if isSparse aw then spVfmt aw else (tdOf aw).fmt) (tdOf bw).fmt).getD 16

/-- The extent of K. -/
def ceK (aw : DWord) (imm : EngImm) : Nat := if isSparse aw then spCols aw else aK imm.ta (tdOf aw)

/-- The chunks of a product: column groups, and with row groups and batches (R188). -/
def ceColGroups (h : CeShape) (c : TDesc) : Nat := ceilDiv (tExt c 0) h.cols
def ceChunks (h : CeShape) (c : TDesc) : Nat := tExt c 3 * tExt c 2 * ceilDiv (tExt c 1) h.rows * ceColGroups h c

/-- A sparse A with the terms of its rows; none where A is dense. -/
def ceSparse (t : TileId) (env : EngEnv) (aw : DWord) (s : State) :
    Except (Status × Nat) (Option (SpMeta × List (List (Nat × FV)))) × State :=
  if isSparse aw then
    emBind (spRead t env aw s) (fun m s =>
      emBind (emMap (fun row s => emMap (fun (e : Nat × Nat) s =>
        emBind (spValue t env aw e.2 s) (fun v s => (.ok (e.1, v), s))) row s) m.rows s) (fun ts s =>
        (.ok (some (m, ts)), s)))
  else (.ok none, s)

/-- The operands read and the product formed: a sparse A's tables, and the bytes of C. -/
def ceProduct (t : TileId) (env : EngEnv) (aw bw cw : DWord) (imm : EngImm) (s : State) :
    Except (Status × Nat) (Option SpMeta × List (TileId × Nat × Byte)) × State :=
  let c := tdOf cw
  let h := ceShape s t
  let batches := (List.range (tExt c 3)).flatMap (fun b3 => (List.range (tExt c 2)).map (fun b2 => (b2, b3)))
  emBind (ceSparse t env aw s) (fun sp s =>
    emBind (emMap (fun (p : Nat × Nat) s =>
        ceBatch h env imm (sp.map (·.2)) (tdOf aw) (tdOf bw) c (ceK aw imm) (ceStep aw bw) p.1 p.2 s) batches s) (fun cs s =>
      (.ok (sp.map (·.1), cs.flatten), s)))

/-- The steps of a product, each once: of a sparse A by the path of each row block (R197, R229). -/
def ceTotal (s : State) (t : TileId) (h : CeShape) (aw bw : DWord) (c : TDesc) (k : Nat) (sp : Option SpMeta) : Nat :=
  match sp with
  | some m => (m.eb.map (fun e => ceColGroups h c * spCost aw (ceStep aw bw) e (spSparsePath s t aw e))).sum
  | none => ceChunks h c * ceilDiv k (ceStep aw bw)

/-- `CE_STEPS` raised. -/
def addSteps (t : TileId) (n : Nat) (s : State) : State := rinc (R.CE_STEPS t.toNat) F.CE_STEPS_COUNT n s

/-- `CE_STEPS` of a product that ended early: how many of its steps were completed the spec does not say (R32), so a free value
chooses a number from `lo` to `hi` (log entry 3). -/
def openSteps (t : TileId) (lo hi : Nat) (s : State) : State :=
  let f := freeWord s
  addSteps t (lo + f.1.toNat % (hi - lo + 1)) f.2

/-- A sparse A's row blocks counted by path (R226). -/
def ceBlocks (t : TileId) (aw : DWord) (sp : Option SpMeta) (s : State) : State :=
  match sp with
  | some m =>
    let n := m.eb.countP (spSparsePath s t aw)
    rinc (R.GME_SPARSE_BLK t.toNat) F.GME_SPARSE_BLK_COUNT n
      (rinc (R.GME_DENSE_BLK t.toNat) F.GME_DENSE_BLK_COUNT (m.eb.length - n) s)
  | none => s

/-- The bytes of C, each with the tile that writes it: of all rows, or of those that meet a condition. -/
def ceDest (h : CeShape) (c : TDesc) (p : Nat × Nat × Nat → Bool) : List (TileId × Nat) := writePairs h.cTile c p

/-- Bytes of C whose contents are undefined (R26): each tile of a quad reaches its own quadrant (R200). -/
def undefineC (h : CeShape) (dest : List (TileId × Nat)) (s : State) : State :=
  h.tiles.foldl (fun s u => undefineVas u (.unit h.tiles) ((dest.filter (fun e => e.1 == u)).map (·.2)) s) s

/-- Bytes of C left undefined after a run that completes: all where C lies over its operands, else the rows whose sparse
pointers decrease (Tables 7-7 and 8-12). -/
def ceUndefined (t : TileId) (s : State) (h : CeShape) (aw bw cw : DWord) (imm : EngImm) (sp : Option SpMeta) :
    List (TileId × Nat) :=
  let c := tdOf cw
  let all := ceDest h c (fun _ => true)
  let apairs := match sp with
    | some m => (m.vas ++ m.rows.flatten.flatMap (fun e => spValueVas aw e.2)).map (t, ·)
    | none => readPairs (h.aWho imm) (tdOf aw)
  if pairsOverlap s all (apairs ++ readPairs (h.bWho imm) (tdOf bw)) then all
  else match sp with
    | some m => ceDest h c (fun i => m.bad.getD (i.1 / 16) false)
    | none => []

/-- A run that fails leaves C undefined (R26); `read` says whether its reads were done. -/
def ceFail (h : CeShape) (c : TDesc) (read : Bool) (e : Status × Nat) (s : State) : CeRun × State :=
  (⟨some e, ceChunks h c, read⟩, undefineC h (ceDest h c (fun _ => true)) s)

/-- The product checked, counted and written (R188 to R206). -/
def ceFinish (t : TileId) (env : EngEnv) (first : Nat) (h : CeShape) (aw bw cw : DWord) (imm : EngImm) (sp : Option SpMeta)
    (cells : List (TileId × Nat × Byte)) (s : State) : CeRun × State :=
  let c := tdOf cw
  let k := ceilDiv (ceK aw imm) (ceStep aw bw)
  let total := ceTotal s t h aw bw c (ceK aw imm) sp
  if env.linkErr && h.tiles.length == 4 then ceFail h c true (.faultEcc, 0) (openSteps t 0 total s)
  else
    let res := residueRun env first (ceChunks h c) (ceRetry s t)
    let again := res.2.1 * k
    let s := ceBlocks t aw sp (ceResidue h env res s)
    match res.2.2 with
    | some n =>
      let lo := if sp.isSome then 0 else (n - first + 1) * k
      ceFail h c true (.faultResidue, 0) (openSteps t (lo + again) (total + again) s)
    | none =>
      match ceWrite h env c cells s with
      | (some e, s) => ceFail h c true e (openSteps t 0 (total + again) s)
      | (none, s) => (⟨none, ceChunks h c, true⟩, undefineC h (ceUndefined t s h aw bw cw imm sp) (addSteps t (total + again) s))

/-- The end of a product whose reads failed: some of its steps were completed. No row block costs more than 32 times its dense
path, whatever path was chosen (R229). -/
def ceReadFail (t : TileId) (h : CeShape) (aw bw cw : DWord) (imm : EngImm) (e : Status × Nat) (s : State) : CeRun × State :=
  let c := tdOf cw
  ceFail h c false e (openSteps t 0 (32 * (ceChunks h c * ceilDiv (ceK aw imm) (ceStep aw bw))) s)

/-- One CE.MM on accepted operands, chunks numbered from `first` (R188 to R206). -/
def ceMm (t : TileId) (env : EngEnv) (first : Nat) (aw bw cw : DWord) (imm : EngImm) (s : State) : CeRun × State :=
  let h := ceShape s t
  match ceProduct t env aw bw cw imm s with
  | (.error e, s) => ceReadFail t h aw bw cw imm e s
  | (.ok (sp, cells), s) => ceFinish t env first h aw bw cw imm sp cells s

/-! ### Grouped-operation tables (R270 to R273) -/

def gtTable (d : DWord) : Nat := dF d 0x00 8
def gtTmpl (d : DWord) (i : Nat) : Nat := dF d (0x08 + 8 * i) 8
def gtRestab (d : DWord) : Nat := dF d 0x20 8
def gtBoff (d : DWord) : Nat := dF d 0x28 8
def gtRagged (d : DWord) : Nat := dF d 0x30 1

/-- A grouped-table descriptor with a reserved encoding. -/
def gtRefused (d : DWord) : Bool :=
  gtTable d % 32 != 0 || gtTmpl d 0 % 64 != 0 || gtTmpl d 1 % 64 != 0 || gtTmpl d 2 % 64 != 0 ||
  decide (1 < gtRagged d) || dF d 0x31 15 != 0

/-- An operand formed from its template: a new BASE, with SCALE_BASE moved as far, and a new extent. -/
def gtOperand (d : DWord) (base : Nat) (ext : Option (Nat × Nat)) : DWord :=
  let v := d.toNat
  let sc := if bit (dF d 0x2F 1) 0 then (dF d 0x08 8 + 2 ^ 64 + base - dF d 0x00 8) % 2 ^ 64 else dF d 0x08 8
  let v := putBits (putBits v 0 64 base) 64 64 sc
  BitVec.ofNat 512 (match ext with
    | some (k, e) => putBits v (8 * (0x10 + 4 * k)) 32 e
    | none => v)

/-- A grouped entry's operands: EXT replaces M in A and C, or K in A and B (R271). -/
def gtForm (imm : EngImm) (ragged ext : Nat) (ta tb tc : DWord) (ab bb cb : Nat) : DWord × DWord × DWord :=
  if ragged = 0 then
    (gtOperand ta ab (some (if imm.ta then 0 else 1, ext)), gtOperand tb bb none, gtOperand tc cb (some (1, ext)))
  else
    (gtOperand ta ab (some (if imm.ta then 1 else 0, ext)), gtOperand tb bb (some (if imm.tb then 0 else 1, ext)),
      gtOperand tc cb none)

/-- What a visit to an entry comes to: passed with the C descriptor it wrote, deferred, or the end of the instruction, with
whether the entry's reads were done. -/
inductive GtVisit where
  | ran (chunks : Nat) (c : Option DWord)
  | deferred
  | stop (st : Status) (va : Nat) (read : Bool)
  deriving DecidableEq, Repr

/-- B's base for an entry: its own, or the residency table's (R272). `first` is the visit in table order, when a FAULTED
expert is demanded again; later, a FAULTED expert whose demand is not held any more has had a fetch that ended FAULTED, and ends
the instruction with that fetch's status. -/
def gtBase (t : TileId) (env : EngEnv) (d : DWord) (expert : Nat) (dirb first : Bool) (own : Nat) (s : State) :
    Except GtVisit Nat × State :=
  if !dirb then (.ok own, s)
  else
    match engWord t unitCe env 8 (gtRestab d + 8 * expert) s with
    | (.error e, s) => (.error (.stop e.1 e.2 false), s)
    | (.ok w, s) =>
      let st := bits w 48 3
      let demandOff := rbit s R.EXD_CTL F.EXD_CTL_EXPERT && !rbit s R.EXD_CTL F.EXD_CTL_DEMAND_EN
      if st = resResident then (.ok ((bits w 0 48 + gtBoff d) % 2 ^ 64), endRef expert s)
      else if st = resNone ∨ demandOff = true then (.error (.stop .protection 0 false), s)
      else if st = resFaulted ∧ first = false ∧ s.exd.held.contains expert = false then
        (.error (.stop ((mfind s.exd.faults expert).getD .faultEcc) 0 false), s)
      else
        (.error .deferred, requestFetch expert true
          (if first then rinc R.EXD_DEMAND F.EXD_DEMAND_COUNT 1 s else s))

/-- B of an entry reaches past the pages of its expert's copy: its C is undefined (Table 10-16). -/
def gtOver (s : State) (d : DWord) (expert base : Nat) (b : TDesc) : Bool :=
  let va := (base + 2 ^ 64 - gtBoff d) % 2 ^ 64
  (readVas b).any (fun v => decide (v < va ∨ va + dirPages s expert * pageBytes ≤ v))

/-- A visit to entry `i` of a grouped table (R271, R272). -/
def gtEntry (t : TileId) (env : EngEnv) (e : EngCmd) (ta tb tc : DWord) (firstChunk i : Nat) (first : Bool) (s : State) :
    GtVisit × State :=
  match engRead t unitCe env ((List.range 32).map (gtTable e.da + 32 * i + ·)) s with
  | (.error x, s) => (.stop x.1 x.2 false, s)
  | (.ok bs, s) =>
    let ext := leAt bs 0 4
    let flags := leAt bs 6 1
    if 16777216 < ext ∨ 1 < flags ∨ leAt bs 7 1 ≠ 0 then (.stop .aborted 0 false, s)
    else if ext = 0 then (.ran 0 none, s)
    else
      match gtBase t env e.da (leAt bs 4 2) (bit flags 0) first (leAt bs 0x10 8) s with
      | (.error v, s) => (v, s)
      | (.ok bb, s) =>
        let ops := gtForm e.imm (gtRagged e.da) ext ta tb tc (leAt bs 8 8) bb (leAt bs 0x18 8)
        if ceRefused s t false ops.1 ops.2.1 ops.2.2 e.imm then (.stop .aborted 0 false, s)
        else
          let r := ceMm t env firstChunk ops.1 ops.2.1 ops.2.2 e.imm s
          match r.1.bad with
          | some x => (.stop x.1 x.2 r.1.read, r.2)
          | none =>
            let h := ceShape r.2 t
            (.ran r.1.chunks (some ops.2.2),
              if bit flags 0 && gtOver r.2 e.da (leAt bs 4 2) bb (tdOf ops.2.1) then
                undefineC h (ceDest h (tdOf ops.2.2) (fun _ => true)) r.2
              else r.2)

/-- What a walk over entries comes to: those deferred, the C descriptors written, the status that ends it, and whether it ended
after the last of its reads. -/
structure GtRun where
  defer : List Nat
  outs  : List DWord
  bad   : Option (Status × Nat)
  read  : Bool
  deriving DecidableEq, Repr

/-- Entries visited in ascending order. -/
def gtWalk (t : TileId) (env : EngEnv) (e : EngCmd) (ta tb tc : DWord) (first : Bool) :
    List Nat → Nat → State → GtRun × State
  | [], _, s => (⟨[], [], none, true⟩, s)
  | i :: is, ch, s =>
    match gtEntry t env e ta tb tc ch i first s with
    | (.stop st va rd, s) => (⟨[], [], some (st, va), rd && is.isEmpty⟩, s)
    | (.deferred, s) =>
      let r := gtWalk t env e ta tb tc first is ch s
      ({ r.1 with defer := i :: r.1.defer, read := false }, r.2)
    | (.ran n c, s) =>
      let r := gtWalk t env e ta tb tc first is (ch + n) s
      ({ r.1 with outs := c.toList ++ r.1.outs }, r.2)

/-- The destinations of the C descriptors that the entries of a CE.GROUPED wrote. -/
def gtDest (h : CeShape) (cs : List DWord) : List (TileId × Nat) :=
  cs.flatMap (fun d => ceDest h (tdOf d) (fun _ => true))

/-- Bytes that two entries of one instruction write are undefined (Table 7-7). -/
def gtOverlap (t : TileId) (cs : List DWord) (s : State) : State :=
  let h := ceShape s t
  let vas := cs.flatMap (fun d => (writeVas (tdOf d)).dedup)
  let twice := (vas.filter (fun v => decide (1 < vas.count v))).dedup
  if twice.isEmpty then s else undefineC h ((gtDest h cs).filter (fun p => twice.contains p.2)) s

/-- The three templates, read once when the instruction is accepted (R271). -/
def gtTemplates (t : TileId) (env : EngEnv) (d : DWord) (s : State) : Except (Status × Nat) (DWord × DWord × DWord) × State :=
  emBind (engRead64 t unitCe env (gtTmpl d 0) s) (fun a s =>
  emBind (engRead64 t unitCe env (gtTmpl d 1) s) (fun b s =>
  emBind (engRead64 t unitCe env (gtTmpl d 2) s) (fun c s => (.ok (a, b, c), s))))

/-! ### The queue -/

/-- The first CE instruction changed. -/
def ceHead (t : TileId) (f : EngCmd → EngCmd) (s : State) : State :=
  s.modTile t (fun c => { c with ce := modHead f c.ce })

/-- The instruction has run, with a status. -/
def ceDone (t : TileId) (bad : Option (Status × Nat)) (s : State) : State :=
  let x := bad.getD (.ok, 0)
  ceHead t (fun c => { c with phase := .done x.1 x.2 }) s

/-- The reads of an instruction are done: EMPTY of LIN is posted (R115). -/
def cePostIn (t : TileId) (e : EngCmd) (s : State) : State :=
  if e.imm.linEn then semPost t (emptySem e.imm.lin) 1 s else s

/-- A grouped walk's end: done, or its deferred entries wait (R272). EMPTY of LIN is posted once its reads are done (R115). -/
def gtEnd (t : TileId) (e : EngCmd) (r : GtRun × State) : State :=
  match r.1.bad with
  | some x => ceDone t (some x) (if r.1.read then cePostIn t e r.2 else r.2)
  | none =>
    let outs := e.outs ++ r.1.outs
    if r.1.defer.isEmpty then
      ceHead t (fun c => { c with outs := outs }) (ceDone t none (cePostIn t e (gtOverlap t outs r.2)))
    else ceHead t (fun c => { c with phase := .deferred r.1.defer, outs := outs }) r.2

/-- What is left of an instruction that holds its output link, or uses none: a CE.GROUPED's walk, which reads and writes entry
by entry; a CE.MM's writes. -/
def ceBody (t : TileId) (env : EngEnv) (e : EngCmd) (s : State) : State :=
  match e.op with
  | .ceGrouped =>
    let n := e.s1.toNat
    match e.tmpl with
    | some (a, b, c) => gtEnd t e (gtWalk t env e a b c true ((List.range n).map (e.s0.toNat + ·)) 0 s)
    | none => ceDone t none (cePostIn t e s)
  | _ =>
    match e.held with
    | some h =>
      let r := ceFinish t env 0 (ceShape s t) e.da e.db e.dc e.imm h.sp h.cells s
      ceDone t r.1.bad r.2
    | none => s

/-- The check when the engine accepts the instruction: a status that refuses it, if any, and the instruction with the templates
that it read (R187, R199, R271). A CE.GROUPED with no entry makes only its posts. -/
def ceAccept (t : TileId) (env : EngEnv) (e : EngCmd) (s : State) : Option (Status × Nat) × EngCmd × State :=
  if inQuad s t && rget s (R.CE_STATUS t.toNat) F.CE_STATUS_QROLE != 0 then (some (.aborted, 0), e, s)
  else
    match e.op with
    | .ceGrouped =>
      if e.s1.toNat = 0 then (none, e, s)
      else if gtRefused e.da || decide (65536 < e.s1.toNat) then (some (.aborted, 0), e, s)
      else
        match gtTemplates t env e.da s with
        | (.error x, s) => (some x, e, s)
        | (.ok m, s) =>
          let e := { e with tmpl := some m }
          (if ceRefused s t false m.1 m.2.1 m.2.2 e.imm then some (.aborted, 0) else none, e, ceHead t (fun _ => e) s)
    | _ => (if ceRefused s t true e.da e.db e.dc e.imm then some (.aborted, 0) else none, e, s)

/-- The output link's acquire, then what is left of the instruction (R115). -/
def ceOut (t : TileId) (env : EngEnv) (e : EngCmd) (s : State) : State :=
  if e.imm.loutEn then
    let r := acquire t (emptySem e.imm.lout) .ce 1 s
    if r.1 then ceBody t env e r.2 else ceHead t (fun c => { c with phase := .waitOut }) r.2
  else ceBody t env e s

/-- From a held input link on: a CE.MM reads its operands and posts EMPTY of LIN, and then turns to its output (R115). -/
def ceFromIn (t : TileId) (env : EngEnv) (e : EngCmd) (s : State) : State :=
  match e.op with
  | .ceGrouped => ceOut t env e s
  | _ =>
    let c := tdOf e.dc
    match ceProduct t env e.da e.db e.dc e.imm s with
    | (.error x, s) =>
      let r := ceReadFail t (ceShape s t) e.da e.db e.dc e.imm x s
      ceDone t r.1.bad r.2
    | (.ok (sp, cells), s) =>
      let e := { e with held := some ⟨sp, cells, [], writeVas c⟩ }
      ceOut t env e (ceHead t (fun _ => e) (cePostIn t e s))

/-- CE_EXECUTE: the Cube Engine takes the oldest queued instruction as far as its link acquires let it. -/
def execCeExecute (t : TileId) (env : EngEnv) (s : State) : Host.Outcome State Fault Refusal :=
  .next (match (s.tile t).ce with
    | [] => s
    | e :: _ =>
      match e.phase with
      | .queued =>
        match ceAccept t env e s with
        | (some x, _, s) => ceDone t (some x) s
        | (none, e, s) =>
          if e.imm.linEn then
            let r := acquire t (fullSem e.imm.lin) .ce 1 s
            if r.1 then ceFromIn t env e r.2 else ceHead t (fun c => { c with phase := .waitIn }) r.2
          else ceFromIn t env e s
      | .haveIn => ceFromIn t env e s
      | .ready => ceBody t env e s
      | _ => s)

/-- CE_INSTRUCTION_COMPLETE: the writes are visible and FULL of LOUT is posted, or the status is reported as an imprecise
fault with SOURCE 1 (R115, R116). -/
def execCeInstructionComplete (t : TileId) (s : State) : Host.Outcome State Fault Refusal :=
  .next (match (s.tile t).ce with
    | [] => s
    | e :: es =>
      match e.phase with
      | .done st va =>
        let s := progress t (s.modTile t (fun c => { c with ce := es }))
        let h := ceShape s t
        let s := if e.undef && st == .ok then undefineC h (gtDest h (if e.op = .ceGrouped then e.outs else [e.dc])) s else s
        if st = .ok then (if e.imm.loutEn then semPost t (fullSem e.imm.lout) 1 s else s)
        else pushFault t ⟨1, st, e.pc, va⟩ s
      | _ => s)

/-- GROUPED_RESIDENCY_POLL: the deferred entries' residency is read again and those that are RESIDENT run (R272). -/
def execGroupedResidencyPoll (t : TileId) (env : EngEnv) (s : State) : Host.Outcome State Fault Refusal :=
  .next (match (s.tile t).ce with
    | [] => s
    | e :: _ =>
      match e.phase with
      | .deferred is =>
        match e.tmpl with
        | some (a, b, c) => gtEnd t e (gtWalk t env e a b c false is 0 s)
        | none => s
      | _ => s)

/-- DEMAND_TIMEOUT: an entry is still deferred after its limit (R272). -/
def execDemandTimeout (t : TileId) (s : State) : Host.Outcome State Fault Refusal :=
  .next (match (s.tile t).ce with
    | [] => s
    | e :: _ =>
      match e.phase with
      | .deferred _ => ceDone t (some (.timeout, 0)) s
      | _ => s)

end Sys2Proof.Machine
end

