-- ==== Sys2Proof/Machine/Gme.lean ====
section
/-! DEFINITION. The Gather-Merge Engine's instructions (R209 to R219, R231): operands, bodies, and their place in the queue. -/

namespace Sys2Proof.Machine

/-! ### Requirements on operands (Table 8-3) -/

def isIndexFmt (c : Nat) : Bool := c == 0x19 || c == 0x1A
/-- Formats of source rows that are summed. -/
def segFmt (c : Nat) : Bool := c == 0x00 || ceFormat c

/-- Logical elements of a tensor. -/
def elemCount (d : TDesc) : Nat := tExt d 0 * rowCount d

/-- Elements of an index list, in iteration order. -/
def oneRowDims (d : TDesc) : Bool := tExt d 2 == 1 && tExt d 3 == 1

/-- The refusals of R213 for each instruction. -/
def gmeRefused (e : EngCmd) : Bool :=
  let a := tdOf e.da
  let b := tdOf e.db
  let c := tdOf e.dc
  match e.op with
  | .gather =>
    tdRefused isIndexFmt a || tdRefused (fun _ => true) b || tdRefused (fun f => f == b.fmt) c || e.imm.acc ||
    tExt c 0 != tExt b 0 || rowCount c != elemCount a
  | .segred =>
    tdRefused (· == 0x1A) a || tdRefused segFmt b || tdRefused ceOutFormat c || !oneRowDims a || decide (2 < tExt a 1) ||
    decide (tExt a 0 < 2) || tExt c 0 != tExt b 0 || rowCount c != tExt a 0 - 1
  | .merge =>
    tdRefused (· == 0x1A) a || tdRefused (· == 0x1A) b || tdRefused (· == 0x1A) c || e.imm.acc ||
    !oneRowDims a || !oneRowDims b || !oneRowDims c || decide (tExt a 0 < 2) || decide (32 < tExt a 0) ||
    tExt b 0 != tExt a 0 || tExt c 0 != tExt a 0 || decide (tExt c 1 < tExt a 1 + tExt b 1)
  | .scatter =>
    tdRefused isIndexFmt a || elemCount a != rowCount b || tExt c 0 != tExt b 0 ||
    (if e.imm.acc then tdRefused segFmt b || tdRefused (· == 0x00) c
    else tdRefused (fun _ => true) b || tdRefused (fun f => f == b.fmt) c)
  | _ => true

/-! ### Index lists and rows -/

/-- The indices of a list: none where the position is padded or the index is all ones (R214). -/
def readIndices (t : TileId) (env : EngEnv) (td : TDesc) (s : State) :
    Except (Status × Nat) (List (Option Nat)) × State :=
  emBind (emMap (fun (i : Nat × Nat × Nat) s =>
      emBind (readRow t unitGme env td (rowAt td i.1 i.2.1 i.2.2) (stored1 td i.1) s) (fun p s =>
        (.ok ((List.range (tExt td 0)).map (fun j =>
          let x := leAt p (j * elemBytes td.fmt) (elemBytes td.fmt)
          if !stored1 td i.1 || !stored0 td j || x == nullIndexOf td then none else some x)), s))) (allRows td) s)
    (fun ls s => (.ok ls.flatten, s))
where
  nullIndexOf (td : TDesc) : Nat := 2 ^ (8 * elemBytes td.fmt) - 1

/-- A packed row of a tensor by its number. -/
def readRowNo (t : TileId) (env : EngEnv) (td : TDesc) (r : Nat) (s : State) :
    Except (Status × Nat) (List Byte) × State :=
  let i := rowIndex td r
  readRow t unitGme env td (rowAt td i.1 i.2.1 i.2.2) (stored1 td i.1) s

/-- The cells a row of a tensor stores, by its number. -/
def outRowNo (td : TDesc) (r : Nat) (packed : List Byte) : List (Nat × Byte) :=
  let i := rowIndex td r
  (outCells td i.1 i.2.1 i.2.2 packed).map (fun e => (e.1, e.2.2))

/-- The cells a table row named by an index stores (R214, R219). -/
def outIndexRow (td : TDesc) (x : Nat) (packed : List Byte) : List (Nat × Byte) :=
  let pad := padRow td
  (writeCells td (rowOfIndex td x)).map (fun c =>
    (c.1, if stored0 td (cellPos td c.2) then packed.getD c.2 0 else pad.getD c.2 0))

/-- What the body of a GME instruction leaves to write: cells, and bytes that are undefined. -/
structure GmeOut where
  cells : List (Nat × Byte)
  undef : List Nat
  deriving DecidableEq, Repr

/-- GATHER of the rows that `xs` names (R215). -/
def gmeGatherBody (t : TileId) (env : EngEnv) (xs : List (Option Nat)) (b c : TDesc) (s : State) :
    Except (Status × Nat) GmeOut × State :=
  emBind (emMap (fun (e : Option Nat × Nat) s =>
      match e.1 with
      | none => (.ok (outRowNo c e.2 (padRow c)), s)
      | some x => emBind (readRow t unitGme env b (rowOfIndex b x) true s) (fun p s => (.ok (outRowNo c e.2 p), s)))
      xs.zipIdx s) (fun cs s =>
    (.ok ⟨cs.flatten, []⟩, s))

/-- The indices a list selects, each with its row number. -/
def selected (xs : List (Option Nat)) : List (Nat × Nat) := xs.zipIdx.filterMap (fun e => e.1.map (fun x => (x, e.2)))

/-- The entries of a SCATTER whose rows stay: of several that name one row, one that a free value picks; where D1 has stride zero,
the last (R142, R219). -/
def scatterStays (c : TDesc) (ctr : Nat) (es : List (Nat × Nat)) : List (Nat × Nat) :=
  if c.str1 = 0 then es.getLast?.toList
  else ((es.map (·.1)).dedup).filterMap (fun x =>
    let same := es.filter (fun e => e.1 == x)
    (same.drop (Config.freePick ctr x % same.length)).head?)

/-- SCATTER with ACC = 0 to the rows that `xs` names (R219). -/
def gmeScatterBody (t : TileId) (env : EngEnv) (xs : List (Option Nat)) (b c : TDesc) (s : State) :
    Except (Status × Nat) GmeOut × State :=
  let es := selected xs
  let stays := scatterStays c s.freeCtr es
  emBind (emMap (fun (e : Nat × Nat) s =>
      emBind (readRowNo t env b e.2 s) (fun p s => (.ok (if stays.contains e then outIndexRow c e.1 p else []), s)))
      es { s with freeCtr := s.freeCtr + 1 }) (fun cs s =>
    (.ok ⟨cs.flatten, []⟩, s))

/-- FP32 words of a packed row. -/
def rowWords (td : TDesc) (packed : List Byte) : List Nat := (rowValues td packed).map wrF32

/-- Every address of a list lies in tile `t`'s own scratchpad. -/
def ownSpad (s : State) (t : TileId) (vas : List Nat) : Option Nat :=
  (vas.map (· / 64 * 64)).dedup.find? (fun va =>
    match physOf s t va with
    | some g =>
      !(g / 2 ^ 44 == s.devId && (match place (g % 2 ^ 44) with
        | .spad u _ => u == t
        | _ => false))
    | none => false)

/-- What ended a run early: the status with its address, and whether its reads were done by then (R115). -/
structure RunBad where
  at_  : Status × Nat
  read : Bool
  deriving DecidableEq, Repr

/-- A step that reads, and one that writes and is the run's last where `last` says so. -/
def readStep {α : Type} (x : Except (Status × Nat) α × State) : Except RunBad α × State :=
  (match x.1 with
    | .error e => .error ⟨e, false⟩
    | .ok a => .ok a, x.2)
def writeStep {α : Type} (last : Bool) (x : Except (Status × Nat) α × State) : Except RunBad α × State :=
  (match x.1 with
    | .error e => .error ⟨e, last⟩
    | .ok a => .ok a, x.2)

/-- One row added to the row of C that its index names (R219). Where two elements of that row lie at one address, a free value picks
the one that stays (R142). -/
def gmeAccRow (t : TileId) (env : EngEnv) (b c : TDesc) (last : Bool) (x r : Nat) (s : State) :
    Except RunBad Unit × State :=
  let row := rowOfIndex c x
  let vas := (writeCells c row).map (·.1)
  match ownSpad s t vas with
  | some va => (.error ⟨(.protection, va), false⟩, xlatFault t va .protection unitGme s)
  | none =>
    emBind (readStep (readRowNo t env b r s)) (fun p s =>
    emBind (readStep (readRow t unitGme env c row true s)) (fun old s =>
      let new := (rowWords c old).zip (rowWords b p) |>.flatMap (fun w => natLe 4 (f32Add w.1 w.2))
      let k := pickWrites (·.1) (fieldKey c) (outIndexRow c x new) s
      let w := engWrite t unitGme env k.1 k.2
      writeStep last (match w.1 with
        | some e => .error e
        | none => .ok (), w.2)))

/-- SCATTER with ACC = 1: the rows in ascending order, each read, added to and written (R219). -/
def gmeAccRows (t : TileId) (env : EngEnv) (b c : TDesc) :
    List (Nat × Nat) → State → Except RunBad Unit × State
  | [], s => (.ok (), s)
  | e :: es, s => emBind (gmeAccRow t env b c es.isEmpty e.1 e.2 s) (fun _ s => gmeAccRows t env b c es s)

/-- The sum of a segment's values in one column: runs of 32 in ascending order, then the pairwise tree (R216). -/
def runSum (l : List Nat) : Nat :=
  match l with
  | [] => 0
  | x :: xs => xs.foldl f32Add x

def segSum (l : List Nat) : Nat :=
  (treeOf f32Add ((List.range (ceilDiv l.length 32)).map (fun i => runSum ((l.drop (32 * i)).take 32)))).getD 0

/-- One output row of SEGRED: the segment's sums, weighted, and added to the old row (R216 step 5). -/
def segRow (rows : List (List Nat)) (w : Nat) (weight : Option Nat) (old : Option (List Nat)) : List Nat :=
  (List.range w).map (fun j =>
    let t := segSum (rows.map (fun r => r.getD j 0))
    match old, weight with
    | none, none => t
    | none, some ws => f32Mul ws t
    | some o, none => f32Add (o.getD j 0) t
    | some o, some ws => f32Fma (o.getD j 0) ws t)

/-- A row of the segment descriptor, its first `n` elements (R216: element S of row 1 is not read). -/
def segWords (t : TileId) (env : EngEnv) (td : TDesc) (i1 n : Nat) (s : State) :
    Except (Status × Nat) (List Nat) × State :=
  let cs := if stored1 td i1 then
      (rowCells td (rowAt td i1 0 0) false).filter (fun c => decide (c.2 < 4 * n)) else []
  emBind (engRead t unitGme env (cs.map (·.1)) s) (fun bs s =>
    let p := overlay (padRow td) ((cs.map (·.2)).zip bs)
    (.ok ((List.range n).map (fun j => leAt p (4 * j) 4)), s))

/-- Segments that are split over the lanes (R217). -/
def segSplits (s : State) (t : TileId) (w : Nat) (offs : List Nat) : Nat :=
  let g := if rbit s (R.GME_CTL t.toNat) F.GME_CTL_EXPERT then max 32 (rget s (R.GME_SPLIT t.toNat) F.GME_SPLIT_ROWS)
    else 256
  if w < 32 then (offs.zip (offs.drop 1)).countP (fun p => decide (g < p.2 - p.1)) else 0

/-- SEGRED (R216); its split segments are counted in `GME_SPLITS` (R217). -/
def gmeSegredBody (t : TileId) (env : EngEnv) (acc : Bool) (a b c : TDesc) (s : State) :
    Except (Status × Nat) GmeOut × State :=
  let n := tExt a 0 - 1
  let w := tExt b 0
  emBind (segWords t env a 0 (n + 1) s) (fun offs s =>
  let s := rinc (R.GME_SPLITS t.toNat) F.GME_SPLITS_COUNT (segSplits s t w offs) s
  emBind (if tExt a 1 = 2 then emBind (segWords t env a 1 n s) (fun ws s => (.ok (some ws), s)) else (.ok none, s))
    (fun ws s =>
  emBind (emMap (fun seg s =>
      let lo := offs.getD seg 0
      let hi := offs.getD (seg + 1) 0
      if hi < lo ∨ (lo < hi ∧ rowCount b < hi) then
        (.ok (GmeOut.mk [] ((outRowNo c seg (padRow c)).map (·.1))), s)
      else
        emBind (emMap (fun j s => emBind (readRowNo t env b j s) (fun p s => (.ok (rowWords b p), s))) (span lo hi) s)
          (fun rows s =>
        emBind (if acc then emBind (readRowNo t env c seg s) (fun p s => (.ok (some (rowWords c p)), s))
            else (.ok none, s)) (fun old s =>
          (.ok ⟨outRowNo c seg (packRow c.fmt ((segRow rows w (ws.map (·.getD seg 0)) old).map rdF32)), []⟩, s))))
      (List.range n) s) (fun os s =>
    (.ok ⟨os.flatMap (·.cells), os.flatMap (·.undef)⟩, s))))

/-- The records of a MERGE list up to its end, row by row: a key of all ones ends it and is not a record (R218). -/
def mergeList (t : TileId) (env : EngEnv) (td : TDesc) :
    List Nat → State → Except (Status × Nat) (List (List Nat)) × State
  | [], s => (.ok [], s)
  | r :: rs, s =>
    emBind (readRowNo t env td r s) (fun p s =>
      let ws := (List.range (tExt td 0)).map (fun j => leAt p (4 * j) 4)
      if ws.headD 0 = 0xFFFFFFFF then (.ok [], s)
      else emBind (mergeList t env td rs s) (fun l s => (.ok (ws :: l), s)))

/-- Keys strictly ascending. -/
def ascending : List (List Nat) → Bool
  | a :: b :: l => decide (a.headD 0 < b.headD 0) && ascending (b :: l)
  | _ => true

/-- Two lists of records in ascending key order; a key in both gives the sums (R218). -/
def mergeRecords : Nat → List (List Nat) → List (List Nat) → List (List Nat)
  | 0, _, _ => []
  | _ + 1, [], l => l
  | _ + 1, l, [] => l
  | n + 1, a :: as, b :: bs =>
    let ka := a.headD 0
    let kb := b.headD 0
    if ka = kb then (ka :: ((a.drop 1).zip (b.drop 1)).map (fun p => f32Add p.1 p.2)) :: mergeRecords n as bs
    else if ka < kb then a :: mergeRecords n as (b :: bs)
    else b :: mergeRecords n (a :: as) bs

/-- MERGE (R218): lists out of order leave every record undefined. -/
def gmeMergeBody (t : TileId) (env : EngEnv) (a b c : TDesc) (s : State) : Except (Status × Nat) GmeOut × State :=
  emBind (mergeList t env a (List.range (tExt a 1)) s) (fun la s =>
  emBind (mergeList t env b (List.range (tExt b 1)) s) (fun lb s =>
    if ascending la && ascending lb then
      let out := mergeRecords (la.length + lb.length) la lb
      let fill := 0xFFFFFFFF :: List.replicate (tExt c 0 - 1) 0
      (.ok ⟨(List.range (tExt c 1)).flatMap (fun r =>
        outRowNo c r ((out.getD r fill).flatMap (natLe 4))), []⟩, s)
    else (.ok ⟨[], writeVas c⟩, s)))

/-! ### Destinations -/

/-- Every address of an instruction's destination: those of D[DC], and the rows that a SCATTER's indices name. -/
def gmeDest (e : EngCmd) (xs : List (Option Nat)) : List Nat :=
  let c := tdOf e.dc
  writeVas c ++ (if e.op = .scatter then
    (selected xs).flatMap (fun x => (writeCells c (rowOfIndex c x.1)).map (·.1)) else [])

/-- Recomputations allowed after a residue mismatch (R231). -/
def gmeRetry (s : State) (t : TileId) : Nat :=
  let o := R.GME_CTL t.toNat
  if rbit s o F.GME_CTL_EXPERT then rget s o F.GME_CTL_RETRY else 1

/-- Units the residue check covers: segments, output records, rows (R231). -/
def gmeUnits (e : EngCmd) : Nat :=
  match e.op with
  | .segred => tExt (tdOf e.da) 0 - 1
  | .merge => tExt (tdOf e.dc) 1
  | .scatter => if e.imm.acc then rowCount (tdOf e.db) else 0
  | _ => 0

/-- Residue outcomes counted (R231). -/
def gmeResidue (t : TileId) (env : EngEnv) (r : Nat × Nat × Option Nat) (s : State) : State :=
  let o := R.GME_RESIDUE t.toNat
  let s := rinc o F.GME_RESIDUE_CORR r.1 s
  if r.2.2.isSome then
    alert 2 (rinc o F.GME_RESIDUE_UNCORR 1 (rput (R.GME_ERRINFO t.toNat) (env.col % 32 + 1 <<< 5) s))
  else s

/-- A run that fails leaves its destination undefined (R26). -/
def gmeFail (t : TileId) (dest : List Nat) (x : Status × Nat) (s : State) : Option (Status × Nat) × State :=
  (some x, undefineVas t (.unit []) dest s)

/-- The bytes of an instruction's sources, for the overlap of Table 8-12: those of D[DA] and D[DB], and the rows that a GATHER's
indices name. -/
def gmeSources (e : EngCmd) (xs : List (Option Nat)) : List Nat :=
  let b := tdOf e.db
  readVas (tdOf e.da) ++ readVas b ++ (if e.op = .gather then
    (selected xs).flatMap (fun x => (rowCells b (rowOfIndex b x.1) false).map (·.1)) else [])

/-- The indices of a GATHER or SCATTER, read first. -/
def gmeIndices (t : TileId) (env : EngEnv) (e : EngCmd) (s : State) : Except (Status × Nat) (List (Option Nat)) × State :=
  match e.op with
  | .gather | .scatter => readIndices t env (tdOf e.da) s
  | _ => (.ok [], s)

/-- The other reads of an instruction, and what it is to write. -/
def gmeWork (t : TileId) (env : EngEnv) (e : EngCmd) (xs : List (Option Nat)) (s : State) :
    Except (Status × Nat) GmeOut × State :=
  let a := tdOf e.da
  let b := tdOf e.db
  let c := tdOf e.dc
  match e.op with
  | .gather => gmeGatherBody t env xs b c s
  | .segred => gmeSegredBody t env e.imm.acc a b c s
  | .merge => gmeMergeBody t env a b c s
  | _ => gmeScatterBody t env xs b c s

/-- The destination of an instruction where it lies over its sources, which is then undefined (Table 8-12). -/
def gmeOverlap (t : TileId) (e : EngCmd) (xs : List (Option Nat)) (s : State) : List Nat :=
  if vasOverlap s t (gmeDest e xs) (gmeSources e xs) then gmeDest e xs else []

/-- A GME instruction of Table 8-3 but SCATTER with ACC has read its inputs: what it is to write. -/
def gmeForm (t : TileId) (env : EngEnv) (e : EngCmd) (s : State) : Except (Status × Nat) EngHeld × State :=
  match gmeIndices t env e s with
  | (.error x, s) => (.error x, (gmeFail t (gmeDest e []) x s).2)
  | (.ok xs, s) =>
    let bad := gmeOverlap t e xs s
    match gmeWork t env e xs s with
    | (.error x, s) => (.error x, (gmeFail t (gmeDest e xs) x s).2)
    | (.ok o, s) => (.ok ⟨none, o.cells.map (fun c => (t, c)), if bad.isEmpty then o.undef else bad, gmeDest e xs⟩, s)

/-- What an instruction has formed is checked and written (R231). -/
def gmeFinish (t : TileId) (env : EngEnv) (e : EngCmd) (h : EngHeld) (s : State) : Option (Status × Nat) × State :=
  let res := residueRun env 0 (gmeUnits e) (gmeRetry s t)
  let s := gmeResidue t env res s
  if res.2.2.isSome then gmeFail t h.dest (.faultResidue, 0) s
  else
    let k := pickWrites (·.1) (fieldKey (tdOf e.dc)) (h.cells.map (·.2)) s
    match engWrite t unitGme env k.1 k.2 with
    | (some x, s) => gmeFail t h.dest x s
    | (none, s) => (none, if h.undef.isEmpty then s else undefineVas t (.unit []) h.undef s)

/-- SCATTER with ACC = 1: indices and rows are read, and each row of C is read, added to and written in turn (R219). Answers the
status that ended it, whether its reads were done, and its destination. -/
def gmeAccRun (t : TileId) (env : EngEnv) (e : EngCmd) (s : State) : Option (Status × Nat) × Bool × List Nat × State :=
  match gmeIndices t env e s with
  | (.error x, s) => (some x, false, gmeDest e [], (gmeFail t (gmeDest e []) x s).2)
  | (.ok xs, s) =>
    let dest := gmeDest e xs
    let res := residueRun env 0 (gmeUnits e) (gmeRetry s t)
    let s := gmeResidue t env res s
    if res.2.2.isSome then (some (.faultResidue, 0), false, dest, (gmeFail t dest (.faultResidue, 0) s).2)
    else
      let bad := gmeOverlap t e xs s
      match gmeAccRows t env (tdOf e.db) (tdOf e.dc) (selected xs) s with
      | (.error x, s) => (some x.at_, x.read, dest, (gmeFail t dest x.at_ s).2)
      | (.ok _, s) => (none, true, dest, if bad.isEmpty then s else undefineVas t (.unit []) bad s)

end Sys2Proof.Machine
end

