-- ==== Sys2Proof/Machine/Rank.lean ====
section
/-! DEFINITION. GME.RANK (R254 to R263): route records and keys, TOPK, BUCKET, CUT, PLACE and JOIN. -/

namespace Sys2Proof.Machine

/-! ### Records and keys (R254, R255) -/

/-- A route record. -/
structure Rec where
  token  : Nat
  expert : Nat
  choice : Nat
  valid  : Bool
  score  : Nat
  gate   : Nat
  deriving DecidableEq, Repr

/-- The 16 bytes of a record. -/
def recBytes (r : Rec) : List Byte :=
  natLe 4 r.token ++ natLe 2 r.expert ++ natLe 1 r.choice ++ natLe 1 (b2n r.valid) ++ natLe 4 r.score ++ natLe 4 r.gate

/-- A record read from 16 bytes. -/
def recOf (l : List Byte) : Rec :=
  ⟨leAt l 0 4, leAt l 4 2, leAt l 6 1, bit (leAt l 7 1) 0, leAt l 8 4, leAt l 12 4⟩

/-- ord of R255. -/
def ordScore (s : Nat) : Nat :=
  let s := match rdF32 s with
    | .nan => 0xFF800000
    | _ => s
  let s := if s = 0x80000000 then 0 else s
  if s.testBit 31 then 0xFFFFFFFF - s else s.xor 0x80000000

/-- The key of a record (R255). -/
def recKey (r : Rec) : Nat := (0xFFFFFFFF - ordScore r.score) <<< 32 + r.token

/-- mix of R244, modulo 2^64. -/
def mix (z : Nat) : Nat :=
  let m := 2 ^ 64
  let z := (z.xor (z >>> 30)) * 0xBF58476D1CE4E5B9 % m
  let z := (z.xor (z >>> 27)) * 0x94D049BB133111EB % m
  z.xor (z >>> 31)

/-- A list in ascending order of a key; equal keys keep their order. -/
def insByKey {α : Type} (key : α → Nat) (x : α) : List α → List α
  | [] => [x]
  | y :: ys => if key x < key y then x :: y :: ys else y :: insByKey key x ys

def sortByKey {α : Type} (key : α → Nat) (l : List α) : List α := l.foldl (fun a x => insByKey key x a) []

/-! ### The rank descriptor (Table 10-2) -/

def rkOp (d : DWord) : Nat := dF d 0x00 1
def rkK (d : DWord) : Nat := dF d 0x01 1
def rkSm (d : DWord) : Bool := bit (dF d 0x02 1) 0
def rkToken0 (d : DWord) : Nat := dF d 0x04 4
def rkCount (d : DWord) : Nat := dF d 0x08 4
def rkExpert0 (d : DWord) : Nat := dF d 0x0C 2
def rkNexp (d : DWord) : Nat := if dF d 0x0E 2 = 0 then 65536 else dF d 0x0E 2
def rkNdest (d : DWord) : Nat := dF d 0x10 2
def rkDir (d : DWord) : Nat := dF d 0x20 8
def rkPeer (d : DWord) : Nat := dF d 0x28 8
def rkAux (d : DWord) : Nat := dF d 0x30 8
def rkAux2 (d : DWord) : Nat := dF d 0x38 8

/-- The refusals of R263. JOIN finds its replies through NDEST and PEER_VA as PLACE does; only a BUCKET's headers use LAYER, STEP
and ROUTE_EPOCH, and every operation but TOPK reads the image at DIR_VA (DEDUCED, log entry 14). -/
def rankRefused (e : EngCmd) : Bool :=
  let d := e.da
  let op := rkOp d
  let b := tdOf e.db
  let c := tdOf e.dc
  let topk := op == 0
  let bucket := op == 1
  let cut := op == 2
  let place_ := op == 3
  let join_ := op == 4
  decide (4 < op) || e.imm.acc || dF d 0x03 1 != 0 || dF d 0x16 2 != 0 || decide (1 < dF d 0x02 1) ||
  (!topk && rkSm d) ||
  (if topk || join_ then rkK d == 0 || decide (8 < rkK d) else rkK d != 0) ||
  (!(topk || place_ || join_) && rkToken0 d != 0) ||
  (if cut then rkCount d == 0 else !join_ && rkCount d != 0) ||
  decide (65536 < rkExpert0 d + rkNexp d) ||
  (if bucket || place_ || cut || join_ then rkNdest d == 0 || decide (4096 < rkNdest d) else rkNdest d != 0) ||
  (!bucket && (dF d 0x12 4 != 0 || dF d 0x18 8 != 0)) ||
  (topk && (rkDir d != 0 || rkPeer d != 0 || rkAux d != 0 || rkAux2 d != 0)) ||
  (if topk then tdRefused (· == 0x00) b || tExt b 0 != rkNexp d else tdRefused (· == 0x1A) b || tExt b 0 != 4) ||
  (cut && (tExt b 2 != rkNdest d || tExt b 3 != 1)) || tdRefused (· == 0x1A) c ||
  (topk && (tExt c 0 != 4 * rkK d || rowCount c != rowCount b)) || (bucket && tExt c 0 != 4) ||
  (join_ && tExt c 0 != 2)

/-! ### The directory image and the exchange -/

/-- An image entry: HOME and replicas as a list of device IDs, and whether it is VALID (R275, R277). -/
structure ImgEntry where
  devs  : List Nat
  valid : Bool
  deriving DecidableEq, Repr

/-- An expert's image entry read. -/
def readImage (t : TileId) (env : EngEnv) (d : DWord) (e : Nat) (s : State) : Except (Status × Nat) ImgEntry × State :=
  emBind (engRead t unitGme env ((List.range 16).map (rkDir d + 16 * e + ·)) s) (fun bs s =>
    let n := min 4 (leAt bs 2 1)
    (.ok ⟨leAt bs 0 2 % 2 ^ 15 :: (List.range n).map (fun i => leAt bs (8 + 2 * i) 2 % 2 ^ 15), bit (leAt bs 3 1) 0⟩, s))

/-- The destination index of a device (R256). -/
def readPeer (t : TileId) (env : EngEnv) (d : DWord) (dev : Nat) (s : State) : Except (Status × Nat) Nat × State :=
  engWord t unitGme env 2 (rkPeer d + 2 * dev) s

/-- The layer as the operation sees it: for each expert its entry and the destination of each of its devices. -/
def readLayer (t : TileId) (env : EngEnv) (d : DWord) (peers : Bool) (s : State) :
    Except (Status × Nat) (List (Nat × ImgEntry × List Nat)) × State :=
  emMap (fun i s =>
    let e := rkExpert0 d + i
    emBind (readImage t env d e s) (fun en s =>
      if peers && en.valid then
        emBind (emMap (readPeer t env d) en.devs s) (fun ps s => (.ok (e, en, ps), s))
      else (.ok (e, en, []), s))) (List.range (rkNexp d)) s

/-- Hosted experts of a destination, in ascending ID (R257). -/
def hostedBy (layer : List (Nat × ImgEntry × List Nat)) (dst : Nat) : List Nat :=
  (layer.filter (fun x => x.2.1.valid && x.2.2.contains dst)).map (·.1)

/-- Hosted experts of a device. -/
def hostedDev (layer : List (Nat × ImgEntry × List Nat)) (dev : Nat) : List Nat :=
  (layer.filter (fun x => x.2.1.valid && x.2.1.devs.contains dev)).map (·.1)

/-- A token index that several tokens of a batch carry: what becomes of the experts its records reach is undefined (Table 10-16). -/
def twiceToken (recs : List Rec) (r : Rec) : Bool :=
  decide (1 < recs.countP (fun x => decide (x.token = r.token ∧ (x.choice = r.choice ∨ x.expert = r.expert))))

/-- The experts whose records' instance is not settled: one that a record of a twice-used token reaches, or whose entry names one
device twice (R276, Table 10-16). -/
def openExpert (layer : List (Nat × ImgEntry × List Nat)) (recs : List Rec) (e : Nat) : Bool :=
  recs.any (fun r => r.expert == e && twiceToken recs r) ||
    layer.any (fun x => x.1 == e && decide (x.2.1.devs.dedup.length < x.2.1.devs.length))

/-- The destination of a record for a number that picks the instance (R259): none where the instruction ends with PROTECTION. -/
def recDest (d : DWord) (layer : List (Nat × ImgEntry × List Nat)) (r : Rec) (n : Nat) : Option Nat :=
  match layer.find? (fun x => x.1 == r.expert) with
  | some x =>
    if x.2.1.valid then
      let p := x.2.2.getD (n % x.2.1.devs.length) 0xFFFF
      if p = 0xFFFF ∨ rkNdest d ≤ p then none else some p
    else none
  | none => none

/-- The records with their destinations: the instance is that of mix(TOKEN), or a free value's where it is not settled (R259). -/
def recDests (d : DWord) (layer : List (Nat × ImgEntry × List Nat)) (recs : List Rec) (s : State) :
    List (Rec × Option Nat) × State :=
  (recs.zipIdx.map (fun r =>
    (r.1, recDest d layer r.1 (if openExpert layer recs r.1.expert then (Config.freeWord (s.freeCtr + r.2)).toNat else mix r.1.token))),
    { s with freeCtr := s.freeCtr + recs.length })

/-- Records of rows of a tensor. -/
def readRecs (t : TileId) (env : EngEnv) (b : TDesc) (rows : List (Nat × Nat × Nat)) (s : State) :
    Except (Status × Nat) (List Rec) × State :=
  emMap (fun (i : Nat × Nat × Nat) s =>
    emBind (readRow t unitGme env b (rowAt b i.1 i.2.1 i.2.2) (stored1 b i.1) s) (fun p s => (.ok (recOf p), s))) rows s

/-- Consecutive bytes at a virtual address. -/
def areaCells (va : Nat) (l : List Byte) : List (Nat × Byte) := l.zipIdx.map (fun e => (va + e.2, e.1))

/-- The rows of a tensor written in order with packed rows, as many as there are; of rows that differ only where a stride is zero
the last stays (R141, R142). -/
def outRows (c : TDesc) (rows : List (List Byte)) : List (Nat × Byte) :=
  (keepLast ((rows.zipIdx.filter (fun r => decide (r.2 < rowCount c))).filterMap (fun r =>
    let i := rowIndex c r.2
    if rowPos c i.1 then some (rowKey c i, (rowOut c i.1 i.2.1 i.2.2 r.1).map (fun e => (e.1, e.2.2))) else none))).flatMap (·.2)

/-- Consecutive U32 elements of a tensor, in iteration order, as many as there are: at a padded position PADV under pad-fill and
nothing under pad-skip (R145); of elements that differ only where a stride is zero the last stays (R141, R142). -/
def outElems (c : TDesc) (l : List Nat) : List (Nat × Byte) :=
  (keepLast ((l.zipIdx.filter (fun e => decide (e.2 < elemCount c))).filterMap (fun e =>
    let j := e.2 % tExt c 0
    let i := rowIndex c (e.2 / tExt c 0)
    let v := if stored0 c j && stored1 c i.1 then e.1 else padElem c.fmt (tPadv c)
    if tPadFill c || (stored0 c j && stored1 c i.1) then
      some ((if c.str0 = 0 then 0 else j, rowKey c i),
        areaCells (vaOf (elemAddr c (rowAt c i.1 i.2.1 i.2.2) ((j : Int) - c.p0lo))) (natLe 4 v))
    else none))).flatMap (·.2)

/-! ### Operations (R258 to R262) -/

/-- The K choices of a score row, from its FP32 words as read (R258). -/
def topkRow (d : DWord) (t : Nat) (scores : List Nat) : List Rec :=
  let best := sortByKey (fun (p : Nat × Nat) => 0xFFFFFFFF - ordScore p.1) scores.zipIdx
  let top := best.take (rkK d)
  let s0 := (top.headD (0, 0)).1
  let es := top.map (fun p => f32Exp2 (f32Mul 0x3FB8AA3B (f32Sub p.1 s0)))
  let sum := runSum es
  (List.range (rkK d)).map (fun c =>
    match top[c]? with
    | some p => ⟨(rkToken0 d + t) % 2 ^ 32, rkExpert0 d + p.2, c, true, p.1,
        if rkSm d then f32Div (es.getD c 0) sum else p.1⟩
    | none => ⟨0, 0, 0, false, 0, 0⟩)

def rankTopk (t : TileId) (env : EngEnv) (d : DWord) (b c : TDesc) (s : State) : Except (Status × Nat) GmeOut × State :=
  emBind (emMap (fun r s => emBind (readRowNo t env b r s) (fun p s =>
      (.ok ((topkRow d r ((List.range (tExt b 0)).map (fun j => leAt p (4 * j) 4))).flatMap recBytes), s)))
      (List.range (rowCount b)) s) (fun rows s =>
    (.ok ⟨outRows c rows, []⟩, s))

/-- The key header of a destination (R260). -/
def keyHeader (d : DWord) (recs : List Rec) (hosted : List Nat) : List Byte :=
  natLe 4 (dF d 0x18 4) ++ natLe 4 (dF d 0x1C 4) ++ natLe 2 (dF d 0x12 2) ++ natLe 2 (dF d 0x14 2) ++
    natLe 4 recs.length ++ natLe 1 (if hosted.length ≤ 11 then hosted.length else 0) ++ natLe 3 0 ++
    (List.range 11).flatMap (fun i => natLe 4 (if hosted.length ≤ 11 then
      (hosted[i]?).elim 0 (fun h => recs.countP (fun r => r.expert == h)) else 0))

/-- The prefix sums of a list, from 0. -/
def prefixSums (l : List Nat) : List Nat := l.foldl (fun a n => a ++ [a.getLastD 0 + n]) [0]

def rankBucket (t : TileId) (env : EngEnv) (d : DWord) (b c : TDesc) (s : State) :
    Except (Status × Nat) GmeOut × State :=
  emBind (readLayer t env d true s) (fun layer s =>
  emBind (readRecs t env b (allRows b) s) (fun recs s =>
    let ds := recDests d layer (recs.filter (·.valid)) s
    if ds.1.any (fun r => r.2.isNone) then (.error (.protection, 0), ds.2)
    else
      let s := ds.2
      let srt := sortByKey (fun r => (r.2.getD 0) <<< 80 + r.1.expert <<< 64 + recKey r.1) ds.1
      let per := (List.range (rkNdest d)).map (fun x => (srt.filter (fun r => r.2 == some x)).map (·.1))
      (.ok ⟨outRows c (srt.map (fun r => recBytes r.1)) ++
        areaCells (rkAux d) (per.zipIdx.flatMap (fun p => keyHeader d p.1 (hostedBy layer p.2))) ++
        areaCells (rkAux2 d) ((prefixSums (per.map (·.length))).flatMap (natLe 4)), []⟩, s)))

/-- The result for one hosted expert: records kept, records dropped, and for each source the kept count (R261); `bad` where it is
undefined (Table 10-16). -/
structure CutOut where
  kept   : Nat
  drop   : Nat
  thresh : Nat
  per    : List Nat
  bad    : Bool
  deriving DecidableEq, Repr

/-- Keys in ascending order. -/
def ascKeys : List Nat → Bool
  | a :: b :: l => decide (a ≤ b) && ascKeys (b :: l)
  | _ => true

/-- The ranking of one hosted expert over its sources' records. `counts` holds what each header says of it, none in the wide form.
A header or a run that is not as BUCKET wrote it, and two records with one TOKEN, leave the expert's results undefined (Table
10-16). -/
def cutExpert (cap : Nat) (h : Nat) (srcs : List (List Rec)) (counts : List (Option Nat)) : CutOut :=
  let mine := srcs.map (fun l => (l.filter (fun r => r.expert == h)).map recKey)
  let toks := srcs.flatMap (fun l => (l.filter (fun r => r.expert == h)).map (·.token))
  let all := sortByKey id mine.flatten
  let th := if cap < all.length then all.getD (cap - 1) 0 else 2 ^ 64 - 1
  let per := mine.map (fun l => l.countP (fun k => decide (k ≤ th)))
  let kept := per.sum
  ⟨kept, all.length - kept, th, per, (mine.zip counts).any (fun p => p.2.elim false (· != p.1.length)) ||
    mine.any (fun l => !ascKeys l) || srcs.any (fun l => l.any (fun r => r.expert == h && !r.valid)) ||
    decide (toks.dedup.length < toks.length)⟩

/-- The experts that this module hosts, in ascending ID (R257, R261). -/
def cutHosted (t : TileId) (env : EngEnv) (d : DWord) (s : State) : Except (Status × Nat) (List Nat) × State :=
  emBind (readPeer t env d 0 s) (fun own s =>
  emBind (readLayer t env d false s) (fun layer s => (.ok (hostedDev layer (own % 2 ^ 15)), s)))

/-- The records that a run of CUT drops: of an expert whose result is undefined, a free number of its records (Table 10-16). -/
def cutDrops (outs : List CutOut) (ctr : Nat) : Nat :=
  (outs.zipIdx.map (fun o => if o.1.bad then (Config.freeWord (ctr + o.2)).toNat % (o.1.kept + o.1.drop + 1) else o.1.drop)).sum

/-- CUT for the experts hosted here (R261); `EXD_DROP` rises by what it drops. -/
def rankCut (t : TileId) (env : EngEnv) (d : DWord) (b c : TDesc) (hosted : List Nat) (s : State) :
    Except (Status × Nat) GmeOut × State :=
  let p := rkNdest d
  emBind (emMap (fun i s => engRead t unitGme env ((List.range 64).map (rkAux2 d + 64 * i + ·)) s) (List.range p) s)
    (fun hdrs s =>
  emBind (emMap (fun i s =>
      readRecs t env b ((List.range (min (leAt (hdrs.getD i []) 0x0C 4) (tExt b 1))).map (fun r => (r, i, 0))) s)
      (List.range p) s) (fun srcs s =>
    let outs := hosted.zipIdx.map (fun h => cutExpert (rkCount d) h.1 srcs
      (hdrs.map (fun x => if leAt x 0x10 1 = 0 then none else some (leAt x (0x14 + 4 * h.2) 4))))
    let reply (h : Nat) (o : CutOut) : List (Nat × Byte) :=
      (o.per.zip (prefixSums o.per)).zipIdx.flatMap (fun q =>
        areaCells (rkAux d + 16 * (h * p + q.2)) (natLe 8 o.thresh ++ natLe 4 q.1.1 ++ natLe 4 q.1.2))
    let ms := outElems c (outs.map (·.kept))
    let one (h : Nat) : List Nat := (outElems c ((List.range (h + 1)).map (fun _ => 0))).map (·.1)
    let bad := outs.zipIdx.filter (·.1.bad)
    (.ok ⟨ms ++ outs.zipIdx.flatMap (fun o => reply o.2 o.1),
      bad.flatMap (fun o => (reply o.2 o.1).map (·.1) ++ (one o.2).drop ((one o.2).length - 4))⟩,
      rinc R.EXD_DROP F.EXD_DROP_COUNT (cutDrops outs s.freeCtr) { s with freeCtr := s.freeCtr + outs.length })))

/-- A record of a BUCKET output that PLACE and JOIN meet: its destination, the THRESH and the KEPT of its reply summed as they
stand, and whether they can be told at all. -/
structure Placed where
  entry  : Rec
  dst    : Nat
  thresh : Nat
  claim  : Nat
  known  : Bool
  deriving DecidableEq, Repr

/-- The kept records of a BUCKET output, each with its destination, in order (R262). Of an expert whose records or replies are not
as BUCKET and CUT wrote them, a free value says of each record whether it is kept, and where it goes if that cannot be told (Table
10-16). -/
def keptRecs (t : TileId) (env : EngEnv) (d : DWord) (b : TDesc) (s : State) :
    Except (Status × Nat) (List (Rec × Nat)) × State :=
  emBind (readLayer t env d true s) (fun layer s =>
  emBind (readRecs t env b (allRows b) s) (fun recs s =>
    let hosted := (List.range (rkNdest d)).map (hostedBy layer)
    let base := prefixSums (hosted.map (·.length))
    let recs := recs.filter (·.valid)
    let ds := recDests d layer recs s
    emBind (emMap (fun (r : Rec × Option Nat) s =>
        match r.2 with
        | none =>
          let f := freeWord s
          (.ok (Placed.mk r.1 (f.1.toNat % rkNdest d) 0 0 false), f.2)
        | some x =>
          let i := base.getD x 0 + (hosted.getD x []).findIdx (· == r.1.expert)
          emBind (engWord t unitGme env 16 (rkAux d + 16 * i) s) (fun w s =>
            (.ok (Placed.mk r.1 x (w % 2 ^ 64) (w / 2 ^ 64 % 2 ^ 32) (!openExpert layer recs r.1.expert)), s))) ds.1 ds.2)
      (fun ps s =>
    let kept (p : Placed) : Bool := decide (recKey p.entry ≤ p.thresh)
    let sure (p : Placed) : Bool :=
      let same := ps.filter (fun q => q.dst == p.dst && q.entry.expert == p.entry.expert)
      same.all (·.known) && same.countP kept == p.claim
    (.ok ((ps.zipIdx.filter (fun p => if sure p.1 then kept p.1 else (Config.freeWord (s.freeCtr + p.2)).getLsbD 0)).map
      (fun p => (p.1.entry, p.1.dst))), { s with freeCtr := s.freeCtr + ps.length }))))

def rankPlace (t : TileId) (env : EngEnv) (d : DWord) (b c : TDesc) (s : State) : Except (Status × Nat) GmeOut × State :=
  emBind (keptRecs t env d b s) (fun ks s =>
    let aux (l : List Nat) := areaCells (rkAux2 d) (l.flatMap (natLe 4))
    (.ok ⟨outElems c (ks.map (fun k => (k.1.token + 2 ^ 32 - rkToken0 d) % 2 ^ 32)) ++
      aux (prefixSums ((List.range (rkNdest d)).map (fun x => ks.countP (fun k => k.2 == x)))), []⟩, s))

def rankJoin (t : TileId) (env : EngEnv) (d : DWord) (b c : TDesc) (s : State) : Except (Status × Nat) GmeOut × State :=
  emBind (keptRecs t env d b s) (fun ks s =>
    let aux (l : List Nat) := areaCells (rkAux2 d) (l.flatMap (natLe 4))
    let order (e : (Rec × Nat) × Nat) : Nat := if (s.tile t).fixed then e.1.1.expert else e.1.1.choice
    let per := (List.range (rkCount d)).map (fun i =>
      sortByKey order (ks.zipIdx.filter (fun e => e.1.1.token == (rkToken0 d + i) % 2 ^ 32)))
    let twice (l : List ((Rec × Nat) × Nat)) : Bool := l.any (fun e => twiceToken (l.map (·.1.1)) e.1.1)
    let row (e : (Rec × Nat) × Nat) : List Byte := natLe 4 e.2 ++ natLe 4 e.1.1.gate
    let part (n : Nat) : List (Nat × Byte) := outRows c (((per.take n).flatten).map row)
    (.ok ⟨outRows c (per.flatten.map row) ++ aux (prefixSums (per.map (·.length))),
      (per.zipIdx.filter (fun l => twice l.1)).flatMap (fun l =>
        let before := (part l.2).map (·.1)
        ((part (l.2 + 1)).map (·.1)).filter (fun va => !before.contains va))⟩, s))

/-- The areas an operation may write (Table 10-3); `hosted`: how many experts CUT serves. -/
def rankDest (e : EngCmd) (hosted : Nat) : List Nat :=
  let d := e.da
  let area (va n : Nat) : List Nat := (List.range n).map (va + ·)
  writeVas (tdOf e.dc) ++ (match rkOp d with
    | 1 => area (rkAux d) (64 * rkNdest d) ++ area (rkAux2 d) (4 * (rkNdest d + 1))
    | 2 => area (rkAux d) (16 * hosted * rkNdest d)
    | 3 => area (rkAux2 d) (4 * (rkNdest d + 1))
    | 4 => area (rkAux2 d) (4 * (rkCount d + 1))
    | _ => [])

/-- What an operation has read and is to write, or its failure, which leaves its areas undefined (R26). -/
def rankEnd (t : TileId) (dest : List Nat) (r : Except (Status × Nat) GmeOut × State) : Except (Status × Nat) EngHeld × State :=
  match r with
  | (.error x, s) => (.error x, undefineVas t (.unit []) dest s)
  | (.ok o, s) => (.ok ⟨none, o.cells.map (fun c => (t, c)), o.undef, dest⟩, s)

/-- GME.RANK on accepted operands has read its inputs: what it is to write. CUT finds its hosted experts first; the areas of its
replies are as many. -/
def rankForm (t : TileId) (env : EngEnv) (e : EngCmd) (s : State) : Except (Status × Nat) EngHeld × State :=
  let d := e.da
  let b := tdOf e.db
  let c := tdOf e.dc
  match rkOp d with
  | 0 => rankEnd t (rankDest e 0) (rankTopk t env d b c s)
  | 1 => rankEnd t (rankDest e 0) (rankBucket t env d b c s)
  | 2 =>
    match cutHosted t env d s with
    | (.error x, s) => rankEnd t (rankDest e 0) (.error x, s)
    | (.ok hosted, s) => rankEnd t (rankDest e hosted.length) (rankCut t env d b c hosted s)
  | 3 => rankEnd t (rankDest e 0) (rankPlace t env d b c s)
  | _ => rankEnd t (rankDest e 0) (rankJoin t env d b c s)

end Sys2Proof.Machine
end

