-- ==== Sys2Proof/Machine/Scalar.lean ====
section
/-! DEFINITION. The scalar instructions (Table 4-5), constants and descriptor registers (Table 4-9), and the synchronising
instructions (Table 4-11). -/

namespace Sys2Proof.Machine

/-! ### ALU (Table 4-5, R106, R107) -/

/-- S[RD] ← a value; retire. -/
def xSetS (t : TileId) (rd : SReg) (v : Word) (s : State) : XOut := .retire (wrS t rd v s)

/-- A register-register operation. -/
def xAlu (t : TileId) (rd rs1 rs2 : SReg) (f : Word → Word → Word) (s : State) : Host.Outcome State Fault Refusal :=
  xRun t (fun s => xSetS t rd (f (rdS s t rs1) (rdS s t rs2)) s) s

/-- A register-immediate operation on sext(IMM12). -/
def xAluI (t : TileId) (rd rs1 : SReg) (imm : BitVec 12) (f : Word → Word → Word) (s : State) :
    Host.Outcome State Fault Refusal :=
  xRun t (fun s => xSetS t rd (f (rdS s t rs1) (sext64 imm)) s) s

/-- A shift by IMM12[5:0]. -/
def xShI (t : TileId) (rd rs1 : SReg) (sh : BitVec 6) (f : Word → Nat → Word) (s : State) :
    Host.Outcome State Fault Refusal :=
  xRun t (fun s => xSetS t rd (f (rdS s t rs1) sh.toNat) s) s

/-- A comparison's 1 or 0. -/
def boolWord (b : Bool) : Word := if b then 1 else 0

/-- The low 6 bits of a shift count (R107). -/
def shAmt (b : Word) : Nat := b.toNat % 64

def aluMulhu (a b : Word) : Word := BitVec.ofNat 64 (a.toNat * b.toNat / 2 ^ 64)
def aluMin (a b : Word) : Word := if a.slt b then a else b
def aluMax (a b : Word) : Word := if a.slt b then b else a
def aluMinu (a b : Word) : Word := if a.ult b then a else b
def aluMaxu (a b : Word) : Word := if a.ult b then b else a

def execXAdd (t : TileId) (rd rs1 rs2 : SReg) (s : State) := xAlu t rd rs1 rs2 (· + ·) s
def execXSub (t : TileId) (rd rs1 rs2 : SReg) (s : State) := xAlu t rd rs1 rs2 (· - ·) s
def execXAnd (t : TileId) (rd rs1 rs2 : SReg) (s : State) := xAlu t rd rs1 rs2 (· &&& ·) s
def execXOr (t : TileId) (rd rs1 rs2 : SReg) (s : State) := xAlu t rd rs1 rs2 (· ||| ·) s
def execXXor (t : TileId) (rd rs1 rs2 : SReg) (s : State) := xAlu t rd rs1 rs2 (· ^^^ ·) s
def execXSll (t : TileId) (rd rs1 rs2 : SReg) (s : State) := xAlu t rd rs1 rs2 (fun a b => a <<< shAmt b) s
def execXSrl (t : TileId) (rd rs1 rs2 : SReg) (s : State) := xAlu t rd rs1 rs2 (fun a b => a >>> shAmt b) s
def execXSra (t : TileId) (rd rs1 rs2 : SReg) (s : State) := xAlu t rd rs1 rs2 (fun a b => a.sshiftRight (shAmt b)) s
def execXMul (t : TileId) (rd rs1 rs2 : SReg) (s : State) := xAlu t rd rs1 rs2 (· * ·) s
def execXMulhu (t : TileId) (rd rs1 rs2 : SReg) (s : State) := xAlu t rd rs1 rs2 aluMulhu s
def execXSlt (t : TileId) (rd rs1 rs2 : SReg) (s : State) := xAlu t rd rs1 rs2 (fun a b => boolWord (a.slt b)) s
def execXSltu (t : TileId) (rd rs1 rs2 : SReg) (s : State) := xAlu t rd rs1 rs2 (fun a b => boolWord (a.ult b)) s
def execXMin (t : TileId) (rd rs1 rs2 : SReg) (s : State) := xAlu t rd rs1 rs2 aluMin s
def execXMax (t : TileId) (rd rs1 rs2 : SReg) (s : State) := xAlu t rd rs1 rs2 aluMax s
def execXMinu (t : TileId) (rd rs1 rs2 : SReg) (s : State) := xAlu t rd rs1 rs2 aluMinu s
def execXMaxu (t : TileId) (rd rs1 rs2 : SReg) (s : State) := xAlu t rd rs1 rs2 aluMaxu s

def execXAddi (t : TileId) (rd rs1 : SReg) (imm : BitVec 12) (s : State) := xAluI t rd rs1 imm (· + ·) s
def execXAndi (t : TileId) (rd rs1 : SReg) (imm : BitVec 12) (s : State) := xAluI t rd rs1 imm (· &&& ·) s
def execXOri (t : TileId) (rd rs1 : SReg) (imm : BitVec 12) (s : State) := xAluI t rd rs1 imm (· ||| ·) s
def execXXori (t : TileId) (rd rs1 : SReg) (imm : BitVec 12) (s : State) := xAluI t rd rs1 imm (· ^^^ ·) s
def execXSlti (t : TileId) (rd rs1 : SReg) (imm : BitVec 12) (s : State) :=
  xAluI t rd rs1 imm (fun a b => boolWord (a.slt b)) s
def execXSltiu (t : TileId) (rd rs1 : SReg) (imm : BitVec 12) (s : State) :=
  xAluI t rd rs1 imm (fun a b => boolWord (a.ult b)) s
def execXSlli (t : TileId) (rd rs1 : SReg) (sh : BitVec 6) (s : State) := xShI t rd rs1 sh (· <<< ·) s
def execXSrli (t : TileId) (rd rs1 : SReg) (sh : BitVec 6) (s : State) := xShI t rd rs1 sh (· >>> ·) s
def execXSrai (t : TileId) (rd rs1 : SReg) (sh : BitVec 6) (s : State) := xShI t rd rs1 sh (fun a n => a.sshiftRight n) s

/-! ### Loads, stores, atomics -/

/-- Effective address S[RS1] + sext(IMM12), aligned down to the access size (R107). -/
def xAddr (s : State) (t : TileId) (rs1 : SReg) (imm : BitVec 12) (size : Nat) : Nat :=
  (rdS s t rs1 + sext64 imm).toNat / size * size

/-- A scalar load of `size` bytes. -/
def xLoadI (t : TileId) (rd rs1 : SReg) (imm : BitVec 12) (size : Nat) (signed : Bool) (s : State) :
    Host.Outcome State Fault Refusal :=
  xRun t (fun s => xLoad t (xAddr s t rs1 imm size) (List.range size) (.scalar rd size signed) s) s

def execXLb (t : TileId) (rd rs1 : SReg) (imm : BitVec 12) (s : State) := xLoadI t rd rs1 imm 1 true s
def execXLh (t : TileId) (rd rs1 : SReg) (imm : BitVec 12) (s : State) := xLoadI t rd rs1 imm 2 true s
def execXLw (t : TileId) (rd rs1 : SReg) (imm : BitVec 12) (s : State) := xLoadI t rd rs1 imm 4 true s
def execXLd (t : TileId) (rd rs1 : SReg) (imm : BitVec 12) (s : State) := xLoadI t rd rs1 imm 8 true s
def execXLbu (t : TileId) (rd rs1 : SReg) (imm : BitVec 12) (s : State) := xLoadI t rd rs1 imm 1 false s
def execXLhu (t : TileId) (rd rs1 : SReg) (imm : BitVec 12) (s : State) := xLoadI t rd rs1 imm 2 false s
def execXLwu (t : TileId) (rd rs1 : SReg) (imm : BitVec 12) (s : State) := xLoadI t rd rs1 imm 4 false s

/-- The bytes of a number at consecutive virtual addresses. -/
def cellsAt (va n v : Nat) : List (Nat × Byte) := (natLe n v).zipIdx.map (fun p => (va + p.2, p.1))

/-- A scalar store of the low `size` bytes of S[RS2]. -/
def xStoreI (t : TileId) (rs1 rs2 : SReg) (imm : BitVec 12) (size : Nat) (s : State) : Host.Outcome State Fault Refusal :=
  xRun t (fun s => xStore t (cellsAt (xAddr s t rs1 imm size) size (rdS s t rs2).toNat) s) s

def execXSb (t : TileId) (rs1 rs2 : SReg) (imm : BitVec 12) (s : State) := xStoreI t rs1 rs2 imm 1 s
def execXSh (t : TileId) (rs1 rs2 : SReg) (imm : BitVec 12) (s : State) := xStoreI t rs1 rs2 imm 2 s
def execXSw (t : TileId) (rs1 rs2 : SReg) (imm : BitVec 12) (s : State) := xStoreI t rs1 rs2 imm 4 s
def execXSd (t : TileId) (rs1 rs2 : SReg) (imm : BitVec 12) (s : State) := xStoreI t rs1 rs2 imm 8 s

/-- An atomic add of S[RS2] at S[RS1] (R109). -/
def xAtom (t : TileId) (rd : Option SReg) (rs1 rs2 : SReg) (wide : Bool) (s : State) : Host.Outcome State Fault Refusal :=
  xRun t (fun s => xAtomic t (rdS s t rs1).toNat wide (rdS s t rs2) rd s) s

def execXAaddW (t : TileId) (rs1 rs2 : SReg) (s : State) := xAtom t none rs1 rs2 false s
def execXAaddD (t : TileId) (rs1 rs2 : SReg) (s : State) := xAtom t none rs1 rs2 true s
def execXAaddrW (t : TileId) (rd rs1 rs2 : SReg) (s : State) := xAtom t (some rd) rs1 rs2 false s
def execXAaddrD (t : TileId) (rd rs1 rs2 : SReg) (s : State) := xAtom t (some rd) rs1 rs2 true s

/-! ### Branches (Table 4-5) -/

/-- The branch target PC + 4 × offset. -/
def brTarget (pc : Nat) {n : Nat} (off : BitVec n) : Nat := ofInt 48 ((pc : Int) + 4 * off.toInt)

/-- A branch. -/
def xBranch (t : TileId) (rs1 rs2 : SReg) (off : BitVec 13) (f : Word → Word → Bool) (s : State) :
    Host.Outcome State Fault Refusal :=
  xRun t (fun s => if f (rdS s t rs1) (rdS s t rs2) then .jump (brTarget (xPc s t) off) s else .retire s) s

def execXBeq (t : TileId) (rs1 rs2 : SReg) (off : BitVec 13) (s : State) := xBranch t rs1 rs2 off (fun a b => a == b) s
def execXBne (t : TileId) (rs1 rs2 : SReg) (off : BitVec 13) (s : State) := xBranch t rs1 rs2 off (fun a b => a != b) s
def execXBlt (t : TileId) (rs1 rs2 : SReg) (off : BitVec 13) (s : State) := xBranch t rs1 rs2 off (fun a b => a.slt b) s
def execXBge (t : TileId) (rs1 rs2 : SReg) (off : BitVec 13) (s : State) := xBranch t rs1 rs2 off (fun a b => !a.slt b) s
def execXBltu (t : TileId) (rs1 rs2 : SReg) (off : BitVec 13) (s : State) := xBranch t rs1 rs2 off (fun a b => a.ult b) s
def execXBgeu (t : TileId) (rs1 rs2 : SReg) (off : BitVec 13) (s : State) := xBranch t rs1 rs2 off (fun a b => !a.ult b) s

/-- BPANY: branch when any lane of P[RS1] is set. -/
def execXBpany (t : TileId) (p : PReg) (off : BitVec 13) (s : State) : Host.Outcome State Fault Refusal :=
  xRun t (fun s => if rdP s t p ≠ 0 then .jump (brTarget (xPc s t) off) s else .retire s) s

/-- BPNONE: branch when no lane of P[RS1] is set. -/
def execXBpnone (t : TileId) (p : PReg) (off : BitVec 13) (s : State) : Host.Outcome State Fault Refusal :=
  xRun t (fun s => if rdP s t p = 0 then .jump (brTarget (xPc s t) off) s else .retire s) s

/-- JAL: S[RD] ← PC + 4; PC ← PC + 4 × sext(OFF21). -/
def execXJal (t : TileId) (rd : SReg) (off : BitVec 21) (s : State) : Host.Outcome State Fault Refusal :=
  xRun t (fun s => .jump (brTarget (xPc s t) off) (wrS t rd (BitVec.ofNat 64 (xPc s t + 4)) s)) s

/-- JALR: S[RD] ← PC + 4; PC ← (S[RS1] + sext(IMM12)) with bits [1:0] cleared; the base is read before S[RD] is written. -/
def execXJalr (t : TileId) (rd rs1 : SReg) (imm : BitVec 12) (s : State) : Host.Outcome State Fault Refusal :=
  xRun t (fun s => .jump (rdS s t rs1 + sext64 imm).toNat (wrS t rd (BitVec.ofNat 64 (xPc s t + 4)) s)) s

/-! ### CSR (R108) -/

/-- A CSR access is legal: an offset of the tile's block, aligned to its size. -/
def csrOk (o n : Nat) : Bool := decide (o ≤ 0xFFFF ∧ o % n = 0)

/-- A CSR read of `n` bytes. -/
def xCsrR (t : TileId) (rd rs1 : SReg) (imm : BitVec 12) (n : Nat) (s : State) : Host.Outcome State Fault Refusal :=
  xRun t (fun s =>
    let o := (rdS s t rs1 + sext64 imm).toNat
    if csrOk o n then
      let r := tileCsrRead t o n s
      .retire (wrS t rd (BitVec.ofNat 64 r.1) r.2)
    else .fault .protection 0 s) s

/-- The semaphores that a CSR write sets while a link of their pair carries buffers hold free values (Table 4-18). -/
def spoilSems (t : TileId) (o n : Nat) (busy : PairIdx → Bool) (s : State) : State :=
  ((List.range 64).filter (fun k => decide (o ≤ 0x100 + 4 * k ∧ 0x100 + 4 * k + 4 ≤ o + n) && busy (BitVec.ofNat 5 (k / 2)))).foldl
    (fun s k => semSet t (BitVec.ofNat 6 k) ((freeWord s).1.toNat % 2 ^ 16) (freeWord s).2) s

/-- A CSR write of `n` bytes from the register named in RD. A write of `PRED_GO` stalls while 8 GME instructions are held
(R235). -/
def xCsrW (t : TileId) (rd rs1 : SReg) (imm : BitVec 12) (n : Nat) (s : State) : Host.Outcome State Fault Refusal :=
  xRun t (fun s =>
    let o := (rdS s t rs1 + sext64 imm).toNat
    if csrOk o n && decide (o ≤ 0x8010 ∧ 0x8010 < o + n ∧ 8 ≤ (s.tile t).gme.length) &&
        !rbit s (R.PRED_STATUS t.toNat) F.PRED_STATUS_BUSY then .stall s
    else if csrOk o n then
      .retire (spoilSems t o n (linkBusy s t) (tileCsrWrite t o n ((rdS s t rd).toNat % 2 ^ (8 * n)) s))
    else .fault .protection 0 s) s

def execXCsrrW (t : TileId) (rd rs1 : SReg) (imm : BitVec 12) (s : State) := xCsrR t rd rs1 imm 4 s
def execXCsrwW (t : TileId) (rd rs1 : SReg) (imm : BitVec 12) (s : State) := xCsrW t rd rs1 imm 4 s
def execXCsrrD (t : TileId) (rd rs1 : SReg) (imm : BitVec 12) (s : State) := xCsrR t rd rs1 imm 8 s
def execXCsrwD (t : TileId) (rd rs1 : SReg) (imm : BitVec 12) (s : State) := xCsrW t rd rs1 imm 8 s

/-! ### SYS (Table 4-5, Table 4-11) -/

/-- SYS NOP. -/
def execXNop (t : TileId) (s : State) : Host.Outcome State Fault Refusal := xRun t .retire s

/-- IFLUSH: instruction words come with the commands, so no cached word is held (log entry 6). -/
def execXIflush (t : TileId) (s : State) : Host.Outcome State Fault Refusal := xRun t .retire s

/-- BRK: a halt before it executes in debug, else a NOP (R125). -/
def execXBrk (t : TileId) (s : State) : Host.Outcome State Fault Refusal :=
  xRun t (fun s => if xDebug s t && !(s.tile t).x.skipBrk then .stall (xHalt t s) else .retire s) s

def execXFence (t : TileId) (s : State) : Host.Outcome State Fault Refusal :=
  xRun t (fun s => if fenceOk s t then .retire s else .wait 0 .fence s) s

def execXFenceE (t : TileId) (s : State) : Host.Outcome State Fault Refusal :=
  xRun t (fun s => if fenceEOk s t then .retire s else .wait 0 .fenceE s) s

/-- END: completes the tile's part of its launch (R59, Table 4-11). -/
def execXEnd (t : TileId) (s : State) : Host.Outcome State Fault Refusal :=
  xRun t (fun s => if endOk s t then .stall (xEndRetire t s) else .wait 0 .finish s) s

/-! ### Constants and descriptor registers (Table 4-9) -/

def execXLi (t : TileId) (rt : SReg) (imm : BitVec 32) (s : State) : Host.Outcome State Fault Refusal :=
  xRun8 t (xSetS t rt (sext64 imm)) s

def execXLih (t : TileId) (rt : SReg) (imm : BitVec 32) (s : State) : Host.Outcome State Fault Refusal :=
  xRun8 t (fun s => xSetS t rt (imm ++ (rdS s t rt).extractLsb' 0 32) s) s

def execXAddi32 (t : TileId) (rt rs : SReg) (imm : BitVec 32) (s : State) : Host.Outcome State Fault Refusal :=
  xRun8 t (fun s => xSetS t rt (rdS s t rs + sext64 imm) s) s

/-- Address of DLD and DST: S[RS] + sext(IMM32), bits [5:0] cleared. -/
def dAddr (s : State) (t : TileId) (rs : SReg) (imm : BitVec 32) : Nat := (rdS s t rs + sext64 imm).toNat / 64 * 64

def execXDld (t : TileId) (da : DReg) (rs : SReg) (imm : BitVec 32) (s : State) : Host.Outcome State Fault Refusal :=
  xRun8 t (fun s =>
    match xLoad t (dAddr s t rs imm) (List.range 64) (.desc da) s with
    | .load l s => .load { l with len := 8 } s
    | r => r) s

def execXDst (t : TileId) (da : DReg) (rs : SReg) (imm : BitVec 32) (s : State) : Host.Outcome State Fault Refusal :=
  xRun8 t (fun s => xStore t (cellsAt (dAddr s t rs imm) 64 (rdD s t da).toNat) s) s

/-- DINS: 64-bit field n of D[DA] ← S[RT]. -/
def execXDins (t : TileId) (da : DReg) (rt : SReg) (fld : BitVec 3) (s : State) : Host.Outcome State Fault Refusal :=
  xRun8 t (fun s => .retire
    (wrD t da (BitVec.ofNat 512 (putBits (rdD s t da).toNat (64 * fld.toNat) 64 (rdS s t rt).toNat)) s)) s

/-- DEXT: S[RT] ← 64-bit field n of D[DA]. -/
def execXDext (t : TileId) (da : DReg) (rt : SReg) (fld : BitVec 3) (s : State) : Host.Outcome State Fault Refusal :=
  xRun8 t (fun s => xSetS t rt ((rdD s t da).extractLsb' (64 * fld.toNat) 64) s) s

def execXDmov (t : TileId) (da db : DReg) (s : State) : Host.Outcome State Fault Refusal :=
  xRun8 t (fun s => .retire (wrD t da (rdD s t db) s)) s

/-! ### Semaphores, windows, posts (Table 4-11, R117) -/

/-- A count or threshold: the low `w` bits of S[RS], or IMM11 when RS is 0 (R117). -/
def opCount (s : State) (t : TileId) (rs : SReg) (imm : BitVec 11) (w : Nat) : Nat :=
  if rs = 0 then imm.toNat else (rdS s t rs).toNat % 2 ^ w

def execXSacq (t : TileId) (rs : SReg) (imm : BitVec 11) (n : SemIdx) (s : State) : Host.Outcome State Fault Refusal :=
  xRun t (fun s =>
    let r := acquire t n .xcore (opCount s t rs imm 16) s
    if r.1 then .retire r.2 else .wait n.toNat (.sacq n false) r.2) s

def execXSpost (t : TileId) (rs : SReg) (imm : BitVec 11) (n : SemIdx) (s : State) : Host.Outcome State Fault Refusal :=
  xRun t (fun s => xPost t (.own n) (opCount s t rs imm 16) n.toNat s) s

def execXSset (t : TileId) (rs : SReg) (imm : BitVec 11) (n : SemIdx) (s : State) : Host.Outcome State Fault Refusal :=
  xRun t (fun s =>
    let v := semPut t n (opCount s t rs imm 16) s
    .retire (semSet t n v.1 v.2)) s

def execXSrd (t : TileId) (rs : SReg) (n : SemIdx) (s : State) : Host.Outcome State Fault Refusal :=
  xRun t (fun s => xSetS t rs (BitVec.ofNat 64 (semVal s t n)) s) s

/-- STRY: tested in step 3 of R81 against the value left by the older grants; not granted while an older acquire is pending,
even with a count of 0, and nothing stays pending (R82). The count is
IMM11, as the result goes to S[RS]. -/
def execXStry (t : TileId) (rs : SReg) (imm : BitVec 11) (n : SemIdx) (s : State) : Host.Outcome State Fault Refusal :=
  xRun t (fun s =>
    let s := semGrants (semWaiters s t n).length t n s
    let c := imm.toNat
    if semWaiters s t n = [] ∧ c ≤ semVal s t n then
      xSetS t rs 1 (semSet t n (semVal s t n - c) s)
    else xSetS t rs 0 s) s

/-- WOPEN: OPEN with the range of S[RS], or the range held; a range R90 refuses is a precise PROTECTION fault. -/
def execXWopen (t : TileId) (rs : SReg) (w : WinIdx) (s : State) : Host.Outcome State Fault Refusal :=
  xRun t (fun s =>
    if winIsOpen s t w then .wait w.toNat (.reopen w) (winOpen t w s).2
    else
      let v := (rdS s t rs).toNat % 2 ^ 32
      let base := if rs = 0 then winBase s t w else bits v 0 15
      let len := if rs = 0 then winLen s t w else bits v 16 15
      if winRangeOk base len then .retire (winOpen t w (if rs = 0 then s else winRangeWrite t w v s)).2
      else .fault .protection 0 s) s

def execXWclose (t : TileId) (w : WinIdx) (s : State) : Host.Outcome State Fault Refusal :=
  xRun t (fun s => .retire (winClose t w s)) s

def execXWwait (t : TileId) (rs : SReg) (imm : BitVec 11) (w : WinIdx) (s : State) : Host.Outcome State Fault Refusal :=
  xRun t (fun s =>
    let thr := opCount s t rs imm 32
    if thr ≤ winCount s t w then .retire s else .wait w.toNat (.wwait w thr) s) s

def execXWcnt (t : TileId) (rs : SReg) (w : WinIdx) (s : State) : Host.Outcome State Fault Refusal :=
  xRun t (fun s => xSetS t rs (BitVec.ofNat 64 (winCount s t w)) s) s

/-- RPOST: to a semaphore of another tile, on this module or another (Table 4-10). -/
def execXRpost (t : TileId) (rs rt : SReg) (treg : Bool) (tile : TileId) (count : BitVec 16) (n : SemIdx) (s : State) :
    Host.Outcome State Fault Refusal :=
  xRun8 t (fun s =>
    let dev := (rdS s t rs).toNat % 2 ^ 15
    let u : TileId := if treg then (rdS s t rt).extractLsb' 0 11 else tile
    let dst : Dest := if rs = 0 ∨ dev = s.devId then .tile u else .dev (BitVec.ofNat 15 dev)
    xPost t (.remote dst u n) count.toNat n.toNat s) s

/-! ### Engine waits, hints (Table 4-11, R120) -/

def execXEwaitCe (t : TileId) (n : BitVec 4) (s : State) : Host.Outcome State Fault Refusal :=
  xRun t (fun s => if (s.tile t).ce.length ≤ n.toNat then .retire s else .wait 0 (.ewaitCe n.toNat) s) s

def execXEwaitGme (t : TileId) (n : BitVec 4) (s : State) : Host.Outcome State Fault Refusal :=
  xRun t (fun s => if (s.tile t).gme.length ≤ n.toNat then .retire s else .wait 0 (.ewaitGme n.toNat) s) s

def execXEstat (t : TileId) (rs : SReg) (s : State) : Host.Outcome State Fault Refusal :=
  xRun t (fun s => xSetS t rs (BitVec.ofNat 64 ((s.tile t).ce.length + 256 * (s.tile t).gme.length)) s) s

/-- LHINT: the tile's last power class, which the ledger may use (R120, R398); no result changes. -/
def execXLhint (t : TileId) (cls : BitVec 2) (s : State) : Host.Outcome State Fault Refusal :=
  xRun t (fun s => .retire (s.modX t (fun x => { x with hint := some cls }))) s

/-! ### Engine, collective and update issue (R114) -/

/-- A CE or GME instruction copies its descriptor registers at issue; a full queue of 8 stalls it (R114). TA and TB of a GME
instruction are reserved (R106, R212). -/
def xEngine (t : TileId) (op : EngOp) (isCe : Bool) (da db dc : DReg) (s0 s1 : SReg) (imm : EngImm) (s : State) :
    Host.Outcome State Fault Refusal :=
  xRun8 t (fun s =>
    let c := s.tile t
    if !isCe && (imm.ta || imm.tb) then .stall (enterFault t 0 .aborted (xPc s t) 0 true true s)
    else if 8 ≤ (if isCe then c.ce.length else c.gme.length) then .stall s
    else
      let e : EngCmd := ⟨op, rdD s t da, rdD s t db, rdD s t dc, rdS s t s0, rdS s t s1, imm, xPc s t, .queued, none, [], none, false, (s.tile t).x.seq⟩
      .retire (nextSeq t
        (s.modTile t (fun c => if isCe then { c with ce := c.ce ++ [e] } else { c with gme := c.gme ++ [e] })))) s

def execCeMm (t : TileId) (da db dc : DReg) (imm : EngImm) (s : State) := xEngine t .ceMm true da db dc 0 0 imm s
def execCeGrouped (t : TileId) (da : DReg) (rs rt : SReg) (imm : EngImm) (s : State) :=
  xEngine t .ceGrouped true da 0 0 rs rt imm s
def execGmeGather (t : TileId) (da db dc : DReg) (imm : EngImm) (s : State) := xEngine t .gather false da db dc 0 0 imm s
def execGmeSegred (t : TileId) (da db dc : DReg) (imm : EngImm) (s : State) := xEngine t .segred false da db dc 0 0 imm s
def execGmeMerge (t : TileId) (da db dc : DReg) (imm : EngImm) (s : State) := xEngine t .merge false da db dc 0 0 imm s
def execGmeScatter (t : TileId) (da db dc : DReg) (imm : EngImm) (s : State) := xEngine t .scatter false da db dc 0 0 imm s
def execTopk (t : TileId) (da db dc : DReg) (imm : EngImm) (s : State) := xEngine t .topk false da db dc 0 0 imm s
def execBucket (t : TileId) (da db dc : DReg) (imm : EngImm) (s : State) := xEngine t .bucket false da db dc 0 0 imm s
def execCut (t : TileId) (da db dc : DReg) (imm : EngImm) (s : State) := xEngine t .cut false da db dc 0 0 imm s
def execPlace (t : TileId) (da db dc : DReg) (imm : EngImm) (s : State) := xEngine t .place false da db dc 0 0 imm s
def execJoin (t : TileId) (da db dc : DReg) (imm : EngImm) (s : State) := xEngine t .join false da db dc 0 0 imm s

/-! ### Stream instructions (R175, Table 6-7) -/

/-- The status word of a slot: STATE, RUNAHEAD, STATUS, HELD_FAULT and LANDED (Table 6-7). -/
def slotWord (s : State) (t : TileId) (sl : SlotIdx) : Nat :=
  rraw s (R.SLOT_STATE t.toNat sl.toNat) % 2 ^ 13 + (rget s (R.SLOT_LANDED t.toNat sl.toNat) F.SLOT_LANDED_BUFS) <<< 32

def execXSstat (t : TileId) (rs : SReg) (sl : SlotIdx) (s : State) : Host.Outcome State Fault Refusal :=
  xRun t (fun s => xSetS t rs (BitVec.ofNat 64 (slotWord s t sl)) s) s

def execXSwait (t : TileId) (rs : SReg) (imm : BitVec 11) (sl : SlotIdx) (s : State) : Host.Outcome State Fault Refusal :=
  xRun t (fun s =>
    let thr := opCount s t rs imm 32
    if swaitOk s t sl thr then .retire s else .wait sl.toNat (.swait sl thr) s) s

end Sys2Proof.Machine
end

