-- ==== Sys2Proof/Machine/Stream.lean ====
section
/-! DEFINITION. The F-core program (R153 to R158) and the stream slots (R159 to R183). -/

namespace Sys2Proof.Machine

/-! ### The F-core program -/

def rdG (s : State) (t : TileId) (r : GReg) : Word := if r = 0 then 0 else mget (fun _ => 0) (s.tile t).f.g r.toNat

/-- Writes to G0 are discarded. -/
def wrG (t : TileId) (r : GReg) (v : Word) (s : State) : State :=
  if r = 0 then s else s.modF t (fun f => { f with g := mset (fun _ => 0) f.g r.toNat v })

def fPc (s : State) (t : TileId) : Nat := rget s (R.FC_PC t.toNat) F.FC_PC_PC

/-- An F-core fault record keeps the first fault (Table 6-9). -/
def recordFFault (t : TileId) (v : Nat) (s : State) : State :=
  if rraw s (R.FC_FAULT t.toNat) = 0 then rput (R.FC_FAULT t.toNat) v s else s

/-- The F-core program faults: FAULTED, recorded with PROG, open streams aborted, reported with SOURCE 3 (R155, R158). -/
def fFault (t : TileId) (st : Status) (va : Nat) (illegal : Bool) (s : State) : State :=
  let s := recordFFault t (st.code + 1 <<< 14 + b2n illegal <<< 15) s
  let s := withdraw t .fprog (setFState t fcFaulted s)
  let s := s.modF t (fun f => { f with wait := none, load := none, store := false })
  let s := allSlots.foldl (fun s sl => slotAbort t sl .aborted s) s
  pushFault t ⟨3, st, 0, va⟩ s

/-- An F-core instruction retires. -/
def fRetire (t : TileId) (pc : Nat) (s : State) : State :=
  progress t (rput (R.FC_PC t.toNat) (pc % 2 ^ 48 / 4 * 4) s)

/-- How an F-core instruction ends. -/
inductive FOut where
  | retire (s : State)
  | jump (pc : Nat) (s : State)
  | wait (obj kind : Nat) (w : FWait) (s : State)
  | pend (s : State)
  | fault (st : Status) (va : Nat) (s : State)

/-- The program blocks (Table 6-9). -/
def fBlock (t : TileId) (obj kind : Nat) (w : FWait) (s : State) : State :=
  let s := setFState t fcWaiting (s.modF t (fun f => { f with wait := some w }))
  rset (R.FC_STATUS t.toNat) F.FC_STATUS_WAIT_KIND kind (rset (R.FC_STATUS t.toNat) F.FC_STATUS_WAIT_OBJ obj s)

def fFinish (t : TileId) : FOut → State
  | .retire s => fRetire t (fPc s t + 4) s
  | .jump pc s => fRetire t pc s
  | .wait obj kind w s => fBlock t obj kind w s
  | .pend s => s
  | .fault st va s => fFault t st va false s

/-- The F-core is about to execute the instruction at its PC. -/
def fReady (s : State) (t : TileId) : Bool :=
  s.enabled t && fState s t == fcRunning && (s.tile t).f.load.isNone && !(s.tile t).f.store

/-- An instruction at the F-core's PC: fetched through translation with RD (R153), a fetch that fails being a precise fault (R158),
then its body. -/
def fIssue (t : TileId) (body : State → FOut) (s : State) : State :=
  if fReady s t then
    match fetchWord t unitF (fPc s t) s with
    | (some st, s1) => fFault t st (fPc s t) false s1
    | (none, s1) => fFinish t (body s1)
  else s

def fRun (t : TileId) (body : State → FOut) (s : State) : Host.Outcome State Fault Refusal := .next (fIssue t body s)

/-- G[GD] ← a value. -/
def fSetG (t : TileId) (gd : GReg) (f : State → Word) (s : State) : Host.Outcome State Fault Refusal :=
  fRun t (fun s => .retire (wrG t gd (f s) s)) s

def execFNop (t : TileId) (s : State) : Host.Outcome State Fault Refusal := fRun t .retire s
def execFAdd (t : TileId) (gd ga gb : GReg) (s : State) := fSetG t gd (fun s => rdG s t ga + rdG s t gb) s
def execFSub (t : TileId) (gd ga gb : GReg) (s : State) := fSetG t gd (fun s => rdG s t ga - rdG s t gb) s
def execFMul (t : TileId) (gd ga gb : GReg) (s : State) := fSetG t gd (fun s => rdG s t ga * rdG s t gb) s
def execFAddi (t : TileId) (gd ga : GReg) (imm : BitVec 14) (s : State) := fSetG t gd (fun s => rdG s t ga + sext64 imm) s
def execFSlli (t : TileId) (gd ga : GReg) (sh : BitVec 6) (s : State) := fSetG t gd (fun s => rdG s t ga <<< sh.toNat) s
def execFSrli (t : TileId) (gd ga : GReg) (sh : BitVec 6) (s : State) := fSetG t gd (fun s => rdG s t ga >>> sh.toNat) s
def execFOri (t : TileId) (gd ga : GReg) (imm : BitVec 14) (s : State) :=
  fSetG t gd (fun s => rdG s t ga ||| imm.setWidth 64) s
def execFAndi (t : TileId) (gd ga : GReg) (imm : BitVec 14) (s : State) :=
  fSetG t gd (fun s => rdG s t ga &&& imm.setWidth 64) s

/-- Address of FLD and FST: G[GA] + 8 × sext(IMM14), bits [2:0] cleared. -/
def fAddr (s : State) (t : TileId) (ga : GReg) (imm : BitVec 14) : Nat := (rdG s t ga + sext64 imm * 8).toNat / 8 * 8

/-- FLD. -/
def execFLd (t : TileId) (gd ga : GReg) (imm : BitVec 14) (s : State) : Host.Outcome State Fault Refusal :=
  fRun t (fun s =>
    match readLine t (fAddr s t ga imm) (List.range 8) (.fload t) unitF s with
    | (.error st, s1) => .fault st (fAddr s t ga imm) s1
    | (.ok p, s1) =>
      match p.data with
      | some d => .retire (wrG t gd (BitVec.ofNat 64 (leNat d)) s1)
      | none => .pend (s1.modF t (fun f => { f with load := some (gd, [p]) }))) s

/-- FST: precise within the program (R158), so it waits for its acknowledgement. -/
def execFSt (t : TileId) (ga gb : GReg) (imm : BitVec 14) (s : State) : Host.Outcome State Fault Refusal :=
  fRun t (fun s =>
    let a := fAddr s t ga imm
    match translate t a false true s with
    | (.bad st, s1) => .fault st a (xlatFault t a st unitF s1)
    | (.ok dev la, s1) =>
      let lc := cellsAt la 8 (rdG s t gb).toNat
      let wait (s : State) : FOut := .pend (s.modF t (fun f => { f with store := true }))
      match route s1 t dev la with
      | .now => let r := localWrite lc s1; if r.1 = .ok then .retire r.2 else .fault r.1 a r.2
      | .tile u => wait (sendTxn ⟨.fwrite t, .tile u, a, .write lc, .request⟩ s1)
      | .dev d => wait (sendTxn ⟨.fwrite t, .dev (BitVec.ofNat 15 d), a, .write lc, .request⟩ s1)
      | .lost => wait (sendTxn ⟨.fwrite t, .tile t, a, .write lc, .lost⟩ (rinc R.PDC_ORPHAN F.PDC_ORPHAN_COUNT 1 s1))
      | .noRoute => .fault .protection a (xlatFault t a .protection unitF s1)) s

/-- A branch of the F-core program. -/
def fBranch (t : TileId) (ga gb : GReg) (imm : BitVec 14) (f : Word → Word → Bool) (s : State) :
    Host.Outcome State Fault Refusal :=
  fRun t (fun s => if f (rdG s t ga) (rdG s t gb) then .jump (brTarget (fPc s t) imm) s else .retire s) s

def execFBeq (t : TileId) (ga gb : GReg) (imm : BitVec 14) (s : State) := fBranch t ga gb imm (fun a b => a == b) s
def execFBne (t : TileId) (ga gb : GReg) (imm : BitVec 14) (s : State) := fBranch t ga gb imm (fun a b => a != b) s
def execFBlt (t : TileId) (ga gb : GReg) (imm : BitVec 14) (s : State) := fBranch t ga gb imm (fun a b => a.slt b) s
def execFBltu (t : TileId) (ga gb : GReg) (imm : BitVec 14) (s : State) := fBranch t ga gb imm (fun a b => a.ult b) s

/-- A slot takes no stream: IDLE or ABORTED. -/
def slotFree (s : State) (t : TileId) (sl : SlotIdx) : Bool :=
  slotState s t sl == slIdle || slotState s t sl == slAborted

/-- FEND's condition: every slot IDLE or ABORTED and no transfer in flight. -/
def fEndOk (s : State) (t : TileId) : Bool := allSlots.all (slotFree s t) && (s.tile t).xfers.isEmpty

/-- FEND retires: the program has ended. -/
def fEndRetire (t : TileId) (s : State) : State := setFState t fcEnded (fRetire t (fPc s t + 4) s)

def execFEnd (t : TileId) (s : State) : Host.Outcome State Fault Refusal :=
  fRun t (fun s => if fEndOk s t then .pend (fEndRetire t s) else .wait 0 2 .finish s) s

def execFSjoin (t : TileId) (sl : SlotIdx) (s : State) : Host.Outcome State Fault Refusal :=
  fRun t (fun s => if slotFree s t sl then .retire s else .wait sl.toNat 1 (.join sl) s) s

/-- FSACQ, FSPOST counts: G[GA][15:0], or IMM14[13:6] when GA = 0 (R156). -/
def fCount (s : State) (t : TileId) (ga : GReg) (cnt : BitVec 8) : Nat :=
  if ga = 0 then cnt.toNat else (rdG s t ga).toNat % 2 ^ 16

def execFSacq (t : TileId) (ga : GReg) (cnt : BitVec 8) (n : SemIdx) (s : State) : Host.Outcome State Fault Refusal :=
  fRun t (fun s =>
    let r := acquire t n .fprog (fCount s t ga cnt) s
    if r.1 then .retire r.2 else .wait n.toNat 0 (.sem n false) r.2) s

/-- FSPOST: its own FLD reads and FST writes are complete when it issues, so the post takes effect (R156). -/
def execFSpost (t : TileId) (ga : GReg) (cnt : BitVec 8) (n : SemIdx) (s : State) : Host.Outcome State Fault Refusal :=
  fRun t (fun s => .retire (semPost t n (fCount s t ga cnt) s)) s

def execFStat (t : TileId) (gd : GReg) (sl : SlotIdx) (s : State) :=
  fSetG t gd (fun s => BitVec.ofNat 64 (slotWord s t sl)) s

/-- A free slot starts OPENING with a descriptor address, status cleared (Table 6-6). -/
def slotOpen (t : TileId) (sl : SlotIdx) (va : Nat) (s : State) : State :=
  let s := rput (R.SLOT_DESC_VA t.toNat sl.toNat) (va % 2 ^ 48) s
  let s := s.modTile t (fun c => { c with slots := mset (fun _ => Slot.reset) c.slots sl.toNat Slot.reset })
  rput (R.SLOT_STATE t.toNat sl.toNat) slOpening s

/-- SOPEN: opens the slot, or waits until it is IDLE or ABORTED; it retires when the slot has accepted or refused (R157). -/
def execFSopen (t : TileId) (ga : GReg) (sl : SlotIdx) (s : State) : Host.Outcome State Fault Refusal :=
  fRun t (fun s =>
    let va := (rdG s t ga).toNat / 64 * 64
    if slotFree s t sl then .wait sl.toNat 1 (.opening sl) (slotOpen t sl va s)
    else .wait sl.toNat 1 (.sopen sl va) s) s

/-- A waiting program whose condition has come to hold goes on: run after every event of its tile that can end its wait. -/
def fWake (t : TileId) (s : State) : State :=
  if fState s t = fcWaiting then
    match (s.tile t).f.wait with
    | some w =>
      let run (s : State) : State := setFState t fcRunning (s.modF t (fun f => { f with wait := none }))
      match w with
      | .sem _ g => if g then fRetire t (fPc s t + 4) (run s) else s
      | .slot sl | .join sl => if slotFree s t sl then fRetire t (fPc s t + 4) (run s) else s
      | .opening sl => if slotState s t sl = slOpening then s else fRetire t (fPc s t + 4) (run s)
      | .finish => if fEndOk s t then fEndRetire t (run s) else s
      | .sopen sl va =>
        if slotFree s t sl then
          (slotOpen t sl va s).modF t (fun f => { f with wait := some (.opening sl) })
        else s
    | none => s
  else s

/-- ACQUIRE_GRANT: the oldest pending acquire is granted once the value allows (R81, R82). -/
def execAcquireGrant (t : TileId) (n : SemIdx) (s : State) : Host.Outcome State Fault Refusal :=
  .next (fWake t (semGrant t n s))

/-! ### Stream descriptors (R159 to R164) -/

def State.slot (s : State) (t : TileId) (sl : SlotIdx) : Slot := mget (fun _ => Slot.reset) (s.tile t).slots sl.toNat

def State.modSlot (s : State) (t : TileId) (sl : SlotIdx) (f : Slot → Slot) : State :=
  s.modTile t (fun c => { c with slots := mmod (fun _ => Slot.reset) c.slots sl.toNat f })

def sKind (d : DWord) : Nat := dF d 0x00 1
def sFlag (d : DWord) (i : Nat) : Bool := bit (dF d 0x01 1) i
def sPair (d : DWord) : PairIdx := BitVec.ofNat 5 (dF d 0x02 1)
def sSrc (d : DWord) : SlotIdx := BitVec.ofNat 6 (dF d 0x03 1)
def sRing (d : DWord) : Nat := dF d 0x04 4
def sRpb (d : DWord) : Nat := dF d 0x08 2
def sDepth (d : DWord) : Nat := dF d 0x0A 2
def sPitch (d : DWord) : Nat := dF d 0x0C 4
def sTdVa (d : DWord) : Nat := dF d 0x10 8
def sLen (d : DWord) : Nat := dF d 0x18 4
def sRaDepth (d : DWord) : Nat := dF d 0x1C 2
def sCredit (d : DWord) : SemIdx := BitVec.ofNat 6 (dF d 0x1E 1)
def sRpair (d : DWord) : PairIdx := BitVec.ofNat 5 (dF d 0x1F 1)
def sRtile (d : DWord) : TileId := BitVec.ofNat 11 (dF d 0x20 2)
def sRdev (d : DWord) : DevId := BitVec.ofNat 15 (dF d 0x22 2)

def isIdxKind (k : Nat) : Bool := k == 2 || k == 4
def isOutKind (k : Nat) : Bool := k == 3 || k == 4

def fcExpert (s : State) (t : TileId) : Bool := rbit s (R.FC_CTL t.toNat) F.FC_CTL_EXPERT

/-- The stream runs ahead: expert level and RUNAHEAD (R164). -/
def runsAhead (s : State) (t : TileId) (sl : SlotIdx) : Bool :=
  rbit s (R.SLOT_STATE t.toNat sl.toNat) F.SLOT_STATE_RUNAHEAD

/-- Bytes of an index element. -/
def idxBytes (td : TDesc) : Nat := elemBytes td.fmt

/-- Bytes of a ring buffer, B of R161. -/
def bufBytes (d : DWord) (td : TDesc) : Nat :=
  if sKind d = 1 then ceilDiv (sRpb d * idxBytes td) 64 * 64 else sRpb d * sPitch d

/-- The default LENGTH of R161. -/
def defaultLen (s : State) (t : TileId) (d : DWord) (td : TDesc) : Nat :=
  if sKind d = 1 then tExt td 0 * rowCount td
  else if isIdxKind (sKind d) then (s.slot t (sSrc d)).len
  else rowCount td

/-- The refusals of Table 6-5, the tensor descriptor's apart. -/
def sdRefused (s : State) (t : TileId) (sl : SlotIdx) (d : DWord) (td : TDesc) : Bool :=
  let k := sKind d
  let src := slotState s t (sSrc d)
  decide (4 < k) || decide (64 ≤ dF d 0x01 1) || decide (31 < dF d 0x02 1) || decide (31 < dF d 0x1F 1) ||
  decide (63 < dF d 0x03 1) || decide (63 < dF d 0x1E 1) || decide (2047 < dF d 0x20 2) ||
  decide (32767 < dF d 0x22 2) || dF d 0x24 28 != 0 || (!isIdxKind k && dF d 0x03 1 != 0) ||
  sTdVa d % 64 != 0 || decide (2 ^ 48 ≤ sTdVa d) ||
  tdRefused (fun c => k != 1 || c == 0x19 || c == 0x1A) td ||
  sRpb d == 0 || decide (4096 < sRpb d) || sDepth d == 0 || decide (4096 < sDepth d) ||
  (if k = 1 then sPitch d != 0 else sPitch d % 64 != 0 || decide (sPitch d < rowBytes td)) ||
  sRing d % 64 != 0 || decide (spadBytes < sRing d + sDepth d * bufBytes d td) ||
  (!isIdxKind k && decide (defaultLen s t d td < sLen d)) ||
  (isIdxKind k && (sSrc d == sl || !(s.slot t (sSrc d)).acc || sKind (s.slot t (sSrc d)).sdesc != 1 ||
    !(src == slOpening || src == slRunning || src == slBlocked || src == slFlushing))) ||
  (!isOutKind k && (sFlag d 2 || sFlag d 3)) ||
  (fcExpert s t && ((sFlag d 0 && (!(k == 0 || k == 2) || sRaDepth d == 0 || decide (sDepth d < sRaDepth d))) ||
    (!sFlag d 0 && sRaDepth d != 0)))

/-- A stream fault reported by the F-core with SOURCE 3: the first is recorded in `FC_FAULT` (R170). -/
def streamReport (t : TileId) (sl : SlotIdx) (st : Status) (va : Nat) (s : State) : State :=
  pushFault t ⟨3, st, 0, va⟩ (recordFFault t (st.code + sl.toNat <<< 8) s)

/-- The slot refuses its descriptor (R164). -/
def slotRefuse (t : TileId) (sl : SlotIdx) (s : State) : State :=
  let s := rput (R.SLOT_STATE t.toNat sl.toNat) (slAborted + Status.aborted.code <<< 4) s
  streamReport t sl .aborted 0 s

/-- Zero the counts of a slot (R182). -/
def slotZero (t : TileId) (sl : SlotIdx) (s : State) : State :=
  rput (R.SLOT_POSTED t.toNat sl.toNat) 0 (rput (R.SLOT_COMMITTED t.toNat sl.toNat) 0
    (rput (R.SLOT_LANDED t.toNat sl.toNat) 0 s))

/-- Another slot that holds a stream names the pair (Table 6-13). -/
def pairShared (s : State) (t : TileId) (sl : SlotIdx) (k : PairIdx) : Bool :=
  allSlots.any (fun x => x != sl && !slotFree s t x && (s.slot t x).acc && sPair (s.slot t x).sdesc == k)

/-- The pair of a stream at its acceptance: set unless NOINIT holds it (R163). Its values are undefined where another open stream
names it, and under NOINIT where they count more buffers than the ring has (Table 6-13; log entry 40). -/
def setPair (t : TileId) (sl : SlotIdx) (d : DWord) (s : State) : State :=
  let e := emptySem (sPair d)
  let f := fullSem (sPair d)
  let keep := fcExpert s t && sFlag d 1
  if pairShared s t sl (sPair d) || (keep && decide (sDepth d < semVal s t e + semVal s t f)) then
    let a := freeWord s
    let b := freeWord a.2
    semSet t f b.1.toNat (semSet t e a.1.toNat b.2)
  else if keep then s
  else semSet t f 0 (semSet t e (sDepth d) s)

/-- The slot accepts its descriptor (R163). -/
def slotAccept (t : TileId) (sl : SlotIdx) (d tw : DWord) (s : State) : State :=
  let td := tdOf tw
  let len := if sLen d = 0 then defaultLen s t d td else sLen d
  let x := fcExpert s t
  let i := s.slot t (sSrc d)
  let s := setPair t sl d (slotZero t sl s)
  let s := rput (R.SLOT_SNAP t.toNat sl.toNat)
    (semVal s t (emptySem (sPair d)) + (semVal s t (fullSem (sPair d))) <<< 16) s
  let s := rput (R.SLOT_SNAP2 t.toNat sl.toNat) (if sFlag d 3 then semVal s t (sCredit d) else 0) s
  let s := rput (R.SLOT_SEQ t.toNat sl.toNat) (rget s (R.FC_SEQ t.toNat) F.FC_SEQ_NEXT) s
  let s := rwrap (R.FC_SEQ t.toNat) F.FC_SEQ_NEXT 1 s
  let s := rput (R.SLOT_LENGTH t.toNat sl.toNat) (ceilDiv len (sRpb d)) s
  let s := s.modSlot t sl (fun _ => { Slot.reset with
    acc := true, sdesc := d, tdesc := tw, len := len
    idxS := if isIdxKind (sKind d) then i.sdesc else 0
    idxT := if isIdxKind (sKind d) then i.tdesc else 0
    idxLen := if isIdxKind (sKind d) then i.len else 0 })
  rput (R.SLOT_STATE t.toNat sl.toNat) (slRunning + b2n (x && sFlag d 0) <<< 3) s

/-- STREAM_ACCEPT: an OPENING slot reads the stream descriptor and then its tensor descriptor, and accepts or refuses; a read
that fails is a precise fault of the F-core program (R158). -/
def execStreamAccept (t : TileId) (sl : SlotIdx) (env : EngEnv) (s : State) : Host.Outcome State Fault Refusal :=
  .next (if slotState s t sl = slOpening then
      match engRead64 t unitF env (rget s (R.SLOT_DESC_VA t.toNat sl.toNat) F.SLOT_DESC_VA_VA) s with
      | (.error (st, va), s1) => fFault t st va false s1
      | (.ok d, s1) =>
        if sTdVa d % 64 ≠ 0 ∨ 2 ^ 48 ≤ sTdVa d then fWake t (slotRefuse t sl s1)
        else
          match engRead64 t unitF env (sTdVa d) s1 with
          | (.error (st, va), s2) => fFault t st va false s2
          | (.ok tw, s2) =>
            if sdRefused s2 t sl d (tdOf tw) then fWake t (slotRefuse t sl s2) else fWake t (slotAccept t sl d tw s2)
    else s)

/-! ### Buffers and rows -/

def slotLenBufs (s : State) (t : TileId) (sl : SlotIdx) : Nat := rget s (R.SLOT_LENGTH t.toNat sl.toNat) F.SLOT_LENGTH_BUFS
def slotCommitted (s : State) (t : TileId) (sl : SlotIdx) : Nat :=
  rget s (R.SLOT_COMMITTED t.toNat sl.toNat) F.SLOT_COMMITTED_BUFS
def slotPosted (s : State) (t : TileId) (sl : SlotIdx) : Nat := rget s (R.SLOT_POSTED t.toNat sl.toNat) F.SLOT_POSTED_BUFS

/-- Rows or indices of a buffer. -/
def bufRows (q : Slot) (b : Nat) : Nat := min (sRpb q.sdesc) (q.len - b * sRpb q.sdesc)

/-- Units a buffer is issued in: the rows, or the whole of an INDEX buffer. -/
def bufUnits (q : Slot) (b : Nat) : Nat := if sKind q.sdesc = 1 then min 1 (bufRows q b) else bufRows q b

/-- Ring offset of a row of a buffer (R161). -/
def ringOff (q : Slot) (b r : Nat) : Nat :=
  sRing q.sdesc + b % sDepth q.sdesc * bufBytes q.sdesc (tdOf q.tdesc) + r * sPitch q.sdesc

/-- The all-ones index of a width, which selects no row under NULLIDX (R162). -/
def nullIndex (bytes : Nat) : Nat := 2 ^ (8 * bytes) - 1

/-- The unit's bytes: (virtual address, ring offset), and ring bytes that are filled without a transfer. `x` is the index of a
GATHER or SCATTER row. -/
def unitPlan (q : Slot) (b r x : Nat) (isNull : Bool) : List (Nat × Nat) × List (Nat × Byte) :=
  let td := tdOf q.tdesc
  let o := ringOff q b r
  let fill (row : List Byte) (have_ : List (Nat × Nat)) : List (Nat × Byte) :=
    (row.zipIdx.filter (fun p => !have_.any (fun c => c.2 == p.2))).map (fun p => (o + p.2, p.1))
  match sKind q.sdesc with
  | 0 =>
    let i := rowIndex td (b * sRpb q.sdesc + r)
    let cs := if stored1 td i.1 then rowCells td (rowAt td i.1 i.2.1 i.2.2) false else []
    (cs.map (fun c => (c.1, o + c.2)), fill (padRow td) cs)
  | 1 =>
    let n := idxBytes td
    let ps := (List.range (bufRows q b)).map (fun k =>
      let e := b * sRpb q.sdesc + k
      let i0 := e % tExt td 0
      let i := rowIndex td (e / tExt td 0)
      let off := o + k * n
      if stored0 td i0 && stored1 td i.1 then
        ((List.range n).map (fun (j : Nat) =>
          (vaOf (elemAddr td (rowAt td i.1 i.2.1 i.2.2) ((i0 : Int) - td.p0lo) + (j : Int)), off + j)), [])
      else ([], (natLe n (padElem td.fmt (tPadv td))).zipIdx.map (fun p => (off + p.2, p.1))))
    (ps.flatMap (·.1), ps.flatMap (·.2))
  | 2 =>
    if isNull then ([], fill (padRow td) [])
    else
      let cs := rowCells td (rowOfIndex td x) false
      (cs.map (fun c => (c.1, o + c.2)), fill (padRow td) cs)
  | 3 =>
    let i := rowIndex td (b * sRpb q.sdesc + r)
    if rowWrites td i.1 i.2.1 i.2.2 then ((writeCells td (rowAt td i.1 i.2.1 i.2.2)).map (fun c => (c.1, o + c.2)), [])
    else ([], [])
  | _ =>
    if isNull then ([], []) else ((writeCells td (rowOfIndex td x)).map (fun c => (c.1, o + c.2)), [])

/-- The byte a write stores for a cell: the ring's byte `ring`, or PADV where the position is padding (R145). -/
def outByte (td : TDesc) (o : Nat) (padded : Bool) (ringOff : Nat) (ring : Byte) : Byte :=
  let k := ringOff - o
  let stored := if isBlock td.fmt then
      let nl := tExt td 0 / 32
      let b := if k < nl * blockBytes td.fmt then k / blockBytes td.fmt else k - nl * blockBytes td.fmt
      stored0 td (32 * b)
    else stored0 td (k / elemBytes td.fmt)
  if padded || !stored then (padRow td).getD k 0 else ring

/-- The bytes that a line of a write stores, from the ring bytes read for it. -/
def outBytes (td : TDesc) (o : Nat) (padded : Bool) (offs : List Nat) (ring : List Byte) : List Byte :=
  (offs.zip ring).map (fun p => outByte td o padded p.1 p.2)

/-- A read or write of the slot's own ring, or of its index ring (R512). -/
def ringRead (t : TileId) (offs : List Nat) (s : State) : Status × List Byte × State :=
  memRead (offs.map (spadAddr t)) s

def ringWrite (t : TileId) (cells : List (Nat × Byte)) (s : State) : Status × State :=
  memWrite (cells.map (fun c => (spadAddr t c.1, c.2))) s

/-- Ring bytes landed for a buffer: written, and undefined to every reader until the buffer's end posts (R87, R174). -/
def ringLand (t : TileId) (cells : List (Nat × Byte)) (s : State) : Status × State :=
  ringWrite t (cells.zipIdx.map (fun p => (p.1.1, Config.freeByte (s.freeCtr + p.2))))
    { s with freeCtr := s.freeCtr + cells.length }

/-! ### Faults and ends of buffers -/

/-- A buffer changed. -/
def modBuf (q : Slot) (b : Nat) (f : SBuf → SBuf) : Slot :=
  { q with bufs := q.bufs.map (fun e => if e.no = b then f e else e) }

/-- A transfer of buffer `b`, or a ring access made for it, ends with a status: held with the buffer while the stream runs
ahead and the buffer is not committed, else the slot aborts and reports (R170, R173, R512). -/
def bufFault (t : TileId) (sl : SlotIdx) (b : Nat) (st : Status) (va : Nat) (s : State) : State :=
  if runsAhead s t sl && decide (slotCommitted s t sl ≤ b) then
    rset (R.SLOT_STATE t.toNat sl.toNat) F.SLOT_STATE_HELD_FAULT 1
      (s.modSlot t sl (fun q => modBuf q b (fun e => { e with held := some (e.held.getD (st, va)) })))
  else streamReport t sl st va (slotAbort t sl st (xlatFault t va st unitF s))

/-- The remote POST(1) to FULL of RPAIR on the target tile (R177). -/
def remoteFull (t : TileId) (sl : SlotIdx) (d : DWord) (s : State) : State :=
  let n := fullSem (sRpair d)
  if sFlag d 5 ∨ (sRdev d).toNat = s.devId then
    if sRtile d = t then semPost t n 1 s
    else sendTxn ⟨.slotPost t sl (rget s (R.SLOT_SEQ t.toNat sl.toNat) F.SLOT_SEQ_SEQ), .tile (sRtile d), 0, .post (sRtile d) n 1, .request⟩ s
  else if bit (rget s (R.MOS_ROUTE (sRdev d).toNat) F.MOS_ROUTE_ENTRY) 31 then
    sendTxn ⟨.slotPost t sl (rget s (R.SLOT_SEQ t.toNat sl.toNat) F.SLOT_SEQ_SEQ), .dev (sRdev d), 0, .post (sRtile d) n 1, .request⟩ s
  else streamReport t sl .protection 0 (slotAbort t sl .protection s)

/-- The posts at the end of a buffer (Table 6-4). -/
def endPosts (t : TileId) (sl : SlotIdx) (s : State) : State :=
  let d := (s.slot t sl).sdesc
  if isOutKind (sKind d) then
    let s := semPost t (emptySem (sPair d)) 1 s
    if sFlag d 2 then remoteFull t sl d s else s
  else semPost t (fullSem (sPair d)) 1 s

/-- The oldest buffer makes its end posts, once it has landed and is committed: its ring bytes then hold what its lines brought. The
last one ends the stream (R168, R172). -/
def postHead (t : TileId) (sl : SlotIdx) (s : State) : State :=
  match (s.slot t sl).bufs with
  | b :: bs =>
    if b.landed && (!runsAhead s t sl || decide (b.no < slotCommitted s t sl)) then
      let s := wrCells (b.data.map (fun c => (spadAddr t c.1, c.2))) (s.modSlot t sl (fun q => { q with bufs := bs }))
      let s := rwrap (R.SLOT_POSTED t.toNat sl.toNat) F.SLOT_POSTED_BUFS 1 (endPosts t sl s)
      if slotState s t sl = slFlushing ∧ slotPosted s t sl = slotLenBufs s t sl then setSlotState t sl slIdle s else s
    else s
  | [] => s

/-- Posts in buffer order, as many as can be made. -/
def postHeads : Nat → TileId → SlotIdx → State → State
  | 0, _, _, s => s
  | k + 1, t, sl, s => postHeads k t sl (postHead t sl s)

/-- A buffer whose transfers are all issued and answered has landed, or is written out (R168); without run-ahead it is then
committed (R172). A buffer with a held fault does not land. -/
def landBuf (t : TileId) (sl : SlotIdx) (b : Nat) (s : State) : State :=
  match (s.slot t sl).bufs.find? (fun e => e.no == b) with
  | some e =>
    if e.issued && e.left == 0 && !e.landed && e.held.isNone then
      let s := s.modSlot t sl (fun q => modBuf q b (fun e => { e with landed := true }))
      let s := progress t (rwrap (R.SLOT_LANDED t.toNat sl.toNat) F.SLOT_LANDED_BUFS 1 s)
      let s := if runsAhead s t sl || isOutKind (sKind (s.slot t sl).sdesc) then s
        else rwrap (R.SLOT_COMMITTED t.toNat sl.toNat) F.SLOT_COMMITTED_BUFS 1 s
      postHeads (s.slot t sl).bufs.length t sl s
    else s
  | none => s

/-! ### The slot's next action (R160 to R162, R167) -/

/-- The index buffer, and the place in it, of index `k` of a GATHER or SCATTER: behind a short last buffer of the index stream a new
buffer is needed (Table 6-4). -/
def idxPlace (q : Slot) (k : Nat) : Nat × Nat :=
  let n := sRpb q.idxS
  if k < q.idxLen then (k / n, k % n) else (ceilDiv q.idxLen n + (k - q.idxLen) / n, (k - q.idxLen) % n)

/-- The slot acquires a semaphore: granted at once, or BLOCKED until it is. -/
def slotAcquire (t : TileId) (sl : SlotIdx) (n : SemIdx) (idx : Bool) (s : State) : State :=
  let r := acquire t n (.slot sl) 1 s
  if r.1 then
    let q := r.2.slot t sl
    let s := if !idx && q.stage == 0 && outStream q then
        rwrap (R.SLOT_COMMITTED t.toNat sl.toNat) F.SLOT_COMMITTED_BUFS 1 r.2 else r.2
    s.modSlot t sl (fun q => if idx then { q with idxHave := q.idxHave + 1 } else { q with stage := q.stage + 1 })
  else
    setSlotState t sl slBlocked (r.2.modSlot t sl (fun q => { q with waiting := some n, wantIdx := idx }))

/-- A unit is issued whole: the next row, or the next buffer when it was the last; an index that is read is counted, and the
last of an index buffer posts EMPTY of the index pair (Table 6-4). -/
def unitDone (t : TileId) (sl : SlotIdx) (s : State) : State :=
  let q := s.slot t sl
  let s :=
    if isIdxKind (sKind q.sdesc) then
      let rd := q.idxRead + 1
      let s := s.modSlot t sl (fun q => { q with idxRead := rd })
      if (idxPlace q rd).2 = 0 then semPost t (emptySem (sPair q.idxS)) 1 s else s
    else s
  if q.row + 1 < bufUnits q q.buf then s.modSlot t sl (fun q => { q with row := q.row + 1, line := 0 })
  else
    let b := q.buf
    let s := s.modSlot t sl (fun q =>
      { modBuf q b (fun e => { e with issued := true }) with buf := b + 1, row := 0, line := 0, stage := 0 })
    let s := if slotLenBufs s t sl ≤ b + 1 ∧ slotState s t sl = slRunning then setSlotState t sl slFlushing s else s
    landBuf t sl b s

/-- After a fault of the buffer in hand that is held with it, the slot goes on behind what failed (R173). -/
def pastHeld (t : TileId) (sl : SlotIdx) (f : State → State) (s : State) : State :=
  let q := s.slot t sl
  if q.bufs.any (fun e => e.no == q.buf && e.held.isSome) then f s else s

/-- Issue one transfer of the unit's line `g` (R167, R149). -/
def issueLine (t : TileId) (sl : SlotIdx) (q : Slot) (g : List (Nat × Nat)) (data : List Byte) (s : State) : State :=
  let isRead := !isOutKind (sKind q.sdesc)
  let a := (g.headD (0, 0)).1
  let fail (st : Status) (s : State) : State :=
    pastHeld t sl (fun s => s.modSlot t sl (fun q => { q with line := q.line + 1 })) (bufFault t sl q.buf st a s)
  match translate t a isRead (!isRead) s with
  | (.bad st, s1) => fail st s1
  | (.ok dev la, s1) =>
    let cells := g.map (fun c => (la + c.1 - a, c.2))
    let id := (s1.tile t).xferSeq
    let x : Xfer := ⟨sl, q.buf, isRead, a, dev, cells, data, none, false⟩
    let put (x : Xfer) (s : State) : State :=
      (s.modTile t (fun c => { c with xfers := mins c.xfers id x, xferSeq := id + 1 })).modSlot t sl
        (fun q => { modBuf q q.buf (fun e => { e with left := e.left + 1 }) with line := q.line + 1 })
    let op : MemOp := if isRead then .read (cells.map (·.1)) else .write ((cells.map (·.1)).zip data)
    match route s1 t dev la with
    | .now => put x s1
    | .tile u => put { x with sent := true } (sendTxn ⟨.xfer t id, .tile u, a, op, .request⟩ s1)
    | .dev d => put { x with sent := true } (sendTxn ⟨.xfer t id, .dev (BitVec.ofNat 15 d), a, op, .request⟩ s1)
    | .lost =>
      put { x with sent := true }
        (sendTxn ⟨.xfer t id, .tile t, a, op, .lost⟩ (rinc R.PDC_ORPHAN F.PDC_ORPHAN_COUNT 1 s1))
    | .noRoute => fail .protection s1

/-- The next action inside a buffer whose acquires are held: one transfer, or the end of a unit that needs no more. -/
def slotUnit (t : TileId) (sl : SlotIdx) (x : Nat) (isNull : Bool) (s : State) : State :=
  let q := s.slot t sl
  let td := tdOf q.tdesc
  let plan := unitPlan q q.buf q.row x isNull
  let groups := ((plan.1.map (fun c => c.1 / 64)).dedup).map (fun l => plan.1.filter (fun c => c.1 / 64 == l))
  match groups[q.line]? with
  | none =>
    -- nothing left to transfer: fill the padded ring bytes
    let r := ringLand t plan.2 s
    if r.1 = .ok then
      unitDone t sl (r.2.modSlot t sl (fun q => modBuf q q.buf (fun e => { e with data := e.data ++ plan.2 })))
    else pastHeld t sl (unitDone t sl) (bufFault t sl q.buf r.1 0 r.2)
  | some g =>
    if 256 ≤ (s.tile t).xfers.length then s
    else if isOutKind (sKind q.sdesc) then
      let o := ringOff q q.buf q.row
      let i := rowIndex td (q.buf * sRpb q.sdesc + q.row)
      let padded := sKind q.sdesc == 3 && !stored1 td i.1
      let r := ringRead t (g.map (·.2)) s
      if r.1 = .ok then
        issueLine t sl q g (outBytes td o padded (g.map (·.2)) r.2.1) r.2.2
      else bufFault t sl q.buf r.1 0 (undefineVas t (.unit []) (g.map (·.1)) r.2.2)
    else issueLine t sl q g [] s

/-- STREAM_TRANSFER_ISSUE: a RUNNING slot takes its next action: an acquire of Table 6-4, the read of its next index, one
transfer, or the end of a unit. At its run-ahead limit it is BLOCKED once no committed buffer is left to deliver, and runs on once
the limit has moved (R165, R172, R173). -/
def slotStep (t : TileId) (sl : SlotIdx) (s : State) : State :=
  let q := s.slot t sl
  let d := q.sdesc
  if slotState s t sl ≠ slRunning then s
  else if slotLenBufs s t sl ≤ q.buf then
    (if slotPosted s t sl = slotLenBufs s t sl then setSlotState t sl slIdle s else setSlotState t sl slFlushing s)
  else if q.stage = 0 then
    if runsAhead s t sl && decide (slotCommitted s t sl + sRaDepth d ≤ q.buf) then
      (if slotPosted s t sl < slotCommitted s t sl then s else setSlotState t sl slBlocked s)
    else slotAcquire t sl (if isOutKind (sKind d) then fullSem (sPair d) else emptySem (sPair d)) false s
  else if q.stage = 1 ∧ sFlag d 3 then slotAcquire t sl (sCredit d) false s
  else if (q.bufs.find? (fun e => e.no == q.buf)).isNone then
    s.modSlot t sl (fun q => { q with bufs := q.bufs ++ [⟨q.buf, 0, false, false, none, []⟩] })
  else if isIdxKind (sKind d) then
    let n := idxBytes (tdOf q.idxT)
    let k := idxPlace q q.idxRead
    if q.idxHave ≤ k.1 then slotAcquire t sl (fullSem (sPair q.idxS)) true s
    else
      let o := sRing q.idxS + k.1 % sDepth q.idxS * bufBytes q.idxS (tdOf q.idxT) + k.2 * n
      let r := ringRead t ((List.range n).map (o + ·)) s
      if r.1 = .ok then
        let x := leNat r.2.1
        slotUnit t sl x (sFlag d 4 && x == nullIndex n) r.2.2
      else pastHeld t sl (unitDone t sl) (bufFault t sl q.buf r.1 0 r.2.2)
  else slotUnit t sl 0 false s

def execStreamTransferIssue (t : TileId) (sl : SlotIdx) (s : State) : Host.Outcome State Fault Refusal :=
  .next (fWake t (slotStep t sl s))

/-! ### Replies, timeouts, aborts -/

def dropXfer (t : TileId) (id : Nat) (s : State) : State := s.modTile t (fun c => { c with xfers := mdel c.xfers id })

/-- Buffer `b` of a slot still wants its replies: the slot delivers and has not dropped it (R169). -/
def bufLive (s : State) (t : TileId) (sl : SlotIdx) (b : Nat) : Bool :=
  let k := slotState s t sl
  (k == slRunning || k == slBlocked || k == slFlushing || k == slCancelling) &&
    decide (b < slotLenBufs s t sl) && (s.slot t sl).bufs.any (fun e => e.no == b)

/-- A transfer's answer reaches its slot (R168 to R170); a read that ends FAULT_ECC leaves its ring bytes undefined (R26). -/
def xferLand (t : TileId) (x : Xfer) (st : Status) (data : List Byte) (s : State) : State :=
  if !bufLive s t x.slot x.buf then
    (if x.reads then rinc (R.FC_LATE t.toNat) F.FC_LATE_COUNT 1 s else s)
  else
    let s := s.modSlot t x.slot (fun q => modBuf q x.buf (fun e => { e with left := e.left - 1 }))
    if st = .ok then
      if x.reads then
        let cells := (x.cells.map (·.2)).zip data
        let r := ringLand t cells s
        if r.1 = .ok then
          landBuf t x.slot x.buf
            (r.2.modSlot t x.slot (fun q => modBuf q x.buf (fun e => { e with data := e.data ++ cells })))
        else bufFault t x.slot x.buf r.1 0 r.2
      else landBuf t x.slot x.buf s
    else
      let s := if st = .faultEcc ∧ x.reads = true then freeBytes (x.cells.map (fun c => spadAddr t c.2)) s else s
      bufFault t x.slot x.buf st x.va s

/-- A transfer that went to no other tile or module is answered where its memory lies; `bad` says that its payload had an
uncorrectable error on the way (R25), and a write then leaves its bytes undefined (R26). -/
def xferServe (bad : Bool) (x : Xfer) (s : State) : Status × List Byte × State :=
  if x.reads then
    let r := localRead (x.cells.map (·.1)) s
    (spoiled bad r.1, if bad then [] else r.2.1, r.2.2)
  else
    let p := payload bad ((x.cells.map (·.1)).zip x.data) s
    let r := localWrite p.1 p.2
    (spoiled bad r.1, [], r.2)

/-- TRANSFER_REPLY: transfer `id` of the tile gets its answer: from HBM, the moraine tier or the own scratchpad at once, or
the reply that another tile or module sent. The answer to one that has timed out is discarded and counted (R169). -/
def execTransferReply (t : TileId) (id : Nat) (bad : Bool) (s : State) : Host.Outcome State Fault Refusal :=
  .next (match mfind (s.tile t).xfers id with
    | some x =>
      if x.sent then
        match x.reply with
        | some (st, data) => fWake t (xferLand t x (spoiled bad st) data (dropXfer t id s))
        | none => s
      else
        let r := xferServe bad x s
        fWake t (xferLand t x r.1 r.2.1 (dropXfer t id r.2.2))
    | none =>
      match mfind (s.tile t).late id with
      | some x =>
        let s := (xferServe bad x s).2.2
        rinc (R.FC_LATE t.toNat) F.FC_LATE_COUNT 1 (s.modTile t (fun c => { c with late := mdel c.late id }))
      | none => s)

/-- TRANSFER_TIMEOUT: transfer `id` has no reply 65,536 cc after issue (R169). -/
def execTransferTimeout (t : TileId) (id : Nat) (s : State) : Host.Outcome State Fault Refusal :=
  .next (match mfind (s.tile t).xfers id with
    | some x =>
      let s := rinc (R.FC_XFER_TO t.toNat) F.FC_XFER_TO_COUNT 1 (dropXfer t id s)
      let s := if x.sent then s else s.modTile t (fun c => { c with late := mins c.late id x })
      fWake t (if bufLive s t x.slot x.buf then bufFault t x.slot x.buf .timeout x.va
        (s.modSlot t x.slot (fun q => modBuf q x.buf (fun e => { e with left := e.left - 1 }))) else s)
    | none => s)

/-- The progress timeout in cc (R178). -/
def progLimit (s : State) (t : TileId) : Nat :=
  let l := rget s (R.FC_CTL t.toNat) F.FC_CTL_PROG_LOG2
  if fcExpert s t && decide (12 ≤ l ∧ l ≤ 22) then 2 ^ l else 2 ^ 16

/-- Age of a slot's stream: smallest for the youngest (R179). -/
def slotAge (s : State) (t : TileId) (sl : SlotIdx) : Nat :=
  (rget s (R.FC_SEQ t.toNat) F.FC_SEQ_NEXT + 2 ^ 32 - rget s (R.SLOT_SEQ t.toNat sl.toNat) F.SLOT_SEQ_SEQ) % 2 ^ 32

/-- The youngest BLOCKED slot. -/
def youngestBlocked (s : State) (t : TileId) : Option SlotIdx :=
  (allSlots.filter (fun sl => slotState s t sl == slBlocked)).foldl (fun (b : Option SlotIdx) sl =>
    match b with
    | none => some sl
    | some c => if slotAge s t sl < slotAge s t c then some sl else some c) none

/-- PROGRESS_TIMEOUT: `FC_PROGRESS` has reached the timeout; one unit is ended and the count restarts (R179). -/
def execProgressTimeout (t : TileId) (s : State) : Host.Outcome State Fault Refusal :=
  .next (if progLimit s t ≤ rget s (R.FC_PROGRESS t.toNat) F.FC_PROGRESS_COUNT then
      let s := progress t s
      match youngestBlocked s t with
      | some sl =>
        streamReport t sl .timeout 0 (slotAbort t sl .timeout (rinc (R.FC_MUTUAL t.toNat) F.FC_MUTUAL_COUNT 1 s))
      | none => if fState s t = fcWaiting then fFault t .timeout 0 false s else s
    else s)

/-- No transfer of a slot is in flight. -/
def slotQuiet (s : State) (t : TileId) (sl : SlotIdx) : Bool := !(s.tile t).xfers.any (fun e => e.2.slot == sl)

/-- The snapshot of a slot's semaphores set back (R171). -/
def restoreSnap (t : TileId) (sl : SlotIdx) (s : State) : State :=
  let q := s.slot t sl
  if q.acc then
    let d := q.sdesc
    let o := R.SLOT_SNAP t.toNat sl.toNat
    let s := semSet t (fullSem (sPair d)) (rget s o F.SLOT_SNAP_FULL)
      (semSet t (emptySem (sPair d)) (rget s o F.SLOT_SNAP_EMPTY) s)
    if sFlag d 3 then semSet t (sCredit d) (rget s (R.SLOT_SNAP2 t.toNat sl.toNat) F.SLOT_SNAP2_CREDIT) s else s
  else s

/-- STREAM_ABORT_COMPLETE: every transfer of an ABORTING slot has its reply or has timed out; the slot restores its snapshot
and is ABORTED (R171). -/
def execStreamAbortComplete (t : TileId) (sl : SlotIdx) (s : State) : Host.Outcome State Fault Refusal :=
  .next (if slotState s t sl = slAborting ∧ slotQuiet s t sl = true then
      fWake t (setSlotState t sl slAborted ((restoreSnap t sl s).modSlot t sl (fun _ => Slot.reset)))
    else s)

/-! ### SCOMMIT and SCANCEL (R175, Table 6-7) -/

/-- Faults held on buffers that have become committed act, oldest first (R173). -/
def heldFaults (t : TileId) (sl : SlotIdx) (s : State) : State :=
  match (s.slot t sl).bufs.find? (fun b => b.held.isSome && decide (b.no < slotCommitted s t sl)) with
  | some b =>
    match b.held with
    | some (st, va) => streamReport t sl st va (slotAbort t sl st (xlatFault t va st unitF s))
    | none => s
  | none => s

/-- COMMITTED raised by n buffers (Table 6-7). -/
def slotCommit (t : TileId) (sl : SlotIdx) (n : Nat) (s : State) : State :=
  if slotFree s t sl || !runsAhead s t sl then s
  else
    let c := min (slotCommitted s t sl + n) (slotLenBufs s t sl)
    let s := rput (R.SLOT_COMMITTED t.toNat sl.toNat) c s
    let s := if slotState s t sl = slBlocked ∧ (s.slot t sl).waiting.isNone then setSlotState t sl slRunning s else s
    let s := heldFaults t sl s
    postHeads (s.slot t sl).bufs.length t sl s

def execXScommit (t : TileId) (rs : SReg) (imm : BitVec 11) (sl : SlotIdx) (s : State) : Host.Outcome State Fault Refusal :=
  xRun t (fun s => .retire (fWake t (slotCommit t sl (opCount s t rs imm 32) s))) s

/-- The state a slot takes when no dropped transfer or credit is left (Table 6-6). -/
def slotAfterCancel (t : TileId) (sl : SlotIdx) (s : State) : State :=
  if slotPosted s t sl = slotLenBufs s t sl then setSlotState t sl slIdle s
  else if slotLenBufs s t sl ≤ (s.slot t sl).buf then setSlotState t sl slFlushing s
  else setSlotState t sl slRunning s

/-- The index stream of a cancelled GATHER or SCATTER ends: nothing more is issued, replies in flight are discarded, then its pair
is set back and it is IDLE (R175). One that aborts ends as R171 gives. -/
def endIndexStream (t : TileId) (sl : SlotIdx) (s : State) : State :=
  if slotFree s t sl || slotState s t sl == slAborting then s
  else
    let s := (withdraw t (.slot sl) s).modSlot t sl (fun q => { q with bufs := [], waiting := none, wantIdx := false })
    if slotQuiet s t sl then setSlotState t sl slIdle (restoreSnap t sl s)
    else setSlotState t sl slCancelling (s.modSlot t sl (fun q => { q with ending := true }))

/-- SCANCEL (R175): the stream's new length, its dropped buffers, their credits, and the index stream's end. -/
def slotCancel (t : TileId) (sl : SlotIdx) (n : Nat) (s : State) : State :=
  if slotFree s t sl || slotState s t sl == slAborting || slotState s t sl == slOpening || (s.slot t sl).ending then s
  else
    let q := s.slot t sl
    let l := slotLenBufs s t sl
    let l' := min l (max n (slotCommitted s t sl))
    let dropped := q.bufs.filter (fun b => decide (l' ≤ b.no))
    -- a buffer whose first acquire is granted but which has no record yet
    let early := b2n (decide (l' ≤ q.buf ∧ 0 < q.stage) && !q.bufs.any (fun b => b.no == q.buf))
    let s := rput (R.SLOT_LENGTH t.toNat sl.toNat) l' s
    let s := rinc (R.FC_SPEC_DROP t.toNat) F.FC_SPEC_DROP_COUNT
      (if runsAhead s t sl then dropped.length else 0) s
    let s := if l' ≤ q.buf ∧ q.waiting.isSome then withdraw t (.slot sl) s else s
    let s := s.modSlot t sl (fun q => { q with
      len := min q.len (l' * sRpb q.sdesc)
      bufs := q.bufs.filter (fun b => decide (b.no < l'))
      credits := q.credits + dropped.length + early
      buf := min q.buf l'
      row := if l' ≤ q.buf then 0 else q.row
      line := if l' ≤ q.buf then 0 else q.line
      stage := if l' ≤ q.buf then 0 else q.stage
      waiting := if l' ≤ q.buf then none else q.waiting
      wantIdx := if l' ≤ q.buf then false else q.wantIdx })
    let s := if (s.slot t sl).bufs.all (fun b => b.held.isNone) then
        rset (R.SLOT_STATE t.toNat sl.toNat) F.SLOT_STATE_HELD_FAULT 0 s else s
    let s := if isIdxKind (sKind q.sdesc) ∧ l' < l then endIndexStream t (sSrc q.sdesc) s else s
    if (s.slot t sl).credits ≠ 0 ∨ (s.tile t).xfers.any (fun e => e.2.slot == sl && decide (l' ≤ e.2.buf)) then
      setSlotState t sl slCancelling s
    else if l' = l ∨ slotState s t sl = slBlocked ∧ (s.slot t sl).waiting.isSome then s
    else slotAfterCancel t sl s

def execXScancel (t : TileId) (rs : SReg) (imm : BitVec 11) (sl : SlotIdx) (s : State) : Host.Outcome State Fault Refusal :=
  xRun t (fun s => .retire (fWake t (slotCancel t sl (opCount s t rs imm 32) s))) s

/-- CANCEL_COMPLETE: the dropped transfers have drained; an index stream that ends is set back and IDLE; else EMPTY (or FULL, for
STORE and SCATTER) is posted back once for each dropped buffer that had it (R175). -/
def execCancelComplete (t : TileId) (sl : SlotIdx) (s : State) : Host.Outcome State Fault Refusal :=
  .next (if slotState s t sl = slCancelling ∧ (s.slot t sl).ending = true then
      (if slotQuiet s t sl then
          fWake t (setSlotState t sl slIdle ((restoreSnap t sl s).modSlot t sl (fun q => { q with ending := false })))
        else s)
    else if slotState s t sl = slCancelling ∧
      !(s.tile t).xfers.any (fun e => e.2.slot == sl && decide (slotLenBufs s t sl ≤ e.2.buf)) then
      let q := s.slot t sl
      let n := if isOutKind (sKind q.sdesc) then fullSem (sPair q.sdesc) else emptySem (sPair q.sdesc)
      let s := semPost t n q.credits (s.modSlot t sl (fun q => { q with credits := 0 }))
      fWake t (slotAfterCancel t sl s)
    else s)

end Sys2Proof.Machine
end

