-- ==== Sys2Proof/Machine/Mesh.lean ====
section
/-! DEFINITION. Replies to requests between units, resends and the mesh transaction timeout (R119, R177, R423 to R429). -/

namespace Sys2Proof.Machine

/-- The tile that waits for a request's reply; none for the other units. -/
def issuerTile : Issuer → Option TileId
  | .xwrite t _ _ | .xload t _ | .fload t | .fwrite t | .xfer t _ | .slotPost t _ _ | .abandoned t _ | .acked t => some t
  | .fill _ | .mirror _ _ | .firn _ _ | .collWrite => none

/-- A posted write, atomic or remote post of an X-core ends (R121): a status other than OK is an imprecise fault with SOURCE 4. -/
def writeReply (t : TileId) (pc va seq : Nat) (st : Status) (s : State) : State :=
  if st = .ok then s else writeFault t st pc va seq s

/-- A write that a stopped X-core left ends: when it failed, the retired posts behind it never take effect (Table 4-11). -/
def leftReply (t : TileId) (seq : Option Nat) (st : Status) (s : State) : State :=
  match seq with
  | some k => if st = .ok then s else
    s.modX t (fun x => { x with held := x.held.filter (fun h => decide (h.seq ≤ k)) })
  | none => s

/-- A part of a load comes back: the load ends with its last part, or faults precisely (R104, R107). -/
def loadReply (t : TileId) (part va : Nat) (st : Status) (data : List Byte) (s : State) : State :=
  match (s.tile t).x.load with
  | some l =>
    if st = .ok then
      let parts := l.parts.zipIdx.map (fun p => if p.2 = part then { p.1 with data := some data } else p.1)
      if partsDone parts then
        xRetire t (xPc s t + l.len) (loadWrite t l.dst parts (s.modX t (fun x => { x with load := none })))
      else s.modX t (fun x => { x with load := some { l with parts := parts } })
    else preciseFault t st va s
  | none => s

/-- FLD's data come back (R158); what it loads is undefined when a register of the F-core was written meanwhile (Table 4-18). -/
def fLoadReply (t : TileId) (va : Nat) (st : Status) (data : List Byte) (s : State) : State :=
  match (s.tile t).f.load with
  | some (gd, _) =>
    let u := (s.tile t).f.undef
    let s := s.modF t (fun f => { f with load := none, undef := false })
    if st = .ok then
      let v := if u then freeWord s else (BitVec.ofNat 64 (leNat data), s)
      fRetire t (fPc s t + 4) (wrG t gd v.1 v.2)
    else fFault t st va false s
  | none => s

/-- FST's acknowledgement comes back (R158). -/
def fWriteReply (t : TileId) (va : Nat) (st : Status) (s : State) : State :=
  if (s.tile t).f.store then
    let s := s.modF t (fun f => { f with store := false })
    if st = .ok then fRetire t (fPc s t + 4) s else fFault t st va false s
  else s

/-- A stream's remote FULL post ends: a status other than OK is reported, and aborts the stream while its slot still holds it
(R119, R177). -/
def slotPostReply (t : TileId) (sl : SlotIdx) (seq : Nat) (st : Status) (s : State) : State :=
  if st = .ok then s
  else if slotFree s t sl || rget s (R.SLOT_SEQ t.toNat sl.toNat) F.SLOT_SEQ_SEQ != seq then streamReport t sl st 0 s
  else streamReport t sl st 0 (slotAbort t sl st s)

/-- The REPLY packet that answers a packet of module `d` to module `src` (R354): it leaves by the route entry of its origin; with no
valid entry none is sent (R356). -/
def answerPacket (src : Nat) (d : DevId) (unit tag sub : Nat) (st : Status) (data : List Byte) (s : State) : State :=
  let r := routeEntry s d.toNat
  if bit r 31 then
    let lines := if sub = 1 ∧ st = .ok then data.length / 64 else 0
    let old := if sub = 2 ∧ st = .ok then leNat (data.take 8) else 0
    sendPkt (mkPacket pkReply sub src d.toNat unit r tag lines (classVc pkReply)
      (st.code + old <<< 64) (if lines = 0 then [] else data)) s
  else s

/-- SUB of the REPLY to a request (Table 13-6). -/
def replySub : MemOp → Nat
  | .write _ => 0 | .read _ => 1 | .aadd _ _ _ _ => 2 | .post _ _ _ => 3

/-- The final status of request `x` reaches its issuer, and the request is over. The recovery block's requests are answered
where its engines take them. -/
def deliver (id : Nat) (x : Txn) (st : Status) (data : List Byte) (s : State) : State :=
  let s := dropTxn id s
  match x.iss with
  | .xwrite t pc k => writeReply t pc x.va k st s
  | .xload t part => loadReply t part x.va st data s
  | .fload t => fLoadReply t x.va st data s
  | .fwrite t => fWriteReply t x.va st s
  | .xfer t k =>
    match mfind (s.tile t).xfers k with
    | some f => s.modTile t (fun c => { c with xfers := mins c.xfers k { f with reply := some (st, data) } })
    | none => rinc (R.FC_LATE t.toNat) F.FC_LATE_COUNT 1 s
  | .slotPost t sl k => slotPostReply t sl k st s
  | .fill _ | .mirror _ _ | .firn _ _ => putTxn id { x with phase := .reply st data } s
  | .abandoned t k => leftReply t k st s
  | .acked _ | .collWrite => s

/-- A reply to a tile that has finished draining is dropped at its router and counted (R423); a refusal with RETRY_LATER waits
for its resend (R425); any other reply is delivered. -/
def takeReply (id : Nat) (x : Txn) (st : Status) (data : List Byte) (s : State) : State :=
  match issuerTile x.iss with
  | some t =>
    if !s.domReach (16 + tileDie t) then rinc (R.MESH_ORPHAN t.toNat) F.MESH_ORPHAN_COUNT 1 (dropTxn id s)
    else if st = .retryLater then putTxn id { x with phase := .refused } s
    else deliver id x st data s
  | none =>
    if st = .retryLater then putTxn id { x with phase := .refused } s else deliver id x st data s

/-- MESH_REPLY: the reply of request `id` arrives; `bad` says that its payload has an uncorrectable error (R25). -/
def execMeshReply (id : Nat) (bad : Bool) (s : State) : Host.Outcome State Fault Refusal :=
  .next (match mfind s.txns id with
    | some x =>
      match x.phase with
      | .reply st data =>
        match x.iss with
        | .fill _ | .mirror _ _ | .firn _ _ => s
        | _ => if bad ∧ st = .ok then takeReply id x .faultEcc [] s else takeReply id x st data s
      | _ => s
    | none => s)

/-- RETRY_RESEND: 64 cc after a refusal the request is sent again (R119, R425); to a module whose route entry is no longer valid it
ends with PROTECTION (R356). -/
def execRetryResend (id : Nat) (s : State) : Host.Outcome State Fault Refusal :=
  .next (match mfind s.txns id with
    | some x =>
      match x.phase with
      | .refused =>
        let x := { x with phase := .request }
        match x.dst with
        | .dev d => if bit (routeEntry s d.toNat) 31 then emitTxn id x (putTxn id x s) else takeReply id x .protection [] s
        | .tile _ => emitTxn id x (putTxn id x s)
      | _ => s
    | none => s)

/-- MESH_TRANSACTION_TIMEOUT: request `id` has had no final reply for 2^20 cc since its first issue (R429). Stream transfers are
bounded by R169 instead. -/
def execMeshTransactionTimeout (id : Nat) (s : State) : Host.Outcome State Fault Refusal :=
  .next (match mfind s.txns id with
    | some x =>
      match x.iss with
      | .xfer _ _ => s
      | _ => deliver id x .timeout [] s
    | none => s)

end Sys2Proof.Machine
end

