-- ==== Sys2Proof/Machine/Energy.lean ====
section
/-! DEFINITION. Energy as the Snowpack ledger counts and estimates it (R382, R383, R388 to R390, R400). Energies are in nJ and
powers in mW, whole numbers, each formula rounded down once at its end (log entry 20). -/

namespace Sys2Proof.Machine

/-- The ledger is at expert level. -/
def ledgExpert (s : State) : Bool := rbit s R.LEDG_CTL F.LEDG_CTL_EXPERT

/-- Energy coefficient of an event, fJ (Table 14-1). -/
def coef (s : State) (i : Nat) : Nat :=
  if ledgExpert s then rget s (R.LEDG_COEF i) F.LEDG_COEF_FJ else coefReset.getD i 0

/-- The fields of `LEDG_VTAB` in force: V8 not below the Repair Record's. -/
def vtab (s : State) (d : Nat) : Nat :=
  let rr := bits s.repair.vtab.toNat (8 * d) 8
  if ledgExpert s then
    let v := bits (rraw s R.LEDG_VTAB) (8 * d) 8
    if d = 3 then max v rr else v
  else rr

/-- s_d: 1,024 × (VTAB_d ÷ VTAB_0)², to nearest (R400). -/
def scaleD (s : State) (d : Nat) : Nat :=
  let n := 1024 * vtab s d * vtab s d
  let m := vtab s 0 * vtab s 0
  if m = 0 then 1024 else (2 * n + m) / (2 * m)

/-- The divider of an index (Table 14-4). -/
def divider (d : Nat) : Nat := if d = 0 then 4 else if d = 1 then 5 else if d = 2 then 6 else 8

/-- `LEDG_EFF` as it acts. -/
def ledgEff (s : State) : Nat :=
  let e := rget s R.LEDG_EFF F.LEDG_EFF_PERMILLE
  if 500 ≤ e ∧ e ≤ 1000 then e else 940

def ledgRecon (s : State) : Nat := rget s R.LEDG_RECON F.LEDG_RECON_FACTOR

/-- Silicon energy as input energy (R383). -/
def toInput (s : State) (x : Nat) : Nat := x * ledgRecon s * 1000 / (4096 * ledgEff s)

/-- Entry of an energy tag (R389). -/
def tagEntry (t : Nat) : Nat := (t.xor ((t / 2 ^ 10).xor (t / 2 ^ 20))) % 1024

/-- Tag factor in units of 1/4,096 (R389). -/
def tagFactor (s : State) (t : Nat) : Nat :=
  if t = 0 then 4096
  else
    let r := rget s (R.LEDG_TAG (tagEntry t)) F.LEDG_TAG_RATIO
    if ledgExpert s && rbit s R.LEDG_CTL F.LEDG_CTL_TAGSCALE then min 16384 (max 1024 r) else min 8192 (max 4096 r)

/-- Field of a command's bytes. -/
def cF (c : Cmd) (off n : Nat) : Nat := leAt c.bytes off n

def opNop : Nat := 0
def opLaunch : Nat := 1
def opCollective : Nat := 2
def opUpdate : Nat := 3
def opCopy : Nat := 4
def opSignal : Nat := 5
def opWait : Nat := 6
def opStepBegin : Nat := 7
def opStepEnd : Nat := 8
def opPrefetch : Nat := 9
def opChain : Nat := 10

/-- Opcode of a command; a bad buffer reference carries 0xFF (R508). -/
def cmdOp (c : Cmd) : Nat := if c.badRef.isSome then 0xFF else cF c 0 1

/-- Word `k` of a region descriptor, by region number. -/
def rgnWord (s : State) (r k : Nat) : Nat := rraw s (R.RGND (r / 4096) (r % 4096) k)

/-- Field of a region descriptor (Table 12-1). -/
def rgnF (s : State) (r off n : Nat) : Nat :=
  bits (rgnWord s r (off / 8) + (rgnWord s r (off / 8 + 1)) <<< 64) (8 * (off % 8)) (8 * n)

/-- Image bytes of one block of 32 parameters (R316). -/
def imgBytes (fmt : Nat) : Nat := if fmt = 1 ∨ fmt = 2 then 64 else blockBytes fmt

/-- The region's version entry is in double mode (Table 11-4). -/
def rgnDouble (s : State) (r : Nat) : Bool :=
  rbit s (R.RGN_CFG (r / 4096)) F.RGN_CFG_EXPERT && rbit s (R.RGNV_STATE (r / 4096) (r % 4096)) F.RGNV_STATE_DOUBLE

/-- Expert level of an Ablation Unit. -/
def ablExpert (s : State) (st : Nat) : Bool := rbit s (R.ABL_CTL st) F.ABL_CTL_EXPERT

/-- An EMPTY skips its region (Table 12-4). -/
def skipEmpty (s : State) (st : Nat) : Bool := !ablExpert s st || rbit s (R.ABL_CTL st) F.ABL_CTL_SKIP_EMPTY

/-- Element lines of one block of an Ablation command, in 64ths (Table 12-5). -/
def ablLines (s : State) (c : DWord) : Nat :=
  let f (o n : Nat) := bits c.toNat (8 * o) (8 * n)
  let r := f 4 2
  let img := imgBytes (rgnF s r 0x34 1)
  let apply := 128 + img + (if f 0 1 = 0 ∧ f 2 1 = 0 then (if f 6 1 = 1 then 64 else 128) else 0) +
    (if f 1 1 = 1 then 256 - (if bit (f 3 1) 1 then 128 else 0) else 0)
  if f 0 1 = 0 then apply
  else if f 0 1 = 2 then 64 + img
  else if skipEmpty s (r / 4096) then (if rgnDouble s r then 64 + img else 0) else apply

/-- The Ablation commands of an UPDATE. -/
def updCmds (c : Cmd) : List DWord :=
  (List.range ((cF c 2 2 - 1) / 4)).map (fun i => BitVec.ofNat 512 (cF c (16 + 64 * i) 64))

/-- A group's elements are BF16 (Table 13-9). -/
def grpBf16 (s : State) (g : Nat) : Bool := bit (rraw s (R.GRP g 2)) 57

/-- Silicon estimate of a command other than LAUNCH in fJ (Table 14-2). -/
def siliconEst (s : State) (c : Cmd) : Nat :=
  if cmdOp c = opCollective then
    (if bit (cF c 0x13 1) 0 then 0
      else cF c 0x28 4 * (if grpBf16 s (cF c 0x10 2) then 2 else 4) * coef s 14)
  else if cmdOp c = opUpdate then
    (updCmds c).foldl (fun a d =>
      a + rgnF s (bits d.toNat 32 16) 0x28 4 * (ablLines s d * coef s 9 + 64 * coef s 13)) 0 / 64
  else if cmdOp c = opCopy then ceilDiv (cF c 0x20 8) 64 * 2 * coef s 9
  else if cmdOp c = opPrefetch ∧ cF c 0x10 1 = 0 then cF c 0x12 2 * 7 * 32768 * (coef s 9 + coef s 11)
  else 0

/-- Stacks an UPDATE names. -/
def updStacks (c : Cmd) : List Nat := ((updCmds c).map (fun d => bits d.toNat 32 16 / 4096)).dedup

/-- The estimate Ê of a command at divider index `d`, and that estimate without the tag factor (R388 to R390). -/
def estimate (s : State) (c : Cmd) (d : Nat) : Nat × Nat :=
  if cmdOp c = opLaunch then
    let b := cF c 0x28 4 * 16000 * scaleD s d * ledgRecon s / (1024 * 4096)
    (cF c 0x28 4 * 16000 * tagFactor s (cF c 0x34 4) * scaleD s d * ledgRecon s / (4096 * 1024 * 4096), b)
  else
    let e := toInput s (siliconEst s c) / 1000000
    (e, e)

/-- The estimate is zero at every divider: admitted without a ledger pass (R390). -/
def freeOfCharge (s : State) (c : Cmd) : Bool :=
  if cmdOp c = opLaunch then cF c 0x28 4 == 0 else siliconEst s c == 0

/-- The peak power P̂ of a command at divider index `d` (R388, Table 14-2). -/
def peakOf (s : State) (c : Cmd) (d : Nat) : Nat :=
  if cmdOp c = opLaunch then (estimate s c d).1 * 1000 * 68 / (max 1 (cF c 0x2C 4) * 1024 * divider d * 10)
  else if siliconEst s c = 0 then 0
  else if cmdOp c = opCollective then 160000
  else if cmdOp c = opUpdate then 50000 * (updStacks c).length
  else if cmdOp c = opCopy then 40000
  else 10000

end Sys2Proof.Machine
end

