-- ==== Sys2Proof/Machine/HostBus.lean ====
section
/-! DEFINITION. The host bus: host memory as the module reads and writes it, MSI-X, and device events (R62, R63). -/

namespace Sys2Proof.Machine

/-- Bytes of host memory. -/
def hostRd (s : State) (a n : Nat) : List Byte := (List.range n).map (fun i => mget (fun _ => 0) s.hostMem (a + i))

/-- Bytes written to host memory. -/
def hostWr (a : Nat) (l : List Byte) (s : State) : State :=
  { s with hostMem := msets (fun _ => 0) s.hostMem (l.zipIdx.map (fun p => (a + p.2, p.1))) }

/-- The message of a vector: its table entry's data written at its address. -/
def sendMsi (v : Nat) (s : State) : State :=
  hostWr (rraw s (R.MSIX_ADDR v)) (natLe 4 (rraw s (R.MSIX_DATA v))) s

/-- A vector is raised: its message goes out, or its pending bit is set while its entry is masked (R62; log entry 13). -/
def raiseVector (v : Nat) (s : State) : State :=
  if rbit s (R.MSIX_CTL v) F.MSIX_CTL_MASK then
    rput (R.MSIX_PBA (v / 64)) ((rraw s (R.MSIX_PBA (v / 64))).lor (2 ^ (v % 64))) s
  else sendMsi v s

/-- An entry is unmasked: a pending message goes out and its bit clears. -/
def unmaskVector (v : Nat) (s : State) : State :=
  if bit (rraw s (R.MSIX_PBA (v / 64))) (v % 64) ∧ !rbit s (R.MSIX_CTL v) F.MSIX_CTL_MASK then
    sendMsi v (rput (R.MSIX_PBA (v / 64)) (rraw s (R.MSIX_PBA (v / 64)) - 2 ^ (v % 64)) s)
  else s

/-- A device event: its bit of `CP_DEVEVT`, then the device-event vector (R63). -/
def deviceEvent (f : Fld) (s : State) : State :=
  let s := rset R.CP_DEVEVT f 1 s
  raiseVector (rget s R.CP_CFG F.CP_CFG_DEVIRQ_VEC) s

end Sys2Proof.Machine
end

