-- ==== Sys2Proof/Machine/Queue.lean ====
section
/-! DEFINITION. Host queues: rings, states, fetching and checking commands, eligibility, dispatch and completion records
(R44 to R63, R506 to R508). -/

namespace Sys2Proof.Machine

def qDisabled : Nat := 0
def qRunning : Nat := 1
def qStopped : Nat := 2
def qDraining : Nat := 3

def qState (s : State) (q : QIdx) : Nat := rget s (R.QSTAT q.toNat) F.QSTAT_STATE

def setQState (q : QIdx) (v : Nat) (s : State) : State := rset (R.QSTAT q.toNat) F.QSTAT_STATE v s

def qExpert (s : State) (q : QIdx) : Bool := rbit s (R.QCFG q.toNat) F.QCFG_EXPERT

def sqSize (s : State) (q : QIdx) : Nat := 2 ^ rget s (R.QCFG q.toNat) F.QCFG_SQ_LOG2
def cqSize (s : State) (q : QIdx) : Nat := 2 ^ rget s (R.QCFG q.toNat) F.QCFG_CQ_LOG2

def cqTail (s : State) (q : QIdx) : Nat := rget s (R.QCQ_TAIL q.toNat) F.QCQ_TAIL_TAIL

/-- Free completion entries (R47): the ring size less one, less the records not released, less the reservations. -/
def cqFree (s : State) (q : QIdx) : Nat :=
  let h := s.queue q
  cqSize s q - 1 - (cqTail s q + cqSize s q - h.cqHead) % cqSize s q - (h.cmds.filter (·.reserved)).length

/-- No completion entry may be taken: none is free, or the queue halted for want of one and the host has not advanced
`QCQ_DB.HEAD` since (R47). -/
def cqHalted (s : State) (q : QIdx) : Bool := rbit s (R.QSTAT q.toNat) F.QSTAT_CQ_FULL || cqFree s q == 0

/-- A command leaves its queue: the first with its SEQ. -/
def dropCmd (q : QIdx) (seq : W32) (s : State) : State :=
  s.modQueue q (fun h => { h with cmds := h.cmds.eraseP (fun c => decide (c.seq = seq)) })

/-! ### Records, interrupts, stops -/

/-- The status of a completion record (R34, R396). -/
def finalStatus (c : Cmd) : Status :=
  match c.status with
  | some st => st
  | none => if c.stepMis then .stepMismatch else if c.deferred then .budgetDeferred else .ok

/-- The bytes of a completion record (Table 2-13). -/
def recordBytes (c : Cmd) (q : QIdx) (st : Status) (phase : Bool) (step energy kcc : Nat) : List Byte :=
  natLe 4 c.seq.toNat ++ natLe 1 st.code ++ natLe 1 (b2n phase + 2 * b2n c.deferred) ++ natLe 1 q.toNat ++
    natLe 1 (cmdOp c) ++ natLe 4 (if c.status.isSome then c.detail else c.skips) ++ natLe 4 step ++ natLe 4 energy ++
    natLe 4 kcc ++ natLe 8 c.faultAddr

/-- Host address of a completion slot. -/
def slotAddr (s : State) (q : QIdx) (slot : Nat) : Nat := (rget s (R.QCQ_BASE q.toNat) F.QCQ_BASE_ADDR) <<< 12 + 32 * slot

/-- The vector a command asks for with its record (R62). -/
def irqVec (q : QIdx) (c : Cmd) : Option Nat :=
  if bit (cF c 1 1) 2 ∧ c.badRef.isNone then some (q.toNat * 32 + cF c 1 1 / 8) else none

/-- Write a record at `QCQ_TAIL` and advance it; PHASE inverts when it wraps (R47, R61). The mirror keeps it, with the vector it
raises, until the host releases it (R65); `stops` says that it stops the queue. -/
def writeRecord (q : QIdx) (c : Cmd) (st : Status) (stops : Bool) (step energy kcc : Nat) (s : State) : State :=
  let tail := cqTail s q
  let b := recordBytes c q st (s.queue q).phase step energy kcc
  let s := hostWr (slotAddr s q tail) b s
  let s := s.modQueue q (fun h => { h with
    recs := h.recs ++ [(tail, b, if (irqVec q c).isSome ∨ stops = false then irqVec q c else some (q.toNat * 32))] })
  let s := rset (R.QCQ_TAIL q.toNat) F.QCQ_TAIL_TAIL ((tail + 1) % cqSize s q) s
  if tail + 1 = cqSize s q then s.modQueue q (fun h => { h with phase := !h.phase }) else s

/-- The interrupt a command asks for (R62). -/
def cmdIrq (q : QIdx) (c : Cmd) (s : State) : State :=
  match irqVec q c with
  | some v => raiseVector v s
  | none => s

/-- Candidates of a queue that leaves RUNNING wait for dispatch again, their timers discarded (Table 14-3). -/
def unCandidate (q : QIdx) (s : State) : State :=
  s.modQueue q (fun h => { h with cmds := h.cmds.map (fun c =>
    match c.phase with
    | .candidate => { c with phase := .waiting, wait := 0 }
    | _ => c) })

/-- A record with a code that stops the queue was written: the stop vector, CMD_FAULT, and STOPPED with `QERR_SEQ` from RUNNING
(R33, R46, R62). -/
def stopQueue (q : QIdx) (seq : W32) (s : State) : State :=
  let s := raiseVector (q.toNat * 32) (rset (R.QSTAT q.toNat) F.QSTAT_CMD_FAULT 1 s)
  let s := s.modQueue q (fun h => { h with stops := h.stops ++ [seq] })
  if qState s q = qRunning then
    unCandidate q (setQState q qStopped (rput (R.QERR_SEQ q.toNat) seq.toNat s))
  else s

/-- A command completes: its record when one is due, its interrupt, the queue's stop, its reservations released (R47, R60,
R62). `energy` and `kcc` are what the ledger measured. -/
def completeCmd (q : QIdx) (c : Cmd) (energy kcc : Nat) (s : State) : State :=
  let st := finalStatus c
  let s := dropCmd q c.seq s
  let op := cmdOp c
  let s := if bit (cF c 1 1) 1 || c.badRef.isSome || st.stops || op == opWait || op == opStepBegin || op == opStepEnd then
      cmdIrq q c (writeRecord q c st st.stops c.step.toNat energy kcc s)
    else s
  if st.stops then stopQueue q c.seq s else s

/-! ### Fetching (R45, R48, R49, R508) -/

/-- `n` bytes of a command buffer in a space, as the command processor reads them: host memory, or local memory where R23 and
R288 let it. -/
def cpRead (space a n : Nat) (s : State) : Status × List Byte × State :=
  if space = 0 then (.ok, hostRd s a n, s) else localRead ((List.range n).map (a + ·)) s

/-- Reserved bytes of a command are zero. -/
def zeros (c : Cmd) (off n : Nat) : Bool := (c.bytes.drop off).take n |>.all (· == 0)

/-- The body of a LAUNCH holds no reserved encoding (R57). -/
def launchOk (c : Cmd) : Bool :=
  let k := cF c 0x32 1
  decide (cF c 0x30 1 ≤ 7) && decide (cF c 0x31 1 ≤ 3) && decide (k ≤ 2) && cF c 0x33 1 == 0 &&
  decide (cF c 0x10 8 < 2 ^ 48) && decide (cF c 0x18 8 < 2 ^ 48) &&
  (if k = 1 then cF c 0x38 8 % 64 == 0
    else zeros c 0x3C 4 && decide (0 < cF c 0x3A 1) && decide (0 < cF c 0x3B 1) &&
      decide (cF c 0x38 1 + cF c 0x3A 1 ≤ 64) && decide (cF c 0x39 1 + cF c 0x3B 1 ≤ 32))

/-- The body of a COLLECTIVE holds no reserved or out-of-range field (R370, Table 13-13). -/
def collectiveOk (c : Cmd) : Bool :=
  let f := cF c 0x13 1
  decide (cF c 0x10 2 < 4096) && decide (cF c 0x12 1 ≤ 3) && decide (f < 4) && (!bit f 1 || cF c 0x12 1 == 0) &&
  cF c 0x18 8 % 64 == 0 && cF c 0x20 8 % 64 == 0 && (!bit f 0 || cF c 0x18 8 == 0) && (!bit f 1 || cF c 0x20 8 == 0) &&
  decide (1 ≤ cF c 0x28 4 ∧ cF c 0x28 4 ≤ 2 ^ 31) && decide (cF c 0x2C 2 < 16384) && (bit f 1 || cF c 0x2E 1 == 0) &&
  zeros c 0x2F 17 && decide (cF c 0x18 8 < hbmTop) && decide (cF c 0x20 8 < hbmTop)

/-- The body of an EXPERT_PREFETCH holds no reserved field (R285, Table 10-12). -/
def prefetchOk (c : Cmd) : Bool :=
  let n := cF c 0x12 2
  decide (cF c 0x10 1 ≤ 3) && decide (cF c 0x11 1 < 2) && decide (1 ≤ n ∧ n ≤ 4096) && zeros c 0x14 12 &&
  cF c 2 2 == 2 + ceilDiv (2 * n) 16 && ((c.bytes.drop (0x20 + 2 * n)).all (· == 0xFF))

/-- A whole command may run (R49, R51, Table 2-10): opcode, length, and the reserved parts of its body. -/
def cmdOk (c : Cmd) : Bool :=
  let len := cF c 2 2
  let op := cF c 0 1
  if op = opNop then len == 1
  else if op = opLaunch then len == 8 && launchOk c
  else if op = opCollective then len == 4 && collectiveOk c
  else if op = opUpdate then len % 4 == 1 && decide (5 ≤ len ∧ len ≤ 1 + 4 * 1024)
  else if op = opCopy then
    len == 3 && decide (cF c 0x28 1 ≤ 1) && decide (cF c 0x29 1 ≤ 1) && zeros c 0x2A 6
  else if op = opSignal ∨ op = opWait then len == 2 && decide (cF c 0x10 2 ≤ 255) && zeros c 0x12 2 && zeros c 0x18 8
  else if op = opStepBegin then len == 3 && zeros c 0x2C 4
  else if op = opStepEnd then len == 2 && zeros c 0x14 4
  else if op = opPrefetch then prefetchOk c
  else if op = opChain then len == 2 && decide (cF c 0x1C 1 ≤ 1) && zeros c 0x1D 3
  else false

/-- The tiles of a launch's set, enabled or not, in ascending ID. -/
def setTiles (c : Cmd) : List Nat :=
  if cF c 0x32 1 = 1 then (List.range 2048).filter (fun t => bit (leNat c.bitmap) t)
  else
    let x0 := cF c 0x38 1
    let y0 := cF c 0x39 1
    let w := cF c 0x3A 1
    let h := cF c 0x3B 1
    (List.range 2048).filter (fun t =>
      let u : TileId := BitVec.ofNat 11 t
      decide (x0 ≤ tileX u ∧ tileX u < x0 + w ∧ y0 ≤ tileY u ∧ tileY u < y0 + h))

/-- The four tiles of the quad a tile lies in, north-west first, then north-east, south-west and south-east (R199). -/
def quadOf (t : TileId) : List TileId :=
  let x := tileX t / 2 * 2
  let y := tileY t / 2 * 2
  [tileAt x y, tileAt (x + 1) y, tileAt x (y + 1), tileAt (x + 1) (y + 1)]

/-- The tiles a launch runs on (R57, R58): the enabled tiles of its set, or the complete quads of kind 2. -/
def runTiles (s : State) (c : Cmd) : List Nat :=
  (setTiles c).filter (fun t =>
    let u : TileId := BitVec.ofNat 11 t
    s.enabled u && (cF c 0x32 1 != 2 || (quadOf u).all s.enabled))

/-- A kind 2 rectangle with an odd field: the spec leaves its tile set undefined (R57). -/
def oddQuad (c : Cmd) : Bool :=
  cF c 0x32 1 == 2 && (cF c 0x38 1 % 2 == 1 || cF c 0x39 1 % 2 == 1 || cF c 0x3A 1 % 2 == 1 || cF c 0x3B 1 % 2 == 1)

/-- The first address of a list whose codeword cannot be used. -/
def firstUnusable (addrs : List Nat) (s : State) : Nat :=
  (addrs.find? (fun a => eccAt s (a / 32) == .uncorrectable || eccAt s (a / 32) == .poisoned)).getD 0

/-- The first address of a read that failed: one that R23 refuses, or one whose codeword cannot be used. -/
def firstFailing (addrs : List Nat) (s : State) : Nat :=
  (addrs.find? (fun a => !addrOk s a)).getD (firstUnusable addrs s)

/-- A launch as fetched: its bitmap copied, its tiles named; a bitmap that cannot be read refuses it with that status and the
failing address (R57, R60). Each quad an odd rectangle touches takes part or not as a free value has it (log entry 3). -/
def fetchLaunch (c : Cmd) (s : State) : Cmd × State :=
  if cF c 0x32 1 = 1 then
    let addrs := (List.range 256).map (cF c 0x38 8 + ·)
    let r := localRead addrs s
    if r.1 = .ok then
      let c := { c with bitmap := r.2.1 }
      ({ c with tiles := runTiles s c }, r.2.2)
    else ({ c with refused := some r.1, faultAddr := firstFailing addrs s }, r.2.2)
  else if oddQuad c then
    let f := freeWord s
    ({ c with tiles := (runTiles s c).filter (fun t => f.1.getLsbD (t % 64)) }, f.2)
  else ({ c with tiles := runTiles s c }, s)

/-- A command joins its queue. A bad buffer reference is no command fetched: the succession of SEQ goes on without it (R508). -/
def addCmd (q : QIdx) (c : Cmd) (s : State) : State :=
  s.modQueue q (fun h => { h with
    cmds := h.cmds ++ [c]
    broken := h.broken || (c.badRef.isNone && h.lastSeq.isSome && !decide (h.lastSeq = some (c.seq - 1)))
    lastSeq := if c.badRef.isSome then h.lastSeq else some c.seq
    blocked := h.blocked || c.refused.isSome || cmdOp c == opChain })

/-- A submission entry is a bad buffer reference (R508). -/
def badEntry (e : List Byte) : Bool :=
  let len := leAt e 8 4
  leAt e 0 8 % 16 != 0 || decide (len < 16) || decide (16777216 < len) || len % 16 != 0 || decide (1 < leAt e 12 1) ||
    leAt e 13 3 != 0

/-- The next submission entry is taken: a buffer to read commands from, or a refused entry (R48, R508). -/
def fetchEntry (q : QIdx) (s : State) : State :=
  let h := s.queue q
  let head := rget s (R.QSQ_HEAD q.toNat) F.QSQ_HEAD_HEAD
  if h.sqTail = head then s
  else
    let e := hostRd s ((rget s (R.QSQ_BASE q.toNat) F.QSQ_BASE_ADDR) <<< 12 + 16 * head) 16
    let s := rset (R.QSQ_HEAD q.toNat) F.QSQ_HEAD_HEAD ((head + 1) % sqSize s q) s
    if badEntry e then
      let seq := match h.lastSeq with
        | some l => l + 1
        | none => 0
      addCmd q { Cmd.fetched seq [] 0 with refused := some .aborted, badRef := some head, status := some .aborted, detail := head } s
    else s.modQueue q (fun h => { h with cursor := some ⟨leAt e 0 8, leAt e 8 4, leAt e 12 1⟩ })

/-- The next command of the buffer is read and checked (R49). A command that cannot be told from what follows it ends the buffer;
one whose header cannot be read at all is refused with the read's own status, SEQ 0 and opcode 0, and sets no BAD_CMD (DESIGN
CHOICE, log entry 21). -/
def fetchCmd (q : QIdx) (k : Cursor) (s : State) : State :=
  let r := cpRead k.space k.addr 16 s
  let s := r.2.2
  let hd := Cmd.fetched (BitVec.ofNat 32 (leAt r.2.1 4 4)) r.2.1 k.space
  let n := 16 * leAt r.2.1 2 2
  let refuse (c : Cmd) (st : Status) : Cmd := { c with refused := some st, status := some st }
  if r.1 ≠ .ok then
    addCmd q (refuse { hd with
        seq := 0, bytes := List.replicate 16 0, faultAddr := firstFailing ((List.range 16).map (k.addr + ·)) s } r.1)
      (s.modQueue q (fun h => { h with cursor := none }))
  else if n = 0 ∨ k.left < n then
    addCmd q (refuse hd .aborted) (s.modQueue q (fun h => { h with cursor := none }))
  else
    let b := cpRead k.space k.addr n s
    let s := b.2.2.modQueue q (fun h => { h with
      cursor := if k.left = n then none else some ⟨k.addr + n, k.left - n, k.space⟩ })
    if b.1 ≠ .ok then addCmd q (refuse { hd with faultAddr := firstFailing ((List.range n).map (k.addr + ·)) s } b.1) s
    else
      let c := { hd with bytes := b.2.1 }
      if !cmdOk c then addCmd q (refuse c .aborted) s
      else if cmdOp c = opLaunch then
        let p := fetchLaunch c s
        addCmd q (match p.1.refused with
          | some st => refuse p.1 st
          | none => p.1) p.2
      else addCmd q c s

/-- COMMAND_FETCH: a RUNNING queue takes its next submission entry or the next command of its buffer. -/
def execCommandFetch (q : QIdx) (s : State) : Host.Outcome State Fault Refusal :=
  .next (if qState s q = qRunning ∧ (s.queue q).blocked = false then
      match (s.queue q).cursor with
      | some k => fetchCmd q k s
      | none => fetchEntry q s
    else s)

/-! ### Eligibility (R52 to R55, R506) -/

/-- The commands a command depends on through its DEP fields. -/
def depSeqs (c : Cmd) : List W32 :=
  ((List.range 4).map (fun i => cF c (8 + 2 * i) 2)).filterMap (fun n =>
    if n = 0 then none else some (c.seq - BitVec.ofNat 32 n))

/-- A command has been handed to its unit. -/
def dispatched (c : Cmd) : Bool :=
  match c.phase with
  | .admitted | .running | .ended => true
  | _ => false

/-- The commands of a queue fetched before one. -/
def earlier (h : HostQueue) (c : Cmd) : List Cmd := h.cmds.takeWhile (fun d => !decide (d.seq = c.seq))

/-- It names, in a DEP field, a command that counts as resolved or was aborted under R506; basic level ignores DEP (R54). -/
def namesLost (s : State) (q : QIdx) (c : Cmd) : Bool :=
  qExpert s q && (depSeqs c).any (fun d => (s.queue q).lost.contains d)

/-- No earlier command keeps every later one from being dispatched: a refused one, an EVENT_WAIT, a STEP_BEGIN or a CHAIN. -/
def noFence (h : HostQueue) (c : Cmd) : Bool :=
  (earlier h c).all (fun d => d.refused.isNone && cmdOp d != opWait && cmdOp d != opStepBegin && cmdOp d != opChain)

/-- The whole tile set of a launch, the tiles it does not run on among them; for an odd kind 2 rectangle the tiles the free value
chose (R57). -/
def claimTiles (c : Cmd) : List Nat := if cmdOp c = opLaunch then (if oddQuad c then c.tiles else setTiles c) else []

/-- No tile of the command's set runs a launch (R55). -/
def tilesFree (s : State) (c : Cmd) : Bool := (claimTiles c).all (fun t => (s.tile (BitVec.ofNat 11 t)).x.launch.isNone)

/-- A launch that has been admitted and has not started is to run on one of the command's tiles. -/
def tilesClaimed (s : State) (c : Cmd) : Bool :=
  s.queues.any (fun e => e.2.cmds.any (fun d =>
    match d.phase with
    | .admitted => cmdOp d == opLaunch && d.tiles.any (fun t => (claimTiles c).contains t)
    | _ => false))

/-- The queue of an Ablation Unit that an UPDATE names is full (R322). -/
def ablFull (s : State) (c : Cmd) : Bool :=
  (updCmds c).any (fun d =>
    let l := mget (fun _ => []) s.abl (bits d.toNat 32 16 / 4096)
    decide (64 ≤ l.countP (fun j => decide (j.phase ≠ .sent))))

/-- An UPDATE is held at dispatch: by a full queue (R322), or by the commit gate (R440). -/
def gated (s : State) (c : Cmd) : Bool :=
  cmdOp c == opUpdate && ablFull s c || cmdOp c == opUpdate && rbit s R.FIRN_CTL F.FIRN_CTL_EXPERT && rbit s R.FIRN_CTL F.FIRN_CTL_GATE &&
    decide (rget s R.FIRN_COMMIT F.FIRN_COMMIT_STEP < cF c (0x10 + 8) 4)

/-- The command is the oldest of the queue that has not completed, or lies within the first LOOKAHEAD + 1 commands after it (R55);
where the succession of SEQ is broken the commands at hand are counted. -/
def inWindow (s : State) (q : QIdx) (c : Cmd) : Bool :=
  let h := s.queue q
  let after := if h.broken then (earlier h c).length else (c.seq - (h.cmds.headD c).seq).toNat
  decide (after ≤ rget s (R.QCFG q.toNat) F.QCFG_LOOKAHEAD + 1)

/-- A NOP or a CHAIN takes effect in queue order: every earlier command has been dispatched (R53). -/
def inOrder (h : HostQueue) (c : Cmd) : Bool :=
  if cmdOp c = opNop ∨ cmdOp c = opChain then (earlier h c).all dispatched else true

/-- The command's dependences are met: at basic level, and with BARRIER, every earlier command has completed; at expert level
the ones its DEP fields name, inside the window. A queue whose SEQ succession was broken has none that the spec defines: a
free value stands for them, but its oldest command never waits, so that the queue does not hang (R50). -/
def depsMet (s : State) (q : QIdx) (c : Cmd) : Bool :=
  let h := s.queue q
  if qExpert s q then
    inWindow s q c && inOrder h c &&
    (if bit (cF c 1 1) 0 then (earlier h c).isEmpty
      else if h.broken then (earlier h c).isEmpty || (Config.freeWord s.freeCtr).getLsbD 0
      else (depSeqs c).all (fun d => !h.cmds.any (fun e => e.seq == d)))
  else (earlier h c).isEmpty

/-- The command may be dispatched or become a candidate (R54, R55). -/
def eligible (s : State) (q : QIdx) (c : Cmd) : Bool :=
  qState s q == qRunning && c.refused.isNone && noFence (s.queue q) c && depsMet s q c && tilesFree s c &&
    !tilesClaimed s c && !gated s c

/-! ### Dispatch (R47, R423) -/

/-- Stacks a COPY names in local space: those its ranges touch. -/
def copyStacks (c : Cmd) : List Nat :=
  let r (a n : Nat) : List Nat := (List.range 16).filter (fun k => decide (a < (k + 1) * 2 ^ 36 ∧ k * 2 ^ 36 < a + n))
  (if cF c 0x28 1 = 1 then r (cF c 0x10 8) (cF c 0x20 8) else []) ++
    (if cF c 0x29 1 = 1 then r (cF c 0x18 8) (cF c 0x20 8) else [])

/-- A part that the command needs is not ON, or drains (R423, Table 12-6). -/
def needsDrained (s : State) (c : Cmd) : Bool :=
  if cmdOp c = opLaunch then
    (setTiles c).any (fun t =>
      let u : TileId := BitVec.ofNat 11 t
      s.enabled u && (!s.domOn (16 + tileDie u) || s.tileDraining u))
  else if cmdOp c = opUpdate then
    (updStacks c).any (fun k => !s.domOn (48 + k) || rget s (R.ABL_STATUS k) F.ABL_STATUS_STATE != 0)
  else if cmdOp c = opCopy then (copyStacks c).any (fun k => !s.domOn (48 + k))
  else if cmdOp c = opCollective then !s.domOn (6 + cF c 0x10 2 % 4)
  else false

/-- An admitted launch takes its tiles: a candidate that wants one of them waits for dispatch again (Table 14-3). -/
def takeTiles (tiles : List Nat) (s : State) : State :=
  (s.queues.map (·.1)).foldl (fun s q => s.modQueue (BitVec.ofNat 6 q) (fun h => { h with
    cmds := h.cmds.map (fun c =>
      match c.phase with
      | .candidate => if (claimTiles c).any (fun t => tiles.contains t) then { c with phase := .waiting, wait := 0 } else c
      | _ => c) })) s

/-- A command is dispatched with its estimate at a divider: its completion entry is reserved, it takes the queue's step and
routing epoch, and it ends DRAINING without running where R423 says so. With no free entry CQ_FULL is set (R47). -/
def dispatchCmd (q : QIdx) (c : Cmd) (deferred : Bool) (d : Nat) (s : State) : State :=
  if cqHalted s q then rset (R.QSTAT q.toNat) F.QSTAT_CQ_FULL 1 s
  else
    let h := s.queue q
    let e := estimate s c d
    let c' := { c with
      phase := .admitted, reserved := true, step := h.step, epoch := h.epoch, deferred := deferred
      div := if cmdOp c = opLaunch then cF c 0x31 1 else 3
      est := e.1, baseEst := e.2, peak := peakOf s c 0 }
    let c' := if needsDrained s c then { c' with phase := .ended, status := some .draining } else c'
    takeTiles c'.tiles (s.modCmd q c.seq (fun _ => c'))

/-- The step in a command's own record: the step that a STEP_BEGIN begins, else the one in force in its queue (Table 2-13). -/
def ownStep (s : State) (q : QIdx) (c : Cmd) : W32 :=
  if cmdOp c = opStepBegin ∧ 20 ≤ c.bytes.length then BitVec.ofNat 32 (cF c 0x10 4) else (s.queue q).step

/-- The undispatched command at hand names a resolved one: it completes ABORTED without running, and its record does not stop
the queue and raises an interrupt only as its own IRQ gives (R506). -/
def abortLost (q : QIdx) (c : Cmd) (s : State) : State :=
  if cqHalted s q then rset (R.QSTAT q.toNat) F.QSTAT_CQ_FULL 1 s
  else
    let c := { c with status := some .aborted }
    let step := ownStep s q c
    let s := dropCmd q c.seq s
    let s := s.modQueue q (fun h => { h with lost := h.lost ++ [c.seq] })
    cmdIrq q c (writeRecord q c .aborted false step.toNat 0 0 s)

/-- An earlier command of the queue is still to be aborted under R506: their records come in queue order. -/
def lostBefore (s : State) (q : QIdx) (c : Cmd) : Bool :=
  (earlier (s.queue q) c).any (fun d => d.refused.isNone && !dispatched d && namesLost s q d)

/-- COMMAND_DISPATCH: a waiting command that is eligible becomes a candidate of the ledger, or is admitted at once when its
estimate is zero (R390, R394); one that R506 names is aborted. `raced` names the local addresses that the command will share,
unordered, with something else while it runs (R31, R39, R102; log entry 53). -/
def execCommandDispatch (q : QIdx) (seq : W32) (raced : List Nat) (s : State) : Host.Outcome State Fault Refusal :=
  .next (match s.cmd q seq with
    | some c =>
      match c.phase with
      | .waiting =>
        if qState s q = qRunning ∧ c.refused.isNone ∧ noFence (s.queue q) c ∧ namesLost s q c then
          (if lostBefore s q c then s else abortLost q c s)
        else if eligible s q c then
          (if freeOfCharge s c then dispatchCmd q { c with raced := raced } false 0 s
            else if cqHalted s q then rset (R.QSTAT q.toNat) F.QSTAT_CQ_FULL 1 s
            else s.modCmd q seq (fun c => { c with phase := .candidate, wait := 0, raced := raced }))
        else s
      | _ => s
    | none => s)

/-- REFUSED_COMMAND_STOP: every earlier command of the queue has been dispatched; the refused command's record is written, BAD_CMD
set and the queue stopped (R49, R508). Its record waits for a completion entry as any does. -/
def execRefusedCommandStop (q : QIdx) (s : State) : Host.Outcome State Fault Refusal :=
  .next (match (s.queue q).cmds.find? (fun c => c.refused.isSome) with
    | some c =>
      if qState s q = qRunning ∧ (earlier (s.queue q) c).all dispatched then
        (if cqHalted s q then rset (R.QSTAT q.toNat) F.QSTAT_CQ_FULL 1 s
          else
            let bad := decide (c.refused = some .aborted)
            let s := s.modQueue q (fun h => { h with blocked := false })
            let s := if bad then rset (R.QSTAT q.toNat) F.QSTAT_BAD_CMD 1 s else s
            completeCmd q { c with step := ownStep s q c } 0 0 s)
      else s
    | none => s)

/-! ### Queue states (Table 2-7, R507) -/

/-- The fields of `QCFG` that a host write changes in the queue's state (R507). -/
def writeQcfg (q : QIdx) (v : Nat) (s : State) : State :=
  let o := R.QCFG q.toNat
  let s := rset o F.QCFG_LOOKAHEAD (bits v 14 5) (rset o F.QCFG_EXPERT (bits v 2 1) s)
  if qState s q = qDisabled then rset o F.QCFG_CQ_LOG2 (bits v 9 5) (rset o F.QCFG_SQ_LOG2 (bits v 4 5) s) else s

/-- The candidates of a queue that are no longer eligible wait for dispatch again: a change of EXPERT or LOOKAHEAD applies to every
command not yet dispatched (R507). -/
def recheck (q : QIdx) (s : State) : State :=
  s.modQueue q (fun h => { h with cmds := h.cmds.map (fun c =>
    match c.phase with
    | .candidate => if eligible s q c then c else { c with phase := .waiting, wait := 0 }
    | _ => c) })

/-- EN = 1 acts on a DISABLED queue. -/
def enableQueue (q : QIdx) (s : State) : State :=
  let a := rget s (R.QCFG q.toNat) F.QCFG_SQ_LOG2
  let b := rget s (R.QCFG q.toNat) F.QCFG_CQ_LOG2
  if 6 ≤ a ∧ a ≤ 16 ∧ 6 ≤ b ∧ b ≤ 16 then
    let s := { s with queues := mset (fun _ => HostQueue.reset) s.queues q.toNat HostQueue.reset }
    let s := rput (R.QCQ_TAIL q.toNat) 0 (rput (R.QSQ_HEAD q.toNat) 0 s)
    rset (R.QCFG q.toNat) F.QCFG_EN 1 (rset (R.QSTAT q.toNat) F.QSTAT_CQ_FULL 0 (setQState q qRunning s))
  else rset (R.QSTAT q.toNat) F.QSTAT_CFG_ERR 1 (rset (R.QCFG q.toNat) F.QCFG_EN 0 s)

/-- EN = 0 acts on a RUNNING or STOPPED queue: DRAINING. -/
def disableQueue (q : QIdx) (s : State) : State :=
  unCandidate q (setQState q qDraining (rset (R.QCFG q.toNat) F.QCFG_EN 0 s))

/-- RESUME on a STOPPED queue (R506): the stopped commands are resolved, and the fetched ones that name them, or one already
aborted so, complete ABORTED in queue order as far as completion entries are free. -/
def resumeQueue (q : QIdx) (s : State) : State :=
  let s := s.modQueue q (fun h => { h with lost := h.lost ++ h.stops, stops := [] })
  let s := setQState q qRunning s
  (s.queue q).cmds.foldl (fun s c =>
    match c.phase with
    | .waiting => if c.refused.isNone && namesLost s q c then abortLost q c s else s
    | _ => s) s

/-- A host write of `QCFG` (Table 2-7, R507). While PEND_EN holds an enable, EN goes on reading 0 (DESIGN CHOICE, log entry 57). -/
def qcfgWrite (q : QIdx) (v : Nat) (s : State) : State :=
  let s := recheck q (writeQcfg q v s)
  let k := qState s q
  let en := bit v 0
  if k = qDisabled then (if en then enableQueue q s else s)
  else if k = qDraining then rset (R.QSTAT q.toNat) F.QSTAT_PEND_EN (b2n en) s
  else if !en then disableQueue q s
  else if k = qStopped ∧ bit v 1 then resumeQueue q s
  else s

/-- QUEUE_ENABLE: the host writes `QCFG` with EN = 1. -/
def execQueueEnable (q : QIdx) (cfg : BitVec 32) (s : State) : Host.Outcome State Fault Refusal :=
  .next (hostWrite (hostCtl s) (qcfgWrite q (cfg.toNat / 4 * 4 + 1)) s)

/-- QUEUE_DISABLE: the host writes `QCFG` with EN = 0. -/
def execQueueDisable (q : QIdx) (cfg : BitVec 32) (s : State) : Host.Outcome State Fault Refusal :=
  .next (hostWrite (hostCtl s) (qcfgWrite q (cfg.toNat / 2 * 2)) s)

/-- QUEUE_RESUME: the host writes `QCFG` with RESUME = 1. -/
def execQueueResume (q : QIdx) (cfg : BitVec 32) (s : State) : Host.Outcome State Fault Refusal :=
  .next (hostWrite (hostCtl s) (qcfgWrite q (cfg.toNat ||| 2)) s)

/-- QUEUE_DRAIN_DONE: the last dispatched command has written its record; DISABLED, then PEND_EN acts (Table 2-7). -/
def execQueueDrainDone (q : QIdx) (s : State) : Host.Outcome State Fault Refusal :=
  .next (if qState s q = qDraining ∧ (s.queue q).cmds.all (fun c => !dispatched c) then
      let s := s.modQueue q (fun h => { h with cmds := [], cursor := none, blocked := false })
      let s := setQState q qDisabled s
      if rbit s (R.QSTAT q.toNat) F.QSTAT_PEND_EN then
        enableQueue q (rset (R.QSTAT q.toNat) F.QSTAT_PEND_EN 0 s)
      else s
    else s)

/-- A write of `QSQ_DB` (R45, Table 2-7): held on HIO0, ignored while DISABLED. -/
def sqDoorbell (q : QIdx) (v : Nat) (s : State) : State :=
  if qState s q = qDisabled then rset (R.QSTAT q.toNat) F.QSTAT_DB_DISABLED 1 s
  else s.modQueue q (fun h => { h with sqTail := v % sqSize s q })

/-- A write of `QCQ_DB`: the host releases records; when it advances HEAD the queue may dispatch again (R47). -/
def cqDoorbell (q : QIdx) (v : Nat) (s : State) : State :=
  if qState s q = qDisabled then rset (R.QSTAT q.toNat) F.QSTAT_DB_DISABLED 1 s
  else
    let n := cqSize s q
    let h := v % n
    let left := (cqTail s q + n - h) % n
    let s' := s.modQueue q (fun k => { k with
      cqHead := h, recs := k.recs.filter (fun r => decide ((r.1 + n - h) % n < left)) })
    if h = (s.queue q).cqHead then s' else rset (R.QSTAT q.toNat) F.QSTAT_CQ_FULL 0 s'

/-- SQ_DOORBELL. -/
def execSqDoorbell (q : QIdx) (tail : BitVec 16) (s : State) : Host.Outcome State Fault Refusal :=
  .next (hostWrite 3 (sqDoorbell q tail.toNat) s)

/-- CQ_DOORBELL. -/
def execCqDoorbell (q : QIdx) (head : BitVec 16) (s : State) : Host.Outcome State Fault Refusal :=
  .next (hostWrite 3 (cqDoorbell q head.toNat) s)

/-- The expert IDs of a prefetch. -/
def prefetchIds (c : Cmd) : List Nat := (List.range (cF c 0x12 2)).map (fun i => cF c (0x20 + 2 * i) 2)

/-- What a waiting prefetch waits for: every named expert RESIDENT, or RESTING or held; a FAULTED one is waited for no longer
(R286). -/
def prefetchOver (s : State) (c : Cmd) : Bool :=
  cmdOp c == opPrefetch && (prefetchIds c).all (fun e =>
    let r := resOf s e
    if cF c 0x10 1 = 0 then r == resNone || r == resResident || r == resFaulted
    else r == resNone || r == resResting || r == resFaulted || s.exd.heldEvict.contains e)

/-- A waiting prefetch ends: a FAULTED expert ends it with the status of its fetch (R286). -/
def prefetchEnd (s : State) (c : Cmd) : Cmd :=
  match (prefetchIds c).find? (fun e => resOf s e == resFaulted) with
  | some e => { c with status := some ((mfind s.exd.faults e).getD .faultEcc), detail := c.skips }
  | none => c

/-- COMMAND_COMPLETE: a command other than LAUNCH whose work has ended completes (R60). `energy` is its used energy in nJ since
the last tick, `kcc` its duration in units of 1,024 cc at ÷4. -/
def execCommandComplete (q : QIdx) (seq : W32) (energy kcc : BitVec 32) (s : State) : Host.Outcome State Fault Refusal :=
  .next (match s.cmd q seq with
    | some c =>
      match c.phase with
      | .ended =>
        if cmdOp c = opLaunch ∧ c.status ≠ some .draining ∧ c.tiles ≠ [] then s
        else completeCmd q c ((c.used + energy.toNat) / 16000) kcc.toNat s
      | .running =>
        if prefetchOver s c then completeCmd q (prefetchEnd s c) ((c.used + energy.toNat) / 16000) kcc.toNat s else s
      | _ => s
    | none => s)

/-- The command at hand runs: it has been admitted and carries the opcode. -/
def runCmd (q : QIdx) (seq : W32) (op : Nat) (body : Cmd → State → State) (s : State) : Host.Outcome State Fault Refusal :=
  .next (match s.cmd q seq with
    | some c =>
      match c.phase with
      | .admitted => if cmdOp c = op then body c s else s
      | _ => s
    | none => s)

/-- A command's work ends, with what was reported for it. -/
def endCmd (q : QIdx) (seq : W32) (s : State) : State := s.modCmd q seq (fun c => { c with phase := .ended })

/-- A command's work ends with a status. -/
def endWith (q : QIdx) (seq : W32) (st : Status) (detail va : Nat) (s : State) : State :=
  endCmd q seq (cmdReport q seq st detail va s)

end Sys2Proof.Machine
end

