-- ==== Sys2Proof/Machine/Launch.lean ====
section
/-! DEFINITION. Launches on their tiles, tile reset, and the commands that act at once: NOP, COPY, events, CHAIN, prefetches
(R43, R51 to R59, R77, R286, R422, R509). -/

namespace Sys2Proof.Machine

/-! ### Launches (R56 to R59) -/

/-- The value of S1 to S13 at launch start (Table 2-12); `rank` and `count` are S10 and S11. -/
def startReg (c : Cmd) (rank count i : Nat) : Nat :=
  if i ≤ 8 then cF c (0x40 + 8 * (i - 1)) 8
  else if i = 9 then cF c 0x20 8
  else if i = 10 then rank
  else if i = 11 then count
  else if i = 12 then c.step.toNat
  else c.epoch.toNat

/-- S1 to S13 as a register file. -/
def startRegs (c : Cmd) (rank count : Nat) : Map Word :=
  msets (fun _ => 0) [] ((List.range 13).map (fun i => (i + 1, BitVec.ofNat 64 (startReg c rank count (i + 1)))))

/-- A tile's role in its quad: 0 north-west, 1 north-east, 2 south-west, 3 south-east (R199). -/
def quadRole (t : TileId) : Nat := tileX t % 2 + 2 * (tileY t % 2)

/-- Width of a quad, 2Wq (R199). -/
def quadWidth (s : State) (t : TileId) : Nat := 2 * (quadOf t).foldl (fun m u => min m (ceWidth s u)) 16

/-- S10 of a tile: its rank in the set, or its quad's (Table 2-12). -/
def startRank (c : Cmd) (t : TileId) : Nat :=
  if cF c 0x32 1 = 2 then
    let nw (u : TileId) : Nat := ((quadOf u).headD 0).toNat
    (((c.tiles.map (fun u => nw (BitVec.ofNat 11 u))).dedup).filter (fun k => decide (k < nw t))).length
  else (c.tiles.filter (fun k => decide (k < t.toNat))).length

/-- S11 of a launch: its enabled tiles, or its complete quads. -/
def startCount (c : Cmd) : Nat := if cF c 0x32 1 = 2 then c.tiles.length / 4 else c.tiles.length

/-- A tile's quad fields of `CE_STATUS` (R201): shown while a quad launch runs. -/
def setQuad (t : TileId) (quad : Bool) (s : State) : State :=
  let o := R.CE_STATUS t.toNat
  rset o F.CE_STATUS_QWIDTH (if quad then quadWidth s t else 0)
    (rset o F.CE_STATUS_QROLE (if quad then quadRole t else 0) (rset o F.CE_STATUS_QUAD (b2n quad) s))

/-- Launch start on one tile (R58, R103, R122, R123, R126, R153, R166, R262). -/
def startTile (q : QIdx) (c : Cmd) (t : TileId) (s : State) : State :=
  let n := t.toNat
  let regs := startRegs c (startRank c t) (startCount c)
  let fprog := cF c 0x18 8
  let quad := cF c 0x32 1 == 2
  let s := s.modTile t (fun k => { k with
    x := { XCore.reset with s := regs, seq := k.x.seq, launch := some (q, c.seq) }
    f := { FCore.reset with g := if fprog = 0 then k.f.g else regs }
    fixed := rbit s R.EXD_CTL F.EXD_CTL_FIXED_ORDER })
  let s := rput (R.XC_PC n) (cF c 0x10 8 / 4 * 4) (rput (R.XC_STATUS n) xcRunning s)
  let s := rput (R.XC_FAULT_PC n) 0 (rput (R.XC_FAULT n) 0 s)
  let s := rput (R.XC_WDOG n) 0 (rput (R.XC_CYCLES n) 0 (rput (R.XC_RETIRED n) 0 s))
  let s := rput (R.FC_FAULT n) 0 s
  let s := if fprog = 0 then setFState t fcIdle s
    else rput (R.FC_PC n) (fprog / 4 * 4) (rput (R.FC_STATUS n) fcRunning s)
  let s := setQuad t quad s
  rset (R.TILE_STATE n) F.TILE_STATE_STATE tsRunning s

/-- A tile has nothing outstanding: no request of its own without a final reply (R424). -/
def tileQuiet (s : State) (t : TileId) : Bool :=
  (s.tile t).xfers.isEmpty && !s.txns.any (fun e => decide (issuerTile e.2.iss = some t))

/-- Nothing that a stopped tile issued is still to take effect: no write, atomic or post, no transfer, no held post. -/
def tileSettled (s : State) (t : TileId) : Bool :=
  (s.tile t).xfers.isEmpty && (s.tile t).x.held.isEmpty &&
    !s.txns.any (fun e => decide (issuerTile e.2.iss = some t) && !decide (e.2.iss = .acked t) &&
      (match e.2.op with
      | .read _ => false
      | _ => true))

/-- LAUNCH: an admitted launch starts on its tiles, once nothing of a launch that was stopped there is still to take effect; with no
tile it does not run and ends PROTECTION (R58). -/
def execLaunch (q : QIdx) (seq : W32) (s : State) : Host.Outcome State Fault Refusal :=
  runCmd q seq opLaunch (fun c s =>
    if c.tiles = [] then endWith q seq .protection 0 0 s
    else if tilesFree s c ∧ c.tiles.all (fun t => tileSettled s (BitVec.ofNat 11 t)) then
      c.tiles.foldl (fun s t => startTile q c (BitVec.ofNat 11 t) s) (s.modCmd q seq (fun c => { c with phase := .running }))
    else s) s

/-- A tile's part of a launch has ended. -/
def tileOver (s : State) (q : QIdx) (seq : W32) (t : TileId) : Bool :=
  !decide ((s.tile t).x.launch = some (q, seq)) || xState s t == xcFaulted

/-- A tile's part of a launch has ended, and every write it made for the launch is visible (R59); a tile that runs a later launch
had settled before. -/
def tileDone (s : State) (q : QIdx) (seq : W32) (t : TileId) : Bool :=
  tileOver s q seq t &&
    (tileSettled s t || ((s.tile t).x.launch.isSome && !decide ((s.tile t).x.launch = some (q, seq))))

/-- Region requests are cancelled: an entry that holds one drops it without effect (R310). -/
def cancelReqs (mine : RgnReq → Bool) (s : State) : State :=
  let s := (s.rgns.filter (fun r => mine r && r.held)).foldl (fun s r =>
    let o := R.RGNV_STATE (r.region.toNat / 4096) (r.region.toNat % 4096)
    rset o F.RGNV_STATE_HELD (rget s o F.RGNV_STATE_HELD - 1) s) s
  { s with rgns := s.rgns.filter (fun r => !mine r) }

/-- The RGN.ACQs of a launch, held or on their way, are cancelled (R310). -/
def cancelAcqs (q : QIdx) (seq : W32) (s : State) : State :=
  cancelReqs (fun r => r.acq && decide (r.owner = some (q, seq))) s

/-- A launch that ends leaves its tile: a FAULTED core goes IDLE (Table 4-17), and no quad shows (R201). -/
def closeTile (q : QIdx) (seq : W32) (quad : Bool) (t : TileId) (s : State) : State :=
  let s := if (s.tile t).x.launch = some (q, seq) then abortTile t s else s
  if quad && (s.tile t).x.launch.isNone then setQuad t false s else s

/-- LAUNCH_COMPLETE: every X-core of the set has retired END or been stopped, and every write of its tiles is visible (R59).
`energy` and `kcc` as in COMMAND_COMPLETE. `dests` names the bytes of the launch's destinations, which its program decides: they
are undefined when the launch ends with a code that stops the queue (log entry 53). -/
def execLaunchComplete (q : QIdx) (seq : W32) (energy kcc : BitVec 32) (dests : List Nat) (s : State) :
    Host.Outcome State Fault Refusal :=
  .next (match s.cmd q seq with
    | some c =>
      match c.phase with
      | .running =>
        if cmdOp c = opLaunch ∧ c.tiles.all (fun t => tileDone s q seq (BitVec.ofNat 11 t)) then
          let s := c.tiles.foldl (fun s t => closeTile q seq (cF c 0x32 1 == 2) (BitVec.ofNat 11 t) s) s
          let st := finalStatus c
          let used := c.used + energy.toNat
          let s := if st.stops then freeBytes (dests.filter (addrOk s)) (cancelAcqs q seq s) else s
          let s := if cF c 0x34 4 ≠ 0 ∧ st.stops = false then
              { s with ledger := { s.ledger with done := s.ledger.done ++ [(cF c 0x34 4, used, c.baseEst)] } } else s
          completeCmd q c (used / 16000) kcc.toNat s
        else s
      | _ => s
    | none => s)

/-! ### Tile reset (R77, R85, R90, R422) -/

/-- A launch is stopped on account of one of its tiles: ABORTED with that tile in DETAIL, and every tile aborted. -/
def abortLaunchAt (t : TileId) (s : State) : State :=
  match (s.tile t).x.launch with
  | some (q, seq) => abortTile t (abortOthers q seq t (cmdReport q seq .aborted t.toNat 0 s))
  | none => s

/-- A tile enters DRAINING: a launch still running on it is aborted (Table 15-7). -/
def drainTile (t : TileId) (s : State) : State :=
  rset (R.TILE_STATE t.toNat) F.TILE_STATE_STATE tsDraining (abortLaunchAt t s)

/-- A tile's outstanding requests are abandoned (R424 step 4). -/
def abandonTile (t : TileId) (s : State) : State :=
  let s := { s with txns := s.txns.filter (fun e => !decide (issuerTile e.2.iss = some t)) }
  s.modTile t (fun c => { c with xfers := [] })

/-- A stopped tile drained at once: its requests that have not been served are given up, the bytes that their writes would have
reached are undefined, and the posts behind them never take effect (R64, R424). -/
def drainNow (t : TileId) (s : State) : State :=
  let cells := s.txns.flatMap (fun e =>
    if issuerTile e.2.iss = some t then
      match e.2.phase, e.2.dst, e.2.op with
      | .request, .tile u, .write cells => if winTakes s u (cells.map (·.1)) then cells.map (·.1) else []
      | .refused, .tile u, .write cells => if winTakes s u (cells.map (·.1)) then cells.map (·.1) else []
      | _, _, _ => []
    else [])
  (abandonTile t (freeBytes cells s)).modX t (fun x => { x with held := [] })

/-- Tile reset: registers but the router's counter, scratchpad, and everything its units hold (R77, R85, R90, R103, Table 6-6). -/
def resetTile (t : TileId) (s : State) : State :=
  let b := 0x8000000 + 0x10000 * t.toNat
  let orphan := rraw s (R.MESH_ORPHAN t.toNat)
  let s := rput (R.MESH_ORPHAN t.toNat) orphan (rclear b (b + 0x10000) s)
  let lo := spadAddr t 0
  { s with
    tiles := mdel s.tiles t.toNat
    mem := mclear s.mem lo (lo + spadBytes)
    ecc := mclear s.ecc (lo / 32) ((lo + spadBytes) / 32) }

/-- A write of `PDC_TILE_RST` with GO = 1 (R422). -/
def tileReset (t : TileId) (s : State) : State :=
  if rbit s R.PDC_TILE_RST F.PDC_TILE_RST_BUSY || !s.enabled t then s
  else rset R.PDC_TILE_RST F.PDC_TILE_RST_BUSY 1 (rset R.PDC_TILE_RST F.PDC_TILE_RST_TILE t.toNat (drainTile t s))

/-- TILE_RESET: the host writes `PDC_TILE_RST` with GO = 1. -/
def execTileReset (t : TileId) (s : State) : Host.Outcome State Fault Refusal :=
  .next (hostWrite 0 (tileReset t) s)

/-- TILE_RESET_DONE: the drained tile's reset ends and BUSY clears. -/
def execTileResetDone (t : TileId) (s : State) : Host.Outcome State Fault Refusal :=
  .next (if rbit s R.PDC_TILE_RST F.PDC_TILE_RST_BUSY ∧ rget s R.PDC_TILE_RST F.PDC_TILE_RST_TILE = t.toNat ∧
      tileQuiet s t = true then
      rset R.PDC_TILE_RST F.PDC_TILE_RST_BUSY 0 (resetTile t s)
    else s)

/-! ### NOP, CHAIN, events (R43, R51, R53) -/

/-- NOP. -/
def execCmdNop (q : QIdx) (seq : W32) (s : State) : Host.Outcome State Fault Refusal :=
  runCmd q seq opNop (fun _ s => endCmd q seq s) s

/-- CHAIN: fetch continues in the named buffer. -/
def execChain (q : QIdx) (seq : W32) (s : State) : Host.Outcome State Fault Refusal :=
  runCmd q seq opChain (fun c s =>
    endCmd q seq (s.modQueue q (fun h => { h with
      cursor := some ⟨cF c 0x10 8, cF c 0x18 4, cF c 0x1C 1⟩, blocked := false }))) s

/-- A synchronisation counter's value. -/
def evt (s : State) (n : Nat) : Nat := rraw s (R.EVT n)

/-- EVENT_SIGNAL: the counter rises by VALUE modulo 2^32. -/
def execEventSignal (q : QIdx) (seq : W32) (s : State) : Host.Outcome State Fault Refusal :=
  runCmd q seq opSignal (fun c s =>
    let n := cF c 0x10 2
    endCmd q seq (rput (R.EVT n) ((evt s n + cF c 0x14 4) % 2 ^ 32) s)) s

/-- EVENT_WAIT: it ends when the counter has reached VALUE, and waits otherwise. -/
def execEventWait (q : QIdx) (seq : W32) (s : State) : Host.Outcome State Fault Refusal :=
  runCmd q seq opWait (fun c s =>
    if cF c 0x14 4 ≤ evt s (cF c 0x10 2) then endCmd q seq s
    else s.modCmd q seq (fun c => { c with phase := .running })) s

/-- EVENT_WAIT_SATISFIED: a waiting EVENT_WAIT whose counter has reached VALUE ends. -/
def execEventWaitSatisfied (q : QIdx) (seq : W32) (s : State) : Host.Outcome State Fault Refusal :=
  .next (match s.cmd q seq with
    | some c =>
      match c.phase with
      | .running =>
        if cmdOp c = opWait ∧ cF c 0x14 4 ≤ evt s (cF c 0x10 2) then endCmd q seq s else s
      | _ => s
    | none => s)

/-! ### COPY (R509) -/

/-- The end of the stretch of reachable addresses that holds `a`, or `a` itself when R23 or R288 refuses it or it lies in CSR
space. -/
def reachEnd (s : State) (a : Nat) : Nat :=
  match place a with
  | .hbm _ => hbmTop
  | .spad t o => if s.enabled t then max a (a - o + spadBytes) else a
  | .moraine o =>
    if rbit s R.MOR_CTL F.MOR_CTL_EN then
      max a (morBase + (if rbit s R.MOR_CTL F.MOR_CTL_ILV then min (2 ^ 43) (2 * min (morCap s 0) (morCap s 1))
        else if o < 2 ^ 42 ∧ morCap s 0 < 2 ^ 42 then morCap s 0
        else min (2 ^ 43) (2 ^ 42 + morCap s 1)))
    else a
  | .csr _ => a
  | .none => a

/-- The first byte of a local range that may not be reached (R509). -/
def firstRefused (s : State) (a n : Nat) : Option Nat :=
  if a + n ≤ reachEnd s a ∨ n = 0 then none else some (reachEnd s a)

/-- The destination of a COPY that fails on its way is undefined (R26, R509). -/
def undefineRange (space a n : Nat) (s : State) : State :=
  let addrs := (List.range n).map (a + ·)
  if space = 1 then freeBytes addrs s
  else { s with
    hostMem := msets (fun _ => 0) s.hostMem (addrs.zipIdx.map (fun p => (p.1, Config.freeByte (s.freeCtr + p.2))))
    freeCtr := s.freeCtr + n }

/-- COPY: the ranges are checked, then BYTES move; `host` is what the host bus answers. FAULT_ADDR is the first byte refused, the
host address whose read failed, or the first byte whose codeword cannot be used (log entry 37). -/
def execCopy (q : QIdx) (seq : W32) (host : HostFault) (s : State) : Host.Outcome State Fault Refusal :=
  runCmd q seq opCopy (fun c s =>
    let src := cF c 0x10 8
    let dst := cF c 0x18 8
    let n := cF c 0x20 8
    let ss := cF c 0x28 1
    let ds := cF c 0x29 1
    let fail (st : Status) (a : Nat) (s : State) : State := endWith q seq st 0 a (undefineRange ds dst n s)
    match (if ss = 1 then firstRefused s src n else none) <|> (if ds = 1 then firstRefused s dst n else none) with
    | some a => endWith q seq .protection 0 a s
    | none =>
      let r := cpRead ss src n s
      match (if ss = 0 then host else .none) with
      | .refused a => fail .protection a.toNat s
      | .timeout a => fail .timeout a.toNat s
      | .poison a => fail .faultEcc a.toNat s
      | .none =>
        if r.1 ≠ .ok then fail r.1 (firstUnusable ((List.range n).map (src + ·)) s) r.2.2
        else if ds = 0 then endCmd q seq (hostWr dst r.2.1 r.2.2)
        else
          let cells := r.2.1.zipIdx.map (fun p => (dst + p.2, p.1))
          let w := memWrite cells r.2.2
          if w.1 = .ok then endCmd q seq w.2
          else fail w.1 (firstUnusable ((cells.map (·.1)).filter (fun a =>
            !(decide (dst ≤ a / 32 * 32) && decide (a / 32 * 32 + 32 ≤ dst + n)))) r.2.2) w.2) s

/-! ### EXPERT_PREFETCH (R285, R286) -/

/-- A prefetch command acts on every named expert that has a state, and counts the others (R286). -/
def prefetch (q : QIdx) (seq : W32) (op : Nat) (act : Nat → State → State) (s : State) : Host.Outcome State Fault Refusal :=
  runCmd q seq opPrefetch (fun c s =>
    if cF c 0x10 1 = op then
      let ids := prefetchIds c
      let skip := (ids.filter (fun e => resOf s e == resNone)).length
      let s := (ids.filter (fun e => resOf s e != resNone)).foldl (fun s e => act e s) s
      s.modCmd q seq (fun c => { c with
        skips := skip, phase := if bit (cF c 0x11 1) 0 && decide (op < 2) then .running else .ended })
    else s) s

/-- FETCH: fetches of the named experts are queued. -/
def execFetch (q : QIdx) (seq : W32) (s : State) : Host.Outcome State Fault Refusal :=
  prefetch q seq 0 (fun e s => requestFetch e false s) s

/-- EVICT: evictions of the named experts are queued. -/
def execEvict (q : QIdx) (seq : W32) (s : State) : Host.Outcome State Fault Refusal :=
  prefetch q seq 1 (fun e s => requestEvict e s) s

/-- PIN. -/
def execPin (q : QIdx) (seq : W32) (s : State) : Host.Outcome State Fault Refusal :=
  prefetch q seq 2 (fun e s => rset (R.DIR_LOCAL e) F.DIR_PINNED 1 s) s

/-- UNPIN. -/
def execUnpin (q : QIdx) (seq : W32) (s : State) : Host.Outcome State Fault Refusal :=
  prefetch q seq 3 (fun e s => rset (R.DIR_LOCAL e) F.DIR_PINNED 0 s) s

end Sys2Proof.Machine
end

