-- ==== Sys2Proof/Machine/Collective.lean ====
section
/-! DEFINITION. Collective Engines: groups, segments, the fold, and what ends a segment (R362 to R376). -/

namespace Sys2Proof.Machine

/-! ### Group descriptors (Table 13-9, R364) -/

/-- Field of a group descriptor: offset and bytes inside one 8-byte word. -/
def gF (s : State) (g off n : Nat) : Nat := bits (rraw s (R.GRP g (off / 8))) (8 * (off % 8)) (8 * n)

def gRanks (s : State) (g : Nat) : Nat := gF s g 0x00 2
def gMyRank (s : State) (g : Nat) : Nat := gF s g 0x02 2
def gEpoch (s : State) (g : Nat) : Nat := gF s g 0x04 4
def gMembersLa (s : State) (g : Nat) : Nat := gF s g 0x08 8
def gSegElems (s : State) (g : Nat) : Nat := gF s g 0x10 4
def gAlgo (s : State) (g : Nat) : Nat := gF s g 0x16 1
def gFlags (s : State) (g : Nat) : Nat := gF s g 0x17 1
def gRings2 (s : State) (g : Nat) : Bool := bit (gFlags s g) 2
def gTsegKind (s : State) (g : Nat) : Nat := gF s g 0x18 1
def gRoot (s : State) (g : Nat) : Nat := gF s g 0x1A 2
def gState (s : State) (g : Nat) : Nat := rget s (R.GRP g 6) F.GRP_STATE
def gSeq (s : State) (g : Nat) : Nat := rget s (R.GRP g 6) F.GRP_SEQ

def grIdle : Nat := 0
def grActive : Nat := 1
def grFailed : Nat := 2

def setGState (g v : Nat) (s : State) : State := rset (R.GRP g 6) F.GRP_STATE v s

/-- Bytes of a group's element. -/
def gElemBytes (s : State) (g : Nat) : Nat := if grpBf16 s g then 2 else 4

/-- A descriptor that every segment naming it refuses (R364). -/
def grpRefused (s : State) (g : Nat) : Bool :=
  let p := gRanks s g
  !bit (gFlags s g) 0 || decide (7 < gFlags s g) || gF s g 0x19 1 != 0 || gF s g 0x1C 4 != 0 || gF s g 0x20 8 != 0 ||
    gF s g 0x28 8 != 0 || p == 0 || decide (32768 < p) || decide (p ≤ gMyRank s g) || decide (p ≤ gRoot s g) ||
    gMembersLa s g % 64 != 0 || decide (hbmTop < gMembersLa s g + 2 * p) || gSegElems s g % 32 != 0 ||
    gSegElems s g == 0 || decide (2 ^ 20 < gSegElems s g * gElemBytes s g) || decide (1 < gAlgo s g) || decide (3 < gTsegKind s g) ||
    (gAlgo s g == 1 && gRings2 s g)

/-- The device IDs of a group's members, in rank order. -/
def gMembers (s : State) (g : Nat) : List Nat :=
  (List.range (gRanks s g)).map (fun r => leNat (rdBytes s (gMembersLa s g + 2 * r) 2))

/-- The engine of a group (R362). -/
def gEngine (g : Nat) : Nat := g % 4

/-- A host write of a descriptor word takes effect in IDLE or FAILED: SEQ and LAST_STATUS clear and the group is IDLE (R364). -/
def grpWrite (g k mask v : Nat) (s : State) : State :=
  if gState s g = grActive then s
  else
    let old := rraw s (R.GRP g k)
    let s := rput (R.GRP g k) (old - old.land mask + v.land mask) s
    rset (R.GRP g 6) F.GRP_SEQ 0 (rset (R.GRP g 6) F.GRP_LAST_STATUS 0 (setGState g grIdle s))

/-- GROUP_DESCRIPTOR_WRITE: 8 bytes of a group's descriptor, word 0 to 5. -/
def execGroupDescriptorWrite (g : GroupId) (k : BitVec 3) (v : BitVec 64) (s : State) : Host.Outcome State Fault Refusal :=
  .next (hostWrite (6 + gEngine g.toNat) (fun s =>
    if k.toNat < 6 then grpWrite g.toNat k.toNat (2 ^ 64 - 1) v.toNat s else s) s)

/-! ### Segments in flight (R362, R366, R367) -/

/-- SEG packets by what they name: group, SEQ and label. -/
def sgGroup (k : Packet) : Nat := pF k 0x18 2
def sgSeq (k : Packet) : Nat := pF k 0x14 4
def sgEpoch (k : Packet) : Nat := pF k 0x10 4
def sgLabel (k : Packet) : Nat := pF k 0x1A 2

/-- Segments of an engine that have not been accepted locally but whose packets it holds. -/
def earlyNames (s : State) (e : Nat) : List (Nat × Nat) :=
  ((s.earlySeg.filter (fun h => gEngine (sgGroup h.pkt) == e)).map (fun h => (sgGroup h.pkt, sgSeq h.pkt))).dedup

/-- Segments in flight of an engine (R362). -/
def segsOf (s : State) (e : Nat) : Nat :=
  (s.segs.filter (fun g => gEngine g.group.toNat == e)).length + (earlyNames s e).length

def updSegs (e : Nat) (s : State) : State := rset (R.CLE_STATUS e) F.CLE_STATUS_SEGS (segsOf s e) s

/-- Segment memory that an engine's packets fill. The spec gives a segment in flight no amount of its own: only packets whose
segment is not accepted locally are counted (log entry 29). -/
def segBytes (s : State) (e : Nat) : Nat :=
  (s.earlySeg.filter (fun h => gEngine (sgGroup h.pkt) == e)).foldl (fun n h => n + h.pkt.data.length) 0

/-- The engine can hold a packet whose segment is not accepted locally (R367). -/
def segRoom (s : State) (k : Packet) : Bool :=
  let e := gEngine (sgGroup k)
  decide (segBytes s e + k.data.length ≤ 16777216) &&
    ((earlyNames s e).contains (sgGroup k, sgSeq k) || decide (segsOf s e < 8))

/-! ### Ends of segments -/

/-- A message to another module (Table 13-6): NOTICE_EPOCH is SUB 2, NOTICE_ABORT SUB 3. -/
def sendNotice (dev sub g epoch seq : Nat) (st : Status) (s : State) : State :=
  let r := routeEntry s dev
  if bit r 31 then
    sendPkt (mkPacket pkMsg sub s.devId dev 0x7FF r 0 0 0
      (g + epoch <<< 32 + seq <<< 64 + st.code <<< 96) []) s
  else s

/-- The status of a segment reaches its owner: a COLLECTIVE counts it off, a tile's COLL instruction completes and its engine
posts FULL of LINK (R115, R116, R370, R371). -/
def segOwner (g : Seg) (st : Status) (va : Nat) (s : State) : State :=
  match g.owner with
  | .cmd q seq =>
    let s := cmdReport q seq st g.group.toNat va s
    let s := s.modCmd q seq (fun c => { c with left := c.left - 1 })
    match s.cmd q seq with
    | some c =>
      if c.left = 0 ∧ (match g.inbox with
        | some k => (mget (fun _ => []) s.inboxOut k).isEmpty
        | none => true) = true then endCmd q seq s else s
    | none => s
  | .tile t id =>
    match (s.tile t).x.units.find? (fun u => u.isColl && u.id == id) with
    | some u =>
      let s := s.modX t (fun x => { x with units := x.units.filter (fun v => !(v.isColl && v.id == id)) })
      if st = .ok then
        match u.link with
        | some k => semPost t (fullSem k) 1 s
        | none => s
      else pushFault t ⟨4, st, u.pc, va⟩ s
    | none => s

/-- A segment leaves the engine. -/
def dropSeg (g : Seg) (s : State) : State :=
  let s := { s with segs := s.segs.filter (fun h => !(h.group == g.group && h.seq == g.seq)) }
  updSegs (gEngine g.group.toNat) s

def State.ablJobs (s : State) (st : Nat) : List AblJob := mget (fun _ => []) s.abl st

def setJobs (st : Nat) (l : List AblJob) (s : State) : State := { s with abl := mset (fun _ => []) s.abl st l }

/-- Field of an Ablation command (Table 12-2). -/
def aF (c : DWord) (off n : Nat) : Nat := bits c.toNat (8 * off) (8 * n)

/-- Region of a command. -/
def aRegion (c : DWord) : Nat := aF c 4 2

/-- Key of an inbox channel of a stack. -/
def inKey (st ch : Nat) : Nat := st + 16 * ch

/-- An accepted command that takes its gradient from a channel of its stack and has not ended. -/
def onChannel (k : Nat) (j : AblJob) : Bool :=
  aF j.cmd 2 1 == 1 && aF j.cmd 7 1 == k / 16 && (match j.phase with
    | .held | .writing | .running => true
    | _ => false)

/-- The accepted commands of a channel, changed. -/
def modChannel (k : Nat) (f : AblJob → AblJob) (s : State) : State :=
  setJobs (k % 16) ((s.ablJobs (k % 16)).map (fun j => if onChannel k j then f j else j)) s

/-- The inbox channel that a failed segment fed has lost its writer: every command of the channel is to end ABORTED (R325, R372). -/
def failInbox (k : Nat) (s : State) : State :=
  let s := modChannel k (fun j => { j with lost := true }) { s with inboxOut := mdel s.inboxOut k }
  rset (R.ABL_INBOX (k % 16) (k / 16)) F.ABL_INBOX_FAILED 1 s

/-- A segment in flight ends with a status other than OK: the group is FAILED with LAST_STATUS, the engine records it, its
early packets go, and NOTICE_ABORT goes to every other member unless the end came from outside (R365, R374). -/
def segFail (g : Seg) (st : Status) (va : Nat) (notice : Bool) (s : State) : State :=
  let n := g.group.toNat
  let s := dropSeg g s
  let s := setGState n grFailed (rset (R.GRP n 6) F.GRP_LAST_STATUS st.code s)
  let s := rput (R.CLE_ERRINFO (gEngine n)) (n + 1 <<< 12 + st.code <<< 16) s
  let s := { s with earlySeg := s.earlySeg.filter (fun h => sgGroup h.pkt != n) }
  let s := match g.inbox with
    | some k => failInbox k s
    | none => s
  let s := if notice then
      ((gMembers s n).filter (fun d => d != s.devId)).foldl (fun s d => sendNotice d 3 n (gEpoch s n) g.seq st s) s
    else s
  segOwner g st va s

/-- Every segment in flight of a group ends ABORTED, without a notice. -/
def groupAbort (n : Nat) (s : State) : State :=
  let s := (s.segs.filter (fun g => g.group.toNat == n)).foldl (fun s g => segFail g .aborted 0 false s) s
  { s with earlySeg := s.earlySeg.filter (fun h => sgGroup h.pkt != n) }

/-- A segment issued by a tile that names a tensor descriptor which R152 refuses, more elements than a segment may have (R366), or a
result that does not fit D[DC]. A rank that contributes nothing has its descriptors checked all the same. -/
def segOperandsBad (s : State) (g : Seg) : Bool :=
  let n := g.group.toNat
  let refused (td : TDesc) : Bool := tdRefused (fun c => c == (if grpBf16 s n then 1 else 0)) td
  match g.owner with
  | .cmd _ _ => false
  | .tile _ _ =>
    let td := tdOf g.dc
    !g.null && (refused (tdOf g.da) || refused td || decide (gSegElems s n < g.elems) || (g.kind == 1 && g.elems % gRanks s n != 0) ||
      tExt td 0 * rowCount td !=
        (if g.kind = 1 then g.elems / gRanks s n else if g.kind = 2 then gRanks s n * g.elems else g.elems))

/-- The segment at the head of an engine's issue queue: it ends ABORTED without running where its group is FAILED or its descriptor
refused; else it is accepted, numbered and in flight. Where its operands are refused it then ends ABORTED, having read and written
nothing (R152); packets that came early must be whole (R351) and carry its label (R364 to R366). -/
def acceptSeg (g : Seg) (s : State) : State :=
  let n := g.group.toNat
  if gState s n = grFailed ∨ grpRefused s n = true then
    let s := rset (R.GRP n 6) F.GRP_LAST_STATUS Status.aborted.code s
    let s := match g.inbox with
      | some k => failInbox k s
      | none => s
    segOwner g .aborted 0 s
  else
    let g := { g with seq := gSeq s n }
    let s := rset (R.GRP n 6) F.GRP_SEQ (gSeq s n + 1) (setGState n grActive s)
    let mine := s.earlySeg.filter (fun h => sgGroup h.pkt == n && sgSeq h.pkt == g.seq)
    let s := { s with
      segs := s.segs ++ [g]
      earlySeg := s.earlySeg.filter (fun h => !(sgGroup h.pkt == n && sgSeq h.pkt == g.seq)) }
    let s := updSegs (gEngine n) s
    if segOperandsBad s g then segFail g .aborted 0 true s
    else if mine.any (·.bad) then segFail g .faultEcc 0 true s
    else if mine.all (fun h => sgLabel h.pkt == g.label) then s
    else segFail g .aborted 0 true s

/-- The first waiting segment of an engine is accepted while fewer than 8 are in flight; a segment whose packets came early
takes no new place. -/
def acceptNext (e : Nat) (s : State) : State :=
  match s.segQ.find? (fun g => gEngine g.group.toNat == e) with
  | some g =>
    let known := (earlyNames s e).contains (g.group.toNat, gSeq s g.group.toNat)
    if decide (segsOf s e < 8) || known then
      acceptSeg g { s with segQ := s.segQ.eraseP (fun h => gEngine h.group.toNat == e) }
    else s
  | none => s

/-- The segment of a group with a SEQ that is in flight. -/
def findSeg (s : State) (n seq : Nat) : Option Seg := s.segs.find? (fun g => g.group.toNat == n && g.seq == seq)

/-- A SEG packet at the engine of its group: discarded where its epoch is another or its group FAILED; checked against its segment
in flight; held where its segment is not accepted yet, or kept in its receive buffer while the engine has no room (R366, R367,
R373). Its buffer is free where the engine takes it. -/
def segStep (h : HeldPkt) (s : State) : State :=
  let k := h.pkt
  let n := sgGroup k
  let e := gEngine n
  let t := freeBuf h.inp s
  if sgEpoch k ≠ gEpoch s n then
    sendNotice k.src 2 n (sgEpoch k) (sgSeq k) .groupEpoch (rinc (R.CLE_STALE e) F.CLE_STALE_COUNT 1 t)
  else if gState s n = grFailed then t
  else
    match findSeg s n (sgSeq k) with
    | some g =>
      if h.bad then segFail g .faultEcc 0 true t
      else if sgLabel k = g.label then t
      else segFail g .aborted 0 true t
    | none =>
      if 2 ^ 31 ≤ (sgSeq k + 2 ^ 32 - gSeq s n) % 2 ^ 32 then t
      else if segRoom s k then updSegs e { t with earlySeg := t.earlySeg ++ [{ h with inp := none }] }
      else { s with waitSeg := s.waitSeg ++ [h] }

/-- Packets kept in receive buffers are handed to the engine where it can now take them (R367). -/
def takeWaiting (e : Nat) (s : State) : State :=
  (s.waitSeg.filter (fun h => gEngine (sgGroup h.pkt) == e)).foldl (fun s h => segStep h s)
    { s with waitSeg := s.waitSeg.filter (fun h => gEngine (sgGroup h.pkt) != e) }

/-- An engine accepts what it can, up to its eight segments, and takes the packets that then fit. -/
def pumpSegs : Nat → Nat → State → State
  | 0, e, s => updSegs e (takeWaiting e s)
  | k + 1, e, s => pumpSegs k e (acceptNext e s)

/-! ### Issue (R370, R371) -/

/-- The inbox channel that a COLLECTIVE feeds (Table 13-13). -/
def collInbox (c : Cmd) : Option Nat :=
  if bit (cF c 0x13 1) 1 then some (inKey (cF c 0x2E 1 % 16) (cF c 0x2E 1 / 16)) else none

/-- Segments of a COLLECTIVE, in order. -/
def collSegs (s : State) (q : QIdx) (c : Cmd) : List Seg :=
  let g := cF c 0x10 2
  let e := gSegElems s g
  let n := cF c 0x28 4
  let b := gElemBytes s g
  let kind := cF c 0x12 1
  let null := bit (cF c 0x13 1) 0
  let out := if kind = 1 then gRanks s g else 1
  (List.range (ceilDiv n e)).map (fun i =>
    ⟨BitVec.ofNat 12 g, 0, (cF c 0x2C 2 + i) % 16384, kind, .cmd q c.seq, null, min e (n - i * e),
      cF c 0x18 8 + i * e * b, cF c 0x20 8 + i * (if kind = 2 then e * gRanks s g else e / out) * b, 0, 0,
      collInbox c, none⟩)

/-- COLLECTIVE: the contribution is cut into segments, which the group's engine takes in order; another epoch than the
descriptor's ends it with GROUP_EPOCH and nothing runs. DETAIL is the group (R370). -/
def execCollective (q : QIdx) (seq : W32) (s : State) : Host.Outcome State Fault Refusal :=
  runCmd q seq opCollective (fun c s =>
    let g := cF c 0x10 2
    if gEpoch s g ≠ cF c 0x14 4 then endWith q seq .groupEpoch g 0 s
    else if grpRefused s g then
      let s := rset (R.GRP g 6) F.GRP_LAST_STATUS Status.aborted.code s
      endWith q seq .aborted g 0 (match collInbox c with
        | some k => failInbox k s
        | none => s)
    else
      let l := collSegs s q c
      let s := s.modCmd q seq (fun c => { c with phase := .running, left := l.length, skips := g })
      pumpSegs 8 (gEngine g) { s with segQ := s.segQ ++ l }) s

/-- A COLL instruction: a ninth outstanding one stalls; another epoch than S[RS]'s is an imprecise fault GROUP_EPOCH (R116,
R371). -/
def xColl (t : TileId) (rs : SReg) (grp : GroupId) (link : PairIdx) (linkEn : Bool) (label : BitVec 14)
    (mk : State → Nat → Seg) (s : State) : Host.Outcome State Fault Refusal :=
  xRun8 t (fun s =>
    if 8 ≤ ((s.tile t).x.units.filter (·.isColl)).length then .stall s
    else if gEpoch s grp.toNat ≠ (rdS s t rs).toNat % 2 ^ 32 then
      .retire (pushFault t ⟨4, .groupEpoch, xPc s t, 0⟩ s)
    else
      let id := s.txnNext
      let g := { mk s id with label := label.toNat }
      let s := { s with txnNext := id + 1, segQ := s.segQ ++ [g] }
      let s := s.modX t (fun x => { x with units := x.units ++ [⟨id, true, xPc s t, if linkEn then some link else none, true⟩] })
      .retire (pumpSegs 8 (gEngine grp.toNat) s)) s

/-- COLL.SEG. -/
def execCollSeg (t : TileId) (da dc : DReg) (rs : SReg) (grp : GroupId) (link : PairIdx) (linkEn : Bool) (seg : BitVec 14)
    (s : State) : Host.Outcome State Fault Refusal :=
  xColl t rs grp link linkEn seg (fun s id =>
    let td := tdOf (rdD s t da)
    ⟨grp, 0, 0, gTsegKind s grp.toNat, .tile t id, false, tExt td 0 * rowCount td, 0, 0, rdD s t da, rdD s t dc, none, none⟩) s

/-- COLL.NULL: a null contribution whose result is discarded. -/
def execCollNull (t : TileId) (rs : SReg) (grp : GroupId) (link : PairIdx) (linkEn : Bool) (seg : BitVec 14) (s : State) :
    Host.Outcome State Fault Refusal :=
  xColl t rs grp link linkEn seg (fun s id =>
    ⟨grp, 0, 0, gTsegKind s grp.toNat, .tile t id, true, 0, 0, 0, 0, 0, none, none⟩) s

/-! ### The fold (R368, R369) -/

/-- a ⊕ b on element codes. -/
def foldOp (bf16 : Bool) (a b : Nat) : Nat :=
  if bf16 then f32ToBf16 (f32Add (bf16ToF32 a) (bf16ToF32 b)) else f32Add a b

/-- ⊕ with absent terms: one side absent yields the other (R369). -/
def foldOpt (bf16 : Bool) : Option Nat → Option Nat → Option Nat
  | some a, some b => some (foldOp bf16 a b)
  | some a, none => some a
  | none, b => b

/-- One level of the pairwise tree over optional terms. -/
def pairOpt (bf16 : Bool) : List (Option Nat) → List (Option Nat)
  | a :: b :: l => foldOpt bf16 a b :: pairOpt bf16 l
  | l => l

/-- The tree run for a number of levels. -/
def treeOpt (bf16 : Bool) : Nat → List (Option Nat) → List (Option Nat)
  | 0, l => l
  | n + 1, l => treeOpt bf16 n (pairOpt bf16 l)

/-- The ranks in fold order for chunk `j` of a ring: j + 1, j + 2, …, j forward, j − 1, j − 2, …, j in reverse (Table 13-12). -/
def ringOrder (p j : Nat) (rev : Bool) : List Nat :=
  (List.range p).map (fun i => if rev then (j + 2 * p - 1 - i) % p else (j + 1 + i) % p)

/-- The ring of element `i` of `e`, and its chunk there (R368). For REDUCE_SCATTER the chunk is the part. -/
def chunkOf (s : State) (g kind e i : Nat) : Nat × Bool :=
  let p := gRanks s g
  let half := ceilDiv e 2
  let rev := gRings2 s g && decide (half ≤ i)
  let n := if gRings2 s g then (if rev then e - half else half) else e
  let k := if rev then i - half else i
  (if kind = 1 then i / max 1 (e / p) else k / max 1 (ceilDiv n p), rev)

/-- The folded value of element `i` of `e`, from the ranks' contributions. -/
def foldElem (s : State) (g kind e : Nat) (xs : List (Option (List Nat))) (i : Nat) : Option Nat :=
  let term (r : Nat) : Option Nat := (xs.getD r none).map (fun l => l.getD i 0)
  let bf := grpBf16 s g
  if gAlgo s g = 1 then
    ((treeOpt bf (bitLen (gRanks s g)) ((List.range (gRanks s g)).map term)).headD none)
  else
    let c := chunkOf s g kind e i
    ((ringOrder (gRanks s g) c.1 c.2).map term).foldl (foldOpt bf) none

/-- The result of a segment as elements; an absent one is null (Table 13-10). -/
def segResult (s : State) (g kind e : Nat) (xs : List (Option (List Nat))) : List (Option Nat) :=
  let p := gRanks s g
  if kind = 0 then (List.range e).map (foldElem s g 0 e xs)
  else if kind = 1 then (List.range (e / p)).map (fun k => foldElem s g 1 e xs (gMyRank s g * (e / p) + k))
  else if kind = 2 then
    (List.range (p * e)).map (fun k => (xs.getD (k / max 1 e) none).map (fun l => l.getD (k % max 1 e) 0))
  else (List.range e).map (fun k => (xs.getD (gRoot s g) none).map (fun l => l.getD k 0))

/-! ### Completion (R366, R369 to R372, R376) -/

/-- Elements of a byte list. -/
def toElems (b : Nat) (l : List Byte) : List Nat := (List.range (l.length / b)).map (fun i => leAt l (b * i) b)

/-- Rows of a tensor read one after another, their elements joined. -/
def readAll (t : TileId) (env : EngEnv) (td : TDesc) : List (Nat × Nat × Nat) → State →
    Except (Status × Nat) (List Byte) × State
  | [], s => (.ok [], s)
  | i :: is, s =>
    match readRow t unitX env td (rowAt td i.1 i.2.1 i.2.2) (stored1 td i.1) s with
    | (.error e, s1) => (.error e, s1)
    | (.ok r, s1) =>
      match readAll t env td is s1 with
      | (.error e, s2) => (.error e, s2)
      | (.ok rs, s2) => (.ok (r ++ rs), s2)

/-- The own contribution of a segment: none when it is null or when this rank gives none. -/
def ownPart (g : Seg) (env : EngEnv) (s : State) : Except (Status × Nat) (Option (List Nat)) × State :=
  let n := g.group.toNat
  let b := gElemBytes s n
  if g.null || (g.kind == 3 && gMyRank s n != gRoot s n) then (.ok none, s)
  else
    match g.owner with
    | .cmd _ _ =>
      let r := localRead ((List.range (g.elems * b)).map (g.src + ·)) s
      if r.1 = .ok then (.ok (some (toElems b r.2.1)), r.2.2) else (.error (r.1, g.src), r.2.2)
    | .tile t _ =>
      let td := tdOf g.da
      match readAll t env td (allRows td) s with
      | (.error e, s1) => (.error e, s1)
      | (.ok l, s1) => (.ok (some (toElems b l)), s1)

/-- COLLECTIVE commands that feed an inbox channel and have not ended. -/
def inboxWriters (s : State) (k : Nat) : Nat :=
  (s.queues.flatMap (fun e => e.2.cmds)).countP (fun c =>
    cmdOp c == opCollective && decide (c.phase = .running) && collInbox c == some k)

/-- The gradient of the commands of a channel is undefined: of those accepted, or of the next one (Table 12-8). -/
def spoilChannel (k : Nat) (s : State) : State :=
  if (s.ablJobs (k % 16)).any (onChannel k) then modChannel k (fun j => { j with odd := true }) s
  else { s with inboxOdd := (s.inboxOdd ++ [k]).dedup }

/-- The result written: to memory with +0 for null elements, through D[DC] for a tile, to an inbox as buffers of 32 KiB, a null
buffer where every element is null; nowhere for COLL.NULL (R369, R371, R372). -/
def putResult (g : Seg) (env : EngEnv) (out : List (Option Nat)) (s : State) : Option (Status × Nat) × State :=
  let b := gElemBytes s g.group.toNat
  let bytes (l : List (Option Nat)) : List Byte := l.flatMap (fun e => natLe b (e.getD 0))
  match g.inbox with
  | some k =>
    let per := 32768 / b
    let bufs := (List.range (ceilDiv out.length per)).map (fun i =>
      let l := (out.drop (i * per)).take per
      if l.all (·.isNone) then none else some (bytes l))
    let s := if 2 ≤ inboxWriters s k then spoilChannel k s else s
    (none, { s with inboxOut := mmod (fun _ => []) s.inboxOut k (fun o => o ++ bufs) })
  | none =>
    match g.owner with
    | .cmd _ _ =>
      let r := localWrite ((bytes out).zipIdx.map (fun p => (g.dst + p.2, p.1))) s
      (if r.1 = .ok then none else some (r.1, g.dst), r.2)
    | .tile t _ =>
      if g.null then (none, s)
      else
        let td := tdOf g.dc
        let row := tExt td 0
        let cells := ((List.range (rowCount td)).flatMap (fun i =>
          let k := rowIndex td i
          (outCells td k.1 k.2.1 k.2.2 (bytes ((out.drop (i * row)).take row))).map (fun e => (e.1, e.2.2))))
        let w := pickWrites (·.1) (fieldKey td) cells s
        engWriteX t unitX .coll env w.1 w.2

/-- The destination of a segment that fails while it writes is undefined (R26). -/
def undefineSeg (g : Seg) (n : Nat) (s : State) : State :=
  match g.inbox, g.owner with
  | none, .cmd _ _ => freeBytes ((List.range (n * gElemBytes s g.group.toNat)).map (g.dst + ·)) s
  | none, .tile t _ => if g.null then s else undefineVas t .coll (writeVas (tdOf g.dc)) s
  | some _, _ => s

/-! ### The packets of a ring (R362, R366, R368, Table 13-14) -/

/-- What rank `r` sends on a ring: chunk, whether in the GATHER phase, and elements. In the reduce phase the fold of the ranks up
to its own goes to the next rank, but for the chunk that ends with it; in the gather phase every whole chunk, but for the next
rank's own. -/
def ringSends (s : State) (g kind e : Nat) (xs : List (Option (List Nat))) (rev : Bool) : List (Nat × Bool × List (Option Nat)) :=
  let p := gRanks s g
  let r := gMyRank s g
  let next := if rev then (r + p - 1) % p else (r + 1) % p
  let at' (j i : Nat) : Nat := if rev then (j + i) % p else (j + p - i) % p
  let whole (j i : Nat) : Option Nat :=
    if kind < 2 then foldElem s g kind e xs i else (xs.getD j none).map (fun l => l.getD i 0)
  let part (j i : Nat) : Option Nat :=
    let upto := (ringOrder p j rev).take ((ringOrder p j rev).idxOf r + 1)
    (upto.map (fun q => (xs.getD q none).map (fun l => l.getD i 0))).foldl (foldOpt (grpBf16 s g)) none
  let elems (j : Nat) : List Nat := (List.range e).filter (fun i =>
    if kind < 2 then chunkOf s g kind e i == (j, rev) else (chunkOf s g 0 e i).2 == rev)
  let reduce := if kind < 2 then
      ((List.range (p - 1)).map (fun k => at' r (k + 1))).map (fun j => (j, false, (elems j).map (part j))) else []
  let gather := if kind = 1 then []
    else ((List.range (p - 1)).map (at' r)).filter (fun j => j != next && (kind != 3 || j == gRoot s g)) |>.map
      (fun j => (j, true, (elems j).map (whole j)))
  reduce ++ gather

/-- The packets of one transfer to another module: line `i` on port i mod 4, at most 64 lines in a packet; an absent chunk goes as
headers alone (R362, R369). The choice of TAG puts each on its port (R358; log entry 29). -/
def chunkPackets (s : State) (g : Seg) (dev : Nat) (rev : Bool) (c : Nat × Bool × List (Option Nat)) : List Packet :=
  let n := g.group.toNat
  let b := gElemBytes s n
  let null := c.2.2.all (·.isNone)
  let lines := ceilDiv (c.2.2.length * b) 64
  let bytes := padTo (64 * lines) (c.2.2.flatMap (fun x => natLe b (x.getD 0)))
  let args := gEpoch s n + g.seq <<< 32 + n <<< 64 + g.label <<< 80 + gMyRank s n <<< 96 + (c.1 % 256) <<< 112 +
    (b2n null + 2 * b2n rev + 4 * b2n c.2.1) <<< 120
  (List.range 4).flatMap (fun f =>
    let mine := (List.range lines).filter (fun i => i % 4 == f)
    (List.range (ceilDiv mine.length 64)).map (fun k =>
      let ls := (mine.drop (64 * k)).take 64
      let tag := (f + 4 * 2 ^ 16 - (s.devId + dev) % 4) % 4
      mkPacket pkSeg 0 s.devId dev 0x7FF (routeEntry s dev) tag (if null then 0 else ls.length) (classVc pkSeg) args
        (if null then [] else ls.flatMap (fun i => (bytes.drop (64 * i)).take 64))))

/-- The SEG packets of a segment of a RING group leave: to the next rank, and with RINGS2 to the one before (Table 13-12). -/
def sendRing (g : Seg) (e : Nat) (xs : List (Option (List Nat))) (s : State) : State :=
  let n := g.group.toNat
  let p := gRanks s n
  let ring (rev : Bool) : List Packet :=
    let dev := (gMembers s n).getD (if rev then (gMyRank s n + p - 1) % p else (gMyRank s n + 1) % p) 0
    if dev == s.devId || !bit (routeEntry s dev) 31 then []
    else (ringSends s n g.kind e xs rev).flatMap (chunkPackets s g dev rev)
  if gAlgo s n = 1 then s
  else (ring false ++ (if gRings2 s n then ring true else [])).foldl (fun s k => sendPkt k s) s

/-- A segment completes locally. -/
def segDone (g : Seg) (s : State) : State :=
  let n := g.group.toNat
  let s := rset (R.GRP n 6) F.GRP_LAST_STATUS 0 (dropSeg g s)
  let s := if gState s n = grActive ∧ !s.segs.any (fun h => h.group == g.group) then setGState n grIdle s else s
  segOwner g .ok 0 s

/-- SEGMENT_COMPLETE: segment `seq` of a group has every rank's contribution: `peers` gives the other ranks' bytes by rank, none
for a null one; `fails` how many checks of a chunk fail in a row; `memErr` an uncorrectable error in segment memory; `env` what
other modules answer for the tile's operands. -/
def execSegmentComplete (g : GroupId) (seq : BitVec 32) (peers : List (Option (List Byte))) (fails : Nat) (memErr : Bool)
    (env : EngEnv) (s : State) : Host.Outcome State Fault Refusal :=
  .next (match findSeg s g.toNat seq.toNat with
    | some k =>
      let n := g.toNat
      let e := gEngine n
      let b := gElemBytes s n
      let elems := if k.null ∧ k.elems = 0 then
          ((peers.filterMap id).headD []).length / b else k.elems
      if k.kind = 1 ∧ elems % gRanks s n ≠ 0 then pumpSegs 8 e (segFail k .aborted 0 true s)
      else
        match ownPart k env s with
        | (.error (st, va), s1) => pumpSegs 8 e (segFail k st va true (undefineSeg k elems s1))
        | (.ok own, s1) =>
          let s1 := if fails = 1 then rinc (R.CLE_RESIDUE e) F.CLE_RESIDUE_CORR 1 s1 else s1
          if memErr then pumpSegs 8 e (segFail k .faultEcc 0 true (undefineSeg k elems s1))
          else if 2 ≤ fails then
            pumpSegs 8 e (segFail k .faultResidue 0 true (undefineSeg k elems
              (alert 2 (rinc (R.CLE_RESIDUE e) F.CLE_RESIDUE_UNCORR 1 s1))))
          else
            let xs := (List.range (gRanks s n)).map (fun r =>
              if r = gMyRank s n then own else (peers.getD r none).map (toElems b))
            let s1 := sendRing k elems xs s1
            match putResult k env (segResult s1 n k.kind elems xs) s1 with
            | (some (st, va), s2) => pumpSegs 8 e (segFail k st va true (undefineSeg k elems s2))
            | (none, s2) => pumpSegs 8 e (segDone k s2)
    | none => s)

/-- SEGMENT_TIMEOUT: no progress for TIMEOUT_MS (R374). -/
def execSegmentTimeout (g : GroupId) (seq : BitVec 32) (s : State) : Host.Outcome State Fault Refusal :=
  .next (match findSeg s g.toNat seq.toNat with
    | some k =>
      let e := gEngine g.toNat
      pumpSegs 8 e (segFail k .timeout 0 true (rinc (R.CLE_TIMEOUTS e) F.CLE_TIMEOUTS_COUNT 1 s))
    | none => s)

end Sys2Proof.Machine
end

