-- ==== Sys2Proof/Machine/Region.lean ====
section
/-! DEFINITION. Regions' version entries: reader counts, held acquires, the update's turn (R302 to R312, Table 11-3). -/

namespace Sys2Proof.Machine

def rgStable : Nat := 0
def rgWait : Nat := 1
def rgWriting : Nat := 2
def rgFlip : Nat := 3

/-- The version entry of a region: its state, epoch and counts. -/
def rgnState (s : State) (r : Nat) : Nat := rget s (R.RGNV_STATE (r / 4096) (r % 4096)) F.RGNV_STATE_STATE
def setRgnState (r v : Nat) (s : State) : State := rset (R.RGNV_STATE (r / 4096) (r % 4096)) F.RGNV_STATE_STATE v s
def rgnEpoch (s : State) (r : Nat) : Nat := rget s (R.RGNV_EPOCH (r / 4096) (r % 4096)) F.RGNV_EPOCH_EPOCH
def rgnHeld (s : State) (r : Nat) : Nat := rget s (R.RGNV_STATE (r / 4096) (r % 4096)) F.RGNV_STATE_HELD
def setRgnHeld (r v : Nat) (s : State) : State := rset (R.RGNV_STATE (r / 4096) (r % 4096)) F.RGNV_STATE_HELD v s

/-- The copy that holds the image of an epoch (R303). -/
def rgnCopy (s : State) (r e : Nat) : Nat := if rgnDouble s r then e % 2 else 0

/-- Reader count of a copy. -/
def rgnCount (s : State) (r copy : Nat) : Nat :=
  if copy = 0 then rget s (R.RGNV_COUNT0 (r / 4096) (r % 4096)) F.RGNV_COUNT0_COUNT0
  else rget s (R.RGNV_COUNT1 (r / 4096) (r % 4096)) F.RGNV_COUNT1_COUNT1

def setRgnCount (r copy v : Nat) (s : State) : State :=
  if copy = 0 then rset (R.RGNV_COUNT0 (r / 4096) (r % 4096)) F.RGNV_COUNT0_COUNT0 v s
  else rset (R.RGNV_COUNT1 (r / 4096) (r % 4096)) F.RGNV_COUNT1_COUNT1 v s

/-- The next epoch. -/
def rgnNext (s : State) (r : Nat) : Nat := (rgnEpoch s r + 1) % 2 ^ 32

/-- E advances; in double mode the flip is counted. -/
def rgnAdvance (r : Nat) (s : State) : State :=
  let d := rgnDouble s r
  let s := rput (R.RGNV_EPOCH (r / 4096) (r % 4096)) (rgnNext s r) s
  if d then rinc (R.RGN_FLIPS (r / 4096)) F.RGN_FLIPS_COUNT 1 s else s

/-! ### Commands of a stack, as its version entries see them -/

/-- The first job of a list with a property, changed. -/
def modFirst (p : AblJob → Bool) (f : AblJob → AblJob) : List AblJob → List AblJob
  | [] => []
  | j :: js => if p j then f j :: js else j :: modFirst p f js

/-- A job of a region that its version entry holds. -/
def heldJob (r : Nat) (j : AblJob) : Bool := aRegion j.cmd == r && decide (j.phase = .held)

/-- The update that the entry holds starts to write. -/
def rgnWrite (r : Nat) (s : State) : State :=
  setRgnState r rgWriting
    (setJobs (r / 4096) (modFirst (heldJob r) (fun j => { j with phase := .writing }) (s.ablJobs (r / 4096))) s)

/-- From STABLE, the oldest held update goes on (Table 11-3). -/
def rgnStart (r : Nat) (s : State) : State :=
  if rgnState s r = rgStable ∧ (s.ablJobs (r / 4096)).any (heldJob r) = true then
    if rgnDouble s r = true ∨ rgnCount s r 0 = 0 then rgnWrite r s
    else rinc (R.RGN_WAITS (r / 4096)) F.RGN_WAITS_COUNT 1 (setRgnState r rgWait s)
  else s

/-- The transition that the counts call for (R309 step 5). -/
def rgnSettle (r : Nat) (s : State) : State :=
  let k := rgnState s r
  if k = rgWait ∧ rgnCount s r 0 = 0 then rgnWrite r s
  else if k = rgFlip ∧ rgnCount s r (rgnCopy s r (rgnEpoch s r)) = 0 then
    rgnStart r (rgnAdvance r (setRgnState r rgStable s))
  else rgnStart r s

/-! ### Acquires and releases -/

/-- A request leaves the list. -/
def dropReq (q : RgnReq) (s : State) : State := { s with rgns := s.rgns.erase q }

/-- An acquire is refused: PROTECTION, an imprecise fault of SOURCE 4 (R305). -/
def rgnRefuse (q : RgnReq) (s : State) : State :=
  rinc (R.RGN_REFUSED (q.region.toNat / 4096)) F.RGN_REFUSED_COUNT 1
    (pushFault q.tile ⟨4, .protection, q.pc, 0⟩ (dropReq q s))

/-- An acquire is granted on the copy of its epoch: the count rises and FULL of LINK is posted; a count at its limit refuses it
(R305, R311). -/
def rgnGrant (q : RgnReq) (s : State) : State :=
  let r := q.region.toNat
  let c := rgnCopy s r q.epoch.toNat
  let n := rgnCount s r c
  if n = 2 ^ 20 - 1 then rgnRefuse q s
  else semPost q.tile (fullSem q.link) 1 (setRgnCount r c (n + 1) (dropReq q s))

/-- Held acquires of a region. -/
def heldAcqs (s : State) (r : Nat) : List RgnReq := s.rgns.filter (fun q => q.acq && q.held && q.region.toNat == r)

/-- The held acquires of a region are granted. -/
def grantHeld (r : Nat) (s : State) : State := (heldAcqs s r).foldl (fun s q => rgnGrant q s) (setRgnHeld r 0 s)

/-- The held acquires of a region end ABORTED. -/
def abortHeld (r : Nat) (s : State) : State :=
  (heldAcqs s r).foldl (fun s q => pushFault q.tile ⟨4, .aborted, q.pc, 0⟩ (dropReq q s)) (setRgnHeld r 0 s)

/-- What the entry does with an acquire (Table 11-3). -/
def rgnAcquire (q : RgnReq) (s : State) : State :=
  let r := q.region.toNat
  let k := rgnState s r
  let e := q.epoch.toNat
  if e = rgnEpoch s r then
    (if k = rgWriting ∧ rgnDouble s r = false then rgnRefuse q s else rgnGrant q s)
  else if e = rgnNext s r then
    (if k = rgFlip then rgnGrant q s
      else setRgnHeld r (rgnHeld s r + 1)
        { s with rgns := s.rgns.map (fun x => if x = q then { x with held := true } else x) })
  else rgnRefuse q s

/-- What the entry does with a release (R306). -/
def rgnRelease (q : RgnReq) (s : State) : State :=
  let r := q.region.toNat
  let c := rgnCopy s r q.epoch.toNat
  let n := rgnCount s r c
  let s := dropReq q s
  if n = 0 then rinc (R.RGN_UNDER (r / 4096)) F.RGN_UNDER_COUNT 1 s
  else retryEvicts (rgnSettle r (setRgnCount r c (n - 1) s))

/-- RGN.ACQ: a request goes to its version entry; a ninth that is neither granted nor refused stalls (R304). -/
def execRgnAcq (t : TileId) (rs : SReg) (r : RegionId) (link : PairIdx) (s : State) : Host.Outcome State Fault Refusal :=
  xRun8 t (fun s =>
    if 8 ≤ (s.rgns.filter (fun q => q.acq && decide (q.tile = t))).length then .stall s
    else
      .retire (nextSeq t { s with rgns := s.rgns ++
        [⟨true, (s.tile t).x.launch, t, r, (rdS s t rs).setWidth 32, link, xPc s t, (s.tile t).x.seq, false⟩] })) s

/-- RGN.REL. -/
def execRgnRel (t : TileId) (rs : SReg) (r : RegionId) (s : State) : Host.Outcome State Fault Refusal :=
  xRun8 t (fun s =>
    .retire (nextSeq t { s with rgns := s.rgns ++
      [⟨false, (s.tile t).x.launch, t, r, (rdS s t rs).setWidth 32, 0, xPc s t, (s.tile t).x.seq, false⟩] })) s

/-- REGION_ACQUIRE: the oldest acquire of a tile for a region reaches its entry; dropped where the stack is not there (R423). -/
def execRegionAcquire (t : TileId) (r : RegionId) (s : State) : Host.Outcome State Fault Refusal :=
  .next (match s.rgns.find? (fun q => q.acq && !q.held && decide (q.tile = t ∧ q.region = r)) with
    | some q =>
      if s.domReach (48 + r.toNat / 4096) then rgnAcquire q s
      else rinc R.PDC_ORPHAN F.PDC_ORPHAN_COUNT 1 (dropReq q s)
    | none => s)

/-- The CE and GME instructions issued before a request are complete. -/
def enginesDone (s : State) (t : TileId) (no : Nat) : Bool :=
  (s.tile t).ce.all (fun e => decide (no ≤ e.no)) && (s.tile t).gme.all (fun e => decide (no ≤ e.no))

/-- REGION_RELEASE: the oldest release of a tile for a region takes effect once earlier reads are done (R306). -/
def execRegionRelease (t : TileId) (r : RegionId) (s : State) : Host.Outcome State Fault Refusal :=
  .next (match s.rgns.find? (fun q => !q.acq && decide (q.tile = t ∧ q.region = r)) with
    | some q =>
      if enginesDone s t q.no then
        (if s.domReach (48 + r.toNat / 4096) then rgnRelease q s
          else rinc R.PDC_ORPHAN F.PDC_ORPHAN_COUNT 1 (dropReq q s))
      else s
    | none => s)

/-! ### Host writes of a version entry (R311) -/

/-- EPOCH and DOUBLE may be written. -/
def rgnQuiet (s : State) (r : Nat) : Bool :=
  rgnState s r == rgStable && rgnCount s r 0 == 0 && rgnCount s r 1 == 0 && rgnHeld s r == 0 &&
    !(s.ablJobs (r / 4096)).any (fun j => aRegion j.cmd == r && decide (j.phase ≠ .sent))

/-- A host write of 4 bytes of a version entry. -/
def rgnvWrite (r k v : Nat) (s : State) : State :=
  if k = 0 then (if rgnQuiet s r then rput (R.RGNV_EPOCH (r / 4096) (r % 4096)) (v % 2 ^ 32) s else s)
  else if k = 1 then
    (if rgnQuiet s r ∧ rgnEpoch s r % 2 = 0 then
      rset (R.RGNV_STATE (r / 4096) (r % 4096)) F.RGNV_STATE_DOUBLE (b2n (bit v 2)) s else s)
  else retryEvicts (rgnSettle r (setRgnCount r (k - 2) v s))

/-- RGNV_WRITE: word `k` of region `r`'s version entry. -/
def execRgnvWrite (r : RegionId) (k : BitVec 2) (v : W32) (s : State) : Host.Outcome State Fault Refusal :=
  .next (hostWrite (48 + r.toNat / 4096) (rgnvWrite r.toNat k.toNat v.toNat) s)

end Sys2Proof.Machine
end

