-- ==== Sys2Proof/Machine/Ablation.lean ====
section
/-! DEFINITION. Ablation Units: commands and their checks, the update rules, images, the inboxes, completion, timeouts and microcode
loads (R314 to R340). -/

namespace Sys2Proof.Machine

/-! ### Checks (R317, R321) -/

/-- Region descriptor fields (Table 12-1). -/
def rMaster (s : State) (r : Nat) : Nat := rgnF s r 0x00 8
def rM1 (s : State) (r : Nat) : Nat := rgnF s r 0x08 8
def rM2 (s : State) (r : Nat) : Nat := rgnF s r 0x10 8
def rImg (s : State) (r c : Nat) : Nat := rgnF s r (0x18 + 8 * c) 8
def rNblk (s : State) (r : Nat) : Nat := rgnF s r 0x28 4
def rRow (s : State) (r : Nat) : Nat := rgnF s r 0x2C 4
def rBct (s : State) (r : Nat) : Nat := rgnF s r 0x30 4
def rFmt (s : State) (r : Nat) : Nat := rgnF s r 0x34 1
def rMoments (s : State) (r : Nat) : Bool := bit (rgnF s r 0x35 1) 1
def rSstr (s : State) (r : Nat) : Nat := rgnF s r 0x36 1

/-- Bytes of a KB16 array with its scales. -/
def kbBytes (s : State) (r : Nat) : Nat := 64 * rNblk s r + rSstr s r * (rNblk s r - 1) + 1

/-- Bytes of an image copy with its scales. -/
def imgTotal (s : State) (r : Nat) : Nat :=
  let f := rFmt s r
  if f ≤ 2 then 64 * rNblk s r
  else if rRow s r = 0 then blockBytes f * rNblk s r + rSstr s r * (rNblk s r - 1) + 1
  else
    let nb := rRow s r / 32
    let rows := ceilDiv (rNblk s r) nb
    (rows - 1) * (nb * (blockBytes f + 1)) + nb * blockBytes f + (rNblk s r - (rows - 1) * nb)

/-- A range lies in a stack. -/
def inStack (st a n : Nat) : Bool := a / 2 ^ 36 == st && (n == 0 || (a + n - 1) / 2 ^ 36 == st) && decide (a < hbmTop)

/-- The descriptor of a region is refused (R317). The copy-1 image counts where it is named or double mode is in force. -/
def rgnRefused (s : State) (r : Nat) : Bool :=
  let st := r / 4096
  let f := rFmt s r
  let n := rNblk s r
  let row := rRow s r
  let a (x len : Nat) : Bool := x % 64 == 0 && inStack st x len
  !bit (rgnF s r 0x35 1) 0 || decide (3 < rgnF s r 0x35 1) || rgnF s r 0x37 1 != 0 || rgnF s r 0x38 8 != 0 ||
    n == 0 || decide (8388608 < n) || row % 32 != 0 ||
    !(f == 1 || f == 2 || decide (8 ≤ f ∧ f ≤ 0x0D)) || rSstr s r == 0 || decide (64 < rSstr s r) ||
    !a (rMaster s r) (kbBytes s r) || !a (rImg s r 0) (imgTotal s r) ||
    ((rImg s r 1 != 0 || rgnDouble s r) && !a (rImg s r 1) (imgTotal s r)) ||
    (if rMoments s r then
        rM1 s r == 0 || rM2 s r == 0 || !a (rM1 s r) (kbBytes s r) || !a (rM2 s r) (kbBytes s r)
      else rM1 s r != 0 || rM2 s r != 0)

/-- A NaN or an infinity. -/
def notFinite (x : Nat) : Bool :=
  match rdF32 x with
  | .fin _ _ _ => false
  | _ => true

/-- 0 ≤ β < 1. -/
def betaOk (x : Nat) : Bool := !notFinite x && f32Le 0 x && f32Lt x 0x3F800000

def abApply : Nat := 0
def abEmpty : Nat := 1
def abReimage : Nat := 2

/-- Fields of an Ablation command. -/
def aOp (c : DWord) : Nat := aF c 0 1
def aRule (c : DWord) : Nat := aF c 1 1
def aInbox (c : DWord) : Bool := aF c 2 1 == 1
def aSr (c : DWord) : Bool := bit (aF c 3 1) 0
def aClr (c : DWord) : Bool := bit (aF c 3 1) 1
def aBf16 (c : DWord) : Bool := aF c 6 1 == 1
def aElem (c : DWord) : Nat := if aBf16 c then 2 else 4

/-- A command that the Ablation Unit refuses (R321, Table 12-3). EMPTY runs a rule and takes its numbers; REIMAGE uses none. -/
def ablRefused (s : State) (c : DWord) : Bool :=
  let r := aRegion c
  let st := r / 4096
  let op := aOp c
  let rule := aRule c
  decide (2 < op) || decide (1 < rule) || decide (1 < aF c 2 1) || decide (1 < aF c 6 1) || decide (3 < aF c 3 1) ||
    aF c 0x38 8 != 0 ||
    (op != abApply && (aF c 2 1 != 0 || aF c 6 1 != 0 || aF c 7 1 != 0 || aF c 0x28 8 != 0)) ||
    (op == abReimage && (rule != 0 || aF c 3 1 != 0 || aF c 0x08 4 != 0 || aF c 0x10 16 != 0 || aF c 0x20 8 != 0 || aF c 0x30 8 != 0)) ||
    (rule == 0 && aF c 0x14 12 != 0) ||
    (!aInbox c && aF c 7 1 != 0) || (aInbox c && aF c 0x28 8 != 0) || decide (15 < aF c 7 1) ||
    rgnRefused s r ||
    (rule == 1 && (!ablExpert s st || !rMoments s r)) || aF c 0x0C 4 == 0 ||
    notFinite (aF c 0x10 4) || notFinite (aF c 0x20 4) || notFinite (aF c 0x24 4) ||
    (rule == 1 && (!betaOk (aF c 0x14 4) || !betaOk (aF c 0x18 4) || notFinite (aF c 0x1C 4) || f32Lt (aF c 0x1C 4) 0)) ||
    (op == abApply && !aInbox c &&
      (aF c 0x28 8 % 64 != 0 || !inStack st (aF c 0x28 8) (rNblk s r * 32 * aElem c)))

/-! ### The rules (R326 to R329) -/

/-- pw of R327: square-and-multiply from the highest set bit. -/
def ablPw (b : Nat) : Nat → Nat → Nat → Nat
  | 0, _, p => p
  | i + 1, t, p =>
    let p := f32Mul p p
    ablPw b i t (if bit t i then f32Mul p b else p)

def f32One : Nat := 0x3F800000

/-- The constants of one command under the two-moment rule: a1, a2, k1, k2. -/
structure AblConst where
  a1 : Nat
  a2 : Nat
  k1 : Nat
  k2 : Nat
  deriving DecidableEq, Repr

def ablConst (c : DWord) : AblConst :=
  let b1 := aF c 0x14 4
  let b2 := aF c 0x18 4
  let t := aF c 0x0C 4
  let p1 := ablPw b1 (bitLen t) t f32One
  let p2 := ablPw b2 (bitLen t) t f32One
  ⟨f32Sub f32One b1, f32Sub f32One b2, f32Div f32One (f32Sub f32One p1), f32Div f32One (f32Sqrt (f32Sub f32One p2))⟩

/-- One element: the new master, first moment and second-moment root from the old ones and the gradient (R326, R327). -/
def ablElem (c : DWord) (k : AblConst) (w m rho g0 : Nat) : Nat × Nat × Nat :=
  let eta := f32Neg (aF c 0x10 4)
  let wd := aF c 0x20 4
  let g := f32Mul (aF c 0x24 4) g0
  if aRule c = 0 then (f32Fma w eta (f32Fma g wd w), 0, 0)
  else
    let m' := f32Fma (f32Mul k.a1 g) (aF c 0x14 4) m
    let v' := f32Fma (f32Mul k.a2 (f32Mul g g)) (aF c 0x18 4) (f32Mul rho rho)
    let rho' := f32Sqrt v'
    let u := f32Div (f32Mul m' k.k1) (f32Add (f32Mul rho' k.k2) (aF c 0x1C 4))
    (f32Fma w eta (f32Fma u wd w), m', rho')

/-- R(p) of R329. -/
def ablRand (c : DWord) (p : Nat) : Nat :=
  mix ((mix ((aF c 0x30 8).xor (aF c 8 4 * 0x9E3779B97F4A7C15 % 2 ^ 64))).xor p)

/-- A value rounded stochastically to an integer with a 24-bit draw (R328). -/
def srInt (a : Dy) (u : Nat) : Int :=
  if 0 ≤ a.e then a.m * 2 ^ a.e.toNat
  else
    let d : Int := (2 ^ (-a.e).toNat : Nat)
    let fl := a.m / d
    if (u : Int) < (a.m - fl * d) * 2 ^ 24 / d then fl + 1 else fl

/-- 32 values quantised to a master block: its scale and data. `u` is the draw of each element, with stochastic rounding. -/
def quantMaster (u : Option (Nat → Nat)) (l : List FV) : Nat × List Byte :=
  match u with
  | none => quantBlock fKb16 l
  | some u =>
    match l.all isFinite, maxLog2 l with
    | true, some a =>
      let x := clampScale (a + 1)
      ((x + 127).toNat, packElems 16 (l.zipIdx.map (fun v =>
        match v.1 with
        | .fin n m e => ofInt 16 (max (-32767) (min 32767 (srInt (finDy n m (e + 15 - x)) (u v.2))))
        | _ => 0)))
    | _, _ => quantBlock fKb16 l

/-! ### Blocks (R316, R330) -/

/-- The values of a KB16 block. -/
def kbValues (scale : Nat) (data : List Byte) : List FV :=
  match formatOf fKb16 with
  | some f => (List.range 32).map (fun i => scaledValue f scale (blockElem f data i))
  | none => []

/-- A read by the Ablation Unit: its status and bytes; corrected and uncorrectable errors are counted (R337). -/
def ablRead (st : Nat) (addrs : List Nat) (s : State) : Status × List Byte × State :=
  let n := ((codewords addrs).filter (fun c => decide (eccAt s c = .correctable))).length
  let r := memRead addrs (rinc (R.ABL_ECC st) F.ABL_ECC_CORR n s)
  if r.1 = .ok then r else (r.1, r.2.1, rinc (R.ABL_ECC st) F.ABL_ECC_UNCORR 1 r.2.2)

/-- A write by the Ablation Unit: a partial codeword is read first. -/
def ablWrite (st a : Nat) (l : List Byte) (s : State) : Status × State :=
  let r := memWrite (l.zipIdx.map (fun p => (a + p.2, p.1))) s
  if r.1 = .ok then r else (r.1, rinc (R.ABL_ECC st) F.ABL_ECC_UNCORR 1 r.2)

/-- Block `b` of a KB16 array. -/
def readKb (st r la b : Nat) (s : State) : Except Status (List FV) × State :=
  let d := ablRead st ((List.range 64).map (la + 64 * b + ·)) s
  if d.1 ≠ .ok then (.error d.1, d.2.2)
  else
    let e := ablRead st [la + 64 * rNblk s r + rSstr s r * b] d.2.2
    if e.1 ≠ .ok then (.error e.1, e.2.2) else (.ok (kbValues (leNat e.2.1) d.2.1), e.2.2)

/-- A quantised block written into a KB16 array. -/
def writeKb (st r la b : Nat) (q : Nat × List Byte) (s : State) : Status × State :=
  let d := ablWrite st (la + 64 * b) q.2 s
  if d.1 ≠ .ok then d else ablWrite st (la + 64 * rNblk s r + rSstr s r * b) (natLe 1 q.1) d.2

/-- Addresses of the data and of the scale of image block `b` of a copy; no scale for BF16 and FP16. -/
def imgPlace (s : State) (r copy b : Nat) : Nat × Option Nat :=
  let f := rFmt s r
  let la := rImg s r copy
  let bb := imgBytes f
  if f ≤ 2 then (la + bb * b, none)
  else if rRow s r = 0 then (la + bb * b, some (la + bb * rNblk s r + rSstr s r * b))
  else
    let nb := rRow s r / 32
    let row := la + b / nb * (nb * (bb + 1))
    (row + bb * (b % nb), some (row + bb * nb + b % nb))

/-- The image of a block, from its master values (R330). -/
def writeImg (st r copy b : Nat) (vals : List FV) (s : State) : Status × State :=
  let f := rFmt s r
  let p := imgPlace s r copy b
  match p.2 with
  | none => ablWrite st p.1 (packElems 16 (vals.map (convElem f))) s
  | some sc =>
    let q := quantBlock f vals
    let d := ablWrite st p.1 q.2 s
    if d.1 ≠ .ok then d else ablWrite st sc (natLe 1 q.1) d.2

/-- The copy an update writes (R303, R330). -/
def targetCopy (s : State) (r : Nat) : Nat := if rgnDouble s r then (rgnEpoch s r + 1) % 2 else 0

/-- The image of one block from the master as it stands (R331, R333). -/
def imageBlock (c : DWord) (b : Nat) (s : State) : Status × State :=
  let r := aRegion c
  emElim (readKb (r / 4096) r (rMaster s r) b s) (fun e s => (e, s)) (fun v s => writeImg (r / 4096) r (targetCopy s r) b v s)

/-- Block `b` of a moment array; without moments, or at CLR, its 32 zeros. -/
def ablMoment (c : DWord) (la b : Nat) (s : State) : Except Status (List FV) × State :=
  if aRule c == 1 && !aClr c then readKb (aRegion c / 4096) (aRegion c) la b s
  else (.ok (List.replicate 32 (.fin false 0 0)), s)

/-- What one block of a rule reads: master, both moments, gradient. -/
def ruleRead (c : DWord) (grad : Nat → State → Except Status (List Nat) × State) (b : Nat) (s : State) :
    Except Status (List FV × List FV × List FV × List Nat) × State :=
  let r := aRegion c
  emBind (readKb (r / 4096) r (rMaster s r) b s) (fun w s =>
  emBind (ablMoment c (rM1 s r) b s) (fun m s =>
  emBind (ablMoment c (rM2 s r) b s) (fun rho s =>
  emBind (grad b s) (fun g s => (.ok (w, m, rho, g), s)))))

/-- What one block of a rule writes: master, moments and image (R326 to R330). -/
def ruleWrite (c : DWord) (k : AblConst) (b : Nat) (x : List FV × List FV × List FV × List Nat) (s : State) : Status × State :=
  let r := aRegion c
  let st := r / 4096
  let two := aRule c == 1
  let at' (l : List FV) (i : Nat) : Nat := wrF32 (l.getD i (.fin false 0 0))
  let out := (List.range 32).map (fun i => ablElem c k (at' x.1 i) (at' x.2.1 i) (at' x.2.2.1 i) (x.2.2.2.getD i 0))
  let u : Option (Nat → Nat) := if aSr c then some (fun i => ablRand c (32 * b + i) % 2 ^ 24) else none
  let q := quantMaster u (out.map (fun o => rdF32 o.1))
  let w1 := writeKb st r (rMaster s r) b q s
  if w1.1 ≠ .ok then w1
  else
    let w2 := if two then writeKb st r (rM1 s r) b (quantBlock fKb16 (out.map (fun o => rdF32 o.2.1))) w1.2 else w1
    if w2.1 ≠ .ok then w2
    else
      let w3 := if two then writeKb st r (rM2 s r) b (quantBlock fKb16 (out.map (fun o => rdF32 o.2.2))) w2.2 else w2
      if w3.1 ≠ .ok then w3 else writeImg st r (targetCopy s r) b (kbValues q.1 q.2) w3.2

/-- One block of a rule. -/
def ruleBlock (c : DWord) (k : AblConst) (grad : Nat → State → Except Status (List Nat) × State) (b : Nat) (s : State) :
    Status × State :=
  emElim (ruleRead c grad b s) (fun e s => (e, s)) (ruleWrite c k b)

/-- Gradient of block `b` in HBM (R323). -/
def gradHbm (c : DWord) (b : Nat) (s : State) : Except Status (List Nat) × State :=
  let e := aElem c
  let r := ablRead (aRegion c / 4096) ((List.range (32 * e)).map (aF c 0x28 8 + 32 * e * b + ·)) s
  if r.1 ≠ .ok then (.error r.1, r.2.2)
  else (.ok ((List.range 32).map (fun i =>
    let x := leAt r.2.1 (e * i) e
    if aBf16 c then bf16ToF32 x else x)), r.2.2)

/-- Elements that an inbox buffer stands for: a null one stands for a full buffer (R324). -/
def bufElems (c : DWord) (l : Option (List Byte)) : Nat :=
  match l with
  | some b => b.length / aElem c
  | none => 32768 / aElem c

/-- The elements of consumed buffers, in order. -/
def gradList (c : DWord) (l : List (Option (List Byte))) : List Nat :=
  l.flatMap (fun o =>
    match o with
    | some b => (List.range (b.length / aElem c)).map (fun i =>
        let x := leAt b (aElem c * i) (aElem c)
        if aBf16 c then bf16ToF32 x else x)
    | none => List.replicate (32768 / aElem c) 0)

/-- Gradient of block `b` among consumed buffers. -/
def gradInbox (g : List Nat) (b : Nat) (s : State) : Except Status (List Nat) × State :=
  (.ok ((List.range 32).map (fun i => g.getD (32 * b + i) 0)), s)

/-! ### Running a command -/

/-- Recomputations after a residue mismatch. -/
def ablRetry (s : State) (st : Nat) : Nat := if ablExpert s st then rget s (R.ABL_CTL st) F.ABL_CTL_RETRY else 1

/-- Blocks `b` onward, one after another; `residue` gives how often in a row the check of a block fails (R336). Answers the status
that ends the command and its block. -/
def ablBlocks (st : Nat) (residue : List (Nat × Nat)) (f : Nat → State → Status × State) :
    List Nat → State → (Status × Nat) × State
  | [], s => ((.ok, 0), s)
  | b :: bs, s =>
    let n := ((residue.find? (fun p => p.1 == b)).map (·.2)).getD 0
    if ablRetry s st < n then ((.faultResidue, b), alert 2 (rinc (R.ABL_RESIDUE st) F.ABL_RESIDUE_UNCORR 1 s))
    else
      let s := if n = 0 then s else rinc (R.ABL_RESIDUE st) F.ABL_RESIDUE_CORR 1 s
      let r := f b s
      if r.1 = .ok then ablBlocks st residue f bs r.2 else ((r.1, b), r.2)

/-- The bytes of a KB16 array, and of an image copy. -/
def kbAddrs (s : State) (r la : Nat) : List Nat :=
  (List.range (64 * rNblk s r)).map (la + ·) ++ (List.range (rNblk s r)).map (fun b => la + 64 * rNblk s r + rSstr s r * b)

def imgAddrs (s : State) (r copy : Nat) : List Nat :=
  (List.range (rNblk s r)).flatMap (fun b =>
    let p := imgPlace s r copy b
    (List.range (imgBytes (rFmt s r))).map (p.1 + ·) ++ p.2.elim [] (fun a => [a]))

/-- The bytes of a region's master, moments and target image, in its stack. -/
def rgnBytes (s : State) (r : Nat) : List Nat :=
  (kbAddrs s r (rMaster s r) ++
    (if rMoments s r then kbAddrs s r (rM1 s r) ++ kbAddrs s r (rM2 s r) else []) ++ imgAddrs s r (targetCopy s r)).filter
      (fun a => a / 2 ^ 36 == r / 4096 && addrOk s a)

/-- After a code that stops the queue the region's master, moments and target image are undefined (R26, R337). -/
def undefineRegion (r : Nat) (s : State) : State := freeBytes (rgnBytes s r) s

/-- A byte of `n` blocks of `len` bytes, or of their scales, `sstr` apart behind them. -/
def inBlocks (la len n sstr a : Nat) : Bool :=
  decide (la ≤ a) && (decide (a < la + len * n) ||
    (decide (la + len * n ≤ a) && (a - la - len * n) % max 1 sstr == 0 && decide ((a - la - len * n) / max 1 sstr < n)))

/-- A byte of an array of a region: master, moments, or either image copy (R316). -/
def inRegion (s : State) (r a : Nat) : Bool :=
  let n := rNblk s r
  let kb (la : Nat) : Bool := inBlocks la 64 n (rSstr s r) a
  let img (la : Nat) : Bool :=
    if rFmt s r ≤ 2 ∨ rRow s r ≠ 0 then decide (la ≤ a ∧ a < la + imgTotal s r)
    else inBlocks la (blockBytes (rFmt s r)) n (rSstr s r) a
  kb (rMaster s r) || (rMoments s r && (kb (rM1 s r) || kb (rM2 s r))) || img (rImg s r 0) ||
    (rImg s r 1 != 0 && img (rImg s r 1))

/-- The other regions of a stack whose descriptors are valid. -/
def otherRegions (s : State) (r : Nat) : List Nat :=
  let lo := R.RGND (r / 4096) 0 0
  (((s.regs.filter (fun p => decide (lo ≤ p.1 ∧ p.1 < lo + 64 * 4096))).map (fun p => r / 4096 * 4096 + (p.1 - lo) / 64)).dedup).filter
    (fun x => x != r && bit (rgnF s x 0x35 1) 0)

/-- The bytes that a command wrote and that an array of another region, or its gradient, shares are undefined (Table 12-8). -/
def undefineShared (c : DWord) (s : State) : State :=
  let r := aRegion c
  let others := otherRegions s r
  let g : Nat × Nat := if aOp c = abApply ∧ aInbox c = false then (aF c 0x28 8, rNblk s r * 32 * aElem c) else (0, 0)
  if others = [] ∧ g.2 = 0 then s
  else freeBytes ((rgnBytes s r).filter (fun a => others.any (fun x => inRegion s x a) || decide (g.1 ≤ a ∧ a < g.1 + g.2))) s

/-- The command a unit runs, or takes next: the running one, else the oldest in WRITING (R322). -/
def curJob (s : State) (st : Nat) : Option AblJob :=
  match (s.ablJobs st).find? (fun j => decide (j.phase = .running)) with
  | some j => some j
  | none =>
    if (s.ablJobs st).any (fun j => match j.phase with
      | .done _ _ => true
      | _ => false) then none
    else (s.ablJobs st).find? (fun j => decide (j.phase = .writing))

/-- Accepted commands of a stack. -/
def accepted (s : State) (st : Nat) : List AblJob := (s.ablJobs st).filter (fun j => decide (j.phase ≠ .sent))

/-- `ABL_STATUS` follows the queue. -/
def updAbl (st : Nat) (s : State) : State :=
  let run := (s.ablJobs st).find? (fun j =>
    match j.phase with
    | .running | .done _ _ => true
    | _ => false)
  let s := rset (R.ABL_STATUS st) F.ABL_STATUS_QUEUED (accepted s st).length s
  let s := rset (R.ABL_STATUS st) F.ABL_STATUS_ACTIVE (b2n run.isSome) s
  match run with
  | some j => rset (R.ABL_STATUS st) F.ABL_STATUS_CUR (aRegion j.cmd % 4096) s
  | none => s

/-- That command, changed. -/
def setCur (st : Nat) (j' : AblJob) (s : State) : State :=
  match curJob s st with
  | some j => updAbl st (setJobs st (modFirst (fun x => decide (x = j)) (fun _ => j') (s.ablJobs st)) s)
  | none => s

/-- The command's body has ended with a status at a block. -/
def ablEnd (st : Nat) (j : AblJob) (code : Status) (b : Nat) (s : State) : State :=
  let s := setCur st { j with phase := .done code b } s
  if code.stops then undefineRegion (aRegion j.cmd) s else s

/-- The step check of R332: its status where nothing else ends the command. -/
def stepCheck (c : DWord) (s : State) : Status × State :=
  let st := aRegion c / 4096
  if aClr c ∨ aF c 0x0C 4 = (rBct s (aRegion c) + 1) % 2 ^ 32 then (.ok, s)
  else (.stepMismatch, rinc (R.ABL_STEPDIFF st) F.ABL_STEPDIFF_COUNT 1 s)

/-- The body of a command: its blocks, then the step check's status where nothing ends it. Of a command whose descriptor was
rewritten the arrays are undefined, and it goes on (Table 12-8). -/
def ablRun (st : Nat) (j : AblJob) (residue : List (Nat × Nat)) (k : Status) (f : Nat → State → Status × State) (s : State) : State :=
  let r := aRegion j.cmd
  if j.spoilt then ablEnd st j k 0 (undefineRegion r s)
  else
    let o := ablBlocks st residue f (List.range (rNblk s r)) s
    if o.1.1 = .ok then ablEnd st j k 0 (undefineShared j.cmd o.2) else ablEnd st j o.1.1 o.1.2 o.2

/-- EMPTY, and an APPLY fed only null buffers (R333, Table 12-4). -/
def doEmpty (st : Nat) (j : AblJob) (residue : List (Nat × Nat)) (s : State) : State :=
  let c := j.cmd
  let k := stepCheck c s
  if skipEmpty s st then
    let s := rinc (R.ABL_SKIPS st) F.ABL_SKIPS_COUNT 1 k.2
    if rgnDouble s (aRegion c) then ablRun st j residue k.1 (imageBlock c) s else ablEnd st j k.1 0 s
  else ablRun st j residue k.1 (ruleBlock c (ablConst c) (gradInbox [])) k.2

/-- The gradient of the next command of a channel is undefined, that of the running one aside (Table 12-8). -/
def spoilNext (st k : Nat) (s : State) : State :=
  let next (j : AblJob) : Bool := onChannel k j && decide (j.phase ≠ .running)
  if (s.ablJobs st).any next then setJobs st (modFirst next (fun j => { j with odd := true }) (s.ablJobs st)) s
  else { s with inboxOdd := (s.inboxOdd ++ [k]).dedup }

/-- The buffers of a command do not make up its gradient: one before the last is short, or the last brings too much (Table 12-8). -/
def gradOdd (s : State) (j : AblJob) : Bool :=
  j.grad.dropLast.any (fun b => b.any (fun l => decide (l.length < 32768))) ||
    ((j.grad.getLast?.getD none).isSome &&
      decide (32 * rNblk s (aRegion j.cmd) < j.grad.foldl (fun n b => n + bufElems j.cmd b) 0))

/-- A gradient that is undefined. -/
def gradFree (_ : Nat) (s : State) : Except Status (List Nat) × State :=
  (.ok ((List.range 32).map (fun i => (Config.freeWord (s.freeCtr + i)).toNat % 2 ^ 32)), { s with freeCtr := s.freeCtr + 32 })

/-- APPLY with its whole gradient at hand. -/
def doApply (st : Nat) (j : AblJob) (residue : List (Nat × Nat)) (s : State) : State :=
  let c := j.cmd
  let k := inKey st (aF c 7 1)
  let odd := aInbox c && (j.odd || gradOdd s j || s.inboxOdd.contains k)
  let s := if aInbox c then { s with inboxOdd := s.inboxOdd.filter (· != k) } else s
  let s := if aInbox c && gradOdd s j then spoilNext st k s else s
  if aInbox c ∧ j.grad.all (·.isNone) ∧ odd = false then doEmpty st j residue s
  else
    let q := stepCheck c s
    let grad := if odd then gradFree else if aInbox c then gradInbox (gradList c j.grad) else gradHbm c
    ablRun st j residue q.1 (ruleBlock c (ablConst c) grad) q.2

/-! ### Inboxes (R324, R325) -/

def inboxOf (s : State) (k : Nat) : List (Option (List Byte)) := mget (fun _ => []) s.inbox k

/-- The buffers a channel holds. -/
def setInbox (k : Nat) (l : List (Option (List Byte))) (s : State) : State :=
  rset (R.ABL_INBOX (k % 16) (k / 16)) F.ABL_INBOX_FILLED l.length { s with inbox := mset (fun _ => []) s.inbox k l }

/-- Elements a command has consumed. -/
def gotElems (j : AblJob) : Nat := j.grad.foldl (fun n b => n + bufElems j.cmd b) 0

/-- A running APPLY takes the buffers of its channel that it still needs. -/
def takeBuffers : Nat → Nat → AblJob → State → AblJob × State
  | 0, _, j, s => (j, s)
  | n + 1, k, j, s =>
    match inboxOf s k with
    | b :: bs =>
      if gotElems j < 32 * rNblk s (aRegion j.cmd) then takeBuffers n k { j with grad := j.grad ++ [b] } (setInbox k bs s)
      else (j, s)
    | [] => (j, s)

/-- The channel of a command has lost its writer. -/
def chanFailed (s : State) (st : Nat) (c : DWord) : Bool :=
  aInbox c && rbit s (R.ABL_INBOX st (aF c 7 1)) F.ABL_INBOX_FAILED

/-- A command accepted earlier still takes the buffers of a command's channel (R324). -/
def chanTaken (s : State) (st : Nat) (j : AblJob) : Bool :=
  ((s.ablJobs st).takeWhile (fun x => !decide (x = j))).any (onChannel (inKey st (aF j.cmd 7 1)))

/-- The step check of a command that ends before its blocks (R332). -/
def checkEnded (c : DWord) (s : State) : State := if aOp c = abReimage then s else (stepCheck c s).2

/-- APPLY: the unit's next command runs; fed from an inbox it waits until every buffer has come (R324 to R330, R335). -/
def execApply (st : StackId) (residue : List (Nat × Nat)) (s : State) : Host.Outcome State Fault Refusal :=
  .next (match curJob s st.toNat with
    | some j =>
      if aOp j.cmd ≠ abApply then s
      else if j.lost then ablEnd st.toNat j .aborted 0 (checkEnded j.cmd s)
      else if aInbox j.cmd && chanTaken s st.toNat j then s
      else if aInbox j.cmd then
        let r := takeBuffers 4 (inKey st.toNat (aF j.cmd 7 1)) j s
        let j' := { r.1 with phase := .running }
        let s := setCur st.toNat j' (setJobs st.toNat (s.ablJobs st.toNat) r.2)
        if 32 * rNblk s (aRegion j.cmd) ≤ gotElems j' then doApply st.toNat j' residue s else s
      else doApply st.toNat j residue s
    | none => s)

/-- EMPTY. -/
def execEmpty (st : StackId) (residue : List (Nat × Nat)) (s : State) : Host.Outcome State Fault Refusal :=
  .next (match curJob s st.toNat with
    | some j => if aOp j.cmd = abEmpty then doEmpty st.toNat j residue s else s
    | none => s)

/-- REIMAGE (R331). -/
def execReimage (st : StackId) (residue : List (Nat × Nat)) (s : State) : Host.Outcome State Fault Refusal :=
  .next (match curJob s st.toNat with
    | some j =>
      if aOp j.cmd = abReimage then
        ablRun st.toNat j residue .ok (imageBlock j.cmd) s
      else s
    | none => s)

/-- A COLLECTIVE whose segments are done ends with the last buffer that its inbox takes (R370). -/
def endInboxCmd (k : Nat) (s : State) : State :=
  if (mget (fun _ => []) s.inboxOut k).isEmpty then
    s.queues.foldl (fun a e =>
      e.2.cmds.foldl (fun a c =>
        if cmdOp c == opCollective && decide (c.phase = .running) && collInbox c == some k &&
            c.left == 0 then
          endCmd (BitVec.ofNat 6 e.1) c.seq a else a) a) s
  else s

/-- INBOX_BUFFER: with a credit left, the channel takes its writer's next buffer (R324, R372). -/
def execInboxBuffer (st : StackId) (ch : BitVec 4) (s : State) : Host.Outcome State Fault Refusal :=
  .next (
    let k := inKey st.toNat ch.toNat
    match mget (fun _ => []) s.inboxOut k with
    | b :: bs =>
      if (inboxOf s k).length < 4 then
        endInboxCmd k (setInbox k (inboxOf s k ++ [b]) { s with inboxOut := mset (fun _ => []) s.inboxOut k bs })
      else s
    | [] => s)

/-- The host writes `ABL_INBOXc.RESET`. -/
def inboxReset (st ch : Nat) (s : State) : State :=
  rset (R.ABL_INBOX st ch) F.ABL_INBOX_FAILED 0 (setInbox (inKey st ch) [] s)

/-- INBOX_RESET. -/
def execInboxReset (st : StackId) (ch : BitVec 4) (s : State) : Host.Outcome State Fault Refusal :=
  .next (hostWrite (48 + st.toNat) (inboxReset st.toNat ch.toNat) s)

/-! ### Issue, arrival, completion (R319, R320, R322, R332, R334) -/

/-- UPDATE: its commands go to their stacks in body order. -/
def execUpdate (q : QIdx) (seq : W32) (s : State) : Host.Outcome State Fault Refusal :=
  runCmd q seq opUpdate (fun c s =>
    let l := updCmds c
    let s := s.modCmd q seq (fun c => { c with phase := .running, left := l.length })
    l.foldl (fun s d =>
      let st := aRegion d / 4096
      setJobs st (s.ablJobs st ++ [⟨d, .cmd q seq, .sent, [], false, false, false⟩]) s) s) s

/-- UPD.POST: a ninth command not yet accepted stalls (R320). -/
def execUpdPost (t : TileId) (da : DReg) (link : PairIdx) (linkEn : Bool) (s : State) : Host.Outcome State Fault Refusal :=
  xRun8 t (fun s =>
    if 8 ≤ ((s.tile t).x.units.filter (fun u => !u.isColl && !u.taken)).length then .stall s
    else
      let d := rdD s t da
      let st := aRegion d / 4096
      let id := s.txnNext
      let s := { s with txnNext := id + 1 }
      let s := s.modX t (fun x => { x with units := x.units ++ [⟨id, false, xPc s t, if linkEn then some link else none, false⟩] })
      .retire (setJobs st (s.ablJobs st ++ [⟨d, .tile t id, .sent, [], false, false, false⟩]) s)) s

/-- An Ablation command's status reaches its owner (R34, R115, R116, R319). -/
def ablOwner (j : AblJob) (code : Status) (s : State) : State :=
  match j.owner with
  | .cmd q seq =>
    let s := cmdReport q seq code (aRegion j.cmd) 0 s
    let s := s.modCmd q seq (fun c => { c with left := c.left - 1 })
    match s.cmd q seq with
    | some c => if c.left = 0 then endCmd q seq s else s
    | none => s
  | .tile t id =>
    match (s.tile t).x.units.find? (fun u => !u.isColl && u.id == id) with
    | some u =>
      let s := s.modX t (fun x => { x with units := x.units.filter (fun v => !(!v.isColl && v.id == id)) })
      let s := match u.link with
        | some k => if code.stops then s else semPost t (fullSem k) 1 s
        | none => s
      if code = .stepMismatch then reportTile t code 0 s
      else if code.stops then pushFault t ⟨4, code, u.pc, 0⟩ s
      else s
    | none => s

/-- The Ablation Unit of a stack refuses new commands: it drains or loads microcode, or its domain drains. -/
def ablDrains (s : State) (st : Nat) : Bool := rget s (R.ABL_STATUS st) F.ABL_STATUS_STATE != 0 || !s.domOn (48 + st)

/-- The tile's command is with its unit. -/
def ablTaken (j : AblJob) (s : State) : State :=
  match j.owner with
  | .tile t id => s.modX t (fun x => { x with
      units := x.units.map (fun u => if !u.isColl && u.id == id then { u with taken := true } else u) })
  | .cmd _ _ => s

/-- ABLATION_COMMAND_ARRIVAL: the oldest command sent to a stack that its unit can take now is refused under R321, or accepted
and reaches its region's version entry. A tile's command is refused with RETRY_LATER while the unit drains, and stays to be
resent; a full queue of 64 lets it wait. -/
def execAblationCommandArrival (st : StackId) (s : State) : Host.Outcome State Fault Refusal :=
  .next (
    let n := st.toNat
    let may (j : AblJob) : Bool := decide (j.phase = .sent) && (match j.owner with
      | .tile _ _ => !ablDrains s n
      | .cmd _ _ => rget s (R.ABL_STATUS n) F.ABL_STATUS_STATE != 2)
    match (s.ablJobs n).find? may with
    | some j =>
      if !s.domReach (48 + n) then
        rinc R.PDC_ORPHAN F.PDC_ORPHAN_COUNT 1 (setJobs n ((s.ablJobs n).eraseP may) s)
      else if ablRefused s j.cmd then ablOwner j .aborted (ablTaken j (setJobs n ((s.ablJobs n).eraseP may) s))
      else if 64 ≤ (accepted s n).length then s
      else
        let l := (s.ablJobs n).eraseP may
        let a := l.filter (fun x => decide (x.phase ≠ .sent))
        let s := setJobs n (a ++ [{ j with phase := .held, lost := chanFailed s n j.cmd }] ++ l.filter (fun x => decide (x.phase = .sent))) s
        updAbl n (rgnStart (aRegion j.cmd) (ablTaken j s))
    | none => s)

/-- The last command to be recorded (R332, R337). -/
def ablErr (st : Nat) (c : DWord) (code : Status) (b : Nat) (s : State) : State :=
  rput (R.ABL_ERRINFO st) (aRegion c % 4096 + 1 <<< 12 + b <<< 16 + code.code <<< 40) s

/-- The version entry when an update that it ran ends (Table 11-3). -/
def rgnEnd (r : Nat) (code : Status) (s : State) : State :=
  if code.stops then rgnStart r (abortHeld r (setRgnState r rgStable s))
  else if rgnDouble s r = true ∧ rgnCount s r (rgnEpoch s r % 2) ≠ 0 then grantHeld r (setRgnState r rgFlip s)
  else rgnStart r (grantHeld r (rgnAdvance r (setRgnState r rgStable s)))

/-- The descriptor's BC_T becomes the command's, for an APPLY or EMPTY that does not stop the queue (R332). -/
def setBct (c : DWord) (code : Status) (s : State) : State :=
  let r := aRegion c
  if code.stops ∨ aOp c = abReimage then s
  else
    let o := R.RGND (r / 4096) (r % 4096) 6
    rput o (putBits (rraw s o) 0 32 (aF c 0x0C 4)) s

/-- ABLATION_COMMAND_COMPLETE: the writes of a stack's command are visible; it leaves the queue. -/
def execAblationCommandComplete (st : StackId) (s : State) : Host.Outcome State Fault Refusal :=
  .next (
    let n := st.toNat
    let isDone (j : AblJob) : Bool := match j.phase with
      | .done _ _ => true
      | _ => false
    match (s.ablJobs n).find? isDone with
    | some j =>
      match j.phase with
      | .done code b =>
        let s := setBct j.cmd code (setJobs n ((s.ablJobs n).eraseP isDone) s)
        let s := if code = .ok then s else ablErr n j.cmd code b s
        updAbl n (ablOwner j code (rgnEnd (aRegion j.cmd) code s))
      | _ => s
    | none => s)

/-- ABLATION_COMMAND_TIMEOUT: the command in WRITING completes no block for its limit; a wait for an inbox buffer does not count
(R338). -/
def execAblationCommandTimeout (st : StackId) (s : State) : Host.Outcome State Fault Refusal :=
  .next (match curJob s st.toNat with
    | some j =>
      if aInbox j.cmd = true ∧ gotElems j < 32 * rNblk s (aRegion j.cmd) ∧
          ((inboxOf s (inKey st.toNat (aF j.cmd 7 1))).isEmpty = true ∨ chanTaken s st.toNat j = true) then s
      else ablEnd st.toNat j .timeout 0 (checkEnded j.cmd (rinc (R.ABL_TIMEOUTS st.toNat) F.ABL_TIMEOUTS_COUNT 1 s))
    | none => s)

/-- The update that a version entry holds in WAIT_READERS ends with a status and writes nothing; held acquires end ABORTED. -/
def waitEnd (r : Nat) (code : Status) (s : State) : State :=
  let n := r / 4096
  match (s.ablJobs n).find? (heldJob r) with
  | some j =>
    let s := setJobs n ((s.ablJobs n).eraseP (heldJob r)) s
    updAbl n (ablOwner j code (rgnStart r (abortHeld r (setRgnState r rgStable (ablErr n j.cmd code 0 s)))))
  | none => s

/-- READER_WAIT_TIMEOUT: WAIT_MS has passed in WAIT_READERS. -/
def execReaderWaitTimeout (r : RegionId) (s : State) : Host.Outcome State Fault Refusal :=
  .next (if rgnState s r.toNat = rgWait then waitEnd r.toNat .timeout s else s)

/-- A stack's domain drains: the command in WRITING goes on, the queued ones complete ABORTED (Table 15-7). -/
def ablDrain (st : Nat) (s : State) : State :=
  ((s.ablJobs st).filter (fun j => decide (j.phase = .held))).foldl (fun s j =>
    let r := aRegion j.cmd
    if rgnState s r = rgWait then waitEnd r .aborted s
    else updAbl st (ablOwner j .aborted (ablErr st j.cmd .aborted 0 (setJobs st ((s.ablJobs st).erase j) s)))) s

/-- The host writes a region's descriptor: the arrays of the region are undefined where an accepted command names it (Table 12-8).
-/
def descWritten (r : Nat) (s : State) : State :=
  let mine (j : AblJob) : Bool := aRegion j.cmd == r && (match j.phase with
    | .held | .writing | .running => true
    | _ => false)
  if (s.ablJobs (r / 4096)).any mine then
    setJobs (r / 4096) ((s.ablJobs (r / 4096)).map (fun j => if mine j then { j with spoilt := true } else j)) (undefineRegion r s)
  else s

/-! ### Microcode (R339) -/

def abRun : Nat := 0
def abDraining : Nat := 1
def abLoading : Nat := 2

def setAbState (st v : Nat) (s : State) : State := rset (R.ABL_STATUS st) F.ABL_STATUS_STATE v s

/-- LOAD written 1. -/
def mcLoad (st : Nat) (s : State) : State :=
  if rget s (R.ABL_STATUS st) F.ABL_STATUS_STATE = abRun then setAbState st abDraining s
  else rset (R.ABL_MC_CTL st) F.ABL_MC_CTL_PEND 1 s

/-- ABL_MC_LOAD: the host writes `ABL_MC_CTL.LOAD`. -/
def execAblMcLoad (st : StackId) (s : State) : Host.Outcome State Fault Refusal :=
  .next (hostWrite (48 + st.toNat) (mcLoad st.toNat) s)

/-- ABL_DRAIN_DONE: the queue is empty and no command runs. -/
def execAblDrainDone (st : StackId) (s : State) : Host.Outcome State Fault Refusal :=
  .next (if rget s (R.ABL_STATUS st.toNat) F.ABL_STATUS_STATE = abDraining ∧ accepted s st.toNat = [] then
      setAbState st.toNat abLoading s
    else s)

/-- RUN entered: a held load starts. -/
def mcRun (st : Nat) (s : State) : State :=
  let s := setAbState st abRun s
  if rbit s (R.ABL_MC_CTL st) F.ABL_MC_CTL_PEND then
    mcLoad st (rset (R.ABL_MC_CTL st) F.ABL_MC_CTL_PEND 0 s)
  else s

/-- ABL_MC_LOAD_DONE: the image at `ABL_MC_SRC` is read and its digest compared with the one that the security block recorded. RUN
on the new microcode, or, when the digest differs, the read fails or the image is not marked verified, on the old one with ERR set
and an alert. -/
def execAblMcLoadDone (st : StackId) (s : State) : Host.Outcome State Fault Refusal :=
  .next (
    let n := st.toNat
    if rget s (R.ABL_STATUS n) F.ABL_STATUS_STATE = abLoading then
      let a := n * 2 ^ 36 + (rget s (R.ABL_MC_SRC n) F.ABL_MC_SRC_OFF) <<< 6
      let l := (List.range s.mgmt.mcLen).map (a + ·)
      let r := if l.all (fun x => x / 2 ^ 36 == n && addrOk s x) then ablRead n l s else (.protection, [], s)
      mcRun n
        (if r.1 = .ok ∧ Config.sha512 r.2.1 = s.mgmt.mcDigest ∧ s.mgmt.mcMarked.contains n = true then
            rput (R.ABL_MC_VER n) s.mgmt.mcVer.toNat r.2.2
          else alert 7 (rset (R.ABL_MC_STAT n) F.ABL_MC_STAT_ERR 1 r.2.2))
    else s)

end Sys2Proof.Machine
end

