-- ==== Sys2Proof/Machine/Recovery.lean ====
section
/-! DEFINITION. Mirror pairing, calving, the job recovery state and the fill engine (R442 to R446, R451 to R456). -/

namespace Sys2Proof.Machine

/-! ### Requests of the recovery block's engines -/

/-- A request of a recovery engine to another module: sent, or ended PROTECTION at once where no route is valid (R356). -/
def recSend (iss : Issuer) (dev addr : Nat) (op : MemOp) (s : State) : State :=
  sendTxn ⟨iss, .dev (BitVec.ofNat 15 dev), addr, op,
    if bit (routeEntry s dev) 31 then .request else .reply .protection []⟩ s

/-- The requests of one issuer that have not been taken: number and request. -/
def recTxns (s : State) (p : Issuer → Bool) : List (Nat × Txn) := s.txns.filter (fun e => p e.2.iss)

/-- The requests of one issuer are discarded; replies that still come find none (R423). -/
def recDrop (p : Issuer → Bool) (s : State) : State := { s with txns := s.txns.filter (fun e => !p e.2.iss) }

/-- The first failing reply among requests. -/
def recBad (l : List (Nat × Txn)) : Option Status :=
  l.findSome? (fun e =>
    match e.2.phase with
    | .reply st _ => if st = .ok then none else some st
    | _ => none)

/-- Every request has its reply, OK. -/
def recAllOk (l : List (Nat × Txn)) : Bool :=
  l.all (fun e =>
    match e.2.phase with
    | .reply st _ => decide (st = .ok)
    | _ => false)

/-! ### Mirror state (R442 to R446, Table 16-5) -/

def miUnpaired : Nat := 0
def miPairing : Nat := 1
def miPaired : Nat := 2
def miLost : Nat := 3
def miRefused : Nat := 4

def mirState (s : State) : Nat := rget s R.MIR_STATUS F.MIR_STATUS_STATE
def setMirState (v : Nat) (s : State) : State := rset R.MIR_STATUS F.MIR_STATUS_STATE v s
def paired (s : State) : Bool := mirState s == miPaired
def mirPeer (s : State) : Nat := rget s R.MIR_PEER F.MIR_PEER_DEV

/-- Own inbound area, and the partner's, by local address on the module that holds it. -/
def mirIn (s : State) : Nat := (rget s R.MIR_IN_BASE F.MIR_IN_BASE_ADDR) <<< 21
def mirOut (s : State) : Nat := (rget s R.MIR_PEER_BASE F.MIR_PEER_BASE_ADDR) <<< 21

/-- STEP0 or STEP1 of the own inbound header. -/
def mirStep (s : State) (b : Nat) : Nat := leNat (rdBytes s (mirIn s + 0x10 + 4 * b) 4)

/-- `MIR_BANK` follows the inbound header: the newer of the whole banks (R445). -/
def refreshBank (s : State) : State :=
  let a := mirStep s 0
  let b := mirStep s 1
  let none' := 2 ^ 32 - 1
  if a = none' ∧ b = none' then rput R.MIR_BANK none' s
  else if b = none' ∨ (a ≠ none' ∧ b ≤ a) then rput R.MIR_BANK a s
  else rput R.MIR_BANK (b + 2 ^ 32) s

/-- A write from another module may have touched the inbound header. -/
def headerTouched (s : State) (addrs : List Nat) : Bool :=
  addrs.any (fun a => decide (mirIn s + 0x10 ≤ a ∧ a < mirIn s + 0x18))

/-- The group descriptors that something has written: their numbers. -/
def listedGroups (s : State) : List Nat :=
  ((s.regs.filter (fun p => decide (R.GRP 0 0 ≤ p.1 ∧ p.1 < R.GRP 4096 0))).map (fun p => (p.1 - R.GRP 0 0) / 64)).dedup

/-- The valid groups whose member list holds a device. -/
def groupsWith (s : State) (dev : Nat) : List Nat :=
  (listedGroups s).filter (fun g => bit (gFlags s g) 0 && (gMembers s g).contains dev)

/-- `MIR_STATUS.SHARED_FEED` set, with the flag of the valid groups that hold this module (R444). -/
def setSharedFeed (s : State) : State :=
  (groupsWith s s.devId).foldl (fun s g => rset (R.GRP g 6) F.GRP_SHARED_FEED 1 s)
    (rset R.MIR_STATUS F.MIR_STATUS_SHARED_FEED 1 s)

/-- The groups whose SHARED_FEED flag is set. -/
def feedGroups (s : State) : List Nat := (listedGroups s).filter (fun g => rbit s (R.GRP g 6) F.GRP_SHARED_FEED)

/-- PAIRED is left: those flags are clear (R444). -/
def clearSharedFeed (s : State) : State :=
  (feedGroups s).foldl (fun s g => rset (R.GRP g 6) F.GRP_SHARED_FEED 0 s)
    (rset R.MIR_STATUS F.MIR_STATUS_SHARED_FEED 0 s)

/-- PAIR: the own header is written and pairing starts. -/
def pair (s : State) : State :=
  let k := mirState s
  if k = miUnpaired ∨ k = miLost ∨ k = miRefused then
    let hdr := natLe 2 s.devId ++ natLe 1 (rget s R.MIR_STATUS F.MIR_STATUS_OWN_FEED) ++
      natLe 1 (rget s R.FIRN_CFG F.FIRN_CFG_DEPTH_LOG2) ++ natLe 2 (mirPeer s) ++ natLe 2 0 ++
      natLe 4 (rget s R.MIR_CFG F.MIR_CFG_BANK_2M) ++ natLe 4 0 ++ natLe 8 (2 ^ 64 - 1)
    let s := (localWrite (hdr.zipIdx.map (fun p => (mirIn s + p.2, p.1))) s).2
    rput R.MIR_BANK (2 ^ 32 - 1) (setMirState miPairing s)
  else s

/-- UNPAIR. -/
def unpair (s : State) : State :=
  let k := mirState s
  if k = miPaired ∨ k = miLost ∨ k = miRefused then clearSharedFeed (setMirState miUnpaired s) else s

/-- Entries of the mirror table in use: source, bytes, offset in the bank (R446). -/
def mirEntries (s : State) : List (Nat × Nat × Nat) :=
  ((List.range 256).map (fun i =>
    (rget s (R.MIR_ENT_SRC i) F.MIR_ENT_SRC_SRC_LA / 64 * 64, rget s (R.MIR_ENT_BYTES i) F.MIR_ENT_BYTES_BYTES / 64 * 64,
      rget s (R.MIR_ENT_DST i) F.MIR_ENT_DST_DST_OFF / 64 * 64))).filter (fun e => e.2.1 != 0)

/-- A partner header, as read: its fields. -/
def hdrF (h : DWord) (off n : Nat) : Nat := bits h.toNat (8 * off) (8 * n)

/-- The partner's bank size in 2 MiB units; 0 acts as 1 (Table 16-11). -/
def hdrBank (h : DWord) : Nat := max 1 (hdrF h 0x08 4)

/-- The checks of Table 16-5 beyond OWNER and PEER. -/
def headerFits (s : State) (h : DWord) : Bool :=
  hdrF h 0x03 1 == rget s R.FIRN_CFG F.FIRN_CFG_DEPTH_LOG2 &&
    (mirEntries s).all (fun e => decide (e.2.2 + e.2.1 ≤ hdrBank h * 2097152))

/-- PAIR: the host writes `MIR_CTL.PAIR`. -/
def execPair (s : State) : Host.Outcome State Fault Refusal := .next (hostWrite (hostCtl s) pair s)

/-- UNPAIR: the host writes `MIR_CTL.UNPAIR`. -/
def execUnpair (s : State) : Host.Outcome State Fault Refusal := .next (hostWrite (hostCtl s) unpair s)

/-- MIRROR_HEADER_POLL: the read of the partner's header ends with a status and its 64 bytes (R443, R444). -/
def execMirrorHeaderPoll (st : Status) (h : DWord) (s : State) : Host.Outcome State Fault Refusal :=
  .next (if mirState s = miPairing ∧ st = .ok ∧ bit (routeEntry s (mirPeer s)) 31 = true ∧
      hdrF h 0x00 2 % 2 ^ 15 = mirPeer s ∧ hdrF h 0x04 2 % 2 ^ 15 = s.devId then
      if headerFits s h then
        let feed := hdrF h 0x02 1 % 16
        let s := rset R.MIR_STATUS F.MIR_STATUS_PEER_FEED feed (setMirState miPaired { s with peerBank := hdrBank h })
        if feed = rget s R.MIR_STATUS F.MIR_STATUS_OWN_FEED then alert 8 (setSharedFeed s) else s
      else rset R.MIR_STATUS F.MIR_STATUS_STATUS Status.protection.code (setMirState miRefused s)
    else s)

/-- PAIRING_TIMEOUT: 1 s without a matching header. -/
def execPairingTimeout (s : State) : Host.Outcome State Fault Refusal :=
  .next (if mirState s = miPairing then
      rset R.MIR_STATUS F.MIR_STATUS_STATUS Status.timeout.code (setMirState miRefused s)
    else s)

/-! ### The job recovery state (R453, Table 16-8) -/

def rcRun : Nat := 0
def rcCalved : Nat := 1
def rcFilling : Nat := 2
def rcReplaying : Nat := 3
def rcStopped : Nat := 4

def recState (s : State) : Nat := rget s R.REC_STATE F.REC_STATE_STATE
def recRestart (s : State) : Bool := rbit s R.REC_STATE F.REC_STATE_RESTART
def setRestart (b : Bool) (s : State) : State := rset R.REC_STATE F.REC_STATE_RESTART (b2n b) s
def recStatus (st : Status) (s : State) : State := rset R.REC_STATE F.REC_STATE_STATUS st.code s
def recSpare (s : State) : Nat := rget s R.REC_SPARE F.REC_SPARE_SPARE
def recSource (s : State) : Nat := rget s R.REC_SPARE F.REC_SPARE_SOURCE

/-- The state taken; on STOPPED an alert is raised. -/
def setRecState (v : Nat) (s : State) : State :=
  let s := rset R.REC_STATE F.REC_STATE_STATE v s
  if v = rcStopped then alert 10 s else s

/-- PEND, head first. -/
def recPend (s : State) : List Nat :=
  ((List.range 4).filter (fun i => rbit s (R.REC_PEND i) F.REC_PEND_VALID)).map
    (fun i => rget s (R.REC_PEND i) F.REC_PEND_DEV)

/-- PEND replaced. -/
def setPend (l : List Nat) (s : State) : State :=
  (List.range 4).foldl (fun s i =>
    match l[i]? with
    | some d => rput (R.REC_PEND i) (d + 2 ^ 15) s
    | none => rput (R.REC_PEND i) 0 s) (rset R.REC_STATE F.REC_STATE_PEND l.length s)

/-- REPLAY as the device sets it. -/
def setReplay (b : Bool) (s : State) : State := rset R.FIRN_CTL F.FIRN_CTL_REPLAY (b2n b) s

/-- What a calving does to the job recovery state; false where Table 16-8 has no row. -/
def calveState (x : Nat) (s : State) : Bool × State :=
  let k := recState s
  let l := recPend s
  let full := recRestart s || decide (4 ≤ l.length)
  if k = rcRun then (true, setPend [x] (setRecState rcCalved s))
  else if k = rcCalved then
    (true, if full then setRecState rcStopped s else setPend (l ++ [x]) s)
  else if k = rcFilling then
    if full then (true, setRecState rcStopped s)
    else if x = recSource s ∨ x = recSpare s then
      let s := setRestart true (setRecState rcCalved s)
      (true, if x = recSource s ∧ x ≠ recSpare s then setPend (l ++ [x]) s else s)
    else (true, setPend (l ++ [x]) s)
  else if k = rcReplaying then (true, setRecState rcStopped s)
  else (false, s)

/-! ### Calving (R451, R452, Table 16-7) -/

/-- The fence list. -/
def fenced (s : State) (dev : Nat) : Bool :=
  (List.range 64).any (fun i => rbit s (R.CALVE_FENCE i) F.CALVE_FENCE_VALID &&
    rget s (R.CALVE_FENCE i) F.CALVE_FENCE_DEV == dev)

/-- A free place of the fence list. -/
def fenceFree (s : State) : Option Nat := (List.range 64).find? (fun i => !rbit s (R.CALVE_FENCE i) F.CALVE_FENCE_VALID)

/-- A group that held the calved device: its segments end ABORTED without notice, FAILED, the next epoch. -/
def calveGroup (g : Nat) (s : State) : State :=
  let s := setGState g grFailed (groupAbort g s)
  let s := rset (R.GRP g 6) F.GRP_LAST_STATUS Status.aborted.code s
  let e := (gEpoch s g + 1) % 2 ^ 32
  let s := rput (R.GRP g 0) (rraw s (R.GRP g 0) % 2 ^ 32 + e <<< 32) s
  pumpSegs 8 (gEngine g) s

/-- The effects of calving `x` beside the recovery state. -/
def calveEffects (x slot : Nat) (s : State) : State :=
  let gs := groupsWith s x
  let s := rset (R.MOS_ROUTE x) F.MOS_ROUTE_ENTRY (routeEntry s x % 2 ^ 31) s
  let s := rput (R.CALVE_FENCE slot) (x + 2 ^ 15) s
  let s := gs.foldl (fun s g => calveGroup g s) s
  let s := rput R.CALVE_GROUPS gs.length s
  let s := if x = mirPeer s ∧ paired s = true then alert 9 (clearSharedFeed (setMirState miLost s)) else s
  rset R.REC_STATE F.REC_STATE_BUSY 1 (rwrap R.FIRN_GEN F.FIRN_GEN_GEN 1 s)

/-- `REC_CMD` CALVE. -/
def calve (x : Nat) (s : State) : State :=
  if x = s.devId then recStatus .protection s
  else
    match fenceFree s with
    | none => recStatus .protection s
    | some slot =>
      let r := calveState x s
      if r.1 then recStatus .ok (calveEffects x slot r.2) else recStatus .protection s

/-- `REC_CMD` UNFENCE. -/
def unfence (x : Nat) (s : State) : State :=
  recStatus .ok ((List.range 64).foldl (fun s i =>
    if rbit s (R.CALVE_FENCE i) F.CALVE_FENCE_VALID && rget s (R.CALVE_FENCE i) F.CALVE_FENCE_DEV == x then
      rput (R.CALVE_FENCE i) 0 s else s) s)

/-! ### The fill engine (R455, R456) -/

def acIdle : Nat := 0
def acFilling : Nat := 1
def acDone : Nat := 2
def acFailed : Nat := 3

def isFill (i : Issuer) : Bool :=
  match i with
  | .fill _ => true
  | _ => false

/-- The fill ends with a status at an entry; what is outstanding is discarded. -/
def fillFail (entry : Nat) (st : Status) (s : State) : State :=
  rput R.ACC_STATUS (acFailed + st.code <<< 8 + (entry % 65536) <<< 16) (recDrop isFill { s with fill := none })

/-- The fields of a plan entry. -/
structure PlanEntry where
  src   : Nat
  dst   : Nat
  bytes : Nat
  dev   : Nat
  kind  : Nat
  rest  : Nat
  deriving DecidableEq, Repr

def planEntry (l : List Byte) : PlanEntry :=
  ⟨leAt l 0 8, leAt l 8 8, leAt l 0x10 4, leAt l 0x14 2, leAt l 0x16 1, leAt l 0x17 9⟩

/-- The checks on a plan entry (R456, Table 16-9). -/
def planOk (s : State) (e : PlanEntry) : Bool :=
  e.rest == 0 && decide (e.kind ≤ 3) && e.src % 64 == 0 && e.dst % 64 == 0 && e.bytes % 64 == 0 && decide (64 ≤ e.bytes) &&
    decide (e.dev < 2 ^ 15) && decide (e.dst + e.bytes ≤ hbmTop) &&
    (decide (e.src + e.bytes ≤ hbmTop) || decide (morBase ≤ e.src ∧ e.src + e.bytes ≤ morBase + 2 ^ 43)) &&
    (if e.kind = 3 then e.dev == 0 else e.dev != s.devId)

/-- One move of the fill engine: the entry at hand checked at its start, one READ issued, or the next entry taken. False when it
has nothing to issue now. -/
def fillMove (s : State) : Bool × State :=
  match s.fill with
  | none => (false, s)
  | some f =>
    if rget s R.ACC_N F.ACC_N_N ≤ f.entry ∨ 1024 ≤ f.out then (false, s)
    else
      let r := localRead ((List.range 32).map (rget s R.ACC_PLAN F.ACC_PLAN_ADDR * 32 + 32 * f.entry + ·)) s
      if r.1 ≠ .ok then (true, fillFail f.entry r.1 r.2.2)
      else
        let e := planEntry r.2.1
        let s := r.2.2
        if !planOk s e then (true, fillFail f.entry .aborted s)
        else if e.kind = 3 ∨ e.bytes ≤ f.off then (true, { s with fill := some ⟨f.entry + 1, 0, f.out⟩ })
        else
          let n := min 4096 (e.bytes - f.off)
          let s := { s with fill := some ⟨f.entry, f.off + n, f.out + 1⟩ }
          (true, recSend (.fill f.entry) e.dev (e.dst + f.off) (.read ((List.range n).map (e.src + f.off + ·))) s)

/-- The fill engine works on until it has nothing to issue. -/
def fillPump : Nat → State → State
  | 0, s => s
  | k + 1, s =>
    let r := fillMove s
    if r.1 then fillPump k r.2 else s

/-- A bound on the moves of the fill engine between two replies: its READs and its entries. -/
def fillFuel : Nat := 67584

/-- The plan is taken from entry 0. -/
def fillStart (s : State) : State :=
  let s := rput R.ACC_BYTES 0 (rput R.ACC_STATUS acFilling (recDrop isFill s))
  fillPump fillFuel { s with fill := some ⟨0, 0, 0⟩ }

/-- `REC_CMD` FILL (Table 16-8); on the spare the fill engine starts. -/
def fillCmd (dev source : Nat) (snap : Bool) (s : State) : State :=
  let k := recState s
  let own := decide (dev = s.devId)
  let go (s : State) : State :=
    let s := recStatus .ok (rput R.REC_SPARE (dev + source <<< 16) s)
    if own then fillStart s else s
  if k = rcRun ∧ own = true then go (setRestart snap (setRecState rcFilling s))
  else if k = rcCalved then
    go (let s := setRecState rcFilling s
      if snap then setRestart true s else s)
  else if k = rcFilling ∧ own = true ∧ recSpare s = s.devId then go s
  else recStatus .protection s

/-- `REC_CMD` DONE. -/
def doneCmd (s : State) : State :=
  if recState s = rcFilling ∧ (recSpare s ≠ s.devId ∨ rget s R.ACC_STATUS F.ACC_STATUS_STATE = acDone) then
    let l := (recPend s).drop 1
    let s := recStatus .ok (setPend l s)
    if l ≠ [] then setRecState rcCalved s
    else if recRestart s then setReplay true (setRecState rcReplaying s)
    else setRecState rcRun s
  else recStatus .protection s

/-- `REC_CMD` CLEAR. -/
def clearCmd (s : State) : State :=
  if recState s = rcStopped then recStatus .ok (setReplay false (setRestart false (setPend [] (setRecState rcRun s))))
  else recStatus .protection s

/-- A write of `REC_CMD` acts unless calving is in progress. -/
def recCmd (f : State → State) (s : State) : Host.Outcome State Fault Refusal :=
  .next (hostWrite (hostCtl s) (fun s => if rbit s R.REC_STATE F.REC_STATE_BUSY then s else f s) s)

/-- CALVE. -/
def execCalve (dev : DevId) (s : State) : Host.Outcome State Fault Refusal := recCmd (calve dev.toNat) s

/-- CALVE_COMPLETE: calving ends. -/
def execCalveComplete (s : State) : Host.Outcome State Fault Refusal := .next (rset R.REC_STATE F.REC_STATE_BUSY 0 s)

/-- FILL. -/
def execFill (dev source : DevId) (snap : Bool) (s : State) : Host.Outcome State Fault Refusal :=
  recCmd (fillCmd dev.toNat source.toNat snap) s

/-- DONE. -/
def execDone (s : State) : Host.Outcome State Fault Refusal := recCmd doneCmd s

/-- CLEAR. -/
def execClear (s : State) : Host.Outcome State Fault Refusal := recCmd clearCmd s

/-- UNFENCE. -/
def execUnfence (dev : DevId) (s : State) : Host.Outcome State Fault Refusal := recCmd (unfence dev.toNat) s

/-- FILL_READ_REPLY: the reply of a fill READ is written to the spare, or ends the fill with its status (R456). -/
def execFillReadReply (id : Nat) (s : State) : Host.Outcome State Fault Refusal :=
  .next (match mfind s.txns id, s.fill with
    | some x, some f =>
      match x.iss, x.phase with
      | .fill entry, .reply st data =>
        if st ≠ .ok then fillFail entry st s
        else
          let r := localWrite (data.zipIdx.map (fun p => (x.va + p.2, p.1))) (dropTxn id s)
          if r.1 ≠ .ok then fillFail entry r.1 r.2
          else
            let s := rinc R.ACC_BYTES F.ACC_BYTES_COUNT data.length r.2
            fillPump fillFuel { s with fill := some { f with out := f.out - 1 } }
      | _, _ => s
    | _, _ => s)

/-- FILL_DONE: every entry is copied (R456). -/
def execFillDone (s : State) : Host.Outcome State Fault Refusal :=
  .next (match s.fill with
    | some f =>
      if rget s R.ACC_N F.ACC_N_N ≤ f.entry ∧ f.out = 0 then
        deviceEvent F.CP_DEVEVT_FILL_DONE (rset R.ACC_STATUS F.ACC_STATUS_STATE acDone { s with fill := none })
      else s
    | none => s)

end Sys2Proof.Machine
end

