-- ==== Sys2Proof/Machine/Firn.lean ====
section
/-! DEFINITION. The firn log: records, STEP_BEGIN and STEP_END, the mirror push, replay and the commit gate (R52, R278, R435 to
R441, R445, R447, R454, R460, R461). -/

namespace Sys2Proof.Machine

/-! ### Records (R435, R436, Table 16-3) -/

/-- One bit of CRC-32C, reflected. -/
def crc32cBit (c : Nat) : Nat := if c % 2 = 1 then (c / 2).xor 0x82F63B78 else c / 2

/-- CRC-32C of a byte list (R436). -/
def crc32c (l : List Byte) : Nat :=
  (l.foldl (fun c b => (List.range 8).foldl (fun c _ => crc32cBit c) (c.xor b.toNat)) 0xFFFFFFFF).xor 0xFFFFFFFF

/-- D: values outside 6 to 16 act as 10. -/
def firnDepth (s : State) : Nat :=
  let d := rget s R.FIRN_CFG F.FIRN_CFG_DEPTH_LOG2
  if 6 ≤ d ∧ d ≤ 16 then d else 10

/-- Offset of the record of a step in a log area (R435). -/
def recOffset (s : State) (q : QIdx) (step : Nat) : Nat := 128 * (q.toNat * 2 ^ firnDepth s + step % 2 ^ firnDepth s)

/-- Local address of the record. -/
def recAddr (s : State) (q : QIdx) (step : Nat) : Nat := (rget s R.FIRN_BASE F.FIRN_BASE_ADDR) <<< 21 + recOffset s q step

/-- Bytes of a record with its CRC made good. -/
def withCrc (l : List Byte) : List Byte := l.take 0x7C ++ natLe 4 (crc32c (l.take 0x7C))

/-- The record of a STEP_BEGIN (Table 16-3). -/
def firnRecord (s : State) (q : QIdx) (c : Cmd) (seeds : List Byte) : List Byte :=
  withCrc (natLe 4 (cF c 0x10 4) ++ natLe 4 (cF c 0x14 4) ++ natLe 4 (rget s R.FIRN_GEN F.FIRN_GEN_GEN) ++
    natLe 2 (rget s R.FIRN_CFG F.FIRN_CFG_RANK) ++ natLe 1 q.toNat ++ natLe 1 1 ++ padTo 64 seeds ++
    natLe 8 (cF c 0x20 8) ++ natLe 4 (cF c 0x28 4) ++
    natLe 4 (if rbit s R.FIRN_SNAP F.FIRN_SNAP_VALID then rget s R.FIRN_SNAP F.FIRN_SNAP_STEP else 2 ^ 32 - 1) ++
    natLe 16 0 ++ natLe 12 0)

/-- The record at a place is the valid one of a step. -/
def recGood (l : List Byte) (step : Nat) : Bool :=
  bit (leAt l 0x0F 1) 0 && leAt l 0 4 == step && leAt l 0x7C 4 == crc32c (l.take 0x7C)

/-- LOSS_VALID of a record. -/
def recLoss (l : List Byte) : Bool := bit (leAt l 0x0F 1) 1

/-- The record read at its place. In a replay, a record older than a change of the log's place or depth reads as free values (Table
16-12). -/
def readRecord (q : QIdx) (step : Nat) (s : State) : Status × List Byte × State :=
  let r := localRead ((List.range 128).map (recAddr s q step + ·)) s
  if rbit s R.FIRN_CTL F.FIRN_CTL_REPLAY && s.recMoved.any (fun m => decide (step ≤ m.toNat)) then
    let k := r.2.2.freeCtr
    (r.1, r.2.1.zipIdx.map (fun p => Config.freeByte (k + p.2)), { r.2.2 with freeCtr := k + r.2.1.length })
  else r

/-- Bytes of a record written at its place. -/
def writeRec (q : QIdx) (step : Nat) (l : List Byte) (s : State) : Status × State :=
  localWrite (l.zipIdx.map (fun p => (recAddr s q step + p.2, p.1))) s

/-- The record's copy goes to the partner's log mirror while PAIRED (R437, R442). -/
def sendRecord (q : QIdx) (seq : W32) (step : Nat) (l : List Byte) (s : State) : State :=
  if paired s then
    let a := mirOut s + 2097152 + 2 * s.peerBank * 2097152 + recOffset s q step
    recSend (.firn q seq) (mirPeer s) a (.write (l.zipIdx.map (fun p => (a + p.2, p.1)))) s
  else s

/-- The requests of a command's record, and of its push. -/
def isFirn (q : QIdx) (seq : W32) (i : Issuer) : Bool := decide (i = .firn q seq)
def isMirror (q : QIdx) (seq : W32) (i : Issuer) : Bool := decide (i = .mirror q seq)

def firnEn (s : State) : Bool := rbit s R.FIRN_CTL F.FIRN_CTL_EN
def firnReplay (s : State) : Bool := rbit s R.FIRN_CTL F.FIRN_CTL_REPLAY
def firnTo (s : State) : Nat := rget s R.FIRN_REPLAY F.FIRN_REPLAY_TO

/-! ### STEP_BEGIN -/

/-- STEP_BEGIN ends well: its step and routing epoch are in force on the queue (R52). -/
def beginDone (q : QIdx) (c : Cmd) (s : State) : State :=
  endCmd q c.seq (s.modQueue q (fun h => { h with step := BitVec.ofNat 32 (cF c 0x10 4), epoch := BitVec.ofNat 32 (cF c 0x14 4) }))

/-- The record is written, and STEP_BEGIN waits until it is durable (R437). -/
def beginRecord (q : QIdx) (c : Cmd) (seeds : List Byte) (s : State) : State :=
  let step := cF c 0x10 4
  let l := firnRecord s q c seeds
  let r := writeRec q step l { s with recLast := some (BitVec.ofNat 32 step) }
  if r.1 ≠ .ok then endWith q c.seq r.1 0 0 r.2
  else sendRecord q c.seq step l (r.2.modCmd q c.seq (fun c => { c with phase := .running }))

/-- STEP_BEGIN with the log enabled: the seeds are read, and the record is written, or in replay compared (R437, R460). -/
def beginLogged (q : QIdx) (c : Cmd) (s : State) : State :=
  let step := cF c 0x10 4
  let a := cpRead c.space (cF c 0x18 8) 64 s
  if a.1 ≠ .ok then endWith q c.seq a.1 0 0 a.2.2
  else
    let s := a.2.2
    if firnReplay s then
      let r := readRecord q step s
      if r.1 ≠ .ok then endWith q c.seq r.1 0 0 r.2.2
      else if recGood r.2.1 step then
        if (r.2.1.drop 0x10).take 64 = a.2.1 ∧ leAt r.2.1 0x50 8 = cF c 0x20 8 ∧ leAt r.2.1 0x58 4 = cF c 0x28 4 then
          beginDone q c r.2.2
        else endWith q c.seq .aborted 0 0 (rset R.FIRN_STATUS F.FIRN_STATUS_SEED_DIFF 1 r.2.2)
      else beginRecord q c a.2.1 r.2.2
    else beginRecord q c a.2.1 s

/-- STEP_BEGIN: the recovery state, the routing epoch, the horizon and the replay's end are checked, then the record is made
(R52, R278, R437, R438, R454, R460). Its own completion record carries the step it begins (Table 2-13). -/
def execStepBegin (q : QIdx) (seq : W32) (s : State) : Host.Outcome State Fault Refusal :=
  runCmd q seq opStepBegin (fun c s =>
    let step := cF c 0x10 4
    let s := s.modCmd q seq (fun c => { c with step := BitVec.ofNat 32 step })
    let k := recState s
    if k = rcCalved ∨ k = rcFilling then endWith q seq .draining k 0 s
    else if k ≠ rcRun ∧ k ≠ rcReplaying then endWith q seq .aborted k 0 s
    else if cF c 0x14 4 ≠ rget s R.EXD_EPOCH F.EXD_EPOCH_CURRENT then endWith q seq .groupEpoch 0 0 s
    else if rbit s R.FIRN_SNAP F.FIRN_SNAP_VALID = true ∧
        2 ^ firnDepth s < (step + 2 ^ 32 - rget s R.FIRN_SNAP F.FIRN_SNAP_STEP) % 2 ^ 32 then
      endWith q seq .protection 0 0 (rset R.FIRN_STATUS F.FIRN_STATUS_HORIZON 1 s)
    else if firnReplay s = true ∧ firnTo s < step then endWith q seq .draining 0 0 s
    else if firnEn s then beginLogged q c s
    else beginDone q c s) s

/-- FIRN_RECORD_DURABLE: the record is visible in local HBM, and the partner has acknowledged its copy; STEP_BEGIN completes. -/
def execFirnRecordDurable (q : QIdx) (seq : W32) (s : State) : Host.Outcome State Fault Refusal :=
  .next (match s.cmd q seq with
    | some c =>
      match c.phase with
      | .running =>
        if cmdOp c = opStepBegin then
          let l := recTxns s (isFirn q seq)
          match recBad l with
          | some st => endWith q seq st 0 0 (recDrop (isFirn q seq) s)
          | none => if recAllOk l then beginDone q c (recDrop (isFirn q seq) s) else s
        else s
      | _ => s
    | none => s)

/-! ### STEP_END and the mirror push (R439, R445, R447, R461) -/

/-- STEP_END completes with the status of its push or of its record's copy: `FIRN_LAST`, and the end of a replay (Table
16-8). -/
def stepEndDone (p : Push) (st : Status) (s : State) : State :=
  let s := { s with push := s.push.filter (fun x => !(decide (x.q = p.q ∧ x.seq = p.seq))) }
  let s := rput R.FIRN_LAST p.step.toNat s
  let s := if recState s = rcReplaying ∧ p.step.toNat = firnTo s then
      setReplay false (setRestart false (setRecState rcRun s)) else s
  endWith p.q p.seq st 0 0 s

/-- A push under way, changed. -/
def setPush (p : Push) (s : State) : State :=
  { s with push := s.push.map (fun x => if x.q = p.q ∧ x.seq = p.seq then p else x) }

/-- The push is over with a status: MIRRORED where it completed, the record's CRC and its copy (R439 step 3). -/
def pushEnd (p : Push) (st : Status) (pushed : Bool) (s : State) : State :=
  let s := recDrop (isMirror p.q p.seq) s
  let s := if st = .ok then s else rset R.MIR_STATUS F.MIR_STATUS_STATUS st.code s
  if p.log then
    let r := readRecord p.q p.step.toNat s
    if r.1 ≠ .ok then stepEndDone p (if st = .ok then r.1 else st) r.2.2
    else
      let f := leAt r.2.1 0x0F 1
      let l := withCrc (r.2.1.take 0x0F ++ natLe 1 (if pushed then f.lor 4 else f) ++ r.2.1.drop 0x10)
      let w := writeRec p.q p.step.toNat l r.2.2
      if w.1 ≠ .ok then stepEndDone p (if st = .ok then w.1 else st) w.2
      else if paired w.2 then sendRecord p.q p.seq p.step.toNat l (setPush { p with stage := 3, st := st } w.2)
      else stepEndDone p st w.2
  else stepEndDone p st s

/-- The write of STEPb in the partner's header. -/
def sendStepB (p : Push) (v : Nat) (s : State) : State :=
  let a := mirOut s + 0x10 + 4 * (p.step.toNat % 2)
  recSend (.mirror p.q p.seq) (mirPeer s) a (.write ((natLe 4 v).zipIdx.map (fun e => (a + e.2, e.1)))) s

/-- The WRITEs of one table entry, of up to 64 lines each; false where its source cannot be read. -/
def sendEntry (p : Push) (e : Nat × Nat × Nat) (s : State) : Status × State :=
  let base := mirOut s + 2097152 + (p.step.toNat % 2) * s.peerBank * 2097152 + e.2.2
  (List.range (ceilDiv e.2.1 4096)).foldl (fun (r : Status × State) i =>
    if r.1 ≠ .ok then r
    else
      let n := min 4096 (e.2.1 - 4096 * i)
      let d := localRead ((List.range n).map (e.1 + 4096 * i + ·)) r.2
      if d.1 ≠ .ok then (d.1, d.2.2)
      else
        let a := base + 4096 * i
        (.ok, recSend (.mirror p.q p.seq) (mirPeer s) a (.write (d.2.1.zipIdx.map (fun x => (a + x.2, x.1)))) d.2.2)) (.ok, s)

/-- The copy stage: every entry of the mirror table. -/
def sendEntries (p : Push) (s : State) : Status × State :=
  (mirEntries s).foldl (fun (r : Status × State) e => if r.1 ≠ .ok then r else sendEntry p e r.2) (.ok, s)

/-- One move of a push whose outstanding requests have all been answered well, or one of which has failed. -/
def pushMove (p : Push) (s : State) : State :=
  if p.stage = 3 then
    let l := recTxns s (isFirn p.q p.seq)
    match recBad l with
    | some st => stepEndDone p (if p.st = .ok then st else p.st) (recDrop (isFirn p.q p.seq) s)
    | none => if recAllOk l then stepEndDone p p.st (recDrop (isFirn p.q p.seq) s) else s
  else
    let l := recTxns s (isMirror p.q p.seq)
    match recBad l with
    | some st => pushEnd p st false s
    | none =>
      if recAllOk l then
        let s := recDrop (isMirror p.q p.seq) s
        if p.stage = 0 then
          let r := sendEntries p (setPush { p with stage := 1 } s)
          if r.1 = .ok then r.2 else pushEnd { p with stage := 1 } r.1 false r.2
        else if p.stage = 1 then sendStepB p p.step.toNat (setPush { p with stage := 2 } s)
        else pushEnd p .ok true s
      else s

/-- The push of a command moves as far as its replies allow. -/
def pushAdvance : Nat → QIdx → W32 → State → State
  | 0, _, _, s => s
  | k + 1, q, seq, s =>
    match s.push.find? (fun p => decide (p.q = q ∧ p.seq = seq)) with
    | some p => pushAdvance k q seq (pushMove p s)
    | none => s

/-- STEP_END goes on to its push while PAIRED, else to its record (R439, R447). -/
def stepEndPush (q : QIdx) (c : Cmd) (rec : Bool) (s : State) : State :=
  let p : Push := ⟨q, c.seq, BitVec.ofNat 32 (cF c 0x10 4), rec, 0, .ok⟩
  let s := { s.modCmd q c.seq (fun c => { c with phase := .running }) with push := s.push ++ [p] }
  if paired s then sendStepB p (2 ^ 32 - 1) s else pushEnd p .ok false s

/-- STEP_END with its record: LOSS is copied in and LOSS_VALID set, then the push. -/
def stepEndLoss (q : QIdx) (c : Cmd) (rec loss : List Byte) (s : State) : State :=
  let l := rec.take 0x0F ++ natLe 1 ((leAt rec 0x0F 1).lor 2) ++ (rec.drop 0x10).take 0x50 ++ padTo 16 loss ++ rec.drop 0x70
  let r := writeRec q (cF c 0x10 4) l s
  if r.1 ≠ .ok then endWith q c.seq r.1 0 0 r.2 else stepEndPush q c true r.2

/-- STEP_END with the log enabled (R439, R461). -/
def stepEndLogged (q : QIdx) (c : Cmd) (s : State) : State :=
  let step := cF c 0x10 4
  let r := readRecord q step s
  if r.1 ≠ .ok then endWith q c.seq r.1 0 0 r.2.2
  else if !recGood r.2.1 step then
    endWith q c.seq .aborted 0 0 (rset R.FIRN_STATUS F.FIRN_STATUS_NO_RECORD 1 r.2.2)
  else
    let d := localRead ((List.range 16).map (cF c 0x18 8 + ·)) r.2.2
    if d.1 ≠ .ok then endWith q c.seq d.1 0 0 d.2.2
    else if firnReplay s then
      if recLoss r.2.1 then
        if (r.2.1.drop 0x60).take 16 = d.2.1 then
          stepEndPush q c true (rinc R.FIRN_VERIFIED F.FIRN_VERIFIED_COUNT 1 d.2.2)
        else
          let s := rput R.FIRN_DIV_STEP step (rset R.FIRN_STATUS F.FIRN_STATUS_DIVERGED 1 d.2.2)
          endWith q c.seq .aborted 0 0 (if recState s = rcReplaying then setRecState rcStopped s else s)
      else stepEndLoss q c r.2.1 d.2.1 (rinc R.FIRN_UNVERIFIED F.FIRN_UNVERIFIED_COUNT 1 d.2.2)
    else stepEndLoss q c r.2.1 d.2.1 d.2.2

/-- STEP_END: starts on an admitted command, and moves on, as its replies allow, on a running one. -/
def execStepEnd (q : QIdx) (seq : W32) (s : State) : Host.Outcome State Fault Refusal :=
  .next (match s.cmd q seq with
    | some c =>
      if cmdOp c = opStepEnd then
        match c.phase with
        | .admitted => if firnEn s then stepEndLogged q c s else stepEndPush q c false s
        | .running => pushAdvance 5 q seq s
        | _ => s
      else s
    | none => s)

/-- FIRN_COMMIT_WRITE: the host writes `FIRN_COMMIT` (R440). -/
def execFirnCommitWrite (step : W32) (s : State) : Host.Outcome State Fault Refusal :=
  .next (hostWrite (hostCtl s) (rput R.FIRN_COMMIT step.toNat) s)

end Sys2Proof.Machine
end

