-- ==== Sys2Proof/Machine/Fabric.lean ====
section
/-! DEFINITION. Mosija ports and their link layer, and packets that arrive at this module (R343, R346 to R354, R357 to R361, R366,
R367, R373, R374, R452). -/

namespace Sys2Proof.Machine

/-! ### Ports (Table 13-4) -/

/-- Packets that came in by a port keep nothing of its receive buffers: they start anew with it. -/
def loseBuf (p : Nat) (h : HeldPkt) : HeldPkt :=
  { h with inp := h.inp.map (fun b => if b.port = p then { b with flits := 0 } else b) }

/-- The link state of a port starts anew. -/
def renewPort (p : Nat) (s : State) : State :=
  { s with ports := mdel s.ports p, heldPkts := s.heldPkts.map (loseBuf p), waitSeg := s.waitSeg.map (loseBuf p) }

/-- Packets queued for a port, or sent on it and unacknowledged, are dropped and counted; the port's link state starts anew. -/
def dropPort (p : Nat) (s : State) : State :=
  let q := s.heldPkts.filter (fun h => h.out == some p)
  let s := rinc R.MOS_LINK_DROP F.MOS_LINK_DROP_COUNT ((s.port p).unacked.length + q.length) s
  let s := q.foldl (fun s h => freeBuf h.inp s) { s with heldPkts := s.heldPkts.filter (fun h => h.out != some p) }
  renewPort p s

/-- Dimension of a port. -/
def portDim (p : Nat) : Nat := p % 6 / 2

/-- A host write of a port's register: its fabric I/O die must be ON (R423). -/
def hostPort (p : PortId) (f : State → State) (s : State) : Host.Outcome State Fault Refusal :=
  .next (if p.toNat < 24 then hostWrite (6 + p.toNat / 6) f s else s)

/-- `MOSP_CTL.EN` written 1. -/
def portEnable (p : Nat) (s : State) : State :=
  let s := rset (R.MOSP_STATUS p) F.MOSP_STATUS_RETRAINS 0 (rset (R.MOSP_CTL p) F.MOSP_CTL_EN 1 s)
  if portState s p = poDisabled ∧ rbit s R.MOS_CTL F.MOS_CTL_EN = true then setPortState p poTraining s else s

/-- `MOSP_CTL.EN` written 0. -/
def portDisable (p : Nat) (s : State) : State :=
  let s := rset (R.MOSP_CTL p) F.MOSP_CTL_EN 0 s
  let k := portState s p
  if k = poTraining ∨ k = poDown then retryPkts (setPortState p poDisabled s)
  else if k = poUp then setPortState p poDraining s
  else s

/-- `MOS_CTL.EN` written 0: every port is DISABLED, and packets held are dropped and counted. -/
def fabricDisable (s : State) : State :=
  let s := rset R.MOS_CTL F.MOS_CTL_EN 0 s
  let s := (List.range 24).foldl (fun s p => setPortState p poDisabled (dropPort p s)) s
  { rinc R.MOS_LINK_DROP F.MOS_LINK_DROP_COUNT (s.heldPkts.length + s.waitSeg.length) s with heldPkts := [], waitSeg := [] }

/-- A UP port starts to retrain. -/
def portRetrain (p : Nat) (s : State) : State :=
  if portState s p = poUp then
    (rinc (R.MOSP_STATUS p) F.MOSP_STATUS_RETRAINS 1 (setPortState p poRetrain s)).modPort p (fun q => { q with tries := 0 })
  else s

/-- PORT_ENABLE. -/
def execPortEnable (p : PortId) (s : State) : Host.Outcome State Fault Refusal := hostPort p (portEnable p.toNat) s

/-- PORT_DISABLE. -/
def execPortDisable (p : PortId) (s : State) : Host.Outcome State Fault Refusal := hostPort p (portDisable p.toNat) s

/-- FABRIC_DISABLE. -/
def execFabricDisable (s : State) : Host.Outcome State Fault Refusal := .next (hostWrite (hostCtl s) fabricDisable s)

/-- PORT_TRAINED: both ends have trained and the first intact trailer has come; a port of a dimension of size 1 does not train
(R343). -/
def execPortTrained (p : PortId) (s : State) : Host.Outcome State Fault Refusal :=
  .next (if p.toNat < 24 ∧ portState s p.toNat = poTraining ∧ sizeOf' s (portDim p.toNat) ≠ 1 then
      retryPkts (setPortState p.toNat poUp (renewPort p.toNat s))
    else s)

/-- PORT_ACK_TIMEOUT: no acknowledgement progress, or no intact trailer, for 100 µs. -/
def execPortAckTimeout (p : PortId) (s : State) : Host.Outcome State Fault Refusal := .next (portRetrain p.toNat s)

/-- LANE_LOCK_LOST. -/
def execLaneLockLost (p : PortId) (s : State) : Host.Outcome State Fault Refusal := .next (portRetrain p.toNat s)

/-- PORT_RETRAINED: the port resumes, resending from ACK + 1; it starts with full credits, as each time it enters UP (R349). -/
def execPortRetrained (p : PortId) (s : State) : Host.Outcome State Fault Refusal :=
  .next (if portState s p.toNat = poRetrain then
      retryPkts (setPortState p.toNat poUp
        ((rinc (R.MOSP_REPLAY p.toNat) F.MOSP_REPLAY_COUNT (unackedGroups s p.toNat) s).modPort p.toNat
          (fun q => { q with credits := [] })))
    else s)

/-- RETRAIN_TIMEOUT: 1 ms without success; the third time the port goes DOWN. -/
def execRetrainTimeout (p : PortId) (s : State) : Host.Outcome State Fault Refusal :=
  .next (if portState s p.toNat = poRetrain then
      if 2 ≤ (s.port p.toNat).tries then
        retryPkts (alert 5 (setPortState p.toNat poDown (dropPort p.toNat s)))
      else s.modPort p.toNat (fun q => { q with tries := q.tries + 1 })
    else s)

/-- PORT_DRAIN_DONE: every sent group is acknowledged, or 100 µs have passed. -/
def execPortDrainDone (p : PortId) (s : State) : Host.Outcome State Fault Refusal :=
  .next (if portState s p.toNat = poDraining then retryPkts (setPortState p.toNat poDisabled (dropPort p.toNat s)) else s)

/-! ### Groups (R346 to R349) -/

/-- One bit of CRC-16 with polynomial 0x8BB7, most significant bit first. -/
def crc16Bit (c : Nat) : Nat := if bit c 15 then ((c * 2) % 65536).xor 0x8BB7 else (c * 2) % 65536

/-- The CRC of the link layer (R347). -/
def crc16 (l : List Byte) : Nat :=
  l.foldl (fun c b => (List.range 8).foldl (fun c _ => crc16Bit c) (c.xor (b.toNat * 256))) 0xFFFF

/-- Bytes of a trailer, and a field of it (Table 13-3). -/
def trailerBytes (g : LinkGroup) : List Byte := natLe 64 g.trailer.toNat
def trailerF (g : LinkGroup) (off n : Nat) : Nat := leAt (trailerBytes g) off n

/-- The trailer's own CRC checks. -/
def tcrcOk (g : LinkGroup) : Bool :=
  let l := trailerBytes g
  trailerF g 0x0E 2 == crc16 (l.take 0x0E ++ l.drop 0x10)

/-- Slots of a group that hold a data flit. -/
def validSlots (g : LinkGroup) : List Nat := (List.range 24).filter (fun i => bit (trailerF g 5 3) i)

/-- Slots whose CRC fails, idle ones among them (R347, R348). -/
def badSlots (g : LinkGroup) : List Nat :=
  (List.range 24).filter (fun i => trailerF g (0x10 + 2 * i) 2 != crc16 (padTo 64 (g.slots.drop (64 * i))))

/-- What a far end acknowledges leaves the replay store: whole packets, and the first groups of one. -/
def ackPkts (ack : Nat) (l : List SentPkt) : List SentPkt :=
  (l.filter (fun e => decide (2 ^ 15 ≤ (ack + 65536 - e.last) % 65536))).map
    (fun e => { e with groups := min e.groups ((e.last + 65536 - ack) % 65536) })

def takeAck (p ack : Nat) (s : State) : State := s.modPort p (fun q => { q with unacked := ackPkts ack q.unacked })

/-- Credits that a group returns. -/
def takeCredits (p : Nat) (g : LinkGroup) (s : State) : State :=
  (List.range 6).foldl (fun s vc =>
    s.modPort p (fun q => { q with
      credits := mset (fun _ => 1024) q.credits vc (min 1024 (mget (fun _ => 1024) q.credits vc + trailerF g (8 + vc) 1)) })) s

/-- LINK_GROUP_RECEIVE: a group arrives on a port, with the FEC codewords that were corrected and that were not (R348, R349). -/
def execLinkGroupReceive (p : PortId) (g : LinkGroup) (corr unc : Nat) (s : State) : Host.Outcome State Fault Refusal :=
  .next (
    let n := p.toNat
    if n < 24 ∧ (portState s n = poUp ∨ portState s n = poDraining) then
      let s := rinc (R.MOSP_FEC_UNC n) F.MOSP_FEC_UNC_COUNT unc (rinc (R.MOSP_FEC n) F.MOSP_FEC_CORR corr s)
      let s := rinc (R.MOSP_CRCERR n) F.MOSP_CRCERR_COUNT ((badSlots g).length + b2n (!tcrcOk g)) s
      if tcrcOk g then
        let bad := (validSlots g).any ((badSlots g).contains ·)
        let s := takeAck n (trailerF g 2 2) s
        let s := if bit (trailerF g 4 1) 0 then rinc (R.MOSP_REPLAY n) F.MOSP_REPLAY_COUNT (unackedGroups s n) s else s
        let s := if bad = false ∧ trailerF g 0 2 = (s.port n).rxSeq then
            let s := rinc (R.MOSP_RXFLITS n) F.MOSP_RXFLITS_COUNT (validSlots g).length s
            takeCredits n g (s.modPort n (fun q => { q with rxSeq := (q.rxSeq + 1) % 65536, nak := false }))
          else s.modPort n (fun q => { q with nak := true })
        retryPkts s
      else s.modPort n (fun q => { q with nak := true })
    else s)

/-- FABRIC_HOLD_DROP: the held packet with number `i` has been held 100 µs; SEG packets are exempt (R359, R367). -/
def execFabricHoldDrop (i : Nat) (s : State) : Host.Outcome State Fault Refusal :=
  .next (match s.heldPkts[i]? with
    | some h =>
      if h.pkt.type = pkSeg then s
      else
        freeBuf h.inp { rinc R.MOS_HOLD_DROP F.MOS_HOLD_DROP_COUNT 1 s with heldPkts := s.heldPkts.eraseIdx i }
    | none => s)

/-! ### Packets that arrive (R353, R354, R357, R361, R423, R424, R452) -/

/-- The REPLY to a request packet, in the name of the module it is for: its requester knows it by that (R351). -/
def answer (k : Packet) (st : Status) (data : List Byte) (s : State) : State :=
  let sub := if k.type = pkWrite then 0 else if k.type = pkRead then 1 else if k.type = pkAadd then 2 else 3
  answerPacket k.dst (BitVec.ofNat 15 k.src) k.unit k.tag sub st data s

/-- A request that is answered: not a notice. -/
def isRequest (k : Packet) : Bool :=
  k.type == pkWrite || k.type == pkRead || k.type == pkAadd || (k.type == pkMsg && k.sub == 0)

/-- A packet for a unit that is not there is dropped and counted (R423). -/
def orphanPkt (s : State) : State := rinc R.PDC_ORPHAN F.PDC_ORPHAN_COUNT 1 s

/-- What a packet fills of the receive buffer of the port it comes in by (R349, R352). -/
def inBuf (s : State) (p : Nat) (k : Packet) : InBuf := ⟨p, k.vc, pktFlits (s.port p).halfRx k⟩

/-- A packet has come in by a port. -/
def takeIn (p : Nat) (k : Packet) (s : State) : State := s.modPort p (fun q => { q with halfRx := flipHalf q.halfRx k.vc })

/-- A packet has come in by a port and leaves nothing in its receive buffer. -/
def passed (p : Nat) (k : Packet) (s : State) : State := freeBuf (some (inBuf s p k)) (takeIn p k s)

/-- A packet arrives on a port; `bad` says that its buffered data have an uncorrectable error (R351): a request is answered with
FAULT_ECC, a REPLY carries the status on, a segment goes on with its error. It is discarded where its header is malformed or its
origin fenced, refused while the die drains, forwarded while it has hops left, and else served. -/
def packetIn (p : PortId) (k : Packet) (bad : Bool) (is : Packet → Bool) (serve : InBuf → State → State) (s : State) :
    Host.Outcome State Fault Refusal :=
  let n := p.toNat
  let fio := n / 6
  let b := inBuf s n k
  .next (
    if n < 24 ∧ (portState s n = poUp ∨ portState s n = poDraining) then
      let u := passed n k s
      if !packetOk k then rinc R.MOS_UNROUTABLE F.MOS_UNROUTABLE_COUNT 1 u
      else if !is k then u
      else if k.type ≠ pkReply ∧ fenced s k.src = true then rinc R.CALVE_FENCED F.CALVE_FENCED_COUNT 1 u
      else if !s.domOn (6 + fio) ∧ k.type = pkSeg then orphanPkt u
      else if !s.domOn (6 + fio) ∧ k.type ≠ pkReply then (if isRequest k then answer k .retryLater [] u else u)
      else if bad ∧ isRequest k = true then answer k .faultEcc [] u
      else if bad ∧ k.type = pkMsg then (if arrived k then serve b u else u)
      else
        let spoilt := bad && k.type == pkReply
        let k' := if spoilt then { (k.put 0x10 1 Status.faultEcc.code).put 0x0E 1 0 with data := [] } else k
        if arrived k then
          (if k.dst = s.devId then (if k.type = pkSeg then serve b (takeIn n k s) else serve b u)
            else rinc R.MOS_UNROUTABLE F.MOS_UNROUTABLE_COUNT 1 u)
        else routePkt ⟨fio, some b, none, bad && !spoilt, k'⟩ (takeIn n k s)
    else s)

/-- Address of a WRITE, READ or AADD packet. -/
def pkAddr (k : Packet) : Nat := pF k 0x10 8

/-- The cells of each line that a WRITE packet delivers. -/
def writeLines (k : Packet) : List (List (Nat × Byte)) :=
  if k.lines = 1 then
    let n := if pF k 0x18 1 = 0 then 64 else pF k 0x18 1
    [(padTo n k.data).zipIdx.map (fun e => (pkAddr k + e.2, e.1))]
  else (List.range k.lines).map (fun i =>
    (padTo 64 (k.data.drop (64 * i))).zipIdx.map (fun e => (pkAddr k + 64 * i + e.2, e.1)))

/-- A request served at the unit that its address names: refused where no form of Table 13-6 has it (log entry 41), dropped where
that unit is not there, refused while a tile drains. -/
def atTarget (k : Packet) (f : State → Status × List Byte × State) (s : State) : State :=
  let go (s : State) : State :=
    let r := f s
    answer k r.1 r.2.1 r.2.2
  if packetOdd k then answer k .protection [] s
  else match place (pkAddr k) with
  | .spad t _ =>
    if !s.domReach (16 + tileDie t) then rinc (R.MESH_ORPHAN t.toNat) F.MESH_ORPHAN_COUNT 1 s
    else if s.tileDraining t then answer k .retryLater [] s
    else go s
  | .hbm n => if s.domReach (48 + n) then go s else orphanPkt s
  | _ => go s

/-- One line of a WRITE at its target (R91, R361). -/
def packetLine (k : Packet) (cells : List (Nat × Byte)) (s : State) : Status × State :=
  match place (cells.headD (0, 0)).1 with
  | .spad t _ => windowWrite t cells k.src k.unit s
  | _ => localWrite cells s

/-- The lines of a WRITE, in address order: the status of the first that is refused. -/
def packetLines (k : Packet) : List (List (Nat × Byte)) → State → Status × State
  | [], s => (.ok, s)
  | l :: ls, s =>
    let r := packetLine k l s
    let q := packetLines k ls r.2
    (if r.1 = .ok then q.1 else r.1, q.2)

/-- WRITE. -/
def execWrite (p : PortId) (k : Packet) (bad : Bool) (s : State) : Host.Outcome State Fault Refusal :=
  packetIn p k bad (fun k => k.type == pkWrite) (fun _ s =>
    atTarget k (fun s =>
      let r := packetLines k (writeLines k) s
      let s := if headerTouched r.2 ((writeLines k).flatMap (·.map (·.1))) then refreshBank r.2 else r.2
      (r.1, [], s)) s) s

/-- READ. -/
def execRead (p : PortId) (k : Packet) (bad : Bool) (s : State) : Host.Outcome State Fault Refusal :=
  packetIn p k bad (fun k => k.type == pkRead) (fun _ s =>
    atTarget k (localRead ((List.range (64 * pF k 0x18 1)).map (pkAddr k + ·))) s) s

/-- AADD. -/
def execAadd (p : PortId) (k : Packet) (bad : Bool) (s : State) : Host.Outcome State Fault Refusal :=
  packetIn p k bad (fun k => k.type == pkAadd) (fun _ s =>
    atTarget k (fun s =>
      let v : Word := BitVec.ofNat 64 (pF k 0x18 8)
      let r := match place (pkAddr k) with
        | .spad t _ => windowAadd t (pkAddr k) (bit k.sub 0) v k.src k.unit s
        | _ => localAadd (pkAddr k) (bit k.sub 0) v s
      (r.1, if bit k.sub 1 then r.2.1 else [], r.2.2)) s) s

/-- POST: PROTECTION for a tile or a semaphore that does not exist, or a disabled tile (R119). -/
def execPost (p : PortId) (k : Packet) (bad : Bool) (s : State) : Host.Outcome State Fault Refusal :=
  packetIn p k bad (fun k => k.type == pkMsg && k.sub == 0) (fun _ s =>
    let t : TileId := BitVec.ofNat 11 (pF k 0x10 2)
    if packetOdd k = true ∨ 2048 ≤ pF k 0x10 2 ∨ 64 ≤ pF k 0x12 1 then answer k .protection [] s
    else if !s.domReach (16 + tileDie t) then rinc (R.MESH_ORPHAN t.toNat) F.MESH_ORPHAN_COUNT 1 s
    else if s.tileDraining t then answer k .retryLater [] s
    else if !s.enabled t then answer k .protection [] s
    else answer k .ok [] (semPost t (BitVec.ofNat 6 (pF k 0x12 1)) (pF k 0x14 2) s)) s

/-- Group of a notice. -/
def noticeGroup (k : Packet) : Nat := pF k 0x10 2 % 4096

/-- NOTICE_EPOCH: the segment it names ends with GROUP_EPOCH (R373). -/
def execNoticeEpoch (p : PortId) (k : Packet) (bad : Bool) (s : State) : Host.Outcome State Fault Refusal :=
  packetIn p k bad (fun k => k.type == pkMsg && k.sub == 2) (fun _ s =>
    let n := noticeGroup k
    if bad then s
    else
      match findSeg s n (pF k 0x18 4) with
      | some g => pumpSegs 8 (gEngine n) (segFail g .groupEpoch 0 true s)
      | none => s) s

/-- NOTICE_ABORT of the current epoch: the group is FAILED and its segments in flight end ABORTED (R365, R374). -/
def execNoticeAbort (p : PortId) (k : Packet) (bad : Bool) (s : State) : Host.Outcome State Fault Refusal :=
  packetIn p k bad (fun k => k.type == pkMsg && k.sub == 3) (fun _ s =>
    let n := noticeGroup k
    if bad ∨ pF k 0x14 4 ≠ gEpoch s n ∨ gState s n = grFailed then s
    else pumpSegs 8 (gEngine n) (setGState n grFailed (groupAbort n s))) s

/-- SEG. -/
def execSeg (p : PortId) (k : Packet) (bad : Bool) (s : State) : Host.Outcome State Fault Refusal :=
  packetIn p k bad (fun k => k.type == pkSeg) (fun b s =>
    let e := gEngine (sgGroup k)
    if 4096 ≤ sgGroup k then freeBuf (some b) s
    else if !s.domOn (6 + e) then orphanPkt (freeBuf (some b) s)
    else pumpSegs 8 e (segStep ⟨p.toNat / 6, some b, none, bad, k⟩ s)) s

/-- The request that a REPLY answers: sent to its origin, with its tag. -/
def replyTxn (s : State) (k : Packet) : Option (Nat × Txn) :=
  s.txns.find? (fun e => decide (e.2.dst = .dev (BitVec.ofNat 15 k.src)) && e.1 % 65536 == k.tag &&
    replySub e.2.op == k.sub &&
    (match e.2.phase with
    | .request | .lost | .refused => true
    | .reply _ _ => false))

/-- The data of a REPLY as its request asked for them. -/
def replyData (k : Packet) (x : Txn) : List Byte :=
  match x.op with
  | .read addrs => addrs.map (fun a => k.data.getD (a - addrs.headD 0 / 64 * 64) 0)
  | .aadd _ wide _ true => natLe (if wide then 8 else 4) (pF k 0x18 8)
  | _ => []

/-- A REPLY for a unit that is not there is dropped and counted (R359, R423). -/
def orphanReply (k : Packet) (s : State) : State :=
  if 0x7FE ≤ k.unit then (if s.domReach (hostCtl s) then s else orphanPkt s)
  else if s.domReach (16 + k.unit / 64) then s
  else rinc (R.MESH_ORPHAN k.unit) F.MESH_ORPHAN_COUNT 1 s

/-- REPLY: the answer of another module reaches its requester; a mirror push goes on where it was waited for. -/
def execReply (p : PortId) (k : Packet) (bad : Bool) (s : State) : Host.Outcome State Fault Refusal :=
  packetIn p k bad (fun k => k.type == pkReply) (fun _ s =>
    match replyTxn s k with
    | some (id, x) =>
      let st := if bad then .faultEcc else Status.ofCode (pF k 0x10 1)
      let s := takeReply id x st (if st = .ok then replyData k x else []) s
      match x.iss with
      | .mirror q seq => pushAdvance 5 q seq s
      | .firn q seq => if s.push.any (fun p => decide (p.q = q ∧ p.seq = seq)) then pushAdvance 5 q seq s else s
      | _ => s
    | none => orphanReply k s) s

end Sys2Proof.Machine
end

