-- ==== Sys2Proof/Machine/Ledger.lean ====
section
/-! DEFINITION. The Snowpack ledger: ticks, balance, reservations, modes, admission, dividers, voltage requests and telemetry
(R382 to R405). Energies are in nJ and powers in mW (log entry 20). -/

namespace Sys2Proof.Machine

def State.modLedger (s : State) (f : Ledger → Ledger) : State := { s with ledger := f s.ledger }

/-! ### Dividers and voltage (R399 to R401) -/

def ledgDiv (s : State) : Nat := rget s R.LEDG_STATUS F.LEDG_STATUS_DIV

def avsFail (s : State) : Bool := rbit s R.LEDG_STATUS F.LEDG_STATUS_AVS_FAIL

/-- `LEDG_CTL.FIXED` acts (R397). -/
def ledgFixed (s : State) : Bool := ledgExpert s && rbit s R.LEDG_CTL F.LEDG_CTL_FIXED

def fixDiv (s : State) : Nat := rget s R.LEDG_CTL F.LEDG_CTL_FIX_DIV

/-- The divider index changes on all dies. -/
def setDivider (d : Nat) (s : State) : State :=
  rinc R.LEDG_DIVCHG F.LEDG_DIVCHG_COUNT 1
    (rset R.LEDG_STATUS F.LEDG_STATUS_DIV d (s.modLedger (fun l => { l with hold := 0 })))

/-- A voltage request: sent, or kept behind the one that is outstanding, which then switches to no faster divider (R401). -/
def requestVolt (target : Nat) (goal : Option Nat) (s : State) : State :=
  rset R.LEDG_STATUS F.LEDG_STATUS_CHANGING 1 (s.modLedger (fun l =>
    if l.volt.isSome then { l with next := some target, goal := none }
    else { l with volt := some target, goal := goal, tries := 0 }))

/-- A slow-down: the divider first, then the lower voltage (R399). -/
def slowTo (d : Nat) (s : State) : State :=
  if d ≤ ledgDiv s then s else requestVolt (vtab s d) none (setDivider d s)

/-- The outstanding request ends; the one kept behind it is sent. -/
def endVolt (s : State) : State :=
  let s := s.modLedger (fun l => { l with volt := l.next, next := none, goal := none, tries := 0 })
  rset R.LEDG_STATUS F.LEDG_STATUS_CHANGING (b2n s.ledger.volt.isSome) s

/-- AVS_VDONE: the request is acknowledged, and the faster divider it was made for takes effect. -/
def execAvsVdone (s : State) : Host.Outcome State Fault Refusal :=
  .next (match s.ledger.volt with
    | some v =>
      let s := s.modLedger (fun l => { l with vdd := v })
      endVolt (match s.ledger.goal with
        | some d => setDivider d s
        | none => s)
    | none => s)

/-- AVS_ATTEMPT_TIMEOUT: 1 ms without VDone; the third failure sets AVS_FAIL, and the rail is at the old or the requested voltage
(R401): a free value says which (log entry 3). -/
def execAvsAttemptTimeout (s : State) : Host.Outcome State Fault Refusal :=
  .next (match s.ledger.volt with
    | some v =>
      let s := rinc R.LEDG_AVS_ERR F.LEDG_AVS_ERR_COUNT 1 (s.modLedger (fun l => { l with tries := l.tries + 1 }))
      if s.ledger.tries < 3 then s
      else
        let f := freeWord s
        endVolt (alert 4 (rset R.LEDG_STATUS F.LEDG_STATUS_AVS_FAIL 1
          (f.2.modLedger (fun l => { l with vdd := if f.1.getLsbD 0 then v else l.vdd }))))
    | none => s)

/-! ### Counting, balance and reservations (R382 to R387) -/

/-- An event is scaled by s_d (Table 14-1). -/
def evScaled (i : Nat) : Bool := decide (i ≤ 8) || i == 12

/-- Silicon energy of counts, fJ; events 14 and 15 count nothing. -/
def countsFj (s : State) (l : List EventCount) : Nat :=
  l.foldl (fun a e =>
    let i := e.event.toNat
    if 14 ≤ i then a
    else a + e.count * coef s i * (if evScaled i then scaleD s (ledgDiv s) else 1024)) 0 / 1024

/-- Static silicon energy of a tick, fJ. -/
def staticFj (s : State) : Nat := rget s R.LEDG_STATIC F.LEDG_STATIC_W * 10 ^ 10

/-- Each admitted command's used energy rises by what the tick attributes to it (R384). -/
def attributeUse (counts : List EventCount) (s : State) : State :=
  ((counts.filterMap (·.owner)).dedup).foldl (fun s o =>
    s.modCmd o.1 o.2 (fun c =>
      if dispatched c then
        { c with used := c.used + toInput s (countsFj s (counts.filter (fun e => decide (e.owner = some o)))) / 10 ^ 6 }
      else c)) s

/-- The admitted commands that have not completed. -/
def admittedCmds (s : State) : List Cmd := s.queues.flatMap (fun e => e.2.cmds.filter dispatched)

/-- Sum of reservations, nJ (R387). -/
def reservations (s : State) : Nat := ((admittedCmds s).map (fun c => c.est - c.used)).sum

/-- Available energy, nJ (R387). -/
def available (s : State) : Int := s.ledger.bal - reservations s

/-- `LEDG_CAP` as this tick sees it, nJ. -/
def capNj (s : State) : Int := ((if s.ledger.cap = 0 then 1000 else min 30000 s.ledger.cap) * 10 ^ 9 : Nat)

/-- Deferral cap in ticks (R393). -/
def maxDefer (s : State) : Nat := (if s.ledger.defer = 0 then 50 else min 10000 s.ledger.defer) * 100

/-- `LEDG_PEAK`, mW. -/
def peakMax (s : State) : Nat := min 5000 (rget s R.LEDG_PEAK F.LEDG_PEAK_W) * 1000

/-- The balance held within its limits, and shown (R383, R386). -/
def setBal (b : Int) (s : State) : State :=
  let b := max (-(2 ^ 31 * 16000)) (min (capNj s) b)
  rput R.LEDG_BAL (ofInt 32 (Int.tdiv b 16000)) (s.modLedger (fun l => { l with bal := b }))

/-! ### Modes (R402, Table 14-5) -/

def lmNormal : Nat := 0
def lmThrottle : Nat := 1
def lmRecovery : Nat := 2
def lmClamp : Nat := 3

def ledgMode (s : State) : Nat := rget s R.LEDG_STATUS F.LEDG_STATUS_MODE

/-- HARD and SOFT in force. -/
def thermHard (s : State) : Nat := if ledgExpert s then min 104 (rget s R.LEDG_THERM F.LEDG_THERM_HARD) else 0x66
def thermSoft (s : State) : Nat :=
  if ledgExpert s then min (thermHard s - 1) (rget s R.LEDG_THERM F.LEDG_THERM_SOFT) else 0x5F

/-- The refill factor f of a mode at a temperature, as numerator and denominator. -/
def refill (s : State) (mode tj : Nat) : Nat × Nat :=
  let h := thermHard s
  let soft := thermSoft s
  let hot := if h - soft ≤ 4 * (h - tj) ∧ soft < h then (h - tj, h - soft) else (1, 4)
  if mode = lmClamp then (1, 4)
  else if mode = lmThrottle then hot
  else if mode = lmRecovery ∧ soft ≤ tj then hot
  else (1, 1)

/-- The mode of a tick: the first rule that holds. -/
def nextMode (s : State) (was tj : Nat) (brake : Bool) : Nat :=
  let b := s.ledger.bal
  if brake = true ∨ thermHard s ≤ tj ∨ (was = lmClamp ∧ thermHard s ≤ tj + 3) then lmClamp
  else if b < -((s.ledger.reserve * 10 ^ 9 : Nat) : Int) ∨ (was = lmRecovery ∧ b < 0) then lmRecovery
  else if thermSoft s ≤ tj ∨ (was = lmThrottle ∧ thermSoft s ≤ tj + 2) then lmThrottle
  else lmNormal

/-! ### Admission (R391 to R398) -/

def candPrio (s : State) (c : Cmd) : Nat :=
  if cmdOp c = opLaunch then cF c 0x30 1 else rget s R.LEDG_CTL F.LEDG_CTL_SYS_PRIO

def candDiv (c : Cmd) : Nat := if cmdOp c = opLaunch then cF c 0x31 1 else 3

/-- A candidate put at its place: higher priority first, then longer wait, then queue and queue order as they stand. -/
def putCand (s : State) (x : QIdx × Cmd) : List (QIdx × Cmd) → List (QIdx × Cmd)
  | [] => [x]
  | y :: ys =>
    let p (c : Cmd) : Nat := candPrio s c
    if p y.2 < p x.2 ∨ (p y.2 = p x.2 ∧ y.2.wait < x.2.wait) then x :: y :: ys else y :: putCand s x ys

/-- The candidates in the order of R391. -/
def candidates (s : State) : List (QIdx × Cmd) :=
  (s.queues.flatMap (fun e => (e.2.cmds.filter (fun c => decide (c.phase = .candidate))).map
    (fun c => ((BitVec.ofNat 6 e.1 : QIdx), c)))).foldl (fun l x => putCand s x l) []

/-- Peak power of an admitted command scaled to a divider, or, for a running launch under HINT_EN, the sum over its tiles of the
power of each one's last LHINT class (R393, R398). -/
def peakAt (s : State) (c : Cmd) (d : Nat) : Nat :=
  if cmdOp c = opLaunch then
    let p := c.peak * scaleD s d * 4 / (1024 * divider d)
    if ledgExpert s && rbit s R.LEDG_CTL F.LEDG_CTL_HINT_EN && decide (c.phase = .running) then
      c.tiles.foldl (fun a t =>
        match (s.tile (BitVec.ofNat 11 t)).x.hint with
        | some k => a + bits (rraw s R.LEDG_HINTW) (8 * k.toNat) 8 * 25
        | none => a + p / c.tiles.length) 0
    else p
  else c.peak

/-- The peak P at a divider, mW (R393). -/
def peakNow (s : State) (d : Nat) : Nat :=
  toInput s (rget s R.LEDG_STATIC F.LEDG_STATIC_W * 1000) + ((admittedCmds s).map (fun c => peakAt s c d)).sum

/-- The smallest DIV_MAX of the admitted commands; ÷8 with none. -/
def admittedLim (s : State) : Nat := (admittedCmds s).foldl (fun m c => min m c.div) 3

/-- The first divider at which a candidate fits. -/
def fits (s : State) (c : Cmd) : List Nat → Option Nat
  | [] => none
  | d :: ds =>
    if ((estimate s c d).1 : Int) ≤ available s ∧ peakNow s d + peakOf s c d ≤ peakMax s then some d else fits s c ds

/-- The dividers a candidate is tested at, fastest first (R393, R397). -/
def testDivs (s : State) (c : Cmd) : List Nat :=
  if ledgFixed s then [fixDiv s]
  else (List.range 4).filter (fun d => decide (ledgDiv s ≤ d ∧ d ≤ min (candDiv c) (admittedLim s)))

/-- The divider of an admission at the deferral cap (R393). -/
def capDiv (s : State) (c : Cmd) (mode : Nat) : Nat :=
  let lim := min (candDiv c) (admittedLim s)
  if mode = lmClamp then ledgDiv s
  else if ledgFixed s then fixDiv s
  else if avsFail s ∨ lim < ledgDiv s then ledgDiv s
  else lim

/-- What a pass has found so far: whether its first candidate waited only because the divider exceeded its DIV_MAX, whether one
waited for energy, and how many waited. -/
structure PassLog where
  first  : Option Bool
  energy : Bool
  waited : Nat
  deriving DecidableEq, Repr

/-- A candidate waits. -/
def passWait (slow energy : Bool) (k : PassLog) : PassLog :=
  ⟨some (k.first.getD slow), k.energy || energy, k.waited + 1⟩

/-- The pass visits one candidate (R393). One that is no longer eligible, as when an earlier admission took its tiles, is skipped
(R507); where no completion entry may be taken it waits (R47). -/
def visit (mode : Nat) (q : QIdx) (seq : W32) (k : PassLog) (s : State) : PassLog × State :=
  match s.cmd q seq with
  | none => (k, s)
  | some c =>
    match c.phase with
    | .candidate =>
      let admitted : PassLog := { k with first := some (k.first.getD false) }
      if !eligible s q c then (k, s)
      else if cqHalted s q then (passWait false false k, rset (R.QSTAT q.toNat) F.QSTAT_CQ_FULL 1 s)
      else if maxDefer s ≤ c.wait then
        let d := capDiv s c mode
        (admitted, dispatchCmd q c true d (rinc R.LEDG_DEFERS F.LEDG_DEFERS_COUNT 1 (slowTo d s)))
      else if mode = lmRecovery ∨ mode = lmClamp then (passWait false false k, s)
      else
        let ds := testDivs s c
        match fits s c ds with
        | some d => (admitted, dispatchCmd q c false d (slowTo d s))
        | none =>
          (passWait (decide (candDiv c < ledgDiv s) && !ledgFixed s)
            (match ds.getLast? with
              | some d => decide (available s < ((estimate s c d).1 : Int))
              | none => false) k, s)
    | _ => (k, s)

/-- Candidates visited in order. -/
def visitAll (mode : Nat) : List (QIdx × Cmd) → PassLog → State → PassLog × State
  | [], k, s => (k, s)
  | x :: xs, k, s =>
    let r := visit mode x.1 x.2.seq k s
    visitAll mode xs r.1 r.2

/-- The wait timers of the candidates that are left rise by ticks. -/
def ageCandidates (n : Nat) (s : State) : State :=
  (s.queues.map (·.1)).foldl (fun s q => s.modQueue (BitVec.ofNat 6 q) (fun h => { h with
    cmds := h.cmds.map (fun c => if c.phase = .candidate then { c with wait := c.wait + n } else c) })) s

/-! ### Tags (R389) -/

/-- A number moved towards another by a fraction of the distance, rounded toward zero. -/
def approach (x y : Nat) (n : Nat) : Nat := ((x : Int) + Int.tdiv ((y : Int) - x) n).toNat

/-- One completed launch folded into its tag entry. An estimate of 0 gives a ratio the spec does not state: a free value within the
clamp (log entry 3). -/
def foldTag (tag used est : Nat) (s : State) : State :=
  let o := R.LEDG_TAG (tagEntry tag)
  let f := freeWord s
  let r := if est = 0 then f.1.toNat else 4096 * used / est
  let s := if est = 0 then f.2 else s
  rinc o F.LEDG_TAG_SAMPLES 1
    (rset o F.LEDG_TAG_RATIO (approach (rget s o F.LEDG_TAG_RATIO) (min 16384 (max 1024 r)) 8) s)

/-- Tag entries at the start of a pass: cleared when that was asked, then the completions folded in. -/
def passTags (s : State) : State :=
  let s := if s.ledger.tagClr then rclear (R.LEDG_TAG 0) (R.LEDG_TAG 1024) s else s
  let l := s.ledger.done
  l.foldl (fun s e => foldTag e.1 e.2.1 e.2.2 s) (s.modLedger (fun l => { l with done := [], tagClr := false }))

/-! ### The tick (R382, R386, R392, R400, R402, R403) -/

/-- The tile at which the mesh part of a transaction ends: its target tile, or the port tile of its stack (R504). -/
def moveEnd (m : MeshMove) : TileId :=
  match m.stack with
  | some k => portTile k.toNat (tileX m.src)
  | none => m.dst

/-- The counts of the mesh: one per hop and 128 bytes, and one per die edge crossed and 64 bytes (Table 14-1, R20). -/
def moveCounts (m : MeshMove) : List EventCount :=
  [⟨m.owner, 7, ceilDiv m.bytes 128 * meshHops m.src (moveEnd m)⟩, ⟨m.owner, 8, ceilDiv m.bytes 64 * meshEdges m.src (moveEnd m)⟩]

/-- What the units report for a tick: the counts given, with the mesh's own from its transactions. -/
def tickCounts (counts : List EventCount) (moves : List MeshMove) : List EventCount :=
  counts.filter (fun e => e.event != 7 && e.event != 8) ++ moves.flatMap moveCounts

/-- A memory error arises in a codeword (Table 1-5); one that is already beyond correction stays as it is. -/
def upset (u : Upset) (s : State) : State :=
  match eccAt s u.cw with
  | .good | .correctable => setEcc u.cw (if u.fatal then .uncorrectable else .correctable) s
  | _ => s

/-- Step 2: the tick's energy is counted, attributed and debited, and the budget refills. -/
def passBalance (counts : List EventCount) (s : State) : State :=
  let fj := countsFj s counts + staticFj s
  let inp := toInput s fj / 10 ^ 6
  let f : Nat × Nat := refill s (ledgMode s) (rget s R.LEDG_STATUS F.LEDG_STATUS_TJ_MAX)
  let gain : Nat := min 5000 s.ledger.budget * 10 ^ 4 * f.1 / f.2
  let s := attributeUse counts s
  let tot := s.ledger.inRem + inp
  let s := rinc R.LEDG_ECOUNT F.LEDG_ECOUNT_E (tot / 16000)
    (s.modLedger (fun l => { l with silicon := l.silicon + fj / 10 ^ 6, inRem := tot % 16000 }))
  setBal (s.ledger.bal + gain - inp) s

/-- Step 3: temperature and PWRBRK# are sampled, the mode is set, and the divider it calls for is taken. -/
def passMode (tj : Nat) (brake : Bool) (s : State) : State :=
  let m := nextMode s (ledgMode s) tj brake
  let o := R.LEDG_STATUS
  let s := rset o F.LEDG_STATUS_MODE m (rset o F.LEDG_STATUS_TJ_MAX tj (rset o F.LEDG_STATUS_PWRBRK (b2n brake) s))
  let s := rset R.MOD_STRAP F.MOD_STRAP_PWRBRK (b2n brake) s
  if m = lmClamp then slowTo 3 s
  else if ledgFixed s then
    if fixDiv s < ledgDiv s ∧ s.ledger.volt.isNone ∧ avsFail s = false then
      requestVolt (vtab s (fixDiv s)) (some (fixDiv s)) s
    else slowTo (fixDiv s) s
  else if m = lmRecovery then slowTo (admittedLim s) s
  else s

/-- Step 5: a speed-up by one index when R400 allows it. -/
def passSpeed (k : PassLog) (s : State) : State :=
  let d := ledgDiv s
  if 0 < d ∧ ledgMode s = lmNormal ∧ s.ledger.volt.isNone ∧ avsFail s = false ∧ ledgFixed s = false ∧
      100 ≤ s.ledger.hold ∧ (k.first = some true ∨ (k.energy = false ∧ capNj s ≤ 2 * s.ledger.bal)) then
    requestVolt (vtab s (d - 1)) (some (d - 1)) s
  else s

/-- The end of a pass: what waited is shown and ages, reservations are shown, the standby has its mirror entry, and the next tick
starts with the registers as they stand. -/
def passEnd (k : PassLog) (s : State) : State :=
  let s := rset R.LEDG_STATUS F.LEDG_STATUS_WAITING (min 4095 k.waited) (ageCandidates 1 s)
  let s := rput R.LEDG_RESV (min (2 ^ 32 - 1) (reservations s / 16000)) s
  s.modLedger (fun l => { l with
    budget := rget s R.LEDG_BUDGET F.LEDG_BUDGET_W
    cap := rget s R.LEDG_CAP F.LEDG_CAP_J
    reserve := rget s R.LEDG_RESERVE F.LEDG_RESERVE_J
    defer := rget s R.LEDG_MAX_DEFER F.LEDG_MAX_DEFER_MS
    recon := ledgRecon s
    hold := min 100 l.hold })

/-- LEDGER_TICK: the units' counts of the tick, the mesh's transactions and the memory errors that arose in it (log entry 58), the
highest junction temperature and PWRBRK#; one pass follows (R392). The controller runs while the primary control die is ON. -/
def execLedgerTick (counts : List EventCount) (moves : List MeshMove) (upsets : List Upset) (tj : BitVec 8) (pwrbrk : Bool)
    (s : State) : Host.Outcome State Fault Refusal :=
  .next (
    let s := upsets.foldl (fun s u => upset u s) s
    if s.domOn (hostCtl s) then
      let s := s.modLedger (fun l => { l with hold := l.hold + 1 })
      let s := passMode tj.toNat pwrbrk (passBalance (tickCounts counts moves) (passTags s))
      let r := visitAll (ledgMode s) (candidates s) ⟨none, false, 0⟩ s
      passEnd r.1 (passSpeed r.1 r.2)
    else s)

/-- RECONCILE: the millisecond's measured silicon energy in nJ, or none when a telemetry read failed (R385). -/
def execReconcile (measured : Option (BitVec 64)) (s : State) : Host.Outcome State Fault Refusal :=
  .next (if s.domOn (hostCtl s) then
      let c := s.ledger.silicon
      let s := s.modLedger (fun l => { l with silicon := 0 })
      match measured with
      | none => s
      | some m =>
        let tot := s.ledger.measRem + m.toNat
        let s := rinc R.LEDG_EMEAS F.LEDG_EMEAS_E (tot / 16000) (s.modLedger (fun l => { l with measRem := tot % 16000 }))
        if c = 0 then s
        else
          rset R.LEDG_RECON F.LEDG_RECON_FACTOR
            (min 8192 (max 2048 (approach (ledgRecon s) (4096 * m.toNat / c) 16))) s
    else s)

/-- TAG_CLR: the host writes 1 to `LEDG_CTL.TAG_CLR`; the next tick clears the tag table (R389). -/
def tagClr (s : State) : State := s.modLedger (fun l => { l with tagClr := true })

def execTagClr (s : State) : Host.Outcome State Fault Refusal := .next (hostWrite (hostCtl s) tagClr s)

/-- The standby's ledger takes over after a gap of `ns` nanoseconds since the last mirror entry (R404): ÷8, the mirrored balance
less the peak over the gap, older timers, and the speed-up hold from here. -/
def ledgerTakeover (ns : Nat) (s : State) : State :=
  let s := rset R.LEDG_RECON F.LEDG_RECON_FACTOR s.ledger.recon (slowTo 3 s)
  let s := setBal (s.ledger.bal - (min 5000 (rget s R.LEDG_PEAK F.LEDG_PEAK_W) * ns : Nat)) s
  (ageCandidates (ns / 10000) s).modLedger (fun l => { l with hold := 0 })

end Sys2Proof.Machine
end

