-- ==== Sys2Proof/Machine/Domain.lean ====
section
/-! DEFINITION. Power domains: requests, sequences, draining, Rime, wake events and Frost-watch (R407 to R418, R424 to R426). -/

namespace Sys2Proof.Machine

def State.modPower (s : State) (f : Power → Power) : State := { s with power := f s.power }

/-! ### Domains and their states (Table 15-1, Table 15-3) -/

def dsOff : Nat := 0
def dsPoweringUp : Nat := 1
def dsInit : Nat := 2
def dsOn : Nat := 3
def dsDraining : Nat := 4
def dsEnteringRime : Nat := 5
def dsRime : Nat := 6
def dsExitingRime : Nat := 7
def dsPoweringDown : Nat := 8
def dsFailed : Nat := 9

/-- The domains: AON, CTL0, CTL1, HIO0, HIO1, MESH, FIO0 to FIO3, CD0 to CD31, STK0 to STK15. -/
def domIds : List Nat := List.range 10 ++ (List.range 48).map (· + 16)

def isDom (n : Nat) : Bool := decide (n < 10) || decide (16 ≤ n ∧ n < 64)
def isCd (n : Nat) : Bool := decide (16 ≤ n ∧ n < 48)
def isStk (n : Nat) : Bool := decide (48 ≤ n ∧ n < 64)
def isFio (n : Nat) : Bool := decide (6 ≤ n ∧ n < 10)
def isHio (n : Nat) : Bool := n == 3 || n == 4

def dst (s : State) (n : Nat) : Nat := rget s (R.PDC_DOM_STAT n) F.PDC_DOM_STAT_STATE
def setDst (n v : Nat) (s : State) : State := rset (R.PDC_DOM_STAT n) F.PDC_DOM_STAT_STATE v s

/-- The standby control die's domain. -/
def standbyCtl (s : State) : Nat := 3 - hostCtl s

/-- Domains that need MESH and the primary control die. -/
def needsBoth (n : Nat) : Bool := isHio n || isFio n || isCd n || isStk n

/-- What a domain needs beside AON (Table 15-1). -/
def needs (s : State) (n : Nat) : List Nat := if needsBoth n then [hostCtl s, 5] else []

/-- Every need of a domain is ON. -/
def needsOk (s : State) (n : Nat) : Bool := dst s 0 == dsOn && (needs s n).all (fun k => dst s k == dsOn)

/-- A thermal trip has not been cleared. -/
def tripped (s : State) : Bool := rbit s R.PDC_TRIP F.PDC_TRIP_TRIPPED

/-- Domains may be powered up. -/
def canPower (s : State) : Bool := s.power.off.isNone && !tripped s && !s.power.perst

/-- OFF or RIME. -/
def atRest (s : State) (n : Nat) : Bool := dst s n == dsOff || dst s n == dsRime

/-- A request to take a domain down may act: no dependant is held up by it (R407, R408). -/
def downOk (s : State) (n : Nat) : Bool :=
  if n = hostCtl s then
    domIds.all (fun k => !needsBoth k || atRest s k) && dst s (standbyCtl s) == dsOff
  else if n = 5 then domIds.all (fun k => !needsBoth k || atRest s k) && dst s 1 == dsOff && dst s 2 == dsOff
  else true

/-! ### Registers and contents of a domain -/

/-- The domain that holds a register, by BAR0 offset. -/
def regDom (s : State) (o : Nat) : Nat :=
  if o < 0x100000 then hostCtl s
  else if o < 0x140000 then (if 0x18 ≤ o % 0x1000 ∧ o % 0x1000 < 0x28 then 3 else hostCtl s)
  else if o < 0x1000000 then 3
  else if o < 0x1002000 then hostCtl s
  else if o < 0x2000000 then 0
  else if o < 0x3000000 then hostCtl s
  else if o < 0x4000000 then 48 + (o - 0x3000000) / 0x100000
  else if o < 0x4001000 then hostCtl s
  else if o < 0x4003000 then 6 + (o - 0x4001000) / 0x100 / 6 % 4
  else if o < 0x4100000 then hostCtl s
  else if o < 0x4140000 then 6 + (o - 0x4100000) / 64 % 4
  else if o < 0x4300000 then hostCtl s
  else if o < 0x4304000 then 6 + (o - 0x4300000) / 0x1000
  else if o < 0x5000000 then hostCtl s
  else if o < 0x6000000 then
    (if o = R.MOR_PORT 0 then 3 else if o = R.MOR_PORT 1 then 4 else hostCtl s)
  else if o < 0x7000000 then 0
  else if o < 0x8000000 then 16 + (o - 0x7000000) / 0x80000
  else if o = R.MESH_ORPHAN ((o - 0x8000000) / 0x10000) then 5
  else 16 + (o - 0x8000000) / 0x400000

/-- Bits of `CP_STATUS` that outlast a reset of the control dies: which die is primary, whether it has a standby, and the count of
takeovers since the last cold reset. -/
def cpKept (s : State) : Nat :=
  rget s R.CP_STATUS F.CP_STATUS_PRIMARY + rget s R.CP_STATUS F.CP_STATUS_STANDBY_OK * 2 +
    rget s R.CP_STATUS F.CP_STATUS_TAKEOVER_COUNT <<< 8

/-- Registers of the control dies whose reset value comes from elsewhere: `CP_STATUS` as kept, `LEDG_VTAB` from the Repair Record,
`MIR_STATUS.OWN_FEED` from the strap (R489). -/
def ctlFixups (cp : Nat) (s : State) : State :=
  let s := rput R.LEDG_VTAB s.repair.vtab.toNat (rput R.CP_STATUS cp s)
  rset R.MIR_STATUS F.MIR_STATUS_OWN_FEED (rget s R.MOD_STRAP F.MOD_STRAP_FEED_ID) s

/-- Local addresses `[lo, hi)` lose their contents, with valid codewords. -/
def wipeRange (lo hi : Nat) (s : State) : State :=
  { s with mem := mclear s.mem lo hi, ecc := mclear s.ecc (lo / 32) (hi / 32) }

/-- What the fabric I/O die of an engine holds beside registers is gone. -/
def wipeFio (f : Nat) (s : State) : State :=
  { s with
    ports := s.ports.filter (fun p => p.1 / 6 != f)
    heldPkts := s.heldPkts.filter (fun h => h.fio != f)
    segs := s.segs.filter (fun g => gEngine g.group.toNat != f)
    segQ := s.segQ.filter (fun g => gEngine g.group.toNat != f)
    earlySeg := s.earlySeg.filter (fun h => gEngine (sgGroup h.pkt) != f)
    waitSeg := s.waitSeg.filter (fun h => gEngine (sgGroup h.pkt) != f) }

/-- What a control die holds beside registers is gone. -/
def wipeCtl (s : State) : State :=
  { s with
    queues := []
    exd := Exd.reset
    ledger := { Ledger.reset with vdd := bits s.repair.vtab.toNat 0 8 }
    push := []
    peerBank := 0
    fill := none
    txns := s.txns.filter (fun e => (issuerTile e.2.iss).isSome) }

/-- Domain reset: the registers and contents of a domain at their reset values (Table 15-6). -/
def resetDom (n : Nat) (s : State) : State :=
  let cp := cpKept s
  let r := { s with regs := s.regs.filter (fun p => regDom s p.1 != n) }
  if isCd n then
    let d := n - 16
    let mine (t : TileId) : Bool := tileDie t == d
    let r := cancelReqs (fun q => mine q.tile) r
    wipeRange (spadBase + 64 * d * 2 ^ 24) (spadBase + 64 * (d + 1) * 2 ^ 24) { r with
      tiles := r.tiles.filter (fun p => p.1 / 64 != d)
      dieCache := mdel r.dieCache d
      txns := r.txns.filter (fun e => !(issuerTile e.2.iss).any mine) }
  else if isStk n then
    let st := n - 48
    wipeRange (st * 2 ^ 36) ((st + 1) * 2 ^ 36) { r with
      abl := mdel r.abl st
      rgns := r.rgns.filter (fun q => q.region.toNat / 4096 != st)
      inbox := r.inbox.filter (fun p => p.1 % 16 != st)
      inboxOut := r.inboxOut.filter (fun p => p.1 % 16 != st)
      inboxOdd := r.inboxOdd.filter (fun k => k % 16 != st) }
  else if isFio n then wipeFio (n - 6) r
  else if n = hostCtl s then ctlFixups cp (wipeCtl r)
  else if n = 3 then
    (r.queues.map (·.1)).foldl (fun s q => s.modQueue (BitVec.ofNat 6 q) (fun h => { h with sqTail := 0, cqHead := 0 })) r
  else r

/-! ### Draining (R424, Table 15-7) -/

/-- The enabled tiles of a compute-die domain. -/
def cdTiles (s : State) (n : Nat) : List TileId :=
  ((List.range 64).map (fun i => (BitVec.ofNat 11 (64 * (n - 16) + i) : TileId))).filter s.enabled

/-- A fabric I/O die drains: segments in flight end ABORTED with NOTICE_ABORT, those not accepted end ABORTED, SEG packets are
counted and go, and its ports drain. -/
def fioDrain (f : Nat) (s : State) : State :=
  let s := (s.segs.filter (fun g => gEngine g.group.toNat == f)).foldl (fun s g => segFail g .aborted 0 true s) s
  let q := s.segQ.filter (fun g => gEngine g.group.toNat == f)
  let s := { s with segQ := s.segQ.filter (fun g => gEngine g.group.toNat != f) }
  let s := q.foldl (fun s g => segOwner g .aborted 0 (match g.inbox with
    | some k => failInbox k s
    | none => s)) s
  let lost := (s.earlySeg ++ s.waitSeg).filter (fun h => gEngine (sgGroup h.pkt) == f)
  let s := rinc R.PDC_ORPHAN F.PDC_ORPHAN_COUNT lost.length { s with
    earlySeg := s.earlySeg.filter (fun h => gEngine (sgGroup h.pkt) != f)
    waitSeg := s.waitSeg.filter (fun h => gEngine (sgGroup h.pkt) != f) }
  (List.range 6).foldl (fun s d => portDisable (6 * f + d) s) (updSegs f s)

/-- The units of a domain enter DRAINING. Without FORCE a compute die's tiles wait for the launches that run on them (R426). -/
def drainUnits (n : Nat) (force : Bool) (s : State) : State :=
  if isCd n then (if force then (cdTiles s n).foldl (fun s t => drainTile t s) s else s)
  else if isStk n then ablDrain (n - 48) s
  else if isFio n then fioDrain (n - 6) s
  else s

/-- Every unit of a domain has drained. -/
def drained (s : State) (n : Nat) : Bool :=
  if isCd n then s.dieFree (n - 16) && (cdTiles s n).all (tileQuiet s)
  else if isStk n then (accepted s (n - 48)).isEmpty
  else if isFio n then
    (List.range 6).all (fun d =>
      let k := portState s (6 * (n - 6) + d)
      k != poUp && k != poDraining && k != poRetrain) && !s.segs.any (fun g => gEngine g.group.toNat == n - 6)
  else if isHio n then s.exd.job.isNone
  else true

/-! ### Requests (R408 to R412) -/

/-- Requested states: OFF, RIME, ON. -/
def rqOff : Nat := 0
def rqRime : Nat := 1
def rqOn : Nat := 2

/-- A request is held (R412); a later one replaces it. -/
def holdReq (n r : Nat) (force : Bool) (s : State) : State :=
  let s := s.modPower (fun p => { p with
    forced := (if force then [n] else []) ++ p.forced.filter (fun k => k != n) })
  rset (R.PDC_DOM_STAT n) F.PDC_DOM_STAT_PEND_REQ r (rset (R.PDC_DOM_STAT n) F.PDC_DOM_STAT_PEND 1 s)

/-- The held request is taken. -/
def dropReqHeld (n : Nat) (s : State) : State :=
  let s := s.modPower (fun p => { p with forced := p.forced.filter (fun k => k != n) })
  rset (R.PDC_DOM_STAT n) F.PDC_DOM_STAT_PEND_REQ 0 (rset (R.PDC_DOM_STAT n) F.PDC_DOM_STAT_PEND 0 s)

def heldReq (s : State) (n : Nat) : Option Nat :=
  if rbit s (R.PDC_DOM_STAT n) F.PDC_DOM_STAT_PEND then some (rget s (R.PDC_DOM_STAT n) F.PDC_DOM_STAT_PEND_REQ) else none

def tries (s : State) (n : Nat) : Nat := rget s (R.PDC_DOM_STAT n) F.PDC_DOM_STAT_TRIES
def setTries (n v : Nat) (s : State) : State := rset (R.PDC_DOM_STAT n) F.PDC_DOM_STAT_TRIES v s

/-- An OFF domain starts to power up, or waits for its needs. -/
def powerUp (n : Nat) (s : State) : State :=
  if needsOk s n then setDst n dsPoweringUp (resetDom n (s.modPower (fun p => { p with want := p.want.filter (fun k => k != n) })))
  else s.modPower (fun p => { p with want := if p.want.contains n then p.want else p.want ++ [n] })

/-- The needs of a domain that are OFF are powered up first; one that is on its way down is asked ON again (R408). -/
def powerNeeds (n : Nat) (s : State) : State :=
  (needs s n).foldl (fun s k =>
    if dst s k = dsOff then powerUp k s
    else if dst s k = dsDraining ∨ dst s k = dsPoweringDown then holdReq k rqOn false s
    else s) s

/-- A sequence runs in the domain. -/
def inSequence (k : Nat) : Bool :=
  k == dsPoweringUp || k == dsInit || k == dsDraining || k == dsEnteringRime || k == dsExitingRime || k == dsPoweringDown

/-- A request for ON reaches a domain (Table 15-3). -/
def askOn (n : Nat) (s : State) : State :=
  let k := dst s n
  if k = dsOff then (if canPower s then powerUp n (powerNeeds n s) else s)
  else if k = dsRime then
    (if needsOk s n then setDst n dsExitingRime s else holdReq n rqOn false (powerNeeds n s))
  else if k = dsOn then dropReqHeld n s
  else if inSequence k then holdReq n rqOn false s
  else s

/-- A domain leaves ON for a target. -/
def startDrain (n r : Nat) (force : Bool) (s : State) : State :=
  drainUnits n force (setDst n dsDraining (s.modPower (fun p => { p with target := mins p.target n r })))

/-- A request for OFF or RIME reaches a domain (Table 15-3, R408). -/
def askDown (n r : Nat) (force : Bool) (s : State) : State :=
  let k := dst s n
  if k = dsOn then (if downOk s n then startDrain n r force (dropReqHeld n s) else holdReq n r force s)
  else if k = dsRime then (if r = rqOff then setDst n dsPoweringDown s else s)
  else if k = dsFailed then (if r = rqOff then setTries n 0 (setDst n dsOff s) else s)
  else if k = dsOff then (if r = rqOff then s.modPower (fun p => { p with want := p.want.filter (fun k => k != n) }) else s)
  else holdReq n r force s

/-- A request for AON: Frost-watch, or ON. -/
def askAon (r : Nat) (s : State) : State :=
  if r = rqRime then s.modPower (fun p => { p with frost := true })
  else if r = rqOn then
    (if dst s 0 = dsEnteringRime then holdReq 0 rqOn false s else s.modPower (fun p => { p with frost := false }))
  else s

/-- A request for a domain. -/
def askDom (n r : Nat) (force : Bool) (s : State) : State :=
  if n = 0 then askAon r s else if r = rqOn then askOn n s else askDown n r force s

/-! ### What follows an event -/

/-- One domain goes on once what it waited for has come. -/
def settleDom (n : Nat) (s : State) : State :=
  if dst s n = dsOff ∧ s.power.want.contains n = true ∧ canPower s = true ∧ needsOk s n = true then powerUp n s
  else
    match heldReq s n with
    | some r =>
      if dst s n = dsOn ∧ r ≠ rqOn ∧ n ≠ 0 ∧ downOk s n = true then startDrain n r (s.power.forced.contains n) (dropReqHeld n s)
      else if dst s n = dsRime ∧ r = rqOn ∧ n ≠ 0 ∧ needsOk s n = true then setDst n dsExitingRime (dropReqHeld n s)
      else s
    | none => s

/-- A module mode's requested state of a domain (Table 15-2). -/
def modeReq (m n : Nat) : Nat :=
  if m = 0 then rqOn
  else if m = 1 then (if 16 ≤ n then rqRime else if n = 4 then rqOff else rqOn)
  else if m = 2 then (if n = 0 then rqOn else rqOff)
  else if n = 0 then rqRime else rqOff

/-- Every domain has reached its state of a mode. -/
def modeReached (s : State) (m : Nat) : Bool :=
  domIds.all (fun n => dst s n == (if modeReq m n = rqOn then dsOn else if modeReq m n = rqRime then dsRime else dsOff))

/-- After an event: domains that waited go on, Frost-watch is entered once every other domain is OFF, a mode change ends (R409), a
cold reset ends when every domain is ON or has failed. -/
def settle (s : State) : State :=
  let s := domIds.foldl (fun s n => settleDom n s) s
  let s := if s.power.frost ∧ dst s 0 = dsOn ∧ domIds.all (fun n => n == 0 || dst s n == dsOff) = true then
      setDst 0 dsEnteringRime (s.modPower (fun p => { p with frost := false }))
    else s
  let m := rget s R.PDC_MODE F.PDC_MODE_REQ
  let s := if rbit s R.PDC_MODE F.PDC_MODE_BUSY ∧ modeReached s m = true then
      rset R.PDC_MODE F.PDC_MODE_BUSY 0 (rset R.PDC_MODE F.PDC_MODE_CUR m s)
    else s
  if s.power.cold ∧ s.power.boot = false ∧ domIds.all (fun n => dst s n == dsOn || dst s n == dsFailed) = true then
    s.modPower (fun p => { p with cold := false })
  else s

/-- A sequence has ended in a state: the held request acts if it asks for another, and is cleared (R412). -/
def seqEnd (n reached : Nat) (s : State) : State :=
  settle (match heldReq s n with
    | some r =>
      let f := s.power.forced.contains n
      let s := dropReqHeld n s
      if r = reached then s else askDom n r f s
    | none => s)

/-! ### Commands of the host -/

/-- A write of `PDC_MODE.REQ`, or the MODE effecter: every domain's state of the mode is requested (R409, R410). While tripped, or
down until a cold reset, requests to leave MGMT are ignored (R427, R499). -/
def modeRequest (m : Nat) (s : State) : State :=
  if (tripped s = true ∨ s.power.off.isSome = true) ∧ m ≠ 2 then s
  else
    let s := rset R.PDC_MODE F.PDC_MODE_BUSY 1 (rset R.PDC_MODE F.PDC_MODE_REQ m s)
    let s := domIds.foldl (fun s n => rset (R.PDC_DOM_REQ n) F.PDC_DOM_REQ_REQ (modeReq m n) s) s
    settle (domIds.foldl (fun s n => askDom n (modeReq m n) false s) s)

/-- MODE_REQUEST: the host writes `PDC_MODE.REQ`. -/
def execModeRequest (m : BitVec 2) (s : State) : Host.Outcome State Fault Refusal :=
  .next (hostWrite 0 (modeRequest m.toNat) s)

/-- Table 15-1 lists a requested state for a domain. -/
def reqListed (n r : Nat) : Bool :=
  if n = 0 then r == rqRime || r == rqOn else r == rqOff || r == rqOn || (r == rqRime && decide (16 ≤ n))

/-- A write of `PDC_DOM_REQn` (R410): it acts at expert level; the primary control die is not taken down (R408). -/
def domRequest (n v : Nat) (s : State) : State :=
  if isDom n then
    let s := rset (R.PDC_DOM_REQ n) F.PDC_DOM_REQ_REQ v s
    let s := rset (R.PDC_DOM_REQ n) F.PDC_DOM_REQ_WAKE (v / 8) (rset (R.PDC_DOM_REQ n) F.PDC_DOM_REQ_FORCE (v / 4) s)
    if rbit s R.PDC_CTL F.PDC_CTL_EXPERT && reqListed n (v % 4) && !(n == hostCtl s && v % 4 == rqOff) then
      settle (askDom n (v % 4) (bit v 2) s)
    else s
  else s

/-- DOMAIN_REQUEST: the host writes `PDC_DOM_REQn`. -/
def execDomainRequest (n : DomId) (v : BitVec 4) (s : State) : Host.Outcome State Fault Refusal :=
  .next (hostWrite 0 (domRequest n.toNat v.toNat) s)

/-! ### Sequence events (Table 15-3) -/

/-- A domain is ON. HIO0 presents the function again, which releases WAKE# (R492). -/
def reachOn (n : Nat) (s : State) : State :=
  let s := setTries n 0 (setDst n dsOn s)
  let s := if n = 3 then s.modPower (fun p => { p with wake := false }) else s
  seqEnd n rqOn s

/-- DOMAIN_POWER_UP_DONE: power good and reset released. -/
def execDomainPowerUpDone (n : DomId) (s : State) : Host.Outcome State Fault Refusal :=
  .next (if dst s n.toNat = dsPoweringUp ∧ isDom n.toNat = true then
      (if 16 ≤ n.toNat then setDst n.toNat dsInit s else reachOn n.toNat s)
    else s)

/-- A power-up, init or Rime exit has failed: OFF and tried again, or FAILED after the third attempt. -/
def powerUpFail (n : Nat) (s : State) : State :=
  let k := tries s n + 1
  let s := rinc R.PDC_PUP_FAIL F.PDC_PUP_FAIL_COUNT 1 (setTries n k (resetDom n s))
  if k < 3 then
    let s := setDst n dsOff s
    match heldReq s n with
    | some r =>
      if r = rqOn then settle (powerUp n (dropReqHeld n s)) else seqEnd n rqOff (setTries n 0 s)
    | none => settle (powerUp n s)
  else seqEnd n 3 (alert 1 (setDst n dsFailed s))

/-- DOMAIN_POWER_UP_TIMEOUT: 200 µs in POWERING_UP or EXITING_RIME. -/
def execDomainPowerUpTimeout (n : DomId) (s : State) : Host.Outcome State Fault Refusal :=
  .next (if (dst s n.toNat = dsPoweringUp ∨ dst s n.toNat = dsExitingRime) ∧ isDom n.toNat = true then
      powerUpFail n.toNat s
    else s)

/-- DOMAIN_INIT_DONE; a stack that powers up loads the microcode in force (R476). -/
def execDomainInitDone (n : DomId) (s : State) : Host.Outcome State Fault Refusal :=
  .next (if dst s n.toNat = dsInit ∧ 16 ≤ n.toNat then
      reachOn n.toNat (if isStk n.toNat then rput (R.ABL_MC_VER (n.toNat - 48)) s.mgmt.mcVer.toNat s else s)
    else s)

/-- DOMAIN_INIT_TIMEOUT: 2,048 cc for a compute die, 50 ms for a stack. -/
def execDomainInitTimeout (n : DomId) (s : State) : Host.Outcome State Fault Refusal :=
  .next (if dst s n.toNat = dsInit ∧ 16 ≤ n.toNat then powerUpFail n.toNat s else s)

/-- RIME_EXIT_DONE: rails at run level and clocks running; what entry left is in force again (R414). -/
def execRimeExitDone (n : DomId) (s : State) : Host.Outcome State Fault Refusal :=
  .next (if dst s n.toNat = dsExitingRime ∧ 16 ≤ n.toNat then
      reachOn n.toNat (if isCd n.toNat then
          (cdTiles s n.toNat).foldl (fun s t =>
            if rget s (R.TILE_STATE t.toNat) F.TILE_STATE_STATE = tsDraining then
              rset (R.TILE_STATE t.toNat) F.TILE_STATE_STATE tsIdle s
            else s) s
        else s)
    else s)

/-- DOMAIN_POWER_DOWN_DONE: rails off. A standby that goes OFF clears STANDBY_OK (R408). -/
def execDomainPowerDownDone (n : DomId) (s : State) : Host.Outcome State Fault Refusal :=
  .next (if dst s n.toNat = dsPoweringDown ∧ isDom n.toNat = true then
      let s := setDst n.toNat dsOff (resetDom n.toNat s)
      let s := if n.toNat = 1 ∨ n.toNat = 2 then rset R.CP_STATUS F.CP_STATUS_STANDBY_OK 0 s else s
      seqEnd n.toNat rqOff s
    else s)

/-- STANDBY_MIRROR_COMPLETE: a standby that is ON again has its mirror (R408); a fenced die is none (R67). -/
def execStandbyMirrorComplete (s : State) : Host.Outcome State Fault Refusal :=
  .next (if dst s (standbyCtl s) = dsOn ∧ s.domOn (hostCtl s) = true ∧ s.power.fenced = false then
      rset R.CP_STATUS F.CP_STATUS_STANDBY_OK 1 s
    else s)

/-! ### Wake events (R413, R415 to R418) -/

/-- Level sources of Table 15-4: DOORBELL, FABRIC, THERM. -/
def wakeLevels : Nat := 0x0D

/-- The lowest source of a set. -/
def lowest (v : Nat) : Nat := ((List.range 5).find? (fun i => bit v i)).getD 0

/-- `PDC_WAKE_SRC` records a wake event. -/
def wakeRecord (v : Nat) (s : State) : State :=
  rset R.PDC_WAKE_SRC F.PDC_WAKE_SRC_VALID 1 (rset R.PDC_WAKE_SRC F.PDC_WAKE_SRC_SRC (lowest v) s)

/-- A wake event of the enabled sources among `srcs`. In Frost-watch AON comes back in MGMT mode and WAKE# is asserted (R418,
R492); at basic level a module at rest returns to RUN; at expert level every RIME domain with WAKE comes ON (R415). An event
that finds a domain in POWERING_DOWN and changes none is recorded (R413, R417). -/
def wakeUp (srcs : Nat) (s : State) : State :=
  let v := srcs.land (rget s R.PDC_WAKE_EN F.PDC_WAKE_EN_EN)
  if v = 0 then s
  else if dst s 0 = dsRime then
    let s := wakeRecord v (setDst 0 dsOn (s.modPower (fun p => { p with wake := true })))
    rset R.PDC_MODE F.PDC_MODE_BUSY 0 (rset R.PDC_MODE F.PDC_MODE_CUR 2 (rset R.PDC_MODE F.PDC_MODE_REQ 2 s))
  else
    let resting := domIds.filter (fun n => n != 0 && dst s n == dsRime)
    if rbit s R.PDC_CTL F.PDC_CTL_EXPERT then
      let l := resting.filter (fun n => rbit s (R.PDC_DOM_REQ n) F.PDC_DOM_REQ_WAKE)
      if l.isEmpty then (if domIds.any (fun n => dst s n == dsPoweringDown) then wakeRecord v s else s)
      else
        settle (wakeRecord v (l.foldl (fun s n => askOn n (rset (R.PDC_DOM_REQ n) F.PDC_DOM_REQ_REQ rqOn s)) s))
    else if resting.isEmpty then (if domIds.any (fun n => dst s n == dsPoweringDown) then wakeRecord v s else s)
    else modeRequest 0 (wakeRecord v s)

/-- WAKE_EVENT. Between the samples of Frost-watch only the I3C and VRALERT sources act (R418). -/
def execWakeEvent (srcs : BitVec 5) (s : State) : Host.Outcome State Fault Refusal :=
  .next (if s.power.off = some .input then s
    else if dst s 0 = dsRime then wakeUp (srcs.toNat.land 0x12) s else wakeUp srcs.toNat s)

/-- RIME_ENTRY_DONE: the entry sequence ends; an enabled level source asserted at step 3 brings the domain back at once (R416). -/
def execRimeEntryDone (n : DomId) (levels : BitVec 5) (s : State) : Host.Outcome State Fault Refusal :=
  .next (if dst s n.toNat = dsEnteringRime ∧ isDom n.toNat = true then
      let s := setDst n.toNat dsRime s
      let s := if n.toNat = 0 ∧ heldReq s 0 = some rqOn then setDst 0 dsOn (dropReqHeld 0 s) else s
      wakeUp (levels.toNat.land wakeLevels) (seqEnd n.toNat rqRime s)
    else s)

/-! ### Ends of drains (R424, R426) -/

/-- The drain of a domain toward its target is complete. -/
def drainOver (n : Nat) (s : State) : State :=
  let r := (mfind s.power.target n).getD rqOff
  let s := s.modPower (fun p => { p with target := mdel p.target n })
  if r = rqRime then setDst n dsEnteringRime s else setDst n dsPoweringDown s

end Sys2Proof.Machine
end

