-- ==== Sys2Proof/Machine/Reset.lean ====
section
/-! DEFINITION. Ends of drains, cold, warm and power-on resets with their boot, thermal trip and supplies, and the takeover by the
standby (R64 to R67, R404, R418 to R427, R465 to R474, R482, R489, R493, R496, R499). -/

namespace Sys2Proof.Machine

def State.modMgmt (s : State) (f : Mgmt → Mgmt) : State := { s with mgmt := f s.mgmt }

/-! ### What a reset clears (Table 15-6) -/

/-- The module without the contents of its domains: what AON, the host and the expanders hold stays; HBM stays in a warm reset. -/
def wipe (keepHbm : Bool) (s : State) : State :=
  let kept (a : Nat) : Bool := decide (morBase ≤ a) || (keepHbm && decide (a < hbmTop))
  let cp := cpKept s
  ctlFixups cp { State.reset with
    pending := s.pending
    regs := s.regs.filter (fun p => regDom s p.1 == 0)
    mem := s.mem.filter (fun p => kept p.1)
    ecc := s.ecc.filter (fun p => kept (p.1 * 32))
    hostMem := s.hostMem
    hostRead := s.hostRead
    txnNext := s.txnNext
    repair := s.repair
    power := s.power
    mgmt := s.mgmt
    freeCtr := s.freeCtr }

/-- Every domain except AON takes a state. -/
def setAllDst (v : Nat) (s : State) : State :=
  domIds.foldl (fun s n => if n = 0 then s else rput (R.PDC_DOM_STAT n) v s) s

/-- Every domain except AON is OFF at once, with no drain (R427); the mode reached is MGMT. -/
def shutAll (s : State) : State :=
  let s := setAllDst dsOff (wipe false s)
  let s := rset R.CP_STATUS F.CP_STATUS_STANDBY_OK 0 s
  let s := rset R.PDC_MODE F.PDC_MODE_BUSY 0 (rset R.PDC_MODE F.PDC_MODE_CUR 2 s)
  s.modPower (fun p => { p with
    cold := false, boot := false, warmOn := false, warm := [], want := [], target := [], forced := [], frost := false })

/-! ### Boot (R465 to R474) -/

/-- A digest extended into a measurement. -/
def extend (m d : DWord) : DWord := Config.sha512 (natLe 64 m.toNat ++ natLe 64 d.toNat)

/-- A measurement register as 64 bytes, byte 0 lowest. -/
def setMeas (i : Nat) (d : DWord) (s : State) : State :=
  (List.range 8).foldl (fun s k => rput (R.SEC_MEAS0 i + 8 * k) (bits d.toNat (64 * k) 64) s) s

def meas (s : State) (i : Nat) : DWord :=
  BitVec.ofNat 512 ((List.range 8).foldl (fun a k => a + rraw s (R.SEC_MEAS0 i + 8 * k) <<< (64 * k)) 0)

/-- An image of a slot. -/
def slotImage (s : State) (slot comp : Nat) : Option Image := mfind s.mgmt.images (8 * slot + comp)

/-- An image is accepted: signature, chain, and an SVN not below MIN_SVN (R470). -/
def imageOk (s : State) (im : Image) : Bool := im.ok && decide (s.mgmt.minSvn ≤ im.svn.toNat)

/-- Every stage image of a slot is accepted. -/
def slotOk (s : State) (slot : Nat) : Bool := [1, 2, 3, 4].all (fun c => (slotImage s slot c).any (imageOk s))

/-- SVN of a slot: the smallest of its images (log entry 31). -/
def slotSvn (s : State) (slot : Nat) : Nat :=
  ([1, 2, 3, 4].filterMap (fun c => (slotImage s slot c).map (fun im => im.svn.toNat))).foldl min 255

/-- The slot a boot runs, and whether it fell back (R470). -/
def bootSlot (s : State) : Option (Nat × Bool) :=
  let a := s.mgmt.active % 2
  if slotOk s a then some (a, false) else if slotOk s (1 - a) then some (1 - a, true) else none

/-- The failing columns of a tile, ascending. -/
def failCols (b : SelfTest) (t : Nat) : List Nat :=
  (List.range 16).filter (fun c => b.cols.any (fun p => p.1.toNat == t && p.2.any (fun k => k.toNat == c)))

/-- The Repair Record contents that test results call for (R198, R473). -/
def bistRecord (b : SelfTest) (vtab : W32) : RepairRecord :=
  let bad (t : Nat) : Bool := b.failed.any (fun u => u.toNat == t) || decide (2 < (failCols b t).length)
  let tiles := ((b.cols.map (fun p => p.1.toNat)).dedup).filter (fun t => !bad t && !(failCols b t).isEmpty)
  { disabled := ((b.failed ++ b.cols.map (·.1)).dedup.map (·.toNat)).filter bad |>.foldl (fun l t => mins l t ()) [] |>.map (·.1)
    bypass := tiles.foldl (fun m t => mins m t
      ⟨(failCols b t)[0]?.map (BitVec.ofNat 4), (failCols b t)[1]?.map (BitVec.ofNat 4)⟩) []
    vtab := vtab }

/-- The 4,544 bytes of a Repair Record copy (Table 17-3). -/
def repairBytes (c : RepairCopy) : List Byte :=
  let tileEn := (List.range 2048).foldl (fun a t => if c.record.disabled.contains t then a else a + 2 ^ t) 0
  let byp (t : Nat) : Nat :=
    match mfind c.record.bypass t with
    | some b => b.a.elim 0 (fun x => x.toNat + 16) + b.b.elim 0 (fun x => x.toNat <<< 8 + 16 <<< 8)
    | none => 0
  let body := [0x4B, 0x59, 0x52, 0x52] ++ natLe 2 1 ++ natLe 2 0 ++ natLe 4 0x40164101 ++ natLe 4 c.seq.toNat ++
    natLe 32 (Config.identity c.signer).toNat ++ natLe 4 c.record.vtab.toNat ++ natLe 1 c.ctlOk.toNat ++
    natLe 2 c.stkOk.toNat ++ natLe 9 0 ++ natLe 256 tileEn ++ (List.range 2048).flatMap (fun t => natLe 2 (byp t)) ++ natLe 64 0
  body ++ natLe 64 (Config.sign c.signer body).toNat

/-- The valid copy with the higher SEQ, and whether it is copy 1. -/
def bestCopy (m : Mgmt) : Option (Bool × RepairCopy) :=
  if m.rr0.valid && (!m.rr1.valid || decide (m.rr1.seq.toNat < m.rr0.seq.toNat)) then some (false, m.rr0)
  else if m.rr1.valid then some (true, m.rr1)
  else none

/-- The Repair Record is used, rewritten over the older copy, or written anew with the fallback voltages (R473, R474). -/
def checkRepair (b : SelfTest) (s : State) : State :=
  let use (c : RepairCopy) (s : State) : State := setMeas 5 (extend 0 (Config.sha512 (repairBytes c))) { s with repair := c.record }
  let signer := rget s R.CP_STATUS F.CP_STATUS_PRIMARY
  match bestCopy s.mgmt with
  | some (one, c) =>
    let want := bistRecord b c.record.vtab
    if c.ctlOk = b.ctlOk ∧ c.stkOk = b.stkOk ∧ c.record = want then use c s
    else
      let n : RepairCopy := ⟨true, c.seq + 1, signer, b.ctlOk, b.stkOk, want⟩
      use n (alert 11 (rset R.SEC_STATUS F.SEC_STATUS_RR_NEW 1
        (s.modMgmt (fun m => if one then { m with rr0 := n } else { m with rr1 := n }))))
  | none =>
    let n : RepairCopy := ⟨true, 1, signer, b.ctlOk, b.stkOk, bistRecord b (BitVec.ofNat 32 (170 + 158 <<< 8 + 150 <<< 16 + 140 <<< 24))⟩
    use n (alert 11 (rset R.SEC_STATUS F.SEC_STATUS_RR_TAMPER 1 (s.modMgmt (fun m => { m with rr0 := n }))))

/-- The boot stages run from a slot and are measured (R469), the status shows it, and the certificate slots follow an activated
component 5 (R476). -/
def bootStages (slot : Nat) (fell : Bool) (s : State) : State :=
  let img (c : Nat) : List Byte := (slotImage s slot c).elim [] (·.bytes)
  let s := setMeas 0 (extend (extend 0 Config.romDigest) (Config.tapDigest false)) s
  let s := [1, 2, 3, 4].foldl (fun s c => setMeas c (extend 0 (Config.sha512 (img c))) s) s
  let o := R.SEC_STATUS
  let s := rset o F.SEC_STATUS_SLOT slot (rset o F.SEC_STATUS_SVN (slotSvn s slot) (rset o F.SEC_STATUS_MIN_SVN s.mgmt.minSvn s))
  let s := if fell then alert 12 (rset o F.SEC_STATUS_FALLBACK 1 s) else s
  s.modMgmt (fun m => { m with
    mcVer := (slotImage s slot 4).elim 0 (·.ver)
    mcDigest := Config.sha512 (img 4)
    mcLen := (img 4).length
    certs := (slotImage s slot 5).elim m.certs (·.bytes) })

/-- The control die that boots as primary (R473). -/
def bootPrimary (b : SelfTest) (s : State) : State :=
  let one := b2n (!b.ctlOk.getLsbD 0)
  rset R.CP_STATUS F.CP_STATUS_STANDBY_OK (b2n (b.ctlOk == 3)) (rset R.CP_STATUS F.CP_STATUS_PRIMARY one s)

/-- Boot at a cold start: stages, self-test, Repair Record; then every domain that passed is asked ON in the order of its needs.
With no image accepted, or no control die, every domain except AON stays in reset. -/
def bootUp (b : SelfTest) (s : State) : State :=
  if s.power.boot = false ∨ canPower s = false then s
  else
    let s := s.modPower (fun p => { p with boot := false })
    match bootSlot s with
    | none => s.modPower (fun p => { p with cold := false, off := some .noImage })
    | some (slot, fell) =>
      let s := checkRepair b (bootPrimary b (bootStages slot fell s))
      if b.ctlOk = 0 then s.modPower (fun p => { p with cold := false, off := some .noControl })
      else
        let s := ctlFixups (cpKept s) s
        let s := (List.range 16).foldl (fun s k => if b.stkOk.getLsbD k then s else setDst (48 + k) dsFailed s) s
        settle (domIds.foldl (fun s n => if n = 0 then s else askDom n rqOn false s) s)

/-! ### Cold reset (R420, R421, R482, R493) -/

/-- A cold reset begins: every domain except AON goes down, and every register but the sticky ones and the straps takes its reset
value. HBM reads zero after it, which is what SCRUB asks for (R482; log entry 2). Nothing but a return of the input ends a loss of
input or of a rail. -/
def coldDown (cause : Nat) (s : State) : State :=
  let s := wipe false s
  let sticky := [R.PDC_WAKE_SRC, R.PDC_TRIP, R.MOD_STRAP]
  let s := { s with regs := s.regs.filter (fun p => sticky.contains p.1) }
  let s := rset R.PDC_RST_CAUSE F.PDC_RST_CAUSE_CAUSE cause (setAllDst dsOff (ctlFixups 2 s))
  (s.modPower (fun p => { p with
    fenced := false, cold := true, boot := true, warmOn := false, warm := [], want := [], target := []
    forced := [], frost := false
    off := match p.off with
      | some .rail => some .rail
      | some .input => some .input
      | _ => none })).modMgmt (fun m => { m with staged := [], receiver := none })

/-- A cold reset: down, then the boot, which waits for PERST#, a cleared trip and the supplies. -/
def coldReset (cause : Nat) (b : SelfTest) (s : State) : State := bootUp b (coldDown cause s)

/-- COLD_RESET: the host writes `PDC_RESET.LEVEL` = 0b10. -/
def execColdReset (bist : SelfTest) (s : State) : Host.Outcome State Fault Refusal :=
  .next (hostWrite 0 (coldReset 2 bist) s)

/-- PERST_ASSERT: a cold reset starts; while tripped every domain except AON stays OFF and none starts (R493). -/
def execPerstAssert (s : State) : Host.Outcome State Fault Refusal :=
  .next (let s := s.modPower (fun p => { p with perst := true })
    if tripped s then s else coldDown 1 s)

/-- PERST_DEASSERT: a reset that has begun goes on. -/
def execPerstDeassert (bist : SelfTest) (s : State) : Host.Outcome State Fault Refusal :=
  .next (bootUp bist (s.modPower (fun p => { p with perst := false })))

/-- The input's rails reach power-good: straps are sampled, AON starts anew, and a cold reset follows (R419, R489). The module may
have been inserted with the feed live, and no command tells when PRSNT#, the last contact, has mated: whether it has is a free value
(R487, log entry 47). -/
def powerOn (feed slot : Nat) (b : SelfTest) (s : State) : State :=
  let s := { s with
    regs := []
    freeCtr := s.freeCtr + 1
    power := { Power.reset with perst := s.power.perst, prsnt := Config.freePick s.freeCtr 2 == 1 }
    mgmt := { s.mgmt with sensors := [], receiver := none, events := [], reply := none, staged := [] } }
  let s := rset R.MOD_STRAP F.MOD_STRAP_SLOT_ID slot (rset R.MOD_STRAP F.MOD_STRAP_FEED_ID feed s)
  coldReset 0 b s

/-- POWER_ON. -/
def execPowerOn (feed : BitVec 4) (slot : BitVec 6) (bist : SelfTest) (s : State) : Host.Outcome State Fault Refusal :=
  .next (powerOn feed.toNat slot.toNat bist s)

/-! ### Warm reset (R420) -/

/-- Registers of the power domain controller that a warm reset keeps: the sticky ones and the domains' states. -/
def pdcKept (o : Nat) : Bool :=
  !(decide (0x1002000 ≤ o ∧ o < 0x1002300)) || [R.PDC_WAKE_SRC, R.PDC_TRIP, R.PDC_RST_CAUSE].contains o || decide (0x1002200 ≤ o)

/-- Every unit has drained: the domains take their resets without power cycling, HBM kept, and the module is asked for RUN, the
reset value of `PDC_MODE.REQ`. Counted energies are since cold reset (Table 14-7). -/
def warmOver (s : State) : State :=
  let e := (rraw s R.LEDG_ECOUNT, rraw s R.LEDG_EMEAS)
  let s := wipe true s
  let s := { s with regs := s.regs.filter (fun p => pdcKept p.1) }
  let s := rput R.LEDG_EMEAS e.2 (rput R.LEDG_ECOUNT e.1 s)
  let s := s.modPower (fun p => { p with warmOn := false, warm := [], target := [], frost := false })
  if modeReached s 0 then s else modeRequest 0 s

/-- A warm reset begins: the units of every domain that is ON drain; a launch still running is aborted (Table 15-7). -/
def warmReset (cause : Nat) (s : State) : State :=
  if s.power.cold ∨ s.power.warmOn then s
  else
    let s := rset R.PDC_RST_CAUSE F.PDC_RST_CAUSE_CAUSE cause s
    let l := domIds.filter (fun n => dst s n == dsOn && (n == 4 || isFio n || isCd n || isStk n))
    let s := s.modPower (fun p => { p with warmOn := true, warm := l })
    let s := l.foldl (fun s n => drainUnits n true s) s
    if l.isEmpty then warmOver s else s

/-- WARM_RESET: the host writes `PDC_RESET.LEVEL` = 0b01. -/
def execWarmReset (s : State) : Host.Outcome State Fault Refusal := .next (hostWrite 0 (warmReset 3) s)

/-- FUNCTION_LEVEL_RESET: a PCIe request to HIO0. -/
def execFunctionLevelReset (s : State) : Host.Outcome State Fault Refusal :=
  .next (if s.domReach 3 then warmReset 4 s else s)

/-- DOMAIN_DRAIN_DONE: every unit of a domain has drained, for a request or for a warm reset. -/
def execDomainDrainDone (n : DomId) (s : State) : Host.Outcome State Fault Refusal :=
  .next (if isDom n.toNat = true ∧ drained s n.toNat = true then
      if s.power.warm.contains n.toNat then
        let s := s.modPower (fun p => { p with warm := p.warm.filter (fun k => k != n.toNat) })
        if s.power.warm.isEmpty then warmOver s else s
      else if dst s n.toNat = dsDraining then drainOver n.toNat s
      else s
    else s)

/-- DRAIN_LIMIT_EXPIRY: the drain limit of a unit of domain `n` passes: tile `t` of a compute die abandons its requests, an Ablation
Unit its command, a fabric I/O die its ports' packets, a host I/O die its copy (R424). -/
def execDrainLimitExpiry (n : DomId) (t : TileId) (s : State) : Host.Outcome State Fault Refusal :=
  .next (
    let k := n.toNat
    let drains := dst s k == dsDraining || s.power.warm.contains k
    if isCd k ∧ tileDie t = k - 16 ∧ s.tileDraining t = true then abandonTile t s
    else if drains = false then s
    else if isStk k then
      match curJob s (k - 48) with
      | some j => ablEnd (k - 48) j .aborted 0 s
      | none => s
    else if isFio k then
      (List.range 6).foldl (fun s d =>
        let p := 6 * (k - 6) + d
        if portState s p = poDraining ∨ portState s p = poRetrain then setPortState p poDisabled (dropPort p s) else s) s
    else if isHio k then copyTimeout s
    else s)

/-! ### Thermal trip and supplies (R419, R427, R496, R499) -/

/-- THERMAL_TRIP: a junction reading reaches 105 °C. -/
def execThermalTrip (tj : BitVec 8) (s : State) : Host.Outcome State Fault Refusal :=
  .next (if 105 ≤ tj.toNat then
      alert 0 (rset R.PDC_TRIP F.PDC_TRIP_TJ tj.toNat (rset R.PDC_TRIP F.PDC_TRIP_TRIPPED 1 (shutAll s)))
    else s)

/-- RAIL_FAULT: a rail falls out of range while the module runs. -/
def execRailFault (s : State) : Host.Outcome State Fault Refusal :=
  .next (if s.power.off = some .input then s
    else (rset R.PDC_RST_CAUSE F.PDC_RST_CAUSE_CAUSE 0 (shutAll s)).modPower (fun p => { p with off := some .rail }))

/-- HOT_SWAP_DISCONNECT: the input is disconnected, its fault is kept for STATUS_WORD, and the rails fall. -/
def execHotSwapDisconnect (why : InputFault) (s : State) : Host.Outcome State Fault Refusal :=
  .next (
    let s := (rset R.PDC_RST_CAUSE F.PDC_RST_CAUSE_CAUSE 0 (shutAll s)).modPower (fun p => { p with off := some .input })
    s.modMgmt (fun m =>
      match why with
      | .under => { m with uv := true }
      | .over => { m with ov := true }
      | .current => { m with oc := true }))

/-- HOT_SWAP_RECONNECT: the input has been inside 40 to 60 V for 100 ms; the module comes up as at power-on. -/
def execHotSwapReconnect (feed : BitVec 4) (slot : BitVec 6) (bist : SelfTest) (s : State) :
    Host.Outcome State Fault Refusal :=
  .next (if s.power.off = some .input then powerOn feed.toNat slot.toNat bist s else s)

/-- REFCLK_LOST: a root PLL has been out of lock for more than 10 µs. -/
def execRefclkLost (s : State) : Host.Outcome State Fault Refusal :=
  .next (if s.power.off = some .input ∨ s.power.off = some .rail then s
    else
      (alert 1 (rset R.MOD_STRAP F.MOD_STRAP_REFCLK_LOST 1 (shutAll s))).modPower (fun p => { p with off := some .refclk }))

/-! ### Sensors and Frost-watch samples (R418, R479, R501) -/

/-- Readings taken: the sensors hold them, the ledger mode is sensor 79, and coolant outside its limits sets the temperature fault
of STATUS_WORD (R501). -/
def takeReadings (l : List (Nat × Int)) (s : State) : State :=
  let l := l.filter (fun p => decide (1 ≤ p.1 ∧ p.1 ≤ 78))
  let hot := l.any (fun p => (p.1 == 73 && (decide (p.2 < 10) || decide (45 < p.2))) || (p.1 == 74 && decide (55 < p.2)))
  s.modMgmt (fun m => { m with
    sensors := msets (fun _ => 0) m.sensors (l ++ [(79, (ledgMode s : Int))])
    hot := m.hot || hot })

/-- The THERM wake source (Table 15-4, R496, R501). -/
def thermLevel (s : State) (l : List (Nat × Int)) : Bool :=
  l.any (fun p =>
    (decide (1 ≤ p.1 ∧ p.1 ≤ 72) && decide ((thermSoft s : Int) ≤ p.2)) ||
    (p.1 == 73 && (decide (p.2 < 10) || decide (45 < p.2))) || (p.1 == 74 && decide (55 < p.2)) ||
    (p.1 == 75 && (decide (p.2 < 40) || decide (60 < p.2))))

/-- FROST_SAMPLE: in the sample window AON reads every sensor and samples the level sources. -/
def execFrostSample (readings : List (Nat × Int)) (levels : BitVec 5) (s : State) : Host.Outcome State Fault Refusal :=
  .next (if dst s 0 = dsRime then
      let v := levels.toNat.land wakeLevels
      let s := takeReadings readings s
      wakeUp (if thermLevel s readings then v.lor 8 else v) s
    else s)

/-! ### Heartbeat and takeover (R64 to R67, R404) -/

/-- HEARTBEAT: the primary's heartbeat reaches the standby, whose 10 ms start again; no other state changes. -/
def execHeartbeat (s : State) : Host.Outcome State Fault Refusal := .next s

/-- HEARTBEAT_LOSS_WITH_NO_STANDBY: the management controller starts a warm reset. -/
def execHeartbeatLossWithNoStandby (s : State) : Host.Outcome State Fault Refusal :=
  .next (if rbit s R.CP_STATUS F.CP_STATUS_STANDBY_OK then s else warmReset 6 s)

/-- A command mirrored as dispatching and not acknowledged by all its tiles is aborted: its tiles are drained, it completes ABORTED,
its reservation goes and no tag is updated (R64, R394). -/
def reconcileCmd (q : QIdx) (seq : W32) (s : State) : State :=
  match s.cmd q seq with
  | some c =>
    if dispatched c then
      let s := cmdReport q seq .aborted 0 0 s
      let s := if cmdOp c = opLaunch then
          c.tiles.foldl (fun s t =>
            let u : TileId := BitVec.ofNat 11 t
            let s := closeTile q seq (cF c 0x32 1 == 2) u s
            if (s.tile u).x.launch.isNone then drainNow u s else s) (cancelAcqs q seq s)
        else s
      match s.cmd q seq with
      | some c => completeCmd q { c with step := if cmdOp c = opStepBegin then ownStep s q c else c.step } (c.used / 16000) 0 s
      | none => s
    else s
  | none => s

/-- A completion record whose write cannot be confirmed is written again to its slot, and its interrupt is repeated (R65). -/
def rewriteRecord (q : QIdx) (slot : Nat) (s : State) : State :=
  match (s.queue q).recs.find? (fun r => r.1 == slot) with
  | some r =>
    let s := hostWr (slotAddr s q slot) r.2.1 s
    match r.2.2 with
    | some v => raiseVector v s
    | none => s
  | none => s

/-- TAKEOVER: the standby, `gap` ns after the last mirror entry, with the commands it found unacknowledged and the completion
records it could not confirm (Table 2-14). Firn records not acknowledged hold what they held, so their rewrite changes nothing. -/
def execTakeover (gap : BitVec 32) (unacked : List (QIdx × W32)) (recs : List (QIdx × BitVec 16)) (s : State) :
    Host.Outcome State Fault Refusal :=
  .next (if rbit s R.CP_STATUS F.CP_STATUS_STANDBY_OK then
      let s := s.modPower (fun p => { p with fenced := true })
      let s := recs.foldl (fun s r => rewriteRecord r.1 r.2.toNat s) s
      let s := unacked.foldl (fun s c => reconcileCmd c.1 c.2 s) s
      let s := ledgerTakeover gap.toNat s
      let o := R.CP_STATUS
      let s := rset o F.CP_STATUS_PRIMARY (1 - rget s o F.CP_STATUS_PRIMARY) (rset o F.CP_STATUS_STANDBY_OK 0 s)
      let s := rinc o F.CP_STATUS_TAKEOVER_COUNT 1 (rset o F.CP_STATUS_TAKEOVER 1 s)
      let s := (List.range 64).foldl (fun s q =>
        if rbit s (R.QCFG q) F.QCFG_EN then rset (R.QSTAT q) F.QSTAT_TAKEOVER 1 s else s) s
      alert 3 (deviceEvent F.CP_DEVEVT_TAKEOVER s)
    else s)

end Sys2Proof.Machine
end

