-- ==== Sys2Proof/Machine/Manage.lean ====
section
/-! DEFINITION. The security block and the management controller: SPDM, PLDM, state effecters, firmware update, alerts and PMBus
telemetry (R465 to R483, R494, R501). -/

namespace Sys2Proof.Machine

/-! ### Requests -/

/-- PCIe presents the function. -/
def pciePresent (s : State) : Bool := dst s 3 == dsOn && !s.power.cold

/-- The module has input power. -/
def powered (s : State) : Bool := !decide (s.power.off = some .input)

/-- The answer of a request. -/
def answerMgmt (r : Reply) (s : State) : State := s.modMgmt (fun m => { m with reply := some r })

/-- A request over MCTP: over I3C, or over PCIe VDM while PCIe presents the function. In Frost-watch it acts as the I3C wake and is
served after it (R418, R478). With no image accepted the ROM serves a firmware update over I3C alone (R470). -/
def mctp (pcie update : Bool) (f : State → State) (s : State) : Host.Outcome State Fault Refusal :=
  .next (if !powered s then s
    else
      let s := if dst s 0 = dsRime ∧ pcie = false then wakeUp 2 s else s
      if dst s 0 ≠ dsOn then s
      else if s.power.off = some .noImage then (if update && !pcie then f s else s)
      else if pcie && !pciePresent s then s
      else f s)

/-! ### SPDM (R466, R467, R478) -/

/-- The control die whose security block answers. -/
def activeDie (s : State) : Nat := rget s R.CP_STATUS F.CP_STATUS_PRIMARY

/-- The measurement blocks. -/
def measBlocks (s : State) : List (Nat × DWord) := (List.range 6).map (fun i => (i, meas s i))

/-- A certificate slot's chain: one half of the flash area of Table 17-1. -/
def certChain (s : State) (slot : Nat) : List Byte := (s.mgmt.certs.drop (32768 * slot)).take 32768

/-- A signature by the alias key over bytes. -/
def aliasSig (s : State) (l : List Byte) : DWord :=
  Config.aliasSign (activeDie s) ((measBlocks s).map (·.2)) l

/-- GET_VERSION: SPDM 1.3. -/
def execGetVersion (pcie : Bool) (s : State) : Host.Outcome State Fault Refusal :=
  mctp pcie false (answerMgmt (.spdmVersion 1 3)) s

/-- GET_CAPABILITIES: certificates, challenge and measurements; no sessions. -/
def execGetCapabilities (pcie : Bool) (s : State) : Host.Outcome State Fault Refusal :=
  mctp pcie false (answerMgmt (.spdmCapabilities true true true false)) s

/-- NEGOTIATE_ALGORITHMS: Ed25519 and SHA-512 only; an offer without both is refused. -/
def execNegotiateAlgorithms (pcie ed25519 sha512 : Bool) (s : State) : Host.Outcome State Fault Refusal :=
  mctp pcie false (answerMgmt (if ed25519 && sha512 then .spdmAlgorithms true true else .done .refused)) s

/-- GET_DIGESTS of the certificate slots. -/
def execGetDigests (pcie : Bool) (s : State) : Host.Outcome State Fault Refusal :=
  mctp pcie false (fun s => answerMgmt
    (.spdmDigests ([0, 1].map (fun k => (k, Config.sha512 (certChain s k))))) s) s

/-- GET_CERTIFICATE: a part of the primary's own chain; another slot is refused (R466). -/
def execGetCertificate (pcie : Bool) (slot : BitVec 8) (off len : BitVec 16) (s : State) :
    Host.Outcome State Fault Refusal :=
  mctp pcie false (fun s => answerMgmt
    (if slot.toNat = activeDie s then
      .spdmCertificate slot.toNat (((certChain s slot.toNat).drop off.toNat).take len.toNat)
    else .done .refused) s) s

/-- CHALLENGE: answered with an alias-key signature over the nonce and the measurements. -/
def execChallenge (pcie : Bool) (slot : BitVec 8) (nonce : BitVec 256) (s : State) : Host.Outcome State Fault Refusal :=
  mctp pcie false (fun s => answerMgmt
    (if slot.toNat = activeDie s then
      .spdmChallenge slot.toNat (aliasSig s (natLe 32 nonce.toNat ++ (measBlocks s).flatMap (fun b => natLe 64 b.2.toNat)))
    else .done .refused) s) s

/-- GET_MEASUREMENTS: blocks 0 to 5, signed when that is asked. -/
def execGetMeasurements (pcie sign : Bool) (nonce : BitVec 256) (s : State) : Host.Outcome State Fault Refusal :=
  mctp pcie false (fun s =>
    let l := measBlocks s
    answerMgmt (.spdmMeasurements l
      (if sign then some (aliasSig s (natLe 32 nonce.toNat ++ l.flatMap (fun b => natLe 64 b.2.toNat))) else none)) s) s

/-! ### PLDM Types 0 and 2 (R478 to R480) -/

/-- GET_TID. -/
def execGetTid (pcie : Bool) (s : State) : Host.Outcome State Fault Refusal :=
  mctp pcie false (answerMgmt (.pldmTid Config.pldmTid)) s

/-- The supported PLDM types. -/
def pldmTypeList : List Nat := [0, 2, 5]

/-- GET_PLDM_VERSION of a type. -/
def execGetPldmVersion (pcie : Bool) (ty : BitVec 8) (s : State) : Host.Outcome State Fault Refusal :=
  mctp pcie false (answerMgmt (if pldmTypeList.contains ty.toNat then .pldmVersion (Config.pldmVersion ty.toNat)
    else .done .invalidData)) s

/-- GET_PLDM_TYPES. -/
def execGetPldmTypes (pcie : Bool) (s : State) : Host.Outcome State Fault Refusal :=
  mctp pcie false (answerMgmt (.pldmTypes pldmTypeList)) s

/-- The commands of a PLDM type (Table 17-4). -/
def pldmCommandList (ty : Nat) : List String :=
  if ty = 0 then ["GetTID", "GetPLDMVersion", "GetPLDMTypes", "GetPLDMCommands"]
  else if ty = 2 then ["GetPDR", "GetSensorReading", "GetStateSensorReadings", "SetStateEffecterStates", "SetEventReceiver",
    "PlatformEventMessage"]
  else ["RequestUpdate", "ComponentTransfer", "ActivateFirmware"]

/-- GET_PLDM_COMMANDS of a type. -/
def execGetPldmCommands (pcie : Bool) (ty : BitVec 8) (s : State) : Host.Outcome State Fault Refusal :=
  mctp pcie false (answerMgmt (if pldmTypeList.contains ty.toNat then .pldmCommands (pldmCommandList ty.toNat)
    else .done .invalidData)) s

/-- GET_PDR: records 1 to 79 describe the sensors, 80 to 83 the state effecters; record 0 is the first (log entry 32). -/
def execGetPdr (pcie : Bool) (handle : BitVec 32) (s : State) : Host.Outcome State Fault Refusal :=
  mctp pcie false (answerMgmt (
    let h := max 1 handle.toNat
    if h ≤ 79 then .pdrSensor h else if h ≤ 83 then .pdrEffecter (h - 79) else .done .invalidData)) s

/-- A sensor's value. -/
def sensor (s : State) (i : Nat) : Int := mget (fun _ => 0) s.mgmt.sensors i

/-- GET_SENSOR_READING of a numeric sensor. -/
def execGetSensorReading (pcie : Bool) (id : BitVec 16) (s : State) : Host.Outcome State Fault Refusal :=
  mctp pcie false (fun s => answerMgmt
    (if 1 ≤ id.toNat ∧ id.toNat ≤ 78 then .reading (sensor s id.toNat) else .done .invalidData) s) s

/-- GET_STATE_SENSOR_READINGS: sensor 79 is the ledger mode. -/
def execGetStateSensorReadings (pcie : Bool) (id : BitVec 16) (s : State) : Host.Outcome State Fault Refusal :=
  mctp pcie false (fun s => answerMgmt
    (if id.toNat = 79 then .state (sensor s 79).toNat else .done .invalidData) s) s

/-- SET_EVENT_RECEIVER. -/
def execSetEventReceiver (pcie : Bool) (eid : BitVec 8) (s : State) : Host.Outcome State Fault Refusal :=
  mctp pcie false (fun s => answerMgmt (.done .success) (s.modMgmt (fun m => { m with receiver := some (pcie, eid) }))) s

/-- MCTP_EID_ASSIGN: the bus owner assigns the endpoint ID of a transport. -/
def execMctpEidAssign (pcie : Bool) (eid : BitVec 8) (s : State) : Host.Outcome State Fault Refusal :=
  mctp pcie true (fun s =>
    answerMgmt (.done .success) (rset R.MGMT_EID (if pcie then F.MGMT_EID_PCIE else F.MGMT_EID_I3C) eid.toNat s)) s

/-! ### State effecters (R427, R481, Table 17-8) -/

/-- An effecter is set to a state that its row lists, or answers ERROR_INVALID_DATA. -/
def effecter (pcie : Bool) (listed : Nat → Bool) (st : Nat) (f : State → State) (s : State) :
    Host.Outcome State Fault Refusal :=
  mctp pcie false (fun s => if listed st then f s else answerMgmt (.done .invalidData) s) s

/-- ALERT_CLEAR: state n + 1 clears bit n of `MGMT_ALERT`. -/
def execAlertClear (pcie : Bool) (st : BitVec 8) (s : State) : Host.Outcome State Fault Refusal :=
  effecter pcie (fun k => decide (1 ≤ k ∧ k ≤ 14)) st.toNat (fun s =>
    let v := rget s R.MGMT_ALERT F.MGMT_ALERT_EVENTS
    answerMgmt (.done .success) (rset R.MGMT_ALERT F.MGMT_ALERT_EVENTS (v - v.land (2 ^ (st.toNat - 1))) s)) s

/-- TRIP_CLEAR: with every junction sensor below 95 °C, TRIPPED clears and a cold reset starts. -/
def execTripClear (pcie : Bool) (st : BitVec 8) (bist : SelfTest) (s : State) : Host.Outcome State Fault Refusal :=
  effecter pcie (fun k => k == 1) st.toNat (fun s =>
    if (List.range 40).any (fun i => decide (95 ≤ sensor s (i + 1))) then answerMgmt (.done .notReady) s
    else if tripped s then
      answerMgmt (.done .success) (coldReset 7 bist (rset R.PDC_TRIP F.PDC_TRIP_TRIPPED 0 s))
    else answerMgmt (.done .success) s) s

/-- MODE: writes `PDC_MODE.REQ`; ignored while tripped. -/
def execMode (pcie : Bool) (st : BitVec 8) (s : State) : Host.Outcome State Fault Refusal :=
  effecter pcie (fun k => decide (1 ≤ k ∧ k ≤ 4)) st.toNat (fun s =>
    answerMgmt (.done .success) (if tripped s then s else modeRequest (st.toNat - 1) s)) s

/-- RESET: the management reset command, warm or cold. -/
def execReset (pcie : Bool) (st : BitVec 8) (bist : SelfTest) (s : State) : Host.Outcome State Fault Refusal :=
  effecter pcie (fun k => k == 1 || k == 2) st.toNat (fun s =>
    answerMgmt (.done .success) (if st.toNat = 1 then warmReset 5 s else coldReset 5 bist s)) s

/-! ### Firmware update (R471, R475 to R477) -/

def updState (s : State) : Nat := rget s R.MGMT_UPD F.MGMT_UPD_STATE

/-- The update in progress is the transport's own. -/
def myUpdate (s : State) (pcie : Bool) : Bool := updState s != 0 && rget s R.MGMT_UPD F.MGMT_UPD_AGENT == b2n pcie

/-- REQUEST_UPDATE: enter update mode; a second transport is refused. -/
def execRequestUpdate (pcie : Bool) (s : State) : Host.Outcome State Fault Refusal :=
  mctp pcie true (fun s =>
    if updState s ≠ 0 ∧ myUpdate s pcie = false then answerMgmt (.done .alreadyInUpdateMode) s
    else if updState s ≠ 0 then answerMgmt (.done .success) s
    else
      answerMgmt (.done .success) (rset R.MGMT_UPD F.MGMT_UPD_STATE 1 (rset R.MGMT_UPD F.MGMT_UPD_AGENT (b2n pcie)
        (s.modMgmt (fun m => { m with staged := [] }))))) s

/-- The slot an update writes: the inactive one, or slot A where no image was accepted (R470). -/
def updSlot (s : State) : Nat := if s.power.off = some .noImage then 0 else 1 - s.mgmt.active % 2

/-- FIRMWARE_COMPONENT_TRANSFER: a component is written to the slot and verified before the transfer is reported complete. -/
def execFirmwareComponentTransfer (pcie : Bool) (comp : BitVec 8) (svn : BitVec 8) (ok : Bool) (ver : BitVec 32)
    (bytes : List Byte) (s : State) : Host.Outcome State Fault Refusal :=
  mctp pcie true (fun s =>
    let c := comp.toNat
    if myUpdate s pcie = false then answerMgmt (.done .notReady) s
    else if c = 0 ∨ 5 < c then answerMgmt (.done .invalidData) s
    else
      let im : Image := ⟨svn, ok, ver, bytes⟩
      let good := imageOk s im
      let s := s.modMgmt (fun m => { m with
        images := mins m.images (8 * updSlot s + c) im
        staged := m.staged.filter (fun k => k != c) ++ (if good then [c] else []) })
      answerMgmt (.done (if good then .success else .refused)) s) s

/-- A stack's staged microcode: its bytes at `ABL_MC_SRC`, marked verified, and the load started (R476). -/
def loadMicrocode (bytes : List Byte) (st : Nat) (s : State) : State :=
  let a := st * 2 ^ 36 + (rget s (R.ABL_MC_SRC st) F.ABL_MC_SRC_OFF) <<< 6
  let s := (memWrite (bytes.zipIdx.map (fun p => (a + p.2, p.1))) s).2
  mcLoad st (s.modMgmt (fun m => { m with mcMarked := if m.mcMarked.contains st then m.mcMarked else m.mcMarked ++ [st] }))

/-- ACTIVATE_FIRMWARE: the flash header names the updated slot, for the next cold reset; component 4 is loaded at once. -/
def execActivateFirmware (pcie : Bool) (s : State) : Host.Outcome State Fault Refusal :=
  mctp pcie true (fun s =>
    if myUpdate s pcie = false ∨ s.mgmt.staged = [] then answerMgmt (.done .notReady) s
    else
      let slot := updSlot s
      let four := s.mgmt.staged.contains 4
      let s := rset R.MGMT_UPD F.MGMT_UPD_STATE 0 (s.modMgmt (fun m => { m with active := slot, staged := [] }))
      let s := match (if four then slotImage s slot 4 else none) with
        | some im =>
          let s := s.modMgmt (fun m => { m with mcVer := im.ver, mcDigest := Config.sha512 im.bytes, mcLen := im.bytes.length, mcMarked := [] })
          (List.range 16).foldl (fun s st => if dst s (48 + st) = dsOn then loadMicrocode im.bytes st s else s) s
        | none => s
      answerMgmt (.done .success) s) s

/-- A write of 1 to `SEC_CTL.COMMIT_SVN`: MIN_SVN takes the running slot's SVN and never falls (R471). -/
def commitSvn (s : State) : State :=
  let v := max s.mgmt.minSvn (rget s R.SEC_STATUS F.SEC_STATUS_SVN)
  rset R.SEC_STATUS F.SEC_STATUS_MIN_SVN v (s.modMgmt (fun m => { m with minSvn := v }))

/-- COMMIT_SVN: the host writes `SEC_CTL.COMMIT_SVN`. -/
def execCommitSvn (s : State) : Host.Outcome State Fault Refusal := .next (hostWrite 0 commitSvn s)

/-! ### Telemetry, alerts and the test-access port (R479, R480, R494) -/

/-- The management controller runs. -/
def mgmtRuns (s : State) : Bool := powered s && dst s 0 == dsOn && !decide (s.power.off = some .noImage)

/-- SENSOR_UPDATE: every 1 ms while the management controller runs. -/
def execSensorUpdate (readings : List (Nat × Int)) (s : State) : Host.Outcome State Fault Refusal :=
  .next (if mgmtRuns s then takeReadings readings s else s)

/-- VRALERT: the regulator controller asserts its fault alert while the module runs; in Frost-watch it is a wake source. -/
def execVralert (s : State) : Host.Outcome State Fault Refusal :=
  .next (if mgmtRuns s then alert 13 s else s)

/-- TEST_ACCESS_PORT_OPEN: `good` says that the challenge response is signed by Kyolan and bound to the identity key. -/
def execTestAccessPortOpen (good : Bool) (s : State) : Host.Outcome State Fault Refusal :=
  .next (if mgmtRuns s && good then rset R.SEC_STATUS F.SEC_STATUS_TAP_OPEN 1 s else s)

/-- The module drives the outputs of SIG other than ALERT#: PRSNT# is mated (R487), and every rail is at its power-good level
(R419). -/
def drivesSig (s : State) : Bool :=
  s.power.prsnt && !decide (s.power.off = some .rail) && !decide (s.power.off = some .input)

/-- ALERT#, an open-drain output: pulled low while an enabled bit of `MGMT_ALERT` is set (R480) and on a thermal trip (R427), by a
mated module alone (R487). -/
def alertPin (s : State) : Bool :=
  s.power.prsnt && ((rraw s R.MGMT_ALERT).land (rraw s R.MGMT_ALERT_EN) != 0 || tripped s)

/-- WAKE#, an open-drain output: pulled low from the wake that ends Frost-watch until R492 releases it. -/
def wakePin (s : State) : Bool := drivesSig s && s.power.wake

/-- CXL_PERSTn#, a push-pull output: whether it is asserted, while it is driven; asserted while the port's host I/O domain is not ON
(Table 18-3). -/
def cxlPerstPin (s : State) (n : Nat) : Option Bool := if drivesSig s then some (!s.domOn (3 + n)) else none

/-- A PMBus command is served. -/
def pmbus (f : State → State) (s : State) : Host.Outcome State Fault Refusal := .next (if mgmtRuns s then f s else s)

/-- CLEAR_FAULTS: bits whose cause has ended are cleared. -/
def execClearFaults (s : State) : Host.Outcome State Fault Refusal :=
  pmbus (fun s => s.modMgmt (fun m => { m with
    uv := m.uv && decide (sensor s 75 < 38)
    ov := m.ov && decide (62 < sensor s 75)
    oc := m.oc && decide (110 < sensor s 76)
    hot := m.hot && (decide (sensor s 73 < 10) || decide (45 < sensor s 73) || decide (55 < sensor s 74)) })) s

/-- STATUS_WORD. -/
def execStatusWord (s : State) : Host.Outcome State Fault Refusal :=
  pmbus (fun s => answerMgmt (.word s.mgmt.uv s.mgmt.ov s.mgmt.oc s.mgmt.hot) s) s

/-- READ_VIN: sensor 75. -/
def execReadVin (s : State) : Host.Outcome State Fault Refusal := pmbus (fun s => answerMgmt (.reading (sensor s 75)) s) s

/-- READ_IIN: sensor 76. -/
def execReadIin (s : State) : Host.Outcome State Fault Refusal := pmbus (fun s => answerMgmt (.reading (sensor s 76)) s) s

/-- READ_TEMPERATURE_1: the coolant inlet, sensor 73. -/
def execReadTemperature1 (s : State) : Host.Outcome State Fault Refusal :=
  pmbus (fun s => answerMgmt (.reading (sensor s 73)) s) s

/-- READ_PIN: sensor 77. -/
def execReadPin (s : State) : Host.Outcome State Fault Refusal := pmbus (fun s => answerMgmt (.reading (sensor s 77)) s) s

end Sys2Proof.Machine
end

