-- ==== Sys2Proof/Machine/HostRegs.lean ====
section
/-! DEFINITION. The host's accesses to BAR0 and BAR2 (R7, R9, R37, R38, R42, R421, R423, R505): what a write of any register does,
a read with its clear, and the memory window. A register whose write has a row of its own acts as that row does. -/

namespace Sys2Proof.Machine

/-- `EXD_CMD` drops an expert that rests, has faulted, or is resident outside the pool. -/
def exdDropOk (e : Nat) (s : State) : Bool :=
  resOf s e == resResting || resOf s e == resFaulted || (resOf s e == resResident && !isPool s e)

def exdDrop (e : Nat) (s : State) : State :=
  setRes e resNone (setDirVa e 0 (s.modExd (fun x => { x with held := x.held.filter (· != e) })))

/-- What `EXD_CMD` starts by its OP (Table 10-10). Another OP is reserved: it changes nothing but leaves STATUS undefined, a free
value (R12; log entry 24). -/
def exdWrite (v : Nat) (s : State) : State :=
  let e := bits v 16 16
  match bits v 0 4 with
  | 1 => exdDo (fun s => resOf s e == resNone) (setRes e resResident) s
  | 2 => exdDo (fun s => resOf s e == resNone) (setRes e resResting) s
  | 3 => exdDo (exdDropOk e) (exdDrop e) s
  | 4 => exdDo (fun _ => true) (rset R.EXD_CMD_STAT F.EXD_CMD_STAT_BUSY 1) s
  | 5 => exdDo (fun s => resOf s e == resFaulted) (requestFetch e true) s
  | _ =>
    if rbit s R.EXD_CMD_STAT F.EXD_CMD_STAT_BUSY then s
    else
      let f := freeWord s
      rset R.EXD_CMD_STAT F.EXD_CMD_STAT_STATUS (f.1.toNat % 256) f.2

/-- What a whole write of `REC_CMD` starts by its OP (Table 16-8); other codes start nothing. -/
def recWrite (v : Nat) (s : State) : State :=
  let dev := bits v F.REC_CMD_DEV.lo F.REC_CMD_DEV.w
  if rbit s R.REC_STATE F.REC_STATE_BUSY then s
  else
    match bits v 0 4 with
    | 1 => calve dev s
    | 2 => fillCmd dev (bits v F.REC_CMD_SOURCE.lo F.REC_CMD_SOURCE.w) (bit v F.REC_CMD_SNAP.lo) s
    | 3 => doneCmd s
    | 4 => clearCmd s
    | 5 => unfence dev s
    | _ => s

/-- The self-test of a cold reset that a plain register write asks for: a free value. Log entry 33. -/
def freeColdReset (s : State) : State :=
  coldReset 2 (Config.selfTest s.freeCtr) { s with freeCtr := s.freeCtr + 1 }

/-- Effect of a write to a register of host queue `q`, block offset `k`. -/
def queueWrite (q : QIdx) (k start : Nat) (r : RegRow) (mask v : Nat) (s : State) : State :=
  if k = 0x0 then qcfgWrite q v s
  else if k = 0x8 ∨ k = 0x10 then (if qState s q = qDisabled then regPlain start r mask v s else s)
  else if k = 0x18 then sqDoorbell q v s
  else if k = 0x20 then cqDoorbell q v s
  else regPlain start r mask v s

/-- Effect of a write to a register of the power domain controller or the ledger. -/
def aonWrite (start : Nat) (r : RegRow) (mask v : Nat) (s : State) : State :=
  if start = R.PDC_MODE then modeRequest (v % 4) s
  else if R.PDC_DOM_REQ 0 ≤ start ∧ start < R.PDC_DOM_REQ 64 then domRequest ((start - R.PDC_DOM_REQ 0) / 4) (v % 16) s
  else if start = R.PDC_RESET then
    (if v % 4 = 1 then warmReset 3 s else if v % 4 = 2 then freeColdReset s else s)
  else if start = R.PDC_TILE_RST then
    (if bit v F.PDC_TILE_RST_GO.lo then tileReset (BitVec.ofNat 11 v) s else s)
  else if start = R.PDC_WAKE_SRC then
    let s := regPlain start r mask v s
    if rbit s start F.PDC_WAKE_SRC_VALID then s else s.modPower (fun p => { p with wake := false })
  else if start = R.LEDG_CTL then
    let s := regPlain start r mask v s
    if bit v F.LEDG_CTL_TAG_CLR.lo then tagClr s else s
  else if start = R.SEC_CTL then
    let s := regPlain start r mask v s
    if bit v F.SEC_CTL_COMMIT_SVN.lo then commitSvn s else s
  else regPlain start r mask v s

/-- Effect of a write to a register of stack `st`'s Ablation Unit, block offset `k`. -/
def ablRegWrite (st k start : Nat) (r : RegRow) (mask v : Nat) (s : State) : State :=
  if 0x80000 ≤ k ∧ k < 0x90000 then
    rgnvWrite (st * 4096 + (k - 0x80000) / 16) (k % 16 / 4) v s
  else if 0x40000 ≤ k ∧ k < 0x80000 then regPlain start r mask v (descWritten (st * 4096 + (k - 0x40000) / 64) s)
  else if k = 0x40 then (if bit v F.ABL_MC_CTL_LOAD.lo then mcLoad st s else s)
  else if 0x100 ≤ k ∧ k < 0x180 then (if bit v F.ABL_INBOX_RESET.lo then inboxReset st ((k - 0x100) / 8) s else s)
  else regPlain start r mask v s

/-- Effect of a write to a register of the fabric, the collective engines or the firn and recovery block. -/
def mosWrite (start : Nat) (r : RegRow) (mask v : Nat) (s : State) : State :=
  if start = R.MOS_CTL then
    (if bit v 0 then rset R.MOS_CTL F.MOS_CTL_EN 1 s else fabricDisable s)
  else if start = R.MOS_DEVID ∨ start = R.MOS_COORD ∨ start = R.MOS_DIM then
    (if rbit s R.MOS_CTL F.MOS_CTL_EN then s else regPlain start r mask v s)
  else if R.MOSP_CTL 0 ≤ start ∧ start < R.MOSP_CTL 24 ∧ start % 256 = 0 then
    let p := (start - R.MOSP_CTL 0) / 256
    let s := regPlain start r (mask - mask.land 1) v s
    if bit v 0 then portEnable p s else portDisable p s
  else if R.GRP 0 0 ≤ start ∧ start < R.GRP 4096 0 then
    (if start % 64 < 48 then grpWrite ((start - R.GRP 0 0) / 64) (start % 64 / 8) mask v s else s)
  else if start = R.MIR_CTL then
    let s := if bit v F.MIR_CTL_PAIR.lo then pair s else s
    if bit v F.MIR_CTL_UNPAIR.lo then unpair s else s
  else if start = R.MIR_PEER ∨ (R.MIR_ENT_SRC 0 ≤ start ∧ start < R.MIR_ENT_SRC 256) then
    (if mirState s = miPairing ∨ mirState s = miPaired then s else regPlain start r mask v s)
  else if start = R.FIRN_BASE ∨ start = R.FIRN_CFG then
    let u := regPlain start r mask v s
    if recAddr u 1 1 = recAddr s 1 1 ∧ firnDepth u = firnDepth s then u else { u with recMoved := s.recLast }
  else if start = R.REC_CMD then (if mask = 2 ^ 64 - 1 then recWrite v s else s)
  else regPlain start r mask v s

/-- Effect of a host write of the bits under `mask` of the register at BAR0 offset `start`. -/
def regWrite (start : Nat) (r : RegRow) (mask v : Nat) (s : State) : State :=
  if 0x100000 ≤ start ∧ start < 0x140000 then
    queueWrite (BitVec.ofNat 6 ((start - 0x100000) / 0x1000)) (start % 0x1000) start r mask v s
  else if 0x140000 ≤ start ∧ start < 0x148000 ∧ start % 16 = 12 then
    unmaskVector ((start - 0x140000) / 16) (regPlain start r mask v s)
  else if (0x1000000 ≤ start ∧ start < 0x2000000) ∨ (0x6000000 ≤ start ∧ start < 0x7000000) then aonWrite start r mask v s
  else if start = R.EXD_CMD then exdWrite v s
  else if 0x2100000 ≤ start ∧ start < 0x2300000 ∧ start % 32 = 24 then
    (if resOf s ((start - 0x2100000) / 32) = resNone then regPlain start r mask v s else s)
  else if 0x3000000 ≤ start ∧ start < 0x4000000 then
    ablRegWrite ((start - 0x3000000) / 0x100000) (start % 0x100000) start r mask v s
  else if 0x4000000 ≤ start ∧ start < 0x5000000 then mosWrite start r mask v s
  else if 0x5000000 ≤ start ∧ start < 0x6000000 then updSlots (regPlain start r mask v s)
  else if 0x7000000 ≤ start ∧ start < 0x8000000 ∧ start % 0x80000 = 8 then
    (if bit v 0 then invalDie ((start - 0x7000000) / 0x80000) s else s)
  else
    match tileOff start with
    | some (t, lo) => tileRegWrite t lo start r mask v s
    | none => regPlain start r mask v s

/-- A host access is served (R505): 4 or 8 bytes, naturally aligned. -/
def barServed (o n : Nat) : Bool := (n == 4 || n == 8) && o % n == 0

/-- REGISTER_WRITE: the host writes 4 or 8 bytes at a BAR0 offset; the registers it reaches are taken in address order. -/
def execRegisterWrite (off : BitVec 28) (bytes : BitVec 4) (v : BitVec 64) (s : State) : Host.Outcome State Fault Refusal :=
  let o := off.toNat
  let n := bytes.toNat
  .next (if barServed o n then
      hostWrite (regDom s o) (fun s =>
        (regPieces o n (v.toNat % 2 ^ (8 * n))).foldl (fun s p => regWrite p.1 p.2.1 p.2.2.1 p.2.2.2 s) s) s
    else s)

/-- Fields of a region's version entry that are computed: the copy that holds epoch E, and whether an update is held. -/
def rgnView (s : State) (o v : Nat) : Nat :=
  let k := o % 0x100000
  if 0x3000000 ≤ o ∧ o < 0x4000000 ∧ 0x80000 ≤ k ∧ k < 0x90000 ∧ k % 16 = 4 then
    let st := (o - 0x3000000) / 0x100000
    let r := st * 4096 + (k - 0x80000) / 16
    putF F.RGNV_STATE_CUR (rgnCopy s r (rgnEpoch s r))
      (putF F.RGNV_STATE_UPD_QUEUED (b2n ((s.ablJobs st).any (heldJob r))) v)
  else v

/-- Four bytes of BAR0 as the host reads them: all ones where the domain is not ON, or outside AON while a cold reset is in
progress (R421, R423), or where no function is presented. -/
def hostRead4 (o : Nat) (s : State) : Nat × State :=
  let n := regDom s o
  if (if s.power.cold then n = 0 else s.domReach 3 = true ∧ s.domOn n = true) then
    let r := regRead4 o s
    (rgnView s o r.1, r.2)
  else (2 ^ 32 - 1, s)

/-- RC_COUNTER_READ: the host reads 4 or 8 bytes at a BAR0 offset; the RC fields it covers clear (R9). -/
def execRcCounterRead (off : BitVec 28) (bytes : BitVec 4) (s : State) : Host.Outcome State Fault Refusal :=
  let o := off.toNat
  let n := bytes.toNat
  .next (if barServed o n then
      let a := hostRead4 o s
      if n = 4 then { a.2 with hostRead := natLe 4 a.1 }
      else
        let b := hostRead4 (o + 4) a.2
        { b.2 with hostRead := natLe 4 a.1 ++ natLe 4 b.1 }
    else { s with hostRead := List.replicate n 0 })

/-- The stack that BAR2 maps. -/
def barStack (s : State) : Nat := rget s R.HOSTWIN F.HOSTWIN_STACK

/-- The local HBM address of a byte of the window (R38). -/
def barAddr (s : State) (o : Nat) : Nat := barStack s * 2 ^ 36 + o % 2 ^ 36

/-- The host's access through BAR2 is served: HIO0, and the stack ON (R421, R423). -/
def barOpen (s : State) : Bool := !s.power.cold && s.domReach 3 && s.domOn (48 + barStack s)

/-- BAR2_ACCESS: bytes of the selected stack read or written. A read that meets an uncorrectable codeword gives free bytes (log
entry 34). -/
def execBar2Access (off : BitVec 36) (acc : HostAcc) (s : State) : Host.Outcome State Fault Refusal :=
  .next (match acc with
    | .write data =>
      if barOpen s then (memWrite (data.zipIdx.map (fun p => (barAddr s (off.toNat + p.2), p.1))) s).2
      else if s.power.cold ∨ s.domReach 3 = true then rinc R.PDC_HOST_DROP F.PDC_HOST_DROP_COUNT 1 s
      else s
    | .read n =>
      if barOpen s then
        let r := memRead ((List.range n).map (fun i => barAddr s (off.toNat + i))) s
        if r.1 = .ok then { r.2.2 with hostRead := r.2.1 }
        else { r.2.2 with
          hostRead := (List.range n).map (fun i => Config.freeByte (s.freeCtr + i))
          freeCtr := s.freeCtr + n }
      else
        let s := if s.power.cold ∨ s.domReach 3 = true then rinc R.PDC_HOST_DROP F.PDC_HOST_DROP_COUNT 1 s else s
        { s with hostRead := List.replicate n 255 })

/-- HOSTWIN_WRITE: the window moves to another stack, after every earlier access to it. -/
def execHostwinWrite (v : BitVec 32) (s : State) : Host.Outcome State Fault Refusal :=
  .next (hostWrite (hostCtl s) (rset R.HOSTWIN F.HOSTWIN_STACK v.toNat) s)

end Sys2Proof.Machine
end

