-- ==== Sys2Proof/Machine/Predict.lean ====
section
/-! DEFINITION. The activity predictor (R235 to R253), and the GME's queue: GME_EXECUTE, SCAN, CHECK, VERDICT and completion. -/

namespace Sys2Proof.Machine

/-! ### The prediction command (Table 9-2) -/

def pdOp (d : DWord) : Nat := dF d 0x00 1
def pdMode (d : DWord) : Nat := dF d 0x01 1
def pdFmt (d : DWord) : Nat := dF d 0x02 1
def pdLin (d : DWord) : PairIdx := BitVec.ofNat 5 (dF d 0x03 1)
def pdLinEn (d : DWord) : Bool := bit (dF d 0x03 1) 7
def pdLout (d : DWord) : PairIdx := BitVec.ofNat 5 (dF d 0x04 1)
def pdLoutEn (d : DWord) : Bool := bit (dF d 0x04 1) 7
def pdBlockRows (d : DWord) : Nat := dF d 0x06 2
def pdRows (d : DWord) : Nat := dF d 0x08 4
def pdCols (d : DWord) : Nat := dF d 0x0C 4
def pdRow0 (d : DWord) : Nat := dF d 0x10 4
def pdStep (d : DWord) : Nat := dF d 0x14 4
def pdSeed (d : DWord) : Nat := dF d 0x18 8
def pdTally (d : DWord) : Nat := dF d 0x20 8
def pdThresh (d : DWord) : Nat := dF d 0x28 4
def pdSrc (d : DWord) : Nat := dF d 0x2C 4
def pdPitch (d : DWord) : Nat := dF d 0x30 4
def pdList (d : DWord) : Nat := dF d 0x34 4
def pdAud (d : DWord) : Nat := dF d 0x38 4
def pdLayer (d : DWord) : Nat := dF d 0x3C 2

/-- List blocks of a command (R238). -/
def pdBlocks (d : DWord) : Nat := ceilDiv (pdRows d) (pdBlockRows d)

/-- Bytes of a list area, LS of R239. -/
def pdLs (d : DWord) : Nat := ceilDiv (16 + 32 * ceilDiv (pdCols d) 16) 64 * 64

/-- Bytes of a source row of `n` values. -/
def pdRowBytes (fmt n : Nat) : Nat :=
  match fmt with
  | 0x00 => 4 * n
  | 0x01 => 2 * n
  | _ => n + n / 32

/-- The refusals of Table 9-3. The row size of a CHECK's source is that of COLS values, as a SCAN's is (DEDUCED, log entry 15). -/
def pdRefused (d : DWord) : Bool :=
  let op := pdOp d
  let scan := op == 0
  let check := op == 1
  let src := scan || check
  let th := pdThresh d
  let isNan := match rdF32 th with
    | .nan => true
    | _ => false
  let neg := f32Lt th 0
  let rowB := pdRowBytes (pdFmt d) (pdCols d)
  decide (2 < op) || (if scan then decide (1 < pdMode d) else pdMode d != 0) || dF d 0x05 1 != 0 || dF d 0x3E 2 != 0 ||
  (if src then !(pdFmt d == 0 || pdFmt d == 1 || (scan && pdFmt d == 8 && pdCols d % 32 == 0)) else pdFmt d != 0) ||
  bits (dF d 0x03 1) 5 2 != 0 || bits (dF d 0x04 1) 5 2 != 0 || (!src && dF d 0x03 1 != 0) ||
  (if src then
    pdBlockRows d < 16 || 256 < pdBlockRows d || pdBlockRows d % 16 != 0 || pdRows d == 0 || decide (65536 < pdRows d) ||
    pdCols d == 0 || decide (65535 < pdCols d) || isNan || (neg && !(scan && pdMode d == 1)) ||
    pdSrc d % 64 != 0 || pdPitch d % 64 != 0 || pdAud d % 64 != 0 || decide (pdPitch d < rowB) ||
    decide (spadBytes < pdSrc d + (pdRows d - 1) * pdPitch d + rowB) ||
    decide (spadBytes < pdAud d + pdBlocks d * pdLs d)
  else pdBlockRows d != 0 || pdRows d != 0 || pdCols d != 0 || th != 0 || pdSrc d != 0 || pdPitch d != 0 || pdAud d != 0) ||
  (if scan then pdRow0 d % pdBlockRows d != 0 || pdList d % 64 != 0 ||
    decide (spadBytes < pdList d + pdBlocks d * pdLs d) || pdTally d != 0
  else pdRow0 d != 0 || pdStep d != 0 || pdSeed d != 0 || pdList d != 0 || pdLayer d != 0 ||
    decide (2 ^ 48 ≤ pdTally d) || pdTally d % 16 != 0)

/-! ### Bodies -/

/-- FP32 words of `n` values of a source row. -/
def pdValues (fmt n : Nat) (l : List Byte) : List Nat :=
  match formatOf fmt with
  | none => []
  | some f =>
    if f.block = 0 then (List.range n).map (fun j => wrF32 (elemValue f (leAt l (j * (f.w / 8)) (f.w / 8))))
    else (List.range n).map (fun j => wrF32 (scaledValue f (leAt l (n + j / 32) 1) (leAt l j 1)))

/-- Bytes read from the own scratchpad; past its end there are none (R23). -/
def pdRead (t : TileId) (off n : Nat) (s : State) : Except (Status × Nat) (List Byte) × State :=
  if spadBytes < off + n then (.error (.protection, 0), s)
  else
  let m := memRead ((List.range n).map (fun i => spadAddr t (off + i))) s
  (if m.1 = .ok then .ok m.2.1 else .error (m.1, 0), m.2.2)

/-- A source row read from the own scratchpad. -/
def pdReadRow (t : TileId) (d : DWord) (n r : Nat) (s : State) : Except (Status × Nat) (List Nat) × State :=
  emBind (pdRead t (pdSrc d + r * pdPitch d) (pdRowBytes (pdFmt d) n) s) (fun l s => (.ok (pdValues (pdFmt d) n l), s))

/-- The test of R242 and R246 on one value. -/
def pdTest (signed : Bool) (th v : Nat) : Bool :=
  (match rdF32 v with
    | .nan => true
    | _ => false) || f32Lt th (if signed then v else f32Abs v)

/-- The rows of a list block. -/
def blockRowsOf (d : DWord) (b : Nat) : List Nat := span (b * pdBlockRows d) (min ((b + 1) * pdBlockRows d) (pdRows d))

/-- Columns of a block in which some row passes the test, among the first `n`. -/
def pdHits (t : TileId) (d : DWord) (signed : Bool) (n b : Nat) (s : State) :
    Except (Status × Nat) (List Nat) × State :=
  emBind (emMap (pdReadRow t d n) (blockRowsOf d b) s) (fun rows s =>
    (.ok ((List.range n).filter (fun j => rows.any (fun r => pdTest signed (pdThresh d) (r.getD j 0)))), s))

/-- audit(G, j) of R244. -/
def pdAudit (d : DWord) (g j : Nat) : Bool :=
  let k := (pdSeed d + pdStep d * 0x9E3779B97F4A7C15) % 2 ^ 64
  mix (((k.xor (pdLayer d <<< 48)).xor ((g <<< 16) % 2 ^ 64)).xor j) % 64 == 0

/-- The bytes of a list (Table 9-1). -/
def listBytes (l : List Nat) : List Byte :=
  let n16 := ceilDiv l.length 16 * 16
  natLe 4 l.length ++ natLe 4 n16 ++ natLe 8 0 ++ l.flatMap (natLe 2) ++
    (List.replicate (n16 - l.length) 0xFFFF).flatMap (natLe 2)

/-- Bytes written in the own scratchpad. -/
def pdWrite (t : TileId) (off : Nat) (l : List Byte) (s : State) : Except (Status × Nat) Unit × State :=
  let r := memWrite (l.zipIdx.map (fun p => (spadAddr t (off + p.2), p.1))) s
  (if r.1 = .ok then .ok () else .error (r.1, 0), r.2)

/-- Two ranges of offsets meet. -/
def rangesMeet (a n b m : Nat) : Bool := decide (a < b + m ∧ b < a + n ∧ n ≠ 0 ∧ m ≠ 0)

/-- A list or audit area overlaps its source or another list (Table 9-7). -/
def pdOverlap (d : DWord) : Bool :=
  let n := pdBlocks d * pdLs d
  let src := (pdRows d - 1) * pdPitch d + pdRowBytes (pdFmt d) (pdCols d)
  rangesMeet (pdAud d) n (pdSrc d) src ||
    (pdOp d == 0 && (rangesMeet (pdList d) n (pdSrc d) src || rangesMeet (pdList d) n (pdAud d) n))

/-- No audit: expert level, not strict, AUDIT_OFF (R243). -/
def pdAuditOff (s : State) (t : TileId) : Bool :=
  let o := R.PRED_CTL t.toNat
  rbit s o F.PRED_CTL_EXPERT && !rbit s o F.PRED_CTL_STRICT && rbit s o F.PRED_CTL_AUDIT_OFF

/-- The lists of one block written (R242, R243); answers the entries listed. -/
def scanBlock (t : TileId) (d : DWord) (b : Nat) (s : State) : Except RunBad Nat × State :=
  let last := b + 1 == pdBlocks d
  emBind (readStep (pdHits t d (pdMode d == 1) (pdCols d) b s)) (fun act s =>
    let g := pdRow0 d / pdBlockRows d + b
    let aud := if pdMode d = 0 ∨ pdAuditOff s t = true then []
      else (List.range (pdCols d)).filter (fun j => !act.contains j && pdAudit d g j)
    emBind (writeStep last (pdWrite t (pdList d + b * pdLs d) (listBytes act) s)) (fun _ s =>
    emBind (writeStep last (pdWrite t (pdAud d + b * pdLs d) (listBytes aud) s)) (fun _ s => (.ok act.length, s))))

/-- The areas of a command's lists, undefined. -/
def pdUndefine (t : TileId) (d : DWord) (s : State) : State :=
  let area (o : Nat) : List Nat := (List.range (pdBlocks d * pdLs d)).map (fun i => spadAddr t (o + i))
  freeBytes ((if pdOp d = 0 then area (pdList d) else []) ++ area (pdAud d)) s

/-- SCAN (R242 to R244). -/
def scanRun (t : TileId) (d : DWord) (s : State) : Option RunBad × State :=
  emElim (emMap (scanBlock t d) (List.range (pdBlocks d)) s)
    (fun e s => (some e, pdUndefine t d s))
    (fun ns s =>
      let s := rinc (R.PRED_LISTED t.toNat) F.PRED_LISTED_COUNT ns.sum s
      (none, if pdOverlap d then pdUndefine t d s else s))

/-- Offset of block `b`'s audit list. -/
def audAt (d : DWord) (b : Nat) : Nat := pdAud d + b * pdLs d

/-- MISSES of an audit list, after the columns that hit are known; answers the entries checked and the misses. -/
def setMisses (t : TileId) (d : DWord) (b n : Nat) (hits : List Nat) (s : State) : Except (Status × Nat) (Nat × Nat) × State :=
  emBind (pdWrite t (audAt d b + 8) (natLe 4 hits.length) s) (fun _ s => (.ok (n, hits.length), s))

/-- The misses among the first `n` columns of a block, written to its audit list (R246). -/
def checkMisses (t : TileId) (d : DWord) (b n : Nat) (s : State) : Except RunBad (Nat × Nat) × State :=
  emBind (readStep (pdHits t d false n b s)) (fun hits s => writeStep (b + 1 == pdBlocks d) (setMisses t d b n hits s))

/-- One audit list checked: its audited entries and its misses (R246). -/
def checkBlock (t : TileId) (d : DWord) (b : Nat) (s : State) : Except RunBad (Nat × Nat) × State :=
  emBind (readStep (pdRead t (audAt d b) 16 s)) (fun h s => checkMisses t d b (leAt h 0 4) s)

/-- The words MISSES of a CHECK's audit lists, undefined. -/
def missUndefine (t : TileId) (d : DWord) (s : State) : State :=
  freeBytes ((List.range (pdBlocks d)).flatMap (fun b => (List.range 4).map (fun i => spadAddr t (audAt d b + 8 + i)))) s

/-- An AADD.D on the tally at a virtual address (R246). -/
def tallyAdd (t : TileId) (env : EngEnv) (va v : Nat) (s : State) : Except (Status × Nat) Unit × State :=
  let done (r : Status × List Byte × State) : Except (Status × Nat) Unit × State :=
    (if r.1 = .ok then .ok () else .error (r.1, va), r.2.2)
  match translate t va true true s with
  | (.bad st, s) => (.error (st, va), xlatFault t va st unitGme s)
  | (.ok dev la, s) =>
    match route s t dev la with
    | .now => done (localAadd la true (BitVec.ofNat 64 v) s)
    | .tile u =>
      match tileBars s u with
      | some st => (.error (st, va), s)
      | none => done (windowAadd u la true (BitVec.ofNat 64 v) s.devId t.toNat s)
    | .dev x =>
      done ((extLine env x (la / 64)).1, [],
        sendTxn ⟨.acked t, .dev (BitVec.ofNat 15 x), va, .aadd la true (BitVec.ofNat 64 v) false, .request⟩ s)
    | .lost => (.error (.timeout, va), rinc R.PDC_ORPHAN F.PDC_ORPHAN_COUNT 1 s)
    | .noRoute => (.error (.protection, va), xlatFault t va .protection unitGme s)

/-- CHECK (R246). -/
def checkRun (t : TileId) (env : EngEnv) (d : DWord) (s : State) : Option RunBad × State :=
  emElim (emMap (checkBlock t d) (List.range (pdBlocks d)) s)
    (fun e s => (some e, missUndefine t d s))
    (fun ls s =>
      let n := (ls.map (·.1)).sum
      let m := (ls.map (·.2)).sum
      let s := rinc (R.PRED_MISS t.toNat) F.PRED_MISS_COUNT m (rinc (R.PRED_AUDIT t.toNat) F.PRED_AUDIT_COUNT n s)
      emElim (emBind (tallyAdd t env (pdTally d) n s) (fun _ s => tallyAdd t env (pdTally d + 8) m s))
        (fun e s => (some ⟨e, true⟩, s))
        (fun _ s => (none, if pdOverlap d then pdUndefine t d s else s)))

/-- DENSE of a tally (R247). -/
def denseOf (s : State) (t : TileId) (audited missed : Nat) : Bool :=
  let o := R.PRED_CTL t.toNat
  rbit s o F.PRED_CTL_EXPERT && rbit s o F.PRED_CTL_STRICT && audited != 0 &&
    decide (min 1000 (rget s (R.PRED_LIMIT t.toNat) F.PRED_LIMIT_LIMIT) * audited < 1000 * missed)

/-- VERDICT (R247). -/
def verdictRun (t : TileId) (env : EngEnv) (d : DWord) (s : State) : Option RunBad × State :=
  match engRead t unitGme env ((List.range 16).map (pdTally d + ·)) s with
  | (.error e, s) => (some ⟨e, false⟩, s)
  | (.ok bs, s) =>
    let a := leAt bs 0 8
    let m := leAt bs 8 8
    let x := denseOf s t a m
    let s := rput (R.PRED_TALLY_M t.toNat) m (rput (R.PRED_TALLY_A t.toNat) a s)
    let s := rput (R.PRED_VERDICT t.toNat) (1 + 2 * b2n x) s
    (none, if x then rinc (R.PRED_DENSE t.toNat) F.PRED_DENSE_COUNT 1 s else s)

/-! ### The GME's queue -/

/-- The first GME instruction changed. -/
def gmeHead (t : TileId) (f : EngCmd → EngCmd) (s : State) : State :=
  s.modTile t (fun c => { c with gme := modHead f c.gme })

/-- The link pairs an instruction uses: input and output. -/
def gmeLinks (e : EngCmd) : Option PairIdx × Option PairIdx :=
  match e.op with
  | .pred => (if pdLinEn e.da then some (pdLin e.da) else none, if pdLoutEn e.da then some (pdLout e.da) else none)
  | _ => (if e.imm.linEn then some e.imm.lin else none, if e.imm.loutEn then some e.imm.lout else none)

/-- The instruction has run, with a status. -/
def gmeDone (t : TileId) (bad : Option (Status × Nat)) (s : State) : State :=
  let x := bad.getD (.ok, 0)
  gmeHead t (fun c => { c with phase := .done x.1 x.2 }) s

/-- The reads of an instruction are done: EMPTY of LIN is posted (R115). -/
def gmePostIn (t : TileId) (e : EngCmd) (s : State) : State :=
  match (gmeLinks e).1 with
  | some k => semPost t (emptySem k) 1 s
  | none => s

/-- The end of a run whose reads and writes alternate: EMPTY of LIN is posted once its reads are done (R115), which a run that
failed may have reached. -/
def gmeEnd (t : TileId) (e : EngCmd) (bad : Option RunBad) (s : State) : State :=
  gmeDone t (bad.map (·.at_)) (if bad.all (·.read) then gmePostIn t e s else s)

/-- An instruction that adds to the rows of its destination one by one. -/
def gmeAdds (e : EngCmd) : Bool := e.op == .scatter && e.imm.acc

/-- What is left of an instruction that holds its output link, or uses none: its writes; a prediction command's SCAN, CHECK or
VERDICT; the whole of a SCATTER with ACC. -/
def gmeBody (t : TileId) (env : EngEnv) (e : EngCmd) (s : State) : State :=
  if e.op = .pred then gmeHead t (fun c => { c with phase := .ready }) s
  else if gmeAdds e then
    let r := gmeAccRun t env e s
    gmeEnd t e (r.1.map (fun x => ⟨x, r.2.1⟩))
      (gmeHead t (fun c => { c with held := some ⟨none, [], [], r.2.2.1⟩ }) r.2.2.2)
  else
    match e.held with
    | some h =>
      let r := gmeFinish t env e h s
      gmeDone t r.1 r.2
    | none => s

/-- The output link's acquire, then what is left of the instruction (R115). -/
def gmeOut (t : TileId) (env : EngEnv) (e : EngCmd) (s : State) : State :=
  match (gmeLinks e).2 with
  | some k =>
    let r := acquire t (emptySem k) .gme 1 s
    if r.1 then gmeBody t env e r.2 else gmeHead t (fun c => { c with phase := .waitOut }) r.2
  | none => gmeBody t env e s

/-- What an instruction has read comes to (R214 to R221, R263). -/
def gmeReads (t : TileId) (env : EngEnv) (e : EngCmd) (s : State) : Except (Status × Nat) EngHeld × State :=
  match e.op with
  | .topk | .bucket | .cut | .place | .join => rankForm t env e s
  | _ => gmeForm t env e s

/-- From a held input link on: an instruction reads its inputs and posts EMPTY of LIN, and then turns to its output (R115). -/
def gmeFromIn (t : TileId) (env : EngEnv) (e : EngCmd) (s : State) : State :=
  if e.op = .pred ∨ gmeAdds e = true then gmeOut t env e s
  else
    match gmeReads t env e s with
    | (.error x, s) => gmeDone t (some x) s
    | (.ok h, s) =>
      let e := { e with held := some h }
      gmeOut t env e (gmeHead t (fun _ => e) (gmePostIn t e s))

/-- The GME takes an instruction: a prediction command is copied from its line (R240), then the check (R213, R241, R263). -/
def gmeTake (t : TileId) (e : EngCmd) (s : State) : Option (Status × Nat) × EngCmd × State :=
  match e.op with
  | .pred =>
    if spadBytes < 64 * e.s0.toNat + 64 then (some (.aborted, 0), e, s)
    else
      let m := pdRead t (64 * e.s0.toNat) 64 s
      match m.1 with
      | .error x => (some x, e, m.2)
      | .ok l =>
        let d := BitVec.ofNat 512 (leNat l)
        let e := { e with da := d }
        let s := gmeHead t (fun _ => e) (rset (R.PRED_STATUS t.toNat) F.PRED_STATUS_OP (pdOp d) m.2)
        (if pdRefused d then some (.aborted, 0) else none, e, s)
  | .topk | .bucket | .cut | .place | .join => (if rankRefused e then some (.aborted, 0) else none, e, s)
  | _ => (if gmeRefused e then some (.aborted, 0) else none, e, s)

/-- GME_EXECUTE: the GME takes the oldest queued instruction or prediction command as far as its links let it, and runs an
instruction's body. -/
def execGmeExecute (t : TileId) (env : EngEnv) (s : State) : Host.Outcome State Fault Refusal :=
  .next (match (s.tile t).gme with
    | [] => s
    | e :: _ =>
      match e.phase with
      | .queued =>
        match gmeTake t e s with
        | (some x, _, s) => gmeDone t (some x) s
        | (none, e, s) =>
          match (gmeLinks e).1 with
          | some k =>
            let r := acquire t (fullSem k) .gme 1 s
            if r.1 then gmeFromIn t env e r.2 else gmeHead t (fun c => { c with phase := .waitIn }) r.2
          | none => gmeFromIn t env e s
      | .haveIn => gmeFromIn t env e s
      | .ready => gmeBody t env e s
      | _ => s)

/-- The body of the prediction command at the head of the queue, when its OP is `op`. -/
def predBody (t : TileId) (op : Nat) (run : EngCmd → State → Option RunBad × State) (s : State) :
    Host.Outcome State Fault Refusal :=
  .next (match (s.tile t).gme with
    | [] => s
    | e :: _ =>
      if e.op = .pred ∧ e.phase = .ready ∧ pdOp e.da = op then
        let r := run e s
        gmeEnd t e r.1 r.2
      else s)

/-- SCAN. -/
def execScan (t : TileId) (s : State) : Host.Outcome State Fault Refusal :=
  predBody t 0 (fun e s => scanRun t e.da s) s

/-- CHECK. -/
def execCheck (t : TileId) (env : EngEnv) (s : State) : Host.Outcome State Fault Refusal :=
  predBody t 1 (fun e s => checkRun t env e.da s) s

/-- VERDICT. -/
def execVerdict (t : TileId) (env : EngEnv) (s : State) : Host.Outcome State Fault Refusal :=
  predBody t 2 (fun e s => verdictRun t env e.da s) s

/-- A register field whose value the spec leaves undefined: a free value (log entry 3). -/
def freeField (o : Nat) (f : Fld) (s : State) : State :=
  let x := freeWord s
  rset o f x.1.toNat x.2

/-- The result of a prediction command that is undefined (Table 4-18): a SCAN's lists and count, a CHECK's misses, counts and
tally, a VERDICT's tally and verdict. -/
def predUndefine (t : TileId) (d : DWord) (s : State) : State :=
  match pdOp d with
  | 0 => freeField (R.PRED_LISTED t.toNat) F.PRED_LISTED_COUNT (pdUndefine t d s)
  | 1 =>
    freeField (R.PRED_AUDIT t.toNat) F.PRED_AUDIT_COUNT (freeField (R.PRED_MISS t.toNat) F.PRED_MISS_COUNT
      (missUndefine t d (undefineVas t (.unit []) ((List.range 16).map (pdTally d + ·)) s)))
  | _ =>
    freeField (R.PRED_TALLY_A t.toNat) F.PRED_TALLY_A_AUDITED (freeField (R.PRED_TALLY_M t.toNat) F.PRED_TALLY_M_MISSED
      (freeField (R.PRED_VERDICT t.toNat) F.PRED_VERDICT_DENSE (freeField (R.PRED_DENSE t.toNat) F.PRED_DENSE_COUNT s)))

/-- The result of a GME instruction that is undefined (Table 4-18). -/
def gmeUndefine (t : TileId) (e : EngCmd) (s : State) : State :=
  match e.op with
  | .pred => predUndefine t e.da s
  | _ => undefineVas t (.unit []) (e.held.elim [] (·.dest)) s

/-- GME_INSTRUCTION_COMPLETE: the writes are visible and FULL of LOUT is posted, or the status is reported with SOURCE 2
(R115, R116, R237). -/
def execGmeInstructionComplete (t : TileId) (s : State) : Host.Outcome State Fault Refusal :=
  .next (match (s.tile t).gme with
    | [] => s
    | e :: es =>
      match e.phase with
      | .done st va =>
        let s := progress t (s.modTile t (fun c => { c with gme := es }))
        let s := if e.undef && st == .ok then gmeUndefine t e s else s
        let o := R.PRED_STATUS t.toNat
        let s := if e.op = .pred then rset o F.PRED_STATUS_STATUS st.code (rset o F.PRED_STATUS_BUSY 0 s) else s
        if st = .ok then
          (match (gmeLinks e).2 with
          | some k => semPost t (fullSem k) 1 s
          | none => s)
        else pushFault t ⟨2, st, e.pc, va⟩ s
      | _ => s)

end Sys2Proof.Machine
end

