-- ==== Sys2Proof/Machine/Reserved.lean ====
section
/-! DEFINITION. Words that spell no instruction, at an X-core's and at an F-core's PC (R106, R155). -/

namespace Sys2Proof.Machine

/-- RESERVED_ENCODING: the words at the PC are a reserved encoding: a precise fault with status ABORTED and `XC_FAULT.ILLEGAL`.
Words that spell an instruction take no fault: that instruction's own command runs it. -/
def execReservedEncoding (t : TileId) (w0 w1 : BitVec 32) (s : State) : Host.Outcome State Fault Refusal :=
  .next (if (xDecode t 0 w0 w1).isSome then s
    else if xReady s t then
      if xAtBreak s t then xHalt t s
      else
        match xFetch t (if w0.getLsbD 0 then 8 else 4) s with
        | (some (va, st), s1) => preciseFault t st va s1
        | (none, s1) => enterFault t 0 .aborted (xPc s1 t) 0 true true s1
    else s)

/-- FC_RESERVED_ENCODING: FAULTED with `FC_FAULT.ILLEGAL` and status ABORTED, reported as SOURCE 3. -/
def execFcReservedEncoding (t : TileId) (w : BitVec 32) (s : State) : Host.Outcome State Fault Refusal :=
  if (fDecode t w).isSome then .next s else fRun t (fun s => .pend (fFault t .aborted 0 true s)) s

end Sys2Proof.Machine
end

