-- ==== Sys2Proof/Machine/Vector.lean ====
section
/-! DEFINITION. The vector and predicate instructions (Tables 4-6, 4-7 and 4-8, R110 to R113, R510). -/

namespace Sys2Proof.Machine

/-! ### VOP (Table 4-6) -/

/-- Lane i of Vd ← f(Vd, Va, Vb) in active lanes. -/
def vOp3 (t : TileId) (pg : PReg) (vd va vb : VReg) (f : Nat → Nat → Nat → Nat) (s : State) :
    Host.Outcome State Fault Refusal :=
  xRun t (fun s =>
    let d := rdV s t vd
    let a := rdV s t va
    let b := rdV s t vb
    .retire (wrV t vd (lanesOf d (activeLanes s t pg) (fun i => f (lane d i) (lane a i) (lane b i))) s)) s

/-- Lane i of Vd ← f(Va) in active lanes. -/
def vOp2 (t : TileId) (pg : PReg) (vd va : VReg) (f : Nat → Nat) (s : State) : Host.Outcome State Fault Refusal :=
  xRun t (fun s =>
    let a := rdV s t va
    .retire (wrV t vd (lanesOf (rdV s t vd) (activeLanes s t pg) (fun i => f (lane a i))) s)) s

def execVfadd (t : TileId) (pg : PReg) (vd va vb : VReg) (s : State) := vOp3 t pg vd va vb (fun _ a b => f32Add a b) s
def execVfsub (t : TileId) (pg : PReg) (vd va vb : VReg) (s : State) := vOp3 t pg vd va vb (fun _ a b => f32Sub a b) s
def execVfmul (t : TileId) (pg : PReg) (vd va vb : VReg) (s : State) := vOp3 t pg vd va vb (fun _ a b => f32Mul a b) s
def execVfma (t : TileId) (pg : PReg) (vd va vb : VReg) (s : State) := vOp3 t pg vd va vb f32Fma s
def execVfmin (t : TileId) (pg : PReg) (vd va vb : VReg) (s : State) := vOp3 t pg vd va vb (fun _ a b => f32Min a b) s
def execVfmax (t : TileId) (pg : PReg) (vd va vb : VReg) (s : State) := vOp3 t pg vd va vb (fun _ a b => f32Max a b) s
def execVfabs (t : TileId) (pg : PReg) (vd va : VReg) (s : State) := vOp2 t pg vd va f32Abs s
def execVfneg (t : TileId) (pg : PReg) (vd va : VReg) (s : State) := vOp2 t pg vd va f32NegOp s
def execVfrcp (t : TileId) (pg : PReg) (vd va : VReg) (s : State) := vOp2 t pg vd va f32Rcp s
def execVfrsq (t : TileId) (pg : PReg) (vd va : VReg) (s : State) := vOp2 t pg vd va f32Rsq s
def execVfexp2 (t : TileId) (pg : PReg) (vd va : VReg) (s : State) := vOp2 t pg vd va f32Exp2 s
def execVflog2 (t : TileId) (pg : PReg) (vd va : VReg) (s : State) := vOp2 t pg vd va f32Log2 s

/-- A 32-bit integer operation on lanes. -/
def vInt (f : W32 → W32 → W32) (_ a b : Nat) : Nat := (f (BitVec.ofNat 32 a) (BitVec.ofNat 32 b)).toNat

def execVadd (t : TileId) (pg : PReg) (vd va vb : VReg) (s : State) := vOp3 t pg vd va vb (vInt (· + ·)) s
def execVsub (t : TileId) (pg : PReg) (vd va vb : VReg) (s : State) := vOp3 t pg vd va vb (vInt (· - ·)) s
def execVmul (t : TileId) (pg : PReg) (vd va vb : VReg) (s : State) := vOp3 t pg vd va vb (vInt (· * ·)) s
def execVand (t : TileId) (pg : PReg) (vd va vb : VReg) (s : State) := vOp3 t pg vd va vb (vInt (· &&& ·)) s
def execVor (t : TileId) (pg : PReg) (vd va vb : VReg) (s : State) := vOp3 t pg vd va vb (vInt (· ||| ·)) s
def execVxor (t : TileId) (pg : PReg) (vd va vb : VReg) (s : State) := vOp3 t pg vd va vb (vInt (· ^^^ ·)) s
def execVsll (t : TileId) (pg : PReg) (vd va vb : VReg) (s : State) :=
  vOp3 t pg vd va vb (vInt (fun a b => a <<< (b.toNat % 32))) s
def execVsrl (t : TileId) (pg : PReg) (vd va vb : VReg) (s : State) :=
  vOp3 t pg vd va vb (vInt (fun a b => a >>> (b.toNat % 32))) s
def execVsra (t : TileId) (pg : PReg) (vd va vb : VReg) (s : State) :=
  vOp3 t pg vd va vb (vInt (fun a b => a.sshiftRight (b.toNat % 32))) s
def execVmin (t : TileId) (pg : PReg) (vd va vb : VReg) (s : State) :=
  vOp3 t pg vd va vb (vInt (fun a b => if a.slt b then a else b)) s
def execVmax (t : TileId) (pg : PReg) (vd va vb : VReg) (s : State) :=
  vOp3 t pg vd va vb (vInt (fun a b => if a.slt b then b else a)) s
def execVminu (t : TileId) (pg : PReg) (vd va vb : VReg) (s : State) :=
  vOp3 t pg vd va vb (vInt (fun a b => if a.ult b then a else b)) s
def execVmaxu (t : TileId) (pg : PReg) (vd va vb : VReg) (s : State) :=
  vOp3 t pg vd va vb (vInt (fun a b => if a.ult b then b else a)) s

def execVmov (t : TileId) (pg : PReg) (vd va : VReg) (s : State) := vOp2 t pg vd va id s

/-- VBCAST: active lanes ← S[RS1][31:0]. -/
def execVbcast (t : TileId) (pg : PReg) (vd : VReg) (rs : SReg) (s : State) : Host.Outcome State Fault Refusal :=
  xRun t (fun s => .retire
    (wrV t vd (lanesOf (rdV s t vd) (activeLanes s t pg) (fun _ => (rdS s t rs).toNat % 2 ^ 32)) s)) s

/-- VEXT: S[RD] ← lane S[RS2][5:0] of Va; PG does not govern it (R510). -/
def execVext (t : TileId) (_pg : PReg) (rd : SReg) (va : VReg) (rs : SReg) (s : State) : Host.Outcome State Fault Refusal :=
  xRun t (fun s => xSetS t rd (BitVec.ofNat 64 (lane (rdV s t va) ((rdS s t rs).toNat % 64))) s) s

/-- VINS: lane S[RS2][5:0] of Vd ← S[RS1][31:0] when that lane is active (R510). -/
def execVins (t : TileId) (pg : PReg) (vd : VReg) (rs1 rs2 : SReg) (s : State) : Host.Outcome State Fault Refusal :=
  xRun t (fun s =>
    let i := (rdS s t rs2).toNat % 64
    let m := activeLanes s t pg &&& BitVec.ofNat 64 (2 ^ i)
    .retire (wrV t vd (lanesOf (rdV s t vd) m (fun _ => (rdS s t rs1).toNat % 2 ^ 32)) s)) s

/-- VSHUF: Vd lane i ← Va lane Vb[i][5:0]. -/
def execVshuf (t : TileId) (pg : PReg) (vd va vb : VReg) (s : State) : Host.Outcome State Fault Refusal :=
  xRun t (fun s =>
    let a := rdV s t va
    let b := rdV s t vb
    .retire (wrV t vd (lanesOf (rdV s t vd) (activeLanes s t pg) (fun i => lane a (lane b i % 64))) s)) s

/-- VIOTA: Vd lane i ← i. -/
def execViota (t : TileId) (pg : PReg) (vd : VReg) (s : State) : Host.Outcome State Fault Refusal :=
  xRun t (fun s => .retire (wrV t vd (lanesOf (rdV s t vd) (activeLanes s t pg) id) s)) s

/-- VSEL: Vd lane i ← Va if lane i is active, else Vb; every lane is written (R510). -/
def execVsel (t : TileId) (pg : PReg) (vd va vb : VReg) (s : State) : Host.Outcome State Fault Refusal :=
  xRun t (fun s =>
    let m := activeLanes s t pg
    .retire (wrV t vd (lanesOf (rdV s t vb) m (fun i => lane (rdV s t va) i)) s)) s

/-! ### REDUCE (R112) -/

/-- The fixed pairwise tree over 64 lanes: six levels. -/
def treeReduce (f : Nat → Nat → Nat) (l : List Nat) : Nat :=
  (pairUp f (pairUp f (pairUp f (pairUp f (pairUp f (pairUp f l)))))).headD 0

/-- A reduction of Va to S[RD]; inactive lanes enter as `z`. -/
def vReduce (t : TileId) (pg : PReg) (rd : SReg) (va : VReg) (z : Nat) (f : Nat → Nat → Nat) (s : State) :
    Host.Outcome State Fault Refusal :=
  xRun t (fun s =>
    let m := activeLanes s t pg
    let a := rdV s t va
    xSetS t rd (BitVec.ofNat 64 (treeReduce f ((List.range 64).map (fun i => if m.getLsbD i then lane a i else z)))) s) s

def execVrsum (t : TileId) (pg : PReg) (rd : SReg) (va : VReg) (s : State) := vReduce t pg rd va 0 f32Add s
def execVrmax (t : TileId) (pg : PReg) (rd : SReg) (va : VReg) (s : State) := vReduce t pg rd va (f32Inf true) f32Max s
def execVrmin (t : TileId) (pg : PReg) (rd : SReg) (va : VReg) (s : State) := vReduce t pg rd va (f32Inf false) f32Min s
def execVradd (t : TileId) (pg : PReg) (rd : SReg) (va : VReg) (s : State) :=
  vReduce t pg rd va 0 (fun a b => (a + b) % 2 ^ 32) s

/-! ### CONVERT (Table 4-6, Table 5-2, R510) -/

def execVcvtF2i (t : TileId) (pg : PReg) (vd va : VReg) (s : State) := vOp2 t pg vd va f32ToInt s
def execVcvtI2f (t : TileId) (pg : PReg) (vd va : VReg) (s : State) := vOp2 t pg vd va intToF32 s
def execVcvtF2bf16 (t : TileId) (pg : PReg) (vd va : VReg) (s : State) := vOp2 t pg vd va f32ToBf16 s
def execVcvtBf162f (t : TileId) (pg : PReg) (vd va : VReg) (s : State) := vOp2 t pg vd va bf16ToF32 s
def execVcvtF2fp16 (t : TileId) (pg : PReg) (vd va : VReg) (s : State) := vOp2 t pg vd va f32ToF16 s
def execVcvtFp162f (t : TileId) (pg : PReg) (vd va : VReg) (s : State) := vOp2 t pg vd va f16ToF32 s
def execVcvtF2e4m3 (t : TileId) (pg : PReg) (vd va : VReg) (s : State) := vOp2 t pg vd va f32ToE4m3 s
def execVcvtE4m32f (t : TileId) (pg : PReg) (vd va : VReg) (s : State) := vOp2 t pg vd va e4m3ToF32 s
def execVcvtF2e5m2 (t : TileId) (pg : PReg) (vd va : VReg) (s : State) := vOp2 t pg vd va f32ToE5m2 s
def execVcvtE5m22f (t : TileId) (pg : PReg) (vd va : VReg) (s : State) := vOp2 t pg vd va e5m2ToF32 s

/-! ### VMEM (Table 4-7, R110, R113) -/

/-- Address of a vector access: S[RS1] + 64 × sext(IMM10), low bits cleared to `al`. -/
def vAddr (s : State) (t : TileId) (rs1 : SReg) (imm : BitVec 10) (al : Nat) : Nat :=
  (rdS s t rs1 + sext64 imm * 64).toNat / al * al

/-- The bytes of an access of `esz`-byte elements that active lanes name. -/
def activeBytes (m : BitVec 64) (esz : Nat) : List Nat := (List.range (64 * esz)).filter (fun k => m.getLsbD (k / esz))

/-- A vector load of `esz` bytes a lane. -/
def vLoad (t : TileId) (pg : PReg) (vd : VReg) (rs1 : SReg) (imm : BitVec 10) (esz : Nat) (s : State) :
    Host.Outcome State Fault Refusal :=
  xRun t (fun s =>
    let m := activeLanes s t pg
    xLoad t (vAddr s t rs1 imm 64) (activeBytes m esz) (.vec vd esz m) s) s

/-- A vector store of `esz` bytes a lane. -/
def vStore (t : TileId) (pg : PReg) (vd : VReg) (rs1 : SReg) (imm : BitVec 10) (esz : Nat) (s : State) :
    Host.Outcome State Fault Refusal :=
  xRun t (fun s =>
    let a := vAddr s t rs1 imm 64
    let v := rdV s t vd
    xStore t ((activeBytes (activeLanes s t pg) esz).map
      (fun k => (a + k, BitVec.ofNat 8 (lane v (k / esz) / 256 ^ (k % esz))))) s) s

def execVld (t : TileId) (pg : PReg) (vd : VReg) (rs1 : SReg) (imm : BitVec 10) (s : State) := vLoad t pg vd rs1 imm 4 s
def execVst (t : TileId) (pg : PReg) (vd : VReg) (rs1 : SReg) (imm : BitVec 10) (s : State) := vStore t pg vd rs1 imm 4 s
def execVldH (t : TileId) (pg : PReg) (vd : VReg) (rs1 : SReg) (imm : BitVec 10) (s : State) := vLoad t pg vd rs1 imm 2 s
def execVstH (t : TileId) (pg : PReg) (vd : VReg) (rs1 : SReg) (imm : BitVec 10) (s : State) := vStore t pg vd rs1 imm 2 s
def execVldB (t : TileId) (pg : PReg) (vd : VReg) (rs1 : SReg) (imm : BitVec 10) (s : State) := vLoad t pg vd rs1 imm 1 s
def execVstB (t : TileId) (pg : PReg) (vd : VReg) (rs1 : SReg) (imm : BitVec 10) (s : State) := vStore t pg vd rs1 imm 1 s

/-- VLD.BC: all active lanes ← 4 bytes; with no lane active nothing is read (R110). -/
def execVldBc (t : TileId) (pg : PReg) (vd : VReg) (rs1 : SReg) (imm : BitVec 10) (s : State) :
    Host.Outcome State Fault Refusal :=
  xRun t (fun s =>
    let m := activeLanes s t pg
    if m = 0 then .retire s else xLoad t (vAddr s t rs1 imm 4) (List.range 4) (.bcast vd m) s) s

/-! ### PRED (Table 4-8) -/

/-- The lanes where a test holds. -/
def predOf (f : Nat → Bool) : BitVec 64 :=
  BitVec.ofNat 64 ((List.range 64).foldl (fun a i => a + b2n (f i) <<< i) 0)

/-- A lane compare: an inactive lane gets 0 (R110). -/
def vCmp (t : TileId) (pg : PReg) (pd : PReg) (va vb : VReg) (f : Nat → Nat → Bool) (s : State) :
    Host.Outcome State Fault Refusal :=
  xRun t (fun s =>
    let a := rdV s t va
    let b := rdV s t vb
    .retire (wrP t pd (predOf (fun i => f (lane a i) (lane b i)) &&& activeLanes s t pg) s)) s

/-- A predicate operation: an inactive lane gets 0 (R110). -/
def pOp (t : TileId) (pg : PReg) (pd : PReg) (f : State → BitVec 64) (s : State) : Host.Outcome State Fault Refusal :=
  xRun t (fun s => .retire (wrP t pd (f s &&& activeLanes s t pg) s)) s

def execVfeq (t : TileId) (pg pd : PReg) (va vb : VReg) (s : State) := vCmp t pg pd va vb f32Eq s
def execVflt (t : TileId) (pg pd : PReg) (va vb : VReg) (s : State) := vCmp t pg pd va vb f32Lt s
def execVfle (t : TileId) (pg pd : PReg) (va vb : VReg) (s : State) := vCmp t pg pd va vb f32Le s
def execVieq (t : TileId) (pg pd : PReg) (va vb : VReg) (s : State) := vCmp t pg pd va vb (fun a b => a == b) s
def execVilt (t : TileId) (pg pd : PReg) (va vb : VReg) (s : State) :=
  vCmp t pg pd va vb (fun a b => decide (sx a 32 < sx b 32)) s
def execVile (t : TileId) (pg pd : PReg) (va vb : VReg) (s : State) :=
  vCmp t pg pd va vb (fun a b => decide (sx a 32 ≤ sx b 32)) s
def execViltu (t : TileId) (pg pd : PReg) (va vb : VReg) (s : State) := vCmp t pg pd va vb (fun a b => decide (a < b)) s
def execPand (t : TileId) (pg pd pa pb : PReg) (s : State) := pOp t pg pd (fun s => rdP s t pa &&& rdP s t pb) s
def execPor (t : TileId) (pg pd pa pb : PReg) (s : State) := pOp t pg pd (fun s => rdP s t pa ||| rdP s t pb) s
def execPxor (t : TileId) (pg pd pa pb : PReg) (s : State) := pOp t pg pd (fun s => rdP s t pa ^^^ rdP s t pb) s
def execPnot (t : TileId) (pg pd pa : PReg) (s : State) := pOp t pg pd (fun s => ~~~ rdP s t pa) s
def execPfirst (t : TileId) (pg pd : PReg) (rs : SReg) (s : State) :=
  pOp t pg pd (fun s => predOf (fun i => decide (i < (rdS s t rs).toNat))) s

/-- PCNT: the set bits of P[RS1] in active lanes (R510). -/
def execPcnt (t : TileId) (pg : PReg) (rd : SReg) (pa : PReg) (s : State) : Host.Outcome State Fault Refusal :=
  xRun t (fun s => xSetS t rd (BitVec.ofNat 64 (popcount (rdP s t pa &&& activeLanes s t pg).toNat 64)) s) s

end Sys2Proof.Machine
end

