-- ==== Sys2Proof/Machine/Dispatch.lean ====
section
/-! DEFINITION. One arm per command: a direct call of its meaning, or a refusal by name. -/

namespace Sys2Proof.Machine

def exec (i : Instr) (s : State) : Host.Outcome State Fault Refusal :=
  match i with
  | .registerWrite off bytes v => Sys2Proof.Machine.execRegisterWrite off bytes v s
  | .rcCounterRead off bytes => Sys2Proof.Machine.execRcCounterRead off bytes s
  | .bar2Access off acc => Sys2Proof.Machine.execBar2Access off acc s
  | .hostwinWrite v => Sys2Proof.Machine.execHostwinWrite v s
  | .queueEnable q cfg => Sys2Proof.Machine.execQueueEnable q cfg s
  | .queueDisable q cfg => Sys2Proof.Machine.execQueueDisable q cfg s
  | .queueResume q cfg => Sys2Proof.Machine.execQueueResume q cfg s
  | .sqDoorbell q tail => Sys2Proof.Machine.execSqDoorbell q tail s
  | .cqDoorbell q head => Sys2Proof.Machine.execCqDoorbell q head s
  | .commandFetch q => Sys2Proof.Machine.execCommandFetch q s
  | .refusedCommandStop q => Sys2Proof.Machine.execRefusedCommandStop q s
  | .queueDrainDone q => Sys2Proof.Machine.execQueueDrainDone q s
  | .commandDispatch q seq raced => Sys2Proof.Machine.execCommandDispatch q seq raced s
  | .cmdNop q seq => Sys2Proof.Machine.execCmdNop q seq s
  | .launch q seq => Sys2Proof.Machine.execLaunch q seq s
  | .launchComplete q seq energy kcc dests => Sys2Proof.Machine.execLaunchComplete q seq energy kcc dests s
  | .commandComplete q seq energy kcc => Sys2Proof.Machine.execCommandComplete q seq energy kcc s
  | .copy q seq host => Sys2Proof.Machine.execCopy q seq host s
  | .eventSignal q seq => Sys2Proof.Machine.execEventSignal q seq s
  | .eventWait q seq => Sys2Proof.Machine.execEventWait q seq s
  | .eventWaitSatisfied q seq => Sys2Proof.Machine.execEventWaitSatisfied q seq s
  | .stepBegin q seq => Sys2Proof.Machine.execStepBegin q seq s
  | .firnRecordDurable q seq => Sys2Proof.Machine.execFirnRecordDurable q seq s
  | .stepEnd q seq => Sys2Proof.Machine.execStepEnd q seq s
  | .chain q seq => Sys2Proof.Machine.execChain q seq s
  | .heartbeat => Sys2Proof.Machine.execHeartbeat s
  | .takeover gap unacked recs => Sys2Proof.Machine.execTakeover gap unacked recs s
  | .semWrite t n v => Sys2Proof.Machine.execSemWrite t n v s
  | .semaphorePost id => Sys2Proof.Machine.execSemaphorePost id s
  | .acquireGrant t n => Sys2Proof.Machine.execAcquireGrant t n s
  | .heldPostRelease t => Sys2Proof.Machine.execHeldPostRelease t s
  | .windowOpen t w => Sys2Proof.Machine.execWindowOpen t w s
  | .windowClose t w => Sys2Proof.Machine.execWindowClose t w s
  | .windowReopenDone t w => Sys2Proof.Machine.execWindowReopenDone t w s
  | .winRangeWrite t w v => Sys2Proof.Machine.execWinRangeWrite t w v s
  | .swizzleRangeWrite t n v => Sys2Proof.Machine.execSwizzleRangeWrite t n v s
  | .remoteWrite id bad => Sys2Proof.Machine.execRemoteWrite id bad s
  | .remoteRead id => Sys2Proof.Machine.execRemoteRead id s
  | .remoteAtomicAdd id bad => Sys2Proof.Machine.execRemoteAtomicAdd id bad s
  | .meshReply id bad => Sys2Proof.Machine.execMeshReply id bad s
  | .xlatInval d => Sys2Proof.Machine.execXlatInval d s
  | .xlatInvalDone d => Sys2Proof.Machine.execXlatInvalDone d s
  | .tileReset t => Sys2Proof.Machine.execTileReset t s
  | .tileResetDone t => Sys2Proof.Machine.execTileResetDone t s
  | .xNop t => Sys2Proof.Machine.execXNop t s
  | .xEnd t => Sys2Proof.Machine.execXEnd t s
  | .xFence t => Sys2Proof.Machine.execXFence t s
  | .xFenceE t => Sys2Proof.Machine.execXFenceE t s
  | .xIflush t => Sys2Proof.Machine.execXIflush t s
  | .xBrk t => Sys2Proof.Machine.execXBrk t s
  | .xAdd t rd rs1 rs2 => Sys2Proof.Machine.execXAdd t rd rs1 rs2 s
  | .xSub t rd rs1 rs2 => Sys2Proof.Machine.execXSub t rd rs1 rs2 s
  | .xAnd t rd rs1 rs2 => Sys2Proof.Machine.execXAnd t rd rs1 rs2 s
  | .xOr t rd rs1 rs2 => Sys2Proof.Machine.execXOr t rd rs1 rs2 s
  | .xXor t rd rs1 rs2 => Sys2Proof.Machine.execXXor t rd rs1 rs2 s
  | .xSll t rd rs1 rs2 => Sys2Proof.Machine.execXSll t rd rs1 rs2 s
  | .xSrl t rd rs1 rs2 => Sys2Proof.Machine.execXSrl t rd rs1 rs2 s
  | .xSra t rd rs1 rs2 => Sys2Proof.Machine.execXSra t rd rs1 rs2 s
  | .xMul t rd rs1 rs2 => Sys2Proof.Machine.execXMul t rd rs1 rs2 s
  | .xMulhu t rd rs1 rs2 => Sys2Proof.Machine.execXMulhu t rd rs1 rs2 s
  | .xSlt t rd rs1 rs2 => Sys2Proof.Machine.execXSlt t rd rs1 rs2 s
  | .xSltu t rd rs1 rs2 => Sys2Proof.Machine.execXSltu t rd rs1 rs2 s
  | .xMin t rd rs1 rs2 => Sys2Proof.Machine.execXMin t rd rs1 rs2 s
  | .xMax t rd rs1 rs2 => Sys2Proof.Machine.execXMax t rd rs1 rs2 s
  | .xMinu t rd rs1 rs2 => Sys2Proof.Machine.execXMinu t rd rs1 rs2 s
  | .xMaxu t rd rs1 rs2 => Sys2Proof.Machine.execXMaxu t rd rs1 rs2 s
  | .xAddi t rd rs1 imm => Sys2Proof.Machine.execXAddi t rd rs1 imm s
  | .xAndi t rd rs1 imm => Sys2Proof.Machine.execXAndi t rd rs1 imm s
  | .xOri t rd rs1 imm => Sys2Proof.Machine.execXOri t rd rs1 imm s
  | .xXori t rd rs1 imm => Sys2Proof.Machine.execXXori t rd rs1 imm s
  | .xSlli t rd rs1 sh => Sys2Proof.Machine.execXSlli t rd rs1 sh s
  | .xSrli t rd rs1 sh => Sys2Proof.Machine.execXSrli t rd rs1 sh s
  | .xSrai t rd rs1 sh => Sys2Proof.Machine.execXSrai t rd rs1 sh s
  | .xSlti t rd rs1 imm => Sys2Proof.Machine.execXSlti t rd rs1 imm s
  | .xSltiu t rd rs1 imm => Sys2Proof.Machine.execXSltiu t rd rs1 imm s
  | .xLb t rd rs1 imm => Sys2Proof.Machine.execXLb t rd rs1 imm s
  | .xLh t rd rs1 imm => Sys2Proof.Machine.execXLh t rd rs1 imm s
  | .xLw t rd rs1 imm => Sys2Proof.Machine.execXLw t rd rs1 imm s
  | .xLd t rd rs1 imm => Sys2Proof.Machine.execXLd t rd rs1 imm s
  | .xLbu t rd rs1 imm => Sys2Proof.Machine.execXLbu t rd rs1 imm s
  | .xLhu t rd rs1 imm => Sys2Proof.Machine.execXLhu t rd rs1 imm s
  | .xLwu t rd rs1 imm => Sys2Proof.Machine.execXLwu t rd rs1 imm s
  | .xSb t rs1 rs2 imm => Sys2Proof.Machine.execXSb t rs1 rs2 imm s
  | .xSh t rs1 rs2 imm => Sys2Proof.Machine.execXSh t rs1 rs2 imm s
  | .xSw t rs1 rs2 imm => Sys2Proof.Machine.execXSw t rs1 rs2 imm s
  | .xSd t rs1 rs2 imm => Sys2Proof.Machine.execXSd t rs1 rs2 imm s
  | .xBeq t rs1 rs2 off => Sys2Proof.Machine.execXBeq t rs1 rs2 off s
  | .xBne t rs1 rs2 off => Sys2Proof.Machine.execXBne t rs1 rs2 off s
  | .xBlt t rs1 rs2 off => Sys2Proof.Machine.execXBlt t rs1 rs2 off s
  | .xBge t rs1 rs2 off => Sys2Proof.Machine.execXBge t rs1 rs2 off s
  | .xBltu t rs1 rs2 off => Sys2Proof.Machine.execXBltu t rs1 rs2 off s
  | .xBgeu t rs1 rs2 off => Sys2Proof.Machine.execXBgeu t rs1 rs2 off s
  | .xBpany t p off => Sys2Proof.Machine.execXBpany t p off s
  | .xBpnone t p off => Sys2Proof.Machine.execXBpnone t p off s
  | .xJal t rd off => Sys2Proof.Machine.execXJal t rd off s
  | .xJalr t rd rs1 imm => Sys2Proof.Machine.execXJalr t rd rs1 imm s
  | .xCsrrW t rd rs1 imm => Sys2Proof.Machine.execXCsrrW t rd rs1 imm s
  | .xCsrwW t rd rs1 imm => Sys2Proof.Machine.execXCsrwW t rd rs1 imm s
  | .xCsrrD t rd rs1 imm => Sys2Proof.Machine.execXCsrrD t rd rs1 imm s
  | .xCsrwD t rd rs1 imm => Sys2Proof.Machine.execXCsrwD t rd rs1 imm s
  | .xAaddW t rs1 rs2 => Sys2Proof.Machine.execXAaddW t rs1 rs2 s
  | .xAaddD t rs1 rs2 => Sys2Proof.Machine.execXAaddD t rs1 rs2 s
  | .xAaddrW t rd rs1 rs2 => Sys2Proof.Machine.execXAaddrW t rd rs1 rs2 s
  | .xAaddrD t rd rs1 rs2 => Sys2Proof.Machine.execXAaddrD t rd rs1 rs2 s
  | .vfadd t pg vd va vb => Sys2Proof.Machine.execVfadd t pg vd va vb s
  | .vfsub t pg vd va vb => Sys2Proof.Machine.execVfsub t pg vd va vb s
  | .vfmul t pg vd va vb => Sys2Proof.Machine.execVfmul t pg vd va vb s
  | .vfma t pg vd va vb => Sys2Proof.Machine.execVfma t pg vd va vb s
  | .vfmin t pg vd va vb => Sys2Proof.Machine.execVfmin t pg vd va vb s
  | .vfmax t pg vd va vb => Sys2Proof.Machine.execVfmax t pg vd va vb s
  | .vfabs t pg vd va => Sys2Proof.Machine.execVfabs t pg vd va s
  | .vfneg t pg vd va => Sys2Proof.Machine.execVfneg t pg vd va s
  | .vfrcp t pg vd va => Sys2Proof.Machine.execVfrcp t pg vd va s
  | .vfrsq t pg vd va => Sys2Proof.Machine.execVfrsq t pg vd va s
  | .vfexp2 t pg vd va => Sys2Proof.Machine.execVfexp2 t pg vd va s
  | .vflog2 t pg vd va => Sys2Proof.Machine.execVflog2 t pg vd va s
  | .vadd t pg vd va vb => Sys2Proof.Machine.execVadd t pg vd va vb s
  | .vsub t pg vd va vb => Sys2Proof.Machine.execVsub t pg vd va vb s
  | .vmul t pg vd va vb => Sys2Proof.Machine.execVmul t pg vd va vb s
  | .vand t pg vd va vb => Sys2Proof.Machine.execVand t pg vd va vb s
  | .vor t pg vd va vb => Sys2Proof.Machine.execVor t pg vd va vb s
  | .vxor t pg vd va vb => Sys2Proof.Machine.execVxor t pg vd va vb s
  | .vsll t pg vd va vb => Sys2Proof.Machine.execVsll t pg vd va vb s
  | .vsrl t pg vd va vb => Sys2Proof.Machine.execVsrl t pg vd va vb s
  | .vsra t pg vd va vb => Sys2Proof.Machine.execVsra t pg vd va vb s
  | .vmin t pg vd va vb => Sys2Proof.Machine.execVmin t pg vd va vb s
  | .vmax t pg vd va vb => Sys2Proof.Machine.execVmax t pg vd va vb s
  | .vminu t pg vd va vb => Sys2Proof.Machine.execVminu t pg vd va vb s
  | .vmaxu t pg vd va vb => Sys2Proof.Machine.execVmaxu t pg vd va vb s
  | .vmov t pg vd va => Sys2Proof.Machine.execVmov t pg vd va s
  | .vbcast t pg vd rs => Sys2Proof.Machine.execVbcast t pg vd rs s
  | .vext t pg rd va rs => Sys2Proof.Machine.execVext t pg rd va rs s
  | .vins t pg vd rs1 rs2 => Sys2Proof.Machine.execVins t pg vd rs1 rs2 s
  | .vshuf t pg vd va vb => Sys2Proof.Machine.execVshuf t pg vd va vb s
  | .viota t pg vd => Sys2Proof.Machine.execViota t pg vd s
  | .vsel t pg vd va vb => Sys2Proof.Machine.execVsel t pg vd va vb s
  | .vrsum t pg rd va => Sys2Proof.Machine.execVrsum t pg rd va s
  | .vrmax t pg rd va => Sys2Proof.Machine.execVrmax t pg rd va s
  | .vrmin t pg rd va => Sys2Proof.Machine.execVrmin t pg rd va s
  | .vradd t pg rd va => Sys2Proof.Machine.execVradd t pg rd va s
  | .vcvtF2i t pg vd va => Sys2Proof.Machine.execVcvtF2i t pg vd va s
  | .vcvtI2f t pg vd va => Sys2Proof.Machine.execVcvtI2f t pg vd va s
  | .vcvtF2bf16 t pg vd va => Sys2Proof.Machine.execVcvtF2bf16 t pg vd va s
  | .vcvtBf162f t pg vd va => Sys2Proof.Machine.execVcvtBf162f t pg vd va s
  | .vcvtF2fp16 t pg vd va => Sys2Proof.Machine.execVcvtF2fp16 t pg vd va s
  | .vcvtFp162f t pg vd va => Sys2Proof.Machine.execVcvtFp162f t pg vd va s
  | .vcvtF2e4m3 t pg vd va => Sys2Proof.Machine.execVcvtF2e4m3 t pg vd va s
  | .vcvtE4m32f t pg vd va => Sys2Proof.Machine.execVcvtE4m32f t pg vd va s
  | .vcvtF2e5m2 t pg vd va => Sys2Proof.Machine.execVcvtF2e5m2 t pg vd va s
  | .vcvtE5m22f t pg vd va => Sys2Proof.Machine.execVcvtE5m22f t pg vd va s
  | .vld t pg vd rs1 imm => Sys2Proof.Machine.execVld t pg vd rs1 imm s
  | .vst t pg vd rs1 imm => Sys2Proof.Machine.execVst t pg vd rs1 imm s
  | .vldH t pg vd rs1 imm => Sys2Proof.Machine.execVldH t pg vd rs1 imm s
  | .vstH t pg vd rs1 imm => Sys2Proof.Machine.execVstH t pg vd rs1 imm s
  | .vldB t pg vd rs1 imm => Sys2Proof.Machine.execVldB t pg vd rs1 imm s
  | .vstB t pg vd rs1 imm => Sys2Proof.Machine.execVstB t pg vd rs1 imm s
  | .vldBc t pg vd rs1 imm => Sys2Proof.Machine.execVldBc t pg vd rs1 imm s
  | .vfeq t pg pd va vb => Sys2Proof.Machine.execVfeq t pg pd va vb s
  | .vflt t pg pd va vb => Sys2Proof.Machine.execVflt t pg pd va vb s
  | .vfle t pg pd va vb => Sys2Proof.Machine.execVfle t pg pd va vb s
  | .vieq t pg pd va vb => Sys2Proof.Machine.execVieq t pg pd va vb s
  | .vilt t pg pd va vb => Sys2Proof.Machine.execVilt t pg pd va vb s
  | .vile t pg pd va vb => Sys2Proof.Machine.execVile t pg pd va vb s
  | .viltu t pg pd va vb => Sys2Proof.Machine.execViltu t pg pd va vb s
  | .pand t pg pd pa pb => Sys2Proof.Machine.execPand t pg pd pa pb s
  | .por t pg pd pa pb => Sys2Proof.Machine.execPor t pg pd pa pb s
  | .pxor t pg pd pa pb => Sys2Proof.Machine.execPxor t pg pd pa pb s
  | .pnot t pg pd pa => Sys2Proof.Machine.execPnot t pg pd pa s
  | .pfirst t pg pd rs => Sys2Proof.Machine.execPfirst t pg pd rs s
  | .pcnt t pg rd pa => Sys2Proof.Machine.execPcnt t pg rd pa s
  | .xLi t rt imm => Sys2Proof.Machine.execXLi t rt imm s
  | .xLih t rt imm => Sys2Proof.Machine.execXLih t rt imm s
  | .xAddi32 t rt rs imm => Sys2Proof.Machine.execXAddi32 t rt rs imm s
  | .xDld t da rs imm => Sys2Proof.Machine.execXDld t da rs imm s
  | .xDst t da rs imm => Sys2Proof.Machine.execXDst t da rs imm s
  | .xDins t da rt fld => Sys2Proof.Machine.execXDins t da rt fld s
  | .xDext t da rt fld => Sys2Proof.Machine.execXDext t da rt fld s
  | .xDmov t da db => Sys2Proof.Machine.execXDmov t da db s
  | .ceMm t da db dc imm => Sys2Proof.Machine.execCeMm t da db dc imm s
  | .ceGrouped t da rs rt imm => Sys2Proof.Machine.execCeGrouped t da rs rt imm s
  | .ceExecute t env => Sys2Proof.Machine.execCeExecute t env s
  | .ceInstructionComplete t => Sys2Proof.Machine.execCeInstructionComplete t s
  | .groupedResidencyPoll t env => Sys2Proof.Machine.execGroupedResidencyPoll t env s
  | .demandTimeout t => Sys2Proof.Machine.execDemandTimeout t s
  | .gmeGather t da db dc imm => Sys2Proof.Machine.execGmeGather t da db dc imm s
  | .gmeSegred t da db dc imm => Sys2Proof.Machine.execGmeSegred t da db dc imm s
  | .gmeMerge t da db dc imm => Sys2Proof.Machine.execGmeMerge t da db dc imm s
  | .gmeScatter t da db dc imm => Sys2Proof.Machine.execGmeScatter t da db dc imm s
  | .gmeExecute t env => Sys2Proof.Machine.execGmeExecute t env s
  | .gmeInstructionComplete t => Sys2Proof.Machine.execGmeInstructionComplete t s
  | .topk t da db dc imm => Sys2Proof.Machine.execTopk t da db dc imm s
  | .bucket t da db dc imm => Sys2Proof.Machine.execBucket t da db dc imm s
  | .cut t da db dc imm => Sys2Proof.Machine.execCut t da db dc imm s
  | .place t da db dc imm => Sys2Proof.Machine.execPlace t da db dc imm s
  | .join t da db dc imm => Sys2Proof.Machine.execJoin t da db dc imm s
  | .xRpost t rs rt treg tile count n => Sys2Proof.Machine.execXRpost t rs rt treg tile count n s
  | .collSeg t da dc rs grp link linkEn seg => Sys2Proof.Machine.execCollSeg t da dc rs grp link linkEn seg s
  | .collNull t rs grp link linkEn seg => Sys2Proof.Machine.execCollNull t rs grp link linkEn seg s
  | .updPost t da link linkEn => Sys2Proof.Machine.execUpdPost t da link linkEn s
  | .rgnAcq t rs r link => Sys2Proof.Machine.execRgnAcq t rs r link s
  | .rgnRel t rs r => Sys2Proof.Machine.execRgnRel t rs r s
  | .xSacq t rs imm n => Sys2Proof.Machine.execXSacq t rs imm n s
  | .xSpost t rs imm n => Sys2Proof.Machine.execXSpost t rs imm n s
  | .xSset t rs imm n => Sys2Proof.Machine.execXSset t rs imm n s
  | .xSrd t rs n => Sys2Proof.Machine.execXSrd t rs n s
  | .xStry t rs imm n => Sys2Proof.Machine.execXStry t rs imm n s
  | .xWopen t rs w => Sys2Proof.Machine.execXWopen t rs w s
  | .xWclose t w => Sys2Proof.Machine.execXWclose t w s
  | .xWwait t rs imm w => Sys2Proof.Machine.execXWwait t rs imm w s
  | .xWcnt t rs w => Sys2Proof.Machine.execXWcnt t rs w s
  | .xEwaitCe t n => Sys2Proof.Machine.execXEwaitCe t n s
  | .xEwaitGme t n => Sys2Proof.Machine.execXEwaitGme t n s
  | .xEstat t rs => Sys2Proof.Machine.execXEstat t rs s
  | .xLhint t cls => Sys2Proof.Machine.execXLhint t cls s
  | .xScommit t rs imm sl => Sys2Proof.Machine.execXScommit t rs imm sl s
  | .xScancel t rs imm sl => Sys2Proof.Machine.execXScancel t rs imm sl s
  | .xSstat t rs sl => Sys2Proof.Machine.execXSstat t rs sl s
  | .xSwait t rs imm sl => Sys2Proof.Machine.execXSwait t rs imm sl s
  | .waitSatisfied t => Sys2Proof.Machine.execWaitSatisfied t s
  | .impreciseFault t => Sys2Proof.Machine.execImpreciseFault t s
  | .watchdogTimeout t => Sys2Proof.Machine.execWatchdogTimeout t s
  | .xcResume t => Sys2Proof.Machine.execXcResume t s
  | .fNop t => Sys2Proof.Machine.execFNop t s
  | .fEnd t => Sys2Proof.Machine.execFEnd t s
  | .fAdd t gd ga gb => Sys2Proof.Machine.execFAdd t gd ga gb s
  | .fSub t gd ga gb => Sys2Proof.Machine.execFSub t gd ga gb s
  | .fMul t gd ga gb => Sys2Proof.Machine.execFMul t gd ga gb s
  | .fAddi t gd ga imm => Sys2Proof.Machine.execFAddi t gd ga imm s
  | .fSlli t gd ga sh => Sys2Proof.Machine.execFSlli t gd ga sh s
  | .fSrli t gd ga sh => Sys2Proof.Machine.execFSrli t gd ga sh s
  | .fOri t gd ga imm => Sys2Proof.Machine.execFOri t gd ga imm s
  | .fAndi t gd ga imm => Sys2Proof.Machine.execFAndi t gd ga imm s
  | .fLd t gd ga imm => Sys2Proof.Machine.execFLd t gd ga imm s
  | .fSt t ga gb imm => Sys2Proof.Machine.execFSt t ga gb imm s
  | .fBeq t ga gb imm => Sys2Proof.Machine.execFBeq t ga gb imm s
  | .fBne t ga gb imm => Sys2Proof.Machine.execFBne t ga gb imm s
  | .fBlt t ga gb imm => Sys2Proof.Machine.execFBlt t ga gb imm s
  | .fBltu t ga gb imm => Sys2Proof.Machine.execFBltu t ga gb imm s
  | .fSopen t ga sl => Sys2Proof.Machine.execFSopen t ga sl s
  | .fSjoin t sl => Sys2Proof.Machine.execFSjoin t sl s
  | .fSacq t ga cnt n => Sys2Proof.Machine.execFSacq t ga cnt n s
  | .fSpost t ga cnt n => Sys2Proof.Machine.execFSpost t ga cnt n s
  | .fStat t gd sl => Sys2Proof.Machine.execFStat t gd sl s
  | .streamAccept t sl env => Sys2Proof.Machine.execStreamAccept t sl env s
  | .streamTransferIssue t sl => Sys2Proof.Machine.execStreamTransferIssue t sl s
  | .transferReply t id bad => Sys2Proof.Machine.execTransferReply t id bad s
  | .transferTimeout t id => Sys2Proof.Machine.execTransferTimeout t id s
  | .progressTimeout t => Sys2Proof.Machine.execProgressTimeout t s
  | .streamAbortComplete t sl => Sys2Proof.Machine.execStreamAbortComplete t sl s
  | .cancelComplete t sl => Sys2Proof.Machine.execCancelComplete t sl s
  | .scan t => Sys2Proof.Machine.execScan t s
  | .check t env => Sys2Proof.Machine.execCheck t env s
  | .verdict t env => Sys2Proof.Machine.execVerdict t env s
  | .adoptRes e => Sys2Proof.Machine.execAdoptRes e s
  | .adoptRest e => Sys2Proof.Machine.execAdoptRest e s
  | .drop e => Sys2Proof.Machine.execDrop e s
  | .commit => Sys2Proof.Machine.execCommit s
  | .exdCommitComplete => Sys2Proof.Machine.execExdCommitComplete s
  | .retry e => Sys2Proof.Machine.execRetry e s
  | .fetch q seq => Sys2Proof.Machine.execFetch q seq s
  | .evict q seq => Sys2Proof.Machine.execEvict q seq s
  | .pin q seq => Sys2Proof.Machine.execPin q seq s
  | .unpin q seq => Sys2Proof.Machine.execUnpin q seq s
  | .directoryTransferStart => Sys2Proof.Machine.execDirectoryTransferStart s
  | .fetchComplete bad => Sys2Proof.Machine.execFetchComplete bad s
  | .evictionComplete bad => Sys2Proof.Machine.execEvictionComplete bad s
  | .moraineTimeout lines => Sys2Proof.Machine.execMoraineTimeout lines s
  | .regionAcquire t r => Sys2Proof.Machine.execRegionAcquire t r s
  | .regionRelease t r => Sys2Proof.Machine.execRegionRelease t r s
  | .ablationCommandArrival st => Sys2Proof.Machine.execAblationCommandArrival st s
  | .readerWaitTimeout r => Sys2Proof.Machine.execReaderWaitTimeout r s
  | .rgnvWrite r k v => Sys2Proof.Machine.execRgnvWrite r k v s
  | .update q seq => Sys2Proof.Machine.execUpdate q seq s
  | .apply st residue => Sys2Proof.Machine.execApply st residue s
  | .empty st residue => Sys2Proof.Machine.execEmpty st residue s
  | .reimage st residue => Sys2Proof.Machine.execReimage st residue s
  | .ablationCommandComplete st => Sys2Proof.Machine.execAblationCommandComplete st s
  | .ablationCommandTimeout st => Sys2Proof.Machine.execAblationCommandTimeout st s
  | .inboxBuffer st ch => Sys2Proof.Machine.execInboxBuffer st ch s
  | .inboxReset st ch => Sys2Proof.Machine.execInboxReset st ch s
  | .ablMcLoad st => Sys2Proof.Machine.execAblMcLoad st s
  | .ablDrainDone st => Sys2Proof.Machine.execAblDrainDone st s
  | .ablMcLoadDone st => Sys2Proof.Machine.execAblMcLoadDone st s
  | .portEnable p => Sys2Proof.Machine.execPortEnable p s
  | .portDisable p => Sys2Proof.Machine.execPortDisable p s
  | .fabricDisable => Sys2Proof.Machine.execFabricDisable s
  | .portTrained p => Sys2Proof.Machine.execPortTrained p s
  | .portAckTimeout p => Sys2Proof.Machine.execPortAckTimeout p s
  | .portRetrained p => Sys2Proof.Machine.execPortRetrained p s
  | .retrainTimeout p => Sys2Proof.Machine.execRetrainTimeout p s
  | .portDrainDone p => Sys2Proof.Machine.execPortDrainDone p s
  | .linkGroupReceive p g corr unc => Sys2Proof.Machine.execLinkGroupReceive p g corr unc s
  | .write p k bad => Sys2Proof.Machine.execWrite p k bad s
  | .read p k bad => Sys2Proof.Machine.execRead p k bad s
  | .aadd p k bad => Sys2Proof.Machine.execAadd p k bad s
  | .post p k bad => Sys2Proof.Machine.execPost p k bad s
  | .noticeEpoch p k bad => Sys2Proof.Machine.execNoticeEpoch p k bad s
  | .noticeAbort p k bad => Sys2Proof.Machine.execNoticeAbort p k bad s
  | .seg p k bad => Sys2Proof.Machine.execSeg p k bad s
  | .reply p k bad => Sys2Proof.Machine.execReply p k bad s
  | .fabricHoldDrop k => Sys2Proof.Machine.execFabricHoldDrop k s
  | .collective q seq => Sys2Proof.Machine.execCollective q seq s
  | .segmentComplete g seq peers fails memErr env => Sys2Proof.Machine.execSegmentComplete g seq peers fails memErr env s
  | .segmentTimeout g seq => Sys2Proof.Machine.execSegmentTimeout g seq s
  | .groupDescriptorWrite g k v => Sys2Proof.Machine.execGroupDescriptorWrite g k v s
  | .ledgerTick counts moves upsets tj pwrbrk => Sys2Proof.Machine.execLedgerTick counts moves upsets tj pwrbrk s
  | .reconcile measured => Sys2Proof.Machine.execReconcile measured s
  | .avsVdone => Sys2Proof.Machine.execAvsVdone s
  | .avsAttemptTimeout => Sys2Proof.Machine.execAvsAttemptTimeout s
  | .tagClr => Sys2Proof.Machine.execTagClr s
  | .modeRequest m => Sys2Proof.Machine.execModeRequest m s
  | .domainRequest n v => Sys2Proof.Machine.execDomainRequest n v s
  | .domainPowerUpDone n => Sys2Proof.Machine.execDomainPowerUpDone n s
  | .domainPowerUpTimeout n => Sys2Proof.Machine.execDomainPowerUpTimeout n s
  | .domainInitDone n => Sys2Proof.Machine.execDomainInitDone n s
  | .domainInitTimeout n => Sys2Proof.Machine.execDomainInitTimeout n s
  | .domainDrainDone n => Sys2Proof.Machine.execDomainDrainDone n s
  | .drainLimitExpiry n t => Sys2Proof.Machine.execDrainLimitExpiry n t s
  | .rimeEntryDone n levels => Sys2Proof.Machine.execRimeEntryDone n levels s
  | .rimeExitDone n => Sys2Proof.Machine.execRimeExitDone n s
  | .domainPowerDownDone n => Sys2Proof.Machine.execDomainPowerDownDone n s
  | .wakeEvent srcs => Sys2Proof.Machine.execWakeEvent srcs s
  | .frostSample readings levels => Sys2Proof.Machine.execFrostSample readings levels s
  | .thermalTrip tj => Sys2Proof.Machine.execThermalTrip tj s
  | .railFault => Sys2Proof.Machine.execRailFault s
  | .powerOn feed slot bist => Sys2Proof.Machine.execPowerOn feed slot bist s
  | .coldReset bist => Sys2Proof.Machine.execColdReset bist s
  | .warmReset => Sys2Proof.Machine.execWarmReset s
  | .perstAssert => Sys2Proof.Machine.execPerstAssert s
  | .perstDeassert bist => Sys2Proof.Machine.execPerstDeassert bist s
  | .functionLevelReset => Sys2Proof.Machine.execFunctionLevelReset s
  | .retryResend id => Sys2Proof.Machine.execRetryResend id s
  | .meshTransactionTimeout id => Sys2Proof.Machine.execMeshTransactionTimeout id s
  | .hotSwapDisconnect why => Sys2Proof.Machine.execHotSwapDisconnect why s
  | .hotSwapReconnect feed slot bist => Sys2Proof.Machine.execHotSwapReconnect feed slot bist s
  | .refclkLost => Sys2Proof.Machine.execRefclkLost s
  | .firnCommitWrite step => Sys2Proof.Machine.execFirnCommitWrite step s
  | .pair => Sys2Proof.Machine.execPair s
  | .unpair => Sys2Proof.Machine.execUnpair s
  | .mirrorHeaderPoll st h => Sys2Proof.Machine.execMirrorHeaderPoll st h s
  | .pairingTimeout => Sys2Proof.Machine.execPairingTimeout s
  | .calve dev => Sys2Proof.Machine.execCalve dev s
  | .calveComplete => Sys2Proof.Machine.execCalveComplete s
  | .fill dev source snap => Sys2Proof.Machine.execFill dev source snap s
  | .fillReadReply id => Sys2Proof.Machine.execFillReadReply id s
  | .fillDone => Sys2Proof.Machine.execFillDone s
  | .done => Sys2Proof.Machine.execDone s
  | .clear => Sys2Proof.Machine.execClear s
  | .unfence dev => Sys2Proof.Machine.execUnfence dev s
  | .commitSvn => Sys2Proof.Machine.execCommitSvn s
  | .getVersion pcie => Sys2Proof.Machine.execGetVersion pcie s
  | .getCapabilities pcie => Sys2Proof.Machine.execGetCapabilities pcie s
  | .negotiateAlgorithms pcie ed25519 sha512 => Sys2Proof.Machine.execNegotiateAlgorithms pcie ed25519 sha512 s
  | .getDigests pcie => Sys2Proof.Machine.execGetDigests pcie s
  | .getCertificate pcie slot off len => Sys2Proof.Machine.execGetCertificate pcie slot off len s
  | .challenge pcie slot nonce => Sys2Proof.Machine.execChallenge pcie slot nonce s
  | .getMeasurements pcie sign nonce => Sys2Proof.Machine.execGetMeasurements pcie sign nonce s
  | .getTid pcie => Sys2Proof.Machine.execGetTid pcie s
  | .getPldmVersion pcie ty => Sys2Proof.Machine.execGetPldmVersion pcie ty s
  | .getPldmTypes pcie => Sys2Proof.Machine.execGetPldmTypes pcie s
  | .getPldmCommands pcie ty => Sys2Proof.Machine.execGetPldmCommands pcie ty s
  | .getPdr pcie handle => Sys2Proof.Machine.execGetPdr pcie handle s
  | .getSensorReading pcie id => Sys2Proof.Machine.execGetSensorReading pcie id s
  | .getStateSensorReadings pcie id => Sys2Proof.Machine.execGetStateSensorReadings pcie id s
  | .setEventReceiver pcie eid => Sys2Proof.Machine.execSetEventReceiver pcie eid s
  | .alertClear pcie st => Sys2Proof.Machine.execAlertClear pcie st s
  | .tripClear pcie st bist => Sys2Proof.Machine.execTripClear pcie st bist s
  | .mode pcie st => Sys2Proof.Machine.execMode pcie st s
  | .reset pcie st bist => Sys2Proof.Machine.execReset pcie st bist s
  | .requestUpdate pcie => Sys2Proof.Machine.execRequestUpdate pcie s
  | .firmwareComponentTransfer pcie comp svn ok ver bytes => Sys2Proof.Machine.execFirmwareComponentTransfer pcie comp svn ok ver bytes s
  | .activateFirmware pcie => Sys2Proof.Machine.execActivateFirmware pcie s
  | .sensorUpdate readings => Sys2Proof.Machine.execSensorUpdate readings s
  | .mctpEidAssign pcie eid => Sys2Proof.Machine.execMctpEidAssign pcie eid s
  | .clearFaults => Sys2Proof.Machine.execClearFaults s
  | .statusWord => Sys2Proof.Machine.execStatusWord s
  | .readVin => Sys2Proof.Machine.execReadVin s
  | .readIin => Sys2Proof.Machine.execReadIin s
  | .readTemperature1 => Sys2Proof.Machine.execReadTemperature1 s
  | .readPin => Sys2Proof.Machine.execReadPin s
  | .reservedEncoding t w0 w1 => Sys2Proof.Machine.execReservedEncoding t w0 w1 s
  | .fcReservedEncoding t w => Sys2Proof.Machine.execFcReservedEncoding t w s
  | .laneLockLost p => Sys2Proof.Machine.execLaneLockLost p s
  | .expanderConfigured port width gib => Sys2Proof.Machine.execExpanderConfigured port width gib s
  | .standbyMirrorComplete => Sys2Proof.Machine.execStandbyMirrorComplete s
  | .heartbeatLossWithNoStandby => Sys2Proof.Machine.execHeartbeatLossWithNoStandby s
  | .vralert => Sys2Proof.Machine.execVralert s
  | .testAccessPortOpen good => Sys2Proof.Machine.execTestAccessPortOpen good s

end Sys2Proof.Machine
end

