-- ==== Sys2Proof/Machine/Tick.lean ====
section
/-! DEFINITION. One cycle in which no command arrives: the counters that the spec counts in cc (R123, R178, Table 4-16). Log entry
36. -/

namespace Sys2Proof.Machine

/-- The cycle as the X-core of a tile with a launch counts it: `XC_WDOG` is held in HALTED (R123). -/
def xCycle (t : TileId) (s : State) : State :=
  let s := rinc (R.XC_CYCLES t.toNat) F.XC_CYCLES_COUNT 1 s
  if xState s t ≠ xcHalted then rinc (R.XC_WDOG t.toNat) F.XC_WDOG_COUNT 1 s else s

/-- The cycle as the F-core counts it: held at zero while no slot is BLOCKED and the program does not wait (R178). -/
def fCycle (t : TileId) (s : State) : State :=
  if fState s t = fcWaiting ∨ allSlots.any (fun sl => slotState s t sl == slBlocked) = true then
    rinc (R.FC_PROGRESS t.toNat) F.FC_PROGRESS_COUNT 1 s
  else progress t s

/-- One cycle of every tile that runs a launch. -/
def cycle (s : State) : State :=
  s.tiles.foldl (fun s e =>
    let t := BitVec.ofNat 11 e.1
    if (s.tile t).x.launch.isSome then fCycle t (xCycle t s) else s) s

end Sys2Proof.Machine
end

