-- ==== Sys2Proof/Safety.lean ====
section
/-! DEFINITION. The vocabulary of the claims: when memory is in its canonical form, when a step goes on, when an instruction of
an execute core or a fetch core issues, and what else may change when it retires. -/

namespace Sys2Proof

open Sys2Proof.Machine

/-- The bytes of HBM, scratchpads and moraine are in their one canonical form: addresses strictly rising, no byte listed that reads
as an unlisted one does. -/
def MemoryWf (s : Machine.State) : Prop := mwf (fun _ => (0 : Byte)) s.mem = true

/-- The state with its registers left out. -/
def noRegs (s : Machine.State) : Machine.State := { s with regs := [] }

/-- The state with its registers and what its tiles hold left out. -/
def noTiles (s : Machine.State) : Machine.State := { s with regs := [], tiles := [] }

/-- The state with its registers, memory, error marks and count of free values left out. -/
def noMem (s : Machine.State) : Machine.State := { s with regs := [], mem := [], ecc := [], freeCtr := 0 }

/-- The state with its registers and the translations that tiles and compute dies hold left out. -/
def noXlat (s : Machine.State) : Machine.State := { s with regs := [], tiles := [], dieCache := [] }

/-- The state with its registers, host queues and host memory left out. -/
def noHost (s : Machine.State) : Machine.State := { s with regs := [], queues := [], hostMem := [] }

/-- The state with its registers, tiles, collective segments and request count left out. -/
def noColl (s : Machine.State) : Machine.State := { s with regs := [], tiles := [], segs := [], txnNext := 0 }

/-- Only the registers at the offsets `offs` may differ; nothing else does. -/
structure OnlyRegs (offs : List Nat) (u v : Machine.State) : Prop where
  rest : noRegs v = noRegs u
  regs : ∀ o, o ∉ offs → rraw v o = rraw u o

/-- Only the registers at the offsets `offs` and what tile `t` holds may differ. -/
structure OnlyTile (t : TileId) (offs : List Nat) (u v : Machine.State) : Prop where
  rest  : noTiles v = noTiles u
  regs  : ∀ o, o ∉ offs → rraw v o = rraw u o
  tiles : ∀ w, w ≠ t → v.tile w = u.tile w

/-- Only the registers at the offsets `offs` and what host queue `q` holds may differ. -/
structure OnlyQueue (q : QIdx) (offs : List Nat) (u v : Machine.State) : Prop where
  rest   : noHost v = noHost u
  regs   : ∀ o, o ∉ offs → rraw v o = rraw u o
  queues : ∀ p, p ≠ q → v.queue p = u.queue p
  host   : v.hostMem = u.hostMem

/-! ### Execute core -/

/-- The X-core of tile `t` is about to execute an instruction of `len` bytes at its PC: it is RUNNING, waits for no load, does not
stop at a breakpoint (R125), and the fetch of the instruction's words does not fault (R104). -/
def Issues (s : Machine.State) (t : TileId) (len : Nat) : Prop :=
  xReady s t = true ∧ xAtBreak s t = false ∧ (xFetch t len s).1 = none

/-- The state once the instruction's words are fetched. -/
def fetched (s : Machine.State) (t : TileId) (len : Nat) : Machine.State := (xFetch t len s).2

/-- Registers that a retiring instruction of tile `t` writes (R105, R123, R178; `XC_STATUS` for a halt after a single step, R125).
-/
def retireRegs (t : TileId) : List Nat :=
  [R.XC_PC t.toNat, R.XC_RETIRED t.toNat, R.XC_WDOG t.toNat, R.FC_PROGRESS t.toNat, R.XC_STATUS t.toNat]

/-- From `u`, an instruction of tile `t` has retired to `pc` in `v`, and left its X-core's registers as `x`. Nothing else changed
but the counters of R123 and R178. -/
structure XRetired (t : TileId) (pc : Nat) (x : XCore) (u v : Machine.State) : Prop where
  pc      : xPc v t = pc % 2 ^ 48 / 4 * 4
  retired : rraw v (R.XC_RETIRED t.toNat) = min (rraw u (R.XC_RETIRED t.toNat) + 1) (2 ^ 64 - 1)
  wdog    : rraw v (R.XC_WDOG t.toNat) = 0
  frame   : OnlyTile t (retireRegs t) u v
  tile    : v.tile t = { u.tile t with x := { x with skipBrk := false } }

/-- From `u`, tile `t`'s instruction blocks in `v` (Table 4-11, R126): WAITING, the PC unmoved, `WAIT_OBJ` naming what it waits
for. -/
structure XBlocked (t : TileId) (obj : Nat) (w : XWait) (u v : Machine.State) : Prop where
  state : xState v t = 2
  obj   : rget v (R.XC_STATUS t.toNat) F.XC_STATUS_WAIT_OBJ = obj % 64
  pc    : xPc v t = xPc u t
  frame : OnlyTile t [R.XC_STATUS t.toNat] u v
  tile  : v.tile t = { u.tile t with x := { (u.tile t).x with wait := some w } }

/-- An instruction of `len` bytes has retired with `S[rd]` set to `val`; S0 stays zero, and no other register of the core changed
(Table 4-1, R106). -/
def SResult (t : TileId) (len : Nat) (rd : SReg) (val : Word) (u v : Machine.State) : Prop :=
  (∀ r, rdS v t r = if r = rd ∧ r ≠ 0 then val else rdS u t r) ∧
  XRetired t (xPc u t + len) { (u.tile t).x with s := (v.tile t).x.s } u v

/-- An instruction of `len` bytes has retired with `V[vd]` set to `val`. -/
def VResult (t : TileId) (len : Nat) (vd : VReg) (val : VWord) (u v : Machine.State) : Prop :=
  (∀ r, rdV v t r = if r = vd then val else rdV u t r) ∧
  XRetired t (xPc u t + len) { (u.tile t).x with v := (v.tile t).x.v } u v

/-- An instruction of `len` bytes has retired with `P[pd]` set to `val`. -/
def PResult (t : TileId) (len : Nat) (pd : PReg) (val : BitVec 64) (u v : Machine.State) : Prop :=
  (∀ r, rdP v t r = if r = pd then val else rdP u t r) ∧
  XRetired t (xPc u t + len) { (u.tile t).x with p := (v.tile t).x.p } u v

/-- An instruction of `len` bytes has retired with `D[dd]` set to `val`. -/
def DResult (t : TileId) (len : Nat) (dd : DReg) (val : DWord) (u v : Machine.State) : Prop :=
  (∀ r, rdD v t r = if r = dd then val else rdD u t r) ∧
  XRetired t (xPc u t + len) { (u.tile t).x with d := (v.tile t).x.d } u v

/-- A request is a write, atomic or remote post that tile `t`'s X-core issued as number `k`, now or before it last stopped, and that
has not had its reply. -/
def IssuedAs (x : Txn) (t : TileId) (k : Nat) : Prop := (∃ pc, x.iss = .xwrite t pc k) ∨ x.iss = .abandoned t (some k)

/-- Every earlier write, atomic and remote post of the tile's X-core has taken effect, no post is held, and no fault is on its way
to the X-core (FENCE, Table 4-11; log entry 38). -/
def WritesDone (u : Machine.State) (t : TileId) : Prop :=
  (∀ e ∈ u.txns, ∀ k, IssuedAs e.2 t k → (u.tile t).x.seq < k) ∧ (u.tile t).x.held = [] ∧ (u.tile t).x.faults = []

/-- Every CE, GME, COLL, UPD and RGN instruction of the tile is complete (FENCE.E, Table 4-11). -/
def UnitsDone (u : Machine.State) (t : TileId) : Prop :=
  (u.tile t).ce = [] ∧ (u.tile t).gme = [] ∧ (u.tile t).x.units = [] ∧ ∀ r ∈ u.rgns, r.tile ≠ t

/-- The F-core program has ended or never started, and no transfer is in flight (END, Table 4-11). -/
def StreamsDone (u : Machine.State) (t : TileId) : Prop := (fState u t = 0 ∨ fState u t = 4) ∧ (u.tile t).xfers = []

/-- Nothing that the tile's X-core issued before now is outstanding or has failed, and no post is held: a post takes effect at once
(R117). -/
def PostsAtOnce (u : Machine.State) (t : TileId) : Prop :=
  (∀ e ∈ u.txns, ∀ k, IssuedAs e.2 t k → (u.tile t).x.seq ≤ k) ∧ (u.tile t).x.held = [] ∧
    ∀ k, (u.tile t).x.failed = some k → (u.tile t).x.seq ≤ k

/-- A count or threshold operand: the low `w` bits of S[RS], or the immediate when RS is 0 (R117). -/
def countOp (u : Machine.State) (t : TileId) (rs : SReg) (imm : BitVec 11) (w : Nat) : Nat :=
  if rs = 0 then imm.toNat else (rdS u t rs).toNat % 2 ^ w

/-- From `u`, the X-core of tile `t` has stopped FAULTED in `v` (R121, Table 4-16): the fault recorded, the PC unmoved, its
engines' queues empty and nothing waiting; its registers and its launch are kept, and so are held posts of retired instructions,
but for those behind a write that has failed. -/
structure XStopped (t : TileId) (source : Nat) (st : Status) (pc : Nat) (precise illegal : Bool) (u v : Machine.State) : Prop where
  state  : xState v t = 4
  fault  : rraw v (R.XC_FAULT t.toNat) = st.code + 256 * source + (if illegal then 2048 else 0) + if precise then 4096 else 0
  at_pc  : rraw v (R.XC_FAULT_PC t.toNat) = pc
  pc     : xPc v t = xPc u t
  queues : (v.tile t).ce = [] ∧ (v.tile t).gme = []
  core   : (v.tile t).x = { (u.tile t).x with
    wait := none, load := none, held := (u.tile t).x.held.filter (fun h => postLives (u.tile t).x h.seq), faults := [], skipBrk := false }
  memory : ∀ a, rdByte v a = rdByte u a

/-- So has the X-core of a tile that no launch runs on, and no other tile changed. -/
structure XFaulted (t : TileId) (source : Nat) (st : Status) (pc : Nat) (precise illegal : Bool) (u v : Machine.State) : Prop where
  stop   : XStopped t source st pc precise illegal u v
  others : ∀ w, w ≠ t → v.tile w = u.tile w

/-! ### Fetch core -/

/-- The F-core of tile `t` is about to execute an instruction: its program is RUNNING, waits for no FLD or FST, and the fetch at its
PC does not fault (R153). -/
def FIssues (s : Machine.State) (t : TileId) : Prop :=
  fReady s t = true ∧ (fetchWord t unitF (fPc s t) s).1 = none

/-- The state once the instruction's word is fetched. -/
def fFetched (s : Machine.State) (t : TileId) : Machine.State := (fetchWord t unitF (fPc s t) s).2

/-- From `u`, an instruction of tile `t`'s fetch program has retired to `pc` in `v`, and left the program as `f`. Nothing else
changed but the progress counter of R178. -/
structure FRetired (t : TileId) (pc : Nat) (f : FCore) (u v : Machine.State) : Prop where
  pc       : fPc v t = pc % 2 ^ 48 / 4 * 4
  progress : rraw v (R.FC_PROGRESS t.toNat) = 0
  frame    : OnlyTile t [R.FC_PC t.toNat, R.FC_PROGRESS t.toNat] u v
  tile     : v.tile t = { u.tile t with f := f }

/-- A fetch-program instruction has retired with `G[gd]` set to `val`; G0 stays zero (R154). -/
def GResult (t : TileId) (gd : GReg) (val : Word) (u v : Machine.State) : Prop :=
  (∀ r, rdG v t r = if r = gd ∧ r ≠ 0 then val else rdG u t r) ∧
  FRetired t (fPc u t + 4) { (u.tile t).f with g := (v.tile t).f.g } u v

/-- From `u`, the fetch program blocks in `v` (Table 6-9): WAITING, the PC unmoved, `WAIT_OBJ` and `WAIT_KIND` naming what it waits
for. -/
structure FBlocked (t : TileId) (obj kind : Nat) (w : FWait) (u v : Machine.State) : Prop where
  state : fState v t = 2
  obj   : rget v (R.FC_STATUS t.toNat) F.FC_STATUS_WAIT_OBJ = obj % 64
  kind  : rget v (R.FC_STATUS t.toNat) F.FC_STATUS_WAIT_KIND = kind % 4
  pc    : fPc v t = fPc u t
  frame : OnlyTile t [R.FC_STATUS t.toNat] u v
  tile  : v.tile t = { u.tile t with f := { (u.tile t).f with wait := some w } }

/-! ### Semaphores and windows -/

/-- POST(cnt) on semaphore `n` (Table 3-6): saturating, OVF set where it saturates; it is progress of the tile (R178). -/
structure SemPosted (t : TileId) (n : SemIdx) (cnt : Nat) (u v : Machine.State) : Prop where
  value    : semVal v t n = min (semVal u t n + cnt) 0xFFFF
  ovf      : rget v (R.SEM t.toNat n.toNat) F.SEM_OVF = if 0xFFFF < semVal u t n + cnt then 1 else rget u (R.SEM t.toNat n.toNat) F.SEM_OVF
  progress : rraw v (R.FC_PROGRESS t.toNat) = 0
  frame    : OnlyRegs [R.SEM t.toNat n.toNat, R.FC_PROGRESS t.toNat] u v

/-- Semaphore `n` has been given VALUE `x`; OVF is kept. -/
structure SemValue (t : TileId) (n : SemIdx) (x : Nat) (u v : Machine.State) : Prop where
  value : semVal v t n = x % 2 ^ 16
  ovf   : rget v (R.SEM t.toNat n.toNat) F.SEM_OVF = rget u (R.SEM t.toNat n.toNat) F.SEM_OVF
  frame : OnlyRegs [R.SEM t.toNat n.toNat] u v

/-! ### Memory -/

/-- The byte at a local address is as it was written: its codeword has no error mark (R75), no command under way shares it unordered
with another (R31, R102), and its line's next moraine transaction has a completion (R289). -/
def Clean (u : Machine.State) (a : Nat) : Prop := eccAt u (a / 32) = .good ∧ a ∉ racedBytes u ∧ a / 64 ∉ u.morLost

/-- The `n` bytes from a local address exist (R23) and are as they were written. -/
def Sound (u : Machine.State) (la n : Nat) : Prop := ∀ k, k < n → addrOk u (la + k) = true ∧ Clean u (la + k)

/-- The bytes of the table entries that a walk for a virtual address reads: the level-1 entry and the level-2 entry it names
(R96). -/
def walkBytes (u : Machine.State) (t : TileId) (va : Nat) : List Nat :=
  let a := xlatBase u (tileDie t) + 8 * (va / 2 ^ 30)
  let b := (bits (leNat (rdBytes u a 8)) 21 32) <<< 12 + 8 * (va / 2 ^ 21 % 512)
  (List.range 8).map (a + ·) ++ (List.range 8).map (b + ·)

/-- In `s`, an access of tile `t` at `va` translates to the local address `la`, which it reaches without a request: its own
scratchpad, HBM or moraine. `u` is the state after the translation. -/
def Reaches (t : TileId) (va : Nat) (rd wr : Bool) (la : Nat) (s u : Machine.State) : Prop :=
  Machine.translate t va rd wr s = (.ok u.devId la, u) ∧ route u t u.devId la = .now

/-- The tile's TLB holds the page of `va` as the tables give it, and it gives the local address `la`; the byte there exists, is
reached without a request and is as it was written. -/
def Held (u : Machine.State) (t : TileId) (va : Nat) (rd wr : Bool) (la : Nat) : Prop :=
  va < 2 ^ 48 ∧ (∃ e, (u.tile t).tlb.find? (tlbHit va) = some e ∧ leafNow u (tileDie t) va = some (e.big, e.entry) ∧
      leafCheck u va e.big e.entry rd wr = .ok u.devId la) ∧
    route u t u.devId la = .now ∧ addrOk u la = true ∧ Clean u la

/-- The little-endian number in `n` bytes of memory. -/
def memNat (u : Machine.State) (la n : Nat) : Nat := leNat (rdBytes u la n)

/-- Only bytes of memory may differ. -/
structure OnlyMem (u v : Machine.State) : Prop where
  rest  : { v with mem := u.mem, ecc := u.ecc } = u
  marks : ∀ c, eccAt v c = eccAt u c

/-- Bytes `la` to `la + n - 1` hold the low `n` bytes of `x`, and nothing else changed. -/
structure Stored (la n x : Nat) (u v : Machine.State) : Prop where
  only  : OnlyMem u v
  bytes : ∀ a, rdByte v a = if la ≤ a ∧ a < la + n then BitVec.ofNat 8 (x / 256 ^ (a - la)) else rdByte u a

/-- Lane `i` of a V register. -/
def vlane (v : VWord) (i : Nat) : W32 := v.extractLsb' (32 * i) 32

/-- Lane `i` is active under PG (R110). -/
def LaneActive (u : Machine.State) (t : TileId) (pg : PReg) (i : Nat) : Prop := pg = 0 ∨ (rdP u t pg).getLsbD i = true

/-- An instruction has retired with the active lanes of `V[vd]` set by `f`; its inactive lanes are kept. -/
def LaneResult (t : TileId) (pg : PReg) (vd : VReg) (f : Nat → W32) (u v : Machine.State) : Prop :=
  ∃ w, VResult t 4 vd w u v ∧ ∀ i, i < 64 →
    (LaneActive u t pg i → vlane w i = f i) ∧ (¬ LaneActive u t pg i → vlane w i = vlane (rdV u t vd) i)

/-- An instruction has retired with bit `i` of `P[pd]` set where lane `i` is active and meets `f`. -/
def PredResult (t : TileId) (pg pd : PReg) (f : Nat → Prop) (u v : Machine.State) : Prop :=
  ∃ w, PResult t 4 pd w u v ∧ ∀ i, i < 64 → (w.getLsbD i = true ↔ LaneActive u t pg i ∧ f i)

/-! ### Host accesses -/

/-- A host write to a part of domain `n` takes effect: no cold reset is in progress, HIO0 is up and the domain is ON (R421, R423).
-/
def HostReaches (s : Machine.State) (n : Nat) : Prop := s.power.cold = false ∧ s.domReach 3 = true ∧ s.domOn n = true

/-- A host write to the registers of tile `t` takes effect: its compute die is ON and the tile is enabled (R69). -/
def HostTile (s : Machine.State) (t : TileId) : Prop := HostReaches s (16 + tileDie t) ∧ s.enabled t = true

end Sys2Proof
end

