-- ==== Sys2Proof/WellFormed.lean ====
section
/-! DEFINITION. Which commands are well formed: the relations between operands that their types do not say. -/

namespace Sys2Proof

/-- A host access of 4 or 8 bytes, naturally aligned (R505). -/
def hostSize (off : BitVec 28) (bytes : BitVec 4) : Bool :=
  (bytes == 4 && off.toNat % 4 == 0) || (bytes == 8 && off.toNat % 8 == 0)

/-- A local address of 44 bits (R22). -/
def localAddr (a : Nat) : Bool := decide (a < 2 ^ 44)

/-- A packet's TYPE, with as many data flits of 64 bytes as its header says (R352, Table 13-5). -/
def Packet.isType (k : Packet) (ty : BitVec 8) : Bool :=
  k.hdr.extractLsb' 0 8 == ty && k.data.length == 64 * (k.hdr.extractLsb' 112 8).toNat

/-- A packet's SUB. -/
def Packet.isSub (k : Packet) (sub : BitVec 8) : Bool := k.hdr.extractLsb' 8 8 == sub

/-- The relations between a command's operands: the size of a host access (R505), EN and RESUME of the queue commands (R46, R506),
IMM32[14:13] of the GME's instructions (Table 4-9), the target fields of RPOST (R117), the count of an F-core semaphore
instruction that takes it from a register (R156), the length of a link group (R345), a packet's type (R352), the local addresses
that a command names (R22). -/
def Instr.wf (i : Instr) : Bool :=
  match i with
  | .registerWrite off bytes _ => hostSize off bytes
  | .rcCounterRead off bytes => hostSize off bytes
  | .bar2Access _ _ => true
  | .hostwinWrite _ => true
  | .queueEnable _ cfg => cfg.getLsbD 0
  | .queueDisable _ cfg => !cfg.getLsbD 0
  | .queueResume _ cfg => cfg.getLsbD 0 && cfg.getLsbD 1
  | .sqDoorbell _ _ => true
  | .cqDoorbell _ _ => true
  | .commandFetch _ => true
  | .refusedCommandStop _ => true
  | .queueDrainDone _ => true
  | .commandDispatch _ _ raced => raced.all localAddr
  | .cmdNop _ _ => true
  | .launch _ _ => true
  | .launchComplete _ _ _ _ dests => dests.all localAddr
  | .commandComplete _ _ _ _ => true
  | .copy _ _ _ => true
  | .eventSignal _ _ => true
  | .eventWait _ _ => true
  | .eventWaitSatisfied _ _ => true
  | .stepBegin _ _ => true
  | .firnRecordDurable _ _ => true
  | .stepEnd _ _ => true
  | .chain _ _ => true
  | .heartbeat => true
  | .takeover _ _ _ => true
  | .semWrite _ _ _ => true
  | .semaphorePost _ => true
  | .acquireGrant _ _ => true
  | .heldPostRelease _ => true
  | .windowOpen _ _ => true
  | .windowClose _ _ => true
  | .windowReopenDone _ _ => true
  | .winRangeWrite _ _ _ => true
  | .swizzleRangeWrite _ _ _ => true
  | .remoteWrite _ _ => true
  | .remoteRead _ => true
  | .remoteAtomicAdd _ _ => true
  | .meshReply _ _ => true
  | .xlatInval _ => true
  | .xlatInvalDone _ => true
  | .tileReset _ => true
  | .tileResetDone _ => true
  | .xNop _ => true
  | .xEnd _ => true
  | .xFence _ => true
  | .xFenceE _ => true
  | .xIflush _ => true
  | .xBrk _ => true
  | .xAdd _ _ _ _ => true
  | .xSub _ _ _ _ => true
  | .xAnd _ _ _ _ => true
  | .xOr _ _ _ _ => true
  | .xXor _ _ _ _ => true
  | .xSll _ _ _ _ => true
  | .xSrl _ _ _ _ => true
  | .xSra _ _ _ _ => true
  | .xMul _ _ _ _ => true
  | .xMulhu _ _ _ _ => true
  | .xSlt _ _ _ _ => true
  | .xSltu _ _ _ _ => true
  | .xMin _ _ _ _ => true
  | .xMax _ _ _ _ => true
  | .xMinu _ _ _ _ => true
  | .xMaxu _ _ _ _ => true
  | .xAddi _ _ _ _ => true
  | .xAndi _ _ _ _ => true
  | .xOri _ _ _ _ => true
  | .xXori _ _ _ _ => true
  | .xSlli _ _ _ _ => true
  | .xSrli _ _ _ _ => true
  | .xSrai _ _ _ _ => true
  | .xSlti _ _ _ _ => true
  | .xSltiu _ _ _ _ => true
  | .xLb _ _ _ _ => true
  | .xLh _ _ _ _ => true
  | .xLw _ _ _ _ => true
  | .xLd _ _ _ _ => true
  | .xLbu _ _ _ _ => true
  | .xLhu _ _ _ _ => true
  | .xLwu _ _ _ _ => true
  | .xSb _ _ _ _ => true
  | .xSh _ _ _ _ => true
  | .xSw _ _ _ _ => true
  | .xSd _ _ _ _ => true
  | .xBeq _ _ _ _ => true
  | .xBne _ _ _ _ => true
  | .xBlt _ _ _ _ => true
  | .xBge _ _ _ _ => true
  | .xBltu _ _ _ _ => true
  | .xBgeu _ _ _ _ => true
  | .xBpany _ _ _ => true
  | .xBpnone _ _ _ => true
  | .xJal _ _ _ => true
  | .xJalr _ _ _ _ => true
  | .xCsrrW _ _ _ _ => true
  | .xCsrwW _ _ _ _ => true
  | .xCsrrD _ _ _ _ => true
  | .xCsrwD _ _ _ _ => true
  | .xAaddW _ _ _ => true
  | .xAaddD _ _ _ => true
  | .xAaddrW _ _ _ _ => true
  | .xAaddrD _ _ _ _ => true
  | .vfadd _ _ _ _ _ => true
  | .vfsub _ _ _ _ _ => true
  | .vfmul _ _ _ _ _ => true
  | .vfma _ _ _ _ _ => true
  | .vfmin _ _ _ _ _ => true
  | .vfmax _ _ _ _ _ => true
  | .vfabs _ _ _ _ => true
  | .vfneg _ _ _ _ => true
  | .vfrcp _ _ _ _ => true
  | .vfrsq _ _ _ _ => true
  | .vfexp2 _ _ _ _ => true
  | .vflog2 _ _ _ _ => true
  | .vadd _ _ _ _ _ => true
  | .vsub _ _ _ _ _ => true
  | .vmul _ _ _ _ _ => true
  | .vand _ _ _ _ _ => true
  | .vor _ _ _ _ _ => true
  | .vxor _ _ _ _ _ => true
  | .vsll _ _ _ _ _ => true
  | .vsrl _ _ _ _ _ => true
  | .vsra _ _ _ _ _ => true
  | .vmin _ _ _ _ _ => true
  | .vmax _ _ _ _ _ => true
  | .vminu _ _ _ _ _ => true
  | .vmaxu _ _ _ _ _ => true
  | .vmov _ _ _ _ => true
  | .vbcast _ _ _ _ => true
  | .vext _ _ _ _ _ => true
  | .vins _ _ _ _ _ => true
  | .vshuf _ _ _ _ _ => true
  | .viota _ _ _ => true
  | .vsel _ _ _ _ _ => true
  | .vrsum _ _ _ _ => true
  | .vrmax _ _ _ _ => true
  | .vrmin _ _ _ _ => true
  | .vradd _ _ _ _ => true
  | .vcvtF2i _ _ _ _ => true
  | .vcvtI2f _ _ _ _ => true
  | .vcvtF2bf16 _ _ _ _ => true
  | .vcvtBf162f _ _ _ _ => true
  | .vcvtF2fp16 _ _ _ _ => true
  | .vcvtFp162f _ _ _ _ => true
  | .vcvtF2e4m3 _ _ _ _ => true
  | .vcvtE4m32f _ _ _ _ => true
  | .vcvtF2e5m2 _ _ _ _ => true
  | .vcvtE5m22f _ _ _ _ => true
  | .vld _ _ _ _ _ => true
  | .vst _ _ _ _ _ => true
  | .vldH _ _ _ _ _ => true
  | .vstH _ _ _ _ _ => true
  | .vldB _ _ _ _ _ => true
  | .vstB _ _ _ _ _ => true
  | .vldBc _ _ _ _ _ => true
  | .vfeq _ _ _ _ _ => true
  | .vflt _ _ _ _ _ => true
  | .vfle _ _ _ _ _ => true
  | .vieq _ _ _ _ _ => true
  | .vilt _ _ _ _ _ => true
  | .vile _ _ _ _ _ => true
  | .viltu _ _ _ _ _ => true
  | .pand _ _ _ _ _ => true
  | .por _ _ _ _ _ => true
  | .pxor _ _ _ _ _ => true
  | .pnot _ _ _ _ => true
  | .pfirst _ _ _ _ => true
  | .pcnt _ _ _ _ => true
  | .xLi _ _ _ => true
  | .xLih _ _ _ => true
  | .xAddi32 _ _ _ _ => true
  | .xDld _ _ _ _ => true
  | .xDst _ _ _ _ => true
  | .xDins _ _ _ _ => true
  | .xDext _ _ _ _ => true
  | .xDmov _ _ _ => true
  | .ceMm _ _ _ _ _ => true
  | .ceGrouped _ _ _ _ _ => true
  | .ceExecute _ _ => true
  | .ceInstructionComplete _ => true
  | .groupedResidencyPoll _ _ => true
  | .demandTimeout _ => true
  | .gmeGather _ _ _ _ imm => !imm.ta && !imm.tb
  | .gmeSegred _ _ _ _ imm => !imm.ta && !imm.tb
  | .gmeMerge _ _ _ _ imm => !imm.ta && !imm.tb
  | .gmeScatter _ _ _ _ imm => !imm.ta && !imm.tb
  | .gmeExecute _ _ => true
  | .gmeInstructionComplete _ => true
  | .topk _ _ _ _ imm => !imm.ta && !imm.tb
  | .bucket _ _ _ _ imm => !imm.ta && !imm.tb
  | .cut _ _ _ _ imm => !imm.ta && !imm.tb
  | .place _ _ _ _ imm => !imm.ta && !imm.tb
  | .join _ _ _ _ imm => !imm.ta && !imm.tb
  | .xRpost _ _ rt treg tile _ _ => if treg then tile == 0 else rt == 0
  | .collSeg _ _ _ _ _ _ _ _ => true
  | .collNull _ _ _ _ _ _ => true
  | .updPost _ _ _ _ => true
  | .rgnAcq _ _ _ _ => true
  | .rgnRel _ _ _ => true
  | .xSacq _ _ _ _ => true
  | .xSpost _ _ _ _ => true
  | .xSset _ _ _ _ => true
  | .xSrd _ _ _ => true
  | .xStry _ _ _ _ => true
  | .xWopen _ _ _ => true
  | .xWclose _ _ => true
  | .xWwait _ _ _ _ => true
  | .xWcnt _ _ _ => true
  | .xEwaitCe _ _ => true
  | .xEwaitGme _ _ => true
  | .xEstat _ _ => true
  | .xLhint _ _ => true
  | .xScommit _ _ _ _ => true
  | .xScancel _ _ _ _ => true
  | .xSstat _ _ _ => true
  | .xSwait _ _ _ _ => true
  | .waitSatisfied _ => true
  | .impreciseFault _ => true
  | .watchdogTimeout _ => true
  | .xcResume _ => true
  | .fNop _ => true
  | .fEnd _ => true
  | .fAdd _ _ _ _ => true
  | .fSub _ _ _ _ => true
  | .fMul _ _ _ _ => true
  | .fAddi _ _ _ _ => true
  | .fSlli _ _ _ _ => true
  | .fSrli _ _ _ _ => true
  | .fOri _ _ _ _ => true
  | .fAndi _ _ _ _ => true
  | .fLd _ _ _ _ => true
  | .fSt _ _ _ _ => true
  | .fBeq _ _ _ _ => true
  | .fBne _ _ _ _ => true
  | .fBlt _ _ _ _ => true
  | .fBltu _ _ _ _ => true
  | .fSopen _ _ _ => true
  | .fSjoin _ _ => true
  | .fSacq _ ga cnt _ => ga == 0 || cnt == 0
  | .fSpost _ ga cnt _ => ga == 0 || cnt == 0
  | .fStat _ _ _ => true
  | .streamAccept _ _ _ => true
  | .streamTransferIssue _ _ => true
  | .transferReply _ _ _ => true
  | .transferTimeout _ _ => true
  | .progressTimeout _ => true
  | .streamAbortComplete _ _ => true
  | .cancelComplete _ _ => true
  | .scan _ => true
  | .check _ _ => true
  | .verdict _ _ => true
  | .adoptRes _ => true
  | .adoptRest _ => true
  | .drop _ => true
  | .commit => true
  | .exdCommitComplete => true
  | .retry _ => true
  | .fetch _ _ => true
  | .evict _ _ => true
  | .pin _ _ => true
  | .unpin _ _ => true
  | .directoryTransferStart => true
  | .fetchComplete _ => true
  | .evictionComplete _ => true
  | .moraineTimeout lines => lines.all (fun l => localAddr (64 * l))
  | .regionAcquire _ _ => true
  | .regionRelease _ _ => true
  | .ablationCommandArrival _ => true
  | .readerWaitTimeout _ => true
  | .rgnvWrite _ _ _ => true
  | .update _ _ => true
  | .apply _ _ => true
  | .empty _ _ => true
  | .reimage _ _ => true
  | .ablationCommandComplete _ => true
  | .ablationCommandTimeout _ => true
  | .inboxBuffer _ _ => true
  | .inboxReset _ _ => true
  | .ablMcLoad _ => true
  | .ablDrainDone _ => true
  | .ablMcLoadDone _ => true
  | .portEnable _ => true
  | .portDisable _ => true
  | .fabricDisable => true
  | .portTrained _ => true
  | .portAckTimeout _ => true
  | .portRetrained _ => true
  | .retrainTimeout _ => true
  | .portDrainDone _ => true
  | .linkGroupReceive _ g _ _ => g.slots.length == 1536
  | .write _ k _ => k.isType 1
  | .read _ k _ => k.isType 2
  | .aadd _ k _ => k.isType 3
  | .post _ k _ => k.isType 4 && k.isSub 0
  | .noticeEpoch _ k _ => k.isType 4 && k.isSub 2
  | .noticeAbort _ k _ => k.isType 4 && k.isSub 3
  | .seg _ k _ => k.isType 5
  | .reply _ k _ => k.isType 8
  | .fabricHoldDrop _ => true
  | .collective _ _ => true
  | .segmentComplete _ _ _ _ _ _ => true
  | .segmentTimeout _ _ => true
  | .groupDescriptorWrite _ _ _ => true
  | .ledgerTick _ _ _ _ _ => true
  | .reconcile _ => true
  | .avsVdone => true
  | .avsAttemptTimeout => true
  | .tagClr => true
  | .modeRequest _ => true
  | .domainRequest _ _ => true
  | .domainPowerUpDone _ => true
  | .domainPowerUpTimeout _ => true
  | .domainInitDone _ => true
  | .domainInitTimeout _ => true
  | .domainDrainDone _ => true
  | .drainLimitExpiry _ _ => true
  | .rimeEntryDone _ _ => true
  | .rimeExitDone _ => true
  | .domainPowerDownDone _ => true
  | .wakeEvent _ => true
  | .frostSample _ _ => true
  | .thermalTrip _ => true
  | .railFault => true
  | .powerOn _ _ _ => true
  | .coldReset _ => true
  | .warmReset => true
  | .perstAssert => true
  | .perstDeassert _ => true
  | .functionLevelReset => true
  | .retryResend _ => true
  | .meshTransactionTimeout _ => true
  | .hotSwapDisconnect _ => true
  | .hotSwapReconnect _ _ _ => true
  | .refclkLost => true
  | .firnCommitWrite _ => true
  | .pair => true
  | .unpair => true
  | .mirrorHeaderPoll _ _ => true
  | .pairingTimeout => true
  | .calve _ => true
  | .calveComplete => true
  | .fill _ _ _ => true
  | .fillReadReply _ => true
  | .fillDone => true
  | .done => true
  | .clear => true
  | .unfence _ => true
  | .commitSvn => true
  | .getVersion _ => true
  | .getCapabilities _ => true
  | .negotiateAlgorithms _ _ _ => true
  | .getDigests _ => true
  | .getCertificate _ _ _ _ => true
  | .challenge _ _ _ => true
  | .getMeasurements _ _ _ => true
  | .getTid _ => true
  | .getPldmVersion _ _ => true
  | .getPldmTypes _ => true
  | .getPldmCommands _ _ => true
  | .getPdr _ _ => true
  | .getSensorReading _ _ => true
  | .getStateSensorReadings _ _ => true
  | .setEventReceiver _ _ => true
  | .alertClear _ _ => true
  | .tripClear _ _ _ => true
  | .mode _ _ => true
  | .reset _ _ _ => true
  | .requestUpdate _ => true
  | .firmwareComponentTransfer _ _ _ _ _ _ => true
  | .activateFirmware _ => true
  | .sensorUpdate _ => true
  | .mctpEidAssign _ _ => true
  | .clearFaults => true
  | .statusWord => true
  | .readVin => true
  | .readIin => true
  | .readTemperature1 => true
  | .readPin => true
  | .reservedEncoding _ _ _ => true
  | .fcReservedEncoding _ _ => true
  | .laneLockLost _ => true
  | .expanderConfigured _ _ _ => true
  | .standbyMirrorComplete => true
  | .heartbeatLossWithNoStandby => true
  | .vralert => true
  | .testAccessPortOpen _ => true

end Sys2Proof
end

