-- ==== Sys2Proof/Certificates/Slice0/Obligations.lean ====
section
/-! DEFINITION. The statements for the provers, by family of commands. A part of a statement that names several rules stands as a
claim of its own before it. -/

open Sys2Proof Sys2Proof.Machine

/-- A step takes the command at the front of the queue and runs it with the queue's rest. -/
def Obligations.StepRunsFrontCommand : Prop :=
  ∀ (c : Instr) (rest : List Instr) (s : Machine.State), step { s with pending := c :: rest } = exec c { s with pending := rest }

/-- Every step answers a next state, and takes from the queue of waiting commands its front and nothing else, whatever the
command does. The queue is the model's own field. -/
def Obligations.QueueKeepsItsOrder : Prop :=
  ∀ s : Machine.State, ∃ v, step s = .next v ∧ v.pending = s.pending.tail

/-- What a step on an empty queue does: one cc of the counters of R123, R178 and Table 4-16. That an idle step is one cc
is a choice of this model, log entry 36; the counters' rules are the manual's. Stated for a state that holds one tile
or none. -/
def Obligations.IdleCycles : Prop :=
  ∀ s : Machine.State, s.pending = [] →
    (s.tiles = [] → step s = .next s) ∧
    (∀ (t : TileId) (c : Tile), s.tiles = [(t.toNat, c)] → c.x.launch ≠ none → ∃ v, step s = .next v ∧
      rget v (R.XC_CYCLES t.toNat) F.XC_CYCLES_COUNT =
        min (rget s (R.XC_CYCLES t.toNat) F.XC_CYCLES_COUNT + 1) (2 ^ F.XC_CYCLES_COUNT.w - 1) ∧
      rget v (R.XC_WDOG t.toNat) F.XC_WDOG_COUNT = (if xState s t ≠ 3 then
        min (rget s (R.XC_WDOG t.toNat) F.XC_WDOG_COUNT + 1) (2 ^ F.XC_WDOG_COUNT.w - 1) else rget s (R.XC_WDOG t.toNat) F.XC_WDOG_COUNT) ∧
      rget v (R.FC_PROGRESS t.toNat) F.FC_PROGRESS_COUNT = (if fState s t = 2 ∨ ∃ sl, slotState s t sl = 3 then
        min (rget s (R.FC_PROGRESS t.toNat) F.FC_PROGRESS_COUNT + 1) (2 ^ F.FC_PROGRESS_COUNT.w - 1) else 0) ∧
      OnlyRegs [R.XC_CYCLES t.toNat, R.XC_WDOG t.toNat, R.FC_PROGRESS t.toNat] s v) ∧
    (∀ (t : TileId) (c : Tile), s.tiles = [(t.toNat, c)] → c.x.launch = none → step s = .next s)

/-- What reset leaves: DEV_IDENT (R2), the event counters (R43), semaphores (R85), the X-core's and the F-core's
registers. That a byte of memory nothing has written reads zero is a choice of this model, log entry 2. -/
def Obligations.ResetValues : Prop :=
  State.reset.pending = [] ∧ MemoryWf State.reset ∧ (∀ a, rdByte State.reset a = 0) ∧
    (∀ o, rraw State.reset o = (regReset o).toNat) ∧
    (∀ t, (∀ r, rdS State.reset t r = 0) ∧ (∀ r, rdV State.reset t r = 0) ∧ (∀ r, rdP State.reset t r = 0) ∧
      (∀ r, rdD State.reset t r = 0) ∧ (∀ r, rdG State.reset t r = 0) ∧ ∀ n, semVal State.reset t n = 0) ∧
    rraw State.reset R.DEV_IDENT = 0x40164101 ∧ (∀ n, n < 256 → rraw State.reset (R.EVT n) = 0)

/-- The canonical form of memory is kept by every step, whatever command it runs. -/
def Obligations.MemoryKeepsItsForm : Prop :=
  ∀ s v : Machine.State, MemoryWf s → step s = .next v → MemoryWf v

/-- No bit of an operand is dropped between the encoder and the decoder. The tile label is not encoded, and the operation
of GME.RANK stands in its descriptor (Table 10-2). -/
def Obligations.DecodeOfEncode : Prop :=
  (∀ (i : Instr) (w : W32 × W32), i.wf = true → xEncode i = some w → ∃ t rank, xDecode t rank w.1 w.2 = some i) ∧
  (∀ (i : Instr) (w : W32), i.wf = true → fEncode i = some w → ∃ t, fDecode t w = some i)

/-- The worked encodings of Table 4-13. -/
def Obligations.LoopWordsDecode : Prop :=
  ∀ (t : TileId) (rank : Nat) (w : W32),
    ∀ p ∈ [(0x00201C18, Instr.xSacq t 0 1 7), (0x0000A894, .vld t 0 2 21 0), (0x0000B0D4, .vld t 0 3 22 0),
        (0x006208D2, .vfma t 0 3 1 2), (0x0001B0D4, .vst t 0 3 22 0), (0x00201858, .xSpost t 0 1 6),
        (0x1000CE44, .xAddi t 25 25 256), (0x7FF1CE44, .xAndi t 25 25 2047), (0x0019A542, .xAdd t 21 20 25),
        (0x1000B584, .xAddi t 22 22 256), (0xFFB1D58A, .xBne t 22 26 (-10))],
      xDecode t rank p.1 w = some p.2 ∧ xEncode p.2 = some (p.1, 0)

/-- What any translation leaves unchanged: registers but XLAT_MISS of the tile, other tiles, memory; only an uncorrectable
codeword of HBM turns poisoned (R76, R96, R98). -/
def Sys2Proof.Claims.TranslationFrame : Prop :=
  ∀ (t : TileId) (va : Nat) (rd wr : Bool) (s v : Machine.State) (x : Xlat), Machine.translate t va rd wr s = (x, v) →
    { v with regs := s.regs, tiles := s.tiles, dieCache := s.dieCache, ecc := s.ecc, freeCtr := s.freeCtr } = s ∧
    (∀ a, rdByte v a = rdByte s a) ∧ (∀ o, o ≠ R.XLAT_MISS t.toNat → rraw v o = rraw s o) ∧
    (∀ w, w ≠ t → v.tile w = s.tile w) ∧ v.tile t = { s.tile t with tlb := (v.tile t).tlb } ∧
    (∀ c, eccAt v c ≠ eccAt s c → eccAt s c = .uncorrectable ∧ eccAt v c = .poisoned ∧ c * 32 < hbmTop)

/-- The walk of the two-level table when nothing is cached (R96, R97): entries absent, a leaf of 1 GiB, and a leaf of 2
MiB. -/
def Sys2Proof.Claims.TranslationWalk : Prop :=
  ∀ (t : TileId) (va e1 e2 : Nat) (rd wr : Bool) (s : Machine.State), va < 2 ^ 48 →
    (s.tile t).tlb = [] → dieEntries s (tileDie t) = [] →
    xlatBase s (tileDie t) + 2 ^ 21 ≤ hbmTop →
    Sound s (xlatBase s (tileDie t) + 8 * (va / 2 ^ 30)) 8 → e1 = memNat s (xlatBase s (tileDie t) + 8 * (va / 2 ^ 30)) 8 →
    (e1.testBit 0 = false → (Machine.translate t va rd wr s).1 = .bad .translation) ∧
    (e1.testBit 0 = true → e1.testBit 1 = true →
      (Machine.translate t va rd wr s).1 = leafCheck s va true e1 rd wr ∧
      ((Machine.translate t va rd wr s).2.tile t).tlb = [⟨va / 2 ^ 30, true, e1⟩]) ∧
    (e1.testBit 0 = true → e1.testBit 1 = false → bits e1 21 32 * 4096 + 4096 ≤ hbmTop →
      Sound s (bits e1 21 32 * 4096 + 8 * (va / 2 ^ 21 % 512)) 8 →
      e2 = memNat s (bits e1 21 32 * 4096 + 8 * (va / 2 ^ 21 % 512)) 8 →
      (¬ (e2.testBit 0 = true ∧ e2.testBit 1 = true) → (Machine.translate t va rd wr s).1 = .bad .translation) ∧
      (e2.testBit 0 = true ∧ e2.testBit 1 = true →
        (Machine.translate t va rd wr s).1 = leafCheck s va false e2 rd wr ∧
        ((Machine.translate t va rd wr s).2.tile t).tlb = [⟨va / 2 ^ 21, false, e2⟩]))

/-- The two-level walk of a translation, what it leaves cached, and what it leaves unchanged. -/
def Obligations.TranslationWalks : Prop :=
  Sys2Proof.Claims.TranslationFrame ∧ Sys2Proof.Claims.TranslationWalk

namespace Sys2Proof

/-- The register-register operations of the scalar ALU, each with its function of S[RS1] and S[RS2] (Table 4-5). -/
def aluTable : List ((TileId → SReg → SReg → SReg → Instr) × (Word → Word → Word)) := [
  (.xAdd, fun a b => a + b), (.xSub, fun a b => a - b), (.xAnd, fun a b => a &&& b), (.xOr, fun a b => a ||| b),
  (.xXor, fun a b => a ^^^ b),
  (.xSll, fun a b => a <<< (b.toNat % 64)), (.xSrl, fun a b => a >>> (b.toNat % 64)),
  (.xSra, fun a b => a.sshiftRight (b.toNat % 64)),
  (.xMul, fun a b => a * b), (.xMulhu, fun a b => BitVec.ofNat 64 (a.toNat * b.toNat / 2 ^ 64)),
  (.xSlt, fun a b => if a.toInt < b.toInt then 1 else 0), (.xSltu, fun a b => if a.toNat < b.toNat then 1 else 0),
  (.xMin, fun a b => if a.toInt < b.toInt then a else b), (.xMax, fun a b => if a.toInt < b.toInt then b else a),
  (.xMinu, fun a b => if a.toNat < b.toNat then a else b), (.xMaxu, fun a b => if a.toNat < b.toNat then b else a)]

/-- The register-immediate operations, each with its function of S[RS1] and the sign-extended immediate. -/
def aluImmTable : List ((TileId → SReg → SReg → BitVec 12 → Instr) × (Word → Word → Word)) := [
  (.xAddi, fun a b => a + b), (.xAndi, fun a b => a &&& b), (.xOri, fun a b => a ||| b), (.xXori, fun a b => a ^^^ b),
  (.xSlti, fun a b => if a.toInt < b.toInt then 1 else 0), (.xSltiu, fun a b => if a.toNat < b.toNat then 1 else 0)]

def shiftTable : List ((TileId → SReg → SReg → BitVec 6 → Instr) × (Word → Nat → Word)) := [
  (.xSlli, fun a n => a <<< n), (.xSrli, fun a n => a >>> n), (.xSrai, fun a n => a.sshiftRight n)]

end Sys2Proof

/-- Register-register ALU instructions: ADD to MAXU (Table 4-5), with R107 for the shifts. -/
def Sys2Proof.Claims.AluResults : Prop :=
  ∀ p ∈ aluTable, ∀ (t : TileId) (rd rs1 rs2 : SReg) (s : Machine.State), Issues s t 4 →
    ∃ v, exec (p.1 t rd rs1 rs2) s = .next v ∧
      SResult t 4 rd (p.2 (rdS (fetched s t 4) t rs1) (rdS (fetched s t 4) t rs2)) (fetched s t 4) v

/-- ADDI to SLTIU, SLLI, SRLI, SRAI, LI, LIH and ADDI32 (Tables 4-5, 4-9). -/
def Sys2Proof.Claims.ImmediateResults : Prop :=
  (∀ p ∈ aluImmTable, ∀ (t : TileId) (rd rs1 : SReg) (imm : BitVec 12) (s : Machine.State), Issues s t 4 →
    ∃ v, exec (p.1 t rd rs1 imm) s = .next v ∧
      SResult t 4 rd (p.2 (rdS (fetched s t 4) t rs1) (imm.signExtend 64)) (fetched s t 4) v) ∧
  (∀ p ∈ shiftTable, ∀ (t : TileId) (rd rs1 : SReg) (sh : BitVec 6) (s : Machine.State), Issues s t 4 →
    ∃ v, exec (p.1 t rd rs1 sh) s = .next v ∧
      SResult t 4 rd (p.2 (rdS (fetched s t 4) t rs1) sh.toNat) (fetched s t 4) v) ∧
  (∀ (t : TileId) (rt rs : SReg) (imm : BitVec 32) (s : Machine.State), Issues s t 8 →
    (∃ v, exec (.xLi t rt imm) s = .next v ∧ SResult t 8 rt (imm.signExtend 64) (fetched s t 8) v) ∧
    (∃ v, exec (.xLih t rt imm) s = .next v ∧
      SResult t 8 rt (imm ++ (rdS (fetched s t 8) t rt).setWidth 32) (fetched s t 8) v) ∧
    ∃ v, exec (.xAddi32 t rt rs imm) s = .next v ∧
      SResult t 8 rt (rdS (fetched s t 8) t rs + imm.signExtend 64) (fetched s t 8) v)

/-- DINS, DEXT and DMOV: fields of the descriptor registers (Table 4-9). -/
def Sys2Proof.Claims.DescriptorRegisters : Prop :=
  ∀ (t : TileId) (da db : DReg) (rt : SReg) (n : BitVec 3) (s : Machine.State), Issues s t 8 →
    (∃ v d, exec (.xDins t da rt n) s = .next v ∧ DResult t 8 da d (fetched s t 8) v ∧
      ∀ i : Nat, d.getLsbD i = if 64 * n.toNat ≤ i ∧ i < 64 * n.toNat + 64 then (rdS (fetched s t 8) t rt).getLsbD (i - 64 * n.toNat)
        else (rdD (fetched s t 8) t da).getLsbD i) ∧
    (∃ v, exec (.xDext t da rt n) s = .next v ∧
      SResult t 8 rt ((rdD (fetched s t 8) t da).extractLsb' (64 * n.toNat) 64) (fetched s t 8) v) ∧
    ∃ v, exec (.xDmov t da db) s = .next v ∧ DResult t 8 da (rdD (fetched s t 8) t db) (fetched s t 8) v

/-- Scalar, immediate and descriptor-register instructions complete with the results of their tables. -/
def Obligations.ScalarResults : Prop :=
  Sys2Proof.Claims.AluResults ∧ Sys2Proof.Claims.ImmediateResults ∧ Sys2Proof.Claims.DescriptorRegisters

namespace Sys2Proof

/-- VOP instructions of two sources, with the function of lanes Vd, Va and Vb. -/
def vecTable3 : List ((TileId → PReg → VReg → VReg → VReg → Instr) × (W32 → W32 → W32 → W32)) := [
  (.vadd, fun _ a b => a + b), (.vsub, fun _ a b => a - b), (.vmul, fun _ a b => a * b),
  (.vand, fun _ a b => a &&& b), (.vor, fun _ a b => a ||| b), (.vxor, fun _ a b => a ^^^ b),
  (.vsll, fun _ a b => a <<< (b.toNat % 32)), (.vsrl, fun _ a b => a >>> (b.toNat % 32)),
  (.vsra, fun _ a b => a.sshiftRight (b.toNat % 32)),
  (.vmin, fun _ a b => if a.toInt < b.toInt then a else b), (.vmax, fun _ a b => if a.toInt < b.toInt then b else a),
  (.vminu, fun _ a b => if a.toNat < b.toNat then a else b), (.vmaxu, fun _ a b => if a.toNat < b.toNat then b else a)]

/-- The FP32 instructions of two sources. -/
def vecFloat3 : List ((TileId → PReg → VReg → VReg → VReg → Instr) × (Nat → Nat → Nat → Nat)) := [
  (.vfadd, fun _ a b => f32Add a b), (.vfsub, fun _ a b => f32Sub a b), (.vfmul, fun _ a b => f32Mul a b), (.vfma, f32Fma),
  (.vfmin, fun _ a b => f32Min a b), (.vfmax, fun _ a b => f32Max a b)]

/-- The FP32 instructions of one source and the conversions. -/
def vecFloat2 : List ((TileId → PReg → VReg → VReg → Instr) × (Nat → Nat)) := [
  (.vfabs, f32Abs), (.vfneg, f32NegOp), (.vfrcp, f32Rcp), (.vfrsq, f32Rsq), (.vfexp2, f32Exp2), (.vflog2, f32Log2),
  (.vcvtF2i, f32ToInt), (.vcvtI2f, intToF32), (.vcvtF2bf16, f32ToBf16), (.vcvtBf162f, bf16ToF32), (.vcvtF2fp16, f32ToF16),
  (.vcvtFp162f, f16ToF32), (.vcvtF2e4m3, f32ToE4m3), (.vcvtE4m32f, e4m3ToF32), (.vcvtF2e5m2, f32ToE5m2), (.vcvtE5m22f, e5m2ToF32)]

/-- The lane compares. -/
def cmpTable : List ((TileId → PReg → PReg → VReg → VReg → Instr) × (W32 → W32 → Prop)) := [
  (.vfeq, fun a b => f32Eq a.toNat b.toNat = true), (.vflt, fun a b => f32Lt a.toNat b.toNat = true),
  (.vfle, fun a b => f32Lt a.toNat b.toNat = true ∨ f32Eq a.toNat b.toNat = true),
  (.vieq, fun a b => a = b), (.vilt, fun a b => a.toInt < b.toInt), (.vile, fun a b => a.toInt ≤ b.toInt),
  (.viltu, fun a b => a.toNat < b.toNat)]

/-- The reductions: the value of an inactive lane and the operation. -/
def reduceTable : List ((TileId → PReg → SReg → VReg → Instr) × W32 × (Nat → Nat → Nat)) := [
  (.vrsum, 0, f32Add), (.vrmax, 0xFF800000, f32Max), (.vrmin, 0x7F800000, f32Min), (.vradd, 0, fun a b => (a + b) % 2 ^ 32)]

/-- The fixed pairwise tree of R112 over lanes `2 ^ k * i` to `2 ^ k * (i + 1) - 1`. -/
def laneTree (f : Nat → Nat → Nat) (x : Nat → Nat) : Nat → Nat → Nat
  | 0, i => x i
  | k + 1, i => f (laneTree f x k (2 * i)) (laneTree f x k (2 * i + 1))

end Sys2Proof

/-- Two-source integer vector instructions, lane by lane (Table 4-7, R110). -/
def Sys2Proof.Claims.VectorIntegerResults : Prop :=
  ∀ p ∈ vecTable3, ∀ (t : TileId) (pg : PReg) (vd va vb : VReg) (s : Machine.State), Issues s t 4 →
    ∃ v, exec (p.1 t pg vd va vb) s = .next v ∧
      LaneResult t pg vd (fun i => p.2 (vlane (rdV (fetched s t 4) t vd) i) (vlane (rdV (fetched s t 4) t va) i)
        (vlane (rdV (fetched s t 4) t vb) i)) (fetched s t 4) v

/-- FP32 vector arithmetic, functions and format conversions, lane by lane (R111, R510, chapter 5). -/
def Sys2Proof.Claims.VectorFloatResults : Prop :=
  (∀ p ∈ vecFloat3, ∀ (t : TileId) (pg : PReg) (vd va vb : VReg) (s : Machine.State), Issues s t 4 →
    ∃ v, exec (p.1 t pg vd va vb) s = .next v ∧
      LaneResult t pg vd (fun i => BitVec.ofNat 32 (p.2 (vlane (rdV (fetched s t 4) t vd) i).toNat
        (vlane (rdV (fetched s t 4) t va) i).toNat (vlane (rdV (fetched s t 4) t vb) i).toNat)) (fetched s t 4) v) ∧
  (∀ p ∈ vecFloat2, ∀ (t : TileId) (pg : PReg) (vd va : VReg) (s : Machine.State), Issues s t 4 →
    ∃ v, exec (p.1 t pg vd va) s = .next v ∧
      LaneResult t pg vd (fun i => BitVec.ofNat 32 (p.2 (vlane (rdV (fetched s t 4) t va) i).toNat)) (fetched s t 4) v)

/-- VMOV, VBCAST, VIOTA, VSHUF, VEXT, VSEL and VINS (R110, R510). -/
def Sys2Proof.Claims.LaneMoves : Prop :=
  ∀ (t : TileId) (pg : PReg) (vd va vb : VReg) (rd rs rs2 : SReg) (s : Machine.State), Issues s t 4 →
    (∃ v, exec (.vmov t pg vd va) s = .next v ∧
      LaneResult t pg vd (fun i => vlane (rdV (fetched s t 4) t va) i) (fetched s t 4) v) ∧
    (∃ v, exec (.vbcast t pg vd rs) s = .next v ∧
      LaneResult t pg vd (fun _ => (rdS (fetched s t 4) t rs).setWidth 32) (fetched s t 4) v) ∧
    (∃ v, exec (.viota t pg vd) s = .next v ∧ LaneResult t pg vd (fun i => BitVec.ofNat 32 i) (fetched s t 4) v) ∧
    (∃ v, exec (.vshuf t pg vd va vb) s = .next v ∧
      LaneResult t pg vd (fun i => vlane (rdV (fetched s t 4) t va) ((vlane (rdV (fetched s t 4) t vb) i).toNat % 64))
        (fetched s t 4) v) ∧
    (∃ v, exec (.vext t pg rd va rs) s = .next v ∧
      SResult t 4 rd ((vlane (rdV (fetched s t 4) t va) ((rdS (fetched s t 4) t rs).toNat % 64)).setWidth 64) (fetched s t 4) v) ∧
    (∃ v w, exec (.vsel t pg vd va vb) s = .next v ∧ VResult t 4 vd w (fetched s t 4) v ∧ ∀ i, i < 64 →
      (LaneActive (fetched s t 4) t pg i → vlane w i = vlane (rdV (fetched s t 4) t va) i) ∧
      (¬ LaneActive (fetched s t 4) t pg i → vlane w i = vlane (rdV (fetched s t 4) t vb) i)) ∧
    ∃ v w, exec (.vins t pg vd rs rs2) s = .next v ∧ VResult t 4 vd w (fetched s t 4) v ∧ ∀ i, i < 64 →
      (LaneActive (fetched s t 4) t pg i ∧ i = (rdS (fetched s t 4) t rs2).toNat % 64 →
        vlane w i = (rdS (fetched s t 4) t rs).setWidth 32) ∧
      (¬ (LaneActive (fetched s t 4) t pg i ∧ i = (rdS (fetched s t 4) t rs2).toNat % 64) →
        vlane w i = vlane (rdV (fetched s t 4) t vd) i)

/-- Vector arithmetic, conversions and lane moves write their active lanes and keep the others. -/
def Obligations.VectorLaneResults : Prop :=
  Sys2Proof.Claims.VectorIntegerResults ∧ Sys2Proof.Claims.VectorFloatResults ∧ Sys2Proof.Claims.LaneMoves

/-- The lane compares (Table 4-7): bit i is set where lane i is active and meets the test (R110). -/
def Sys2Proof.Claims.CompareResults : Prop :=
  ∀ p ∈ cmpTable, ∀ (t : TileId) (pg pd : PReg) (va vb : VReg) (s : Machine.State), Issues s t 4 →
    ∃ v, exec (p.1 t pg pd va vb) s = .next v ∧
      PredResult t pg pd (fun i => p.2 (vlane (rdV (fetched s t 4) t va) i) (vlane (rdV (fetched s t 4) t vb) i))
        (fetched s t 4) v

/-- PAND, POR, PXOR, PNOT, PFIRST and PCNT (Table 4-8, R110, R510). -/
def Sys2Proof.Claims.PredicateResults : Prop :=
  ∀ (t : TileId) (pg pd pa pb : PReg) (rd rs : SReg) (s : Machine.State), Issues s t 4 →
    (∃ v, exec (.pand t pg pd pa pb) s = .next v ∧
      PredResult t pg pd (fun i => (rdP (fetched s t 4) t pa).getLsbD i = true ∧ (rdP (fetched s t 4) t pb).getLsbD i = true)
        (fetched s t 4) v) ∧
    (∃ v, exec (.por t pg pd pa pb) s = .next v ∧
      PredResult t pg pd (fun i => (rdP (fetched s t 4) t pa).getLsbD i = true ∨ (rdP (fetched s t 4) t pb).getLsbD i = true)
        (fetched s t 4) v) ∧
    (∃ v, exec (.pxor t pg pd pa pb) s = .next v ∧
      PredResult t pg pd (fun i => (rdP (fetched s t 4) t pa).getLsbD i ≠ (rdP (fetched s t 4) t pb).getLsbD i)
        (fetched s t 4) v) ∧
    (∃ v, exec (.pnot t pg pd pa) s = .next v ∧
      PredResult t pg pd (fun i => (rdP (fetched s t 4) t pa).getLsbD i = false) (fetched s t 4) v) ∧
    (∃ v, exec (.pfirst t pg pd rs) s = .next v ∧
      PredResult t pg pd (fun i => i < (rdS (fetched s t 4) t rs).toNat) (fetched s t 4) v) ∧
    ∃ v n, exec (.pcnt t pg rd pa) s = .next v ∧ SResult t 4 rd (BitVec.ofNat 64 n) (fetched s t 4) v ∧ n ≤ 64 ∧
      ∃ l : List Nat, l.Nodup ∧ l.length = n ∧
        ∀ i, i ∈ l ↔ i < 64 ∧ LaneActive (fetched s t 4) t pg i ∧ (rdP (fetched s t 4) t pa).getLsbD i = true

/-- VRSUM, VRMAX, VRMIN and VRADD over the pairwise tree (R112). -/
def Sys2Proof.Claims.ReductionResults : Prop :=
  ∀ p ∈ reduceTable, ∀ (t : TileId) (pg : PReg) (rd : SReg) (va : VReg) (x : Nat → Nat) (s : Machine.State), Issues s t 4 →
    (∀ i, i < 64 → (LaneActive (fetched s t 4) t pg i → x i = (vlane (rdV (fetched s t 4) t va) i).toNat) ∧
      (¬ LaneActive (fetched s t 4) t pg i → x i = p.2.1.toNat)) →
    ∃ v, exec (p.1 t pg rd va) s = .next v ∧
      SResult t 4 rd (BitVec.ofNat 64 (laneTree p.2.2 x 6 0)) (fetched s t 4) v

/-- Lane compares, predicate operations, and reductions over the fixed pairwise tree. -/
def Obligations.CompareAndReduce : Prop :=
  Sys2Proof.Claims.CompareResults ∧ Sys2Proof.Claims.PredicateResults ∧ Sys2Proof.Claims.ReductionResults

namespace Sys2Proof

/-- The scalar loads: size in bytes, and how the number read is extended. -/
def loadTable : List ((TileId → SReg → SReg → BitVec 12 → Instr) × Nat × (Nat → Word)) := [
  (.xLb, 1, fun x => (BitVec.ofNat 8 x).signExtend 64), (.xLh, 2, fun x => (BitVec.ofNat 16 x).signExtend 64),
  (.xLw, 4, fun x => (BitVec.ofNat 32 x).signExtend 64), (.xLd, 8, fun x => BitVec.ofNat 64 x),
  (.xLbu, 1, fun x => BitVec.ofNat 64 x), (.xLhu, 2, fun x => BitVec.ofNat 64 x), (.xLwu, 4, fun x => BitVec.ofNat 64 x)]

/-- The scalar stores and their size. -/
def storeTable : List ((TileId → SReg → SReg → BitVec 12 → Instr) × Nat) := [(.xSb, 1), (.xSh, 2), (.xSw, 4), (.xSd, 8)]

/-- The vector loads and the vector stores: bytes a lane. -/
def vloadTable : List ((TileId → PReg → VReg → SReg → BitVec 10 → Instr) × Nat) := [(.vld, 4), (.vldH, 2), (.vldB, 1)]

def vstoreTable : List ((TileId → PReg → VReg → SReg → BitVec 10 → Instr) × Nat) := [(.vst, 4), (.vstH, 2), (.vstB, 1)]

/-- Effective address of a scalar access of `n` bytes: S[RS1] + sext(IMM12), its low bits ignored (R107). -/
def scalarAddr (u : Machine.State) (t : TileId) (rs1 : SReg) (imm : BitVec 12) (n : Nat) : Nat :=
  (rdS u t rs1 + imm.signExtend 64).toNat / n * n

/-- Effective address of a vector access. -/
def vectorAddr (u : Machine.State) (t : TileId) (rs1 : SReg) (imm : BitVec 10) (n : Nat) : Nat :=
  (rdS u t rs1 + imm.signExtend 64 * 64).toNat / n * n

/-- Effective address of DLD and DST. -/
def descAddr (u : Machine.State) (t : TileId) (rs : SReg) (imm : BitVec 32) : Nat :=
  (rdS u t rs + imm.signExtend 64).toNat / 64 * 64

end Sys2Proof

/-- The scalar loads and DLD (Table 4-6, R107). -/
def Sys2Proof.Claims.LoadResults : Prop :=
  ∀ (t : TileId) (rd rs1 : SReg) (s u : Machine.State) (la : Nat),
    (∀ p ∈ loadTable, ∀ imm : BitVec 12, Issues s t 4 →
      Reaches t (scalarAddr (fetched s t 4) t rs1 imm p.2.1) true false la (fetched s t 4) u → Sound u la p.2.1 →
      ∃ v, exec (p.1 t rd rs1 imm) s = .next v ∧ SResult t 4 rd (p.2.2 (memNat u la p.2.1)) u v) ∧
    (∀ (da : DReg) (imm : BitVec 32), Issues s t 8 →
      Reaches t (descAddr (fetched s t 8) t rs1 imm) true false la (fetched s t 8) u → Sound u la 64 →
      ∃ v, exec (.xDld t da rs1 imm) s = .next v ∧ DResult t 8 da (BitVec.ofNat 512 (memNat u la 64)) u v)

/-- The scalar stores and DST (Table 4-6, R107). -/
def Sys2Proof.Claims.StoreResults : Prop :=
  ∀ (t : TileId) (rs1 : SReg) (s u : Machine.State) (la : Nat),
    (∀ p ∈ storeTable, ∀ (rs2 : SReg) (imm : BitVec 12), Issues s t 4 →
      Reaches t (scalarAddr (fetched s t 4) t rs1 imm p.2) false true la (fetched s t 4) u → Sound u la p.2 →
      ∃ v w, exec (p.1 t rs1 rs2 imm) s = .next v ∧ Stored la p.2 (rdS (fetched s t 4) t rs2).toNat u w ∧
        XRetired t (xPc u t + 4) { (u.tile t).x with seq := (u.tile t).x.seq + 1 } w v) ∧
    (∀ (da : DReg) (imm : BitVec 32), Issues s t 8 →
      Reaches t (descAddr (fetched s t 8) t rs1 imm) false true la (fetched s t 8) u → Sound u la 64 →
      ∃ v w, exec (.xDst t da rs1 imm) s = .next v ∧ Stored la 64 (rdD (fetched s t 8) t da).toNat u w ∧
        XRetired t (xPc u t + 8) { (u.tile t).x with seq := (u.tile t).x.seq + 1 } w v)

/-- The atomic adds (R78, R109). -/
def Sys2Proof.Claims.AtomicResults : Prop :=
  ∀ (t : TileId) (rd rs1 rs2 : SReg) (wide : Bool) (n la : Nat) (s u : Machine.State), n = (if wide then 8 else 4) → Issues s t 4 →
    Reaches t ((rdS (fetched s t 4) t rs1).toNat / n * n) true true la (fetched s t 4) u → n ∣ la →
    (∀ o, place la ≠ .moraine o) → Sound u la n →
    (∃ v w, exec (if wide then .xAaddD t rs1 rs2 else .xAaddW t rs1 rs2) s = .next v ∧
      Stored la n (memNat u la n + (rdS (fetched s t 4) t rs2).toNat) u w ∧
      XRetired t (xPc u t + 4) { (u.tile t).x with seq := (u.tile t).x.seq + 1 } w v) ∧
    ∃ v w, exec (if wide then .xAaddrD t rd rs1 rs2 else .xAaddrW t rd rs1 rs2) s = .next v ∧
      Stored la n (memNat u la n + (rdS (fetched s t 4) t rs2).toNat) u w ∧
      SResult t 4 rd (BitVec.ofNat 64 (memNat u la n)) w v

/-- The vector loads (R110, R113); the bytes of an inactive lane are neither read nor translated. -/
def Sys2Proof.Claims.VectorLoads : Prop :=
  ∀ (t : TileId) (pg : PReg) (vd : VReg) (rs1 : SReg) (imm : BitVec 10) (s : Machine.State) (la : Nat), Issues s t 4 →
    (∀ p ∈ vloadTable,
      (∀ i j, i < 64 → j < p.2 → LaneActive (fetched s t 4) t pg i →
        Held (fetched s t 4) t (vectorAddr (fetched s t 4) t rs1 imm 64 + (p.2 * i + j)) true false (la + (p.2 * i + j))) →
      ∃ v, exec (p.1 t pg vd rs1 imm) s = .next v ∧
        LaneResult t pg vd (fun i => BitVec.ofNat 32 (memNat (fetched s t 4) (la + p.2 * i) p.2)) (fetched s t 4) v) ∧
    (∀ u, (∃ i, i < 64 ∧ LaneActive (fetched s t 4) t pg i) →
      Reaches t (vectorAddr (fetched s t 4) t rs1 imm 4) true false la (fetched s t 4) u → Sound u la 4 →
      ∃ v, exec (.vldBc t pg vd rs1 imm) s = .next v ∧
        LaneResult t pg vd (fun _ => BitVec.ofNat 32 (memNat u la 4)) u v)

/-- Scalar, descriptor and vector loads read their aligned address and write their register. -/
def Obligations.LoadsRead : Prop :=
  Sys2Proof.Claims.LoadResults ∧ Sys2Proof.Claims.VectorLoads

/-- The vector stores (R110, R113); the bytes of an inactive lane are not written. Stored bytes that are themselves table
words of another lane's walk are left out (R100, log entry 56). -/
def Sys2Proof.Claims.VectorStores : Prop :=
  ∀ (t : TileId) (pg : PReg) (vd : VReg) (rs1 : SReg) (imm : BitVec 10) (s : Machine.State) (la : Nat), Issues s t 4 →
    ∀ p ∈ vstoreTable,
      (∀ i j, i < 64 → j < p.2 → LaneActive (fetched s t 4) t pg i →
        Held (fetched s t 4) t (vectorAddr (fetched s t 4) t rs1 imm 64 + (p.2 * i + j)) false true (la + (p.2 * i + j))) →
      (∀ i j k l, i < 64 → j < p.2 → LaneActive (fetched s t 4) t pg i → k < 64 → l < p.2 → LaneActive (fetched s t 4) t pg k →
        la + (p.2 * i + j) ∉ walkBytes (fetched s t 4) t (vectorAddr (fetched s t 4) t rs1 imm 64 + (p.2 * k + l))) →
      ∃ v w, exec (p.1 t pg vd rs1 imm) s = .next v ∧ OnlyMem (fetched s t 4) w ∧
        (∀ i j, i < 64 → j < p.2 → LaneActive (fetched s t 4) t pg i →
          rdByte w (la + (p.2 * i + j)) = (vlane (rdV (fetched s t 4) t vd) i).extractLsb' (8 * j) 8) ∧
        (∀ a, (∀ i j, i < 64 → j < p.2 → LaneActive (fetched s t 4) t pg i → a ≠ la + (p.2 * i + j)) →
          rdByte w a = rdByte (fetched s t 4) a) ∧
        XRetired t (xPc (fetched s t 4) t + 4)
          { ((fetched s t 4).tile t).x with seq := ((fetched s t 4).tile t).x.seq + 1 } w v

/-- Stores and atomic adds write exactly their bytes; AADDR returns the old value. -/
def Obligations.StoresAndAtomicsWrite : Prop :=
  Sys2Proof.Claims.StoreResults ∧ Sys2Proof.Claims.VectorStores ∧ Sys2Proof.Claims.AtomicResults

namespace Sys2Proof

/-- The branches: when S[RS1], S[RS2] take it. -/
def branchTable : List ((TileId → SReg → SReg → BitVec 13 → Instr) × (Word → Word → Prop)) := [
  (.xBeq, fun a b => a = b), (.xBne, fun a b => a ≠ b), (.xBlt, fun a b => a.toInt < b.toInt), (.xBge, fun a b => b.toInt ≤ a.toInt),
  (.xBltu, fun a b => a.toNat < b.toNat), (.xBgeu, fun a b => b.toNat ≤ a.toNat)]

/-- PC + 4 × offset, in 48 bits. -/
def relTarget (u : Machine.State) (t : TileId) (off : Int) : Nat := (((xPc u t : Int) + 4 * off) % 2 ^ 48).toNat

/-- From `u`, JAL or JALR has retired to `pc` with `S[rd]` set to the address of the next instruction. -/
def Linked (t : TileId) (rd : SReg) (pc : Nat) (u v : Machine.State) : Prop :=
  (∀ r, rdS v t r = if r = rd ∧ r ≠ 0 then BitVec.ofNat 64 (xPc u t + 4) else rdS u t r) ∧
  XRetired t pc { (u.tile t).x with s := (v.tile t).x.s } u v

/-- The tile block's registers whose writes have no effect beside the plain one (R108): not a semaphore, window, swizzle, control or
engine register. -/
def PlainOff (o : Nat) : Prop :=
  ¬(0x40 ≤ o ∧ o < 0x60) ∧ ¬(0x100 ≤ o ∧ o < 0x200) ∧ ¬(0x400 ≤ o ∧ o < 0x600) ∧ ¬(0x2000 ≤ o ∧ o < 0x4000) ∧ ¬(0x6000 ≤ o ∧ o < 0x9000)

end Sys2Proof

/-- Branches, BPANY, BPNONE, JAL and JALR (Table 4-6). -/
def Sys2Proof.Claims.BranchResults : Prop :=
  ∀ (t : TileId) (rd rs1 rs2 : SReg) (s : Machine.State), Issues s t 4 →
    (∀ p ∈ branchTable, ∀ off : BitVec 13, ∃ v, exec (p.1 t rs1 rs2 off) s = .next v ∧
      (p.2 (rdS (fetched s t 4) t rs1) (rdS (fetched s t 4) t rs2) →
        XRetired t (relTarget (fetched s t 4) t off.toInt) ((fetched s t 4).tile t).x (fetched s t 4) v) ∧
      (¬ p.2 (rdS (fetched s t 4) t rs1) (rdS (fetched s t 4) t rs2) →
        XRetired t (xPc (fetched s t 4) t + 4) ((fetched s t 4).tile t).x (fetched s t 4) v)) ∧
    (∀ (p : PReg) (off : BitVec 13),
      (∃ v, exec (.xBpany t p off) s = .next v ∧
        XRetired t (if rdP (fetched s t 4) t p = 0 then xPc (fetched s t 4) t + 4 else relTarget (fetched s t 4) t off.toInt)
          ((fetched s t 4).tile t).x (fetched s t 4) v) ∧
      ∃ v, exec (.xBpnone t p off) s = .next v ∧
        XRetired t (if rdP (fetched s t 4) t p = 0 then relTarget (fetched s t 4) t off.toInt else xPc (fetched s t 4) t + 4)
          ((fetched s t 4).tile t).x (fetched s t 4) v) ∧
    (∀ off : BitVec 21, ∃ v, exec (.xJal t rd off) s = .next v ∧
      Linked t rd (relTarget (fetched s t 4) t off.toInt) (fetched s t 4) v) ∧
    ∀ imm : BitVec 12, ∃ v, exec (.xJalr t rd rs1 imm) s = .next v ∧
      Linked t rd (rdS (fetched s t 4) t rs1 + imm.signExtend 64).toNat (fetched s t 4) v

/-- NOP, IFLUSH, BRK (R125), FENCE, FENCE.E and END (Table 4-11). That FENCE waits for faults under way is log entry 38. -/
def Sys2Proof.Claims.SystemResults : Prop :=
  ∀ (t : TileId) (s : Machine.State), Issues s t 4 →
    (∃ v, exec (.xNop t) s = .next v ∧
      XRetired t (xPc (fetched s t 4) t + 4) ((fetched s t 4).tile t).x (fetched s t 4) v) ∧
    (∃ v, exec (.xIflush t) s = .next v ∧
      XRetired t (xPc (fetched s t 4) t + 4) ((fetched s t 4).tile t).x (fetched s t 4) v) ∧
    (∃ v, exec (.xBrk t) s = .next v ∧
      (xDebug (fetched s t 4) t = true ∧ ((fetched s t 4).tile t).x.skipBrk = false →
        xState v t = 3 ∧ xPc v t = xPc (fetched s t 4) t ∧ OnlyTile t [R.XC_STATUS t.toNat] (fetched s t 4) v ∧
        v.tile t = { (fetched s t 4).tile t with x := { ((fetched s t 4).tile t).x with skipBrk := true } }) ∧
      (¬ (xDebug (fetched s t 4) t = true ∧ ((fetched s t 4).tile t).x.skipBrk = false) →
        XRetired t (xPc (fetched s t 4) t + 4) ((fetched s t 4).tile t).x (fetched s t 4) v)) ∧
    (∃ v, exec (.xFence t) s = .next v ∧
      (WritesDone (fetched s t 4) t →
        XRetired t (xPc (fetched s t 4) t + 4) ((fetched s t 4).tile t).x (fetched s t 4) v) ∧
      (¬ WritesDone (fetched s t 4) t → XBlocked t 0 .fence (fetched s t 4) v)) ∧
    (∃ v, exec (.xFenceE t) s = .next v ∧
      (WritesDone (fetched s t 4) t ∧ UnitsDone (fetched s t 4) t →
        XRetired t (xPc (fetched s t 4) t + 4) ((fetched s t 4).tile t).x (fetched s t 4) v) ∧
      (¬ (WritesDone (fetched s t 4) t ∧ UnitsDone (fetched s t 4) t) → XBlocked t 0 .fenceE (fetched s t 4) v)) ∧
    ∃ v, exec (.xEnd t) s = .next v ∧
      (WritesDone (fetched s t 4) t ∧ UnitsDone (fetched s t 4) t ∧ StreamsDone (fetched s t 4) t →
        xState v t = 0 ∧ (v.tile t).x.launch = none ∧
        rraw v (R.XC_RETIRED t.toNat) = min (rraw (fetched s t 4) (R.XC_RETIRED t.toNat) + 1) (2 ^ 64 - 1) ∧
        (rget (fetched s t 4) (R.TILE_STATE t.toNat) F.TILE_STATE_STATE ≠ 2 →
          rget (fetched s t 4) (R.PDC_DOM_STAT (16 + tileDie t)) F.PDC_DOM_STAT_STATE ≠ 4 →
          rget v (R.TILE_STATE t.toNat) F.TILE_STATE_STATE = 0) ∧
        OnlyTile t (R.TILE_STATE t.toNat :: retireRegs t) (fetched s t 4) v) ∧
      (¬ (WritesDone (fetched s t 4) t ∧ UnitsDone (fetched s t 4) t ∧ StreamsDone (fetched s t 4) t) →
        XBlocked t 0 .finish (fetched s t 4) v)

/-- Branches, jumps, NOP, IFLUSH, BRK, the fences and END retire, halt or wait as the tables say. -/
def Obligations.BranchAndSystem : Prop :=
  Sys2Proof.Claims.BranchResults ∧ Sys2Proof.Claims.SystemResults

/-- CSR instructions on aligned offsets of the own tile's register block (R108). -/
def Obligations.CsrAccesses : Prop :=
  ∀ (t : TileId) (rd rs1 : SReg) (imm : BitVec 12) (s : Machine.State) (o : Nat), Issues s t 4 →
    o = (rdS (fetched s t 4) t rs1 + imm.signExtend 64).toNat → o < 2 ^ 16 →
    (o % 4 = 0 → ∃ v, exec (.xCsrrW t rd rs1 imm) s = .next v ∧
      SResult t 4 rd (BitVec.ofNat 64 (regRead4 (0x8000000 + 0x10000 * t.toNat + o) (fetched s t 4)).1)
        (regRead4 (0x8000000 + 0x10000 * t.toNat + o) (fetched s t 4)).2 v) ∧
    (o % 8 = 0 → ∃ v w, exec (.xCsrrD t rd rs1 imm) s = .next v ∧
      w = regRead4 (0x8000000 + 0x10000 * t.toNat + o + 4) (regRead4 (0x8000000 + 0x10000 * t.toNat + o) (fetched s t 4)).2 ∧
      SResult t 4 rd (BitVec.ofNat 64 ((regRead4 (0x8000000 + 0x10000 * t.toNat + o) (fetched s t 4)).1 + w.1 * 2 ^ 32)) w.2 v) ∧
    (0x2000 ≤ o ∧ o < 0x4000 →
      (o % 4 = 0 → ∃ v, exec (.xCsrwW t rd rs1 imm) s = .next v ∧
        XRetired t (xPc (fetched s t 4) t + 4) ((fetched s t 4).tile t).x (fetched s t 4) v) ∧
      (o % 8 = 0 → ∃ v, exec (.xCsrwD t rd rs1 imm) s = .next v ∧
        XRetired t (xPc (fetched s t 4) t + 4) ((fetched s t 4).tile t).x (fetched s t 4) v)) ∧
    (∀ r, PlainOff o → (0x4000 ≤ o ∧ o < 0x6000 → ((fetched s t 4).tile t).f.load = none) → (fetched s t 4).enabled t = true →
      findReg (0x8000000 + 0x10000 * t.toNat + o) = some (0x8000000 + 0x10000 * t.toNat + o, r) →
      (o % 4 = 0 → r.bytes = 4 → ∃ v, exec (.xCsrwW t rd rs1 imm) s = .next v ∧
        XRetired t (xPc (fetched s t 4) t + 4) ((fetched s t 4).tile t).x
          (rput (0x8000000 + 0x10000 * t.toNat + o) (regMerge r (rraw (fetched s t 4) (0x8000000 + 0x10000 * t.toNat + o)) (2 ^ 32 - 1)
            ((rdS (fetched s t 4) t rd).toNat % 2 ^ 32)) (fetched s t 4)) v) ∧
      (o % 8 = 0 → r.bytes = 8 → ∃ v, exec (.xCsrwD t rd rs1 imm) s = .next v ∧
        XRetired t (xPc (fetched s t 4) t + 4) ((fetched s t 4).tile t).x
          (rput (0x8000000 + 0x10000 * t.toNat + o) (regMerge r (rraw (fetched s t 4) (0x8000000 + 0x10000 * t.toNat + o)) (2 ^ 64 - 1)
            (rdS (fetched s t 4) t rd).toNat) (fetched s t 4)) v))

/-- SACQ, SPOST, SSET, SRD and STRY on a semaphore of the own tile (Table 3-6, Table 4-11, R82, R117). -/
def Sys2Proof.Claims.SemaphoreInstructions : Prop :=
  ∀ (t : TileId) (rs : SReg) (imm : BitVec 11) (n : SemIdx) (s u : Machine.State) (c : Nat), Issues s t 4 → u = fetched s t 4 →
    (c = countOp u t rs imm 16 →
      (∃ v, exec (.xSacq t rs imm n) s = .next v ∧
        (c = 0 → XRetired t (xPc u t + 4) (u.tile t).x u v) ∧
        (c ≠ 0 → semWaiters u t n = [] ∧ c ≤ semVal u t n →
          ∃ w, SemValue t n (semVal u t n - c) u w ∧ XRetired t (xPc u t + 4) (u.tile t).x w v) ∧
        (c ≠ 0 → ¬ (semWaiters u t n = [] ∧ c ≤ semVal u t n) →
          XBlocked t n.toNat (.sacq n false) (setWaiters t n (semWaiters u t n ++ [⟨.xcore, c⟩]) u) v)) ∧
      (∃ v, exec (.xSpost t rs imm n) s = .next v ∧
        (c = 0 → XRetired t (xPc u t + 4) (u.tile t).x u v) ∧
        (c ≠ 0 → PostsAtOnce u t → ∃ w, SemPosted t n c u w ∧
          XRetired t (xPc u t + 4) { (u.tile t).x with seq := (u.tile t).x.seq + 1 } w v) ∧
        (c ≠ 0 → ¬ PostsAtOnce u t → (u.tile t).x.held.length < 8 →
          XRetired t (xPc u t + 4) { (u.tile t).x with
            seq := (u.tile t).x.seq + 1, held := (u.tile t).x.held ++ [⟨.own n, c, xPc u t, (u.tile t).x.seq⟩] } u v) ∧
        (c ≠ 0 → ¬ PostsAtOnce u t → 8 ≤ (u.tile t).x.held.length →
          XBlocked t n.toNat (.post ⟨.own n, c, xPc u t, (u.tile t).x.seq⟩) u v)) ∧
      ∃ v w x f, exec (.xSset t rs imm n) s = .next v ∧ (linkBusy u t (n.extractLsb' 1 5) = false → x = c ∧ f = u.freeCtr) ∧
        SemValue t n x { u with freeCtr := f } w ∧ XRetired t (xPc u t + 4) (u.tile t).x w v) ∧
    (∃ v, exec (.xSrd t rs n) s = .next v ∧ SResult t 4 rs (BitVec.ofNat 64 (semVal u t n)) u v) ∧
    (semWaiters u t n = [] → ∃ v w, exec (.xStry t rs imm n) s = .next v ∧
      (imm.toNat ≤ semVal u t n → SemValue t n (semVal u t n - imm.toNat) u w ∧ SResult t 4 rs 1 w v) ∧
      (semVal u t n < imm.toNat → w = u ∧ SResult t 4 rs 0 u v)) ∧
    (∀ a l, semWaiters u t n = a :: l → semVal u t n < a.n → ∃ v, exec (.xStry t rs imm n) s = .next v ∧ SResult t 4 rs 0 u v)

/-- RPOST on the own tile, on another tile of the module, and on a module without a valid route (R117, R118, R356). -/
def Sys2Proof.Claims.RemotePosts : Prop :=
  ∀ (t : TileId) (rs rt : SReg) (treg : Bool) (tile x : TileId) (count : BitVec 16) (n : SemIdx) (s u : Machine.State),
    Issues s t 8 → u = fetched s t 8 → x = (if treg then (rdS u t rt).extractLsb' 0 11 else tile) →
    ∃ v, exec (.xRpost t rs rt treg tile count n) s = .next v ∧
      (count = 0 → XRetired t (xPc u t + 8) (u.tile t).x u v) ∧
      (rs = 0 ∨ (rdS u t rs).toNat % 2 ^ 15 = u.devId → count ≠ 0 → PostsAtOnce u t →
        (x = t → ∃ w, SemPosted t n count.toNat u w ∧
          XRetired t (xPc u t + 8) { (u.tile t).x with seq := (u.tile t).x.seq + 1 } w v) ∧
        (x ≠ t → XRetired t (xPc u t + 8) { (u.tile t).x with seq := (u.tile t).x.seq + 1 }
          { u with txns := mins u.txns u.txnNext
                     ⟨.xwrite t (xPc u t) (u.tile t).x.seq, .tile x, 0, .post x n count.toNat, .request⟩
                   txnNext := u.txnNext + 1 } v)) ∧
      (¬ (rs = 0 ∨ (rdS u t rs).toNat % 2 ^ 15 = u.devId) → count ≠ 0 → PostsAtOnce u t →
        bit (rget u (R.MOS_ROUTE ((rdS u t rs).toNat % 2 ^ 15)) F.MOS_ROUTE_ENTRY) 31 = false →
        XRetired t (xPc u t + 8) { (u.tile t).x with
          seq := (u.tile t).x.seq + 1, faults := (u.tile t).x.faults ++ [⟨4, .protection, xPc u t, 0⟩],
          failed := some ((u.tile t).x.failed.elim (u.tile t).x.seq (min (u.tile t).x.seq)) } u v) ∧
      (count ≠ 0 → ¬ PostsAtOnce u t → 8 ≤ (u.tile t).x.held.length → xState v t = 2 ∧ xPc v t = xPc u t)

/-- SACQ, SPOST, SSET, SRD, STRY and RPOST: grants, waits, saturating posts, held posts. -/
def Obligations.SemaphoresAndPosts : Prop :=
  Sys2Proof.Claims.SemaphoreInstructions ∧ Sys2Proof.Claims.RemotePosts

/-- The WIN, EWAIT, ESTAT, LHINT and slot-status instructions (Table 4-11). -/
def Obligations.WindowsAndWaits : Prop :=
  ∀ (t : TileId) (rs : SReg) (imm : BitVec 11) (w : WinIdx) (sl : SlotIdx) (n : BitVec 4) (cls : BitVec 2) (s u : Machine.State),
    Issues s t 4 → u = fetched s t 4 →
    (∃ v, exec (.xWopen t rs w) s = .next v ∧
      (winIsOpen u t w = true →
        XBlocked t w.toNat (.reopen w) (setReopen t w (some 0) u) v) ∧
      (winIsOpen u t w = false → rs = 0 → 1 ≤ winLen u t w ∧ winBase u t w + winLen u t w ≤ 24576 →
        ∃ x, winIsOpen x t w = true ∧ winCount x t w = 0 ∧
          OnlyRegs [R.WIN_CTL t.toNat w.toNat, R.WIN_COUNT t.toNat w.toNat] u x ∧ XRetired t (xPc u t + 4) (u.tile t).x x v) ∧
      (winIsOpen u t w = false → rs = 0 → ¬ (1 ≤ winLen u t w ∧ winBase u t w + winLen u t w ≤ 24576) →
        v = preciseFault t .protection 0 u)) ∧
    (∃ v x, exec (.xWclose t w) s = .next v ∧ winIsOpen x t w = false ∧ winReopen x t w = (if winIsOpen u t w then none else winReopen u t w) ∧
      winCount x t w = winCount u t w ∧ OnlyTile t [R.WIN_CTL t.toNat w.toNat] u x ∧ XRetired t (xPc u t + 4) (x.tile t).x x v) ∧
    (∃ v, exec (.xWwait t rs imm w) s = .next v ∧
      (countOp u t rs imm 32 ≤ winCount u t w → XRetired t (xPc u t + 4) (u.tile t).x u v) ∧
      (winCount u t w < countOp u t rs imm 32 → XBlocked t w.toNat (.wwait w (countOp u t rs imm 32)) u v)) ∧
    (∃ v, exec (.xWcnt t rs w) s = .next v ∧ SResult t 4 rs (BitVec.ofNat 64 (winCount u t w)) u v) ∧
    (∃ v, exec (.xEwaitCe t n) s = .next v ∧
      ((u.tile t).ce.length ≤ n.toNat → XRetired t (xPc u t + 4) (u.tile t).x u v) ∧
      (n.toNat < (u.tile t).ce.length → XBlocked t 0 (.ewaitCe n.toNat) u v)) ∧
    (∃ v, exec (.xEwaitGme t n) s = .next v ∧
      ((u.tile t).gme.length ≤ n.toNat → XRetired t (xPc u t + 4) (u.tile t).x u v) ∧
      (n.toNat < (u.tile t).gme.length → XBlocked t 0 (.ewaitGme n.toNat) u v)) ∧
    (∃ v, exec (.xEstat t rs) s = .next v ∧
      SResult t 4 rs (BitVec.ofNat 64 ((u.tile t).ce.length + 256 * (u.tile t).gme.length)) u v) ∧
    (∃ v, exec (.xLhint t cls) s = .next v ∧ XRetired t (xPc u t + 4) { (u.tile t).x with hint := some cls } u v) ∧
    (∃ v, exec (.xSstat t rs sl) s = .next v ∧
      SResult t 4 rs (BitVec.ofNat 64 (rraw u (R.SLOT_STATE t.toNat sl.toNat) % 2 ^ 13 +
        rget u (R.SLOT_LANDED t.toNat sl.toNat) F.SLOT_LANDED_BUFS * 2 ^ 32)) u v) ∧
    ∃ v, exec (.xSwait t rs imm sl) s = .next v ∧
      (slotState u t sl = 0 ∨ slotState u t sl = 7 ∨
          (countOp u t rs imm 32 ≠ 0 ∧ countOp u t rs imm 32 ≤ rget u (R.SLOT_LANDED t.toNat sl.toNat) F.SLOT_LANDED_BUFS) →
        XRetired t (xPc u t + 4) (u.tile t).x u v) ∧
      (¬ (slotState u t sl = 0 ∨ slotState u t sl = 7 ∨
          (countOp u t rs imm 32 ≠ 0 ∧ countOp u t rs imm 32 ≤ rget u (R.SLOT_LANDED t.toNat sl.toNat) F.SLOT_LANDED_BUFS)) →
        XBlocked t sl.toNat (.swait sl (countOp u t rs imm 32)) u v)

namespace Sys2Proof

/-- The engine instructions of three descriptors: the operation, and whether the CE takes it. -/
def engTable : List ((TileId → DReg → DReg → DReg → EngImm → Instr) × EngOp × Bool) := [
  (.ceMm, .ceMm, true), (.gmeGather, .gather, false), (.gmeSegred, .segred, false), (.gmeMerge, .merge, false),
  (.gmeScatter, .scatter, false), (.topk, .topk, false), (.bucket, .bucket, false), (.cut, .cut, false), (.place, .place, false),
  (.join, .join, false)]

/-- The engine queue of a tile. -/
def engQueue (u : Machine.State) (t : TileId) (isCe : Bool) : List EngCmd := if isCe then (u.tile t).ce else (u.tile t).gme

/-- An engine queue with an instruction put at its end. -/
def withEng (t : TileId) (isCe : Bool) (e : EngCmd) (u : Machine.State) : Machine.State :=
  u.modTile t (fun c => if isCe then { c with ce := c.ce ++ [e] } else { c with gme := c.gme ++ [e] })

/-- The X-core after an instruction of tile `t` that went to a unit outside the tile. -/
def unitX' (u : Machine.State) (t : TileId) (x : UnitOut) : XCore :=
  { (u.tile t).x with units := (u.tile t).x.units ++ [x] }

/-- The Collective Engine of a group is at rest: its descriptor is valid, the group not FAILED, no segment waits and fewer than 8
are in flight. -/
def EngineFree (u : Machine.State) (g : GroupId) : Prop :=
  grpRefused u g.toNat = false ∧ gState u g.toNat ≠ 2 ∧ u.segQ = [] ∧ u.earlySeg = [] ∧ u.waitSeg = [] ∧
    segsOf u (gEngine g.toNat) < 8

/-- Elements that a tensor descriptor names. -/
def elems (td : TDesc) : Nat := tExt td 0 * rowCount td

/-- The operands of a COLL.SEG: descriptors that R152 does not refuse, of the group's element type; a contribution of at most
SEG_ELEMS elements (R366); and a destination of the result's size (R365). -/
def CollFits (u : Machine.State) (g : GroupId) (da dc : DWord) : Prop :=
  let n := elems (tdOf da)
  let ok (d : DWord) : Prop := tdRefused (fun c => c == (if grpBf16 u g.toNat then 1 else 0)) (tdOf d) = false
  ok da ∧ ok dc ∧ n ≤ gSegElems u g.toNat ∧ (gTsegKind u g.toNat = 1 → n % gRanks u g.toNat = 0) ∧
    elems (tdOf dc) = if gTsegKind u g.toNat = 1 then n / gRanks u g.toNat else if gTsegKind u g.toNat = 2 then gRanks u g.toNat * n else n

end Sys2Proof

/-- CE.MM, CE.GROUPED and the GME instructions at issue (R114). -/
def Sys2Proof.Claims.EngineIssue : Prop :=
  ∀ (t : TileId) (s u : Machine.State) (imm : EngImm), Issues s t 8 → u = fetched s t 8 →
    (∀ p ∈ engTable, ∀ da db dc : DReg, p.2.2 = true ∨ imm.ta = false ∧ imm.tb = false →
      ∃ v, exec (p.1 t da db dc imm) s = .next v ∧
        ((engQueue u t p.2.2).length < 8 →
          XRetired t (xPc u t + 8) { (u.tile t).x with seq := (u.tile t).x.seq + 1 }
            (withEng t p.2.2 ⟨p.2.1, rdD u t da, rdD u t db, rdD u t dc, 0, 0, imm, xPc u t, .queued, none, [], none, false, (u.tile t).x.seq⟩ u)
            v) ∧
        (8 ≤ (engQueue u t p.2.2).length → v = u)) ∧
    (∀ (da : DReg) (rs rt : SReg), ∃ v, exec (.ceGrouped t da rs rt imm) s = .next v ∧
      ((u.tile t).ce.length < 8 →
        XRetired t (xPc u t + 8) { (u.tile t).x with seq := (u.tile t).x.seq + 1 }
          (withEng t true ⟨.ceGrouped, rdD u t da, rdD u t 0, rdD u t 0, rdS u t rs, rdS u t rt, imm, xPc u t, .queued, none, [], none, false,
            (u.tile t).x.seq⟩ u) v) ∧
      (8 ≤ (u.tile t).ce.length → v = u))

/-- COLL.SEG, COLL.NULL (R116, R366), UPD.POST (R320), RGN.ACQ and RGN.REL (R304) at issue. -/
def Sys2Proof.Claims.UnitInstructions : Prop :=
  ∀ (t : TileId) (s u : Machine.State) (da dc : DReg) (rs : SReg) (link : PairIdx) (en : Bool), Issues s t 8 → u = fetched s t 8 →
    (∀ (g : GroupId) (label : BitVec 14) (null : Bool),
      ((u.tile t).x.units.filter (·.isColl)).length < 8 →
      ∃ v, exec (if null then .collNull t rs g link en label else .collSeg t da dc rs g link en label) s = .next v ∧
        (gEpoch u g.toNat ≠ (rdS u t rs).toNat % 2 ^ 32 →
          XRetired t (xPc u t + 8) { (u.tile t).x with faults := (u.tile t).x.faults ++ [⟨4, .groupEpoch, xPc u t, 0⟩] } u v) ∧
        (gEpoch u g.toNat = (rdS u t rs).toNat % 2 ^ 32 → EngineFree u g → (null = false → CollFits u g (rdD u t da) (rdD u t dc)) →
          ∃ w x, w.segs = u.segs ++ [x] ∧ x.group = g ∧ x.seq = gSeq u g.toNat ∧ x.label = label.toNat ∧
            x.owner = .tile t u.txnNext ∧ x.null = null ∧ gSeq w g.toNat = (gSeq u g.toNat + 1) % 2 ^ 32 ∧ gState w g.toNat = 1 ∧
            noColl w = noColl u ∧ w.txnNext = u.txnNext + 1 ∧
            XRetired t (xPc u t + 8) (unitX' u t ⟨u.txnNext, true, xPc u t, if en then some link else none, true⟩) w v)) ∧
    (((u.tile t).x.units.filter (fun x => !x.isColl && !x.taken)).length < 8 →
      ∃ v, exec (.updPost t da link en) s = .next v ∧
        XRetired t (xPc u t + 8) (unitX' u t ⟨u.txnNext, false, xPc u t, if en then some link else none, false⟩)
          (setJobs (aRegion (rdD u t da) / 4096)
            (u.ablJobs (aRegion (rdD u t da) / 4096) ++ [⟨rdD u t da, .tile t u.txnNext, .sent, [], false, false, false⟩])
            { u with txnNext := u.txnNext + 1 }) v) ∧
    (∀ r : RegionId,
      ((u.rgns.filter (fun q => q.acq && decide (q.tile = t))).length < 8 →
        ∃ v, exec (.rgnAcq t rs r link) s = .next v ∧
          XRetired t (xPc u t + 8) { (u.tile t).x with seq := (u.tile t).x.seq + 1 }
            { u with rgns := u.rgns ++ [⟨true, (u.tile t).x.launch, t, r, (rdS u t rs).setWidth 32, link, xPc u t, (u.tile t).x.seq, false⟩] } v) ∧
      (8 ≤ (u.rgns.filter (fun q => q.acq && decide (q.tile = t))).length → exec (.rgnAcq t rs r link) s = .next u) ∧
      ∃ v, exec (.rgnRel t rs r) s = .next v ∧
        XRetired t (xPc u t + 8) { (u.tile t).x with seq := (u.tile t).x.seq + 1 }
          { u with rgns := u.rgns ++ [⟨false, (u.tile t).x.launch, t, r, (rdS u t rs).setWidth 32, 0, xPc u t, (u.tile t).x.seq, false⟩] } v)

/-- SCOMMIT and SCANCEL (Table 6-7, R172, R175). -/
def Sys2Proof.Claims.CommitAndCancel : Prop :=
  ∀ (t : TileId) (rs : SReg) (imm : BitVec 11) (sl : SlotIdx) (s u : Machine.State) (n l c : Nat), Issues s t 4 → u = fetched s t 4 →
    n = countOp u t rs imm 32 → l = slotLenBufs u t sl → c = slotCommitted u t sl → fState u t ≠ 2 →
    (slotState u t sl = 0 ∨ slotState u t sl = 7 ∨ runsAhead u t sl = false →
      ∃ v, exec (.xScommit t rs imm sl) s = .next v ∧ XRetired t (xPc u t + 4) (u.tile t).x u v) ∧
    (slotState u t sl = 2 → runsAhead u t sl = true → (u.slot t sl).bufs = [] →
      ∃ v w, exec (.xScommit t rs imm sl) s = .next v ∧ slotCommitted w t sl = min (c + n) l ∧
        OnlyRegs [R.SLOT_COMMITTED t.toNat sl.toNat] u w ∧ XRetired t (xPc u t + 4) (u.tile t).x w v) ∧
    (slotState u t sl = 0 ∨ slotState u t sl = 7 ∨ slotState u t sl = 6 ∨ slotState u t sl = 1 →
      ∃ v, exec (.xScancel t rs imm sl) s = .next v ∧ XRetired t (xPc u t + 4) (u.tile t).x u v) ∧
    (slotState u t sl = 2 → isIdxKind (sKind (u.slot t sl).sdesc) = false → (u.slot t sl).bufs = [] → (u.slot t sl).stage = 0 →
      (u.slot t sl).waiting = none → (u.slot t sl).credits = 0 → (u.tile t).xfers = [] → slotPosted u t sl = min l (max n c) →
      min l (max n c) < l →
      ∃ v w, exec (.xScancel t rs imm sl) s = .next v ∧ slotLenBufs w t sl = min l (max n c) ∧ slotState w t sl = 0 ∧
        OnlyTile t [R.SLOT_LENGTH t.toNat sl.toNat, R.SLOT_STATE t.toNat sl.toNat, R.FC_SPEC_DROP t.toNat] u w ∧
        XRetired t (xPc u t + 4) (u.tile t).x w v)

/-- Engine, collective, update, region and slot instructions issue, or stall when a queue is full. -/
def Obligations.EngineUnitAndSlotIssue : Prop :=
  Sys2Proof.Claims.EngineIssue ∧ Sys2Proof.Claims.UnitInstructions ∧ Sys2Proof.Claims.CommitAndCancel

/-- The host's writes to SEM, WIN_CTL, WIN_RANGE and SPAD_SWZR registers (R73, R74, R80, R90). -/
def Sys2Proof.Claims.TileHostWrites : Prop :=
  ∀ (t : TileId) (n : SemIdx) (w : WinIdx) (r : BitVec 3) (v : BitVec 32) (s : Machine.State), HostTile s t →
    (∃ u, exec (.semWrite t n v) s = .next u ∧ semVal u t n = v.toNat % 2 ^ 16 ∧
      rget u (R.SEM t.toNat n.toNat) F.SEM_OVF = (if v.getLsbD 16 then 0 else rget s (R.SEM t.toNat n.toNat) F.SEM_OVF) ∧
      OnlyRegs [R.SEM t.toNat n.toNat] s u) ∧
    (∃ u, exec (.windowOpen t w) s = .next u ∧
      (winIsOpen s t w = true → winReopen u t w = some 0 ∧ OnlyTile t [] s u) ∧
      (winIsOpen s t w = false → 1 ≤ winLen s t w ∧ winBase s t w + winLen s t w ≤ 24576 →
        winIsOpen u t w = true ∧ winCount u t w = 0 ∧
          OnlyRegs [R.WIN_CTL t.toNat w.toNat, R.WIN_COUNT t.toNat w.toNat] s u) ∧
      (winIsOpen s t w = false → ¬ (1 ≤ winLen s t w ∧ winBase s t w + winLen s t w ≤ 24576) → u = s)) ∧
    (∃ u, exec (.windowClose t w) s = .next u ∧ winIsOpen u t w = false ∧ winCount u t w = winCount s t w ∧
      (winIsOpen s t w = true → winReopen u t w = none) ∧ OnlyTile t [R.WIN_CTL t.toNat w.toNat] s u) ∧
    (∃ u, exec (.winRangeWrite t w v) s = .next u ∧
      (winIsOpen s t w = true → u = s) ∧
      (winIsOpen s t w = false → winBase u t w = v.toNat % 2 ^ 15 ∧ winLen u t w = v.toNat / 2 ^ 16 % 2 ^ 15 ∧
        OnlyRegs [R.WIN_RANGE t.toNat w.toNat] s u)) ∧
    ∃ u, exec (.swizzleRangeWrite t r v) s = .next u ∧
      rraw u (R.SPAD_SWZR t.toNat r.toNat) = v.toNat % 8 + v.toNat / 2 ^ 8 % 32 * 2 ^ 8 + v.toNat / 2 ^ 16 % 32 * 2 ^ 16 ∧
      (∀ o, o ≠ R.SPAD_SWZR t.toNat r.toNat → rraw u o = rraw s o) ∧
      noMem u = noMem s ∧ (∀ c, eccAt u c = eccAt s c) ∧
      ∀ a, (∀ k, k < 24 → unitPattern u t k ≠ unitPattern s t k →
          a < spadAddr t (k * 65536) ∨ spadAddr t (k * 65536) + 65536 ≤ a) → rdByte u a = rdByte s a

/-- The same writes to a tile whose die is not ON (R423), and to a disabled tile. -/
def Sys2Proof.Claims.HostWritesTurnedAway : Prop :=
  ∀ (t : TileId) (n : SemIdx) (w : WinIdx) (r : BitVec 3) (v : BitVec 32) (s : Machine.State),
    ∀ c ∈ [Instr.semWrite t n v, .windowOpen t w, .windowClose t w, .winRangeWrite t w v, .swizzleRangeWrite t r v],
      (s.power.cold = false → s.domReach 3 = true → s.domOn (16 + tileDie t) = false →
        ∃ u, exec c s = .next u ∧
          rraw u R.PDC_HOST_DROP = putBits (rraw s R.PDC_HOST_DROP) F.PDC_HOST_DROP_COUNT.lo F.PDC_HOST_DROP_COUNT.w
            (min (2 ^ F.PDC_HOST_DROP_COUNT.w - 1) (rget s R.PDC_HOST_DROP F.PDC_HOST_DROP_COUNT + 1)) ∧
          OnlyRegs [R.PDC_HOST_DROP] s u) ∧
      (s.power.cold = false → s.domReach 3 = true → s.domOn (16 + tileDie t) = true → s.enabled t = false →
        exec c s = .next s)

/-- Host writes to semaphores, windows and swizzle ranges of a tile, and where they are turned away. -/
def Obligations.TileHostWrites : Prop :=
  Sys2Proof.Claims.TileHostWrites ∧ Sys2Proof.Claims.HostWritesTurnedAway

/-- The end of a reopening (Table 3-11). -/
def Sys2Proof.Claims.WindowReopens : Prop :=
  ∀ (t : TileId) (w : WinIdx) (s : Machine.State),
    (∀ k, winReopen s t w = some k →
      ∃ u, exec (.windowReopenDone t w) s = .next u ∧ winCount u t w = min k (2 ^ 32 - 1) ∧ winReopen u t w = none ∧
        OnlyTile t [R.WIN_COUNT t.toNat w.toNat] s u) ∧
    (winReopen s t w = none → exec (.windowReopenDone t w) s = .next s)

/-- XLAT_INVAL and its end (R99, R100). -/
def Sys2Proof.Claims.TranslationInvalidation : Prop :=
  ∀ (d : DieId) (s : Machine.State),
    (HostReaches s (16 + d.toNat) → ∃ u, exec (.xlatInval d) s = .next u ∧
      rbit u (R.XLAT_STATUS d.toNat) F.XLAT_STATUS_BUSY = true ∧ dieEntries u d.toNat = [] ∧
      (∀ t : TileId, u.tile t = if tileDie t = d.toNat then { s.tile t with tlb := [] } else s.tile t) ∧
      (∀ o, o ≠ R.XLAT_STATUS d.toNat → rraw u o = rraw s o) ∧
      noXlat u = noXlat s ∧
      ∀ e, e ≠ d.toNat → dieEntries u e = dieEntries s e) ∧
    ∃ u, exec (.xlatInvalDone d) s = .next u ∧ rbit u (R.XLAT_STATUS d.toNat) F.XLAT_STATUS_BUSY = false ∧
      OnlyRegs [R.XLAT_STATUS d.toNat] s u

/-- A window's reopen takes effect, and XLAT_INVAL empties the translations of its die. -/
def Obligations.ReopensAndInvalidations : Prop :=
  Sys2Proof.Claims.WindowReopens ∧ Sys2Proof.Claims.TranslationInvalidation

namespace Sys2Proof

/-- The fetch program's branches: when G[GA], G[GB] take it (Table 6-2). -/
def fBranchTable : List ((TileId → GReg → GReg → BitVec 14 → Instr) × (Word → Word → Prop)) := [
  (.fBeq, fun a b => a = b), (.fBne, fun a b => a ≠ b), (.fBlt, fun a b => a.toInt < b.toInt), (.fBltu, fun a b => a.toNat < b.toNat)]

/-- Effective address of FLD and FST. -/
def fetchAddr (u : Machine.State) (t : TileId) (ga : GReg) (imm : BitVec 14) : Nat :=
  (rdG u t ga + 8 * imm.signExtend 64).toNat / 8 * 8

/-- A slot's number of free values of `SLOT_STATE` (Table 6-6): IDLE or ABORTED. -/
def SlotFree (u : Machine.State) (t : TileId) (sl : SlotIdx) : Prop := slotState u t sl = 0 ∨ slotState u t sl = 7

end Sys2Proof

/-- Arithmetic, FSTAT and branches of the fetch program (Table 6-2, R154). -/
def Sys2Proof.Claims.FetchProgramResults : Prop :=
  ∀ (t : TileId) (gd ga gb : GReg) (imm : BitVec 14) (sh sl : BitVec 6) (s u : Machine.State) (a b : Word), FIssues s t → u = fFetched s t →
    a = rdG u t ga → b = rdG u t gb →
    (∃ v, exec (.fNop t) s = .next v ∧ FRetired t (fPc u t + 4) (u.tile t).f u v) ∧
    (∀ p ∈ [(Instr.fAdd t gd ga gb, a.toNat + b.toNat), (.fSub t gd ga gb, a.toNat + 2 ^ 64 - b.toNat), (.fMul t gd ga gb, a.toNat * b.toNat),
        (.fAddi t gd ga imm, a.toNat + (imm.signExtend 64).toNat), (.fSlli t gd ga sh, a.toNat * 2 ^ sh.toNat),
        (.fSrli t gd ga sh, a.toNat / 2 ^ sh.toNat), (.fOri t gd ga imm, a.toNat ||| imm.toNat), (.fAndi t gd ga imm, a.toNat &&& imm.toNat),
        (.fStat t gd sl, rraw u (R.SLOT_STATE t.toNat sl.toNat) % 2 ^ 13 +
          rget u (R.SLOT_LANDED t.toNat sl.toNat) F.SLOT_LANDED_BUFS * 2 ^ 32)],
      ∃ v, exec p.1 s = .next v ∧ GResult t gd (BitVec.ofNat 64 p.2) u v) ∧
    ∀ p ∈ fBranchTable, ∃ v, exec (p.1 t ga gb imm) s = .next v ∧
      (p.2 a b → FRetired t (((fPc u t : Int) + 4 * imm.toInt) % 2 ^ 48).toNat (u.tile t).f u v) ∧
      (¬ p.2 a b → FRetired t (fPc u t + 4) (u.tile t).f u v)

/-- FLD, FST, FSACQ and FSPOST (R156). -/
def Sys2Proof.Claims.FetchProgramAccesses : Prop :=
  ∀ (t : TileId) (gd ga gb : GReg) (imm : BitVec 14) (cnt : BitVec 8) (n : SemIdx) (s u w : Machine.State) (la c : Nat), FIssues s t →
    u = fFetched s t → c = (if ga = 0 then cnt.toNat else (rdG u t ga).toNat % 2 ^ 16) →
    (Reaches t (fetchAddr u t ga imm) true false la u w → Sound w la 8 →
      ∃ v, exec (.fLd t gd ga imm) s = .next v ∧ GResult t gd (BitVec.ofNat 64 (memNat w la 8)) w v) ∧
    (Reaches t (fetchAddr u t ga imm) false true la u w → Sound w la 8 →
      ∃ v x, exec (.fSt t ga gb imm) s = .next v ∧ Stored la 8 (rdG u t gb).toNat w x ∧ FRetired t (fPc u t + 4) (u.tile t).f x v) ∧
    (∃ v, exec (.fSacq t ga cnt n) s = .next v ∧
      (c = 0 → FRetired t (fPc u t + 4) (u.tile t).f u v) ∧
      (c ≠ 0 → semWaiters u t n = [] → c ≤ semVal u t n →
        ∃ x, SemValue t n (semVal u t n - c) u x ∧ FRetired t (fPc u t + 4) (u.tile t).f x v) ∧
      (c ≠ 0 → ¬ (semWaiters u t n = [] ∧ c ≤ semVal u t n) →
        FBlocked t n.toNat 0 (.sem n false) (setWaiters t n (semWaiters u t n ++ [⟨.fprog, c⟩]) u) v)) ∧
    ∃ v, exec (.fSpost t ga cnt n) s = .next v ∧
      (c = 0 → FRetired t (fPc u t + 4) (u.tile t).f u v) ∧
      (c ≠ 0 → ∃ x, SemPosted t n c u x ∧ FRetired t (fPc u t + 4) (u.tile t).f x v)

/-- Fetch-program arithmetic, branches, loads, stores and semaphore instructions. -/
def Obligations.FetchInstructions : Prop :=
  Sys2Proof.Claims.FetchProgramResults ∧ Sys2Proof.Claims.FetchProgramAccesses

/-- SOPEN, SJOIN, FEND (Table 6-2, Table 6-6) and R155. -/
def Obligations.FetchProgramSlots : Prop :=
  ∀ (t : TileId) (ga : GReg) (sl : SlotIdx) (x : BitVec 32) (s u : Machine.State), FIssues s t → u = fFetched s t →
    (∃ v, exec (.fSopen t ga sl) s = .next v ∧ fState v t = 2 ∧ fPc v t = fPc u t ∧
      (SlotFree u t sl → (v.tile t).f.wait = some (.opening sl) ∧ slotState v t sl = 1 ∧ v.slot t sl = Slot.reset ∧
        rraw v (R.SLOT_DESC_VA t.toNat sl.toNat) = (rdG u t ga).toNat / 64 * 64 % 2 ^ 48 ∧
        OnlyTile t [R.FC_STATUS t.toNat, R.SLOT_DESC_VA t.toNat sl.toNat, R.SLOT_STATE t.toNat sl.toNat] u v) ∧
      (¬ SlotFree u t sl → FBlocked t sl.toNat 1 (.sopen sl ((rdG u t ga).toNat / 64 * 64)) u v)) ∧
    (∃ v, exec (.fSjoin t sl) s = .next v ∧
      (SlotFree u t sl → FRetired t (fPc u t + 4) (u.tile t).f u v) ∧
      (¬ SlotFree u t sl → FBlocked t sl.toNat 1 (.join sl) u v)) ∧
    (∃ v, exec (.fEnd t) s = .next v ∧
      ((∀ k, SlotFree u t k) → (u.tile t).xfers = [] →
        fState v t = 4 ∧ fPc v t = (fPc u t + 4) % 2 ^ 48 / 4 * 4 ∧
        OnlyTile t [R.FC_STATUS t.toNat, R.FC_PC t.toNat, R.FC_PROGRESS t.toNat] u v ∧ v.tile t = u.tile t) ∧
      (¬ ((∀ k, SlotFree u t k) ∧ (u.tile t).xfers = []) → FBlocked t 0 2 .finish u v)) ∧
    (fDecode t x = none → (∀ k, SlotFree u t k) →
      ∃ v, exec (.fcReservedEncoding t x) s = .next v ∧ fState v t = 3 ∧
        rraw v (R.FC_FAULT t.toNat) = (if rraw u (R.FC_FAULT t.toNat) = 0 then 0xC002 else rraw u (R.FC_FAULT t.toNat)) ∧
        (v.tile t).x = { (u.tile t).x with faults := (u.tile t).x.faults ++ [⟨3, .aborted, 0, 0⟩] } ∧
        (v.tile t).f.wait = none ∧ fPc v t = fPc u t ∧ OnlyTile t [R.FC_STATUS t.toNat, R.FC_FAULT t.toNat] u v)

namespace Sys2Proof

/-- The condition that a blocked instruction waits for holds (Table 4-11), for the waits that then just retire. -/
def WaitHolds (s : Machine.State) (t : TileId) : XWait → Prop
  | .sacq _ g => g = true
  | .wwait w thr => thr ≤ winCount s t w
  | .reopen w => winReopen s t w = none
  | .fence => WritesDone s t
  | .fenceE => WritesDone s t ∧ UnitsDone s t
  | .ewaitCe n => (s.tile t).ce.length ≤ n
  | .ewaitGme n => (s.tile t).gme.length ≤ n
  | .swait sl thr => slotState s t sl = 0 ∨ slotState s t sl = 7 ∨
      (thr ≠ 0 ∧ thr ≤ rget s (R.SLOT_LANDED t.toNat sl.toNat) F.SLOT_LANDED_BUFS)
  | .finish => False
  | .post _ => False

/-- Nothing that tile `t`'s X-core issued before number `k` is outstanding or has failed. -/
def NoneBefore (s : Machine.State) (t : TileId) (k : Nat) : Prop :=
  (∀ e ∈ s.txns, ∀ j, IssuedAs e.2 t j → k ≤ j) ∧ ∀ j, (s.tile t).x.failed = some j → k ≤ j

/-- The tiles of the launch that runs on a tile exist. -/
def LaunchTiles (s : Machine.State) (t : TileId) : Prop :=
  ∀ q seq c, (s.tile t).x.launch = some (q, seq) → s.cmd q seq = some c → ∀ u ∈ c.tiles, u < 2048

end Sys2Proof

/-- The waits of Table 4-11 end (R126). That WAIT_OBJ is cleared on leaving WAITING is the model's reading, log entry 17. -/
def Sys2Proof.Claims.WaitsEnd : Prop :=
  ∀ (t : TileId) (w : XWait) (s : Machine.State), xState s t = 2 → (s.tile t).x.wait = some w →
    (WaitHolds s t w → ∃ v, exec (.waitSatisfied t) s = .next v ∧
      XRetired t (xPc s t + 4) { (s.tile t).x with wait := none } s v ∧
      rget v (R.XC_STATUS t.toNat) F.XC_STATUS_WAIT_OBJ = 0 ∧ (xExpert s t = false → xState v t = 1)) ∧
    (¬ WaitHolds s t w → w ≠ .finish → (∀ h, w ≠ .post h) → exec (.waitSatisfied t) s = .next s) ∧
    (∀ h, w = .post h → (s.tile t).x.held.length < 8 → ∃ v, exec (.waitSatisfied t) s = .next v ∧
      XRetired t (xPc s t + (match h.target with | .own _ => 4 | .remote _ _ _ => 8))
        { (s.tile t).x with wait := none, seq := (s.tile t).x.seq + 1, held := (s.tile t).x.held ++ [h] } s v) ∧
    (w = .finish → WritesDone s t ∧ UnitsDone s t ∧ StreamsDone s t → ∃ v, exec (.waitSatisfied t) s = .next v ∧
      xState v t = 0 ∧ (v.tile t).x.launch = none ∧ xPc v t = (xPc s t + 4) % 2 ^ 48 / 4 * 4 ∧
      (s.tileDraining t = false → s.domOn (16 + tileDie t) = true → rget v (R.TILE_STATE t.toNat) F.TILE_STATE_STATE = 0) ∧
      OnlyTile t (R.TILE_STATE t.toNat :: retireRegs t) s v)

/-- Held posts (R117) and pending acquires (R81, R82). -/
def Sys2Proof.Claims.LateGrantsAndPosts : Prop :=
  ∀ (t : TileId) (n : SemIdx) (s : Machine.State),
    (∀ (h : HeldPost) (hs : List HeldPost) (k : SemIdx), (s.tile t).x.held = h :: hs → h.target = .own k → h.n ≠ 0 →
      (NoneBefore s t h.seq → ∃ v, exec (.heldPostRelease t) s = .next v ∧
        SemPosted t k h.n (s.modX t (fun x => { x with held := hs })) v) ∧
      (¬ NoneBefore s t h.seq → exec (.heldPostRelease t) s = .next s)) ∧
    (fState s t ≠ 2 → semWaiters s t n = [] → exec (.acquireGrant t n) s = .next s) ∧
    (∀ (w : Waiter) (ws : List Waiter), fState s t ≠ 2 → semWaiters s t n = w :: ws →
      (semVal s t n < w.n → exec (.acquireGrant t n) s = .next s) ∧
      (w.n ≤ semVal s t n → w.who = .xcore → ∃ v, exec (.acquireGrant t n) s = .next v ∧
        semVal v t n = semVal s t n - w.n ∧ semWaiters v t n = ws ∧ (v.tile t).x = { (s.tile t).x with wait := some (.sacq n true) } ∧
        OnlyTile t [R.SEM t.toNat n.toNat] s v))

/-- Blocked instructions retire when their condition holds; pending acquires and held posts take effect in order. -/
def Obligations.WaitsAndGrants : Prop :=
  Sys2Proof.Claims.WaitsEnd ∧ Sys2Proof.Claims.LateGrantsAndPosts

/-- How an X-core stops FAULTED: IMPRECISE_FAULT (R121, R122), WATCHDOG_TIMEOUT (R123) and RESERVED_ENCODING (R106); and
XC_RESUME (R125). Each completes in the states named. -/
def Obligations.CoreFaults : Prop :=
  ∀ (t : TileId) (f : XFault) (w0 w1 : BitVec 32) (s u : Machine.State), LaunchTiles s t →
    (firstFault (s.tile t).x.faults = some f → xState s t = 1 ∨ xState s t = 2 ∨ xState s t = 3 → f.source < 8 → f.pc < 2 ^ 48 →
      ∃ v, exec (.impreciseFault t) s = .next v ∧ XStopped t f.source f.status f.pc false false s v ∧
        ((s.tile t).x.launch = none → XFaulted t f.source f.status f.pc false false s v)) ∧
    ((s.tile t).x.faults = [] → exec (.impreciseFault t) s = .next s) ∧
    (xState s t = 1 ∨ xState s t = 2 → xExpert s t = false → 2 ^ 24 ≤ rget s (R.XC_WDOG t.toNat) F.XC_WDOG_COUNT →
      ∃ v, exec (.watchdogTimeout t) s = .next v ∧ XStopped t 5 .timeout (xPc s t) false false s v ∧
        ((s.tile t).x.launch = none → XFaulted t 5 .timeout (xPc s t) false false s v)) ∧
    (xExpert s t = false → rget s (R.XC_WDOG t.toNat) F.XC_WDOG_COUNT < 2 ^ 24 → exec (.watchdogTimeout t) s = .next s) ∧
    (Issues s t (if w0.getLsbD 0 then 8 else 4) → u = fetched s t (if w0.getLsbD 0 then 8 else 4) → xDecode t 0 w0 w1 = none →
      ∃ v, exec (.reservedEncoding t w0 w1) s = .next v ∧ XStopped t 0 .aborted (xPc u t) true true u v ∧
        ((s.tile t).x.launch = none → XFaulted t 0 .aborted (xPc u t) true true u v)) ∧
    (HostTile s t →
      (xState s t = 3 → ∃ v, exec (.xcResume t) s = .next v ∧ xState v t = 1 ∧ OnlyRegs [R.XC_STATUS t.toNat] s v) ∧
      (xState s t ≠ 3 → exec (.xcResume t) s = .next s))

namespace Sys2Proof

/-- Request `id` of a unit of this module is on its way to tile `t`, whose router serves it. -/
def Arriving (s : Machine.State) (id : Nat) (x : Txn) (t : TileId) : Prop :=
  mfind s.txns id = some x ∧ x.phase = .request ∧ x.dst = .tile t

/-- The tile serves new requests: its compute die is ON and the tile does not drain. -/
def Serves (s : Machine.State) (t : TileId) : Prop := s.domReach (16 + tileDie t) = true ∧ s.tileDraining t = false

/-- Request `id` is in turn: no older request of the same unit of a tile, to the same target, still has to take effect at an
address that it touches (R101). -/
def InTurn (s : Machine.State) (id : Nat) (x : Txn) : Prop :=
  ∀ e ∈ s.txns, e.1 < id → issuerPart x.iss ≠ none → issuerPart e.2.iss = issuerPart x.iss → e.2.dst = x.dst →
    (e.2.phase = .request ∨ e.2.phase = .refused) → ∀ a ∈ opAddrs e.2.op, a ∉ opAddrs x.op

/-- The X-core of tile `t` with the fault of a posted write, atomic or post of number `k` on its way: what is younger and held
behind it does not take effect (R117, R121). -/
def failedX (c : XCore) (f : XFault) (k : Nat) : XCore :=
  { c with faults := c.faults ++ [f], failed := some (c.failed.elim k (min k)) }

/-- The state with request `id` replaced by one whose reply is on its way back. -/
def replied (s : Machine.State) (id : Nat) (x : Txn) (st : Status) (data : List Byte) : Machine.State :=
  { s with txns := mins s.txns id { x with phase := .reply st data } }

/-- The state without request `id`. -/
def without (s : Machine.State) (id : Nat) : Machine.State := { s with txns := mdel s.txns id }

/-- Window `w` takes a write to these scratchpad offsets: open, covering them all, and no lower-numbered window does (R91). -/
def Takes (s : Machine.State) (t : TileId) (w : WinIdx) (offs : List Nat) : Prop :=
  winIsOpen s t w = true ∧ (∀ o ∈ offs, winCovers s t w o = true) ∧
    ∀ k : WinIdx, k < w → ¬ (winIsOpen s t k = true ∧ ∀ o ∈ offs, winCovers s t k o = true)

/-- No open window covers any of these offsets. -/
def NoWindow (s : Machine.State) (t : TileId) (offs : List Nat) : Prop :=
  ∀ w, winIsOpen s t w = true → ∀ o ∈ offs, winCovers s t w o = false

/-- Window `w` has counted `n` more bytes (R92). -/
def Counted (s v : Machine.State) (t : TileId) (w : WinIdx) (n : Nat) : Prop :=
  winCount v t w = min (winCount s t w + n) (2 ^ 32 - 1) ∧ rraw v (R.FC_PROGRESS t.toNat) = 0 ∧
    (∀ o, o ≠ R.WIN_COUNT t.toNat w.toNat → o ≠ R.FC_PROGRESS t.toNat → rraw v o = rraw s o) ∧
    ∀ k, k ≠ t → v.tile k = s.tile k

end Sys2Proof

/-- Requests a tile serves (R79, R91, R92, R78). -/
def Sys2Proof.Claims.MeshRequestsServed : Prop :=
  ∀ (id : Nat) (x : Txn) (t : TileId) (s : Machine.State), Arriving s id x t → Serves s t →
    (∀ (k : TileId) (n : SemIdx) (cnt : Nat), x.op = .post k n cnt → cnt ≠ 0 → s.enabled t = true →
      ∃ v, SemPosted t n cnt s v ∧ exec (.semaphorePost id) s = .next (replied v id x .ok [])) ∧
    (¬ InTurn s id x → ∀ bad, exec (.remoteRead id) s = .next s ∧ exec (.remoteWrite id bad) s = .next s ∧
      exec (.remoteAtomicAdd id bad) s = .next s) ∧
    (∀ addrs : List Nat, x.op = .read addrs → InTurn s id x → (∀ a ∈ addrs, addrOk s a = true ∧ Clean s a) →
      exec (.remoteRead id) s = .next (replied s id x .ok (addrs.map (rdByte s)))) ∧
    (∀ cells : List (Nat × Byte), x.op = .write cells → InTurn s id x → (cells.map (·.1)).Nodup →
      (∀ c ∈ cells, addrOk s c.1 = true ∧ Clean s c.1) →
      (∀ w, Takes s t w (cells.map (fun c => c.1 % 2 ^ 24)) →
        ∀ bad, ∃ v, exec (.remoteWrite id bad) s = .next (replied v id x (if bad then .faultEcc else .ok) []) ∧
          Counted s v t w cells.length ∧ (bad = false → ∀ c ∈ cells, rdByte v c.1 = c.2) ∧
          ∀ a, (∀ c ∈ cells, c.1 ≠ a) → rdByte v a = rdByte s a) ∧
      (cells ≠ [] → NoWindow s t (cells.map (fun c => c.1 % 2 ^ 24)) →
        ∃ v, exec (.remoteWrite id false) s = .next (replied v id x .windowClosed []) ∧
          rget v (R.WIN_LATE t.toNat) F.WIN_LATE_COUNT = satAdd F.WIN_LATE_COUNT.w (rget s (R.WIN_LATE t.toNat) F.WIN_LATE_COUNT) 1 ∧
          (∀ w, winCount v t w = winCount s t w) ∧ noRegs v = noRegs s)) ∧
    (∀ (a : Nat) (wide ret : Bool) (y : Word) (n la : Nat) (w : WinIdx), x.op = .aadd a wide y ret → InTurn s id x → n = (if wide then 8 else 4) →
      la = a / n * n → (∀ k, k < n → addrOk s (la + k) = true ∧ Clean s (la + k)) → (∀ o, place la ≠ .moraine o) →
      Takes s t w ((List.range n).map (fun i => (la + i) % 2 ^ 24)) →
      ∀ bad, ∃ v, exec (.remoteAtomicAdd id bad) s =
          .next (replied v id x (if bad then .faultEcc else .ok) (if ret && !bad then rdBytes s la n else [])) ∧ Counted s v t w n ∧
        (bad = false → memNat v la n = (memNat s la n + y.toNat) % 2 ^ (8 * n)) ∧ ∀ b, b < la ∨ la + n ≤ b → rdByte v b = rdByte s b)

/-- The same requests to a tile that is not ON, and to a DRAINING one (R423, R424). -/
def Sys2Proof.Claims.MeshRequestsTurnedAway : Prop :=
  ∀ (id : Nat) (x : Txn) (t k : TileId) (n : SemIdx) (cnt : Nat) (addrs : List Nat) (cells : List (Nat × Byte)) (a : Nat) (wide ret : Bool)
    (y : Word) (bad : Bool) (s : Machine.State), Arriving s id x t →
    (∀ p ∈ [(Instr.semaphorePost id, MemOp.post k n cnt), (.remoteRead id, .read addrs), (.remoteWrite id bad, .write cells),
        (.remoteAtomicAdd id bad, .aadd a wide y ret)], x.op = p.2 → s.enabled t = true →
      (s.domReach (16 + tileDie t) = false → ∃ v, exec p.1 s = .next v ∧
        v.txns = mins s.txns id { x with phase := .lost } ∧
        rget v (R.MESH_ORPHAN t.toNat) F.MESH_ORPHAN_COUNT =
          satAdd F.MESH_ORPHAN_COUNT.w (rget s (R.MESH_ORPHAN t.toNat) F.MESH_ORPHAN_COUNT) 1 ∧
        OnlyRegs [R.MESH_ORPHAN t.toNat] s { v with txns := s.txns }) ∧
      (s.domReach (16 + tileDie t) = true → s.tileDraining t = true → exec p.1 s = .next (replied s id x .retryLater []))) ∧
    (x.op = .post k n cnt → s.enabled t = false → exec (.semaphorePost id) s = .next (replied s id x .protection []))

/-- Requests of other tiles at a tile: posts, reads, windowed writes, atomics, and where they are turned away. -/
def Obligations.MeshRequests : Prop :=
  Sys2Proof.Claims.MeshRequestsServed ∧ Sys2Proof.Claims.MeshRequestsTurnedAway

/-- MESH_REPLY, RETRY_RESEND and MESH_TRANSACTION_TIMEOUT (R425, R429). -/
def Obligations.MeshReplies : Prop :=
  ∀ (id : Nat) (x : Txn) (t : TileId) (pc k : Nat) (st : Status) (data : List Byte) (bad : Bool) (s : Machine.State),
    mfind s.txns id = some x → s.domReach (16 + tileDie t) = true →
    (x.iss = .xwrite t pc k → x.phase = .reply st data → st ≠ .retryLater →
      (bad = false → exec (.meshReply id bad) s = .next (if st = .ok then without s id
        else (without s id).modX t (fun c => failedX c ⟨4, st, pc, x.va⟩ k))) ∧
      (bad = true → st = .ok → exec (.meshReply id bad) s =
        .next ((without s id).modX t (fun c => failedX c ⟨4, .faultEcc, pc, x.va⟩ k)))) ∧
    (x.iss = .xwrite t pc k → x.phase = .reply .retryLater data →
      exec (.meshReply id bad) s = .next { s with txns := mins s.txns id { x with phase := .refused } }) ∧
    (∀ (rd : SReg) (idx : List Nat), x.iss = .xload t 0 → x.phase = .reply .ok data → idx = List.range 8 → data.length = 8 →
      (s.tile t).x.load = some ⟨.scalar rd 8 false, 4, [⟨idx, none⟩]⟩ →
      ∃ v, exec (.meshReply id false) s = .next v ∧
        SResult t 4 rd (BitVec.ofNat 64 (leNat data)) ((without s id).modX t (fun c => { c with load := none })) v) ∧
    (∀ u, x.dst = .tile u → x.phase = .refused →
      exec (.retryResend id) s = .next { s with txns := mins s.txns id { x with phase := .request } }) ∧
    (∀ d, x.dst = .dev d → x.phase = .refused → x.iss = .xwrite t pc k → bit (rget s (R.MOS_ROUTE d.toNat) F.MOS_ROUTE_ENTRY) 31 = false →
      exec (.retryResend id) s = .next ((without s id).modX t (fun c => failedX c ⟨4, .protection, pc, x.va⟩ k))) ∧
    (x.iss = .xwrite t pc k → exec (.meshTransactionTimeout id) s =
      .next ((without s id).modX t (fun c => failedX c ⟨4, .timeout, pc, x.va⟩ k)))

/-- QCFG writes and the states of Table 2-7 (R46, R506, R507). -/
def Sys2Proof.Claims.QueueControl : Prop :=
  ∀ (q : QIdx) (cfg : BitVec 32) (a b : Nat) (s : Machine.State), HostReaches s (hostCtl s) →
    a = cfg.toNat / 2 ^ 4 % 32 → b = cfg.toNat / 2 ^ 9 % 32 →
    (qState s q = 0 → (6 ≤ a ∧ a ≤ 16) ∧ 6 ≤ b ∧ b ≤ 16 →
      ∃ v, exec (.queueEnable q cfg) s = .next v ∧ qState v q = 1 ∧ rget v (R.QCFG q.toNat) F.QCFG_EN = 1 ∧
        rget v (R.QCFG q.toNat) F.QCFG_SQ_LOG2 = a ∧ rget v (R.QCFG q.toNat) F.QCFG_CQ_LOG2 = b ∧
        rraw v (R.QSQ_HEAD q.toNat) = 0 ∧ rraw v (R.QCQ_TAIL q.toNat) = 0 ∧ v.queue q = HostQueue.reset ∧
        OnlyQueue q [R.QCFG q.toNat, R.QSTAT q.toNat, R.QSQ_HEAD q.toNat, R.QCQ_TAIL q.toNat] s v) ∧
    (qState s q = 0 → ¬ ((6 ≤ a ∧ a ≤ 16) ∧ 6 ≤ b ∧ b ≤ 16) →
      ∃ v, exec (.queueEnable q cfg) s = .next v ∧ qState v q = 0 ∧ rget v (R.QCFG q.toNat) F.QCFG_EN = 0 ∧
        rget v (R.QSTAT q.toNat) F.QSTAT_CFG_ERR = 1 ∧ OnlyQueue q [R.QCFG q.toNat, R.QSTAT q.toNat] s v ∧
        ((∀ c ∈ (s.queue q).cmds, c.phase ≠ .candidate) → v.queue q = s.queue q)) ∧
    (qState s q = 3 → ∃ v, exec (.queueEnable q cfg) s = .next v ∧ qState v q = 3 ∧
      rget v (R.QSTAT q.toNat) F.QSTAT_PEND_EN = 1 ∧ OnlyQueue q [R.QCFG q.toNat, R.QSTAT q.toNat] s v ∧
      ((∀ c ∈ (s.queue q).cmds, c.phase ≠ .candidate) → v.queue q = s.queue q)) ∧
    (qState s q = 1 ∨ qState s q = 2 → ∃ v, exec (.queueDisable q cfg) s = .next v ∧ qState v q = 3 ∧
      rget v (R.QCFG q.toNat) F.QCFG_EN = 0 ∧ (∀ c ∈ (v.queue q).cmds, c.phase ≠ .candidate) ∧
      (v.queue q).cmds.map (·.seq) = (s.queue q).cmds.map (·.seq) ∧ OnlyQueue q [R.QCFG q.toNat, R.QSTAT q.toNat] s v) ∧
    (qState s q = 2 → cfg.getLsbD 0 = true → (s.queue q).cmds = [] →
      ∃ v, exec (.queueResume q cfg) s = .next v ∧ qState v q = 1 ∧
        v.queue q = { s.queue q with lost := (s.queue q).lost ++ (s.queue q).stops, stops := [] } ∧
        OnlyQueue q [R.QCFG q.toNat, R.QSTAT q.toNat] s v)

/-- The end of a drain (Table 2-7) and the doorbells (R45). -/
def Sys2Proof.Claims.QueueDrainsAndDoorbells : Prop :=
  ∀ (q : QIdx) (x : BitVec 16) (s : Machine.State),
    (qState s q = 3 → (∀ c ∈ (s.queue q).cmds, dispatched c = false) → rget s (R.QSTAT q.toNat) F.QSTAT_PEND_EN = 0 →
      ∃ v, exec (.queueDrainDone q) s = .next v ∧ qState v q = 0 ∧
        v.queue q = { s.queue q with cmds := [], cursor := none, blocked := false } ∧ OnlyQueue q [R.QSTAT q.toNat] s v) ∧
    (¬ (qState s q = 3 ∧ ∀ c ∈ (s.queue q).cmds, dispatched c = false) → exec (.queueDrainDone q) s = .next s) ∧
    (HostReaches s 3 →
      (qState s q = 0 → ∀ c ∈ [Instr.sqDoorbell q x, .cqDoorbell q x],
        ∃ v, exec c s = .next v ∧ rget v (R.QSTAT q.toNat) F.QSTAT_DB_DISABLED = 1 ∧ OnlyRegs [R.QSTAT q.toNat] s v) ∧
      (qState s q ≠ 0 →
        (∃ v, exec (.sqDoorbell q x) s = .next v ∧
          v.queue q = { s.queue q with sqTail := x.toNat % 2 ^ rget s (R.QCFG q.toNat) F.QCFG_SQ_LOG2 } ∧ OnlyQueue q [] s v) ∧
        ∃ v, exec (.cqDoorbell q x) s = .next v ∧
          v.queue q = { s.queue q with
            cqHead := x.toNat % 2 ^ rget s (R.QCFG q.toNat) F.QCFG_CQ_LOG2, recs := (v.queue q).recs } ∧
          (x.toNat % 2 ^ rget s (R.QCFG q.toNat) F.QCFG_CQ_LOG2 ≠ (s.queue q).cqHead → rget v (R.QSTAT q.toNat) F.QSTAT_CQ_FULL = 0) ∧
          (x.toNat % 2 ^ rget s (R.QCFG q.toNat) F.QCFG_CQ_LOG2 = (s.queue q).cqHead → rraw v (R.QSTAT q.toNat) = rraw s (R.QSTAT q.toNat)) ∧
          OnlyQueue q [R.QSTAT q.toNat] s v))

/-- Enabling, disabling, resuming and draining a host queue, and its doorbells. -/
def Obligations.QueueControlAndDoorbells : Prop :=
  Sys2Proof.Claims.QueueControl ∧ Sys2Proof.Claims.QueueDrainsAndDoorbells

/-- Submission entries and buffers (R48, R508), and a command taken from a buffer in host memory (R49). -/
def Obligations.CommandsFetched : Prop :=
  ∀ (q : QIdx) (s : Machine.State) (head a n : Nat), qState s q = 1 → (s.queue q).blocked = false →
    head = rget s (R.QSQ_HEAD q.toNat) F.QSQ_HEAD_HEAD →
    ((s.queue q).cursor = none → (s.queue q).sqTail = head → exec (.commandFetch q) s = .next s) ∧
    ((s.queue q).cursor = none → (s.queue q).sqTail ≠ head →
      a = rget s (R.QSQ_BASE q.toNat) F.QSQ_BASE_ADDR * 2 ^ 12 + 16 * head →
      ∃ v, exec (.commandFetch q) s = .next v ∧
        rget v (R.QSQ_HEAD q.toNat) F.QSQ_HEAD_HEAD = (head + 1) % 2 ^ rget s (R.QCFG q.toNat) F.QCFG_SQ_LOG2 % 2 ^ 16 ∧
        OnlyQueue q [R.QSQ_HEAD q.toNat] s v ∧
        (badEntry (hostRd s a 16) = false → v.queue q = { s.queue q with
          cursor := some ⟨leNat (hostRd s a 8), leNat (hostRd s (a + 8) 4), leNat (hostRd s (a + 12) 1)⟩ }) ∧
        (badEntry (hostRd s a 16) = true → ∃ c, (v.queue q).cmds = (s.queue q).cmds ++ [c] ∧ (v.queue q).blocked = true ∧
          c.refused = some .aborted ∧ c.badRef = some head ∧ cmdOp c = 0xFF ∧
          c.seq = (match (s.queue q).lastSeq with | some l => l + 1 | none => 0))) ∧
    (∀ k, (s.queue q).cursor = some k → k.space = 0 → n = leNat (hostRd s (k.addr + 2) 2) → 0 < n → 16 * n ≤ k.left →
      leNat (hostRd s k.addr 1) ≠ 1 →
      ∃ v c, exec (.commandFetch q) s = .next v ∧ (v.queue q).cmds = (s.queue q).cmds ++ [c] ∧
        c.seq = BitVec.ofNat 32 (leNat (hostRd s (k.addr + 4) 4)) ∧ c.bytes = hostRd s k.addr (16 * n) ∧ c.phase = .waiting ∧
        (c.refused = none ↔ cmdOk c = true) ∧ (v.queue q).lastSeq = some c.seq ∧
        (v.queue q).cursor = (if k.left = 16 * n then none else some ⟨k.addr + 16 * n, k.left - 16 * n, 0⟩) ∧
        OnlyQueue q [] s v)

namespace Sys2Proof

/-- The queue's command `seq` is admitted, carries opcode `op`, and is to run. -/
def AtHand (s : Machine.State) (q : QIdx) (seq : W32) (op : Nat) (c : Cmd) : Prop :=
  s.cmd q seq = some c ∧ c.phase = .admitted ∧ cmdOp c = op

/-- From `u`, the queue's command `seq` stands as `c` in `v`; its other commands, and all beside the queue and the registers
`offs`, are as they were. -/
structure CmdLeft (q : QIdx) (seq : W32) (c : Cmd) (offs : List Nat) (u v : Machine.State) : Prop where
  cmd    : v.cmd q seq = some c
  others : ∀ k, k ≠ seq → v.cmd q k = u.cmd q k
  frame  : OnlyQueue q offs u v

/-- A byte of host memory. -/
def hostByte (s : Machine.State) (a : Nat) : Byte := mget (fun _ => 0) s.hostMem a

end Sys2Proof

/-- NOP, EVENT_SIGNAL, EVENT_WAIT (R43, R53) and CHAIN. -/
def Obligations.ImmediateCommands : Prop :=
  ∀ (q : QIdx) (seq : W32) (c : Cmd) (s : Machine.State) (n x : Nat), n = cF c 0x10 2 → x = cF c 0x14 4 →
    (AtHand s q seq 0 c → ∃ v, exec (.cmdNop q seq) s = .next v ∧ CmdLeft q seq { c with phase := .ended } [] s v) ∧
    (AtHand s q seq 5 c → n < 256 → ∃ v, exec (.eventSignal q seq) s = .next v ∧
      rraw v (R.EVT n) = (rraw s (R.EVT n) + x) % 2 ^ 32 ∧ CmdLeft q seq { c with phase := .ended } [R.EVT n] s v) ∧
    (AtHand s q seq 6 c → ∃ v, exec (.eventWait q seq) s = .next v ∧
      (x ≤ rraw s (R.EVT n) → CmdLeft q seq { c with phase := .ended } [] s v) ∧
      (rraw s (R.EVT n) < x → CmdLeft q seq { c with phase := .running } [] s v)) ∧
    (s.cmd q seq = some c → c.phase = .running → cmdOp c = 6 →
      (x ≤ rraw s (R.EVT n) → ∃ v, exec (.eventWaitSatisfied q seq) s = .next v ∧ CmdLeft q seq { c with phase := .ended } [] s v) ∧
      (rraw s (R.EVT n) < x → exec (.eventWaitSatisfied q seq) s = .next s)) ∧
    (AtHand s q seq 10 c → ∃ v, exec (.chain q seq) s = .next v ∧ CmdLeft q seq { c with phase := .ended } [] s v ∧
      (v.queue q).cursor = some ⟨cF c 0x10 8, cF c 0x18 4, cF c 0x1C 1⟩ ∧ (v.queue q).blocked = false)

/-- COPY (R509); which address FAULT_ADDR names is log entry 37. -/
def Sys2Proof.Claims.CopyResults : Prop :=
  ∀ (q : QIdx) (seq : W32) (c : Cmd) (s : Machine.State) (src dst n : Nat) (hf : HostFault), AtHand s q seq 4 c →
    src = cF c 0x10 8 → dst = cF c 0x18 8 → n = cF c 0x20 8 → 0 < n →
    (cF c 0x28 1 = 0 → cF c 0x29 1 = 0 → ∃ v, exec (.copy q seq .none) s = .next v ∧
      v.cmd q seq = some { c with phase := .ended } ∧ noHost v = noHost s ∧ (∀ o, rraw v o = rraw s o) ∧
      ∀ a, hostByte v a = if dst ≤ a ∧ a < dst + n then hostByte s (src + (a - dst)) else hostByte s a) ∧
    (cF c 0x28 1 = 1 → cF c 0x29 1 = 1 → src + n ≤ hbmTop → dst + n ≤ hbmTop →
      (∀ k, k < n → Clean s (src + k) ∧ Clean s (dst + k)) →
      ∃ v, exec (.copy q seq hf) s = .next v ∧ v.cmd q seq = some { c with phase := .ended } ∧ v.hostMem = s.hostMem ∧
        (∀ o, rraw v o = rraw s o) ∧
        ∀ a, rdByte v a = if dst ≤ a ∧ a < dst + n then rdByte s (src + (a - dst)) else rdByte s a) ∧
    (cF c 0x28 1 = 1 → src < spadBase → hbmTop < src + n → c.status = none → ∃ v, exec (.copy q seq hf) s = .next v ∧
      CmdLeft q seq { c with phase := .ended, status := some .protection, detail := 0, faultAddr := max src hbmTop } [] s v) ∧
    (∀ x : BitVec 64, cF c 0x28 1 = 0 → cF c 0x29 1 = 0 → c.status = none →
      ∀ p ∈ [(HostFault.refused x, Status.protection), (.timeout x, .timeout), (.poison x, .faultEcc)],
        ∃ v, exec (.copy q seq p.1) s = .next v ∧
          v.cmd q seq = some { c with phase := .ended, status := some p.2, detail := 0, faultAddr := x.toNat } ∧
          v.freeCtr = s.freeCtr + n ∧ (∀ a, a < dst ∨ dst + n ≤ a → hostByte v a = hostByte s a) ∧
          (∀ k, k < n → hostByte v (dst + k) = Config.freeByte (s.freeCtr + k)) ∧ ∀ o, rraw v o = rraw s o)

/-- EXPERT_PREFETCH of one expert (R285, R286). -/
def Sys2Proof.Claims.PrefetchCommands : Prop :=
  ∀ (q : QIdx) (seq : W32) (c : Cmd) (s : Machine.State) (e : Nat), AtHand s q seq 9 c → prefetchIds c = [e] →
    (∀ p ∈ [(Instr.pin q seq, 2, 1), (.unpin q seq, 3, 0)], cF c 0x10 1 = p.2.1 →
      (resOf s e ≠ 0 → ∃ v, exec p.1 s = .next v ∧ rget v (R.DIR_LOCAL e) F.DIR_PINNED = p.2.2 ∧
        CmdLeft q seq { c with phase := .ended, skips := 0 } [R.DIR_LOCAL e] s v) ∧
      (resOf s e = 0 → ∃ v, exec p.1 s = .next v ∧ CmdLeft q seq { c with phase := .ended, skips := 1 } [] s v)) ∧
    (∀ i l, cF c 0x10 1 = 0 → resOf s e = 1 → freeSlots s = i :: l → ∃ v, exec (.fetch q seq) s = .next v ∧ resOf v e = 2 ∧
      v.exd = { s.exd with slots := mins s.exd.slots e i, prefs := s.exd.prefs ++ [(false, e)] } ∧
      v.cmd q seq = some { c with phase := if bit (cF c 0x11 1) 0 then .running else .ended, skips := 0 }) ∧
    (cF c 0x10 1 = 1 → resOf s e = 3 → isPool s e = true → dirPinned s e = false → regionReaders s e = 0 → dirRestRo s e = false →
      ∃ v, exec (.evict q seq) s = .next v ∧ resOf v e = 4 ∧
        v.exd = { s.exd with prefs := s.exd.prefs ++ [(true, e)] } ∧
        v.cmd q seq = some { c with phase := if bit (cF c 0x11 1) 0 then .running else .ended, skips := 0 })

/-- COPY between host and local memory, and EXPERT_PREFETCH. -/
def Obligations.CopiesAndPrefetches : Prop :=
  Sys2Proof.Claims.CopyResults ∧ Sys2Proof.Claims.PrefetchCommands

namespace Sys2Proof

/-- `n` bytes from a local HBM address, held in good codewords. -/
def GoodHbm (s : Machine.State) (a n : Nat) : Prop := a + n ≤ hbmTop ∧ ∀ k, k < n → Clean s (a + k)

/-- STEP_BEGIN's checks pass (R52, R437, R438, R454, R460): the recovery state lets steps begin, the routing epoch is the current
one, the step lies inside the horizon and, in replay, not past its end. -/
def MayBegin (s : Machine.State) (c : Cmd) : Prop :=
  (recState s = 0 ∨ recState s = 3) ∧ cF c 0x14 4 = rget s R.EXD_EPOCH F.EXD_EPOCH_CURRENT ∧
    (rget s R.FIRN_SNAP F.FIRN_SNAP_VALID = 1 →
      (cF c 0x10 4 + 2 ^ 32 - rget s R.FIRN_SNAP F.FIRN_SNAP_STEP) % 2 ^ 32 ≤ 2 ^ firnDepth s) ∧
    (rget s R.FIRN_CTL F.FIRN_CTL_REPLAY = 1 → cF c 0x10 4 ≤ rget s R.FIRN_REPLAY F.FIRN_REPLAY_TO)

/-- The command as a STEP_BEGIN leaves it, with a status when it fails. -/
def begun (c : Cmd) (st : Option (Status × Nat)) : Cmd :=
  let c := { c with step := BitVec.ofNat 32 (cF c 0x10 4), phase := .ended }
  match st with
  | some (x, d) => { c with status := some x, detail := d, faultAddr := 0 }
  | none => c

end Sys2Proof

/-- STEP_BEGIN (R52, R278, R437, R438, R454) and FIRN_RECORD_DURABLE. -/
def Obligations.StepBegins : Prop :=
  ∀ (q : QIdx) (seq : W32) (c : Cmd) (s : Machine.State) (a : Nat), cmdOp c = 7 → c.status = none → c.phase = .admitted →
    (s.cmd q seq = some c → recState s = 1 ∨ recState s = 2 → ∃ v, exec (.stepBegin q seq) s = .next v ∧
      CmdLeft q seq (begun c (some (.draining, recState s))) [] s v) ∧
    (s.cmd q seq = some c → recState s = 4 → ∃ v, exec (.stepBegin q seq) s = .next v ∧ CmdLeft q seq (begun c (some (.aborted, 4))) [] s v) ∧
    (s.cmd q seq = some c → recState s = 0 ∨ recState s = 3 → cF c 0x14 4 ≠ rget s R.EXD_EPOCH F.EXD_EPOCH_CURRENT →
      ∃ v, exec (.stepBegin q seq) s = .next v ∧ CmdLeft q seq (begun c (some (.groupEpoch, 0))) [] s v) ∧
    (s.cmd q seq = some c → recState s = 0 ∨ recState s = 3 → cF c 0x14 4 = rget s R.EXD_EPOCH F.EXD_EPOCH_CURRENT →
      rget s R.FIRN_SNAP F.FIRN_SNAP_VALID = 1 →
      2 ^ firnDepth s < (cF c 0x10 4 + 2 ^ 32 - rget s R.FIRN_SNAP F.FIRN_SNAP_STEP) % 2 ^ 32 →
      ∃ v, exec (.stepBegin q seq) s = .next v ∧ rget v R.FIRN_STATUS F.FIRN_STATUS_HORIZON = 1 ∧
        CmdLeft q seq (begun c (some (.protection, 0))) [R.FIRN_STATUS] s v) ∧
    (s.cmd q seq = some c → MayBegin s c → rget s R.FIRN_CTL F.FIRN_CTL_EN = 0 → ∃ v, exec (.stepBegin q seq) s = .next v ∧
      CmdLeft q seq (begun c none) [] s v ∧ (v.queue q).step = BitVec.ofNat 32 (cF c 0x10 4) ∧
      (v.queue q).epoch = BitVec.ofNat 32 (cF c 0x14 4)) ∧
    (s.cmd q seq = some c → MayBegin s c → rget s R.FIRN_CTL F.FIRN_CTL_EN = 1 → rget s R.FIRN_CTL F.FIRN_CTL_REPLAY = 0 → c.space = 0 → mirState s ≠ 2 →
      a = recAddr s q (cF c 0x10 4) → GoodHbm s a 128 →
      ∃ v, exec (.stepBegin q seq) s = .next v ∧
        v.cmd q seq = some { c with step := BitVec.ofNat 32 (cF c 0x10 4), phase := .running } ∧
        rdBytes v a 8 = natLe 4 (cF c 0x10 4) ++ natLe 4 (cF c 0x14 4) ∧ rdByte v (a + 14) = q.setWidth 8 ∧ rdByte v (a + 15) = 1 ∧
        rdBytes v (a + 16) 64 = hostRd s (cF c 0x18 8) 64 ∧ rdBytes v (a + 124) 4 = natLe 4 (crc32c (rdBytes v a 124)) ∧
        (∀ b, b < a ∨ a + 128 ≤ b → rdByte v b = rdByte s b) ∧ (∀ o, rraw v o = rraw s o) ∧ v.hostMem = s.hostMem) ∧
    (s.cmd q seq = some { c with phase := .running } → recTxns s (isFirn q seq) = [] → ∃ v, exec (.firnRecordDurable q seq) s = .next v ∧
      v.cmd q seq = some { c with phase := .ended } ∧ (v.queue q).step = BitVec.ofNat 32 (cF c 0x10 4) ∧
      (v.queue q).epoch = BitVec.ofNat 32 (cF c 0x14 4) ∧ OnlyQueue q [] s v)

/-- STEP_END outside PAIRED and replay (R439, R447) and FIRN_COMMIT. -/
def Obligations.StepEnds : Prop :=
  ∀ (q : QIdx) (seq : W32) (c : Cmd) (s : Machine.State) (a : Nat) (step : W32), AtHand s q seq 8 c → mirState s ≠ 2 → recState s ≠ 3 →
    s.push = [] → recTxns s (isMirror q seq) = [] →
    (rget s R.FIRN_CTL F.FIRN_CTL_EN = 0 → ∃ v, exec (.stepEnd q seq) s = .next v ∧
      v.cmd q seq = some { c with phase := .ended } ∧ rraw v R.FIRN_LAST = cF c 0x10 4 ∧ OnlyQueue q [R.FIRN_LAST] s v) ∧
    (rget s R.FIRN_CTL F.FIRN_CTL_EN = 1 → rget s R.FIRN_CTL F.FIRN_CTL_REPLAY = 0 → a = recAddr s q (cF c 0x10 4) → GoodHbm s a 128 →
      c.status = none → recGood (rdBytes s a 128) (cF c 0x10 4) = false →
      ∃ v, exec (.stepEnd q seq) s = .next v ∧ rget v R.FIRN_STATUS F.FIRN_STATUS_NO_RECORD = 1 ∧
        CmdLeft q seq { c with phase := .ended, status := some .aborted, detail := 0, faultAddr := 0 } [R.FIRN_STATUS] s v) ∧
    (rget s R.FIRN_CTL F.FIRN_CTL_EN = 1 → rget s R.FIRN_CTL F.FIRN_CTL_REPLAY = 0 → a = recAddr s q (cF c 0x10 4) → GoodHbm s a 128 →
      GoodHbm s (cF c 0x18 8) 16 → recGood (rdBytes s a 128) (cF c 0x10 4) = true →
      ∃ v, exec (.stepEnd q seq) s = .next v ∧ rdBytes v (a + 0x60) 16 = rdBytes s (cF c 0x18 8) 16 ∧
        (rdByte v (a + 15)).getLsbD 1 = true ∧ rdBytes v (a + 124) 4 = natLe 4 (crc32c (rdBytes v a 124)) ∧
        (∀ b, b < a ∨ a + 128 ≤ b → rdByte v b = rdByte s b) ∧ rraw v R.FIRN_LAST = cF c 0x10 4 ∧
        v.cmd q seq = some { c with phase := .ended }) ∧
    (HostReaches s (hostCtl s) → ∃ v, exec (.firnCommitWrite step) s = .next v ∧ rraw v R.FIRN_COMMIT = step.toNat ∧
      OnlyRegs [R.FIRN_COMMIT] s v)

namespace Sys2Proof

/-- The start values of S1 to S13 on a tile (Table 2-12). -/
def StartValues (c : Cmd) (rank count : Nat) (r : Fin 14) : Nat :=
  if r.val = 0 then 0 else if r.val ≤ 8 then cF c (0x38 + 8 * r.val) 8 else if r.val = 9 then cF c 0x20 8 else if r.val = 10 then rank
  else if r.val = 11 then count else if r.val = 12 then c.step.toNat else c.epoch.toNat

/-- Nothing that a stopped tile issued is still to take effect: no write, atomic or post, no transfer and no held post (R59). -/
def NothingLeft (s : Machine.State) (t : TileId) : Prop :=
  (s.tile t).xfers = [] ∧ (s.tile t).x.held = [] ∧
    ∀ e ∈ s.txns, issuerTile e.2.iss = some t → e.2.iss = .acked t ∨ ∃ l, e.2.op = .read l

/-- The queue's commands without the first of number `seq`. -/
def without1 (s : Machine.State) (q : QIdx) (seq : W32) : List Cmd := (s.queue q).cmds.eraseP (fun d => decide (d.seq = seq))

end Sys2Proof

/-- LAUNCH (R58, R153). Stated for a set of one tile. -/
def Sys2Proof.Claims.LaunchStarts : Prop :=
  ∀ (q : QIdx) (seq : W32) (c : Cmd) (s : Machine.State), AtHand s q seq 1 c → c.status = none →
    (c.tiles = [] → ∃ v, exec (.launch q seq) s = .next v ∧
      CmdLeft q seq { c with phase := .ended, status := some .protection, detail := 0, faultAddr := 0 } [] s v) ∧
    (∀ t : TileId, c.tiles = [t.toNat] → (∀ k ∈ setTiles c, (s.tile (BitVec.ofNat 11 k)).x.launch = none) → ¬ NothingLeft s t → cF c 0x32 1 = 1 →
      exec (.launch q seq) s = .next s) ∧
    (∀ t : TileId, c.tiles = [t.toNat] → (∀ k ∈ setTiles c, (s.tile (BitVec.ofNat 11 k)).x.launch = none) → NothingLeft s t → cF c 0x32 1 = 1 →
      ∃ v, exec (.launch q seq) s = .next v ∧ v.cmd q seq = some { c with phase := .running } ∧
        (v.tile t).x.launch = some (q, c.seq) ∧ xState v t = 1 ∧ xPc v t = cF c 0x10 8 % 2 ^ 48 / 4 * 4 ∧
        (∀ r : SReg, rdS v t r = if h : r.toNat < 14 then BitVec.ofNat 64 (StartValues c 0 1 ⟨r.toNat, h⟩) else 0) ∧
        (∀ r, rdV v t r = 0) ∧ (∀ r, rdP v t r = 0) ∧ (∀ r, rdD v t r = 0) ∧
        rraw v (R.XC_FAULT t.toNat) = 0 ∧ rraw v (R.XC_RETIRED t.toNat) = 0 ∧ rraw v (R.XC_WDOG t.toNat) = 0 ∧
        rget v (R.TILE_STATE t.toNat) F.TILE_STATE_STATE = 1 ∧ rget v (R.CE_STATUS t.toNat) F.CE_STATUS_QUAD = 0 ∧
        (cF c 0x18 8 ≠ 0 → fState v t = 1 ∧ fPc v t = cF c 0x18 8 % 2 ^ 48 / 4 * 4 ∧ ∀ r : GReg, r ≠ 0 → rdG v t r = rdS v t (r.setWidth 5)) ∧
        (cF c 0x18 8 = 0 → fState v t = 0) ∧ (∀ w, w ≠ t → v.tile w = s.tile w) ∧ (v.tile t).tlb = (s.tile t).tlb ∧
        ∀ a, rdByte v a = rdByte s a)

/-- LAUNCH_COMPLETE of a set of one tile without a record (R59). -/
def Sys2Proof.Claims.LaunchesEnd : Prop :=
  ∀ (q : QIdx) (seq energy kcc : W32) (dests : List Nat) (c : Cmd) (t : TileId) (s : Machine.State), s.cmd q seq = some c →
    c.phase = .running → cmdOp c = 1 → c.tiles = [t.toNat] →
    ((s.tile t).x.launch = some (q, seq) → xState s t ≠ 4 → exec (.launchComplete q seq energy kcc dests) s = .next s) ∧
    ((s.tile t).x.launch = none → ¬ NothingLeft s t → exec (.launchComplete q seq energy kcc dests) s = .next s) ∧
    ((s.tile t).x.launch = none → NothingLeft s t → c.status = none → c.stepMis = false → c.deferred = false → bit (cF c 1 1) 1 = false → cF c 0x34 4 = 0 →
      ∃ v, exec (.launchComplete q seq energy kcc dests) s = .next v ∧ (v.queue q).cmds = without1 s q seq ∧
        (cF c 0x32 1 ≠ 2 → OnlyQueue q [] s v) ∧
        (cF c 0x32 1 = 2 → OnlyQueue q [R.CE_STATUS t.toNat] s v ∧ rget v (R.CE_STATUS t.toNat) F.CE_STATUS_QUAD = 0 ∧
          rget v (R.CE_STATUS t.toNat) F.CE_STATUS_QWIDTH = 0)) ∧
    ((s.tile t).x.launch = none → NothingLeft s t → c.status = none → c.stepMis = false → c.deferred = false → bit (cF c 1 1) 1 = false → cF c 0x34 4 ≠ 0 →
      ∃ v, exec (.launchComplete q seq energy kcc dests) s = .next v ∧ (v.queue q).cmds = without1 s q seq ∧
        v.ledger = { s.ledger with done := s.ledger.done ++ [(cF c 0x34 4, c.used + energy.toNat, c.baseEst)] }) ∧
    (∀ x, (s.tile t).x.launch = none → NothingLeft s t → c.status = some x → x.stops = true → qState s q = 1 →
      ∃ v, exec (.launchComplete q seq energy kcc dests) s = .next v ∧ (v.queue q).cmds.map (·.seq) = (without1 s q seq).map (·.seq) ∧
        qState v q = 2 ∧ rraw v (R.QERR_SEQ q.toNat) = seq.toNat ∧ (∀ r ∈ v.rgns, ¬ (r.acq = true ∧ r.owner = some (q, seq))) ∧
        ∀ a, a ∉ dests → rdByte v a = rdByte s a)

/-- A launch starts on its tiles with the register values of Table 2-12, and ends when its tiles have. -/
def Obligations.LaunchesStartAndEnd : Prop :=
  Sys2Proof.Claims.LaunchStarts ∧ Sys2Proof.Claims.LaunchesEnd

/-- COMMAND_DISPATCH, COMMAND_COMPLETE and REFUSED_COMMAND_STOP (R47, R54, R60, R61). -/
def Obligations.CommandsDispatchAndComplete : Prop :=
  ∀ (q : QIdx) (seq energy kcc : W32) (raced : List Nat) (c : Cmd) (s : Machine.State) (a : Nat), s.cmd q seq = some c →
    (c.phase = .waiting → qState s q = 1 → (s.queue q).cmds = [c] → c.refused = none → cmdOp c = 0 → cqFree s q ≠ 0 →
      rget s (R.QSTAT q.toNat) F.QSTAT_CQ_FULL = 0 →
      qExpert s q = false → c.tiles = [] →
      ∃ v, exec (.commandDispatch q seq raced) s = .next v ∧ ∃ d, v.cmd q seq = some d ∧ d.phase = .admitted ∧ d.reserved = true ∧ d.raced = raced ∧
        d.step = (s.queue q).step ∧ d.epoch = (s.queue q).epoch ∧ d.bytes = c.bytes ∧ d.status = c.status ∧ noHost v = noHost s ∧
        (∀ o, rraw v o = rraw s o)) ∧
    (c.phase = .waiting → qState s q ≠ 1 → exec (.commandDispatch q seq raced) s = .next s) ∧
    (c.phase = .ended → cmdOp c = 0 → c.status = none → c.stepMis = false → c.deferred = false → bit (cF c 1 1) 1 = false →
      c.badRef = none → ∃ v, exec (.commandComplete q seq energy kcc) s = .next v ∧ (v.queue q).cmds = without1 s q seq ∧ OnlyQueue q [] s v) ∧
    (c.phase = .ended → cmdOp c = 0 → c.status = none → c.stepMis = false → c.deferred = false → bit (cF c 1 1) 1 = true →
      bit (cF c 1 1) 2 = false → c.badRef = none → cqSize s q ≠ cqTail s q + 1 →
      a = rget s (R.QCQ_BASE q.toNat) F.QCQ_BASE_ADDR * 2 ^ 12 + 32 * cqTail s q →
      ∃ v, exec (.commandComplete q seq energy kcc) s = .next v ∧ (v.queue q).cmds = without1 s q seq ∧
        hostRd v a 8 = natLe 4 seq.toNat ++ [0, BitVec.ofNat 8 (if (s.queue q).phase then 1 else 0), q.setWidth 8, 0] ∧
        hostRd v (a + 12) 4 = natLe 4 c.step.toNat ∧ hostRd v (a + 16) 4 = natLe 4 ((c.used + energy.toNat) / 16000) ∧
        hostRd v (a + 20) 4 = natLe 4 kcc.toNat ∧ (∀ b, b < a ∨ a + 32 ≤ b → hostByte v b = hostByte s b) ∧
        cqTail v q = (cqTail s q + 1) % cqSize s q % 2 ^ 16 ∧ (v.queue q).phase = (s.queue q).phase ∧
        ∀ o, o ≠ R.QCQ_TAIL q.toNat → rraw v o = rraw s o) ∧
    (c.refused = some .aborted → (s.queue q).cmds = [c] → qState s q = 1 → cqFree s q ≠ 0 →
      rget s (R.QSTAT q.toNat) F.QSTAT_CQ_FULL = 0 → c.status = some .aborted →
      ∃ v, exec (.refusedCommandStop q) s = .next v ∧ (v.queue q).cmds = [] ∧ qState v q = 2 ∧
        rget v (R.QSTAT q.toNat) F.QSTAT_BAD_CMD = 1 ∧ rget v (R.QSTAT q.toNat) F.QSTAT_CMD_FAULT = 1 ∧
        rraw v (R.QERR_SEQ q.toNat) = c.seq.toNat ∧ (v.queue q).stops = (s.queue q).stops ++ [c.seq] ∧ (v.queue q).blocked = false)

/-- PDC_TILE_RST and the end of a tile reset (R77, R422). -/
def Obligations.TileResets : Prop :=
  ∀ (t : TileId) (s : Machine.State),
    (HostReaches s 0 → rget s R.PDC_TILE_RST F.PDC_TILE_RST_BUSY = 0 → s.enabled t = true → (s.tile t).x.launch = none →
      ∃ v, exec (.tileReset t) s = .next v ∧ rget v (R.TILE_STATE t.toNat) F.TILE_STATE_STATE = 2 ∧
        rget v R.PDC_TILE_RST F.PDC_TILE_RST_BUSY = 1 ∧ rget v R.PDC_TILE_RST F.PDC_TILE_RST_TILE = t.toNat ∧
        OnlyRegs [R.TILE_STATE t.toNat, R.PDC_TILE_RST] s v) ∧
    (HostReaches s 0 → rget s R.PDC_TILE_RST F.PDC_TILE_RST_BUSY = 1 ∨ s.enabled t = false → exec (.tileReset t) s = .next s) ∧
    (rget s R.PDC_TILE_RST F.PDC_TILE_RST_BUSY = 1 → rget s R.PDC_TILE_RST F.PDC_TILE_RST_TILE = t.toNat → (s.tile t).xfers = [] →
      (∀ e ∈ s.txns, issuerTile e.2.iss ≠ some t) →
      ∃ v, exec (.tileResetDone t) s = .next v ∧ rget v R.PDC_TILE_RST F.PDC_TILE_RST_BUSY = 0 ∧ v.tile t = Tile.reset ∧
        (∀ w, w ≠ t → v.tile w = s.tile w) ∧
        (∀ a, rdByte v a = if spadAddr t 0 ≤ a ∧ a < spadAddr t 0 + 1572864 then 0 else rdByte s a) ∧
        (∀ o, 0x8000000 + 0x10000 * t.toNat ≤ o → o < 0x8010000 + 0x10000 * t.toNat → o ≠ R.MESH_ORPHAN t.toNat →
          rraw v o = (regReset o).toNat) ∧
        (∀ o, o < 0x8000000 + 0x10000 * t.toNat ∨ 0x8010000 + 0x10000 * t.toNat ≤ o → o ≠ R.PDC_TILE_RST → rraw v o = rraw s o) ∧
        rraw v (R.MESH_ORPHAN t.toNat) = rraw s (R.MESH_ORPHAN t.toNat))

namespace Sys2Proof

/-- The head of an engine's queue as it stands after its run: done with a status. -/
def HeadDone (l : List EngCmd) (e : EngCmd) (st : Status) (va : Nat) (rest : List EngCmd) : Prop :=
  l = { e with phase := .done st va } :: rest

/-- Slot `sl` is open and delivering: RUNNING, its acquires and rows going on, at its buffer `b`. -/
def Delivering (s : Machine.State) (t : TileId) (sl : SlotIdx) : Prop :=
  slotState s t sl = 2 ∧ (s.slot t sl).buf < slotLenBufs s t sl ∧ runsAhead s t sl = false

/-- Buffer `b` of the slot still wants replies (R169): its stream delivers, and the buffer is not dropped. -/
def Wants (s : Machine.State) (t : TileId) (sl : SlotIdx) (b : Nat) : Prop :=
  (slotState s t sl = 2 ∨ slotState s t sl = 3 ∨ slotState s t sl = 4 ∨ slotState s t sl = 5) ∧ b < slotLenBufs s t sl ∧
    ∃ e ∈ (s.slot t sl).bufs, e.no = b

/-- What a reply of a wanted transfer leaves of its slot: one reply fewer to come for buffer `b`, and its bytes kept for the end
posts. -/
def slotArrived (q : Machine.Slot) (b : Nat) (cells : List (Nat × Byte)) : Machine.Slot :=
  { q with bufs := q.bufs.map (fun e => if e.no = b then { e with left := e.left - 1, data := e.data ++ cells } else e) }

/-- The bytes of memory outside the ring bytes of a transfer are unchanged. -/
def RingOnly (t : TileId) (x : Xfer) (u v : Machine.State) : Prop :=
  ∀ a, (∀ c ∈ x.cells, spadAddr t c.2 ≠ a) → rdByte v a = rdByte u a

/-- Slot `sl` has aborted in `v` with a status and reports it (R170). -/
def SlotFailed (t : TileId) (sl : SlotIdx) (st : Status) (va : Nat) (u v : Machine.State) : Prop :=
  slotState v t sl = 6 ∧ rget v (R.SLOT_STATE t.toNat sl.toNat) F.SLOT_STATE_STATUS = st.code ∧ (v.slot t sl).waiting = none ∧
    (v.tile t).x.faults = (u.tile t).x.faults ++ [⟨3, st, 0, va⟩]

end Sys2Proof

/-- Acceptance and refusal of a descriptor (R163, R164). -/
def Sys2Proof.Claims.StreamsOpen : Prop :=
  ∀ (t : TileId) (sl : SlotIdx) (env : EngEnv) (s s1 s2 : Machine.State) (d tw : DWord) (len : Nat), slotState s t sl = 1 →
    engRead64 t 1 env (rget s (R.SLOT_DESC_VA t.toNat sl.toNat) F.SLOT_DESC_VA_VA) s = (.ok d, s1) →
    sTdVa d % 64 = 0 → sTdVa d < 2 ^ 48 → engRead64 t 1 env (sTdVa d) s1 = (.ok tw, s2) →
    len = (if sLen d = 0 then defaultLen s2 t d (tdOf tw) else sLen d) →
    (sdRefused s2 t sl d (tdOf tw) = false → fcExpert s2 t = false →
      (∀ k, k ≠ sl → (s2.slot t k).acc = true → sPair (s2.slot t k).sdesc = sPair d → slotState s2 t k = 0 ∨ slotState s2 t k = 7) →
      ∃ v, exec (.streamAccept t sl env) s = .next (fWake t v) ∧ slotState v t sl = 2 ∧ runsAhead v t sl = false ∧
        v.slot t sl = { Slot.reset with
          acc := true, sdesc := d, tdesc := tw, len := len
          idxS := if sKind d = 2 ∨ sKind d = 4 then (s2.slot t (sSrc d)).sdesc else 0
          idxT := if sKind d = 2 ∨ sKind d = 4 then (s2.slot t (sSrc d)).tdesc else 0
          idxLen := if sKind d = 2 ∨ sKind d = 4 then (s2.slot t (sSrc d)).len else 0 } ∧
        slotLenBufs v t sl = (len + sRpb d - 1) / sRpb d % 2 ^ 32 ∧ slotPosted v t sl = 0 ∧ slotCommitted v t sl = 0 ∧
        rget v (R.SLOT_LANDED t.toNat sl.toNat) F.SLOT_LANDED_BUFS = 0 ∧ semVal v t (emptySem (sPair d)) = sDepth d ∧
        semVal v t (fullSem (sPair d)) = 0 ∧
        rget v (R.SLOT_SEQ t.toNat sl.toNat) F.SLOT_SEQ_SEQ = rget s2 (R.FC_SEQ t.toNat) F.FC_SEQ_NEXT ∧
        rget v (R.FC_SEQ t.toNat) F.FC_SEQ_NEXT = (rget s2 (R.FC_SEQ t.toNat) F.FC_SEQ_NEXT + 1) % 2 ^ 32 ∧
        ∀ a, rdByte v a = rdByte s2 a) ∧
    (sdRefused s2 t sl d (tdOf tw) = true → ∃ v, exec (.streamAccept t sl env) s = .next (fWake t v) ∧ slotState v t sl = 7 ∧
      rget v (R.SLOT_STATE t.toNat sl.toNat) F.SLOT_STATE_STATUS = Status.aborted.code ∧
      (v.tile t).x.faults = (s2.tile t).x.faults ++ [⟨3, .aborted, 0, 0⟩])

/-- Acquires, replies and timeouts (R167, R169, R170). That one command is the slot's next action is log entry 25. -/
def Sys2Proof.Claims.StreamTransfers : Prop :=
  ∀ (t : TileId) (sl : SlotIdx) (s : Machine.State) (id : Nat) (x : Xfer) (bad : Bool),
    (Delivering s t sl → (s.slot t sl).stage = 0 →
      let out := isOutKind (sKind (s.slot t sl).sdesc)
      let n := if out then fullSem (sPair (s.slot t sl).sdesc) else emptySem (sPair (s.slot t sl).sdesc)
      ∃ v, exec (.streamTransferIssue t sl) s = .next (fWake t v) ∧
        (semWaiters s t n = [] → 1 ≤ semVal s t n → semVal v t n = semVal s t n - 1 ∧
          v.slot t sl = { s.slot t sl with stage := 1 } ∧
          slotCommitted v t sl = (if out then (slotCommitted s t sl + 1) % 2 ^ 32 else slotCommitted s t sl) ∧
          OnlyTile t [R.SEM t.toNat n.toNat, R.SLOT_COMMITTED t.toNat sl.toNat] s v) ∧
        (¬ (semWaiters s t n = [] ∧ 1 ≤ semVal s t n) → slotState v t sl = 3 ∧
          semWaiters v t n = semWaiters s t n ++ [⟨.slot sl, 1⟩] ∧ v.slot t sl = { s.slot t sl with waiting := some n, wantIdx := false } ∧
          OnlyTile t [R.SLOT_STATE t.toNat sl.toNat] s v)) ∧
    (mfind (s.tile t).xfers id = some x → x.reads = true → x.sent = false →
      (∀ c ∈ x.cells, addrOk s c.1 = true ∧ Clean s c.1 ∧ Clean s (spadAddr t c.2)) →
      (¬ Wants s t x.slot x.buf → ∃ v, exec (.transferReply t id bad) s = .next (fWake t v) ∧ (v.tile t).xfers = mdel (s.tile t).xfers id ∧
        rget v (R.FC_LATE t.toNat) F.FC_LATE_COUNT = satAdd F.FC_LATE_COUNT.w (rget s (R.FC_LATE t.toNat) F.FC_LATE_COUNT) 1 ∧
        OnlyTile t [R.FC_LATE t.toNat] s v) ∧
      (Wants s t x.slot x.buf → (x.cells.map (·.2)).Nodup → (∀ e ∈ (s.slot t x.slot).bufs, e.no = x.buf → e.issued = false) →
        ∃ v, exec (.transferReply t id false) s = .next (fWake t v) ∧ (v.tile t).xfers = mdel (s.tile t).xfers id ∧
          v.slot t x.slot = slotArrived (s.slot t x.slot) x.buf (x.cells.map (fun c => (c.2, rdByte s c.1))) ∧
          (∀ k c, x.cells[k]? = some c → rdByte v (spadAddr t c.2) = Config.freeByte (s.freeCtr + k)) ∧ RingOnly t x s v ∧
          ∀ o, rraw v o = rraw s o) ∧
      (Wants s t x.slot x.buf → runsAhead s t x.slot = false →
        ∃ v, exec (.transferReply t id true) s = .next (fWake t v) ∧ (v.tile t).xfers = mdel (s.tile t).xfers id ∧
          SlotFailed t x.slot .faultEcc x.va s v ∧ RingOnly t x s v)) ∧
    (mfind (s.tile t).xfers id = some x → x.sent = true → x.reply = none → exec (.transferReply t id bad) s = .next s) ∧
    (mfind (s.tile t).xfers id = some x → ∃ v, exec (.transferTimeout t id) s = .next (fWake t v) ∧
      (v.tile t).xfers = mdel (s.tile t).xfers id ∧ (v.tile t).late = (if x.sent then (s.tile t).late else mins (s.tile t).late id x) ∧
      rget v (R.FC_XFER_TO t.toNat) F.FC_XFER_TO_COUNT = satAdd F.FC_XFER_TO_COUNT.w (rget s (R.FC_XFER_TO t.toNat) F.FC_XFER_TO_COUNT) 1 ∧
      (∀ a, rdByte v a = rdByte s a) ∧
      (¬ Wants s t x.slot x.buf → OnlyTile t [R.FC_XFER_TO t.toNat] s v) ∧
      (Wants s t x.slot x.buf → ¬ (runsAhead s t x.slot = true ∧ slotCommitted s t x.slot ≤ x.buf) → SlotFailed t x.slot .timeout x.va s v) ∧
      (Wants s t x.slot x.buf → runsAhead s t x.slot = true → slotCommitted s t x.slot ≤ x.buf →
        rget v (R.SLOT_STATE t.toNat x.slot.toNat) F.SLOT_STATE_HELD_FAULT = 1 ∧ slotState v t x.slot = slotState s t x.slot ∧
        (v.tile t).x.faults = (s.tile t).x.faults ∧ ∃ e ∈ (v.slot t x.slot).bufs, e.no = x.buf ∧ e.held ≠ none)) ∧
    (mfind (s.tile t).xfers id = none → exec (.transferTimeout t id) s = .next s ∧
      (mfind (s.tile t).late id = none → exec (.transferReply t id bad) s = .next s) ∧
      (mfind (s.tile t).late id = some x → x.reads = true → (∀ c ∈ x.cells, addrOk s c.1 = true ∧ Clean s c.1) →
        ∃ v, exec (.transferReply t id bad) s = .next v ∧ (v.tile t).late = mdel (s.tile t).late id ∧
          rget v (R.FC_LATE t.toNat) F.FC_LATE_COUNT = satAdd F.FC_LATE_COUNT.w (rget s (R.FC_LATE t.toNat) F.FC_LATE_COUNT) 1 ∧
          OnlyTile t [R.FC_LATE t.toNat] s v))

/-- A stream is accepted or refused, acquires its buffers, and its transfers land or time out. -/
def Obligations.StreamsOpenAndTransfer : Prop :=
  Sys2Proof.Claims.StreamsOpen ∧ Sys2Proof.Claims.StreamTransfers

/-- PROGRESS_TIMEOUT (R178, R179), STREAM_ABORT_COMPLETE (R171) and CANCEL_COMPLETE (R175). -/
def Obligations.StreamsEnd : Prop :=
  ∀ (t : TileId) (sl : SlotIdx) (s : Machine.State) (d : DWord), d = (s.slot t sl).sdesc →
    (rget s (R.FC_PROGRESS t.toNat) F.FC_PROGRESS_COUNT < progLimit s t → exec (.progressTimeout t) s = .next s) ∧
    (progLimit s t ≤ rget s (R.FC_PROGRESS t.toNat) F.FC_PROGRESS_COUNT →
      ((∀ k, slotState s t k ≠ 3) → fState s t ≠ 2 → ∃ v, exec (.progressTimeout t) s = .next v ∧ rraw v (R.FC_PROGRESS t.toNat) = 0 ∧
        OnlyRegs [R.FC_PROGRESS t.toNat] s v) ∧
      ((∀ k, slotState s t k ≠ 3) → fState s t = 2 → ∃ v, exec (.progressTimeout t) s = .next v ∧ rraw v (R.FC_PROGRESS t.toNat) = 0 ∧
        fState v t = 3 ∧ (v.tile t).x.faults = (s.tile t).x.faults ++ [⟨3, .timeout, 0, 0⟩]) ∧
      (slotState s t sl = 3 → (∀ k, k ≠ sl → slotState s t k = 3 → slotAge s t sl < slotAge s t k) →
        ∃ v, exec (.progressTimeout t) s = .next v ∧ rraw v (R.FC_PROGRESS t.toNat) = 0 ∧ SlotFailed t sl .timeout 0 s v ∧
        rget v (R.FC_MUTUAL t.toNat) F.FC_MUTUAL_COUNT = satAdd F.FC_MUTUAL_COUNT.w (rget s (R.FC_MUTUAL t.toNat) F.FC_MUTUAL_COUNT) 1)) ∧
    (slotState s t sl = 6 → (∀ e ∈ (s.tile t).xfers, e.2.slot ≠ sl) → (s.slot t sl).acc = true → sFlag d 3 = false →
      ∃ v, exec (.streamAbortComplete t sl) s = .next (fWake t v) ∧ slotState v t sl = 7 ∧ v.slot t sl = Slot.reset ∧
        semVal v t (emptySem (sPair d)) = rget s (R.SLOT_SNAP t.toNat sl.toNat) F.SLOT_SNAP_EMPTY ∧
        semVal v t (fullSem (sPair d)) = rget s (R.SLOT_SNAP t.toNat sl.toNat) F.SLOT_SNAP_FULL ∧
        OnlyTile t [R.SLOT_STATE t.toNat sl.toNat, R.SEM t.toNat (emptySem (sPair d)).toNat, R.SEM t.toNat (fullSem (sPair d)).toNat] s v) ∧
    (slotState s t sl = 6 → (∃ e ∈ (s.tile t).xfers, e.2.slot = sl) → exec (.streamAbortComplete t sl) s = .next s) ∧
    (slotState s t sl = 5 → (s.slot t sl).ending = false → (∀ e ∈ (s.tile t).xfers, e.2.slot = sl → e.2.buf < slotLenBufs s t sl) →
      let n := if isOutKind (sKind d) then fullSem (sPair d) else emptySem (sPair d)
      ∃ v, exec (.cancelComplete t sl) s = .next (fWake t v) ∧ (v.slot t sl).credits = 0 ∧
        slotState v t sl = (if slotPosted s t sl = slotLenBufs s t sl then 0 else if slotLenBufs s t sl ≤ (s.slot t sl).buf then 4 else 2) ∧
        semVal v t n = min (semVal s t n + (s.slot t sl).credits) 0xFFFF ∧
        OnlyTile t [R.SLOT_STATE t.toNat sl.toNat, R.SEM t.toNat n.toNat, R.FC_PROGRESS t.toNat] s v) ∧
    (slotState s t sl = 5 → (∃ e ∈ (s.tile t).xfers, e.2.slot = sl ∧ slotLenBufs s t sl ≤ e.2.buf) →
      exec (.cancelComplete t sl) s = .next s) ∧
    (slotState s t sl = 5 → (s.slot t sl).ending = true → (∃ e ∈ (s.tile t).xfers, e.2.slot = sl) →
      exec (.cancelComplete t sl) s = .next s)

namespace Sys2Proof

/-- The head of the GME's queue is a prediction command copied from its line, ready to run. -/
def PredReady (s : Machine.State) (t : TileId) (e : EngCmd) (es : List EngCmd) (op : Nat) : Prop :=
  (s.tile t).gme = e :: es ∧ e.op = .pred ∧ e.phase = .ready ∧ pdOp e.da = op

/-- The engine run of `t` left this in the GME's queue, its input link's EMPTY posted. -/
def GmeLeft (s v : Machine.State) (t : TileId) (e : EngCmd) (es : List EngCmd) (st : Status) (va : Nat) : Prop :=
  (v.tile t).gme = { e with phase := .done st va } :: es ∧ (v.tile t).ce = (s.tile t).ce ∧ ∀ w, w ≠ t → v.tile w = s.tile w

/-- The values of a source row of a prediction command, read from the own scratchpad. -/
def predRow (s : Machine.State) (t : TileId) (d : DWord) (n r : Nat) : List Nat :=
  pdValues (pdFmt d) n (rdBytes s (spadAddr t (pdSrc d + r * pdPitch d)) (pdRowBytes (pdFmt d) n))

/-- The columns of list block `b` in which some row passes the test of R242. -/
def activeColumns (s : Machine.State) (t : TileId) (d : DWord) (signed : Bool) (n b : Nat) : List Nat :=
  (List.range n).filter (fun j => (span (b * pdBlockRows d) (min ((b + 1) * pdBlockRows d) (pdRows d))).any (fun r =>
    pdTest signed (pdThresh d) ((predRow s t d n r).getD j 0)))

/-- Every scratchpad codeword of the tile is good. -/
def GoodSpad (s : Machine.State) (t : TileId) : Prop := ∀ k, k < spadBytes → Clean s (spadAddr t k)

end Sys2Proof

/-- CE_EXECUTE, CE_INSTRUCTION_COMPLETE, DEMAND_TIMEOUT and GROUPED_RESIDENCY_POLL (R115, R187, R271, R272); log entries
19 and 26. -/
def Sys2Proof.Claims.CubeEngineRuns : Prop :=
  ∀ (t : TileId) (env : EngEnv) (e : EngCmd) (es : List EngCmd) (s : Machine.State), (s.tile t).ce = e :: es →
    (e.phase = .queued → e.op = .ceMm → inQuad s t = false → ceRefused s t true e.da e.db e.dc e.imm = true →
      ∃ v, exec (.ceExecute t env) s = .next v ∧ (v.tile t).ce = { e with phase := .done .aborted 0 } :: es ∧ OnlyTile t [] s v) ∧
    (e.phase = .queued → e.op = .ceMm → inQuad s t = false → ceRefused s t true e.da e.db e.dc e.imm = false → e.imm.linEn = true →
      ¬ (semWaiters s t (fullSem e.imm.lin) = [] ∧ 1 ≤ semVal s t (fullSem e.imm.lin)) →
      ∃ v, exec (.ceExecute t env) s = .next v ∧ (v.tile t).ce = { e with phase := .waitIn } :: es ∧
        semWaiters v t (fullSem e.imm.lin) = semWaiters s t (fullSem e.imm.lin) ++ [⟨.ce, 1⟩] ∧ OnlyTile t [] s v) ∧
    (∀ (sp : Option SpMeta) (cells : List (TileId × Nat × Byte)) (s1 : Machine.State), e.phase = .haveIn → e.op = .ceMm →
      ceProduct t env e.da e.db e.dc e.imm s = (.ok (sp, cells), s1) → (s1.tile t).ce = e :: es → e.imm.linEn = true →
      e.imm.loutEn = true → e.imm.lin ≠ e.imm.lout →
      ¬ (semWaiters s1 t (emptySem e.imm.lout) = [] ∧ 1 ≤ semVal s1 t (emptySem e.imm.lout)) →
      ∃ u v, SemPosted t (emptySem e.imm.lin) 1 s1 u ∧ exec (.ceExecute t env) s = .next v ∧
        (v.tile t).ce = { e with held := some ⟨sp, cells, [], writeVas (tdOf e.dc)⟩, phase := .waitOut } :: es ∧
        semWaiters v t (emptySem e.imm.lout) = semWaiters s1 t (emptySem e.imm.lout) ++ [⟨.ce, 1⟩] ∧ OnlyTile t [] u v) ∧
    (∀ (x : EngHeld) (h : CeShape) (s2 : Machine.State), e.phase = .ready → e.op = .ceMm → e.held = some x → inQuad s t = false →
      h = ceShape s t → residueRun env 0 (ceChunks h (tdOf e.dc)) (ceRetry s t) = (0, 0, none) →
      ceWrite h env (tdOf e.dc) x.cells (ceBlocks t e.da x.sp (ceResidue h env (0, 0, none) s)) = (none, s2) →
      ceUndefined t s2 h e.da e.db e.dc e.imm x.sp = [] → (s2.tile t).ce = e :: es →
      ∃ v, exec (.ceExecute t env) s = .next v ∧ (v.tile t).ce = { e with phase := .done .ok 0 } :: es ∧
        OnlyTile t [R.CE_STEPS t.toNat] s2 v ∧ rget v (R.CE_STEPS t.toNat) F.CE_STEPS_COUNT = satAdd F.CE_STEPS_COUNT.w
          (rget s2 (R.CE_STEPS t.toNat) F.CE_STEPS_COUNT) (ceTotal s t h e.da e.db (tdOf e.dc) (ceK e.da e.imm) x.sp)) ∧
    (e.phase = .ready → e.op = .ceGrouped → e.tmpl = none → e.imm.linEn = false →
      ∃ v, exec (.ceExecute t env) s = .next v ∧ (v.tile t).ce = { e with phase := .done .ok 0 } :: es ∧ OnlyTile t [] s v) ∧
    (∀ (st : Status) (va : Nat), e.phase = .done st va → e.undef = false → ∃ v, exec (.ceInstructionComplete t) s = .next v ∧
      (v.tile t).ce = es ∧ rraw v (R.FC_PROGRESS t.toNat) = 0 ∧
      (st = .ok → e.imm.loutEn = false → OnlyTile t [R.FC_PROGRESS t.toNat] s v ∧ (v.tile t).x = (s.tile t).x) ∧
      (st = .ok → e.imm.loutEn = true → ∃ u, SemPosted t (fullSem e.imm.lout) 1 u v ∧
        OnlyTile t [R.FC_PROGRESS t.toNat] s u ∧ (u.tile t).x = (s.tile t).x) ∧
      (st ≠ .ok → (v.tile t).x.faults = (s.tile t).x.faults ++ [⟨1, st, e.pc, va⟩] ∧ OnlyTile t [R.FC_PROGRESS t.toNat] s v)) ∧
    (∀ l, e.phase = .deferred l →
      (∃ v, exec (.demandTimeout t) s = .next v ∧ (v.tile t).ce = { e with phase := .done .timeout 0 } :: es ∧ OnlyTile t [] s v) ∧
      (e.tmpl = none → exec (.groupedResidencyPoll t env) s = .next s) ∧
      (∀ a b c, e.tmpl = some (a, b, c) → l = [] → e.outs = [] → e.imm.linEn = false →
        ∃ v, exec (.groupedResidencyPoll t env) s = .next v ∧ (v.tile t).ce = { e with phase := .done .ok 0 } :: es ∧ OnlyTile t [] s v) ∧
      (∀ a b c s1 i, e.tmpl = some (a, b, c) → l = [i] → e.imm.linEn = false → (s1.tile t).ce = e :: es →
        (∀ st va rd, gtEntry t env e a b c 0 i false s = (.stop st va rd, s1) →
          ∃ v, exec (.groupedResidencyPoll t env) s = .next v ∧ (v.tile t).ce = { e with phase := .done st va } :: es ∧ OnlyTile t [] s1 v) ∧
        (gtEntry t env e a b c 0 i false s = (.deferred, s1) →
          ∃ v, exec (.groupedResidencyPoll t env) s = .next v ∧ (v.tile t).ce = e :: es ∧ OnlyTile t [] s1 v) ∧
        (∀ n d, gtEntry t env e a b c 0 i false s = (.ran n (some d), s1) → e.outs = [] →
          ∃ v, exec (.groupedResidencyPoll t env) s = .next v ∧ OnlyTile t [] s1 v ∧
            (v.tile t).ce = { e with phase := .done .ok 0, outs := [d] } :: es)))

/-- GME_EXECUTE and GME_INSTRUCTION_COMPLETE (R115, R213, R232); log entries 19 and 26. -/
def Sys2Proof.Claims.GatherMergeRuns : Prop :=
  ∀ (t : TileId) (env : EngEnv) (e : EngCmd) (es : List EngCmd) (s : Machine.State), (s.tile t).gme = e :: es →
    (e.phase = .queued → e.op = .gather → gmeRefused e = true → ∃ v, exec (.gmeExecute t env) s = .next v ∧
      GmeLeft s v t e es .aborted 0 ∧ OnlyTile t [] s v) ∧
    (∀ (h : EngHeld) (s1 : Machine.State), e.phase = .haveIn → e.op = .gather → gmeForm t env e s = (.ok h, s1) →
      (s1.tile t).gme = e :: es → e.imm.linEn = true → e.imm.loutEn = true → e.imm.lin ≠ e.imm.lout →
      ¬ (semWaiters s1 t (emptySem e.imm.lout) = [] ∧ 1 ≤ semVal s1 t (emptySem e.imm.lout)) →
      ∃ u v, SemPosted t (emptySem e.imm.lin) 1 s1 u ∧ exec (.gmeExecute t env) s = .next v ∧
        (v.tile t).gme = { e with held := some h, phase := .waitOut } :: es ∧
        semWaiters v t (emptySem e.imm.lout) = semWaiters s1 t (emptySem e.imm.lout) ++ [⟨.gme, 1⟩] ∧ OnlyTile t [] u v) ∧
    (∀ (h : EngHeld) (k : List (Nat × Byte) × Machine.State) (s2 : Machine.State), e.phase = .ready → e.op = .gather →
      e.held = some h → h.undef = [] → k = pickWrites (·.1) (fieldKey (tdOf e.dc)) (h.cells.map (·.2)) (gmeResidue t env (0, 0, none) s) →
      engWrite t 3 env k.1 k.2 = (none, s2) → (s2.tile t).gme = e :: es →
      ∃ v, exec (.gmeExecute t env) s = .next v ∧ (v.tile t).gme = { e with phase := .done .ok 0 } :: es ∧ OnlyTile t [] s2 v) ∧
    (∀ (st : Status) (va : Nat), e.phase = .done st va → e.undef = false → ∃ v, exec (.gmeInstructionComplete t) s = .next v ∧
      (v.tile t).gme = es ∧ rraw v (R.FC_PROGRESS t.toNat) = 0 ∧
      (e.op = .pred → rget v (R.PRED_STATUS t.toNat) F.PRED_STATUS_BUSY = 0 ∧
        rget v (R.PRED_STATUS t.toNat) F.PRED_STATUS_STATUS = st.code % 256) ∧
      (e.op ≠ .pred → st = .ok → e.imm.loutEn = false → OnlyTile t [R.FC_PROGRESS t.toNat] s v ∧ (v.tile t).x = (s.tile t).x) ∧
      (e.op ≠ .pred → st = .ok → e.imm.loutEn = true → ∃ u, SemPosted t (fullSem e.imm.lout) 1 u v ∧
        OnlyTile t [R.FC_PROGRESS t.toNat] s u ∧ (u.tile t).x = (s.tile t).x) ∧
      (st ≠ .ok → (v.tile t).x.faults = (s.tile t).x.faults ++ [⟨2, st, e.pc, va⟩] ∧
        OnlyTile t [R.FC_PROGRESS t.toNat, R.PRED_STATUS t.toNat] s v)) ∧
    (e.phase = .queued → e.op = .pred → 64 * e.s0.toNat + 64 ≤ spadBytes → GoodSpad s t →
      pdRefused (BitVec.ofNat 512 (memNat s (spadAddr t (64 * e.s0.toNat)) 64)) = true →
      ∃ v, exec (.gmeExecute t env) s = .next v ∧
        (v.tile t).gme = { e with da := BitVec.ofNat 512 (memNat s (spadAddr t (64 * e.s0.toNat)) 64), phase := .done .aborted 0 } :: es ∧
        OnlyTile t [R.PRED_STATUS t.toNat] s v)

/-- The Cube Engine and the Gather-Merge Engine run the heads of their queues. -/
def Obligations.EngineRuns : Prop :=
  Sys2Proof.Claims.CubeEngineRuns ∧ Sys2Proof.Claims.GatherMergeRuns

/-- SCAN (R242, R243), CHECK (R246) and VERDICT (R247). -/
def Obligations.PredictionCommands : Prop :=
  ∀ (t : TileId) (env : EngEnv) (e : EngCmd) (es : List EngCmd) (s : Machine.State) (d : DWord), d = e.da → pdRefused d = false →
    pdLinEn d = false → GoodSpad s t →
    (PredReady s t e es 0 → pdMode d = 0 → pdOverlap d = false →
      ∃ v, exec (.scan t) s = .next v ∧ GmeLeft s v t e es .ok 0 ∧
        ∀ b, b < pdBlocks d →
          rdBytes v (spadAddr t (pdList d + b * pdLs d)) (listBytes (activeColumns s t d false (pdCols d) b)).length =
            listBytes (activeColumns s t d false (pdCols d) b) ∧
          rdBytes v (spadAddr t (pdAud d + b * pdLs d)) 16 = List.replicate 16 0) ∧
    (∀ bs s1, PredReady s t e es 2 → engRead t 3 env ((List.range 16).map (pdTally d + ·)) s = (.ok bs, s1) → (s1.tile t).gme = e :: es →
      rget s1 (R.PRED_CTL t.toNat) F.PRED_CTL_EXPERT = 0 →
      ∃ v, exec (.verdict t env) s = .next v ∧ rraw v (R.PRED_TALLY_A t.toNat) = leNat (padTo 8 bs) ∧
        rraw v (R.PRED_TALLY_M t.toNat) = leNat (padTo 8 (bs.drop 8)) ∧ rraw v (R.PRED_VERDICT t.toNat) = 1 ∧
        (v.tile t).gme = { e with phase := .done .ok 0 } :: es ∧
        OnlyTile t [R.PRED_TALLY_A t.toNat, R.PRED_TALLY_M t.toNat, R.PRED_VERDICT t.toNat] s1 v) ∧
    (∀ (la n m : Nat), PredReady s t e es 1 → pdOverlap d = false → pdBlocks d = 1 → pdTally d % 64 ≤ 48 →
      Held s t (pdTally d) true true la → Held s t (pdTally d + 8) true true (la + 8) → la % 16 = 0 →
      (∀ k, k < 16 → addrOk s (la + k) = true ∧ Clean s (la + k)) → (∀ o, place la ≠ .moraine o) →
      (la + 16 ≤ spadAddr t (pdAud d) ∨ spadAddr t (pdAud d) + pdLs d ≤ la) →
      n = memNat s (spadAddr t (pdAud d)) 4 → pdSrc d + (pdRows d - 1) * pdPitch d + pdRowBytes (pdFmt d) n ≤ spadBytes → m = (activeColumns s t d false n 0).length →
      ∃ v, exec (.check t env) s = .next v ∧ GmeLeft s v t e es .ok 0 ∧ memNat v (spadAddr t (pdAud d) + 8) 4 = m ∧
        memNat v la 8 = (memNat s la 8 + n) % 2 ^ 64 ∧ memNat v (la + 8) 8 = (memNat s (la + 8) 8 + m) % 2 ^ 64 ∧
        rget v (R.PRED_AUDIT t.toNat) F.PRED_AUDIT_COUNT = satAdd F.PRED_AUDIT_COUNT.w (rget s (R.PRED_AUDIT t.toNat) F.PRED_AUDIT_COUNT) n ∧
        rget v (R.PRED_MISS t.toNat) F.PRED_MISS_COUNT = satAdd F.PRED_MISS_COUNT.w (rget s (R.PRED_MISS t.toNat) F.PRED_MISS_COUNT) m)

namespace Sys2Proof

/-- A saturating event counter has gone up by one (R10). -/
def CountedUp (o : Nat) (f : Fld) (u v : Machine.State) : Prop := rget v o f = min (rget u o f + 1) (2 ^ f.w - 1)

/-- The state with its registers, memory, error marks, directory work and count of free values left out. -/
def noCopies (s : Machine.State) : Machine.State := { s with regs := [], mem := [], ecc := [], exd := Exd.reset, freeCtr := 0 }

/-- Expert `e` has taken residency state `r`, and its residency table entry reads `w` (R280). No other byte of memory changed, and
no register but those at `offs`. -/
structure ResTaken (e r w : Nat) (offs : List Nat) (u v : Machine.State) : Prop where
  res   : resOf v e = r
  entry : rdBytes v (restabAddr u e) 8 = natLe 8 w
  bytes : ∀ a, a < restabAddr u e ∨ restabAddr u e + 8 ≤ a → rdByte v a = rdByte u a
  regs  : ∀ o, o ∉ R.DIR_LOCAL e :: offs → rraw v o = rraw u o
  rest  : noCopies v = noCopies u

/-- The bytes of an expert's residency table entry are as they were written. -/
def TableSound (u : Machine.State) (e : Nat) : Prop := ∀ k, k < 8 → Clean u (restabAddr u e + k)

/-- Every queued copy has what it needs: a write-back, or a fetch with its slot; none is a fetch of expert `e`. -/
def QueuesServed (u : Machine.State) (e : Nat) : Prop :=
  ∀ j ∈ u.exd.demands ++ u.exd.prefs, j.1 = true ∨ (isPool u j.2 = true ∧ j.2 ≠ e)

/-- No byte of `n` from `a` lies in a marked codeword. -/
def NoMarks (u : Machine.State) (a n : Nat) : Prop := ∀ p ∈ u.ecc, p.1 * 32 < a ∨ a + n ≤ p.1 * 32

/-- The moraine copy of an expert lies in mapped capacity. -/
def CopyMapped (u : Machine.State) (e : Nat) : Prop :=
  (∃ o, place (dirMor u e) = .moraine o) ∧ addrOk u (dirMor u e) = true ∧ addrOk u (dirMor u e + dirPages u e * pageBytes - 1) = true

end Sys2Proof

/-- EXD_CMD (R279, Table 10-10, R280). -/
def Obligations.DirectoryCommands : Prop :=
  ∀ (e : ExpertId) (s : Machine.State) (n : Nat), n = e.toNat → HostReaches s (hostCtl s) →
    (rbit s R.EXD_CMD_STAT F.EXD_CMD_STAT_BUSY = true →
      ∀ c ∈ [Instr.adoptRes e, .adoptRest e, .drop e, .commit, .retry e], exec c s = .next s) ∧
    (rbit s R.EXD_CMD_STAT F.EXD_CMD_STAT_BUSY = false →
      (∃ v, exec .commit s = .next v ∧ rbit v R.EXD_CMD_STAT F.EXD_CMD_STAT_BUSY = true ∧
        rget v R.EXD_CMD_STAT F.EXD_CMD_STAT_STATUS = 0 ∧ OnlyRegs [R.EXD_CMD_STAT] s v) ∧
      (TableSound s n → resOf s n = 0 →
        (∃ v, exec (.adoptRes e) s = .next v ∧ ResTaken n 3 (dirVa s n + 3 * 2 ^ 48) [R.EXD_CMD_STAT] s v ∧
          v.exd = s.exd ∧ rget v R.EXD_CMD_STAT F.EXD_CMD_STAT_STATUS = 0) ∧
        ∃ v, exec (.adoptRest e) s = .next v ∧ ResTaken n 1 (2 ^ 48) [R.EXD_CMD_STAT] s v ∧
          v.exd = s.exd ∧ rget v R.EXD_CMD_STAT F.EXD_CMD_STAT_STATUS = 0) ∧
      (TableSound s n → resOf s n = 1 ∨ resOf s n = 5 ∨ (resOf s n = 3 ∧ isPool s n = false) →
        ∃ v, exec (.drop e) s = .next v ∧ ResTaken n 0 0 [R.EXD_CMD_STAT, R.DIR_VA n] s v ∧ dirVa v n = 0 ∧
          v.exd = { s.exd with held := s.exd.held.filter (· != n) } ∧
          rget v R.EXD_CMD_STAT F.EXD_CMD_STAT_STATUS = 0) ∧
      (∀ i l, TableSound s n → resOf s n = 5 → freeSlots s = i :: l →
        ∃ v, exec (.retry e) s = .next v ∧ ResTaken n 2 (2 * 2 ^ 48) [R.EXD_CMD_STAT, R.MOR_SLOTS] s v ∧
          v.exd = { s.exd with slots := mins s.exd.slots n i, demands := s.exd.demands ++ [(false, n)] } ∧
          rget v R.EXD_CMD_STAT F.EXD_CMD_STAT_STATUS = 0) ∧
      (resOf s n = 5 → freeSlots s = [] → victim s = none → n ∉ s.exd.held →
        ∃ v, exec (.retry e) s = .next v ∧ v.exd = { s.exd with held := s.exd.held ++ [n] } ∧
          rget v R.EXD_CMD_STAT F.EXD_CMD_STAT_STATUS = 0 ∧ OnlyRegs [R.EXD_CMD_STAT] { s with exd := v.exd } v) ∧
      ∀ p ∈ [(Instr.adoptRes e, resOf s n ≠ 0), (.adoptRest e, resOf s n ≠ 0), (.retry e, resOf s n ≠ 5),
          (.drop e, resOf s n = 0 ∨ resOf s n = 2 ∨ resOf s n = 4 ∨ (resOf s n = 3 ∧ isPool s n = true))],
        p.2 → ∃ v, exec p.1 s = .next v ∧ rget v R.EXD_CMD_STAT F.EXD_CMD_STAT_STATUS = 8 ∧ OnlyRegs [R.EXD_CMD_STAT] s v)

/-- COMMIT completes (R277). -/
def Sys2Proof.Claims.DirectoryImages : Prop :=
  ∀ (s : Machine.State) (base : Nat), base = imageBase s (rget s R.EXD_EPOCH F.EXD_EPOCH_CURRENT + 1) →
    (rbit s R.EXD_CMD_STAT F.EXD_CMD_STAT_BUSY = false → exec .exdCommitComplete s = .next s) ∧
    (rbit s R.EXD_CMD_STAT F.EXD_CMD_STAT_BUSY = true → MemoryWf s → ∃ v, exec .exdCommitComplete s = .next v ∧
      rbit v R.EXD_CMD_STAT F.EXD_CMD_STAT_BUSY = false ∧
      rget v R.EXD_EPOCH F.EXD_EPOCH_CURRENT = (rget s R.EXD_EPOCH F.EXD_EPOCH_CURRENT + 1) % 2 ^ 32 ∧
      (∀ e, e < 65536 → rdBytes v (base + 16 * e) 8 = natLe 8 (rraw s (R.DIR_ROUTE e)) ∧
        rdBytes v (base + 16 * e + 8) 8 = natLe 8 (rraw s (R.DIR_REPL e)) ∧ dirLive v e = rraw s (R.DIR_ROUTE e)) ∧
      (∀ a, a < base ∨ base + 16 * 65536 ≤ a → rdByte v a = rdByte s a) ∧
      (∀ o, o ∉ [R.EXD_CMD_STAT, R.EXD_EPOCH] → rraw v o = rraw s o) ∧
      noMem v = noMem { s with exd := { s.exd with live := v.exd.live } })

/-- Ends of fetches, write-backs and their failures (R280, R281, R289). -/
def Sys2Proof.Claims.ExpertCopies : Prop :=
  ∀ (e i src dst n : Nat) (s : Machine.State), mfind s.exd.slots e = some i → e < 65536 → TableSound s e →
    src = dirMor s e → dst = slotLa s i → n = dirPages s e * pageBytes → s.exd.held = [] → s.exd.after = [] → QueuesServed s e →
    (s.exd.job = some (false, e) → copyServed s e = false → ∀ bad, exec (.fetchComplete bad) s = .next s) ∧
    (s.exd.job = some (true, e) → copyServed s e = false → ∀ bad, exec (.evictionComplete bad) s = .next s) ∧
    (s.exd.job = some (false, e) → copyServed s e = true → MemoryWf s → NoMarks s src n → CopyMapped s e →
      ∃ v, exec (.fetchComplete false) s = .next v ∧ resOf v e = 3 ∧ dirVa v e = slotVa s i % 2 ^ 48 ∧
        v.exd = { s.exd with job := none } ∧ CountedUp R.EXD_FETCHES F.EXD_FETCHES_COUNT s v ∧
        (∀ a, a < restabAddr s e ∨ restabAddr s e + 8 ≤ a →
          rdByte v a = if dst ≤ a ∧ a < dst + n then rdByte s (src + (a - dst)) else rdByte s a) ∧
        ∀ o, o ∉ [R.DIR_LOCAL e, R.DIR_VA e, R.EXD_FETCHES] → rraw v o = rraw s o) ∧
    (s.exd.job = some (true, e) → copyServed s e = true → MemoryWf s → NoMarks s dst n → CopyMapped s e →
      ∃ v, exec (.evictionComplete false) s = .next v ∧ resOf v e = 1 ∧ dirVa v e = 0 ∧
        v.exd = { s.exd with job := none, slots := mdel s.exd.slots e } ∧ CountedUp R.EXD_EVICTS F.EXD_EVICTS_COUNT s v ∧
        (∀ a, a < restabAddr s e ∨ restabAddr s e + 8 ≤ a →
          rdByte v a = if src ≤ a ∧ a < src + n then rdByte s (dst + (a - src)) else rdByte s a) ∧
        ∀ o, o ∉ [R.DIR_LOCAL e, R.DIR_VA e, R.EXD_EVICTS, R.MOR_SLOTS] → rraw v o = rraw s o) ∧
    (s.exd.job = some (false, e) → copyServed s e = true →
      (CopyMapped s e → ∃ v, exec (.fetchComplete true) s = .next v ∧ resOf v e = 5 ∧ mfind v.exd.faults e = some .faultEcc ∧
        v.exd.slots = mdel s.exd.slots e ∧ v.exd.job = none ∧ CountedUp R.MOR_ERR F.MOR_ERR_POISON s v) ∧
      (addrOk s src = false → ∃ v, exec (.fetchComplete false) s = .next v ∧
        ResTaken e 5 (5 * 2 ^ 48) [R.MOR_SLOTS] s v ∧
        v.exd = { s.exd with job := none, faults := mins s.exd.faults e .protection, slots := mdel s.exd.slots e })) ∧
    (s.exd.job = some (true, e) → s.mgmt.receiver = none → copyServed s e = true → CopyMapped s e →
      ∃ v, exec (.evictionComplete true) s = .next v ∧ resOf v e = 3 ∧ v.exd = { s.exd with job := none } ∧
        CountedUp R.EXD_WB_FAIL F.EXD_WB_FAIL_COUNT s v ∧ bit (rget v R.MGMT_ALERT F.MGMT_ALERT_EVENTS) 6 = true) ∧
    (s.exd.job = some (false, e) → ∃ v, exec (.moraineTimeout []) s = .next v ∧
      ResTaken e 5 (5 * 2 ^ 48) [R.MOR_SLOTS, R.MOR_ERR] s v ∧
      v.exd = { s.exd with job := none, faults := mins s.exd.faults e .timeout, slots := mdel s.exd.slots e } ∧
      CountedUp R.MOR_ERR F.MOR_ERR_TIMEOUT s v) ∧
    (s.exd.job = some (true, e) → s.mgmt.receiver = none → ∃ v, exec (.moraineTimeout []) s = .next v ∧
      ResTaken e 3 (dirVa s e + 3 * 2 ^ 48) [R.MOR_ERR, R.EXD_WB_FAIL, R.MGMT_ALERT] s v ∧ v.exd = { s.exd with job := none } ∧
      CountedUp R.MOR_ERR F.MOR_ERR_TIMEOUT s v ∧ CountedUp R.EXD_WB_FAIL F.EXD_WB_FAIL_COUNT s v ∧
      bit (rget v R.MGMT_ALERT F.MGMT_ALERT_EVENTS) 6 = true) ∧
    ∀ (k : Nat) (ks : List Nat), exec (.moraineTimeout (k :: ks)) s = .next { s with morLost := s.morLost ++ (k :: ks).filter morLine }

/-- Which copy starts (R282, R283), and EXPANDER_CONFIGURED. -/
def Sys2Proof.Claims.ExpertCopiesStart : Prop :=
  ∀ (e i k : Nat) (j : Bool × Nat) (l : List (Bool × Nat)) (ks : List Nat) (port : Bool) (width : BitVec 5) (gib : BitVec 13)
    (s : Machine.State),
    (s.exd.job ≠ none → exec .directoryTransferStart s = .next s) ∧
    (s.exd.job = none → s.exd.demands = [] → s.exd.prefs = [] → exec .directoryTransferStart s = .next s) ∧
    (s.exd.job = none → (∀ x ∈ s.exd.demands ++ s.exd.prefs, x.1 = true ∨ isPool s x.2 = true) →
      (s.exd.demands = j :: l →
        exec .directoryTransferStart s = .next { s with exd := { s.exd with demands := l, job := some j } }) ∧
      (s.exd.demands = [] → s.exd.prefs = j :: l →
        exec .directoryTransferStart s = .next { s with exd := { s.exd with prefs := l, job := some j } })) ∧
    (s.exd.job = none → s.exd.demands = [(false, e)] → s.exd.prefs = [] → isPool s e = false → freeSlots s = k :: ks →
      ∃ v, exec .directoryTransferStart s = .next v ∧ OnlyRegs [R.MOR_SLOTS] { s with exd := v.exd } v ∧
        v.exd = { s.exd with slots := mins s.exd.slots e k, demands := [], job := some (false, e) }) ∧
    (s.exd.job = none → s.exd.demands = (false, e) :: l → (∀ x ∈ (false, e) :: l, x.1 = false ∧ isPool s x.2 = false) →
      freeSlots s = [] → victim s = some i → TableSound s i → i < 65536 →
      (dirRestRo s i = false → ∃ v, exec .directoryTransferStart s = .next v ∧ ResTaken i 4 (2 ^ 48) [] s v ∧
        v.exd = { s.exd with job := some (true, i) }) ∧
      (dirRestRo s i = true → mfind s.exd.slots i = some k → ∃ v, exec .directoryTransferStart s = .next v ∧
        ResTaken i 1 (2 ^ 48) [R.DIR_VA i, R.MOR_SLOTS] s v ∧
        v.exd = { s.exd with slots := mins (mdel s.exd.slots i) e k, demands := l, job := some (false, e) })) ∧
    ∃ v, exec (.expanderConfigured port width gib) s = .next v ∧ rbit v (R.MOR_PORT (b2n port)) F.MOR_PORT_UP = true ∧
      rget v (R.MOR_PORT (b2n port)) F.MOR_PORT_WIDTH = width.toNat ∧ rget v (R.MOR_PORT (b2n port)) F.MOR_PORT_CAP_GIB = gib.toNat ∧
      OnlyRegs [R.MOR_PORT (b2n port)] s v

/-- Directory images, and the fetches and write-backs of experts. -/
def Obligations.ExpertImagesAndCopies : Prop :=
  Sys2Proof.Claims.DirectoryImages ∧ Sys2Proof.Claims.ExpertCopies ∧ Sys2Proof.Claims.ExpertCopiesStart

namespace Sys2Proof

/-- The state with its registers, tiles, region requests and Ablation commands left out. -/
def noRegions (s : Machine.State) : Machine.State := { s with regs := [], tiles := [], rgns := [], abl := [] }

/-- Only the registers at `offs`, region requests and Ablation commands may differ. -/
structure RegionOnly (offs : List Nat) (u v : Machine.State) : Prop where
  rest  : noRegions v = noRegions u
  regs  : ∀ o, o ∉ offs → rraw v o = rraw u o
  tiles : ∀ t, v.tile t = u.tile t

/-- The reader counts of a region's version entry. -/
def countRegs (n : Nat) : List Nat := [R.RGNV_COUNT0 (n / 4096) (n % 4096), R.RGNV_COUNT1 (n / 4096) (n % 4096)]

/-- The word of a region's version entry that holds its state. -/
def stateReg (n : Nat) : Nat := R.RGNV_STATE (n / 4096) (n % 4096)

end Sys2Proof

/-- RGN.ACQ at the entry (R305, R308). -/
def Sys2Proof.Claims.RegionAcquires : Prop :=
  ∀ (t : TileId) (r : RegionId) (q : RgnReq) (s : Machine.State) (n e : Nat), n = r.toNat → e = q.epoch.toNat →
    s.rgns.find? (fun x => x.acq && !x.held && decide (x.tile = t ∧ x.region = r)) = some q →
    (s.domReach (48 + n / 4096) = true →
      ((e = rgnEpoch s n ∧ ¬ (rgnState s n = 2 ∧ rgnDouble s n = false)) ∨ (e = rgnNext s n ∧ rgnState s n = 3) →
        rgnCount s n (rgnCopy s n e) < 2 ^ 20 - 1 → ∃ v, exec (.regionAcquire t r) s = .next v ∧
          rgnCount v n (rgnCopy s n e) = rgnCount s n (rgnCopy s n e) + 1 ∧
          semVal v t (fullSem q.link) = min (semVal s t (fullSem q.link) + 1) 0xFFFF ∧ v.rgns = s.rgns.erase q ∧ v.abl = s.abl ∧
          RegionOnly (R.SEM t.toNat (fullSem q.link).toNat :: R.FC_PROGRESS t.toNat :: countRegs n) s v) ∧
      (e = rgnNext s n → rgnState s n ≠ 3 → rgnHeld s n < 2 ^ 16 - 1 → ∃ v, exec (.regionAcquire t r) s = .next v ∧
        rgnHeld v n = rgnHeld s n + 1 ∧ v.rgns = s.rgns.map (fun x => if x = q then { x with held := true } else x) ∧
        v.abl = s.abl ∧ RegionOnly [stateReg n] s v) ∧
      ((e ≠ rgnEpoch s n ∧ e ≠ rgnNext s n) ∨ (e = rgnEpoch s n ∧ rgnState s n = 2 ∧ rgnDouble s n = false) →
        ∃ v, exec (.regionAcquire t r) s = .next v ∧ CountedUp (R.RGN_REFUSED (n / 4096)) F.RGN_REFUSED_COUNT s v ∧
          v.rgns = s.rgns.erase q ∧ v.abl = s.abl ∧
          (v.tile t).x = { (s.tile t).x with faults := (s.tile t).x.faults ++ [⟨4, .protection, q.pc, 0⟩] } ∧
          (∀ w, w ≠ t → v.tile w = s.tile w) ∧ noRegions v = noRegions s ∧
          ∀ o, o ≠ R.RGN_REFUSED (n / 4096) → rraw v o = rraw s o)) ∧
    (s.domReach (48 + n / 4096) = false → ∃ v, exec (.regionAcquire t r) s = .next v ∧ v.rgns = s.rgns.erase q ∧
      CountedUp R.PDC_ORPHAN F.PDC_ORPHAN_COUNT s v ∧ v.abl = s.abl ∧ RegionOnly [R.PDC_ORPHAN] s v)

/-- RGN.REL at the entry (R306, R308). -/
def Sys2Proof.Claims.RegionReleases : Prop :=
  ∀ (t : TileId) (r : RegionId) (q : RgnReq) (s : Machine.State) (n c : Nat), n = r.toNat → c = rgnCopy s n q.epoch.toNat →
    s.rgns.find? (fun x => !x.acq && decide (x.tile = t ∧ x.region = r)) = some q →
    (enginesDone s t q.no = false → exec (.regionRelease t r) s = .next s) ∧
    (enginesDone s t q.no = true → s.domReach (48 + n / 4096) = true →
      (rgnCount s n c = 0 → ∃ v, exec (.regionRelease t r) s = .next v ∧ v.rgns = s.rgns.erase q ∧
        CountedUp (R.RGN_UNDER (n / 4096)) F.RGN_UNDER_COUNT s v ∧ v.abl = s.abl ∧ RegionOnly [R.RGN_UNDER (n / 4096)] s v) ∧
      (0 < rgnCount s n c → s.exd.heldEvict = [] →
        (rgnState s n = 0 ∨ rgnState s n = 2 → (s.ablJobs (n / 4096)).any (heldJob n) = false →
          ∃ v, exec (.regionRelease t r) s = .next v ∧ rgnCount v n c + 1 = rgnCount s n c ∧ v.rgns = s.rgns.erase q ∧
            v.abl = s.abl ∧ RegionOnly (countRegs n) s v) ∧
        (rgnState s n = 1 → c = 0 → rgnCount s n c = 1 → ∃ v, exec (.regionRelease t r) s = .next v ∧ rgnState v n = 2 ∧
          rgnCount v n 0 = 0 ∧ v.rgns = s.rgns.erase q ∧
          v.ablJobs (n / 4096) = modFirst (heldJob n) (fun j => { j with phase := .writing }) (s.ablJobs (n / 4096)) ∧
          RegionOnly (stateReg n :: countRegs n) s v) ∧
        (rgnState s n = 3 → c = rgnCopy s n (rgnEpoch s n) → rgnCount s n c = 1 → rgnDouble s n = true →
          (s.ablJobs (n / 4096)).any (heldJob n) = false → ∃ v, exec (.regionRelease t r) s = .next v ∧ rgnState v n = 0 ∧
            rgnEpoch v n = rgnNext s n ∧ rgnCount v n c = 0 ∧ v.rgns = s.rgns.erase q ∧ v.abl = s.abl ∧
            CountedUp (R.RGN_FLIPS (n / 4096)) F.RGN_FLIPS_COUNT s v ∧
            RegionOnly (R.RGNV_EPOCH (n / 4096) (n % 4096) :: R.RGN_FLIPS (n / 4096) :: stateReg n :: countRegs n) s v)))

/-- RGNV_WRITE (R311). -/
def Sys2Proof.Claims.RegionWrites : Prop :=
  ∀ (r : RegionId) (k : BitVec 2) (x : W32) (s : Machine.State) (n : Nat), n = r.toNat → HostReaches s (48 + n / 4096) →
    (rgnQuiet s n = false → k = 0 ∨ k = 1 → exec (.rgnvWrite r k x) s = .next s) ∧
    (rgnQuiet s n = true → k = 0 → ∃ v, exec (.rgnvWrite r k x) s = .next v ∧ rgnEpoch v n = x.toNat ∧
      OnlyRegs [R.RGNV_EPOCH (n / 4096) (n % 4096)] s v) ∧
    (rgnQuiet s n = true → k = 1 → rgnEpoch s n % 2 = 0 → ∃ v, exec (.rgnvWrite r k x) s = .next v ∧
      rget v (stateReg n) F.RGNV_STATE_DOUBLE = b2n (x.getLsbD 2) ∧ rgnState v n = rgnState s n ∧ rgnHeld v n = rgnHeld s n ∧
      OnlyRegs [stateReg n] s v) ∧
    (rgnQuiet s n = true → k = 1 → rgnEpoch s n % 2 = 1 → exec (.rgnvWrite r k x) s = .next s) ∧
    (k = 2 ∨ k = 3 → s.exd.heldEvict = [] → rgnState s n = 0 → (s.ablJobs (n / 4096)).any (heldJob n) = false →
      ∃ v, exec (.rgnvWrite r k x) s = .next v ∧ rgnCount v n (k.toNat - 2) = x.toNat % 2 ^ 20 ∧
        rgnCount v n (3 - k.toNat) = rgnCount s n (3 - k.toNat) ∧ OnlyRegs (countRegs n) s v)

/-- RGN.ACQ and RGN.REL at a version entry, and the host's writes to it. -/
def Obligations.RegionVersions : Prop :=
  Sys2Proof.Claims.RegionAcquires ∧ Sys2Proof.Claims.RegionReleases ∧ Sys2Proof.Claims.RegionWrites

namespace Sys2Proof

/-- The Ablation Unit of stack `n` is in RUN and its stack is ON. -/
def UnitRuns (s : Machine.State) (n : Nat) : Prop := rget s (R.ABL_STATUS n) F.ABL_STATUS_STATE = 0 ∧ s.domOn (48 + n) = true

/-- Job `j` of stack `n` is the one its unit runs next, and has ended in `v` with a status and a block. -/
def JobEnded (n : Nat) (j : AblJob) (code : Status) (b : Nat) (u v : Machine.State) : Prop :=
  v.ablJobs n = modFirst (fun x => decide (x = j)) (fun _ => { j with phase := .done code b }) (u.ablJobs n)

/-- Every one of `n` bytes from `a` lies in a good codeword. -/
def GoodBytes (s : Machine.State) (a n : Nat) : Prop := ∀ k, k < n → Clean s (a + k)

/-- The values of a KB16 array's block 0 as FP32 words (R316). -/
def kbWord (s : Machine.State) (r la i : Nat) : Nat :=
  wrF32 ((kbValues (rdByte s (la + 64 * rNblk s r)).toNat (rdBytes s la 64)).getD i (.fin false 0 0))

/-- The addresses of a region's master, moments and target image (R337). -/
def regionBytes (s : Machine.State) (r : Nat) : List Nat :=
  kbAddrs s r (rMaster s r) ++ (if rMoments s r then kbAddrs s r (rM1 s r) ++ kbAddrs s r (rM2 s r) else []) ++
    imgAddrs s r (targetCopy s r)

/-- A command whose descriptor stands as it was accepted, its gradient not lost, is the one that the unit of stack `n` runs next. -/
def JobAt (s : Machine.State) (n : Nat) (j : AblJob) : Prop := curJob s n = some j ∧ j.lost = false ∧ j.spoilt = false

/-- No byte that a command writes lies in an array of another region or in its gradient (Table 12-8). -/
def Unshared (s : Machine.State) (c : DWord) : Prop :=
  ∀ a ∈ rgnBytes s (aRegion c), (∀ x ∈ otherRegions s (aRegion c), inRegion s x a = false) ∧
    (aOp c = 0 → aInbox c = false → a < aF c 0x28 8 ∨ aF c 0x28 8 + rNblk s (aRegion c) * 32 * aElem c ≤ a)

/-- The state with its registers and inboxes left out. -/
def noInbox (s : Machine.State) : Machine.State := { s with regs := [], inbox := [], inboxOut := [] }

end Sys2Proof

/-- UPDATE, ABLATION_COMMAND_ARRIVAL and READER_WAIT_TIMEOUT (R319 to R322). -/
def Sys2Proof.Claims.UpdatesArrive : Prop :=
  ∀ (st : StackId) (q : QIdx) (seq : W32) (c : Cmd) (j : AblJob) (l : List AblJob) (s : Machine.State) (n r : Nat), n = st.toNat →
    r = aRegion j.cmd → r / 4096 = n → j.phase = .sent → j.owner = .cmd q seq →
    (AtHand s q seq 3 c → ∃ v, exec (.update q seq) s = .next v ∧
      v.cmd q seq = some { c with phase := .running, left := (updCmds c).length } ∧
      (∀ m, v.ablJobs m = s.ablJobs m ++
        ((updCmds c).filter (fun d => aRegion d / 4096 == m)).map (fun d => ⟨d, .cmd q seq, .sent, [], false, false, false⟩)) ∧
      (∀ o, rraw v o = rraw s o) ∧ ∀ a, rdByte v a = rdByte s a) ∧
    ((∀ x ∈ s.ablJobs n, x.phase ≠ .sent) → exec (.ablationCommandArrival st) s = .next s) ∧
    (s.ablJobs n = j :: l → UnitRuns s n → (∀ x ∈ l, x.phase = .sent) → ablRefused s j.cmd = false → rgnState s r = 0 →
      (rgnDouble s r = true ∨ rgnCount s r 0 = 0 → ∃ v, exec (.ablationCommandArrival st) s = .next v ∧
        v.ablJobs n = { j with phase := .writing, lost := chanFailed s n j.cmd } :: l ∧ rgnState v r = 2 ∧ rget v (R.ABL_STATUS n) F.ABL_STATUS_QUEUED = 1 ∧
        RegionOnly [stateReg r, R.ABL_STATUS n] s v) ∧
      (rgnDouble s r = false → rgnCount s r 0 ≠ 0 → ∃ v, exec (.ablationCommandArrival st) s = .next v ∧
        v.ablJobs n = { j with phase := .held, lost := chanFailed s n j.cmd } :: l ∧ rgnState v r = 1 ∧ CountedUp (R.RGN_WAITS n) F.RGN_WAITS_COUNT s v ∧
        RegionOnly [stateReg r, R.RGN_WAITS n, R.ABL_STATUS n] s v)) ∧
    (s.ablJobs n = j :: l → UnitRuns s n → ablRefused s j.cmd = true → s.cmd q seq = some c → c.left = 1 → c.status = none →
      ∃ v, exec (.ablationCommandArrival st) s = .next v ∧ v.ablJobs n = l ∧
        v.cmd q seq = some { c with status := some .aborted, detail := r, faultAddr := 0, left := 0, phase := .ended } ∧
        ∀ o, rraw v o = rraw s o) ∧
    (s.ablJobs n = { j with phase := .held } :: l → rgnState s r = 1 → heldAcqs s r = [] → l.any (heldJob r) = false →
      s.cmd q seq = some c → c.left = 1 → c.status = none → ∀ g : RegionId, r = g.toNat →
      ∃ v, exec (.readerWaitTimeout g) s = .next v ∧ v.ablJobs n = l ∧ rgnState v r = 0 ∧
        v.cmd q seq = some { c with status := some .timeout, detail := r, faultAddr := 0, left := 0, phase := .ended } ∧
        rget v (R.ABL_ERRINFO n) F.ABL_ERRINFO_VALID = 1 ∧ rget v (R.ABL_ERRINFO n) F.ABL_ERRINFO_REGION = r % 4096 ∧
        rget v (R.ABL_ERRINFO n) F.ABL_ERRINFO_STATUS = Status.timeout.code ∧
        ∀ o, o ∉ [stateReg r, R.ABL_ERRINFO n, R.ABL_STATUS n] → rraw v o = rraw s o) ∧
    ∀ g : RegionId, rgnState s g.toNat ≠ 1 → exec (.readerWaitTimeout g) s = .next s

/-- APPLY, EMPTY, REIMAGE and ABLATION_COMMAND_TIMEOUT (R326, R331 to R333, R337, R338). That one command runs at a time
is R322; free values: log entry 3. -/
def Sys2Proof.Claims.UpdatesRun : Prop :=
  ∀ (st : StackId) (residue : List (Nat × Nat)) (j : AblJob) (s w : Machine.State) (n r : Nat) (code : Status) (b : Nat), n = st.toNat →
    r = aRegion j.cmd → r / 4096 = n → curJob s n = some j →
    (JobAt s n j → aOp j.cmd = 0 → aInbox j.cmd = false → code.stops = false → (stepCheck j.cmd s).1 = code →
      ablBlocks n residue (ruleBlock j.cmd (ablConst j.cmd) (gradHbm j.cmd)) (List.range (rNblk s r)) (stepCheck j.cmd s).2 = ((.ok, 0), w) →
      w.abl = s.abl → Unshared w j.cmd → ∃ v, exec (.apply st residue) s = .next v ∧ JobEnded n j code 0 s v ∧
        (∀ o, o ≠ R.ABL_STATUS n → rraw v o = rraw w o) ∧ ∀ a, rdByte v a = rdByte w a) ∧
    (JobAt s n j → aOp j.cmd = 0 → aInbox j.cmd = false → (stepCheck j.cmd s).1 = .ok → code ≠ .ok →
      ablBlocks n residue (ruleBlock j.cmd (ablConst j.cmd) (gradHbm j.cmd)) (List.range (rNblk s r)) (stepCheck j.cmd s).2 = ((code, b), w) →
      w.abl = s.abl → ∃ v, exec (.apply st residue) s = .next v ∧ JobEnded n j code b s v ∧
        ∀ o, o ≠ R.ABL_STATUS n → rraw v o = rraw w o) ∧
    (aOp j.cmd = 0 → j.lost = true → ∃ v, exec (.apply st residue) s = .next v ∧ JobEnded n j .aborted 0 s v) ∧
    (aOp j.cmd = 1 → skipEmpty s n = true → rgnDouble s r = false → aClr j.cmd = true ∨ aF j.cmd 0x0C 4 = (rBct s r + 1) % 2 ^ 32 →
      ∃ v, exec (.empty st residue) s = .next v ∧ JobEnded n j .ok 0 s v ∧ CountedUp (R.ABL_SKIPS n) F.ABL_SKIPS_COUNT s v ∧
        RegionOnly [R.ABL_SKIPS n, R.ABL_STATUS n] s v) ∧
    (aOp j.cmd = 1 → skipEmpty s n = true → rgnDouble s r = false → aClr j.cmd = false → aF j.cmd 0x0C 4 ≠ (rBct s r + 1) % 2 ^ 32 →
      ∃ v, exec (.empty st residue) s = .next v ∧ JobEnded n j .stepMismatch 0 s v ∧
        CountedUp (R.ABL_SKIPS n) F.ABL_SKIPS_COUNT s v ∧ CountedUp (R.ABL_STEPDIFF n) F.ABL_STEPDIFF_COUNT s v ∧
        RegionOnly [R.ABL_SKIPS n, R.ABL_STEPDIFF n, R.ABL_STATUS n] s v) ∧
    (aOp j.cmd = 2 → j.spoilt = false → Unshared s j.cmd → rNblk s r = 1 → rFmt s r = 1 → rgnDouble s r = false →
      GoodBytes s (rMaster s r) 65 → GoodBytes s (rImg s r 0) 64 →
      ∃ v, exec (.reimage st []) s = .next v ∧ JobEnded n j .ok 0 s v ∧
        rdBytes v (rImg s r 0) 64 =
          packElems 16 ((kbValues (rdByte s (rMaster s r + 64)).toNat (rdBytes s (rMaster s r) 64)).map (convElem 1)) ∧
        (∀ a, a < rImg s r 0 ∨ rImg s r 0 + 64 ≤ a → rdByte v a = rdByte s a) ∧ ∀ o, o ≠ R.ABL_STATUS n → rraw v o = rraw s o) ∧
    (JobAt s n j → aOp j.cmd = 0 → aInbox j.cmd = false → aRule j.cmd = 0 → aSr j.cmd = false → aBf16 j.cmd = false →
      (stepCheck j.cmd s).1 = .ok → Unshared s j.cmd →
      rNblk s r = 1 → rFmt s r = 1 → rgnDouble s r = false → GoodBytes s (rMaster s r) 65 → GoodBytes s (rImg s r 0) 64 →
      GoodBytes s (aF j.cmd 0x28 8) 128 → rMaster s r + 65 ≤ rImg s r 0 →
      ∀ x, x = quantBlock fKb16 ((List.range 32).map (fun i => rdF32 (ablElem j.cmd (ablConst j.cmd) (kbWord s r (rMaster s r) i) 0 0
        (leNat (rdBytes s (aF j.cmd 0x28 8 + 4 * i) 4))).1)) →
      ∃ v, exec (.apply st []) s = .next v ∧ JobEnded n j .ok 0 s v ∧ rdBytes v (rMaster s r) 64 = x.2 ∧
        (rdByte v (rMaster s r + 64)).toNat = x.1 % 256 ∧
        rdBytes v (rImg s r 0) 64 = packElems 16 ((kbValues x.1 x.2).map (convElem 1)) ∧
        (∀ a, a < rMaster s r ∨ rMaster s r + 65 ≤ a → a < rImg s r 0 ∨ rImg s r 0 + 64 ≤ a → rdByte v a = rdByte s a)) ∧
    (aInbox j.cmd = false → ∃ v, exec (.ablationCommandTimeout st) s = .next v ∧ JobEnded n j .timeout 0 s v ∧
      CountedUp (R.ABL_TIMEOUTS n) F.ABL_TIMEOUTS_COUNT s v ∧
      (∀ o, o ∉ [R.ABL_TIMEOUTS n, R.ABL_STEPDIFF n, R.ABL_STATUS n] → rraw v o = rraw s o) ∧
      (aOp j.cmd = 2 ∨ (stepCheck j.cmd s).1 = .ok → rraw v (R.ABL_STEPDIFF n) = rraw s (R.ABL_STEPDIFF n)) ∧
      (aOp j.cmd ≠ 2 → (stepCheck j.cmd s).1 ≠ .ok → CountedUp (R.ABL_STEPDIFF n) F.ABL_STEPDIFF_COUNT s v) ∧
      (∀ a, a ∉ regionBytes s r → rdByte v a = rdByte s a) ∧
      ∀ a ∈ regionBytes s r, a / 2 ^ 36 = n → addrOk s a = true → ∃ k, rdByte v a = Config.freeByte k)

/-- Ablation commands arrive, pass the version entry, and run. -/
def Obligations.UpdatesRun : Prop :=
  Sys2Proof.Claims.UpdatesArrive ∧ Sys2Proof.Claims.UpdatesRun

/-- ABLATION_COMMAND_COMPLETE (R308, R332, R337). -/
def Sys2Proof.Claims.UpdatesComplete : Prop :=
  ∀ (st : StackId) (q : QIdx) (seq : W32) (c : Cmd) (j : AblJob) (s : Machine.State) (n r : Nat), n = st.toNat →
    r = aRegion j.cmd → r / 4096 = n → j.owner = .cmd q seq → s.cmd q seq = some c → c.left = 1 → c.status = none →
    (j.phase = .done .ok 0 → s.ablJobs n = [j] → aOp j.cmd ≠ 2 → rgnDouble s r = false → heldAcqs s r = [] →
      ∃ v, exec (.ablationCommandComplete st) s = .next v ∧ v.ablJobs n = [] ∧ rgnState v r = 0 ∧ rgnEpoch v r = rgnNext s r ∧
        rBct v r = aF j.cmd 0x0C 4 ∧ v.cmd q seq = some { c with left := 0, phase := .ended } ∧
        rget v (R.ABL_STATUS n) F.ABL_STATUS_QUEUED = 0 ∧
        ∀ o, o ∉ [stateReg r, R.RGNV_EPOCH n (r % 4096), R.RGND n (r % 4096) 6, R.ABL_STATUS n] → rraw v o = rraw s o) ∧
    (∀ b, j.phase = .done .faultEcc b → b < 2 ^ 23 → s.ablJobs n = [j] → heldAcqs s r = [] →
      ∃ v, exec (.ablationCommandComplete st) s = .next v ∧ v.ablJobs n = [] ∧ rgnState v r = 0 ∧ rgnEpoch v r = rgnEpoch s r ∧
        rget v (R.ABL_ERRINFO n) F.ABL_ERRINFO_VALID = 1 ∧ rget v (R.ABL_ERRINFO n) F.ABL_ERRINFO_REGION = r % 4096 ∧
        rget v (R.ABL_ERRINFO n) F.ABL_ERRINFO_BLOCK = b ∧ rget v (R.ABL_ERRINFO n) F.ABL_ERRINFO_STATUS = 5 ∧
        v.cmd q seq = some { c with status := some .faultEcc, detail := r, faultAddr := 0, left := 0, phase := .ended } ∧
        ∀ o, o ∉ [stateReg r, R.ABL_ERRINFO n, R.ABL_STATUS n] → rraw v o = rraw s o) ∧
    ((∀ x ∈ s.ablJobs n, x.phase = .sent) → exec (.ablationCommandComplete st) s = .next s)

/-- INBOX_BUFFER, INBOX_RESET, and the states of Table 12-6 (R324, R339, R340). -/
def Sys2Proof.Claims.InboxesAndMicrocode : Prop :=
  ∀ (st : StackId) (ch : BitVec 4) (b d : Option (List Byte)) (l : List (Option (List Byte))) (s : Machine.State)
    (n k : Nat), n = st.toNat → k = inKey n ch.toNat →
    (mget (fun _ => []) s.inboxOut k = b :: d :: l → (inboxOf s k).length < 4 →
      ∃ v, exec (.inboxBuffer st ch) s = .next v ∧ inboxOf v k = inboxOf s k ++ [b] ∧ mget (fun _ => []) v.inboxOut k = d :: l ∧
        rget v (R.ABL_INBOX n ch.toNat) F.ABL_INBOX_FILLED = (inboxOf s k).length + 1 ∧ (∀ i, i ≠ k → inboxOf v i = inboxOf s i) ∧
        noInbox v = noInbox s ∧ ∀ o, o ≠ R.ABL_INBOX n ch.toNat → rraw v o = rraw s o) ∧
    (4 ≤ (inboxOf s k).length ∨ mget (fun _ => []) s.inboxOut k = [] → exec (.inboxBuffer st ch) s = .next s) ∧
    (HostReaches s (48 + n) →
      (∃ v, exec (.inboxReset st ch) s = .next v ∧ inboxOf v k = [] ∧ rraw v (R.ABL_INBOX n ch.toNat) % 16 = 0 ∧
        (∀ i, i ≠ k → inboxOf v i = inboxOf s i) ∧ v.inboxOut = s.inboxOut ∧ noInbox v = noInbox s ∧
        ∀ o, o ≠ R.ABL_INBOX n ch.toNat → rraw v o = rraw s o) ∧
      (rget s (R.ABL_STATUS n) F.ABL_STATUS_STATE = 0 → ∃ v, exec (.ablMcLoad st) s = .next v ∧
        rget v (R.ABL_STATUS n) F.ABL_STATUS_STATE = 1 ∧ OnlyRegs [R.ABL_STATUS n] s v) ∧
      (rget s (R.ABL_STATUS n) F.ABL_STATUS_STATE ≠ 0 → ∃ v, exec (.ablMcLoad st) s = .next v ∧
        rget v (R.ABL_MC_CTL n) F.ABL_MC_CTL_PEND = 1 ∧ OnlyRegs [R.ABL_MC_CTL n] s v)) ∧
    (rget s (R.ABL_STATUS n) F.ABL_STATUS_STATE = 1 → accepted s n = [] → ∃ v, exec (.ablDrainDone st) s = .next v ∧
      rget v (R.ABL_STATUS n) F.ABL_STATUS_STATE = 2 ∧ OnlyRegs [R.ABL_STATUS n] s v) ∧
    (rget s (R.ABL_STATUS n) F.ABL_STATUS_STATE = 1 → accepted s n ≠ [] → exec (.ablDrainDone st) s = .next s) ∧
    (rget s (R.ABL_STATUS n) F.ABL_STATUS_STATE ≠ 2 → exec (.ablMcLoadDone st) s = .next s) ∧
    ∀ a, a = n * 2 ^ 36 + rget s (R.ABL_MC_SRC n) F.ABL_MC_SRC_OFF * 64 → rget s (R.ABL_STATUS n) F.ABL_STATUS_STATE = 2 →
      GoodBytes s a s.mgmt.mcLen → (∀ i, i < s.mgmt.mcLen → (a + i) / 2 ^ 36 = n ∧ addrOk s (a + i) = true) →
      (Config.sha512 (rdBytes s a s.mgmt.mcLen) = s.mgmt.mcDigest → n ∈ s.mgmt.mcMarked →
        (rbit s (R.ABL_MC_CTL n) F.ABL_MC_CTL_PEND = false → ∃ v, exec (.ablMcLoadDone st) s = .next v ∧
          rget v (R.ABL_STATUS n) F.ABL_STATUS_STATE = 0 ∧ rraw v (R.ABL_MC_VER n) = s.mgmt.mcVer.toNat ∧
          OnlyRegs [R.ABL_STATUS n, R.ABL_MC_VER n] s v) ∧
        (rbit s (R.ABL_MC_CTL n) F.ABL_MC_CTL_PEND = true → ∃ v, exec (.ablMcLoadDone st) s = .next v ∧
          rget v (R.ABL_STATUS n) F.ABL_STATUS_STATE = 1 ∧ rbit v (R.ABL_MC_CTL n) F.ABL_MC_CTL_PEND = false ∧
          rraw v (R.ABL_MC_VER n) = s.mgmt.mcVer.toNat ∧ OnlyRegs [R.ABL_STATUS n, R.ABL_MC_VER n, R.ABL_MC_CTL n] s v)) ∧
      (Config.sha512 (rdBytes s a s.mgmt.mcLen) ≠ s.mgmt.mcDigest ∨ n ∉ s.mgmt.mcMarked →
        rbit s (R.ABL_MC_CTL n) F.ABL_MC_CTL_PEND = false → s.mgmt.receiver = none →
        ∃ v, exec (.ablMcLoadDone st) s = .next v ∧ rget v (R.ABL_STATUS n) F.ABL_STATUS_STATE = 0 ∧
          rget v (R.ABL_MC_STAT n) F.ABL_MC_STAT_ERR = 1 ∧ bit (rget v R.MGMT_ALERT F.MGMT_ALERT_EVENTS) 7 = true ∧
          OnlyRegs [R.ABL_STATUS n, R.ABL_MC_STAT n, R.MGMT_ALERT] s v)

/-- Ablation commands complete; inbox channels; microcode loads. -/
def Obligations.UpdatesComplete : Prop :=
  Sys2Proof.Claims.UpdatesComplete ∧ Sys2Proof.Claims.InboxesAndMicrocode

namespace Sys2Proof

/-- The state with its registers and ports left out. -/
def noPorts (s : Machine.State) : Machine.State := { s with regs := [], ports := [] }

/-- Only the registers at `offs` and what port `n` holds may differ. -/
structure OnlyPort (n : Nat) (offs : List Nat) (u v : Machine.State) : Prop where
  rest  : noPorts v = noPorts u
  regs  : ∀ o, o ∉ offs → rraw v o = rraw u o
  ports : ∀ k, k ≠ n → v.port k = u.port k

/-- Packets sent and unacknowledged on the module's ports. -/
def unackedPackets (s : Machine.State) : Nat := ((List.range 24).map (fun p => (s.port p).unacked.length)).sum

/-- Packets in the queue of port `n`. -/
def queuedOn (s : Machine.State) (n : Nat) : Nat := s.heldPkts.countP (fun h => h.out == some n)

/-- Port `n` has started anew, and what it had sent or queued is dropped and counted (R350). -/
structure PortDropped (n : Nat) (u v : Machine.State) : Prop where
  port  : v.port n = Port.reset
  drops : rget v R.MOS_LINK_DROP F.MOS_LINK_DROP_COUNT =
    min (rget u R.MOS_LINK_DROP F.MOS_LINK_DROP_COUNT + ((u.port n).unacked.length + queuedOn u n)) (2 ^ 32 - 1)
  held  : v.heldPkts.length + queuedOn u n = u.heldPkts.length

end Sys2Proof

/-- MOSP_CTL and MOS_CTL writes, and the end of a drain (R350). -/
def Sys2Proof.Claims.PortControl : Prop :=
  ∀ (p : PortId) (s : Machine.State) (n : Nat), n = p.toNat → n < 24 →
    (s.heldPkts = [] → retryPkts s = s) ∧
    (HostReaches s (6 + n / 6) →
      (∃ v, exec (.portEnable p) s = .next v ∧ rget v (R.MOSP_CTL n) F.MOSP_CTL_EN = 1 ∧
        rget v (R.MOSP_STATUS n) F.MOSP_STATUS_RETRAINS = 0 ∧
        portState v n = (if portState s n = 0 ∧ rbit s R.MOS_CTL F.MOS_CTL_EN = true then 1 else portState s n) ∧
        OnlyRegs [R.MOSP_CTL n, R.MOSP_STATUS n] s v) ∧
      ∃ v, exec (.portDisable p) s = .next (if portState s n = 1 ∨ portState s n = 5 then retryPkts v else v) ∧
        rget v (R.MOSP_CTL n) F.MOSP_CTL_EN = 0 ∧
        portState v n = (if portState s n = 1 ∨ portState s n = 5 then 0 else if portState s n = 2 then 4 else portState s n) ∧
        OnlyRegs [R.MOSP_CTL n, R.MOSP_STATUS n] s v) ∧
    (HostReaches s (hostCtl s) → s.heldPkts = [] → ∃ v, exec .fabricDisable s = .next v ∧ rbit v R.MOS_CTL F.MOS_CTL_EN = false ∧
      (∀ k, k < 24 → portState v k = 0 ∧ v.port k = Port.reset) ∧
      rget v R.MOS_LINK_DROP F.MOS_LINK_DROP_COUNT =
        min (rget s R.MOS_LINK_DROP F.MOS_LINK_DROP_COUNT + (unackedPackets s + s.waitSeg.length)) (2 ^ 32 - 1) ∧
      noPorts v = noPorts { s with waitSeg := [] }) ∧
    (portState s n = 4 → ∃ v, exec (.portDrainDone p) s = .next (retryPkts v) ∧ portState v n = 0 ∧ PortDropped n s v ∧
      (s.heldPkts = [] → s.waitSeg = [] → OnlyPort n [R.MOSP_STATUS n, R.MOS_LINK_DROP] s v)) ∧
    (portState s n ≠ 4 → exec (.portDrainDone p) s = .next s)

/-- Training, retraining and their timeouts (R350). -/
def Sys2Proof.Claims.PortTraining : Prop :=
  ∀ (p : PortId) (s : Machine.State) (n : Nat), n = p.toNat → n < 24 →
    (portState s n = 1 → sizeOf' s (portDim n) ≠ 1 → ∃ v, exec (.portTrained p) s = .next (retryPkts v) ∧ portState v n = 2 ∧
      v.port n = Port.reset ∧ v.heldPkts.length = s.heldPkts.length ∧
      (s.heldPkts = [] → s.waitSeg = [] → OnlyPort n [R.MOSP_STATUS n] s v)) ∧
    (portState s n ≠ 1 ∨ sizeOf' s (portDim n) = 1 → exec (.portTrained p) s = .next s) ∧
    (∀ c ∈ [Instr.portAckTimeout p, .laneLockLost p],
      (portState s n = 2 → ∃ v, exec c s = .next v ∧ portState v n = 3 ∧
        rget v (R.MOSP_STATUS n) F.MOSP_STATUS_RETRAINS = min (rget s (R.MOSP_STATUS n) F.MOSP_STATUS_RETRAINS + 1) 255 ∧
        v.port n = { s.port n with tries := 0 } ∧ OnlyPort n [R.MOSP_STATUS n] s v) ∧
      (portState s n ≠ 2 → exec c s = .next s)) ∧
    (portState s n = 3 →
      (∃ v, exec (.portRetrained p) s = .next (retryPkts v) ∧ portState v n = 2 ∧
        rget v (R.MOSP_REPLAY n) F.MOSP_REPLAY_COUNT =
          min (rget s (R.MOSP_REPLAY n) F.MOSP_REPLAY_COUNT + unackedGroups s n) (2 ^ 32 - 1) ∧
        v.port n = { s.port n with credits := [] } ∧ OnlyPort n [R.MOSP_STATUS n, R.MOSP_REPLAY n] s v) ∧
      ((s.port n).tries < 2 → ∃ v, exec (.retrainTimeout p) s = .next v ∧
        v.port n = { s.port n with tries := (s.port n).tries + 1 } ∧ OnlyPort n [] s v) ∧
      (2 ≤ (s.port n).tries → s.mgmt.receiver = none → ∃ v, exec (.retrainTimeout p) s = .next (retryPkts v) ∧ portState v n = 5 ∧
        bit (rget v R.MGMT_ALERT F.MGMT_ALERT_EVENTS) 5 = true ∧ PortDropped n s v ∧
        (s.heldPkts = [] → s.waitSeg = [] → OnlyPort n [R.MOSP_STATUS n, R.MOS_LINK_DROP, R.MGMT_ALERT] s v))) ∧
    (portState s n ≠ 3 → ∀ c ∈ [Instr.portRetrained p, .retrainTimeout p], exec c s = .next s)

/-- The states of a port: enable, disable, training, retraining and draining. -/
def Obligations.PortControl : Prop :=
  Sys2Proof.Claims.PortControl ∧ Sys2Proof.Claims.PortTraining

/-- LINK_GROUP_RECEIVE (R346, R348, R349) and FABRIC_HOLD_DROP. -/
def Obligations.LinkGroups : Prop :=
  ∀ (p : PortId) (g : LinkGroup) (corr unc i ack : Nat) (h : HeldPkt) (s : Machine.State) (n : Nat), n = p.toNat → n < 24 →
    ack = trailerF g 2 2 →
    (portState s n ≠ 2 → portState s n ≠ 4 → exec (.linkGroupReceive p g corr unc) s = .next s) ∧
    (portState s n = 2 ∨ portState s n = 4 →
      (tcrcOk g = false → ∃ v, exec (.linkGroupReceive p g corr unc) s = .next v ∧
        rget v (R.MOSP_CRCERR n) F.MOSP_CRCERR_COUNT =
          min (rget s (R.MOSP_CRCERR n) F.MOSP_CRCERR_COUNT + ((badSlots g).length + 1)) (2 ^ 32 - 1) ∧
        v.port n = { s.port n with nak := true } ∧ OnlyPort n [R.MOSP_CRCERR n, R.MOSP_FEC n, R.MOSP_FEC_UNC n] s v) ∧
      (tcrcOk g = true → ∃ v, exec (.linkGroupReceive p g corr unc) s = .next (retryPkts v) ∧
        rget v (R.MOSP_FEC n) F.MOSP_FEC_CORR = min (rget s (R.MOSP_FEC n) F.MOSP_FEC_CORR + corr) (2 ^ 32 - 1) ∧
        rget v (R.MOSP_FEC_UNC n) F.MOSP_FEC_UNC_COUNT = min (rget s (R.MOSP_FEC_UNC n) F.MOSP_FEC_UNC_COUNT + unc) (2 ^ 32 - 1) ∧
        rget v (R.MOSP_CRCERR n) F.MOSP_CRCERR_COUNT =
          min (rget s (R.MOSP_CRCERR n) F.MOSP_CRCERR_COUNT + (badSlots g).length) (2 ^ 32 - 1) ∧
        rget v (R.MOSP_REPLAY n) F.MOSP_REPLAY_COUNT = min (rget s (R.MOSP_REPLAY n) F.MOSP_REPLAY_COUNT +
          if bit (trailerF g 4 1) 0 then unackedGroups v n else 0) (2 ^ 32 - 1) ∧
        (v.port n).unacked = ((s.port n).unacked.filter (fun e => decide (2 ^ 15 ≤ (ack + 65536 - e.last) % 65536))).map
          (fun e => { e with groups := min e.groups ((e.last + 65536 - ack) % 65536) }) ∧
        ((∀ k ∈ badSlots g, k ∉ validSlots g) → trailerF g 0 2 = (s.port n).rxSeq →
          (v.port n).rxSeq = ((s.port n).rxSeq + 1) % 65536 ∧ (v.port n).nak = false ∧
          rget v (R.MOSP_RXFLITS n) F.MOSP_RXFLITS_COUNT =
            min (rget s (R.MOSP_RXFLITS n) F.MOSP_RXFLITS_COUNT + (validSlots g).length) (2 ^ 64 - 1) ∧
          ∀ vc, vc < 6 → credits v n vc = min 1024 (credits s n vc + trailerF g (8 + vc) 1)) ∧
        ((∃ k ∈ badSlots g, k ∈ validSlots g) ∨ trailerF g 0 2 ≠ (s.port n).rxSeq →
          (v.port n).rxSeq = (s.port n).rxSeq ∧ (v.port n).nak = true ∧ rraw v (R.MOSP_RXFLITS n) = rraw s (R.MOSP_RXFLITS n) ∧
          ∀ vc, credits v n vc = credits s n vc) ∧
        OnlyPort n [R.MOSP_CRCERR n, R.MOSP_FEC n, R.MOSP_FEC_UNC n, R.MOSP_RXFLITS n, R.MOSP_REPLAY n] s v)) ∧
    (s.heldPkts[i]? = some h →
      (h.pkt.type ≠ 5 → ∃ v, exec (.fabricHoldDrop i) s = .next v ∧ v.heldPkts = s.heldPkts.eraseIdx i ∧
        CountedUp R.MOS_HOLD_DROP F.MOS_HOLD_DROP_COUNT s v ∧ ∀ o, o ≠ R.MOS_HOLD_DROP → rraw v o = rraw s o) ∧
      (h.pkt.type = 5 → exec (.fabricHoldDrop i) s = .next s)) ∧
    (s.heldPkts.length ≤ i → exec (.fabricHoldDrop i) s = .next s)

namespace Sys2Proof

/-- Packet `k` arrives on port `p`: the port takes packets and its die is ON, the header is well formed and its origin not fenced,
and this module is its destination. -/
def PacketHere (s : Machine.State) (p : PortId) (k : Packet) : Prop :=
  p.toNat < 24 ∧ (portState s p.toNat = 2 ∨ portState s p.toNat = 4) ∧ packetOk k = true ∧ fenced s k.src = false ∧
    s.domOn (6 + p.toNat / 6) = true ∧ arrived k = true ∧ k.dst = s.devId

/-- The packet's address is in HBM of a stack that is there. -/
def InHbm (s : Machine.State) (k : Packet) : Prop := ∃ n, place (pkAddr k) = .hbm n ∧ s.domReach (48 + n) = true

end Sys2Proof

/-- WRITE, READ, AADD, POST and REPLY at their target (R354, R361). -/
def Sys2Proof.Claims.PacketsServed : Prop :=
  ∀ (p : PortId) (k : Packet) (s w : Machine.State), PacketHere s p k → packetOdd k = false → w = passed p.toNat k s →
    (k.type = 2 → InHbm s k → ∀ l, l = (List.range (64 * pF k 0x18 1)).map (pkAddr k + ·) →
      (∀ a ∈ l, addrOk s a = true ∧ Clean s a) →
      exec (.read p k false) s = .next (answer k .ok (l.map (rdByte s)) w)) ∧
    (k.type = 1 → InHbm s k → ∀ l, l = (writeLines k).flatten → headerTouched s (l.map (·.1)) = false →
      (∀ c ∈ l, addrOk s c.1 = true ∧ Clean s c.1 ∧ ∃ n, place c.1 = .hbm n) →
      ∃ u, exec (.write p k false) s = .next (answer k .ok [] u) ∧ OnlyMem w u ∧ (∀ c ∈ l, rdByte u c.1 = c.2) ∧
        ∀ a, (∀ c ∈ l, c.1 ≠ a) → rdByte u a = rdByte s a) ∧
    (k.type = 3 → InHbm s k → ∀ n la, n = (if bit k.sub 0 then 8 else 4) → la = pkAddr k →
      (∀ i, i < n → addrOk s (la + i) = true ∧ Clean s (la + i)) →
      ∃ u, exec (.aadd p k false) s = .next (answer k .ok (if bit k.sub 1 then rdBytes s la n else []) u) ∧ OnlyMem w u ∧
        memNat u la n = (memNat s la n + pF k 0x18 8) % 2 ^ (8 * n) ∧ ∀ a, a < la ∨ la + n ≤ a → rdByte u a = rdByte s a) ∧
    (k.type = 4 → k.sub = 0 → ∀ (t : TileId) (n : SemIdx), pF k 0x10 2 = t.toNat → pF k 0x12 1 = n.toNat →
      s.domReach (16 + tileDie t) = true → s.tileDraining t = false → s.enabled t = true →
      ∃ u, exec (.post p k false) s = .next (answer k .ok [] u) ∧ SemPosted t n (pF k 0x14 2) w u) ∧
    (k.type = 8 → ∀ (id : Nat) (x : Txn) (t : TileId) (pc no : Nat), replyTxn s k = some (id, x) → x.iss = .xwrite t pc no →
      s.domReach (16 + tileDie t) = true → pF k 0x10 1 = 0 →
      exec (.reply p k false) s = .next { w with txns := mdel s.txns id })

/-- Packets that are not served here (R353, R357, R423, R452). -/
def Sys2Proof.Claims.PacketsTurnedAway : Prop :=
  ∀ (p : PortId) (k : Packet) (bad : Bool) (s w : Machine.State) (n : Nat), n = p.toNat → n < 24 → w = passed n k s →
    ∀ c ∈ [(Instr.write p k bad, 1, 0), (.read p k bad, 2, 0), (.aadd p k bad, 3, k.sub), (.post p k bad, 4, 0),
        (.noticeEpoch p k bad, 4, 2), (.noticeAbort p k bad, 4, 3), (.seg p k bad, 5, 0), (.reply p k bad, 8, k.sub)],
      (portState s n ≠ 2 ∧ portState s n ≠ 4 → exec c.1 s = .next s) ∧
      (portState s n = 2 ∨ portState s n = 4 →
        (packetOk k = false → ∃ v, exec c.1 s = .next v ∧ CountedUp R.MOS_UNROUTABLE F.MOS_UNROUTABLE_COUNT s v ∧
          OnlyPort n [R.MOS_UNROUTABLE] s v) ∧
        (packetOk k = true → k.type = c.2.1 → k.sub = c.2.2 → k.type ≠ 8 →
          (fenced s k.src = true → ∃ v, exec c.1 s = .next v ∧ CountedUp R.CALVE_FENCED F.CALVE_FENCED_COUNT s v ∧
            OnlyPort n [R.CALVE_FENCED] s v) ∧
          (fenced s k.src = false → s.domOn (6 + n / 6) = false →
            (isRequest k = true → exec c.1 s = .next (answer k .retryLater [] w)) ∧
            (k.type = 4 → isRequest k = false → exec c.1 s = .next w) ∧
            (k.type = 5 → ∃ v, exec c.1 s = .next v ∧ CountedUp R.PDC_ORPHAN F.PDC_ORPHAN_COUNT s v ∧ OnlyPort n [R.PDC_ORPHAN] s v)) ∧
          (fenced s k.src = false → s.domOn (6 + n / 6) = true →
            (bad = true → isRequest k = true → exec c.1 s = .next (answer k .faultEcc [] w)) ∧
            (bad = true → k.type = 4 → isRequest k = false → arrived k = false → exec c.1 s = .next w) ∧
            (bad = false ∨ k.type = 5 → arrived k = false →
              exec c.1 s = .next (routePkt ⟨n / 6, some (inBuf s n k), none, bad, k⟩ (takeIn n k s))) ∧
            (bad = false ∨ k.type = 5 → arrived k = true → k.dst ≠ s.devId →
              ∃ v, exec c.1 s = .next v ∧ CountedUp R.MOS_UNROUTABLE F.MOS_UNROUTABLE_COUNT s v ∧
                OnlyPort n [R.MOS_UNROUTABLE] s v))))

/-- Packets from other modules are served, forwarded or turned away. -/
def Obligations.PacketsArrive : Prop :=
  Sys2Proof.Claims.PacketsServed ∧ Sys2Proof.Claims.PacketsTurnedAway

namespace Sys2Proof

/-- Group `n`'s engine has no segment waiting, no packet held, and `g` is its one segment in flight; no other member of the group is
there to be told of an abort. -/
structure OneSegment (s : Machine.State) (n : Nat) (g : Seg) : Prop where
  segs    : s.segs = [g]
  queue   : s.segQ = []
  early   : s.earlySeg = []
  waiting : s.waitSeg = []
  group   : g.group.toNat = n
  ranks   : 0 < gRanks s n
  alone   : ∀ d ∈ gMembers s n, d = s.devId
  inbox   : g.inbox = none

/-- The group is left FAILED with a status, its engine has recorded it, and its segment's command has ended with it (R365, R370). -/
structure GroupFailed (n : Nat) (q : QIdx) (seq : W32) (c : Cmd) (st : Status) (u v : Machine.State) : Prop where
  state : gState v n = 2
  last  : rget v (R.GRP n 6) F.GRP_LAST_STATUS = st.code
  segs  : v.segs = [] ∧ rget v (R.CLE_STATUS (gEngine n)) F.CLE_STATUS_SEGS = 0
  valid : rget v (R.CLE_ERRINFO (gEngine n)) F.CLE_ERRINFO_VALID = 1
  group : rget v (R.CLE_ERRINFO (gEngine n)) F.CLE_ERRINFO_GROUP = n
  code  : rget v (R.CLE_ERRINFO (gEngine n)) F.CLE_ERRINFO_STATUS = st.code
  cmd   : v.cmd q seq = some { c with status := some st, detail := n, faultAddr := 0, left := 0, phase := .ended }

/-- Element `i` of an ALL_REDUCE of group `n`, folded from the contributions of its ranks (R368, R369). -/
def reduced (s : Machine.State) (n e : Nat) (xs : List (Option (List Nat))) (i : Nat) : Nat := (foldElem s n 0 e xs i).getD 0

end Sys2Proof

/-- COLLECTIVE (R370) and GROUP_DESCRIPTOR_WRITE (R364). -/
def Sys2Proof.Claims.CollectivesIssue : Prop :=
  ∀ (q : QIdx) (seq : W32) (c : Cmd) (g : GroupId) (k : BitVec 3) (x : BitVec 64) (s : Machine.State) (n : Nat), n = g.toNat →
    (AtHand s q seq 2 c → cF c 0x10 2 = n → c.status = none →
      (gEpoch s n ≠ cF c 0x14 4 → ∃ v, exec (.collective q seq) s = .next v ∧
        CmdLeft q seq { c with phase := .ended, status := some .groupEpoch, detail := n, faultAddr := 0 } [] s v) ∧
      (gEpoch s n = cF c 0x14 4 → grpRefused s n = true → ∃ v, exec (.collective q seq) s = .next v ∧
        (collInbox c = none →
          CmdLeft q seq { c with phase := .ended, status := some .aborted, detail := n, faultAddr := 0 } [R.GRP n 6] s v) ∧
        (∀ k, collInbox c = some k → rget v (R.ABL_INBOX (k % 16) (k / 16)) F.ABL_INBOX_FAILED = 1 ∧
          v.cmd q seq = some { c with phase := .ended, status := some .aborted, detail := n, faultAddr := 0 } ∧
          ∀ o, o ≠ R.GRP n 6 → o ≠ R.ABL_INBOX (k % 16) (k / 16) → rraw v o = rraw s o) ∧
        rget v (R.GRP n 6) F.GRP_LAST_STATUS = Status.aborted.code ∧ gState v n = gState s n ∧ gSeq v n = gSeq s n) ∧
      (gEpoch s n = cF c 0x14 4 → grpRefused s n = false → gState s n ≠ 2 → s.segs = [] → s.segQ = [] → s.earlySeg = [] →
        s.waitSeg = [] → 0 < (collSegs s q c).length → (collSegs s q c).length ≤ 8 →
        ∃ v, exec (.collective q seq) s = .next v ∧ gState v n = 1 ∧ v.segQ = [] ∧
          v.segs = (collSegs s q c).zipIdx.map (fun e => { e.1 with seq := (gSeq s n + e.2) % 2 ^ 32 }) ∧
          gSeq v n = (gSeq s n + (collSegs s q c).length) % 2 ^ 32 ∧
          rget v (R.CLE_STATUS (gEngine n)) F.CLE_STATUS_SEGS = (collSegs s q c).length ∧
          v.cmd q seq = some { c with phase := .running, left := (collSegs s q c).length, skips := n } ∧
          ∀ o, o ≠ R.GRP n 6 → o ≠ R.CLE_STATUS (gEngine n) → rraw v o = rraw s o)) ∧
    (HostReaches s (6 + gEngine n) →
      (k.toNat < 6 → gState s n ≠ 1 → ∃ v, exec (.groupDescriptorWrite g k x) s = .next v ∧ rraw v (R.GRP n k.toNat) = x.toNat ∧
        gState v n = 0 ∧ gSeq v n = 0 ∧ rget v (R.GRP n 6) F.GRP_LAST_STATUS = 0 ∧ OnlyRegs [R.GRP n k.toNat, R.GRP n 6] s v) ∧
      (6 ≤ k.toNat ∨ gState s n = 1 → exec (.groupDescriptorWrite g k x) s = .next s))

/-- SEGMENT_COMPLETE and SEGMENT_TIMEOUT of a group's one segment (R365, R368, R369, R374). -/
def Sys2Proof.Claims.SegmentsComplete : Prop :=
  ∀ (g : GroupId) (sq : BitVec 32) (seg : Seg) (q : QIdx) (seq : W32) (c : Cmd) (peers : List (Option (List Byte))) (own : List Byte)
    (xs : List (Option (List Nat))) (env : EngEnv) (s : Machine.State) (n e b : Nat), n = g.toNat → OneSegment s n seg → seg.seq = sq.toNat →
    seg.owner = .cmd q seq → s.cmd q seq = some c → c.left = 1 → c.status = none → e = seg.elems → b = gElemBytes s n →
    (seg.kind = 0 → seg.null = false → own = rdBytes s seg.src (e * b) →
      (∀ i, i < e * b → addrOk s (seg.src + i) = true ∧ Clean s (seg.src + i) ∧
        addrOk s (seg.dst + i) = true ∧ Clean s (seg.dst + i)) →
      xs = (List.range (gRanks s n)).map (fun r =>
        if r = gMyRank s n then some (toElems b own) else (peers.getD r none).map (toElems b)) →
      gState s n = 1 →
      ∃ v, exec (.segmentComplete g sq peers 0 false env) s = .next v ∧ gState v n = 0 ∧ v.segs = [] ∧
        rget v (R.GRP n 6) F.GRP_LAST_STATUS = 0 ∧ rget v (R.CLE_STATUS (gEngine n)) F.CLE_STATUS_SEGS = 0 ∧
        v.cmd q seq = some { c with left := 0, phase := .ended } ∧
        (∀ i, i < e → rdBytes v (seg.dst + i * b) b = natLe b (reduced s n e xs i)) ∧
        (∀ a, a < seg.dst ∨ seg.dst + e * b ≤ a → rdByte v a = rdByte s a) ∧
        ∀ o, o ≠ R.GRP n 6 → o ≠ R.CLE_STATUS (gEngine n) → rraw v o = rraw s o) ∧
    (seg.kind = 0 → seg.null = true → e ≠ 0 →
      seg.dst + e * b ≤ gMembersLa s n ∨ gMembersLa s n + 2 * gRanks s n ≤ seg.dst → ∃ v, exec (.segmentComplete g sq peers 0 true env) s = .next v ∧
      GroupFailed n q seq c .faultEcc s v) ∧
    (∃ v, exec (.segmentTimeout g sq) s = .next v ∧ GroupFailed n q seq c .timeout s v ∧
      CountedUp (R.CLE_TIMEOUTS (gEngine n)) F.CLE_TIMEOUTS_COUNT s v) ∧
    (∀ z : BitVec 32, z ≠ sq → exec (.segmentComplete g z peers 0 false env) s = .next s ∧ exec (.segmentTimeout g z) s = .next s)

/-- NOTICE_EPOCH, NOTICE_ABORT and SEG (R367, R373, R374); log entry 29. -/
def Sys2Proof.Claims.CollectivePackets : Prop :=
  ∀ (p : PortId) (k : Packet) (seg : Seg) (q : QIdx) (seq : W32) (c : Cmd) (s w : Machine.State) (n e : Nat), PacketHere s p k →
    w = passed p.toNat k s → e = gEngine n →
    (k.type = 4 → k.sub = 2 → n = noticeGroup k → OneSegment s n seg → seg.seq = pF k 0x18 4 → seg.owner = .cmd q seq →
      s.cmd q seq = some c → c.left = 1 → c.status = none →
      ∃ v, exec (.noticeEpoch p k false) s = .next v ∧ GroupFailed n q seq c .groupEpoch s v) ∧
    (k.type = 4 → k.sub = 3 → n = noticeGroup k → OneSegment s n seg → seg.owner = .cmd q seq → s.cmd q seq = some c → c.left = 1 →
      c.status = none → pF k 0x14 4 = gEpoch s n → gState s n ≠ 2 →
      ∃ v, exec (.noticeAbort p k false) s = .next v ∧ GroupFailed n q seq c .aborted s v) ∧
    (k.type = 4 → k.sub = 3 → n = noticeGroup k → pF k 0x14 4 ≠ gEpoch s n → exec (.noticeAbort p k false) s = .next w) ∧
    (k.type = 5 → n = sgGroup k → n < 4096 → s.domOn (6 + e) = true →
      (sgEpoch k ≠ gEpoch s n → bit (routeEntry s k.src) 31 = false →
        ∃ v, exec (.seg p k false) s = .next (pumpSegs 8 e v) ∧ CountedUp (R.CLE_STALE e) F.CLE_STALE_COUNT s v ∧
          OnlyPort p.toNat [R.CLE_STALE e] s v) ∧
      (sgEpoch k = gEpoch s n → gState s n = 2 → exec (.seg p k false) s = .next (pumpSegs 8 e w)) ∧
      (sgEpoch k = gEpoch s n → gState s n ≠ 2 → findSeg s n (sgSeq k) = none → sgSeq k = gSeq s n →
        (segRoom s k = true → ∃ v, exec (.seg p k false) s = .next (pumpSegs 8 e v) ∧
          v.earlySeg = s.earlySeg ++ [⟨p.toNat / 6, none, none, false, k⟩] ∧
          (∀ o, o ≠ R.CLE_STATUS e → rraw v o = rraw s o) ∧ noPorts { v with earlySeg := s.earlySeg } = noPorts s) ∧
        (segRoom s k = false → exec (.seg p k false) s = .next (pumpSegs 8 e { takeIn p.toNat k s with
          waitSeg := s.waitSeg ++ [⟨p.toNat / 6, some (inBuf s p.toNat k), none, false, k⟩] }))) ∧
      (sgEpoch k = gEpoch s n → gState s n ≠ 2 → findSeg s n (sgSeq k) = some seg → seg.label = sgLabel k →
        exec (.seg p k false) s = .next (pumpSegs 8 e w)) ∧
      (sgEpoch k = gEpoch s n → gState s n ≠ 2 → OneSegment s n seg → seg.seq = sgSeq k → seg.owner = .cmd q seq →
        s.cmd q seq = some c → c.left = 1 → c.status = none →
        (seg.label ≠ sgLabel k → ∃ v, exec (.seg p k false) s = .next v ∧ GroupFailed n q seq c .aborted s v) ∧
        ∃ v, exec (.seg p k true) s = .next v ∧ GroupFailed n q seq c .faultEcc s v))

/-- COLLECTIVE issues its segments; they complete with their folds, time out or fail; packets are checked. -/
def Obligations.CollectivesRun : Prop :=
  Sys2Proof.Claims.CollectivesIssue ∧ Sys2Proof.Claims.SegmentsComplete ∧ Sys2Proof.Claims.CollectivePackets

namespace Sys2Proof

/-- Input energy that a tick's counts and static power come to, nJ (R383). -/
def tickInput (s : Machine.State) (counts : List EventCount) : Nat := toInput s (countsFj s counts + staticFj s) / 10 ^ 6

/-- The balance after a tick: the refill of its mode less what it used, between the floor and `LEDG_CAP` (R383, R386). -/
def tickBalance (s : Machine.State) (counts : List EventCount) : Int :=
  let f := refill s (ledgMode s) (rget s R.LEDG_STATUS F.LEDG_STATUS_TJ_MAX)
  let gain : Nat := min 5000 s.ledger.budget * 10 ^ 4 * f.1 / f.2
  max (-(2 ^ 31 * 16000)) (min (capNj s) (s.ledger.bal + gain - tickInput s counts))

/-- The mode a tick sets (Table 14-5). -/
def tickMode (s : Machine.State) (counts : List EventCount) (tj : Nat) (brake : Bool) : Nat :=
  nextMode { s with ledger := { s.ledger with bal := tickBalance s counts } } (ledgMode s) tj brake

/-- The ledger can tick: its control die is ON, no tag work is waiting, and no count belongs to a command. -/
def TicksAlone (s : Machine.State) (counts : List EventCount) : Prop :=
  s.domOn (hostCtl s) = true ∧ s.ledger.done = [] ∧ s.ledger.tagClr = false ∧ ∀ e ∈ counts, e.owner = none

/-- How far two numbers lie apart. -/
def apart (a b : Nat) : Nat := (a - b) + (b - a)

/-- The state with its registers and ledger left out. -/
def noLedger (s : Machine.State) : Machine.State := { s with regs := [], ledger := Ledger.reset }

end Sys2Proof

/-- Events 7 and 8 of one move: |dx| + |dy| hops per 128 bytes and die-edge crossings per 64 bytes (R20, Table 14-1), to
the port tile of a stack (R504). -/
def Sys2Proof.Claims.MeshCounts : Prop :=
  ∀ (m : MeshMove) (u : TileId),
    (m.stack = none → u = m.dst) →
    (∀ k, m.stack = some k → u = tileAt (max (8 * (k.toNat % 8)) (min (tileX m.src) (8 * (k.toNat % 8) + 7))) (if k.toNat < 8 then 0 else 31)) →
    tickCounts [] [m] =
      [⟨m.owner, 7, (m.bytes + 127) / 128 * (apart (tileX m.src) (tileX u) + apart (tileY m.src) (tileY u))⟩,
       ⟨m.owner, 8, (m.bytes + 63) / 64 *
         (apart (tileX m.src / 8) (tileX u / 8) + apart (tileY m.src / 8) (tileY u / 8))⟩]

/-- LEDGER_TICK with no candidate, and with one (R386, R392, R393, R402); log entries 20 and 44. -/
def Sys2Proof.Claims.LedgerTicks : Prop :=
  ∀ (units : List EventCount) (moves : List MeshMove) (ups : List Upset) (tj : BitVec 8) (brake : Bool) (s u : Machine.State) (m : Nat)
    (q : QIdx) (h : HostQueue) (c : Cmd) (counts : List EventCount),
    counts = tickCounts units moves → m = tickMode s counts tj.toNat brake → u = ups.foldl (fun s x => upset x s) s →
    (s.domOn (hostCtl s) = false → exec (.ledgerTick units moves ups tj brake) s = .next u) ∧
    (TicksAlone s counts → s.queues = [] → ∃ v, exec (.ledgerTick units moves ups tj brake) s = .next v ∧
      v.ledger.bal = tickBalance s counts ∧ ledgMode v = m ∧ rget v R.LEDG_STATUS F.LEDG_STATUS_TJ_MAX = tj.toNat ∧
      rget v R.LEDG_STATUS F.LEDG_STATUS_PWRBRK = b2n brake ∧ (m = 3 → ledgDiv v = 3) ∧ ledgDiv s ≤ ledgDiv v ∧
      rget v R.LEDG_ECOUNT F.LEDG_ECOUNT_E =
        min (rget s R.LEDG_ECOUNT F.LEDG_ECOUNT_E + (s.ledger.inRem + tickInput s counts) / 16000) (2 ^ 64 - 1) ∧
      rget v R.LEDG_STATUS F.LEDG_STATUS_WAITING = 0 ∧ rget v R.LEDG_RESV F.LEDG_RESV_R = 0 ∧ noLedger v = noLedger u) ∧
    (TicksAlone s counts → s.queues = [(q.toNat, h)] → h.cmds = [c] → c.phase = .candidate → c.wait < maxDefer s →
      eligible s q c = true → cqHalted s q = false → m = 0 → ledgFixed s = false →
      ((((estimate s c (ledgDiv s)).1 : Nat) : Int) ≤ tickBalance s counts →
        peakNow s (ledgDiv s) + peakOf s c (ledgDiv s) ≤ peakMax s → ledgDiv s ≤ candDiv c → needsDrained s c = false →
        ∃ v k, exec (.ledgerTick units moves ups tj brake) s = .next v ∧ v.cmd q c.seq = some k ∧ k.phase = .admitted ∧
          k.bytes = c.bytes ∧ k.est = (estimate s c (ledgDiv s)).1 ∧ k.deferred = false ∧ ledgDiv v = ledgDiv s ∧
          rget v R.LEDG_STATUS F.LEDG_STATUS_WAITING = 0) ∧
      ((∀ d, d ≤ 3 → tickBalance s counts < (((estimate s c d).1 : Nat) : Int)) →
        ∃ v, exec (.ledgerTick units moves ups tj brake) s = .next v ∧ v.cmd q c.seq = some { c with wait := c.wait + 1 } ∧
          rget v R.LEDG_STATUS F.LEDG_STATUS_WAITING = 1))

/-- RECONCILE (R385), AVS_VDONE, AVS_ATTEMPT_TIMEOUT (R401) and TAG_CLR. -/
def Sys2Proof.Claims.LedgerEvents : Prop :=
  ∀ (x : BitVec 64) (s : Machine.State) (k d t : Nat) (nx : Option Nat),
    (s.domOn (hostCtl s) = true →
      (exec (.reconcile none) s = .next { s with ledger := { s.ledger with silicon := 0 } }) ∧
      (s.ledger.silicon = k → k ≠ 0 → ∃ v, exec (.reconcile (some x)) s = .next v ∧
        rget v R.LEDG_RECON F.LEDG_RECON_FACTOR = min 8192 (max 2048 (approach (ledgRecon s) (4096 * x.toNat / k) 16)) ∧
        rget v R.LEDG_EMEAS F.LEDG_EMEAS_E =
          min (rget s R.LEDG_EMEAS F.LEDG_EMEAS_E + (s.ledger.measRem + x.toNat) / 16000) (2 ^ 64 - 1) ∧
        v.ledger = { s.ledger with silicon := 0, measRem := (s.ledger.measRem + x.toNat) % 16000 } ∧ noLedger v = noLedger s ∧
        ∀ o, o ∉ [R.LEDG_RECON, R.LEDG_EMEAS] → rraw v o = rraw s o)) ∧
    (s.ledger.volt = none → ∀ c ∈ [Instr.avsVdone, .avsAttemptTimeout], exec c s = .next s) ∧
    (s.ledger.volt = some t → s.ledger.goal = some d → d ≤ 3 → s.ledger.next = nx → ∃ v, exec .avsVdone s = .next v ∧ ledgDiv v = d ∧
      CountedUp R.LEDG_DIVCHG F.LEDG_DIVCHG_COUNT s v ∧ rget v R.LEDG_STATUS F.LEDG_STATUS_CHANGING = b2n nx.isSome ∧
      v.ledger = { s.ledger with volt := nx, next := none, goal := none, tries := 0, hold := 0, vdd := t } ∧ noLedger v = noLedger s ∧
      ∀ o, o ∉ [R.LEDG_STATUS, R.LEDG_DIVCHG] → rraw v o = rraw s o) ∧
    (s.ledger.volt = some t → s.ledger.goal = none → s.ledger.next = nx → ∃ v, exec .avsVdone s = .next v ∧ ledgDiv v = ledgDiv s ∧
      v.ledger = { s.ledger with volt := nx, next := none, goal := none, tries := 0, vdd := t } ∧ noLedger v = noLedger s ∧
      ∀ o, o ≠ R.LEDG_STATUS → rraw v o = rraw s o) ∧
    (s.ledger.volt = some t →
      (s.ledger.tries < 2 → ∃ v, exec .avsAttemptTimeout s = .next v ∧ CountedUp R.LEDG_AVS_ERR F.LEDG_AVS_ERR_COUNT s v ∧
        v.ledger = { s.ledger with tries := s.ledger.tries + 1 } ∧ noLedger v = noLedger s ∧
        ∀ o, o ≠ R.LEDG_AVS_ERR → rraw v o = rraw s o) ∧
      (2 ≤ s.ledger.tries → s.mgmt.receiver = none → ∃ v, exec .avsAttemptTimeout s = .next v ∧
        CountedUp R.LEDG_AVS_ERR F.LEDG_AVS_ERR_COUNT s v ∧ avsFail v = true ∧ v.ledger.volt = s.ledger.next ∧ ledgDiv v = ledgDiv s ∧
        (v.ledger.vdd = t ∨ v.ledger.vdd = s.ledger.vdd) ∧ bit (rget v R.MGMT_ALERT F.MGMT_ALERT_EVENTS) 4 = true ∧
        noLedger v = noLedger { s with freeCtr := v.freeCtr } ∧
        ∀ o, o ∉ [R.LEDG_AVS_ERR, R.LEDG_STATUS, R.MGMT_ALERT] → rraw v o = rraw s o)) ∧
    (HostReaches s (hostCtl s) → exec .tagClr s = .next { s with ledger := { s.ledger with tagClr := true } })

/-- A ledger tick, the reconciliation of measured energy, and voltage requests. -/
def Obligations.LedgerTicksAndEvents : Prop :=
  Sys2Proof.Claims.MeshCounts ∧ Sys2Proof.Claims.LedgerTicks ∧ Sys2Proof.Claims.LedgerEvents

namespace Sys2Proof

/-- Nothing waits on a domain's state: no domain waits for its needs or holds a request, and no mode change, Frost-watch or cold
reset is under way. -/
structure Settled (s : Machine.State) : Prop where
  want  : s.power.want = []
  held  : ∀ n ∈ domIds, rbit s (R.PDC_DOM_STAT n) F.PDC_DOM_STAT_PEND = false
  frost : s.power.frost = false
  busy  : rbit s R.PDC_MODE F.PDC_MODE_BUSY = false
  cold  : s.power.cold = false

/-- A compute-die, stack or fabric I/O domain. -/
def UnitDomain (n : Nat) : Prop := isCd n = true ∨ isStk n = true ∨ isFio n = true

/-- Only the status register of domain `n` differs, which shows state `k`. -/
def NowIn (n k : Nat) (u v : Machine.State) : Prop := dst v n = k ∧ OnlyRegs [R.PDC_DOM_STAT n] u v

/-- Domain `n` has lost its registers and, for a compute die, its tiles, scratchpads and held RGN.ACQs; other domains' registers are
kept but those at `offs` and the counts of held RGN.ACQs (Table 15-6). -/
structure DomainReset (n : Nat) (offs : List Nat) (u v : Machine.State) : Prop where
  mine  : ∀ o, regDom u o = n → rraw v o = (regReset o).toNat
  kept  : ∀ o, regDom u o ≠ n → o ∉ offs →
    (∀ r ∈ u.rgns, isCd n = true → tileDie r.tile = n - 16 → r.held = true → o ≠ stateReg r.region.toNat) → rraw v o = rraw u o
  acqs  : isCd n = true → ∀ r ∈ v.rgns, tileDie r.tile ≠ n - 16
  tiles : isCd n = true → ∀ t, tileDie t = n - 16 → v.tile t = Tile.reset ∧ ∀ k, k < 2 ^ 24 → rdByte v (spadAddr t k) = 0
  hbm   : isStk n = true → ∀ a, a / 2 ^ 36 = n - 48 → rdByte v a = 0
  host  : v.hostMem = u.hostMem ∧ v.mgmt = u.mgmt ∧ v.repair = u.repair

end Sys2Proof

/-- Power-up, initialisation and RIME exit (R411, Table 15-3). -/
def Obligations.DomainsComeUp : Prop :=
  ∀ (d : DomId) (s : Machine.State) (n : Nat), n = d.toNat → isDom n = true → Settled s →
    (dst s n = 1 → (16 ≤ n → ∃ v, exec (.domainPowerUpDone d) s = .next v ∧ NowIn n 2 s v) ∧
      (n < 16 → n ≠ 3 → ∃ v, exec (.domainPowerUpDone d) s = .next v ∧ tries v n = 0 ∧ NowIn n 3 s v)) ∧
    (dst s n ≠ 1 → exec (.domainPowerUpDone d) s = .next s) ∧
    (dst s n = 2 → isCd n = true → ∃ v, exec (.domainInitDone d) s = .next v ∧ tries v n = 0 ∧ NowIn n 3 s v) ∧
    (dst s n = 2 → isStk n = true → ∃ v, exec (.domainInitDone d) s = .next v ∧ tries v n = 0 ∧ dst v n = 3 ∧
      rraw v (R.ABL_MC_VER (n - 48)) = s.mgmt.mcVer.toNat ∧ OnlyRegs [R.PDC_DOM_STAT n, R.ABL_MC_VER (n - 48)] s v) ∧
    (dst s n ≠ 2 → ∀ c ∈ [Instr.domainInitDone d, .domainInitTimeout d], exec c s = .next s) ∧
    (dst s n = 7 → isStk n = true → ∃ v, exec (.rimeExitDone d) s = .next v ∧ tries v n = 0 ∧ NowIn n 3 s v) ∧
    (dst s n = 7 → isCd n = true → ∃ v, exec (.rimeExitDone d) s = .next v ∧ tries v n = 0 ∧ dst v n = 3 ∧
      (∀ t ∈ cdTiles s n, rget v (R.TILE_STATE t.toNat) F.TILE_STATE_STATE =
        if rget s (R.TILE_STATE t.toNat) F.TILE_STATE_STATE = 2 then 0 else rget s (R.TILE_STATE t.toNat) F.TILE_STATE_STATE) ∧
      noRegs v = noRegs s) ∧
    (∀ c ∈ [(Instr.domainPowerUpTimeout d, dst s n = 1 ∨ dst s n = 7), (.domainInitTimeout d, dst s n = 2 ∧ 16 ≤ n)], c.2 → UnitDomain n →
      (tries s n < 2 → needsOk s n = true → ∃ v, exec c.1 s = .next v ∧ dst v n = 1 ∧ tries v n = tries s n + 1 ∧
        CountedUp R.PDC_PUP_FAIL F.PDC_PUP_FAIL_COUNT s v ∧ DomainReset n [R.PDC_DOM_STAT n, R.PDC_PUP_FAIL] s v) ∧
      (tries s n = 2 → s.mgmt.receiver = none → ∃ v, exec c.1 s = .next v ∧ dst v n = 9 ∧ tries v n = 3 ∧
        CountedUp R.PDC_PUP_FAIL F.PDC_PUP_FAIL_COUNT s v ∧ bit (rget v R.MGMT_ALERT F.MGMT_ALERT_EVENTS) 1 = true ∧
        DomainReset n [R.PDC_DOM_STAT n, R.PDC_PUP_FAIL, R.MGMT_ALERT] s v)) ∧
    (dst s (standbyCtl s) = 3 → s.domOn (hostCtl s) = true → s.power.fenced = false →
      ∃ v, exec .standbyMirrorComplete s = .next v ∧ rbit v R.CP_STATUS F.CP_STATUS_STANDBY_OK = true ∧ OnlyRegs [R.CP_STATUS] s v) ∧
    (dst s (standbyCtl s) ≠ 3 ∨ s.power.fenced = true → exec .standbyMirrorComplete s = .next s)

/-- DRAINING to OFF and RIME (R411, R424, R426) and DRAIN_LIMIT_EXPIRY. -/
def Obligations.DomainsGoDown : Prop :=
  ∀ (d : DomId) (t : TileId) (l : BitVec 5) (s : Machine.State) (n : Nat), n = d.toNat → isDom n = true → Settled s →
    (dst s n = 4 → drained s n = true → s.power.warm = [] → ∀ r, mfind s.power.target n = some r →
      ∃ v, exec (.domainDrainDone d) s = .next v ∧ dst v n = (if r = 1 then 5 else 8) ∧
        v.power = { s.power with target := mdel s.power.target n } ∧ ∀ o, o ≠ R.PDC_DOM_STAT n → rraw v o = rraw s o) ∧
    (drained s n = false → exec (.domainDrainDone d) s = .next s) ∧
    (dst s n = 5 → n ≠ 0 → (l.toNat.land 0x0D).land (rget s R.PDC_WAKE_EN F.PDC_WAKE_EN_EN) = 0 →
      ∃ v, exec (.rimeEntryDone d l) s = .next v ∧ NowIn n 6 s v) ∧
    (dst s n ≠ 5 → exec (.rimeEntryDone d l) s = .next s) ∧
    (dst s n = 8 → UnitDomain n → ∃ v, exec (.domainPowerDownDone d) s = .next v ∧ dst v n = 0 ∧
      DomainReset n [R.PDC_DOM_STAT n] s v) ∧
    (dst s n ≠ 8 → exec (.domainPowerDownDone d) s = .next s) ∧
    (isCd n = true → tileDie t = n - 16 → s.tileDraining t = true →
      ∃ v, exec (.drainLimitExpiry d t) s = .next v ∧ v.tile t = { s.tile t with xfers := [] } ∧
        v.txns = s.txns.filter (fun e => !decide (issuerTile e.2.iss = some t)) ∧ v.regs = s.regs ∧ v.mem = s.mem) ∧
    (isStk n = true → dst s n = 4 → ∀ j, curJob s (n - 48) = some j → ∃ v, exec (.drainLimitExpiry d t) s = .next v ∧
      JobEnded (n - 48) j .aborted 0 s v ∧ ∀ o, o ≠ R.ABL_STATUS (n - 48) → rraw v o = rraw s o) ∧
    (isFio n = true → dst s n = 4 → ∃ v, exec (.drainLimitExpiry d t) s = .next v ∧
      ∀ k, k < 6 → portState s (6 * (n - 6) + k) = 4 ∨ portState s (6 * (n - 6) + k) = 3 →
        portState v (6 * (n - 6) + k) = 0 ∧ v.port (6 * (n - 6) + k) = Port.reset) ∧
    (dst s n ≠ 4 → s.power.warm = [] → isCd n = false → exec (.drainLimitExpiry d t) s = .next s)

/-- MODE_REQUEST (R409) and DOMAIN_REQUEST (R410, R412). -/
def Sys2Proof.Claims.PowerRequests : Prop :=
  ∀ (m : BitVec 2) (d : DomId) (x : BitVec 4) (s : Machine.State) (n : Nat), n = d.toNat → HostReaches s 0 →
    (tripped s = true ∨ s.power.off ≠ none → m ≠ 2 → exec (.modeRequest m) s = .next s) ∧
    (tripped s = false → s.power.off = none → Settled s → (∀ k ∈ domIds, dst s k = 3) →
      (m = 0 → ∃ v, exec (.modeRequest m) s = .next v ∧ rget v R.PDC_MODE F.PDC_MODE_REQ = 0 ∧ rget v R.PDC_MODE F.PDC_MODE_CUR = 0 ∧
        rbit v R.PDC_MODE F.PDC_MODE_BUSY = false ∧ (∀ k ∈ domIds, dst v k = 3 ∧ rget v (R.PDC_DOM_REQ k) F.PDC_DOM_REQ_REQ = 2)) ∧
      (m = 2 → ∃ v, exec (.modeRequest m) s = .next v ∧ rget v R.PDC_MODE F.PDC_MODE_REQ = 2 ∧
        rbit v R.PDC_MODE F.PDC_MODE_BUSY = true ∧
        ∀ k ∈ domIds, dst v k = (if k = 0 ∨ k = 5 ∨ k = hostCtl s then 3 else 4) ∧
          (k = 5 ∨ k = hostCtl s → rbit v (R.PDC_DOM_STAT k) F.PDC_DOM_STAT_PEND = true))) ∧
    (isDom n = false → exec (.domainRequest d x) s = .next s) ∧
    (isDom n = true → rbit s R.PDC_CTL F.PDC_CTL_EXPERT = false → ∃ v, exec (.domainRequest d x) s = .next v ∧
      rget v (R.PDC_DOM_REQ n) F.PDC_DOM_REQ_REQ = x.toNat % 4 ∧ rget v (R.PDC_DOM_REQ n) F.PDC_DOM_REQ_FORCE = x.toNat / 4 % 2 ∧
      rget v (R.PDC_DOM_REQ n) F.PDC_DOM_REQ_WAKE = x.toNat / 8 ∧ OnlyRegs [R.PDC_DOM_REQ n] s v) ∧
    (isCd n = true → rbit s R.PDC_CTL F.PDC_CTL_EXPERT = true → Settled s →
      (∀ r, r = 0 ∨ r = 1 → x.toNat % 8 = r → dst s n = 3 → ∃ v, exec (.domainRequest d x) s = .next v ∧ dst v n = 4 ∧
        v.power.target = mins s.power.target n r ∧ ∀ o, o ∉ [R.PDC_DOM_REQ n, R.PDC_DOM_STAT n] → rraw v o = rraw s o) ∧
      (x.toNat % 4 = 2 → dst s n = 0 → canPower s = true → needsOk s n = true → ∃ v, exec (.domainRequest d x) s = .next v ∧
        dst v n = 1 ∧ DomainReset n [R.PDC_DOM_REQ n, R.PDC_DOM_STAT n] s v) ∧
      (x.toNat % 4 = 2 → dst s n = 6 → needsOk s n = true → ∃ v, exec (.domainRequest d x) s = .next v ∧ dst v n = 7 ∧
        OnlyRegs [R.PDC_DOM_REQ n, R.PDC_DOM_STAT n] s v) ∧
      (x.toNat % 4 = 2 → dst s n = 4 → ∃ v, exec (.domainRequest d x) s = .next v ∧ dst v n = 4 ∧
        rbit v (R.PDC_DOM_STAT n) F.PDC_DOM_STAT_PEND = true ∧ rget v (R.PDC_DOM_STAT n) F.PDC_DOM_STAT_PEND_REQ = 2 ∧
        ∀ o, o ∉ [R.PDC_DOM_REQ n, R.PDC_DOM_STAT n] → rraw v o = rraw s o))

/-- WAKE_EVENT (R415, R417, R418) and FROST_SAMPLE (R416, R418). -/
def Sys2Proof.Claims.WakeAndFrost : Prop :=
  ∀ (srcs : BitVec 5) (l : List (Nat × Int)) (s : Machine.State) (v : Nat),
    (v = srcs.toNat.land (rget s R.PDC_WAKE_EN F.PDC_WAKE_EN_EN) → dst s 0 ≠ 6 →
      (v = 0 ∨ s.power.off = some .input → exec (.wakeEvent srcs) s = .next s) ∧
      (v ≠ 0 → s.power.off = none → (∀ n ∈ domIds, dst s n ≠ 6 ∧ dst s n ≠ 8) → exec (.wakeEvent srcs) s = .next s)) ∧
    (v = (srcs.toNat.land 0x12).land (rget s R.PDC_WAKE_EN F.PDC_WAKE_EN_EN) → dst s 0 = 6 → v ≠ 0 → s.power.off = none →
      ∃ u, exec (.wakeEvent srcs) s = .next u ∧ dst u 0 = 3 ∧ u.power = { s.power with wake := true } ∧
        rget u R.PDC_MODE F.PDC_MODE_CUR = 2 ∧ rget u R.PDC_MODE F.PDC_MODE_REQ = 2 ∧ rbit u R.PDC_MODE F.PDC_MODE_BUSY = false ∧
        rbit u R.PDC_WAKE_SRC F.PDC_WAKE_SRC_VALID = true ∧ rget u R.PDC_WAKE_SRC F.PDC_WAKE_SRC_SRC = lowest v ∧
        ∀ o, o ∉ [R.PDC_DOM_STAT 0, R.PDC_MODE, R.PDC_WAKE_SRC] → rraw u o = rraw s o) ∧
    (dst s 0 ≠ 6 → exec (.frostSample l srcs) s = .next s) ∧
    (v = (if thermLevel s l then (srcs.toNat.land 0x0D).lor 8 else srcs.toNat.land 0x0D) → dst s 0 = 6 →
      v.land (rget s R.PDC_WAKE_EN F.PDC_WAKE_EN_EN) = 0 → (∀ p ∈ l, 1 ≤ p.1 ∧ p.1 ≤ 78) → (l.map (·.1)).Nodup →
      ∃ u, exec (.frostSample l srcs) s = .next u ∧ (∀ o, rraw u o = rraw s o) ∧ u.power = s.power ∧
        ∀ p ∈ l, mget (fun _ => 0) u.mgmt.sensors p.1 = p.2)

/-- Mode and domain requests, wake events and Frost-watch samples. -/
def Obligations.PowerModesAndWakes : Prop :=
  Sys2Proof.Claims.PowerRequests ∧ Sys2Proof.Claims.WakeAndFrost

namespace Sys2Proof

/-- Every domain but AON is OFF, and what the module held outside AON, the expanders and the host is gone (Table 15-6, R427). -/
structure AllDown (u v : Machine.State) : Prop where
  domains : ∀ n ∈ domIds, n ≠ 0 → dst v n = 0
  tiles   : v.tiles = [] ∧ v.queues = [] ∧ v.txns = [] ∧ v.abl = [] ∧ v.segs = [] ∧ v.ports = []
  memory  : ∀ a, rdByte v a = if morBase ≤ a then rdByte u a else 0
  kept    : v.hostMem = u.hostMem ∧ v.repair = u.repair ∧ v.mgmt.images = u.mgmt.images

/-- A boot has begun: both control dies and MESH power up, domains that need them wait, and die 0 is primary with a standby (R465 to
R474). -/
structure Booting (cause : Nat) (v : Machine.State) : Prop where
  first   : dst v 0 = 3 ∧ dst v 1 = 1 ∧ dst v 2 = 1 ∧ dst v 5 = 1
  waiting : ∀ n ∈ domIds, needsBoth n = true → dst v n = 0 ∧ n ∈ v.power.want
  cause   : rget v R.PDC_RST_CAUSE F.PDC_RST_CAUSE_CAUSE = cause
  control : rget v R.CP_STATUS F.CP_STATUS_PRIMARY = 0 ∧ rbit v R.CP_STATUS F.CP_STATUS_STANDBY_OK = true
  cold    : v.power.cold = true ∧ v.power.boot = false

/-- The flash has a slot to boot, and every die and stack passes its self-test. -/
def BootsClean (s : Machine.State) (b : SelfTest) : Prop := bootSlot s ≠ none ∧ b.ctlOk = 3 ∧ b.stkOk = 0xFFFF

/-- A cold reset is in progress and waits for PERST#, a cleared trip or the supplies (R421, R493). -/
structure ColdWaits (cause : Nat) (v : Machine.State) : Prop where
  power : v.power.cold = true ∧ v.power.boot = true
  cause : rget v R.PDC_RST_CAUSE F.PDC_RST_CAUSE_CAUSE = cause

/-- Domains whose units a warm reset drains. -/
def warmDomains (s : Machine.State) : List Nat := domIds.filter (fun n => dst s n == 3 && (n == 4 || isFio n || isCd n || isStk n))

end Sys2Proof

/-- COLD_RESET, POWER_ON, HOT_SWAP_RECONNECT and PERST# (R420, R421, R493); log entry 42. -/
def Sys2Proof.Claims.ColdResets : Prop :=
  ∀ (feed : BitVec 4) (slot : BitVec 6) (b : SelfTest) (s : Machine.State),
    (HostReaches s 0 → tripped s = false → s.power.off = none → s.power.perst = false → BootsClean s b →
      ∃ v, exec (.coldReset b) s = .next v ∧ Booting 2 v ∧ ∀ a, rdByte v a = if morBase ≤ a then rdByte s a else 0) ∧
    (HostReaches s 0 → s.power.perst = true → ∃ v, exec (.coldReset b) s = .next v ∧ ColdWaits 2 v ∧ AllDown s v) ∧
    (s.power.perst = false → BootsClean s b → ∃ v, exec (.powerOn feed slot b) s = .next v ∧ Booting 0 v ∧
      rget v R.MOD_STRAP F.MOD_STRAP_FEED_ID = feed.toNat ∧ rget v R.MOD_STRAP F.MOD_STRAP_SLOT_ID = slot.toNat) ∧
    (s.power.off = some .input → exec (.hotSwapReconnect feed slot b) s = exec (.powerOn feed slot b) s) ∧
    (s.power.off ≠ some .input → exec (.hotSwapReconnect feed slot b) s = .next s) ∧
    (tripped s = true → exec .perstAssert s = .next { s with power := { s.power with perst := true } }) ∧
    (tripped s = false → ∃ v, exec .perstAssert s = .next v ∧ v.power.perst = true ∧ ColdWaits 1 v ∧ AllDown s v) ∧
    (s.power.boot = false → exec (.perstDeassert b) s = .next { s with power := { s.power with perst := false } }) ∧
    (s.power.boot = true → tripped s = false → s.power.off = none → BootsClean s b → (∀ n ∈ domIds, n ≠ 0 → dst s n = 0) → dst s 0 = 3 →
      s.power.want = [] → s.power.cold = true → s.power.frost = false → rbit s R.PDC_MODE F.PDC_MODE_BUSY = false →
      (∀ n ∈ domIds, rbit s (R.PDC_DOM_STAT n) F.PDC_DOM_STAT_PEND = false) →
      ∃ v, exec (.perstDeassert b) s = .next v ∧ v.power.perst = false ∧
        Booting (rget s R.PDC_RST_CAUSE F.PDC_RST_CAUSE_CAUSE) v)

/-- WARM_RESET, FUNCTION_LEVEL_RESET and HEARTBEAT_LOSS_WITH_NO_STANDBY (R420, Table 15-6). -/
def Sys2Proof.Claims.WarmResets : Prop :=
  ∀ (s : Machine.State) (l : List Nat), l = warmDomains s →
    ∀ p ∈ [(Instr.warmReset, 3, HostReaches s 0), (.functionLevelReset, 4, s.domReach 3 = true),
        (.heartbeatLossWithNoStandby, 6, rbit s R.CP_STATUS F.CP_STATUS_STANDBY_OK = false)], p.2.2 →
      (s.power.cold = false → s.power.warmOn = false → l ≠ [] → ∃ v, exec p.1 s = .next v ∧
        rget v R.PDC_RST_CAUSE F.PDC_RST_CAUSE_CAUSE = p.2.1 ∧ v.power = { s.power with warmOn := true, warm := l }) ∧
      (s.power.cold = false → s.power.warmOn = false → l = [] → Settled s → ∃ v, exec p.1 s = .next v ∧
        rget v R.PDC_RST_CAUSE F.PDC_RST_CAUSE_CAUSE = p.2.1 ∧ v.power.warmOn = false ∧ v.hostMem = s.hostMem) ∧
      (s.power.cold = true ∨ s.power.warmOn = true → exec p.1 s = .next s)

/-- Cold and warm resets, power-on and PERST#. -/
def Obligations.ResetsColdAndWarm : Prop :=
  Sys2Proof.Claims.ColdResets ∧ Sys2Proof.Claims.WarmResets

/-- THERMAL_TRIP (R427), RAIL_FAULT (R419), REFCLK_LOST (R499) and HOT_SWAP_DISCONNECT (R496). -/
def Sys2Proof.Claims.TripsAndSupplies : Prop :=
  ∀ (tj : BitVec 8) (why : InputFault) (s : Machine.State),
    (tj.toNat < 105 → exec (.thermalTrip tj) s = .next s) ∧
    (105 ≤ tj.toNat → s.mgmt.receiver = none → ∃ v, exec (.thermalTrip tj) s = .next v ∧ AllDown s v ∧ tripped v = true ∧
      rget v R.PDC_TRIP F.PDC_TRIP_TJ = tj.toNat ∧ rget v R.PDC_MODE F.PDC_MODE_CUR = 2 ∧
      bit (rget v R.MGMT_ALERT F.MGMT_ALERT_EVENTS) 0 = true ∧ v.power.off = s.power.off) ∧
    (s.power.off = some .input → ∀ c ∈ [Instr.railFault, .refclkLost], exec c s = .next s) ∧
    (s.power.off ≠ some .input → ∃ v, exec .railFault s = .next v ∧ AllDown s v ∧ v.power.off = some .rail ∧
      rget v R.PDC_RST_CAUSE F.PDC_RST_CAUSE_CAUSE = 0 ∧ rget v R.PDC_MODE F.PDC_MODE_CUR = 2) ∧
    (s.power.off = none → s.mgmt.receiver = none → ∃ v, exec .refclkLost s = .next v ∧ AllDown s v ∧ v.power.off = some .refclk ∧
      rget v R.MOD_STRAP F.MOD_STRAP_REFCLK_LOST = 1 ∧ bit (rget v R.MGMT_ALERT F.MGMT_ALERT_EVENTS) 1 = true) ∧
    (∃ v, exec (.hotSwapDisconnect why) s = .next v ∧ AllDown s v ∧ v.power.off = some .input ∧
      v.mgmt = { s.mgmt with
        uv := s.mgmt.uv || decide (why = .under), ov := s.mgmt.ov || decide (why = .over), oc := s.mgmt.oc || decide (why = .current) })

/-- HEARTBEAT, and TAKEOVER with nothing to reconcile (Table 2-14, R404). -/
def Sys2Proof.Claims.Takeovers : Prop :=
  ∀ (gap : BitVec 32) (s : Machine.State), exec .heartbeat s = .next s ∧
    (rbit s R.CP_STATUS F.CP_STATUS_STANDBY_OK = false → ∀ u r, exec (.takeover gap u r) s = .next s) ∧
    (rbit s R.CP_STATUS F.CP_STATUS_STANDBY_OK = true → s.mgmt.receiver = none → ∃ v, exec (.takeover gap [] []) s = .next v ∧
      rget v R.CP_STATUS F.CP_STATUS_PRIMARY = 1 - rget s R.CP_STATUS F.CP_STATUS_PRIMARY ∧
      rbit v R.CP_STATUS F.CP_STATUS_STANDBY_OK = false ∧ rget v R.CP_STATUS F.CP_STATUS_TAKEOVER = 1 ∧
      CountedUp R.CP_STATUS F.CP_STATUS_TAKEOVER_COUNT s v ∧ v.power = { s.power with fenced := true } ∧
      (∀ q, q < 64 → rbit s (R.QCFG q) F.QCFG_EN = true → rget v (R.QSTAT q) F.QSTAT_TAKEOVER = 1) ∧
      ledgDiv v = 3 ∧ v.ledger.hold = 0 ∧
      v.ledger.bal = max (-(2 ^ 31 * 16000)) (min (capNj s)
        (s.ledger.bal - (min 5000 (rget s R.LEDG_PEAK F.LEDG_PEAK_W) * gap.toNat : Nat))) ∧
      rget v R.CP_DEVEVT F.CP_DEVEVT_TAKEOVER = 1 ∧ bit (rget v R.MGMT_ALERT F.MGMT_ALERT_EVENTS) 3 = true)

/-- Thermal trips, lost supplies and the takeover by the standby. -/
def Obligations.TripsAndTakeovers : Prop :=
  Sys2Proof.Claims.TripsAndSupplies ∧ Sys2Proof.Claims.Takeovers

namespace Sys2Proof

/-- The own inbound header that PAIR writes (Table 16-11). -/
def pairHeader (s : Machine.State) : List Byte :=
  natLe 2 s.devId ++ natLe 1 (rget s R.MIR_STATUS F.MIR_STATUS_OWN_FEED) ++ natLe 1 (rget s R.FIRN_CFG F.FIRN_CFG_DEPTH_LOG2) ++
    natLe 2 (mirPeer s) ++ natLe 2 0 ++ natLe 4 (rget s R.MIR_CFG F.MIR_CFG_BANK_2M) ++ natLe 4 0 ++ natLe 8 (2 ^ 64 - 1)

/-- The partner's header names this module as its peer and was read over a valid route (R443). -/
def HeaderMatches (s : Machine.State) (h : DWord) : Prop :=
  mirState s = 1 ∧ bit (routeEntry s (mirPeer s)) 31 = true ∧ hdrF h 0 2 % 2 ^ 15 = mirPeer s ∧ hdrF h 4 2 % 2 ^ 15 = s.devId

/-- The registers that hold the job recovery state and its pending list. -/
def recRegs : List Nat := [R.REC_STATE, R.REC_PEND 0, R.REC_PEND 1, R.REC_PEND 2, R.REC_PEND 3]

/-- The last recovery command was refused: `REC_STATE.STATUS` is PROTECTION, and nothing else changed. -/
def RecRefused (u v : Machine.State) : Prop := rget v R.REC_STATE F.REC_STATE_STATUS = 8 ∧ recState v = recState u ∧ OnlyRegs [R.REC_STATE] u v

end Sys2Proof

/-- PAIR, UNPAIR, MIRROR_HEADER_POLL and PAIRING_TIMEOUT (R443, R444). -/
def Sys2Proof.Claims.MirrorPairs : Prop :=
  ∀ (h : DWord) (st : Status) (s : Machine.State) (feed : Nat), feed = hdrF h 2 1 % 16 →
    (HostReaches s (hostCtl s) →
      (mirState s = 0 ∨ mirState s = 3 ∨ mirState s = 4 → GoodHbm s (mirIn s) 24 → ∃ v, exec .pair s = .next v ∧ mirState v = 1 ∧
        rraw v R.MIR_BANK = 2 ^ 32 - 1 ∧ rdBytes v (mirIn s) 24 = pairHeader s ∧
        (∀ a, a < mirIn s ∨ mirIn s + 24 ≤ a → rdByte v a = rdByte s a) ∧ noMem v = noMem s ∧
        ∀ o, o ∉ [R.MIR_STATUS, R.MIR_BANK] → rraw v o = rraw s o) ∧
      (mirState s = 1 ∨ mirState s = 2 → exec .pair s = .next s) ∧
      (mirState s = 2 ∨ mirState s = 3 ∨ mirState s = 4 → feedGroups s = [] → ∃ v, exec .unpair s = .next v ∧ mirState v = 0 ∧
        rget v R.MIR_STATUS F.MIR_STATUS_SHARED_FEED = 0 ∧ OnlyRegs [R.MIR_STATUS] s v) ∧
      (mirState s = 0 ∨ mirState s = 1 → exec .unpair s = .next s)) ∧
    (HeaderMatches s h → headerFits s h = false → ∃ v, exec (.mirrorHeaderPoll .ok h) s = .next v ∧ mirState v = 4 ∧
      rget v R.MIR_STATUS F.MIR_STATUS_STATUS = 8 ∧ OnlyRegs [R.MIR_STATUS] s v) ∧
    (HeaderMatches s h → headerFits s h = true → feed ≠ rget s R.MIR_STATUS F.MIR_STATUS_OWN_FEED →
      ∃ v, exec (.mirrorHeaderPoll .ok h) s = .next v ∧ mirState v = 2 ∧ rget v R.MIR_STATUS F.MIR_STATUS_PEER_FEED = feed ∧
        v.peerBank = hdrBank h ∧ ∀ o, o ≠ R.MIR_STATUS → rraw v o = rraw s o) ∧
    (HeaderMatches s h → headerFits s h = true → feed = rget s R.MIR_STATUS F.MIR_STATUS_OWN_FEED → s.mgmt.receiver = none →
      groupsWith s s.devId = [] → ∃ v, exec (.mirrorHeaderPoll .ok h) s = .next v ∧ mirState v = 2 ∧
        rget v R.MIR_STATUS F.MIR_STATUS_SHARED_FEED = 1 ∧ bit (rget v R.MGMT_ALERT F.MGMT_ALERT_EVENTS) 8 = true ∧
        v.peerBank = hdrBank h ∧ ∀ o, o ∉ [R.MIR_STATUS, R.MGMT_ALERT] → rraw v o = rraw s o) ∧
    (mirState s ≠ 1 ∨ st ≠ .ok → exec (.mirrorHeaderPoll st h) s = .next s) ∧
    (mirState s = 1 → ∃ v, exec .pairingTimeout s = .next v ∧ mirState v = 4 ∧ rget v R.MIR_STATUS F.MIR_STATUS_STATUS = 3 ∧
      OnlyRegs [R.MIR_STATUS] s v) ∧
    (mirState s ≠ 1 → exec .pairingTimeout s = .next s)

/-- CALVE, CALVE_COMPLETE and UNFENCE (R451, R452). -/
def Sys2Proof.Claims.Calvings : Prop :=
  ∀ (d e : DevId) (b : Bool) (s : Machine.State) (x : Nat), x = d.toNat → HostReaches s (hostCtl s) →
    (rbit s R.REC_STATE F.REC_STATE_BUSY = true →
      ∀ c ∈ [Instr.calve d, .fill d e b, .done, .clear, .unfence d], exec c s = .next s) ∧
    (∃ v, exec .calveComplete s = .next v ∧ rbit v R.REC_STATE F.REC_STATE_BUSY = false ∧ OnlyRegs [R.REC_STATE] s v) ∧
    (rbit s R.REC_STATE F.REC_STATE_BUSY = false →
      (x = s.devId ∨ fenceFree s = none → ∃ v, exec (.calve d) s = .next v ∧ RecRefused s v) ∧
      (∀ slot, x ≠ s.devId → fenceFree s = some slot → groupsWith s x = [] → x ≠ mirPeer s → s.mgmt.receiver = none →
        (recState s = 0 ∨ (recState s = 1 ∧ recRestart s = false ∧ (recPend s).length < 4) → ∃ v, exec (.calve d) s = .next v ∧
          recState v = 1 ∧ recPend v = (if recState s = 0 then [x] else recPend s ++ [x]) ∧
          rbit v R.REC_STATE F.REC_STATE_BUSY = true ∧ rget v R.REC_STATE F.REC_STATE_STATUS = 0 ∧ fenced v x = true ∧
          routeEntry v x = routeEntry s x % 2 ^ 31 ∧ rget v R.FIRN_GEN F.FIRN_GEN_GEN = (rget s R.FIRN_GEN F.FIRN_GEN_GEN + 1) % 2 ^ 32 ∧
          rraw v R.CALVE_GROUPS = 0 ∧
          OnlyRegs (R.MOS_ROUTE x :: R.CALVE_FENCE slot :: R.CALVE_GROUPS :: R.FIRN_GEN :: recRegs) s v) ∧
        (recState s = 3 ∨ (recState s = 1 ∧ recRestart s = true) → ∃ v, exec (.calve d) s = .next v ∧ recState v = 4 ∧
          recPend v = recPend s ∧ fenced v x = true ∧ bit (rget v R.MGMT_ALERT F.MGMT_ALERT_EVENTS) 10 = true) ∧
        (recState s = 4 → ∃ v, exec (.calve d) s = .next v ∧ RecRefused s v)) ∧
      (∃ v, exec (.unfence d) s = .next v ∧ fenced v x = false ∧ (∀ y, y ≠ x → fenced v y = fenced s y) ∧
        rget v R.REC_STATE F.REC_STATE_STATUS = 0 ∧ noRegs v = noRegs s))

/-- Mirror pairing, and calving and unfencing of modules. -/
def Obligations.MirrorsAndCalving : Prop :=
  Sys2Proof.Claims.MirrorPairs ∧ Sys2Proof.Claims.Calvings

/-- FILL, DONE and CLEAR (R453). -/
def Sys2Proof.Claims.RecoveryCommands : Prop :=
  ∀ (d e : DevId) (b : Bool) (s : Machine.State) (x : Nat), x = d.toNat → HostReaches s (hostCtl s) →
    rbit s R.REC_STATE F.REC_STATE_BUSY = false →
    (recState s = 4 → ∃ v, exec .clear s = .next v ∧ recState v = 0 ∧ recPend v = [] ∧ recRestart v = false ∧
      rget v R.FIRN_CTL F.FIRN_CTL_REPLAY = 0 ∧ rget v R.REC_STATE F.REC_STATE_STATUS = 0 ∧ OnlyRegs (R.FIRN_CTL :: recRegs) s v) ∧
    (recState s ≠ 4 → ∃ v, exec .clear s = .next v ∧ RecRefused s v) ∧
    (recState s = 1 → x ≠ s.devId → ∃ v, exec (.fill d e b) s = .next v ∧ recState v = 2 ∧ recSpare v = x ∧ recSource v = e.toNat ∧
      recRestart v = (b || recRestart s) ∧ rget v R.REC_STATE F.REC_STATE_STATUS = 0 ∧ OnlyRegs [R.REC_STATE, R.REC_SPARE] s v) ∧
    (recState s = 0 → x = s.devId → rget s R.ACC_N F.ACC_N_N = 0 → ∃ v, exec (.fill d e b) s = .next v ∧ recState v = 2 ∧
      recSpare v = x ∧ recRestart v = b ∧ rraw v R.ACC_STATUS = 1 ∧ rraw v R.ACC_BYTES = 0 ∧ v.fill = some ⟨0, 0, 0⟩) ∧
    (recState s = 3 ∨ recState s = 4 ∨ (recState s = 0 ∧ x ≠ s.devId) → ∃ v, exec (.fill d e b) s = .next v ∧ RecRefused s v) ∧
    (recState s = 2 → recSpare s ≠ s.devId ∨ rget s R.ACC_STATUS F.ACC_STATUS_STATE = 2 → ∃ v, exec .done s = .next v ∧
      recPend v = (recPend s).drop 1 ∧ rget v R.REC_STATE F.REC_STATE_STATUS = 0 ∧
      recState v = (if (recPend s).drop 1 ≠ [] then 1 else if recRestart s then 3 else 0) ∧
      ((recPend s).drop 1 = [] → recRestart s = true → rget v R.FIRN_CTL F.FIRN_CTL_REPLAY = 1) ∧
      OnlyRegs (R.FIRN_CTL :: recRegs) s v) ∧
    (recState s ≠ 2 → ∃ v, exec .done s = .next v ∧ RecRefused s v)

/-- FILL_READ_REPLY and FILL_DONE (R456). -/
def Sys2Proof.Claims.FillReads : Prop :=
  ∀ (id entry : Nat) (x : Txn) (st : Status) (data : List Byte) (f : FillPos) (s : Machine.State), s.fill = some f →
    (mfind s.txns id = some x → x.iss = .fill entry → x.phase = .reply st data →
      (st = .ok → rget s R.ACC_N F.ACC_N_N ≤ f.entry →
        (∀ i, i < data.length → addrOk s (x.va + i) = true ∧ Clean s (x.va + i)) →
        ∃ v, exec (.fillReadReply id) s = .next v ∧ v.txns = mdel s.txns id ∧ v.fill = some { f with out := f.out - 1 } ∧
          rget v R.ACC_BYTES F.ACC_BYTES_COUNT = min (rget s R.ACC_BYTES F.ACC_BYTES_COUNT + data.length) (2 ^ F.ACC_BYTES_COUNT.w - 1) ∧
          rdBytes v x.va data.length = data ∧ (∀ a, a < x.va ∨ x.va + data.length ≤ a → rdByte v a = rdByte s a) ∧
          ∀ o, o ≠ R.ACC_BYTES → rraw v o = rraw s o) ∧
      (st ≠ .ok → entry < 65536 → ∃ v, exec (.fillReadReply id) s = .next v ∧ v.fill = none ∧
        rget v R.ACC_STATUS F.ACC_STATUS_STATE = 3 ∧ rget v R.ACC_STATUS F.ACC_STATUS_STATUS = st.code ∧
        rget v R.ACC_STATUS F.ACC_STATUS_ENTRY = entry ∧ (∀ e ∈ v.txns, ∀ k, e.2.iss ≠ .fill k) ∧
        (∀ a, rdByte v a = rdByte s a) ∧ ∀ o, o ≠ R.ACC_STATUS → rraw v o = rraw s o)) ∧
    (rget s R.ACC_N F.ACC_N_N ≤ f.entry → f.out = 0 → ∃ v, exec .fillDone s = .next v ∧ v.fill = none ∧
      rget v R.ACC_STATUS F.ACC_STATUS_STATE = 2 ∧ rget v R.CP_DEVEVT F.CP_DEVEVT_FILL_DONE = 1 ∧ ∀ a, rdByte v a = rdByte s a) ∧
    (f.entry < rget s R.ACC_N F.ACC_N_N ∨ f.out ≠ 0 → exec .fillDone s = .next s)

/-- FILL, DONE and CLEAR of the recovery state, and the fill engine's reads. -/
def Obligations.RecoveryAndFill : Prop :=
  Sys2Proof.Claims.RecoveryCommands ∧ Sys2Proof.Claims.FillReads

namespace Sys2Proof

/-- The management controller serves a request of a transport: it has power, it runs with an accepted image, and for PCIe VDM the
function is presented (R470, R478). -/
def MgmtServes (s : Machine.State) (pcie : Bool) : Prop :=
  powered s = true ∧ dst s 0 = 3 ∧ s.power.off ≠ some .noImage ∧ (pcie = true → pciePresent s = true)

/-- The state with an answer given, and nothing else changed. -/
def answered (r : Reply) (s : Machine.State) : Machine.State := { s with mgmt := { s.mgmt with reply := some r } }

/-- The state with its registers and what the management controller holds left out. -/
def noMgmt (s : Machine.State) : Machine.State := { s with regs := [], mgmt := Mgmt.reset }

/-- Bytes that an alias-key signature covers: the nonce and the measurements. -/
def signedPart (s : Machine.State) (nonce : BitVec 256) : List Byte :=
  natLe 32 nonce.toNat ++ (measBlocks s).flatMap (fun b => natLe 64 b.2.toNat)

/-- A refused or invalid request. -/
def badData : Reply := .done .invalidData

end Sys2Proof

/-- SPDM and PLDM requests (R466, R467, R478, R479). -/
def Obligations.ManagementAnswers : Prop :=
  ∀ (pcie ed sha sign : Bool) (slot ty : BitVec 8) (off len id : BitVec 16) (nonce : BitVec 256) (h : BitVec 32) (s : Machine.State),
    ∀ p ∈ [(Instr.getVersion pcie, Reply.spdmVersion 1 3), (.getCapabilities pcie, .spdmCapabilities true true true false),
        (.negotiateAlgorithms pcie ed sha, if ed && sha then .spdmAlgorithms true true else .done .refused),
        (.getDigests pcie, .spdmDigests [(0, Config.sha512 (certChain s 0)), (1, Config.sha512 (certChain s 1))]),
        (.getCertificate pcie slot off len, if slot.toNat = activeDie s
          then .spdmCertificate slot.toNat (((certChain s slot.toNat).drop off.toNat).take len.toNat) else .done .refused),
        (.challenge pcie slot nonce, if slot.toNat = activeDie s
          then .spdmChallenge slot.toNat (aliasSig s (signedPart s nonce)) else .done .refused),
        (.getMeasurements pcie sign nonce,
          .spdmMeasurements (measBlocks s) (if sign then some (aliasSig s (signedPart s nonce)) else none)),
        (.getTid pcie, .pldmTid Config.pldmTid),
        (.getPldmVersion pcie ty, if ty = 0 ∨ ty = 2 ∨ ty = 5 then .pldmVersion (Config.pldmVersion ty.toNat) else badData),
        (.getPldmTypes pcie, .pldmTypes [0, 2, 5]),
        (.getPldmCommands pcie ty, if ty = 0 ∨ ty = 2 ∨ ty = 5 then .pldmCommands (pldmCommandList ty.toNat) else badData),
        (.getPdr pcie h, if max 1 h.toNat ≤ 79 then .pdrSensor (max 1 h.toNat)
          else if h.toNat ≤ 83 then .pdrEffecter (h.toNat - 79) else badData),
        (.getSensorReading pcie id, if 1 ≤ id.toNat ∧ id.toNat ≤ 78 then .reading (sensor s id.toNat) else badData),
        (.getStateSensorReadings pcie id, if id.toNat = 79 then .state (sensor s 79).toNat else badData)],
      (MgmtServes s pcie → exec p.1 s = .next (answered p.2 s)) ∧
      (powered s = false ∨ (dst s 0 = 3 ∧ pcie = true ∧ pciePresent s = false) → exec p.1 s = .next s)

/-- ALERT_CLEAR, TRIP_CLEAR, MODE and RESET effecters (R481, Table 17-8). -/
def Sys2Proof.Claims.Effecters : Prop :=
  ∀ (pcie : Bool) (st : BitVec 8) (b : SelfTest) (s : Machine.State) (n : Nat), n = st.toNat → MgmtServes s pcie →
    (∀ c ∈ [(Instr.alertClear pcie st, 1 ≤ n ∧ n ≤ 14), (.tripClear pcie st b, n = 1), (.mode pcie st, 1 ≤ n ∧ n ≤ 4),
        (.reset pcie st b, n = 1 ∨ n = 2)], ¬ c.2 → exec c.1 s = .next (answered badData s)) ∧
    (1 ≤ n ∧ n ≤ 14 → ∃ v, exec (.alertClear pcie st) s = .next v ∧ v.mgmt = { s.mgmt with reply := some (.done .success) } ∧
      (∀ i, i < 14 → bit (rget v R.MGMT_ALERT F.MGMT_ALERT_EVENTS) i =
        (bit (rget s R.MGMT_ALERT F.MGMT_ALERT_EVENTS) i && decide (i + 1 ≠ n))) ∧
      noMgmt v = noMgmt s ∧ ∀ o, o ≠ R.MGMT_ALERT → rraw v o = rraw s o) ∧
    (n = 1 → (∃ i, 1 ≤ i ∧ i ≤ 40 ∧ 95 ≤ sensor s i) → exec (.tripClear pcie st b) s = .next (answered (.done .notReady) s)) ∧
    (n = 1 → (∀ i, 1 ≤ i → i ≤ 40 → sensor s i < 95) →
      (tripped s = false → exec (.tripClear pcie st b) s = .next (answered (.done .success) s)) ∧
      (tripped s = true → ∃ v, exec (.tripClear pcie st b) s = .next v ∧ tripped v = false ∧
        rget v R.PDC_RST_CAUSE F.PDC_RST_CAUSE_CAUSE = 7 ∧ v.mgmt.reply = some (.done .success))) ∧
    (1 ≤ n ∧ n ≤ 4 → tripped s = true → exec (.mode pcie st) s = .next (answered (.done .success) s)) ∧
    (1 ≤ n ∧ n ≤ 4 → tripped s = false → HostReaches s 0 → ∃ u, exec (.modeRequest (BitVec.ofNat 2 (n - 1))) s = .next u ∧
      exec (.mode pcie st) s = .next (answered (.done .success) u)) ∧
    (n = 1 → s.power.cold = false → s.power.warmOn = false → warmDomains s ≠ [] → ∃ v, exec (.reset pcie st b) s = .next v ∧
      rget v R.PDC_RST_CAUSE F.PDC_RST_CAUSE_CAUSE = 5 ∧ v.power = { s.power with warmOn := true, warm := warmDomains s } ∧
      v.mgmt.reply = some (.done .success)) ∧
    (n = 2 → s.power.perst = true → ∃ v, exec (.reset pcie st b) s = .next v ∧ ColdWaits 5 v ∧ AllDown s v ∧
      v.mgmt.reply = some (.done .success))

/-- REQUEST_UPDATE, transfers, activation (R475 to R477) and COMMIT_SVN (R471). -/
def Sys2Proof.Claims.FirmwareUpdates : Prop :=
  ∀ (pcie : Bool) (comp svn : BitVec 8) (ok : Bool) (ver : BitVec 32) (bytes : List Byte) (s : Machine.State) (im : Image) (k : Nat),
    MgmtServes s pcie → im = ⟨svn, ok, ver, bytes⟩ → k = 1 - s.mgmt.active % 2 →
    (updState s ≠ 0 → myUpdate s pcie = false → exec (.requestUpdate pcie) s = .next (answered (.done .alreadyInUpdateMode) s)) ∧
    (updState s ≠ 0 → myUpdate s pcie = true → exec (.requestUpdate pcie) s = .next (answered (.done .success) s)) ∧
    (updState s = 0 → ∃ v, exec (.requestUpdate pcie) s = .next v ∧ updState v = 1 ∧ myUpdate v pcie = true ∧
      v.mgmt = { s.mgmt with staged := [], reply := some (.done .success) } ∧ noMgmt v = noMgmt s ∧
      ∀ o, o ≠ R.MGMT_UPD → rraw v o = rraw s o) ∧
    (myUpdate s pcie = false → ∀ c ∈ [Instr.firmwareComponentTransfer pcie comp svn ok ver bytes, .activateFirmware pcie],
      exec c s = .next (answered (.done .notReady) s)) ∧
    (myUpdate s pcie = true → comp = 0 ∨ 5 < comp.toNat →
      exec (.firmwareComponentTransfer pcie comp svn ok ver bytes) s = .next (answered badData s)) ∧
    (myUpdate s pcie = true → 1 ≤ comp.toNat → comp.toNat ≤ 5 → ∃ v, exec (.firmwareComponentTransfer pcie comp svn ok ver bytes) s = .next v ∧
      slotImage v k comp.toNat = some im ∧ (∀ j i, i < 8 → (j, i) ≠ (k, comp.toNat) → slotImage v j i = slotImage s j i) ∧
      (comp.toNat ∈ v.mgmt.staged ↔ imageOk s im = true) ∧
      v.mgmt.reply = some (.done (if imageOk s im then .success else .refused)) ∧ noMgmt v = noMgmt s ∧ ∀ o, rraw v o = rraw s o) ∧
    (myUpdate s pcie = true → s.mgmt.staged = [] → exec (.activateFirmware pcie) s = .next (answered (.done .notReady) s)) ∧
    (myUpdate s pcie = true → s.mgmt.staged ≠ [] → 4 ∉ s.mgmt.staged → ∃ v, exec (.activateFirmware pcie) s = .next v ∧
      v.mgmt = { s.mgmt with active := k, staged := [], reply := some (.done .success) } ∧ updState v = 0 ∧ noMgmt v = noMgmt s ∧
      ∀ o, o ≠ R.MGMT_UPD → rraw v o = rraw s o) ∧
    (∀ x, myUpdate s pcie = true → 4 ∈ s.mgmt.staged → slotImage s k 4 = some x → (∀ i, i < 16 → dst s (48 + i) ≠ 3) →
      ∃ v, exec (.activateFirmware pcie) s = .next v ∧ v.mgmt.active = k ∧ v.mgmt.mcVer = x.ver ∧
        v.mgmt.mcDigest = Config.sha512 x.bytes ∧ v.mgmt.mcLen = x.bytes.length ∧ v.mgmt.mcMarked = [] ∧ updState v = 0) ∧
    (HostReaches s 0 → ∃ v m, exec .commitSvn s = .next v ∧ m = max s.mgmt.minSvn (rget s R.SEC_STATUS F.SEC_STATUS_SVN) ∧
      v.mgmt = { s.mgmt with minSvn := m } ∧ rget v R.SEC_STATUS F.SEC_STATUS_MIN_SVN = m % 256 ∧ noMgmt v = noMgmt s ∧
      ∀ o, o ≠ R.SEC_STATUS → rraw v o = rraw s o)

/-- State effecters, firmware updates and COMMIT_SVN. -/
def Obligations.EffectersAndFirmware : Prop :=
  Sys2Proof.Claims.Effecters ∧ Sys2Proof.Claims.FirmwareUpdates

/-- Sensors and PMBus (R479, R494, R501), alerts (R480) and the test access port. -/
def Obligations.TelemetryAndAlerts : Prop :=
  ∀ (pcie : Bool) (eid : BitVec 8) (l : List (Nat × Int)) (s : Machine.State),
    (s.power.prsnt = false → alertPin s = false ∧ wakePin s = false ∧ ∀ n, cxlPerstPin s n = none) ∧
    (s.power.prsnt = true → (alertPin s = true ↔
      (rraw s R.MGMT_ALERT).land (rraw s R.MGMT_ALERT_EN) ≠ 0 ∨ tripped s = true)) ∧
    (MgmtServes s pcie →
      (exec (.setEventReceiver pcie eid) s =
        .next { s with mgmt := { s.mgmt with receiver := some (pcie, eid), reply := some (.done .success) } }) ∧
      ∃ v, exec (.mctpEidAssign pcie eid) s = .next v ∧
        rget v R.MGMT_EID (if pcie then F.MGMT_EID_PCIE else F.MGMT_EID_I3C) = eid.toNat ∧
        rget v R.MGMT_EID (if pcie then F.MGMT_EID_I3C else F.MGMT_EID_PCIE) =
          rget s R.MGMT_EID (if pcie then F.MGMT_EID_I3C else F.MGMT_EID_PCIE) ∧
        v.mgmt = { s.mgmt with reply := some (.done .success) } ∧ noMgmt v = noMgmt s ∧ ∀ o, o ≠ R.MGMT_EID → rraw v o = rraw s o) ∧
    (mgmtRuns s = false → ∀ c ∈ [Instr.sensorUpdate l, .vralert, .testAccessPortOpen true, .clearFaults, .statusWord, .readVin, .readIin,
        .readTemperature1, .readPin], exec c s = .next s) ∧
    (mgmtRuns s = true →
      (∀ p ∈ [(Instr.statusWord, Reply.word s.mgmt.uv s.mgmt.ov s.mgmt.oc s.mgmt.hot), (.readVin, .reading (sensor s 75)),
          (.readIin, .reading (sensor s 76)), (.readTemperature1, .reading (sensor s 73)), (.readPin, .reading (sensor s 77))],
        exec p.1 s = .next (answered p.2 s)) ∧
      (∃ v, exec (.sensorUpdate l) s = .next v ∧ sensor v 79 = (ledgMode s : Int) ∧
        ((l.map (·.1)).Nodup → ∀ p ∈ l, 1 ≤ p.1 → p.1 ≤ 78 → sensor v p.1 = p.2) ∧
        (s.mgmt.hot = true → v.mgmt.hot = true) ∧ (∀ x, (73, x) ∈ l → x < 10 ∨ 45 < x → v.mgmt.hot = true) ∧
        v.mgmt.reply = s.mgmt.reply ∧ v.regs = s.regs) ∧
      (s.mgmt.receiver = none → ∃ v, exec .vralert s = .next v ∧ bit (rget v R.MGMT_ALERT F.MGMT_ALERT_EVENTS) 13 = true ∧
        OnlyRegs [R.MGMT_ALERT] s v) ∧
      (∀ x, s.mgmt.receiver = some x → bit (rget s R.MGMT_ALERT F.MGMT_ALERT_EVENTS) 13 = false → bit (rraw s R.MGMT_ALERT_EN) 13 = true →
        ∃ v, exec .vralert s = .next v ∧ bit (rget v R.MGMT_ALERT F.MGMT_ALERT_EVENTS) 13 = true ∧
          v.mgmt = { s.mgmt with events := s.mgmt.events ++ [13] }) ∧
      (∃ v, exec (.testAccessPortOpen true) s = .next v ∧ rget v R.SEC_STATUS F.SEC_STATUS_TAP_OPEN = 1 ∧ OnlyRegs [R.SEC_STATUS] s v) ∧
      exec (.testAccessPortOpen false) s = .next s ∧
      exec .clearFaults s = .next { s with mgmt := { s.mgmt with
        uv := s.mgmt.uv && decide (sensor s 75 < 38), ov := s.mgmt.ov && decide (62 < sensor s 75)
        oc := s.mgmt.oc && decide (110 < sensor s 76)
        hot := s.mgmt.hot && (decide (sensor s 73 < 10) || decide (45 < sensor s 73) || decide (55 < sensor s 74)) } })

namespace Sys2Proof

/-- The state with its registers and the last host read left out. -/
def noRead (s : Machine.State) : Machine.State := { s with regs := [], hostRead := [] }

/-- A host access to domain `n` is turned away: the domain is not ON while PCIe presents the function (R421, R423). -/
def HostTurned (s : Machine.State) (n : Nat) : Prop := s.power.cold = false ∧ s.domReach 3 = true ∧ s.domOn n = false

/-- Registers whose write has no further effect: the command processor's vector, the window's stack, the ledger's budget, the
mirror's areas, the fill plan, and the address and data of 64 MSI-X entries. -/
def plainHostRegs : List Nat :=
  R.CP_CFG :: R.HOSTWIN :: R.LEDG_BUDGET :: R.MIR_CFG :: R.MIR_IN_BASE :: R.MIR_PEER_BASE :: R.ACC_PLAN :: R.ACC_N ::
    (List.range 64).flatMap (fun k => [R.MSIX_ADDR k, R.MSIX_DATA k])

/-- What a host read of the four bytes at BAR0 offset `o` gives, and the state after it: the register's value with its computed and
write-only fields, its RC fields cleared (R7, R9, Table 11-3). -/
def hostReads (s : Machine.State) (o : Nat) : Nat × Machine.State := (rgnView s o (regRead4 o s).1, (regRead4 o s).2)

end Sys2Proof

/-- REGISTER_WRITE and RC_COUNTER_READ complete (R7, R9, R505), and where they are turned away (R423); log entry 23. -/
def Sys2Proof.Claims.HostRegisterAccess : Prop :=
  ∀ (off : BitVec 28) (n : BitVec 4) (x : BitVec 64) (r : RegRow) (s : Machine.State) (o : Nat), o = off.toNat →
    (barServed o n.toNat = false → exec (.registerWrite off n x) s = .next s ∧
      exec (.rcCounterRead off n) s = .next { s with hostRead := List.replicate n.toNat 0 }) ∧
    (barServed o n.toNat = true → HostTurned s (regDom s o) →
      ∃ v, exec (.registerWrite off n x) s = .next v ∧ CountedUp R.PDC_HOST_DROP F.PDC_HOST_DROP_COUNT s v ∧
        OnlyRegs [R.PDC_HOST_DROP] s v) ∧
    (n = 4 → barServed o 4 = true → HostTurned s (regDom s o) →
      exec (.rcCounterRead off n) s = .next { s with hostRead := List.replicate 4 255 }) ∧
    (barServed o n.toNat = true → HostReaches s (regDom s o) →
      exec (.registerWrite off n x) s = .next ((regPieces o n.toNat (x.toNat % 2 ^ (8 * n.toNat))).foldl
        (fun s p => regWrite p.1 p.2.1 p.2.2.1 p.2.2.2 s) s)) ∧
    (findReg o = some (o, r) → n.toNat = r.bytes → r.bytes = 4 ∨ r.bytes = 8 → o % r.bytes = 0 → HostReaches s (regDom s o) →
      exec (.registerWrite off n x) s = .next (regWrite o r (2 ^ (8 * r.bytes) - 1) (x.toNat % 2 ^ (8 * r.bytes)) s) ∧
      (o ∈ plainHostRegs → ∃ v, exec (.registerWrite off n x) s = .next v ∧ OnlyRegs [o] s v ∧
        rraw v o = regMerge r (rraw s o) (2 ^ (8 * r.bytes) - 1) (x.toNat % 2 ^ (8 * r.bytes)))) ∧
    (o % 4 = 0 → n = 4 → HostReaches s (regDom s o) → ∃ v, exec (.rcCounterRead off n) s = .next v ∧
      v = { (hostReads s o).2 with hostRead := natLe 4 (hostReads s o).1 }) ∧
    (o % 8 = 0 → n = 8 → HostReaches s (regDom s o) → HostReaches (hostReads s o).2 (regDom (hostReads s o).2 (o + 4)) →
      ∃ v, exec (.rcCounterRead off n) s = .next v ∧
        v = { (hostReads (hostReads s o).2 (o + 4)).2 with
          hostRead := natLe 4 (hostReads s o).1 ++ natLe 4 (hostReads (hostReads s o).2 (o + 4)).1 }) ∧
    (findReg o = none → n = 4 → o % 4 = 0 → HostReaches s (regDom s o) → exec (.registerWrite off n x) s = .next s) ∧
    (o = R.LEDG_BUDGET → n = 4 → HostReaches s (hostCtl s) → ∃ v, exec (.registerWrite off n x) s = .next v ∧
      rget v R.LEDG_BUDGET F.LEDG_BUDGET_W = x.toNat % 2 ^ 16 ∧ OnlyRegs [R.LEDG_BUDGET] s v) ∧
    (o = R.PDC_TRIP → n = 4 → HostReaches s 0 → ∃ v, exec (.registerWrite off n x) s = .next v ∧
      tripped v = (tripped s && !x.getLsbD 0) ∧ rget v R.PDC_TRIP F.PDC_TRIP_TJ = rget s R.PDC_TRIP F.PDC_TRIP_TJ ∧
      OnlyRegs [R.PDC_TRIP] s v) ∧
    (o = R.MOS_UNROUTABLE → n = 4 → HostReaches s (hostCtl s) → ∃ v, exec (.rcCounterRead off n) s = .next v ∧
      v.hostRead = natLe 4 (rget s R.MOS_UNROUTABLE F.MOS_UNROUTABLE_COUNT) ∧ rget v R.MOS_UNROUTABLE F.MOS_UNROUTABLE_COUNT = 0 ∧
      noRead v = noRead s ∧ ∀ p, p ≠ R.MOS_UNROUTABLE → rraw v p = rraw s p)

/-- BAR2_ACCESS and HOSTWIN_WRITE complete (R38, R42); log entry 34. -/
def Sys2Proof.Claims.HostMemoryWindow : Prop :=
  ∀ (off : BitVec 36) (data : List Byte) (n : Nat) (x : BitVec 32) (s : Machine.State) (a : Nat), a = barStack s * 2 ^ 36 + off.toNat →
    (barOpen s = true → off.toNat + data.length ≤ 2 ^ 36 → (∀ k, k < data.length → Clean s (a + k)) →
      ∃ v, exec (.bar2Access off (.write data)) s = .next v ∧ OnlyMem s v ∧ rdBytes v a data.length = data ∧
        ∀ b, b < a ∨ a + data.length ≤ b → rdByte v b = rdByte s b) ∧
    (barOpen s = true → off.toNat + n ≤ 2 ^ 36 → (∀ k, k < n → Clean s (a + k)) →
      exec (.bar2Access off (.read n)) s = .next { s with hostRead := rdBytes s a n }) ∧
    (barOpen s = true → off.toNat + n ≤ 2 ^ 36 → (∃ k, k < n ∧ (eccAt s ((a + k) / 32) = .uncorrectable ∨ eccAt s ((a + k) / 32) = .poisoned)) →
      ∃ v, exec (.bar2Access off (.read n)) s = .next v ∧ v.hostRead.length = n ∧ v.mem = s.mem ∧ v.regs = s.regs) ∧
    (HostTurned s (48 + barStack s) →
      (∃ v, exec (.bar2Access off (.write data)) s = .next v ∧ CountedUp R.PDC_HOST_DROP F.PDC_HOST_DROP_COUNT s v ∧
        OnlyRegs [R.PDC_HOST_DROP] s v) ∧
      ∃ v, exec (.bar2Access off (.read n)) s = .next v ∧ v.hostRead = List.replicate n 255 ∧
        CountedUp R.PDC_HOST_DROP F.PDC_HOST_DROP_COUNT s v ∧ noRead v = noRead s) ∧
    (HostReaches s (hostCtl s) → ∃ v, exec (.hostwinWrite x) s = .next v ∧ barStack v = x.toNat % 16 ∧ OnlyRegs [R.HOSTWIN] s v)

/-- Host reads and writes of registers and of HBM through BAR2. -/
def Obligations.HostAccesses : Prop :=
  Sys2Proof.Claims.HostRegisterAccess ∧ Sys2Proof.Claims.HostMemoryWindow
end

