-- ==== Sys2Proof/Laws/Sparse.lean ====
section
/-! SUPPORT. Laws of sparse data: a read after a write, a read of another key, and the canonical form that every write keeps. -/

namespace Sys2Proof.Machine

variable {α : Type}

theorem mget_mdel (d : Nat → α) (m : Map α) (k j : Nat) :
    mget d (mdel m k) j = if j = k then d j else mget d m j := by
  induction m with
  | nil => simp [mdel, mget]
  | cons e m ih =>
    obtain ⟨k', v⟩ := e
    simp only [mdel] at ih ⊢
    by_cases h : k' = k
    · subst h
      simp only [bne_self_eq_false, Bool.false_eq_true, not_false_eq_true, List.filter_cons_of_neg, ih, mget]
      split <;> simp_all
    · have h' : (k' != k) = true := by simpa using h
      simp only [h', List.filter_cons_of_pos, mget, ih]
      by_cases hj : j = k' <;> simp_all

theorem mget_mins (d : Nat → α) (m : Map α) (k j : Nat) (v : α) :
    mget d (mins m k v) j = if j = k then v else mget d m j := by
  induction m with
  | nil => simp [mins, mget]
  | cons e m ih =>
    obtain ⟨k', v'⟩ := e
    simp only [mins]
    split
    · simp [mget]
    · split
      · subst k'; simp only [mget]; split <;> rfl
      · simp only [mget, ih]
        by_cases hj : j = k' <;> by_cases hk : j = k <;> simp_all

/-- A read after a write: the value written at its key, the old value elsewhere. -/
theorem mget_mset [DecidableEq α] (d : Nat → α) (m : Map α) (k j : Nat) (v : α) :
    mget d (mset d m k v) j = if j = k then v else mget d m j := by
  unfold mset
  split
  · rename_i h; rw [mget_mdel]; split <;> simp_all
  · exact mget_mins ..

@[simp] theorem mget_mset_same [DecidableEq α] (d : Nat → α) (m : Map α) (k : Nat) (v : α) :
    mget d (mset d m k v) k = v := by simp [mget_mset]

theorem mget_mset_other [DecidableEq α] (d : Nat → α) (m : Map α) {k j : Nat} (v : α) (h : j ≠ k) :
    mget d (mset d m k v) j = mget d m j := by simp [mget_mset, h]

theorem mget_mclear (d : Nat → α) (m : Map α) (lo hi j : Nat) :
    mget d (mclear m lo hi) j = if lo ≤ j ∧ j < hi then d j else mget d m j := by
  induction m with
  | nil => simp [mclear, mget]
  | cons e m ih =>
    obtain ⟨k', v⟩ := e
    simp only [mclear] at ih ⊢
    by_cases hk : k' < lo ∨ hi ≤ k'
    · have h' : (decide (k' < lo) || decide (hi ≤ k')) = true := by simpa using hk
      simp only [h', List.filter_cons_of_pos, mget, ih]
      by_cases hj : j = k'
      · subst hj; simp only [if_true]; rw [if_neg (by omega)]
      · simp [hj]
    · have h' : ¬(decide (k' < lo) || decide (hi ≤ k')) = true := by simpa using hk
      simp only [h', not_false_eq_true, List.filter_cons_of_neg, mget, ih, Bool.false_eq_true]
      by_cases hj : j = k'
      · subst hj; rw [if_pos (by omega)]; simp only [if_true]; rw [if_pos (by omega)]
      · simp [hj]

/-! ### The canonical form -/

theorem mrising_le {b c : Nat} (h : c ≤ b) (m : Map α) : mrising b m = true → mrising c m = true := by
  cases m with
  | nil => simp [mrising]
  | cons e m => simp only [mrising, Bool.and_eq_true, decide_eq_true_eq]; rintro ⟨h1, h2⟩; exact ⟨by omega, h2⟩

theorem mrising_filter (p : Nat × α → Bool) (b : Nat) (m : Map α) (h : mrising b m = true) :
    mrising b (m.filter p) = true := by
  induction m generalizing b with
  | nil => simp [mrising]
  | cons e m ih =>
    simp only [mrising, Bool.and_eq_true, decide_eq_true_eq] at h
    rw [List.filter_cons]
    split
    · simp only [mrising, Bool.and_eq_true, decide_eq_true_eq]; exact ⟨h.1, ih _ h.2⟩
    · exact mrising_le (by omega) _ (ih _ h.2)

theorem mrising_mins (b : Nat) (m : Map α) (k : Nat) (v : α) (hb : b ≤ k) (h : mrising b m = true) :
    mrising b (mins m k v) = true := by
  induction m generalizing b with
  | nil => simp [mins, mrising, hb]
  | cons e m ih =>
    obtain ⟨k', v'⟩ := e
    simp only [mrising, Bool.and_eq_true, decide_eq_true_eq] at h
    simp only [mins]
    split
    · simp only [mrising, Bool.and_eq_true, decide_eq_true_eq]; exact ⟨hb, by omega, h.2⟩
    · split
      · subst k'; simp only [mrising, Bool.and_eq_true, decide_eq_true_eq]; exact ⟨hb, h.2⟩
      · simp only [mrising, Bool.and_eq_true, decide_eq_true_eq]
        exact ⟨h.1, ih _ (by omega) h.2⟩

theorem mem_mins {m : Map α} {k : Nat} {v : α} {e : Nat × α} (h : e ∈ mins m k v) : e = (k, v) ∨ e ∈ m := by
  induction m with
  | nil => simp_all [mins]
  | cons f m ih =>
    obtain ⟨k', v'⟩ := f
    simp only [mins] at h
    split at h
    · simp only [List.mem_cons] at h ⊢; exact h
    · split at h
      · simp only [List.mem_cons] at h ⊢
        exact h.imp id Or.inr
      · simp only [List.mem_cons] at h ⊢
        rcases h with h | h
        · exact Or.inr (Or.inl h)
        · exact (ih h).imp id Or.inr

variable [DecidableEq α]

theorem mwf_nil (d : Nat → α) : mwf d ([] : Map α) = true := rfl

/-- Dropping entries keeps the canonical form. -/
theorem mwf_filter (d : Nat → α) (m : Map α) (p : Nat × α → Bool) (h : mwf d m = true) : mwf d (m.filter p) = true := by
  simp only [mwf, Bool.and_eq_true, List.all_eq_true] at h ⊢
  exact ⟨mrising_filter _ _ _ h.1, fun e he => h.2 e (List.mem_of_mem_filter he)⟩

theorem mwf_mdel (d : Nat → α) (m : Map α) (k : Nat) (h : mwf d m = true) : mwf d (mdel m k) = true := mwf_filter d m _ h

theorem mwf_mclear (d : Nat → α) (m : Map α) (lo hi : Nat) (h : mwf d m = true) : mwf d (mclear m lo hi) = true :=
  mwf_filter d m _ h

/-- A write keeps the canonical form. -/
theorem mwf_mset (d : Nat → α) (m : Map α) (k : Nat) (v : α) (h : mwf d m = true) : mwf d (mset d m k v) = true := by
  unfold mset
  split
  · exact mwf_mdel d m k h
  · rename_i hv
    simp only [mwf, Bool.and_eq_true, List.all_eq_true] at h ⊢
    refine ⟨mrising_mins _ _ _ _ (Nat.zero_le _) h.1, fun e he => ?_⟩
    rcases mem_mins he with rfl | he
    · simpa using hv
    · exact h.2 e he

theorem mwf_msets (d : Nat → α) (m : Map α) (l : List (Nat × α)) (h : mwf d m = true) : mwf d (msets d m l) = true := by
  unfold msets
  induction l generalizing m with
  | nil => exact h
  | cons e l ih => exact ih _ (mwf_mset d m _ _ h)

/-- Writes at keys other than `j` leave its value. -/
theorem mget_msets_other (d : Nat → α) (m : Map α) (l : List (Nat × α)) (j : Nat) (h : ∀ e ∈ l, e.1 ≠ j) :
    mget d (msets d m l) j = mget d m j := by
  unfold msets
  induction l generalizing m with
  | nil => rfl
  | cons e l ih =>
    simp only [List.foldl_cons]
    rw [ih _ (fun x hx => h x (List.mem_cons_of_mem _ hx)),
      mget_mset_other _ _ _ (Ne.symm (h e (List.mem_cons_self ..)))]

end Sys2Proof.Machine
end

