-- ==== Sys2Proof/Laws/Regs.lean ====
section
/-! SUPPORT. Laws of registers and their fields: what a field reads as after a write of a field, of the same register or of
another. -/

namespace Sys2Proof.Machine

theorem rraw_lt (s : State) (o : Nat) : rraw s o < 2 ^ 64 := (mget regReset s.regs o).isLt

theorem rraw_rput (o p v : Nat) (s : State) : rraw (rput o v s) p = if p = o then v % 2 ^ 64 else rraw s p := by
  unfold rraw rput
  simp only [mget_mset]
  split <;> simp [BitVec.toNat_ofNat]

@[simp] theorem rraw_rput_same (o v : Nat) (s : State) : rraw (rput o v s) o = v % 2 ^ 64 := by simp [rraw_rput]

theorem rraw_rput_other {o p : Nat} (v : Nat) (s : State) (h : p ≠ o) : rraw (rput o v s) p = rraw s p := by
  simp [rraw_rput, h]

theorem bits_lt (v lo w : Nat) : bits v lo w < 2 ^ w := Nat.mod_lt _ (Nat.two_pow_pos w)

/-- A value split at a field: above it, the field, below it. -/
theorem bits_split (v lo w : Nat) : v = (v >>> (lo + w)) * 2 ^ (lo + w) + bits v lo w * 2 ^ lo + v % 2 ^ lo := by
  unfold bits
  simp only [Nat.shiftRight_eq_div_pow]
  have h1 := Nat.div_add_mod v (2 ^ lo)
  have h2 := Nat.div_add_mod (v / 2 ^ lo) (2 ^ w)
  rw [Nat.div_div_eq_div_mul, ← Nat.pow_add] at h2
  have h3 : v / 2 ^ lo * 2 ^ lo = (v / 2 ^ (lo + w)) * 2 ^ (lo + w) + v / 2 ^ lo % 2 ^ w * 2 ^ lo := by
    conv_lhs => rw [← h2]
    rw [Nat.pow_add 2 lo w]; ring
  rw [Nat.mul_comm] at h1
  omega

theorem putBits_eq (v lo w x : Nat) :
    putBits v lo w x = (v >>> (lo + w)) * 2 ^ (lo + w) + (x % 2 ^ w) * 2 ^ lo + v % 2 ^ lo := by
  have h := bits_split v lo w
  unfold putBits
  simp only [Nat.shiftLeft_eq] at *
  omega

theorem putBits_testBit (v lo w x i : Nat) :
    (putBits v lo w x).testBit i = if lo ≤ i ∧ i < lo + w then x.testBit (i - lo) else v.testBit i := by
  have e : putBits v lo w x = (2 ^ lo * (2 ^ w * (v >>> (lo + w)) + x % 2 ^ w)) + v % 2 ^ lo := by
    rw [putBits_eq, Nat.pow_add]; ring
  rw [e, Nat.testBit_two_pow_mul_add _ (Nat.mod_lt _ (Nat.two_pow_pos lo))]
  by_cases h1 : i < lo
  · have h2 : ¬(lo ≤ i ∧ i < lo + w) := by omega
    simp [h1, h2, Nat.testBit_mod_two_pow]
  · simp only [h1, if_false]
    rw [Nat.testBit_two_pow_mul_add _ (Nat.mod_lt _ (Nat.two_pow_pos w))]
    by_cases h2 : i - lo < w
    · have h3 : lo ≤ i ∧ i < lo + w := by omega
      simp [h2, h3, Nat.testBit_mod_two_pow]
    · have h3 : ¬(lo ≤ i ∧ i < lo + w) := by omega
      simp only [h2, h3, if_false, Nat.testBit_shiftRight]
      congr 1; omega

theorem bits_testBit (v lo w i : Nat) : (bits v lo w).testBit i = (decide (i < w) && v.testBit (lo + i)) := by
  unfold bits
  rw [Nat.testBit_mod_two_pow, Nat.testBit_shiftRight]

/-- The field just written. -/
theorem bits_putBits_same (v lo w x : Nat) : bits (putBits v lo w x) lo w = x % 2 ^ w := by
  apply Nat.eq_of_testBit_eq; intro i
  rw [bits_testBit, putBits_testBit, Nat.testBit_mod_two_pow]
  by_cases h : i < w
  · have : lo ≤ lo + i ∧ lo + i < lo + w := by omega
    simp [h]
  · simp [h]

/-- A field beside the one written. -/
theorem bits_putBits_other (v lo w x l k : Nat) (h : l + k ≤ lo ∨ lo + w ≤ l) :
    bits (putBits v lo w x) l k = bits v l k := by
  apply Nat.eq_of_testBit_eq; intro i
  rw [bits_testBit, bits_testBit, putBits_testBit]
  by_cases hi : i < k
  · have : ¬(lo ≤ l + i ∧ l + i < lo + w) := by omega
    simp [hi, this]
  · simp [hi]

theorem bits_mod64 (v lo w : Nat) (h : lo + w ≤ 64) : bits (v % 2 ^ 64) lo w = bits v lo w := by
  apply Nat.eq_of_testBit_eq; intro i
  rw [bits_testBit, bits_testBit, Nat.testBit_mod_two_pow]
  by_cases hi : i < w
  · have : lo + i < 64 := by omega
    simp [this]
  · simp [hi]

/-- A field reads as what was written to it. -/
theorem rget_rset_same (o : Nat) (f : Fld) (v : Nat) (s : State) (h : f.lo + f.w ≤ 64) :
    rget (rset o f v s) o f = v % 2 ^ f.w := by
  unfold rget rset
  rw [rraw_rput_same, bits_mod64 _ _ _ h, bits_putBits_same]

/-- A write of one field leaves the others of its register. -/
theorem rget_rset_field (o : Nat) (f g : Fld) (v : Nat) (s : State) (hg : g.lo + g.w ≤ 64)
    (h : g.lo + g.w ≤ f.lo ∨ f.lo + f.w ≤ g.lo) : rget (rset o f v s) o g = rget s o g := by
  unfold rget rset
  rw [rraw_rput_same, bits_mod64 _ _ _ hg, bits_putBits_other _ _ _ _ _ _ h]

/-- A write of one register leaves every other. -/
theorem rget_rset_other {o p : Nat} (f g : Fld) (v : Nat) (s : State) (h : p ≠ o) : rget (rset o f v s) p g = rget s p g := by
  unfold rget rset
  rw [rraw_rput_other _ _ h]

theorem rraw_rset_other {o p : Nat} (f : Fld) (v : Nat) (s : State) (h : p ≠ o) : rraw (rset o f v s) p = rraw s p :=
  rraw_rput_other _ _ h

theorem rget_rput_same (o : Nat) (f : Fld) (v : Nat) (s : State) (h : f.lo + f.w ≤ 64) :
    rget (rput o v s) o f = bits v f.lo f.w := by
  unfold rget
  rw [rraw_rput_same, bits_mod64 _ _ _ h]

theorem rget_rput_other {o p : Nat} (f : Fld) (v : Nat) (s : State) (h : p ≠ o) : rget (rput o v s) p f = rget s p f := by
  unfold rget
  rw [rraw_rput_other _ _ h]

theorem rget_lt (s : State) (o : Nat) (f : Fld) : rget s o f < 2 ^ f.w := bits_lt ..

/-! ### Registers of different tiles -/

theorem tile_toNat_ne {t u : TileId} (h : t ≠ u) : t.toNat ≠ u.toNat := fun e => h (BitVec.eq_of_toNat_eq e)

end Sys2Proof.Machine
end

