-- ==== Sys2Proof/Laws/Issue.lean ====
section
/-! SUPPORT. What a retiring instruction of an execute core changes. -/

namespace Sys2Proof

open Sys2Proof.Machine

theorem tile_modTile_same (s : Machine.State) (t : TileId) (f : Tile → Tile) : (s.modTile t f).tile t = f (s.tile t) := by
  simp [State.modTile, State.tile]

theorem tile_modTile_other (s : Machine.State) {t w : TileId} (f : Tile → Tile) (h : w ≠ t) : (s.modTile t f).tile w = s.tile w := by
  unfold State.modTile State.tile
  exact mget_mset_other _ _ _ (tile_toNat_ne h)

@[simp] theorem tile_rput (o v : Nat) (s : Machine.State) (t : TileId) : (rput o v s).tile t = s.tile t := rfl

@[simp] theorem tile_rset (o : Nat) (f : Fld) (v : Nat) (s : Machine.State) (t : TileId) : (rset o f v s).tile t = s.tile t := rfl

@[simp] theorem rraw_modTile (s : Machine.State) (t : TileId) (f : Tile → Tile) (o : Nat) : rraw (s.modTile t f) o = rraw s o := rfl

@[simp] theorem rraw_modX (s : Machine.State) (t : TileId) (f : XCore → XCore) (o : Nat) : rraw (s.modX t f) o = rraw s o := rfl

/-! ### Frames -/

theorem OnlyTile.refl (t : TileId) (offs : List Nat) (u : Machine.State) : OnlyTile t offs u u := ⟨rfl, fun _ _ => rfl, fun _ _ => rfl⟩

theorem OnlyTile.trans {t : TileId} {offs : List Nat} {u v w : Machine.State} (a : OnlyTile t offs u v) (b : OnlyTile t offs v w) :
    OnlyTile t offs u w :=
  ⟨b.rest.trans a.rest, fun o h => (b.regs o h).trans (a.regs o h), fun x h => (b.tiles x h).trans (a.tiles x h)⟩

theorem OnlyTile.mono {t : TileId} {a b : List Nat} {u v : Machine.State} (h : OnlyTile t a u v) (hs : a ⊆ b) : OnlyTile t b u v :=
  ⟨h.rest, fun o ho => h.regs o (fun hx => ho (hs hx)), h.tiles⟩

theorem onlyTile_rput {t : TileId} {offs : List Nat} {o : Nat} (v : Nat) {u w : Machine.State} (ho : o ∈ offs)
    (h : OnlyTile t offs u w) : OnlyTile t offs u (rput o v w) :=
  h.trans ⟨rfl, fun _ hp => rraw_rput_other _ _ (fun e => hp (e ▸ ho)), fun _ _ => rfl⟩

theorem onlyTile_rset {t : TileId} {offs : List Nat} {o : Nat} (f : Fld) (v : Nat) {u w : Machine.State} (ho : o ∈ offs)
    (h : OnlyTile t offs u w) : OnlyTile t offs u (rset o f v w) := onlyTile_rput _ ho h

theorem onlyTile_modTile {t : TileId} {offs : List Nat} (f : Tile → Tile) {u w : Machine.State} (h : OnlyTile t offs u w) :
    OnlyTile t offs u (w.modTile t f) :=
  h.trans ⟨rfl, fun _ _ => rfl, fun _ hx => tile_modTile_other _ _ hx⟩

theorem onlyTile_modX {t : TileId} {offs : List Nat} (f : XCore → XCore) {u w : Machine.State} (h : OnlyTile t offs u w) :
    OnlyTile t offs u (w.modX t f) := onlyTile_modTile _ h

theorem OnlyRegs.refl (offs : List Nat) (u : Machine.State) : OnlyRegs offs u u := ⟨rfl, fun _ _ => rfl⟩

theorem OnlyRegs.trans {offs : List Nat} {u v w : Machine.State} (a : OnlyRegs offs u v) (b : OnlyRegs offs v w) : OnlyRegs offs u w :=
  ⟨b.rest.trans a.rest, fun o h => (b.regs o h).trans (a.regs o h)⟩

theorem onlyRegs_rput {offs : List Nat} {o : Nat} (v : Nat) {u w : Machine.State} (ho : o ∈ offs) (h : OnlyRegs offs u w) :
    OnlyRegs offs u (rput o v w) :=
  h.trans ⟨rfl, fun _ hp => rraw_rput_other _ _ (fun e => hp (e ▸ ho))⟩

theorem onlyRegs_rset {offs : List Nat} {o : Nat} (f : Fld) (v : Nat) {u w : Machine.State} (ho : o ∈ offs) (h : OnlyRegs offs u w) :
    OnlyRegs offs u (rset o f v w) := onlyRegs_rput _ ho h

/-! ### Issue -/

/-- An issued instruction does what its body does on the state after its fetch. -/
theorem xIssue_runs {s : Machine.State} {t : TileId} {len : Nat} (body : Machine.State → XOut) (h : Issues s t len) :
    xIssue t len body s = xFinish t len (body (fetched s t len)) := by
  obtain ⟨h1, h2, h3⟩ := h
  unfold xIssue fetched
  generalize hx : xFetch t len s = r at *
  obtain ⟨e, u⟩ := r
  simp only at h3
  subst h3
  simp [h1, h2]

theorem xRun_runs {s : Machine.State} {t : TileId} (body : Machine.State → XOut) (h : Issues s t 4) :
    xRun t body s = .next (xFinish t 4 (body (fetched s t 4))) := by
  rw [xRun, xIssue_runs body h]

theorem xRun8_runs {s : Machine.State} {t : TileId} (body : Machine.State → XOut) (h : Issues s t 8) :
    xRun8 t body s = .next (xFinish t 8 (body (fetched s t 8))) := by
  rw [xRun8, xIssue_runs body h]

/-! ### Retiring -/

theorem xRetire_eq (t : TileId) (pc : Nat) (u : Machine.State) :
    ∃ k : Bool, xRetire t pc u = (let s := progress t ((rput (R.XC_WDOG t.toNat) 0 (rinc (R.XC_RETIRED t.toNat) F.XC_RETIRED_COUNT 1
      (rput (R.XC_PC t.toNat) (pc % 2 ^ 48 / 4 * 4) u))).modX t (fun x => { x with skipBrk := false }))
      if k then setXState t xcHalted s else s) := by
  unfold xRetire
  dsimp only
  split
  · split
    · exact ⟨true, by simp⟩
    · exact ⟨false, by simp⟩
  · exact ⟨false, by simp⟩

theorem xRetire_retired (t : TileId) (pc : Nat) (u : Machine.State) :
    XRetired t pc (u.tile t).x u (xRetire t pc u) := by
  obtain ⟨k, h⟩ := xRetire_eq t pc u
  have hn : R.XC_PC t.toNat ≠ R.XC_STATUS t.toNat ∧ R.XC_PC t.toNat ≠ R.FC_PROGRESS t.toNat ∧ R.XC_PC t.toNat ≠ R.XC_WDOG t.toNat ∧
      R.XC_PC t.toNat ≠ R.XC_RETIRED t.toNat ∧ R.XC_RETIRED t.toNat ≠ R.XC_STATUS t.toNat ∧
      R.XC_RETIRED t.toNat ≠ R.FC_PROGRESS t.toNat ∧ R.XC_RETIRED t.toNat ≠ R.XC_WDOG t.toNat ∧
      R.XC_WDOG t.toNat ≠ R.XC_STATUS t.toNat ∧ R.XC_WDOG t.toNat ≠ R.FC_PROGRESS t.toNat := by
    simp only [R.XC_PC, R.XC_STATUS, R.FC_PROGRESS, R.XC_WDOG, R.XC_RETIRED]; omega
  obtain ⟨n1, n2, n3, n4, n5, n6, n7, n8, n9⟩ := hn
  have hp : ∀ o, rraw (xRetire t pc u) o = if o = R.XC_STATUS t.toNat ∧ k = true then rraw (xRetire t pc u) o
      else if o = R.FC_PROGRESS t.toNat ∨ o = R.XC_WDOG t.toNat then 0
      else if o = R.XC_RETIRED t.toNat then min (rraw u o + 1) (2 ^ 64 - 1)
      else if o = R.XC_PC t.toNat then (pc % 2 ^ 48 / 4 * 4) % 2 ^ 64 else rraw u o := by
    intro o
    have hr : putBits (rraw u (R.XC_RETIRED t.toNat)) 0 64 (satAdd 64 (bits (rraw u (R.XC_RETIRED t.toNat)) 0 64) 1) % 2 ^ 64 =
        min (rraw u (R.XC_RETIRED t.toNat) + 1) (2 ^ 64 - 1) := by
      have b : rraw u (R.XC_RETIRED t.toNat) < 2 ^ 64 := rraw_lt u _
      have e := bits_putBits_same (rraw u (R.XC_RETIRED t.toNat)) 0 64 (satAdd 64 (bits (rraw u (R.XC_RETIRED t.toNat)) 0 64) 1)
      simp only [bits, satAdd, Nat.shiftRight_zero] at e ⊢
      rw [Nat.mod_eq_of_lt b] at e ⊢
      rw [e]; omega
    cases k
    · simp only [h, Bool.false_eq_true, if_false, and_false]
      simp only [progress, rraw_rput, rraw_modX, rinc, rset]
      simp only [rget, F.XC_RETIRED_COUNT, rraw_rput, n4.symm, if_false]
      split_ifs <;> simp_all
    · simp only [h, if_true, and_true]
      by_cases e : o = R.XC_STATUS t.toNat
      · simp [e]
      · simp only [e, if_false, setXState, rset, rraw_rput]
        simp only [progress, rraw_rput, rraw_modX, rinc, rset]
        simp only [rget, F.XC_RETIRED_COUNT, rraw_rput, n4.symm, if_false]
        split_ifs <;> simp_all
  refine ⟨?_, ?_, ?_, ?_, ?_⟩
  · unfold xPc rget
    rw [hp]
    simp only [n1, n2, n3, n4, false_and, if_false, or_self, if_true]
    simp [bits, F.XC_PC_PC]
    omega
  · rw [hp]; simp [n5, n6, n7]
  · rw [hp]; simp [n8]
  · rw [h]
    have hb : OnlyTile t (retireRegs t) u (progress t ((rput (R.XC_WDOG t.toNat) 0 (rinc (R.XC_RETIRED t.toNat) F.XC_RETIRED_COUNT 1
        (rput (R.XC_PC t.toNat) (pc % 2 ^ 48 / 4 * 4) u))).modX t (fun x => { x with skipBrk := false }))) :=
      onlyTile_rput _ (by simp [retireRegs]) (onlyTile_modX _ (onlyTile_rput _ (by simp [retireRegs])
        (onlyTile_rset _ _ (by simp [retireRegs]) (onlyTile_rput _ (by simp [retireRegs]) (OnlyTile.refl t _ u)))))
    cases k
    · exact hb
    · exact onlyTile_rset _ _ (by simp [retireRegs]) hb
  · cases k <;> simp only [h, Bool.false_eq_true, if_false, if_true, setXState, tile_rset, progress, tile_rput, State.modX,
      rinc, tile_modTile_same]

/-- A body that leaves everything but tile `t`'s X-core registers, then retires. -/
theorem retired_modX (t : TileId) (pc : Nat) (f : XCore → XCore) (u : Machine.State) :
    XRetired t pc (f (u.tile t).x) u (xRetire t pc (u.modX t f)) := by
  have h := xRetire_retired t pc (u.modX t f)
  refine ⟨h.pc, h.retired, h.wdog, (onlyTile_modX f (OnlyTile.refl t _ u)).trans h.frame, ?_⟩
  rw [h.tile]
  simp only [State.modX, tile_modTile_same]

theorem sResult_retire (t : TileId) (len : Nat) (rd : SReg) (v : Word) (u : Machine.State) :
    SResult t len rd v u (xFinish t len (xSetS t rd v u)) := by
  unfold xSetS xFinish wrS
  dsimp only
  split
  · rename_i h
    subst h
    have hr := xRetire_retired t (xPc u t + len) u
    refine ⟨fun r => ?_, ?_⟩
    · by_cases e : r = 0 <;> simp [rdS, hr.tile, e]
    · have : ((xRetire t (xPc u t + len) u).tile t).x.s = (u.tile t).x.s := by rw [hr.tile]
      rw [this]; exact hr
  · rename_i h
    have hr := retired_modX t (xPc u t + len) (fun x => { x with s := mset (fun _ => 0) x.s rd.toNat v }) u
    refine ⟨fun r => ?_, ?_⟩
    · by_cases e : r = 0
      · simp [rdS, e]
      · have hm := mget_mset (fun _ => (0 : Word)) (u.tile t).x.s rd.toNat r.toNat v
        have he : (r.toNat = rd.toNat) = (r = rd) := by simp [BitVec.toNat_inj]
        simp only [rdS, e, if_false]
        have ht : (xRetire t (xPc (u.modX t fun x => { x with s := mset (fun _ => 0) x.s rd.toNat v }) t + len)
          (u.modX t fun x => { x with s := mset (fun _ => 0) x.s rd.toNat v })).tile t = _ := hr.tile
        rw [ht]
        simp only [hm, he, e, ne_eq, not_false_eq_true, and_true]
    · have ht : ((xRetire t (xPc (u.modX t fun x => { x with s := mset (fun _ => 0) x.s rd.toNat v }) t + len)
          (u.modX t fun x => { x with s := mset (fun _ => 0) x.s rd.toNat v })).tile t).x.s = mset (fun _ => 0) (u.tile t).x.s rd.toNat v := by
        have := hr.tile
        exact congrArg (fun c => c.x.s) this
      rw [ht]; exact hr

theorem vResult_retire (t : TileId) (len : Nat) (vd : VReg) (v : VWord) (u : Machine.State) :
    VResult t len vd v u (xFinish t len (.retire (wrV t vd v u))) := by
  have hr := retired_modX t (xPc u t + len) (fun x => { x with v := mset (fun _ => 0) x.v vd.toNat v }) u
  have ht := congrArg (fun c => c.x.v) hr.tile
  refine ⟨fun r => ?_, ?_⟩
  · unfold rdV xFinish wrV
    dsimp only at ht ⊢
    have he : (r.toNat = vd.toNat) = (r = vd) := by simp [BitVec.toNat_inj]
    exact (congrArg (fun m => mget (fun _ => 0) m r.toNat) ht).trans ((mget_mset ..).trans (by simp [he]))
  · unfold xFinish wrV
    dsimp only at ht ⊢
    exact (congrArg (fun m => XRetired t (xPc u t + len) { (u.tile t).x with v := m } u _) ht).mpr hr

theorem pResult_retire (t : TileId) (len : Nat) (pd : PReg) (v : BitVec 64) (u : Machine.State) :
    PResult t len pd v u (xFinish t len (.retire (wrP t pd v u))) := by
  have hr := retired_modX t (xPc u t + len) (fun x => { x with p := mset (fun _ => 0) x.p pd.toNat v }) u
  have ht := congrArg (fun c => c.x.p) hr.tile
  refine ⟨fun r => ?_, ?_⟩
  · unfold rdP xFinish wrP
    dsimp only at ht ⊢
    have he : (r.toNat = pd.toNat) = (r = pd) := by simp [BitVec.toNat_inj]
    exact (congrArg (fun m => mget (fun _ => 0) m r.toNat) ht).trans ((mget_mset ..).trans (by simp [he]))
  · unfold xFinish wrP
    dsimp only at ht ⊢
    exact (congrArg (fun m => XRetired t (xPc u t + len) { (u.tile t).x with p := m } u _) ht).mpr hr

theorem dResult_retire (t : TileId) (len : Nat) (dd : DReg) (v : DWord) (u : Machine.State) :
    DResult t len dd v u (xFinish t len (.retire (wrD t dd v u))) := by
  have hr := retired_modX t (xPc u t + len) (fun x => { x with d := mset (fun _ => 0) x.d dd.toNat v }) u
  have ht := congrArg (fun c => c.x.d) hr.tile
  refine ⟨fun r => ?_, ?_⟩
  · unfold rdD xFinish wrD
    dsimp only at ht ⊢
    have he : (r.toNat = dd.toNat) = (r = dd) := by simp [BitVec.toNat_inj]
    exact (congrArg (fun m => mget (fun _ => 0) m r.toNat) ht).trans ((mget_mset ..).trans (by simp [he]))
  · unfold xFinish wrD
    dsimp only at ht ⊢
    exact (congrArg (fun m => XRetired t (xPc u t + len) { (u.tile t).x with d := m } u _) ht).mpr hr

theorem xBlock_blocked (t : TileId) (obj : Nat) (w : XWait) (u : Machine.State) : XBlocked t obj w u (xBlock t obj w u) := by
  have hpc : R.XC_PC t.toNat ≠ R.XC_STATUS t.toNat := by simp only [R.XC_PC, R.XC_STATUS]; omega
  unfold xBlock
  refine ⟨?_, ?_, ?_, ?_, ?_⟩
  · unfold xState
    rw [rget_rset_field _ _ _ _ _ (by decide) (by decide)]
    exact rget_rset_same _ _ _ _ (by decide)
  · exact rget_rset_same _ _ _ _ (by decide)
  · unfold xPc setXState
    rw [rget_rset_other _ _ _ _ hpc, rget_rset_other _ _ _ _ hpc]
    rfl
  · exact onlyTile_rset _ _ (by simp) (onlyTile_rset _ _ (by simp) (onlyTile_modX _ (OnlyTile.refl t _ u)))
  · simp only [setXState, tile_rset, State.modX, tile_modTile_same]

end Sys2Proof
end

