-- ==== Sys2Proof/Laws/Lanes.lean ====
section
/-! SUPPORT. Laws of lanes: what each lane of a V register and of a P register is after a lane-wise operation. -/

namespace Sys2Proof

open Sys2Proof.Machine

/-- Lane `i` of a V register. -/
theorem lane_eq (v : VWord) (i : Nat) : lane v i = (v.extractLsb' (32 * i) 32).toNat := by
  simp [lane, bits, BitVec.extractLsb'_toNat]

theorem extract_putBits_lane (v : VWord) (i j x : Nat) (hi : i < 64) (hj : j < 64) :
    (BitVec.ofNat 2048 (putBits v.toNat (32 * i) 32 (x % 2 ^ 32))).extractLsb' (32 * j) 32 =
      if j = i then BitVec.ofNat 32 x else v.extractLsb' (32 * j) 32 := by
  apply BitVec.eq_of_getLsbD_eq
  intro k hk
  have h1 : 32 * j + k < 2048 := by omega
  rw [BitVec.getLsbD_extractLsb', BitVec.getLsbD_ofNat, putBits_testBit]
  by_cases e : j = i
  · subst e
    have h2 : 32 * j ≤ 32 * j + k ∧ 32 * j + k < 32 * j + 32 := by omega
    simp only [hk, h1, h2, decide_true, Bool.true_and, if_true, and_self, Nat.add_sub_cancel_left, BitVec.getLsbD_ofNat,
      Nat.testBit_mod_two_pow]
  · have h2 : ¬(32 * i ≤ 32 * j + k ∧ 32 * j + k < 32 * i + 32) := by omega
    rw [if_neg h2, if_neg e, BitVec.getLsbD_extractLsb']
    simp [hk, h1, BitVec.getLsbD]

theorem lanesOf_fold (mask : BitVec 64) (f : Nat → Nat) (l : List Nat) (hl : ∀ i ∈ l, i < 64) (hn : l.Nodup) (old : VWord) (j : Nat)
    (hj : j < 64) :
    (l.foldl (fun v i => if mask.getLsbD i then BitVec.ofNat 2048 (putBits v.toNat (32 * i) 32 (f i % 2 ^ 32)) else v) old).extractLsb'
      (32 * j) 32 = if j ∈ l ∧ mask.getLsbD j = true then BitVec.ofNat 32 (f j) else old.extractLsb' (32 * j) 32 := by
  induction l generalizing old with
  | nil => simp
  | cons a l ih =>
    have ha := hl a (by simp)
    rw [List.nodup_cons] at hn
    rw [List.foldl_cons, ih (fun i h => hl i (by simp [h])) hn.2]
    by_cases e : j = a
    · subst e
      simp only [hn.1, false_and, if_false, List.mem_cons, true_or, true_and]
      split
      · rw [extract_putBits_lane _ _ _ _ hj hj, if_pos rfl]
      · rfl
    · simp only [List.mem_cons, e, false_or]
      split
      · rfl
      · split
        · rw [extract_putBits_lane _ _ _ _ ha hj, if_neg e]
        · rfl

/-- Lane `j` after a lane-wise operation. -/
theorem lanesOf_lane (old : VWord) (mask : BitVec 64) (f : Nat → Nat) (j : Nat) (hj : j < 64) :
    (lanesOf old mask f).extractLsb' (32 * j) 32 =
      if mask.getLsbD j = true then BitVec.ofNat 32 (f j) else old.extractLsb' (32 * j) 32 := by
  unfold lanesOf
  rw [lanesOf_fold mask f _ (fun i h => List.mem_range.mp h) List.nodup_range old j hj]
  simp [hj]

/-- A lane is active when the mask is the whole register or its bit is set. -/
theorem activeLanes_bit (s : Machine.State) (t : TileId) (pg : PReg) (i : Nat) (hi : i < 64) :
    ((activeLanes s t pg).getLsbD i = true) = (pg = 0 ∨ (rdP s t pg).getLsbD i = true) := by
  unfold activeLanes
  by_cases h : pg = 0
  · simp only [h, if_true, true_or, eq_iff_iff, iff_true]
    rw [BitVec.getLsbD_allOnes]; simpa using hi
  · rw [if_neg h]; simp only [h, false_or]

theorem predFold_testBit (f : Nat → Bool) (n i : Nat) :
    ((List.range n).foldl (fun a i => a + b2n (f i) <<< i) 0).testBit i = (decide (i < n) && f i) := by
  have hlt : ∀ n, (List.range n).foldl (fun a i => a + b2n (f i) <<< i) 0 < 2 ^ n := by
    intro n
    induction n with
    | zero => simp
    | succ n ih =>
      rw [List.range_succ, List.foldl_append]
      simp only [List.foldl_cons, List.foldl_nil, Nat.shiftLeft_eq, Nat.pow_succ]
      have : b2n (f n) ≤ 1 := by unfold b2n; split <;> omega
      have h2 := Nat.mul_le_mul_right (2 ^ n) this
      simp only [Nat.shiftLeft_eq] at ih
      omega
  induction n with
  | zero => simp
  | succ n ih =>
    rw [List.range_succ, List.foldl_append]
    simp only [List.foldl_cons, List.foldl_nil]
    rw [Nat.shiftLeft_eq (b2n (f n)), Nat.add_comm, Nat.mul_comm, Nat.testBit_two_pow_mul_add _ (hlt n), ih]
    by_cases h : i < n
    · have : i < n + 1 := by omega
      simp [h, this]
    · by_cases e : i = n
      · subst e
        have hb : (b2n (f i)).testBit 0 = f i := by unfold b2n; cases f i <;> rfl
        simp [hb]
      · have h1 : ¬ i < n + 1 := by omega
        have h2 : i - n ≠ 0 := by omega
        have hb : (b2n (f n)).testBit (i - n) = false := by
          unfold b2n
          cases f n
          · simp
          · obtain ⟨k, hk⟩ := Nat.exists_eq_succ_of_ne_zero h2
            rw [hk]; simp [Nat.testBit_succ]
        simp [h, h1, hb]

theorem predOf_bit (f : Nat → Bool) (i : Nat) (hi : i < 64) : (predOf f).getLsbD i = f i := by
  unfold predOf
  rw [BitVec.getLsbD_ofNat, predFold_testBit]
  simp [hi]

/-- Lane `j` of a result written under PG, over old contents `o`. -/
theorem lanesOf_active (o : VWord) (s : Machine.State) (t : TileId) (pg : PReg) (f : Nat → Nat) (j : Nat) (hj : j < 64) :
    (LaneActive s t pg j → vlane (lanesOf o (activeLanes s t pg) f) j = BitVec.ofNat 32 (f j)) ∧
    (¬ LaneActive s t pg j → vlane (lanesOf o (activeLanes s t pg) f) j = vlane o j) := by
  have h := lanesOf_lane o (activeLanes s t pg) f j hj
  have e := activeLanes_bit s t pg j hj
  exact ⟨fun a => h.trans (if_pos (e.mpr a)), fun a => h.trans (if_neg (fun b => a (e.mp b)))⟩

theorem laneResult_retire (t : TileId) (pg : PReg) (vd : VReg) (f : Nat → Nat) (u : Machine.State) :
    LaneResult t pg vd (fun i => BitVec.ofNat 32 (f i)) u
      (xFinish t 4 (.retire (wrV t vd (lanesOf (rdV u t vd) (activeLanes u t pg) f) u))) :=
  ⟨_, vResult_retire .., fun i hi => lanesOf_active _ u t pg f i hi⟩

theorem predResult_retire (t : TileId) (pg pd : PReg) (f : Nat → Bool) (w : BitVec 64) (u : Machine.State)
    (hw : ∀ i, i < 64 → w.getLsbD i = f i) :
    PredResult t pg pd (fun i => f i = true) u (xFinish t 4 (.retire (wrP t pd (w &&& activeLanes u t pg) u))) := by
  refine ⟨_, pResult_retire .., fun i hi => ?_⟩
  rw [BitVec.getLsbD_and, Bool.and_eq_true, hw i hi, activeLanes_bit u t pg i hi, and_comm]
  rfl

/-- Lane `i` read as a number is the lane's word. -/
theorem lane_toNat (v : VWord) (i : Nat) : lane v i = (vlane v i).toNat := lane_eq v i

theorem ofNat_lane (v : VWord) (i : Nat) : BitVec.ofNat 32 (lane v i) = vlane v i := by simp [lane_toNat]

end Sys2Proof
end

