-- ==== Sys2Proof/Laws/Memory.lean ====
section
/-! SUPPORT. Laws of memory: what reads and writes of bytes do, and that every memory operation keeps the canonical form. -/

namespace Sys2Proof

open Sys2Proof.Machine

/-! ### The canonical form -/

theorem mem_rput (o v : Nat) (s : Machine.State) : (rput o v s).mem = s.mem := rfl

theorem mem_rset (o : Nat) (f : Fld) (v : Nat) (s : Machine.State) : (rset o f v s).mem = s.mem := mem_rput ..

theorem mem_rinc (o : Nat) (f : Fld) (n : Nat) (s : Machine.State) : (rinc o f n s).mem = s.mem := mem_rset ..

theorem wrCells_wf (cells : List (Nat × Byte)) (s : Machine.State) (h : MemoryWf s) : MemoryWf (wrCells cells s) :=
  mwf_msets _ _ _ h

theorem wrBytes_wf (a : Nat) (l : List Byte) (s : Machine.State) (h : MemoryWf s) : MemoryWf (wrBytes a l s) := wrCells_wf _ _ h

theorem freeBytes_wf (l : List Nat) (s : Machine.State) (h : MemoryWf s) : MemoryWf (freeBytes l s) := wrCells_wf _ _ h

theorem countCorr_mem (l : Nat) (s : Machine.State) : (countCorr l s).mem = s.mem := by
  unfold countCorr; split
  · exact mem_rinc ..
  · rfl

theorem countCorrs_mem (l : List Nat) (s : Machine.State) : (countCorrs l s).mem = s.mem := by
  unfold countCorrs
  generalize (((l.filter (fun c => eccAt s c == .correctable)).map (· / 2)).dedup) = ls
  induction ls generalizing s with
  | nil => rfl
  | cons c cs ih => exact (ih _).trans (countCorr_mem c s)

theorem countPoison_mem (l : List Nat) (s : Machine.State) : (countPoison l s).mem = s.mem := by
  unfold countPoison; dsimp only; split
  · rfl
  · exact mem_rinc ..

theorem loseLines_mem (l : List Nat) (s : Machine.State) : (loseLines l s).mem = s.mem := mem_rinc ..

theorem raceCells_mem (l : List (Nat × Byte)) (s : Machine.State) : (raceCells l s).2.mem = s.mem := by
  unfold raceCells; dsimp only; split <;> rfl

theorem meetCodeword_mem (c : Nat) (s : Machine.State) : (meetCodeword c s).2.mem = s.mem := by
  unfold meetCodeword
  split
  · rfl
  · rfl
  · show (countUncorr c s).mem = s.mem
    unfold countUncorr
    split
    · exact (mem_rset ..).trans (mem_rinc ..)
    · rfl
  · rfl

theorem meetCodewords_mem (l : List Nat) (s : Machine.State) : (meetCodewords l s).2.mem = s.mem := by
  induction l generalizing s with
  | nil => rfl
  | cons c cs ih => exact (ih _).trans (meetCodeword_mem c s)

/-- A read changes no byte. -/
theorem memRead_mem (l : List Nat) (s : Machine.State) : (memRead l s).2.2.mem = s.mem := by
  have h := (meetCodewords_mem (codewords l) (countPoison (codewords l) (countCorrs (codewords l) s))).trans
    ((countPoison_mem ..).trans (countCorrs_mem ..))
  unfold memRead; dsimp only
  split
  · exact loseLines_mem _ _
  · split
    · exact (raceCells_mem _ _).trans h
    · exact h

theorem localRead_mem (l : List Nat) (s : Machine.State) : (localRead l s).2.2.mem = s.mem := by
  unfold localRead; split
  · exact memRead_mem l s
  · rfl

theorem writeCodeword_wf (c : Nat) (cells : List (Nat × Byte)) (s : Machine.State) (h : MemoryWf s) :
    MemoryWf (writeCodeword c cells s).2 := by
  unfold writeCodeword; dsimp only
  split
  · exact wrCells_wf _ _ h
  · have hm : MemoryWf (meetCodeword c s).2 := by unfold MemoryWf; rw [meetCodeword_mem]; exact h
    split
    · exact wrCells_wf _ _ hm
    · exact hm

theorem writeCodewords_wf (cells : List (Nat × Byte)) (l : List Nat) (s : Machine.State) (h : MemoryWf s) :
    MemoryWf (writeCodewords cells l s).2 := by
  induction l generalizing s with
  | nil => exact h
  | cons c cs ih => exact ih _ (writeCodeword_wf c cells s h)

theorem memWrite_wf (cells : List (Nat × Byte)) (s : Machine.State) (h : MemoryWf s) : MemoryWf (memWrite cells s).2 := by
  unfold memWrite; dsimp only
  split
  · exact freeBytes_wf _ _ (by unfold MemoryWf; rw [loseLines_mem]; exact h)
  · refine writeCodewords_wf _ _ _ ?_
    unfold MemoryWf
    rw [raceCells_mem, countPoison_mem, countCorrs_mem]; exact h

theorem localWrite_wf (cells : List (Nat × Byte)) (s : Machine.State) (h : MemoryWf s) : MemoryWf (localWrite cells s).2 := by
  unfold localWrite; split
  · exact memWrite_wf cells s h
  · exact h

theorem localAadd_wf (a : Nat) (wide : Bool) (v : Word) (s : Machine.State) (h : MemoryWf s) :
    MemoryWf (localAadd a wide v s).2.2 := by
  unfold localAadd; dsimp only
  split
  · exact h
  · split
    · exact wrCells_wf _ _ (by unfold MemoryWf; rw [localRead_mem]; exact h)
    · unfold MemoryWf; rw [localRead_mem]; exact h

/-! ### Reads of sound bytes -/

theorem meetCodeword_good {c : Nat} {s : Machine.State} (h : eccAt s c = .good) : meetCodeword c s = (true, s) := by
  unfold meetCodeword; rw [h]

theorem meetCodewords_good {l : List Nat} {s : Machine.State} (h : ∀ c ∈ l, eccAt s c = .good) : meetCodewords l s = (true, s) := by
  induction l with
  | nil => rfl
  | cons c cs ih =>
    rw [meetCodewords, meetCodeword_good (h c (by simp))]
    simp only [ih (fun d hd => h d (by simp [hd])), Bool.true_and]

theorem countCorrs_good {l : List Nat} {s : Machine.State} (h : ∀ c ∈ l, eccAt s c = .good) : countCorrs l s = s := by
  unfold countCorrs
  rw [List.filter_eq_nil_iff.mpr (fun c hc => by rw [h c hc]; decide)]
  rfl

theorem countPoison_good {l : List Nat} {s : Machine.State} (h : ∀ c ∈ l, eccAt s c = .good) : countPoison l s = s := by
  have e : l.filter (fun c => eccAt s c == .uncorrectable || eccAt s c == .poisoned) = [] :=
    List.filter_eq_nil_iff.mpr (fun c hc => by rw [h c hc]; decide)
  unfold countPoison
  rw [e]
  rfl

theorem raceCells_clean {l : List (Nat × Byte)} {s : Machine.State} (h : ∀ e ∈ l, e.1 ∉ racedBytes s) : raceCells l s = (l, s) := by
  unfold raceCells; dsimp only
  rw [if_pos (by rw [List.all_eq_true]; intro e he; simpa using h e he)]

theorem lostLines_clean {l : List Nat} {s : Machine.State} (h : ∀ a ∈ l, a / 64 ∉ s.morLost) : lostLines s l = [] := by
  unfold lostLines
  rw [List.filter_eq_nil_iff]
  intro k hk
  simp only [Bool.and_eq_true, List.any_eq_true, beq_iff_eq, not_and, not_exists]
  rintro - a ha rfl
  exact h a ha hk

theorem codewords_good {l : List Nat} {s : Machine.State} (h : ∀ a ∈ l, Clean s a) : ∀ c ∈ codewords l, eccAt s c = .good := by
  intro c hc
  simp only [codewords, List.mem_dedup, List.mem_map] at hc
  obtain ⟨a, ha, rfl⟩ := hc
  exact (h a ha).1

/-- A read of bytes that exist and are as written gives them and changes nothing. -/
theorem localRead_good {l : List Nat} {s : Machine.State} (h : ∀ a ∈ l, addrOk s a = true ∧ Clean s a) :
    localRead l s = (.ok, l.map (rdByte s), s) := by
  have hc := codewords_good (l := l) (fun a ha => (h a ha).2)
  unfold localRead
  rw [if_pos (by rw [List.all_eq_true]; exact fun a ha => (h a ha).1)]
  unfold memRead
  dsimp only
  rw [lostLines_clean (fun a ha => (h a ha).2.2.2), countCorrs_good hc, countPoison_good hc, meetCodewords_good hc,
    raceCells_clean (by
      intro e he
      simp only [List.mem_map] at he
      obtain ⟨a, ha, rfl⟩ := he
      exact (h a ha).2.2.1)]
  simp

/-! ### Writes of sound bytes -/

theorem rdByte_wrCells (cells : List (Nat × Byte)) (s : Machine.State) (a : Nat) :
    rdByte (wrCells cells s) a = cells.foldl (fun b c => if a = c.1 then c.2 else b) (rdByte s a) := by
  unfold rdByte wrCells
  dsimp only
  generalize s.mem = m
  unfold msets
  induction cells generalizing m with
  | nil => rfl
  | cons c cs ih => rw [List.foldl_cons, ih, mget_mset, List.foldl_cons]

theorem eccAt_setEcc (c d : Nat) (m : EccMark) (s : Machine.State) : eccAt (setEcc c m s) d = if d = c then m else eccAt s d := mget_mset ..

theorem OnlyMem.refl (u : Machine.State) : OnlyMem u u := ⟨rfl, fun _ => rfl⟩

theorem OnlyMem.trans {u v w : Machine.State} (a : OnlyMem u v) (b : OnlyMem v w) : OnlyMem u w := by
  refine ⟨?_, fun c => (b.marks c).trans (a.marks c)⟩
  have h1 := a.rest
  have h2 := b.rest
  have e : { w with mem := u.mem, ecc := u.ecc } =
      { ({ w with mem := v.mem, ecc := v.ecc } : Machine.State) with mem := u.mem, ecc := u.ecc } := rfl
  rw [e, h2]; exact h1

theorem foldl_filter_cell (cells : List (Nat × Byte)) (p : Nat × Byte → Bool) (a : Nat) (h : ∀ e ∈ cells, e.1 = a → p e = true) (b : Byte) :
    (cells.filter p).foldl (fun b c => if a = c.1 then c.2 else b) b = cells.foldl (fun b c => if a = c.1 then c.2 else b) b := by
  induction cells generalizing b with
  | nil => rfl
  | cons c cs ih =>
    have ih' := fun b => ih (fun e he => h e (by simp [he])) b
    by_cases hp : p c = true
    · rw [List.filter_cons_of_pos hp, List.foldl_cons, List.foldl_cons, ih']
    · rw [List.filter_cons_of_neg hp, List.foldl_cons, ih']
      have : a ≠ c.1 := fun e => hp (h c (by simp) e.symm)
      rw [if_neg this]

theorem foldl_no_cell (cells : List (Nat × Byte)) (a : Nat) (h : ∀ e ∈ cells, e.1 ≠ a) (b : Byte) :
    cells.foldl (fun b c => if a = c.1 then c.2 else b) b = b := by
  induction cells generalizing b with
  | nil => rfl
  | cons c cs ih =>
    rw [List.foldl_cons, if_neg (fun e => h c (by simp) e.symm)]
    exact ih (fun e he => h e (by simp [he])) b

theorem writeCodeword_good {c : Nat} {cells : List (Nat × Byte)} {s : Machine.State} (h : eccAt s c = .good) :
    writeCodeword c cells s = (true, setEcc c .good (wrCells (cells.filter (fun e => e.1 / 32 == c)) s)) := by
  unfold writeCodeword ofCodeword; dsimp only
  rw [meetCodeword_good h]
  simp

theorem writeCodewords_good {cells : List (Nat × Byte)} {l : List Nat} {s : Machine.State} (h : ∀ c ∈ l, eccAt s c = .good)
    (hn : l.Nodup) :
    (writeCodewords cells l s).1 = true ∧ OnlyMem s (writeCodewords cells l s).2 ∧
      ∀ a, rdByte (writeCodewords cells l s).2 a =
        if a / 32 ∈ l then cells.foldl (fun b c => if a = c.1 then c.2 else b) (rdByte s a) else rdByte s a := by
  induction l generalizing s with
  | nil => exact ⟨rfl, OnlyMem.refl s, fun a => by simp [writeCodewords]⟩
  | cons c cs ih =>
    have hc := h c (by simp)
    rw [List.nodup_cons] at hn
    have e1 : ∀ d, eccAt (setEcc c .good (wrCells (cells.filter (fun e => e.1 / 32 == c)) s)) d = eccAt s d := by
      intro d
      rw [eccAt_setEcc]
      split
      · rename_i e; rw [e, hc]
      · rfl
    obtain ⟨i1, i2, i3⟩ := ih (s := setEcc c .good (wrCells (cells.filter (fun e => e.1 / 32 == c)) s))
      (fun d hd => by rw [e1]; exact h d (by simp [hd])) hn.2
    rw [writeCodewords, writeCodeword_good hc]
    dsimp only
    refine ⟨by simp [i1], OnlyMem.trans (v := setEcc c .good (wrCells (cells.filter (fun e => e.1 / 32 == c)) s)) ⟨rfl, e1⟩ i2, fun a => ?_⟩
    rw [i3]
    have e2 : rdByte (setEcc c .good (wrCells (cells.filter (fun e => e.1 / 32 == c)) s)) a =
        (cells.filter (fun e => e.1 / 32 == c)).foldl (fun b c => if a = c.1 then c.2 else b) (rdByte s a) := rdByte_wrCells _ s a
    by_cases ha : a / 32 = c
    · have : a / 32 ∉ cs := fun q => hn.1 (ha ▸ q)
      rw [if_neg this, if_pos (by simp [ha]), e2]
      exact foldl_filter_cell _ _ _ (fun e _ q => by simp [q, ha]) _
    · have e3 : (cells.filter (fun e => e.1 / 32 == c)).foldl (fun b c => if a = c.1 then c.2 else b) (rdByte s a) = rdByte s a := by
        apply foldl_no_cell
        intro e he q
        simp only [List.mem_filter, beq_iff_eq] at he
        exact ha (q ▸ he.2)
      rw [e2, e3]
      simp [ha]

/-- A write of bytes that exist and are as written. -/
theorem localWrite_good {cells : List (Nat × Byte)} {s : Machine.State} (h : ∀ e ∈ cells, addrOk s e.1 = true ∧ Clean s e.1) :
    (localWrite cells s).1 = .ok ∧ OnlyMem s (localWrite cells s).2 ∧
      ∀ a, rdByte (localWrite cells s).2 a = cells.foldl (fun b c => if a = c.1 then c.2 else b) (rdByte s a) := by
  have ha : ∀ a ∈ cells.map (·.1), Clean s a := by
    intro a ha
    simp only [List.mem_map] at ha
    obtain ⟨e, he, rfl⟩ := ha
    exact (h e he).2
  have hc := codewords_good ha
  have hp : ∀ c ∈ (codewords (cells.map (·.1))).filter (fun c => !fillsCodeword c cells), eccAt s c = .good :=
    fun c hm => hc c (List.mem_filter.mp hm).1
  obtain ⟨h1, h2, h3⟩ := writeCodewords_good (cells := cells) hc (List.nodup_dedup _)
  unfold localWrite
  rw [if_pos (by rw [List.all_eq_true]; exact fun a ha => (h a ha).1)]
  unfold memWrite
  dsimp only
  rw [lostLines_clean (fun a hm => (ha a hm).2.2), countCorrs_good hp, countPoison_good hp,
    raceCells_clean (fun e he => (h e he).2.2.1)]
  refine ⟨by simp [h1], h2, fun a => ?_⟩
  refine (h3 a).trans ?_
  split
  · rfl
  · rename_i hn
    refine (foldl_no_cell _ _ (fun e he q => hn ?_) _).symm
    simp only [codewords, List.mem_dedup, List.mem_map]
    exact ⟨a, ⟨e, he, q⟩, rfl⟩

/-- The bytes of a number written one after the other. -/
theorem foldl_natLe (n x la a : Nat) (k : Nat) (b : Byte) :
    (((natLe n x).zipIdx k).map (fun p => (la + p.2, p.1))).foldl (fun b c => if a = c.1 then c.2 else b) b =
      if la + k ≤ a ∧ a < la + k + n then BitVec.ofNat 8 (x / 256 ^ (a - la - k)) else b := by
  induction n generalizing x k b with
  | zero =>
    rw [if_neg (by omega)]; rfl
  | succ n ih =>
    rw [natLe, List.zipIdx_cons, List.map_cons, List.foldl_cons, ih]
    by_cases h0 : a = la + k
    · subst h0
      rw [if_neg (by omega), if_pos (by simp), if_pos (by omega)]
      simp
    · simp only [h0, if_false]
      by_cases h1 : la + (k + 1) ≤ a ∧ a < la + (k + 1) + n
      · rw [if_pos h1, if_pos (by omega), Nat.div_div_eq_div_mul]
        congr 2
        have : a - la - k = (a - la - (k + 1)) + 1 := by omega
        rw [this, pow_succ, Nat.mul_comm]
      · rw [if_neg h1, if_neg (by omega)]

theorem natLe_length (n x : Nat) : (natLe n x).length = n := by
  induction n generalizing x with
  | zero => rfl
  | succ n ih => simp [natLe, ih]

end Sys2Proof
end

