-- ==== Sys2Proof/Laws/Access.lean ====
section
/-! SUPPORT. Laws of the X-core's loads and stores: what an access that reaches memory without a request does. -/

namespace Sys2Proof

open Sys2Proof.Machine

/-! ### Lines -/

theorem div_line {a n k : Nat} (hn : n ∣ 64) (ha : n ∣ a) (hk : k < n) : (a + k) / 64 = a / 64 := by
  obtain ⟨q, rfl⟩ := ha
  obtain ⟨m, hm⟩ := hn
  have hn0 : 0 < n := by omega
  have hm0 : 0 < m := Nat.pos_of_ne_zero (by rintro rfl; simp at hm)
  rw [hm, ← Nat.div_div_eq_div_mul, ← Nat.div_div_eq_div_mul, Nat.mul_add_div hn0, Nat.div_eq_of_lt hk, Nat.add_zero,
    Nat.mul_div_cancel_left _ hn0]

theorem dedup_const {l : List Nat} {c : Nat} (hl : l ≠ []) (h : ∀ x ∈ l, x = c) : l.dedup = [c] := by
  rw [List.eq_replicate_of_mem h]
  have : l.length ≠ 0 := by simpa using hl
  exact List.replicate_dedup this

/-- An aligned access of `n` bytes that divides a line lies in one line. -/
theorem groupLines_one {a n : Nat} (hn : n ∣ 64) (ha : n ∣ a) : groupLines a (List.range n) = [List.range n] := by
  have hn0 : 0 < n := Nat.pos_of_ne_zero (by rintro rfl; simp at hn)
  unfold groupLines
  rw [dedup_const (c := a / 64)]
  · simp only [List.map_cons, List.map_nil]
    rw [List.filter_eq_self.mpr]
    intro k hk
    simpa using div_line hn ha (List.mem_range.mp hk)
  · simp; omega
  · intro x hx
    simp only [List.mem_map, List.mem_range] at hx
    obtain ⟨k, hk, rfl⟩ := hx
    exact div_line hn ha hk

theorem mem_groupLines {va : Nat} {idx : List Nat} {g : List Nat} (h : g ∈ groupLines va idx) : g ≠ [] ∧ ∀ k ∈ g, k ∈ idx := by
  unfold groupLines at h
  simp only [List.mem_map, List.mem_dedup] at h
  obtain ⟨l, ⟨k, hk, rfl⟩, rfl⟩ := h
  refine ⟨?_, fun j hj => List.mem_of_mem_filter hj⟩
  apply List.ne_nil_of_mem (a := k)
  simp [hk]

theorem groupLines_cover {va : Nat} {idx : List Nat} {k : Nat} (h : k ∈ idx) : ∃ g ∈ groupLines va idx, k ∈ g := by
  refine ⟨idx.filter (fun j => (va + j) / 64 == (va + k) / 64), ?_, by simp [h]⟩
  unfold groupLines
  simp only [List.mem_map, List.mem_dedup]
  exact ⟨(va + k) / 64, ⟨k, h, rfl⟩, rfl⟩

/-! ### Bytes of a load -/

theorem zip_map_find {l : List Nat} (f : Nat → Byte) {k : Nat} :
    (l.zip (l.map f)).find? (fun e => e.1 == k) = if k ∈ l then some (k, f k) else none := by
  induction l with
  | nil => simp
  | cons a l ih =>
    simp only [List.map_cons, List.zip_cons_cons, List.find?_cons]
    by_cases h : a = k
    · subst h; simp
    · have h2 : (a == k) = false := by simpa using h
      rw [h2, ih]
      have h3 : k ≠ a := fun e => h e.symm
      simp [h3]

theorem loadByte_parts (f : Nat → Byte) (gs : List (List Nat)) (k : Nat) (b : Byte) :
    (gs.map (fun g => (⟨g, some (g.map f)⟩ : LoadPart))).foldl (fun b p =>
      match p.data with
      | some d => match (p.idx.zip d).find? (fun e => e.1 == k) with
        | some e => e.2
        | none => b
      | none => b) b = if ∃ g ∈ gs, k ∈ g then f k else b := by
  induction gs generalizing b with
  | nil => simp
  | cons g gs ih =>
    rw [List.map_cons, List.foldl_cons, ih]
    simp only [zip_map_find, List.mem_cons, exists_eq_or_imp]
    by_cases h : k ∈ g
    · simp only [h, if_true, true_or, ite_self]
    · simp only [h, if_false, false_or]

theorem loadByte_map (f : Nat → Byte) (gs : List (List Nat)) (k : Nat) (h : ∃ g ∈ gs, k ∈ g) :
    loadByte (gs.map (fun g => (⟨g, some (g.map f)⟩ : LoadPart))) k = f k := by
  unfold loadByte
  exact (loadByte_parts f gs k 0).trans (if_pos h)

theorem partsDone_map (f : List Nat → List Byte) (gs : List (List Nat)) :
    partsDone (gs.map (fun g => (⟨g, some (f g)⟩ : LoadPart))) = true := by
  simp [partsDone]

/-! ### Loads -/

/-- A line that reaches memory without a request is read at once. -/
theorem readLine_reaches {t : TileId} {va la : Nat} {idx : List Nat} {iss : Issuer} {unit : Nat} {s u : Machine.State}
    (h : Reaches t (va + idx.headD 0) true false la s u)
    (hg : ∀ k ∈ idx, addrOk u (la + (k - idx.headD 0)) = true ∧ Clean u (la + (k - idx.headD 0))) :
    readLine t va idx iss unit s = (.ok ⟨idx, some (idx.map (fun k => rdByte u (la + (k - idx.headD 0))))⟩, u) := by
  obtain ⟨h1, h2⟩ := h
  unfold readLine
  dsimp only
  rw [h1]
  dsimp only
  rw [h2]
  dsimp only
  rw [localRead_good (by
    intro a ha
    simp only [List.mem_map] at ha
    obtain ⟨k, hk, rfl⟩ := ha
    exact hg k hk)]
  simp

/-- A load of one line that reaches memory without a request retires with its bytes. -/
theorem xLoad_one {t : TileId} {va la n : Nat} {dst : LoadDst} {s u : Machine.State} (hn : n ∣ 64) (ha : n ∣ va)
    (h : Reaches t va true false la s u) (hg : Sound u la n) :
    xLoad t va (List.range n) dst s =
      .retire (loadWrite t dst [⟨List.range n, some ((List.range n).map (fun k => rdByte u (la + k)))⟩] u) := by
  have h0 : (List.range n).headD 0 = 0 := by cases n <;> simp [List.range_succ_eq_map]
  unfold xLoad
  rw [groupLines_one hn ha, readLines, readLine_reaches (la := la) (u := u) (by rw [h0]; exact h) (by
    intro k hk
    rw [h0]; exact hg k (List.mem_range.mp hk))]
  simp only [readLines, h0, Nat.sub_zero]
  simp [partsDone]

theorem loadByte_one (f : Nat → Byte) (n : Nat) : (List.range n).map (loadByte [⟨List.range n, some ((List.range n).map f)⟩]) =
    (List.range n).map f := by
  apply List.map_congr_left
  intro k hk
  exact loadByte_map f [List.range n] k ⟨_, by simp, hk⟩

theorem leNat_rdBytes (u : Machine.State) (la n : Nat) : leNat ((List.range n).map (fun k => rdByte u (la + k))) = memNat u la n := rfl

theorem translate_held {u : Machine.State} {t : TileId} {va la : Nat} {rd wr : Bool} (h : Held u t va rd wr la) :
    Machine.translate t va rd wr u = (.ok u.devId la, u) := by
  obtain ⟨h1, ⟨e, h2, h3, h4⟩, _⟩ := h
  unfold Machine.translate findLeaf heldEntry
  rw [if_pos h1, h2]
  simp [h3, h4]

theorem Held.reaches {u : Machine.State} {t : TileId} {va la : Nat} {rd wr : Bool} (h : Held u t va rd wr la) :
    Reaches t va rd wr la u u := ⟨translate_held h, h.2.2.1⟩

theorem headD_mem {g : List Nat} (h : g ≠ []) : g.headD 0 ∈ g := by
  cases g with
  | nil => exact absurd rfl h
  | cons a g => simp

/-- Lines whose bytes the TLB holds are read at once, in any number. -/
theorem readLines_held {t : TileId} {va la : Nat} {mk : Nat → Issuer} {unit : Nat} {u : Machine.State} (gs : List (List Nat)) (n : Nat)
    (h : ∀ g ∈ gs, g ≠ [] ∧ (∀ k ∈ g, g.headD 0 ≤ k) ∧ ∀ k ∈ g, Held u t (va + k) true false (la + k)) :
    readLines t va mk unit n gs u = (.ok (gs.map (fun g => ⟨g, some (g.map (fun k => rdByte u (la + k)))⟩)), u) := by
  induction gs generalizing n with
  | nil => rfl
  | cons g gs ih =>
    obtain ⟨h1, h2, h3⟩ := h g (by simp)
    have hr := (h3 _ (headD_mem h1)).reaches
    have e : ∀ k ∈ g, la + g.headD 0 + (k - g.headD 0) = la + k := fun k hk => by have := h2 k hk; omega
    rw [readLines, readLine_reaches hr (by
      intro k hk
      rw [e k hk]
      exact ⟨(h3 k hk).2.2.2.1, (h3 k hk).2.2.2.2⟩)]
    simp only [ih (n + 1) (fun g' hg => h g' (by simp [hg])), List.map_cons]
    congr 4
    exact congrArg _ (List.map_congr_left (fun k hk => by rw [e k hk]))

theorem groupLines_head {va : Nat} {idx : List Nat} (hs : idx.Pairwise (· < ·)) {g : List Nat} (h : g ∈ groupLines va idx) :
    ∀ k ∈ g, g.headD 0 ≤ k := by
  unfold groupLines at h
  simp only [List.mem_map, List.mem_dedup] at h
  obtain ⟨l, -, rfl⟩ := h
  have hp := hs.filter (fun k => (va + k) / 64 == l)
  generalize idx.filter (fun k => (va + k) / 64 == l) = g at hp ⊢
  cases g with
  | nil => simp
  | cons a g =>
    rw [List.pairwise_cons] at hp
    intro k hk
    rcases List.mem_cons.mp hk with rfl | hk
    · simp
    · exact Nat.le_of_lt (hp.1 k hk)

/-- A load whose bytes the TLB holds retires with them. -/
theorem xLoad_held {t : TileId} {va la : Nat} {idx : List Nat} {dst : LoadDst} {u : Machine.State} (hs : idx.Pairwise (· < ·))
    (h : ∀ k ∈ idx, Held u t (va + k) true false (la + k)) :
    xLoad t va idx dst u =
      .retire (loadWrite t dst ((groupLines va idx).map (fun g => ⟨g, some (g.map (fun k => rdByte u (la + k)))⟩)) u) := by
  unfold xLoad
  rw [readLines_held (la := la) _ _ (fun g hg => ⟨(mem_groupLines hg).1, groupLines_head hs hg, fun k hk => h k ((mem_groupLines hg).2 k hk)⟩)]
  simp only [partsDone_map, if_true]

/-! ### Stores -/

/-- A line of a store that reaches memory without a request is written at once. -/
theorem storeLine_reaches {t : TileId} {la : Nat} {cells : List (Nat × Byte)} {s u : Machine.State}
    (h : Reaches t (cells.headD (0, 0)).1 false true la s u)
    (hg : ∀ e ∈ cells, addrOk u (la + (e.1 - (cells.headD (0, 0)).1)) = true ∧
      Clean u (la + (e.1 - (cells.headD (0, 0)).1))) :
    storeLine t cells s = (localWrite (cells.map (fun c => (la + (c.1 - (cells.headD (0, 0)).1), c.2))) u).2 := by
  obtain ⟨h1, h2⟩ := h
  unfold storeLine
  dsimp only
  rw [h1]
  dsimp only
  rw [h2]
  dsimp only
  rw [(localWrite_good (by
    intro e he
    simp only [List.mem_map] at he
    obtain ⟨k, hk, rfl⟩ := he
    exact hg k hk)).1]
  simp

theorem cellsAt_fst {va n x : Nat} {e : Nat × Byte} (h : e ∈ cellsAt va n x) : va ≤ e.1 ∧ e.1 < va + n := by
  unfold cellsAt at h
  simp only [List.mem_map] at h
  obtain ⟨p, hp, rfl⟩ := h
  have := List.snd_lt_of_mem_zipIdx hp
  rw [natLe_length] at this
  dsimp only
  omega

theorem cellsAt_cons (va n x : Nat) : ∃ l, cellsAt va (n + 1) x = (va, BitVec.ofNat 8 x) :: l := by
  unfold cellsAt; rw [natLe]; exact ⟨_, by rw [List.zipIdx_cons, List.map_cons]; rfl⟩

/-- A store of one line that reaches memory without a request puts its bytes there and retires. -/
theorem xStore_one {t : TileId} {va la n x : Nat} {s u : Machine.State} (hn : n ∣ 64) (ha : n ∣ va)
    (h : Reaches t va false true la s u) (hg : Sound u la n) :
    ∃ w, Stored la n x u w ∧ xStore t (cellsAt va n x) s = .retire (nextSeq t w) := by
  have hn0 : n ≠ 0 := by rintro rfl; simp at hn
  obtain ⟨m, rfl⟩ := Nat.exists_eq_succ_of_ne_zero hn0
  obtain ⟨l, hl⟩ := cellsAt_cons va m x
  have hh : ((cellsAt va (m + 1) x).headD (0, 0)).1 = va := by rw [hl]; rfl
  have hb : ∀ e ∈ cellsAt va (m + 1) x, addrOk u (la + (e.1 - va)) = true ∧ Clean u (la + (e.1 - va)) := by
    intro e he
    have := cellsAt_fst he
    exact hg _ (by simp only [Nat.succ_eq_add_one]; omega)
  have hline : ∀ e ∈ cellsAt va (m + 1) x, e.1 / 64 = va / 64 := by
    intro e he
    have := cellsAt_fst he
    have e1 : e.1 = va + (e.1 - va) := by omega
    rw [e1]
    exact div_line hn ha (by simp only [Nat.succ_eq_add_one]; omega)
  have hcells : (cellsAt va (m + 1) x).map (fun c => (la + (c.1 - va), c.2)) = cellsAt la (m + 1) x := by
    unfold cellsAt
    rw [List.map_map]
    apply List.map_congr_left
    intro p _
    simp
  have hw := localWrite_good (cells := cellsAt la (m + 1) x) (s := u) (by
    intro e he
    have := cellsAt_fst he
    have e1 : e.1 = la + (e.1 - la) := by omega
    rw [e1]
    exact hg _ (by simp only [Nat.succ_eq_add_one]; omega))
  refine ⟨(localWrite (cellsAt la (m + 1) x) u).2, ⟨hw.2.1, fun a => ?_⟩, ?_⟩
  · rw [hw.2.2 a]
    have := foldl_natLe (m + 1) x la a 0 (rdByte u a)
    simpa [cellsAt] using this
  · unfold xStore
    dsimp only
    rw [dedup_const (c := va / 64) (by rw [hl]; simp) (by
      intro y hy
      simp only [List.mem_map] at hy
      obtain ⟨e, he, rfl⟩ := hy
      exact hline e he)]
    simp only [List.map_cons, List.map_nil, List.foldl_cons, List.foldl_nil]
    rw [List.filter_eq_self.mpr (by intro e he; simpa using hline e he)]
    rw [storeLine_reaches (la := la) (u := u) (by rw [hh]; exact h) (by rw [hh]; exact hb), hh, hcells]

theorem leafNow_congr {u w : Machine.State} {t : TileId} {va : Nat} (hr : w.regs = u.regs)
    (hb : ∀ a ∈ walkBytes u t va, rdByte w a = rdByte u a) : leafNow w (tileDie t) va = leafNow u (tileDie t) va := by
  have hx : xlatBase w (tileDie t) = xlatBase u (tileDie t) := by unfold xlatBase rget rraw; rw [hr]
  have h1 : rdBytes w (xlatBase u (tileDie t) + 8 * (va / 2 ^ 30)) 8 = rdBytes u (xlatBase u (tileDie t) + 8 * (va / 2 ^ 30)) 8 :=
    List.map_congr_left (fun k hk => hb _ (List.mem_append_left _ (List.mem_map_of_mem hk)))
  unfold leafNow
  rw [hx, h1]
  dsimp only
  have h2 : rdBytes w ((bits (leNat (rdBytes u (xlatBase u (tileDie t) + 8 * (va / 2 ^ 30)) 8)) 21 32) <<< 12 +
      8 * (va / 2 ^ 21 % 512)) 8 = rdBytes u ((bits (leNat (rdBytes u (xlatBase u (tileDie t) + 8 * (va / 2 ^ 30)) 8)) 21 32) <<< 12 +
      8 * (va / 2 ^ 21 % 512)) 8 :=
    List.map_congr_left (fun k hk => hb _ (List.mem_append_right _ (List.mem_map_of_mem hk)))
  rw [h2]

theorem Clean.onlyMem {u w : Machine.State} {a : Nat} (ho : OnlyMem u w) (h : Clean u a) : Clean w a := by
  have hw : w = { u with mem := w.mem, ecc := w.ecc } := by rw [← ho.rest]
  refine ⟨(ho.marks _).trans h.1, ?_, ?_⟩
  · rw [hw]; exact h.2.1
  · rw [hw]; exact h.2.2

/-- What the TLB holds depends on no byte of memory but those of the table entries behind it. -/
theorem Held.onlyMem {u w : Machine.State} {t : TileId} {va la : Nat} {rd wr : Bool} (ho : OnlyMem u w)
    (hb : ∀ a ∈ walkBytes u t va, rdByte w a = rdByte u a) (h : Held u t va rd wr la) : Held w t va rd wr la := by
  have hc : Clean w la := h.2.2.2.2.onlyMem ho
  have hw : w = { u with mem := w.mem, ecc := w.ecc } := by rw [← ho.rest]
  have hl : leafNow w (tileDie t) va = leafNow u (tileDie t) va := leafNow_congr (by rw [hw]) hb
  obtain ⟨a, ⟨e, b1, b2, b3⟩, c, d, -⟩ := h
  refine ⟨a, ⟨e, ?_, hl.trans b2, ?_⟩, ?_, ?_, hc⟩
  · rw [hw]; exact b1
  · rw [hw]; exact b3
  · rw [hw]; exact c
  · rw [hw]; exact d

theorem walkBytes_onlyMem {u w : Machine.State} {t : TileId} {va : Nat} (ho : OnlyMem u w)
    (hb : ∀ a ∈ walkBytes u t va, rdByte w a = rdByte u a) : walkBytes w t va = walkBytes u t va := by
  have hw : w = { u with mem := w.mem, ecc := w.ecc } := by rw [← ho.rest]
  have hx : xlatBase w (tileDie t) = xlatBase u (tileDie t) := by rw [hw]; rfl
  have h1 : rdBytes w (xlatBase u (tileDie t) + 8 * (va / 2 ^ 30)) 8 = rdBytes u (xlatBase u (tileDie t) + 8 * (va / 2 ^ 30)) 8 :=
    List.map_congr_left (fun k hk => hb _ (List.mem_append_left _ (List.mem_map_of_mem hk)))
  unfold walkBytes
  dsimp only
  rw [hx, h1]

theorem storeLines_held {t : TileId} {va la : Nat} {u : Machine.State} (lines : List (List (Nat × Byte)))
    (h : ∀ g ∈ lines, g ≠ [] ∧ (∀ e ∈ g, (g.headD (0, 0)).1 ≤ e.1) ∧
      ∀ e ∈ g, va ≤ e.1 ∧ Held u t e.1 false true (la + (e.1 - va)))
    (ht : ∀ g ∈ lines, ∀ e ∈ g, ∀ g' ∈ lines, ∀ e' ∈ g', la + (e.1 - va) ∉ walkBytes u t e'.1) :
    OnlyMem u (lines.foldl (fun s g => storeLine t g s) u) ∧
      ∀ a, rdByte (lines.foldl (fun s g => storeLine t g s) u) a =
        lines.foldl (fun b g => g.foldl (fun b c => if a = la + (c.1 - va) then c.2 else b) b) (rdByte u a) := by
  induction lines generalizing u with
  | nil => exact ⟨OnlyMem.refl u, fun _ => rfl⟩
  | cons g gs ih =>
    obtain ⟨h1, h2, h3⟩ := h g (by simp)
    have hmem : g.headD (0, 0) ∈ g := by
      cases g with
      | nil => exact absurd rfl h1
      | cons a g => simp
    have hr := (h3 _ hmem).2.reaches
    have ee : ∀ e ∈ g, la + ((g.headD (0, 0)).1 - va) + (e.1 - (g.headD (0, 0)).1) = la + (e.1 - va) := by
      intro e he
      have a1 := h2 e he
      have a2 := (h3 _ hmem).1
      omega
    have hb : ∀ e ∈ g, addrOk u (la + ((g.headD (0, 0)).1 - va) + (e.1 - (g.headD (0, 0)).1)) = true ∧
        Clean u (la + ((g.headD (0, 0)).1 - va) + (e.1 - (g.headD (0, 0)).1)) := by
      intro e he
      rw [ee e he]
      exact ⟨(h3 e he).2.2.2.2.1, (h3 e he).2.2.2.2.2⟩
    have hs := storeLine_reaches hr hb
    have hc : g.map (fun c => (la + ((g.headD (0, 0)).1 - va) + (c.1 - (g.headD (0, 0)).1), c.2)) =
        g.map (fun c => (la + (c.1 - va), c.2)) := List.map_congr_left (fun e he => by rw [ee e he])
    rw [hc] at hs
    have hw := localWrite_good (cells := g.map (fun c => (la + (c.1 - va), c.2))) (s := u) (by
      intro e he
      simp only [List.mem_map] at he
      obtain ⟨c, hc, rfl⟩ := he
      exact ⟨(h3 c hc).2.2.2.2.1, (h3 c hc).2.2.2.2.2⟩)
    rw [← hs] at hw
    obtain ⟨-, w2, w3⟩ := hw
    have hsame : ∀ g' ∈ gs, ∀ e' ∈ g', ∀ a ∈ walkBytes u t e'.1, rdByte (storeLine t g u) a = rdByte u a := by
      intro g' hg' e' he' a ha
      refine (w3 a).trans (foldl_no_cell _ _ (fun c hc q => ?_) _)
      simp only [List.mem_map] at hc
      obtain ⟨d, hd, rfl⟩ := hc
      exact ht g (by simp) d hd g' (by simp [hg']) e' he' (by rw [show la + (d.1 - va) = a from q]; exact ha)
    obtain ⟨i1, i2⟩ := ih (u := storeLine t g u) (fun g' hg => by
      obtain ⟨a, b, c⟩ := h g' (by simp [hg])
      exact ⟨a, b, fun e he => ⟨(c e he).1, (c e he).2.onlyMem w2 (hsame g' hg e he)⟩⟩) (by
      intro g1 h1' e1 he1 g2 h2' e2 he2
      rw [walkBytes_onlyMem w2 (hsame g2 h2' e2 he2)]
      exact ht g1 (by simp [h1']) e1 he1 g2 (by simp [h2']) e2 he2)
    rw [List.foldl_cons]
    refine ⟨w2.trans i1, fun a => ?_⟩
    rw [i2 a, w3 a, List.foldl_cons, List.foldl_map]

/-! ### Atomics -/

theorem zip_range_natLe (la n x : Nat) (k : Nat) (m : Nat) (h : n ≤ m) :
    (((List.range' k m).map (la + ·)).zip (natLe n x)) = ((natLe n x).zipIdx k).map (fun p => (la + p.2, p.1)) := by
  induction n generalizing x k m with
  | zero => simp [natLe]
  | succ n ih =>
    obtain ⟨m, rfl⟩ : ∃ j, m = j + 1 := ⟨m - 1, by omega⟩
    rw [natLe, List.range'_succ, List.map_cons, List.zip_cons_cons, List.zipIdx_cons, List.map_cons, ih _ _ _ (by omega)]

/-- An atomic add on bytes that exist and have no error mark, outside moraine. -/
theorem localAadd_good {la : Nat} {wide : Bool} {v : Word} {u : Machine.State} (hp : ∀ o, place la ≠ .moraine o)
    (ha : (if wide then 8 else 4) ∣ la) (hg : Sound u la (if wide then 8 else 4)) :
    ∃ w, Stored la (if wide then 8 else 4) (memNat u la (if wide then 8 else 4) + v.toNat) u w ∧
      localAadd la wide v u = (.ok, rdBytes u la (if wide then 8 else 4), w) := by
  have e : la / (if wide then 8 else 4) * (if wide then 8 else 4) = la := Nat.div_mul_cancel ha
  unfold localAadd
  dsimp only
  rw [e]
  have hg0 : eccAt u (la / 32) = .good := (hg 0 (by cases wide <;> simp)).2.1
  generalize (if wide then 8 else 4) = n at *
  have hr : localRead ((List.range n).map (la + ·)) u = (.ok, rdBytes u la n, u) := by
    rw [localRead_good (by
      intro a ha
      simp only [List.mem_map, List.mem_range] at ha
      obtain ⟨k, hk, rfl⟩ := ha
      exact hg k hk), List.map_map]
    rfl
  have hz : ((List.range n).map (la + ·)).zip (natLe n (leNat (rdBytes u la n) + v.toNat)) =
      cellsAt la n (leNat (rdBytes u la n) + v.toNat) := by
    rw [List.range_eq_range', zip_range_natLe _ _ _ _ _ (le_refl n)]; rfl
  have hok : ∀ e ∈ cellsAt la n (leNat (rdBytes u la n) + v.toNat), addrOk u e.1 = true ∧ Clean u e.1 := by
    intro e he
    have := cellsAt_fst he
    have e1 : e.1 = la + (e.1 - la) := by omega
    rw [e1]
    exact hg _ (by omega)
  have hst : Stored la n (memNat u la n + v.toNat) u
      (setEcc (la / 32) .good (wrCells (cellsAt la n (leNat (rdBytes u la n) + v.toNat)) u)) := by
    refine ⟨⟨rfl, fun c => ?_⟩, fun a => ?_⟩
    · rw [eccAt_setEcc]
      split
      · rename_i q; rw [q, hg0]
      · rfl
    · refine (rdByte_wrCells _ u a).trans ?_
      have := foldl_natLe n (memNat u la n + v.toNat) la a 0 (rdByte u a)
      simpa [cellsAt, memNat] using this
  refine ⟨_, hst, ?_⟩
  rw [hr]
  dsimp only
  rw [hz]
  cases hpl : place la with
  | moraine o => exact absurd hpl (hp o)
  | _ => simp

end Sys2Proof
end

