-- ==== Sys2Proof/Laws/Sems.lean ====
section
/-! SUPPORT. Laws of semaphores: what a post and a new value change. -/

namespace Sys2Proof

open Sys2Proof.Machine

theorem semSet_value (t : TileId) (n : SemIdx) (x : Nat) (u : Machine.State) : SemValue t n x u (semSet t n x u) :=
  ⟨rget_rset_same _ _ _ _ (by decide), rget_rset_field _ _ _ _ _ (by decide) (by decide),
    onlyRegs_rset _ _ (by simp) (OnlyRegs.refl _ u)⟩

theorem sem_ne_progress (t : TileId) (n : SemIdx) : R.SEM t.toNat n.toNat ≠ R.FC_PROGRESS t.toNat := by
  have := n.isLt
  simp only [R.SEM, R.FC_PROGRESS]; omega

theorem semPost_posted (t : TileId) (n : SemIdx) (cnt : Nat) (u : Machine.State) (h : cnt ≠ 0) :
    SemPosted t n cnt u (semPost t n cnt u) := by
  have hv := rget_lt u (R.SEM t.toNat n.toNat) F.SEM_VALUE
  have hn := sem_ne_progress t n
  unfold semPost
  rw [if_neg h]
  dsimp only
  by_cases hc : 0xFFFF < semVal u t n + cnt
  · rw [if_pos hc]
    unfold progress
    refine ⟨?_, ?_, ?_, ?_⟩
    · unfold semVal
      rw [rget_rput_other _ _ _ hn, rget_rset_field _ _ _ _ _ (by decide) (by decide), rget_rset_same _ _ _ _ (by decide)]
      rw [Nat.mod_eq_of_lt (by simp only [F.SEM_VALUE]; omega)]
    · rw [rget_rput_other _ _ _ hn, rget_rset_same _ _ _ _ (by decide), if_pos hc]; rfl
    · simp
    · exact onlyRegs_rput _ (by simp) (onlyRegs_rset _ _ (by simp) (onlyRegs_rset _ _ (by simp) (OnlyRegs.refl _ u)))
  · rw [if_neg hc]
    unfold progress
    refine ⟨?_, ?_, ?_, ?_⟩
    · unfold semVal
      rw [rget_rput_other _ _ _ hn, rget_rset_same _ _ _ _ (by decide)]
      rw [Nat.mod_eq_of_lt (by simp only [F.SEM_VALUE]; omega)]
    · rw [rget_rput_other _ _ _ hn, rget_rset_field _ _ _ _ _ (by decide) (by decide), if_neg hc]
    · simp
    · exact onlyRegs_rput _ (by simp) (onlyRegs_rset _ _ (by simp) (OnlyRegs.refl _ u))

end Sys2Proof
end

