-- ==== Sys2Proof/Laws/Fetch.lean ====
section
/-! SUPPORT. Laws of the fetch program: how an instruction runs, retires, writes a G register and blocks. -/

namespace Sys2Proof

open Sys2Proof.Machine

/-- An instruction that issues runs its body on the state after the fetch. -/
theorem fRun_runs {s : Machine.State} {t : TileId} (body : Machine.State → FOut) (h : FIssues s t) :
    fRun t body s = .next (fFinish t (body (fFetched s t))) := by
  obtain ⟨h1, h2⟩ := h
  unfold fRun fIssue fFetched
  rw [if_pos h1]
  generalize fetchWord t unitF (fPc s t) s = x at h2
  obtain ⟨x, s1⟩ := x
  simp only at h2
  subst h2
  rfl

@[simp] theorem tile_modF (s : Machine.State) (t : TileId) (f : FCore → FCore) :
    (s.modF t f).tile t = { s.tile t with f := f (s.tile t).f } := tile_modTile_same s t _

@[simp] theorem rget_modF (s : Machine.State) (t : TileId) (f : FCore → FCore) (o : Nat) (g : Fld) : rget (s.modF t f) o g = rget s o g := rfl

theorem fRetire_retired (t : TileId) (pc : Nat) (u : Machine.State) : FRetired t pc (u.tile t).f u (fRetire t pc u) := by
  have n1 : R.FC_PC t.toNat ≠ R.FC_PROGRESS t.toNat := by simp only [R.FC_PC, R.FC_PROGRESS]; omega
  refine ⟨?_, ?_, ?_, rfl⟩
  · unfold fPc fRetire progress
    rw [rget_rput_other _ _ _ n1, rget_rput_same _ _ _ _ (by decide)]
    simp [bits, F.FC_PC_PC]; omega
  · simp [fRetire, progress]
  · exact onlyTile_rput _ (by simp) (onlyTile_rput _ (by simp) (OnlyTile.refl _ _ _))

/-- The program changed, then an instruction that retires. -/
theorem fRetired_modF (t : TileId) (pc : Nat) (f : FCore → FCore) (u : Machine.State) :
    FRetired t pc (f (u.tile t).f) u (fRetire t pc (u.modF t f)) := by
  have h := fRetire_retired t pc (u.modF t f)
  refine ⟨h.pc, h.progress, (onlyTile_modTile _ (OnlyTile.refl t _ u)).trans h.frame, ?_⟩
  rw [h.tile, tile_modF]

theorem gResult_retire (t : TileId) (gd : GReg) (v : Word) (u : Machine.State) :
    GResult t gd v u (fFinish t (.retire (wrG t gd v u))) := by
  unfold wrG
  by_cases h : gd = 0
  · rw [if_pos h]
    refine ⟨fun r => ?_, fRetire_retired t _ u⟩
    rw [if_neg (by rw [h]; simp)]; rfl
  · rw [if_neg h]
    have k := fRetired_modF t (fPc u t + 4) (fun f => { f with g := mset (fun _ => 0) f.g gd.toNat v }) u
    have e : ((fRetire t (fPc u t + 4) (u.modF t (fun f => { f with g := mset (fun _ => 0) f.g gd.toNat v }))).tile t).f.g =
        mset (fun _ => 0) (u.tile t).f.g gd.toNat v := congrArg (fun c : Tile => c.f.g) k.tile
    have e2 : fFinish t (.retire (u.modF t (fun f => { f with g := mset (fun _ => 0) f.g gd.toNat v }))) =
        fRetire t (fPc u t + 4) (u.modF t (fun f => { f with g := mset (fun _ => 0) f.g gd.toNat v })) := rfl
    rw [e2]
    refine ⟨fun r => ?_, ?_⟩
    · unfold rdG
      rw [e, mget_mset]
      by_cases hr : r = gd
      · subst hr; rw [if_neg h, if_pos rfl, if_pos ⟨rfl, h⟩]
      · have : r.toNat ≠ gd.toNat := fun x => hr (BitVec.eq_of_toNat_eq x)
        simp [hr, this]
    · rw [e]; exact k

theorem fBlock_blocked (t : TileId) (obj kind : Nat) (w : FWait) (u : Machine.State) : FBlocked t obj kind w u (fBlock t obj kind w u) := by
  have n1 : R.FC_PC t.toNat ≠ R.FC_STATUS t.toNat := by simp only [R.FC_PC, R.FC_STATUS]; omega
  unfold fBlock setFState
  refine ⟨?_, ?_, ?_, ?_, ?_, ?_⟩
  · unfold fState
    rw [rget_rset_field _ _ _ _ _ (by decide) (by decide), rget_rset_field _ _ _ _ _ (by decide) (by decide), rget_rset_same _ _ _ _ (by decide)]
    rfl
  · rw [rget_rset_field _ _ _ _ _ (by decide) (by decide), rget_rset_same _ _ _ _ (by decide)]
    rfl
  · rw [rget_rset_same _ _ _ _ (by decide)]
    rfl
  · unfold fPc
    simp only [rget_rset_other _ _ _ _ n1, rget_modF]
  · exact onlyTile_rset _ _ (by simp) (onlyTile_rset _ _ (by simp) (onlyTile_rset _ _ (by simp)
      (onlyTile_rset _ _ (by simp) (onlyTile_rset _ _ (by simp) (onlyTile_modTile _ (OnlyTile.refl t _ u))))))
  · simp only [tile_rset, tile_modF]

end Sys2Proof
end

