-- ==== Sys2Proof/Laws/Fifo.lean ====
section
/-! SUPPORT. No meaning touches the queue: each operation and each meaning leaves the commands that wait as they are. -/

namespace Sys2Proof.Machine

@[simp] theorem pend_ite (c : Prop) [Decidable c] (a b : State) : (if c then a else b).pending = if c then a.pending else b.pending := by split <;> rfl
@[simp] theorem snd_ite {α β : Type} (c : Prop) [Decidable c] (a b : α × β) : (if c then a else b).2 = if c then a.2 else b.2 := by split <;> rfl
@[simp] theorem pend_foldl {α : Type} (g : State → α → State) (h : ∀ s x, (g s x).pending = s.pending) (l : List α) (s : State) : (l.foldl g s).pending = s.pending := by
  induction l generalizing s with
  | nil => rfl
  | cons x l ih => simp [ih, h]
theorem pend_eq2 {s0 s1 : State} {α : Type} {x : α × State} {r : α} (h : x = (r, s1)) (hx : x.2.pending = s0.pending) :
    s1.pending = s0.pending := by subst h; exact hx
theorem pend_eq3 {s0 s1 : State} {α β : Type} {x : α × β × State} {r : α} {q : β} (h : x = (r, q, s1))
    (hx : x.2.2.pending = s0.pending) : s1.pending = s0.pending := by subst h; exact hx
@[simp] theorem pend_foldl2 {α β : Type} (g : β × State → α → β × State) (h : ∀ r x, (g r x).2.pending = r.2.pending)
    (l : List α) (r : β × State) : (l.foldl g r).2.pending = r.2.pending := by
  induction l generalizing r with
  | nil => rfl
  | cons x l ih => simp [ih, h]
theorem pend_eq4 {s0 s1 : State} {α β γ : Type} {x : α × β × γ × State} {r : α} {q : β} {u : γ} (h : x = (r, q, u, s1))
    (hx : x.2.2.2.pending = s0.pending) : s1.pending = s0.pending := by subst h; exact hx
/-- The queue of the state that an outcome goes on in. -/
def queueOf (o : Host.Outcome State Fault Refusal) : Option (List Instr) :=
  match o with
  | .next s => some s.pending
  | _ => none
@[simp] theorem queueOf_next (s : State) : queueOf (.next s) = some s.pending := rfl

/-! Ops -/

@[simp] theorem pend_rput (o : Nat) (v : Nat) (s : State) : (rput o v s).pending = s.pending := by
  simp [rput]
@[simp] theorem pend_rset (o : Nat) (f : Fld) (v : Nat) (s : State) : (rset o f v s).pending = s.pending := by
  simp [rset]
@[simp] theorem pend_rinc (o : Nat) (f : Fld) (n : Nat) (s : State) : (rinc o f n s).pending = s.pending := by
  simp [rinc]
@[simp] theorem pend_rwrap (o : Nat) (f : Fld) (n : Nat) (s : State) : (rwrap o f n s).pending = s.pending := by
  simp [rwrap]
@[simp] theorem pend_rclear (lo : Nat) (hi : Nat) (s : State) : (rclear lo hi s).pending = s.pending := by
  simp [rclear]
@[simp] theorem pend_modTile (s : State) (t : TileId) (f : Tile → Tile) : (State.modTile s t f).pending = s.pending := by
  simp [State.modTile]
@[simp] theorem pend_modX (s : State) (t : TileId) (f : XCore → XCore) : (State.modX s t f).pending = s.pending := by
  simp [State.modX]
@[simp] theorem pend_modF (s : State) (t : TileId) (f : FCore → FCore) : (State.modF s t f).pending = s.pending := by
  simp [State.modF]
@[simp] theorem pend_progress (t : TileId) (s : State) : (progress t s).pending = s.pending := by
  simp [progress]
@[simp] theorem pend_hostWrite (n : Nat) (f : State → State) (s : State) (hf : ∀ (y0 : State), (f y0).pending = y0.pending) : (hostWrite n f s).pending = s.pending := by
  simp [hostWrite, hf]
@[simp] theorem pend_hostTile (t : TileId) (f : State → State) (s : State) (hf : ∀ (y0 : State), (f y0).pending = y0.pending) : (hostTile t f s).pending = s.pending := by
  simp [hostTile, hf]
@[simp] theorem pend_wrCells (cells : List (Nat × Byte)) (s : State) : (wrCells cells s).pending = s.pending := by
  simp [wrCells]
@[simp] theorem pend_wrBytes (a : Nat) (l : List Byte) (s : State) : (wrBytes a l s).pending = s.pending := by
  simp [wrBytes]
@[simp] theorem pend_setEcc (c : Nat) (m : EccMark) (s : State) : (setEcc c m s).pending = s.pending := by
  simp [setEcc]
@[simp] theorem pend_countUncorr (c : Nat) (s : State) : (countUncorr c s).pending = s.pending := by
  simp only [countUncorr]
  repeat' split
  all_goals simp_all
@[simp] theorem pend_countPoison (cs : List Nat) (s : State) : (countPoison cs s).pending = s.pending := by
  simp [countPoison]
@[simp] theorem pend_loseLines (ls : List Nat) (s : State) : (loseLines ls s).pending = s.pending := by
  simp [loseLines]
@[simp] theorem pend_countCorr (c : Nat) (s : State) : (countCorr c s).pending = s.pending := by
  simp only [countCorr]
  repeat' split
  all_goals simp_all
@[simp] theorem pend_countCorrs (cs : List Nat) (s : State) : (countCorrs cs s).pending = s.pending := by
  simp [countCorrs]
@[simp] theorem pend_meetCodeword (c : Nat) (s : State) : (meetCodeword c s).2.pending = s.pending := by
  simp only [meetCodeword]
  repeat' split
  all_goals simp_all
@[simp] theorem pend_meetCodewords (x0 : List Nat) (s : State) : (meetCodewords x0 s).2.pending = s.pending := by
  induction x0 generalizing s with
  | nil => simp [meetCodewords]
  | cons a l ih =>
    simp only [meetCodewords]
    repeat' split
    all_goals simp_all
@[simp] theorem pend_raceCells (cells : List (Nat × Byte)) (s : State) : (raceCells cells s).2.pending = s.pending := by
  simp [raceCells]
@[simp] theorem pend_memRead (addrs : List Nat) (s : State) : (memRead addrs s).2.2.pending = s.pending := by
  simp [memRead]
@[simp] theorem pend_writeCodeword (c : Nat) (cells : List (Nat × Byte)) (s : State) : (writeCodeword c cells s).2.pending = s.pending := by
  simp only [writeCodeword]
  repeat' split
  all_goals simp_all
@[simp] theorem pend_writeCodewords (cells : List (Nat × Byte)) (x0 : List Nat) (s : State) : (writeCodewords cells x0 s).2.pending = s.pending := by
  induction x0 generalizing s with
  | nil => simp [writeCodewords]
  | cons a l ih =>
    simp only [writeCodewords]
    repeat' split
    all_goals simp_all
@[simp] theorem pend_freeBytes (addrs : List Nat) (s : State) : (freeBytes addrs s).pending = s.pending := by
  simp [freeBytes]
@[simp] theorem pend_memWrite (cells : List (Nat × Byte)) (s : State) : (memWrite cells s).2.pending = s.pending := by
  simp [memWrite]
@[simp] theorem pend_localRead (addrs : List Nat) (s : State) : (localRead addrs s).2.2.pending = s.pending := by
  simp [localRead]
@[simp] theorem pend_localWrite (cells : List (Nat × Byte)) (s : State) : (localWrite cells s).2.pending = s.pending := by
  simp [localWrite]
@[simp] theorem pend_localAadd (addr : Nat) (wide : Bool) (v : Word) (s : State) : (localAadd addr wide v s).2.2.pending = s.pending := by
  simp only [localAadd]
  repeat' (first | (simp; done) | dsimp only | split | (refine (pend_emBind _ _ (fun a s => ?_)).trans ?_) | (refine (pend_emMap _ (fun a s => ?_) _ _).trans ?_) | (refine (pend_foldl _ (fun s x => ?_) _ _).trans ?_) | (refine (pend_foldl2 _ (fun r x => ?_) _ _).trans ?_) | (refine pend_eq2 (by assumption) ?_) | (refine pend_eq3 (by assumption) ?_))
@[simp] theorem pend_freeWord (s : State) : (freeWord s).2.pending = s.pending := by
  simp [freeWord]
@[simp] theorem pend_emBind {ε α β : Type} (x : Except ε α × State)
    (f : α → State → Except ε β × State) (hf : ∀ a s, (f a s).2.pending = s.pending) :
    (emBind x f).2.pending = x.2.pending := by
  obtain ⟨r, s⟩ := x
  cases r <;> simp [emBind, hf]
@[simp] theorem pend_emMap {ε α β : Type} (f : α → State → Except ε β × State)
    (hf : ∀ a s, (f a s).2.pending = s.pending) (l : List α) (s : State) : (emMap f l s).2.pending = s.pending := by
  induction l generalizing s with
  | nil => rfl
  | cons a as ih => simp [emMap, hf, ih]
@[simp] theorem pend_emElim {ε α β : Type} (x : Except ε α × State) (f : ε → State → β × State) (g : α → State → β × State)
    (hf : ∀ e s, (f e s).2.pending = s.pending) (hg : ∀ a s, (g a s).2.pending = s.pending) :
    (emElim x f g).2.pending = x.2.pending := by
  obtain ⟨r, s⟩ := x
  cases r <;> simp [emElim, hf, hg]

/-! Link -/

@[simp] theorem pend_modPort (s : State) (p : Nat) (f : Port → Port) : (State.modPort s p f).pending = s.pending := by
  simp [State.modPort]
@[simp] theorem pend_setPortState (p : Nat) (v : Nat) (s : State) : (setPortState p v s).pending = s.pending := by
  simp [setPortState]
@[simp] theorem pend_sendOn (p : Nat) (bad : Bool) (k : Packet) (s : State) : (sendOn p bad k s).pending = s.pending := by
  simp [sendOn]
@[simp] theorem pend_freeBuf (b : Option InBuf) (s : State) : (freeBuf b s).pending = s.pending := by
  simp only [freeBuf]
  repeat' (first | (simp; done) | dsimp only | split | (refine (pend_emBind _ _ (fun a s => ?_)).trans ?_) | (refine (pend_emMap _ (fun a s => ?_) _ _).trans ?_) | (refine (pend_foldl _ (fun s x => ?_) _ _).trans ?_) | (refine (pend_foldl2 _ (fun r x => ?_) _ _).trans ?_) | (refine pend_eq2 (by assumption) ?_) | (refine pend_eq3 (by assumption) ?_))
@[simp] theorem pend_sendHeld (p : Nat) (h : HeldPkt) (s : State) : (sendHeld p h s).pending = s.pending := by
  simp only [sendHeld]
  repeat' (first | (simp; done) | dsimp only | split | (refine (pend_emBind _ _ (fun a s => ?_)).trans ?_) | (refine (pend_emMap _ (fun a s => ?_) _ _).trans ?_) | (refine (pend_foldl _ (fun s x => ?_) _ _).trans ?_) | (refine (pend_foldl2 _ (fun r x => ?_) _ _).trans ?_) | (refine pend_eq2 (by assumption) ?_) | (refine pend_eq3 (by assumption) ?_))
@[simp] theorem pend_serveQueue (x0 : Nat) (x1 : Nat) (s : State) : (serveQueue x0 x1 s).pending = s.pending := by
  induction x0 generalizing x1 s with
  | zero => simp [serveQueue]
  | succ k ih =>
    rw [serveQueue]
    repeat' (first | (with_reducible split) | dsimp only)
    all_goals (repeat' (first | simp [ih] | (refine pend_eq2 (by assumption) ?_) | (refine pend_eq3 (by assumption) ?_) | with_reducible split))
@[simp] theorem pend_servePort (p : Nat) (s : State) : (servePort p s).pending = s.pending := by
  rw [servePort]
  repeat' (first | (with_reducible split) | dsimp only)
  all_goals (repeat' (first | simp | (refine pend_eq2 (by assumption) ?_) | (refine pend_eq3 (by assumption) ?_) | (refine pend_eq4 (by assumption) ?_) | (rw [pend_foldl _ (fun s x => ?_)]) | with_reducible split))
@[simp] theorem pend_routePkt (h : HeldPkt) (s : State) : (routePkt h s).pending = s.pending := by
  rw [routePkt]
  repeat' (first | (with_reducible split) | dsimp only)
  all_goals (repeat' (first | simp | (refine pend_eq2 (by assumption) ?_) | (refine pend_eq3 (by assumption) ?_) | (refine pend_eq4 (by assumption) ?_) | (rw [pend_foldl _ (fun s x => ?_)]) | with_reducible split))
@[simp] theorem pend_sendPkt (k : Packet) (s : State) : (sendPkt k s).pending = s.pending := by
  rw [sendPkt]
  repeat' (first | (with_reducible split) | dsimp only)
  all_goals (repeat' (first | simp | (refine pend_eq2 (by assumption) ?_) | (refine pend_eq3 (by assumption) ?_) | (refine pend_eq4 (by assumption) ?_) | (rw [pend_foldl _ (fun s x => ?_)]) | with_reducible split))
@[simp] theorem pend_retryPkts (s : State) : (retryPkts s).pending = s.pending := by
  rw [retryPkts]
  repeat' (first | (with_reducible split) | dsimp only)
  all_goals (repeat' (first | simp | (refine pend_eq2 (by assumption) ?_) | (refine pend_eq3 (by assumption) ?_) | (refine pend_eq4 (by assumption) ?_) | (rw [pend_foldl _ (fun s x => ?_)]) | with_reducible split))
@[simp] theorem pend_emitTxn (id : Nat) (x : Txn) (s : State) : (emitTxn id x s).pending = s.pending := by
  rw [emitTxn]
  repeat' (first | (with_reducible split) | dsimp only)
  all_goals (repeat' (first | simp | (refine pend_eq2 (by assumption) ?_) | (refine pend_eq3 (by assumption) ?_) | (refine pend_eq4 (by assumption) ?_) | (rw [pend_foldl _ (fun s x => ?_)]) | with_reducible split))
@[simp] theorem pend_sendTxn (x : Txn) (s : State) : (sendTxn x s).pending = s.pending := by
  rw [sendTxn]
  repeat' (first | (with_reducible split) | dsimp only)
  all_goals (repeat' (first | simp | (refine pend_eq2 (by assumption) ?_) | (refine pend_eq3 (by assumption) ?_) | (refine pend_eq4 (by assumption) ?_) | (rw [pend_foldl _ (fun s x => ?_)]) | with_reducible split))
@[simp] theorem pend_sendWrite (iss : Issuer) (d : DevId) (va : Nat) (cells : List (Nat × Byte)) (s : State) : (sendWrite iss d va cells s).pending = s.pending := by
  rw [sendWrite]
  repeat' (first | (with_reducible split) | dsimp only)
  all_goals (repeat' (first | simp | (refine pend_eq2 (by assumption) ?_) | (refine pend_eq3 (by assumption) ?_) | (refine pend_eq4 (by assumption) ?_) | (rw [pend_foldl _ (fun s x => ?_)]) | with_reducible split))
@[simp] theorem pend_putTxn (id : Nat) (x : Txn) (s : State) : (putTxn id x s).pending = s.pending := by
  simp [putTxn]
@[simp] theorem pend_dropTxn (id : Nat) (s : State) : (dropTxn id s).pending = s.pending := by
  simp [dropTxn]

/-! Xlat -/

@[simp] theorem pend_readEntry (table : Nat) (size : Nat) (idx : Nat) (s : State) : (readEntry table size idx s).2.pending = s.pending := by
  simp [readEntry]
@[simp] theorem pend_walk (d : Nat) (va : Nat) (s : State) : (walk d va s).2.pending = s.pending := by
  simp only [walk]
  repeat' split
  all_goals (try simp)
  all_goals (repeat (first | (refine pend_eq2 (by assumption) ?_; try simp) | (refine pend_eq3 (by assumption) ?_; try simp)))
@[simp] theorem pend_heldEntry (d : Nat) (va : Nat) (l : List TlbEntry) (s : State) : (heldEntry d va l s).2.pending = s.pending := by
  simp only [heldEntry]
  repeat' (first | (simp; done) | dsimp only | split | (refine (pend_emBind _ _ (fun a s => ?_)).trans ?_) | (refine (pend_emMap _ (fun a s => ?_) _ _).trans ?_) | (refine (pend_foldl _ (fun s x => ?_) _ _).trans ?_) | (refine (pend_foldl2 _ (fun r x => ?_) _ _).trans ?_) | (refine pend_eq2 (by assumption) ?_) | (refine pend_eq3 (by assumption) ?_))
@[simp] theorem pend_findLeaf (t : TileId) (va : Nat) (s : State) : (findLeaf t va s).2.pending = s.pending := by
  rw [findLeaf]
  repeat' (first | (with_reducible split) | dsimp only)
  all_goals (repeat' (first | simp | (refine pend_eq2 (by assumption) ?_) | (refine pend_eq3 (by assumption) ?_) | (refine pend_eq4 (by assumption) ?_) | (rw [pend_foldl _ (fun s x => ?_)]) | with_reducible split))
@[simp] theorem pend_translate (t : TileId) (va : Nat) (rd : Bool) (wr : Bool) (s : State) : (translate t va rd wr s).2.pending = s.pending := by
  rw [translate]
  repeat' (first | (with_reducible split) | dsimp only)
  all_goals (repeat' (first | simp | (refine pend_eq2 (by assumption) ?_) | (refine pend_eq3 (by assumption) ?_) | (refine pend_eq4 (by assumption) ?_) | (rw [pend_foldl _ (fun s x => ?_)]) | with_reducible split))
@[simp] theorem pend_xlatFault (t : TileId) (va : Nat) (st : Status) (unit : Nat) (s : State) : (xlatFault t va st unit s).pending = s.pending := by
  simp [xlatFault]
@[simp] theorem pend_invalDie (d : Nat) (s : State) : (invalDie d s).pending = s.pending := by
  simp [invalDie]
@[simp] theorem pend_execXlatInval (d : DieId) (s : State) : queueOf (execXlatInval d s) = some s.pending := by
  simp [execXlatInval]
@[simp] theorem pend_execXlatInvalDone (d : DieId) (s : State) : queueOf (execXlatInvalDone d s) = some s.pending := by
  simp [execXlatInvalDone]

/-! Sync -/

@[simp] theorem pend_semSet (t : TileId) (n : SemIdx) (x : Nat) (s : State) : (semSet t n x s).pending = s.pending := by
  simp [semSet]
@[simp] theorem pend_semPost (t : TileId) (n : SemIdx) (cnt : Nat) (s : State) : (semPost t n cnt s).pending = s.pending := by
  simp [semPost]
@[simp] theorem pend_setWaiters (t : TileId) (n : SemIdx) (l : List Waiter) (s : State) : (setWaiters t n l s).pending = s.pending := by
  simp [setWaiters]
@[simp] theorem pend_tellGrant (t : TileId) (n : SemIdx) (who : AcqWho) (s : State) : (tellGrant t n who s).pending = s.pending := by
  simp only [tellGrant]
  repeat' split
  all_goals simp_all
@[simp] theorem pend_semGrant (t : TileId) (n : SemIdx) (s : State) : (semGrant t n s).pending = s.pending := by
  simp only [semGrant]
  repeat' split
  all_goals simp_all
@[simp] theorem pend_semGrants (x0 : Nat) (x1 : TileId) (x2 : SemIdx) (s : State) : (semGrants x0 x1 x2 s).pending = s.pending := by
  induction x0 generalizing x1 x2 s with
  | zero => simp [semGrants]
  | succ k ih =>
    simp only [semGrants]
    repeat' split
    all_goals simp_all
@[simp] theorem pend_acquire (t : TileId) (n : SemIdx) (who : AcqWho) (cnt : Nat) (s : State) : (acquire t n who cnt s).2.pending = s.pending := by
  simp [acquire]
@[simp] theorem pend_withdraw (t : TileId) (who : AcqWho) (s : State) : (withdraw t who s).pending = s.pending := by
  simp [withdraw]
@[simp] theorem pend_semWrite (t : TileId) (n : SemIdx) (v : Nat) (s : State) : (semWrite t n v s).pending = s.pending := by
  simp [semWrite]
@[simp] theorem pend_semPut (t : TileId) (n : SemIdx) (v : Nat) (s : State) : (semPut t n v s).2.pending = s.pending := by
  simp [semPut]
@[simp] theorem pend_execSemWrite (t : TileId) (n : SemIdx) (v : BitVec 32) (s : State) : queueOf (execSemWrite t n v s) = some s.pending := by
  simp [execSemWrite]
@[simp] theorem pend_setReopen (t : TileId) (w : WinIdx) (v : Option Nat) (s : State) : (setReopen t w v s).pending = s.pending := by
  simp [setReopen]
@[simp] theorem pend_winOpen (t : TileId) (w : WinIdx) (s : State) : (winOpen t w s).2.pending = s.pending := by
  simp [winOpen]
@[simp] theorem pend_winClose (t : TileId) (w : WinIdx) (s : State) : (winClose t w s).pending = s.pending := by
  simp [winClose]
@[simp] theorem pend_winReopenDone (t : TileId) (w : WinIdx) (s : State) : (winReopenDone t w s).pending = s.pending := by
  simp only [winReopenDone]
  repeat' split
  all_goals simp_all
@[simp] theorem pend_winRangeWrite (t : TileId) (w : WinIdx) (v : Nat) (s : State) : (winRangeWrite t w v s).pending = s.pending := by
  simp [winRangeWrite]
@[simp] theorem pend_winLate (t : TileId) (offs : List Nat) (wdev : Nat) (wtile : Nat) (s : State) : (winLate t offs wdev wtile s).pending = s.pending := by
  simp [winLate]
@[simp] theorem pend_winAdd (t : TileId) (w : WinIdx) (n : Nat) (s : State) : (winAdd t w n s).pending = s.pending := by
  simp only [winAdd]
  repeat' split
  all_goals simp_all
@[simp] theorem pend_windowWrite (t : TileId) (cells : List (Nat × Byte)) (wdev : Nat) (wtile : Nat) (s : State) : (windowWrite t cells wdev wtile s).2.pending = s.pending := by
  simp only [windowWrite]
  repeat' split
  all_goals simp_all
@[simp] theorem pend_windowAadd (t : TileId) (addr : Nat) (wide : Bool) (v : Word) (wdev : Nat) (wtile : Nat) (s : State) : (windowAadd t addr wide v wdev wtile s).2.2.pending = s.pending := by
  simp only [windowAadd]
  repeat' split
  all_goals simp_all
@[simp] theorem pend_execWindowOpen (t : TileId) (w : WinIdx) (s : State) : queueOf (execWindowOpen t w s) = some s.pending := by
  simp [execWindowOpen]
@[simp] theorem pend_execWindowClose (t : TileId) (w : WinIdx) (s : State) : queueOf (execWindowClose t w s) = some s.pending := by
  simp [execWindowClose]
@[simp] theorem pend_execWindowReopenDone (t : TileId) (w : WinIdx) (s : State) : queueOf (execWindowReopenDone t w s) = some s.pending := by
  simp [execWindowReopenDone]
@[simp] theorem pend_execWinRangeWrite (t : TileId) (w : WinIdx) (v : BitVec 32) (s : State) : queueOf (execWinRangeWrite t w v s) = some s.pending := by
  simp [execWinRangeWrite]
@[simp] theorem pend_swizzleWrite (t : TileId) (n : Nat) (v : Nat) (s : State) : (swizzleWrite t n v s).pending = s.pending := by
  simp [swizzleWrite]
@[simp] theorem pend_execSwizzleRangeWrite (t : TileId) (n : BitVec 3) (v : BitVec 32) (s : State) : queueOf (execSwizzleRangeWrite t n v s) = some s.pending := by
  simp [execSwizzleRangeWrite]
@[simp] theorem pend_arrive (id : Nat) (x : Txn) (t : TileId) (serve : State → Status × List Byte × State) (s : State) (hserve : ∀ (y0 : State), (serve y0).2.2.pending = y0.pending) : (arrive id x t serve s).pending = s.pending := by
  simp [arrive, hserve]
@[simp] theorem pend_payload (bad : Bool) (cells : List (Nat × Byte)) (s : State) : (payload bad cells s).2.pending = s.pending := by
  simp [payload]
@[simp] theorem pend_execRemoteWrite (id : Nat) (bad : Bool) (s : State) : queueOf (execRemoteWrite id bad s) = some s.pending := by
  simp only [execRemoteWrite]
  repeat' (first | (simp; done) | dsimp only | split | (refine (pend_emBind _ _ (fun a s => ?_)).trans ?_) | (refine (pend_emMap _ (fun a s => ?_) _ _).trans ?_) | (refine (pend_foldl _ (fun s x => ?_) _ _).trans ?_) | (refine (pend_foldl2 _ (fun r x => ?_) _ _).trans ?_) | (refine pend_eq2 (by assumption) ?_) | (refine pend_eq3 (by assumption) ?_))
@[simp] theorem pend_execRemoteRead (id : Nat) (s : State) : queueOf (execRemoteRead id s) = some s.pending := by
  simp only [execRemoteRead]
  repeat' (first | (simp; done) | dsimp only | split | (refine (pend_emBind _ _ (fun a s => ?_)).trans ?_) | (refine (pend_emMap _ (fun a s => ?_) _ _).trans ?_) | (refine (pend_foldl _ (fun s x => ?_) _ _).trans ?_) | (refine (pend_foldl2 _ (fun r x => ?_) _ _).trans ?_) | (refine pend_eq2 (by assumption) ?_) | (refine pend_eq3 (by assumption) ?_))
@[simp] theorem pend_execRemoteAtomicAdd (id : Nat) (bad : Bool) (s : State) : queueOf (execRemoteAtomicAdd id bad s) = some s.pending := by
  simp only [execRemoteAtomicAdd]
  repeat' (first | (simp; done) | dsimp only | split | (refine (pend_emBind _ _ (fun a s => ?_)).trans ?_) | (refine (pend_emMap _ (fun a s => ?_) _ _).trans ?_) | (refine (pend_foldl _ (fun s x => ?_) _ _).trans ?_) | (refine (pend_foldl2 _ (fun r x => ?_) _ _).trans ?_) | (refine pend_eq2 (by assumption) ?_) | (refine pend_eq3 (by assumption) ?_))
@[simp] theorem pend_execSemaphorePost (id : Nat) (s : State) : queueOf (execSemaphorePost id s) = some s.pending := by
  simp only [execSemaphorePost]
  repeat' (first | (simp; done) | dsimp only | split | (refine (pend_emBind _ _ (fun a s => ?_)).trans ?_) | (refine (pend_emMap _ (fun a s => ?_) _ _).trans ?_) | (refine (pend_foldl _ (fun s x => ?_) _ _).trans ?_) | (refine (pend_foldl2 _ (fun r x => ?_) _ _).trans ?_) | (refine pend_eq2 (by assumption) ?_) | (refine pend_eq3 (by assumption) ?_))

/-! Csr -/

@[simp] theorem pend_regRead4 (o : Nat) (s : State) : (regRead4 o s).2.pending = s.pending := by
  simp only [regRead4]
  repeat' split
  all_goals simp_all
@[simp] theorem pend_regPlain (start : Nat) (r : RegRow) (mask : Nat) (v : Nat) (s : State) : (regPlain start r mask v s).pending = s.pending := by
  simp [regPlain]
@[simp] theorem pend_xResume (t : TileId) (s : State) : (xResume t s).pending = s.pending := by
  simp [xResume]
@[simp] theorem pend_unitWritten (t : TileId) (lo : Nat) (s : State) : (unitWritten t lo s).pending = s.pending := by
  simp [unitWritten]
@[simp] theorem pend_predGo (t : TileId) (line : Nat) (s : State) : (predGo t line s).pending = s.pending := by
  simp [predGo]
@[simp] theorem pend_tileRegWrite (t : TileId) (lo : Nat) (start : Nat) (r : RegRow) (mask : Nat) (v : Nat) (s : State) : (tileRegWrite t lo start r mask v s).pending = s.pending := by
  simp [tileRegWrite]
@[simp] theorem pend_tileCsrRead (t : TileId) (lo : Nat) (n : Nat) (s : State) : (tileCsrRead t lo n s).2.pending = s.pending := by
  simp only [tileCsrRead]
  repeat' split
  all_goals simp_all
@[simp] theorem pend_tileCsrWrite (t : TileId) (lo : Nat) (n : Nat) (v : Nat) (s : State) : (tileCsrWrite t lo n v s).pending = s.pending := by
  simp [tileCsrWrite]

/-! XCore -/

@[simp] theorem pend_modQueue (s : State) (q : QIdx) (f : HostQueue → HostQueue) : (State.modQueue s q f).pending = s.pending := by
  simp [State.modQueue]
@[simp] theorem pend_modCmd (s : State) (q : QIdx) (seq : W32) (f : Cmd → Cmd) : (State.modCmd s q seq f).pending = s.pending := by
  simp [State.modCmd]
@[simp] theorem pend_cmdReport (q : QIdx) (seq : W32) (st : Status) (detail : Nat) (va : Nat) (s : State) : (cmdReport q seq st detail va s).pending = s.pending := by
  simp [cmdReport]
@[simp] theorem pend_setXState (t : TileId) (v : Nat) (s : State) : (setXState t v s).pending = s.pending := by
  simp [setXState]
@[simp] theorem pend_setFState (t : TileId) (v : Nat) (s : State) : (setFState t v s).pending = s.pending := by
  simp [setFState]
@[simp] theorem pend_setSlotState (t : TileId) (sl : SlotIdx) (v : Nat) (s : State) : (setSlotState t sl v s).pending = s.pending := by
  simp [setSlotState]
@[simp] theorem pend_wrS (t : TileId) (r : SReg) (v : Word) (s : State) : (wrS t r v s).pending = s.pending := by
  simp [wrS]
@[simp] theorem pend_wrV (t : TileId) (r : VReg) (v : VWord) (s : State) : (wrV t r v s).pending = s.pending := by
  simp [wrV]
@[simp] theorem pend_wrP (t : TileId) (r : PReg) (v : BitVec 64) (s : State) : (wrP t r v s).pending = s.pending := by
  simp [wrP]
@[simp] theorem pend_wrD (t : TileId) (r : DReg) (v : DWord) (s : State) : (wrD t r v s).pending = s.pending := by
  simp [wrD]
@[simp] theorem pend_slotAbort (t : TileId) (sl : SlotIdx) (st : Status) (s : State) : (slotAbort t sl st s).pending = s.pending := by
  simp [slotAbort]
@[simp] theorem pend_stopUnits (t : TileId) (s : State) : (stopUnits t s).pending = s.pending := by
  simp [stopUnits]
@[simp] theorem pend_recordXFault (t : TileId) (source : Nat) (st : Status) (pc : Nat) (precise : Bool) (illegal : Bool) (s : State) : (recordXFault t source st pc precise illegal s).pending = s.pending := by
  simp [recordXFault]
@[simp] theorem pend_abandonTxns (t : TileId) (s : State) : (abandonTxns t s).pending = s.pending := by
  simp [abandonTxns]
@[simp] theorem pend_quitX (t : TileId) (s : State) : (quitX t s).pending = s.pending := by
  simp only [quitX]
  repeat' (first | (simp; done) | dsimp only | split | (refine (pend_emBind _ _ (fun a s => ?_)).trans ?_) | (refine (pend_emMap _ (fun a s => ?_) _ _).trans ?_) | (refine (pend_foldl _ (fun s x => ?_) _ _).trans ?_) | (refine (pend_foldl2 _ (fun r x => ?_) _ _).trans ?_) | (refine pend_eq2 (by assumption) ?_) | (refine pend_eq3 (by assumption) ?_))
@[simp] theorem pend_abortTile (t : TileId) (s : State) : (abortTile t s).pending = s.pending := by
  simp only [abortTile]
  repeat' (first | (simp; done) | dsimp only | split | (refine (pend_emBind _ _ (fun a s => ?_)).trans ?_) | (refine (pend_emMap _ (fun a s => ?_) _ _).trans ?_) | (refine (pend_foldl _ (fun s x => ?_) _ _).trans ?_) | (refine (pend_foldl2 _ (fun r x => ?_) _ _).trans ?_) | (refine pend_eq2 (by assumption) ?_) | (refine pend_eq3 (by assumption) ?_))
@[simp] theorem pend_abortOthers (q : QIdx) (seq : W32) (t : TileId) (s : State) : (abortOthers q seq t s).pending = s.pending := by
  simp only [abortOthers]
  repeat' (first | (simp; done) | dsimp only | split | (refine (pend_emBind _ _ (fun a s => ?_)).trans ?_) | (refine (pend_emMap _ (fun a s => ?_) _ _).trans ?_) | (refine (pend_foldl _ (fun s x => ?_) _ _).trans ?_) | (refine (pend_foldl2 _ (fun r x => ?_) _ _).trans ?_) | (refine pend_eq2 (by assumption) ?_) | (refine pend_eq3 (by assumption) ?_))
@[simp] theorem pend_reportTile (t : TileId) (st : Status) (va : Nat) (s : State) : (reportTile t st va s).pending = s.pending := by
  simp only [reportTile]
  repeat' (first | (simp; done) | dsimp only | split | (refine (pend_emBind _ _ (fun a s => ?_)).trans ?_) | (refine (pend_emMap _ (fun a s => ?_) _ _).trans ?_) | (refine (pend_foldl _ (fun s x => ?_) _ _).trans ?_) | (refine (pend_foldl2 _ (fun r x => ?_) _ _).trans ?_) | (refine pend_eq2 (by assumption) ?_) | (refine pend_eq3 (by assumption) ?_))
@[simp] theorem pend_enterFault (t : TileId) (source : Nat) (st : Status) (pc : Nat) (va : Nat) (precise : Bool) (illegal : Bool) (s : State) : (enterFault t source st pc va precise illegal s).pending = s.pending := by
  simp only [enterFault]
  repeat' (first | (simp; done) | dsimp only | split | (refine (pend_emBind _ _ (fun a s => ?_)).trans ?_) | (refine (pend_emMap _ (fun a s => ?_) _ _).trans ?_) | (refine (pend_foldl _ (fun s x => ?_) _ _).trans ?_) | (refine (pend_foldl2 _ (fun r x => ?_) _ _).trans ?_) | (refine pend_eq2 (by assumption) ?_) | (refine pend_eq3 (by assumption) ?_))
@[simp] theorem pend_preciseFault (t : TileId) (st : Status) (va : Nat) (s : State) : (preciseFault t st va s).pending = s.pending := by
  simp only [preciseFault]
  repeat' (first | (simp; done) | dsimp only | split | (refine (pend_emBind _ _ (fun a s => ?_)).trans ?_) | (refine (pend_emMap _ (fun a s => ?_) _ _).trans ?_) | (refine (pend_foldl _ (fun s x => ?_) _ _).trans ?_) | (refine (pend_foldl2 _ (fun r x => ?_) _ _).trans ?_) | (refine pend_eq2 (by assumption) ?_) | (refine pend_eq3 (by assumption) ?_))
@[simp] theorem pend_pushFault (t : TileId) (f : XFault) (s : State) : (pushFault t f s).pending = s.pending := by
  simp [pushFault]
@[simp] theorem pend_markFailed (t : TileId) (seq : Nat) (s : State) : (markFailed t seq s).pending = s.pending := by
  simp [markFailed]
@[simp] theorem pend_writeFault (t : TileId) (st : Status) (pc : Nat) (va : Nat) (seq : Nat) (s : State) : (writeFault t st pc va seq s).pending = s.pending := by
  simp [writeFault]
@[simp] theorem pend_xRetire (t : TileId) (pc : Nat) (s : State) : (xRetire t pc s).pending = s.pending := by
  simp [xRetire]
@[simp] theorem pend_xBlock (t : TileId) (obj : Nat) (w : XWait) (s : State) : (xBlock t obj w s).pending = s.pending := by
  simp [xBlock]
@[simp] theorem pend_xHalt (t : TileId) (s : State) : (xHalt t s).pending = s.pending := by
  simp [xHalt]
@[simp] theorem pend_fetchWord (t : TileId) (unit : Nat) (pc : Nat) (s : State) : (fetchWord t unit pc s).2.pending = s.pending := by
  rw [fetchWord]
  repeat' (first | (with_reducible split) | dsimp only)
  all_goals (repeat' (first | simp | (refine pend_eq2 (by assumption) ?_) | (refine pend_eq3 (by assumption) ?_) | (refine pend_eq4 (by assumption) ?_) | (rw [pend_foldl _ (fun s x => ?_)]) | with_reducible split))
@[simp] theorem pend_xFetch (t : TileId) (len : Nat) (s : State) : (xFetch t len s).2.pending = s.pending := by
  rw [xFetch]
  repeat' (first | (with_reducible split) | dsimp only)
  all_goals (repeat' (first | simp | (refine pend_eq2 (by assumption) ?_) | (refine pend_eq3 (by assumption) ?_) | (refine pend_eq4 (by assumption) ?_) | (rw [pend_foldl _ (fun s x => ?_)]) | with_reducible split))
@[simp] theorem pend_xFinish_retire (t : TileId) (len : Nat) (s : State) : (xFinish t len (.retire s)).pending = s.pending := by
  simp [xFinish]
@[simp] theorem pend_xFinish_jump (t : TileId) (len : Nat) (pc : Nat) (s : State) : (xFinish t len (.jump pc s)).pending = s.pending := by
  simp [xFinish]
@[simp] theorem pend_xFinish_wait (t : TileId) (len : Nat) (obj : Nat) (w : XWait) (s : State) : (xFinish t len (.wait obj w s)).pending = s.pending := by
  simp [xFinish]
@[simp] theorem pend_xFinish_load (t : TileId) (len : Nat) (l : PendLoad) (s : State) : (xFinish t len (.load l s)).pending = s.pending := by
  simp [xFinish]
@[simp] theorem pend_xFinish_stall (t : TileId) (len : Nat) (s : State) : (xFinish t len (.stall s)).pending = s.pending := by
  simp [xFinish]
@[simp] theorem pend_xFinish_fault (t : TileId) (len : Nat) (st : Status) (va : Nat) (s : State) : (xFinish t len (.fault st va s)).pending = s.pending := by
  simp [xFinish]
@[simp] theorem xFinish_ite (t : TileId) (len : Nat) (c : Prop) [Decidable c] (a b : XOut) :
    xFinish t len (if c then a else b) = if c then xFinish t len a else xFinish t len b := by split <;> rfl
@[simp] theorem pend_xIssue (t : TileId) (len : Nat) (body : State → XOut) (s : State)
    (hb : ∀ s, (xFinish t len (body s)).pending = s.pending) : (xIssue t len body s).pending = s.pending := by
  simp only [xIssue]
  repeat' split
  all_goals (try simp [hb])
  all_goals exact pend_eq2 (by assumption) (by simp)
@[simp] theorem pend_xRun (t : TileId) (body : State → XOut) (s : State) (hbody : ∀ (t' : TileId) (len : Nat) (y0 : State), (xFinish t' len (body y0)).pending = y0.pending) : queueOf (xRun t body s) = some s.pending := by
  simp [xRun, hbody]
@[simp] theorem pend_xRun8 (t : TileId) (body : State → XOut) (s : State) (hbody : ∀ (t' : TileId) (len : Nat) (y0 : State), (xFinish t' len (body y0)).pending = y0.pending) : queueOf (xRun8 t body s) = some s.pending := by
  simp [xRun8, hbody]
@[simp] theorem pend_loadWrite (t : TileId) (dst : LoadDst) (parts : List LoadPart) (s : State) : (loadWrite t dst parts s).pending = s.pending := by
  simp only [loadWrite]
  repeat' split
  all_goals simp_all
@[simp] theorem pend_readLine (t : TileId) (va : Nat) (idx : List Nat) (iss : Issuer) (unit : Nat) (s : State) : (readLine t va idx iss unit s).2.pending = s.pending := by
  simp only [readLine]
  repeat' split
  all_goals (try simp)
  all_goals (repeat (first | (refine pend_eq2 (by assumption) ?_; try simp) | (refine pend_eq3 (by assumption) ?_; try simp)))
@[simp] theorem pend_readLines (t : TileId) (va : Nat) (mk : Nat → Issuer) (unit k : Nat) (l : List (List Nat)) (s : State) :
    (readLines t va mk unit k l s).2.pending = s.pending := by
  induction l generalizing k s with
  | nil => rfl
  | cons g gs ih =>
    simp only [readLines]
    repeat' split
    all_goals (repeat (refine pend_eq2 (by assumption) ?_; try simp [ih]))
@[simp] theorem pend_xLoad (t : TileId) (va : Nat) (idx : List Nat) (dst : LoadDst) (s : State) {t' : TileId} {len : Nat} : (xFinish t' len (xLoad t va idx dst s)).pending = s.pending := by
  rw [xLoad]
  repeat' (first | (with_reducible split) | dsimp only)
  all_goals (repeat' (first | simp | (refine pend_eq2 (by assumption) ?_) | (refine pend_eq3 (by assumption) ?_) | (refine pend_eq4 (by assumption) ?_) | (rw [pend_foldl _ (fun s x => ?_)]) | with_reducible split))
@[simp] theorem pend_storeLine (t : TileId) (cells : List (Nat × Byte)) (s : State) : (storeLine t cells s).pending = s.pending := by
  rw [storeLine]
  repeat' (first | (with_reducible split) | dsimp only)
  all_goals (repeat' (first | simp | (refine pend_eq2 (by assumption) ?_) | (refine pend_eq3 (by assumption) ?_) | (refine pend_eq4 (by assumption) ?_) | (rw [pend_foldl _ (fun s x => ?_)]) | with_reducible split))
@[simp] theorem pend_nextSeq (t : TileId) (s : State) : (nextSeq t s).pending = s.pending := by
  simp [nextSeq]
@[simp] theorem pend_xStore (t : TileId) (cells : List (Nat × Byte)) (s : State) {t' : TileId} {len : Nat} : (xFinish t' len (xStore t cells s)).pending = s.pending := by
  rw [xStore]
  repeat' (first | (with_reducible split) | dsimp only)
  all_goals (repeat' (first | simp | (refine pend_eq2 (by assumption) ?_) | (refine pend_eq3 (by assumption) ?_) | (refine pend_eq4 (by assumption) ?_) | (rw [pend_foldl _ (fun s x => ?_)]) | with_reducible split))
@[simp] theorem pend_xAtomic (t : TileId) (addr : Nat) (wide : Bool) (v : Word) (ret : Option SReg) (s : State) {t' : TileId} {len : Nat} : (xFinish t' len (xAtomic t addr wide v ret s)).pending = s.pending := by
  rw [xAtomic]
  repeat' (first | (with_reducible split) | dsimp only)
  all_goals (repeat' (first | simp | (refine pend_eq2 (by assumption) ?_) | (refine pend_eq3 (by assumption) ?_) | (refine pend_eq4 (by assumption) ?_) | (rw [pend_foldl _ (fun s x => ?_)]) | with_reducible split))
@[simp] theorem pend_firePost (t : TileId) (h : HeldPost) (s : State) : (firePost t h s).pending = s.pending := by
  simp only [firePost]
  repeat' (first | (simp; done) | dsimp only | split | (refine (pend_emBind _ _ (fun a s => ?_)).trans ?_) | (refine (pend_emMap _ (fun a s => ?_) _ _).trans ?_) | (refine (pend_foldl _ (fun s x => ?_) _ _).trans ?_) | (refine (pend_foldl2 _ (fun r x => ?_) _ _).trans ?_) | (refine pend_eq2 (by assumption) ?_) | (refine pend_eq3 (by assumption) ?_))
@[simp] theorem pend_xPost (t : TileId) (target : PostTarget) (cnt : Nat) (obj : Nat) (s : State) {t' : TileId} {len : Nat} : (xFinish t' len (xPost t target cnt obj s)).pending = s.pending := by
  simp only [xPost]
  repeat' (first | (simp; done) | dsimp only | split | (refine (pend_emBind _ _ (fun a s => ?_)).trans ?_) | (refine (pend_emMap _ (fun a s => ?_) _ _).trans ?_) | (refine (pend_foldl _ (fun s x => ?_) _ _).trans ?_) | (refine (pend_foldl2 _ (fun r x => ?_) _ _).trans ?_) | (refine pend_eq2 (by assumption) ?_) | (refine pend_eq3 (by assumption) ?_))
@[simp] theorem pend_xEndRetire (t : TileId) (s : State) : (xEndRetire t s).pending = s.pending := by
  simp [xEndRetire]
@[simp] theorem pend_waitRetire (t : TileId) (w : XWait) (s : State) : (waitRetire t w s).pending = s.pending := by
  simp only [waitRetire]
  repeat' split
  all_goals simp_all
@[simp] theorem pend_execWaitSatisfied (t : TileId) (s : State) : queueOf (execWaitSatisfied t s) = some s.pending := by
  simp only [execWaitSatisfied]
  repeat' (first | (simp; done) | dsimp only | split | (refine (pend_emBind _ _ (fun a s => ?_)).trans ?_) | (refine (pend_emMap _ (fun a s => ?_) _ _).trans ?_) | (refine (pend_foldl _ (fun s x => ?_) _ _).trans ?_) | (refine (pend_foldl2 _ (fun r x => ?_) _ _).trans ?_) | (refine pend_eq2 (by assumption) ?_) | (refine pend_eq3 (by assumption) ?_))
@[simp] theorem pend_execHeldPostRelease (t : TileId) (s : State) : queueOf (execHeldPostRelease t s) = some s.pending := by
  simp only [execHeldPostRelease]
  repeat' (first | (simp; done) | dsimp only | split | (refine (pend_emBind _ _ (fun a s => ?_)).trans ?_) | (refine (pend_emMap _ (fun a s => ?_) _ _).trans ?_) | (refine (pend_foldl _ (fun s x => ?_) _ _).trans ?_) | (refine (pend_foldl2 _ (fun r x => ?_) _ _).trans ?_) | (refine pend_eq2 (by assumption) ?_) | (refine pend_eq3 (by assumption) ?_))
@[simp] theorem pend_execImpreciseFault (t : TileId) (s : State) : queueOf (execImpreciseFault t s) = some s.pending := by
  simp only [execImpreciseFault]
  repeat' (first | (simp; done) | dsimp only | split | (refine (pend_emBind _ _ (fun a s => ?_)).trans ?_) | (refine (pend_emMap _ (fun a s => ?_) _ _).trans ?_) | (refine (pend_foldl _ (fun s x => ?_) _ _).trans ?_) | (refine (pend_foldl2 _ (fun r x => ?_) _ _).trans ?_) | (refine pend_eq2 (by assumption) ?_) | (refine pend_eq3 (by assumption) ?_))
@[simp] theorem pend_execWatchdogTimeout (t : TileId) (s : State) : queueOf (execWatchdogTimeout t s) = some s.pending := by
  simp only [execWatchdogTimeout]
  repeat' (first | (simp; done) | dsimp only | split | (refine (pend_emBind _ _ (fun a s => ?_)).trans ?_) | (refine (pend_emMap _ (fun a s => ?_) _ _).trans ?_) | (refine (pend_foldl _ (fun s x => ?_) _ _).trans ?_) | (refine (pend_foldl2 _ (fun r x => ?_) _ _).trans ?_) | (refine pend_eq2 (by assumption) ?_) | (refine pend_eq3 (by assumption) ?_))
@[simp] theorem pend_execXcResume (t : TileId) (s : State) : queueOf (execXcResume t s) = some s.pending := by
  simp [execXcResume]

/-! EngMem -/

@[simp] theorem pend_engReadLine (t : TileId) (unit : Nat) (env : EngEnv) (vas : List Nat) (s : State) : (engReadLine t unit env vas s).2.pending = s.pending := by
  simp only [engReadLine]
  repeat' split
  all_goals (try simp)
  all_goals (repeat (first | (refine pend_eq2 (by assumption) ?_; try simp) | (refine pend_eq3 (by assumption) ?_; try simp)))
@[simp] theorem pend_engReadLines (t : TileId) (unit : Nat) (env : EngEnv) (x0 : List (List Nat)) (s : State) : (engReadLines t unit env x0 s).2.pending = s.pending := by
  induction x0 generalizing s with
  | nil => simp [engReadLines]
  | cons a l ih =>
    simp only [engReadLines]
    repeat' split
    all_goals (try simp [*])
    all_goals (repeat (first | (refine pend_eq2 (by assumption) ?_; try simp [ih]) | (refine pend_eq3 (by assumption) ?_; try simp [ih])))
@[simp] theorem pend_countGathers (t : TileId) (unit : Nat) (n : Nat) (s : State) : (countGathers t unit n s).pending = s.pending := by
  simp [countGathers]
@[simp] theorem pend_engRead (t : TileId) (unit : Nat) (env : EngEnv) (vas : List Nat) (s : State) : (engRead t unit env vas s).2.pending = s.pending := by
  simp only [engRead]
  repeat' split
  all_goals (try simp)
  all_goals (repeat (first | (refine pend_eq2 (by assumption) ?_; try simp) | (refine pend_eq3 (by assumption) ?_; try simp)))
@[simp] theorem pend_engWriteLine (t : TileId) (unit : Nat) (w : Writer) (env : EngEnv) (cells : List (Nat × Byte)) (s : State) : (engWriteLine t unit w env cells s).2.pending = s.pending := by
  rw [engWriteLine]
  repeat' (first | (with_reducible split) | dsimp only)
  all_goals (repeat' (first | simp | (refine pend_eq2 (by assumption) ?_) | (refine pend_eq3 (by assumption) ?_) | (refine pend_eq4 (by assumption) ?_) | (rw [pend_foldl _ (fun s x => ?_)]) | with_reducible split))
@[simp] theorem pend_engWriteLines (t : TileId) (unit : Nat) (w : Writer) (env : EngEnv) (x0 : List (List (Nat × Byte))) (s : State) : (engWriteLines t unit w env x0 s).2.pending = s.pending := by
  induction x0 generalizing s with
  | nil => simp [engWriteLines]
  | cons a l ih =>
    rw [engWriteLines]
    repeat' (first | (with_reducible split) | dsimp only)
    all_goals (repeat' (first | simp [ih] | (refine pend_eq2 (by assumption) ?_) | (refine pend_eq3 (by assumption) ?_) | with_reducible split))
@[simp] theorem pend_pickWrites {α : Type} (va : α → Nat) (key : Nat → Nat) (cells : List α) (s : State) : (pickWrites va key cells s).2.pending = s.pending := by
  simp [pickWrites]
@[simp] theorem pend_engWriteX (t : TileId) (unit : Nat) (w : Writer) (env : EngEnv) (cells : List (Nat × Byte)) (s : State) : (engWriteX t unit w env cells s).2.pending = s.pending := by
  rw [engWriteX]
  repeat' (first | (with_reducible split) | dsimp only)
  all_goals (repeat' (first | simp | (refine pend_eq2 (by assumption) ?_) | (refine pend_eq3 (by assumption) ?_) | (refine pend_eq4 (by assumption) ?_) | (rw [pend_foldl _ (fun s x => ?_)]) | with_reducible split))
@[simp] theorem pend_engWrite (t : TileId) (unit : Nat) (env : EngEnv) (cells : List (Nat × Byte)) (s : State) : (engWrite t unit env cells s).2.pending = s.pending := by
  rw [engWrite]
  repeat' (first | (with_reducible split) | dsimp only)
  all_goals (repeat' (first | simp | (refine pend_eq2 (by assumption) ?_) | (refine pend_eq3 (by assumption) ?_) | (refine pend_eq4 (by assumption) ?_) | (rw [pend_foldl _ (fun s x => ?_)]) | with_reducible split))
@[simp] theorem pend_undefineVas (t : TileId) (w : Writer) (vas : List Nat) (s : State) : (undefineVas t w vas s).pending = s.pending := by
  simp [undefineVas]
@[simp] theorem pend_engRead64 (t : TileId) (unit : Nat) (env : EngEnv) (va : Nat) (s : State) : (engRead64 t unit env va s).2.pending = s.pending := by
  simp only [engRead64]
  repeat' split
  all_goals (try simp)
  all_goals (repeat (first | (refine pend_eq2 (by assumption) ?_; try simp) | (refine pend_eq3 (by assumption) ?_; try simp)))

/-! Directory -/

@[simp] theorem pend_alert (n : Nat) (s : State) : (alert n s).pending = s.pending := by
  simp [alert]
@[simp] theorem pend_writeRestab (e : Nat) (s : State) : (writeRestab e s).pending = s.pending := by
  simp [writeRestab]
@[simp] theorem pend_setRes (e : Nat) (r : Nat) (s : State) : (setRes e r s).pending = s.pending := by
  simp [setRes]
@[simp] theorem pend_setDirVa (e : Nat) (v : Nat) (s : State) : (setDirVa e v s).pending = s.pending := by
  simp [setDirVa]
@[simp] theorem pend_updSlots (s : State) : (updSlots s).pending = s.pending := by
  simp [updSlots]
@[simp] theorem pend_modExd (s : State) (f : Exd → Exd) : (State.modExd s f).pending = s.pending := by
  simp [State.modExd]
@[simp] theorem pend_assignSlot (e : Nat) (s : State) : (assignSlot e s).pending = s.pending := by
  simp only [assignSlot]
  repeat' split
  all_goals simp_all
@[simp] theorem pend_queueCopy (demand : Bool) (j : Bool × Nat) (s : State) : (queueCopy demand j s).pending = s.pending := by
  simp [queueCopy]
@[simp] theorem pend_passSlot (v : Nat) (e : Nat) (s : State) : (passSlot v e s).pending = s.pending := by
  simp only [passSlot]
  repeat' (first | (simp; done) | dsimp only | split | (refine (pend_emBind _ _ (fun a s => ?_)).trans ?_) | (refine (pend_emMap _ (fun a s => ?_) _ _).trans ?_) | (refine (pend_foldl _ (fun s x => ?_) _ _).trans ?_) | (refine (pend_foldl2 _ (fun r x => ?_) _ _).trans ?_) | (refine pend_eq2 (by assumption) ?_) | (refine pend_eq3 (by assumption) ?_))
@[simp] theorem pend_claimSlot (e : Nat) (demand : Bool) (s : State) : (claimSlot e demand s).pending = s.pending := by
  simp only [claimSlot]
  repeat' (first | (simp; done) | dsimp only | split | (refine (pend_emBind _ _ (fun a s => ?_)).trans ?_) | (refine (pend_emMap _ (fun a s => ?_) _ _).trans ?_) | (refine (pend_foldl _ (fun s x => ?_) _ _).trans ?_) | (refine (pend_foldl2 _ (fun r x => ?_) _ _).trans ?_) | (refine pend_eq2 (by assumption) ?_) | (refine pend_eq3 (by assumption) ?_))
@[simp] theorem pend_queueFetch (e : Nat) (demand : Bool) (s : State) : (queueFetch e demand s).pending = s.pending := by
  simp only [queueFetch]
  repeat' (first | (simp; done) | dsimp only | split | (refine (pend_emBind _ _ (fun a s => ?_)).trans ?_) | (refine (pend_emMap _ (fun a s => ?_) _ _).trans ?_) | (refine (pend_foldl _ (fun s x => ?_) _ _).trans ?_) | (refine (pend_foldl2 _ (fun r x => ?_) _ _).trans ?_) | (refine pend_eq2 (by assumption) ?_) | (refine pend_eq3 (by assumption) ?_))
@[simp] theorem pend_requestFetch (e : Nat) (demand : Bool) (s : State) : (requestFetch e demand s).pending = s.pending := by
  simp only [requestFetch]
  repeat' (first | (simp; done) | dsimp only | split | (refine (pend_emBind _ _ (fun a s => ?_)).trans ?_) | (refine (pend_emMap _ (fun a s => ?_) _ _).trans ?_) | (refine (pend_foldl _ (fun s x => ?_) _ _).trans ?_) | (refine (pend_foldl2 _ (fun r x => ?_) _ _).trans ?_) | (refine pend_eq2 (by assumption) ?_) | (refine pend_eq3 (by assumption) ?_))
@[simp] theorem pend_retryHeld (s : State) : (retryHeld s).pending = s.pending := by
  simp only [retryHeld]
  repeat' (first | (simp; done) | dsimp only | split | (refine (pend_emBind _ _ (fun a s => ?_)).trans ?_) | (refine (pend_emMap _ (fun a s => ?_) _ _).trans ?_) | (refine (pend_foldl _ (fun s x => ?_) _ _).trans ?_) | (refine (pend_foldl2 _ (fun r x => ?_) _ _).trans ?_) | (refine pend_eq2 (by assumption) ?_) | (refine pend_eq3 (by assumption) ?_))
@[simp] theorem pend_freeSlot (e : Nat) (s : State) : (freeSlot e s).pending = s.pending := by
  simp only [freeSlot]
  repeat' (first | (simp; done) | dsimp only | split | (refine (pend_emBind _ _ (fun a s => ?_)).trans ?_) | (refine (pend_emMap _ (fun a s => ?_) _ _).trans ?_) | (refine (pend_foldl _ (fun s x => ?_) _ _).trans ?_) | (refine (pend_foldl2 _ (fun r x => ?_) _ _).trans ?_) | (refine pend_eq2 (by assumption) ?_) | (refine pend_eq3 (by assumption) ?_))
@[simp] theorem pend_becomeResting (e : Nat) (s : State) : (becomeResting e s).pending = s.pending := by
  simp only [becomeResting]
  repeat' (first | (simp; done) | dsimp only | split | (refine (pend_emBind _ _ (fun a s => ?_)).trans ?_) | (refine (pend_emMap _ (fun a s => ?_) _ _).trans ?_) | (refine (pend_foldl _ (fun s x => ?_) _ _).trans ?_) | (refine (pend_foldl2 _ (fun r x => ?_) _ _).trans ?_) | (refine pend_eq2 (by assumption) ?_) | (refine pend_eq3 (by assumption) ?_))
@[simp] theorem pend_startEvict (e : Nat) (queue : Bool) (s : State) : (startEvict e queue s).pending = s.pending := by
  simp only [startEvict]
  repeat' (first | (simp; done) | dsimp only | split | (refine (pend_emBind _ _ (fun a s => ?_)).trans ?_) | (refine (pend_emMap _ (fun a s => ?_) _ _).trans ?_) | (refine (pend_foldl _ (fun s x => ?_) _ _).trans ?_) | (refine (pend_foldl2 _ (fun r x => ?_) _ _).trans ?_) | (refine pend_eq2 (by assumption) ?_) | (refine pend_eq3 (by assumption) ?_))
@[simp] theorem pend_requestEvict (e : Nat) (s : State) : (requestEvict e s).pending = s.pending := by
  simp only [requestEvict]
  repeat' (first | (simp; done) | dsimp only | split | (refine (pend_emBind _ _ (fun a s => ?_)).trans ?_) | (refine (pend_emMap _ (fun a s => ?_) _ _).trans ?_) | (refine (pend_foldl _ (fun s x => ?_) _ _).trans ?_) | (refine (pend_foldl2 _ (fun r x => ?_) _ _).trans ?_) | (refine pend_eq2 (by assumption) ?_) | (refine pend_eq3 (by assumption) ?_))
@[simp] theorem pend_retryEvicts (s : State) : (retryEvicts s).pending = s.pending := by
  simp only [retryEvicts]
  repeat' (first | (simp; done) | dsimp only | split | (refine (pend_emBind _ _ (fun a s => ?_)).trans ?_) | (refine (pend_emMap _ (fun a s => ?_) _ _).trans ?_) | (refine (pend_foldl _ (fun s x => ?_) _ _).trans ?_) | (refine (pend_foldl2 _ (fun r x => ?_) _ _).trans ?_) | (refine pend_eq2 (by assumption) ?_) | (refine pend_eq3 (by assumption) ?_))
@[simp] theorem pend_copyRange (src : Nat) (dst : Nat) (len : Nat) (s : State) : (copyRange src dst len s).2.pending = s.pending := by
  simp [copyRange]
@[simp] theorem pend_fetchFault (e : Nat) (st : Status) (s : State) : (fetchFault e st s).pending = s.pending := by
  simp only [fetchFault]
  repeat' (first | (simp; done) | dsimp only | split | (refine (pend_emBind _ _ (fun a s => ?_)).trans ?_) | (refine (pend_emMap _ (fun a s => ?_) _ _).trans ?_) | (refine (pend_foldl _ (fun s x => ?_) _ _).trans ?_) | (refine (pend_foldl2 _ (fun r x => ?_) _ _).trans ?_) | (refine pend_eq2 (by assumption) ?_) | (refine pend_eq3 (by assumption) ?_))
@[simp] theorem pend_writeBackFault (e : Nat) (s : State) : (writeBackFault e s).pending = s.pending := by
  simp [writeBackFault]
@[simp] theorem pend_endRef (e : Nat) (s : State) : (endRef e s).pending = s.pending := by
  simp [endRef]
@[simp] theorem pend_cmdStat (st : Status) (s : State) : (cmdStat st s).pending = s.pending := by
  simp [cmdStat]
@[simp] theorem pend_exdDo (ok : State → Bool) (eff : State → State) (s : State) (heff : ∀ (y0 : State), (eff y0).pending = y0.pending) : (exdDo ok eff s).pending = s.pending := by
  simp [exdDo, heff]
@[simp] theorem pend_exdCmd (ok : State → Bool) (eff : State → State) (s : State) (heff : ∀ (y0 : State), (eff y0).pending = y0.pending) : queueOf (exdCmd ok eff s) = some s.pending := by
  simp [exdCmd, heff]
@[simp] theorem pend_execAdoptRes (e : ExpertId) (s : State) : queueOf (execAdoptRes e s) = some s.pending := by
  simp [execAdoptRes]
@[simp] theorem pend_execAdoptRest (e : ExpertId) (s : State) : queueOf (execAdoptRest e s) = some s.pending := by
  simp [execAdoptRest]
@[simp] theorem pend_execDrop (e : ExpertId) (s : State) : queueOf (execDrop e s) = some s.pending := by
  simp [execDrop]
@[simp] theorem pend_execCommit (s : State) : queueOf (execCommit s) = some s.pending := by
  simp [execCommit]
@[simp] theorem pend_execRetry (e : ExpertId) (s : State) : queueOf (execRetry e s) = some s.pending := by
  simp only [execRetry]
  repeat' (first | (simp; done) | dsimp only | split | (refine (pend_emBind _ _ (fun a s => ?_)).trans ?_) | (refine (pend_emMap _ (fun a s => ?_) _ _).trans ?_) | (refine (pend_foldl _ (fun s x => ?_) _ _).trans ?_) | (refine (pend_foldl2 _ (fun r x => ?_) _ _).trans ?_) | (refine pend_eq2 (by assumption) ?_) | (refine pend_eq3 (by assumption) ?_))
@[simp] theorem pend_execExdCommitComplete (s : State) : queueOf (execExdCommitComplete s) = some s.pending := by
  simp [execExdCommitComplete]
theorem pend_startCopy (l : List (Bool × Nat)) (drop : Bool × Nat → Exd → Exd) (s u : State) (h : startCopy l drop s = some u) :
    u.pending = s.pending := by
  rw [startCopy] at h
  dsimp only at h
  repeat' split at h
  all_goals first | (cases h; done) | (obtain rfl := Option.some.inj h; simp; done) |
    (obtain rfl := Option.some.inj h; split <;> simp)
@[simp] theorem pend_execDirectoryTransferStart (s : State) : queueOf (execDirectoryTransferStart s) = some s.pending := by
  rw [execDirectoryTransferStart, queueOf_next]
  split
  · rfl
  · dsimp only
    generalize hs : (needSlot s (s.exd.demands ++ s.exd.prefs)).foldl (fun s e => assignSlot e s) s = s1
    have h1 : s1.pending = s.pending := by rw [← hs]; exact pend_foldl _ (fun s e => by simp) _ _
    split
    · next u hu => rw [pend_startCopy _ _ _ _ hu, h1]
    · cases hq : startCopy s1.exd.prefs (fun j x => { x with prefs := x.prefs.erase j }) s1 with
      | none => exact congrArg some h1
      | some u => simp [pend_startCopy _ _ _ _ hq, h1]
@[simp] theorem pend_execFetchComplete (bad : Bool) (s : State) : queueOf (execFetchComplete bad s) = some s.pending := by
  simp only [execFetchComplete]
  repeat' (first | (simp; done) | dsimp only | split | (refine (pend_emBind _ _ (fun a s => ?_)).trans ?_) | (refine (pend_emMap _ (fun a s => ?_) _ _).trans ?_) | (refine (pend_foldl _ (fun s x => ?_) _ _).trans ?_) | (refine (pend_foldl2 _ (fun r x => ?_) _ _).trans ?_) | (refine pend_eq2 (by assumption) ?_) | (refine pend_eq3 (by assumption) ?_))
@[simp] theorem pend_execEvictionComplete (bad : Bool) (s : State) : queueOf (execEvictionComplete bad s) = some s.pending := by
  simp only [execEvictionComplete]
  repeat' (first | (simp; done) | dsimp only | split | (refine (pend_emBind _ _ (fun a s => ?_)).trans ?_) | (refine (pend_emMap _ (fun a s => ?_) _ _).trans ?_) | (refine (pend_foldl _ (fun s x => ?_) _ _).trans ?_) | (refine (pend_foldl2 _ (fun r x => ?_) _ _).trans ?_) | (refine pend_eq2 (by assumption) ?_) | (refine pend_eq3 (by assumption) ?_))
@[simp] theorem pend_copyTimeout (s : State) : (copyTimeout s).pending = s.pending := by
  simp only [copyTimeout]
  repeat' (first | (simp; done) | dsimp only | split | (refine (pend_emBind _ _ (fun a s => ?_)).trans ?_) | (refine (pend_emMap _ (fun a s => ?_) _ _).trans ?_) | (refine (pend_foldl _ (fun s x => ?_) _ _).trans ?_) | (refine (pend_foldl2 _ (fun r x => ?_) _ _).trans ?_) | (refine pend_eq2 (by assumption) ?_) | (refine pend_eq3 (by assumption) ?_))
@[simp] theorem pend_execMoraineTimeout (lines : List Nat) (s : State) : queueOf (execMoraineTimeout lines s) = some s.pending := by
  simp only [execMoraineTimeout]
  repeat' (first | (simp; done) | dsimp only | split | (refine (pend_emBind _ _ (fun a s => ?_)).trans ?_) | (refine (pend_emMap _ (fun a s => ?_) _ _).trans ?_) | (refine (pend_foldl _ (fun s x => ?_) _ _).trans ?_) | (refine (pend_foldl2 _ (fun r x => ?_) _ _).trans ?_) | (refine pend_eq2 (by assumption) ?_) | (refine pend_eq3 (by assumption) ?_))
@[simp] theorem pend_execExpanderConfigured (port : Bool) (width : BitVec 5) (gib : BitVec 13) (s : State) : queueOf (execExpanderConfigured port width gib s) = some s.pending := by
  simp [execExpanderConfigured]

/-! HostBus -/

@[simp] theorem pend_hostWr (a : Nat) (l : List Byte) (s : State) : (hostWr a l s).pending = s.pending := by
  simp [hostWr]
@[simp] theorem pend_sendMsi (v : Nat) (s : State) : (sendMsi v s).pending = s.pending := by
  simp [sendMsi]
@[simp] theorem pend_raiseVector (v : Nat) (s : State) : (raiseVector v s).pending = s.pending := by
  simp [raiseVector]
@[simp] theorem pend_unmaskVector (v : Nat) (s : State) : (unmaskVector v s).pending = s.pending := by
  simp [unmaskVector]
@[simp] theorem pend_deviceEvent (f : Fld) (s : State) : (deviceEvent f s).pending = s.pending := by
  simp [deviceEvent]

/-! Queue -/

@[simp] theorem pend_setQState (q : QIdx) (v : Nat) (s : State) : (setQState q v s).pending = s.pending := by
  simp [setQState]
@[simp] theorem pend_dropCmd (q : QIdx) (seq : W32) (s : State) : (dropCmd q seq s).pending = s.pending := by
  simp [dropCmd]
@[simp] theorem pend_writeRecord (q : QIdx) (c : Cmd) (st : Status) (stops : Bool) (step : Nat) (energy : Nat) (kcc : Nat) (s : State) : (writeRecord q c st stops step energy kcc s).pending = s.pending := by
  simp [writeRecord]
@[simp] theorem pend_cmdIrq (q : QIdx) (c : Cmd) (s : State) : (cmdIrq q c s).pending = s.pending := by
  simp only [cmdIrq]
  repeat' split
  all_goals simp_all
@[simp] theorem pend_unCandidate (q : QIdx) (s : State) : (unCandidate q s).pending = s.pending := by
  simp [unCandidate]
@[simp] theorem pend_stopQueue (q : QIdx) (seq : W32) (s : State) : (stopQueue q seq s).pending = s.pending := by
  simp [stopQueue]
@[simp] theorem pend_completeCmd (q : QIdx) (c : Cmd) (energy : Nat) (kcc : Nat) (s : State) : (completeCmd q c energy kcc s).pending = s.pending := by
  simp [completeCmd]
@[simp] theorem pend_cpRead (space : Nat) (a : Nat) (n : Nat) (s : State) : (cpRead space a n s).2.2.pending = s.pending := by
  simp [cpRead]
@[simp] theorem pend_fetchLaunch (c : Cmd) (s : State) : (fetchLaunch c s).2.pending = s.pending := by
  simp [fetchLaunch]
@[simp] theorem pend_addCmd (q : QIdx) (c : Cmd) (s : State) : (addCmd q c s).pending = s.pending := by
  simp [addCmd]
@[simp] theorem pend_fetchEntry (q : QIdx) (s : State) : (fetchEntry q s).pending = s.pending := by
  simp [fetchEntry]
@[simp] theorem pend_fetchCmd (q : QIdx) (k : Cursor) (s : State) : (fetchCmd q k s).pending = s.pending := by
  simp [fetchCmd]
@[simp] theorem pend_execCommandFetch (q : QIdx) (s : State) : queueOf (execCommandFetch q s) = some s.pending := by
  simp only [execCommandFetch]
  repeat' (first | (simp; done) | dsimp only | split | (refine (pend_emBind _ _ (fun a s => ?_)).trans ?_) | (refine (pend_emMap _ (fun a s => ?_) _ _).trans ?_) | (refine (pend_foldl _ (fun s x => ?_) _ _).trans ?_) | (refine (pend_foldl2 _ (fun r x => ?_) _ _).trans ?_) | (refine pend_eq2 (by assumption) ?_) | (refine pend_eq3 (by assumption) ?_))
@[simp] theorem pend_takeTiles (tiles : List Nat) (s : State) : (takeTiles tiles s).pending = s.pending := by
  simp [takeTiles]
@[simp] theorem pend_dispatchCmd (q : QIdx) (c : Cmd) (deferred : Bool) (d : Nat) (s : State) : (dispatchCmd q c deferred d s).pending = s.pending := by
  simp [dispatchCmd]
@[simp] theorem pend_abortLost (q : QIdx) (c : Cmd) (s : State) : (abortLost q c s).pending = s.pending := by
  simp [abortLost]
@[simp] theorem pend_execCommandDispatch (q : QIdx) (seq : W32) (raced : List Nat) (s : State) : queueOf (execCommandDispatch q seq raced s) = some s.pending := by
  simp only [execCommandDispatch]
  repeat' (first | (simp; done) | dsimp only | split | (refine (pend_emBind _ _ (fun a s => ?_)).trans ?_) | (refine (pend_emMap _ (fun a s => ?_) _ _).trans ?_) | (refine (pend_foldl _ (fun s x => ?_) _ _).trans ?_) | (refine (pend_foldl2 _ (fun r x => ?_) _ _).trans ?_) | (refine pend_eq2 (by assumption) ?_) | (refine pend_eq3 (by assumption) ?_))
@[simp] theorem pend_execRefusedCommandStop (q : QIdx) (s : State) : queueOf (execRefusedCommandStop q s) = some s.pending := by
  simp only [execRefusedCommandStop]
  repeat' (first | (simp; done) | dsimp only | split | (refine (pend_emBind _ _ (fun a s => ?_)).trans ?_) | (refine (pend_emMap _ (fun a s => ?_) _ _).trans ?_) | (refine (pend_foldl _ (fun s x => ?_) _ _).trans ?_) | (refine (pend_foldl2 _ (fun r x => ?_) _ _).trans ?_) | (refine pend_eq2 (by assumption) ?_) | (refine pend_eq3 (by assumption) ?_))
@[simp] theorem pend_writeQcfg (q : QIdx) (v : Nat) (s : State) : (writeQcfg q v s).pending = s.pending := by
  simp [writeQcfg]
@[simp] theorem pend_recheck (q : QIdx) (s : State) : (recheck q s).pending = s.pending := by
  simp [recheck]
@[simp] theorem pend_enableQueue (q : QIdx) (s : State) : (enableQueue q s).pending = s.pending := by
  simp [enableQueue]
@[simp] theorem pend_disableQueue (q : QIdx) (s : State) : (disableQueue q s).pending = s.pending := by
  simp [disableQueue]
@[simp] theorem pend_resumeQueue (q : QIdx) (s : State) : (resumeQueue q s).pending = s.pending := by
  simp only [resumeQueue]
  repeat' (first | (simp; done) | dsimp only | split | (refine (pend_emBind _ _ (fun a s => ?_)).trans ?_) | (refine (pend_emMap _ (fun a s => ?_) _ _).trans ?_) | (refine (pend_foldl _ (fun s x => ?_) _ _).trans ?_) | (refine (pend_foldl2 _ (fun r x => ?_) _ _).trans ?_) | (refine pend_eq2 (by assumption) ?_) | (refine pend_eq3 (by assumption) ?_))
@[simp] theorem pend_qcfgWrite (q : QIdx) (v : Nat) (s : State) : (qcfgWrite q v s).pending = s.pending := by
  simp only [qcfgWrite]
  repeat' (first | (simp; done) | dsimp only | split | (refine (pend_emBind _ _ (fun a s => ?_)).trans ?_) | (refine (pend_emMap _ (fun a s => ?_) _ _).trans ?_) | (refine (pend_foldl _ (fun s x => ?_) _ _).trans ?_) | (refine (pend_foldl2 _ (fun r x => ?_) _ _).trans ?_) | (refine pend_eq2 (by assumption) ?_) | (refine pend_eq3 (by assumption) ?_))
@[simp] theorem pend_execQueueEnable (q : QIdx) (cfg : BitVec 32) (s : State) : queueOf (execQueueEnable q cfg s) = some s.pending := by
  simp only [execQueueEnable]
  repeat' (first | (simp; done) | dsimp only | split | (refine (pend_emBind _ _ (fun a s => ?_)).trans ?_) | (refine (pend_emMap _ (fun a s => ?_) _ _).trans ?_) | (refine (pend_foldl _ (fun s x => ?_) _ _).trans ?_) | (refine (pend_foldl2 _ (fun r x => ?_) _ _).trans ?_) | (refine pend_eq2 (by assumption) ?_) | (refine pend_eq3 (by assumption) ?_))
@[simp] theorem pend_execQueueDisable (q : QIdx) (cfg : BitVec 32) (s : State) : queueOf (execQueueDisable q cfg s) = some s.pending := by
  simp only [execQueueDisable]
  repeat' (first | (simp; done) | dsimp only | split | (refine (pend_emBind _ _ (fun a s => ?_)).trans ?_) | (refine (pend_emMap _ (fun a s => ?_) _ _).trans ?_) | (refine (pend_foldl _ (fun s x => ?_) _ _).trans ?_) | (refine (pend_foldl2 _ (fun r x => ?_) _ _).trans ?_) | (refine pend_eq2 (by assumption) ?_) | (refine pend_eq3 (by assumption) ?_))
@[simp] theorem pend_execQueueResume (q : QIdx) (cfg : BitVec 32) (s : State) : queueOf (execQueueResume q cfg s) = some s.pending := by
  simp only [execQueueResume]
  repeat' (first | (simp; done) | dsimp only | split | (refine (pend_emBind _ _ (fun a s => ?_)).trans ?_) | (refine (pend_emMap _ (fun a s => ?_) _ _).trans ?_) | (refine (pend_foldl _ (fun s x => ?_) _ _).trans ?_) | (refine (pend_foldl2 _ (fun r x => ?_) _ _).trans ?_) | (refine pend_eq2 (by assumption) ?_) | (refine pend_eq3 (by assumption) ?_))
@[simp] theorem pend_execQueueDrainDone (q : QIdx) (s : State) : queueOf (execQueueDrainDone q s) = some s.pending := by
  simp [execQueueDrainDone]
@[simp] theorem pend_sqDoorbell (q : QIdx) (v : Nat) (s : State) : (sqDoorbell q v s).pending = s.pending := by
  simp [sqDoorbell]
@[simp] theorem pend_cqDoorbell (q : QIdx) (v : Nat) (s : State) : (cqDoorbell q v s).pending = s.pending := by
  simp [cqDoorbell]
@[simp] theorem pend_execSqDoorbell (q : QIdx) (tail : BitVec 16) (s : State) : queueOf (execSqDoorbell q tail s) = some s.pending := by
  simp [execSqDoorbell]
@[simp] theorem pend_execCqDoorbell (q : QIdx) (head : BitVec 16) (s : State) : queueOf (execCqDoorbell q head s) = some s.pending := by
  simp [execCqDoorbell]
@[simp] theorem pend_execCommandComplete (q : QIdx) (seq : W32) (energy : BitVec 32) (kcc : BitVec 32) (s : State) : queueOf (execCommandComplete q seq energy kcc s) = some s.pending := by
  simp only [execCommandComplete]
  repeat' (first | (simp; done) | dsimp only | split | (refine (pend_emBind _ _ (fun a s => ?_)).trans ?_) | (refine (pend_emMap _ (fun a s => ?_) _ _).trans ?_) | (refine (pend_foldl _ (fun s x => ?_) _ _).trans ?_) | (refine (pend_foldl2 _ (fun r x => ?_) _ _).trans ?_) | (refine pend_eq2 (by assumption) ?_) | (refine pend_eq3 (by assumption) ?_))
@[simp] theorem pend_runCmd (q : QIdx) (seq : W32) (op : Nat) (body : Cmd → State → State) (s : State) (hbody : ∀ (y0 : Cmd) (y1 : State), (body y0 y1).pending = y1.pending) : queueOf (runCmd q seq op body s) = some s.pending := by
  rw [runCmd]
  repeat' (first | (with_reducible split) | dsimp only)
  all_goals (repeat' (first | simp [hbody] | (refine pend_eq2 (by assumption) ?_) | (refine pend_eq3 (by assumption) ?_) | (refine pend_eq4 (by assumption) ?_) | (rw [pend_foldl _ (fun s x => ?_)]) | with_reducible split))
@[simp] theorem pend_endCmd (q : QIdx) (seq : W32) (s : State) : (endCmd q seq s).pending = s.pending := by
  simp [endCmd]
@[simp] theorem pend_endWith (q : QIdx) (seq : W32) (st : Status) (detail : Nat) (va : Nat) (s : State) : (endWith q seq st detail va s).pending = s.pending := by
  simp [endWith]

/-! Scalar -/

@[simp] theorem pend_xSetS (t : TileId) (rd : SReg) (v : Word) (s : State) {t' : TileId} {len : Nat} : (xFinish t' len (xSetS t rd v s)).pending = s.pending := by
  simp [xSetS]
@[simp] theorem pend_xAlu (t : TileId) (rd : SReg) (rs1 : SReg) (rs2 : SReg) (f : Word → Word → Word) (s : State) : queueOf (xAlu t rd rs1 rs2 f s) = some s.pending := by
  simp [xAlu]
@[simp] theorem pend_xAluI (t : TileId) (rd : SReg) (rs1 : SReg) (imm : BitVec 12) (f : Word → Word → Word) (s : State) : queueOf (xAluI t rd rs1 imm f s) = some s.pending := by
  simp [xAluI]
@[simp] theorem pend_xShI (t : TileId) (rd : SReg) (rs1 : SReg) (sh : BitVec 6) (f : Word → Nat → Word) (s : State) : queueOf (xShI t rd rs1 sh f s) = some s.pending := by
  simp [xShI]
@[simp] theorem pend_execXAdd (t : TileId) (rd : SReg) (rs1 : SReg) (rs2 : SReg) (s : State) : queueOf (execXAdd t rd rs1 rs2 s) = some s.pending := by
  simp [execXAdd]
@[simp] theorem pend_execXSub (t : TileId) (rd : SReg) (rs1 : SReg) (rs2 : SReg) (s : State) : queueOf (execXSub t rd rs1 rs2 s) = some s.pending := by
  simp [execXSub]
@[simp] theorem pend_execXAnd (t : TileId) (rd : SReg) (rs1 : SReg) (rs2 : SReg) (s : State) : queueOf (execXAnd t rd rs1 rs2 s) = some s.pending := by
  simp [execXAnd]
@[simp] theorem pend_execXOr (t : TileId) (rd : SReg) (rs1 : SReg) (rs2 : SReg) (s : State) : queueOf (execXOr t rd rs1 rs2 s) = some s.pending := by
  simp [execXOr]
@[simp] theorem pend_execXXor (t : TileId) (rd : SReg) (rs1 : SReg) (rs2 : SReg) (s : State) : queueOf (execXXor t rd rs1 rs2 s) = some s.pending := by
  simp [execXXor]
@[simp] theorem pend_execXSll (t : TileId) (rd : SReg) (rs1 : SReg) (rs2 : SReg) (s : State) : queueOf (execXSll t rd rs1 rs2 s) = some s.pending := by
  simp [execXSll]
@[simp] theorem pend_execXSrl (t : TileId) (rd : SReg) (rs1 : SReg) (rs2 : SReg) (s : State) : queueOf (execXSrl t rd rs1 rs2 s) = some s.pending := by
  simp [execXSrl]
@[simp] theorem pend_execXSra (t : TileId) (rd : SReg) (rs1 : SReg) (rs2 : SReg) (s : State) : queueOf (execXSra t rd rs1 rs2 s) = some s.pending := by
  simp [execXSra]
@[simp] theorem pend_execXMul (t : TileId) (rd : SReg) (rs1 : SReg) (rs2 : SReg) (s : State) : queueOf (execXMul t rd rs1 rs2 s) = some s.pending := by
  simp [execXMul]
@[simp] theorem pend_execXMulhu (t : TileId) (rd : SReg) (rs1 : SReg) (rs2 : SReg) (s : State) : queueOf (execXMulhu t rd rs1 rs2 s) = some s.pending := by
  simp [execXMulhu]
@[simp] theorem pend_execXSlt (t : TileId) (rd : SReg) (rs1 : SReg) (rs2 : SReg) (s : State) : queueOf (execXSlt t rd rs1 rs2 s) = some s.pending := by
  simp [execXSlt]
@[simp] theorem pend_execXSltu (t : TileId) (rd : SReg) (rs1 : SReg) (rs2 : SReg) (s : State) : queueOf (execXSltu t rd rs1 rs2 s) = some s.pending := by
  simp [execXSltu]
@[simp] theorem pend_execXMin (t : TileId) (rd : SReg) (rs1 : SReg) (rs2 : SReg) (s : State) : queueOf (execXMin t rd rs1 rs2 s) = some s.pending := by
  simp [execXMin]
@[simp] theorem pend_execXMax (t : TileId) (rd : SReg) (rs1 : SReg) (rs2 : SReg) (s : State) : queueOf (execXMax t rd rs1 rs2 s) = some s.pending := by
  simp [execXMax]
@[simp] theorem pend_execXMinu (t : TileId) (rd : SReg) (rs1 : SReg) (rs2 : SReg) (s : State) : queueOf (execXMinu t rd rs1 rs2 s) = some s.pending := by
  simp [execXMinu]
@[simp] theorem pend_execXMaxu (t : TileId) (rd : SReg) (rs1 : SReg) (rs2 : SReg) (s : State) : queueOf (execXMaxu t rd rs1 rs2 s) = some s.pending := by
  simp [execXMaxu]
@[simp] theorem pend_execXAddi (t : TileId) (rd : SReg) (rs1 : SReg) (imm : BitVec 12) (s : State) : queueOf (execXAddi t rd rs1 imm s) = some s.pending := by
  simp [execXAddi]
@[simp] theorem pend_execXAndi (t : TileId) (rd : SReg) (rs1 : SReg) (imm : BitVec 12) (s : State) : queueOf (execXAndi t rd rs1 imm s) = some s.pending := by
  simp [execXAndi]
@[simp] theorem pend_execXOri (t : TileId) (rd : SReg) (rs1 : SReg) (imm : BitVec 12) (s : State) : queueOf (execXOri t rd rs1 imm s) = some s.pending := by
  simp [execXOri]
@[simp] theorem pend_execXXori (t : TileId) (rd : SReg) (rs1 : SReg) (imm : BitVec 12) (s : State) : queueOf (execXXori t rd rs1 imm s) = some s.pending := by
  simp [execXXori]
@[simp] theorem pend_execXSlti (t : TileId) (rd : SReg) (rs1 : SReg) (imm : BitVec 12) (s : State) : queueOf (execXSlti t rd rs1 imm s) = some s.pending := by
  simp [execXSlti]
@[simp] theorem pend_execXSltiu (t : TileId) (rd : SReg) (rs1 : SReg) (imm : BitVec 12) (s : State) : queueOf (execXSltiu t rd rs1 imm s) = some s.pending := by
  simp [execXSltiu]
@[simp] theorem pend_execXSlli (t : TileId) (rd : SReg) (rs1 : SReg) (sh : BitVec 6) (s : State) : queueOf (execXSlli t rd rs1 sh s) = some s.pending := by
  simp [execXSlli]
@[simp] theorem pend_execXSrli (t : TileId) (rd : SReg) (rs1 : SReg) (sh : BitVec 6) (s : State) : queueOf (execXSrli t rd rs1 sh s) = some s.pending := by
  simp [execXSrli]
@[simp] theorem pend_execXSrai (t : TileId) (rd : SReg) (rs1 : SReg) (sh : BitVec 6) (s : State) : queueOf (execXSrai t rd rs1 sh s) = some s.pending := by
  simp [execXSrai]
@[simp] theorem pend_xLoadI (t : TileId) (rd : SReg) (rs1 : SReg) (imm : BitVec 12) (size : Nat) (signed : Bool) (s : State) : queueOf (xLoadI t rd rs1 imm size signed s) = some s.pending := by
  simp [xLoadI]
@[simp] theorem pend_execXLb (t : TileId) (rd : SReg) (rs1 : SReg) (imm : BitVec 12) (s : State) : queueOf (execXLb t rd rs1 imm s) = some s.pending := by
  simp [execXLb]
@[simp] theorem pend_execXLh (t : TileId) (rd : SReg) (rs1 : SReg) (imm : BitVec 12) (s : State) : queueOf (execXLh t rd rs1 imm s) = some s.pending := by
  simp [execXLh]
@[simp] theorem pend_execXLw (t : TileId) (rd : SReg) (rs1 : SReg) (imm : BitVec 12) (s : State) : queueOf (execXLw t rd rs1 imm s) = some s.pending := by
  simp [execXLw]
@[simp] theorem pend_execXLd (t : TileId) (rd : SReg) (rs1 : SReg) (imm : BitVec 12) (s : State) : queueOf (execXLd t rd rs1 imm s) = some s.pending := by
  simp [execXLd]
@[simp] theorem pend_execXLbu (t : TileId) (rd : SReg) (rs1 : SReg) (imm : BitVec 12) (s : State) : queueOf (execXLbu t rd rs1 imm s) = some s.pending := by
  simp [execXLbu]
@[simp] theorem pend_execXLhu (t : TileId) (rd : SReg) (rs1 : SReg) (imm : BitVec 12) (s : State) : queueOf (execXLhu t rd rs1 imm s) = some s.pending := by
  simp [execXLhu]
@[simp] theorem pend_execXLwu (t : TileId) (rd : SReg) (rs1 : SReg) (imm : BitVec 12) (s : State) : queueOf (execXLwu t rd rs1 imm s) = some s.pending := by
  simp [execXLwu]
@[simp] theorem pend_xStoreI (t : TileId) (rs1 : SReg) (rs2 : SReg) (imm : BitVec 12) (size : Nat) (s : State) : queueOf (xStoreI t rs1 rs2 imm size s) = some s.pending := by
  simp [xStoreI]
@[simp] theorem pend_execXSb (t : TileId) (rs1 : SReg) (rs2 : SReg) (imm : BitVec 12) (s : State) : queueOf (execXSb t rs1 rs2 imm s) = some s.pending := by
  simp [execXSb]
@[simp] theorem pend_execXSh (t : TileId) (rs1 : SReg) (rs2 : SReg) (imm : BitVec 12) (s : State) : queueOf (execXSh t rs1 rs2 imm s) = some s.pending := by
  simp [execXSh]
@[simp] theorem pend_execXSw (t : TileId) (rs1 : SReg) (rs2 : SReg) (imm : BitVec 12) (s : State) : queueOf (execXSw t rs1 rs2 imm s) = some s.pending := by
  simp [execXSw]
@[simp] theorem pend_execXSd (t : TileId) (rs1 : SReg) (rs2 : SReg) (imm : BitVec 12) (s : State) : queueOf (execXSd t rs1 rs2 imm s) = some s.pending := by
  simp [execXSd]
@[simp] theorem pend_xAtom (t : TileId) (rd : Option SReg) (rs1 : SReg) (rs2 : SReg) (wide : Bool) (s : State) : queueOf (xAtom t rd rs1 rs2 wide s) = some s.pending := by
  simp [xAtom]
@[simp] theorem pend_execXAaddW (t : TileId) (rs1 : SReg) (rs2 : SReg) (s : State) : queueOf (execXAaddW t rs1 rs2 s) = some s.pending := by
  simp [execXAaddW]
@[simp] theorem pend_execXAaddD (t : TileId) (rs1 : SReg) (rs2 : SReg) (s : State) : queueOf (execXAaddD t rs1 rs2 s) = some s.pending := by
  simp [execXAaddD]
@[simp] theorem pend_execXAaddrW (t : TileId) (rd : SReg) (rs1 : SReg) (rs2 : SReg) (s : State) : queueOf (execXAaddrW t rd rs1 rs2 s) = some s.pending := by
  simp [execXAaddrW]
@[simp] theorem pend_execXAaddrD (t : TileId) (rd : SReg) (rs1 : SReg) (rs2 : SReg) (s : State) : queueOf (execXAaddrD t rd rs1 rs2 s) = some s.pending := by
  simp [execXAaddrD]
@[simp] theorem pend_xBranch (t : TileId) (rs1 : SReg) (rs2 : SReg) (off : BitVec 13) (f : Word → Word → Bool) (s : State) : queueOf (xBranch t rs1 rs2 off f s) = some s.pending := by
  simp [xBranch]
@[simp] theorem pend_execXBeq (t : TileId) (rs1 : SReg) (rs2 : SReg) (off : BitVec 13) (s : State) : queueOf (execXBeq t rs1 rs2 off s) = some s.pending := by
  simp [execXBeq]
@[simp] theorem pend_execXBne (t : TileId) (rs1 : SReg) (rs2 : SReg) (off : BitVec 13) (s : State) : queueOf (execXBne t rs1 rs2 off s) = some s.pending := by
  simp [execXBne]
@[simp] theorem pend_execXBlt (t : TileId) (rs1 : SReg) (rs2 : SReg) (off : BitVec 13) (s : State) : queueOf (execXBlt t rs1 rs2 off s) = some s.pending := by
  simp [execXBlt]
@[simp] theorem pend_execXBge (t : TileId) (rs1 : SReg) (rs2 : SReg) (off : BitVec 13) (s : State) : queueOf (execXBge t rs1 rs2 off s) = some s.pending := by
  simp [execXBge]
@[simp] theorem pend_execXBltu (t : TileId) (rs1 : SReg) (rs2 : SReg) (off : BitVec 13) (s : State) : queueOf (execXBltu t rs1 rs2 off s) = some s.pending := by
  simp [execXBltu]
@[simp] theorem pend_execXBgeu (t : TileId) (rs1 : SReg) (rs2 : SReg) (off : BitVec 13) (s : State) : queueOf (execXBgeu t rs1 rs2 off s) = some s.pending := by
  simp [execXBgeu]
@[simp] theorem pend_execXBpany (t : TileId) (p : PReg) (off : BitVec 13) (s : State) : queueOf (execXBpany t p off s) = some s.pending := by
  simp [execXBpany]
@[simp] theorem pend_execXBpnone (t : TileId) (p : PReg) (off : BitVec 13) (s : State) : queueOf (execXBpnone t p off s) = some s.pending := by
  simp [execXBpnone]
@[simp] theorem pend_execXJal (t : TileId) (rd : SReg) (off : BitVec 21) (s : State) : queueOf (execXJal t rd off s) = some s.pending := by
  simp [execXJal]
@[simp] theorem pend_execXJalr (t : TileId) (rd : SReg) (rs1 : SReg) (imm : BitVec 12) (s : State) : queueOf (execXJalr t rd rs1 imm s) = some s.pending := by
  simp [execXJalr]
@[simp] theorem pend_xCsrR (t : TileId) (rd : SReg) (rs1 : SReg) (imm : BitVec 12) (n : Nat) (s : State) : queueOf (xCsrR t rd rs1 imm n s) = some s.pending := by
  simp [xCsrR]
@[simp] theorem pend_spoilSems (t : TileId) (o : Nat) (n : Nat) (busy : PairIdx → Bool) (s : State) : (spoilSems t o n busy s).pending = s.pending := by
  simp [spoilSems]
@[simp] theorem pend_xCsrW (t : TileId) (rd : SReg) (rs1 : SReg) (imm : BitVec 12) (n : Nat) (s : State) : queueOf (xCsrW t rd rs1 imm n s) = some s.pending := by
  simp [xCsrW]
@[simp] theorem pend_execXCsrrW (t : TileId) (rd : SReg) (rs1 : SReg) (imm : BitVec 12) (s : State) : queueOf (execXCsrrW t rd rs1 imm s) = some s.pending := by
  simp [execXCsrrW]
@[simp] theorem pend_execXCsrwW (t : TileId) (rd : SReg) (rs1 : SReg) (imm : BitVec 12) (s : State) : queueOf (execXCsrwW t rd rs1 imm s) = some s.pending := by
  simp [execXCsrwW]
@[simp] theorem pend_execXCsrrD (t : TileId) (rd : SReg) (rs1 : SReg) (imm : BitVec 12) (s : State) : queueOf (execXCsrrD t rd rs1 imm s) = some s.pending := by
  simp [execXCsrrD]
@[simp] theorem pend_execXCsrwD (t : TileId) (rd : SReg) (rs1 : SReg) (imm : BitVec 12) (s : State) : queueOf (execXCsrwD t rd rs1 imm s) = some s.pending := by
  simp [execXCsrwD]
@[simp] theorem pend_execXNop (t : TileId) (s : State) : queueOf (execXNop t s) = some s.pending := by
  simp [execXNop]
@[simp] theorem pend_execXIflush (t : TileId) (s : State) : queueOf (execXIflush t s) = some s.pending := by
  simp [execXIflush]
@[simp] theorem pend_execXBrk (t : TileId) (s : State) : queueOf (execXBrk t s) = some s.pending := by
  simp [execXBrk]
@[simp] theorem pend_execXFence (t : TileId) (s : State) : queueOf (execXFence t s) = some s.pending := by
  simp [execXFence]
@[simp] theorem pend_execXFenceE (t : TileId) (s : State) : queueOf (execXFenceE t s) = some s.pending := by
  simp [execXFenceE]
@[simp] theorem pend_execXEnd (t : TileId) (s : State) : queueOf (execXEnd t s) = some s.pending := by
  simp [execXEnd]
@[simp] theorem pend_execXLi (t : TileId) (rt : SReg) (imm : BitVec 32) (s : State) : queueOf (execXLi t rt imm s) = some s.pending := by
  simp [execXLi]
@[simp] theorem pend_execXLih (t : TileId) (rt : SReg) (imm : BitVec 32) (s : State) : queueOf (execXLih t rt imm s) = some s.pending := by
  simp [execXLih]
@[simp] theorem pend_execXAddi32 (t : TileId) (rt : SReg) (rs : SReg) (imm : BitVec 32) (s : State) : queueOf (execXAddi32 t rt rs imm s) = some s.pending := by
  simp [execXAddi32]
@[simp] theorem pend_execXDld (t : TileId) (da : DReg) (rs : SReg) (imm : BitVec 32) (s : State) :
    queueOf (execXDld t da rs imm s) = some s.pending := by
  rw [execXDld, xRun8, queueOf_next, pend_xIssue]
  intro s
  have h := pend_xLoad t (dAddr s t rs imm) (List.range 64) (.desc da) s (t' := t) (len := 8)
  generalize xLoad t (dAddr s t rs imm) (List.range 64) (.desc da) s = r at *
  cases r <;> simp_all
@[simp] theorem pend_execXDst (t : TileId) (da : DReg) (rs : SReg) (imm : BitVec 32) (s : State) : queueOf (execXDst t da rs imm s) = some s.pending := by
  simp [execXDst]
@[simp] theorem pend_execXDins (t : TileId) (da : DReg) (rt : SReg) (fld : BitVec 3) (s : State) : queueOf (execXDins t da rt fld s) = some s.pending := by
  simp [execXDins]
@[simp] theorem pend_execXDext (t : TileId) (da : DReg) (rt : SReg) (fld : BitVec 3) (s : State) : queueOf (execXDext t da rt fld s) = some s.pending := by
  simp [execXDext]
@[simp] theorem pend_execXDmov (t : TileId) (da : DReg) (db : DReg) (s : State) : queueOf (execXDmov t da db s) = some s.pending := by
  simp [execXDmov]
@[simp] theorem pend_execXSacq (t : TileId) (rs : SReg) (imm : BitVec 11) (n : SemIdx) (s : State) : queueOf (execXSacq t rs imm n s) = some s.pending := by
  simp [execXSacq]
@[simp] theorem pend_execXSpost (t : TileId) (rs : SReg) (imm : BitVec 11) (n : SemIdx) (s : State) : queueOf (execXSpost t rs imm n s) = some s.pending := by
  simp [execXSpost]
@[simp] theorem pend_execXSset (t : TileId) (rs : SReg) (imm : BitVec 11) (n : SemIdx) (s : State) : queueOf (execXSset t rs imm n s) = some s.pending := by
  simp [execXSset]
@[simp] theorem pend_execXSrd (t : TileId) (rs : SReg) (n : SemIdx) (s : State) : queueOf (execXSrd t rs n s) = some s.pending := by
  simp [execXSrd]
@[simp] theorem pend_execXStry (t : TileId) (rs : SReg) (imm : BitVec 11) (n : SemIdx) (s : State) : queueOf (execXStry t rs imm n s) = some s.pending := by
  simp [execXStry]
@[simp] theorem pend_execXWopen (t : TileId) (rs : SReg) (w : WinIdx) (s : State) : queueOf (execXWopen t rs w s) = some s.pending := by
  simp [execXWopen]
@[simp] theorem pend_execXWclose (t : TileId) (w : WinIdx) (s : State) : queueOf (execXWclose t w s) = some s.pending := by
  simp [execXWclose]
@[simp] theorem pend_execXWwait (t : TileId) (rs : SReg) (imm : BitVec 11) (w : WinIdx) (s : State) : queueOf (execXWwait t rs imm w s) = some s.pending := by
  simp [execXWwait]
@[simp] theorem pend_execXWcnt (t : TileId) (rs : SReg) (w : WinIdx) (s : State) : queueOf (execXWcnt t rs w s) = some s.pending := by
  simp [execXWcnt]
@[simp] theorem pend_execXRpost (t : TileId) (rs : SReg) (rt : SReg) (treg : Bool) (tile : TileId) (count : BitVec 16) (n : SemIdx) (s : State) : queueOf (execXRpost t rs rt treg tile count n s) = some s.pending := by
  simp [execXRpost]
@[simp] theorem pend_execXEwaitCe (t : TileId) (n : BitVec 4) (s : State) : queueOf (execXEwaitCe t n s) = some s.pending := by
  simp [execXEwaitCe]
@[simp] theorem pend_execXEwaitGme (t : TileId) (n : BitVec 4) (s : State) : queueOf (execXEwaitGme t n s) = some s.pending := by
  simp [execXEwaitGme]
@[simp] theorem pend_execXEstat (t : TileId) (rs : SReg) (s : State) : queueOf (execXEstat t rs s) = some s.pending := by
  simp [execXEstat]
@[simp] theorem pend_execXLhint (t : TileId) (cls : BitVec 2) (s : State) : queueOf (execXLhint t cls s) = some s.pending := by
  simp [execXLhint]
@[simp] theorem pend_xEngine (t : TileId) (op : EngOp) (isCe : Bool) (da : DReg) (db : DReg) (dc : DReg) (s0 : SReg) (s1 : SReg) (imm : EngImm) (s : State) : queueOf (xEngine t op isCe da db dc s0 s1 imm s) = some s.pending := by
  simp [xEngine]
@[simp] theorem pend_execCeMm (t : TileId) (da : DReg) (db : DReg) (dc : DReg) (imm : EngImm) (s : State) : queueOf (execCeMm t da db dc imm s) = some s.pending := by
  simp [execCeMm]
@[simp] theorem pend_execCeGrouped (t : TileId) (da : DReg) (rs : SReg) (rt : SReg) (imm : EngImm) (s : State) : queueOf (execCeGrouped t da rs rt imm s) = some s.pending := by
  simp [execCeGrouped]
@[simp] theorem pend_execGmeGather (t : TileId) (da : DReg) (db : DReg) (dc : DReg) (imm : EngImm) (s : State) : queueOf (execGmeGather t da db dc imm s) = some s.pending := by
  simp [execGmeGather]
@[simp] theorem pend_execGmeSegred (t : TileId) (da : DReg) (db : DReg) (dc : DReg) (imm : EngImm) (s : State) : queueOf (execGmeSegred t da db dc imm s) = some s.pending := by
  simp [execGmeSegred]
@[simp] theorem pend_execGmeMerge (t : TileId) (da : DReg) (db : DReg) (dc : DReg) (imm : EngImm) (s : State) : queueOf (execGmeMerge t da db dc imm s) = some s.pending := by
  simp [execGmeMerge]
@[simp] theorem pend_execGmeScatter (t : TileId) (da : DReg) (db : DReg) (dc : DReg) (imm : EngImm) (s : State) : queueOf (execGmeScatter t da db dc imm s) = some s.pending := by
  simp [execGmeScatter]
@[simp] theorem pend_execTopk (t : TileId) (da : DReg) (db : DReg) (dc : DReg) (imm : EngImm) (s : State) : queueOf (execTopk t da db dc imm s) = some s.pending := by
  simp [execTopk]
@[simp] theorem pend_execBucket (t : TileId) (da : DReg) (db : DReg) (dc : DReg) (imm : EngImm) (s : State) : queueOf (execBucket t da db dc imm s) = some s.pending := by
  simp [execBucket]
@[simp] theorem pend_execCut (t : TileId) (da : DReg) (db : DReg) (dc : DReg) (imm : EngImm) (s : State) : queueOf (execCut t da db dc imm s) = some s.pending := by
  simp [execCut]
@[simp] theorem pend_execPlace (t : TileId) (da : DReg) (db : DReg) (dc : DReg) (imm : EngImm) (s : State) : queueOf (execPlace t da db dc imm s) = some s.pending := by
  simp [execPlace]
@[simp] theorem pend_execJoin (t : TileId) (da : DReg) (db : DReg) (dc : DReg) (imm : EngImm) (s : State) : queueOf (execJoin t da db dc imm s) = some s.pending := by
  simp [execJoin]
@[simp] theorem pend_execXSstat (t : TileId) (rs : SReg) (sl : SlotIdx) (s : State) : queueOf (execXSstat t rs sl s) = some s.pending := by
  simp [execXSstat]
@[simp] theorem pend_execXSwait (t : TileId) (rs : SReg) (imm : BitVec 11) (sl : SlotIdx) (s : State) : queueOf (execXSwait t rs imm sl s) = some s.pending := by
  simp [execXSwait]

/-! Stream -/

@[simp] theorem pend_wrG (t : TileId) (r : GReg) (v : Word) (s : State) : (wrG t r v s).pending = s.pending := by
  simp [wrG]
@[simp] theorem pend_recordFFault (t : TileId) (v : Nat) (s : State) : (recordFFault t v s).pending = s.pending := by
  simp [recordFFault]
@[simp] theorem pend_fFault (t : TileId) (st : Status) (va : Nat) (illegal : Bool) (s : State) : (fFault t st va illegal s).pending = s.pending := by
  simp [fFault]
@[simp] theorem pend_fRetire (t : TileId) (pc : Nat) (s : State) : (fRetire t pc s).pending = s.pending := by
  simp [fRetire]
@[simp] theorem pend_fBlock (t : TileId) (obj : Nat) (kind : Nat) (w : FWait) (s : State) : (fBlock t obj kind w s).pending = s.pending := by
  simp [fBlock]
@[simp] theorem pend_fFinish_retire (t : TileId) (s : State) : (fFinish t (.retire s)).pending = s.pending := by
  simp [fFinish]
@[simp] theorem pend_fFinish_jump (t : TileId) (pc : Nat) (s : State) : (fFinish t (.jump pc s)).pending = s.pending := by
  simp [fFinish]
@[simp] theorem pend_fFinish_wait (t : TileId) (obj kind : Nat) (w : FWait) (s : State) : (fFinish t (.wait obj kind w s)).pending = s.pending := by
  simp [fFinish]
@[simp] theorem pend_fFinish_pend (t : TileId) (s : State) : (fFinish t (.pend s)).pending = s.pending := by
  simp [fFinish]
@[simp] theorem pend_fFinish_fault (t : TileId) (st : Status) (va : Nat) (s : State) : (fFinish t (.fault st va s)).pending = s.pending := by
  simp [fFinish]
@[simp] theorem fFinish_ite (t : TileId) (c : Prop) [Decidable c] (a b : FOut) :
    fFinish t (if c then a else b) = if c then fFinish t a else fFinish t b := by split <;> rfl
@[simp] theorem pend_fIssue (t : TileId) (body : State → FOut) (s : State)
    (hb : ∀ s, (fFinish t (body s)).pending = s.pending) : (fIssue t body s).pending = s.pending := by
  simp only [fIssue]
  repeat' split
  all_goals (try simp [hb])
  all_goals exact pend_eq2 (by assumption) (by simp)
@[simp] theorem pend_fRun (t : TileId) (body : State → FOut) (s : State) (hbody : ∀ (t' : TileId) (y0 : State), (fFinish t' (body y0)).pending = y0.pending) : queueOf (fRun t body s) = some s.pending := by
  simp [fRun, hbody]
@[simp] theorem pend_fSetG (t : TileId) (gd : GReg) (f : State → Word) (s : State) : queueOf (fSetG t gd f s) = some s.pending := by
  simp [fSetG]
@[simp] theorem pend_execFNop (t : TileId) (s : State) : queueOf (execFNop t s) = some s.pending := by
  simp [execFNop]
@[simp] theorem pend_execFAdd (t : TileId) (gd : GReg) (ga : GReg) (gb : GReg) (s : State) : queueOf (execFAdd t gd ga gb s) = some s.pending := by
  simp [execFAdd]
@[simp] theorem pend_execFSub (t : TileId) (gd : GReg) (ga : GReg) (gb : GReg) (s : State) : queueOf (execFSub t gd ga gb s) = some s.pending := by
  simp [execFSub]
@[simp] theorem pend_execFMul (t : TileId) (gd : GReg) (ga : GReg) (gb : GReg) (s : State) : queueOf (execFMul t gd ga gb s) = some s.pending := by
  simp [execFMul]
@[simp] theorem pend_execFAddi (t : TileId) (gd : GReg) (ga : GReg) (imm : BitVec 14) (s : State) : queueOf (execFAddi t gd ga imm s) = some s.pending := by
  simp [execFAddi]
@[simp] theorem pend_execFSlli (t : TileId) (gd : GReg) (ga : GReg) (sh : BitVec 6) (s : State) : queueOf (execFSlli t gd ga sh s) = some s.pending := by
  simp [execFSlli]
@[simp] theorem pend_execFSrli (t : TileId) (gd : GReg) (ga : GReg) (sh : BitVec 6) (s : State) : queueOf (execFSrli t gd ga sh s) = some s.pending := by
  simp [execFSrli]
@[simp] theorem pend_execFOri (t : TileId) (gd : GReg) (ga : GReg) (imm : BitVec 14) (s : State) : queueOf (execFOri t gd ga imm s) = some s.pending := by
  simp [execFOri]
@[simp] theorem pend_execFAndi (t : TileId) (gd : GReg) (ga : GReg) (imm : BitVec 14) (s : State) : queueOf (execFAndi t gd ga imm s) = some s.pending := by
  simp [execFAndi]
@[simp] theorem pend_execFLd (t : TileId) (gd : GReg) (ga : GReg) (imm : BitVec 14) (s : State) : queueOf (execFLd t gd ga imm s) = some s.pending := by
  simp only [execFLd, xRun, xRun8, fRun, queueOf_next, Option.some.injEq]
  refine pend_fIssue _ _ _ (fun s => ?_)
  repeat' (first | (with_reducible split) | dsimp only)
  all_goals (repeat' (first | simp | (refine pend_eq2 (by assumption) ?_) | (refine pend_eq3 (by assumption) ?_) | (refine pend_eq4 (by assumption) ?_) | with_reducible split))
@[simp] theorem pend_execFSt (t : TileId) (ga : GReg) (gb : GReg) (imm : BitVec 14) (s : State) : queueOf (execFSt t ga gb imm s) = some s.pending := by
  simp only [execFSt, xRun, xRun8, fRun, queueOf_next, Option.some.injEq]
  refine pend_fIssue _ _ _ (fun s => ?_)
  repeat' (first | (with_reducible split) | dsimp only)
  all_goals (repeat' (first | simp | (refine pend_eq2 (by assumption) ?_) | (refine pend_eq3 (by assumption) ?_) | (refine pend_eq4 (by assumption) ?_) | with_reducible split))
@[simp] theorem pend_fBranch (t : TileId) (ga : GReg) (gb : GReg) (imm : BitVec 14) (f : Word → Word → Bool) (s : State) : queueOf (fBranch t ga gb imm f s) = some s.pending := by
  simp [fBranch]
@[simp] theorem pend_execFBeq (t : TileId) (ga : GReg) (gb : GReg) (imm : BitVec 14) (s : State) : queueOf (execFBeq t ga gb imm s) = some s.pending := by
  simp [execFBeq]
@[simp] theorem pend_execFBne (t : TileId) (ga : GReg) (gb : GReg) (imm : BitVec 14) (s : State) : queueOf (execFBne t ga gb imm s) = some s.pending := by
  simp [execFBne]
@[simp] theorem pend_execFBlt (t : TileId) (ga : GReg) (gb : GReg) (imm : BitVec 14) (s : State) : queueOf (execFBlt t ga gb imm s) = some s.pending := by
  simp [execFBlt]
@[simp] theorem pend_execFBltu (t : TileId) (ga : GReg) (gb : GReg) (imm : BitVec 14) (s : State) : queueOf (execFBltu t ga gb imm s) = some s.pending := by
  simp [execFBltu]
@[simp] theorem pend_fEndRetire (t : TileId) (s : State) : (fEndRetire t s).pending = s.pending := by
  simp [fEndRetire]
@[simp] theorem pend_execFEnd (t : TileId) (s : State) : queueOf (execFEnd t s) = some s.pending := by
  simp [execFEnd]
@[simp] theorem pend_execFSjoin (t : TileId) (sl : SlotIdx) (s : State) : queueOf (execFSjoin t sl s) = some s.pending := by
  simp [execFSjoin]
@[simp] theorem pend_execFSacq (t : TileId) (ga : GReg) (cnt : BitVec 8) (n : SemIdx) (s : State) : queueOf (execFSacq t ga cnt n s) = some s.pending := by
  simp [execFSacq]
@[simp] theorem pend_execFSpost (t : TileId) (ga : GReg) (cnt : BitVec 8) (n : SemIdx) (s : State) : queueOf (execFSpost t ga cnt n s) = some s.pending := by
  simp [execFSpost]
@[simp] theorem pend_execFStat (t : TileId) (gd : GReg) (sl : SlotIdx) (s : State) : queueOf (execFStat t gd sl s) = some s.pending := by
  simp [execFStat]
@[simp] theorem pend_slotOpen (t : TileId) (sl : SlotIdx) (va : Nat) (s : State) : (slotOpen t sl va s).pending = s.pending := by
  simp [slotOpen]
@[simp] theorem pend_execFSopen (t : TileId) (ga : GReg) (sl : SlotIdx) (s : State) : queueOf (execFSopen t ga sl s) = some s.pending := by
  simp [execFSopen]
@[simp] theorem pend_fWake (t : TileId) (s : State) : (fWake t s).pending = s.pending := by
  simp only [fWake]
  repeat' split
  all_goals simp_all
@[simp] theorem pend_execAcquireGrant (t : TileId) (n : SemIdx) (s : State) : queueOf (execAcquireGrant t n s) = some s.pending := by
  simp [execAcquireGrant]
@[simp] theorem pend_modSlot (s : State) (t : TileId) (sl : SlotIdx) (f : Slot → Slot) : (State.modSlot s t sl f).pending = s.pending := by
  simp [State.modSlot]
@[simp] theorem pend_streamReport (t : TileId) (sl : SlotIdx) (st : Status) (va : Nat) (s : State) : (streamReport t sl st va s).pending = s.pending := by
  simp [streamReport]
@[simp] theorem pend_slotRefuse (t : TileId) (sl : SlotIdx) (s : State) : (slotRefuse t sl s).pending = s.pending := by
  simp [slotRefuse]
@[simp] theorem pend_slotZero (t : TileId) (sl : SlotIdx) (s : State) : (slotZero t sl s).pending = s.pending := by
  simp [slotZero]
@[simp] theorem pend_setPair (t : TileId) (sl : SlotIdx) (d : DWord) (s : State) : (setPair t sl d s).pending = s.pending := by
  simp [setPair]
@[simp] theorem pend_slotAccept (t : TileId) (sl : SlotIdx) (d : DWord) (tw : DWord) (s : State) : (slotAccept t sl d tw s).pending = s.pending := by
  simp [slotAccept]
@[simp] theorem pend_execStreamAccept (t : TileId) (sl : SlotIdx) (env : EngEnv) (s : State) : queueOf (execStreamAccept t sl env s) = some s.pending := by
  rw [execStreamAccept]
  repeat' (first | (with_reducible split) | dsimp only)
  all_goals (repeat' (first | simp | (refine pend_eq2 (by assumption) ?_) | (refine pend_eq3 (by assumption) ?_) | (refine pend_eq4 (by assumption) ?_) | (rw [pend_foldl _ (fun s x => ?_)]) | with_reducible split))
@[simp] theorem pend_ringRead (t : TileId) (offs : List Nat) (s : State) : (ringRead t offs s).2.2.pending = s.pending := by
  simp [ringRead]
@[simp] theorem pend_ringWrite (t : TileId) (cells : List (Nat × Byte)) (s : State) : (ringWrite t cells s).2.pending = s.pending := by
  simp [ringWrite]
@[simp] theorem pend_ringLand (t : TileId) (cells : List (Nat × Byte)) (s : State) : (ringLand t cells s).2.pending = s.pending := by
  simp [ringLand]
@[simp] theorem pend_bufFault (t : TileId) (sl : SlotIdx) (b : Nat) (st : Status) (va : Nat) (s : State) : (bufFault t sl b st va s).pending = s.pending := by
  simp [bufFault]
@[simp] theorem pend_remoteFull (t : TileId) (sl : SlotIdx) (d : DWord) (s : State) : (remoteFull t sl d s).pending = s.pending := by
  simp [remoteFull]
@[simp] theorem pend_endPosts (t : TileId) (sl : SlotIdx) (s : State) : (endPosts t sl s).pending = s.pending := by
  simp [endPosts]
@[simp] theorem pend_postHead (t : TileId) (sl : SlotIdx) (s : State) : (postHead t sl s).pending = s.pending := by
  simp only [postHead]
  repeat' split
  all_goals (try simp)
  all_goals (repeat (first | (refine pend_eq2 (by assumption) ?_; try simp) | (refine pend_eq3 (by assumption) ?_; try simp)))
@[simp] theorem pend_postHeads (x0 : Nat) (x1 : TileId) (x2 : SlotIdx) (s : State) : (postHeads x0 x1 x2 s).pending = s.pending := by
  induction x0 generalizing x1 x2 s with
  | zero => simp [postHeads]
  | succ k ih =>
    simp only [postHeads]
    repeat' split
    all_goals (try simp [*])
    all_goals (repeat (first | (refine pend_eq2 (by assumption) ?_; try simp [ih]) | (refine pend_eq3 (by assumption) ?_; try simp [ih])))
@[simp] theorem pend_landBuf (t : TileId) (sl : SlotIdx) (b : Nat) (s : State) : (landBuf t sl b s).pending = s.pending := by
  simp only [landBuf]
  repeat' split
  all_goals (try simp)
  all_goals (repeat (first | (refine pend_eq2 (by assumption) ?_; try simp) | (refine pend_eq3 (by assumption) ?_; try simp)))
@[simp] theorem pend_slotAcquire (t : TileId) (sl : SlotIdx) (n : SemIdx) (idx : Bool) (s : State) : (slotAcquire t sl n idx s).pending = s.pending := by
  simp [slotAcquire]
@[simp] theorem pend_unitDone (t : TileId) (sl : SlotIdx) (s : State) : (unitDone t sl s).pending = s.pending := by
  simp only [unitDone]
  repeat' split
  all_goals (try simp)
  all_goals (repeat (first | (refine pend_eq2 (by assumption) ?_; try simp) | (refine pend_eq3 (by assumption) ?_; try simp)))
@[simp] theorem pend_pastHeld (t : TileId) (sl : SlotIdx) (f : State → State) (s : State) (hf : ∀ (y0 : State), (f y0).pending = y0.pending) : (pastHeld t sl f s).pending = s.pending := by
  simp [pastHeld, hf]
@[simp] theorem pend_issueLine (t : TileId) (sl : SlotIdx) (q : Slot) (g : List (Nat × Nat)) (data : List Byte) (s : State) : (issueLine t sl q g data s).pending = s.pending := by
  rw [issueLine]
  repeat' (first | (with_reducible split) | dsimp only)
  all_goals (repeat' (first | simp | (refine pend_eq2 (by assumption) ?_) | (refine pend_eq3 (by assumption) ?_) | (refine pend_eq4 (by assumption) ?_) | (rw [pend_foldl _ (fun s x => ?_)]) | with_reducible split))
@[simp] theorem pend_slotUnit (t : TileId) (sl : SlotIdx) (x : Nat) (isNull : Bool) (s : State) : (slotUnit t sl x isNull s).pending = s.pending := by
  rw [slotUnit]
  repeat' (first | (with_reducible split) | dsimp only)
  all_goals (repeat' (first | simp | (refine pend_eq2 (by assumption) ?_) | (refine pend_eq3 (by assumption) ?_) | (refine pend_eq4 (by assumption) ?_) | (rw [pend_foldl _ (fun s x => ?_)]) | with_reducible split))
@[simp] theorem pend_slotStep (t : TileId) (sl : SlotIdx) (s : State) : (slotStep t sl s).pending = s.pending := by
  rw [slotStep]
  repeat' (first | (with_reducible split) | dsimp only)
  all_goals (repeat' (first | simp | (refine pend_eq2 (by assumption) ?_) | (refine pend_eq3 (by assumption) ?_) | (refine pend_eq4 (by assumption) ?_) | (rw [pend_foldl _ (fun s x => ?_)]) | with_reducible split))
@[simp] theorem pend_execStreamTransferIssue (t : TileId) (sl : SlotIdx) (s : State) : queueOf (execStreamTransferIssue t sl s) = some s.pending := by
  rw [execStreamTransferIssue]
  repeat' (first | (with_reducible split) | dsimp only)
  all_goals (repeat' (first | simp | (refine pend_eq2 (by assumption) ?_) | (refine pend_eq3 (by assumption) ?_) | (refine pend_eq4 (by assumption) ?_) | (rw [pend_foldl _ (fun s x => ?_)]) | with_reducible split))
@[simp] theorem pend_dropXfer (t : TileId) (id : Nat) (s : State) : (dropXfer t id s).pending = s.pending := by
  simp [dropXfer]
@[simp] theorem pend_xferLand (t : TileId) (x : Xfer) (st : Status) (data : List Byte) (s : State) : (xferLand t x st data s).pending = s.pending := by
  simp [xferLand]
@[simp] theorem pend_xferServe (bad : Bool) (x : Xfer) (s : State) : (xferServe bad x s).2.2.pending = s.pending := by
  simp [xferServe]
@[simp] theorem pend_execTransferReply (t : TileId) (id : Nat) (bad : Bool) (s : State) : queueOf (execTransferReply t id bad s) = some s.pending := by
  simp only [execTransferReply]
  repeat' (first | (simp; done) | dsimp only | split | (refine (pend_emBind _ _ (fun a s => ?_)).trans ?_) | (refine (pend_emMap _ (fun a s => ?_) _ _).trans ?_) | (refine (pend_foldl _ (fun s x => ?_) _ _).trans ?_) | (refine (pend_foldl2 _ (fun r x => ?_) _ _).trans ?_) | (refine pend_eq2 (by assumption) ?_) | (refine pend_eq3 (by assumption) ?_))
@[simp] theorem pend_execTransferTimeout (t : TileId) (id : Nat) (s : State) : queueOf (execTransferTimeout t id s) = some s.pending := by
  simp only [execTransferTimeout]
  repeat' (first | (simp; done) | dsimp only | split | (refine (pend_emBind _ _ (fun a s => ?_)).trans ?_) | (refine (pend_emMap _ (fun a s => ?_) _ _).trans ?_) | (refine (pend_foldl _ (fun s x => ?_) _ _).trans ?_) | (refine (pend_foldl2 _ (fun r x => ?_) _ _).trans ?_) | (refine pend_eq2 (by assumption) ?_) | (refine pend_eq3 (by assumption) ?_))
@[simp] theorem pend_execProgressTimeout (t : TileId) (s : State) : queueOf (execProgressTimeout t s) = some s.pending := by
  simp only [execProgressTimeout]
  repeat' (first | (simp; done) | dsimp only | split | (refine (pend_emBind _ _ (fun a s => ?_)).trans ?_) | (refine (pend_emMap _ (fun a s => ?_) _ _).trans ?_) | (refine (pend_foldl _ (fun s x => ?_) _ _).trans ?_) | (refine (pend_foldl2 _ (fun r x => ?_) _ _).trans ?_) | (refine pend_eq2 (by assumption) ?_) | (refine pend_eq3 (by assumption) ?_))
@[simp] theorem pend_restoreSnap (t : TileId) (sl : SlotIdx) (s : State) : (restoreSnap t sl s).pending = s.pending := by
  simp [restoreSnap]
@[simp] theorem pend_execStreamAbortComplete (t : TileId) (sl : SlotIdx) (s : State) : queueOf (execStreamAbortComplete t sl s) = some s.pending := by
  simp [execStreamAbortComplete]
@[simp] theorem pend_heldFaults (t : TileId) (sl : SlotIdx) (s : State) : (heldFaults t sl s).pending = s.pending := by
  simp only [heldFaults]
  repeat' split
  all_goals simp_all
@[simp] theorem pend_slotCommit (t : TileId) (sl : SlotIdx) (n : Nat) (s : State) : (slotCommit t sl n s).pending = s.pending := by
  simp only [slotCommit]
  repeat' split
  all_goals (try simp)
  all_goals (repeat (first | (refine pend_eq2 (by assumption) ?_; try simp) | (refine pend_eq3 (by assumption) ?_; try simp)))
@[simp] theorem pend_execXScommit (t : TileId) (rs : SReg) (imm : BitVec 11) (sl : SlotIdx) (s : State) : queueOf (execXScommit t rs imm sl s) = some s.pending := by
  simp [execXScommit]
@[simp] theorem pend_slotAfterCancel (t : TileId) (sl : SlotIdx) (s : State) : (slotAfterCancel t sl s).pending = s.pending := by
  simp [slotAfterCancel]
@[simp] theorem pend_endIndexStream (t : TileId) (sl : SlotIdx) (s : State) : (endIndexStream t sl s).pending = s.pending := by
  simp [endIndexStream]
@[simp] theorem pend_slotCancel (t : TileId) (sl : SlotIdx) (n : Nat) (s : State) : (slotCancel t sl n s).pending = s.pending := by
  simp [slotCancel]
@[simp] theorem pend_execXScancel (t : TileId) (rs : SReg) (imm : BitVec 11) (sl : SlotIdx) (s : State) : queueOf (execXScancel t rs imm sl s) = some s.pending := by
  simp [execXScancel]
@[simp] theorem pend_execCancelComplete (t : TileId) (sl : SlotIdx) (s : State) : queueOf (execCancelComplete t sl s) = some s.pending := by
  simp [execCancelComplete]

/-! Mesh -/

@[simp] theorem pend_writeReply (t : TileId) (pc : Nat) (va : Nat) (seq : Nat) (st : Status) (s : State) : (writeReply t pc va seq st s).pending = s.pending := by
  simp [writeReply]
@[simp] theorem pend_leftReply (t : TileId) (seq : Option Nat) (st : Status) (s : State) : (leftReply t seq st s).pending = s.pending := by
  simp only [leftReply]
  repeat' (first | (simp; done) | dsimp only | split | (refine (pend_emBind _ _ (fun a s => ?_)).trans ?_) | (refine (pend_emMap _ (fun a s => ?_) _ _).trans ?_) | (refine (pend_foldl _ (fun s x => ?_) _ _).trans ?_) | (refine (pend_foldl2 _ (fun r x => ?_) _ _).trans ?_) | (refine pend_eq2 (by assumption) ?_) | (refine pend_eq3 (by assumption) ?_))
@[simp] theorem pend_loadReply (t : TileId) (part : Nat) (va : Nat) (st : Status) (data : List Byte) (s : State) : (loadReply t part va st data s).pending = s.pending := by
  simp only [loadReply]
  repeat' split
  all_goals simp_all
@[simp] theorem pend_fLoadReply (t : TileId) (va : Nat) (st : Status) (data : List Byte) (s : State) : (fLoadReply t va st data s).pending = s.pending := by
  simp only [fLoadReply]
  repeat' split
  all_goals simp_all
@[simp] theorem pend_fWriteReply (t : TileId) (va : Nat) (st : Status) (s : State) : (fWriteReply t va st s).pending = s.pending := by
  simp [fWriteReply]
@[simp] theorem pend_slotPostReply (t : TileId) (sl : SlotIdx) (seq : Nat) (st : Status) (s : State) : (slotPostReply t sl seq st s).pending = s.pending := by
  simp [slotPostReply]
@[simp] theorem pend_answerPacket (src : Nat) (d : DevId) (unit : Nat) (tag : Nat) (sub : Nat) (st : Status) (data : List Byte) (s : State) : (answerPacket src d unit tag sub st data s).pending = s.pending := by
  simp [answerPacket]
@[simp] theorem pend_deliver (id : Nat) (x : Txn) (st : Status) (data : List Byte) (s : State) : (deliver id x st data s).pending = s.pending := by
  simp only [deliver]
  repeat' (first | (simp; done) | dsimp only | split | (refine (pend_emBind _ _ (fun a s => ?_)).trans ?_) | (refine (pend_emMap _ (fun a s => ?_) _ _).trans ?_) | (refine (pend_foldl _ (fun s x => ?_) _ _).trans ?_) | (refine (pend_foldl2 _ (fun r x => ?_) _ _).trans ?_) | (refine pend_eq2 (by assumption) ?_) | (refine pend_eq3 (by assumption) ?_))
@[simp] theorem pend_takeReply (id : Nat) (x : Txn) (st : Status) (data : List Byte) (s : State) : (takeReply id x st data s).pending = s.pending := by
  simp only [takeReply]
  repeat' (first | (simp; done) | dsimp only | split | (refine (pend_emBind _ _ (fun a s => ?_)).trans ?_) | (refine (pend_emMap _ (fun a s => ?_) _ _).trans ?_) | (refine (pend_foldl _ (fun s x => ?_) _ _).trans ?_) | (refine (pend_foldl2 _ (fun r x => ?_) _ _).trans ?_) | (refine pend_eq2 (by assumption) ?_) | (refine pend_eq3 (by assumption) ?_))
@[simp] theorem pend_execMeshReply (id : Nat) (bad : Bool) (s : State) : queueOf (execMeshReply id bad s) = some s.pending := by
  simp only [execMeshReply]
  repeat' (first | (simp; done) | dsimp only | split | (refine (pend_emBind _ _ (fun a s => ?_)).trans ?_) | (refine (pend_emMap _ (fun a s => ?_) _ _).trans ?_) | (refine (pend_foldl _ (fun s x => ?_) _ _).trans ?_) | (refine (pend_foldl2 _ (fun r x => ?_) _ _).trans ?_) | (refine pend_eq2 (by assumption) ?_) | (refine pend_eq3 (by assumption) ?_))
@[simp] theorem pend_execRetryResend (id : Nat) (s : State) : queueOf (execRetryResend id s) = some s.pending := by
  simp only [execRetryResend]
  repeat' (first | (simp; done) | dsimp only | split | (refine (pend_emBind _ _ (fun a s => ?_)).trans ?_) | (refine (pend_emMap _ (fun a s => ?_) _ _).trans ?_) | (refine (pend_foldl _ (fun s x => ?_) _ _).trans ?_) | (refine (pend_foldl2 _ (fun r x => ?_) _ _).trans ?_) | (refine pend_eq2 (by assumption) ?_) | (refine pend_eq3 (by assumption) ?_))
@[simp] theorem pend_execMeshTransactionTimeout (id : Nat) (s : State) : queueOf (execMeshTransactionTimeout id s) = some s.pending := by
  simp only [execMeshTransactionTimeout]
  repeat' (first | (simp; done) | dsimp only | split | (refine (pend_emBind _ _ (fun a s => ?_)).trans ?_) | (refine (pend_emMap _ (fun a s => ?_) _ _).trans ?_) | (refine (pend_foldl _ (fun s x => ?_) _ _).trans ?_) | (refine (pend_foldl2 _ (fun r x => ?_) _ _).trans ?_) | (refine pend_eq2 (by assumption) ?_) | (refine pend_eq3 (by assumption) ?_))

/-! Launch -/

@[simp] theorem pend_setQuad (t : TileId) (quad : Bool) (s : State) : (setQuad t quad s).pending = s.pending := by
  simp [setQuad]
@[simp] theorem pend_startTile (q : QIdx) (c : Cmd) (t : TileId) (s : State) : (startTile q c t s).pending = s.pending := by
  simp [startTile]
@[simp] theorem pend_execLaunch (q : QIdx) (seq : W32) (s : State) : queueOf (execLaunch q seq s) = some s.pending := by
  simp [execLaunch]
@[simp] theorem pend_cancelReqs (mine : RgnReq → Bool) (s : State) : (cancelReqs mine s).pending = s.pending := by
  simp [cancelReqs]
@[simp] theorem pend_cancelAcqs (q : QIdx) (seq : W32) (s : State) : (cancelAcqs q seq s).pending = s.pending := by
  simp [cancelAcqs]
@[simp] theorem pend_closeTile (q : QIdx) (seq : W32) (quad : Bool) (t : TileId) (s : State) : (closeTile q seq quad t s).pending = s.pending := by
  simp [closeTile]
@[simp] theorem pend_execLaunchComplete (q : QIdx) (seq : W32) (energy : BitVec 32) (kcc : BitVec 32) (dests : List Nat) (s : State) : queueOf (execLaunchComplete q seq energy kcc dests s) = some s.pending := by
  simp only [execLaunchComplete]
  repeat' (first | (simp; done) | dsimp only | split | (refine (pend_emBind _ _ (fun a s => ?_)).trans ?_) | (refine (pend_emMap _ (fun a s => ?_) _ _).trans ?_) | (refine (pend_foldl _ (fun s x => ?_) _ _).trans ?_) | (refine (pend_foldl2 _ (fun r x => ?_) _ _).trans ?_) | (refine pend_eq2 (by assumption) ?_) | (refine pend_eq3 (by assumption) ?_))
@[simp] theorem pend_abortLaunchAt (t : TileId) (s : State) : (abortLaunchAt t s).pending = s.pending := by
  simp only [abortLaunchAt]
  repeat' split
  all_goals simp_all
@[simp] theorem pend_drainTile (t : TileId) (s : State) : (drainTile t s).pending = s.pending := by
  simp only [drainTile]
  repeat' split
  all_goals simp_all
@[simp] theorem pend_abandonTile (t : TileId) (s : State) : (abandonTile t s).pending = s.pending := by
  simp [abandonTile]
@[simp] theorem pend_drainNow (t : TileId) (s : State) : (drainNow t s).pending = s.pending := by
  simp [drainNow]
@[simp] theorem pend_resetTile (t : TileId) (s : State) : (resetTile t s).pending = s.pending := by
  simp [resetTile]
@[simp] theorem pend_tileReset (t : TileId) (s : State) : (tileReset t s).pending = s.pending := by
  simp only [tileReset]
  repeat' split
  all_goals simp_all
@[simp] theorem pend_execTileReset (t : TileId) (s : State) : queueOf (execTileReset t s) = some s.pending := by
  simp [execTileReset]
@[simp] theorem pend_execTileResetDone (t : TileId) (s : State) : queueOf (execTileResetDone t s) = some s.pending := by
  simp [execTileResetDone]
@[simp] theorem pend_execCmdNop (q : QIdx) (seq : W32) (s : State) : queueOf (execCmdNop q seq s) = some s.pending := by
  simp [execCmdNop]
@[simp] theorem pend_execChain (q : QIdx) (seq : W32) (s : State) : queueOf (execChain q seq s) = some s.pending := by
  simp [execChain]
@[simp] theorem pend_execEventSignal (q : QIdx) (seq : W32) (s : State) : queueOf (execEventSignal q seq s) = some s.pending := by
  simp [execEventSignal]
@[simp] theorem pend_execEventWait (q : QIdx) (seq : W32) (s : State) : queueOf (execEventWait q seq s) = some s.pending := by
  simp [execEventWait]
@[simp] theorem pend_execEventWaitSatisfied (q : QIdx) (seq : W32) (s : State) : queueOf (execEventWaitSatisfied q seq s) = some s.pending := by
  simp only [execEventWaitSatisfied]
  repeat' (first | (simp; done) | dsimp only | split | (refine (pend_emBind _ _ (fun a s => ?_)).trans ?_) | (refine (pend_emMap _ (fun a s => ?_) _ _).trans ?_) | (refine (pend_foldl _ (fun s x => ?_) _ _).trans ?_) | (refine (pend_foldl2 _ (fun r x => ?_) _ _).trans ?_) | (refine pend_eq2 (by assumption) ?_) | (refine pend_eq3 (by assumption) ?_))
@[simp] theorem pend_undefineRange (space : Nat) (a : Nat) (n : Nat) (s : State) : (undefineRange space a n s).pending = s.pending := by
  simp [undefineRange]
@[simp] theorem pend_execCopy (q : QIdx) (seq : W32) (host : HostFault) (s : State) :
    queueOf (execCopy q seq host s) = some s.pending := by
  rw [execCopy, pend_runCmd]
  intro c s
  dsimp only
  with_reducible split
  · simp
  · generalize (if cF c 40 1 = 0 then host else HostFault.none) = h
    cases h <;> simp
@[simp] theorem pend_prefetch (q : QIdx) (seq : W32) (op : Nat) (act : Nat → State → State) (s : State) (hact : ∀ (y0 : Nat) (y1 : State), (act y0 y1).pending = y1.pending) : queueOf (prefetch q seq op act s) = some s.pending := by
  simp [prefetch, hact]
@[simp] theorem pend_execFetch (q : QIdx) (seq : W32) (s : State) : queueOf (execFetch q seq s) = some s.pending := by
  simp [execFetch]
@[simp] theorem pend_execEvict (q : QIdx) (seq : W32) (s : State) : queueOf (execEvict q seq s) = some s.pending := by
  simp [execEvict]
@[simp] theorem pend_execPin (q : QIdx) (seq : W32) (s : State) : queueOf (execPin q seq s) = some s.pending := by
  simp [execPin]
@[simp] theorem pend_execUnpin (q : QIdx) (seq : W32) (s : State) : queueOf (execUnpin q seq s) = some s.pending := by
  simp [execUnpin]

/-! Tensor -/

@[simp] theorem pend_readCellsBy (unit : Nat) (env : EngEnv) (who : Nat → TileId) (td : TDesc) (cs : List (Nat × Nat)) (x0 : List TileId) (x1 : List Byte) (s : State) : (readCellsBy unit env who td cs x0 x1 s).2.pending = s.pending := by
  induction x0 generalizing x1 s with
  | nil => simp [readCellsBy]
  | cons a l ih =>
    simp only [readCellsBy]
    repeat' split
    all_goals (try simp [*])
    all_goals (repeat (first | (refine pend_eq2 (by assumption) ?_; try simp [ih]) | (refine pend_eq3 (by assumption) ?_; try simp [ih])))
@[simp] theorem pend_readRowBy (tiles : List TileId) (unit : Nat) (env : EngEnv) (who : Nat → TileId) (td : TDesc) (row : Int) (stored : Bool) (s : State) : (readRowBy tiles unit env who td row stored s).2.pending = s.pending := by
  simp only [readRowBy]
  repeat' split
  all_goals (try simp)
  all_goals (repeat (first | (refine pend_eq2 (by assumption) ?_; try simp) | (refine pend_eq3 (by assumption) ?_; try simp)))
@[simp] theorem pend_readRow (t : TileId) (unit : Nat) (env : EngEnv) (td : TDesc) (row : Int) (stored : Bool) (s : State) : (readRow t unit env td row stored s).2.pending = s.pending := by
  simp only [readRow]
  repeat' split
  all_goals (try simp)
  all_goals (repeat (first | (refine pend_eq2 (by assumption) ?_; try simp) | (refine pend_eq3 (by assumption) ?_; try simp)))
@[simp] theorem pend_readRowsBy (tiles : List TileId) (unit : Nat) (env : EngEnv) (who : Nat → Nat → TileId) (td : TDesc) (i2 : Nat) (i3 : Nat) (x0 : List Nat) (s : State) : (readRowsBy tiles unit env who td i2 i3 x0 s).2.pending = s.pending := by
  induction x0 generalizing s with
  | nil => simp [readRowsBy]
  | cons a l ih =>
    simp only [readRowsBy]
    repeat' split
    all_goals (try simp [*])
    all_goals (repeat (first | (refine pend_eq2 (by assumption) ?_; try simp [ih]) | (refine pend_eq3 (by assumption) ?_; try simp [ih])))

/-! Collective -/

@[simp] theorem pend_setGState (g : Nat) (v : Nat) (s : State) : (setGState g v s).pending = s.pending := by
  simp [setGState]
@[simp] theorem pend_grpWrite (g : Nat) (k : Nat) (mask : Nat) (v : Nat) (s : State) : (grpWrite g k mask v s).pending = s.pending := by
  simp [grpWrite]
@[simp] theorem pend_execGroupDescriptorWrite (g : GroupId) (k : BitVec 3) (v : BitVec 64) (s : State) : queueOf (execGroupDescriptorWrite g k v s) = some s.pending := by
  simp [execGroupDescriptorWrite]
@[simp] theorem pend_updSegs (e : Nat) (s : State) : (updSegs e s).pending = s.pending := by
  simp [updSegs]
@[simp] theorem pend_sendNotice (dev : Nat) (sub : Nat) (g : Nat) (epoch : Nat) (seq : Nat) (st : Status) (s : State) : (sendNotice dev sub g epoch seq st s).pending = s.pending := by
  simp [sendNotice]
@[simp] theorem pend_segOwner (g : Seg) (st : Status) (va : Nat) (s : State) : (segOwner g st va s).pending = s.pending := by
  simp only [segOwner]
  repeat' split
  all_goals simp_all
@[simp] theorem pend_dropSeg (g : Seg) (s : State) : (dropSeg g s).pending = s.pending := by
  simp [dropSeg]
@[simp] theorem pend_setJobs (st : Nat) (l : List AblJob) (s : State) : (setJobs st l s).pending = s.pending := by
  simp [setJobs]
@[simp] theorem pend_modChannel (k : Nat) (f : AblJob → AblJob) (s : State) : (modChannel k f s).pending = s.pending := by
  simp [modChannel]
@[simp] theorem pend_failInbox (k : Nat) (s : State) : (failInbox k s).pending = s.pending := by
  simp [failInbox]
@[simp] theorem pend_segFail (g : Seg) (st : Status) (va : Nat) (notice : Bool) (s : State) : (segFail g st va notice s).pending = s.pending := by
  simp only [segFail]
  repeat' (first | (simp; done) | dsimp only | split | (refine (pend_emBind _ _ (fun a s => ?_)).trans ?_) | (refine (pend_emMap _ (fun a s => ?_) _ _).trans ?_) | (refine (pend_foldl _ (fun s x => ?_) _ _).trans ?_) | (refine (pend_foldl2 _ (fun r x => ?_) _ _).trans ?_) | (refine pend_eq2 (by assumption) ?_) | (refine pend_eq3 (by assumption) ?_))
@[simp] theorem pend_groupAbort (n : Nat) (s : State) : (groupAbort n s).pending = s.pending := by
  simp only [groupAbort]
  repeat' (first | (simp; done) | dsimp only | split | (refine (pend_emBind _ _ (fun a s => ?_)).trans ?_) | (refine (pend_emMap _ (fun a s => ?_) _ _).trans ?_) | (refine (pend_foldl _ (fun s x => ?_) _ _).trans ?_) | (refine (pend_foldl2 _ (fun r x => ?_) _ _).trans ?_) | (refine pend_eq2 (by assumption) ?_) | (refine pend_eq3 (by assumption) ?_))
@[simp] theorem pend_acceptSeg (g : Seg) (s : State) : (acceptSeg g s).pending = s.pending := by
  simp only [acceptSeg]
  repeat' (first | (simp; done) | dsimp only | split | (refine (pend_emBind _ _ (fun a s => ?_)).trans ?_) | (refine (pend_emMap _ (fun a s => ?_) _ _).trans ?_) | (refine (pend_foldl _ (fun s x => ?_) _ _).trans ?_) | (refine (pend_foldl2 _ (fun r x => ?_) _ _).trans ?_) | (refine pend_eq2 (by assumption) ?_) | (refine pend_eq3 (by assumption) ?_))
@[simp] theorem pend_acceptNext (e : Nat) (s : State) : (acceptNext e s).pending = s.pending := by
  simp only [acceptNext]
  repeat' (first | (simp; done) | dsimp only | split | (refine (pend_emBind _ _ (fun a s => ?_)).trans ?_) | (refine (pend_emMap _ (fun a s => ?_) _ _).trans ?_) | (refine (pend_foldl _ (fun s x => ?_) _ _).trans ?_) | (refine (pend_foldl2 _ (fun r x => ?_) _ _).trans ?_) | (refine pend_eq2 (by assumption) ?_) | (refine pend_eq3 (by assumption) ?_))
@[simp] theorem pend_segStep (h : HeldPkt) (s : State) : (segStep h s).pending = s.pending := by
  simp only [segStep]
  repeat' (first | (simp; done) | dsimp only | split | (refine (pend_emBind _ _ (fun a s => ?_)).trans ?_) | (refine (pend_emMap _ (fun a s => ?_) _ _).trans ?_) | (refine (pend_foldl _ (fun s x => ?_) _ _).trans ?_) | (refine (pend_foldl2 _ (fun r x => ?_) _ _).trans ?_) | (refine pend_eq2 (by assumption) ?_) | (refine pend_eq3 (by assumption) ?_))
@[simp] theorem pend_takeWaiting (e : Nat) (s : State) : (takeWaiting e s).pending = s.pending := by
  simp only [takeWaiting]
  repeat' (first | (simp; done) | dsimp only | split | (refine (pend_emBind _ _ (fun a s => ?_)).trans ?_) | (refine (pend_emMap _ (fun a s => ?_) _ _).trans ?_) | (refine (pend_foldl _ (fun s x => ?_) _ _).trans ?_) | (refine (pend_foldl2 _ (fun r x => ?_) _ _).trans ?_) | (refine pend_eq2 (by assumption) ?_) | (refine pend_eq3 (by assumption) ?_))
@[simp] theorem pend_pumpSegs (x0 : Nat) (x1 : Nat) (s : State) : (pumpSegs x0 x1 s).pending = s.pending := by
  induction x0 generalizing x1 s with
  | zero => simp [pumpSegs]
  | succ k ih =>
    rw [pumpSegs]
    repeat' (first | (with_reducible split) | dsimp only)
    all_goals (repeat' (first | simp [ih] | (refine pend_eq2 (by assumption) ?_) | (refine pend_eq3 (by assumption) ?_) | with_reducible split))
@[simp] theorem pend_execCollective (q : QIdx) (seq : W32) (s : State) :
    queueOf (execCollective q seq s) = some s.pending := by
  refine pend_runCmd q seq opCollective _ s (fun c s => ?_)
  dsimp only
  repeat' split
  all_goals simp
@[simp] theorem pend_xColl (t : TileId) (rs : SReg) (grp : GroupId) (link : PairIdx) (linkEn : Bool) (label : BitVec 14) (mk : State → Nat → Seg) (s : State) : queueOf (xColl t rs grp link linkEn label mk s) = some s.pending := by
  rw [xColl]
  repeat' (first | (with_reducible split) | dsimp only)
  all_goals (repeat' (first | simp | (refine pend_eq2 (by assumption) ?_) | (refine pend_eq3 (by assumption) ?_) | (refine pend_eq4 (by assumption) ?_) | (rw [pend_foldl _ (fun s x => ?_)]) | with_reducible split))
@[simp] theorem pend_execCollSeg (t : TileId) (da : DReg) (dc : DReg) (rs : SReg) (grp : GroupId) (link : PairIdx) (linkEn : Bool) (seg : BitVec 14) (s : State) : queueOf (execCollSeg t da dc rs grp link linkEn seg s) = some s.pending := by
  rw [execCollSeg]
  repeat' (first | (with_reducible split) | dsimp only)
  all_goals (repeat' (first | simp | (refine pend_eq2 (by assumption) ?_) | (refine pend_eq3 (by assumption) ?_) | (refine pend_eq4 (by assumption) ?_) | (rw [pend_foldl _ (fun s x => ?_)]) | with_reducible split))
@[simp] theorem pend_execCollNull (t : TileId) (rs : SReg) (grp : GroupId) (link : PairIdx) (linkEn : Bool) (seg : BitVec 14) (s : State) : queueOf (execCollNull t rs grp link linkEn seg s) = some s.pending := by
  rw [execCollNull]
  repeat' (first | (with_reducible split) | dsimp only)
  all_goals (repeat' (first | simp | (refine pend_eq2 (by assumption) ?_) | (refine pend_eq3 (by assumption) ?_) | (refine pend_eq4 (by assumption) ?_) | (rw [pend_foldl _ (fun s x => ?_)]) | with_reducible split))
@[simp] theorem pend_readAll (t : TileId) (env : EngEnv) (td : TDesc) (x0 : List (Nat × Nat × Nat)) (s : State) : (readAll t env td x0 s).2.pending = s.pending := by
  induction x0 generalizing s with
  | nil => simp [readAll]
  | cons a l ih =>
    simp only [readAll]
    repeat' split
    all_goals (try simp [*])
    all_goals (repeat (first | (refine pend_eq2 (by assumption) ?_; try simp [ih]) | (refine pend_eq3 (by assumption) ?_; try simp [ih])))
@[simp] theorem pend_ownPart (g : Seg) (env : EngEnv) (s : State) : (ownPart g env s).2.pending = s.pending := by
  simp only [ownPart]
  repeat' split
  all_goals (try simp)
  all_goals (repeat (first | (refine pend_eq2 (by assumption) ?_; try simp) | (refine pend_eq3 (by assumption) ?_; try simp)))
@[simp] theorem pend_spoilChannel (k : Nat) (s : State) : (spoilChannel k s).pending = s.pending := by
  simp [spoilChannel]
@[simp] theorem pend_putResult (g : Seg) (env : EngEnv) (out : List (Option Nat)) (s : State) : (putResult g env out s).2.pending = s.pending := by
  simp only [putResult]
  repeat' (first | (simp; done) | dsimp only | split | (refine (pend_emBind _ _ (fun a s => ?_)).trans ?_) | (refine (pend_emMap _ (fun a s => ?_) _ _).trans ?_) | (refine (pend_foldl _ (fun s x => ?_) _ _).trans ?_) | (refine (pend_foldl2 _ (fun r x => ?_) _ _).trans ?_) | (refine pend_eq2 (by assumption) ?_) | (refine pend_eq3 (by assumption) ?_))
@[simp] theorem pend_undefineSeg (g : Seg) (n : Nat) (s : State) : (undefineSeg g n s).pending = s.pending := by
  simp only [undefineSeg]
  repeat' (first | (simp; done) | dsimp only | split | (refine (pend_emBind _ _ (fun a s => ?_)).trans ?_) | (refine (pend_emMap _ (fun a s => ?_) _ _).trans ?_) | (refine (pend_foldl _ (fun s x => ?_) _ _).trans ?_) | (refine (pend_foldl2 _ (fun r x => ?_) _ _).trans ?_) | (refine pend_eq2 (by assumption) ?_) | (refine pend_eq3 (by assumption) ?_))
@[simp] theorem pend_sendRing (g : Seg) (e : Nat) (xs : List (Option (List Nat))) (s : State) : (sendRing g e xs s).pending = s.pending := by
  simp [sendRing]
@[simp] theorem pend_segDone (g : Seg) (s : State) : (segDone g s).pending = s.pending := by
  simp only [segDone]
  repeat' split
  all_goals simp_all
@[simp] theorem pend_execSegmentComplete (g : GroupId) (seq : BitVec 32) (peers : List (Option (List Byte))) (fails : Nat) (memErr : Bool) (env : EngEnv) (s : State) : queueOf (execSegmentComplete g seq peers fails memErr env s) = some s.pending := by
  rw [execSegmentComplete]
  repeat' (first | (with_reducible split) | dsimp only)
  all_goals (repeat' (first | simp | (refine pend_eq2 (by assumption) ?_) | (refine pend_eq3 (by assumption) ?_) | (refine pend_eq4 (by assumption) ?_) | (rw [pend_foldl _ (fun s x => ?_)]) | with_reducible split))
@[simp] theorem pend_execSegmentTimeout (g : GroupId) (seq : BitVec 32) (s : State) : queueOf (execSegmentTimeout g seq s) = some s.pending := by
  rw [execSegmentTimeout]
  repeat' (first | (with_reducible split) | dsimp only)
  all_goals (repeat' (first | simp | (refine pend_eq2 (by assumption) ?_) | (refine pend_eq3 (by assumption) ?_) | (refine pend_eq4 (by assumption) ?_) | (rw [pend_foldl _ (fun s x => ?_)]) | with_reducible split))

/-! Region -/

@[simp] theorem pend_setRgnState (r : Nat) (v : Nat) (s : State) : (setRgnState r v s).pending = s.pending := by
  simp [setRgnState]
@[simp] theorem pend_setRgnHeld (r : Nat) (v : Nat) (s : State) : (setRgnHeld r v s).pending = s.pending := by
  simp [setRgnHeld]
@[simp] theorem pend_setRgnCount (r : Nat) (copy : Nat) (v : Nat) (s : State) : (setRgnCount r copy v s).pending = s.pending := by
  simp [setRgnCount]
@[simp] theorem pend_rgnAdvance (r : Nat) (s : State) : (rgnAdvance r s).pending = s.pending := by
  simp [rgnAdvance]
@[simp] theorem pend_rgnWrite (r : Nat) (s : State) : (rgnWrite r s).pending = s.pending := by
  simp [rgnWrite]
@[simp] theorem pend_rgnStart (r : Nat) (s : State) : (rgnStart r s).pending = s.pending := by
  simp [rgnStart]
@[simp] theorem pend_rgnSettle (r : Nat) (s : State) : (rgnSettle r s).pending = s.pending := by
  simp [rgnSettle]
@[simp] theorem pend_dropReq (q : RgnReq) (s : State) : (dropReq q s).pending = s.pending := by
  simp [dropReq]
@[simp] theorem pend_rgnRefuse (q : RgnReq) (s : State) : (rgnRefuse q s).pending = s.pending := by
  simp [rgnRefuse]
@[simp] theorem pend_rgnGrant (q : RgnReq) (s : State) : (rgnGrant q s).pending = s.pending := by
  simp [rgnGrant]
@[simp] theorem pend_grantHeld (r : Nat) (s : State) : (grantHeld r s).pending = s.pending := by
  simp [grantHeld]
@[simp] theorem pend_abortHeld (r : Nat) (s : State) : (abortHeld r s).pending = s.pending := by
  simp [abortHeld]
@[simp] theorem pend_rgnAcquire (q : RgnReq) (s : State) : (rgnAcquire q s).pending = s.pending := by
  simp [rgnAcquire]
@[simp] theorem pend_rgnRelease (q : RgnReq) (s : State) : (rgnRelease q s).pending = s.pending := by
  simp [rgnRelease]
@[simp] theorem pend_execRgnAcq (t : TileId) (rs : SReg) (r : RegionId) (link : PairIdx) (s : State) : queueOf (execRgnAcq t rs r link s) = some s.pending := by
  simp [execRgnAcq]
@[simp] theorem pend_execRgnRel (t : TileId) (rs : SReg) (r : RegionId) (s : State) : queueOf (execRgnRel t rs r s) = some s.pending := by
  simp [execRgnRel]
@[simp] theorem pend_execRegionAcquire (t : TileId) (r : RegionId) (s : State) : queueOf (execRegionAcquire t r s) = some s.pending := by
  simp only [execRegionAcquire]
  repeat' (first | (simp; done) | dsimp only | split | (refine (pend_emBind _ _ (fun a s => ?_)).trans ?_) | (refine (pend_emMap _ (fun a s => ?_) _ _).trans ?_) | (refine (pend_foldl _ (fun s x => ?_) _ _).trans ?_) | (refine (pend_foldl2 _ (fun r x => ?_) _ _).trans ?_) | (refine pend_eq2 (by assumption) ?_) | (refine pend_eq3 (by assumption) ?_))
@[simp] theorem pend_execRegionRelease (t : TileId) (r : RegionId) (s : State) : queueOf (execRegionRelease t r s) = some s.pending := by
  simp only [execRegionRelease]
  repeat' (first | (simp; done) | dsimp only | split | (refine (pend_emBind _ _ (fun a s => ?_)).trans ?_) | (refine (pend_emMap _ (fun a s => ?_) _ _).trans ?_) | (refine (pend_foldl _ (fun s x => ?_) _ _).trans ?_) | (refine (pend_foldl2 _ (fun r x => ?_) _ _).trans ?_) | (refine pend_eq2 (by assumption) ?_) | (refine pend_eq3 (by assumption) ?_))
@[simp] theorem pend_rgnvWrite (r : Nat) (k : Nat) (v : Nat) (s : State) : (rgnvWrite r k v s).pending = s.pending := by
  simp [rgnvWrite]
@[simp] theorem pend_execRgnvWrite (r : RegionId) (k : BitVec 2) (v : W32) (s : State) : queueOf (execRgnvWrite r k v s) = some s.pending := by
  simp [execRgnvWrite]

/-! SparseA -/

@[simp] theorem pend_engWord (t : TileId) (unit : Nat) (env : EngEnv) (n : Nat) (va : Nat) (s : State) : (engWord t unit env n va s).2.pending = s.pending := by
  simp [engWord]
@[simp] theorem pend_engWords (t : TileId) (unit : Nat) (env : EngEnv) (va : Nat) (n : Nat) (idx : List Nat) (s : State) : (engWords t unit env va n idx s).2.pending = s.pending := by
  simp [engWords]
@[simp] theorem pend_spRead (t : TileId) (env : EngEnv) (d : DWord) (s : State) : (spRead t env d s).2.pending = s.pending := by
  simp only [spRead]
  repeat' (first | (simp; done) | dsimp only | split | (refine (pend_emBind _ _ (fun a s => ?_)).trans ?_) | (refine (pend_emMap _ (fun a s => ?_) _ _).trans ?_) | (refine (pend_foldl _ (fun s x => ?_) _ _).trans ?_) | (refine (pend_foldl2 _ (fun r x => ?_) _ _).trans ?_) | (refine pend_eq2 (by assumption) ?_) | (refine pend_eq3 (by assumption) ?_))
@[simp] theorem pend_spValue (t : TileId) (env : EngEnv) (d : DWord) (v : Nat) (s : State) : (spValue t env d v s).2.pending = s.pending := by
  simp only [spValue]
  repeat' split
  all_goals (try simp)
  all_goals (repeat (first | (refine pend_eq2 (by assumption) ?_; try simp) | (refine pend_eq3 (by assumption) ?_; try simp)))

/-! Cube -/

@[simp] theorem pend_readMatrix (h : CeShape) (env : EngEnv) (who : Nat → Nat → TileId) (td : TDesc) (b2 : Nat) (b3 : Nat) (s : State) : (readMatrix h env who td b2 b3 s).2.pending = s.pending := by
  simp [readMatrix]
@[simp] theorem pend_ceBatch (h : CeShape) (env : EngEnv) (imm : EngImm) (aterms : Option (List (List (Nat × FV)))) (a : TDesc) (b : TDesc) (c : TDesc) (k : Nat) (kstep : Nat) (b2 : Nat) (b3 : Nat) (s : State) : (ceBatch h env imm aterms a b c k kstep b2 b3 s).2.pending = s.pending := by
  simp only [ceBatch]
  repeat' (first | (simp; done) | dsimp only | split | (refine (pend_emBind _ _ (fun a s => ?_)).trans ?_) | (refine (pend_emMap _ (fun a s => ?_) _ _).trans ?_) | (refine (pend_foldl _ (fun s x => ?_) _ _).trans ?_) | (refine (pend_foldl2 _ (fun r x => ?_) _ _).trans ?_) | (refine pend_eq2 (by assumption) ?_) | (refine pend_eq3 (by assumption) ?_))
@[simp] theorem pend_ceWriteBy (h : CeShape) (env : EngEnv) (cells : List (TileId × Nat × Byte)) (x0 : List TileId) (s : State) : (ceWriteBy h env cells x0 s).2.pending = s.pending := by
  induction x0 generalizing s with
  | nil => simp [ceWriteBy]
  | cons a l ih =>
    rw [ceWriteBy]
    repeat' (first | (with_reducible split) | dsimp only)
    all_goals (repeat' (first | simp [ih] | (refine pend_eq2 (by assumption) ?_) | (refine pend_eq3 (by assumption) ?_) | with_reducible split))
@[simp] theorem pend_ceWrite (h : CeShape) (env : EngEnv) (c : TDesc) (cells : List (TileId × Nat × Byte)) (s : State) : (ceWrite h env c cells s).2.pending = s.pending := by
  rw [ceWrite]
  repeat' (first | (with_reducible split) | dsimp only)
  all_goals (repeat' (first | simp | (refine pend_eq2 (by assumption) ?_) | (refine pend_eq3 (by assumption) ?_) | (refine pend_eq4 (by assumption) ?_) | (rw [pend_foldl _ (fun s x => ?_)]) | with_reducible split))
@[simp] theorem pend_ceResidue (h : CeShape) (env : EngEnv) (r : Nat × Nat × Option Nat) (s : State) : (ceResidue h env r s).pending = s.pending := by
  simp [ceResidue]
@[simp] theorem pend_ceSparse (t : TileId) (env : EngEnv) (aw : DWord) (s : State) : (ceSparse t env aw s).2.pending = s.pending := by
  simp only [ceSparse]
  repeat' (first | (simp; done) | dsimp only | split | (refine (pend_emBind _ _ (fun a s => ?_)).trans ?_) | (refine (pend_emMap _ (fun a s => ?_) _ _).trans ?_) | (refine (pend_foldl _ (fun s x => ?_) _ _).trans ?_) | (refine (pend_foldl2 _ (fun r x => ?_) _ _).trans ?_) | (refine pend_eq2 (by assumption) ?_) | (refine pend_eq3 (by assumption) ?_))
@[simp] theorem pend_ceProduct (t : TileId) (env : EngEnv) (aw : DWord) (bw : DWord) (cw : DWord) (imm : EngImm) (s : State) : (ceProduct t env aw bw cw imm s).2.pending = s.pending := by
  simp only [ceProduct]
  repeat' (first | (simp; done) | dsimp only | split | (refine (pend_emBind _ _ (fun a s => ?_)).trans ?_) | (refine (pend_emMap _ (fun a s => ?_) _ _).trans ?_) | (refine (pend_foldl _ (fun s x => ?_) _ _).trans ?_) | (refine (pend_foldl2 _ (fun r x => ?_) _ _).trans ?_) | (refine pend_eq2 (by assumption) ?_) | (refine pend_eq3 (by assumption) ?_))
@[simp] theorem pend_addSteps (t : TileId) (n : Nat) (s : State) : (addSteps t n s).pending = s.pending := by
  simp [addSteps]
@[simp] theorem pend_openSteps (t : TileId) (lo : Nat) (hi : Nat) (s : State) : (openSteps t lo hi s).pending = s.pending := by
  simp [openSteps]
@[simp] theorem pend_ceBlocks (t : TileId) (aw : DWord) (sp : Option SpMeta) (s : State) : (ceBlocks t aw sp s).pending = s.pending := by
  simp only [ceBlocks]
  repeat' (first | (simp; done) | dsimp only | split | (refine (pend_emBind _ _ (fun a s => ?_)).trans ?_) | (refine (pend_emMap _ (fun a s => ?_) _ _).trans ?_) | (refine (pend_foldl _ (fun s x => ?_) _ _).trans ?_) | (refine (pend_foldl2 _ (fun r x => ?_) _ _).trans ?_) | (refine pend_eq2 (by assumption) ?_) | (refine pend_eq3 (by assumption) ?_))
@[simp] theorem pend_undefineC (h : CeShape) (dest : List (TileId × Nat)) (s : State) : (undefineC h dest s).pending = s.pending := by
  simp [undefineC]
@[simp] theorem pend_ceFail (h : CeShape) (c : TDesc) (read : Bool) (e : Status × Nat) (s : State) : (ceFail h c read e s).2.pending = s.pending := by
  simp [ceFail]
@[simp] theorem pend_ceFinish (t : TileId) (env : EngEnv) (first : Nat) (h : CeShape) (aw : DWord) (bw : DWord) (cw : DWord) (imm : EngImm) (sp : Option SpMeta) (cells : List (TileId × Nat × Byte)) (s : State) : (ceFinish t env first h aw bw cw imm sp cells s).2.pending = s.pending := by
  rw [ceFinish]
  repeat' (first | (with_reducible split) | dsimp only)
  all_goals (repeat' (first | simp | (refine pend_eq2 (by assumption) ?_) | (refine pend_eq3 (by assumption) ?_) | (refine pend_eq4 (by assumption) ?_) | (rw [pend_foldl _ (fun s x => ?_)]) | with_reducible split))
@[simp] theorem pend_ceReadFail (t : TileId) (h : CeShape) (aw : DWord) (bw : DWord) (cw : DWord) (imm : EngImm) (e : Status × Nat) (s : State) : (ceReadFail t h aw bw cw imm e s).2.pending = s.pending := by
  simp [ceReadFail]
@[simp] theorem pend_ceMm (t : TileId) (env : EngEnv) (first : Nat) (aw : DWord) (bw : DWord) (cw : DWord) (imm : EngImm) (s : State) : (ceMm t env first aw bw cw imm s).2.pending = s.pending := by
  rw [ceMm]
  repeat' (first | (with_reducible split) | dsimp only)
  all_goals (repeat' (first | simp | (refine pend_eq2 (by assumption) ?_) | (refine pend_eq3 (by assumption) ?_) | (refine pend_eq4 (by assumption) ?_) | (rw [pend_foldl _ (fun s x => ?_)]) | with_reducible split))
@[simp] theorem pend_gtBase (t : TileId) (env : EngEnv) (d : DWord) (expert : Nat) (dirb : Bool) (first : Bool) (own : Nat) (s : State) : (gtBase t env d expert dirb first own s).2.pending = s.pending := by
  simp only [gtBase]
  repeat' split
  all_goals (try simp)
  all_goals (repeat (first | (refine pend_eq2 (by assumption) ?_; try simp) | (refine pend_eq3 (by assumption) ?_; try simp)))
@[simp] theorem pend_gtEntry (t : TileId) (env : EngEnv) (e : EngCmd) (ta : DWord) (tb : DWord) (tc : DWord) (firstChunk : Nat) (i : Nat) (first : Bool) (s : State) : (gtEntry t env e ta tb tc firstChunk i first s).2.pending = s.pending := by
  rw [gtEntry]
  repeat' (first | (with_reducible split) | dsimp only)
  all_goals (repeat' (first | simp | (refine pend_eq2 (by assumption) ?_) | (refine pend_eq3 (by assumption) ?_) | (refine pend_eq4 (by assumption) ?_) | (rw [pend_foldl _ (fun s x => ?_)]) | with_reducible split))
@[simp] theorem pend_gtWalk (t : TileId) (env : EngEnv) (e : EngCmd) (ta : DWord) (tb : DWord) (tc : DWord) (first : Bool) (x0 : List Nat) (x1 : Nat) (s : State) : (gtWalk t env e ta tb tc first x0 x1 s).2.pending = s.pending := by
  induction x0 generalizing x1 s with
  | nil => simp [gtWalk]
  | cons a l ih =>
    rw [gtWalk]
    repeat' (first | (with_reducible split) | dsimp only)
    all_goals (repeat' (first | simp [ih] | (refine pend_eq2 (by assumption) ?_) | (refine pend_eq3 (by assumption) ?_) | with_reducible split))
@[simp] theorem pend_gtOverlap (t : TileId) (cs : List DWord) (s : State) : (gtOverlap t cs s).pending = s.pending := by
  simp [gtOverlap]
@[simp] theorem pend_gtTemplates (t : TileId) (env : EngEnv) (d : DWord) (s : State) : (gtTemplates t env d s).2.pending = s.pending := by
  simp only [gtTemplates]
  repeat' (first | (simp; done) | dsimp only | split | (refine (pend_emBind _ _ (fun a s => ?_)).trans ?_) | (refine (pend_emMap _ (fun a s => ?_) _ _).trans ?_) | (refine (pend_foldl _ (fun s x => ?_) _ _).trans ?_) | (refine (pend_foldl2 _ (fun r x => ?_) _ _).trans ?_) | (refine pend_eq2 (by assumption) ?_) | (refine pend_eq3 (by assumption) ?_))
@[simp] theorem pend_ceHead (t : TileId) (f : EngCmd → EngCmd) (s : State) : (ceHead t f s).pending = s.pending := by
  simp [ceHead]
@[simp] theorem pend_ceDone (t : TileId) (bad : Option (Status × Nat)) (s : State) : (ceDone t bad s).pending = s.pending := by
  simp [ceDone]
@[simp] theorem pend_cePostIn (t : TileId) (e : EngCmd) (s : State) : (cePostIn t e s).pending = s.pending := by
  simp [cePostIn]
@[simp] theorem pend_gtEnd (t : TileId) (e : EngCmd) (r : GtRun × State) : (gtEnd t e r).pending = r.2.pending := by
  simp only [gtEnd]
  repeat' (first | (simp; done) | dsimp only | split | (refine (pend_emBind _ _ (fun a s => ?_)).trans ?_) | (refine (pend_emMap _ (fun a s => ?_) _ _).trans ?_) | (refine (pend_foldl _ (fun s x => ?_) _ _).trans ?_) | (refine (pend_foldl2 _ (fun r x => ?_) _ _).trans ?_) | (refine pend_eq2 (by assumption) ?_) | (refine pend_eq3 (by assumption) ?_))
@[simp] theorem pend_ceBody (t : TileId) (env : EngEnv) (e : EngCmd) (s : State) : (ceBody t env e s).pending = s.pending := by
  rw [ceBody]
  repeat' (first | (with_reducible split) | dsimp only)
  all_goals (repeat' (first | simp | (refine pend_eq2 (by assumption) ?_) | (refine pend_eq3 (by assumption) ?_) | (refine pend_eq4 (by assumption) ?_) | (rw [pend_foldl _ (fun s x => ?_)]) | with_reducible split))
@[simp] theorem pend_ceAccept (t : TileId) (env : EngEnv) (e : EngCmd) (s : State) : (ceAccept t env e s).2.2.pending = s.pending := by
  rw [ceAccept]
  repeat' (first | (with_reducible split) | dsimp only)
  all_goals (repeat' (first | simp | (refine pend_eq2 (by assumption) ?_) | (refine pend_eq3 (by assumption) ?_) | (refine pend_eq4 (by assumption) ?_) | (rw [pend_foldl _ (fun s x => ?_)]) | with_reducible split))
@[simp] theorem pend_ceOut (t : TileId) (env : EngEnv) (e : EngCmd) (s : State) : (ceOut t env e s).pending = s.pending := by
  rw [ceOut]
  repeat' (first | (with_reducible split) | dsimp only)
  all_goals (repeat' (first | simp | (refine pend_eq2 (by assumption) ?_) | (refine pend_eq3 (by assumption) ?_) | (refine pend_eq4 (by assumption) ?_) | (rw [pend_foldl _ (fun s x => ?_)]) | with_reducible split))
@[simp] theorem pend_ceFromIn (t : TileId) (env : EngEnv) (e : EngCmd) (s : State) : (ceFromIn t env e s).pending = s.pending := by
  rw [ceFromIn]
  repeat' (first | (with_reducible split) | dsimp only)
  all_goals (repeat' (first | simp | (refine pend_eq2 (by assumption) ?_) | (refine pend_eq3 (by assumption) ?_) | (refine pend_eq4 (by assumption) ?_) | (rw [pend_foldl _ (fun s x => ?_)]) | with_reducible split))
@[simp] theorem pend_execCeExecute (t : TileId) (env : EngEnv) (s : State) : queueOf (execCeExecute t env s) = some s.pending := by
  rw [execCeExecute]
  repeat' (first | (with_reducible split) | dsimp only)
  all_goals (repeat' (first | simp | (refine pend_eq2 (by assumption) ?_) | (refine pend_eq3 (by assumption) ?_) | (refine pend_eq4 (by assumption) ?_) | (rw [pend_foldl _ (fun s x => ?_)]) | with_reducible split))
@[simp] theorem pend_execCeInstructionComplete (t : TileId) (s : State) : queueOf (execCeInstructionComplete t s) = some s.pending := by
  simp only [execCeInstructionComplete]
  repeat' (first | (simp; done) | dsimp only | split | (refine (pend_emBind _ _ (fun a s => ?_)).trans ?_) | (refine (pend_emMap _ (fun a s => ?_) _ _).trans ?_) | (refine (pend_foldl _ (fun s x => ?_) _ _).trans ?_) | (refine (pend_foldl2 _ (fun r x => ?_) _ _).trans ?_) | (refine pend_eq2 (by assumption) ?_) | (refine pend_eq3 (by assumption) ?_))
@[simp] theorem pend_execGroupedResidencyPoll (t : TileId) (env : EngEnv) (s : State) : queueOf (execGroupedResidencyPoll t env s) = some s.pending := by
  rw [execGroupedResidencyPoll]
  repeat' (first | (with_reducible split) | dsimp only)
  all_goals (repeat' (first | simp | (refine pend_eq2 (by assumption) ?_) | (refine pend_eq3 (by assumption) ?_) | (refine pend_eq4 (by assumption) ?_) | (rw [pend_foldl _ (fun s x => ?_)]) | with_reducible split))
@[simp] theorem pend_execDemandTimeout (t : TileId) (s : State) : queueOf (execDemandTimeout t s) = some s.pending := by
  simp only [execDemandTimeout]
  repeat' (first | (simp; done) | dsimp only | split | (refine (pend_emBind _ _ (fun a s => ?_)).trans ?_) | (refine (pend_emMap _ (fun a s => ?_) _ _).trans ?_) | (refine (pend_foldl _ (fun s x => ?_) _ _).trans ?_) | (refine (pend_foldl2 _ (fun r x => ?_) _ _).trans ?_) | (refine pend_eq2 (by assumption) ?_) | (refine pend_eq3 (by assumption) ?_))

/-! Gme -/

@[simp] theorem pend_readIndices (t : TileId) (env : EngEnv) (td : TDesc) (s : State) : (readIndices t env td s).2.pending = s.pending := by
  simp [readIndices]
@[simp] theorem pend_readRowNo (t : TileId) (env : EngEnv) (td : TDesc) (r : Nat) (s : State) : (readRowNo t env td r s).2.pending = s.pending := by
  simp [readRowNo]
@[simp] theorem pend_gmeGatherBody (t : TileId) (env : EngEnv) (xs : List (Option Nat)) (b : TDesc) (c : TDesc) (s : State) : (gmeGatherBody t env xs b c s).2.pending = s.pending := by
  simp only [gmeGatherBody]
  repeat' (first | (simp; done) | dsimp only | split | (refine (pend_emBind _ _ (fun a s => ?_)).trans ?_) | (refine (pend_emMap _ (fun a s => ?_) _ _).trans ?_) | (refine (pend_foldl _ (fun s x => ?_) _ _).trans ?_) | (refine (pend_foldl2 _ (fun r x => ?_) _ _).trans ?_) | (refine pend_eq2 (by assumption) ?_) | (refine pend_eq3 (by assumption) ?_))
@[simp] theorem pend_gmeScatterBody (t : TileId) (env : EngEnv) (xs : List (Option Nat)) (b : TDesc) (c : TDesc) (s : State) : (gmeScatterBody t env xs b c s).2.pending = s.pending := by
  simp [gmeScatterBody]
@[simp] theorem pend_readStep {α : Type} (x : Except (Status × Nat) α × State) : (readStep x).2.pending = x.2.pending := by
  simp [readStep]
@[simp] theorem pend_writeStep {α : Type} (last : Bool) (x : Except (Status × Nat) α × State) : (writeStep last x).2.pending = x.2.pending := by
  simp [writeStep]
@[simp] theorem pend_gmeAccRow (t : TileId) (env : EngEnv) (b : TDesc) (c : TDesc) (last : Bool) (x : Nat) (r : Nat) (s : State) : (gmeAccRow t env b c last x r s).2.pending = s.pending := by
  simp only [gmeAccRow]
  repeat' (first | (simp; done) | dsimp only | split | (refine (pend_emBind _ _ (fun a s => ?_)).trans ?_) | (refine (pend_emMap _ (fun a s => ?_) _ _).trans ?_) | (refine (pend_foldl _ (fun s x => ?_) _ _).trans ?_) | (refine (pend_foldl2 _ (fun r x => ?_) _ _).trans ?_) | (refine pend_eq2 (by assumption) ?_) | (refine pend_eq3 (by assumption) ?_))
@[simp] theorem pend_gmeAccRows (t : TileId) (env : EngEnv) (b : TDesc) (c : TDesc) (x0 : List (Nat × Nat)) (s : State) : (gmeAccRows t env b c x0 s).2.pending = s.pending := by
  induction x0 generalizing s with
  | nil => simp [gmeAccRows]
  | cons a l ih =>
    rw [gmeAccRows]
    repeat' (first | (with_reducible split) | dsimp only)
    all_goals (repeat' (first | simp [ih] | (refine pend_eq2 (by assumption) ?_) | (refine pend_eq3 (by assumption) ?_) | with_reducible split))
@[simp] theorem pend_segWords (t : TileId) (env : EngEnv) (td : TDesc) (i1 : Nat) (n : Nat) (s : State) : (segWords t env td i1 n s).2.pending = s.pending := by
  simp [segWords]
@[simp] theorem pend_gmeSegredBody (t : TileId) (env : EngEnv) (acc : Bool) (a : TDesc) (b : TDesc) (c : TDesc) (s : State) : (gmeSegredBody t env acc a b c s).2.pending = s.pending := by
  simp only [gmeSegredBody]
  repeat' (first | (simp; done) | dsimp only | split | (refine (pend_emBind _ _ (fun a s => ?_)).trans ?_) | (refine (pend_emMap _ (fun a s => ?_) _ _).trans ?_) | (refine (pend_foldl _ (fun s x => ?_) _ _).trans ?_) | (refine (pend_foldl2 _ (fun r x => ?_) _ _).trans ?_) | (refine pend_eq2 (by assumption) ?_) | (refine pend_eq3 (by assumption) ?_))
@[simp] theorem pend_mergeList (t : TileId) (env : EngEnv) (td : TDesc) (x0 : List Nat) (s : State) : (mergeList t env td x0 s).2.pending = s.pending := by
  induction x0 generalizing s <;> simp_all [mergeList]
@[simp] theorem pend_gmeMergeBody (t : TileId) (env : EngEnv) (a : TDesc) (b : TDesc) (c : TDesc) (s : State) : (gmeMergeBody t env a b c s).2.pending = s.pending := by
  simp [gmeMergeBody]
@[simp] theorem pend_gmeResidue (t : TileId) (env : EngEnv) (r : Nat × Nat × Option Nat) (s : State) : (gmeResidue t env r s).pending = s.pending := by
  simp [gmeResidue]
@[simp] theorem pend_gmeFail (t : TileId) (dest : List Nat) (x : Status × Nat) (s : State) : (gmeFail t dest x s).2.pending = s.pending := by
  simp [gmeFail]
@[simp] theorem pend_gmeIndices (t : TileId) (env : EngEnv) (e : EngCmd) (s : State) : (gmeIndices t env e s).2.pending = s.pending := by
  simp only [gmeIndices]
  repeat' (first | (simp; done) | dsimp only | split | (refine (pend_emBind _ _ (fun a s => ?_)).trans ?_) | (refine (pend_emMap _ (fun a s => ?_) _ _).trans ?_) | (refine (pend_foldl _ (fun s x => ?_) _ _).trans ?_) | (refine (pend_foldl2 _ (fun r x => ?_) _ _).trans ?_) | (refine pend_eq2 (by assumption) ?_) | (refine pend_eq3 (by assumption) ?_))
@[simp] theorem pend_gmeWork (t : TileId) (env : EngEnv) (e : EngCmd) (xs : List (Option Nat)) (s : State) : (gmeWork t env e xs s).2.pending = s.pending := by
  simp only [gmeWork]
  repeat' (first | (simp; done) | dsimp only | split | (refine (pend_emBind _ _ (fun a s => ?_)).trans ?_) | (refine (pend_emMap _ (fun a s => ?_) _ _).trans ?_) | (refine (pend_foldl _ (fun s x => ?_) _ _).trans ?_) | (refine (pend_foldl2 _ (fun r x => ?_) _ _).trans ?_) | (refine pend_eq2 (by assumption) ?_) | (refine pend_eq3 (by assumption) ?_))
@[simp] theorem pend_gmeForm (t : TileId) (env : EngEnv) (e : EngCmd) (s : State) : (gmeForm t env e s).2.pending = s.pending := by
  rw [gmeForm]
  repeat' (first | (with_reducible split) | dsimp only)
  all_goals (repeat' (first | simp | (refine pend_eq2 (by assumption) ?_) | (refine pend_eq3 (by assumption) ?_) | (refine pend_eq4 (by assumption) ?_) | (rw [pend_foldl _ (fun s x => ?_)]) | with_reducible split))
@[simp] theorem pend_gmeFinish (t : TileId) (env : EngEnv) (e : EngCmd) (h : EngHeld) (s : State) : (gmeFinish t env e h s).2.pending = s.pending := by
  rw [gmeFinish]
  repeat' (first | (with_reducible split) | dsimp only)
  all_goals (repeat' (first | simp | (refine pend_eq2 (by assumption) ?_) | (refine pend_eq3 (by assumption) ?_) | (refine pend_eq4 (by assumption) ?_) | (rw [pend_foldl _ (fun s x => ?_)]) | with_reducible split))
@[simp] theorem pend_gmeAccRun (t : TileId) (env : EngEnv) (e : EngCmd) (s : State) : (gmeAccRun t env e s).2.2.2.pending = s.pending := by
  rw [gmeAccRun]
  repeat' (first | (with_reducible split) | dsimp only)
  all_goals (repeat' (first | simp | (refine pend_eq2 (by assumption) ?_) | (refine pend_eq3 (by assumption) ?_) | (refine pend_eq4 (by assumption) ?_) | (rw [pend_foldl _ (fun s x => ?_)]) | with_reducible split))

/-! Rank -/

@[simp] theorem pend_readImage (t : TileId) (env : EngEnv) (d : DWord) (e : Nat) (s : State) : (readImage t env d e s).2.pending = s.pending := by
  simp [readImage]
@[simp] theorem pend_readPeer (t : TileId) (env : EngEnv) (d : DWord) (dev : Nat) (s : State) : (readPeer t env d dev s).2.pending = s.pending := by
  simp [readPeer]
@[simp] theorem pend_readLayer (t : TileId) (env : EngEnv) (d : DWord) (peers : Bool) (s : State) : (readLayer t env d peers s).2.pending = s.pending := by
  simp only [readLayer]
  repeat' (first | (simp; done) | dsimp only | split | (refine (pend_emBind _ _ (fun a s => ?_)).trans ?_) | (refine (pend_emMap _ (fun a s => ?_) _ _).trans ?_) | (refine (pend_foldl _ (fun s x => ?_) _ _).trans ?_) | (refine (pend_foldl2 _ (fun r x => ?_) _ _).trans ?_) | (refine pend_eq2 (by assumption) ?_) | (refine pend_eq3 (by assumption) ?_))
@[simp] theorem pend_recDests (d : DWord) (layer : List (Nat × ImgEntry × List Nat)) (recs : List Rec) (s : State) : (recDests d layer recs s).2.pending = s.pending := by
  simp [recDests]
@[simp] theorem pend_readRecs (t : TileId) (env : EngEnv) (b : TDesc) (rows : List (Nat × Nat × Nat)) (s : State) : (readRecs t env b rows s).2.pending = s.pending := by
  simp [readRecs]
@[simp] theorem pend_rankTopk (t : TileId) (env : EngEnv) (d : DWord) (b : TDesc) (c : TDesc) (s : State) : (rankTopk t env d b c s).2.pending = s.pending := by
  simp [rankTopk]
@[simp] theorem pend_rankBucket (t : TileId) (env : EngEnv) (d : DWord) (b : TDesc) (c : TDesc) (s : State) : (rankBucket t env d b c s).2.pending = s.pending := by
  simp [rankBucket]
@[simp] theorem pend_cutHosted (t : TileId) (env : EngEnv) (d : DWord) (s : State) : (cutHosted t env d s).2.pending = s.pending := by
  simp [cutHosted]
@[simp] theorem pend_rankCut (t : TileId) (env : EngEnv) (d : DWord) (b : TDesc) (c : TDesc) (hosted : List Nat) (s : State) : (rankCut t env d b c hosted s).2.pending = s.pending := by
  simp [rankCut]
@[simp] theorem pend_keptRecs (t : TileId) (env : EngEnv) (d : DWord) (b : TDesc) (s : State) : (keptRecs t env d b s).2.pending = s.pending := by
  simp only [keptRecs]
  repeat' (first | (simp; done) | dsimp only | split | (refine (pend_emBind _ _ (fun a s => ?_)).trans ?_) | (refine (pend_emMap _ (fun a s => ?_) _ _).trans ?_) | (refine (pend_foldl _ (fun s x => ?_) _ _).trans ?_) | (refine (pend_foldl2 _ (fun r x => ?_) _ _).trans ?_) | (refine pend_eq2 (by assumption) ?_) | (refine pend_eq3 (by assumption) ?_))
@[simp] theorem pend_rankPlace (t : TileId) (env : EngEnv) (d : DWord) (b : TDesc) (c : TDesc) (s : State) : (rankPlace t env d b c s).2.pending = s.pending := by
  simp only [rankPlace]
  repeat' (first | (simp; done) | dsimp only | split | (refine (pend_emBind _ _ (fun a s => ?_)).trans ?_) | (refine (pend_emMap _ (fun a s => ?_) _ _).trans ?_) | (refine (pend_foldl _ (fun s x => ?_) _ _).trans ?_) | (refine (pend_foldl2 _ (fun r x => ?_) _ _).trans ?_) | (refine pend_eq2 (by assumption) ?_) | (refine pend_eq3 (by assumption) ?_))
@[simp] theorem pend_rankJoin (t : TileId) (env : EngEnv) (d : DWord) (b : TDesc) (c : TDesc) (s : State) : (rankJoin t env d b c s).2.pending = s.pending := by
  simp only [rankJoin]
  repeat' (first | (simp; done) | dsimp only | split | (refine (pend_emBind _ _ (fun a s => ?_)).trans ?_) | (refine (pend_emMap _ (fun a s => ?_) _ _).trans ?_) | (refine (pend_foldl _ (fun s x => ?_) _ _).trans ?_) | (refine (pend_foldl2 _ (fun r x => ?_) _ _).trans ?_) | (refine pend_eq2 (by assumption) ?_) | (refine pend_eq3 (by assumption) ?_))
@[simp] theorem pend_rankEnd (t : TileId) (dest : List Nat) (r : Except (Status × Nat) GmeOut × State) : (rankEnd t dest r).2.pending = r.2.pending := by
  simp only [rankEnd]
  repeat' (first | (simp; done) | dsimp only | split | (refine (pend_emBind _ _ (fun a s => ?_)).trans ?_) | (refine (pend_emMap _ (fun a s => ?_) _ _).trans ?_) | (refine (pend_foldl _ (fun s x => ?_) _ _).trans ?_) | (refine (pend_foldl2 _ (fun r x => ?_) _ _).trans ?_) | (refine pend_eq2 (by assumption) ?_) | (refine pend_eq3 (by assumption) ?_))
@[simp] theorem pend_rankForm (t : TileId) (env : EngEnv) (e : EngCmd) (s : State) : (rankForm t env e s).2.pending = s.pending := by
  rw [rankForm]
  repeat' (first | (with_reducible split) | dsimp only)
  all_goals (repeat' (first | simp | (refine pend_eq2 (by assumption) ?_) | (refine pend_eq3 (by assumption) ?_) | (refine pend_eq4 (by assumption) ?_) | (rw [pend_foldl _ (fun s x => ?_)]) | with_reducible split))

/-! Ablation -/

@[simp] theorem pend_ablRead (st : Nat) (addrs : List Nat) (s : State) : (ablRead st addrs s).2.2.pending = s.pending := by
  simp [ablRead]
@[simp] theorem pend_ablWrite (st : Nat) (a : Nat) (l : List Byte) (s : State) : (ablWrite st a l s).2.pending = s.pending := by
  simp [ablWrite]
@[simp] theorem pend_readKb (st : Nat) (r : Nat) (la : Nat) (b : Nat) (s : State) : (readKb st r la b s).2.pending = s.pending := by
  simp [readKb]
@[simp] theorem pend_writeKb (st : Nat) (r : Nat) (la : Nat) (b : Nat) (q : Nat × List Byte) (s : State) : (writeKb st r la b q s).2.pending = s.pending := by
  simp [writeKb]
@[simp] theorem pend_writeImg (st : Nat) (r : Nat) (copy : Nat) (b : Nat) (vals : List FV) (s : State) : (writeImg st r copy b vals s).2.pending = s.pending := by
  simp only [writeImg]
  repeat' split
  all_goals simp_all
@[simp] theorem pend_imageBlock (c : DWord) (b : Nat) (s : State) : (imageBlock c b s).2.pending = s.pending := by
  simp [imageBlock]
@[simp] theorem pend_ablMoment (c : DWord) (la : Nat) (b : Nat) (s : State) : (ablMoment c la b s).2.pending = s.pending := by
  simp [ablMoment]
@[simp] theorem pend_ruleRead (c : DWord) (grad : Nat → State → Except Status (List Nat) × State) (b : Nat) (s : State) (hgrad : ∀ (y0 : Nat) (y1 : State), (grad y0 y1).2.pending = y1.pending) : (ruleRead c grad b s).2.pending = s.pending := by
  rw [ruleRead]
  repeat' (first | (simp [hgrad]; done) | (with_reducible split) | dsimp only | (refine (pend_emBind _ _ (fun a s => ?_)).trans ?_) | (refine (pend_emMap _ (fun a s => ?_) _ _).trans ?_) | simp | (refine pend_eq2 (by assumption) ?_) | (refine pend_eq3 (by assumption) ?_) | (refine pend_eq4 (by assumption) ?_))
@[simp] theorem pend_ruleWrite (c : DWord) (k : AblConst) (b : Nat) (x : List FV × List FV × List FV × List Nat) (s : State) : (ruleWrite c k b x s).2.pending = s.pending := by
  simp [ruleWrite]
@[simp] theorem pend_ruleBlock (c : DWord) (k : AblConst) (grad : Nat → State → Except Status (List Nat) × State) (b : Nat) (s : State) (hgrad : ∀ (y0 : Nat) (y1 : State), (grad y0 y1).2.pending = y1.pending) : (ruleBlock c k grad b s).2.pending = s.pending := by
  simp [ruleBlock, hgrad]
@[simp] theorem pend_gradHbm (c : DWord) (b : Nat) (s : State) : (gradHbm c b s).2.pending = s.pending := by
  simp [gradHbm]
@[simp] theorem pend_gradInbox (g : List Nat) (b : Nat) (s : State) : (gradInbox g b s).2.pending = s.pending := by
  simp [gradInbox]
@[simp] theorem pend_ablBlocks (st : Nat) (residue : List (Nat × Nat)) (f : Nat → State → Status × State) (x0 : List Nat) (s : State) (hf : ∀ (y0 : Nat) (y1 : State), (f y0 y1).2.pending = y1.pending) : (ablBlocks st residue f x0 s).2.pending = s.pending := by
  induction x0 generalizing s <;> simp_all [ablBlocks]
@[simp] theorem pend_undefineRegion (r : Nat) (s : State) : (undefineRegion r s).pending = s.pending := by
  simp [undefineRegion]
@[simp] theorem pend_undefineShared (c : DWord) (s : State) : (undefineShared c s).pending = s.pending := by
  simp [undefineShared]
@[simp] theorem pend_updAbl (st : Nat) (s : State) : (updAbl st s).pending = s.pending := by
  simp only [updAbl]
  repeat' split
  all_goals simp_all
@[simp] theorem pend_setCur (st : Nat) (j' : AblJob) (s : State) : (setCur st j' s).pending = s.pending := by
  simp only [setCur]
  repeat' split
  all_goals simp_all
@[simp] theorem pend_ablEnd (st : Nat) (j : AblJob) (code : Status) (b : Nat) (s : State) : (ablEnd st j code b s).pending = s.pending := by
  simp only [ablEnd]
  repeat' split
  all_goals simp_all
@[simp] theorem pend_stepCheck (c : DWord) (s : State) : (stepCheck c s).2.pending = s.pending := by
  simp [stepCheck]
@[simp] theorem pend_ablRun (st : Nat) (j : AblJob) (residue : List (Nat × Nat)) (k : Status) (f : Nat → State → Status × State) (s : State) (hf : ∀ (y0 : Nat) (y1 : State), (f y0 y1).2.pending = y1.pending) : (ablRun st j residue k f s).pending = s.pending := by
  simp [ablRun, hf]
@[simp] theorem pend_doEmpty (st : Nat) (j : AblJob) (residue : List (Nat × Nat)) (s : State) : (doEmpty st j residue s).pending = s.pending := by
  simp [doEmpty]
@[simp] theorem pend_spoilNext (st : Nat) (k : Nat) (s : State) : (spoilNext st k s).pending = s.pending := by
  simp [spoilNext]
@[simp] theorem pend_doApply (st : Nat) (j : AblJob) (residue : List (Nat × Nat)) (s : State) :
    (doApply st j residue s).pending = s.pending := by
  simp only [doApply]
  split
  · rw [pend_doEmpty]; repeat' split
    all_goals simp
  · rw [pend_ablRun]
    · rw [pend_stepCheck]; repeat' split
      all_goals simp
    · intro b s
      refine pend_ruleBlock _ _ _ _ _ ?_
      intro b s
      repeat' split
      all_goals first | rfl | simp
@[simp] theorem pend_setInbox (k : Nat) (l : List (Option (List Byte))) (s : State) : (setInbox k l s).pending = s.pending := by
  simp [setInbox]
@[simp] theorem pend_takeBuffers (x0 : Nat) (x1 : Nat) (x2 : AblJob) (s : State) : (takeBuffers x0 x1 x2 s).2.pending = s.pending := by
  induction x0 generalizing x1 x2 s with
  | zero => simp [takeBuffers]
  | succ k ih =>
    simp only [takeBuffers]
    repeat' split
    all_goals simp_all
@[simp] theorem pend_checkEnded (c : DWord) (s : State) : (checkEnded c s).pending = s.pending := by
  simp [checkEnded]
@[simp] theorem pend_execApply (st : StackId) (residue : List (Nat × Nat)) (s : State) : queueOf (execApply st residue s) = some s.pending := by
  simp only [execApply]
  repeat' (first | (simp; done) | dsimp only | split | (refine (pend_emBind _ _ (fun a s => ?_)).trans ?_) | (refine (pend_emMap _ (fun a s => ?_) _ _).trans ?_) | (refine (pend_foldl _ (fun s x => ?_) _ _).trans ?_) | (refine (pend_foldl2 _ (fun r x => ?_) _ _).trans ?_) | (refine pend_eq2 (by assumption) ?_) | (refine pend_eq3 (by assumption) ?_))
@[simp] theorem pend_execEmpty (st : StackId) (residue : List (Nat × Nat)) (s : State) : queueOf (execEmpty st residue s) = some s.pending := by
  simp only [execEmpty]
  repeat' (first | (simp; done) | dsimp only | split | (refine (pend_emBind _ _ (fun a s => ?_)).trans ?_) | (refine (pend_emMap _ (fun a s => ?_) _ _).trans ?_) | (refine (pend_foldl _ (fun s x => ?_) _ _).trans ?_) | (refine (pend_foldl2 _ (fun r x => ?_) _ _).trans ?_) | (refine pend_eq2 (by assumption) ?_) | (refine pend_eq3 (by assumption) ?_))
@[simp] theorem pend_execReimage (st : StackId) (residue : List (Nat × Nat)) (s : State) : queueOf (execReimage st residue s) = some s.pending := by
  simp only [execReimage]
  repeat' (first | (simp; done) | dsimp only | split | (refine (pend_emBind _ _ (fun a s => ?_)).trans ?_) | (refine (pend_emMap _ (fun a s => ?_) _ _).trans ?_) | (refine (pend_foldl _ (fun s x => ?_) _ _).trans ?_) | (refine (pend_foldl2 _ (fun r x => ?_) _ _).trans ?_) | (refine pend_eq2 (by assumption) ?_) | (refine pend_eq3 (by assumption) ?_))
@[simp] theorem pend_endInboxCmd (k : Nat) (s : State) : (endInboxCmd k s).pending = s.pending := by
  simp [endInboxCmd]
@[simp] theorem pend_execInboxBuffer (st : StackId) (ch : BitVec 4) (s : State) : queueOf (execInboxBuffer st ch s) = some s.pending := by
  simp only [execInboxBuffer]
  repeat' (first | (simp; done) | dsimp only | split | (refine (pend_emBind _ _ (fun a s => ?_)).trans ?_) | (refine (pend_emMap _ (fun a s => ?_) _ _).trans ?_) | (refine (pend_foldl _ (fun s x => ?_) _ _).trans ?_) | (refine (pend_foldl2 _ (fun r x => ?_) _ _).trans ?_) | (refine pend_eq2 (by assumption) ?_) | (refine pend_eq3 (by assumption) ?_))
@[simp] theorem pend_inboxReset (st : Nat) (ch : Nat) (s : State) : (inboxReset st ch s).pending = s.pending := by
  simp [inboxReset]
@[simp] theorem pend_execInboxReset (st : StackId) (ch : BitVec 4) (s : State) : queueOf (execInboxReset st ch s) = some s.pending := by
  simp [execInboxReset]
@[simp] theorem pend_execUpdate (q : QIdx) (seq : W32) (s : State) : queueOf (execUpdate q seq s) = some s.pending := by
  simp [execUpdate]
@[simp] theorem pend_execUpdPost (t : TileId) (da : DReg) (link : PairIdx) (linkEn : Bool) (s : State) : queueOf (execUpdPost t da link linkEn s) = some s.pending := by
  simp [execUpdPost]
@[simp] theorem pend_ablOwner (j : AblJob) (code : Status) (s : State) : (ablOwner j code s).pending = s.pending := by
  simp only [ablOwner]
  repeat' split
  all_goals simp_all
@[simp] theorem pend_ablTaken (j : AblJob) (s : State) : (ablTaken j s).pending = s.pending := by
  simp only [ablTaken]
  repeat' split
  all_goals simp_all
@[simp] theorem pend_execAblationCommandArrival (st : StackId) (s : State) : queueOf (execAblationCommandArrival st s) = some s.pending := by
  simp only [execAblationCommandArrival]
  repeat' (first | (simp; done) | dsimp only | split | (refine (pend_emBind _ _ (fun a s => ?_)).trans ?_) | (refine (pend_emMap _ (fun a s => ?_) _ _).trans ?_) | (refine (pend_foldl _ (fun s x => ?_) _ _).trans ?_) | (refine (pend_foldl2 _ (fun r x => ?_) _ _).trans ?_) | (refine pend_eq2 (by assumption) ?_) | (refine pend_eq3 (by assumption) ?_))
@[simp] theorem pend_ablErr (st : Nat) (c : DWord) (code : Status) (b : Nat) (s : State) : (ablErr st c code b s).pending = s.pending := by
  simp [ablErr]
@[simp] theorem pend_rgnEnd (r : Nat) (code : Status) (s : State) : (rgnEnd r code s).pending = s.pending := by
  simp [rgnEnd]
@[simp] theorem pend_setBct (c : DWord) (code : Status) (s : State) : (setBct c code s).pending = s.pending := by
  simp [setBct]
@[simp] theorem pend_execAblationCommandComplete (st : StackId) (s : State) : queueOf (execAblationCommandComplete st s) = some s.pending := by
  simp only [execAblationCommandComplete]
  repeat' (first | (simp; done) | dsimp only | split | (refine (pend_emBind _ _ (fun a s => ?_)).trans ?_) | (refine (pend_emMap _ (fun a s => ?_) _ _).trans ?_) | (refine (pend_foldl _ (fun s x => ?_) _ _).trans ?_) | (refine (pend_foldl2 _ (fun r x => ?_) _ _).trans ?_) | (refine pend_eq2 (by assumption) ?_) | (refine pend_eq3 (by assumption) ?_))
@[simp] theorem pend_execAblationCommandTimeout (st : StackId) (s : State) : queueOf (execAblationCommandTimeout st s) = some s.pending := by
  simp only [execAblationCommandTimeout]
  repeat' (first | (simp; done) | dsimp only | split | (refine (pend_emBind _ _ (fun a s => ?_)).trans ?_) | (refine (pend_emMap _ (fun a s => ?_) _ _).trans ?_) | (refine (pend_foldl _ (fun s x => ?_) _ _).trans ?_) | (refine (pend_foldl2 _ (fun r x => ?_) _ _).trans ?_) | (refine pend_eq2 (by assumption) ?_) | (refine pend_eq3 (by assumption) ?_))
@[simp] theorem pend_waitEnd (r : Nat) (code : Status) (s : State) : (waitEnd r code s).pending = s.pending := by
  simp only [waitEnd]
  repeat' split
  all_goals simp_all
@[simp] theorem pend_execReaderWaitTimeout (r : RegionId) (s : State) : queueOf (execReaderWaitTimeout r s) = some s.pending := by
  simp [execReaderWaitTimeout]
@[simp] theorem pend_ablDrain (st : Nat) (s : State) : (ablDrain st s).pending = s.pending := by
  simp only [ablDrain]
  repeat' split
  all_goals simp_all
@[simp] theorem pend_descWritten (r : Nat) (s : State) : (descWritten r s).pending = s.pending := by
  simp [descWritten]
@[simp] theorem pend_setAbState (st : Nat) (v : Nat) (s : State) : (setAbState st v s).pending = s.pending := by
  simp [setAbState]
@[simp] theorem pend_mcLoad (st : Nat) (s : State) : (mcLoad st s).pending = s.pending := by
  simp [mcLoad]
@[simp] theorem pend_execAblMcLoad (st : StackId) (s : State) : queueOf (execAblMcLoad st s) = some s.pending := by
  simp [execAblMcLoad]
@[simp] theorem pend_execAblDrainDone (st : StackId) (s : State) : queueOf (execAblDrainDone st s) = some s.pending := by
  simp [execAblDrainDone]
@[simp] theorem pend_mcRun (st : Nat) (s : State) : (mcRun st s).pending = s.pending := by
  simp [mcRun]
@[simp] theorem pend_execAblMcLoadDone (st : StackId) (s : State) : queueOf (execAblMcLoadDone st s) = some s.pending := by
  rw [execAblMcLoadDone]
  repeat' (first | (with_reducible split) | dsimp only)
  all_goals (repeat' (first | simp | (refine pend_eq2 (by assumption) ?_) | (refine pend_eq3 (by assumption) ?_) | (refine pend_eq4 (by assumption) ?_) | (rw [pend_foldl _ (fun s x => ?_)]) | with_reducible split))

/-! Recovery -/

@[simp] theorem pend_recSend (iss : Issuer) (dev : Nat) (addr : Nat) (op : MemOp) (s : State) : (recSend iss dev addr op s).pending = s.pending := by
  simp [recSend]
@[simp] theorem pend_recDrop (p : Issuer → Bool) (s : State) : (recDrop p s).pending = s.pending := by
  simp [recDrop]
@[simp] theorem pend_setMirState (v : Nat) (s : State) : (setMirState v s).pending = s.pending := by
  simp [setMirState]
@[simp] theorem pend_refreshBank (s : State) : (refreshBank s).pending = s.pending := by
  simp [refreshBank]
@[simp] theorem pend_setSharedFeed (s : State) : (setSharedFeed s).pending = s.pending := by
  rw [setSharedFeed, pend_foldl _ (fun s x => ?_)] <;> simp
@[simp] theorem pend_clearSharedFeed (s : State) : (clearSharedFeed s).pending = s.pending := by
  rw [clearSharedFeed, pend_foldl _ (fun s x => ?_)] <;> simp
@[simp] theorem pend_pair (s : State) : (pair s).pending = s.pending := by
  simp [pair]
@[simp] theorem pend_unpair (s : State) : (unpair s).pending = s.pending := by
  simp [unpair]
@[simp] theorem pend_execPair (s : State) : queueOf (execPair s) = some s.pending := by
  simp [execPair]
@[simp] theorem pend_execUnpair (s : State) : queueOf (execUnpair s) = some s.pending := by
  simp [execUnpair]
@[simp] theorem pend_execMirrorHeaderPoll (st : Status) (h : DWord) (s : State) : queueOf (execMirrorHeaderPoll st h s) = some s.pending := by
  simp [execMirrorHeaderPoll]
@[simp] theorem pend_execPairingTimeout (s : State) : queueOf (execPairingTimeout s) = some s.pending := by
  simp [execPairingTimeout]
@[simp] theorem pend_setRestart (b : Bool) (s : State) : (setRestart b s).pending = s.pending := by
  simp [setRestart]
@[simp] theorem pend_recStatus (st : Status) (s : State) : (recStatus st s).pending = s.pending := by
  simp [recStatus]
@[simp] theorem pend_setRecState (v : Nat) (s : State) : (setRecState v s).pending = s.pending := by
  simp [setRecState]
@[simp] theorem pend_setPend (l : List Nat) (s : State) : (setPend l s).pending = s.pending := by
  simp only [setPend]
  repeat' (first | (simp; done) | dsimp only | split | (refine (pend_emBind _ _ (fun a s => ?_)).trans ?_) | (refine (pend_emMap _ (fun a s => ?_) _ _).trans ?_) | (refine (pend_foldl _ (fun s x => ?_) _ _).trans ?_) | (refine (pend_foldl2 _ (fun r x => ?_) _ _).trans ?_) | (refine pend_eq2 (by assumption) ?_) | (refine pend_eq3 (by assumption) ?_))
@[simp] theorem pend_setReplay (b : Bool) (s : State) : (setReplay b s).pending = s.pending := by
  simp [setReplay]
@[simp] theorem pend_calveState (x : Nat) (s : State) : (calveState x s).2.pending = s.pending := by
  simp [calveState]
@[simp] theorem pend_calveGroup (g : Nat) (s : State) : (calveGroup g s).pending = s.pending := by
  simp [calveGroup]
@[simp] theorem pend_calveEffects (x : Nat) (slot : Nat) (s : State) : (calveEffects x slot s).pending = s.pending := by
  simp [calveEffects]
@[simp] theorem pend_calve (x : Nat) (s : State) : (calve x s).pending = s.pending := by
  simp only [calve]
  repeat' (first | (simp; done) | dsimp only | split | (refine (pend_emBind _ _ (fun a s => ?_)).trans ?_) | (refine (pend_emMap _ (fun a s => ?_) _ _).trans ?_) | (refine (pend_foldl _ (fun s x => ?_) _ _).trans ?_) | (refine (pend_foldl2 _ (fun r x => ?_) _ _).trans ?_) | (refine pend_eq2 (by assumption) ?_) | (refine pend_eq3 (by assumption) ?_))
@[simp] theorem pend_unfence (x : Nat) (s : State) : (unfence x s).pending = s.pending := by
  simp [unfence]
@[simp] theorem pend_fillFail (entry : Nat) (st : Status) (s : State) : (fillFail entry st s).pending = s.pending := by
  simp [fillFail]
@[simp] theorem pend_fillMove (s : State) : (fillMove s).2.pending = s.pending := by
  simp only [fillMove]
  repeat' (first | (simp; done) | dsimp only | split | (refine (pend_emBind _ _ (fun a s => ?_)).trans ?_) | (refine (pend_emMap _ (fun a s => ?_) _ _).trans ?_) | (refine (pend_foldl _ (fun s x => ?_) _ _).trans ?_) | (refine (pend_foldl2 _ (fun r x => ?_) _ _).trans ?_) | (refine pend_eq2 (by assumption) ?_) | (refine pend_eq3 (by assumption) ?_))
@[simp] theorem pend_fillPump (x0 : Nat) (s : State) : (fillPump x0 s).pending = s.pending := by
  induction x0 generalizing s with
  | zero => simp [fillPump]
  | succ k ih =>
    rw [fillPump]
    repeat' (first | (with_reducible split) | dsimp only)
    all_goals (repeat' (first | simp [ih] | (refine pend_eq2 (by assumption) ?_) | (refine pend_eq3 (by assumption) ?_) | with_reducible split))
@[simp] theorem pend_fillStart (s : State) : (fillStart s).pending = s.pending := by
  rw [fillStart]
  repeat' (first | (with_reducible split) | dsimp only)
  all_goals (repeat' (first | simp | (refine pend_eq2 (by assumption) ?_) | (refine pend_eq3 (by assumption) ?_) | (refine pend_eq4 (by assumption) ?_) | (rw [pend_foldl _ (fun s x => ?_)]) | with_reducible split))
@[simp] theorem pend_fillCmd (dev : Nat) (source : Nat) (snap : Bool) (s : State) : (fillCmd dev source snap s).pending = s.pending := by
  rw [fillCmd]
  repeat' (first | (with_reducible split) | dsimp only)
  all_goals (repeat' (first | simp | (refine pend_eq2 (by assumption) ?_) | (refine pend_eq3 (by assumption) ?_) | (refine pend_eq4 (by assumption) ?_) | (rw [pend_foldl _ (fun s x => ?_)]) | with_reducible split))
@[simp] theorem pend_doneCmd (s : State) : (doneCmd s).pending = s.pending := by
  simp only [doneCmd]
  repeat' (first | (simp; done) | dsimp only | split | (refine (pend_emBind _ _ (fun a s => ?_)).trans ?_) | (refine (pend_emMap _ (fun a s => ?_) _ _).trans ?_) | (refine (pend_foldl _ (fun s x => ?_) _ _).trans ?_) | (refine (pend_foldl2 _ (fun r x => ?_) _ _).trans ?_) | (refine pend_eq2 (by assumption) ?_) | (refine pend_eq3 (by assumption) ?_))
@[simp] theorem pend_clearCmd (s : State) : (clearCmd s).pending = s.pending := by
  simp only [clearCmd]
  repeat' (first | (simp; done) | dsimp only | split | (refine (pend_emBind _ _ (fun a s => ?_)).trans ?_) | (refine (pend_emMap _ (fun a s => ?_) _ _).trans ?_) | (refine (pend_foldl _ (fun s x => ?_) _ _).trans ?_) | (refine (pend_foldl2 _ (fun r x => ?_) _ _).trans ?_) | (refine pend_eq2 (by assumption) ?_) | (refine pend_eq3 (by assumption) ?_))
@[simp] theorem pend_recCmd (f : State → State) (s : State) (hf : ∀ (y0 : State), (f y0).pending = y0.pending) : queueOf (recCmd f s) = some s.pending := by
  simp [recCmd, hf]
@[simp] theorem pend_execCalve (dev : DevId) (s : State) : queueOf (execCalve dev s) = some s.pending := by
  simp [execCalve]
@[simp] theorem pend_execCalveComplete (s : State) : queueOf (execCalveComplete s) = some s.pending := by
  simp [execCalveComplete]
@[simp] theorem pend_execFill (dev : DevId) (source : DevId) (snap : Bool) (s : State) : queueOf (execFill dev source snap s) = some s.pending := by
  simp [execFill]
@[simp] theorem pend_execDone (s : State) : queueOf (execDone s) = some s.pending := by
  simp [execDone]
@[simp] theorem pend_execClear (s : State) : queueOf (execClear s) = some s.pending := by
  simp [execClear]
@[simp] theorem pend_execUnfence (dev : DevId) (s : State) : queueOf (execUnfence dev s) = some s.pending := by
  simp [execUnfence]
@[simp] theorem pend_execFillReadReply (id : Nat) (s : State) : queueOf (execFillReadReply id s) = some s.pending := by
  simp only [execFillReadReply]
  repeat' (first | (simp; done) | dsimp only | split | (refine (pend_emBind _ _ (fun a s => ?_)).trans ?_) | (refine (pend_emMap _ (fun a s => ?_) _ _).trans ?_) | (refine (pend_foldl _ (fun s x => ?_) _ _).trans ?_) | (refine (pend_foldl2 _ (fun r x => ?_) _ _).trans ?_) | (refine pend_eq2 (by assumption) ?_) | (refine pend_eq3 (by assumption) ?_))
@[simp] theorem pend_execFillDone (s : State) : queueOf (execFillDone s) = some s.pending := by
  simp only [execFillDone]
  repeat' (first | (simp; done) | dsimp only | split | (refine (pend_emBind _ _ (fun a s => ?_)).trans ?_) | (refine (pend_emMap _ (fun a s => ?_) _ _).trans ?_) | (refine (pend_foldl _ (fun s x => ?_) _ _).trans ?_) | (refine (pend_foldl2 _ (fun r x => ?_) _ _).trans ?_) | (refine pend_eq2 (by assumption) ?_) | (refine pend_eq3 (by assumption) ?_))

/-! Firn -/

@[simp] theorem pend_readRecord (q : QIdx) (step : Nat) (s : State) : (readRecord q step s).2.2.pending = s.pending := by
  simp [readRecord]
@[simp] theorem pend_writeRec (q : QIdx) (step : Nat) (l : List Byte) (s : State) : (writeRec q step l s).2.pending = s.pending := by
  simp [writeRec]
@[simp] theorem pend_sendRecord (q : QIdx) (seq : W32) (step : Nat) (l : List Byte) (s : State) : (sendRecord q seq step l s).pending = s.pending := by
  simp [sendRecord]
@[simp] theorem pend_beginDone (q : QIdx) (c : Cmd) (s : State) : (beginDone q c s).pending = s.pending := by
  simp [beginDone]
@[simp] theorem pend_beginRecord (q : QIdx) (c : Cmd) (seeds : List Byte) (s : State) : (beginRecord q c seeds s).pending = s.pending := by
  simp [beginRecord]
@[simp] theorem pend_beginLogged (q : QIdx) (c : Cmd) (s : State) : (beginLogged q c s).pending = s.pending := by
  simp [beginLogged]
@[simp] theorem pend_execStepBegin (q : QIdx) (seq : W32) (s : State) : queueOf (execStepBegin q seq s) = some s.pending := by
  simp [execStepBegin]
@[simp] theorem pend_execFirnRecordDurable (q : QIdx) (seq : W32) (s : State) : queueOf (execFirnRecordDurable q seq s) = some s.pending := by
  simp only [execFirnRecordDurable]
  repeat' (first | (simp; done) | dsimp only | split | (refine (pend_emBind _ _ (fun a s => ?_)).trans ?_) | (refine (pend_emMap _ (fun a s => ?_) _ _).trans ?_) | (refine (pend_foldl _ (fun s x => ?_) _ _).trans ?_) | (refine (pend_foldl2 _ (fun r x => ?_) _ _).trans ?_) | (refine pend_eq2 (by assumption) ?_) | (refine pend_eq3 (by assumption) ?_))
@[simp] theorem pend_stepEndDone (p : Push) (st : Status) (s : State) : (stepEndDone p st s).pending = s.pending := by
  simp [stepEndDone]
@[simp] theorem pend_setPush (p : Push) (s : State) : (setPush p s).pending = s.pending := by
  simp [setPush]
@[simp] theorem pend_pushEnd (p : Push) (st : Status) (pushed : Bool) (s : State) : (pushEnd p st pushed s).pending = s.pending := by
  simp [pushEnd]
@[simp] theorem pend_sendStepB (p : Push) (v : Nat) (s : State) : (sendStepB p v s).pending = s.pending := by
  simp [sendStepB]
@[simp] theorem pend_sendEntry (p : Push) (e : Nat × Nat × Nat) (s : State) : (sendEntry p e s).2.pending = s.pending := by
  simp [sendEntry]
@[simp] theorem pend_sendEntries (p : Push) (s : State) : (sendEntries p s).2.pending = s.pending := by
  simp [sendEntries]
@[simp] theorem pend_pushMove (p : Push) (s : State) : (pushMove p s).pending = s.pending := by
  simp only [pushMove]
  repeat' split
  all_goals (try simp)
  all_goals (repeat (first | (refine pend_eq2 (by assumption) ?_; try simp) | (refine pend_eq3 (by assumption) ?_; try simp)))
@[simp] theorem pend_pushAdvance (x0 : Nat) (x1 : QIdx) (x2 : W32) (s : State) : (pushAdvance x0 x1 x2 s).pending = s.pending := by
  induction x0 generalizing x1 x2 s with
  | zero => simp [pushAdvance]
  | succ k ih =>
    simp only [pushAdvance]
    repeat' split
    all_goals (try simp [*])
    all_goals (repeat (first | (refine pend_eq2 (by assumption) ?_; try simp [ih]) | (refine pend_eq3 (by assumption) ?_; try simp [ih])))
@[simp] theorem pend_stepEndPush (q : QIdx) (c : Cmd) (rec : Bool) (s : State) : (stepEndPush q c rec s).pending = s.pending := by
  simp [stepEndPush]
@[simp] theorem pend_stepEndLoss (q : QIdx) (c : Cmd) (rec : List Byte) (loss : List Byte) (s : State) : (stepEndLoss q c rec loss s).pending = s.pending := by
  simp [stepEndLoss]
@[simp] theorem pend_stepEndLogged (q : QIdx) (c : Cmd) (s : State) : (stepEndLogged q c s).pending = s.pending := by
  simp [stepEndLogged]
@[simp] theorem pend_execStepEnd (q : QIdx) (seq : W32) (s : State) : queueOf (execStepEnd q seq s) = some s.pending := by
  simp only [execStepEnd]
  repeat' (first | (simp; done) | dsimp only | split | (refine (pend_emBind _ _ (fun a s => ?_)).trans ?_) | (refine (pend_emMap _ (fun a s => ?_) _ _).trans ?_) | (refine (pend_foldl _ (fun s x => ?_) _ _).trans ?_) | (refine (pend_foldl2 _ (fun r x => ?_) _ _).trans ?_) | (refine pend_eq2 (by assumption) ?_) | (refine pend_eq3 (by assumption) ?_))
@[simp] theorem pend_execFirnCommitWrite (step : W32) (s : State) : queueOf (execFirnCommitWrite step s) = some s.pending := by
  simp [execFirnCommitWrite]

/-! Fabric -/

@[simp] theorem pend_renewPort (p : Nat) (s : State) : (renewPort p s).pending = s.pending := by
  simp [renewPort]
@[simp] theorem pend_dropPort (p : Nat) (s : State) : (dropPort p s).pending = s.pending := by
  simp [dropPort]
@[simp] theorem pend_hostPort (p : PortId) (f : State → State) (s : State) (hf : ∀ (y0 : State), (f y0).pending = y0.pending) : queueOf (hostPort p f s) = some s.pending := by
  simp [hostPort, hf]
@[simp] theorem pend_portEnable (p : Nat) (s : State) : (portEnable p s).pending = s.pending := by
  simp [portEnable]
@[simp] theorem pend_portDisable (p : Nat) (s : State) : (portDisable p s).pending = s.pending := by
  simp [portDisable]
@[simp] theorem pend_fabricDisable (s : State) : (fabricDisable s).pending = s.pending := by
  simp [fabricDisable]
@[simp] theorem pend_portRetrain (p : Nat) (s : State) : (portRetrain p s).pending = s.pending := by
  simp [portRetrain]
@[simp] theorem pend_execPortEnable (p : PortId) (s : State) : queueOf (execPortEnable p s) = some s.pending := by
  simp [execPortEnable]
@[simp] theorem pend_execPortDisable (p : PortId) (s : State) : queueOf (execPortDisable p s) = some s.pending := by
  simp [execPortDisable]
@[simp] theorem pend_execFabricDisable (s : State) : queueOf (execFabricDisable s) = some s.pending := by
  simp [execFabricDisable]
@[simp] theorem pend_execPortTrained (p : PortId) (s : State) : queueOf (execPortTrained p s) = some s.pending := by
  simp [execPortTrained]
@[simp] theorem pend_execPortAckTimeout (p : PortId) (s : State) : queueOf (execPortAckTimeout p s) = some s.pending := by
  simp [execPortAckTimeout]
@[simp] theorem pend_execLaneLockLost (p : PortId) (s : State) : queueOf (execLaneLockLost p s) = some s.pending := by
  simp [execLaneLockLost]
@[simp] theorem pend_execPortRetrained (p : PortId) (s : State) : queueOf (execPortRetrained p s) = some s.pending := by
  simp [execPortRetrained]
@[simp] theorem pend_execRetrainTimeout (p : PortId) (s : State) : queueOf (execRetrainTimeout p s) = some s.pending := by
  simp [execRetrainTimeout]
@[simp] theorem pend_execPortDrainDone (p : PortId) (s : State) : queueOf (execPortDrainDone p s) = some s.pending := by
  simp [execPortDrainDone]
@[simp] theorem pend_takeAck (p : Nat) (ack : Nat) (s : State) : (takeAck p ack s).pending = s.pending := by
  simp [takeAck]
@[simp] theorem pend_takeCredits (p : Nat) (g : LinkGroup) (s : State) : (takeCredits p g s).pending = s.pending := by
  simp [takeCredits]
@[simp] theorem pend_execLinkGroupReceive (p : PortId) (g : LinkGroup) (corr : Nat) (unc : Nat) (s : State) : queueOf (execLinkGroupReceive p g corr unc s) = some s.pending := by
  simp [execLinkGroupReceive]
@[simp] theorem pend_execFabricHoldDrop (i : Nat) (s : State) : queueOf (execFabricHoldDrop i s) = some s.pending := by
  simp only [execFabricHoldDrop]
  repeat' (first | (simp; done) | dsimp only | split | (refine (pend_emBind _ _ (fun a s => ?_)).trans ?_) | (refine (pend_emMap _ (fun a s => ?_) _ _).trans ?_) | (refine (pend_foldl _ (fun s x => ?_) _ _).trans ?_) | (refine (pend_foldl2 _ (fun r x => ?_) _ _).trans ?_) | (refine pend_eq2 (by assumption) ?_) | (refine pend_eq3 (by assumption) ?_))
@[simp] theorem pend_answer (k : Packet) (st : Status) (data : List Byte) (s : State) : (answer k st data s).pending = s.pending := by
  simp [answer]
@[simp] theorem pend_orphanPkt (s : State) : (orphanPkt s).pending = s.pending := by
  simp [orphanPkt]
@[simp] theorem pend_takeIn (p : Nat) (k : Packet) (s : State) : (takeIn p k s).pending = s.pending := by
  simp [takeIn]
@[simp] theorem pend_passed (p : Nat) (k : Packet) (s : State) : (passed p k s).pending = s.pending := by
  simp [passed]
@[simp] theorem pend_packetIn (p : PortId) (k : Packet) (bad : Bool) (is : Packet → Bool) (serve : InBuf → State → State) (s : State) (hserve : ∀ (y0 : InBuf) (y1 : State), (serve y0 y1).pending = y1.pending) : queueOf (packetIn p k bad is serve s) = some s.pending := by
  simp [packetIn, hserve]
@[simp] theorem pend_atTarget (k : Packet) (f : State → Status × List Byte × State) (s : State) (hf : ∀ (y0 : State), (f y0).2.2.pending = y0.pending) : (atTarget k f s).pending = s.pending := by
  rw [atTarget]
  repeat' (first | (with_reducible split) | dsimp only)
  all_goals (repeat' (first | simp [hf] | (refine pend_eq2 (by assumption) ?_) | (refine pend_eq3 (by assumption) ?_) | (refine pend_eq4 (by assumption) ?_) | (rw [pend_foldl _ (fun s x => ?_)]) | with_reducible split))
@[simp] theorem pend_packetLine (k : Packet) (cells : List (Nat × Byte)) (s : State) : (packetLine k cells s).2.pending = s.pending := by
  simp only [packetLine]
  repeat' split
  all_goals simp_all
@[simp] theorem pend_packetLines (k : Packet) (x0 : List (List (Nat × Byte))) (s : State) : (packetLines k x0 s).2.pending = s.pending := by
  induction x0 generalizing s with
  | nil => simp [packetLines]
  | cons a l ih =>
    simp only [packetLines]
    repeat' split
    all_goals simp_all
@[simp] theorem pend_execWrite (p : PortId) (k : Packet) (bad : Bool) (s : State) : queueOf (execWrite p k bad s) = some s.pending := by
  simp [execWrite]
@[simp] theorem pend_execRead (p : PortId) (k : Packet) (bad : Bool) (s : State) : queueOf (execRead p k bad s) = some s.pending := by
  simp [execRead]
@[simp] theorem pend_execAadd (p : PortId) (k : Packet) (bad : Bool) (s : State) : queueOf (execAadd p k bad s) = some s.pending := by
  simp only [execAadd]
  repeat' (first | (simp; done) | dsimp only | split | (refine (pend_emBind _ _ (fun a s => ?_)).trans ?_) | (refine (pend_emMap _ (fun a s => ?_) _ _).trans ?_) | (refine (pend_foldl _ (fun s x => ?_) _ _).trans ?_) | (refine (pend_foldl2 _ (fun r x => ?_) _ _).trans ?_) | (refine pend_eq2 (by assumption) ?_) | (refine pend_eq3 (by assumption) ?_))
@[simp] theorem pend_execPost (p : PortId) (k : Packet) (bad : Bool) (s : State) : queueOf (execPost p k bad s) = some s.pending := by
  simp [execPost]
@[simp] theorem pend_execNoticeEpoch (p : PortId) (k : Packet) (bad : Bool) (s : State) :
    queueOf (execNoticeEpoch p k bad s) = some s.pending := by
  rw [execNoticeEpoch, pend_packetIn]
  intro _ s
  dsimp only
  with_reducible split
  · rfl
  · with_reducible split <;> simp
@[simp] theorem pend_execNoticeAbort (p : PortId) (k : Packet) (bad : Bool) (s : State) : queueOf (execNoticeAbort p k bad s) = some s.pending := by
  simp [execNoticeAbort]
@[simp] theorem pend_execSeg (p : PortId) (k : Packet) (bad : Bool) (s : State) : queueOf (execSeg p k bad s) = some s.pending := by
  simp [execSeg]
@[simp] theorem pend_orphanReply (k : Packet) (s : State) : (orphanReply k s).pending = s.pending := by
  simp [orphanReply]
@[simp] theorem pend_execReply (p : PortId) (k : Packet) (bad : Bool) (s : State) :
    queueOf (execReply p k bad s) = some s.pending := by
  rw [execReply, pend_packetIn]
  intro _ s
  dsimp only
  repeat' with_reducible split
  all_goals simp

/-! Ledger -/

@[simp] theorem pend_modLedger (s : State) (f : Ledger → Ledger) : (State.modLedger s f).pending = s.pending := by
  simp [State.modLedger]
@[simp] theorem pend_setDivider (d : Nat) (s : State) : (setDivider d s).pending = s.pending := by
  simp [setDivider]
@[simp] theorem pend_requestVolt (target : Nat) (goal : Option Nat) (s : State) : (requestVolt target goal s).pending = s.pending := by
  simp [requestVolt]
@[simp] theorem pend_slowTo (d : Nat) (s : State) : (slowTo d s).pending = s.pending := by
  simp [slowTo]
@[simp] theorem pend_endVolt (s : State) : (endVolt s).pending = s.pending := by
  simp [endVolt]
@[simp] theorem pend_execAvsVdone (s : State) : queueOf (execAvsVdone s) = some s.pending := by
  simp only [execAvsVdone]
  repeat' (first | (simp; done) | dsimp only | split | (refine (pend_emBind _ _ (fun a s => ?_)).trans ?_) | (refine (pend_emMap _ (fun a s => ?_) _ _).trans ?_) | (refine (pend_foldl _ (fun s x => ?_) _ _).trans ?_) | (refine (pend_foldl2 _ (fun r x => ?_) _ _).trans ?_) | (refine pend_eq2 (by assumption) ?_) | (refine pend_eq3 (by assumption) ?_))
@[simp] theorem pend_execAvsAttemptTimeout (s : State) : queueOf (execAvsAttemptTimeout s) = some s.pending := by
  simp only [execAvsAttemptTimeout]
  repeat' (first | (simp; done) | dsimp only | split | (refine (pend_emBind _ _ (fun a s => ?_)).trans ?_) | (refine (pend_emMap _ (fun a s => ?_) _ _).trans ?_) | (refine (pend_foldl _ (fun s x => ?_) _ _).trans ?_) | (refine (pend_foldl2 _ (fun r x => ?_) _ _).trans ?_) | (refine pend_eq2 (by assumption) ?_) | (refine pend_eq3 (by assumption) ?_))
@[simp] theorem pend_attributeUse (counts : List EventCount) (s : State) : (attributeUse counts s).pending = s.pending := by
  simp [attributeUse]
@[simp] theorem pend_setBal (b : Int) (s : State) : (setBal b s).pending = s.pending := by
  simp [setBal]
@[simp] theorem pend_visit (mode : Nat) (q : QIdx) (seq : W32) (k : PassLog) (s : State) : (visit mode q seq k s).2.pending = s.pending := by
  simp only [visit]
  repeat' split
  all_goals simp_all
@[simp] theorem pend_visitAll (mode : Nat) (x0 : List (QIdx × Cmd)) (x1 : PassLog) (s : State) : (visitAll mode x0 x1 s).2.pending = s.pending := by
  induction x0 generalizing x1 s with
  | nil => simp [visitAll]
  | cons a l ih =>
    simp only [visitAll]
    repeat' split
    all_goals simp_all
@[simp] theorem pend_ageCandidates (n : Nat) (s : State) : (ageCandidates n s).pending = s.pending := by
  simp [ageCandidates]
@[simp] theorem pend_foldTag (tag : Nat) (used : Nat) (est : Nat) (s : State) : (foldTag tag used est s).pending = s.pending := by
  simp [foldTag]
@[simp] theorem pend_passTags (s : State) : (passTags s).pending = s.pending := by
  simp [passTags]
@[simp] theorem pend_upset (u : Upset) (s : State) : (upset u s).pending = s.pending := by
  simp only [upset]
  repeat' (first | (simp; done) | dsimp only | split | (refine (pend_emBind _ _ (fun a s => ?_)).trans ?_) | (refine (pend_emMap _ (fun a s => ?_) _ _).trans ?_) | (refine (pend_foldl _ (fun s x => ?_) _ _).trans ?_) | (refine (pend_foldl2 _ (fun r x => ?_) _ _).trans ?_) | (refine pend_eq2 (by assumption) ?_) | (refine pend_eq3 (by assumption) ?_))
@[simp] theorem pend_passBalance (counts : List EventCount) (s : State) : (passBalance counts s).pending = s.pending := by
  simp [passBalance]
@[simp] theorem pend_passMode (tj : Nat) (brake : Bool) (s : State) : (passMode tj brake s).pending = s.pending := by
  simp [passMode]
@[simp] theorem pend_passSpeed (k : PassLog) (s : State) : (passSpeed k s).pending = s.pending := by
  simp [passSpeed]
@[simp] theorem pend_passEnd (k : PassLog) (s : State) : (passEnd k s).pending = s.pending := by
  simp [passEnd]
@[simp] theorem pend_execLedgerTick (counts : List EventCount) (moves : List MeshMove) (upsets : List Upset) (tj : BitVec 8) (pwrbrk : Bool) (s : State) : queueOf (execLedgerTick counts moves upsets tj pwrbrk s) = some s.pending := by
  simp only [execLedgerTick]
  repeat' (first | (simp; done) | dsimp only | split | (refine (pend_emBind _ _ (fun a s => ?_)).trans ?_) | (refine (pend_emMap _ (fun a s => ?_) _ _).trans ?_) | (refine (pend_foldl _ (fun s x => ?_) _ _).trans ?_) | (refine (pend_foldl2 _ (fun r x => ?_) _ _).trans ?_) | (refine pend_eq2 (by assumption) ?_) | (refine pend_eq3 (by assumption) ?_))
@[simp] theorem pend_execReconcile (measured : Option (BitVec 64)) (s : State) : queueOf (execReconcile measured s) = some s.pending := by
  simp only [execReconcile]
  repeat' (first | (simp; done) | dsimp only | split | (refine (pend_emBind _ _ (fun a s => ?_)).trans ?_) | (refine (pend_emMap _ (fun a s => ?_) _ _).trans ?_) | (refine (pend_foldl _ (fun s x => ?_) _ _).trans ?_) | (refine (pend_foldl2 _ (fun r x => ?_) _ _).trans ?_) | (refine pend_eq2 (by assumption) ?_) | (refine pend_eq3 (by assumption) ?_))
@[simp] theorem pend_tagClr (s : State) : (tagClr s).pending = s.pending := by
  simp [tagClr]
@[simp] theorem pend_execTagClr (s : State) : queueOf (execTagClr s) = some s.pending := by
  simp [execTagClr]
@[simp] theorem pend_ledgerTakeover (ns : Nat) (s : State) : (ledgerTakeover ns s).pending = s.pending := by
  simp [ledgerTakeover]

/-! Domain -/

@[simp] theorem pend_modPower (s : State) (f : Power → Power) : (State.modPower s f).pending = s.pending := by
  simp [State.modPower]
@[simp] theorem pend_setDst (n : Nat) (v : Nat) (s : State) : (setDst n v s).pending = s.pending := by
  simp [setDst]
@[simp] theorem pend_ctlFixups (cp : Nat) (s : State) : (ctlFixups cp s).pending = s.pending := by
  simp [ctlFixups]
@[simp] theorem pend_wipeRange (lo : Nat) (hi : Nat) (s : State) : (wipeRange lo hi s).pending = s.pending := by
  simp [wipeRange]
@[simp] theorem pend_wipeFio (f : Nat) (s : State) : (wipeFio f s).pending = s.pending := by
  simp [wipeFio]
@[simp] theorem pend_wipeCtl (s : State) : (wipeCtl s).pending = s.pending := by
  simp [wipeCtl]
@[simp] theorem pend_resetDom (n : Nat) (s : State) : (resetDom n s).pending = s.pending := by
  simp [resetDom]
@[simp] theorem pend_fioDrain (f : Nat) (s : State) : (fioDrain f s).pending = s.pending := by
  rw [fioDrain]
  repeat' (first | (with_reducible split) | dsimp only)
  all_goals (repeat' (first | simp | (refine pend_eq2 (by assumption) ?_) | (refine pend_eq3 (by assumption) ?_) | (refine pend_eq4 (by assumption) ?_) | (rw [pend_foldl _ (fun s x => ?_)]) | with_reducible split))
@[simp] theorem pend_drainUnits (n : Nat) (force : Bool) (s : State) : (drainUnits n force s).pending = s.pending := by
  rw [drainUnits]
  repeat' (first | (with_reducible split) | dsimp only)
  all_goals (repeat' (first | simp | (refine pend_eq2 (by assumption) ?_) | (refine pend_eq3 (by assumption) ?_) | (refine pend_eq4 (by assumption) ?_) | (rw [pend_foldl _ (fun s x => ?_)]) | with_reducible split))
@[simp] theorem pend_holdReq (n : Nat) (r : Nat) (force : Bool) (s : State) : (holdReq n r force s).pending = s.pending := by
  simp [holdReq]
@[simp] theorem pend_dropReqHeld (n : Nat) (s : State) : (dropReqHeld n s).pending = s.pending := by
  simp [dropReqHeld]
@[simp] theorem pend_setTries (n : Nat) (v : Nat) (s : State) : (setTries n v s).pending = s.pending := by
  simp [setTries]
@[simp] theorem pend_powerUp (n : Nat) (s : State) : (powerUp n s).pending = s.pending := by
  simp [powerUp]
@[simp] theorem pend_powerNeeds (n : Nat) (s : State) : (powerNeeds n s).pending = s.pending := by
  simp [powerNeeds]
@[simp] theorem pend_askOn (n : Nat) (s : State) : (askOn n s).pending = s.pending := by
  simp [askOn]
@[simp] theorem pend_startDrain (n : Nat) (r : Nat) (force : Bool) (s : State) : (startDrain n r force s).pending = s.pending := by
  rw [startDrain]
  repeat' (first | (with_reducible split) | dsimp only)
  all_goals (repeat' (first | simp | (refine pend_eq2 (by assumption) ?_) | (refine pend_eq3 (by assumption) ?_) | (refine pend_eq4 (by assumption) ?_) | (rw [pend_foldl _ (fun s x => ?_)]) | with_reducible split))
@[simp] theorem pend_askDown (n : Nat) (r : Nat) (force : Bool) (s : State) : (askDown n r force s).pending = s.pending := by
  rw [askDown]
  repeat' (first | (with_reducible split) | dsimp only)
  all_goals (repeat' (first | simp | (refine pend_eq2 (by assumption) ?_) | (refine pend_eq3 (by assumption) ?_) | (refine pend_eq4 (by assumption) ?_) | (rw [pend_foldl _ (fun s x => ?_)]) | with_reducible split))
@[simp] theorem pend_askAon (r : Nat) (s : State) : (askAon r s).pending = s.pending := by
  simp [askAon]
@[simp] theorem pend_askDom (n : Nat) (r : Nat) (force : Bool) (s : State) : (askDom n r force s).pending = s.pending := by
  rw [askDom]
  repeat' (first | (with_reducible split) | dsimp only)
  all_goals (repeat' (first | simp | (refine pend_eq2 (by assumption) ?_) | (refine pend_eq3 (by assumption) ?_) | (refine pend_eq4 (by assumption) ?_) | (rw [pend_foldl _ (fun s x => ?_)]) | with_reducible split))
@[simp] theorem pend_settleDom (n : Nat) (s : State) : (settleDom n s).pending = s.pending := by
  rw [settleDom]
  repeat' (first | (with_reducible split) | dsimp only)
  all_goals (repeat' (first | simp | (refine pend_eq2 (by assumption) ?_) | (refine pend_eq3 (by assumption) ?_) | (refine pend_eq4 (by assumption) ?_) | (rw [pend_foldl _ (fun s x => ?_)]) | with_reducible split))
@[simp] theorem pend_settle (s : State) : (settle s).pending = s.pending := by
  rw [settle]
  repeat' (first | (with_reducible split) | dsimp only)
  all_goals (repeat' (first | simp | (refine pend_eq2 (by assumption) ?_) | (refine pend_eq3 (by assumption) ?_) | (refine pend_eq4 (by assumption) ?_) | (rw [pend_foldl _ (fun s x => ?_)]) | with_reducible split))
@[simp] theorem pend_seqEnd (n : Nat) (reached : Nat) (s : State) : (seqEnd n reached s).pending = s.pending := by
  rw [seqEnd]
  repeat' (first | (with_reducible split) | dsimp only)
  all_goals (repeat' (first | simp | (refine pend_eq2 (by assumption) ?_) | (refine pend_eq3 (by assumption) ?_) | (refine pend_eq4 (by assumption) ?_) | (rw [pend_foldl _ (fun s x => ?_)]) | with_reducible split))
@[simp] theorem pend_modeRequest (m : Nat) (s : State) : (modeRequest m s).pending = s.pending := by
  rw [modeRequest]
  repeat' (first | (with_reducible split) | dsimp only)
  all_goals (repeat' (first | simp | (refine pend_eq2 (by assumption) ?_) | (refine pend_eq3 (by assumption) ?_) | (refine pend_eq4 (by assumption) ?_) | (rw [pend_foldl _ (fun s x => ?_)]) | with_reducible split))
@[simp] theorem pend_execModeRequest (m : BitVec 2) (s : State) : queueOf (execModeRequest m s) = some s.pending := by
  simp [execModeRequest]
@[simp] theorem pend_domRequest (n : Nat) (v : Nat) (s : State) : (domRequest n v s).pending = s.pending := by
  rw [domRequest]
  repeat' (first | (with_reducible split) | dsimp only)
  all_goals (repeat' (first | simp | (refine pend_eq2 (by assumption) ?_) | (refine pend_eq3 (by assumption) ?_) | (refine pend_eq4 (by assumption) ?_) | (rw [pend_foldl _ (fun s x => ?_)]) | with_reducible split))
@[simp] theorem pend_execDomainRequest (n : DomId) (v : BitVec 4) (s : State) : queueOf (execDomainRequest n v s) = some s.pending := by
  simp [execDomainRequest]
@[simp] theorem pend_reachOn (n : Nat) (s : State) : (reachOn n s).pending = s.pending := by
  rw [reachOn]
  repeat' (first | (with_reducible split) | dsimp only)
  all_goals (repeat' (first | simp | (refine pend_eq2 (by assumption) ?_) | (refine pend_eq3 (by assumption) ?_) | (refine pend_eq4 (by assumption) ?_) | (rw [pend_foldl _ (fun s x => ?_)]) | with_reducible split))
@[simp] theorem pend_execDomainPowerUpDone (n : DomId) (s : State) : queueOf (execDomainPowerUpDone n s) = some s.pending := by
  simp [execDomainPowerUpDone]
@[simp] theorem pend_powerUpFail (n : Nat) (s : State) : (powerUpFail n s).pending = s.pending := by
  rw [powerUpFail]
  repeat' (first | (with_reducible split) | dsimp only)
  all_goals (repeat' (first | simp | (refine pend_eq2 (by assumption) ?_) | (refine pend_eq3 (by assumption) ?_) | (refine pend_eq4 (by assumption) ?_) | (rw [pend_foldl _ (fun s x => ?_)]) | with_reducible split))
@[simp] theorem pend_execDomainPowerUpTimeout (n : DomId) (s : State) : queueOf (execDomainPowerUpTimeout n s) = some s.pending := by
  simp [execDomainPowerUpTimeout]
@[simp] theorem pend_execDomainInitDone (n : DomId) (s : State) : queueOf (execDomainInitDone n s) = some s.pending := by
  simp [execDomainInitDone]
@[simp] theorem pend_execDomainInitTimeout (n : DomId) (s : State) : queueOf (execDomainInitTimeout n s) = some s.pending := by
  simp [execDomainInitTimeout]
@[simp] theorem pend_execRimeExitDone (n : DomId) (s : State) : queueOf (execRimeExitDone n s) = some s.pending := by
  simp [execRimeExitDone]
@[simp] theorem pend_execDomainPowerDownDone (n : DomId) (s : State) : queueOf (execDomainPowerDownDone n s) = some s.pending := by
  simp [execDomainPowerDownDone]
@[simp] theorem pend_execStandbyMirrorComplete (s : State) : queueOf (execStandbyMirrorComplete s) = some s.pending := by
  simp [execStandbyMirrorComplete]
@[simp] theorem pend_wakeRecord (v : Nat) (s : State) : (wakeRecord v s).pending = s.pending := by
  simp [wakeRecord]
@[simp] theorem pend_wakeUp (srcs : Nat) (s : State) : (wakeUp srcs s).pending = s.pending := by
  rw [wakeUp]
  repeat' (first | (with_reducible split) | dsimp only)
  all_goals (repeat' (first | simp | (refine pend_eq2 (by assumption) ?_) | (refine pend_eq3 (by assumption) ?_) | (refine pend_eq4 (by assumption) ?_) | (rw [pend_foldl _ (fun s x => ?_)]) | with_reducible split))
@[simp] theorem pend_execWakeEvent (srcs : BitVec 5) (s : State) : queueOf (execWakeEvent srcs s) = some s.pending := by
  simp [execWakeEvent]
@[simp] theorem pend_execRimeEntryDone (n : DomId) (levels : BitVec 5) (s : State) : queueOf (execRimeEntryDone n levels s) = some s.pending := by
  simp [execRimeEntryDone]
@[simp] theorem pend_drainOver (n : Nat) (s : State) : (drainOver n s).pending = s.pending := by
  simp [drainOver]

/-! Reset -/

@[simp] theorem pend_modMgmt (s : State) (f : Mgmt → Mgmt) : (State.modMgmt s f).pending = s.pending := by
  simp [State.modMgmt]
@[simp] theorem pend_wipe (keepHbm : Bool) (s : State) : (wipe keepHbm s).pending = s.pending := by
  simp [wipe]
@[simp] theorem pend_setAllDst (v : Nat) (s : State) : (setAllDst v s).pending = s.pending := by
  simp [setAllDst]
@[simp] theorem pend_shutAll (s : State) : (shutAll s).pending = s.pending := by
  simp [shutAll]
@[simp] theorem pend_setMeas (i : Nat) (d : DWord) (s : State) : (setMeas i d s).pending = s.pending := by
  simp [setMeas]
@[simp] theorem pend_checkRepair (b : SelfTest) (s : State) : (checkRepair b s).pending = s.pending := by
  simp only [checkRepair]
  repeat' (first | rfl | split)
  all_goals simp_all [Prod.ext_iff]
@[simp] theorem pend_bootStages (slot : Nat) (fell : Bool) (s : State) : (bootStages slot fell s).pending = s.pending := by
  simp [bootStages]
@[simp] theorem pend_bootPrimary (b : SelfTest) (s : State) : (bootPrimary b s).pending = s.pending := by
  simp [bootPrimary]
@[simp] theorem pend_bootUp (b : SelfTest) (s : State) : (bootUp b s).pending = s.pending := by
  simp only [bootUp]
  repeat' (first | (simp; done) | dsimp only | split | (refine (pend_emBind _ _ (fun a s => ?_)).trans ?_) | (refine (pend_emMap _ (fun a s => ?_) _ _).trans ?_) | (refine (pend_foldl _ (fun s x => ?_) _ _).trans ?_) | (refine (pend_foldl2 _ (fun r x => ?_) _ _).trans ?_) | (refine pend_eq2 (by assumption) ?_) | (refine pend_eq3 (by assumption) ?_))
@[simp] theorem pend_coldDown (cause : Nat) (s : State) : (coldDown cause s).pending = s.pending := by
  simp [coldDown]
@[simp] theorem pend_coldReset (cause : Nat) (b : SelfTest) (s : State) : (coldReset cause b s).pending = s.pending := by
  simp only [coldReset]
  repeat' (first | (simp; done) | dsimp only | split | (refine (pend_emBind _ _ (fun a s => ?_)).trans ?_) | (refine (pend_emMap _ (fun a s => ?_) _ _).trans ?_) | (refine (pend_foldl _ (fun s x => ?_) _ _).trans ?_) | (refine (pend_foldl2 _ (fun r x => ?_) _ _).trans ?_) | (refine pend_eq2 (by assumption) ?_) | (refine pend_eq3 (by assumption) ?_))
@[simp] theorem pend_execColdReset (bist : SelfTest) (s : State) : queueOf (execColdReset bist s) = some s.pending := by
  simp [execColdReset]
@[simp] theorem pend_execPerstAssert (s : State) : queueOf (execPerstAssert s) = some s.pending := by
  simp [execPerstAssert]
@[simp] theorem pend_execPerstDeassert (bist : SelfTest) (s : State) : queueOf (execPerstDeassert bist s) = some s.pending := by
  simp [execPerstDeassert]
@[simp] theorem pend_powerOn (feed : Nat) (slot : Nat) (b : SelfTest) (s : State) : (powerOn feed slot b s).pending = s.pending := by
  simp only [powerOn]
  repeat' (first | (simp; done) | dsimp only | split | (refine (pend_emBind _ _ (fun a s => ?_)).trans ?_) | (refine (pend_emMap _ (fun a s => ?_) _ _).trans ?_) | (refine (pend_foldl _ (fun s x => ?_) _ _).trans ?_) | (refine (pend_foldl2 _ (fun r x => ?_) _ _).trans ?_) | (refine pend_eq2 (by assumption) ?_) | (refine pend_eq3 (by assumption) ?_))
@[simp] theorem pend_execPowerOn (feed : BitVec 4) (slot : BitVec 6) (bist : SelfTest) (s : State) : queueOf (execPowerOn feed slot bist s) = some s.pending := by
  simp [execPowerOn]
@[simp] theorem pend_warmOver (s : State) : (warmOver s).pending = s.pending := by
  simp [warmOver]
@[simp] theorem pend_warmReset (cause : Nat) (s : State) : (warmReset cause s).pending = s.pending := by
  simp [warmReset]
@[simp] theorem pend_execWarmReset (s : State) : queueOf (execWarmReset s) = some s.pending := by
  simp [execWarmReset]
@[simp] theorem pend_execFunctionLevelReset (s : State) : queueOf (execFunctionLevelReset s) = some s.pending := by
  simp [execFunctionLevelReset]
@[simp] theorem pend_execDomainDrainDone (n : DomId) (s : State) : queueOf (execDomainDrainDone n s) = some s.pending := by
  simp [execDomainDrainDone]
@[simp] theorem pend_execDrainLimitExpiry (n : DomId) (t : TileId) (s : State) :
    queueOf (execDrainLimitExpiry n t s) = some s.pending := by
  rw [execDrainLimitExpiry, queueOf_next]
  dsimp only
  split
  · simp
  · split
    · rfl
    · split
      · split
        · simp
        · rfl
      · split
        · rw [pend_foldl]
          intro s d
          split <;> simp
        · split <;> simp
@[simp] theorem pend_execThermalTrip (tj : BitVec 8) (s : State) : queueOf (execThermalTrip tj s) = some s.pending := by
  simp [execThermalTrip]
@[simp] theorem pend_execRailFault (s : State) : queueOf (execRailFault s) = some s.pending := by
  simp [execRailFault]
@[simp] theorem pend_execHotSwapDisconnect (why : InputFault) (s : State) : queueOf (execHotSwapDisconnect why s) = some s.pending := by
  simp [execHotSwapDisconnect]
@[simp] theorem pend_execHotSwapReconnect (feed : BitVec 4) (slot : BitVec 6) (bist : SelfTest) (s : State) : queueOf (execHotSwapReconnect feed slot bist s) = some s.pending := by
  simp [execHotSwapReconnect]
@[simp] theorem pend_execRefclkLost (s : State) : queueOf (execRefclkLost s) = some s.pending := by
  simp [execRefclkLost]
@[simp] theorem pend_takeReadings (l : List (Nat × Int)) (s : State) : (takeReadings l s).pending = s.pending := by
  simp [takeReadings]
@[simp] theorem pend_execFrostSample (readings : List (Nat × Int)) (levels : BitVec 5) (s : State) : queueOf (execFrostSample readings levels s) = some s.pending := by
  simp [execFrostSample]
@[simp] theorem pend_execHeartbeat (s : State) : queueOf (execHeartbeat s) = some s.pending := by
  simp [execHeartbeat]
@[simp] theorem pend_execHeartbeatLossWithNoStandby (s : State) : queueOf (execHeartbeatLossWithNoStandby s) = some s.pending := by
  simp [execHeartbeatLossWithNoStandby]
@[simp] theorem pend_reconcileCmd (q : QIdx) (seq : W32) (s : State) : (reconcileCmd q seq s).pending = s.pending := by
  simp only [reconcileCmd]
  repeat' split
  all_goals simp_all
@[simp] theorem pend_rewriteRecord (q : QIdx) (slot : Nat) (s : State) : (rewriteRecord q slot s).pending = s.pending := by
  simp only [rewriteRecord]
  repeat' split
  all_goals simp_all
@[simp] theorem pend_execTakeover (gap : BitVec 32) (unacked : List (QIdx × W32)) (recs : List (QIdx × BitVec 16)) (s : State) : queueOf (execTakeover gap unacked recs s) = some s.pending := by
  simp [execTakeover]

/-! Manage -/

@[simp] theorem pend_answerMgmt (r : Reply) (s : State) : (answerMgmt r s).pending = s.pending := by
  simp [answerMgmt]
@[simp] theorem pend_mctp (pcie : Bool) (update : Bool) (f : State → State) (s : State) (hf : ∀ (y0 : State), (f y0).pending = y0.pending) : queueOf (mctp pcie update f s) = some s.pending := by
  simp [mctp, hf]
@[simp] theorem pend_execGetVersion (pcie : Bool) (s : State) : queueOf (execGetVersion pcie s) = some s.pending := by
  simp [execGetVersion]
@[simp] theorem pend_execGetCapabilities (pcie : Bool) (s : State) : queueOf (execGetCapabilities pcie s) = some s.pending := by
  simp [execGetCapabilities]
@[simp] theorem pend_execNegotiateAlgorithms (pcie : Bool) (ed25519 : Bool) (sha512 : Bool) (s : State) : queueOf (execNegotiateAlgorithms pcie ed25519 sha512 s) = some s.pending := by
  simp [execNegotiateAlgorithms]
@[simp] theorem pend_execGetDigests (pcie : Bool) (s : State) : queueOf (execGetDigests pcie s) = some s.pending := by
  simp [execGetDigests]
@[simp] theorem pend_execGetCertificate (pcie : Bool) (slot : BitVec 8) (off : BitVec 16) (len : BitVec 16) (s : State) : queueOf (execGetCertificate pcie slot off len s) = some s.pending := by
  simp [execGetCertificate]
@[simp] theorem pend_execChallenge (pcie : Bool) (slot : BitVec 8) (nonce : BitVec 256) (s : State) : queueOf (execChallenge pcie slot nonce s) = some s.pending := by
  simp [execChallenge]
@[simp] theorem pend_execGetMeasurements (pcie : Bool) (sign : Bool) (nonce : BitVec 256) (s : State) : queueOf (execGetMeasurements pcie sign nonce s) = some s.pending := by
  simp [execGetMeasurements]
@[simp] theorem pend_execGetTid (pcie : Bool) (s : State) : queueOf (execGetTid pcie s) = some s.pending := by
  simp [execGetTid]
@[simp] theorem pend_execGetPldmVersion (pcie : Bool) (ty : BitVec 8) (s : State) : queueOf (execGetPldmVersion pcie ty s) = some s.pending := by
  simp [execGetPldmVersion]
@[simp] theorem pend_execGetPldmTypes (pcie : Bool) (s : State) : queueOf (execGetPldmTypes pcie s) = some s.pending := by
  simp [execGetPldmTypes]
@[simp] theorem pend_execGetPldmCommands (pcie : Bool) (ty : BitVec 8) (s : State) : queueOf (execGetPldmCommands pcie ty s) = some s.pending := by
  simp [execGetPldmCommands]
@[simp] theorem pend_execGetPdr (pcie : Bool) (handle : BitVec 32) (s : State) : queueOf (execGetPdr pcie handle s) = some s.pending := by
  simp [execGetPdr]
@[simp] theorem pend_execGetSensorReading (pcie : Bool) (id : BitVec 16) (s : State) : queueOf (execGetSensorReading pcie id s) = some s.pending := by
  simp [execGetSensorReading]
@[simp] theorem pend_execGetStateSensorReadings (pcie : Bool) (id : BitVec 16) (s : State) : queueOf (execGetStateSensorReadings pcie id s) = some s.pending := by
  simp [execGetStateSensorReadings]
@[simp] theorem pend_execSetEventReceiver (pcie : Bool) (eid : BitVec 8) (s : State) : queueOf (execSetEventReceiver pcie eid s) = some s.pending := by
  simp [execSetEventReceiver]
@[simp] theorem pend_execMctpEidAssign (pcie : Bool) (eid : BitVec 8) (s : State) : queueOf (execMctpEidAssign pcie eid s) = some s.pending := by
  simp [execMctpEidAssign]
@[simp] theorem pend_effecter (pcie : Bool) (listed : Nat → Bool) (st : Nat) (f : State → State) (s : State) (hf : ∀ (y0 : State), (f y0).pending = y0.pending) : queueOf (effecter pcie listed st f s) = some s.pending := by
  simp [effecter, hf]
@[simp] theorem pend_execAlertClear (pcie : Bool) (st : BitVec 8) (s : State) : queueOf (execAlertClear pcie st s) = some s.pending := by
  simp [execAlertClear]
@[simp] theorem pend_execTripClear (pcie : Bool) (st : BitVec 8) (bist : SelfTest) (s : State) : queueOf (execTripClear pcie st bist s) = some s.pending := by
  simp [execTripClear]
@[simp] theorem pend_execMode (pcie : Bool) (st : BitVec 8) (s : State) : queueOf (execMode pcie st s) = some s.pending := by
  simp [execMode]
@[simp] theorem pend_execReset (pcie : Bool) (st : BitVec 8) (bist : SelfTest) (s : State) : queueOf (execReset pcie st bist s) = some s.pending := by
  simp [execReset]
@[simp] theorem pend_execRequestUpdate (pcie : Bool) (s : State) : queueOf (execRequestUpdate pcie s) = some s.pending := by
  simp [execRequestUpdate]
@[simp] theorem pend_execFirmwareComponentTransfer (pcie : Bool) (comp : BitVec 8) (svn : BitVec 8) (ok : Bool) (ver : BitVec 32) (bytes : List Byte) (s : State) : queueOf (execFirmwareComponentTransfer pcie comp svn ok ver bytes s) = some s.pending := by
  simp [execFirmwareComponentTransfer]
@[simp] theorem pend_loadMicrocode (bytes : List Byte) (st : Nat) (s : State) : (loadMicrocode bytes st s).pending = s.pending := by
  simp [loadMicrocode]
@[simp] theorem pend_execActivateFirmware (pcie : Bool) (s : State) :
    queueOf (execActivateFirmware pcie s) = some s.pending := by
  rw [execActivateFirmware, pend_mctp]
  intro s
  dsimp only
  repeat' with_reducible split
  all_goals simp
@[simp] theorem pend_commitSvn (s : State) : (commitSvn s).pending = s.pending := by
  simp [commitSvn]
@[simp] theorem pend_execCommitSvn (s : State) : queueOf (execCommitSvn s) = some s.pending := by
  simp [execCommitSvn]
@[simp] theorem pend_execSensorUpdate (readings : List (Nat × Int)) (s : State) : queueOf (execSensorUpdate readings s) = some s.pending := by
  simp [execSensorUpdate]
@[simp] theorem pend_execVralert (s : State) : queueOf (execVralert s) = some s.pending := by
  simp [execVralert]
@[simp] theorem pend_execTestAccessPortOpen (good : Bool) (s : State) : queueOf (execTestAccessPortOpen good s) = some s.pending := by
  simp [execTestAccessPortOpen]
@[simp] theorem pend_pmbus (f : State → State) (s : State) (hf : ∀ (y0 : State), (f y0).pending = y0.pending) : queueOf (pmbus f s) = some s.pending := by
  simp [pmbus, hf]
@[simp] theorem pend_execClearFaults (s : State) : queueOf (execClearFaults s) = some s.pending := by
  simp [execClearFaults]
@[simp] theorem pend_execStatusWord (s : State) : queueOf (execStatusWord s) = some s.pending := by
  simp [execStatusWord]
@[simp] theorem pend_execReadVin (s : State) : queueOf (execReadVin s) = some s.pending := by
  simp [execReadVin]
@[simp] theorem pend_execReadIin (s : State) : queueOf (execReadIin s) = some s.pending := by
  simp [execReadIin]
@[simp] theorem pend_execReadTemperature1 (s : State) : queueOf (execReadTemperature1 s) = some s.pending := by
  simp [execReadTemperature1]
@[simp] theorem pend_execReadPin (s : State) : queueOf (execReadPin s) = some s.pending := by
  simp [execReadPin]

/-! HostRegs -/

@[simp] theorem pend_exdDrop (e : Nat) (s : State) : (exdDrop e s).pending = s.pending := by
  simp [exdDrop]
@[simp] theorem pend_exdWrite (v : Nat) (s : State) : (exdWrite v s).pending = s.pending := by
  simp only [exdWrite]
  repeat' (first | (simp; done) | dsimp only | split | (refine (pend_emBind _ _ (fun a s => ?_)).trans ?_) | (refine (pend_emMap _ (fun a s => ?_) _ _).trans ?_) | (refine (pend_foldl _ (fun s x => ?_) _ _).trans ?_) | (refine (pend_foldl2 _ (fun r x => ?_) _ _).trans ?_) | (refine pend_eq2 (by assumption) ?_) | (refine pend_eq3 (by assumption) ?_))
@[simp] theorem pend_recWrite (v : Nat) (s : State) : (recWrite v s).pending = s.pending := by
  simp only [recWrite]
  repeat' (first | (simp; done) | dsimp only | split | (refine (pend_emBind _ _ (fun a s => ?_)).trans ?_) | (refine (pend_emMap _ (fun a s => ?_) _ _).trans ?_) | (refine (pend_foldl _ (fun s x => ?_) _ _).trans ?_) | (refine (pend_foldl2 _ (fun r x => ?_) _ _).trans ?_) | (refine pend_eq2 (by assumption) ?_) | (refine pend_eq3 (by assumption) ?_))
@[simp] theorem pend_freeColdReset (s : State) : (freeColdReset s).pending = s.pending := by
  simp [freeColdReset]
@[simp] theorem pend_queueWrite (q : QIdx) (k : Nat) (start : Nat) (r : RegRow) (mask : Nat) (v : Nat) (s : State) : (queueWrite q k start r mask v s).pending = s.pending := by
  simp [queueWrite]
@[simp] theorem pend_aonWrite (start : Nat) (r : RegRow) (mask : Nat) (v : Nat) (s : State) : (aonWrite start r mask v s).pending = s.pending := by
  simp [aonWrite]
@[simp] theorem pend_ablRegWrite (st : Nat) (k : Nat) (start : Nat) (r : RegRow) (mask : Nat) (v : Nat) (s : State) : (ablRegWrite st k start r mask v s).pending = s.pending := by
  simp [ablRegWrite]
@[simp] theorem pend_mosWrite (start : Nat) (r : RegRow) (mask : Nat) (v : Nat) (s : State) : (mosWrite start r mask v s).pending = s.pending := by
  simp only [mosWrite]
  repeat' (first | (simp; done) | dsimp only | split | (refine (pend_emBind _ _ (fun a s => ?_)).trans ?_) | (refine (pend_emMap _ (fun a s => ?_) _ _).trans ?_) | (refine (pend_foldl _ (fun s x => ?_) _ _).trans ?_) | (refine (pend_foldl2 _ (fun r x => ?_) _ _).trans ?_) | (refine pend_eq2 (by assumption) ?_) | (refine pend_eq3 (by assumption) ?_))
@[simp] theorem pend_regWrite (start : Nat) (r : RegRow) (mask : Nat) (v : Nat) (s : State) : (regWrite start r mask v s).pending = s.pending := by
  simp only [regWrite]
  repeat' (first | (simp; done) | dsimp only | split | (refine (pend_emBind _ _ (fun a s => ?_)).trans ?_) | (refine (pend_emMap _ (fun a s => ?_) _ _).trans ?_) | (refine (pend_foldl _ (fun s x => ?_) _ _).trans ?_) | (refine (pend_foldl2 _ (fun r x => ?_) _ _).trans ?_) | (refine pend_eq2 (by assumption) ?_) | (refine pend_eq3 (by assumption) ?_))
@[simp] theorem pend_execRegisterWrite (off : BitVec 28) (bytes : BitVec 4) (v : BitVec 64) (s : State) : queueOf (execRegisterWrite off bytes v s) = some s.pending := by
  simp [execRegisterWrite]
@[simp] theorem pend_hostRead4 (o : Nat) (s : State) : (hostRead4 o s).2.pending = s.pending := by
  simp [hostRead4]
@[simp] theorem pend_execRcCounterRead (off : BitVec 28) (bytes : BitVec 4) (s : State) : queueOf (execRcCounterRead off bytes s) = some s.pending := by
  simp [execRcCounterRead]
@[simp] theorem pend_execBar2Access (off : BitVec 36) (acc : HostAcc) (s : State) : queueOf (execBar2Access off acc s) = some s.pending := by
  simp only [execBar2Access]
  repeat' (first | (simp; done) | dsimp only | split | (refine (pend_emBind _ _ (fun a s => ?_)).trans ?_) | (refine (pend_emMap _ (fun a s => ?_) _ _).trans ?_) | (refine (pend_foldl _ (fun s x => ?_) _ _).trans ?_) | (refine (pend_foldl2 _ (fun r x => ?_) _ _).trans ?_) | (refine pend_eq2 (by assumption) ?_) | (refine pend_eq3 (by assumption) ?_))
@[simp] theorem pend_execHostwinWrite (v : BitVec 32) (s : State) : queueOf (execHostwinWrite v s) = some s.pending := by
  simp [execHostwinWrite]

/-! Predict -/

@[simp] theorem pend_pdRead (t : TileId) (off : Nat) (n : Nat) (s : State) : (pdRead t off n s).2.pending = s.pending := by
  simp [pdRead]
@[simp] theorem pend_pdReadRow (t : TileId) (d : DWord) (n : Nat) (r : Nat) (s : State) : (pdReadRow t d n r s).2.pending = s.pending := by
  simp [pdReadRow]
@[simp] theorem pend_pdHits (t : TileId) (d : DWord) (signed : Bool) (n : Nat) (b : Nat) (s : State) : (pdHits t d signed n b s).2.pending = s.pending := by
  simp [pdHits]
@[simp] theorem pend_pdWrite (t : TileId) (off : Nat) (l : List Byte) (s : State) : (pdWrite t off l s).2.pending = s.pending := by
  simp [pdWrite]
@[simp] theorem pend_scanBlock (t : TileId) (d : DWord) (b : Nat) (s : State) : (scanBlock t d b s).2.pending = s.pending := by
  simp only [scanBlock]
  repeat' (first | (simp; done) | dsimp only | split | (refine (pend_emBind _ _ (fun a s => ?_)).trans ?_) | (refine (pend_emMap _ (fun a s => ?_) _ _).trans ?_) | (refine (pend_foldl _ (fun s x => ?_) _ _).trans ?_) | (refine (pend_foldl2 _ (fun r x => ?_) _ _).trans ?_) | (refine pend_eq2 (by assumption) ?_) | (refine pend_eq3 (by assumption) ?_))
@[simp] theorem pend_pdUndefine (t : TileId) (d : DWord) (s : State) : (pdUndefine t d s).pending = s.pending := by
  simp [pdUndefine]
@[simp] theorem pend_scanRun (t : TileId) (d : DWord) (s : State) : (scanRun t d s).2.pending = s.pending := by
  simp only [scanRun]
  repeat' (first | (simp; done) | dsimp only | split | (refine (pend_emBind _ _ (fun a s => ?_)).trans ?_) | (refine (pend_emMap _ (fun a s => ?_) _ _).trans ?_) | (refine (pend_foldl _ (fun s x => ?_) _ _).trans ?_) | (refine (pend_foldl2 _ (fun r x => ?_) _ _).trans ?_) | (refine pend_eq2 (by assumption) ?_) | (refine pend_eq3 (by assumption) ?_))
@[simp] theorem pend_setMisses (t : TileId) (d : DWord) (b n : Nat) (hits : List Nat) (s : State) :
    (setMisses t d b n hits s).2.pending = s.pending := by
  rw [setMisses]
  refine (pend_emBind _ _ ?_).trans ?_
  · intro _ s; rfl
  · exact pend_pdWrite ..
@[simp] theorem pend_checkMisses (t : TileId) (d : DWord) (b n : Nat) (s : State) : (checkMisses t d b n s).2.pending = s.pending := by
  simp [checkMisses]
@[simp] theorem pend_checkBlock (t : TileId) (d : DWord) (b : Nat) (s : State) : (checkBlock t d b s).2.pending = s.pending := by
  simp [checkBlock]
@[simp] theorem pend_missUndefine (t : TileId) (d : DWord) (s : State) : (missUndefine t d s).pending = s.pending := by
  simp [missUndefine]
@[simp] theorem pend_tallyAdd (t : TileId) (env : EngEnv) (va : Nat) (v : Nat) (s : State) : (tallyAdd t env va v s).2.pending = s.pending := by
  rw [tallyAdd]
  repeat' (first | (with_reducible split) | dsimp only)
  all_goals (repeat' (first | simp | (refine pend_eq2 (by assumption) ?_) | (refine pend_eq3 (by assumption) ?_) | (refine pend_eq4 (by assumption) ?_) | (rw [pend_foldl _ (fun s x => ?_)]) | with_reducible split))
@[simp] theorem pend_checkRun (t : TileId) (env : EngEnv) (d : DWord) (s : State) : (checkRun t env d s).2.pending = s.pending := by
  simp [checkRun]
@[simp] theorem pend_verdictRun (t : TileId) (env : EngEnv) (d : DWord) (s : State) : (verdictRun t env d s).2.pending = s.pending := by
  simp only [verdictRun]
  repeat' split
  all_goals (try simp)
  all_goals (repeat (first | (refine pend_eq2 (by assumption) ?_; try simp) | (refine pend_eq3 (by assumption) ?_; try simp)))
@[simp] theorem pend_gmeHead (t : TileId) (f : EngCmd → EngCmd) (s : State) : (gmeHead t f s).pending = s.pending := by
  simp [gmeHead]
@[simp] theorem pend_gmeDone (t : TileId) (bad : Option (Status × Nat)) (s : State) : (gmeDone t bad s).pending = s.pending := by
  simp [gmeDone]
@[simp] theorem pend_gmePostIn (t : TileId) (e : EngCmd) (s : State) : (gmePostIn t e s).pending = s.pending := by
  simp only [gmePostIn]
  repeat' (first | (simp; done) | dsimp only | split | (refine (pend_emBind _ _ (fun a s => ?_)).trans ?_) | (refine (pend_emMap _ (fun a s => ?_) _ _).trans ?_) | (refine (pend_foldl _ (fun s x => ?_) _ _).trans ?_) | (refine (pend_foldl2 _ (fun r x => ?_) _ _).trans ?_) | (refine pend_eq2 (by assumption) ?_) | (refine pend_eq3 (by assumption) ?_))
@[simp] theorem pend_gmeEnd (t : TileId) (e : EngCmd) (bad : Option RunBad) (s : State) : (gmeEnd t e bad s).pending = s.pending := by
  simp only [gmeEnd]
  repeat' (first | (simp; done) | dsimp only | split | (refine (pend_emBind _ _ (fun a s => ?_)).trans ?_) | (refine (pend_emMap _ (fun a s => ?_) _ _).trans ?_) | (refine (pend_foldl _ (fun s x => ?_) _ _).trans ?_) | (refine (pend_foldl2 _ (fun r x => ?_) _ _).trans ?_) | (refine pend_eq2 (by assumption) ?_) | (refine pend_eq3 (by assumption) ?_))
@[simp] theorem pend_gmeBody (t : TileId) (env : EngEnv) (e : EngCmd) (s : State) : (gmeBody t env e s).pending = s.pending := by
  simp only [gmeBody]
  repeat' (first | (simp; done) | dsimp only | split | (refine (pend_emBind _ _ (fun a s => ?_)).trans ?_) | (refine (pend_emMap _ (fun a s => ?_) _ _).trans ?_) | (refine (pend_foldl _ (fun s x => ?_) _ _).trans ?_) | (refine (pend_foldl2 _ (fun r x => ?_) _ _).trans ?_) | (refine pend_eq2 (by assumption) ?_) | (refine pend_eq3 (by assumption) ?_))
@[simp] theorem pend_gmeOut (t : TileId) (env : EngEnv) (e : EngCmd) (s : State) : (gmeOut t env e s).pending = s.pending := by
  simp only [gmeOut]
  repeat' (first | (simp; done) | dsimp only | split | (refine (pend_emBind _ _ (fun a s => ?_)).trans ?_) | (refine (pend_emMap _ (fun a s => ?_) _ _).trans ?_) | (refine (pend_foldl _ (fun s x => ?_) _ _).trans ?_) | (refine (pend_foldl2 _ (fun r x => ?_) _ _).trans ?_) | (refine pend_eq2 (by assumption) ?_) | (refine pend_eq3 (by assumption) ?_))
@[simp] theorem pend_gmeReads (t : TileId) (env : EngEnv) (e : EngCmd) (s : State) : (gmeReads t env e s).2.pending = s.pending := by
  simp only [gmeReads]
  repeat' (first | (simp; done) | dsimp only | split | (refine (pend_emBind _ _ (fun a s => ?_)).trans ?_) | (refine (pend_emMap _ (fun a s => ?_) _ _).trans ?_) | (refine (pend_foldl _ (fun s x => ?_) _ _).trans ?_) | (refine (pend_foldl2 _ (fun r x => ?_) _ _).trans ?_) | (refine pend_eq2 (by assumption) ?_) | (refine pend_eq3 (by assumption) ?_))
@[simp] theorem pend_gmeFromIn (t : TileId) (env : EngEnv) (e : EngCmd) (s : State) : (gmeFromIn t env e s).pending = s.pending := by
  rw [gmeFromIn]
  repeat' (first | (with_reducible split) | dsimp only)
  all_goals (repeat' (first | simp | (refine pend_eq2 (by assumption) ?_) | (refine pend_eq3 (by assumption) ?_) | (refine pend_eq4 (by assumption) ?_) | (rw [pend_foldl _ (fun s x => ?_)]) | with_reducible split))
@[simp] theorem pend_gmeTake (t : TileId) (e : EngCmd) (s : State) : (gmeTake t e s).2.2.pending = s.pending := by
  have h := pend_pdRead t (64 * e.s0.toNat) 64 s
  rw [gmeTake]
  generalize pdRead t (64 * e.s0.toNat) 64 s = x at *
  obtain ⟨r, s1⟩ := x
  dsimp only at h ⊢
  with_reducible split
  · with_reducible split
    · rfl
    · cases r with
      | error x => exact h
      | ok l => simp [h]
  all_goals rfl
@[simp] theorem pend_execGmeExecute (t : TileId) (env : EngEnv) (s : State) : queueOf (execGmeExecute t env s) = some s.pending := by
  rw [execGmeExecute]
  repeat' (first | (with_reducible split) | dsimp only)
  all_goals (repeat' (first | simp | (refine pend_eq2 (by assumption) ?_) | (refine pend_eq3 (by assumption) ?_) | (refine pend_eq4 (by assumption) ?_) | (rw [pend_foldl _ (fun s x => ?_)]) | with_reducible split))
@[simp] theorem pend_predBody (t : TileId) (op : Nat) (run : EngCmd → State → Option RunBad × State) (s : State) (hrun : ∀ (y0 : EngCmd) (y1 : State), (run y0 y1).2.pending = y1.pending) : queueOf (predBody t op run s) = some s.pending := by
  rw [predBody]
  repeat' (first | (with_reducible split) | dsimp only)
  all_goals (repeat' (first | simp [hrun] | (refine pend_eq2 (by assumption) ?_) | (refine pend_eq3 (by assumption) ?_) | (refine pend_eq4 (by assumption) ?_) | (rw [pend_foldl _ (fun s x => ?_)]) | with_reducible split))
@[simp] theorem pend_execScan (t : TileId) (s : State) : queueOf (execScan t s) = some s.pending := by
  rw [execScan]
  repeat' (first | (with_reducible split) | dsimp only)
  all_goals (repeat' (first | simp | (refine pend_eq2 (by assumption) ?_) | (refine pend_eq3 (by assumption) ?_) | (refine pend_eq4 (by assumption) ?_) | (rw [pend_foldl _ (fun s x => ?_)]) | with_reducible split))
@[simp] theorem pend_execCheck (t : TileId) (env : EngEnv) (s : State) : queueOf (execCheck t env s) = some s.pending := by
  rw [execCheck]
  repeat' (first | (with_reducible split) | dsimp only)
  all_goals (repeat' (first | simp | (refine pend_eq2 (by assumption) ?_) | (refine pend_eq3 (by assumption) ?_) | (refine pend_eq4 (by assumption) ?_) | (rw [pend_foldl _ (fun s x => ?_)]) | with_reducible split))
@[simp] theorem pend_execVerdict (t : TileId) (env : EngEnv) (s : State) : queueOf (execVerdict t env s) = some s.pending := by
  rw [execVerdict]
  repeat' (first | (with_reducible split) | dsimp only)
  all_goals (repeat' (first | simp | (refine pend_eq2 (by assumption) ?_) | (refine pend_eq3 (by assumption) ?_) | (refine pend_eq4 (by assumption) ?_) | (rw [pend_foldl _ (fun s x => ?_)]) | with_reducible split))
@[simp] theorem pend_freeField (o : Nat) (f : Fld) (s : State) : (freeField o f s).pending = s.pending := by
  simp [freeField]
@[simp] theorem pend_predUndefine (t : TileId) (d : DWord) (s : State) : (predUndefine t d s).pending = s.pending := by
  simp only [predUndefine]
  repeat' (first | (simp; done) | dsimp only | split | (refine (pend_emBind _ _ (fun a s => ?_)).trans ?_) | (refine (pend_emMap _ (fun a s => ?_) _ _).trans ?_) | (refine (pend_foldl _ (fun s x => ?_) _ _).trans ?_) | (refine (pend_foldl2 _ (fun r x => ?_) _ _).trans ?_) | (refine pend_eq2 (by assumption) ?_) | (refine pend_eq3 (by assumption) ?_))
@[simp] theorem pend_gmeUndefine (t : TileId) (e : EngCmd) (s : State) : (gmeUndefine t e s).pending = s.pending := by
  simp only [gmeUndefine]
  repeat' (first | (simp; done) | dsimp only | split | (refine (pend_emBind _ _ (fun a s => ?_)).trans ?_) | (refine (pend_emMap _ (fun a s => ?_) _ _).trans ?_) | (refine (pend_foldl _ (fun s x => ?_) _ _).trans ?_) | (refine (pend_foldl2 _ (fun r x => ?_) _ _).trans ?_) | (refine pend_eq2 (by assumption) ?_) | (refine pend_eq3 (by assumption) ?_))
@[simp] theorem pend_execGmeInstructionComplete (t : TileId) (s : State) : queueOf (execGmeInstructionComplete t s) = some s.pending := by
  simp only [execGmeInstructionComplete]
  repeat' (first | (simp; done) | dsimp only | split | (refine (pend_emBind _ _ (fun a s => ?_)).trans ?_) | (refine (pend_emMap _ (fun a s => ?_) _ _).trans ?_) | (refine (pend_foldl _ (fun s x => ?_) _ _).trans ?_) | (refine (pend_foldl2 _ (fun r x => ?_) _ _).trans ?_) | (refine pend_eq2 (by assumption) ?_) | (refine pend_eq3 (by assumption) ?_))

/-! Reserved -/

@[simp] theorem pend_execReservedEncoding (t : TileId) (w0 : BitVec 32) (w1 : BitVec 32) (s : State) : queueOf (execReservedEncoding t w0 w1 s) = some s.pending := by
  rw [execReservedEncoding]
  repeat' (first | (with_reducible split) | dsimp only)
  all_goals (repeat' (first | simp | (refine pend_eq2 (by assumption) ?_) | (refine pend_eq3 (by assumption) ?_) | (refine pend_eq4 (by assumption) ?_) | (rw [pend_foldl _ (fun s x => ?_)]) | with_reducible split))
@[simp] theorem pend_execFcReservedEncoding (t : TileId) (w : BitVec 32) (s : State) : queueOf (execFcReservedEncoding t w s) = some s.pending := by
  simp only [execFcReservedEncoding]
  repeat' (first | (simp; done) | dsimp only | split | (refine (pend_emBind _ _ (fun a s => ?_)).trans ?_) | (refine (pend_emMap _ (fun a s => ?_) _ _).trans ?_) | (refine (pend_foldl _ (fun s x => ?_) _ _).trans ?_) | (refine (pend_foldl2 _ (fun r x => ?_) _ _).trans ?_) | (refine pend_eq2 (by assumption) ?_) | (refine pend_eq3 (by assumption) ?_))

/-! Vector -/

@[simp] theorem pend_vOp3 (t : TileId) (pg : PReg) (vd : VReg) (va : VReg) (vb : VReg) (f : Nat → Nat → Nat → Nat) (s : State) : queueOf (vOp3 t pg vd va vb f s) = some s.pending := by
  simp [vOp3]
@[simp] theorem pend_vOp2 (t : TileId) (pg : PReg) (vd : VReg) (va : VReg) (f : Nat → Nat) (s : State) : queueOf (vOp2 t pg vd va f s) = some s.pending := by
  simp [vOp2]
@[simp] theorem pend_execVfadd (t : TileId) (pg : PReg) (vd : VReg) (va : VReg) (vb : VReg) (s : State) : queueOf (execVfadd t pg vd va vb s) = some s.pending := by
  simp [execVfadd]
@[simp] theorem pend_execVfsub (t : TileId) (pg : PReg) (vd : VReg) (va : VReg) (vb : VReg) (s : State) : queueOf (execVfsub t pg vd va vb s) = some s.pending := by
  simp [execVfsub]
@[simp] theorem pend_execVfmul (t : TileId) (pg : PReg) (vd : VReg) (va : VReg) (vb : VReg) (s : State) : queueOf (execVfmul t pg vd va vb s) = some s.pending := by
  simp [execVfmul]
@[simp] theorem pend_execVfma (t : TileId) (pg : PReg) (vd : VReg) (va : VReg) (vb : VReg) (s : State) : queueOf (execVfma t pg vd va vb s) = some s.pending := by
  simp [execVfma]
@[simp] theorem pend_execVfmin (t : TileId) (pg : PReg) (vd : VReg) (va : VReg) (vb : VReg) (s : State) : queueOf (execVfmin t pg vd va vb s) = some s.pending := by
  simp [execVfmin]
@[simp] theorem pend_execVfmax (t : TileId) (pg : PReg) (vd : VReg) (va : VReg) (vb : VReg) (s : State) : queueOf (execVfmax t pg vd va vb s) = some s.pending := by
  simp [execVfmax]
@[simp] theorem pend_execVfabs (t : TileId) (pg : PReg) (vd : VReg) (va : VReg) (s : State) : queueOf (execVfabs t pg vd va s) = some s.pending := by
  simp [execVfabs]
@[simp] theorem pend_execVfneg (t : TileId) (pg : PReg) (vd : VReg) (va : VReg) (s : State) : queueOf (execVfneg t pg vd va s) = some s.pending := by
  simp [execVfneg]
@[simp] theorem pend_execVfrcp (t : TileId) (pg : PReg) (vd : VReg) (va : VReg) (s : State) : queueOf (execVfrcp t pg vd va s) = some s.pending := by
  simp [execVfrcp]
@[simp] theorem pend_execVfrsq (t : TileId) (pg : PReg) (vd : VReg) (va : VReg) (s : State) : queueOf (execVfrsq t pg vd va s) = some s.pending := by
  simp [execVfrsq]
@[simp] theorem pend_execVfexp2 (t : TileId) (pg : PReg) (vd : VReg) (va : VReg) (s : State) : queueOf (execVfexp2 t pg vd va s) = some s.pending := by
  simp [execVfexp2]
@[simp] theorem pend_execVflog2 (t : TileId) (pg : PReg) (vd : VReg) (va : VReg) (s : State) : queueOf (execVflog2 t pg vd va s) = some s.pending := by
  simp [execVflog2]
@[simp] theorem pend_execVadd (t : TileId) (pg : PReg) (vd : VReg) (va : VReg) (vb : VReg) (s : State) : queueOf (execVadd t pg vd va vb s) = some s.pending := by
  simp [execVadd]
@[simp] theorem pend_execVsub (t : TileId) (pg : PReg) (vd : VReg) (va : VReg) (vb : VReg) (s : State) : queueOf (execVsub t pg vd va vb s) = some s.pending := by
  simp [execVsub]
@[simp] theorem pend_execVmul (t : TileId) (pg : PReg) (vd : VReg) (va : VReg) (vb : VReg) (s : State) : queueOf (execVmul t pg vd va vb s) = some s.pending := by
  simp [execVmul]
@[simp] theorem pend_execVand (t : TileId) (pg : PReg) (vd : VReg) (va : VReg) (vb : VReg) (s : State) : queueOf (execVand t pg vd va vb s) = some s.pending := by
  simp [execVand]
@[simp] theorem pend_execVor (t : TileId) (pg : PReg) (vd : VReg) (va : VReg) (vb : VReg) (s : State) : queueOf (execVor t pg vd va vb s) = some s.pending := by
  simp [execVor]
@[simp] theorem pend_execVxor (t : TileId) (pg : PReg) (vd : VReg) (va : VReg) (vb : VReg) (s : State) : queueOf (execVxor t pg vd va vb s) = some s.pending := by
  simp [execVxor]
@[simp] theorem pend_execVsll (t : TileId) (pg : PReg) (vd : VReg) (va : VReg) (vb : VReg) (s : State) : queueOf (execVsll t pg vd va vb s) = some s.pending := by
  simp [execVsll]
@[simp] theorem pend_execVsrl (t : TileId) (pg : PReg) (vd : VReg) (va : VReg) (vb : VReg) (s : State) : queueOf (execVsrl t pg vd va vb s) = some s.pending := by
  simp [execVsrl]
@[simp] theorem pend_execVsra (t : TileId) (pg : PReg) (vd : VReg) (va : VReg) (vb : VReg) (s : State) : queueOf (execVsra t pg vd va vb s) = some s.pending := by
  simp [execVsra]
@[simp] theorem pend_execVmin (t : TileId) (pg : PReg) (vd : VReg) (va : VReg) (vb : VReg) (s : State) : queueOf (execVmin t pg vd va vb s) = some s.pending := by
  simp [execVmin]
@[simp] theorem pend_execVmax (t : TileId) (pg : PReg) (vd : VReg) (va : VReg) (vb : VReg) (s : State) : queueOf (execVmax t pg vd va vb s) = some s.pending := by
  simp [execVmax]
@[simp] theorem pend_execVminu (t : TileId) (pg : PReg) (vd : VReg) (va : VReg) (vb : VReg) (s : State) : queueOf (execVminu t pg vd va vb s) = some s.pending := by
  simp [execVminu]
@[simp] theorem pend_execVmaxu (t : TileId) (pg : PReg) (vd : VReg) (va : VReg) (vb : VReg) (s : State) : queueOf (execVmaxu t pg vd va vb s) = some s.pending := by
  simp [execVmaxu]
@[simp] theorem pend_execVmov (t : TileId) (pg : PReg) (vd : VReg) (va : VReg) (s : State) : queueOf (execVmov t pg vd va s) = some s.pending := by
  simp [execVmov]
@[simp] theorem pend_execVbcast (t : TileId) (pg : PReg) (vd : VReg) (rs : SReg) (s : State) : queueOf (execVbcast t pg vd rs s) = some s.pending := by
  simp [execVbcast]
@[simp] theorem pend_execVext (t : TileId) (_pg : PReg) (rd : SReg) (va : VReg) (rs : SReg) (s : State) : queueOf (execVext t _pg rd va rs s) = some s.pending := by
  simp [execVext]
@[simp] theorem pend_execVins (t : TileId) (pg : PReg) (vd : VReg) (rs1 : SReg) (rs2 : SReg) (s : State) : queueOf (execVins t pg vd rs1 rs2 s) = some s.pending := by
  simp [execVins]
@[simp] theorem pend_execVshuf (t : TileId) (pg : PReg) (vd : VReg) (va : VReg) (vb : VReg) (s : State) : queueOf (execVshuf t pg vd va vb s) = some s.pending := by
  simp [execVshuf]
@[simp] theorem pend_execViota (t : TileId) (pg : PReg) (vd : VReg) (s : State) : queueOf (execViota t pg vd s) = some s.pending := by
  simp [execViota]
@[simp] theorem pend_execVsel (t : TileId) (pg : PReg) (vd : VReg) (va : VReg) (vb : VReg) (s : State) : queueOf (execVsel t pg vd va vb s) = some s.pending := by
  simp [execVsel]
@[simp] theorem pend_vReduce (t : TileId) (pg : PReg) (rd : SReg) (va : VReg) (z : Nat) (f : Nat → Nat → Nat) (s : State) : queueOf (vReduce t pg rd va z f s) = some s.pending := by
  simp [vReduce]
@[simp] theorem pend_execVrsum (t : TileId) (pg : PReg) (rd : SReg) (va : VReg) (s : State) : queueOf (execVrsum t pg rd va s) = some s.pending := by
  simp [execVrsum]
@[simp] theorem pend_execVrmax (t : TileId) (pg : PReg) (rd : SReg) (va : VReg) (s : State) : queueOf (execVrmax t pg rd va s) = some s.pending := by
  simp [execVrmax]
@[simp] theorem pend_execVrmin (t : TileId) (pg : PReg) (rd : SReg) (va : VReg) (s : State) : queueOf (execVrmin t pg rd va s) = some s.pending := by
  simp [execVrmin]
@[simp] theorem pend_execVradd (t : TileId) (pg : PReg) (rd : SReg) (va : VReg) (s : State) : queueOf (execVradd t pg rd va s) = some s.pending := by
  simp [execVradd]
@[simp] theorem pend_execVcvtF2i (t : TileId) (pg : PReg) (vd : VReg) (va : VReg) (s : State) : queueOf (execVcvtF2i t pg vd va s) = some s.pending := by
  simp [execVcvtF2i]
@[simp] theorem pend_execVcvtI2f (t : TileId) (pg : PReg) (vd : VReg) (va : VReg) (s : State) : queueOf (execVcvtI2f t pg vd va s) = some s.pending := by
  simp [execVcvtI2f]
@[simp] theorem pend_execVcvtF2bf16 (t : TileId) (pg : PReg) (vd : VReg) (va : VReg) (s : State) : queueOf (execVcvtF2bf16 t pg vd va s) = some s.pending := by
  simp [execVcvtF2bf16]
@[simp] theorem pend_execVcvtBf162f (t : TileId) (pg : PReg) (vd : VReg) (va : VReg) (s : State) : queueOf (execVcvtBf162f t pg vd va s) = some s.pending := by
  simp [execVcvtBf162f]
@[simp] theorem pend_execVcvtF2fp16 (t : TileId) (pg : PReg) (vd : VReg) (va : VReg) (s : State) : queueOf (execVcvtF2fp16 t pg vd va s) = some s.pending := by
  simp [execVcvtF2fp16]
@[simp] theorem pend_execVcvtFp162f (t : TileId) (pg : PReg) (vd : VReg) (va : VReg) (s : State) : queueOf (execVcvtFp162f t pg vd va s) = some s.pending := by
  simp [execVcvtFp162f]
@[simp] theorem pend_execVcvtF2e4m3 (t : TileId) (pg : PReg) (vd : VReg) (va : VReg) (s : State) : queueOf (execVcvtF2e4m3 t pg vd va s) = some s.pending := by
  simp [execVcvtF2e4m3]
@[simp] theorem pend_execVcvtE4m32f (t : TileId) (pg : PReg) (vd : VReg) (va : VReg) (s : State) : queueOf (execVcvtE4m32f t pg vd va s) = some s.pending := by
  simp [execVcvtE4m32f]
@[simp] theorem pend_execVcvtF2e5m2 (t : TileId) (pg : PReg) (vd : VReg) (va : VReg) (s : State) : queueOf (execVcvtF2e5m2 t pg vd va s) = some s.pending := by
  simp [execVcvtF2e5m2]
@[simp] theorem pend_execVcvtE5m22f (t : TileId) (pg : PReg) (vd : VReg) (va : VReg) (s : State) : queueOf (execVcvtE5m22f t pg vd va s) = some s.pending := by
  simp [execVcvtE5m22f]
@[simp] theorem pend_vLoad (t : TileId) (pg : PReg) (vd : VReg) (rs1 : SReg) (imm : BitVec 10) (esz : Nat) (s : State) : queueOf (vLoad t pg vd rs1 imm esz s) = some s.pending := by
  simp [vLoad]
@[simp] theorem pend_vStore (t : TileId) (pg : PReg) (vd : VReg) (rs1 : SReg) (imm : BitVec 10) (esz : Nat) (s : State) : queueOf (vStore t pg vd rs1 imm esz s) = some s.pending := by
  simp [vStore]
@[simp] theorem pend_execVld (t : TileId) (pg : PReg) (vd : VReg) (rs1 : SReg) (imm : BitVec 10) (s : State) : queueOf (execVld t pg vd rs1 imm s) = some s.pending := by
  simp [execVld]
@[simp] theorem pend_execVst (t : TileId) (pg : PReg) (vd : VReg) (rs1 : SReg) (imm : BitVec 10) (s : State) : queueOf (execVst t pg vd rs1 imm s) = some s.pending := by
  simp [execVst]
@[simp] theorem pend_execVldH (t : TileId) (pg : PReg) (vd : VReg) (rs1 : SReg) (imm : BitVec 10) (s : State) : queueOf (execVldH t pg vd rs1 imm s) = some s.pending := by
  simp [execVldH]
@[simp] theorem pend_execVstH (t : TileId) (pg : PReg) (vd : VReg) (rs1 : SReg) (imm : BitVec 10) (s : State) : queueOf (execVstH t pg vd rs1 imm s) = some s.pending := by
  simp [execVstH]
@[simp] theorem pend_execVldB (t : TileId) (pg : PReg) (vd : VReg) (rs1 : SReg) (imm : BitVec 10) (s : State) : queueOf (execVldB t pg vd rs1 imm s) = some s.pending := by
  simp [execVldB]
@[simp] theorem pend_execVstB (t : TileId) (pg : PReg) (vd : VReg) (rs1 : SReg) (imm : BitVec 10) (s : State) : queueOf (execVstB t pg vd rs1 imm s) = some s.pending := by
  simp [execVstB]
@[simp] theorem pend_execVldBc (t : TileId) (pg : PReg) (vd : VReg) (rs1 : SReg) (imm : BitVec 10) (s : State) : queueOf (execVldBc t pg vd rs1 imm s) = some s.pending := by
  simp [execVldBc]
@[simp] theorem pend_vCmp (t : TileId) (pg : PReg) (pd : PReg) (va : VReg) (vb : VReg) (f : Nat → Nat → Bool) (s : State) : queueOf (vCmp t pg pd va vb f s) = some s.pending := by
  simp [vCmp]
@[simp] theorem pend_pOp (t : TileId) (pg : PReg) (pd : PReg) (f : State → BitVec 64) (s : State) : queueOf (pOp t pg pd f s) = some s.pending := by
  simp [pOp]
@[simp] theorem pend_execVfeq (t : TileId) (pg : PReg) (pd : PReg) (va : VReg) (vb : VReg) (s : State) : queueOf (execVfeq t pg pd va vb s) = some s.pending := by
  simp [execVfeq]
@[simp] theorem pend_execVflt (t : TileId) (pg : PReg) (pd : PReg) (va : VReg) (vb : VReg) (s : State) : queueOf (execVflt t pg pd va vb s) = some s.pending := by
  simp [execVflt]
@[simp] theorem pend_execVfle (t : TileId) (pg : PReg) (pd : PReg) (va : VReg) (vb : VReg) (s : State) : queueOf (execVfle t pg pd va vb s) = some s.pending := by
  simp [execVfle]
@[simp] theorem pend_execVieq (t : TileId) (pg : PReg) (pd : PReg) (va : VReg) (vb : VReg) (s : State) : queueOf (execVieq t pg pd va vb s) = some s.pending := by
  simp [execVieq]
@[simp] theorem pend_execVilt (t : TileId) (pg : PReg) (pd : PReg) (va : VReg) (vb : VReg) (s : State) : queueOf (execVilt t pg pd va vb s) = some s.pending := by
  simp [execVilt]
@[simp] theorem pend_execVile (t : TileId) (pg : PReg) (pd : PReg) (va : VReg) (vb : VReg) (s : State) : queueOf (execVile t pg pd va vb s) = some s.pending := by
  simp [execVile]
@[simp] theorem pend_execViltu (t : TileId) (pg : PReg) (pd : PReg) (va : VReg) (vb : VReg) (s : State) : queueOf (execViltu t pg pd va vb s) = some s.pending := by
  simp [execViltu]
@[simp] theorem pend_execPand (t : TileId) (pg : PReg) (pd : PReg) (pa : PReg) (pb : PReg) (s : State) : queueOf (execPand t pg pd pa pb s) = some s.pending := by
  simp [execPand]
@[simp] theorem pend_execPor (t : TileId) (pg : PReg) (pd : PReg) (pa : PReg) (pb : PReg) (s : State) : queueOf (execPor t pg pd pa pb s) = some s.pending := by
  simp [execPor]
@[simp] theorem pend_execPxor (t : TileId) (pg : PReg) (pd : PReg) (pa : PReg) (pb : PReg) (s : State) : queueOf (execPxor t pg pd pa pb s) = some s.pending := by
  simp [execPxor]
@[simp] theorem pend_execPnot (t : TileId) (pg : PReg) (pd : PReg) (pa : PReg) (s : State) : queueOf (execPnot t pg pd pa s) = some s.pending := by
  simp [execPnot]
@[simp] theorem pend_execPfirst (t : TileId) (pg : PReg) (pd : PReg) (rs : SReg) (s : State) : queueOf (execPfirst t pg pd rs s) = some s.pending := by
  simp [execPfirst]
@[simp] theorem pend_execPcnt (t : TileId) (pg : PReg) (rd : SReg) (pa : PReg) (s : State) : queueOf (execPcnt t pg rd pa s) = some s.pending := by
  simp [execPcnt]

/-! Tick -/

@[simp] theorem pend_xCycle (t : TileId) (s : State) : (xCycle t s).pending = s.pending := by
  simp [xCycle]
@[simp] theorem pend_fCycle (t : TileId) (s : State) : (fCycle t s).pending = s.pending := by
  simp [fCycle]
@[simp] theorem pend_cycle (s : State) : (cycle s).pending = s.pending := by
  simp [cycle]

end Sys2Proof.Machine
end

