-- ==== Sys2Proof/Laws/Frames.lean ====
section
/-! SUPPORT. What each elementary update leaves of a state whose changed parts are left out: one lemma per frame and update. -/

namespace Sys2Proof

open Sys2Proof.Machine

@[simp] theorem noRegs_rput (s : Machine.State) (o v : Nat) : noRegs (rput o v s) = noRegs s := rfl
@[simp] theorem noRegs_rset (s : Machine.State) (o : Nat) (g : Fld) (v : Nat) : noRegs (rset o g v s) = noRegs s := rfl
@[simp] theorem noRegs_rinc (s : Machine.State) (o : Nat) (g : Fld) (v : Nat) : noRegs (rinc o g v s) = noRegs s := rfl

@[simp] theorem noTiles_rput (s : Machine.State) (o v : Nat) : noTiles (rput o v s) = noTiles s := rfl
@[simp] theorem noTiles_rset (s : Machine.State) (o : Nat) (g : Fld) (v : Nat) : noTiles (rset o g v s) = noTiles s := rfl
@[simp] theorem noTiles_rinc (s : Machine.State) (o : Nat) (g : Fld) (v : Nat) : noTiles (rinc o g v s) = noTiles s := rfl
@[simp] theorem noTiles_modTile (s : Machine.State) (t : TileId) (f : Tile → Tile) : noTiles (s.modTile t f) = noTiles s := rfl
@[simp] theorem noTiles_modX (s : Machine.State) (t : TileId) (f : XCore → XCore) : noTiles (s.modX t f) = noTiles s := rfl
@[simp] theorem noTiles_modF (s : Machine.State) (t : TileId) (f : FCore → FCore) : noTiles (s.modF t f) = noTiles s := rfl

@[simp] theorem noMem_rput (s : Machine.State) (o v : Nat) : noMem (rput o v s) = noMem s := rfl
@[simp] theorem noMem_rset (s : Machine.State) (o : Nat) (g : Fld) (v : Nat) : noMem (rset o g v s) = noMem s := rfl
@[simp] theorem noMem_rinc (s : Machine.State) (o : Nat) (g : Fld) (v : Nat) : noMem (rinc o g v s) = noMem s := rfl
@[simp] theorem noMem_wrCells (s : Machine.State) (c : List (Nat × Byte)) : noMem (wrCells c s) = noMem s := rfl
@[simp] theorem noMem_setEcc (s : Machine.State) (c : Nat) (m : EccMark) : noMem (setEcc c m s) = noMem s := rfl

@[simp] theorem noXlat_rput (s : Machine.State) (o v : Nat) : noXlat (rput o v s) = noXlat s := rfl
@[simp] theorem noXlat_rset (s : Machine.State) (o : Nat) (g : Fld) (v : Nat) : noXlat (rset o g v s) = noXlat s := rfl
@[simp] theorem noXlat_rinc (s : Machine.State) (o : Nat) (g : Fld) (v : Nat) : noXlat (rinc o g v s) = noXlat s := rfl
@[simp] theorem noXlat_modTile (s : Machine.State) (t : TileId) (f : Tile → Tile) : noXlat (s.modTile t f) = noXlat s := rfl

@[simp] theorem noColl_rput (s : Machine.State) (o v : Nat) : noColl (rput o v s) = noColl s := rfl
@[simp] theorem noColl_rset (s : Machine.State) (o : Nat) (g : Fld) (v : Nat) : noColl (rset o g v s) = noColl s := rfl
@[simp] theorem noColl_rinc (s : Machine.State) (o : Nat) (g : Fld) (v : Nat) : noColl (rinc o g v s) = noColl s := rfl
@[simp] theorem noColl_modTile (s : Machine.State) (t : TileId) (f : Tile → Tile) : noColl (s.modTile t f) = noColl s := rfl

@[simp] theorem noHost_rput (s : Machine.State) (o v : Nat) : noHost (rput o v s) = noHost s := rfl
@[simp] theorem noHost_rset (s : Machine.State) (o : Nat) (g : Fld) (v : Nat) : noHost (rset o g v s) = noHost s := rfl
@[simp] theorem noHost_rinc (s : Machine.State) (o : Nat) (g : Fld) (v : Nat) : noHost (rinc o g v s) = noHost s := rfl
@[simp] theorem noHost_modQueue (s : Machine.State) (q : QIdx) (f : HostQueue → HostQueue) : noHost (s.modQueue q f) = noHost s := rfl

@[simp] theorem rraw_modF (s : Machine.State) (t : TileId) (f : FCore → FCore) (o : Nat) : rraw (s.modF t f) o = rraw s o := rfl
@[simp] theorem rraw_modQueue (s : Machine.State) (q : QIdx) (f : HostQueue → HostQueue) (o : Nat) : rraw (s.modQueue q f) o = rraw s o := rfl

end Sys2Proof
end

