-- ==== Sys2Proof/Laws/State.lean ====
section
/-! SUPPORT. What each elementary update leaves as it was: one lemma per field and update. -/

namespace Sys2Proof.Machine

@[simp] theorem pending_of_rput (s : State) (o v : Nat) : (rput o v s).pending = s.pending := rfl
@[simp] theorem mem_of_rput (s : State) (o v : Nat) : (rput o v s).mem = s.mem := rfl
@[simp] theorem ecc_of_rput (s : State) (o v : Nat) : (rput o v s).ecc = s.ecc := rfl
@[simp] theorem hostMem_of_rput (s : State) (o v : Nat) : (rput o v s).hostMem = s.hostMem := rfl
@[simp] theorem tiles_of_rput (s : State) (o v : Nat) : (rput o v s).tiles = s.tiles := rfl
@[simp] theorem dieCache_of_rput (s : State) (o v : Nat) : (rput o v s).dieCache = s.dieCache := rfl
@[simp] theorem txns_of_rput (s : State) (o v : Nat) : (rput o v s).txns = s.txns := rfl
@[simp] theorem txnNext_of_rput (s : State) (o v : Nat) : (rput o v s).txnNext = s.txnNext := rfl
@[simp] theorem queues_of_rput (s : State) (o v : Nat) : (rput o v s).queues = s.queues := rfl
@[simp] theorem repair_of_rput (s : State) (o v : Nat) : (rput o v s).repair = s.repair := rfl
@[simp] theorem hostRead_of_rput (s : State) (o v : Nat) : (rput o v s).hostRead = s.hostRead := rfl
@[simp] theorem exd_of_rput (s : State) (o v : Nat) : (rput o v s).exd = s.exd := rfl
@[simp] theorem morLost_of_rput (s : State) (o v : Nat) : (rput o v s).morLost = s.morLost := rfl
@[simp] theorem rgns_of_rput (s : State) (o v : Nat) : (rput o v s).rgns = s.rgns := rfl
@[simp] theorem abl_of_rput (s : State) (o v : Nat) : (rput o v s).abl = s.abl := rfl
@[simp] theorem inbox_of_rput (s : State) (o v : Nat) : (rput o v s).inbox = s.inbox := rfl
@[simp] theorem ports_of_rput (s : State) (o v : Nat) : (rput o v s).ports = s.ports := rfl
@[simp] theorem heldPkts_of_rput (s : State) (o v : Nat) : (rput o v s).heldPkts = s.heldPkts := rfl
@[simp] theorem segs_of_rput (s : State) (o v : Nat) : (rput o v s).segs = s.segs := rfl
@[simp] theorem segQ_of_rput (s : State) (o v : Nat) : (rput o v s).segQ = s.segQ := rfl
@[simp] theorem earlySeg_of_rput (s : State) (o v : Nat) : (rput o v s).earlySeg = s.earlySeg := rfl
@[simp] theorem waitSeg_of_rput (s : State) (o v : Nat) : (rput o v s).waitSeg = s.waitSeg := rfl
@[simp] theorem inboxOut_of_rput (s : State) (o v : Nat) : (rput o v s).inboxOut = s.inboxOut := rfl
@[simp] theorem inboxOdd_of_rput (s : State) (o v : Nat) : (rput o v s).inboxOdd = s.inboxOdd := rfl
@[simp] theorem ledger_of_rput (s : State) (o v : Nat) : (rput o v s).ledger = s.ledger := rfl
@[simp] theorem push_of_rput (s : State) (o v : Nat) : (rput o v s).push = s.push := rfl
@[simp] theorem recLast_of_rput (s : State) (o v : Nat) : (rput o v s).recLast = s.recLast := rfl
@[simp] theorem recMoved_of_rput (s : State) (o v : Nat) : (rput o v s).recMoved = s.recMoved := rfl
@[simp] theorem peerBank_of_rput (s : State) (o v : Nat) : (rput o v s).peerBank = s.peerBank := rfl
@[simp] theorem fill_of_rput (s : State) (o v : Nat) : (rput o v s).fill = s.fill := rfl
@[simp] theorem power_of_rput (s : State) (o v : Nat) : (rput o v s).power = s.power := rfl
@[simp] theorem mgmt_of_rput (s : State) (o v : Nat) : (rput o v s).mgmt = s.mgmt := rfl
@[simp] theorem freeCtr_of_rput (s : State) (o v : Nat) : (rput o v s).freeCtr = s.freeCtr := rfl

@[simp] theorem pending_of_rset (s : State) (o : Nat) (g : Fld) (v : Nat) : (rset o g v s).pending = s.pending := rfl
@[simp] theorem mem_of_rset (s : State) (o : Nat) (g : Fld) (v : Nat) : (rset o g v s).mem = s.mem := rfl
@[simp] theorem ecc_of_rset (s : State) (o : Nat) (g : Fld) (v : Nat) : (rset o g v s).ecc = s.ecc := rfl
@[simp] theorem hostMem_of_rset (s : State) (o : Nat) (g : Fld) (v : Nat) : (rset o g v s).hostMem = s.hostMem := rfl
@[simp] theorem tiles_of_rset (s : State) (o : Nat) (g : Fld) (v : Nat) : (rset o g v s).tiles = s.tiles := rfl
@[simp] theorem dieCache_of_rset (s : State) (o : Nat) (g : Fld) (v : Nat) : (rset o g v s).dieCache = s.dieCache := rfl
@[simp] theorem txns_of_rset (s : State) (o : Nat) (g : Fld) (v : Nat) : (rset o g v s).txns = s.txns := rfl
@[simp] theorem txnNext_of_rset (s : State) (o : Nat) (g : Fld) (v : Nat) : (rset o g v s).txnNext = s.txnNext := rfl
@[simp] theorem queues_of_rset (s : State) (o : Nat) (g : Fld) (v : Nat) : (rset o g v s).queues = s.queues := rfl
@[simp] theorem repair_of_rset (s : State) (o : Nat) (g : Fld) (v : Nat) : (rset o g v s).repair = s.repair := rfl
@[simp] theorem hostRead_of_rset (s : State) (o : Nat) (g : Fld) (v : Nat) : (rset o g v s).hostRead = s.hostRead := rfl
@[simp] theorem exd_of_rset (s : State) (o : Nat) (g : Fld) (v : Nat) : (rset o g v s).exd = s.exd := rfl
@[simp] theorem morLost_of_rset (s : State) (o : Nat) (g : Fld) (v : Nat) : (rset o g v s).morLost = s.morLost := rfl
@[simp] theorem rgns_of_rset (s : State) (o : Nat) (g : Fld) (v : Nat) : (rset o g v s).rgns = s.rgns := rfl
@[simp] theorem abl_of_rset (s : State) (o : Nat) (g : Fld) (v : Nat) : (rset o g v s).abl = s.abl := rfl
@[simp] theorem inbox_of_rset (s : State) (o : Nat) (g : Fld) (v : Nat) : (rset o g v s).inbox = s.inbox := rfl
@[simp] theorem ports_of_rset (s : State) (o : Nat) (g : Fld) (v : Nat) : (rset o g v s).ports = s.ports := rfl
@[simp] theorem heldPkts_of_rset (s : State) (o : Nat) (g : Fld) (v : Nat) : (rset o g v s).heldPkts = s.heldPkts := rfl
@[simp] theorem segs_of_rset (s : State) (o : Nat) (g : Fld) (v : Nat) : (rset o g v s).segs = s.segs := rfl
@[simp] theorem segQ_of_rset (s : State) (o : Nat) (g : Fld) (v : Nat) : (rset o g v s).segQ = s.segQ := rfl
@[simp] theorem earlySeg_of_rset (s : State) (o : Nat) (g : Fld) (v : Nat) : (rset o g v s).earlySeg = s.earlySeg := rfl
@[simp] theorem waitSeg_of_rset (s : State) (o : Nat) (g : Fld) (v : Nat) : (rset o g v s).waitSeg = s.waitSeg := rfl
@[simp] theorem inboxOut_of_rset (s : State) (o : Nat) (g : Fld) (v : Nat) : (rset o g v s).inboxOut = s.inboxOut := rfl
@[simp] theorem inboxOdd_of_rset (s : State) (o : Nat) (g : Fld) (v : Nat) : (rset o g v s).inboxOdd = s.inboxOdd := rfl
@[simp] theorem ledger_of_rset (s : State) (o : Nat) (g : Fld) (v : Nat) : (rset o g v s).ledger = s.ledger := rfl
@[simp] theorem push_of_rset (s : State) (o : Nat) (g : Fld) (v : Nat) : (rset o g v s).push = s.push := rfl
@[simp] theorem recLast_of_rset (s : State) (o : Nat) (g : Fld) (v : Nat) : (rset o g v s).recLast = s.recLast := rfl
@[simp] theorem recMoved_of_rset (s : State) (o : Nat) (g : Fld) (v : Nat) : (rset o g v s).recMoved = s.recMoved := rfl
@[simp] theorem peerBank_of_rset (s : State) (o : Nat) (g : Fld) (v : Nat) : (rset o g v s).peerBank = s.peerBank := rfl
@[simp] theorem fill_of_rset (s : State) (o : Nat) (g : Fld) (v : Nat) : (rset o g v s).fill = s.fill := rfl
@[simp] theorem power_of_rset (s : State) (o : Nat) (g : Fld) (v : Nat) : (rset o g v s).power = s.power := rfl
@[simp] theorem mgmt_of_rset (s : State) (o : Nat) (g : Fld) (v : Nat) : (rset o g v s).mgmt = s.mgmt := rfl
@[simp] theorem freeCtr_of_rset (s : State) (o : Nat) (g : Fld) (v : Nat) : (rset o g v s).freeCtr = s.freeCtr := rfl

@[simp] theorem pending_of_rinc (s : State) (o : Nat) (g : Fld) (v : Nat) : (rinc o g v s).pending = s.pending := rfl
@[simp] theorem mem_of_rinc (s : State) (o : Nat) (g : Fld) (v : Nat) : (rinc o g v s).mem = s.mem := rfl
@[simp] theorem ecc_of_rinc (s : State) (o : Nat) (g : Fld) (v : Nat) : (rinc o g v s).ecc = s.ecc := rfl
@[simp] theorem hostMem_of_rinc (s : State) (o : Nat) (g : Fld) (v : Nat) : (rinc o g v s).hostMem = s.hostMem := rfl
@[simp] theorem tiles_of_rinc (s : State) (o : Nat) (g : Fld) (v : Nat) : (rinc o g v s).tiles = s.tiles := rfl
@[simp] theorem dieCache_of_rinc (s : State) (o : Nat) (g : Fld) (v : Nat) : (rinc o g v s).dieCache = s.dieCache := rfl
@[simp] theorem txns_of_rinc (s : State) (o : Nat) (g : Fld) (v : Nat) : (rinc o g v s).txns = s.txns := rfl
@[simp] theorem txnNext_of_rinc (s : State) (o : Nat) (g : Fld) (v : Nat) : (rinc o g v s).txnNext = s.txnNext := rfl
@[simp] theorem queues_of_rinc (s : State) (o : Nat) (g : Fld) (v : Nat) : (rinc o g v s).queues = s.queues := rfl
@[simp] theorem repair_of_rinc (s : State) (o : Nat) (g : Fld) (v : Nat) : (rinc o g v s).repair = s.repair := rfl
@[simp] theorem hostRead_of_rinc (s : State) (o : Nat) (g : Fld) (v : Nat) : (rinc o g v s).hostRead = s.hostRead := rfl
@[simp] theorem exd_of_rinc (s : State) (o : Nat) (g : Fld) (v : Nat) : (rinc o g v s).exd = s.exd := rfl
@[simp] theorem morLost_of_rinc (s : State) (o : Nat) (g : Fld) (v : Nat) : (rinc o g v s).morLost = s.morLost := rfl
@[simp] theorem rgns_of_rinc (s : State) (o : Nat) (g : Fld) (v : Nat) : (rinc o g v s).rgns = s.rgns := rfl
@[simp] theorem abl_of_rinc (s : State) (o : Nat) (g : Fld) (v : Nat) : (rinc o g v s).abl = s.abl := rfl
@[simp] theorem inbox_of_rinc (s : State) (o : Nat) (g : Fld) (v : Nat) : (rinc o g v s).inbox = s.inbox := rfl
@[simp] theorem ports_of_rinc (s : State) (o : Nat) (g : Fld) (v : Nat) : (rinc o g v s).ports = s.ports := rfl
@[simp] theorem heldPkts_of_rinc (s : State) (o : Nat) (g : Fld) (v : Nat) : (rinc o g v s).heldPkts = s.heldPkts := rfl
@[simp] theorem segs_of_rinc (s : State) (o : Nat) (g : Fld) (v : Nat) : (rinc o g v s).segs = s.segs := rfl
@[simp] theorem segQ_of_rinc (s : State) (o : Nat) (g : Fld) (v : Nat) : (rinc o g v s).segQ = s.segQ := rfl
@[simp] theorem earlySeg_of_rinc (s : State) (o : Nat) (g : Fld) (v : Nat) : (rinc o g v s).earlySeg = s.earlySeg := rfl
@[simp] theorem waitSeg_of_rinc (s : State) (o : Nat) (g : Fld) (v : Nat) : (rinc o g v s).waitSeg = s.waitSeg := rfl
@[simp] theorem inboxOut_of_rinc (s : State) (o : Nat) (g : Fld) (v : Nat) : (rinc o g v s).inboxOut = s.inboxOut := rfl
@[simp] theorem inboxOdd_of_rinc (s : State) (o : Nat) (g : Fld) (v : Nat) : (rinc o g v s).inboxOdd = s.inboxOdd := rfl
@[simp] theorem ledger_of_rinc (s : State) (o : Nat) (g : Fld) (v : Nat) : (rinc o g v s).ledger = s.ledger := rfl
@[simp] theorem push_of_rinc (s : State) (o : Nat) (g : Fld) (v : Nat) : (rinc o g v s).push = s.push := rfl
@[simp] theorem recLast_of_rinc (s : State) (o : Nat) (g : Fld) (v : Nat) : (rinc o g v s).recLast = s.recLast := rfl
@[simp] theorem recMoved_of_rinc (s : State) (o : Nat) (g : Fld) (v : Nat) : (rinc o g v s).recMoved = s.recMoved := rfl
@[simp] theorem peerBank_of_rinc (s : State) (o : Nat) (g : Fld) (v : Nat) : (rinc o g v s).peerBank = s.peerBank := rfl
@[simp] theorem fill_of_rinc (s : State) (o : Nat) (g : Fld) (v : Nat) : (rinc o g v s).fill = s.fill := rfl
@[simp] theorem power_of_rinc (s : State) (o : Nat) (g : Fld) (v : Nat) : (rinc o g v s).power = s.power := rfl
@[simp] theorem mgmt_of_rinc (s : State) (o : Nat) (g : Fld) (v : Nat) : (rinc o g v s).mgmt = s.mgmt := rfl
@[simp] theorem freeCtr_of_rinc (s : State) (o : Nat) (g : Fld) (v : Nat) : (rinc o g v s).freeCtr = s.freeCtr := rfl

@[simp] theorem pending_of_rclear (s : State) (o v : Nat) : (rclear o v s).pending = s.pending := rfl
@[simp] theorem mem_of_rclear (s : State) (o v : Nat) : (rclear o v s).mem = s.mem := rfl
@[simp] theorem ecc_of_rclear (s : State) (o v : Nat) : (rclear o v s).ecc = s.ecc := rfl
@[simp] theorem hostMem_of_rclear (s : State) (o v : Nat) : (rclear o v s).hostMem = s.hostMem := rfl
@[simp] theorem tiles_of_rclear (s : State) (o v : Nat) : (rclear o v s).tiles = s.tiles := rfl
@[simp] theorem dieCache_of_rclear (s : State) (o v : Nat) : (rclear o v s).dieCache = s.dieCache := rfl
@[simp] theorem txns_of_rclear (s : State) (o v : Nat) : (rclear o v s).txns = s.txns := rfl
@[simp] theorem txnNext_of_rclear (s : State) (o v : Nat) : (rclear o v s).txnNext = s.txnNext := rfl
@[simp] theorem queues_of_rclear (s : State) (o v : Nat) : (rclear o v s).queues = s.queues := rfl
@[simp] theorem repair_of_rclear (s : State) (o v : Nat) : (rclear o v s).repair = s.repair := rfl
@[simp] theorem hostRead_of_rclear (s : State) (o v : Nat) : (rclear o v s).hostRead = s.hostRead := rfl
@[simp] theorem exd_of_rclear (s : State) (o v : Nat) : (rclear o v s).exd = s.exd := rfl
@[simp] theorem morLost_of_rclear (s : State) (o v : Nat) : (rclear o v s).morLost = s.morLost := rfl
@[simp] theorem rgns_of_rclear (s : State) (o v : Nat) : (rclear o v s).rgns = s.rgns := rfl
@[simp] theorem abl_of_rclear (s : State) (o v : Nat) : (rclear o v s).abl = s.abl := rfl
@[simp] theorem inbox_of_rclear (s : State) (o v : Nat) : (rclear o v s).inbox = s.inbox := rfl
@[simp] theorem ports_of_rclear (s : State) (o v : Nat) : (rclear o v s).ports = s.ports := rfl
@[simp] theorem heldPkts_of_rclear (s : State) (o v : Nat) : (rclear o v s).heldPkts = s.heldPkts := rfl
@[simp] theorem segs_of_rclear (s : State) (o v : Nat) : (rclear o v s).segs = s.segs := rfl
@[simp] theorem segQ_of_rclear (s : State) (o v : Nat) : (rclear o v s).segQ = s.segQ := rfl
@[simp] theorem earlySeg_of_rclear (s : State) (o v : Nat) : (rclear o v s).earlySeg = s.earlySeg := rfl
@[simp] theorem waitSeg_of_rclear (s : State) (o v : Nat) : (rclear o v s).waitSeg = s.waitSeg := rfl
@[simp] theorem inboxOut_of_rclear (s : State) (o v : Nat) : (rclear o v s).inboxOut = s.inboxOut := rfl
@[simp] theorem inboxOdd_of_rclear (s : State) (o v : Nat) : (rclear o v s).inboxOdd = s.inboxOdd := rfl
@[simp] theorem ledger_of_rclear (s : State) (o v : Nat) : (rclear o v s).ledger = s.ledger := rfl
@[simp] theorem push_of_rclear (s : State) (o v : Nat) : (rclear o v s).push = s.push := rfl
@[simp] theorem recLast_of_rclear (s : State) (o v : Nat) : (rclear o v s).recLast = s.recLast := rfl
@[simp] theorem recMoved_of_rclear (s : State) (o v : Nat) : (rclear o v s).recMoved = s.recMoved := rfl
@[simp] theorem peerBank_of_rclear (s : State) (o v : Nat) : (rclear o v s).peerBank = s.peerBank := rfl
@[simp] theorem fill_of_rclear (s : State) (o v : Nat) : (rclear o v s).fill = s.fill := rfl
@[simp] theorem power_of_rclear (s : State) (o v : Nat) : (rclear o v s).power = s.power := rfl
@[simp] theorem mgmt_of_rclear (s : State) (o v : Nat) : (rclear o v s).mgmt = s.mgmt := rfl
@[simp] theorem freeCtr_of_rclear (s : State) (o v : Nat) : (rclear o v s).freeCtr = s.freeCtr := rfl

@[simp] theorem pending_of_wrCells (s : State) (c : List (Nat × Byte)) : (wrCells c s).pending = s.pending := rfl
@[simp] theorem regs_of_wrCells (s : State) (c : List (Nat × Byte)) : (wrCells c s).regs = s.regs := rfl
@[simp] theorem ecc_of_wrCells (s : State) (c : List (Nat × Byte)) : (wrCells c s).ecc = s.ecc := rfl
@[simp] theorem hostMem_of_wrCells (s : State) (c : List (Nat × Byte)) : (wrCells c s).hostMem = s.hostMem := rfl
@[simp] theorem tiles_of_wrCells (s : State) (c : List (Nat × Byte)) : (wrCells c s).tiles = s.tiles := rfl
@[simp] theorem dieCache_of_wrCells (s : State) (c : List (Nat × Byte)) : (wrCells c s).dieCache = s.dieCache := rfl
@[simp] theorem txns_of_wrCells (s : State) (c : List (Nat × Byte)) : (wrCells c s).txns = s.txns := rfl
@[simp] theorem txnNext_of_wrCells (s : State) (c : List (Nat × Byte)) : (wrCells c s).txnNext = s.txnNext := rfl
@[simp] theorem queues_of_wrCells (s : State) (c : List (Nat × Byte)) : (wrCells c s).queues = s.queues := rfl
@[simp] theorem repair_of_wrCells (s : State) (c : List (Nat × Byte)) : (wrCells c s).repair = s.repair := rfl
@[simp] theorem hostRead_of_wrCells (s : State) (c : List (Nat × Byte)) : (wrCells c s).hostRead = s.hostRead := rfl
@[simp] theorem exd_of_wrCells (s : State) (c : List (Nat × Byte)) : (wrCells c s).exd = s.exd := rfl
@[simp] theorem morLost_of_wrCells (s : State) (c : List (Nat × Byte)) : (wrCells c s).morLost = s.morLost := rfl
@[simp] theorem rgns_of_wrCells (s : State) (c : List (Nat × Byte)) : (wrCells c s).rgns = s.rgns := rfl
@[simp] theorem abl_of_wrCells (s : State) (c : List (Nat × Byte)) : (wrCells c s).abl = s.abl := rfl
@[simp] theorem inbox_of_wrCells (s : State) (c : List (Nat × Byte)) : (wrCells c s).inbox = s.inbox := rfl
@[simp] theorem ports_of_wrCells (s : State) (c : List (Nat × Byte)) : (wrCells c s).ports = s.ports := rfl
@[simp] theorem heldPkts_of_wrCells (s : State) (c : List (Nat × Byte)) : (wrCells c s).heldPkts = s.heldPkts := rfl
@[simp] theorem segs_of_wrCells (s : State) (c : List (Nat × Byte)) : (wrCells c s).segs = s.segs := rfl
@[simp] theorem segQ_of_wrCells (s : State) (c : List (Nat × Byte)) : (wrCells c s).segQ = s.segQ := rfl
@[simp] theorem earlySeg_of_wrCells (s : State) (c : List (Nat × Byte)) : (wrCells c s).earlySeg = s.earlySeg := rfl
@[simp] theorem waitSeg_of_wrCells (s : State) (c : List (Nat × Byte)) : (wrCells c s).waitSeg = s.waitSeg := rfl
@[simp] theorem inboxOut_of_wrCells (s : State) (c : List (Nat × Byte)) : (wrCells c s).inboxOut = s.inboxOut := rfl
@[simp] theorem inboxOdd_of_wrCells (s : State) (c : List (Nat × Byte)) : (wrCells c s).inboxOdd = s.inboxOdd := rfl
@[simp] theorem ledger_of_wrCells (s : State) (c : List (Nat × Byte)) : (wrCells c s).ledger = s.ledger := rfl
@[simp] theorem push_of_wrCells (s : State) (c : List (Nat × Byte)) : (wrCells c s).push = s.push := rfl
@[simp] theorem recLast_of_wrCells (s : State) (c : List (Nat × Byte)) : (wrCells c s).recLast = s.recLast := rfl
@[simp] theorem recMoved_of_wrCells (s : State) (c : List (Nat × Byte)) : (wrCells c s).recMoved = s.recMoved := rfl
@[simp] theorem peerBank_of_wrCells (s : State) (c : List (Nat × Byte)) : (wrCells c s).peerBank = s.peerBank := rfl
@[simp] theorem fill_of_wrCells (s : State) (c : List (Nat × Byte)) : (wrCells c s).fill = s.fill := rfl
@[simp] theorem power_of_wrCells (s : State) (c : List (Nat × Byte)) : (wrCells c s).power = s.power := rfl
@[simp] theorem mgmt_of_wrCells (s : State) (c : List (Nat × Byte)) : (wrCells c s).mgmt = s.mgmt := rfl
@[simp] theorem freeCtr_of_wrCells (s : State) (c : List (Nat × Byte)) : (wrCells c s).freeCtr = s.freeCtr := rfl

@[simp] theorem pending_of_setEcc (s : State) (c : Nat) (m : EccMark) : (setEcc c m s).pending = s.pending := rfl
@[simp] theorem regs_of_setEcc (s : State) (c : Nat) (m : EccMark) : (setEcc c m s).regs = s.regs := rfl
@[simp] theorem mem_of_setEcc (s : State) (c : Nat) (m : EccMark) : (setEcc c m s).mem = s.mem := rfl
@[simp] theorem hostMem_of_setEcc (s : State) (c : Nat) (m : EccMark) : (setEcc c m s).hostMem = s.hostMem := rfl
@[simp] theorem tiles_of_setEcc (s : State) (c : Nat) (m : EccMark) : (setEcc c m s).tiles = s.tiles := rfl
@[simp] theorem dieCache_of_setEcc (s : State) (c : Nat) (m : EccMark) : (setEcc c m s).dieCache = s.dieCache := rfl
@[simp] theorem txns_of_setEcc (s : State) (c : Nat) (m : EccMark) : (setEcc c m s).txns = s.txns := rfl
@[simp] theorem txnNext_of_setEcc (s : State) (c : Nat) (m : EccMark) : (setEcc c m s).txnNext = s.txnNext := rfl
@[simp] theorem queues_of_setEcc (s : State) (c : Nat) (m : EccMark) : (setEcc c m s).queues = s.queues := rfl
@[simp] theorem repair_of_setEcc (s : State) (c : Nat) (m : EccMark) : (setEcc c m s).repair = s.repair := rfl
@[simp] theorem hostRead_of_setEcc (s : State) (c : Nat) (m : EccMark) : (setEcc c m s).hostRead = s.hostRead := rfl
@[simp] theorem exd_of_setEcc (s : State) (c : Nat) (m : EccMark) : (setEcc c m s).exd = s.exd := rfl
@[simp] theorem morLost_of_setEcc (s : State) (c : Nat) (m : EccMark) : (setEcc c m s).morLost = s.morLost := rfl
@[simp] theorem rgns_of_setEcc (s : State) (c : Nat) (m : EccMark) : (setEcc c m s).rgns = s.rgns := rfl
@[simp] theorem abl_of_setEcc (s : State) (c : Nat) (m : EccMark) : (setEcc c m s).abl = s.abl := rfl
@[simp] theorem inbox_of_setEcc (s : State) (c : Nat) (m : EccMark) : (setEcc c m s).inbox = s.inbox := rfl
@[simp] theorem ports_of_setEcc (s : State) (c : Nat) (m : EccMark) : (setEcc c m s).ports = s.ports := rfl
@[simp] theorem heldPkts_of_setEcc (s : State) (c : Nat) (m : EccMark) : (setEcc c m s).heldPkts = s.heldPkts := rfl
@[simp] theorem segs_of_setEcc (s : State) (c : Nat) (m : EccMark) : (setEcc c m s).segs = s.segs := rfl
@[simp] theorem segQ_of_setEcc (s : State) (c : Nat) (m : EccMark) : (setEcc c m s).segQ = s.segQ := rfl
@[simp] theorem earlySeg_of_setEcc (s : State) (c : Nat) (m : EccMark) : (setEcc c m s).earlySeg = s.earlySeg := rfl
@[simp] theorem waitSeg_of_setEcc (s : State) (c : Nat) (m : EccMark) : (setEcc c m s).waitSeg = s.waitSeg := rfl
@[simp] theorem inboxOut_of_setEcc (s : State) (c : Nat) (m : EccMark) : (setEcc c m s).inboxOut = s.inboxOut := rfl
@[simp] theorem inboxOdd_of_setEcc (s : State) (c : Nat) (m : EccMark) : (setEcc c m s).inboxOdd = s.inboxOdd := rfl
@[simp] theorem ledger_of_setEcc (s : State) (c : Nat) (m : EccMark) : (setEcc c m s).ledger = s.ledger := rfl
@[simp] theorem push_of_setEcc (s : State) (c : Nat) (m : EccMark) : (setEcc c m s).push = s.push := rfl
@[simp] theorem recLast_of_setEcc (s : State) (c : Nat) (m : EccMark) : (setEcc c m s).recLast = s.recLast := rfl
@[simp] theorem recMoved_of_setEcc (s : State) (c : Nat) (m : EccMark) : (setEcc c m s).recMoved = s.recMoved := rfl
@[simp] theorem peerBank_of_setEcc (s : State) (c : Nat) (m : EccMark) : (setEcc c m s).peerBank = s.peerBank := rfl
@[simp] theorem fill_of_setEcc (s : State) (c : Nat) (m : EccMark) : (setEcc c m s).fill = s.fill := rfl
@[simp] theorem power_of_setEcc (s : State) (c : Nat) (m : EccMark) : (setEcc c m s).power = s.power := rfl
@[simp] theorem mgmt_of_setEcc (s : State) (c : Nat) (m : EccMark) : (setEcc c m s).mgmt = s.mgmt := rfl
@[simp] theorem freeCtr_of_setEcc (s : State) (c : Nat) (m : EccMark) : (setEcc c m s).freeCtr = s.freeCtr := rfl

@[simp] theorem pending_of_modTile (s : State) (t : TileId) (f : Tile → Tile) : (s.modTile t f).pending = s.pending := rfl
@[simp] theorem regs_of_modTile (s : State) (t : TileId) (f : Tile → Tile) : (s.modTile t f).regs = s.regs := rfl
@[simp] theorem mem_of_modTile (s : State) (t : TileId) (f : Tile → Tile) : (s.modTile t f).mem = s.mem := rfl
@[simp] theorem ecc_of_modTile (s : State) (t : TileId) (f : Tile → Tile) : (s.modTile t f).ecc = s.ecc := rfl
@[simp] theorem hostMem_of_modTile (s : State) (t : TileId) (f : Tile → Tile) : (s.modTile t f).hostMem = s.hostMem := rfl
@[simp] theorem dieCache_of_modTile (s : State) (t : TileId) (f : Tile → Tile) : (s.modTile t f).dieCache = s.dieCache := rfl
@[simp] theorem txns_of_modTile (s : State) (t : TileId) (f : Tile → Tile) : (s.modTile t f).txns = s.txns := rfl
@[simp] theorem txnNext_of_modTile (s : State) (t : TileId) (f : Tile → Tile) : (s.modTile t f).txnNext = s.txnNext := rfl
@[simp] theorem queues_of_modTile (s : State) (t : TileId) (f : Tile → Tile) : (s.modTile t f).queues = s.queues := rfl
@[simp] theorem repair_of_modTile (s : State) (t : TileId) (f : Tile → Tile) : (s.modTile t f).repair = s.repair := rfl
@[simp] theorem hostRead_of_modTile (s : State) (t : TileId) (f : Tile → Tile) : (s.modTile t f).hostRead = s.hostRead := rfl
@[simp] theorem exd_of_modTile (s : State) (t : TileId) (f : Tile → Tile) : (s.modTile t f).exd = s.exd := rfl
@[simp] theorem morLost_of_modTile (s : State) (t : TileId) (f : Tile → Tile) : (s.modTile t f).morLost = s.morLost := rfl
@[simp] theorem rgns_of_modTile (s : State) (t : TileId) (f : Tile → Tile) : (s.modTile t f).rgns = s.rgns := rfl
@[simp] theorem abl_of_modTile (s : State) (t : TileId) (f : Tile → Tile) : (s.modTile t f).abl = s.abl := rfl
@[simp] theorem inbox_of_modTile (s : State) (t : TileId) (f : Tile → Tile) : (s.modTile t f).inbox = s.inbox := rfl
@[simp] theorem ports_of_modTile (s : State) (t : TileId) (f : Tile → Tile) : (s.modTile t f).ports = s.ports := rfl
@[simp] theorem heldPkts_of_modTile (s : State) (t : TileId) (f : Tile → Tile) : (s.modTile t f).heldPkts = s.heldPkts := rfl
@[simp] theorem segs_of_modTile (s : State) (t : TileId) (f : Tile → Tile) : (s.modTile t f).segs = s.segs := rfl
@[simp] theorem segQ_of_modTile (s : State) (t : TileId) (f : Tile → Tile) : (s.modTile t f).segQ = s.segQ := rfl
@[simp] theorem earlySeg_of_modTile (s : State) (t : TileId) (f : Tile → Tile) : (s.modTile t f).earlySeg = s.earlySeg := rfl
@[simp] theorem waitSeg_of_modTile (s : State) (t : TileId) (f : Tile → Tile) : (s.modTile t f).waitSeg = s.waitSeg := rfl
@[simp] theorem inboxOut_of_modTile (s : State) (t : TileId) (f : Tile → Tile) : (s.modTile t f).inboxOut = s.inboxOut := rfl
@[simp] theorem inboxOdd_of_modTile (s : State) (t : TileId) (f : Tile → Tile) : (s.modTile t f).inboxOdd = s.inboxOdd := rfl
@[simp] theorem ledger_of_modTile (s : State) (t : TileId) (f : Tile → Tile) : (s.modTile t f).ledger = s.ledger := rfl
@[simp] theorem push_of_modTile (s : State) (t : TileId) (f : Tile → Tile) : (s.modTile t f).push = s.push := rfl
@[simp] theorem recLast_of_modTile (s : State) (t : TileId) (f : Tile → Tile) : (s.modTile t f).recLast = s.recLast := rfl
@[simp] theorem recMoved_of_modTile (s : State) (t : TileId) (f : Tile → Tile) : (s.modTile t f).recMoved = s.recMoved := rfl
@[simp] theorem peerBank_of_modTile (s : State) (t : TileId) (f : Tile → Tile) : (s.modTile t f).peerBank = s.peerBank := rfl
@[simp] theorem fill_of_modTile (s : State) (t : TileId) (f : Tile → Tile) : (s.modTile t f).fill = s.fill := rfl
@[simp] theorem power_of_modTile (s : State) (t : TileId) (f : Tile → Tile) : (s.modTile t f).power = s.power := rfl
@[simp] theorem mgmt_of_modTile (s : State) (t : TileId) (f : Tile → Tile) : (s.modTile t f).mgmt = s.mgmt := rfl
@[simp] theorem freeCtr_of_modTile (s : State) (t : TileId) (f : Tile → Tile) : (s.modTile t f).freeCtr = s.freeCtr := rfl

end Sys2Proof.Machine
end

