-- ==== Sys2Proof/Tests/Slice0.lean ====
section
/-! SUPPORT. Tests: ill-formed commands are refused, the worked encodings of the manual decode, small worked results, and states
that meet the hypotheses of the statements. -/

open Sys2Proof Sys2Proof.Machine

/-! ### Well-formedness: one ill-formed command for each check -/

/-- An engine immediate with TA set, which no GME instruction may have. -/
def Sys2Proof.Tests.immTa : EngImm := ⟨0, false, 0, false, false, true, false⟩

/-- A packet header of a TYPE, SUB and LINES. -/
def Sys2Proof.Tests.pkt (ty sub lines : Nat) : Packet := ⟨BitVec.ofNat 256 (ty + 256 * sub + lines * 2 ^ 112), []⟩

theorem test_wf_host_access :
    (Instr.registerWrite 4 5 0).wf = false ∧ (Instr.registerWrite 4 8 0).wf = false ∧ (Instr.rcCounterRead 2 4).wf = false := by decide
theorem test_wf_queue :
    (Instr.queueEnable 0 0).wf = false ∧ (Instr.queueDisable 0 1).wf = false ∧ (Instr.queueResume 0 1).wf = false := by decide
theorem test_wf_gme : ∀ i ∈ [Instr.gmeGather 0 1 2 3 Tests.immTa, .gmeSegred 0 1 2 3 Tests.immTa, .gmeMerge 0 1 2 3 Tests.immTa,
    .gmeScatter 0 1 2 3 Tests.immTa, .topk 0 1 2 3 Tests.immTa, .bucket 0 1 2 3 Tests.immTa, .cut 0 1 2 3 Tests.immTa,
    .place 0 1 2 3 Tests.immTa, .join 0 1 2 3 Tests.immTa], i.wf = false := by decide
theorem test_wf_rpost : (Instr.xRpost 0 1 2 true 3 1 4).wf = false ∧ (Instr.xRpost 0 1 2 false 3 1 4).wf = false := by decide
theorem test_wf_fetch_count : (Instr.fSacq 0 1 1 0).wf = false ∧ (Instr.fSpost 0 1 1 0).wf = false := by decide
theorem test_wf_link_group : (Instr.linkGroupReceive 0 ⟨[0], 0⟩ 0 0).wf = false := by decide
theorem test_wf_packet_type : ∀ i ∈ [Instr.write 0 (Tests.pkt 2 0 0) false, .read 0 (Tests.pkt 1 0 0) false,
    .aadd 0 (Tests.pkt 4 0 0) false, .post 0 (Tests.pkt 3 0 0) false, .noticeEpoch 0 (Tests.pkt 5 2 0) false,
    .noticeAbort 0 (Tests.pkt 5 3 0) false, .seg 0 (Tests.pkt 4 0 0) false, .reply 0 (Tests.pkt 5 0 0) false,
    .write 0 (Tests.pkt 1 0 1) false, .post 0 (Tests.pkt 4 2 0) false, .noticeEpoch 0 (Tests.pkt 4 3 0) false,
    .noticeAbort 0 (Tests.pkt 4 2 0) false], i.wf = false := by decide

/-! ### Encodings of Table 4-13, and one word of each other class written out from Tables 4-2 to 4-9, 6-1 and 6-2 -/

theorem test_table_4_13_words : ∀ p ∈ [(0x00201C18, Instr.xSacq 5 0 1 7), (0x0000A894, .vld 5 0 2 21 0), (0x0000B0D4, .vld 5 0 3 22 0),
    (0x006208D2, .vfma 5 0 3 1 2), (0x0001B0D4, .vst 5 0 3 22 0), (0x00201858, .xSpost 5 0 1 6), (0x1000CE44, .xAddi 5 25 25 256),
    (0x7FF1CE44, .xAndi 5 25 25 2047), (0x0019A542, .xAdd 5 21 20 25), (0x1000B584, .xAddi 5 22 22 256),
    (0xFFB1D58A, .xBne 5 22 26 (-10))], xDecode 5 0 p.1 0 = some p.2 := by decide
theorem test_table_4_13_encodes : ∀ p ∈ [(0x00201C18, Instr.xSacq 5 0 1 7), (0x0000A894, .vld 5 0 2 21 0),
    (0x006208D2, .vfma 5 0 3 1 2), (0x0001B0D4, .vst 5 0 3 22 0), (0x7FF1CE44, .xAndi 5 25 25 2047), (0xFFB1D58A, .xBne 5 22 26 (-10))],
    xEncode p.2 = some (p.1, 0) := by decide

section
set_option Elab.async false

/-! ### States that meet the hypotheses of the statements -/

/-- A state with register fields set. -/
def Sys2Proof.Tests.put (l : List (Nat × Fld × Nat)) (s : State) : State := l.foldl (fun s p => rset p.1 p.2.1 p.2.2 s) s
/-- The X-core of tile 5 runs at PC 0; the first page of 1 GiB maps to HBM of stack 0. -/
def Sys2Proof.Tests.run : State := Tests.put [(R.XC_STATUS 5, F.XC_STATUS_STATE, 1)] { State.reset with mem := [(0, 15)] }
/-- The fetch program of tile 5 runs at PC 0. -/
def Sys2Proof.Tests.frun : State := Tests.put [(R.FC_STATUS 5, F.FC_STATUS_STATE, 1)] { State.reset with mem := [(0, 15)] }
/-- A state that marks no byte has none marked. -/
theorem Sys2Proof.Tests.clean_of (s : State) (h : s.ecc = []) (h1 : racedBytes s = []) (h2 : s.morLost = []) (a : Nat) : Clean s a :=
  ⟨by simp [eccAt, h, mget], by simp [h1], by simp [h2]⟩
/-- As `run`, with `S[1]` set. -/
def Sys2Proof.Tests.runS (x : Nat) : State := Tests.run.modX 5 (fun c => { c with s := [(1, BitVec.ofNat 64 x)] })
/-- As `run`, with only lane 0 active under `P[1]` and an address of 64 in `S[1]`. -/
def Sys2Proof.Tests.vrun : State := Tests.run.modX 5 (fun c => { c with s := [(1, 64)], p := [(1, 1)] })
theorem Sys2Proof.Tests.lane0 : ∀ i, i < 64 → LaneActive (fetched Tests.vrun 5 4) 5 1 i → i = 0 := by unfold LaneActive; decide +kernel
theorem Sys2Proof.Tests.vaddr : vectorAddr (fetched Tests.vrun 5 4) 5 1 0 64 = 64 := by decide +kernel
theorem Sys2Proof.Tests.held_of (u : State) (t : TileId) (va : Nat) (rd wr : Bool) (la : Nat)
    (h : va < 2 ^ 48 ∧ (u.tile t).tlb.find? (tlbHit va) = some ⟨0, true, 15⟩ ∧ leafNow u (tileDie t) va = some (true, 15) ∧
      leafCheck u va true 15 rd wr = .ok u.devId la ∧ route u t u.devId la = .now ∧ addrOk u la = true)
    (h1 : u.ecc = []) (h2 : racedBytes u = []) (h3 : u.morLost = []) : Held u t va rd wr la :=
  ⟨h.1, ⟨_, h.2.1, h.2.2.1, h.2.2.2.1⟩, h.2.2.2.2.1, h.2.2.2.2.2, Tests.clean_of _ h1 h2 h3 _⟩
theorem Sys2Proof.Tests.vheld (rd wr : Bool) (j : Nat) (h : j < 4) : Held (fetched Tests.vrun 5 4) 5 (64 + j) rd wr (64 + j) :=
  Tests.held_of _ _ _ _ _ _ (by revert rd wr j; decide +kernel) (by decide +kernel) (by decide +kernel) (by decide +kernel)
theorem Sys2Proof.Tests.vwalk : ∀ l, l < 4 → walkBytes (fetched Tests.vrun 5 4) 5 (64 + l) = (List.range 8) ++ (List.range 8) := by decide +kernel
/-- A list that is empty has no member. -/
theorem Sys2Proof.Tests.no_mem {α : Type} {l : List α} {x : α} (h : l = []) : x ∉ l := by simp [h]
/-- Nothing outstanding, nothing held, no fault: the X-core's writes are done. -/
theorem Sys2Proof.Tests.writes_done (s : State) (t : TileId) (h : s.txns = [] ∧ (s.tile t).x.held = [] ∧ (s.tile t).x.faults = []) :
    WritesDone s t := ⟨fun _ he => absurd he (Tests.no_mem h.1), h.2⟩
/-- The X-core of tile 5 waits. -/
def Sys2Proof.Tests.wait (w : XWait) : State := Tests.put [(R.XC_STATUS 5, F.XC_STATUS_STATE, 2)] (State.reset.modX 5 (fun x => { x with wait := some w }))
/-- The X-core of tile 5 holds a post. -/
def Sys2Proof.Tests.heldPost : State := State.reset.modX 5 (fun x => { x with held := [⟨.own 3, 2, 64, 0⟩] })
/-- One request on its way, of the X-core of tile 7 or another unit. -/
def Sys2Proof.Tests.txn (op : MemOp) : Txn := ⟨.xwrite 7 32 1, .tile 5, 0, op, .request⟩
def Sys2Proof.Tests.mesh (x : Txn) : State := { State.reset with txns := [(1, x)] }
/-- Window 2 of tile 5 is open over the first line. -/
def Sys2Proof.Tests.win (s : State) : State :=
  Tests.put [(R.WIN_CTL 5 2, F.WIN_CTL_OPEN, 1), (R.WIN_RANGE 5 2, F.WIN_RANGE_LEN_LINES, 1)] s
/-- A fetched command with SEQ 7: its opcode, and its further bytes as one number. -/
def Sys2Proof.Tests.cmd (op rest : Nat) (p : CmdPhase) : Cmd := { Cmd.fetched 7 (natLe 64 (op + rest)) 0 with phase := p }
/-- Queue 0 holds one command. -/
def Sys2Proof.Tests.withCmd (c : Cmd) (s : State) : State := s.modQueue 0 (fun h => { h with cmds := [c] })
/-- A local address outside the moraine. -/
theorem Sys2Proof.Tests.no_moraine (la : Nat) (h : (match place la with | .moraine _ => false | _ => true) = true) (o : Nat) :
    place la ≠ .moraine o := by intro e; rw [e] at h; cases h
/-- No transfer, no held post, no request: nothing is left of a tile's launch. -/
theorem Sys2Proof.Tests.nothing_left (s : State) (t : TileId) (h : (s.tile t).xfers = [] ∧ (s.tile t).x.held = [] ∧ s.txns = []) :
    NothingLeft s t := ⟨h.1, h.2.1, fun _ he => absurd he (Tests.no_mem h.2.2)⟩
/-- Memory that holds numbers of 64 bytes. -/
def Sys2Proof.Tests.memOf (l : List (Nat × Nat)) : Map Byte :=
  l.flatMap (fun p => (((List.range 64).zip (natLe 64 p.2)).map (fun b => (p.1 + b.1, b.2))).filter (·.2 != 0))
/-- A tensor of 16 FP32 elements at 0x1000, as the number of its 64 bytes (Table 5-7). -/
def Sys2Proof.Tests.tensor : Nat := 0x1000 + 16 * 2 ^ 128 + 2 ^ 160 + 2 ^ 192 + 2 ^ 224 + 2 ^ 352
/-- A LOAD of it: one row a buffer, two buffers, its tensor descriptor at 128 (Table 6-5). -/
def Sys2Proof.Tests.load : Nat := 2 ^ 64 + 2 * 2 ^ 80 + 64 * 2 ^ 96 + 128 * 2 ^ 128
/-- Slot 1 of tile 5 opens the descriptor `d` at 64. -/
def Sys2Proof.Tests.opening (d : Nat) : State := Tests.put [(R.SLOT_STATE 5 1, F.SLOT_STATE_STATE, 1), (R.SLOT_DESC_VA 5 1, F.SLOT_DESC_VA_VA, 64)]
  { State.reset with mem := (0, 15) :: Tests.memOf [(64, d), (128, Tests.tensor)] }
/-- Slot 1 of tile 5 in a state, with four buffers and one transfer. -/
def Sys2Proof.Tests.slot1 (k : Nat) (q : Slot) (l : Map Xfer) : State :=
  Tests.put [(R.SLOT_STATE 5 1, F.SLOT_STATE_STATE, k), (R.SLOT_LENGTH 5 1, F.SLOT_LENGTH_BUFS, 4)]
    (State.reset.modTile 5 (fun c => { c with slots := [(1, q)], xfers := l }))
/-- A transfer of one byte to the ring of slot 1. -/
def Sys2Proof.Tests.xfer (sent : Bool) : Xfer := ⟨1, 0, true, 0x1000, 0, [(0x1000, 0)], [], none, sent⟩
/-- The bytes of a good log record of step 0 of queue 0. -/
def Sys2Proof.Tests.stepRec : Map Byte :=
  ((List.range 128).zip (withCrc (List.replicate 15 0 ++ 1 :: List.replicate 108 0))).filter (·.2 != 0)
/-- A tensor of one row of one element: base and format. -/
def Sys2Proof.Tests.one (base fmt : Nat) : DWord :=
  BitVec.ofNat 512 (base + 2 ^ 128 + 2 ^ 160 + 2 ^ 192 + 2 ^ 224 + 2 ^ 352 + fmt * 2 ^ 368)
/-- An engine instruction with an input and an output link. -/
def Sys2Proof.Tests.eng (op : EngOp) (a b c : DWord) (p : EngPhase) : EngCmd :=
  ⟨op, a, b, c, 0, 0, ⟨3, true, 4, true, false, false, false⟩, 0, p, none, [], none, false, 0⟩
/-- CE.MM of BF16 to FP32, and GME.GATHER of FP32. -/
def Sys2Proof.Tests.mm (p : EngPhase) : EngCmd := Tests.eng .ceMm (Tests.one 0x1000 1) (Tests.one 0x2000 1) (Tests.one 0x3000 0) p
def Sys2Proof.Tests.gather (p : EngPhase) : EngCmd := Tests.eng .gather (Tests.one 0x1000 0x1A) (Tests.one 0x2000 0) (Tests.one 0x3000 0) p
/-- Tile 5 with an instruction in its Cube Engine's queue, or in its GME's, and memory. -/
def Sys2Proof.Tests.withCe (e : EngCmd) (m : Map Byte) : State := { State.reset with mem := (0, 15) :: m }.modTile 5 (fun c => { c with ce := [e] })
def Sys2Proof.Tests.withGme (e : EngCmd) : State := { State.reset with mem := [(0, 15)] }.modTile 5 (fun c => { c with gme := [e] })
/-- CE.GROUPED with its table at 64, its residency table at 128, and one entry deferred. -/
def Sys2Proof.Tests.grouped : EngCmd :=
  { Tests.eng .ceGrouped (BitVec.ofNat 512 (64 + 128 * 2 ^ 256)) 0 0 (.deferred [0]) with
    imm := ⟨3, false, 4, false, false, false, false⟩, tmpl := some (Tests.one 0x1000 1, Tests.one 0x2000 1, Tests.one 0x3000 0) }
/-- A prediction command ready to run. -/
def Sys2Proof.Tests.pred (d : Nat) : EngCmd := { Tests.eng .pred (BitVec.ofNat 512 d) 0 0 .ready with imm := ⟨0, false, 0, false, false, false, false⟩ }
/-- Every byte of the scratchpad is good where nothing is marked. -/
theorem Sys2Proof.Tests.good_spad (s : State) (t : TileId) (h : s.ecc = [] ∧ racedBytes s = [] ∧ s.morLost = []) : GoodSpad s t :=
  fun _ _ => Tests.clean_of s h.1 h.2.1 h.2.2 _
/-- The directory copies expert 6 between moraine port 0 and pool slot 0. -/
def Sys2Proof.Tests.copying (back : Bool) : State :=
  Tests.put [(R.DIR_LOCAL 6, F.DIR_MOR_LA, morBase), (R.MOR_CTL, F.MOR_CTL_EN, 1), (R.MOR_PORT 0, F.MOR_PORT_UP, 1), (R.MOR_PORT 0, F.MOR_PORT_CAP_GIB, 1),
      (R.MOR_PORT 1, F.MOR_PORT_UP, 1), (R.MOR_PORT 1, F.MOR_PORT_CAP_GIB, 1)]
    { State.reset with exd := { Exd.reset with live := [(6, 2 ^ 48)], slots := [(6, 0)], job := some (back, 6) } }
/-- An Ablation command of region 0 that UPDATE 7 of queue 0 sent. -/
def Sys2Proof.Tests.job (d : Nat) (p : AblPhase) : AblJob := ⟨BitVec.ofNat 512 d, .cmd 0 7, p, [], false, false, false⟩
/-- APPLY with rule 0 at step 1, its gradient at 0x3000 (Table 12-2). -/
def Sys2Proof.Tests.applyCmd : Nat := 2 ^ 96 + 0x3000 * 2 ^ 320
/-- Stack 0 with a command in its unit's queue, and region 0 of one BF16 block: master at 0x1000, image at 0x2000 (Table 12-1). -/
def Sys2Proof.Tests.abl (l : List AblJob) : State :=
  Tests.put [(R.RGND 0 0 0, F.WORD64, 0x1000), (R.RGND 0 0 3, F.WORD64, 0x2000), (R.RGND 0 0 5, F.WORD64, 1), (R.RGND 0 0 6, F.WORD64, 0x1010100000000)]
    { Tests.withCmd { Tests.cmd 3 0 .running with left := 1 } State.reset with abl := [(0, l)] }
/-- A packet: its header as a number, and its data. -/
def Sys2Proof.Tests.pk (h : Nat) (d : List Byte) : Packet := ⟨BitVec.ofNat 256 h, d⟩
/-- Port 0 is UP. -/
def Sys2Proof.Tests.portUp : State := Tests.put [(R.MOSP_STATUS 0, F.MOSP_STATUS_STATE, 2)] State.reset
/-- Group 3 of one rank, this module, in segments of 32 FP32 elements (Table 13-11). -/
def Sys2Proof.Tests.group : State :=
  Tests.put [(R.GRP 3 0, F.WORD64, 1), (R.GRP 3 1, F.WORD64, 0x1000), (R.GRP 3 2, F.WORD64, 32 + 2 ^ 56)] State.reset
/-- A segment of group 3 that COLLECTIVE 7 of queue 0 issued: 2 elements from 0x2000 to 0x3000. -/
def Sys2Proof.Tests.seg (null : Bool) : Seg := ⟨3, 0, 0, 0, .cmd 0 7, null, 2, 0x2000, 0x3000, 0, 0, none, none⟩
/-- Group 3 in a state, with that segment in flight. -/
def Sys2Proof.Tests.coll (k : Nat) (null : Bool) : State :=
  { Tests.withCmd { Tests.cmd 2 0 .running with left := 1 } (Tests.put [(R.GRP 3 6, F.GRP_STATE, k)] Tests.group) with segs := [Tests.seg null] }

theorem witness_IdleCycles :
    (∃ (s : State), s.pending = [] ∧ s.tiles = []) ∧
    (∃ (s : State) (t : TileId) (c : Tile), s.pending = [] ∧ s.tiles = [(t.toNat, c)] ∧ c.x.launch ≠ none) ∧
    (∃ (s : State) (t : TileId) (c : Tile), s.pending = [] ∧ s.tiles = [(t.toNat, c)] ∧ c.x.launch = none) :=
  ⟨⟨State.reset, by decide +kernel, by decide +kernel⟩,
   ⟨(Tests.run.modX 5 (fun x => { x with launch := some (0, 7) })), 5, ((Tests.run.modX 5 (fun x => { x with launch := some (0, 7) })).tile 5),
    by decide +kernel, by decide +kernel, by decide +kernel⟩,
   ⟨(Tests.run.modX 5 (fun x => { x with skipBrk := true })), 5, ((Tests.run.modX 5 (fun x => { x with skipBrk := true })).tile 5),
    by decide +kernel, by decide +kernel, by decide +kernel⟩⟩

theorem witness_ResetValues :
    ∃ n, n < 256 :=
  ⟨255, by decide +kernel⟩

theorem witness_MemoryKeepsItsForm :
    ∃ (s v : State), MemoryWf s ∧ step s = .next v :=
  ⟨State.reset, State.reset, by unfold MemoryWf; decide +kernel, rfl⟩

theorem witness_DecodeOfEncode :
    (∃ (i : Instr) (w : W32 × W32), i.wf = true ∧ xEncode i = some w) ∧
    (∃ (i : Instr) (w : W32), i.wf = true ∧ fEncode i = some w) :=
  ⟨⟨(.xAdd 5 31 31 31), _, by decide +kernel, rfl⟩,
   ⟨(.fAdd 5 15 15 15), _, by decide +kernel, rfl⟩⟩

theorem witness_LoopWordsDecode :
    ∃ t : TileId, ∃ p, p ∈ [(0x00201C18, Instr.xSacq t 0 1 7), (0x0000A894, .vld t 0 2 21 0), (0x0000B0D4, .vld t 0 3 22 0), (0x006208D2, .vfma
      t 0 3 1 2), (0x0001B0D4, .vst t 0 3 22 0), (0x00201858, .xSpost t 0 1 6), (0x1000CE44, .xAddi t 25 25 256), (0x7FF1CE44, .xAndi t 25
      25 2047), (0x0019A542, .xAdd t 21 20 25), (0x1000B584, .xAddi t 22 22 256), (0xFFB1D58A, .xBne t 22 26 (-10))] :=
  ⟨5, _, List.mem_cons_self⟩

theorem witness_TranslationFrame :
    (∃ t : TileId, ∃ va : Nat, ∃ rd wr : Bool, ∃ s v : State, ∃ x : Xlat, ∃ o, Machine.translate t va rd wr s = (x, v) ∧ o ≠ R.XLAT_MISS
      t.toNat) ∧
    (∃ t : TileId, ∃ va : Nat, ∃ rd wr : Bool, ∃ s v : State, ∃ x : Xlat, ∃ w, Machine.translate t va rd wr s = (x, v) ∧ w ≠ t) ∧
    (∃ t : TileId, ∃ va : Nat, ∃ rd wr : Bool, ∃ s v : State, ∃ x : Xlat, ∃ c, Machine.translate t va rd wr s = (x, v) ∧ eccAt v c ≠ eccAt s c) :=
  ⟨⟨5, 0, true, true, Tests.run, (Machine.translate 5 0 true true Tests.run).2, (Machine.translate 5 0 true true Tests.run).1, 0, rfl,
    by decide +kernel⟩,
   ⟨5, 0, true, true, Tests.run, (Machine.translate 5 0 true true Tests.run).2, (Machine.translate 5 0 true true Tests.run).1, 4, rfl,
    by decide +kernel⟩,
   ⟨5, 0, true, true, { Tests.run with ecc := [(0, .uncorrectable)] }, (Machine.translate 5 0 true true
    { Tests.run with ecc := [(0, .uncorrectable)] }).2, (Machine.translate 5 0 true true { Tests.run with ecc := [(0, .uncorrectable)] }).1,
    0, rfl, by decide +kernel⟩⟩

theorem witness_TranslationWalk :
    (∃ (t : TileId) (va e1 : Nat) (s : State), va < 2 ^ 48 ∧ (s.tile t).tlb = [] ∧ dieEntries s (tileDie t) = [] ∧ xlatBase s (tileDie t) + 2 ^
      21 ≤ hbmTop ∧ Sound s (xlatBase s (tileDie t) + 8 * (va / 2 ^ 30)) 8 ∧ e1 = memNat s (xlatBase s (tileDie t) + 8 * (va / 2 ^ 30)) 8 ∧
      e1.testBit 0 = false) ∧
    (∃ (t : TileId) (va e1 : Nat) (s : State), va < 2 ^ 48 ∧ (s.tile t).tlb = [] ∧ dieEntries s (tileDie t) = [] ∧ xlatBase s (tileDie t) + 2 ^
      21 ≤ hbmTop ∧ Sound s (xlatBase s (tileDie t) + 8 * (va / 2 ^ 30)) 8 ∧ e1 = memNat s (xlatBase s (tileDie t) + 8 * (va / 2 ^ 30)) 8 ∧
      e1.testBit 0 = true ∧ e1.testBit 1 = true) ∧
    (∃ (t : TileId) (va e1 e2 : Nat) (s : State), va < 2 ^ 48 ∧ (s.tile t).tlb = [] ∧ dieEntries s (tileDie t) = [] ∧ xlatBase s (tileDie t) + 2
      ^ 21 ≤ hbmTop ∧ Sound s (xlatBase s (tileDie t) + 8 * (va / 2 ^ 30)) 8 ∧ e1 = memNat s (xlatBase s (tileDie t) + 8 * (va / 2 ^ 30)) 8
      ∧ e1.testBit 0 = true ∧ e1.testBit 1 = false ∧ bits e1 21 32 * 4096 + 4096 ≤ hbmTop ∧ Sound s (bits e1 21 32 * 4096 + 8 * (va / 2 ^ 21
      % 512)) 8 ∧ e2 = memNat s (bits e1 21 32 * 4096 + 8 * (va / 2 ^ 21 % 512)) 8 ∧ ¬ (e2.testBit 0 = true ∧ e2.testBit 1 = true)) ∧
    (∃ (t : TileId) (va e1 e2 : Nat) (s : State), va < 2 ^ 48 ∧ (s.tile t).tlb = [] ∧ dieEntries s (tileDie t) = [] ∧ xlatBase s (tileDie t) + 2
      ^ 21 ≤ hbmTop ∧ Sound s (xlatBase s (tileDie t) + 8 * (va / 2 ^ 30)) 8 ∧ e1 = memNat s (xlatBase s (tileDie t) + 8 * (va / 2 ^ 30)) 8
      ∧ e1.testBit 0 = true ∧ e1.testBit 1 = false ∧ bits e1 21 32 * 4096 + 4096 ≤ hbmTop ∧ Sound s (bits e1 21 32 * 4096 + 8 * (va / 2 ^ 21
      % 512)) 8 ∧ e2 = memNat s (bits e1 21 32 * 4096 + 8 * (va / 2 ^ 21 % 512)) 8 ∧ e2.testBit 0 = true ∧ e2.testBit 1 = true) :=
  ⟨⟨5, (2 ^ 48 - 1), 0, State.reset, by decide +kernel, by decide +kernel, by decide +kernel, by decide +kernel,
    by unfold Sound Clean; decide +kernel, by decide +kernel, by decide +kernel⟩,
   ⟨5, 0, 15, Tests.run, by decide +kernel, by decide +kernel, by decide +kernel, by decide +kernel, by unfold Sound Clean; decide +kernel,
    by decide +kernel, by decide +kernel, by decide +kernel⟩,
   ⟨5, 0, 0x200001, 0, { State.reset with mem := [(0, 1), (2, 32)] }, by decide +kernel, by decide +kernel, by decide +kernel,
    by decide +kernel, by unfold Sound Clean; decide +kernel, by decide +kernel, by decide +kernel, by decide +kernel, by decide +kernel,
    by unfold Sound Clean; decide +kernel, by decide +kernel, by decide +kernel⟩,
   ⟨5, 0, 0x200001, 15, { State.reset with mem := [(0, 1), (2, 32), (4096, 15)] }, by decide +kernel, by decide +kernel, by decide +kernel,
    by decide +kernel, by unfold Sound Clean; decide +kernel, by decide +kernel, by decide +kernel, by decide +kernel, by decide +kernel,
    by unfold Sound Clean; decide +kernel, by decide +kernel, by decide +kernel⟩⟩

theorem witness_AluResults :
    ∃ p, ∃ t : TileId, ∃ s : State, p ∈ aluTable ∧ Issues s t 4 :=
  ⟨_, 5, Tests.run, List.mem_cons_self, by unfold Issues; decide +kernel⟩

theorem witness_ImmediateResults :
    (∃ p, ∃ t : TileId, ∃ s : State, p ∈ aluImmTable ∧ Issues s t 4) ∧
    (∃ p, ∃ t : TileId, ∃ s : State, p ∈ shiftTable ∧ Issues s t 4) ∧
    (∃ (t : TileId) (s : State), Issues s t 8) :=
  ⟨⟨_, 5, Tests.run, List.mem_cons_self, by unfold Issues; decide +kernel⟩,
   ⟨_, 5, Tests.run, List.mem_cons_self, by unfold Issues; decide +kernel⟩,
   ⟨5, Tests.run, by unfold Issues; decide +kernel⟩⟩

theorem witness_DescriptorRegisters :
    ∃ (t : TileId) (s : State), Issues s t 8 :=
  ⟨5, Tests.run, by unfold Issues; decide +kernel⟩

theorem witness_VectorIntegerResults :
    ∃ p, ∃ t : TileId, ∃ s : State, p ∈ vecTable3 ∧ Issues s t 4 :=
  ⟨_, 5, Tests.run, List.mem_cons_self, by unfold Issues; decide +kernel⟩

theorem witness_VectorFloatResults :
    (∃ p, ∃ t : TileId, ∃ s : State, p ∈ vecFloat3 ∧ Issues s t 4) ∧
    (∃ p, ∃ t : TileId, ∃ s : State, p ∈ vecFloat2 ∧ Issues s t 4) :=
  ⟨⟨_, 5, Tests.run, List.mem_cons_self, by unfold Issues; decide +kernel⟩,
   ⟨_, 5, Tests.run, List.mem_cons_self, by unfold Issues; decide +kernel⟩⟩

theorem witness_LaneMoves :
    ∃ (t : TileId) (s : State), Issues s t 4 :=
  ⟨5, Tests.run, by unfold Issues; decide +kernel⟩

theorem witness_CompareResults :
    ∃ p, ∃ t : TileId, ∃ s : State, p ∈ cmpTable ∧ Issues s t 4 :=
  ⟨_, 5, Tests.run, List.mem_cons_self, by unfold Issues; decide +kernel⟩

theorem witness_PredicateResults :
    ∃ (t : TileId) (s : State), Issues s t 4 :=
  ⟨5, Tests.run, by unfold Issues; decide +kernel⟩

theorem witness_ReductionResults :
    ∃ p, ∃ t : TileId, ∃ pg : PReg, ∃ va : VReg, ∃ x : Nat → Nat, ∃ s : State, p ∈ reduceTable ∧ Issues s t 4 ∧ (∀ i, i < 64 → (LaneActive
      (fetched s t 4) t pg i → x i = (vlane (rdV (fetched s t 4) t va) i).toNat) ∧ (¬ LaneActive (fetched s t 4) t pg i → x i =
      p.2.1.toNat)) :=
  ⟨_, 5, 0, 1, fun _ => 0, Tests.run, List.mem_cons_self, by unfold Issues; decide +kernel, fun i hi => ⟨fun _ =>
    (by decide +kernel : ∀ i < 64, 0 = (vlane (rdV (fetched Tests.run 5 4) 5 1) i).toNat) i hi, fun h => absurd (Or.inl rfl) h⟩⟩

theorem witness_LoadResults :
    (∃ t : TileId, ∃ rs1 : SReg, ∃ s u : State, ∃ la : Nat, ∃ p, ∃ imm : BitVec 12, p ∈ loadTable ∧ Issues s t 4 ∧ Reaches t (scalarAddr
      (fetched s t 4) t rs1 imm p.2.1) true false la (fetched s t 4) u ∧ Sound u la p.2.1) ∧
    (∃ (t : TileId) (rs1 : SReg) (s u : State) (la : Nat) (imm : BitVec 32), Issues s t 8 ∧ Reaches t (descAddr (fetched s t 8) t rs1 imm) true
      false la (fetched s t 8) u ∧ Sound u la 64) :=
  ⟨⟨5, 1, Tests.run, (Machine.translate 5 0 true false (fetched Tests.run 5 4)).2, 0, _, 0, List.mem_cons_self,
    by unfold Issues; decide +kernel, ⟨by decide +kernel, by decide +kernel⟩, by unfold Sound Clean; decide +kernel⟩,
   ⟨5, 1, Tests.run, (Machine.translate 5 0 true false (fetched Tests.run 5 8)).2, 0, 0, by unfold Issues; decide +kernel, ⟨by decide +kernel,
    by decide +kernel⟩, by unfold Sound Clean; decide +kernel⟩⟩

theorem witness_StoreResults :
    (∃ t : TileId, ∃ rs1 : SReg, ∃ s u : State, ∃ la : Nat, ∃ p, ∃ imm : BitVec 12, p ∈ storeTable ∧ Issues s t 4 ∧ Reaches t (scalarAddr
      (fetched s t 4) t rs1 imm p.2) false true la (fetched s t 4) u ∧ Sound u la p.2) ∧
    (∃ (t : TileId) (rs1 : SReg) (s u : State) (la : Nat) (imm : BitVec 32), Issues s t 8 ∧ Reaches t (descAddr (fetched s t 8) t rs1 imm) false
      true la (fetched s t 8) u ∧ Sound u la 64) :=
  ⟨⟨5, 1, Tests.run, (Machine.translate 5 0 false true (fetched Tests.run 5 4)).2, 0, _, 0, List.mem_cons_self,
    by unfold Issues; decide +kernel, ⟨by decide +kernel, by decide +kernel⟩, by unfold Sound Clean; decide +kernel⟩,
   ⟨5, 1, Tests.run, (Machine.translate 5 0 false true (fetched Tests.run 5 8)).2, 0, 0, by unfold Issues; decide +kernel, ⟨by decide +kernel,
    by decide +kernel⟩, by unfold Sound Clean; decide +kernel⟩⟩

theorem witness_AtomicResults :
    ∃ (t : TileId) (rs1 : SReg) (wide : Bool) (n la : Nat) (s u : State), n = (if wide then 8 else 4) ∧ Issues s t 4 ∧ Reaches t ((rdS (fetched
      s t 4) t rs1).toNat / n * n) true true la (fetched s t 4) u ∧ n ∣ la ∧ (∀ o, place la ≠ .moraine o) ∧ Sound u la n :=
  ⟨5, 1, false, 4, 0, Tests.run, (Machine.translate 5 0 true true (fetched Tests.run 5 4)).2, by decide +kernel,
    by unfold Issues; decide +kernel, ⟨by decide +kernel, by decide +kernel⟩, by decide +kernel,
    by intro o; rw [show place 0 = .hbm 0 by decide +kernel]; exact nofun, by unfold Sound Clean; decide +kernel⟩

theorem witness_VectorLoads :
    (∃ t : TileId, ∃ pg : PReg, ∃ rs1 : SReg, ∃ imm : BitVec 10, ∃ s : State, ∃ la : Nat, ∃ p, Issues s t 4 ∧ p ∈ vloadTable ∧ (∀ i j, i < 64 →
      j < p.2 → LaneActive (fetched s t 4) t pg i → Held (fetched s t 4) t (vectorAddr (fetched s t 4) t rs1 imm 64 + (p.2 * i + j)) true
      false (la + (p.2 * i + j)))) ∧
    (∃ t : TileId, ∃ pg : PReg, ∃ rs1 : SReg, ∃ imm : BitVec 10, ∃ s : State, ∃ la : Nat, ∃ u, Issues s t 4 ∧ (∃ i, i < 64 ∧ LaneActive (fetched
      s t 4) t pg i) ∧ Reaches t (vectorAddr (fetched s t 4) t rs1 imm 4) true false la (fetched s t 4) u ∧ Sound u la 4) :=
  ⟨⟨5, 1, 1, 0, Tests.vrun, 64, _, by unfold Issues; decide +kernel, List.mem_cons_self, fun i j hi hj hl =>
    by obtain rfl := Tests.lane0 i hi hl; rw [Tests.vaddr]; simpa using Tests.vheld true false j (by simpa using hj)⟩,
   ⟨5, 1, 1, 0, Tests.vrun, 64, (Machine.translate 5 64 true false (fetched Tests.vrun 5 4)).2, by unfold Issues; decide +kernel, ⟨0,
    by unfold LaneActive; decide +kernel⟩, ⟨by decide +kernel, by decide +kernel⟩, by unfold Sound Clean; decide +kernel⟩⟩

theorem witness_VectorStores :
    ∃ t : TileId, ∃ pg : PReg, ∃ rs1 : SReg, ∃ imm : BitVec 10, ∃ s : State, ∃ la : Nat, ∃ p, Issues s t 4 ∧ p ∈ vstoreTable ∧ (∀ i j, i < 64 →
      j < p.2 → LaneActive (fetched s t 4) t pg i → Held (fetched s t 4) t (vectorAddr (fetched s t 4) t rs1 imm 64 + (p.2 * i + j)) false
      true (la + (p.2 * i + j))) ∧ (∀ i j k l, i < 64 → j < p.2 → LaneActive (fetched s t 4) t pg i → k < 64 → l < p.2 → LaneActive (fetched
      s t 4) t pg k → la + (p.2 * i + j) ∉ walkBytes (fetched s t 4) t (vectorAddr (fetched s t 4) t rs1 imm 64 + (p.2 * k + l))) :=
  ⟨5, 1, 1, 0, Tests.vrun, 64, _, by unfold Issues; decide +kernel, List.mem_cons_self, fun i j hi hj hl =>
    by obtain rfl := Tests.lane0 i hi hl; rw [Tests.vaddr]; simpa using Tests.vheld false true j (by simpa using hj), fun i j k l hi hj hl
    hk hm hn =>
    by
        obtain rfl := Tests.lane0 i hi hl; obtain rfl := Tests.lane0 k hk hn
        rw [Tests.vaddr, show (64 : Nat) + (_ * 0 + l) = 64 + l by simp, Tests.vwalk l (by simpa using hm)]; simp; omega⟩

theorem witness_BranchResults :
    (∃ t : TileId, ∃ s : State, ∃ p, Issues s t 4 ∧ p ∈ branchTable) ∧
    (∃ (t : TileId) (s : State), Issues s t 4) ∧
    (∃ (t : TileId) (s : State), Issues s t 4) ∧
    (∃ (t : TileId) (s : State), Issues s t 4) :=
  ⟨⟨5, Tests.run, _, by unfold Issues; decide +kernel, List.mem_cons_self⟩,
   ⟨5, Tests.run, by unfold Issues; decide +kernel⟩,
   ⟨5, Tests.run, by unfold Issues; decide +kernel⟩,
   ⟨5, Tests.run, by unfold Issues; decide +kernel⟩⟩

theorem witness_SystemResults :
    ∃ (t : TileId) (s : State), Issues s t 4 :=
  ⟨5, Tests.run, by unfold Issues; decide +kernel⟩

theorem witness_CsrResults :
    (∃ (t : TileId) (rs1 : SReg) (imm : BitVec 12) (s : State) (o : Nat), Issues s t 4 ∧ o = (rdS (fetched s t 4) t rs1 + imm.signExtend
      64).toNat ∧ o < 2 ^ 16 ∧ o % 4 = 0) ∧
    (∃ (t : TileId) (rs1 : SReg) (imm : BitVec 12) (s : State) (o : Nat), Issues s t 4 ∧ o = (rdS (fetched s t 4) t rs1 + imm.signExtend
      64).toNat ∧ o < 2 ^ 16 ∧ o % 8 = 0) ∧
    (∃ (t : TileId) (rs1 : SReg) (imm : BitVec 12) (s : State) (o : Nat), Issues s t 4 ∧ o = (rdS (fetched s t 4) t rs1 + imm.signExtend
      64).toNat ∧ o < 2 ^ 16 ∧ 0x2000 ≤ o ∧ o < 0x4000 ∧ o % 4 = 0) ∧
    (∃ (t : TileId) (rs1 : SReg) (imm : BitVec 12) (s : State) (o : Nat), Issues s t 4 ∧ o = (rdS (fetched s t 4) t rs1 + imm.signExtend
      64).toNat ∧ o < 2 ^ 16 ∧ 0x2000 ≤ o ∧ o < 0x4000 ∧ o % 8 = 0) ∧
    (∃ t : TileId, ∃ rs1 : SReg, ∃ imm : BitVec 12, ∃ s : State, ∃ o : Nat, ∃ r, Issues s t 4 ∧ o = (rdS (fetched s t 4) t rs1 + imm.signExtend
      64).toNat ∧ o < 2 ^ 16 ∧ PlainOff o ∧ (0x4000 ≤ o ∧ o < 0x6000 → ((fetched s t 4).tile t).f.load = none) ∧ (fetched s t 4).enabled t =
      true ∧ findReg (0x8000000 + 0x10000 * t.toNat + o) = some (0x8000000 + 0x10000 * t.toNat + o, r) ∧ o % 4 = 0 ∧ r.bytes = 4) ∧
    (∃ t : TileId, ∃ rs1 : SReg, ∃ imm : BitVec 12, ∃ s : State, ∃ o : Nat, ∃ r, Issues s t 4 ∧ o = (rdS (fetched s t 4) t rs1 + imm.signExtend
      64).toNat ∧ o < 2 ^ 16 ∧ PlainOff o ∧ (0x4000 ≤ o ∧ o < 0x6000 → ((fetched s t 4).tile t).f.load = none) ∧ (fetched s t 4).enabled t =
      true ∧ findReg (0x8000000 + 0x10000 * t.toNat + o) = some (0x8000000 + 0x10000 * t.toNat + o, r) ∧ o % 8 = 0 ∧ r.bytes = 8) :=
  ⟨⟨5, 1, 0, Tests.run, _, by unfold Issues; decide +kernel, rfl, by decide +kernel, by decide +kernel⟩,
   ⟨5, 1, 0, Tests.run, _, by unfold Issues; decide +kernel, rfl, by decide +kernel, by decide +kernel⟩,
   ⟨5, 1, 0, Tests.runS 0x2000, _, by unfold Issues; decide +kernel, rfl, by decide +kernel, by decide +kernel, by decide +kernel⟩,
   ⟨5, 1, 0, Tests.runS 0x3FF8, _, by unfold Issues; decide +kernel, rfl, by decide +kernel, by decide +kernel, by decide +kernel⟩,
   ⟨5, 1, 0, Tests.runS 0x800, 0x800, ((findReg (0x8000000 + 0x10000 * 5 + 0x800)).elim ⟨0, 0, 0, 0, []⟩ (·.2)),
    by unfold Issues; decide +kernel, by decide +kernel, by decide +kernel, by unfold PlainOff; decide +kernel, by decide +kernel,
    by decide +kernel, by decide +kernel, by decide +kernel, by decide +kernel⟩,
   ⟨5, 1, 0, Tests.runS 0x808, 0x808, ((findReg (0x8000000 + 0x10000 * 5 + 0x808)).elim ⟨0, 0, 0, 0, []⟩ (·.2)),
    by unfold Issues; decide +kernel, by decide +kernel, by decide +kernel, by unfold PlainOff; decide +kernel, by decide +kernel,
    by decide +kernel, by decide +kernel, by decide +kernel, by decide +kernel⟩⟩

theorem witness_SemaphoreInstructions :
    (∃ (t : TileId) (rs : SReg) (imm : BitVec 11) (s u : State) (c : Nat), Issues s t 4 ∧ u = fetched s t 4 ∧ c = countOp u t rs imm 16) ∧
    (∃ (t : TileId) (s u : State), Issues s t 4 ∧ u = fetched s t 4) ∧
    (∃ (t : TileId) (n : SemIdx) (s u : State), Issues s t 4 ∧ u = fetched s t 4 ∧ semWaiters u t n = []) ∧
    (∃ t : TileId, ∃ n : SemIdx, ∃ s u : State, ∃ a, ∃ l, Issues s t 4 ∧ u = fetched s t 4 ∧ semWaiters u t n = a :: l ∧ semVal u t n < a.n) :=
  ⟨⟨5, 1, 0, Tests.run, _, _, by unfold Issues; decide +kernel, rfl, rfl⟩,
   ⟨5, Tests.run, _, by unfold Issues; decide +kernel, rfl⟩,
   ⟨5, 3, Tests.run, _, by unfold Issues; decide +kernel, rfl, by decide +kernel⟩,
   ⟨5, 3, (Tests.run.modTile 5 (fun c => { c with waiters := [(3, [⟨.ce, 1⟩])] })), _, ⟨.ce, 1⟩, [], by unfold Issues; decide +kernel, rfl,
    by decide +kernel, by decide +kernel⟩⟩

theorem witness_RemotePosts :
    ∃ (t : TileId) (rt : SReg) (treg : Bool) (tile x : TileId) (s u : State), Issues s t 8 ∧ u = fetched s t 8 ∧ x = (if treg then (rdS u t
      rt).extractLsb' 0 11 else tile) :=
  ⟨5, 1, true, 0, _, Tests.run, _, by unfold Issues; decide +kernel, rfl, rfl⟩

theorem witness_WindowAndWaitInstructions :
    ∃ (t : TileId) (s u : State), Issues s t 4 ∧ u = fetched s t 4 :=
  ⟨5, Tests.run, _, by unfold Issues; decide +kernel, rfl⟩

theorem witness_EngineIssue :
    (∃ t : TileId, ∃ s u : State, ∃ imm : EngImm, ∃ p, Issues s t 8 ∧ u = fetched s t 8 ∧ p ∈ engTable ∧ (p.2.2 = true ∨ imm.ta = false ∧ imm.tb
      = false)) ∧
    (∃ (t : TileId) (s u : State), Issues s t 8 ∧ u = fetched s t 8) :=
  ⟨⟨5, Tests.run, _, ⟨3, true, 4, true, false, false, false⟩, _, by unfold Issues; decide +kernel, rfl, List.mem_cons_self, by decide +kernel⟩,
   ⟨5, Tests.run, _, by unfold Issues; decide +kernel, rfl⟩⟩

theorem witness_UnitInstructions :
    (∃ (t : TileId) (s u : State), Issues s t 8 ∧ u = fetched s t 8 ∧ ((u.tile t).x.units.filter (·.isColl)).length < 8) ∧
    (∃ (t : TileId) (s u : State), Issues s t 8 ∧ u = fetched s t 8 ∧ ((u.tile t).x.units.filter (fun x => !x.isColl && !x.taken)).length < 8) ∧
    (∃ (t : TileId) (s u : State), Issues s t 8 ∧ u = fetched s t 8 ∧ (u.rgns.filter (fun q => q.acq && decide (q.tile = t))).length < 8) ∧
    (∃ (t : TileId) (s u : State), Issues s t 8 ∧ u = fetched s t 8 ∧ 8 ≤ (u.rgns.filter (fun q => q.acq && decide (q.tile = t))).length) ∧
    (∃ (t : TileId) (s u : State), Issues s t 8 ∧ u = fetched s t 8) :=
  ⟨⟨5, Tests.run, _, by unfold Issues; decide +kernel, rfl, by decide +kernel⟩,
   ⟨5, Tests.run, _, by unfold Issues; decide +kernel, rfl, by decide +kernel⟩,
   ⟨5, Tests.run, _, by unfold Issues; decide +kernel, rfl, by decide +kernel⟩,
   ⟨5, { Tests.run with rgns := List.replicate 8 ⟨true, none, 5, 0, 0, 2, 0, 0, false⟩ }, _, by unfold Issues; decide +kernel, rfl,
    by decide +kernel⟩,
   ⟨5, Tests.run, _, by unfold Issues; decide +kernel, rfl⟩⟩

theorem witness_CommitAndCancel :
    (∃ (t : TileId) (rs : SReg) (imm : BitVec 11) (sl : SlotIdx) (s u : State) (n l c : Nat), Issues s t 4 ∧ u = fetched s t 4 ∧ n = countOp u t
      rs imm 32 ∧ l = slotLenBufs u t sl ∧ c = slotCommitted u t sl ∧ fState u t ≠ 2 ∧ (slotState u t sl = 0 ∨ slotState u t sl = 7 ∨
      runsAhead u t sl = false)) ∧
    (∃ (t : TileId) (rs : SReg) (imm : BitVec 11) (sl : SlotIdx) (s u : State) (n l c : Nat), Issues s t 4 ∧ u = fetched s t 4 ∧ n = countOp u t
      rs imm 32 ∧ l = slotLenBufs u t sl ∧ c = slotCommitted u t sl ∧ fState u t ≠ 2 ∧ slotState u t sl = 2 ∧ runsAhead u t sl = true ∧
      (u.slot t sl).bufs = []) ∧
    (∃ (t : TileId) (rs : SReg) (imm : BitVec 11) (sl : SlotIdx) (s u : State) (n l c : Nat), Issues s t 4 ∧ u = fetched s t 4 ∧ n = countOp u t
      rs imm 32 ∧ l = slotLenBufs u t sl ∧ c = slotCommitted u t sl ∧ fState u t ≠ 2 ∧ (slotState u t sl = 0 ∨ slotState u t sl = 7 ∨
      slotState u t sl = 6 ∨ slotState u t sl = 1)) ∧
    (∃ (t : TileId) (rs : SReg) (imm : BitVec 11) (sl : SlotIdx) (s u : State) (n l c : Nat), Issues s t 4 ∧ u = fetched s t 4 ∧ n = countOp u t
      rs imm 32 ∧ l = slotLenBufs u t sl ∧ c = slotCommitted u t sl ∧ fState u t ≠ 2 ∧ slotState u t sl = 2 ∧ isIdxKind (sKind (u.slot t
      sl).sdesc) = false ∧ (u.slot t sl).bufs = [] ∧ (u.slot t sl).stage = 0 ∧ (u.slot t sl).waiting = none ∧ (u.slot t sl).credits = 0 ∧
      (u.tile t).xfers = [] ∧ slotPosted u t sl = min l (max n c) ∧ min l (max n c) < l) :=
  ⟨⟨5, 1, 0, 1, (Tests.put [(R.SLOT_STATE 5 1, F.SLOT_STATE_STATE, 2)] Tests.run), _, _, _, _, by unfold Issues; decide +kernel, rfl, rfl, rfl,
    rfl, by decide +kernel, by decide +kernel⟩,
   ⟨5, 1, 0, 1, (Tests.put [(R.SLOT_STATE 5 1, F.SLOT_STATE_STATE, 2), (R.SLOT_STATE 5 1, F.SLOT_STATE_RUNAHEAD, 1)] Tests.run), _, _, _, _,
    by unfold Issues; decide +kernel, rfl, rfl, rfl, rfl, by decide +kernel, by decide +kernel, by decide +kernel, by decide +kernel⟩,
   ⟨5, 1, 0, 1, (Tests.put [(R.SLOT_STATE 5 1, F.SLOT_STATE_STATE, 7)] Tests.run), _, _, _, _, by unfold Issues; decide +kernel, rfl, rfl, rfl,
    rfl, by decide +kernel, by decide +kernel⟩,
   ⟨5, 1, 0, 1, (Tests.put [(R.SLOT_STATE 5 1, F.SLOT_STATE_STATE, 2), (R.SLOT_LENGTH 5 1, F.SLOT_LENGTH_BUFS, 4)] Tests.run), _, _, _, _,
    by unfold Issues; decide +kernel, rfl, rfl, rfl, rfl, by decide +kernel, by decide +kernel, by decide +kernel, by decide +kernel,
    by decide +kernel, by decide +kernel, by decide +kernel, by decide +kernel, by decide +kernel, by decide +kernel⟩⟩

theorem witness_TileHostWrites :
    ∃ (t : TileId) (s : State), HostTile s t :=
  ⟨5, State.reset, by unfold HostTile HostReaches; decide +kernel⟩

theorem witness_HostWritesTurnedAway :
    (∃ t : TileId, ∃ n : SemIdx, ∃ w : WinIdx, ∃ r : BitVec 3, ∃ v : BitVec 32, ∃ s : State, ∃ c, c ∈ [Instr.semWrite t n v, .windowOpen t w,
      .windowClose t w, .winRangeWrite t w v, .swizzleRangeWrite t r v] ∧ s.power.cold = false ∧ s.domReach 3 = true ∧ s.domOn (16 + tileDie
      t) = false) ∧
    (∃ t : TileId, ∃ n : SemIdx, ∃ w : WinIdx, ∃ r : BitVec 3, ∃ v : BitVec 32, ∃ s : State, ∃ c, c ∈ [Instr.semWrite t n v, .windowOpen t w,
      .windowClose t w, .winRangeWrite t w v, .swizzleRangeWrite t r v] ∧ s.power.cold = false ∧ s.domReach 3 = true ∧ s.domOn (16 + tileDie
      t) = true ∧ s.enabled t = false) :=
  ⟨⟨5, 3, 2, 0, 0, Tests.put [(R.PDC_DOM_STAT (16 + tileDie 5), F.PDC_DOM_STAT_STATE, 0)] State.reset, _, List.mem_cons_self,
    by decide +kernel, by decide +kernel, by decide +kernel⟩,
   ⟨5, 3, 2, 0, 0, { State.reset with repair := { State.reset.repair with disabled := [5] } }, _, List.mem_cons_self, by decide +kernel,
    by decide +kernel, by decide +kernel, by decide +kernel⟩⟩

theorem witness_WindowReopens :
    (∃ t : TileId, ∃ w : WinIdx, ∃ s : State, ∃ k, winReopen s t w = some k) ∧
    (∃ (t : TileId) (w : WinIdx) (s : State), winReopen s t w = none) :=
  ⟨⟨5, 2, (State.reset.modTile 5 (fun c => { c with reopen := [(2, 2 ^ 32)] })), 2 ^ 32, by decide +kernel⟩,
   ⟨5, 2, State.reset, by decide +kernel⟩⟩

theorem witness_TranslationInvalidation :
    ∃ (d : DieId) (s : State), HostReaches s (16 + d.toNat) :=
  ⟨7, State.reset, by unfold HostReaches; decide +kernel⟩

theorem witness_FetchProgramResults :
    (∃ (t : TileId) (ga gb : GReg) (s u : State) (a b : Word), FIssues s t ∧ u = fFetched s t ∧ a = rdG u t ga ∧ b = rdG u t gb) ∧
    (∃ t : TileId, ∃ gd ga gb : GReg, ∃ imm : BitVec 14, ∃ sh sl : BitVec 6, ∃ s u : State, ∃ a b : Word, ∃ p, FIssues s t ∧ u = fFetched s t ∧
      a = rdG u t ga ∧ b = rdG u t gb ∧ p ∈ [(Instr.fAdd t gd ga gb, a.toNat + b.toNat), (.fSub t gd ga gb, a.toNat + 2 ^ 64 - b.toNat),
      (.fMul t gd ga gb, a.toNat * b.toNat), (.fAddi t gd ga imm, a.toNat + (imm.signExtend 64).toNat), (.fSlli t gd ga sh, a.toNat * 2 ^
      sh.toNat), (.fSrli t gd ga sh, a.toNat / 2 ^ sh.toNat), (.fOri t gd ga imm, a.toNat ||| imm.toNat), (.fAndi t gd ga imm, a.toNat &&&
      imm.toNat), (.fStat t gd sl, rraw u (R.SLOT_STATE t.toNat sl.toNat) % 2 ^ 13 + rget u (R.SLOT_LANDED t.toNat sl.toNat)
      F.SLOT_LANDED_BUFS * 2 ^ 32)]) ∧
    (∃ t : TileId, ∃ ga gb : GReg, ∃ s u : State, ∃ a b : Word, ∃ p, FIssues s t ∧ u = fFetched s t ∧ a = rdG u t ga ∧ b = rdG u t gb ∧ p ∈
      fBranchTable) :=
  ⟨⟨5, 1, 1, Tests.frun, _, _, _, by unfold FIssues; decide +kernel, rfl, rfl, rfl⟩,
   ⟨5, 1, 1, 1, 0, 0, 0, Tests.frun, _, _, _, _, by unfold FIssues; decide +kernel, rfl, rfl, rfl, List.mem_cons_self⟩,
   ⟨5, 1, 1, Tests.frun, _, _, _, _, by unfold FIssues; decide +kernel, rfl, rfl, rfl, List.mem_cons_self⟩⟩

theorem witness_FetchProgramAccesses :
    (∃ (t : TileId) (ga : GReg) (imm : BitVec 14) (cnt : BitVec 8) (s u w : State) (la c : Nat), FIssues s t ∧ u = fFetched s t ∧ c = (if ga = 0
      then cnt.toNat else (rdG u t ga).toNat % 2 ^ 16) ∧ Reaches t (fetchAddr u t ga imm) true false la u w ∧ Sound w la 8) ∧
    (∃ (t : TileId) (ga : GReg) (imm : BitVec 14) (cnt : BitVec 8) (s u w : State) (la c : Nat), FIssues s t ∧ u = fFetched s t ∧ c = (if ga = 0
      then cnt.toNat else (rdG u t ga).toNat % 2 ^ 16) ∧ Reaches t (fetchAddr u t ga imm) false true la u w ∧ Sound w la 8) :=
  ⟨⟨5, 1, 0, 0, Tests.frun, _, (Machine.translate 5 0 true false (fFetched Tests.frun 5)).2, 0, _, by unfold FIssues; decide +kernel, rfl, rfl,
    ⟨by decide +kernel, by decide +kernel⟩, by unfold Sound Clean; decide +kernel⟩,
   ⟨5, 1, 0, 0, Tests.frun, _, (Machine.translate 5 0 false true (fFetched Tests.frun 5)).2, 0, _, by unfold FIssues; decide +kernel, rfl, rfl,
    ⟨by decide +kernel, by decide +kernel⟩, by unfold Sound Clean; decide +kernel⟩⟩

theorem witness_FetchProgramSlots :
    (∃ (t : TileId) (s u : State), FIssues s t ∧ u = fFetched s t) ∧
    (∃ (t : TileId) (x : BitVec 32) (s u : State), FIssues s t ∧ u = fFetched s t ∧ fDecode t x = none ∧ (∀ k, SlotFree u t k)) :=
  ⟨⟨5, Tests.frun, _, by unfold FIssues; decide +kernel, rfl⟩,
   ⟨5, 0xFFFFFFFF, Tests.frun, _, by unfold FIssues; decide +kernel, rfl, by decide +kernel, by unfold SlotFree; decide +kernel⟩⟩

theorem witness_WaitsEnd :
    (∃ (t : TileId) (w : XWait) (s : State), xState s t = 2 ∧ (s.tile t).x.wait = some w ∧ WaitHolds s t w) ∧
    (∃ (t : TileId) (w : XWait) (s : State), xState s t = 2 ∧ (s.tile t).x.wait = some w ∧ ¬ WaitHolds s t w ∧ w ≠ .finish ∧ (∀ h, w ≠ .post h)) ∧
    (∃ t : TileId, ∃ w : XWait, ∃ s : State, ∃ h, xState s t = 2 ∧ (s.tile t).x.wait = some w ∧ w = .post h ∧ (s.tile t).x.held.length < 8) ∧
    (∃ (t : TileId) (w : XWait) (s : State), xState s t = 2 ∧ (s.tile t).x.wait = some w ∧ w = .finish ∧ WritesDone s t ∧ UnitsDone s t ∧
      StreamsDone s t) :=
  ⟨⟨5, .fence, (Tests.wait (.fence)), by decide +kernel, by decide +kernel, Tests.writes_done _ _ (by decide +kernel)⟩,
   ⟨5, .wwait 2 1, (Tests.wait (.wwait 2 1)), by decide +kernel, by decide +kernel, by unfold WaitHolds; decide +kernel, by decide +kernel,
    nofun⟩,
   ⟨5, .post ⟨.own 3, 2, 0, 0⟩, (Tests.wait (.post ⟨.own 3, 2, 0, 0⟩)), ⟨.own 3, 2, 0, 0⟩, by decide +kernel, by decide +kernel,
    by decide +kernel, by decide +kernel⟩,
   ⟨5, .finish, (Tests.wait (.finish)), by decide +kernel, by decide +kernel, by decide +kernel, ⟨Tests.writes_done _ _ (by decide +kernel),
  
       by unfold UnitsDone; decide +kernel, by unfold StreamsDone; decide +kernel⟩⟩⟩

theorem witness_LateGrantsAndPosts :
    (∃ (t : TileId) (s : State) (h : HeldPost) (hs : List HeldPost) (k : SemIdx), (s.tile t).x.held = h :: hs ∧ h.target = .own k ∧ h.n ≠ 0 ∧
      NoneBefore s t h.seq) ∧
    (∃ (t : TileId) (s : State) (h : HeldPost) (hs : List HeldPost) (k : SemIdx), (s.tile t).x.held = h :: hs ∧ h.target = .own k ∧ h.n ≠ 0 ∧ ¬
      NoneBefore s t h.seq) ∧
    (∃ (t : TileId) (n : SemIdx) (s : State), fState s t ≠ 2 ∧ semWaiters s t n = []) ∧
    (∃ (t : TileId) (n : SemIdx) (s : State) (w : Waiter) (ws : List Waiter), fState s t ≠ 2 ∧ semWaiters s t n = w :: ws ∧ semVal s t n < w.n) ∧
    (∃ (t : TileId) (n : SemIdx) (s : State) (w : Waiter) (ws : List Waiter), fState s t ≠ 2 ∧ semWaiters s t n = w :: ws ∧ w.n ≤ semVal s t n ∧
      w.who = .xcore) :=
  ⟨⟨5, Tests.heldPost, ⟨.own 3, 2, 64, 0⟩, [], 3, by decide +kernel, by decide +kernel, by decide +kernel, ⟨fun _ he => absurd he (Tests.no_mem
    (by decide +kernel)), fun j h => by cases h⟩⟩,
   ⟨5, ({ State.reset with txns := [(1, ⟨.xwrite 5 32 1, .tile 7, 0, .post 7 3 1, .request⟩)] }.modX 5 (fun x =>
   
    { x with held := [⟨.own 3, 2, 64, 2⟩] })), ⟨.own 3, 2, 64, 2⟩, [], 3, by decide +kernel, by decide +kernel, by decide +kernel, fun h =>
    absurd (h.1 _ List.mem_cons_self 1 (.inl ⟨32, rfl⟩)) (by decide)⟩,
   ⟨5, 3, State.reset, by decide +kernel, by decide +kernel⟩,
   ⟨5, 3, (State.reset.modTile 5 (fun c => { c with waiters := [(3, [⟨.xcore, 1⟩])] })), ⟨.xcore, 1⟩, [], by decide +kernel, by decide +kernel,
    by decide +kernel⟩,
   ⟨5, 3, (Tests.put [(R.SEM 5 3, F.SEM_VALUE, 0xFFFF)] (State.reset.modTile 5 (fun c => { c with waiters := [(3, [⟨.xcore, 0xFFFF⟩])] }))),
    ⟨.xcore, 0xFFFF⟩, [], by decide +kernel, by decide +kernel, by decide +kernel, by decide +kernel⟩⟩

theorem witness_CoreFaults :
    (∃ (t : TileId) (f : XFault) (s : State), LaunchTiles s t ∧ firstFault (s.tile t).x.faults = some f ∧ (xState s t = 1 ∨ xState s t = 2 ∨
      xState s t = 3) ∧ f.source < 8 ∧ f.pc < 2 ^ 48) ∧
    (∃ (t : TileId) (s : State), LaunchTiles s t ∧ (s.tile t).x.faults = []) ∧
    (∃ (t : TileId) (s : State), LaunchTiles s t ∧ (xState s t = 1 ∨ xState s t = 2) ∧ xExpert s t = false ∧ 2 ^ 24 ≤ rget s (R.XC_WDOG t.toNat)
      F.XC_WDOG_COUNT) ∧
    (∃ (t : TileId) (s : State), LaunchTiles s t ∧ xExpert s t = false ∧ rget s (R.XC_WDOG t.toNat) F.XC_WDOG_COUNT < 2 ^ 24) ∧
    (∃ (t : TileId) (w0 w1 : BitVec 32) (s u : State), LaunchTiles s t ∧ Issues s t (if w0.getLsbD 0 then 8 else 4) ∧ u = fetched s t (if
      w0.getLsbD 0 then 8 else 4) ∧ xDecode t 0 w0 w1 = none) ∧
    (∃ (t : TileId) (s : State), LaunchTiles s t ∧ HostTile s t ∧ xState s t = 3) ∧
    (∃ (t : TileId) (s : State), LaunchTiles s t ∧ HostTile s t ∧ xState s t ≠ 3) :=
  ⟨⟨5, ⟨4, .protection, 32, 7⟩, (Tests.run.modX 5 (fun x => { x with faults := [⟨4, .protection, 32, 7⟩] })), (fun _ _ _ h => by cases h),
    by decide +kernel, by decide +kernel, by decide +kernel, by decide +kernel⟩,
   ⟨5, Tests.run, (fun _ _ _ h => by cases h), by decide +kernel⟩,
   ⟨5, (Tests.put [(R.XC_WDOG 5, F.XC_WDOG_COUNT, 2 ^ 24)] Tests.run), (fun _ _ _ h => by cases h), by decide +kernel, by decide +kernel,
    by decide +kernel⟩,
   ⟨5, (Tests.put [(R.XC_WDOG 5, F.XC_WDOG_COUNT, 2 ^ 24 - 1)] Tests.run), (fun _ _ _ h => by cases h), by decide +kernel, by decide +kernel⟩,
   ⟨5, 0xFFFFFFFE, 0, Tests.run, _, (fun _ _ _ h => by cases h), by unfold Issues; decide +kernel, rfl, by decide +kernel⟩,
   ⟨5, (Tests.put [(R.XC_STATUS 5, F.XC_STATUS_STATE, 3)] State.reset), (fun _ _ _ h => by cases h),
    by unfold HostTile HostReaches; decide +kernel, by decide +kernel⟩,
   ⟨5, Tests.run, (fun _ _ _ h => by cases h), by unfold HostTile HostReaches; decide +kernel, by decide +kernel⟩⟩

theorem witness_MeshRequestsServed :
    (∃ (id : Nat) (x : Txn) (t : TileId) (s : State) (k : TileId) (n : SemIdx) (cnt : Nat), Arriving s id x t ∧ Serves s t ∧ x.op = .post k n
      cnt ∧ cnt ≠ 0 ∧ s.enabled t = true) ∧
    (∃ (id : Nat) (x : Txn) (t : TileId) (s : State), Arriving s id x t ∧ Serves s t ∧ ¬ InTurn s id x) ∧
    (∃ (id : Nat) (x : Txn) (t : TileId) (s : State) (addrs : List Nat), Arriving s id x t ∧ Serves s t ∧ x.op = .read addrs ∧ InTurn s id x ∧
      (∀ a ∈ addrs, addrOk s a = true ∧ Clean s a)) ∧
    (∃ id : Nat, ∃ x : Txn, ∃ t : TileId, ∃ s : State, ∃ cells : List (Nat × Byte), ∃ w, Arriving s id x t ∧ Serves s t ∧ x.op = .write cells ∧
      InTurn s id x ∧ (cells.map (·.1)).Nodup ∧ (∀ c ∈ cells, addrOk s c.1 = true ∧ Clean s c.1) ∧ Takes s t w (cells.map (fun c => c.1 % 2
      ^ 24))) ∧
    (∃ (id : Nat) (x : Txn) (t : TileId) (s : State) (cells : List (Nat × Byte)), Arriving s id x t ∧ Serves s t ∧ x.op = .write cells ∧ InTurn
      s id x ∧ (cells.map (·.1)).Nodup ∧ (∀ c ∈ cells, addrOk s c.1 = true ∧ Clean s c.1) ∧ cells ≠ [] ∧ NoWindow s t (cells.map (fun c =>
      c.1 % 2 ^ 24))) ∧
    (∃ (id : Nat) (x : Txn) (t : TileId) (s : State) (a : Nat) (wide ret : Bool) (y : Word) (n la : Nat) (w : WinIdx), Arriving s id x t ∧
      Serves s t ∧ x.op = .aadd a wide y ret ∧ InTurn s id x ∧ n = (if wide then 8 else 4) ∧ la = a / n * n ∧ (∀ k, k < n → addrOk s (la +
      k) = true ∧ Clean s (la + k)) ∧ (∀ o, place la ≠ .moraine o) ∧ Takes s t w ((List.range n).map (fun i => (la + i) % 2 ^ 24))) :=
  ⟨⟨1, Tests.txn (.post 5 3 1), 5, Tests.mesh (Tests.txn (.post 5 3 1)), 5, 3, 1, by unfold Arriving; decide +kernel,
    by unfold Serves; decide +kernel, by decide +kernel, by decide +kernel, by decide +kernel⟩,
   ⟨1, Tests.txn (.read [0]), 5,
    ({ Tests.mesh (Tests.txn (.read [0])) with txns := [(0, Tests.txn (.write [(0, 1)])), (1, Tests.txn (.read [0]))] }),
    by unfold Arriving; decide +kernel, by unfold Serves; decide +kernel, by unfold InTurn; decide +kernel⟩,
   ⟨1, Tests.txn (.read [spadAddr 5 0, 0]), 5, Tests.mesh (Tests.txn (.read [spadAddr 5 0, 0])), [spadAddr 5 0, 0],
    by unfold Arriving; decide +kernel, by unfold Serves; decide +kernel, by decide +kernel, by unfold InTurn; decide +kernel,
    by unfold Clean; decide +kernel⟩,
   ⟨1, Tests.txn (.write [(spadAddr 5 63, 1)]), 5, Tests.win (Tests.mesh (Tests.txn (.write [(spadAddr 5 63, 1)]))), [(spadAddr 5 63, 1)], 2,
    by unfold Arriving; decide +kernel, by unfold Serves; decide +kernel, by decide +kernel, by unfold InTurn; decide +kernel,
    by decide +kernel, by unfold Clean; decide +kernel, by unfold Takes; decide +kernel⟩,
   ⟨1, Tests.txn (.write [(spadAddr 5 63, 1)]), 5, Tests.mesh (Tests.txn (.write [(spadAddr 5 63, 1)])), [(spadAddr 5 63, 1)],
    by unfold Arriving; decide +kernel, by unfold Serves; decide +kernel, by decide +kernel, by unfold InTurn; decide +kernel,
    by decide +kernel, by unfold Clean; decide +kernel, by decide +kernel, by unfold NoWindow; decide +kernel⟩,
   ⟨1, Tests.txn (.aadd (spadAddr 5 0) false 1 true), 5, Tests.win (Tests.mesh (Tests.txn (.aadd (spadAddr 5 0) false 1 true))), spadAddr 5 0,
    false, true, 1, _, _, 2, by unfold Arriving; decide +kernel, by unfold Serves; decide +kernel, by decide +kernel,
    by unfold InTurn; decide +kernel, rfl, rfl, by unfold Clean; decide +kernel, Tests.no_moraine _ (by decide +kernel),
    by unfold Takes; decide +kernel⟩⟩

theorem witness_MeshRequestsTurnedAway :
    (∃ id : Nat, ∃ x : Txn, ∃ t k : TileId, ∃ n : SemIdx, ∃ cnt : Nat, ∃ addrs : List Nat, ∃ cells : List (Nat × Byte), ∃ a : Nat, ∃ wide ret :
      Bool, ∃ y : Word, ∃ bad : Bool, ∃ s : State, ∃ p, Arriving s id x t ∧ p ∈ [(Instr.semaphorePost id, MemOp.post k n cnt), (.remoteRead
      id, .read addrs), (.remoteWrite id bad, .write cells), (.remoteAtomicAdd id bad, .aadd a wide y ret)] ∧ x.op = p.2 ∧ s.enabled t =
      true ∧ s.domReach (16 + tileDie t) = false) ∧
    (∃ id : Nat, ∃ x : Txn, ∃ t k : TileId, ∃ n : SemIdx, ∃ cnt : Nat, ∃ addrs : List Nat, ∃ cells : List (Nat × Byte), ∃ a : Nat, ∃ wide ret :
      Bool, ∃ y : Word, ∃ bad : Bool, ∃ s : State, ∃ p, Arriving s id x t ∧ p ∈ [(Instr.semaphorePost id, MemOp.post k n cnt), (.remoteRead
      id, .read addrs), (.remoteWrite id bad, .write cells), (.remoteAtomicAdd id bad, .aadd a wide y ret)] ∧ x.op = p.2 ∧ s.enabled t =
      true ∧ s.domReach (16 + tileDie t) = true ∧ s.tileDraining t = true) ∧
    (∃ (id : Nat) (x : Txn) (t k : TileId) (n : SemIdx) (cnt : Nat) (s : State), Arriving s id x t ∧ x.op = .post k n cnt ∧ s.enabled t = false) :=
  ⟨⟨1, Tests.txn (.post 5 3 1), 5, 5, 3, 1, [], [], 0, false, false, 1, false, Tests.put [(R.PDC_DOM_STAT (16 + tileDie 5),
    F.PDC_DOM_STAT_STATE, 0)] (Tests.mesh (Tests.txn (.post 5 3 1))), _, by unfold Arriving; decide +kernel, List.mem_cons_self,
    by decide +kernel, by decide +kernel, by decide +kernel⟩,
   ⟨1, Tests.txn (.post 5 3 1), 5, 5, 3, 1, [], [], 0, false, false, 1, false, Tests.put [(R.TILE_STATE 5, F.TILE_STATE_STATE, 2)] (Tests.mesh
    (Tests.txn (.post 5 3 1))), _, by unfold Arriving; decide +kernel, List.mem_cons_self, by decide +kernel, by decide +kernel,
    by decide +kernel, by decide +kernel⟩,
   ⟨1, Tests.txn (.post 5 3 1), 5, 5, 3, 1, { Tests.mesh (Tests.txn (.post 5 3 1)) with repair := ⟨[5], [], 0⟩ },
    by unfold Arriving; decide +kernel, by decide +kernel, by decide +kernel⟩⟩

theorem witness_MeshReplies :
    (∃ (id : Nat) (x : Txn) (t : TileId) (pc k : Nat) (st : Status) (data : List Byte) (bad : Bool) (s : State), mfind s.txns id = some x ∧
      s.domReach (16 + tileDie t) = true ∧ x.iss = .xwrite t pc k ∧ x.phase = .reply st data ∧ st ≠ .retryLater ∧ bad = false) ∧
    (∃ (id : Nat) (x : Txn) (t : TileId) (pc k : Nat) (st : Status) (data : List Byte) (bad : Bool) (s : State), mfind s.txns id = some x ∧
      s.domReach (16 + tileDie t) = true ∧ x.iss = .xwrite t pc k ∧ x.phase = .reply st data ∧ st ≠ .retryLater ∧ bad = true ∧ st = .ok) ∧
    (∃ (id : Nat) (x : Txn) (t : TileId) (pc k : Nat) (data : List Byte) (s : State), mfind s.txns id = some x ∧ s.domReach (16 + tileDie t) =
      true ∧ x.iss = .xwrite t pc k ∧ x.phase = .reply .retryLater data) ∧
    (∃ (id : Nat) (x : Txn) (t : TileId) (data : List Byte) (s : State) (rd : SReg) (idx : List Nat), mfind s.txns id = some x ∧ s.domReach (16
      + tileDie t) = true ∧ x.iss = .xload t 0 ∧ x.phase = .reply .ok data ∧ idx = List.range 8 ∧ data.length = 8 ∧ (s.tile t).x.load = some
      ⟨.scalar rd 8 false, 4, [⟨idx, none⟩]⟩) ∧
    (∃ id : Nat, ∃ x : Txn, ∃ t : TileId, ∃ s : State, ∃ u, mfind s.txns id = some x ∧ s.domReach (16 + tileDie t) = true ∧ x.dst = .tile u ∧
      x.phase = .refused) ∧
    (∃ id : Nat, ∃ x : Txn, ∃ t : TileId, ∃ pc k : Nat, ∃ s : State, ∃ d, mfind s.txns id = some x ∧ s.domReach (16 + tileDie t) = true ∧ x.dst
      = .dev d ∧ x.phase = .refused ∧ x.iss = .xwrite t pc k ∧ bit (rget s (R.MOS_ROUTE d.toNat) F.MOS_ROUTE_ENTRY) 31 = false) ∧
    (∃ (id : Nat) (x : Txn) (t : TileId) (pc k : Nat) (s : State), mfind s.txns id = some x ∧ s.domReach (16 + tileDie t) = true ∧ x.iss =
      .xwrite t pc k) :=
  ⟨⟨1, ⟨.xwrite 5 32 1, .tile 7, 0, .read [], .reply .protection []⟩, 5, 32, 1, .protection, [], _, Tests.mesh ⟨.xwrite 5 32 1, .tile 7, 0,
    .read [], .reply .protection []⟩, by decide +kernel, by decide +kernel, by decide +kernel, by decide +kernel, by decide +kernel, rfl⟩,
   ⟨1, ⟨.xwrite 5 32 1, .tile 7, 0, .read [], .reply .ok []⟩, 5, 32, 1, _, [], true, Tests.mesh ⟨.xwrite 5 32 1, .tile 7, 0, .read [], .reply
    .ok []⟩, by decide +kernel, by decide +kernel, by decide +kernel, by decide +kernel, by decide +kernel, by decide +kernel, rfl⟩,
   ⟨1, ⟨.xwrite 5 32 1, .tile 7, 0, .read [], .reply .retryLater []⟩, 5, 32, 1, [], Tests.mesh ⟨.xwrite 5 32 1, .tile 7, 0, .read [], .reply
    .retryLater []⟩, by decide +kernel, by decide +kernel, by decide +kernel, by decide +kernel⟩,
   ⟨1, ⟨.xload 5 0, .tile 7, 0, .read [], .reply .ok (List.replicate 8 1)⟩, 5, List.replicate 8 1, (Tests.mesh ⟨.xload 5 0, .tile 7, 0, .read
    [], .reply .ok (List.replicate 8 1)⟩).modX 5 (fun c => { c with load := some ⟨.scalar 1 8 false, 4, [⟨List.range 8, none⟩]⟩ }), 1, _,
    by decide +kernel, by decide +kernel, by decide +kernel, by decide +kernel, rfl, by decide +kernel, by decide +kernel⟩,
   ⟨1, ⟨.xwrite 5 32 1, .tile 7, 0, .read [], .refused⟩, 5, Tests.mesh ⟨.xwrite 5 32 1, .tile 7, 0, .read [], .refused⟩, 7, by decide +kernel,
    by decide +kernel, by decide +kernel, by decide +kernel⟩,
   ⟨1, ⟨.xwrite 5 32 1, .dev 1, 0, .read [], .refused⟩, 5, 32, 1, Tests.mesh ⟨.xwrite 5 32 1, .dev 1, 0, .read [], .refused⟩, 1,
    by decide +kernel, by decide +kernel, by decide +kernel, by decide +kernel, by decide +kernel, by decide +kernel⟩,
   ⟨1, ⟨.xwrite 5 32 1, .tile 7, 0, .read [], .lost⟩, 5, 32, 1, Tests.mesh ⟨.xwrite 5 32 1, .tile 7, 0, .read [], .lost⟩, by decide +kernel,
    by decide +kernel, by decide +kernel⟩⟩

theorem witness_QueueControl :
    (∃ (q : QIdx) (cfg : BitVec 32) (a b : Nat) (s : State), HostReaches s (hostCtl s) ∧ a = cfg.toNat / 2 ^ 4 % 32 ∧ b = cfg.toNat / 2 ^ 9 % 32
      ∧ qState s q = 0 ∧ (6 ≤ a ∧ a ≤ 16) ∧ 6 ≤ b ∧ b ≤ 16) ∧
    (∃ (q : QIdx) (cfg : BitVec 32) (a b : Nat) (s : State), HostReaches s (hostCtl s) ∧ a = cfg.toNat / 2 ^ 4 % 32 ∧ b = cfg.toNat / 2 ^ 9 % 32
      ∧ qState s q = 0 ∧ ¬ ((6 ≤ a ∧ a ≤ 16) ∧ 6 ≤ b ∧ b ≤ 16)) ∧
    (∃ (q : QIdx) (cfg : BitVec 32) (a b : Nat) (s : State), HostReaches s (hostCtl s) ∧ a = cfg.toNat / 2 ^ 4 % 32 ∧ b = cfg.toNat / 2 ^ 9 % 32
      ∧ qState s q = 3) ∧
    (∃ (q : QIdx) (cfg : BitVec 32) (a b : Nat) (s : State), HostReaches s (hostCtl s) ∧ a = cfg.toNat / 2 ^ 4 % 32 ∧ b = cfg.toNat / 2 ^ 9 % 32
      ∧ (qState s q = 1 ∨ qState s q = 2)) ∧
    (∃ (q : QIdx) (cfg : BitVec 32) (a b : Nat) (s : State), HostReaches s (hostCtl s) ∧ a = cfg.toNat / 2 ^ 4 % 32 ∧ b = cfg.toNat / 2 ^ 9 % 32
      ∧ qState s q = 2 ∧ cfg.getLsbD 0 = true ∧ (s.queue q).cmds = []) :=
  ⟨⟨0, BitVec.ofNat 32 (1 + 6 * 2 ^ 4 + 16 * 2 ^ 9), _, _, State.reset, by unfold HostReaches; decide +kernel, rfl, rfl, by decide +kernel,
    by decide +kernel⟩,
   ⟨0, BitVec.ofNat 32 (1 + 5 * 2 ^ 4 + 16 * 2 ^ 9), _, _, State.reset, by unfold HostReaches; decide +kernel, rfl, rfl, by decide +kernel,
    by decide +kernel⟩,
   ⟨0, 0, _, _, Tests.put [(R.QSTAT 0, F.QSTAT_STATE, 3)] State.reset, by unfold HostReaches; decide +kernel, rfl, rfl, by decide +kernel⟩,
   ⟨0, 0, _, _, Tests.put [(R.QSTAT 0, F.QSTAT_STATE, 1)] State.reset, by unfold HostReaches; decide +kernel, rfl, rfl, by decide +kernel⟩,
   ⟨0, 1, _, _, Tests.put [(R.QSTAT 0, F.QSTAT_STATE, 2)] State.reset, by unfold HostReaches; decide +kernel, rfl, rfl, by decide +kernel,
    by decide +kernel, by decide +kernel⟩⟩

theorem witness_QueueDrainsAndDoorbells :
    (∃ (q : QIdx) (s : State), qState s q = 3 ∧ (∀ c ∈ (s.queue q).cmds, dispatched c = false) ∧ rget s (R.QSTAT q.toNat) F.QSTAT_PEND_EN = 0) ∧
    (∃ (q : QIdx) (s : State), (¬ (qState s q = 3 ∧ ∀ c ∈ (s.queue q).cmds, dispatched c = false))) ∧
    (∃ q : QIdx, ∃ x : BitVec 16, ∃ s : State, ∃ c, HostReaches s 3 ∧ qState s q = 0 ∧ c ∈ [Instr.sqDoorbell q x, .cqDoorbell q x]) ∧
    (∃ (q : QIdx) (s : State), HostReaches s 3 ∧ qState s q ≠ 0) :=
  ⟨⟨0, Tests.put [(R.QSTAT 0, F.QSTAT_STATE, 3)] State.reset, by decide +kernel, by decide +kernel, by decide +kernel⟩,
   ⟨0, State.reset, by decide +kernel⟩,
   ⟨0, 0, State.reset, _, by unfold HostReaches; decide +kernel, by decide +kernel, List.mem_cons_self⟩,
   ⟨0, Tests.put [(R.QSTAT 0, F.QSTAT_STATE, 1)] State.reset, by unfold HostReaches; decide +kernel, by decide +kernel⟩⟩

theorem witness_CommandsFetched :
    (∃ (q : QIdx) (s : State) (head : Nat), qState s q = 1 ∧ (s.queue q).blocked = false ∧ head = rget s (R.QSQ_HEAD q.toNat) F.QSQ_HEAD_HEAD ∧
      (s.queue q).cursor = none ∧ (s.queue q).sqTail = head) ∧
    (∃ (q : QIdx) (s : State) (head a : Nat), qState s q = 1 ∧ (s.queue q).blocked = false ∧ head = rget s (R.QSQ_HEAD q.toNat) F.QSQ_HEAD_HEAD
      ∧ (s.queue q).cursor = none ∧ (s.queue q).sqTail ≠ head ∧ a = rget s (R.QSQ_BASE q.toNat) F.QSQ_BASE_ADDR * 2 ^ 12 + 16 * head) ∧
    (∃ q : QIdx, ∃ s : State, ∃ head n : Nat, ∃ k, qState s q = 1 ∧ (s.queue q).blocked = false ∧ head = rget s (R.QSQ_HEAD q.toNat)
      F.QSQ_HEAD_HEAD ∧ (s.queue q).cursor = some k ∧ k.space = 0 ∧ n = leNat (hostRd s (k.addr + 2) 2) ∧ 0 < n ∧ 16 * n ≤ k.left ∧ leNat
      (hostRd s k.addr 1) ≠ 1) :=
  ⟨⟨0, Tests.put [(R.QSTAT 0, F.QSTAT_STATE, 1)] State.reset, _, by decide +kernel, by decide +kernel, rfl, by decide +kernel,
    by decide +kernel⟩,
   ⟨0, (Tests.put [(R.QSTAT 0, F.QSTAT_STATE, 1)] State.reset).modQueue 0 (fun h => { h with sqTail := 1 }), _, _, by decide +kernel,
    by decide +kernel, rfl, by decide +kernel, by decide +kernel, rfl⟩,
   ⟨0, (Tests.put [(R.QSTAT 0, F.QSTAT_STATE, 1)] { State.reset with hostMem := [(2, 4)] }).modQueue 0 (fun h =>
    { h with cursor := some ⟨0, 64, 0⟩ }), _, _, ⟨0, 64, 0⟩, by decide +kernel, by decide +kernel, rfl, by decide +kernel,
    by decide +kernel, rfl, by decide +kernel, by decide +kernel, by decide +kernel⟩⟩

theorem witness_ImmediateCommands :
    (∃ (q : QIdx) (seq : W32) (c : Cmd) (s : State) (n x : Nat), n = cF c 0x10 2 ∧ x = cF c 0x14 4 ∧ AtHand s q seq 0 c) ∧
    (∃ (q : QIdx) (seq : W32) (c : Cmd) (s : State) (n x : Nat), n = cF c 0x10 2 ∧ x = cF c 0x14 4 ∧ AtHand s q seq 5 c ∧ n < 256) ∧
    (∃ (q : QIdx) (seq : W32) (c : Cmd) (s : State) (n x : Nat), n = cF c 0x10 2 ∧ x = cF c 0x14 4 ∧ AtHand s q seq 6 c) ∧
    (∃ (q : QIdx) (seq : W32) (c : Cmd) (s : State) (n x : Nat), n = cF c 0x10 2 ∧ x = cF c 0x14 4 ∧ s.cmd q seq = some c ∧ c.phase = .running ∧
      cmdOp c = 6 ∧ x ≤ rraw s (R.EVT n)) ∧
    (∃ (q : QIdx) (seq : W32) (c : Cmd) (s : State) (n x : Nat), n = cF c 0x10 2 ∧ x = cF c 0x14 4 ∧ s.cmd q seq = some c ∧ c.phase = .running ∧
      cmdOp c = 6 ∧ rraw s (R.EVT n) < x) ∧
    (∃ (q : QIdx) (seq : W32) (c : Cmd) (s : State) (n x : Nat), n = cF c 0x10 2 ∧ x = cF c 0x14 4 ∧ AtHand s q seq 10 c) :=
  ⟨⟨0, 7, Tests.cmd 0 (0) .admitted, (Tests.withCmd (Tests.cmd 0 (0) .admitted) State.reset), _, _, rfl, rfl, by unfold AtHand; decide +kernel⟩,
   ⟨0, 7, Tests.cmd 5 (255 * 2 ^ 128) .admitted, (Tests.withCmd (Tests.cmd 5 (255 * 2 ^ 128) .admitted) State.reset), _, _, rfl, rfl,
    by unfold AtHand; decide +kernel, by decide +kernel⟩,
   ⟨0, 7, Tests.cmd 6 (0) .admitted, (Tests.withCmd (Tests.cmd 6 (0) .admitted) State.reset), _, _, rfl, rfl, by unfold AtHand; decide +kernel⟩,
   ⟨0, 7, Tests.cmd 6 (0) .running, (Tests.withCmd (Tests.cmd 6 (0) .running) State.reset), _, _, rfl, rfl, by decide +kernel,
    by decide +kernel, by decide +kernel, by decide +kernel⟩,
   ⟨0, 7, Tests.cmd 6 (2 ^ 160) .running, (Tests.withCmd (Tests.cmd 6 (2 ^ 160) .running) State.reset), _, _, rfl, rfl, by decide +kernel,
    by decide +kernel, by decide +kernel, by decide +kernel⟩,
   ⟨0, 7, Tests.cmd 10 (0) .admitted, (Tests.withCmd (Tests.cmd 10 (0) .admitted) State.reset), _, _, rfl, rfl,
    by unfold AtHand; decide +kernel⟩⟩

theorem witness_CopyResults :
    (∃ (q : QIdx) (seq : W32) (c : Cmd) (s : State) (src dst n : Nat), AtHand s q seq 4 c ∧ src = cF c 0x10 8 ∧ dst = cF c 0x18 8 ∧ n = cF c
      0x20 8 ∧ 0 < n ∧ cF c 0x28 1 = 0 ∧ cF c 0x29 1 = 0) ∧
    (∃ (q : QIdx) (seq : W32) (c : Cmd) (s : State) (src dst n : Nat), AtHand s q seq 4 c ∧ src = cF c 0x10 8 ∧ dst = cF c 0x18 8 ∧ n = cF c
      0x20 8 ∧ 0 < n ∧ cF c 0x28 1 = 1 ∧ cF c 0x29 1 = 1 ∧ src + n ≤ hbmTop ∧ dst + n ≤ hbmTop ∧ (∀ k, k < n → Clean s (src + k) ∧ Clean s
      (dst + k))) ∧
    (∃ (q : QIdx) (seq : W32) (c : Cmd) (s : State) (src dst n : Nat), AtHand s q seq 4 c ∧ src = cF c 0x10 8 ∧ dst = cF c 0x18 8 ∧ n = cF c
      0x20 8 ∧ 0 < n ∧ cF c 0x28 1 = 1 ∧ src < spadBase ∧ hbmTop < src + n ∧ c.status = none) ∧
    (∃ q : QIdx, ∃ seq : W32, ∃ c : Cmd, ∃ s : State, ∃ src dst n : Nat, ∃ x : BitVec 64, ∃ p, AtHand s q seq 4 c ∧ src = cF c 0x10 8 ∧ dst = cF
      c 0x18 8 ∧ n = cF c 0x20 8 ∧ 0 < n ∧ cF c 0x28 1 = 0 ∧ cF c 0x29 1 = 0 ∧ c.status = none ∧ p ∈ [(HostFault.refused x,
      Status.protection), (.timeout x, .timeout), (.poison x, .faultEcc)]) :=
  ⟨⟨0, 7, Tests.cmd 4 (0x1000 * 2 ^ 128 + 0x2000 * 2 ^ 192 + 64 * 2 ^ 256) .admitted, (Tests.withCmd (Tests.cmd 4 (0x1000 * 2 ^ 128 + 0x2000 *
    2 ^ 192 + 64 * 2 ^ 256) .admitted) State.reset), _, _, _, by unfold AtHand; decide +kernel, rfl, rfl, rfl, by decide +kernel,
    by decide +kernel, by decide +kernel⟩,
   ⟨0, 7, Tests.cmd 4 (0x1000 * 2 ^ 128 + 0x2000 * 2 ^ 192 + 64 * 2 ^ 256 + 2 ^ 320 + 2 ^ 328) .admitted, (Tests.withCmd (Tests.cmd 4 (0x1000 *
    2 ^ 128 + 0x2000 * 2 ^ 192 + 64 * 2 ^ 256 + 2 ^ 320 + 2 ^ 328) .admitted) State.reset), _, _, _, by unfold AtHand; decide +kernel, rfl,
    rfl, rfl, by decide +kernel, by decide +kernel, by decide +kernel, by decide +kernel, by decide +kernel,
    by unfold Clean; decide +kernel⟩,
   ⟨0, 7, Tests.cmd 4 ((hbmTop - 63) * 2 ^ 128 + 64 * 2 ^ 256 + 2 ^ 320 + 2 ^ 328) .admitted, (Tests.withCmd (Tests.cmd 4 ((hbmTop - 63) * 2 ^
    128 + 64 * 2 ^ 256 + 2 ^ 320 + 2 ^ 328) .admitted) State.reset), _, _, _, by unfold AtHand; decide +kernel, rfl, rfl, rfl,
    by decide +kernel, by decide +kernel, by decide +kernel, by decide +kernel, by decide +kernel⟩,
   ⟨0, 7, Tests.cmd 4 (0x1000 * 2 ^ 128 + 0x2000 * 2 ^ 192 + 64 * 2 ^ 256) .admitted, (Tests.withCmd (Tests.cmd 4 (0x1000 * 2 ^ 128 + 0x2000 *
    2 ^ 192 + 64 * 2 ^ 256) .admitted) State.reset), _, _, _, 1, _, by unfold AtHand; decide +kernel, rfl, rfl, rfl, by decide +kernel,
    by decide +kernel, by decide +kernel, by decide +kernel, List.mem_cons_self⟩⟩

theorem witness_PrefetchCommands :
    (∃ q : QIdx, ∃ seq : W32, ∃ c : Cmd, ∃ s : State, ∃ e : Nat, ∃ p, AtHand s q seq 9 c ∧ prefetchIds c = [e] ∧ p ∈ [(Instr.pin q seq, 2, 1),
      (.unpin q seq, 3, 0)] ∧ cF c 0x10 1 = p.2.1 ∧ resOf s e ≠ 0) ∧
    (∃ q : QIdx, ∃ seq : W32, ∃ c : Cmd, ∃ s : State, ∃ e : Nat, ∃ p, AtHand s q seq 9 c ∧ prefetchIds c = [e] ∧ p ∈ [(Instr.pin q seq, 2, 1),
      (.unpin q seq, 3, 0)] ∧ cF c 0x10 1 = p.2.1 ∧ resOf s e = 0) ∧
    (∃ q : QIdx, ∃ seq : W32, ∃ c : Cmd, ∃ s : State, ∃ e : Nat, ∃ i, ∃ l, AtHand s q seq 9 c ∧ prefetchIds c = [e] ∧ cF c 0x10 1 = 0 ∧ resOf s
      e = 1 ∧ freeSlots s = i :: l) ∧
    (∃ (q : QIdx) (seq : W32) (c : Cmd) (s : State) (e : Nat), AtHand s q seq 9 c ∧ prefetchIds c = [e] ∧ cF c 0x10 1 = 1 ∧ resOf s e = 3 ∧
      isPool s e = true ∧ dirPinned s e = false ∧ regionReaders s e = 0 ∧ dirRestRo s e = false) :=
  ⟨⟨0, 7, Tests.cmd 9 (2 * 2 ^ 128 + 2 ^ 144 + 6 * 2 ^ 256) .admitted, (Tests.put [(R.DIR_LOCAL 6, F.DIR_RES, 3)] (Tests.withCmd (Tests.cmd 9
    (2 * 2 ^ 128 + 2 ^ 144 + 6 * 2 ^ 256) .admitted) State.reset)), 6, _, by unfold AtHand; decide +kernel, by decide +kernel,
    List.mem_cons_self, by decide +kernel, by decide +kernel⟩,
   ⟨0, 7, Tests.cmd 9 (2 * 2 ^ 128 + 2 ^ 144 + 6 * 2 ^ 256) .admitted, (Tests.withCmd (Tests.cmd 9 (2 * 2 ^ 128 + 2 ^ 144 + 6 * 2 ^ 256)
    .admitted) State.reset), 6, _, by unfold AtHand; decide +kernel, by decide +kernel, List.mem_cons_self, by decide +kernel,
    by decide +kernel⟩,
   ⟨0, 7, Tests.cmd 9 (0 * 2 ^ 128 + 2 ^ 144 + 6 * 2 ^ 256) .admitted, (Tests.put [(R.DIR_LOCAL 6, F.DIR_RES, 1), (R.MOR_POOL_CFG,
    F.MOR_POOL_CFG_SLOTS, 1)] (Tests.withCmd (Tests.cmd 9 (0 * 2 ^ 128 + 2 ^ 144 + 6 * 2 ^ 256) .admitted) State.reset)), 6, 0, [],
    by unfold AtHand; decide +kernel, by decide +kernel, by decide +kernel, by decide +kernel, by decide +kernel⟩,
   ⟨0, 7, Tests.cmd 9 (1 * 2 ^ 128 + 2 ^ 144 + 6 * 2 ^ 256) .admitted, (Tests.put [(R.DIR_LOCAL 6, F.DIR_RES, 3)] (Tests.withCmd (Tests.cmd 9
    (1 * 2 ^ 128 + 2 ^ 144 + 6 * 2 ^ 256) .admitted) { State.reset with exd := { Exd.reset with slots := [(6, 0)] } })), 6,
    by unfold AtHand; decide +kernel, by decide +kernel, by decide +kernel, by decide +kernel, by decide +kernel, by decide +kernel,
    by decide +kernel, by decide +kernel⟩⟩

theorem witness_StepBegins :
    (∃ (q : QIdx) (seq : W32) (c : Cmd) (s : State), cmdOp c = 7 ∧ c.status = none ∧ c.phase = .admitted ∧ s.cmd q seq = some c ∧ (recState s =
      1 ∨ recState s = 2)) ∧
    (∃ (q : QIdx) (seq : W32) (c : Cmd) (s : State), cmdOp c = 7 ∧ c.status = none ∧ c.phase = .admitted ∧ s.cmd q seq = some c ∧ recState s =
      4) ∧
    (∃ (q : QIdx) (seq : W32) (c : Cmd) (s : State), cmdOp c = 7 ∧ c.status = none ∧ c.phase = .admitted ∧ s.cmd q seq = some c ∧ (recState s =
      0 ∨ recState s = 3) ∧ cF c 0x14 4 ≠ rget s R.EXD_EPOCH F.EXD_EPOCH_CURRENT) ∧
    (∃ (q : QIdx) (seq : W32) (c : Cmd) (s : State), cmdOp c = 7 ∧ c.status = none ∧ c.phase = .admitted ∧ s.cmd q seq = some c ∧ (recState s =
      0 ∨ recState s = 3) ∧ cF c 0x14 4 = rget s R.EXD_EPOCH F.EXD_EPOCH_CURRENT ∧ rget s R.FIRN_SNAP F.FIRN_SNAP_VALID = 1 ∧ 2 ^ firnDepth
      s < (cF c 0x10 4 + 2 ^ 32 - rget s R.FIRN_SNAP F.FIRN_SNAP_STEP) % 2 ^ 32) ∧
    (∃ (q : QIdx) (seq : W32) (c : Cmd) (s : State), cmdOp c = 7 ∧ c.status = none ∧ c.phase = .admitted ∧ s.cmd q seq = some c ∧ MayBegin s c ∧
      rget s R.FIRN_CTL F.FIRN_CTL_EN = 0) ∧
    (∃ (q : QIdx) (seq : W32) (c : Cmd) (s : State) (a : Nat), cmdOp c = 7 ∧ c.status = none ∧ c.phase = .admitted ∧ s.cmd q seq = some c ∧
      MayBegin s c ∧ rget s R.FIRN_CTL F.FIRN_CTL_EN = 1 ∧ rget s R.FIRN_CTL F.FIRN_CTL_REPLAY = 0 ∧ c.space = 0 ∧ mirState s ≠ 2 ∧ a =
      recAddr s q (cF c 0x10 4) ∧ GoodHbm s a 128) ∧
    (∃ (q : QIdx) (seq : W32) (c : Cmd) (s : State), cmdOp c = 7 ∧ c.status = none ∧ c.phase = .admitted ∧ s.cmd q seq = some { c with phase :=
      .running } ∧ recTxns s (isFirn q seq) = []) :=
  ⟨⟨0, 7, Tests.cmd 7 (0) .admitted, (Tests.put [(R.REC_STATE, F.REC_STATE_STATE, 1)] (Tests.withCmd (Tests.cmd 7 (0) .admitted) State.reset)),
    by decide +kernel, by decide +kernel, by decide +kernel, by decide +kernel, by decide +kernel⟩,
   ⟨0, 7, Tests.cmd 7 (0) .admitted, (Tests.put [(R.REC_STATE, F.REC_STATE_STATE, 4)] (Tests.withCmd (Tests.cmd 7 (0) .admitted) State.reset)),
    by decide +kernel, by decide +kernel, by decide +kernel, by decide +kernel, by decide +kernel⟩,
   ⟨0, 7, Tests.cmd 7 (2 ^ 160) .admitted, (Tests.withCmd (Tests.cmd 7 (2 ^ 160) .admitted) State.reset), by decide +kernel, by decide +kernel,
    by decide +kernel, by decide +kernel, by decide +kernel, by decide +kernel⟩,
   ⟨0, 7, Tests.cmd 7 (1025 * 2 ^ 128) .admitted, (Tests.put [(R.FIRN_SNAP, F.FIRN_SNAP_VALID, 1)] (Tests.withCmd (Tests.cmd 7 (1025 * 2 ^ 128)
    .admitted) State.reset)), by decide +kernel, by decide +kernel, by decide +kernel, by decide +kernel, by decide +kernel,
    by decide +kernel, by decide +kernel, by decide +kernel⟩,
   ⟨0, 7, Tests.cmd 7 (1024 * 2 ^ 128) .admitted, (Tests.put [(R.FIRN_SNAP, F.FIRN_SNAP_VALID, 1)] (Tests.withCmd (Tests.cmd 7 (1024 * 2 ^ 128)
    .admitted) State.reset)), by decide +kernel, by decide +kernel, by decide +kernel, by decide +kernel,
    by unfold MayBegin; decide +kernel, by decide +kernel⟩,
   ⟨0, 7, Tests.cmd 7 (0) .admitted, (Tests.put [(R.FIRN_CTL, F.FIRN_CTL_EN, 1)] (Tests.withCmd (Tests.cmd 7 (0) .admitted) State.reset)), _,
    by decide +kernel, by decide +kernel, by decide +kernel, by decide +kernel, by unfold MayBegin; decide +kernel, by decide +kernel,
    by decide +kernel, by decide +kernel, by decide +kernel, rfl, ⟨by decide +kernel, fun k _ => Tests.clean_of _ (by decide +kernel)
    (by decide +kernel) (by decide +kernel) _⟩⟩,
   ⟨0, 7, Tests.cmd 7 (0) .admitted, (Tests.withCmd (Tests.cmd 7 (0) .running) State.reset), by decide +kernel, by decide +kernel,
    by decide +kernel, by decide +kernel, by decide +kernel⟩⟩

theorem witness_StepEnds :
    (∃ (q : QIdx) (seq : W32) (c : Cmd) (s : State), AtHand s q seq 8 c ∧ mirState s ≠ 2 ∧ recState s ≠ 3 ∧ s.push = [] ∧ recTxns s (isMirror q
      seq) = [] ∧ rget s R.FIRN_CTL F.FIRN_CTL_EN = 0) ∧
    (∃ (q : QIdx) (seq : W32) (c : Cmd) (s : State) (a : Nat), AtHand s q seq 8 c ∧ mirState s ≠ 2 ∧ recState s ≠ 3 ∧ s.push = [] ∧ recTxns s
      (isMirror q seq) = [] ∧ rget s R.FIRN_CTL F.FIRN_CTL_EN = 1 ∧ rget s R.FIRN_CTL F.FIRN_CTL_REPLAY = 0 ∧ a = recAddr s q (cF c 0x10 4)
      ∧ GoodHbm s a 128 ∧ c.status = none ∧ recGood (rdBytes s a 128) (cF c 0x10 4) = false) ∧
    (∃ (q : QIdx) (seq : W32) (c : Cmd) (s : State) (a : Nat), AtHand s q seq 8 c ∧ mirState s ≠ 2 ∧ recState s ≠ 3 ∧ s.push = [] ∧ recTxns s
      (isMirror q seq) = [] ∧ rget s R.FIRN_CTL F.FIRN_CTL_EN = 1 ∧ rget s R.FIRN_CTL F.FIRN_CTL_REPLAY = 0 ∧ a = recAddr s q (cF c 0x10 4)
      ∧ GoodHbm s a 128 ∧ GoodHbm s (cF c 0x18 8) 16 ∧ recGood (rdBytes s a 128) (cF c 0x10 4) = true) ∧
    (∃ (q : QIdx) (seq : W32) (c : Cmd) (s : State), AtHand s q seq 8 c ∧ mirState s ≠ 2 ∧ recState s ≠ 3 ∧ s.push = [] ∧ recTxns s (isMirror q
      seq) = [] ∧ HostReaches s (hostCtl s)) :=
  ⟨⟨0, 7, Tests.cmd 8 (0) .admitted, (Tests.withCmd (Tests.cmd 8 (0) .admitted) State.reset), by unfold AtHand; decide +kernel,
    by decide +kernel, by decide +kernel, by decide +kernel, by decide +kernel, by decide +kernel⟩,
   ⟨0, 7, Tests.cmd 8 (0) .admitted, (Tests.put [(R.FIRN_CTL, F.FIRN_CTL_EN, 1)] (Tests.withCmd (Tests.cmd 8 (0) .admitted) State.reset)), _,
    by unfold AtHand; decide +kernel, by decide +kernel, by decide +kernel, by decide +kernel, by decide +kernel, by decide +kernel,
    by decide +kernel, rfl, ⟨by decide +kernel, fun k _ => Tests.clean_of _ (by decide +kernel) (by decide +kernel) (by decide +kernel) _⟩,
    by decide +kernel, by decide +kernel⟩,
   ⟨0, 7, Tests.cmd 8 (0) .admitted, (Tests.put [(R.FIRN_CTL, F.FIRN_CTL_EN, 1)] (Tests.withCmd (Tests.cmd 8 (0) .admitted)
    { State.reset with mem := Tests.stepRec })), _, by unfold AtHand; decide +kernel, by decide +kernel, by decide +kernel,
    by decide +kernel, by decide +kernel, by decide +kernel, by decide +kernel, rfl, ⟨by decide +kernel, fun k _ => Tests.clean_of _
    (by decide +kernel) (by decide +kernel) (by decide +kernel) _⟩, ⟨by decide +kernel, fun k _ => Tests.clean_of _ (by decide +kernel)
    (by decide +kernel) (by decide +kernel) _⟩, by decide +kernel⟩,
   ⟨0, 7, Tests.cmd 8 (0) .admitted, (Tests.withCmd (Tests.cmd 8 (0) .admitted) State.reset), by unfold AtHand; decide +kernel,
    by decide +kernel, by decide +kernel, by decide +kernel, by decide +kernel, by unfold HostReaches; decide +kernel⟩⟩

theorem witness_LaunchStarts :
    (∃ (q : QIdx) (seq : W32) (c : Cmd) (s : State), AtHand s q seq 1 c ∧ c.status = none ∧ c.tiles = []) ∧
    (∃ (q : QIdx) (seq : W32) (c : Cmd) (s : State) (t : TileId), AtHand s q seq 1 c ∧ c.status = none ∧ c.tiles = [t.toNat] ∧ (∀ k ∈ setTiles
      c, (s.tile (BitVec.ofNat 11 k)).x.launch = none) ∧ ¬ NothingLeft s t ∧ cF c 0x32 1 = 1) ∧
    (∃ (q : QIdx) (seq : W32) (c : Cmd) (s : State) (t : TileId), AtHand s q seq 1 c ∧ c.status = none ∧ c.tiles = [t.toNat] ∧ (∀ k ∈ setTiles
      c, (s.tile (BitVec.ofNat 11 k)).x.launch = none) ∧ NothingLeft s t ∧ cF c 0x32 1 = 1) :=
  ⟨⟨0, 7, { Tests.cmd 1 (0x100 * 2 ^ 392) .admitted with tiles := [] }, (Tests.withCmd
    ({ Tests.cmd 1 (0x100 * 2 ^ 392) .admitted with tiles := [] }) State.reset), by unfold AtHand; decide +kernel, by decide +kernel,
    by decide +kernel⟩,
   ⟨0, 7, { Tests.cmd 1 (0x100 * 2 ^ 392) .admitted with tiles := [5], bitmap := [32] }, (Tests.withCmd
    ({ Tests.cmd 1 (0x100 * 2 ^ 392) .admitted with tiles := [5], bitmap := [32] }) (State.reset.modTile 5 (fun c =>
    { c with xfers := [(0, Tests.xfer true)] }))), 5, by unfold AtHand; decide +kernel, by decide +kernel, by decide +kernel,
    by decide +kernel, fun h => absurd h.1 (by decide +kernel), by decide +kernel⟩,
   ⟨0, 7, { Tests.cmd 1 (0x100 * 2 ^ 392) .admitted with tiles := [5], bitmap := [32] }, (Tests.withCmd
    ({ Tests.cmd 1 (0x100 * 2 ^ 392) .admitted with tiles := [5], bitmap := [32] }) State.reset), 5, by unfold AtHand; decide +kernel,
    by decide +kernel, by decide +kernel, by decide +kernel, Tests.nothing_left _ _ (by decide +kernel), by decide +kernel⟩⟩

theorem witness_LaunchesEnd :
    (∃ (q : QIdx) (seq : W32) (c : Cmd) (t : TileId) (s : State), s.cmd q seq = some c ∧ c.phase = .running ∧ cmdOp c = 1 ∧ c.tiles = [t.toNat]
      ∧ (s.tile t).x.launch = some (q, seq) ∧ xState s t ≠ 4) ∧
    (∃ (q : QIdx) (seq : W32) (c : Cmd) (t : TileId) (s : State), s.cmd q seq = some c ∧ c.phase = .running ∧ cmdOp c = 1 ∧ c.tiles = [t.toNat]
      ∧ (s.tile t).x.launch = none ∧ ¬ NothingLeft s t) ∧
    (∃ (q : QIdx) (seq : W32) (c : Cmd) (t : TileId) (s : State), s.cmd q seq = some c ∧ c.phase = .running ∧ cmdOp c = 1 ∧ c.tiles = [t.toNat]
      ∧ (s.tile t).x.launch = none ∧ NothingLeft s t ∧ c.status = none ∧ c.stepMis = false ∧ c.deferred = false ∧ bit (cF c 1 1) 1 = false ∧
      cF c 0x34 4 = 0) ∧
    (∃ (q : QIdx) (seq : W32) (c : Cmd) (t : TileId) (s : State), s.cmd q seq = some c ∧ c.phase = .running ∧ cmdOp c = 1 ∧ c.tiles = [t.toNat]
      ∧ (s.tile t).x.launch = none ∧ NothingLeft s t ∧ c.status = none ∧ c.stepMis = false ∧ c.deferred = false ∧ bit (cF c 1 1) 1 = false ∧
      cF c 0x34 4 ≠ 0) ∧
    (∃ q : QIdx, ∃ seq : W32, ∃ c : Cmd, ∃ t : TileId, ∃ s : State, ∃ x, s.cmd q seq = some c ∧ c.phase = .running ∧ cmdOp c = 1 ∧ c.tiles =
      [t.toNat] ∧ (s.tile t).x.launch = none ∧ NothingLeft s t ∧ c.status = some x ∧ x.stops = true ∧ qState s q = 1) :=
  ⟨⟨0, 7, { Tests.cmd 1 (0x100 * 2 ^ 392) .running with tiles := [5] }, 5, (Tests.withCmd
    ({ Tests.cmd 1 (0x100 * 2 ^ 392) .running with tiles := [5] }) (Tests.run.modX 5 (fun x => { x with launch := some (0, 7) }))),
    by decide +kernel, by decide +kernel, by decide +kernel, by decide +kernel, by decide +kernel, by decide +kernel⟩,
   ⟨0, 7, { Tests.cmd 1 (0x100 * 2 ^ 392) .running with tiles := [5] }, 5, (Tests.withCmd
    ({ Tests.cmd 1 (0x100 * 2 ^ 392) .running with tiles := [5] }) (State.reset.modTile 5 (fun c =>
    { c with xfers := [(0, Tests.xfer true)] }))), by decide +kernel, by decide +kernel, by decide +kernel, by decide +kernel,
    by decide +kernel, fun h => absurd h.1 (by decide +kernel)⟩,
   ⟨0, 7, { Tests.cmd 1 (0x100 * 2 ^ 392) .running with tiles := [5] }, 5, (Tests.withCmd
    ({ Tests.cmd 1 (0x100 * 2 ^ 392) .running with tiles := [5] }) State.reset), by decide +kernel, by decide +kernel, by decide +kernel,
    by decide +kernel, by decide +kernel, Tests.nothing_left _ _ (by decide +kernel), by decide +kernel, by decide +kernel,
    by decide +kernel, by decide +kernel, by decide +kernel⟩,
   ⟨0, 7, { Tests.cmd 1 (64 * 2 ^ 416) .running with tiles := [5] }, 5, (Tests.withCmd
    ({ Tests.cmd 1 (64 * 2 ^ 416) .running with tiles := [5] }) State.reset), by decide +kernel, by decide +kernel, by decide +kernel,
    by decide +kernel, by decide +kernel, Tests.nothing_left _ _ (by decide +kernel), by decide +kernel, by decide +kernel,
    by decide +kernel, by decide +kernel, by decide +kernel⟩,
   ⟨0, 7, { Tests.cmd 1 (0x100 * 2 ^ 392) .running with tiles := [5], status := some .faultEcc }, 5, (Tests.put [(R.QSTAT 0, F.QSTAT_STATE, 1)]
    (Tests.withCmd ({ Tests.cmd 1 (0x100 * 2 ^ 392) .running with tiles := [5], status := some .faultEcc }) State.reset)), .faultEcc,
    by decide +kernel, by decide +kernel, by decide +kernel, by decide +kernel, by decide +kernel, Tests.nothing_left _ _
    (by decide +kernel), by decide +kernel, by decide +kernel, by decide +kernel⟩⟩

theorem witness_CommandsDispatchAndComplete :
    (∃ (q : QIdx) (seq : W32) (c : Cmd) (s : State), s.cmd q seq = some c ∧ c.phase = .waiting ∧ qState s q = 1 ∧ (s.queue q).cmds = [c] ∧
      c.refused = none ∧ cmdOp c = 0 ∧ cqFree s q ≠ 0 ∧ rget s (R.QSTAT q.toNat) F.QSTAT_CQ_FULL = 0 ∧ qExpert s q = false ∧ c.tiles = []) ∧
    (∃ (q : QIdx) (seq : W32) (c : Cmd) (s : State), s.cmd q seq = some c ∧ c.phase = .waiting ∧ qState s q ≠ 1) ∧
    (∃ (q : QIdx) (seq : W32) (c : Cmd) (s : State), s.cmd q seq = some c ∧ c.phase = .ended ∧ cmdOp c = 0 ∧ c.status = none ∧ c.stepMis = false
      ∧ c.deferred = false ∧ bit (cF c 1 1) 1 = false ∧ c.badRef = none) ∧
    (∃ (q : QIdx) (seq : W32) (c : Cmd) (s : State) (a : Nat), s.cmd q seq = some c ∧ c.phase = .ended ∧ cmdOp c = 0 ∧ c.status = none ∧
      c.stepMis = false ∧ c.deferred = false ∧ bit (cF c 1 1) 1 = true ∧ bit (cF c 1 1) 2 = false ∧ c.badRef = none ∧ cqSize s q ≠ cqTail s
      q + 1 ∧ a = rget s (R.QCQ_BASE q.toNat) F.QCQ_BASE_ADDR * 2 ^ 12 + 32 * cqTail s q) ∧
    (∃ (q : QIdx) (seq : W32) (c : Cmd) (s : State), s.cmd q seq = some c ∧ c.refused = some .aborted ∧ (s.queue q).cmds = [c] ∧ qState s q = 1
      ∧ cqFree s q ≠ 0 ∧ rget s (R.QSTAT q.toNat) F.QSTAT_CQ_FULL = 0 ∧ c.status = some .aborted) :=
  ⟨⟨0, 7, Tests.cmd 0 (0) .waiting, (Tests.put [(R.QSTAT 0, F.QSTAT_STATE, 1)] (Tests.withCmd (Tests.cmd 0 (0) .waiting) State.reset)),
    by decide +kernel, by decide +kernel, by decide +kernel, by decide +kernel, by decide +kernel, by decide +kernel, by decide +kernel,
    by decide +kernel, by decide +kernel, by decide +kernel⟩,
   ⟨0, 7, Tests.cmd 0 (0) .waiting, (Tests.withCmd (Tests.cmd 0 (0) .waiting) State.reset), by decide +kernel, by decide +kernel,
    by decide +kernel⟩,
   ⟨0, 7, Tests.cmd 0 (0) .ended, (Tests.withCmd (Tests.cmd 0 (0) .ended) State.reset), by decide +kernel, by decide +kernel,
    by decide +kernel, by decide +kernel, by decide +kernel, by decide +kernel, by decide +kernel, by decide +kernel⟩,
   ⟨0, 7, Tests.cmd 0 (2 * 2 ^ 8) .ended, (Tests.withCmd (Tests.cmd 0 (2 * 2 ^ 8) .ended) State.reset), _, by decide +kernel,
    by decide +kernel, by decide +kernel, by decide +kernel, by decide +kernel, by decide +kernel, by decide +kernel, by decide +kernel,
    by decide +kernel, by decide +kernel, rfl⟩,
   ⟨0, 7, { Tests.cmd 0 0 .waiting with refused := some .aborted, status := some .aborted }, (Tests.put [(R.QSTAT 0, F.QSTAT_STATE, 1)]
    (Tests.withCmd ({ Tests.cmd 0 0 .waiting with refused := some .aborted, status := some .aborted }) State.reset)), by decide +kernel,
    by decide +kernel, by decide +kernel, by decide +kernel, by decide +kernel, by decide +kernel, by decide +kernel⟩⟩

theorem witness_TileResets :
    (∃ (t : TileId) (s : State), HostReaches s 0 ∧ rget s R.PDC_TILE_RST F.PDC_TILE_RST_BUSY = 0 ∧ s.enabled t = true ∧ (s.tile t).x.launch =
      none) ∧
    (∃ (t : TileId) (s : State), HostReaches s 0 ∧ (rget s R.PDC_TILE_RST F.PDC_TILE_RST_BUSY = 1 ∨ s.enabled t = false)) ∧
    (∃ (t : TileId) (s : State), rget s R.PDC_TILE_RST F.PDC_TILE_RST_BUSY = 1 ∧ rget s R.PDC_TILE_RST F.PDC_TILE_RST_TILE = t.toNat ∧ (s.tile
      t).xfers = [] ∧ (∀ e ∈ s.txns, issuerTile e.2.iss ≠ some t)) :=
  ⟨⟨2047, State.reset, by unfold HostReaches; decide +kernel, by decide +kernel, by decide +kernel, by decide +kernel⟩,
   ⟨5, Tests.put [(R.PDC_TILE_RST, F.PDC_TILE_RST_BUSY, 1)] State.reset, by unfold HostReaches; decide +kernel, by decide +kernel⟩,
   ⟨5, Tests.put [(R.PDC_TILE_RST, F.PDC_TILE_RST_BUSY, 1), (R.PDC_TILE_RST, F.PDC_TILE_RST_TILE, 5)] State.reset, by decide +kernel,
    by decide +kernel, by decide +kernel, by decide +kernel⟩⟩

theorem witness_StreamsOpen :
    (∃ (t : TileId) (sl : SlotIdx) (env : EngEnv) (s s1 s2 : State) (d tw : DWord) (len : Nat), slotState s t sl = 1 ∧ engRead64 t 1 env (rget s
      (R.SLOT_DESC_VA t.toNat sl.toNat) F.SLOT_DESC_VA_VA) s = (.ok d, s1) ∧ sTdVa d % 64 = 0 ∧ sTdVa d < 2 ^ 48 ∧ engRead64 t 1 env (sTdVa
      d) s1 = (.ok tw, s2) ∧ len = (if sLen d = 0 then defaultLen s2 t d (tdOf tw) else sLen d) ∧ sdRefused s2 t sl d (tdOf tw) = false ∧
      fcExpert s2 t = false ∧ (∀ k, k ≠ sl → (s2.slot t k).acc = true → sPair (s2.slot t k).sdesc = sPair d → slotState s2 t k = 0 ∨
      slotState s2 t k = 7)) ∧
    (∃ (t : TileId) (sl : SlotIdx) (env : EngEnv) (s s1 s2 : State) (d tw : DWord) (len : Nat), slotState s t sl = 1 ∧ engRead64 t 1 env (rget s
      (R.SLOT_DESC_VA t.toNat sl.toNat) F.SLOT_DESC_VA_VA) s = (.ok d, s1) ∧ sTdVa d % 64 = 0 ∧ sTdVa d < 2 ^ 48 ∧ engRead64 t 1 env (sTdVa
      d) s1 = (.ok tw, s2) ∧ len = (if sLen d = 0 then defaultLen s2 t d (tdOf tw) else sLen d) ∧ sdRefused s2 t sl d (tdOf tw) = true) :=
  ⟨⟨5, 1, EngEnv.none, Tests.opening Tests.load, (engRead64 5 1 EngEnv.none 64 (Tests.opening Tests.load)).2, (engRead64 5 1 EngEnv.none 128
    (engRead64 5 1 EngEnv.none 64 (Tests.opening Tests.load)).2).2, BitVec.ofNat 512 Tests.load, BitVec.ofNat 512 Tests.tensor, _,
    by decide +kernel, by decide +kernel, by decide +kernel, by decide +kernel, by decide +kernel, rfl, by decide +kernel,
    by decide +kernel, by decide +kernel⟩,
   ⟨5, 1, EngEnv.none, Tests.opening 0, (engRead64 5 1 EngEnv.none 64 (Tests.opening 0)).2, (engRead64 5 1 EngEnv.none 0 (engRead64 5 1
    EngEnv.none 64 (Tests.opening 0)).2).2, 0, 15, _, by decide +kernel, by decide +kernel, by decide +kernel, by decide +kernel,
    by decide +kernel, rfl, by decide +kernel⟩⟩

theorem witness_StreamTransfers :
    (∃ (t : TileId) (sl : SlotIdx) (s : State), Delivering s t sl ∧ (s.slot t sl).stage = 0) ∧
    (∃ (t : TileId) (s : State) (id : Nat) (x : Xfer), mfind (s.tile t).xfers id = some x ∧ x.reads = true ∧ x.sent = false ∧ (∀ c ∈ x.cells,
      addrOk s c.1 = true ∧ Clean s c.1 ∧ Clean s (spadAddr t c.2)) ∧ ¬ Wants s t x.slot x.buf) ∧
    (∃ (t : TileId) (s : State) (id : Nat) (x : Xfer), mfind (s.tile t).xfers id = some x ∧ x.reads = true ∧ x.sent = false ∧ (∀ c ∈ x.cells,
      addrOk s c.1 = true ∧ Clean s c.1 ∧ Clean s (spadAddr t c.2)) ∧ Wants s t x.slot x.buf ∧ (x.cells.map (·.2)).Nodup ∧ (∀ e ∈ (s.slot t
      x.slot).bufs, e.no = x.buf → e.issued = false)) ∧
    (∃ (t : TileId) (s : State) (id : Nat) (x : Xfer), mfind (s.tile t).xfers id = some x ∧ x.reads = true ∧ x.sent = false ∧ (∀ c ∈ x.cells,
      addrOk s c.1 = true ∧ Clean s c.1 ∧ Clean s (spadAddr t c.2)) ∧ Wants s t x.slot x.buf ∧ runsAhead s t x.slot = false) ∧
    (∃ (t : TileId) (s : State) (id : Nat) (x : Xfer), mfind (s.tile t).xfers id = some x ∧ x.sent = true ∧ x.reply = none) ∧
    (∃ (t : TileId) (s : State) (id : Nat), mfind (s.tile t).xfers id = none ∧ mfind (s.tile t).late id = none) ∧
    (∃ (t : TileId) (s : State) (id : Nat) (x : Xfer), mfind (s.tile t).xfers id = none ∧ mfind (s.tile t).late id = some x ∧ x.reads = true ∧
      (∀ c ∈ x.cells, addrOk s c.1 = true ∧ Clean s c.1)) :=
  ⟨⟨5, 1, Tests.slot1 2 Slot.reset [], by unfold Delivering; decide +kernel, by decide +kernel⟩,
   ⟨5, Tests.slot1 6 Slot.reset [(3, Tests.xfer false)], 3, Tests.xfer false, by decide +kernel, by decide +kernel, by decide +kernel,
    by unfold Clean; decide +kernel, by unfold Wants; decide +kernel⟩,
   ⟨5, Tests.slot1 2 ({ Slot.reset with bufs := [⟨0, 1, false, false, none, []⟩] }) [(3, Tests.xfer false)], 3, Tests.xfer false,
    by decide +kernel, by decide +kernel, by decide +kernel, by unfold Clean; decide +kernel, by unfold Wants; decide +kernel,
    by decide +kernel, by decide +kernel⟩,
   ⟨5, Tests.slot1 2 ({ Slot.reset with bufs := [⟨0, 1, false, false, none, []⟩] }) [(3, Tests.xfer false)], 3, Tests.xfer false,
    by decide +kernel, by decide +kernel, by decide +kernel, by unfold Clean; decide +kernel, by unfold Wants; decide +kernel,
    by decide +kernel⟩,
   ⟨5, Tests.slot1 2 Slot.reset [(3, Tests.xfer true)], 3, Tests.xfer true, by decide +kernel, by decide +kernel, by decide +kernel⟩,
   ⟨5, State.reset, 3, by decide +kernel, by decide +kernel⟩,
   ⟨5, ((Tests.slot1 2 Slot.reset []).modTile 5 (fun c => { c with late := [(3, Tests.xfer false)] })), 3, Tests.xfer false, by decide +kernel,
    by decide +kernel, by decide +kernel, by unfold Clean; decide +kernel⟩⟩

theorem witness_StreamEnds :
    (∃ (t : TileId) (sl : SlotIdx) (s : State) (d : DWord), d = (s.slot t sl).sdesc ∧ rget s (R.FC_PROGRESS t.toNat) F.FC_PROGRESS_COUNT <
      progLimit s t) ∧
    (∃ (t : TileId) (sl : SlotIdx) (s : State) (d : DWord), d = (s.slot t sl).sdesc ∧ progLimit s t ≤ rget s (R.FC_PROGRESS t.toNat)
      F.FC_PROGRESS_COUNT ∧ (∀ k, slotState s t k ≠ 3) ∧ fState s t ≠ 2) ∧
    (∃ (t : TileId) (sl : SlotIdx) (s : State) (d : DWord), d = (s.slot t sl).sdesc ∧ progLimit s t ≤ rget s (R.FC_PROGRESS t.toNat)
      F.FC_PROGRESS_COUNT ∧ (∀ k, slotState s t k ≠ 3) ∧ fState s t = 2) ∧
    (∃ (t : TileId) (sl : SlotIdx) (s : State) (d : DWord), d = (s.slot t sl).sdesc ∧ progLimit s t ≤ rget s (R.FC_PROGRESS t.toNat)
      F.FC_PROGRESS_COUNT ∧ slotState s t sl = 3 ∧ (∀ k, k ≠ sl → slotState s t k = 3 → slotAge s t sl < slotAge s t k)) ∧
    (∃ (t : TileId) (sl : SlotIdx) (s : State) (d : DWord), d = (s.slot t sl).sdesc ∧ slotState s t sl = 6 ∧ (∀ e ∈ (s.tile t).xfers, e.2.slot ≠
      sl) ∧ (s.slot t sl).acc = true ∧ sFlag d 3 = false) ∧
    (∃ (t : TileId) (sl : SlotIdx) (s : State) (d : DWord), d = (s.slot t sl).sdesc ∧ slotState s t sl = 6 ∧ (∃ e ∈ (s.tile t).xfers, e.2.slot =
      sl)) ∧
    (∃ (t : TileId) (sl : SlotIdx) (s : State) (d : DWord), d = (s.slot t sl).sdesc ∧ slotState s t sl = 5 ∧ (s.slot t sl).ending = false ∧ (∀ e
      ∈ (s.tile t).xfers, e.2.slot = sl → e.2.buf < slotLenBufs s t sl)) ∧
    (∃ (t : TileId) (sl : SlotIdx) (s : State) (d : DWord), d = (s.slot t sl).sdesc ∧ slotState s t sl = 5 ∧ (∃ e ∈ (s.tile t).xfers, e.2.slot =
      sl ∧ slotLenBufs s t sl ≤ e.2.buf)) ∧
    (∃ (t : TileId) (sl : SlotIdx) (s : State) (d : DWord), d = (s.slot t sl).sdesc ∧ slotState s t sl = 5 ∧ (s.slot t sl).ending = true ∧ (∃ e
      ∈ (s.tile t).xfers, e.2.slot = sl)) :=
  ⟨⟨5, 1, (Tests.put [(R.FC_PROGRESS 5, F.FC_PROGRESS_COUNT, 2 ^ 16 - 1)] State.reset), _, rfl, by decide +kernel⟩,
   ⟨5, 1, (Tests.put [(R.FC_PROGRESS 5, F.FC_PROGRESS_COUNT, 2 ^ 16)] State.reset), _, rfl, by decide +kernel, by decide +kernel,
    by decide +kernel⟩,
   ⟨5, 1, (Tests.put [(R.FC_PROGRESS 5, F.FC_PROGRESS_COUNT, 2 ^ 16), (R.FC_STATUS 5, F.FC_STATUS_STATE, 2)] State.reset), _, rfl,
    by decide +kernel, by decide +kernel, by decide +kernel⟩,
   ⟨5, 1, (Tests.put [(R.FC_PROGRESS 5, F.FC_PROGRESS_COUNT, 2 ^ 16), (R.SLOT_STATE 5 1, F.SLOT_STATE_STATE, 3)] State.reset), _, rfl,
    by decide +kernel, by decide +kernel, by decide +kernel⟩,
   ⟨5, 1, Tests.slot1 6 { Slot.reset with acc := true } [], _, rfl, by decide +kernel, by decide +kernel, by decide +kernel, by decide +kernel⟩,
   ⟨5, 1, Tests.slot1 6 Slot.reset [(3, Tests.xfer true)], _, rfl, by decide +kernel, by decide +kernel⟩,
   ⟨5, 1, Tests.slot1 5 { Slot.reset with credits := 2 } [(3, Tests.xfer true)], _, rfl, by decide +kernel, by decide +kernel,
    by decide +kernel⟩,
   ⟨5, 1, (Tests.put [(R.SLOT_LENGTH 5 1, F.SLOT_LENGTH_BUFS, 0)] (Tests.slot1 5 Slot.reset [(3, Tests.xfer true)])), _, rfl,
    by decide +kernel, by decide +kernel⟩,
   ⟨5, 1, Tests.slot1 5 { Slot.reset with ending := true } [(3, Tests.xfer true)], _, rfl, by decide +kernel, by decide +kernel,
    by decide +kernel⟩⟩

theorem witness_CubeEngineRuns :
    (∃ (t : TileId) (e : EngCmd) (es : List EngCmd) (s : State), (s.tile t).ce = e :: es ∧ e.phase = .queued ∧ e.op = .ceMm ∧ inQuad s t = false
      ∧ ceRefused s t true e.da e.db e.dc e.imm = true) ∧
    (∃ (t : TileId) (e : EngCmd) (es : List EngCmd) (s : State), (s.tile t).ce = e :: es ∧ e.phase = .queued ∧ e.op = .ceMm ∧ inQuad s t = false
      ∧ ceRefused s t true e.da e.db e.dc e.imm = false ∧ e.imm.linEn = true ∧ ¬ (semWaiters s t (fullSem e.imm.lin) = [] ∧ 1 ≤ semVal s t
      (fullSem e.imm.lin))) ∧
    (∃ (t : TileId) (env : EngEnv) (e : EngCmd) (es : List EngCmd) (s : State) (sp : Option SpMeta) (cells : List (TileId × Nat × Byte)) (s1 :
      State), (s.tile t).ce = e :: es ∧ e.phase = .haveIn ∧ e.op = .ceMm ∧ ceProduct t env e.da e.db e.dc e.imm s = (.ok (sp, cells), s1) ∧
      (s1.tile t).ce = e :: es ∧ e.imm.linEn = true ∧ e.imm.loutEn = true ∧ e.imm.lin ≠ e.imm.lout ∧ ¬ (semWaiters s1 t (emptySem
      e.imm.lout) = [] ∧ 1 ≤ semVal s1 t (emptySem e.imm.lout))) ∧
    (∃ (t : TileId) (env : EngEnv) (e : EngCmd) (es : List EngCmd) (s : State) (x : EngHeld) (h : CeShape) (s2 : State), (s.tile t).ce = e :: es
      ∧ e.phase = .ready ∧ e.op = .ceMm ∧ e.held = some x ∧ inQuad s t = false ∧ h = ceShape s t ∧ residueRun env 0 (ceChunks h (tdOf e.dc))
      (ceRetry s t) = (0, 0, none) ∧ ceWrite h env (tdOf e.dc) x.cells (ceBlocks t e.da x.sp (ceResidue h env (0, 0, none) s)) = (none, s2)
      ∧ ceUndefined t s2 h e.da e.db e.dc e.imm x.sp = [] ∧ (s2.tile t).ce = e :: es) ∧
    (∃ (t : TileId) (e : EngCmd) (es : List EngCmd) (s : State), (s.tile t).ce = e :: es ∧ e.phase = .ready ∧ e.op = .ceGrouped ∧ e.tmpl = none
      ∧ e.imm.linEn = false) ∧
    (∃ (t : TileId) (e : EngCmd) (es : List EngCmd) (s : State) (st : Status) (va : Nat), (s.tile t).ce = e :: es ∧ e.phase = .done st va ∧
      e.undef = false) ∧
    (∃ t : TileId, ∃ e : EngCmd, ∃ es : List EngCmd, ∃ s : State, ∃ l, (s.tile t).ce = e :: es ∧ e.phase = .deferred l) ∧
    (∃ t : TileId, ∃ e : EngCmd, ∃ es : List EngCmd, ∃ s : State, ∃ l, (s.tile t).ce = e :: es ∧ e.phase = .deferred l ∧ e.tmpl = none) ∧
    (∃ t : TileId, ∃ e : EngCmd, ∃ es : List EngCmd, ∃ s : State, ∃ l, ∃ a, ∃ b, ∃ c, (s.tile t).ce = e :: es ∧ e.phase = .deferred l ∧ e.tmpl =
      some (a, b, c) ∧ l = [] ∧ e.outs = [] ∧ e.imm.linEn = false) ∧
    (∃ t : TileId, ∃ env : EngEnv, ∃ e : EngCmd, ∃ es : List EngCmd, ∃ s : State, ∃ l, ∃ a, ∃ b, ∃ c, ∃ s1, ∃ i, ∃ st, ∃ va, ∃ rd, (s.tile t).ce
      = e :: es ∧ e.phase = .deferred l ∧ e.tmpl = some (a, b, c) ∧ l = [i] ∧ e.imm.linEn = false ∧ (s1.tile t).ce = e :: es ∧ gtEntry t env
      e a b c 0 i false s = (.stop st va rd, s1)) ∧
    (∃ t : TileId, ∃ env : EngEnv, ∃ e : EngCmd, ∃ es : List EngCmd, ∃ s : State, ∃ l, ∃ a, ∃ b, ∃ c, ∃ s1, ∃ i, (s.tile t).ce = e :: es ∧
      e.phase = .deferred l ∧ e.tmpl = some (a, b, c) ∧ l = [i] ∧ e.imm.linEn = false ∧ (s1.tile t).ce = e :: es ∧ gtEntry t env e a b c 0 i
      false s = (.deferred, s1)) ∧
    (∃ t : TileId, ∃ env : EngEnv, ∃ e : EngCmd, ∃ es : List EngCmd, ∃ s : State, ∃ l, ∃ a, ∃ b, ∃ c, ∃ s1, ∃ i, ∃ n, ∃ d, (s.tile t).ce = e ::
      es ∧ e.phase = .deferred l ∧ e.tmpl = some (a, b, c) ∧ l = [i] ∧ e.imm.linEn = false ∧ (s1.tile t).ce = e :: es ∧ gtEntry t env e a b
      c 0 i false s = (.ran n (some d), s1) ∧ e.outs = []) :=
  ⟨⟨5, Tests.eng .ceMm 0 0 0 .queued, [], Tests.withCe (Tests.eng .ceMm 0 0 0 .queued) [], by decide +kernel, by decide +kernel,
    by decide +kernel, by decide +kernel, by decide +kernel⟩,
   ⟨5, Tests.mm (.queued), [], Tests.withCe (Tests.mm (.queued)) [], by decide +kernel, by decide +kernel, by decide +kernel,
    by decide +kernel, by decide +kernel, by decide +kernel, by decide +kernel⟩,
   ⟨5, EngEnv.none, Tests.mm (.haveIn), [], Tests.withCe (Tests.mm (.haveIn)) [], none, ((ceProduct 5 EngEnv.none (Tests.one 0x1000 1)
    (Tests.one 0x2000 1) (Tests.one 0x3000 0) ⟨3, true, 4, true, false, false, false⟩
      (Tests.withCe (Tests.mm .haveIn)
    [])).1.toOption.getD (none, [])).2, (ceProduct 5 EngEnv.none (Tests.one 0x1000 1) (Tests.one 0x2000 1) (Tests.one 0x3000 0) ⟨3, true, 4,
    true, false, false, false⟩
      (Tests.withCe (Tests.mm .haveIn) [])).2, by decide +kernel, by decide +kernel, by decide +kernel,
    by decide +kernel, by decide +kernel, by decide +kernel, by decide +kernel, by decide +kernel, by decide +kernel⟩,
   ⟨5, EngEnv.none, { Tests.mm .ready with held := some ⟨none, [], [], []⟩ }, [], (Tests.withCe
    ({ Tests.mm .ready with held := some ⟨none, [], [], []⟩ }) []), ⟨none, [], [], []⟩, _, (ceWrite (ceShape (Tests.withCe
    ({ Tests.mm .ready with held := some ⟨none, [], [], []⟩ }) []) 5) EngEnv.none (tdOf (Tests.one 0x3000 0)) [] (ceBlocks 5 (Tests.one
    0x1000 1) none (ceResidue (ceShape (Tests.withCe ({ Tests.mm .ready with held := some ⟨none, [], [], []⟩ }) []) 5) EngEnv.none (0, 0,
    none) (Tests.withCe ({ Tests.mm .ready with held := some ⟨none, [], [], []⟩ }) [])))).2, by decide +kernel, by decide +kernel,
    by decide +kernel, by decide +kernel, by decide +kernel, rfl, by decide +kernel, by decide +kernel, by decide +kernel,
    by decide +kernel⟩,
   ⟨5, { Tests.grouped with phase := .ready, tmpl := none }, [], Tests.withCe { Tests.grouped with phase := .ready, tmpl := none } [],
    by decide +kernel, by decide +kernel, by decide +kernel, by decide +kernel, by decide +kernel⟩,
   ⟨5, Tests.mm (.done .faultEcc 7), [], Tests.withCe (Tests.mm (.done .faultEcc 7)) [], .faultEcc, 7, by decide +kernel, by decide +kernel,
    by decide +kernel⟩,
   ⟨5, Tests.mm (.deferred [3]), [], Tests.withCe (Tests.mm (.deferred [3])) [], [3], by decide +kernel, by decide +kernel⟩,
   ⟨5, Tests.mm (.deferred [3]), [], Tests.withCe (Tests.mm (.deferred [3])) [], [3], by decide +kernel, by decide +kernel, by decide +kernel⟩,
   ⟨5, { Tests.grouped with phase := .deferred [] }, [], Tests.withCe { Tests.grouped with phase := .deferred [] } [], [], Tests.one 0x1000 1,
    Tests.one 0x2000 1, Tests.one 0x3000 0, by decide +kernel, by decide +kernel, by decide +kernel, by decide +kernel, by decide +kernel,
    by decide +kernel⟩,
   ⟨5, EngEnv.none, Tests.grouped, [], (Tests.withCe Tests.grouped [(64, 1), (67, 1)]), [0], Tests.one 0x1000 1, Tests.one 0x2000 1, Tests.one
    0x3000 0, (gtEntry 5 EngEnv.none Tests.grouped (Tests.one 0x1000 1) (Tests.one 0x2000 1) (Tests.one 0x3000 0) 0 0 false (Tests.withCe
    Tests.grouped [(64, 1), (67, 1)])).2, 0, .aborted, 0, false, by decide +kernel, by decide +kernel, by decide +kernel, by decide +kernel,
    by decide +kernel, by decide +kernel, by decide +kernel⟩,
   ⟨5, EngEnv.none, Tests.grouped, [], (Tests.withCe Tests.grouped [(64, 1), (70, 1), (134, 1)]), [0], Tests.one 0x1000 1, Tests.one 0x2000 1,
    Tests.one 0x3000 0, (gtEntry 5 EngEnv.none Tests.grouped (Tests.one 0x1000 1) (Tests.one 0x2000 1) (Tests.one 0x3000 0) 0 0 false
    (Tests.withCe Tests.grouped [(64, 1), (70, 1), (134, 1)])).2, 0, by decide +kernel, by decide +kernel, by decide +kernel,
    by decide +kernel, by decide +kernel, by decide +kernel, by decide +kernel⟩,
   ⟨5, EngEnv.none, Tests.grouped, [], (Tests.withCe Tests.grouped [(64, 1), (73, 0x10), (81, 0x20), (89, 0x30)]), [0], Tests.one 0x1000 1,
    Tests.one 0x2000 1, Tests.one 0x3000 0, (gtEntry 5 EngEnv.none Tests.grouped (Tests.one 0x1000 1) (Tests.one 0x2000 1) (Tests.one 0x3000
    0) 0 0 false (Tests.withCe Tests.grouped [(64, 1), (73, 0x10), (81, 0x20), (89, 0x30)])).2, 0, 1, gtOperand (Tests.one 0x3000 0) 0x3000
    (some (1, 1)), by decide +kernel, by decide +kernel, by decide +kernel, by decide +kernel, by decide +kernel, by decide +kernel,
    by decide +kernel, by decide +kernel⟩⟩

theorem witness_GatherMergeRuns :
    (∃ (t : TileId) (e : EngCmd) (es : List EngCmd) (s : State), (s.tile t).gme = e :: es ∧ e.phase = .queued ∧ e.op = .gather ∧ gmeRefused e =
      true) ∧
    (∃ (t : TileId) (env : EngEnv) (e : EngCmd) (es : List EngCmd) (s : State) (h : EngHeld) (s1 : State), (s.tile t).gme = e :: es ∧ e.phase =
      .haveIn ∧ e.op = .gather ∧ gmeForm t env e s = (.ok h, s1) ∧ (s1.tile t).gme = e :: es ∧ e.imm.linEn = true ∧ e.imm.loutEn = true ∧
      e.imm.lin ≠ e.imm.lout ∧ ¬ (semWaiters s1 t (emptySem e.imm.lout) = [] ∧ 1 ≤ semVal s1 t (emptySem e.imm.lout))) ∧
    (∃ (t : TileId) (env : EngEnv) (e : EngCmd) (es : List EngCmd) (s : State) (h : EngHeld) (k : List (Nat × Byte) × State) (s2 : State),
      (s.tile t).gme = e :: es ∧ e.phase = .ready ∧ e.op = .gather ∧ e.held = some h ∧ h.undef = [] ∧ k = pickWrites (·.1) (fieldKey (tdOf
      e.dc)) (h.cells.map (·.2)) (gmeResidue t env (0, 0, none) s) ∧ engWrite t 3 env k.1 k.2 = (none, s2) ∧ (s2.tile t).gme = e :: es) ∧
    (∃ (t : TileId) (e : EngCmd) (es : List EngCmd) (s : State) (st : Status) (va : Nat), (s.tile t).gme = e :: es ∧ e.phase = .done st va ∧
      e.undef = false) ∧
    (∃ (t : TileId) (e : EngCmd) (es : List EngCmd) (s : State), (s.tile t).gme = e :: es ∧ e.phase = .queued ∧ e.op = .pred ∧ 64 * e.s0.toNat +
      64 ≤ spadBytes ∧ GoodSpad s t ∧ pdRefused (BitVec.ofNat 512 (memNat s (spadAddr t (64 * e.s0.toNat)) 64)) = true) :=
  ⟨⟨5, Tests.eng .gather 0 0 0 .queued, [], Tests.withGme (Tests.eng .gather 0 0 0 .queued), by decide +kernel, by decide +kernel,
    by decide +kernel, by decide +kernel⟩,
   ⟨5, EngEnv.none, Tests.gather (.haveIn), [], Tests.withGme (Tests.gather (.haveIn)), (gmeForm 5 EngEnv.none (Tests.gather .haveIn)
    (Tests.withGme (Tests.gather .haveIn))).1.toOption.getD ⟨none, [], [], []⟩, (gmeForm 5 EngEnv.none (Tests.gather .haveIn) (Tests.withGme
    (Tests.gather .haveIn))).2, by decide +kernel, by decide +kernel, by decide +kernel, by decide +kernel, by decide +kernel,
    by decide +kernel, by decide +kernel, by decide +kernel, by decide +kernel⟩,
   ⟨5, EngEnv.none, { Tests.gather .ready with held := some ⟨none, [], [], []⟩ }, [], Tests.withGme
    ({ Tests.gather .ready with held := some ⟨none, [], [], []⟩ }), ⟨none, [], [], []⟩, _, (engWrite 5 3 EngEnv.none (pickWrites (fun x :
    Nat × Byte => x.1) (fieldKey (tdOf (Tests.one 0x3000 0))) [] (gmeResidue 5 EngEnv.none (0, 0, none) (Tests.withGme
    ({ Tests.gather .ready with held := some ⟨none, [], [], []⟩ })))).1 (pickWrites (fun x : Nat × Byte => x.1) (fieldKey (tdOf (Tests.one
    0x3000 0))) [] (gmeResidue 5 EngEnv.none (0, 0, none) (Tests.withGme
    ({ Tests.gather .ready with held := some ⟨none, [], [], []⟩ })))).2).2, by decide +kernel, by decide +kernel, by decide +kernel,
    by decide +kernel, by decide +kernel, rfl, by decide +kernel, by decide +kernel⟩,
   ⟨5, Tests.gather (.done .ok 0), [], Tests.withGme (Tests.gather (.done .ok 0)), .ok, 0, by decide +kernel, by decide +kernel,
    by decide +kernel⟩,
   ⟨5, { Tests.eng .pred 0 0 0 .queued with s0 := 24575 }, [], Tests.withGme ({ Tests.eng .pred 0 0 0 .queued with s0 := 24575 }),
    by decide +kernel, by decide +kernel, by decide +kernel, by decide +kernel, Tests.good_spad _ _ (by decide +kernel), by decide +kernel⟩⟩

theorem witness_PredictionCommands :
    (∃ (t : TileId) (e : EngCmd) (es : List EngCmd) (s : State) (d : DWord), d = e.da ∧ pdRefused d = false ∧ pdLinEn d = false ∧ GoodSpad s t ∧
      PredReady s t e es 0 ∧ pdMode d = 0 ∧ pdOverlap d = false) ∧
    (∃ t : TileId, ∃ env : EngEnv, ∃ e : EngCmd, ∃ es : List EngCmd, ∃ s : State, ∃ d : DWord, ∃ bs, ∃ s1, d = e.da ∧ pdRefused d = false ∧
      pdLinEn d = false ∧ GoodSpad s t ∧ PredReady s t e es 2 ∧ engRead t 3 env ((List.range 16).map (pdTally d + ·)) s = (.ok bs, s1) ∧
      (s1.tile t).gme = e :: es ∧ rget s1 (R.PRED_CTL t.toNat) F.PRED_CTL_EXPERT = 0) ∧
    (∃ (t : TileId) (e : EngCmd) (es : List EngCmd) (s : State) (d : DWord) (la n m : Nat), d = e.da ∧ pdRefused d = false ∧ pdLinEn d = false ∧
      GoodSpad s t ∧ PredReady s t e es 1 ∧ pdOverlap d = false ∧ pdBlocks d = 1 ∧ pdTally d % 64 ≤ 48 ∧ Held s t (pdTally d) true true la ∧
      Held s t (pdTally d + 8) true true (la + 8) ∧ la % 16 = 0 ∧ (∀ k, k < 16 → addrOk s (la + k) = true ∧ Clean s (la + k)) ∧ (∀ o, place
      la ≠ .moraine o) ∧ (la + 16 ≤ spadAddr t (pdAud d) ∨ spadAddr t (pdAud d) + pdLs d ≤ la) ∧ n = memNat s (spadAddr t (pdAud d)) 4 ∧
      pdSrc d + (pdRows d - 1) * pdPitch d + pdRowBytes (pdFmt d) n ≤ spadBytes ∧ m = (activeColumns s t d false n 0).length) :=
  ⟨⟨5, Tests.pred (16 * 2 ^ 48 + 2 ^ 64 + 2 ^ 96 + 64 * 2 ^ 384 + 64 * 2 ^ 416 + 128 * 2 ^ 448), [], Tests.withGme (Tests.pred (16 * 2 ^ 48 + 2
    ^ 64 + 2 ^ 96 + 64 * 2 ^ 384 + 64 * 2 ^ 416 + 128 * 2 ^ 448)), _, rfl, by decide +kernel, by decide +kernel, Tests.good_spad _ _
    (by decide +kernel), by unfold PredReady; decide +kernel, by decide +kernel, by decide +kernel⟩,
   ⟨5, EngEnv.none, Tests.pred (2 * 2 ^ 0 + 0x1000 * 2 ^ 256), [], Tests.withGme (Tests.pred (2 * 2 ^ 0 + 0x1000 * 2 ^ 256)), _, (engRead 5 3
    EngEnv.none ((List.range 16).map (pdTally (Tests.pred (2 * 2 ^ 0 + 0x1000 * 2 ^ 256)).da + ·)) (Tests.withGme (Tests.pred (2 * 2 ^ 0 +
    0x1000 * 2 ^ 256)))).1.toOption.getD [], (engRead 5 3 EngEnv.none ((List.range 16).map (pdTally (Tests.pred (2 * 2 ^ 0 + 0x1000 * 2 ^
    256)).da + ·)) (Tests.withGme (Tests.pred (2 * 2 ^ 0 + 0x1000 * 2 ^ 256)))).2, rfl, by decide +kernel, by decide +kernel,
    Tests.good_spad _ _ (by decide +kernel), by unfold PredReady; decide +kernel, by decide +kernel, by decide +kernel, by decide +kernel⟩,
   ⟨5, Tests.pred (1 + 16 * 2 ^ 48 + 2 ^ 64 + 2 ^ 96 + 0x1000 * 2 ^ 256 + 64 * 2 ^ 384 + 128 * 2 ^ 448), [], ((Tests.withGme (Tests.pred (1 +
    16 * 2 ^ 48 + 2 ^ 64 + 2 ^ 96 + 0x1000 * 2 ^ 256 + 64 * 2 ^ 384 + 128 * 2 ^ 448))).modTile 5 (fun c =>
    { c with tlb := [⟨0, true, 15⟩] })), _, 0x1000, _, _, rfl, by decide +kernel, by decide +kernel, Tests.good_spad _ _
    (by decide +kernel), by unfold PredReady; decide +kernel, by decide +kernel, by decide +kernel, by decide +kernel, Tests.held_of _ _ _ _
    _ _ (by decide +kernel) (by decide +kernel) (by decide +kernel) (by decide +kernel), Tests.held_of _ _ _ _ _ _ (by decide +kernel)
    (by decide +kernel) (by decide +kernel) (by decide +kernel), by decide +kernel, by unfold Clean; decide +kernel, Tests.no_moraine _
    (by decide +kernel), by decide +kernel, rfl, by decide +kernel, rfl⟩⟩

theorem witness_DirectoryCommands :
    (∃ e : ExpertId, ∃ s : State, ∃ n : Nat, ∃ c, n = e.toNat ∧ HostReaches s (hostCtl s) ∧ rbit s R.EXD_CMD_STAT F.EXD_CMD_STAT_BUSY = true ∧ c
      ∈ [Instr.adoptRes e, .adoptRest e, .drop e, .commit, .retry e]) ∧
    (∃ (e : ExpertId) (s : State) (n : Nat), n = e.toNat ∧ HostReaches s (hostCtl s) ∧ rbit s R.EXD_CMD_STAT F.EXD_CMD_STAT_BUSY = false) ∧
    (∃ (e : ExpertId) (s : State) (n : Nat), n = e.toNat ∧ HostReaches s (hostCtl s) ∧ rbit s R.EXD_CMD_STAT F.EXD_CMD_STAT_BUSY = false ∧
      TableSound s n ∧ resOf s n = 0) ∧
    (∃ (e : ExpertId) (s : State) (n : Nat), n = e.toNat ∧ HostReaches s (hostCtl s) ∧ rbit s R.EXD_CMD_STAT F.EXD_CMD_STAT_BUSY = false ∧
      TableSound s n ∧ (resOf s n = 1 ∨ resOf s n = 5 ∨ (resOf s n = 3 ∧ isPool s n = false))) ∧
    (∃ e : ExpertId, ∃ s : State, ∃ n : Nat, ∃ i, ∃ l, n = e.toNat ∧ HostReaches s (hostCtl s) ∧ rbit s R.EXD_CMD_STAT F.EXD_CMD_STAT_BUSY =
      false ∧ TableSound s n ∧ resOf s n = 5 ∧ freeSlots s = i :: l) ∧
    (∃ (e : ExpertId) (s : State) (n : Nat), n = e.toNat ∧ HostReaches s (hostCtl s) ∧ rbit s R.EXD_CMD_STAT F.EXD_CMD_STAT_BUSY = false ∧ resOf
      s n = 5 ∧ freeSlots s = [] ∧ victim s = none ∧ n ∉ s.exd.held) ∧
    (∃ e : ExpertId, ∃ s : State, ∃ n : Nat, ∃ p, n = e.toNat ∧ HostReaches s (hostCtl s) ∧ rbit s R.EXD_CMD_STAT F.EXD_CMD_STAT_BUSY = false ∧
      (p ∈ [(Instr.adoptRes e, resOf s n ≠ 0), (.adoptRest e, resOf s n ≠ 0), (.retry e, resOf s n ≠ 5), (.drop e, resOf s n = 0 ∨ resOf s n
      = 2 ∨ resOf s n = 4 ∨ (resOf s n = 3 ∧ isPool s n = true))]) ∧ p.2) :=
  ⟨⟨0xFFFF, Tests.put [(R.EXD_CMD_STAT, F.EXD_CMD_STAT_BUSY, 1)] State.reset, _, _, rfl, by unfold HostReaches; decide +kernel,
    by decide +kernel, List.mem_cons_self⟩,
   ⟨0xFFFF, State.reset, _, rfl, by unfold HostReaches; decide +kernel, by decide +kernel⟩,
   ⟨0xFFFF, State.reset, _, rfl, by unfold HostReaches; decide +kernel, by decide +kernel, by unfold TableSound Clean; decide +kernel,
    by decide +kernel⟩,
   ⟨6, (Tests.put [(R.DIR_LOCAL 6, F.DIR_RES, 1)] State.reset), _, rfl, by unfold HostReaches; decide +kernel, by decide +kernel,
    by unfold TableSound Clean; decide +kernel, by decide +kernel⟩,
   ⟨6, (Tests.put [(R.DIR_LOCAL 6, F.DIR_RES, 5), (R.MOR_POOL_CFG, F.MOR_POOL_CFG_SLOTS, 1)] State.reset), _, 0, [], rfl,
    by unfold HostReaches; decide +kernel, by decide +kernel, by unfold TableSound Clean; decide +kernel, by decide +kernel,
    by decide +kernel⟩,
   ⟨6, (Tests.put [(R.DIR_LOCAL 6, F.DIR_RES, 5)] State.reset), _, rfl, by unfold HostReaches; decide +kernel, by decide +kernel,
    by decide +kernel, by decide +kernel, by decide +kernel, by decide +kernel⟩,
   ⟨6, (Tests.put [(R.DIR_LOCAL 6, F.DIR_RES, 3)] State.reset), _, _, rfl, by unfold HostReaches; decide +kernel, by decide +kernel,
    List.mem_cons_self, by decide +kernel⟩⟩

theorem witness_DirectoryImages :
    (∃ (s : State) (base : Nat), base = imageBase s (rget s R.EXD_EPOCH F.EXD_EPOCH_CURRENT + 1) ∧ rbit s R.EXD_CMD_STAT F.EXD_CMD_STAT_BUSY =
      false) ∧
    (∃ (s : State) (base : Nat), base = imageBase s (rget s R.EXD_EPOCH F.EXD_EPOCH_CURRENT + 1) ∧ rbit s R.EXD_CMD_STAT F.EXD_CMD_STAT_BUSY =
      true ∧ MemoryWf s) :=
  ⟨⟨State.reset, _, rfl, by decide +kernel⟩,
   ⟨Tests.put [(R.EXD_CMD_STAT, F.EXD_CMD_STAT_BUSY, 1)] State.reset, _, rfl, by decide +kernel, by unfold MemoryWf; decide +kernel⟩⟩

theorem witness_ExpertCopies :
    (∃ (e i src dst n : Nat) (s : State), mfind s.exd.slots e = some i ∧ e < 65536 ∧ TableSound s e ∧ src = dirMor s e ∧ dst = slotLa s i ∧ n =
      dirPages s e * pageBytes ∧ s.exd.held = [] ∧ s.exd.after = [] ∧ QueuesServed s e ∧ s.exd.job = some (false, e) ∧ copyServed s e =
      false) ∧
    (∃ (e i src dst n : Nat) (s : State), mfind s.exd.slots e = some i ∧ e < 65536 ∧ TableSound s e ∧ src = dirMor s e ∧ dst = slotLa s i ∧ n =
      dirPages s e * pageBytes ∧ s.exd.held = [] ∧ s.exd.after = [] ∧ QueuesServed s e ∧ s.exd.job = some (true, e) ∧ copyServed s e =
      false) ∧
    (∃ (e i src dst n : Nat) (s : State), mfind s.exd.slots e = some i ∧ e < 65536 ∧ TableSound s e ∧ src = dirMor s e ∧ dst = slotLa s i ∧ n =
      dirPages s e * pageBytes ∧ s.exd.held = [] ∧ s.exd.after = [] ∧ QueuesServed s e ∧ s.exd.job = some (false, e) ∧ copyServed s e = true
      ∧ MemoryWf s ∧ NoMarks s src n ∧ CopyMapped s e) ∧
    (∃ (e i src dst n : Nat) (s : State), mfind s.exd.slots e = some i ∧ e < 65536 ∧ TableSound s e ∧ src = dirMor s e ∧ dst = slotLa s i ∧ n =
      dirPages s e * pageBytes ∧ s.exd.held = [] ∧ s.exd.after = [] ∧ QueuesServed s e ∧ s.exd.job = some (true, e) ∧ copyServed s e = true
      ∧ MemoryWf s ∧ NoMarks s dst n ∧ CopyMapped s e) ∧
    (∃ (e i src dst n : Nat) (s : State), mfind s.exd.slots e = some i ∧ e < 65536 ∧ TableSound s e ∧ src = dirMor s e ∧ dst = slotLa s i ∧ n =
      dirPages s e * pageBytes ∧ s.exd.held = [] ∧ s.exd.after = [] ∧ QueuesServed s e ∧ s.exd.job = some (false, e) ∧ copyServed s e = true
      ∧ CopyMapped s e) ∧
    (∃ (e i src dst n : Nat) (s : State), mfind s.exd.slots e = some i ∧ e < 65536 ∧ TableSound s e ∧ src = dirMor s e ∧ dst = slotLa s i ∧ n =
      dirPages s e * pageBytes ∧ s.exd.held = [] ∧ s.exd.after = [] ∧ QueuesServed s e ∧ s.exd.job = some (false, e) ∧ copyServed s e = true
      ∧ addrOk s src = false) ∧
    (∃ (e i src dst n : Nat) (s : State), mfind s.exd.slots e = some i ∧ e < 65536 ∧ TableSound s e ∧ src = dirMor s e ∧ dst = slotLa s i ∧ n =
      dirPages s e * pageBytes ∧ s.exd.held = [] ∧ s.exd.after = [] ∧ QueuesServed s e ∧ s.exd.job = some (true, e) ∧ s.mgmt.receiver = none
      ∧ copyServed s e = true ∧ CopyMapped s e) ∧
    (∃ (e i src dst n : Nat) (s : State), mfind s.exd.slots e = some i ∧ e < 65536 ∧ TableSound s e ∧ src = dirMor s e ∧ dst = slotLa s i ∧ n =
      dirPages s e * pageBytes ∧ s.exd.held = [] ∧ s.exd.after = [] ∧ QueuesServed s e ∧ s.exd.job = some (false, e)) ∧
    (∃ (e i src dst n : Nat) (s : State), mfind s.exd.slots e = some i ∧ e < 65536 ∧ TableSound s e ∧ src = dirMor s e ∧ dst = slotLa s i ∧ n =
      dirPages s e * pageBytes ∧ s.exd.held = [] ∧ s.exd.after = [] ∧ QueuesServed s e ∧ s.exd.job = some (true, e) ∧ s.mgmt.receiver =
      none) ∧
    (∃ (e i src dst n : Nat) (s : State), mfind s.exd.slots e = some i ∧ e < 65536 ∧ TableSound s e ∧ src = dirMor s e ∧ dst = slotLa s i ∧ n =
      dirPages s e * pageBytes ∧ s.exd.held = [] ∧ s.exd.after = [] ∧ QueuesServed s e) :=
  ⟨⟨6, 0, _, _, _, (Tests.put [(R.PDC_DOM_STAT 4, F.PDC_DOM_STAT_STATE, 0)] (Tests.copying false)), by decide +kernel, by decide +kernel,
    by unfold TableSound Clean; decide +kernel, rfl, rfl, rfl, by decide +kernel, by decide +kernel, by unfold QueuesServed; decide +kernel,
    by decide +kernel, by decide +kernel⟩,
   ⟨6, 0, _, _, _, (Tests.put [(R.PDC_DOM_STAT 4, F.PDC_DOM_STAT_STATE, 0)] (Tests.copying true)), by decide +kernel, by decide +kernel,
    by unfold TableSound Clean; decide +kernel, rfl, rfl, rfl, by decide +kernel, by decide +kernel, by unfold QueuesServed; decide +kernel,
    by decide +kernel, by decide +kernel⟩,
   ⟨6, 0, _, _, _, Tests.copying false, by decide +kernel, by decide +kernel, by unfold TableSound Clean; decide +kernel, rfl, rfl, rfl,
    by decide +kernel, by decide +kernel, by unfold QueuesServed; decide +kernel, by decide +kernel, by decide +kernel,
    by unfold MemoryWf; decide +kernel, by unfold NoMarks; decide +kernel, ⟨⟨0, by decide +kernel⟩, by decide +kernel, by decide +kernel⟩⟩,
   ⟨6, 0, _, _, _, Tests.copying true, by decide +kernel, by decide +kernel, by unfold TableSound Clean; decide +kernel, rfl, rfl, rfl,
    by decide +kernel, by decide +kernel, by unfold QueuesServed; decide +kernel, by decide +kernel, by decide +kernel,
    by unfold MemoryWf; decide +kernel, by unfold NoMarks; decide +kernel, ⟨⟨0, by decide +kernel⟩, by decide +kernel, by decide +kernel⟩⟩,
   ⟨6, 0, _, _, _, Tests.copying false, by decide +kernel, by decide +kernel, by unfold TableSound Clean; decide +kernel, rfl, rfl, rfl,
    by decide +kernel, by decide +kernel, by unfold QueuesServed; decide +kernel, by decide +kernel, by decide +kernel, ⟨⟨0,
    by decide +kernel⟩, by decide +kernel, by decide +kernel⟩⟩,
   ⟨6, 0, _, _, _, (Tests.put [(R.DIR_LOCAL 6, F.DIR_MOR_LA, hbmTop)] (Tests.copying false)), by decide +kernel, by decide +kernel,
    by unfold TableSound Clean; decide +kernel, rfl, rfl, rfl, by decide +kernel, by decide +kernel, by unfold QueuesServed; decide +kernel,
    by decide +kernel, by decide +kernel, by decide +kernel⟩,
   ⟨6, 0, _, _, _, Tests.copying true, by decide +kernel, by decide +kernel, by unfold TableSound Clean; decide +kernel, rfl, rfl, rfl,
    by decide +kernel, by decide +kernel, by unfold QueuesServed; decide +kernel, by decide +kernel, by decide +kernel, by decide +kernel,
    ⟨⟨0, by decide +kernel⟩, by decide +kernel, by decide +kernel⟩⟩,
   ⟨6, 0, _, _, _, Tests.copying false, by decide +kernel, by decide +kernel, by unfold TableSound Clean; decide +kernel, rfl, rfl, rfl,
    by decide +kernel, by decide +kernel, by unfold QueuesServed; decide +kernel, by decide +kernel⟩,
   ⟨6, 0, _, _, _, Tests.copying true, by decide +kernel, by decide +kernel, by unfold TableSound Clean; decide +kernel, rfl, rfl, rfl,
    by decide +kernel, by decide +kernel, by unfold QueuesServed; decide +kernel, by decide +kernel, by decide +kernel⟩,
   ⟨6, 0, _, _, _, Tests.copying true, by decide +kernel, by decide +kernel, by unfold TableSound Clean; decide +kernel, rfl, rfl, rfl,
    by decide +kernel, by decide +kernel, by unfold QueuesServed; decide +kernel⟩⟩

theorem witness_ExpertCopiesStart :
    (∃ (s : State), s.exd.job ≠ none) ∧
    (∃ (s : State), s.exd.job = none ∧ s.exd.demands = [] ∧ s.exd.prefs = []) ∧
    (∃ (j : Bool × Nat) (l : List (Bool × Nat)) (s : State), s.exd.job = none ∧ (∀ x ∈ s.exd.demands ++ s.exd.prefs, x.1 = true ∨ isPool s x.2 =
      true) ∧ s.exd.demands = j :: l) ∧
    (∃ (j : Bool × Nat) (l : List (Bool × Nat)) (s : State), s.exd.job = none ∧ (∀ x ∈ s.exd.demands ++ s.exd.prefs, x.1 = true ∨ isPool s x.2 =
      true) ∧ s.exd.demands = [] ∧ s.exd.prefs = j :: l) ∧
    (∃ (e k : Nat) (ks : List Nat) (s : State), s.exd.job = none ∧ s.exd.demands = [(false, e)] ∧ s.exd.prefs = [] ∧ isPool s e = false ∧
      freeSlots s = k :: ks) ∧
    (∃ (e i : Nat) (l : List (Bool × Nat)) (s : State), s.exd.job = none ∧ s.exd.demands = (false, e) :: l ∧ (∀ x ∈ (false, e) :: l, x.1 = false
      ∧ isPool s x.2 = false) ∧ freeSlots s = [] ∧ victim s = some i ∧ TableSound s i ∧ i < 65536 ∧ dirRestRo s i = false) ∧
    (∃ (e i k : Nat) (l : List (Bool × Nat)) (s : State), s.exd.job = none ∧ s.exd.demands = (false, e) :: l ∧ (∀ x ∈ (false, e) :: l, x.1 =
      false ∧ isPool s x.2 = false) ∧ freeSlots s = [] ∧ victim s = some i ∧ TableSound s i ∧ i < 65536 ∧ dirRestRo s i = true ∧ mfind
      s.exd.slots i = some k) :=
  ⟨⟨{ State.reset with exd := { Exd.reset with job := some (true, 6) } }, by decide +kernel⟩,
   ⟨State.reset, by decide +kernel, by decide +kernel, by decide +kernel⟩,
   ⟨(true, 6), [], { State.reset with exd := { Exd.reset with demands := [(true, 6)] } }, by decide +kernel, by decide +kernel,
    by decide +kernel⟩,
   ⟨(true, 6), [], { State.reset with exd := { Exd.reset with prefs := [(true, 6)] } }, by decide +kernel, by decide +kernel,
    by decide +kernel, by decide +kernel⟩,
   ⟨6, 0, [], (Tests.put [(R.MOR_POOL_CFG, F.MOR_POOL_CFG_SLOTS, 1)] { State.reset with exd := { Exd.reset with demands := [(false, 6)] } }),
    by decide +kernel, by decide +kernel, by decide +kernel, by decide +kernel, by decide +kernel⟩,
   ⟨6, 9, [], (Tests.put [(R.DIR_LOCAL 9, F.DIR_RES, 3)]
    { State.reset with exd := { Exd.reset with demands := [(false, 6)], slots := [(9, 0)] } }), by decide +kernel, by decide +kernel,
    by decide +kernel, by decide +kernel, by decide +kernel, by unfold TableSound Clean; decide +kernel, by decide +kernel,
    by decide +kernel⟩,
   ⟨6, 9, 0, [], (Tests.put [(R.DIR_LOCAL 9, F.DIR_RES, 3), (R.DIR_LOCAL 9, F.DIR_REST_RO, 1)]
    { State.reset with exd := { Exd.reset with demands := [(false, 6)], slots := [(9, 0)] } }), by decide +kernel, by decide +kernel,
    by decide +kernel, by decide +kernel, by decide +kernel, by unfold TableSound Clean; decide +kernel, by decide +kernel,
    by decide +kernel, by decide +kernel⟩⟩

theorem witness_RegionAcquires :
    (∃ (t : TileId) (r : RegionId) (q : RgnReq) (s : State) (n e : Nat), n = r.toNat ∧ e = q.epoch.toNat ∧ s.rgns.find? (fun x => x.acq &&
      !x.held && decide (x.tile = t ∧ x.region = r)) = some q ∧ s.domReach (48 + n / 4096) = true ∧ ((e = rgnEpoch s n ∧ ¬ (rgnState s n = 2
      ∧ rgnDouble s n = false)) ∨ (e = rgnNext s n ∧ rgnState s n = 3)) ∧ rgnCount s n (rgnCopy s n e) < 2 ^ 20 - 1) ∧
    (∃ (t : TileId) (r : RegionId) (q : RgnReq) (s : State) (n e : Nat), n = r.toNat ∧ e = q.epoch.toNat ∧ s.rgns.find? (fun x => x.acq &&
      !x.held && decide (x.tile = t ∧ x.region = r)) = some q ∧ s.domReach (48 + n / 4096) = true ∧ e = rgnNext s n ∧ rgnState s n ≠ 3 ∧
      rgnHeld s n < 2 ^ 16 - 1) ∧
    (∃ (t : TileId) (r : RegionId) (q : RgnReq) (s : State) (n e : Nat), n = r.toNat ∧ e = q.epoch.toNat ∧ s.rgns.find? (fun x => x.acq &&
      !x.held && decide (x.tile = t ∧ x.region = r)) = some q ∧ s.domReach (48 + n / 4096) = true ∧ ((e ≠ rgnEpoch s n ∧ e ≠ rgnNext s n) ∨
      (e = rgnEpoch s n ∧ rgnState s n = 2 ∧ rgnDouble s n = false))) ∧
    (∃ (t : TileId) (r : RegionId) (q : RgnReq) (s : State) (n e : Nat), n = r.toNat ∧ e = q.epoch.toNat ∧ s.rgns.find? (fun x => x.acq &&
      !x.held && decide (x.tile = t ∧ x.region = r)) = some q ∧ s.domReach (48 + n / 4096) = false) :=
  ⟨⟨5, 0, ⟨true, none, 5, 0, 0, 2, 0, 0, false⟩, Tests.put [(R.RGNV_COUNT0 0 0, F.RGNV_COUNT0_COUNT0, 2 ^ 20 - 2)]
    { State.reset with rgns := [⟨true, none, 5, 0, 0, 2, 0, 0, false⟩] }, _, _, rfl, rfl, by decide +kernel, by decide +kernel,
    by decide +kernel, by decide +kernel⟩,
   ⟨5, 0, ⟨true, none, 5, 0, 1, 2, 0, 0, false⟩, Tests.put [(R.RGNV_STATE 0 0, F.RGNV_STATE_HELD, 2 ^ 16 - 2)]
    { State.reset with rgns := [⟨true, none, 5, 0, 1, 2, 0, 0, false⟩] }, _, _, rfl, rfl, by decide +kernel, by decide +kernel,
    by decide +kernel, by decide +kernel, by decide +kernel⟩,
   ⟨5, 0, ⟨true, none, 5, 0, 2, 2, 0, 0, false⟩, { State.reset with rgns := [⟨true, none, 5, 0, 2, 2, 0, 0, false⟩] }, _, _, rfl, rfl,
    by decide +kernel, by decide +kernel, by decide +kernel⟩,
   ⟨5, 0, ⟨true, none, 5, 0, 0, 2, 0, 0, false⟩, Tests.put [(R.PDC_DOM_STAT 48, F.PDC_DOM_STAT_STATE, 0)]
    { State.reset with rgns := [⟨true, none, 5, 0, 0, 2, 0, 0, false⟩] }, _, _, rfl, rfl, by decide +kernel, by decide +kernel⟩⟩

theorem witness_RegionReleases :
    (∃ (t : TileId) (r : RegionId) (q : RgnReq) (s : State) (n c : Nat), n = r.toNat ∧ c = rgnCopy s n q.epoch.toNat ∧ s.rgns.find? (fun x =>
      !x.acq && decide (x.tile = t ∧ x.region = r)) = some q ∧ enginesDone s t q.no = false) ∧
    (∃ (t : TileId) (r : RegionId) (q : RgnReq) (s : State) (n c : Nat), n = r.toNat ∧ c = rgnCopy s n q.epoch.toNat ∧ s.rgns.find? (fun x =>
      !x.acq && decide (x.tile = t ∧ x.region = r)) = some q ∧ enginesDone s t q.no = true ∧ s.domReach (48 + n / 4096) = true ∧ rgnCount s
      n c = 0) ∧
    (∃ (t : TileId) (r : RegionId) (q : RgnReq) (s : State) (n c : Nat), n = r.toNat ∧ c = rgnCopy s n q.epoch.toNat ∧ s.rgns.find? (fun x =>
      !x.acq && decide (x.tile = t ∧ x.region = r)) = some q ∧ enginesDone s t q.no = true ∧ s.domReach (48 + n / 4096) = true ∧ 0 <
      rgnCount s n c ∧ s.exd.heldEvict = [] ∧ (rgnState s n = 0 ∨ rgnState s n = 2) ∧ (s.ablJobs (n / 4096)).any (heldJob n) = false) ∧
    (∃ (t : TileId) (r : RegionId) (q : RgnReq) (s : State) (n c : Nat), n = r.toNat ∧ c = rgnCopy s n q.epoch.toNat ∧ s.rgns.find? (fun x =>
      !x.acq && decide (x.tile = t ∧ x.region = r)) = some q ∧ enginesDone s t q.no = true ∧ s.domReach (48 + n / 4096) = true ∧ 0 <
      rgnCount s n c ∧ s.exd.heldEvict = [] ∧ rgnState s n = 1 ∧ c = 0 ∧ rgnCount s n c = 1) ∧
    (∃ (t : TileId) (r : RegionId) (q : RgnReq) (s : State) (n c : Nat), n = r.toNat ∧ c = rgnCopy s n q.epoch.toNat ∧ s.rgns.find? (fun x =>
      !x.acq && decide (x.tile = t ∧ x.region = r)) = some q ∧ enginesDone s t q.no = true ∧ s.domReach (48 + n / 4096) = true ∧ 0 <
      rgnCount s n c ∧ s.exd.heldEvict = [] ∧ rgnState s n = 3 ∧ c = rgnCopy s n (rgnEpoch s n) ∧ rgnCount s n c = 1 ∧ rgnDouble s n = true
      ∧ (s.ablJobs (n / 4096)).any (heldJob n) = false) :=
  ⟨⟨5, 0, ⟨false, none, 5, 0, 0, 2, 0, 1, false⟩, ({ State.reset with rgns := [⟨false, none, 5, 0, 0, 2, 0, 1, false⟩] }.modTile 5 (fun c =>
    { c with ce := [Tests.mm .queued] })), _, _, rfl, rfl, by decide +kernel, by decide +kernel⟩,
   ⟨5, 0, ⟨false, none, 5, 0, 0, 2, 0, 0, false⟩, { State.reset with rgns := [⟨false, none, 5, 0, 0, 2, 0, 0, false⟩] }, _, _, rfl, rfl,
    by decide +kernel, by decide +kernel, by decide +kernel, by decide +kernel⟩,
   ⟨5, 0, ⟨false, none, 5, 0, 0, 2, 0, 0, false⟩, Tests.put [(R.RGNV_COUNT0 0 0, F.RGNV_COUNT0_COUNT0, 1)]
    { State.reset with rgns := [⟨false, none, 5, 0, 0, 2, 0, 0, false⟩] }, _, _, rfl, rfl, by decide +kernel, by decide +kernel,
    by decide +kernel, by decide +kernel, by decide +kernel, by decide +kernel, by decide +kernel⟩,
   ⟨5, 0, ⟨false, none, 5, 0, 0, 2, 0, 0, false⟩, Tests.put [(R.RGNV_STATE 0 0, F.RGNV_STATE_STATE, 1), (R.RGNV_COUNT0 0 0,
    F.RGNV_COUNT0_COUNT0, 1)] { State.reset with rgns := [⟨false, none, 5, 0, 0, 2, 0, 0, false⟩] }, _, _, rfl, rfl, by decide +kernel,
    by decide +kernel, by decide +kernel, by decide +kernel, by decide +kernel, by decide +kernel, by decide +kernel, by decide +kernel⟩,
   ⟨5, 0, ⟨false, none, 5, 0, 0, 2, 0, 0, false⟩, Tests.put [(R.RGNV_STATE 0 0, F.RGNV_STATE_STATE, 3), (R.RGNV_COUNT0 0 0,
    F.RGNV_COUNT0_COUNT0, 1), (R.RGN_CFG 0, F.RGN_CFG_EXPERT, 1), (R.RGNV_STATE 0 0, F.RGNV_STATE_DOUBLE, 1)]
    { State.reset with rgns := [⟨false, none, 5, 0, 0, 2, 0, 0, false⟩] }, _, _, rfl, rfl, by decide +kernel, by decide +kernel,
    by decide +kernel, by decide +kernel, by decide +kernel, by decide +kernel, by decide +kernel, by decide +kernel, by decide +kernel,
    by decide +kernel⟩⟩

theorem witness_RegionWrites :
    (∃ (r : RegionId) (k : BitVec 2) (s : State) (n : Nat), n = r.toNat ∧ HostReaches s (48 + n / 4096) ∧ rgnQuiet s n = false ∧ (k = 0 ∨ k =
      1)) ∧
    (∃ (r : RegionId) (k : BitVec 2) (s : State) (n : Nat), n = r.toNat ∧ HostReaches s (48 + n / 4096) ∧ rgnQuiet s n = true ∧ k = 0) ∧
    (∃ (r : RegionId) (k : BitVec 2) (s : State) (n : Nat), n = r.toNat ∧ HostReaches s (48 + n / 4096) ∧ rgnQuiet s n = true ∧ k = 1 ∧ rgnEpoch
      s n % 2 = 0) ∧
    (∃ (r : RegionId) (k : BitVec 2) (s : State) (n : Nat), n = r.toNat ∧ HostReaches s (48 + n / 4096) ∧ rgnQuiet s n = true ∧ k = 1 ∧ rgnEpoch
      s n % 2 = 1) ∧
    (∃ (r : RegionId) (k : BitVec 2) (s : State) (n : Nat), n = r.toNat ∧ HostReaches s (48 + n / 4096) ∧ (k = 2 ∨ k = 3) ∧ s.exd.heldEvict = []
      ∧ rgnState s n = 0 ∧ (s.ablJobs (n / 4096)).any (heldJob n) = false) :=
  ⟨⟨0, 0, Tests.put [(R.RGNV_STATE 0 0, F.RGNV_STATE_STATE, 1)] State.reset, _, rfl, by unfold HostReaches; decide +kernel, by decide +kernel,
    by decide +kernel⟩,
   ⟨0xFFFF, _, State.reset, _, rfl, by unfold HostReaches; decide +kernel, by decide +kernel, rfl⟩,
   ⟨0xFFFF, 1, State.reset, _, rfl, by unfold HostReaches; decide +kernel, by decide +kernel, by decide +kernel, by decide +kernel⟩,
   ⟨0, 1, Tests.put [(R.RGNV_EPOCH 0 0, F.RGNV_EPOCH_EPOCH, 1)] State.reset, _, rfl, by unfold HostReaches; decide +kernel, by decide +kernel,
    by decide +kernel, by decide +kernel⟩,
   ⟨0xFFFF, 3, State.reset, _, rfl, by unfold HostReaches; decide +kernel, by decide +kernel, by decide +kernel, by decide +kernel,
    by decide +kernel⟩⟩

theorem witness_UpdatesArrive :
    (∃ (st : StackId) (q : QIdx) (seq : W32) (c : Cmd) (j : AblJob) (s : State) (n r : Nat), n = st.toNat ∧ r = aRegion j.cmd ∧ r / 4096 = n ∧
      j.phase = .sent ∧ j.owner = .cmd q seq ∧ AtHand s q seq 3 c) ∧
    (∃ (st : StackId) (q : QIdx) (seq : W32) (j : AblJob) (s : State) (n r : Nat), n = st.toNat ∧ r = aRegion j.cmd ∧ r / 4096 = n ∧ j.phase =
      .sent ∧ j.owner = .cmd q seq ∧ (∀ x ∈ s.ablJobs n, x.phase ≠ .sent)) ∧
    (∃ (st : StackId) (q : QIdx) (seq : W32) (j : AblJob) (l : List AblJob) (s : State) (n r : Nat), n = st.toNat ∧ r = aRegion j.cmd ∧ r / 4096
      = n ∧ j.phase = .sent ∧ j.owner = .cmd q seq ∧ s.ablJobs n = j :: l ∧ UnitRuns s n ∧ (∀ x ∈ l, x.phase = .sent) ∧ ablRefused s j.cmd =
      false ∧ rgnState s r = 0 ∧ (rgnDouble s r = true ∨ rgnCount s r 0 = 0)) ∧
    (∃ (st : StackId) (q : QIdx) (seq : W32) (j : AblJob) (l : List AblJob) (s : State) (n r : Nat), n = st.toNat ∧ r = aRegion j.cmd ∧ r / 4096
      = n ∧ j.phase = .sent ∧ j.owner = .cmd q seq ∧ s.ablJobs n = j :: l ∧ UnitRuns s n ∧ (∀ x ∈ l, x.phase = .sent) ∧ ablRefused s j.cmd =
      false ∧ rgnState s r = 0 ∧ rgnDouble s r = false ∧ rgnCount s r 0 ≠ 0) ∧
    (∃ (st : StackId) (q : QIdx) (seq : W32) (c : Cmd) (j : AblJob) (l : List AblJob) (s : State) (n r : Nat), n = st.toNat ∧ r = aRegion j.cmd
      ∧ r / 4096 = n ∧ j.phase = .sent ∧ j.owner = .cmd q seq ∧ s.ablJobs n = j :: l ∧ UnitRuns s n ∧ ablRefused s j.cmd = true ∧ s.cmd q
      seq = some c ∧ c.left = 1 ∧ c.status = none) ∧
    (∃ (st : StackId) (q : QIdx) (seq : W32) (c : Cmd) (j : AblJob) (l : List AblJob) (s : State) (n r : Nat) (g : RegionId), n = st.toNat ∧ r =
      aRegion j.cmd ∧ r / 4096 = n ∧ j.phase = .sent ∧ j.owner = .cmd q seq ∧ s.ablJobs n = { j with phase := .held } :: l ∧ rgnState s r =
      1 ∧ heldAcqs s r = [] ∧ l.any (heldJob r) = false ∧ s.cmd q seq = some c ∧ c.left = 1 ∧ c.status = none ∧ r = g.toNat) ∧
    (∃ (st : StackId) (q : QIdx) (seq : W32) (j : AblJob) (s : State) (n r : Nat) (g : RegionId), n = st.toNat ∧ r = aRegion j.cmd ∧ r / 4096 =
      n ∧ j.phase = .sent ∧ j.owner = .cmd q seq ∧ rgnState s g.toNat ≠ 1) :=
  ⟨⟨0, 0, 7, Tests.cmd 3 0 .admitted, Tests.job Tests.applyCmd (.sent), { Tests.withCmd (Tests.cmd 3 0 .admitted) State.reset with abl := [] },
    _, _, rfl, rfl, by decide +kernel, by decide +kernel, by decide +kernel, by unfold AtHand; decide +kernel⟩,
   ⟨0, 0, 7, Tests.job Tests.applyCmd (.sent), (Tests.abl [Tests.job Tests.applyCmd .held]), _, _, rfl, rfl, by decide +kernel,
    by decide +kernel, by decide +kernel, by decide +kernel⟩,
   ⟨0, 0, 7, Tests.job Tests.applyCmd (.sent), [], (Tests.abl [Tests.job Tests.applyCmd (.sent)]), _, _, rfl, rfl, by decide +kernel,
    by decide +kernel, by decide +kernel, by decide +kernel, by unfold UnitRuns; decide +kernel, by decide +kernel, by decide +kernel,
    by decide +kernel, by decide +kernel⟩,
   ⟨0, 0, 7, Tests.job Tests.applyCmd (.sent), [], (Tests.put [(R.RGNV_COUNT0 0 0, F.RGNV_COUNT0_COUNT0, 1)] (Tests.abl [Tests.job
    Tests.applyCmd (.sent)])), _, _, rfl, rfl, by decide +kernel, by decide +kernel, by decide +kernel, by decide +kernel,
    by unfold UnitRuns; decide +kernel, by decide +kernel, by decide +kernel, by decide +kernel, by decide +kernel, by decide +kernel⟩,
   ⟨0, 0, 7, { Tests.cmd 3 0 .running with left := 1 }, Tests.job (3 : Nat) (.sent), [], (Tests.abl [Tests.job (3 : Nat) (.sent)]), _, _, rfl,
    rfl, by decide +kernel, by decide +kernel, by decide +kernel, by decide +kernel, by unfold UnitRuns; decide +kernel, by decide +kernel,
    by decide +kernel, by decide +kernel, by decide +kernel⟩,
   ⟨0, 0, 7, { Tests.cmd 3 0 .running with left := 1 }, Tests.job Tests.applyCmd (.sent), [], (Tests.put [(R.RGNV_STATE 0 0,
    F.RGNV_STATE_STATE, 1)] (Tests.abl [{ Tests.job Tests.applyCmd .sent with phase := .held }])), _, _, 0, rfl, rfl, by decide +kernel,
    by decide +kernel, by decide +kernel, by decide +kernel, by decide +kernel, by decide +kernel, by decide +kernel, by decide +kernel,
    by decide +kernel, by decide +kernel, by decide +kernel⟩,
   ⟨0, 0, 7, Tests.job Tests.applyCmd (.sent), (Tests.abl [Tests.job Tests.applyCmd (.sent)]), _, _, 0, rfl, rfl, by decide +kernel,
    by decide +kernel, by decide +kernel, by decide +kernel⟩⟩

theorem witness_UpdatesRun :
    (∃ (st : StackId) (residue : List (Nat × Nat)) (j : AblJob) (s w : State) (n r : Nat) (code : Status), n = st.toNat ∧ r = aRegion j.cmd ∧ r
      / 4096 = n ∧ curJob s n = some j ∧ JobAt s n j ∧ aOp j.cmd = 0 ∧ aInbox j.cmd = false ∧ code.stops = false ∧ (stepCheck j.cmd s).1 =
      code ∧ ablBlocks n residue (ruleBlock j.cmd (ablConst j.cmd) (gradHbm j.cmd)) (List.range (rNblk s r)) (stepCheck j.cmd s).2 = ((.ok,
      0), w) ∧ w.abl = s.abl ∧ Unshared w j.cmd) ∧
    (∃ (st : StackId) (residue : List (Nat × Nat)) (j : AblJob) (s w : State) (n r : Nat) (code : Status) (b : Nat), n = st.toNat ∧ r = aRegion
      j.cmd ∧ r / 4096 = n ∧ curJob s n = some j ∧ JobAt s n j ∧ aOp j.cmd = 0 ∧ aInbox j.cmd = false ∧ (stepCheck j.cmd s).1 = .ok ∧ code ≠
      .ok ∧ ablBlocks n residue (ruleBlock j.cmd (ablConst j.cmd) (gradHbm j.cmd)) (List.range (rNblk s r)) (stepCheck j.cmd s).2 = ((code,
      b), w) ∧ w.abl = s.abl) ∧
    (∃ (st : StackId) (j : AblJob) (s : State) (n r : Nat), n = st.toNat ∧ r = aRegion j.cmd ∧ r / 4096 = n ∧ curJob s n = some j ∧ aOp j.cmd =
      0 ∧ j.lost = true) ∧
    (∃ (st : StackId) (j : AblJob) (s : State) (n r : Nat), n = st.toNat ∧ r = aRegion j.cmd ∧ r / 4096 = n ∧ curJob s n = some j ∧ aOp j.cmd =
      1 ∧ skipEmpty s n = true ∧ rgnDouble s r = false ∧ (aClr j.cmd = true ∨ aF j.cmd 0x0C 4 = (rBct s r + 1) % 2 ^ 32)) ∧
    (∃ (st : StackId) (j : AblJob) (s : State) (n r : Nat), n = st.toNat ∧ r = aRegion j.cmd ∧ r / 4096 = n ∧ curJob s n = some j ∧ aOp j.cmd =
      1 ∧ skipEmpty s n = true ∧ rgnDouble s r = false ∧ aClr j.cmd = false ∧ aF j.cmd 0x0C 4 ≠ (rBct s r + 1) % 2 ^ 32) ∧
    (∃ (st : StackId) (j : AblJob) (s : State) (n r : Nat), n = st.toNat ∧ r = aRegion j.cmd ∧ r / 4096 = n ∧ curJob s n = some j ∧ aOp j.cmd =
      2 ∧ j.spoilt = false ∧ Unshared s j.cmd ∧ rNblk s r = 1 ∧ rFmt s r = 1 ∧ rgnDouble s r = false ∧ GoodBytes s (rMaster s r) 65 ∧
      GoodBytes s (rImg s r 0) 64) ∧
    (∃ st : StackId, ∃ j : AblJob, ∃ s : State, ∃ n r : Nat, ∃ x, n = st.toNat ∧ r = aRegion j.cmd ∧ r / 4096 = n ∧ curJob s n = some j ∧ JobAt
      s n j ∧ aOp j.cmd = 0 ∧ aInbox j.cmd = false ∧ aRule j.cmd = 0 ∧ aSr j.cmd = false ∧ aBf16 j.cmd = false ∧ (stepCheck j.cmd s).1 = .ok
      ∧ Unshared s j.cmd ∧ rNblk s r = 1 ∧ rFmt s r = 1 ∧ rgnDouble s r = false ∧ GoodBytes s (rMaster s r) 65 ∧ GoodBytes s (rImg s r 0) 64
      ∧ GoodBytes s (aF j.cmd 0x28 8) 128 ∧ rMaster s r + 65 ≤ rImg s r 0 ∧ x = quantBlock fKb16 ((List.range 32).map (fun i => rdF32
      (ablElem j.cmd (ablConst j.cmd) (kbWord s r (rMaster s r) i) 0 0 (leNat (rdBytes s (aF j.cmd 0x28 8 + 4 * i) 4))).1))) ∧
    (∃ (st : StackId) (j : AblJob) (s : State) (n r : Nat), n = st.toNat ∧ r = aRegion j.cmd ∧ r / 4096 = n ∧ curJob s n = some j ∧ aInbox j.cmd
      = false) :=
  ⟨⟨0, [], Tests.job (2 * 2 ^ 96 + 0x3000 * 2 ^ 320) (.writing), (Tests.abl [Tests.job (2 * 2 ^ 96 + 0x3000 * 2 ^ 320) (.writing)]), (ablBlocks
    0 [] (ruleBlock (Tests.job (2 * 2 ^ 96 + 0x3000 * 2 ^ 320) .writing).cmd (ablConst (Tests.job (2 * 2 ^ 96 + 0x3000 * 2 ^ 320)
    .writing).cmd)
      (gradHbm (Tests.job (2 * 2 ^ 96 + 0x3000 * 2 ^ 320) .writing).cmd)) (List.range (rNblk (Tests.abl [Tests.job (2 * 2
    ^ 96 + 0x3000 * 2 ^ 320) .writing]) 0)) (stepCheck (Tests.job (2 * 2 ^ 96 + 0x3000 * 2 ^ 320) .writing).cmd (Tests.abl [Tests.job (2 * 2
    ^ 96 + 0x3000 * 2 ^ 320) .writing])).2).2, _, _, .stepMismatch, rfl, rfl, by decide +kernel, by decide +kernel,
    by unfold JobAt; decide +kernel, by decide +kernel, by decide +kernel, by decide +kernel, by decide +kernel, by decide +kernel,
    by decide +kernel, by unfold Unshared; decide +kernel⟩,
   ⟨0, [(0, 3)], Tests.job Tests.applyCmd (.writing), (Tests.abl [Tests.job Tests.applyCmd (.writing)]), (ablBlocks 0 [(0, 3)] (ruleBlock
    (Tests.job Tests.applyCmd .writing).cmd (ablConst (Tests.job Tests.applyCmd .writing).cmd)
      (gradHbm (Tests.job Tests.applyCmd
    .writing).cmd)) (List.range (rNblk (Tests.abl [Tests.job Tests.applyCmd .writing]) 0)) (stepCheck (Tests.job Tests.applyCmd
    .writing).cmd (Tests.abl [Tests.job Tests.applyCmd .writing])).2).2, _, _, .faultResidue, 0, rfl, rfl, by decide +kernel,
    by decide +kernel, by unfold JobAt; decide +kernel, by decide +kernel, by decide +kernel, by decide +kernel, by decide +kernel,
    by decide +kernel, by decide +kernel⟩,
   ⟨0, { Tests.job Tests.applyCmd .writing with lost := true }, Tests.abl [{ Tests.job Tests.applyCmd .writing with lost := true }], _, _, rfl,
    rfl, by decide +kernel, by decide +kernel, by decide +kernel, by decide +kernel⟩,
   ⟨0, Tests.job (1 + 2 ^ 96) (.writing), (Tests.abl [Tests.job (1 + 2 ^ 96) (.writing)]), _, _, rfl, rfl, by decide +kernel,
    by decide +kernel, by decide +kernel, by decide +kernel, by decide +kernel, by decide +kernel⟩,
   ⟨0, Tests.job (1 + 2 * 2 ^ 96) (.writing), (Tests.abl [Tests.job (1 + 2 * 2 ^ 96) (.writing)]), _, _, rfl, rfl, by decide +kernel,
    by decide +kernel, by decide +kernel, by decide +kernel, by decide +kernel, by decide +kernel, by decide +kernel⟩,
   ⟨0, Tests.job (2 + 2 ^ 96) (.writing), (Tests.abl [Tests.job (2 + 2 ^ 96) (.writing)]), _, _, rfl, rfl, by decide +kernel,
    by decide +kernel, by decide +kernel, by decide +kernel, by unfold Unshared; decide +kernel, by decide +kernel, by decide +kernel,
    by decide +kernel, by unfold GoodBytes Clean; decide +kernel, by unfold GoodBytes Clean; decide +kernel⟩,
   ⟨0, Tests.job Tests.applyCmd (.writing), (Tests.abl [Tests.job Tests.applyCmd (.writing)]), _, _, _, rfl, rfl, by decide +kernel,
    by decide +kernel, by unfold JobAt; decide +kernel, by decide +kernel, by decide +kernel, by decide +kernel, by decide +kernel,
    by decide +kernel, by decide +kernel, by unfold Unshared; decide +kernel, by decide +kernel, by decide +kernel, by decide +kernel,
    by unfold GoodBytes Clean; decide +kernel, by unfold GoodBytes Clean; decide +kernel, by unfold GoodBytes Clean; decide +kernel,
    by decide +kernel, rfl⟩,
   ⟨0, Tests.job Tests.applyCmd (.writing), (Tests.abl [Tests.job Tests.applyCmd (.writing)]), _, _, rfl, rfl, by decide +kernel,
    by decide +kernel, by decide +kernel⟩⟩

theorem witness_UpdatesComplete :
    (∃ (st : StackId) (q : QIdx) (seq : W32) (c : Cmd) (j : AblJob) (s : State) (n r : Nat), n = st.toNat ∧ r = aRegion j.cmd ∧ r / 4096 = n ∧
      j.owner = .cmd q seq ∧ s.cmd q seq = some c ∧ c.left = 1 ∧ c.status = none ∧ j.phase = .done .ok 0 ∧ s.ablJobs n = [j] ∧ aOp j.cmd ≠ 2
      ∧ rgnDouble s r = false ∧ heldAcqs s r = []) ∧
    (∃ st : StackId, ∃ q : QIdx, ∃ seq : W32, ∃ c : Cmd, ∃ j : AblJob, ∃ s : State, ∃ n r : Nat, ∃ b, n = st.toNat ∧ r = aRegion j.cmd ∧ r /
      4096 = n ∧ j.owner = .cmd q seq ∧ s.cmd q seq = some c ∧ c.left = 1 ∧ c.status = none ∧ j.phase = .done .faultEcc b ∧ b < 2 ^ 23 ∧
      s.ablJobs n = [j] ∧ heldAcqs s r = []) ∧
    (∃ (st : StackId) (q : QIdx) (seq : W32) (c : Cmd) (j : AblJob) (s : State) (n r : Nat), n = st.toNat ∧ r = aRegion j.cmd ∧ r / 4096 = n ∧
      j.owner = .cmd q seq ∧ s.cmd q seq = some c ∧ c.left = 1 ∧ c.status = none ∧ (∀ x ∈ s.ablJobs n, x.phase = .sent)) :=
  ⟨⟨0, 0, 7, { Tests.cmd 3 0 .running with left := 1 }, Tests.job Tests.applyCmd (.done .ok 0), (Tests.abl [Tests.job Tests.applyCmd (.done .ok
    0)]), _, _, rfl, rfl, by decide +kernel, by decide +kernel, by decide +kernel, by decide +kernel, by decide +kernel, by decide +kernel,
    by decide +kernel, by decide +kernel, by decide +kernel, by decide +kernel⟩,
   ⟨0, 0, 7, { Tests.cmd 3 0 .running with left := 1 }, Tests.job Tests.applyCmd (.done .faultEcc (2 ^ 23 - 1)), (Tests.abl [Tests.job
    Tests.applyCmd (.done .faultEcc (2 ^ 23 - 1))]), _, _, 2 ^ 23 - 1, rfl, rfl, by decide +kernel, by decide +kernel, by decide +kernel,
    by decide +kernel, by decide +kernel, by decide +kernel, by decide +kernel, by decide +kernel, by decide +kernel⟩,
   ⟨0, 0, 7, { Tests.cmd 3 0 .running with left := 1 }, Tests.job Tests.applyCmd (.sent), (Tests.abl [Tests.job Tests.applyCmd (.sent)]), _, _,
    rfl, rfl, by decide +kernel, by decide +kernel, by decide +kernel, by decide +kernel, by decide +kernel, by decide +kernel⟩⟩

theorem witness_InboxesAndMicrocode :
    (∃ (st : StackId) (ch : BitVec 4) (b d : Option (List Byte)) (l : List (Option (List Byte))) (s : State) (n k : Nat), n = st.toNat ∧ k =
      inKey n ch.toNat ∧ mget (fun _ => []) s.inboxOut k = b :: d :: l ∧ (inboxOf s k).length < 4) ∧
    (∃ (st : StackId) (ch : BitVec 4) (s : State) (n k : Nat), n = st.toNat ∧ k = inKey n ch.toNat ∧ (4 ≤ (inboxOf s k).length ∨ mget (fun _ =>
      []) s.inboxOut k = [])) ∧
    (∃ (st : StackId) (ch : BitVec 4) (s : State) (n k : Nat), n = st.toNat ∧ k = inKey n ch.toNat ∧ HostReaches s (48 + n)) ∧
    (∃ (st : StackId) (ch : BitVec 4) (s : State) (n k : Nat), n = st.toNat ∧ k = inKey n ch.toNat ∧ HostReaches s (48 + n) ∧ rget s
      (R.ABL_STATUS n) F.ABL_STATUS_STATE = 0) ∧
    (∃ (st : StackId) (ch : BitVec 4) (s : State) (n k : Nat), n = st.toNat ∧ k = inKey n ch.toNat ∧ HostReaches s (48 + n) ∧ rget s
      (R.ABL_STATUS n) F.ABL_STATUS_STATE ≠ 0) ∧
    (∃ (st : StackId) (ch : BitVec 4) (s : State) (n k : Nat), n = st.toNat ∧ k = inKey n ch.toNat ∧ rget s (R.ABL_STATUS n) F.ABL_STATUS_STATE
      = 1 ∧ accepted s n = []) ∧
    (∃ (st : StackId) (ch : BitVec 4) (s : State) (n k : Nat), n = st.toNat ∧ k = inKey n ch.toNat ∧ rget s (R.ABL_STATUS n) F.ABL_STATUS_STATE
      = 1 ∧ accepted s n ≠ []) ∧
    (∃ (st : StackId) (ch : BitVec 4) (s : State) (n k : Nat), n = st.toNat ∧ k = inKey n ch.toNat ∧ rget s (R.ABL_STATUS n) F.ABL_STATUS_STATE
      ≠ 2) ∧
    (∃ st : StackId, ∃ ch : BitVec 4, ∃ s : State, ∃ n k : Nat, ∃ a, n = st.toNat ∧ k = inKey n ch.toNat ∧ a = n * 2 ^ 36 + rget s (R.ABL_MC_SRC
      n) F.ABL_MC_SRC_OFF * 64 ∧ rget s (R.ABL_STATUS n) F.ABL_STATUS_STATE = 2 ∧ GoodBytes s a s.mgmt.mcLen ∧ (∀ i, i < s.mgmt.mcLen → (a +
      i) / 2 ^ 36 = n ∧ addrOk s (a + i) = true) ∧ Config.sha512 (rdBytes s a s.mgmt.mcLen) = s.mgmt.mcDigest ∧ n ∈ s.mgmt.mcMarked ∧ rbit s
      (R.ABL_MC_CTL n) F.ABL_MC_CTL_PEND = false) ∧
    (∃ st : StackId, ∃ ch : BitVec 4, ∃ s : State, ∃ n k : Nat, ∃ a, n = st.toNat ∧ k = inKey n ch.toNat ∧ a = n * 2 ^ 36 + rget s (R.ABL_MC_SRC
      n) F.ABL_MC_SRC_OFF * 64 ∧ rget s (R.ABL_STATUS n) F.ABL_STATUS_STATE = 2 ∧ GoodBytes s a s.mgmt.mcLen ∧ (∀ i, i < s.mgmt.mcLen → (a +
      i) / 2 ^ 36 = n ∧ addrOk s (a + i) = true) ∧ Config.sha512 (rdBytes s a s.mgmt.mcLen) = s.mgmt.mcDigest ∧ n ∈ s.mgmt.mcMarked ∧ rbit s
      (R.ABL_MC_CTL n) F.ABL_MC_CTL_PEND = true) ∧
    (∃ st : StackId, ∃ ch : BitVec 4, ∃ s : State, ∃ n k : Nat, ∃ a, n = st.toNat ∧ k = inKey n ch.toNat ∧ a = n * 2 ^ 36 + rget s (R.ABL_MC_SRC
      n) F.ABL_MC_SRC_OFF * 64 ∧ rget s (R.ABL_STATUS n) F.ABL_STATUS_STATE = 2 ∧ GoodBytes s a s.mgmt.mcLen ∧ (∀ i, i < s.mgmt.mcLen → (a +
      i) / 2 ^ 36 = n ∧ addrOk s (a + i) = true) ∧ (Config.sha512 (rdBytes s a s.mgmt.mcLen) ≠ s.mgmt.mcDigest ∨ n ∉ s.mgmt.mcMarked) ∧ rbit
      s (R.ABL_MC_CTL n) F.ABL_MC_CTL_PEND = false ∧ s.mgmt.receiver = none) :=
  ⟨⟨0, 0, some [], none, [], { State.reset with inboxOut := [(0, [some [], none])], inbox := [(0, [none, none, none])] }, _, _, rfl, rfl,
    by decide +kernel, by decide +kernel⟩,
   ⟨0, 0, { State.reset with inboxOut := [(0, [some [], none])], inbox := [(0, [none, none, none, none])] }, _, _, rfl, rfl, by decide +kernel⟩,
   ⟨15, 15, State.reset, _, _, rfl, rfl, by unfold HostReaches; decide +kernel⟩,
   ⟨0, 0, State.reset, _, _, rfl, rfl, by unfold HostReaches; decide +kernel, by decide +kernel⟩,
   ⟨0, 0, (Tests.put [(R.ABL_STATUS 0, F.ABL_STATUS_STATE, 1)] State.reset), _, _, rfl, rfl, by unfold HostReaches; decide +kernel,
    by decide +kernel⟩,
   ⟨0, 0, (Tests.put [(R.ABL_STATUS 0, F.ABL_STATUS_STATE, 1)] State.reset), _, _, rfl, rfl, by decide +kernel, by decide +kernel⟩,
   ⟨0, 0, (Tests.put [(R.ABL_STATUS 0, F.ABL_STATUS_STATE, 1)] { State.reset with abl := [(0, [Tests.job Tests.applyCmd .held])] }), _, _, rfl,
    rfl, by decide +kernel, by decide +kernel⟩,
   ⟨0, 0, State.reset, _, _, rfl, rfl, by decide +kernel⟩,
   ⟨0, 0, (Tests.put [(R.ABL_STATUS 0, F.ABL_STATUS_STATE, 2)]
    { State.reset with mgmt := { State.reset.mgmt with mcDigest := Config.sha512 [0], mcLen := 1, mcMarked := [0] } }), _, _, _, rfl, rfl,
    rfl, by decide +kernel, by unfold GoodBytes Clean; decide +kernel, by decide +kernel, congrArg Config.sha512 (by decide +kernel),
    by decide +kernel, by decide +kernel⟩,
   ⟨0, 0, (Tests.put [(R.ABL_STATUS 0, F.ABL_STATUS_STATE, 2), (R.ABL_MC_CTL 0, F.ABL_MC_CTL_PEND, 1)]
    { State.reset with mgmt := { State.reset.mgmt with mcDigest := Config.sha512 [0], mcLen := 1, mcMarked := [0] } }), _, _, _, rfl, rfl,
    rfl, by decide +kernel, by unfold GoodBytes Clean; decide +kernel, by decide +kernel, congrArg Config.sha512 (by decide +kernel),
    by decide +kernel, by decide +kernel⟩,
   ⟨0, 0, (Tests.put [(R.ABL_STATUS 0, F.ABL_STATUS_STATE, 2)]
    { State.reset with mgmt := { State.reset.mgmt with mcDigest := Config.sha512 [0], mcLen := 1, mcMarked := [] } }), _, _, _, rfl, rfl,
    rfl, by decide +kernel, by unfold GoodBytes Clean; decide +kernel, by decide +kernel, .inr (by decide +kernel), by decide +kernel,
    by decide +kernel⟩⟩

theorem witness_PortControl :
    (∃ (p : PortId) (s : State) (n : Nat), n = p.toNat ∧ n < 24 ∧ s.heldPkts = []) ∧
    (∃ (p : PortId) (s : State) (n : Nat), n = p.toNat ∧ n < 24 ∧ HostReaches s (6 + n / 6)) ∧
    (∃ (p : PortId) (s : State) (n : Nat), n = p.toNat ∧ n < 24 ∧ HostReaches s (6 + n / 6)) ∧
    (∃ (p : PortId) (s : State) (n : Nat), n = p.toNat ∧ n < 24 ∧ HostReaches s (hostCtl s) ∧ s.heldPkts = []) ∧
    (∃ (p : PortId) (s : State) (n : Nat), n = p.toNat ∧ n < 24 ∧ portState s n = 4) ∧
    (∃ (p : PortId) (s : State) (n : Nat), n = p.toNat ∧ n < 24 ∧ portState s n ≠ 4) :=
  ⟨⟨23, State.reset, _, rfl, by decide +kernel, by decide +kernel⟩,
   ⟨23, State.reset, _, rfl, by decide +kernel, by unfold HostReaches; decide +kernel⟩,
   ⟨0, State.reset, _, rfl, by decide +kernel, by unfold HostReaches; decide +kernel⟩,
   ⟨0, State.reset, _, rfl, by decide +kernel, by unfold HostReaches; decide +kernel, by decide +kernel⟩,
   ⟨0, (Tests.put [(R.MOSP_STATUS 0, F.MOSP_STATUS_STATE, 4)] State.reset), _, rfl, by decide +kernel, by decide +kernel⟩,
   ⟨0, State.reset, _, rfl, by decide +kernel, by decide +kernel⟩⟩

theorem witness_PortTraining :
    (∃ (p : PortId) (s : State) (n : Nat), n = p.toNat ∧ n < 24 ∧ portState s n = 1 ∧ sizeOf' s (portDim n) ≠ 1) ∧
    (∃ (p : PortId) (s : State) (n : Nat), n = p.toNat ∧ n < 24 ∧ (portState s n ≠ 1 ∨ sizeOf' s (portDim n) = 1)) ∧
    (∃ p : PortId, ∃ s : State, ∃ n : Nat, ∃ c, n = p.toNat ∧ n < 24 ∧ c ∈ [Instr.portAckTimeout p, .laneLockLost p] ∧ portState s n = 2) ∧
    (∃ p : PortId, ∃ s : State, ∃ n : Nat, ∃ c, n = p.toNat ∧ n < 24 ∧ c ∈ [Instr.portAckTimeout p, .laneLockLost p] ∧ portState s n ≠ 2) ∧
    (∃ (p : PortId) (s : State) (n : Nat), n = p.toNat ∧ n < 24 ∧ portState s n = 3) ∧
    (∃ (p : PortId) (s : State) (n : Nat), n = p.toNat ∧ n < 24 ∧ portState s n = 3 ∧ (s.port n).tries < 2) ∧
    (∃ (p : PortId) (s : State) (n : Nat), n = p.toNat ∧ n < 24 ∧ portState s n = 3 ∧ 2 ≤ (s.port n).tries ∧ s.mgmt.receiver = none) ∧
    (∃ p : PortId, ∃ s : State, ∃ n : Nat, ∃ c, n = p.toNat ∧ n < 24 ∧ portState s n ≠ 3 ∧ c ∈ [Instr.portRetrained p, .retrainTimeout p]) :=
  ⟨⟨0, (Tests.put [(R.MOSP_STATUS 0, F.MOSP_STATUS_STATE, 1), (R.MOS_DIM, F.MOS_DIM_SX, 2)] State.reset), _, rfl, by decide +kernel,
    by decide +kernel, by decide +kernel⟩,
   ⟨0, (Tests.put [(R.MOSP_STATUS 0, F.MOSP_STATUS_STATE, 1)] State.reset), _, rfl, by decide +kernel, by decide +kernel⟩,
   ⟨0, (Tests.put [(R.MOSP_STATUS 0, F.MOSP_STATUS_STATE, 2)] State.reset), _, _, rfl, by decide +kernel, List.mem_cons_self,
    by decide +kernel⟩,
   ⟨0, State.reset, _, _, rfl, by decide +kernel, List.mem_cons_self, by decide +kernel⟩,
   ⟨0, (Tests.put [(R.MOSP_STATUS 0, F.MOSP_STATUS_STATE, 3)] State.reset), _, rfl, by decide +kernel, by decide +kernel⟩,
   ⟨0, (Tests.put [(R.MOSP_STATUS 0, F.MOSP_STATUS_STATE, 3)] { State.reset with ports := [(0, { Port.reset with tries := 1 })] }), _, rfl,
    by decide +kernel, by decide +kernel, by decide +kernel⟩,
   ⟨0, (Tests.put [(R.MOSP_STATUS 0, F.MOSP_STATUS_STATE, 3)] { State.reset with ports := [(0, { Port.reset with tries := 2 })] }), _, rfl,
    by decide +kernel, by decide +kernel, by decide +kernel, by decide +kernel⟩,
   ⟨0, State.reset, _, _, rfl, by decide +kernel, by decide +kernel, List.mem_cons_self⟩⟩

theorem witness_LinkGroups :
    (∃ (p : PortId) (g : LinkGroup) (ack : Nat) (s : State) (n : Nat), n = p.toNat ∧ n < 24 ∧ ack = trailerF g 2 2 ∧ portState s n ≠ 2 ∧
      portState s n ≠ 4) ∧
    (∃ (p : PortId) (g : LinkGroup) (ack : Nat) (s : State) (n : Nat), n = p.toNat ∧ n < 24 ∧ ack = trailerF g 2 2 ∧ (portState s n = 2 ∨
      portState s n = 4) ∧ tcrcOk g = false) ∧
    (∃ (p : PortId) (g : LinkGroup) (ack : Nat) (s : State) (n : Nat), n = p.toNat ∧ n < 24 ∧ ack = trailerF g 2 2 ∧ (portState s n = 2 ∨
      portState s n = 4) ∧ tcrcOk g = true) ∧
    (∃ (p : PortId) (g : LinkGroup) (i ack : Nat) (h : HeldPkt) (s : State) (n : Nat), n = p.toNat ∧ n < 24 ∧ ack = trailerF g 2 2 ∧
      s.heldPkts[i]? = some h ∧ h.pkt.type ≠ 5) ∧
    (∃ (p : PortId) (g : LinkGroup) (i ack : Nat) (h : HeldPkt) (s : State) (n : Nat), n = p.toNat ∧ n < 24 ∧ ack = trailerF g 2 2 ∧
      s.heldPkts[i]? = some h ∧ h.pkt.type = 5) ∧
    (∃ (p : PortId) (g : LinkGroup) (i ack : Nat) (s : State) (n : Nat), n = p.toNat ∧ n < 24 ∧ ack = trailerF g 2 2 ∧ s.heldPkts.length ≤ i) :=
  ⟨⟨0, ⟨[], 0⟩, _, State.reset, _, rfl, by decide +kernel, rfl, by decide +kernel, by decide +kernel⟩,
   ⟨0, ⟨[], 0⟩, _, (Tests.put [(R.MOSP_STATUS 0, F.MOSP_STATUS_STATE, 2)] State.reset), _, rfl, by decide +kernel, rfl, by decide +kernel,
    by decide +kernel⟩,
   ⟨0, ⟨[], BitVec.ofNat 512 (crc16 (List.replicate 62 0) * 2 ^ 112)⟩, _, (Tests.put [(R.MOSP_STATUS 0, F.MOSP_STATUS_STATE, 4)] State.reset),
    _, rfl, by decide +kernel, rfl, by decide +kernel, by decide +kernel⟩,
   ⟨0, ⟨[], 0⟩, 0, _, ⟨0, none, none, false, Tests.pk 1 []⟩, { State.reset with heldPkts := [⟨0, none, none, false, Tests.pk 1 []⟩] }, _, rfl,
    by decide +kernel, rfl, by decide +kernel, by decide +kernel⟩,
   ⟨0, ⟨[], 0⟩, 0, _, ⟨0, none, none, false, Tests.pk 5 []⟩, { State.reset with heldPkts := [⟨0, none, none, false, Tests.pk 5 []⟩] }, _, rfl,
    by decide +kernel, rfl, by decide +kernel, by decide +kernel⟩,
   ⟨0, ⟨[], 0⟩, 0, _, State.reset, _, rfl, by decide +kernel, rfl, by decide +kernel⟩⟩

theorem witness_PacketsServed :
    (∃ p : PortId, ∃ k : Packet, ∃ s w : State, ∃ l, PacketHere s p k ∧ packetOdd k = false ∧ w = passed p.toNat k s ∧ k.type = 2 ∧ InHbm s k ∧
      l = (List.range (64 * pF k 0x18 1)).map (pkAddr k + ·) ∧ (∀ a ∈ l, addrOk s a = true ∧ Clean s a)) ∧
    (∃ p : PortId, ∃ k : Packet, ∃ s w : State, ∃ l, PacketHere s p k ∧ packetOdd k = false ∧ w = passed p.toNat k s ∧ k.type = 1 ∧ InHbm s k ∧
      l = (writeLines k).flatten ∧ headerTouched s (l.map (·.1)) = false ∧ (∀ c ∈ l, addrOk s c.1 = true ∧ Clean s c.1 ∧ ∃ n, place c.1 =
      .hbm n)) ∧
    (∃ p : PortId, ∃ k : Packet, ∃ s w : State, ∃ n, ∃ la, PacketHere s p k ∧ packetOdd k = false ∧ w = passed p.toNat k s ∧ k.type = 3 ∧ InHbm
      s k ∧ n = (if bit k.sub 0 then 8 else 4) ∧ la = pkAddr k ∧ (∀ i, i < n → addrOk s (la + i) = true ∧ Clean s (la + i))) ∧
    (∃ (p : PortId) (k : Packet) (s w : State) (t : TileId) (n : SemIdx), PacketHere s p k ∧ packetOdd k = false ∧ w = passed p.toNat k s ∧
      k.type = 4 ∧ k.sub = 0 ∧ pF k 0x10 2 = t.toNat ∧ pF k 0x12 1 = n.toNat ∧ s.domReach (16 + tileDie t) = true ∧ s.tileDraining t = false
      ∧ s.enabled t = true) ∧
    (∃ (p : PortId) (k : Packet) (s w : State) (id : Nat) (x : Txn) (t : TileId) (pc no : Nat), PacketHere s p k ∧ packetOdd k = false ∧ w =
      passed p.toNat k s ∧ k.type = 8 ∧ replyTxn s k = some (id, x) ∧ x.iss = .xwrite t pc no ∧ s.domReach (16 + tileDie t) = true ∧ pF k
      0x10 1 = 0) :=
  ⟨⟨0, Tests.pk (2 + 0x1000 * 2 ^ 128 + 2 ^ 192) ([]), Tests.portUp, _, _, by unfold PacketHere; decide +kernel, by decide +kernel, rfl,
    by decide +kernel, ⟨0, by decide +kernel, by decide +kernel⟩, rfl, by unfold Clean; decide +kernel⟩,
   ⟨0, Tests.pk (1 + 2 ^ 112 + 0x1000 * 2 ^ 128) (List.replicate 64 7), Tests.portUp, _, _, by unfold PacketHere; decide +kernel,
    by decide +kernel, rfl, by decide +kernel, ⟨0, by decide +kernel, by decide +kernel⟩, rfl, by decide +kernel, fun c hc =>
    by
      have h : ∀ c ∈ (writeLines (Tests.pk (1 + 2 ^ 112 + 0x1000 * 2 ^ 128) (List.replicate 64 7))).flatten, addrOk Tests.portUp c.1
    = true ∧ place c.1 = .hbm 0 :=
    by decide +kernel
      exact ⟨(h c hc).1, Tests.clean_of _ (by decide +kernel) (by decide +kernel) (by decide +kernel) _, 0, (h c hc).2⟩⟩,
   ⟨0, Tests.pk (3 + 2 ^ 8 + 0x1000 * 2 ^ 128) ([]), Tests.portUp, _, _, _, by unfold PacketHere; decide +kernel, by decide +kernel, rfl,
    by decide +kernel, ⟨0, by decide +kernel, by decide +kernel⟩, rfl, rfl, by unfold Clean; decide +kernel⟩,
   ⟨0, Tests.pk (4 + 5 * 2 ^ 128 + 3 * 2 ^ 144 + 2 ^ 160) ([]), Tests.portUp, _, 5, 3, by unfold PacketHere; decide +kernel, by decide +kernel,
    rfl, by decide +kernel, by decide +kernel, by decide +kernel, by decide +kernel, by decide +kernel, by decide +kernel,
    by decide +kernel⟩,
   ⟨0, Tests.pk (8 + 2 ^ 96) ([]), { Tests.portUp with txns := [(1, ⟨.xwrite 5 32 1, .dev 0, 0, .write [], .request⟩)] }, _, 1, ⟨.xwrite 5 32
    1, .dev 0, 0, .write [], .request⟩, 5, 32, 1, by unfold PacketHere; decide +kernel, by decide +kernel, rfl, by decide +kernel,
    by decide +kernel, by decide +kernel, by decide +kernel, by decide +kernel⟩⟩

theorem witness_PacketsTurnedAway :
    (∃ p : PortId, ∃ k : Packet, ∃ bad : Bool, ∃ s w : State, ∃ n : Nat, ∃ c, n = p.toNat ∧ n < 24 ∧ w = passed n k s ∧ c ∈ [(Instr.write p k
      bad, 1, 0), (.read p k bad, 2, 0), (.aadd p k bad, 3, k.sub), (.post p k bad, 4, 0), (.noticeEpoch p k bad, 4, 2), (.noticeAbort p k
      bad, 4, 3), (.seg p k bad, 5, 0), (.reply p k bad, 8, k.sub)] ∧ portState s n ≠ 2 ∧ portState s n ≠ 4) ∧
    (∃ p : PortId, ∃ k : Packet, ∃ bad : Bool, ∃ s w : State, ∃ n : Nat, ∃ c, n = p.toNat ∧ n < 24 ∧ w = passed n k s ∧ c ∈ [(Instr.write p k
      bad, 1, 0), (.read p k bad, 2, 0), (.aadd p k bad, 3, k.sub), (.post p k bad, 4, 0), (.noticeEpoch p k bad, 4, 2), (.noticeAbort p k
      bad, 4, 3), (.seg p k bad, 5, 0), (.reply p k bad, 8, k.sub)] ∧ (portState s n = 2 ∨ portState s n = 4) ∧ packetOk k = false) ∧
    (∃ p : PortId, ∃ k : Packet, ∃ bad : Bool, ∃ s w : State, ∃ n : Nat, ∃ c, n = p.toNat ∧ n < 24 ∧ w = passed n k s ∧ c ∈ [(Instr.write p k
      bad, 1, 0), (.read p k bad, 2, 0), (.aadd p k bad, 3, k.sub), (.post p k bad, 4, 0), (.noticeEpoch p k bad, 4, 2), (.noticeAbort p k
      bad, 4, 3), (.seg p k bad, 5, 0), (.reply p k bad, 8, k.sub)] ∧ (portState s n = 2 ∨ portState s n = 4) ∧ packetOk k = true ∧ k.type =
      c.2.1 ∧ k.sub = c.2.2 ∧ k.type ≠ 8 ∧ fenced s k.src = true) ∧
    (∃ p : PortId, ∃ k : Packet, ∃ bad : Bool, ∃ s w : State, ∃ n : Nat, ∃ c, n = p.toNat ∧ n < 24 ∧ w = passed n k s ∧ c ∈ [(Instr.write p k
      bad, 1, 0), (.read p k bad, 2, 0), (.aadd p k bad, 3, k.sub), (.post p k bad, 4, 0), (.noticeEpoch p k bad, 4, 2), (.noticeAbort p k
      bad, 4, 3), (.seg p k bad, 5, 0), (.reply p k bad, 8, k.sub)] ∧ (portState s n = 2 ∨ portState s n = 4) ∧ packetOk k = true ∧ k.type =
      c.2.1 ∧ k.sub = c.2.2 ∧ k.type ≠ 8 ∧ fenced s k.src = false ∧ s.domOn (6 + n / 6) = false ∧ isRequest k = true) ∧
    (∃ p : PortId, ∃ k : Packet, ∃ bad : Bool, ∃ s w : State, ∃ n : Nat, ∃ c, n = p.toNat ∧ n < 24 ∧ w = passed n k s ∧ c ∈ [(Instr.write p k
      bad, 1, 0), (.read p k bad, 2, 0), (.aadd p k bad, 3, k.sub), (.post p k bad, 4, 0), (.noticeEpoch p k bad, 4, 2), (.noticeAbort p k
      bad, 4, 3), (.seg p k bad, 5, 0), (.reply p k bad, 8, k.sub)] ∧ (portState s n = 2 ∨ portState s n = 4) ∧ packetOk k = true ∧ k.type =
      c.2.1 ∧ k.sub = c.2.2 ∧ k.type ≠ 8 ∧ fenced s k.src = false ∧ s.domOn (6 + n / 6) = false ∧ k.type = 4 ∧ isRequest k = false) ∧
    (∃ p : PortId, ∃ k : Packet, ∃ bad : Bool, ∃ s w : State, ∃ n : Nat, ∃ c, n = p.toNat ∧ n < 24 ∧ w = passed n k s ∧ c ∈ [(Instr.write p k
      bad, 1, 0), (.read p k bad, 2, 0), (.aadd p k bad, 3, k.sub), (.post p k bad, 4, 0), (.noticeEpoch p k bad, 4, 2), (.noticeAbort p k
      bad, 4, 3), (.seg p k bad, 5, 0), (.reply p k bad, 8, k.sub)] ∧ (portState s n = 2 ∨ portState s n = 4) ∧ packetOk k = true ∧ k.type =
      c.2.1 ∧ k.sub = c.2.2 ∧ k.type ≠ 8 ∧ fenced s k.src = false ∧ s.domOn (6 + n / 6) = false ∧ k.type = 5) ∧
    (∃ p : PortId, ∃ k : Packet, ∃ bad : Bool, ∃ s w : State, ∃ n : Nat, ∃ c, n = p.toNat ∧ n < 24 ∧ w = passed n k s ∧ c ∈ [(Instr.write p k
      bad, 1, 0), (.read p k bad, 2, 0), (.aadd p k bad, 3, k.sub), (.post p k bad, 4, 0), (.noticeEpoch p k bad, 4, 2), (.noticeAbort p k
      bad, 4, 3), (.seg p k bad, 5, 0), (.reply p k bad, 8, k.sub)] ∧ (portState s n = 2 ∨ portState s n = 4) ∧ packetOk k = true ∧ k.type =
      c.2.1 ∧ k.sub = c.2.2 ∧ k.type ≠ 8 ∧ fenced s k.src = false ∧ s.domOn (6 + n / 6) = true ∧ bad = true ∧ isRequest k = true) ∧
    (∃ p : PortId, ∃ k : Packet, ∃ bad : Bool, ∃ s w : State, ∃ n : Nat, ∃ c, n = p.toNat ∧ n < 24 ∧ w = passed n k s ∧ c ∈ [(Instr.write p k
      bad, 1, 0), (.read p k bad, 2, 0), (.aadd p k bad, 3, k.sub), (.post p k bad, 4, 0), (.noticeEpoch p k bad, 4, 2), (.noticeAbort p k
      bad, 4, 3), (.seg p k bad, 5, 0), (.reply p k bad, 8, k.sub)] ∧ (portState s n = 2 ∨ portState s n = 4) ∧ packetOk k = true ∧ k.type =
      c.2.1 ∧ k.sub = c.2.2 ∧ k.type ≠ 8 ∧ fenced s k.src = false ∧ s.domOn (6 + n / 6) = true ∧ bad = true ∧ k.type = 4 ∧ isRequest k =
      false ∧ arrived k = false) ∧
    (∃ p : PortId, ∃ k : Packet, ∃ bad : Bool, ∃ s w : State, ∃ n : Nat, ∃ c, n = p.toNat ∧ n < 24 ∧ w = passed n k s ∧ c ∈ [(Instr.write p k
      bad, 1, 0), (.read p k bad, 2, 0), (.aadd p k bad, 3, k.sub), (.post p k bad, 4, 0), (.noticeEpoch p k bad, 4, 2), (.noticeAbort p k
      bad, 4, 3), (.seg p k bad, 5, 0), (.reply p k bad, 8, k.sub)] ∧ (portState s n = 2 ∨ portState s n = 4) ∧ packetOk k = true ∧ k.type =
      c.2.1 ∧ k.sub = c.2.2 ∧ k.type ≠ 8 ∧ fenced s k.src = false ∧ s.domOn (6 + n / 6) = true ∧ (bad = false ∨ k.type = 5) ∧ arrived k =
      false) ∧
    (∃ p : PortId, ∃ k : Packet, ∃ bad : Bool, ∃ s w : State, ∃ n : Nat, ∃ c, n = p.toNat ∧ n < 24 ∧ w = passed n k s ∧ c ∈ [(Instr.write p k
      bad, 1, 0), (.read p k bad, 2, 0), (.aadd p k bad, 3, k.sub), (.post p k bad, 4, 0), (.noticeEpoch p k bad, 4, 2), (.noticeAbort p k
      bad, 4, 3), (.seg p k bad, 5, 0), (.reply p k bad, 8, k.sub)] ∧ (portState s n = 2 ∨ portState s n = 4) ∧ packetOk k = true ∧ k.type =
      c.2.1 ∧ k.sub = c.2.2 ∧ k.type ≠ 8 ∧ fenced s k.src = false ∧ s.domOn (6 + n / 6) = true ∧ (bad = false ∨ k.type = 5) ∧ arrived k =
      true ∧ k.dst ≠ s.devId) :=
  ⟨⟨0, Tests.pk (2 + 0x1000 * 2 ^ 128 + 2 ^ 192) ([]), false, State.reset, _, _, _, rfl, by decide +kernel, rfl, List.mem_cons_self,
    by decide +kernel⟩,
   ⟨0, Tests.pk (0) ([]), false, Tests.portUp, _, _, _, rfl, by decide +kernel, rfl, List.mem_cons_self, by decide +kernel, by decide +kernel⟩,
   ⟨0, Tests.pk (1 + 2 ^ 112) ([]), false, (Tests.put [(R.CALVE_FENCE 0, F.CALVE_FENCE_VALID, 1)] Tests.portUp), _, _, _, rfl,
    by decide +kernel, rfl, List.mem_cons_self, by decide +kernel, by decide +kernel, by decide +kernel, by decide +kernel,
    by decide +kernel, by decide +kernel⟩,
   ⟨0, Tests.pk (2 + 0x1000 * 2 ^ 128 + 2 ^ 192) ([]), false, (Tests.put [(R.PDC_DOM_STAT 6, F.PDC_DOM_STAT_STATE, 0)] Tests.portUp), _, _, _,
    rfl, by decide +kernel, rfl, List.mem_cons_of_mem _ (List.mem_cons_self), by decide +kernel, by decide +kernel, by decide +kernel,
    by decide +kernel, by decide +kernel, by decide +kernel, by decide +kernel, by decide +kernel⟩,
   ⟨0, Tests.pk (4 + 2 * 2 ^ 8) ([]), false, (Tests.put [(R.PDC_DOM_STAT 6, F.PDC_DOM_STAT_STATE, 0)] Tests.portUp), _, _, _, rfl,
    by decide +kernel, rfl, List.mem_cons_of_mem _ (List.mem_cons_of_mem _ (List.mem_cons_of_mem _ (List.mem_cons_of_mem _
    (List.mem_cons_self)))), by decide +kernel, by decide +kernel, by decide +kernel, by decide +kernel, by decide +kernel,
    by decide +kernel, by decide +kernel, by decide +kernel, by decide +kernel⟩,
   ⟨0, Tests.pk (5) ([]), false, (Tests.put [(R.PDC_DOM_STAT 6, F.PDC_DOM_STAT_STATE, 0)] Tests.portUp), _, _, _, rfl, by decide +kernel, rfl,
    List.mem_cons_of_mem _ (List.mem_cons_of_mem _ (List.mem_cons_of_mem _ (List.mem_cons_of_mem _ (List.mem_cons_of_mem _
    (List.mem_cons_of_mem _ (List.mem_cons_self)))))), by decide +kernel, by decide +kernel, by decide +kernel, by decide +kernel,
    by decide +kernel, by decide +kernel, by decide +kernel, by decide +kernel⟩,
   ⟨0, Tests.pk (2 + 0x1000 * 2 ^ 128 + 2 ^ 192) ([]), true, Tests.portUp, _, _, _, rfl, by decide +kernel, rfl, List.mem_cons_of_mem _
    (List.mem_cons_self), by decide +kernel, by decide +kernel, by decide +kernel, by decide +kernel, by decide +kernel, by decide +kernel,
    by decide +kernel, by decide +kernel, by decide +kernel⟩,
   ⟨0, Tests.pk (4 + 2 * 2 ^ 8 + 2 ^ 64) ([]), true, Tests.portUp, _, _, _, rfl, by decide +kernel, rfl, List.mem_cons_of_mem _
    (List.mem_cons_of_mem _ (List.mem_cons_of_mem _ (List.mem_cons_of_mem _ (List.mem_cons_self)))), by decide +kernel, by decide +kernel,
    by decide +kernel, by decide +kernel, by decide +kernel, by decide +kernel, by decide +kernel, by decide +kernel, by decide +kernel,
    by decide +kernel, by decide +kernel⟩,
   ⟨0, Tests.pk (2 + 0x1000 * 2 ^ 128 + 2 ^ 192 + 2 ^ 64) ([]), false, Tests.portUp, _, _, _, rfl, by decide +kernel, rfl, List.mem_cons_of_mem
    _ (List.mem_cons_self), by decide +kernel, by decide +kernel, by decide +kernel, by decide +kernel, by decide +kernel,
    by decide +kernel, by decide +kernel, by decide +kernel, by decide +kernel⟩,
   ⟨0, Tests.pk (2 + 0x1000 * 2 ^ 128 + 2 ^ 192 + 2 ^ 32) ([]), false, Tests.portUp, _, _, _, rfl, by decide +kernel, rfl, List.mem_cons_of_mem
    _ (List.mem_cons_self), by decide +kernel, by decide +kernel, by decide +kernel, by decide +kernel, by decide +kernel,
    by decide +kernel, by decide +kernel, by decide +kernel, by decide +kernel, by decide +kernel⟩⟩

theorem witness_CollectivesIssue :
    (∃ (q : QIdx) (seq : W32) (c : Cmd) (g : GroupId) (s : State) (n : Nat), n = g.toNat ∧ AtHand s q seq 2 c ∧ cF c 0x10 2 = n ∧ c.status =
      none ∧ gEpoch s n ≠ cF c 0x14 4) ∧
    (∃ (q : QIdx) (seq : W32) (c : Cmd) (g : GroupId) (s : State) (n : Nat), n = g.toNat ∧ AtHand s q seq 2 c ∧ cF c 0x10 2 = n ∧ c.status =
      none ∧ gEpoch s n = cF c 0x14 4 ∧ grpRefused s n = true) ∧
    (∃ (q : QIdx) (seq : W32) (c : Cmd) (g : GroupId) (s : State) (n : Nat), n = g.toNat ∧ AtHand s q seq 2 c ∧ cF c 0x10 2 = n ∧ c.status =
      none ∧ gEpoch s n = cF c 0x14 4 ∧ grpRefused s n = false ∧ gState s n ≠ 2 ∧ s.segs = [] ∧ s.segQ = [] ∧ s.earlySeg = [] ∧ s.waitSeg =
      [] ∧ 0 < (collSegs s q c).length ∧ (collSegs s q c).length ≤ 8) ∧
    (∃ (g : GroupId) (k : BitVec 3) (s : State) (n : Nat), n = g.toNat ∧ HostReaches s (6 + gEngine n) ∧ k.toNat < 6 ∧ gState s n ≠ 1) ∧
    (∃ (g : GroupId) (k : BitVec 3) (s : State) (n : Nat), n = g.toNat ∧ HostReaches s (6 + gEngine n) ∧ (6 ≤ k.toNat ∨ gState s n = 1)) :=
  ⟨⟨0, 7, Tests.cmd 2 (3 * 2 ^ 128 + 2 ^ 160) .admitted, 3, (Tests.withCmd (Tests.cmd 2 (3 * 2 ^ 128 + 2 ^ 160) .admitted) Tests.group), _,
    rfl, by unfold AtHand; decide +kernel, by decide +kernel, by decide +kernel, by decide +kernel⟩,
   ⟨0, 7, Tests.cmd 2 (3 * 2 ^ 128) .admitted, 3, (Tests.withCmd (Tests.cmd 2 (3 * 2 ^ 128) .admitted) State.reset), _, rfl,
    by unfold AtHand; decide +kernel, by decide +kernel, by decide +kernel, by decide +kernel, by decide +kernel⟩,
   ⟨0, 7, Tests.cmd 2 (3 * 2 ^ 128 + 0x2000 * 2 ^ 192 + 0x3000 * 2 ^ 256 + 32 * 2 ^ 320) .admitted, 3, (Tests.withCmd (Tests.cmd 2 (3 * 2 ^ 128
    + 0x2000 * 2 ^ 192 + 0x3000 * 2 ^ 256 + 32 * 2 ^ 320) .admitted) Tests.group), _, rfl, by unfold AtHand; decide +kernel,
    by decide +kernel, by decide +kernel, by decide +kernel, by decide +kernel, by decide +kernel, by decide +kernel, by decide +kernel,
    by decide +kernel, by decide +kernel, by decide +kernel, by decide +kernel⟩,
   ⟨0xFFF, 5, State.reset, _, rfl, by unfold HostReaches; decide +kernel, by decide +kernel, by decide +kernel⟩,
   ⟨0xFFF, 6, State.reset, _, rfl, by unfold HostReaches; decide +kernel, by decide +kernel⟩⟩

theorem witness_SegmentsComplete :
    (∃ (g : GroupId) (sq : BitVec 32) (seg : Seg) (q : QIdx) (seq : W32) (c : Cmd) (peers : List (Option (List Byte))) (own : List Byte) (xs :
      List (Option (List Nat))) (s : State) (n e b : Nat), n = g.toNat ∧ OneSegment s n seg ∧ seg.seq = sq.toNat ∧ seg.owner = .cmd q seq ∧
      s.cmd q seq = some c ∧ c.left = 1 ∧ c.status = none ∧ e = seg.elems ∧ b = gElemBytes s n ∧ seg.kind = 0 ∧ seg.null = false ∧ own =
      rdBytes s seg.src (e * b) ∧ (∀ i, i < e * b → addrOk s (seg.src + i) = true ∧ Clean s (seg.src + i) ∧ addrOk s (seg.dst + i) = true ∧
      Clean s (seg.dst + i)) ∧ xs = (List.range (gRanks s n)).map (fun r => if r = gMyRank s n then some (toElems b own) else (peers.getD r
      none).map (toElems b)) ∧ gState s n = 1) ∧
    (∃ (g : GroupId) (sq : BitVec 32) (seg : Seg) (q : QIdx) (seq : W32) (c : Cmd) (s : State) (n e b : Nat), n = g.toNat ∧ OneSegment s n seg ∧
      seg.seq = sq.toNat ∧ seg.owner = .cmd q seq ∧ s.cmd q seq = some c ∧ c.left = 1 ∧ c.status = none ∧ e = seg.elems ∧ b = gElemBytes s n
      ∧ seg.kind = 0 ∧ seg.null = true ∧ e ≠ 0 ∧ (seg.dst + e * b ≤ gMembersLa s n ∨ gMembersLa s n + 2 * gRanks s n ≤ seg.dst)) ∧
    (∃ (g : GroupId) (sq : BitVec 32) (seg : Seg) (q : QIdx) (seq : W32) (c : Cmd) (s : State) (n e b : Nat), n = g.toNat ∧ OneSegment s n seg ∧
      seg.seq = sq.toNat ∧ seg.owner = .cmd q seq ∧ s.cmd q seq = some c ∧ c.left = 1 ∧ c.status = none ∧ e = seg.elems ∧ b = gElemBytes s
      n) ∧
    (∃ (g : GroupId) (sq : BitVec 32) (seg : Seg) (q : QIdx) (seq : W32) (c : Cmd) (s : State) (n e b : Nat) (z : BitVec 32), n = g.toNat ∧
      OneSegment s n seg ∧ seg.seq = sq.toNat ∧ seg.owner = .cmd q seq ∧ s.cmd q seq = some c ∧ c.left = 1 ∧ c.status = none ∧ e = seg.elems
      ∧ b = gElemBytes s n ∧ z ≠ sq) :=
  ⟨⟨3, 0, Tests.seg false, 0, 7, { Tests.cmd 2 0 .running with left := 1 }, [], _, _, Tests.coll 1 false, _, _, _, rfl, ⟨rfl, rfl, rfl, rfl,
    by decide +kernel, by decide +kernel, by decide +kernel, rfl⟩, by decide +kernel, by decide +kernel, by decide +kernel,
    by decide +kernel, by decide +kernel, rfl, rfl, by decide +kernel, by decide +kernel, rfl, by unfold Clean; decide +kernel, rfl,
    by decide +kernel⟩,
   ⟨3, 0, Tests.seg true, 0, 7, { Tests.cmd 2 0 .running with left := 1 }, Tests.coll 1 true, _, _, _, rfl, ⟨rfl, rfl, rfl, rfl,
    by decide +kernel, by decide +kernel, by decide +kernel, rfl⟩, by decide +kernel, by decide +kernel, by decide +kernel,
    by decide +kernel, by decide +kernel, rfl, rfl, by decide +kernel, by decide +kernel, by decide +kernel, by decide +kernel⟩,
   ⟨3, 0, Tests.seg false, 0, 7, { Tests.cmd 2 0 .running with left := 1 }, Tests.coll 1 false, _, _, _, rfl, ⟨rfl, rfl, rfl, rfl,
    by decide +kernel, by decide +kernel, by decide +kernel, rfl⟩, by decide +kernel, by decide +kernel, by decide +kernel,
    by decide +kernel, by decide +kernel, rfl, rfl⟩,
   ⟨3, 0, Tests.seg false, 0, 7, { Tests.cmd 2 0 .running with left := 1 }, Tests.coll 1 false, _, _, _, 1, rfl, ⟨rfl, rfl, rfl, rfl,
    by decide +kernel, by decide +kernel, by decide +kernel, rfl⟩, by decide +kernel, by decide +kernel, by decide +kernel,
    by decide +kernel, by decide +kernel, rfl, rfl, by decide +kernel⟩⟩

theorem witness_CollectivePackets :
    (∃ (p : PortId) (k : Packet) (seg : Seg) (q : QIdx) (seq : W32) (c : Cmd) (s w : State) (n e : Nat), PacketHere s p k ∧ w = passed p.toNat k
      s ∧ e = gEngine n ∧ k.type = 4 ∧ k.sub = 2 ∧ n = noticeGroup k ∧ OneSegment s n seg ∧ seg.seq = pF k 0x18 4 ∧ seg.owner = .cmd q seq ∧
      s.cmd q seq = some c ∧ c.left = 1 ∧ c.status = none) ∧
    (∃ (p : PortId) (k : Packet) (seg : Seg) (q : QIdx) (seq : W32) (c : Cmd) (s w : State) (n e : Nat), PacketHere s p k ∧ w = passed p.toNat k
      s ∧ e = gEngine n ∧ k.type = 4 ∧ k.sub = 3 ∧ n = noticeGroup k ∧ OneSegment s n seg ∧ seg.owner = .cmd q seq ∧ s.cmd q seq = some c ∧
      c.left = 1 ∧ c.status = none ∧ pF k 0x14 4 = gEpoch s n ∧ gState s n ≠ 2) ∧
    (∃ (p : PortId) (k : Packet) (s w : State) (n e : Nat), PacketHere s p k ∧ w = passed p.toNat k s ∧ e = gEngine n ∧ k.type = 4 ∧ k.sub = 3 ∧
      n = noticeGroup k ∧ pF k 0x14 4 ≠ gEpoch s n) ∧
    (∃ (p : PortId) (k : Packet) (s w : State) (n e : Nat), PacketHere s p k ∧ w = passed p.toNat k s ∧ e = gEngine n ∧ k.type = 5 ∧ n = sgGroup
      k ∧ n < 4096 ∧ s.domOn (6 + e) = true ∧ sgEpoch k ≠ gEpoch s n ∧ bit (routeEntry s k.src) 31 = false) ∧
    (∃ (p : PortId) (k : Packet) (s w : State) (n e : Nat), PacketHere s p k ∧ w = passed p.toNat k s ∧ e = gEngine n ∧ k.type = 5 ∧ n = sgGroup
      k ∧ n < 4096 ∧ s.domOn (6 + e) = true ∧ sgEpoch k = gEpoch s n ∧ gState s n = 2) ∧
    (∃ (p : PortId) (k : Packet) (s w : State) (n e : Nat), PacketHere s p k ∧ w = passed p.toNat k s ∧ e = gEngine n ∧ k.type = 5 ∧ n = sgGroup
      k ∧ n < 4096 ∧ s.domOn (6 + e) = true ∧ sgEpoch k = gEpoch s n ∧ gState s n ≠ 2 ∧ findSeg s n (sgSeq k) = none ∧ sgSeq k = gSeq s n ∧
      segRoom s k = true) ∧
    (∃ (p : PortId) (k : Packet) (s w : State) (n e : Nat), PacketHere s p k ∧ w = passed p.toNat k s ∧ e = gEngine n ∧ k.type = 5 ∧ n = sgGroup
      k ∧ n < 4096 ∧ s.domOn (6 + e) = true ∧ sgEpoch k = gEpoch s n ∧ gState s n ≠ 2 ∧ findSeg s n (sgSeq k) = none ∧ sgSeq k = gSeq s n ∧
      segRoom s k = false) ∧
    (∃ (p : PortId) (k : Packet) (seg : Seg) (s w : State) (n e : Nat), PacketHere s p k ∧ w = passed p.toNat k s ∧ e = gEngine n ∧ k.type = 5 ∧
      n = sgGroup k ∧ n < 4096 ∧ s.domOn (6 + e) = true ∧ sgEpoch k = gEpoch s n ∧ gState s n ≠ 2 ∧ findSeg s n (sgSeq k) = some seg ∧
      seg.label = sgLabel k) ∧
    (∃ (p : PortId) (k : Packet) (seg : Seg) (q : QIdx) (seq : W32) (c : Cmd) (s w : State) (n e : Nat), PacketHere s p k ∧ w = passed p.toNat k
      s ∧ e = gEngine n ∧ k.type = 5 ∧ n = sgGroup k ∧ n < 4096 ∧ s.domOn (6 + e) = true ∧ sgEpoch k = gEpoch s n ∧ gState s n ≠ 2 ∧
      OneSegment s n seg ∧ seg.seq = sgSeq k ∧ seg.owner = .cmd q seq ∧ s.cmd q seq = some c ∧ c.left = 1 ∧ c.status = none ∧ seg.label ≠
      sgLabel k) ∧
    (∃ (p : PortId) (k : Packet) (seg : Seg) (q : QIdx) (seq : W32) (c : Cmd) (s w : State) (n e : Nat), PacketHere s p k ∧ w = passed p.toNat k
      s ∧ e = gEngine n ∧ k.type = 5 ∧ n = sgGroup k ∧ n < 4096 ∧ s.domOn (6 + e) = true ∧ sgEpoch k = gEpoch s n ∧ gState s n ≠ 2 ∧
      OneSegment s n seg ∧ seg.seq = sgSeq k ∧ seg.owner = .cmd q seq ∧ s.cmd q seq = some c ∧ c.left = 1 ∧ c.status = none) :=
  ⟨⟨0, Tests.pk (4 + 2 * 2 ^ 8 + 3 * 2 ^ 128) ([]), Tests.seg false, 0, 7, { Tests.cmd 2 0 .running with left := 1 }, (Tests.put
    [(R.MOSP_STATUS 0, F.MOSP_STATUS_STATE, 2)] (Tests.coll 1 false)), _, _, _, by unfold PacketHere; decide +kernel, rfl, rfl,
    by decide +kernel, by decide +kernel, rfl, ⟨rfl, rfl, rfl, rfl, by decide +kernel, by decide +kernel, by decide +kernel, rfl⟩,
    by decide +kernel, by decide +kernel, by decide +kernel, by decide +kernel, by decide +kernel⟩,
   ⟨0, Tests.pk (4 + 3 * 2 ^ 8 + 3 * 2 ^ 128) ([]), Tests.seg false, 0, 7, { Tests.cmd 2 0 .running with left := 1 }, (Tests.put
    [(R.MOSP_STATUS 0, F.MOSP_STATUS_STATE, 2)] (Tests.coll 1 false)), _, _, _, by unfold PacketHere; decide +kernel, rfl, rfl,
    by decide +kernel, by decide +kernel, rfl, ⟨rfl, rfl, rfl, rfl, by decide +kernel, by decide +kernel, by decide +kernel, rfl⟩,
    by decide +kernel, by decide +kernel, by decide +kernel, by decide +kernel, by decide +kernel, by decide +kernel⟩,
   ⟨0, Tests.pk (4 + 3 * 2 ^ 8 + 3 * 2 ^ 128 + 2 ^ 160) ([]), (Tests.put [(R.MOSP_STATUS 0, F.MOSP_STATUS_STATE, 2)] (Tests.coll 1 false)), _,
    _, _, by unfold PacketHere; decide +kernel, rfl, rfl, by decide +kernel, by decide +kernel, rfl, by decide +kernel⟩,
   ⟨0, Tests.pk (5 + 2 ^ 128 + 3 * 2 ^ 192) ([]), (Tests.put [(R.MOSP_STATUS 0, F.MOSP_STATUS_STATE, 2)] (Tests.coll 1 false)), _, _, _,
    by unfold PacketHere; decide +kernel, rfl, rfl, by decide +kernel, rfl, by decide +kernel, by decide +kernel, by decide +kernel,
    by decide +kernel⟩,
   ⟨0, Tests.pk (5 + 3 * 2 ^ 192) ([]), (Tests.put [(R.MOSP_STATUS 0, F.MOSP_STATUS_STATE, 2)] (Tests.coll 2 false)), _, _, _,
    by unfold PacketHere; decide +kernel, rfl, rfl, by decide +kernel, rfl, by decide +kernel, by decide +kernel, by decide +kernel,
    by decide +kernel⟩,
   ⟨0, Tests.pk (5 + 3 * 2 ^ 192) ([]), (Tests.put [(R.MOSP_STATUS 0, F.MOSP_STATUS_STATE, 2)] ({ Tests.coll 1 false with segs := [] })), _, _,
    _, by unfold PacketHere; decide +kernel, rfl, rfl, by decide +kernel, rfl, by decide +kernel, by decide +kernel, by decide +kernel,
    by decide +kernel, by decide +kernel, by decide +kernel, by decide +kernel⟩,
   ⟨0, Tests.pk (5 + 3 * 2 ^ 192) ([]), (Tests.put [(R.MOSP_STATUS 0, F.MOSP_STATUS_STATE, 2)]
    ({ Tests.coll 1 false with segs := List.replicate 8 { Tests.seg false with group := 7 } })), _, _, _,
    by unfold PacketHere; decide +kernel, rfl, rfl, by decide +kernel, rfl, by decide +kernel, by decide +kernel, by decide +kernel,
    by decide +kernel, by decide +kernel, by decide +kernel, by decide +kernel⟩,
   ⟨0, Tests.pk (5 + 3 * 2 ^ 192) ([]), Tests.seg false, (Tests.put [(R.MOSP_STATUS 0, F.MOSP_STATUS_STATE, 2)] (Tests.coll 1 false)), _, _, _,
    by unfold PacketHere; decide +kernel, rfl, rfl, by decide +kernel, rfl, by decide +kernel, by decide +kernel, by decide +kernel,
    by decide +kernel, by decide +kernel, by decide +kernel⟩,
   ⟨0, Tests.pk (5 + 3 * 2 ^ 192 + 2 ^ 208) ([]), Tests.seg false, 0, 7, { Tests.cmd 2 0 .running with left := 1 }, (Tests.put [(R.MOSP_STATUS
    0, F.MOSP_STATUS_STATE, 2)] (Tests.coll 1 false)), _, _, _, by unfold PacketHere; decide +kernel, rfl, rfl, by decide +kernel, rfl,
    by decide +kernel, by decide +kernel, by decide +kernel, by decide +kernel, ⟨rfl, rfl, rfl, rfl, by decide +kernel, by decide +kernel,
    by decide +kernel, rfl⟩, by decide +kernel, by decide +kernel, by decide +kernel, by decide +kernel, by decide +kernel,
    by decide +kernel⟩,
   ⟨0, Tests.pk (5 + 3 * 2 ^ 192) ([]), Tests.seg false, 0, 7, { Tests.cmd 2 0 .running with left := 1 }, (Tests.put [(R.MOSP_STATUS 0,
    F.MOSP_STATUS_STATE, 2)] (Tests.coll 1 false)), _, _, _, by unfold PacketHere; decide +kernel, rfl, rfl, by decide +kernel, rfl,
    by decide +kernel, by decide +kernel, by decide +kernel, by decide +kernel, ⟨rfl, rfl, rfl, rfl, by decide +kernel, by decide +kernel,
    by decide +kernel, rfl⟩, by decide +kernel, by decide +kernel, by decide +kernel, by decide +kernel, by decide +kernel⟩⟩

theorem witness_MeshCounts :
    ∃ (m : MeshMove) (u : TileId), (m.stack = none → u = m.dst) ∧ (∀ k, m.stack = some k → u = tileAt (max (8 * (k.toNat % 8)) (min (tileX
      m.src) (8 * (k.toNat % 8) + 7))) (if k.toNat < 8 then 0 else 31)) :=
  ⟨⟨none, 5, 2047, some 15, 64⟩, tileAt 56 31, nofun, fun k h => by cases h; decide +kernel⟩

theorem witness_LedgerTicks :
    (∃ (units : List EventCount) (moves : List MeshMove) (ups : List Upset) (tj : BitVec 8) (brake : Bool) (s u : State) (m : Nat) (counts :
      List EventCount), counts = tickCounts units moves ∧ m = tickMode s counts tj.toNat brake ∧ u = ups.foldl (fun s x => upset x s) s ∧
      s.domOn (hostCtl s) = false) ∧
    (∃ (units : List EventCount) (moves : List MeshMove) (ups : List Upset) (tj : BitVec 8) (brake : Bool) (s u : State) (m : Nat) (counts :
      List EventCount), counts = tickCounts units moves ∧ m = tickMode s counts tj.toNat brake ∧ u = ups.foldl (fun s x => upset x s) s ∧
      TicksAlone s counts ∧ s.queues = []) ∧
    (∃ (units : List EventCount) (moves : List MeshMove) (ups : List Upset) (tj : BitVec 8) (brake : Bool) (s u : State) (m : Nat) (q : QIdx) (h
      : HostQueue) (c : Cmd) (counts : List EventCount), counts = tickCounts units moves ∧ m = tickMode s counts tj.toNat brake ∧ u =
      ups.foldl (fun s x => upset x s) s ∧ TicksAlone s counts ∧ s.queues = [(q.toNat, h)] ∧ h.cmds = [c] ∧ c.phase = .candidate ∧ c.wait <
      maxDefer s ∧ eligible s q c = true ∧ cqHalted s q = false ∧ m = 0 ∧ ledgFixed s = false ∧ (((estimate s c (ledgDiv s)).1 : Nat) : Int)
      ≤ tickBalance s counts ∧ peakNow s (ledgDiv s) + peakOf s c (ledgDiv s) ≤ peakMax s ∧ ledgDiv s ≤ candDiv c ∧ needsDrained s c =
      false) ∧
    (∃ (units : List EventCount) (moves : List MeshMove) (ups : List Upset) (tj : BitVec 8) (brake : Bool) (s u : State) (m : Nat) (q : QIdx) (h
      : HostQueue) (c : Cmd) (counts : List EventCount), counts = tickCounts units moves ∧ m = tickMode s counts tj.toNat brake ∧ u =
      ups.foldl (fun s x => upset x s) s ∧ TicksAlone s counts ∧ s.queues = [(q.toNat, h)] ∧ h.cmds = [c] ∧ c.phase = .candidate ∧ c.wait <
      maxDefer s ∧ eligible s q c = true ∧ cqHalted s q = false ∧ m = 0 ∧ ledgFixed s = false ∧ (∀ d, d ≤ 3 → tickBalance s counts <
      (((estimate s c d).1 : Nat) : Int))) :=
  ⟨⟨[], [], [], 50, false, (Tests.put [(R.PDC_DOM_STAT 1, F.PDC_DOM_STAT_STATE, 0)] State.reset), _, _, _, rfl, rfl, rfl, by decide +kernel⟩,
   ⟨[], [], [], 50, false, State.reset, _, _, _, rfl, rfl, rfl, by unfold TicksAlone; decide +kernel, by decide +kernel⟩,
   ⟨[], [], [], 50, false, ((Tests.put [(R.QSTAT 0, F.QSTAT_STATE, 1)] State.reset).modQueue 0 (fun h =>
    { h with cmds := [Tests.cmd 0 0 .candidate] })), _, _, 0, { HostQueue.reset with cmds := [Tests.cmd 0 0 .candidate] }, Tests.cmd 0 0
    .candidate, _, rfl, rfl, rfl, by unfold TicksAlone; decide +kernel, by decide +kernel, by decide +kernel, by decide +kernel,
    by decide +kernel, by decide +kernel, by decide +kernel, by decide +kernel, by decide +kernel, by decide +kernel, by decide +kernel,
    by decide +kernel, by decide +kernel⟩,
   ⟨[], [], [], 50, false,
    { ((Tests.put [(R.QSTAT 0, F.QSTAT_STATE, 1)] State.reset).modQueue 0 (fun h => { h with cmds := [Tests.cmd 0 0 .candidate] })) with ledger := { Ledger.reset with bal := -5 * 10 ^ 10 } },
    _, _, 0, { HostQueue.reset with cmds := [Tests.cmd 0 0 .candidate] }, Tests.cmd 0 0 .candidate, _, rfl, rfl, rfl,
    by unfold TicksAlone; decide +kernel, by decide +kernel, by decide +kernel, by decide +kernel, by decide +kernel, by decide +kernel,
    by decide +kernel, by decide +kernel, by decide +kernel, by decide +kernel⟩⟩

theorem witness_LedgerEvents :
    (∃ (s : State), s.domOn (hostCtl s) = true) ∧
    (∃ (s : State) (k : Nat), s.domOn (hostCtl s) = true ∧ s.ledger.silicon = k ∧ k ≠ 0) ∧
    (∃ s : State, ∃ c, s.ledger.volt = none ∧ c ∈ [Instr.avsVdone, .avsAttemptTimeout]) ∧
    (∃ (s : State) (d t : Nat) (nx : Option Nat), s.ledger.volt = some t ∧ s.ledger.goal = some d ∧ d ≤ 3 ∧ s.ledger.next = nx) ∧
    (∃ (s : State) (t : Nat) (nx : Option Nat), s.ledger.volt = some t ∧ s.ledger.goal = none ∧ s.ledger.next = nx) ∧
    (∃ (s : State) (t : Nat), s.ledger.volt = some t ∧ s.ledger.tries < 2) ∧
    (∃ (s : State) (t : Nat), s.ledger.volt = some t ∧ 2 ≤ s.ledger.tries ∧ s.mgmt.receiver = none) ∧
    (∃ (s : State), HostReaches s (hostCtl s)) :=
  ⟨⟨State.reset, by decide +kernel⟩,
   ⟨{ State.reset with ledger := { Ledger.reset with silicon := 1 } }, 1, by decide +kernel, by decide +kernel, by decide +kernel⟩,
   ⟨State.reset, _, by decide +kernel, List.mem_cons_self⟩,
   ⟨{ State.reset with ledger := { Ledger.reset with volt := some 160, goal := some 3 } }, 3, 160, none, by decide +kernel, by decide +kernel,
    by decide +kernel, by decide +kernel⟩,
   ⟨{ State.reset with ledger := { Ledger.reset with volt := some 160 } }, 160, none, by decide +kernel, by decide +kernel, by decide +kernel⟩,
   ⟨{ State.reset with ledger := { Ledger.reset with volt := some 160, tries := 1 } }, 160, by decide +kernel, by decide +kernel⟩,
   ⟨{ State.reset with ledger := { Ledger.reset with volt := some 160, tries := 2 } }, 160, by decide +kernel, by decide +kernel,
    by decide +kernel⟩,
   ⟨State.reset, by unfold HostReaches; decide +kernel⟩⟩

theorem witness_DomainsComeUp :
    (∃ (d : DomId) (s : State) (n : Nat), n = d.toNat ∧ isDom n = true ∧ Settled s ∧ dst s n = 1 ∧ 16 ≤ n) ∧
    (∃ (d : DomId) (s : State) (n : Nat), n = d.toNat ∧ isDom n = true ∧ Settled s ∧ dst s n = 1 ∧ n < 16 ∧ n ≠ 3) ∧
    (∃ (d : DomId) (s : State) (n : Nat), n = d.toNat ∧ isDom n = true ∧ Settled s ∧ dst s n ≠ 1) ∧
    (∃ (d : DomId) (s : State) (n : Nat), n = d.toNat ∧ isDom n = true ∧ Settled s ∧ dst s n = 2 ∧ isCd n = true) ∧
    (∃ (d : DomId) (s : State) (n : Nat), n = d.toNat ∧ isDom n = true ∧ Settled s ∧ dst s n = 2 ∧ isStk n = true) ∧
    (∃ d : DomId, ∃ s : State, ∃ n : Nat, ∃ c, n = d.toNat ∧ isDom n = true ∧ Settled s ∧ dst s n ≠ 2 ∧ c ∈ [Instr.domainInitDone d,
      .domainInitTimeout d]) ∧
    (∃ (d : DomId) (s : State) (n : Nat), n = d.toNat ∧ isDom n = true ∧ Settled s ∧ dst s n = 7 ∧ isStk n = true) ∧
    (∃ (d : DomId) (s : State) (n : Nat), n = d.toNat ∧ isDom n = true ∧ Settled s ∧ dst s n = 7 ∧ isCd n = true) ∧
    (∃ d : DomId, ∃ s : State, ∃ n : Nat, ∃ c, n = d.toNat ∧ isDom n = true ∧ Settled s ∧ (c ∈ [(Instr.domainPowerUpTimeout d, dst s n = 1 ∨ dst
      s n = 7), (.domainInitTimeout d, dst s n = 2 ∧ 16 ≤ n)]) ∧ c.2 ∧ UnitDomain n ∧ tries s n < 2 ∧ needsOk s n = true) ∧
    (∃ d : DomId, ∃ s : State, ∃ n : Nat, ∃ c, n = d.toNat ∧ isDom n = true ∧ Settled s ∧ (c ∈ [(Instr.domainPowerUpTimeout d, dst s n = 1 ∨ dst
      s n = 7), (.domainInitTimeout d, dst s n = 2 ∧ 16 ≤ n)]) ∧ c.2 ∧ UnitDomain n ∧ tries s n = 2 ∧ s.mgmt.receiver = none) ∧
    (∃ (d : DomId) (s : State) (n : Nat), n = d.toNat ∧ isDom n = true ∧ Settled s ∧ dst s (standbyCtl s) = 3 ∧ s.domOn (hostCtl s) = true ∧
      s.power.fenced = false) ∧
    (∃ (d : DomId) (s : State) (n : Nat), n = d.toNat ∧ isDom n = true ∧ Settled s ∧ (dst s (standbyCtl s) ≠ 3 ∨ s.power.fenced = true)) :=
  ⟨⟨63, (Tests.put [(R.PDC_DOM_STAT 63, F.PDC_DOM_STAT_STATE, 1)] State.reset), _, rfl, by decide +kernel, ⟨by decide +kernel,
    by decide +kernel, by decide +kernel, by decide +kernel, by decide +kernel⟩, by decide +kernel, by decide +kernel⟩,
   ⟨9, (Tests.put [(R.PDC_DOM_STAT 9, F.PDC_DOM_STAT_STATE, 1)] State.reset), _, rfl, by decide +kernel, ⟨by decide +kernel, by decide +kernel,
    by decide +kernel, by decide +kernel, by decide +kernel⟩, by decide +kernel, by decide +kernel, by decide +kernel⟩,
   ⟨48, (Tests.put [(R.PDC_DOM_STAT 48, F.PDC_DOM_STAT_STATE, 3)] State.reset), _, rfl, by decide +kernel, ⟨by decide +kernel,
    by decide +kernel, by decide +kernel, by decide +kernel, by decide +kernel⟩, by decide +kernel⟩,
   ⟨16, (Tests.put [(R.PDC_DOM_STAT 16, F.PDC_DOM_STAT_STATE, 2)] State.reset), _, rfl, by decide +kernel, ⟨by decide +kernel,
    by decide +kernel, by decide +kernel, by decide +kernel, by decide +kernel⟩, by decide +kernel, by decide +kernel⟩,
   ⟨63, (Tests.put [(R.PDC_DOM_STAT 63, F.PDC_DOM_STAT_STATE, 2)] State.reset), _, rfl, by decide +kernel, ⟨by decide +kernel,
    by decide +kernel, by decide +kernel, by decide +kernel, by decide +kernel⟩, by decide +kernel, by decide +kernel⟩,
   ⟨16, (Tests.put [(R.PDC_DOM_STAT 16, F.PDC_DOM_STAT_STATE, 3)] State.reset), _, _, rfl, by decide +kernel, ⟨by decide +kernel,
    by decide +kernel, by decide +kernel, by decide +kernel, by decide +kernel⟩, by decide +kernel, List.mem_cons_self⟩,
   ⟨48, (Tests.put [(R.PDC_DOM_STAT 48, F.PDC_DOM_STAT_STATE, 7)] State.reset), _, rfl, by decide +kernel, ⟨by decide +kernel,
    by decide +kernel, by decide +kernel, by decide +kernel, by decide +kernel⟩, by decide +kernel, by decide +kernel⟩,
   ⟨47, (Tests.put [(R.PDC_DOM_STAT 47, F.PDC_DOM_STAT_STATE, 7)] State.reset), _, rfl, by decide +kernel, ⟨by decide +kernel,
    by decide +kernel, by decide +kernel, by decide +kernel, by decide +kernel⟩, by decide +kernel, by decide +kernel⟩,
   ⟨16, (Tests.put [(R.PDC_DOM_STAT 16, F.PDC_DOM_STAT_STATE, 7), (R.PDC_DOM_STAT 16, F.PDC_DOM_STAT_TRIES, 1)] State.reset), _, _, rfl,
    by decide +kernel, ⟨by decide +kernel, by decide +kernel, by decide +kernel, by decide +kernel, by decide +kernel⟩, List.mem_cons_self,
    by show dst _ _ = 1 ∨ dst _ _ = 7; decide +kernel, by unfold UnitDomain; decide +kernel, by decide +kernel, by decide +kernel⟩,
   ⟨48, (Tests.put [(R.PDC_DOM_STAT 48, F.PDC_DOM_STAT_STATE, 2), (R.PDC_DOM_STAT 48, F.PDC_DOM_STAT_TRIES, 2)] State.reset), _, _, rfl,
    by decide +kernel, ⟨by decide +kernel, by decide +kernel, by decide +kernel, by decide +kernel, by decide +kernel⟩, List.mem_cons_of_mem
    _ (List.mem_cons_self), by show dst _ _ = 2 ∧ _ ≤ _; decide +kernel, by unfold UnitDomain; decide +kernel, by decide +kernel,
    by decide +kernel⟩,
   ⟨9, (Tests.put [(R.PDC_DOM_STAT 9, F.PDC_DOM_STAT_STATE, 3)] State.reset), _, rfl, by decide +kernel, ⟨by decide +kernel, by decide +kernel,
    by decide +kernel, by decide +kernel, by decide +kernel⟩, by decide +kernel, by decide +kernel, by decide +kernel⟩,
   ⟨9, (Tests.put [(R.PDC_DOM_STAT 9, F.PDC_DOM_STAT_STATE, 3), (R.PDC_DOM_STAT 2, F.PDC_DOM_STAT_STATE, 0)] State.reset), _, rfl,
    by decide +kernel, ⟨by decide +kernel, by decide +kernel, by decide +kernel, by decide +kernel, by decide +kernel⟩, by decide +kernel⟩⟩

theorem witness_DomainsGoDown :
    (∃ d : DomId, ∃ s : State, ∃ n : Nat, ∃ r, n = d.toNat ∧ isDom n = true ∧ Settled s ∧ dst s n = 4 ∧ drained s n = true ∧ s.power.warm = [] ∧
      mfind s.power.target n = some r) ∧
    (∃ (d : DomId) (s : State) (n : Nat), n = d.toNat ∧ isDom n = true ∧ Settled s ∧ drained s n = false) ∧
    (∃ (d : DomId) (l : BitVec 5) (s : State) (n : Nat), n = d.toNat ∧ isDom n = true ∧ Settled s ∧ dst s n = 5 ∧ n ≠ 0 ∧ (l.toNat.land
      0x0D).land (rget s R.PDC_WAKE_EN F.PDC_WAKE_EN_EN) = 0) ∧
    (∃ (d : DomId) (s : State) (n : Nat), n = d.toNat ∧ isDom n = true ∧ Settled s ∧ dst s n ≠ 5) ∧
    (∃ (d : DomId) (s : State) (n : Nat), n = d.toNat ∧ isDom n = true ∧ Settled s ∧ dst s n = 8 ∧ UnitDomain n) ∧
    (∃ (d : DomId) (s : State) (n : Nat), n = d.toNat ∧ isDom n = true ∧ Settled s ∧ dst s n ≠ 8) ∧
    (∃ (d : DomId) (t : TileId) (s : State) (n : Nat), n = d.toNat ∧ isDom n = true ∧ Settled s ∧ isCd n = true ∧ tileDie t = n - 16 ∧
      s.tileDraining t = true) ∧
    (∃ d : DomId, ∃ s : State, ∃ n : Nat, ∃ j, n = d.toNat ∧ isDom n = true ∧ Settled s ∧ isStk n = true ∧ dst s n = 4 ∧ curJob s (n - 48) =
      some j) ∧
    (∃ (d : DomId) (s : State) (n : Nat), n = d.toNat ∧ isDom n = true ∧ Settled s ∧ isFio n = true ∧ dst s n = 4) ∧
    (∃ (d : DomId) (s : State) (n : Nat), n = d.toNat ∧ isDom n = true ∧ Settled s ∧ dst s n ≠ 4 ∧ s.power.warm = [] ∧ isCd n = false) :=
  ⟨⟨16, (Tests.put [(R.PDC_DOM_STAT 16, F.PDC_DOM_STAT_STATE, 4)] { State.reset with power := { Power.reset with target := [(16, 0)] } }), _,
    0, rfl, by decide +kernel, ⟨by decide +kernel, by decide +kernel, by decide +kernel, by decide +kernel, by decide +kernel⟩,
    by decide +kernel, by decide +kernel, by decide +kernel, by decide +kernel⟩,
   ⟨48, (Tests.put [(R.PDC_DOM_STAT 48, F.PDC_DOM_STAT_STATE, 4)]
    { State.reset with abl := [(0, [⟨0, .cmd 0 7, .held, [], false, false, false⟩])] }), _, rfl, by decide +kernel, ⟨by decide +kernel,
    by decide +kernel, by decide +kernel, by decide +kernel, by decide +kernel⟩, by decide +kernel⟩,
   ⟨16, 0, (Tests.put [(R.PDC_DOM_STAT 16, F.PDC_DOM_STAT_STATE, 5)] State.reset), _, rfl, by decide +kernel, ⟨by decide +kernel,
    by decide +kernel, by decide +kernel, by decide +kernel, by decide +kernel⟩, by decide +kernel, by decide +kernel, by decide +kernel⟩,
   ⟨16, (Tests.put [(R.PDC_DOM_STAT 16, F.PDC_DOM_STAT_STATE, 3)] State.reset), _, rfl, by decide +kernel, ⟨by decide +kernel,
    by decide +kernel, by decide +kernel, by decide +kernel, by decide +kernel⟩, by decide +kernel⟩,
   ⟨63, (Tests.put [(R.PDC_DOM_STAT 63, F.PDC_DOM_STAT_STATE, 8)] State.reset), _, rfl, by decide +kernel, ⟨by decide +kernel,
    by decide +kernel, by decide +kernel, by decide +kernel, by decide +kernel⟩, by decide +kernel, by unfold UnitDomain; decide +kernel⟩,
   ⟨63, (Tests.put [(R.PDC_DOM_STAT 63, F.PDC_DOM_STAT_STATE, 3)] State.reset), _, rfl, by decide +kernel, ⟨by decide +kernel,
    by decide +kernel, by decide +kernel, by decide +kernel, by decide +kernel⟩, by decide +kernel⟩,
   ⟨16, 5, (Tests.put [(R.PDC_DOM_STAT 16, F.PDC_DOM_STAT_STATE, 3), (R.TILE_STATE 5, F.TILE_STATE_STATE, 2)] State.reset), _, rfl,
    by decide +kernel, ⟨by decide +kernel, by decide +kernel, by decide +kernel, by decide +kernel, by decide +kernel⟩, by decide +kernel,
    by decide +kernel, by decide +kernel⟩,
   ⟨48, (Tests.put [(R.PDC_DOM_STAT 48, F.PDC_DOM_STAT_STATE, 4)]
    { State.reset with abl := [(0, [⟨0, .cmd 0 7, .writing, [], false, false, false⟩])] }), _, ⟨0, .cmd 0 7, .writing, [], false, false,
    false⟩, rfl, by decide +kernel, ⟨by decide +kernel, by decide +kernel, by decide +kernel, by decide +kernel, by decide +kernel⟩,
    by decide +kernel, by decide +kernel, by decide +kernel⟩,
   ⟨9, (Tests.put [(R.PDC_DOM_STAT 9, F.PDC_DOM_STAT_STATE, 4)] State.reset), _, rfl, by decide +kernel, ⟨by decide +kernel, by decide +kernel,
    by decide +kernel, by decide +kernel, by decide +kernel⟩, by decide +kernel, by decide +kernel⟩,
   ⟨48, (Tests.put [(R.PDC_DOM_STAT 48, F.PDC_DOM_STAT_STATE, 3)] State.reset), _, rfl, by decide +kernel, ⟨by decide +kernel,
    by decide +kernel, by decide +kernel, by decide +kernel, by decide +kernel⟩, by decide +kernel, by decide +kernel, by decide +kernel⟩⟩

theorem witness_PowerRequests :
    (∃ (m : BitVec 2) (d : DomId) (s : State) (n : Nat), n = d.toNat ∧ HostReaches s 0 ∧ (tripped s = true ∨ s.power.off ≠ none) ∧ m ≠ 2) ∧
    (∃ (m : BitVec 2) (d : DomId) (s : State) (n : Nat), n = d.toNat ∧ HostReaches s 0 ∧ tripped s = false ∧ s.power.off = none ∧ Settled s ∧ (∀
      k ∈ domIds, dst s k = 3) ∧ m = 0) ∧
    (∃ (m : BitVec 2) (d : DomId) (s : State) (n : Nat), n = d.toNat ∧ HostReaches s 0 ∧ tripped s = false ∧ s.power.off = none ∧ Settled s ∧ (∀
      k ∈ domIds, dst s k = 3) ∧ m = 2) ∧
    (∃ (d : DomId) (s : State) (n : Nat), n = d.toNat ∧ HostReaches s 0 ∧ isDom n = false) ∧
    (∃ (d : DomId) (s : State) (n : Nat), n = d.toNat ∧ HostReaches s 0 ∧ isDom n = true ∧ rbit s R.PDC_CTL F.PDC_CTL_EXPERT = false) ∧
    (∃ d : DomId, ∃ x : BitVec 4, ∃ s : State, ∃ n : Nat, ∃ r, n = d.toNat ∧ HostReaches s 0 ∧ isCd n = true ∧ rbit s R.PDC_CTL F.PDC_CTL_EXPERT
      = true ∧ Settled s ∧ (r = 0 ∨ r = 1) ∧ x.toNat % 8 = r ∧ dst s n = 3) ∧
    (∃ (d : DomId) (x : BitVec 4) (s : State) (n : Nat), n = d.toNat ∧ HostReaches s 0 ∧ isCd n = true ∧ rbit s R.PDC_CTL F.PDC_CTL_EXPERT =
      true ∧ Settled s ∧ x.toNat % 4 = 2 ∧ dst s n = 0 ∧ canPower s = true ∧ needsOk s n = true) ∧
    (∃ (d : DomId) (x : BitVec 4) (s : State) (n : Nat), n = d.toNat ∧ HostReaches s 0 ∧ isCd n = true ∧ rbit s R.PDC_CTL F.PDC_CTL_EXPERT =
      true ∧ Settled s ∧ x.toNat % 4 = 2 ∧ dst s n = 6 ∧ needsOk s n = true) ∧
    (∃ (d : DomId) (x : BitVec 4) (s : State) (n : Nat), n = d.toNat ∧ HostReaches s 0 ∧ isCd n = true ∧ rbit s R.PDC_CTL F.PDC_CTL_EXPERT =
      true ∧ Settled s ∧ x.toNat % 4 = 2 ∧ dst s n = 4) :=
  ⟨⟨0, 0, (Tests.put [(R.PDC_TRIP, F.PDC_TRIP_TRIPPED, 1)] State.reset), _, rfl, by unfold HostReaches; decide +kernel, by decide +kernel,
    by decide +kernel⟩,
   ⟨_, 0, State.reset, _, rfl, by unfold HostReaches; decide +kernel, by decide +kernel, by decide +kernel, ⟨by decide +kernel,
    by decide +kernel, by decide +kernel, by decide +kernel, by decide +kernel⟩, by decide +kernel, rfl⟩,
   ⟨2, 0, State.reset, _, rfl, by unfold HostReaches; decide +kernel, by decide +kernel, by decide +kernel, ⟨by decide +kernel,
    by decide +kernel, by decide +kernel, by decide +kernel, by decide +kernel⟩, by decide +kernel, by decide +kernel⟩,
   ⟨10, State.reset, _, rfl, by unfold HostReaches; decide +kernel, by decide +kernel⟩,
   ⟨63, State.reset, _, rfl, by unfold HostReaches; decide +kernel, by decide +kernel, by decide +kernel⟩,
   ⟨16, 1, (Tests.put [(R.PDC_DOM_STAT 16, F.PDC_DOM_STAT_STATE, 3), (R.PDC_CTL, F.PDC_CTL_EXPERT, 1)] State.reset), _, 1, rfl,
    by unfold HostReaches; decide +kernel, by decide +kernel, by decide +kernel, ⟨by decide +kernel, by decide +kernel, by decide +kernel,
    by decide +kernel, by decide +kernel⟩, by decide +kernel, by decide +kernel, by decide +kernel⟩,
   ⟨47, 2, (Tests.put [(R.PDC_DOM_STAT 47, F.PDC_DOM_STAT_STATE, 0), (R.PDC_CTL, F.PDC_CTL_EXPERT, 1)] State.reset), _, rfl,
    by unfold HostReaches; decide +kernel, by decide +kernel, by decide +kernel, ⟨by decide +kernel, by decide +kernel, by decide +kernel,
    by decide +kernel, by decide +kernel⟩, by decide +kernel, by decide +kernel, by decide +kernel, by decide +kernel⟩,
   ⟨47, 2, (Tests.put [(R.PDC_DOM_STAT 47, F.PDC_DOM_STAT_STATE, 6), (R.PDC_CTL, F.PDC_CTL_EXPERT, 1)] State.reset), _, rfl,
    by unfold HostReaches; decide +kernel, by decide +kernel, by decide +kernel, ⟨by decide +kernel, by decide +kernel, by decide +kernel,
    by decide +kernel, by decide +kernel⟩, by decide +kernel, by decide +kernel, by decide +kernel⟩,
   ⟨47, 2, (Tests.put [(R.PDC_DOM_STAT 47, F.PDC_DOM_STAT_STATE, 4), (R.PDC_CTL, F.PDC_CTL_EXPERT, 1)] State.reset), _, rfl,
    by unfold HostReaches; decide +kernel, by decide +kernel, by decide +kernel, ⟨by decide +kernel, by decide +kernel, by decide +kernel,
    by decide +kernel, by decide +kernel⟩, by decide +kernel, by decide +kernel⟩⟩

theorem witness_WakeAndFrost :
    (∃ (srcs : BitVec 5) (s : State) (v : Nat), v = srcs.toNat.land (rget s R.PDC_WAKE_EN F.PDC_WAKE_EN_EN) ∧ dst s 0 ≠ 6 ∧ (v = 0 ∨ s.power.off
      = some .input)) ∧
    (∃ (srcs : BitVec 5) (s : State) (v : Nat), v = srcs.toNat.land (rget s R.PDC_WAKE_EN F.PDC_WAKE_EN_EN) ∧ dst s 0 ≠ 6 ∧ v ≠ 0 ∧ s.power.off
      = none ∧ (∀ n ∈ domIds, dst s n ≠ 6 ∧ dst s n ≠ 8)) ∧
    (∃ (srcs : BitVec 5) (s : State) (v : Nat), v = (srcs.toNat.land 0x12).land (rget s R.PDC_WAKE_EN F.PDC_WAKE_EN_EN) ∧ dst s 0 = 6 ∧ v ≠ 0 ∧
      s.power.off = none) ∧
    (∃ (s : State), dst s 0 ≠ 6) ∧
    (∃ (srcs : BitVec 5) (l : List (Nat × Int)) (s : State) (v : Nat), v = (if thermLevel s l then (srcs.toNat.land 0x0D).lor 8 else
      srcs.toNat.land 0x0D) ∧ dst s 0 = 6 ∧ v.land (rget s R.PDC_WAKE_EN F.PDC_WAKE_EN_EN) = 0 ∧ (∀ p ∈ l, 1 ≤ p.1 ∧ p.1 ≤ 78) ∧ (l.map
      (·.1)).Nodup) :=
  ⟨⟨0, State.reset, _, rfl, by decide +kernel, by decide +kernel⟩,
   ⟨2, (Tests.put [(R.PDC_WAKE_EN, F.PDC_WAKE_EN_EN, 31)] State.reset), _, rfl, by decide +kernel, by decide +kernel, by decide +kernel,
    by decide +kernel⟩,
   ⟨2, (Tests.put [(R.PDC_DOM_STAT 0, F.PDC_DOM_STAT_STATE, 6), (R.PDC_WAKE_EN, F.PDC_WAKE_EN_EN, 31)] State.reset), _, rfl, by decide +kernel,
    by decide +kernel, by decide +kernel⟩,
   ⟨State.reset, by decide +kernel⟩,
   ⟨18, [(1, 20)], (Tests.put [(R.PDC_DOM_STAT 0, F.PDC_DOM_STAT_STATE, 6), (R.PDC_WAKE_EN, F.PDC_WAKE_EN_EN, 31)] State.reset), _, rfl,
    by decide +kernel, by decide +kernel, by decide +kernel, by decide +kernel⟩⟩

theorem witness_ColdResets :
    (∃ (b : SelfTest) (s : State), HostReaches s 0 ∧ tripped s = false ∧ s.power.off = none ∧ s.power.perst = false ∧ BootsClean s b) ∧
    (∃ (s : State), HostReaches s 0 ∧ s.power.perst = true) ∧
    (∃ (b : SelfTest) (s : State), s.power.perst = false ∧ BootsClean s b) ∧
    (∃ (s : State), s.power.off = some .input) ∧
    (∃ (s : State), s.power.off ≠ some .input) ∧
    (∃ (s : State), tripped s = true) ∧
    (∃ (s : State), tripped s = false) ∧
    (∃ (s : State), s.power.boot = false) ∧
    (∃ (b : SelfTest) (s : State), s.power.boot = true ∧ tripped s = false ∧ s.power.off = none ∧ BootsClean s b ∧ (∀ n ∈ domIds, n ≠ 0 → dst s
      n = 0) ∧ dst s 0 = 3 ∧ s.power.want = [] ∧ s.power.cold = true ∧ s.power.frost = false ∧ rbit s R.PDC_MODE F.PDC_MODE_BUSY = false ∧
      (∀ n ∈ domIds, rbit s (R.PDC_DOM_STAT n) F.PDC_DOM_STAT_PEND = false)) :=
  ⟨⟨⟨3, 0xFFFF, [], []⟩, State.reset, by unfold HostReaches; decide +kernel, by decide +kernel, by decide +kernel, by decide +kernel,
    by unfold BootsClean; decide +kernel⟩,
   ⟨{ State.reset with power := { Power.reset with perst := true } }, by unfold HostReaches; decide +kernel, by decide +kernel⟩,
   ⟨⟨3, 0xFFFF, [], []⟩, State.reset, by decide +kernel, by unfold BootsClean; decide +kernel⟩,
   ⟨{ State.reset with power := { Power.reset with off := some .input } }, by decide +kernel⟩,
   ⟨State.reset, by decide +kernel⟩,
   ⟨(Tests.put [(R.PDC_TRIP, F.PDC_TRIP_TRIPPED, 1)] State.reset), by decide +kernel⟩,
   ⟨State.reset, by decide +kernel⟩,
   ⟨State.reset, by decide +kernel⟩,
   ⟨⟨3, 0xFFFF, [], []⟩, (Tests.put ((domIds.drop 1).map (fun n => (R.PDC_DOM_STAT n, F.PDC_DOM_STAT_STATE, 0)))
    { State.reset with power := { Power.reset with perst := true, boot := true, cold := true } }), by decide +kernel, by decide +kernel,
    by decide +kernel, by unfold BootsClean; decide +kernel, by decide +kernel, by decide +kernel, by decide +kernel, by decide +kernel,
    by decide +kernel, by decide +kernel, by decide +kernel⟩⟩

theorem witness_WarmResets :
    (∃ s : State, ∃ l : List Nat, ∃ p, l = warmDomains s ∧ p ∈ [(Instr.warmReset, 3, HostReaches s 0), (.functionLevelReset, 4, s.domReach 3 =
      true), (.heartbeatLossWithNoStandby, 6, rbit s R.CP_STATUS F.CP_STATUS_STANDBY_OK = false)] ∧ p.2.2 ∧ s.power.cold = false ∧
      s.power.warmOn = false ∧ l ≠ []) ∧
    (∃ s : State, ∃ l : List Nat, ∃ p, l = warmDomains s ∧ p ∈ [(Instr.warmReset, 3, HostReaches s 0), (.functionLevelReset, 4, s.domReach 3 =
      true), (.heartbeatLossWithNoStandby, 6, rbit s R.CP_STATUS F.CP_STATUS_STANDBY_OK = false)] ∧ p.2.2 ∧ s.power.cold = false ∧
      s.power.warmOn = false ∧ l = [] ∧ Settled s) ∧
    (∃ s : State, ∃ l : List Nat, ∃ p, l = warmDomains s ∧ p ∈ [(Instr.warmReset, 3, HostReaches s 0), (.functionLevelReset, 4, s.domReach 3 =
      true), (.heartbeatLossWithNoStandby, 6, rbit s R.CP_STATUS F.CP_STATUS_STANDBY_OK = false)] ∧ p.2.2 ∧ (s.power.cold = true ∨
      s.power.warmOn = true)) :=
  ⟨⟨State.reset, _, _, rfl, List.mem_cons_self, by show HostReaches _ 0; unfold HostReaches; decide +kernel, by decide +kernel,
    by decide +kernel, by decide +kernel⟩,
   ⟨(Tests.put ((R.CP_STATUS, F.CP_STATUS_STANDBY_OK, 0) :: (domIds).map (fun n => (R.PDC_DOM_STAT n, F.PDC_DOM_STAT_STATE, 0))) State.reset),
    _, _, rfl, List.mem_cons_of_mem _ (List.mem_cons_of_mem _ (List.mem_cons_self)), by show rbit _ _ _ = false; decide +kernel,
    by decide +kernel, by decide +kernel, by decide +kernel, ⟨by decide +kernel, by decide +kernel, by decide +kernel, by decide +kernel,
    by decide +kernel⟩⟩,
   ⟨{ State.reset with power := { Power.reset with cold := true } }, _, _, rfl, List.mem_cons_of_mem _ (List.mem_cons_self),
    by show State.domReach _ 3 = true; decide +kernel, by decide +kernel⟩⟩

theorem witness_TripsAndSupplies :
    (∃ (tj : BitVec 8), tj.toNat < 105) ∧
    (∃ (tj : BitVec 8) (s : State), 105 ≤ tj.toNat ∧ s.mgmt.receiver = none) ∧
    (∃ s : State, ∃ c, s.power.off = some .input ∧ c ∈ [Instr.railFault, .refclkLost]) ∧
    (∃ (s : State), s.power.off ≠ some .input) ∧
    (∃ (s : State), s.power.off = none ∧ s.mgmt.receiver = none) :=
  ⟨⟨104, by decide +kernel⟩,
   ⟨105, State.reset, by decide +kernel, by decide +kernel⟩,
   ⟨{ State.reset with power := { Power.reset with off := some .input } }, _, by decide +kernel, List.mem_cons_self⟩,
   ⟨State.reset, by decide +kernel⟩,
   ⟨State.reset, by decide +kernel, by decide +kernel⟩⟩

theorem witness_Takeovers :
    (∃ (s : State), rbit s R.CP_STATUS F.CP_STATUS_STANDBY_OK = false) ∧
    (∃ (s : State), rbit s R.CP_STATUS F.CP_STATUS_STANDBY_OK = true ∧ s.mgmt.receiver = none) :=
  ⟨⟨(Tests.put [(R.CP_STATUS, F.CP_STATUS_STANDBY_OK, 0)] State.reset), by decide +kernel⟩,
   ⟨(Tests.put [(R.CP_STATUS, F.CP_STATUS_STANDBY_OK, 1)] State.reset), by decide +kernel, by decide +kernel⟩⟩

theorem witness_MirrorPairs :
    (∃ (h : DWord) (s : State) (feed : Nat), feed = hdrF h 2 1 % 16 ∧ HostReaches s (hostCtl s) ∧ (mirState s = 0 ∨ mirState s = 3 ∨ mirState s
      = 4) ∧ GoodHbm s (mirIn s) 24) ∧
    (∃ (h : DWord) (s : State) (feed : Nat), feed = hdrF h 2 1 % 16 ∧ HostReaches s (hostCtl s) ∧ (mirState s = 1 ∨ mirState s = 2)) ∧
    (∃ (h : DWord) (s : State) (feed : Nat), feed = hdrF h 2 1 % 16 ∧ HostReaches s (hostCtl s) ∧ (mirState s = 2 ∨ mirState s = 3 ∨ mirState s
      = 4) ∧ feedGroups s = []) ∧
    (∃ (h : DWord) (s : State) (feed : Nat), feed = hdrF h 2 1 % 16 ∧ HostReaches s (hostCtl s) ∧ (mirState s = 0 ∨ mirState s = 1)) ∧
    (∃ (h : DWord) (s : State) (feed : Nat), feed = hdrF h 2 1 % 16 ∧ HeaderMatches s h ∧ headerFits s h = false) ∧
    (∃ (h : DWord) (s : State) (feed : Nat), feed = hdrF h 2 1 % 16 ∧ HeaderMatches s h ∧ headerFits s h = true ∧ feed ≠ rget s R.MIR_STATUS
      F.MIR_STATUS_OWN_FEED) ∧
    (∃ (h : DWord) (s : State) (feed : Nat), feed = hdrF h 2 1 % 16 ∧ HeaderMatches s h ∧ headerFits s h = true ∧ feed = rget s R.MIR_STATUS
      F.MIR_STATUS_OWN_FEED ∧ s.mgmt.receiver = none ∧ groupsWith s s.devId = []) ∧
    (∃ (h : DWord) (st : Status) (s : State) (feed : Nat), feed = hdrF h 2 1 % 16 ∧ (mirState s ≠ 1 ∨ st ≠ .ok)) ∧
    (∃ (h : DWord) (s : State) (feed : Nat), feed = hdrF h 2 1 % 16 ∧ mirState s = 1) ∧
    (∃ (h : DWord) (s : State) (feed : Nat), feed = hdrF h 2 1 % 16 ∧ mirState s ≠ 1) :=
  ⟨⟨0, State.reset, _, rfl, by unfold HostReaches; decide +kernel, by decide +kernel, by unfold GoodHbm Clean; decide +kernel⟩,
   ⟨0, (Tests.put [(R.MIR_STATUS, F.MIR_STATUS_STATE, 1)] State.reset), _, rfl, by unfold HostReaches; decide +kernel, by decide +kernel⟩,
   ⟨0, (Tests.put [(R.MIR_STATUS, F.MIR_STATUS_STATE, 4)] State.reset), _, rfl, by unfold HostReaches; decide +kernel, by decide +kernel,
    by decide +kernel⟩,
   ⟨0, State.reset, _, rfl, by unfold HostReaches; decide +kernel, by decide +kernel⟩,
   ⟨BitVec.ofNat 512 (1 + 0 * 2 ^ 16 + 9 * 2 ^ 24), (Tests.put [(R.MIR_STATUS, F.MIR_STATUS_STATE, 1), (R.MIR_PEER, F.MIR_PEER_DEV, 1),
    (R.MOS_ROUTE 1, F.MOS_ROUTE_ENTRY, 2 ^ 31), (R.FIRN_CFG, F.FIRN_CFG_DEPTH_LOG2, 10)] State.reset), _, rfl,
    by unfold HeaderMatches; decide +kernel, by decide +kernel⟩,
   ⟨BitVec.ofNat 512 (1 + 1 * 2 ^ 16 + 10 * 2 ^ 24), (Tests.put [(R.MIR_STATUS, F.MIR_STATUS_STATE, 1), (R.MIR_PEER, F.MIR_PEER_DEV, 1),
    (R.MOS_ROUTE 1, F.MOS_ROUTE_ENTRY, 2 ^ 31), (R.FIRN_CFG, F.FIRN_CFG_DEPTH_LOG2, 10)] State.reset), _, rfl,
    by unfold HeaderMatches; decide +kernel, by decide +kernel, by decide +kernel⟩,
   ⟨BitVec.ofNat 512 (1 + 0 * 2 ^ 16 + 10 * 2 ^ 24), (Tests.put [(R.MIR_STATUS, F.MIR_STATUS_STATE, 1), (R.MIR_PEER, F.MIR_PEER_DEV, 1),
    (R.MOS_ROUTE 1, F.MOS_ROUTE_ENTRY, 2 ^ 31), (R.FIRN_CFG, F.FIRN_CFG_DEPTH_LOG2, 10)] State.reset), _, rfl,
    by unfold HeaderMatches; decide +kernel, by decide +kernel, by decide +kernel, by decide +kernel, by decide +kernel⟩,
   ⟨0, .timeout, State.reset, _, rfl, by decide +kernel⟩,
   ⟨0, (Tests.put [(R.MIR_STATUS, F.MIR_STATUS_STATE, 1)] State.reset), _, rfl, by decide +kernel⟩,
   ⟨0, State.reset, _, rfl, by decide +kernel⟩⟩

theorem witness_Calvings :
    (∃ d e : DevId, ∃ b : Bool, ∃ s : State, ∃ x : Nat, ∃ c, x = d.toNat ∧ HostReaches s (hostCtl s) ∧ rbit s R.REC_STATE F.REC_STATE_BUSY =
      true ∧ c ∈ [Instr.calve d, .fill d e b, .done, .clear, .unfence d]) ∧
    (∃ (d : DevId) (s : State) (x : Nat), x = d.toNat ∧ HostReaches s (hostCtl s)) ∧
    (∃ (d : DevId) (s : State) (x : Nat), x = d.toNat ∧ HostReaches s (hostCtl s) ∧ rbit s R.REC_STATE F.REC_STATE_BUSY = false ∧ (x = s.devId ∨
      fenceFree s = none)) ∧
    (∃ d : DevId, ∃ s : State, ∃ x : Nat, ∃ slot, x = d.toNat ∧ HostReaches s (hostCtl s) ∧ rbit s R.REC_STATE F.REC_STATE_BUSY = false ∧ x ≠
      s.devId ∧ fenceFree s = some slot ∧ groupsWith s x = [] ∧ x ≠ mirPeer s ∧ s.mgmt.receiver = none ∧ (recState s = 0 ∨ (recState s = 1 ∧
      recRestart s = false ∧ (recPend s).length < 4))) ∧
    (∃ d : DevId, ∃ s : State, ∃ x : Nat, ∃ slot, x = d.toNat ∧ HostReaches s (hostCtl s) ∧ rbit s R.REC_STATE F.REC_STATE_BUSY = false ∧ x ≠
      s.devId ∧ fenceFree s = some slot ∧ groupsWith s x = [] ∧ x ≠ mirPeer s ∧ s.mgmt.receiver = none ∧ (recState s = 3 ∨ (recState s = 1 ∧
      recRestart s = true))) ∧
    (∃ d : DevId, ∃ s : State, ∃ x : Nat, ∃ slot, x = d.toNat ∧ HostReaches s (hostCtl s) ∧ rbit s R.REC_STATE F.REC_STATE_BUSY = false ∧ x ≠
      s.devId ∧ fenceFree s = some slot ∧ groupsWith s x = [] ∧ x ≠ mirPeer s ∧ s.mgmt.receiver = none ∧ recState s = 4) ∧
    (∃ (d : DevId) (s : State) (x : Nat), x = d.toNat ∧ HostReaches s (hostCtl s) ∧ rbit s R.REC_STATE F.REC_STATE_BUSY = false) :=
  ⟨⟨1, 2, false, (Tests.put [(R.REC_STATE, F.REC_STATE_STATE, 0), (R.REC_STATE, F.REC_STATE_BUSY, 1)] State.reset), _, _, rfl,
    by unfold HostReaches; decide +kernel, by decide +kernel, List.mem_cons_self⟩,
   ⟨1, (Tests.put [(R.REC_STATE, F.REC_STATE_STATE, 0), (R.REC_STATE, F.REC_STATE_BUSY, 1)] State.reset), _, rfl,
    by unfold HostReaches; decide +kernel⟩,
   ⟨0, State.reset, _, rfl, by unfold HostReaches; decide +kernel, by decide +kernel, by decide +kernel⟩,
   ⟨1, State.reset, _, 0, rfl, by unfold HostReaches; decide +kernel, by decide +kernel, by decide +kernel, by decide +kernel,
    by decide +kernel, by decide +kernel, by decide +kernel, by decide +kernel⟩,
   ⟨1, (Tests.put [(R.REC_STATE, F.REC_STATE_STATE, 3)] State.reset), _, 0, rfl, by unfold HostReaches; decide +kernel, by decide +kernel,
    by decide +kernel, by decide +kernel, by decide +kernel, by decide +kernel, by decide +kernel, by decide +kernel⟩,
   ⟨1, (Tests.put [(R.REC_STATE, F.REC_STATE_STATE, 4)] State.reset), _, 0, rfl, by unfold HostReaches; decide +kernel, by decide +kernel,
    by decide +kernel, by decide +kernel, by decide +kernel, by decide +kernel, by decide +kernel, by decide +kernel⟩,
   ⟨1, State.reset, _, rfl, by unfold HostReaches; decide +kernel, by decide +kernel⟩⟩

theorem witness_RecoveryCommands :
    (∃ (d : DevId) (s : State) (x : Nat), x = d.toNat ∧ HostReaches s (hostCtl s) ∧ rbit s R.REC_STATE F.REC_STATE_BUSY = false ∧ recState s =
      4) ∧
    (∃ (d : DevId) (s : State) (x : Nat), x = d.toNat ∧ HostReaches s (hostCtl s) ∧ rbit s R.REC_STATE F.REC_STATE_BUSY = false ∧ recState s ≠
      4) ∧
    (∃ (d : DevId) (s : State) (x : Nat), x = d.toNat ∧ HostReaches s (hostCtl s) ∧ rbit s R.REC_STATE F.REC_STATE_BUSY = false ∧ recState s = 1
      ∧ x ≠ s.devId) ∧
    (∃ (d : DevId) (s : State) (x : Nat), x = d.toNat ∧ HostReaches s (hostCtl s) ∧ rbit s R.REC_STATE F.REC_STATE_BUSY = false ∧ recState s = 0
      ∧ x = s.devId ∧ rget s R.ACC_N F.ACC_N_N = 0) ∧
    (∃ (d : DevId) (s : State) (x : Nat), x = d.toNat ∧ HostReaches s (hostCtl s) ∧ rbit s R.REC_STATE F.REC_STATE_BUSY = false ∧ (recState s =
      3 ∨ recState s = 4 ∨ (recState s = 0 ∧ x ≠ s.devId))) ∧
    (∃ (d : DevId) (s : State) (x : Nat), x = d.toNat ∧ HostReaches s (hostCtl s) ∧ rbit s R.REC_STATE F.REC_STATE_BUSY = false ∧ recState s = 2
      ∧ (recSpare s ≠ s.devId ∨ rget s R.ACC_STATUS F.ACC_STATUS_STATE = 2)) ∧
    (∃ (d : DevId) (s : State) (x : Nat), x = d.toNat ∧ HostReaches s (hostCtl s) ∧ rbit s R.REC_STATE F.REC_STATE_BUSY = false ∧ recState s ≠
      2) :=
  ⟨⟨1, (Tests.put [(R.REC_STATE, F.REC_STATE_STATE, 4)] State.reset), _, rfl, by unfold HostReaches; decide +kernel, by decide +kernel,
    by decide +kernel⟩,
   ⟨1, (Tests.put [(R.REC_STATE, F.REC_STATE_STATE, 3)] State.reset), _, rfl, by unfold HostReaches; decide +kernel, by decide +kernel,
    by decide +kernel⟩,
   ⟨1, (Tests.put [(R.REC_STATE, F.REC_STATE_STATE, 1)] State.reset), _, rfl, by unfold HostReaches; decide +kernel, by decide +kernel,
    by decide +kernel, by decide +kernel⟩,
   ⟨0, State.reset, _, rfl, by unfold HostReaches; decide +kernel, by decide +kernel, by decide +kernel, by decide +kernel, by decide +kernel⟩,
   ⟨1, (Tests.put [(R.REC_STATE, F.REC_STATE_STATE, 0)] State.reset), _, rfl, by unfold HostReaches; decide +kernel, by decide +kernel,
    by decide +kernel⟩,
   ⟨1, (Tests.put [(R.REC_STATE, F.REC_STATE_STATE, 2), (R.REC_SPARE, F.REC_SPARE_SPARE, 1)] State.reset), _, rfl,
    by unfold HostReaches; decide +kernel, by decide +kernel, by decide +kernel, by decide +kernel⟩,
   ⟨1, (Tests.put [(R.REC_STATE, F.REC_STATE_STATE, 1)] State.reset), _, rfl, by unfold HostReaches; decide +kernel, by decide +kernel,
    by decide +kernel⟩⟩

theorem witness_FillReads :
    (∃ (id entry : Nat) (x : Txn) (st : Status) (data : List Byte) (f : FillPos) (s : State), s.fill = some f ∧ mfind s.txns id = some x ∧ x.iss
      = .fill entry ∧ x.phase = .reply st data ∧ st = .ok ∧ rget s R.ACC_N F.ACC_N_N ≤ f.entry ∧ (∀ i, i < data.length → addrOk s (x.va + i)
      = true ∧ Clean s (x.va + i))) ∧
    (∃ (id entry : Nat) (x : Txn) (st : Status) (data : List Byte) (f : FillPos) (s : State), s.fill = some f ∧ mfind s.txns id = some x ∧ x.iss
      = .fill entry ∧ x.phase = .reply st data ∧ st ≠ .ok ∧ entry < 65536) ∧
    (∃ (f : FillPos) (s : State), s.fill = some f ∧ rget s R.ACC_N F.ACC_N_N ≤ f.entry ∧ f.out = 0) ∧
    (∃ (f : FillPos) (s : State), s.fill = some f ∧ (f.entry < rget s R.ACC_N F.ACC_N_N ∨ f.out ≠ 0)) :=
  ⟨⟨1, 0, ⟨.fill 0, .dev 1, 0x1000, .read [], .reply .ok [7]⟩, _, [7], ⟨0, 0, 1⟩,
    { State.reset with fill := some ⟨0, 0, 1⟩, txns := [(1, ⟨.fill 0, .dev 1, 0x1000, .read [], .reply .ok [7]⟩)] }, by decide +kernel,
    by decide +kernel, by decide +kernel, by decide +kernel, rfl, by decide +kernel, by unfold Clean; decide +kernel⟩,
   ⟨1, 0, ⟨.fill 0, .dev 1, 0x1000, .read [], .reply .timeout []⟩, .timeout, [], ⟨0, 0, 1⟩,
    { State.reset with fill := some ⟨0, 0, 1⟩, txns := [(1, ⟨.fill 0, .dev 1, 0x1000, .read [], .reply .timeout []⟩)] }, by decide +kernel,
    by decide +kernel, by decide +kernel, by decide +kernel, by decide +kernel, by decide +kernel⟩,
   ⟨⟨0, 0, 0⟩, { State.reset with fill := some ⟨0, 0, 0⟩ }, by decide +kernel, by decide +kernel, by decide +kernel⟩,
   ⟨⟨0, 0, 1⟩, { State.reset with fill := some ⟨0, 0, 1⟩ }, by decide +kernel, by decide +kernel⟩⟩

theorem witness_ManagementAnswers :
    (∃ pcie ed sha sign : Bool, ∃ slot ty : BitVec 8, ∃ off len id : BitVec 16, ∃ nonce : BitVec 256, ∃ h : BitVec 32, ∃ s : State, ∃ p, (p ∈
      [(Instr.getVersion pcie, Reply.spdmVersion 1 3), (.getCapabilities pcie, .spdmCapabilities true true true false),
      (.negotiateAlgorithms pcie ed sha, if ed && sha then .spdmAlgorithms true true else .done .refused), (.getDigests pcie, .spdmDigests
      [(0, Config.sha512 (certChain s 0)), (1, Config.sha512 (certChain s 1))]), (.getCertificate pcie slot off len, if slot.toNat =
      activeDie s then .spdmCertificate slot.toNat (((certChain s slot.toNat).drop off.toNat).take len.toNat) else .done .refused),
      (.challenge pcie slot nonce, if slot.toNat = activeDie s then .spdmChallenge slot.toNat (aliasSig s (signedPart s nonce)) else .done
      .refused), (.getMeasurements pcie sign nonce, .spdmMeasurements (measBlocks s) (if sign then some (aliasSig s (signedPart s nonce))
      else none)), (.getTid pcie, .pldmTid Config.pldmTid), (.getPldmVersion pcie ty, if ty = 0 ∨ ty = 2 ∨ ty = 5 then .pldmVersion
      (Config.pldmVersion ty.toNat) else badData), (.getPldmTypes pcie, .pldmTypes [0, 2, 5]), (.getPldmCommands pcie ty, if ty = 0 ∨ ty = 2
      ∨ ty = 5 then .pldmCommands (pldmCommandList ty.toNat) else badData), (.getPdr pcie h, if max 1 h.toNat ≤ 79 then .pdrSensor (max 1
      h.toNat) else if h.toNat ≤ 83 then .pdrEffecter (h.toNat - 79) else badData), (.getSensorReading pcie id, if 1 ≤ id.toNat ∧ id.toNat ≤
      78 then .reading (sensor s id.toNat) else badData), (.getStateSensorReadings pcie id, if id.toNat = 79 then .state (sensor s 79).toNat
      else badData)]) ∧ MgmtServes s pcie) ∧
    (∃ pcie ed sha sign : Bool, ∃ slot ty : BitVec 8, ∃ off len id : BitVec 16, ∃ nonce : BitVec 256, ∃ h : BitVec 32, ∃ s : State, ∃ p, (p ∈
      [(Instr.getVersion pcie, Reply.spdmVersion 1 3), (.getCapabilities pcie, .spdmCapabilities true true true false),
      (.negotiateAlgorithms pcie ed sha, if ed && sha then .spdmAlgorithms true true else .done .refused), (.getDigests pcie, .spdmDigests
      [(0, Config.sha512 (certChain s 0)), (1, Config.sha512 (certChain s 1))]), (.getCertificate pcie slot off len, if slot.toNat =
      activeDie s then .spdmCertificate slot.toNat (((certChain s slot.toNat).drop off.toNat).take len.toNat) else .done .refused),
      (.challenge pcie slot nonce, if slot.toNat = activeDie s then .spdmChallenge slot.toNat (aliasSig s (signedPart s nonce)) else .done
      .refused), (.getMeasurements pcie sign nonce, .spdmMeasurements (measBlocks s) (if sign then some (aliasSig s (signedPart s nonce))
      else none)), (.getTid pcie, .pldmTid Config.pldmTid), (.getPldmVersion pcie ty, if ty = 0 ∨ ty = 2 ∨ ty = 5 then .pldmVersion
      (Config.pldmVersion ty.toNat) else badData), (.getPldmTypes pcie, .pldmTypes [0, 2, 5]), (.getPldmCommands pcie ty, if ty = 0 ∨ ty = 2
      ∨ ty = 5 then .pldmCommands (pldmCommandList ty.toNat) else badData), (.getPdr pcie h, if max 1 h.toNat ≤ 79 then .pdrSensor (max 1
      h.toNat) else if h.toNat ≤ 83 then .pdrEffecter (h.toNat - 79) else badData), (.getSensorReading pcie id, if 1 ≤ id.toNat ∧ id.toNat ≤
      78 then .reading (sensor s id.toNat) else badData), (.getStateSensorReadings pcie id, if id.toNat = 79 then .state (sensor s 79).toNat
      else badData)]) ∧ (powered s = false ∨ (dst s 0 = 3 ∧ pcie = true ∧ pciePresent s = false))) :=
  ⟨⟨true, false, false, false, 1, 5, 0, 16, 79, 0, 83, State.reset, _, List.mem_cons_self, by unfold MgmtServes; decide +kernel⟩,
   ⟨false, false, false, false, 1, 5, 0, 16, 79, 0, 83, { State.reset with power := { Power.reset with off := some .input } }, _,
    List.mem_cons_self, by decide +kernel⟩⟩

theorem witness_Effecters :
    (∃ pcie : Bool, ∃ st : BitVec 8, ∃ b : SelfTest, ∃ s : State, ∃ n : Nat, ∃ c, n = st.toNat ∧ MgmtServes s pcie ∧ (c ∈ [(Instr.alertClear
      pcie st, 1 ≤ n ∧ n ≤ 14), (.tripClear pcie st b, n = 1), (.mode pcie st, 1 ≤ n ∧ n ≤ 4), (.reset pcie st b, n = 1 ∨ n = 2)]) ∧ ¬ c.2) ∧
    (∃ (pcie : Bool) (st : BitVec 8) (s : State) (n : Nat), n = st.toNat ∧ MgmtServes s pcie ∧ 1 ≤ n ∧ n ≤ 14) ∧
    (∃ (pcie : Bool) (st : BitVec 8) (s : State) (n : Nat), n = st.toNat ∧ MgmtServes s pcie ∧ n = 1 ∧ (∃ i, 1 ≤ i ∧ i ≤ 40 ∧ 95 ≤ sensor s i)) ∧
    (∃ (pcie : Bool) (st : BitVec 8) (s : State) (n : Nat), n = st.toNat ∧ MgmtServes s pcie ∧ n = 1 ∧ (∀ i, 1 ≤ i → i ≤ 40 → sensor s i < 95) ∧
      tripped s = false) ∧
    (∃ (pcie : Bool) (st : BitVec 8) (s : State) (n : Nat), n = st.toNat ∧ MgmtServes s pcie ∧ n = 1 ∧ (∀ i, 1 ≤ i → i ≤ 40 → sensor s i < 95) ∧
      tripped s = true) ∧
    (∃ (pcie : Bool) (st : BitVec 8) (s : State) (n : Nat), n = st.toNat ∧ MgmtServes s pcie ∧ 1 ≤ n ∧ n ≤ 4 ∧ tripped s = true) ∧
    (∃ (pcie : Bool) (st : BitVec 8) (s : State) (n : Nat), n = st.toNat ∧ MgmtServes s pcie ∧ 1 ≤ n ∧ n ≤ 4 ∧ tripped s = false ∧ HostReaches s
      0) ∧
    (∃ (pcie : Bool) (st : BitVec 8) (s : State) (n : Nat), n = st.toNat ∧ MgmtServes s pcie ∧ n = 1 ∧ s.power.cold = false ∧ s.power.warmOn =
      false ∧ warmDomains s ≠ []) ∧
    (∃ (pcie : Bool) (st : BitVec 8) (s : State) (n : Nat), n = st.toNat ∧ MgmtServes s pcie ∧ n = 2 ∧ s.power.perst = true) :=
  ⟨⟨false, 15, ⟨3, 0xFFFF, [], []⟩, State.reset, _, _, rfl, by unfold MgmtServes; decide +kernel, List.mem_cons_self,
    by show ¬ (1 ≤ (15 : BitVec 8).toNat ∧ (15 : BitVec 8).toNat ≤ 14); decide⟩,
   ⟨false, 14, State.reset, _, rfl, by unfold MgmtServes; decide +kernel, by decide +kernel⟩,
   ⟨false, 1, { State.reset with mgmt := { State.reset.mgmt with sensors := [(40, 95)] } }, _, rfl, by unfold MgmtServes; decide +kernel,
    by decide +kernel, ⟨40, by decide +kernel⟩⟩,
   ⟨false, 1, State.reset, _, rfl, by unfold MgmtServes; decide +kernel, by decide +kernel, fun i _ _ => (by decide : (0 : Int) < 95),
    by decide +kernel⟩,
   ⟨false, 1, (Tests.put [(R.PDC_TRIP, F.PDC_TRIP_TRIPPED, 1)] State.reset), _, rfl, by unfold MgmtServes; decide +kernel, by decide +kernel,
    fun i _ _ => (by decide : (0 : Int) < 95), by decide +kernel⟩,
   ⟨false, 4, (Tests.put [(R.PDC_TRIP, F.PDC_TRIP_TRIPPED, 1)] State.reset), _, rfl, by unfold MgmtServes; decide +kernel, by decide +kernel,
    by decide +kernel⟩,
   ⟨false, 4, State.reset, _, rfl, by unfold MgmtServes; decide +kernel, by decide +kernel, by decide +kernel,
    by unfold HostReaches; decide +kernel⟩,
   ⟨false, 1, State.reset, _, rfl, by unfold MgmtServes; decide +kernel, by decide +kernel, by decide +kernel, by decide +kernel,
    by decide +kernel⟩,
   ⟨false, 2, { State.reset with power := { Power.reset with perst := true } }, _, rfl, by unfold MgmtServes; decide +kernel,
    by decide +kernel, by decide +kernel⟩⟩

theorem witness_FirmwareUpdates :
    (∃ (pcie : Bool) (svn : BitVec 8) (ok : Bool) (ver : BitVec 32) (bytes : List Byte) (s : State) (im : Image) (k : Nat), MgmtServes s pcie ∧
      im = ⟨svn, ok, ver, bytes⟩ ∧ k = 1 - s.mgmt.active % 2 ∧ updState s ≠ 0 ∧ myUpdate s pcie = false) ∧
    (∃ (pcie : Bool) (svn : BitVec 8) (ok : Bool) (ver : BitVec 32) (bytes : List Byte) (s : State) (im : Image) (k : Nat), MgmtServes s pcie ∧
      im = ⟨svn, ok, ver, bytes⟩ ∧ k = 1 - s.mgmt.active % 2 ∧ updState s ≠ 0 ∧ myUpdate s pcie = true) ∧
    (∃ (pcie : Bool) (svn : BitVec 8) (ok : Bool) (ver : BitVec 32) (bytes : List Byte) (s : State) (im : Image) (k : Nat), MgmtServes s pcie ∧
      im = ⟨svn, ok, ver, bytes⟩ ∧ k = 1 - s.mgmt.active % 2 ∧ updState s = 0) ∧
    (∃ pcie : Bool, ∃ comp svn : BitVec 8, ∃ ok : Bool, ∃ ver : BitVec 32, ∃ bytes : List Byte, ∃ s : State, ∃ im : Image, ∃ k : Nat, ∃ c,
      MgmtServes s pcie ∧ im = ⟨svn, ok, ver, bytes⟩ ∧ k = 1 - s.mgmt.active % 2 ∧ myUpdate s pcie = false ∧ c ∈
      [Instr.firmwareComponentTransfer pcie comp svn ok ver bytes, .activateFirmware pcie]) ∧
    (∃ (pcie : Bool) (comp svn : BitVec 8) (ok : Bool) (ver : BitVec 32) (bytes : List Byte) (s : State) (im : Image) (k : Nat), MgmtServes s
      pcie ∧ im = ⟨svn, ok, ver, bytes⟩ ∧ k = 1 - s.mgmt.active % 2 ∧ myUpdate s pcie = true ∧ (comp = 0 ∨ 5 < comp.toNat)) ∧
    (∃ (pcie : Bool) (comp svn : BitVec 8) (ok : Bool) (ver : BitVec 32) (bytes : List Byte) (s : State) (im : Image) (k : Nat), MgmtServes s
      pcie ∧ im = ⟨svn, ok, ver, bytes⟩ ∧ k = 1 - s.mgmt.active % 2 ∧ myUpdate s pcie = true ∧ 1 ≤ comp.toNat ∧ comp.toNat ≤ 5) ∧
    (∃ (pcie : Bool) (svn : BitVec 8) (ok : Bool) (ver : BitVec 32) (bytes : List Byte) (s : State) (im : Image) (k : Nat), MgmtServes s pcie ∧
      im = ⟨svn, ok, ver, bytes⟩ ∧ k = 1 - s.mgmt.active % 2 ∧ myUpdate s pcie = true ∧ s.mgmt.staged = []) ∧
    (∃ (pcie : Bool) (svn : BitVec 8) (ok : Bool) (ver : BitVec 32) (bytes : List Byte) (s : State) (im : Image) (k : Nat), MgmtServes s pcie ∧
      im = ⟨svn, ok, ver, bytes⟩ ∧ k = 1 - s.mgmt.active % 2 ∧ myUpdate s pcie = true ∧ s.mgmt.staged ≠ [] ∧ 4 ∉ s.mgmt.staged) ∧
    (∃ pcie : Bool, ∃ svn : BitVec 8, ∃ ok : Bool, ∃ ver : BitVec 32, ∃ bytes : List Byte, ∃ s : State, ∃ im : Image, ∃ k : Nat, ∃ x, MgmtServes
      s pcie ∧ im = ⟨svn, ok, ver, bytes⟩ ∧ k = 1 - s.mgmt.active % 2 ∧ myUpdate s pcie = true ∧ 4 ∈ s.mgmt.staged ∧ slotImage s k 4 = some
      x ∧ (∀ i, i < 16 → dst s (48 + i) ≠ 3)) ∧
    (∃ (pcie : Bool) (svn : BitVec 8) (ok : Bool) (ver : BitVec 32) (bytes : List Byte) (s : State) (im : Image) (k : Nat), MgmtServes s pcie ∧
      im = ⟨svn, ok, ver, bytes⟩ ∧ k = 1 - s.mgmt.active % 2 ∧ HostReaches s 0) :=
  ⟨⟨false, 1, true, 1, [], (Tests.put [(R.MGMT_UPD, F.MGMT_UPD_STATE, 1), (R.MGMT_UPD, F.MGMT_UPD_AGENT, 1)] State.reset), _, _,
    by unfold MgmtServes; decide +kernel, rfl, rfl, by decide +kernel, by decide +kernel⟩,
   ⟨false, 1, true, 1, [], (Tests.put [(R.MGMT_UPD, F.MGMT_UPD_STATE, 1)] State.reset), _, _, by unfold MgmtServes; decide +kernel, rfl, rfl,
    by decide +kernel, by decide +kernel⟩,
   ⟨false, 1, true, 1, [], State.reset, _, _, by unfold MgmtServes; decide +kernel, rfl, rfl, by decide +kernel⟩,
   ⟨false, 1, 1, true, 1, [], State.reset, _, _, _, by unfold MgmtServes; decide +kernel, rfl, rfl, by decide +kernel, List.mem_cons_self⟩,
   ⟨false, 6, 1, true, 1, [], (Tests.put [(R.MGMT_UPD, F.MGMT_UPD_STATE, 1)] State.reset), _, _, by unfold MgmtServes; decide +kernel, rfl,
    rfl, by decide +kernel, by decide +kernel⟩,
   ⟨false, 5, 1, true, 1, [], (Tests.put [(R.MGMT_UPD, F.MGMT_UPD_STATE, 1)] State.reset), _, _, by unfold MgmtServes; decide +kernel, rfl,
    rfl, by decide +kernel, by decide +kernel, by decide +kernel⟩,
   ⟨false, 1, true, 1, [], (Tests.put [(R.MGMT_UPD, F.MGMT_UPD_STATE, 1)] State.reset), _, _, by unfold MgmtServes; decide +kernel, rfl, rfl,
    by decide +kernel, by decide +kernel⟩,
   ⟨false, 1, true, 1, [], (Tests.put [(R.MGMT_UPD, F.MGMT_UPD_STATE, 1)]
    { State.reset with mgmt := { State.reset.mgmt with staged := [1] } }), _, _, by unfold MgmtServes; decide +kernel, rfl, rfl,
    by decide +kernel, by decide +kernel, by decide +kernel⟩,
   ⟨false, 1, true, 1, [], (Tests.put ((R.MGMT_UPD, F.MGMT_UPD_STATE, 1) :: ((List.range 16).map (48 + ·)).map (fun n => (R.PDC_DOM_STAT n,
    F.PDC_DOM_STAT_STATE, 0))) { State.reset with mgmt := { State.reset.mgmt with staged := [4], images := [(12, ⟨1, true, 1, []⟩)] } }), _,
    _, ⟨1, true, 1, []⟩, by unfold MgmtServes; decide +kernel, rfl, rfl, by decide +kernel, by decide +kernel, by decide +kernel,
    by decide +kernel⟩,
   ⟨false, 1, true, 1, [], State.reset, _, _, by unfold MgmtServes; decide +kernel, rfl, rfl, by unfold HostReaches; decide +kernel⟩⟩

theorem witness_TelemetryAndAlerts :
    (∃ (s : State), s.power.prsnt = false) ∧
    (∃ (s : State), s.power.prsnt = false) ∧
    (∃ (s : State), s.power.prsnt = true) ∧
    (∃ (pcie : Bool) (s : State), MgmtServes s pcie) ∧
    (∃ (pcie : Bool) (s : State), MgmtServes s pcie) ∧
    (∃ l : List (Nat × Int), ∃ s : State, ∃ c, mgmtRuns s = false ∧ c ∈ [Instr.sensorUpdate l, .vralert, .testAccessPortOpen true, .clearFaults,
      .statusWord, .readVin, .readIin, .readTemperature1, .readPin]) ∧
    (∃ s : State, ∃ p, mgmtRuns s = true ∧ p ∈ [(Instr.statusWord, Reply.word s.mgmt.uv s.mgmt.ov s.mgmt.oc s.mgmt.hot), (.readVin, .reading
      (sensor s 75)), (.readIin, .reading (sensor s 76)), (.readTemperature1, .reading (sensor s 73)), (.readPin, .reading (sensor s 77))]) ∧
    (∃ (s : State), mgmtRuns s = true) ∧
    (∃ (s : State), mgmtRuns s = true ∧ s.mgmt.receiver = none) ∧
    (∃ s : State, ∃ x, mgmtRuns s = true ∧ s.mgmt.receiver = some x ∧ bit (rget s R.MGMT_ALERT F.MGMT_ALERT_EVENTS) 13 = false ∧ bit (rraw s
      R.MGMT_ALERT_EN) 13 = true) :=
  ⟨⟨{ State.reset with power := { Power.reset with prsnt := false } }, by decide +kernel⟩,
   ⟨{ State.reset with power := { Power.reset with prsnt := false } }, by decide +kernel⟩,
   ⟨State.reset, by decide +kernel⟩,
   ⟨false, State.reset, by unfold MgmtServes; decide +kernel⟩,
   ⟨false, State.reset, by unfold MgmtServes; decide +kernel⟩,
   ⟨[], { State.reset with power := { Power.reset with off := some .input } }, _, by decide +kernel, List.mem_cons_self⟩,
   ⟨State.reset, _, by decide +kernel, List.mem_cons_self⟩,
   ⟨State.reset, by decide +kernel⟩,
   ⟨State.reset, by decide +kernel, by decide +kernel⟩,
   ⟨(Tests.put [(R.MGMT_ALERT_EN, F.MGMT_ALERT_EN_EN, 2 ^ 13)]
    { State.reset with mgmt := { State.reset.mgmt with receiver := some (false, 9) } }), (false, 9), by decide +kernel, by decide +kernel,
    by decide +kernel, by decide +kernel⟩⟩

theorem witness_HostRegisterAccess :
    (∃ (off : BitVec 28) (n : BitVec 4) (o : Nat), o = off.toNat ∧ barServed o n.toNat = false) ∧
    (∃ (off : BitVec 28) (n : BitVec 4) (o : Nat), o = off.toNat ∧ barServed o n.toNat = false) ∧
    (∃ (off : BitVec 28) (n : BitVec 4) (s : State) (o : Nat), o = off.toNat ∧ barServed o n.toNat = true ∧ HostTurned s (regDom s o)) ∧
    (∃ (off : BitVec 28) (n : BitVec 4) (s : State) (o : Nat), o = off.toNat ∧ n = 4 ∧ barServed o 4 = true ∧ HostTurned s (regDom s o)) ∧
    (∃ (off : BitVec 28) (n : BitVec 4) (s : State) (o : Nat), o = off.toNat ∧ barServed o n.toNat = true ∧ HostReaches s (regDom s o)) ∧
    (∃ (off : BitVec 28) (n : BitVec 4) (r : RegRow) (s : State) (o : Nat), o = off.toNat ∧ findReg o = some (o, r) ∧ n.toNat = r.bytes ∧
      (r.bytes = 4 ∨ r.bytes = 8) ∧ o % r.bytes = 0 ∧ HostReaches s (regDom s o)) ∧
    (∃ (off : BitVec 28) (n : BitVec 4) (r : RegRow) (s : State) (o : Nat), o = off.toNat ∧ findReg o = some (o, r) ∧ n.toNat = r.bytes ∧
      (r.bytes = 4 ∨ r.bytes = 8) ∧ o % r.bytes = 0 ∧ HostReaches s (regDom s o) ∧ o ∈ plainHostRegs) ∧
    (∃ (off : BitVec 28) (n : BitVec 4) (s : State) (o : Nat), o = off.toNat ∧ o % 4 = 0 ∧ n = 4 ∧ HostReaches s (regDom s o)) ∧
    (∃ (off : BitVec 28) (n : BitVec 4) (s : State) (o : Nat), o = off.toNat ∧ o % 8 = 0 ∧ n = 8 ∧ HostReaches s (regDom s o) ∧ HostReaches
      (hostReads s o).2 (regDom (hostReads s o).2 (o + 4))) ∧
    (∃ (off : BitVec 28) (n : BitVec 4) (s : State) (o : Nat), o = off.toNat ∧ findReg o = none ∧ n = 4 ∧ o % 4 = 0 ∧ HostReaches s (regDom s
      o)) ∧
    (∃ (off : BitVec 28) (n : BitVec 4) (s : State) (o : Nat), o = off.toNat ∧ o = R.LEDG_BUDGET ∧ n = 4 ∧ HostReaches s (hostCtl s)) ∧
    (∃ (off : BitVec 28) (n : BitVec 4) (s : State) (o : Nat), o = off.toNat ∧ o = R.PDC_TRIP ∧ n = 4 ∧ HostReaches s 0) ∧
    (∃ (off : BitVec 28) (n : BitVec 4) (s : State) (o : Nat), o = off.toNat ∧ o = R.MOS_UNROUTABLE ∧ n = 4 ∧ HostReaches s (hostCtl s)) :=
  ⟨⟨BitVec.ofNat 28 (4), 8, _, rfl, by decide +kernel⟩,
   ⟨BitVec.ofNat 28 (4), 8, _, rfl, by decide +kernel⟩,
   ⟨BitVec.ofNat 28 (R.LEDG_BUDGET), 4, (Tests.put [(R.PDC_DOM_STAT 1, F.PDC_DOM_STAT_STATE, 0)] State.reset), _, rfl, by decide +kernel,
    by unfold HostTurned; decide +kernel⟩,
   ⟨BitVec.ofNat 28 (R.LEDG_BUDGET), _, (Tests.put [(R.PDC_DOM_STAT 1, F.PDC_DOM_STAT_STATE, 0)] State.reset), _, rfl, rfl, by decide +kernel,
    by unfold HostTurned; decide +kernel⟩,
   ⟨BitVec.ofNat 28 (2 ^ 28 - 8), 8, State.reset, _, rfl, by decide +kernel, by unfold HostReaches; decide +kernel⟩,
   ⟨BitVec.ofNat 28 (R.FIRN_SNAP), 8, ((findReg R.FIRN_SNAP).elim ⟨0, 0, 0, 0, []⟩ (·.2)), State.reset, _, rfl, by decide +kernel,
    by decide +kernel, by decide +kernel, by decide +kernel, by unfold HostReaches; decide +kernel⟩,
   ⟨BitVec.ofNat 28 (R.MSIX_DATA 63), 4, ((findReg (R.MSIX_DATA 63)).elim ⟨0, 0, 0, 0, []⟩ (·.2)), State.reset, _, rfl, by decide +kernel,
    by decide +kernel, by decide +kernel, by decide +kernel, by unfold HostReaches; decide +kernel, by decide +kernel⟩,
   ⟨BitVec.ofNat 28 (2 ^ 28 - 4), _, State.reset, _, rfl, by decide +kernel, rfl, by unfold HostReaches; decide +kernel⟩,
   ⟨BitVec.ofNat 28 (2 ^ 28 - 8), _, State.reset, _, rfl, by decide +kernel, rfl, by unfold HostReaches; decide +kernel,
    by unfold HostReaches; decide +kernel⟩,
   ⟨BitVec.ofNat 28 (0x0FFFFFFC), _, State.reset, _, rfl, by decide +kernel, rfl, by decide +kernel, by unfold HostReaches; decide +kernel⟩,
   ⟨BitVec.ofNat 28 (R.LEDG_BUDGET), _, State.reset, _, rfl, by decide +kernel, rfl, by unfold HostReaches; decide +kernel⟩,
   ⟨BitVec.ofNat 28 (R.PDC_TRIP), _, State.reset, _, rfl, by decide +kernel, rfl, by unfold HostReaches; decide +kernel⟩,
   ⟨BitVec.ofNat 28 (R.MOS_UNROUTABLE), _, State.reset, _, rfl, by decide +kernel, rfl, by unfold HostReaches; decide +kernel⟩⟩

theorem witness_HostMemoryWindow :
    (∃ (off : BitVec 36) (data : List Byte) (s : State) (a : Nat), a = barStack s * 2 ^ 36 + off.toNat ∧ barOpen s = true ∧ off.toNat +
      data.length ≤ 2 ^ 36 ∧ (∀ k, k < data.length → Clean s (a + k))) ∧
    (∃ (off : BitVec 36) (n : Nat) (s : State) (a : Nat), a = barStack s * 2 ^ 36 + off.toNat ∧ barOpen s = true ∧ off.toNat + n ≤ 2 ^ 36 ∧ (∀
      k, k < n → Clean s (a + k))) ∧
    (∃ (off : BitVec 36) (n : Nat) (s : State) (a : Nat), a = barStack s * 2 ^ 36 + off.toNat ∧ barOpen s = true ∧ off.toNat + n ≤ 2 ^ 36 ∧ (∃
      k, k < n ∧ (eccAt s ((a + k) / 32) = .uncorrectable ∨ eccAt s ((a + k) / 32) = .poisoned))) ∧
    (∃ (off : BitVec 36) (s : State) (a : Nat), a = barStack s * 2 ^ 36 + off.toNat ∧ HostTurned s (48 + barStack s)) ∧
    (∃ (off : BitVec 36) (s : State) (a : Nat), a = barStack s * 2 ^ 36 + off.toNat ∧ HostTurned s (48 + barStack s)) ∧
    (∃ (off : BitVec 36) (s : State) (a : Nat), a = barStack s * 2 ^ 36 + off.toNat ∧ HostReaches s (hostCtl s)) :=
  ⟨⟨2 ^ 36 - 1, [7], State.reset, _, rfl, by decide +kernel, by decide +kernel, by unfold Clean; decide +kernel⟩,
   ⟨2 ^ 36 - 1, 1, State.reset, _, rfl, by decide +kernel, by decide +kernel, by unfold Clean; decide +kernel⟩,
   ⟨0, 1, { State.reset with ecc := [(0, .uncorrectable)] }, _, rfl, by decide +kernel, by decide +kernel, ⟨0, by decide +kernel⟩⟩,
   ⟨2 ^ 36 - 1, (Tests.put [(R.PDC_DOM_STAT 48, F.PDC_DOM_STAT_STATE, 0)] State.reset), _, rfl, by unfold HostTurned; decide +kernel⟩,
   ⟨2 ^ 36 - 1, (Tests.put [(R.PDC_DOM_STAT 48, F.PDC_DOM_STAT_STATE, 0)] State.reset), _, rfl, by unfold HostTurned; decide +kernel⟩,
   ⟨2 ^ 36 - 1, State.reset, _, rfl, by unfold HostReaches; decide +kernel⟩⟩

end
end

section
/-! The queue: a step takes its front, and no command touches the rest. -/

namespace Sys2Proof

open Sys2Proof.Machine

theorem step_cons (c : Instr) (rest : List Instr) (s : Machine.State) :
    step { s with pending := c :: rest } = exec c { s with pending := rest } := rfl

/-- Whatever a command does, it goes on with the queue it found: `exec` calls the command's meaning, and each meaning keeps the
queue. -/
theorem queueOf_exec (i : Instr) (s : Machine.State) : queueOf (exec i s) = some s.pending := by
  cases i <;> dsimp only [exec] <;> simp

theorem next_of_queueOf {o : Host.Outcome Machine.State Machine.Fault Machine.Refusal} {l : List Instr} (h : queueOf o = some l) :
    ∃ v, o = .next v ∧ v.pending = l := by
  cases o with
  | next v => exact ⟨v, rfl, Option.some.inj h⟩
  | _ => cases h

/-- Settles O1. -/
theorem stepRunsFrontCommand : Obligations.StepRunsFrontCommand := by
  unfold Obligations.StepRunsFrontCommand
  exact step_cons

/-- Settles O2: an idle cycle keeps the empty queue, and a command keeps the queue without its front. -/
theorem queueKeepsItsOrder : Obligations.QueueKeepsItsOrder := by
  unfold Obligations.QueueKeepsItsOrder
  intro s
  unfold step
  split
  next hq => exact ⟨_, rfl, by rw [pend_cycle, hq, List.tail_nil]⟩
  next c rest hq => exact next_of_queueOf ((queueOf_exec c _).trans (by rw [hq, List.tail_cons]))

end Sys2Proof
end

section
/-! The reset state: the reset values of a tile's registers, found by the tile's own block. -/

namespace Sys2Proof

open Sys2Proof.Machine

/-- What one block of registers answers for an offset: `findReg` asks the blocks in turn. -/
def blockReg (b : RegBlock) (o : Nat) : Option (Nat × RegRow) :=
  if o < b.base then none
  else
    let k := if b.stride = 0 then 0 else (o - b.base) / b.stride
    let start := b.base + k * b.stride
    if k < b.count ∧ o < start + b.size then (findRow b.regs (o - start)).map (fun p => (start + p.1, p.2)) else none

theorem findReg_eq_blockReg (o : Nat) : findReg o = blocks.findSome? (fun b => blockReg b o) := rfl

/-- A block holds nothing past its last copy. -/
theorem blockReg_above {b : RegBlock} {o : Nat} (h : b.base + (b.count - 1) * b.stride + b.size ≤ o) : blockReg b o = none := by
  unfold blockReg
  dsimp only
  split
  · rfl
  · refine if_neg fun hin => ?_
    obtain ⟨hk, ho⟩ := hin
    have := Nat.mul_le_mul_right b.stride (Nat.le_sub_one_of_lt hk)
    omega

/-- A copy of a block holds the row that the offset inside it names. -/
theorem blockReg_at {b : RegBlock} {k i : Nat} (hk : k < b.count) (hi : i < b.stride) (hsize : i < b.size) :
    blockReg b (b.base + b.stride * k + i) = (findRow b.regs i).map (fun p => (b.base + b.stride * k + p.1, p.2)) := by
  have hs : 0 < b.stride := by omega
  have hdiv : (b.base + b.stride * k + i - b.base) / b.stride = k := by
    rw [Nat.add_assoc, Nat.add_sub_cancel_left, Nat.mul_add_div hs, Nat.div_eq_of_lt hi, Nat.add_zero]
  have hbase : ¬ b.base + b.stride * k + i < b.base := by omega
  unfold blockReg
  simp only [if_neg hbase, if_neg (Nat.ne_of_gt hs), hdiv, Nat.mul_comm k, Nat.add_sub_cancel_left]
  exact if_pos ⟨hk, Nat.add_lt_add_left hsize _⟩

/-- The tiles' block answers for the tiles' part of BAR0: every other block lies below it. -/
theorem findReg_tiles {o : Nat} (h : 0x8000000 ≤ o) : findReg o = blockReg blkT o := by
  have hbelow : ∀ b ∈ blocks.dropLast, b.base + (b.count - 1) * b.stride + b.size ≤ 0x8000000 := by decide
  have hsplit : blocks = blocks.dropLast ++ [blkT] := rfl
  rw [findReg_eq_blockReg, hsplit, List.findSome?_append,
    List.findSome?_eq_none_iff.mpr fun b hb => blockReg_above ((hbelow b hb).trans h)]
  simp

/-- The package's general registers are answered for by their own block: every other block lies above it. -/
theorem findReg_global {o : Nat} (h : o < 0x100000) : findReg o = blockReg blkG o := by
  have habove : ∀ b ∈ blocks.take 5 ++ blocks.drop 6, 0x100000 ≤ b.base := by decide
  have hnone : ∀ b ∈ blocks.take 5 ++ blocks.drop 6, blockReg b o = none := fun b hb => if_pos (h.trans_le (habove b hb))
  have hsplit : blocks = blocks.take 5 ++ blkG :: blocks.drop 6 := rfl
  rw [findReg_eq_blockReg, hsplit, List.findSome?_append,
    List.findSome?_eq_none_iff.mpr fun b hb => hnone b (List.mem_append_left _ hb), List.findSome?_cons,
    List.findSome?_eq_none_iff.mpr fun b hb => hnone b (List.mem_append_right _ hb)]
  cases blockReg blkG o <;> rfl

/-- A tile's register is the row that its offset in the tile's block names. -/
theorem findReg_tile {t lo : Nat} (ht : t < 2048) (hlo : lo < 0x10000) : findReg (0x8000000 + 0x10000 * t + lo) =
    (findRow blkT.regs lo).map (fun p => (0x8000000 + 0x10000 * t + p.1, p.2)) := by
  rw [findReg_tiles (by omega)]
  exact blockReg_at (b := blkT) ht hlo hlo

/-- What one row answers for an offset in its block: `findRow` asks the rows in turn. -/
def rowReg (r : RegRow) (o : Nat) : Option (Nat × RegRow) :=
  if o < r.off then none
  else
    let k := if r.stride = 0 then 0 else (o - r.off) / r.stride
    let start := r.off + k * r.stride
    if k < r.count ∧ o < start + r.bytes then some (start, r) else none

theorem findRow_eq_rowReg (rows : List RegRow) (o : Nat) : findRow rows o = rows.findSome? (fun r => rowReg r o) := rfl

/-- A row holds nothing past its last copy. -/
theorem rowReg_above {r : RegRow} {o : Nat} (h : r.off + (r.count - 1) * r.stride + r.bytes ≤ o) : rowReg r o = none := by
  unfold rowReg
  dsimp only
  split
  · rfl
  · refine if_neg fun hin => ?_
    obtain ⟨hk, ho⟩ := hin
    have := Nat.mul_le_mul_right r.stride (Nat.le_sub_one_of_lt hk)
    omega

/-- A row of several copies holds the start of each. -/
theorem rowReg_at {r : RegRow} {k : Nat} (hk : k < r.count) (hs : 0 < r.stride) (hb : 0 < r.bytes) :
    rowReg r (r.off + r.stride * k) = some (r.off + r.stride * k, r) := by
  have hdiv : (r.off + r.stride * k - r.off) / r.stride = k := by rw [Nat.add_sub_cancel_left, Nat.mul_div_cancel_left k hs]
  unfold rowReg
  simp only [if_neg (Nat.not_lt.mpr (Nat.le_add_right r.off (r.stride * k))), if_neg (Nat.ne_of_gt hs), hdiv, Nat.mul_comm k]
  exact if_pos ⟨hk, by omega⟩

/-- A row answers for its copies when the rows before it lie below it. -/
theorem findRow_at {rows pre post : List RegRow} {r : RegRow} {k : Nat} (hrows : rows = pre ++ r :: post)
    (hpre : ∀ p ∈ pre, p.off + (p.count - 1) * p.stride + p.bytes ≤ r.off) (hk : k < r.count) (hs : 0 < r.stride)
    (hb : 0 < r.bytes) : findRow rows (r.off + r.stride * k) = some (r.off + r.stride * k, r) := by
  rw [findRow_eq_rowReg, hrows, List.findSome?_append,
    List.findSome?_eq_none_iff.mpr fun p hp => rowReg_above ((hpre p hp).trans (Nat.le_add_right ..)), Option.none_or,
    List.findSome?_cons_of_isSome]
  · exact rowReg_at hk hs hb
  · rw [rowReg_at hk hs hb]; rfl

/-! ### Semaphores and event counters -/

/-- The row of `SEM` (Table 3-7). -/
def semRow : RegRow := ⟨0x100, 4, 64, 4, [⟨F.SEM_VALUE, .rw, 0⟩, ⟨F.SEM_OVF, .w1c, 0⟩, ⟨F.SEM_WAITERS, .ro, 0⟩]⟩

/-- The row of `EVT` (R43). -/
def evtRow : RegRow := ⟨0x1000, 4, 256, 4, [⟨F.EVT_COUNT, .rw, 0⟩]⟩

theorem findReg_sem (t : TileId) (n : SemIdx) :
    findReg (R.SEM t.toNat n.toNat) = some (R.SEM t.toNat n.toNat, semRow) := by
  have hrow : findRow blkT.regs (0x100 + 4 * n.toNat) = some (0x100 + 4 * n.toNat, semRow) :=
    findRow_at (r := semRow) (pre := tab_3_2 ++ tab_3_5) rfl (by decide) n.isLt (by decide) (by decide)
  have ho : R.SEM t.toNat n.toNat = 0x8000000 + 0x10000 * t.toNat + (0x100 + 4 * n.toNat) := by unfold R.SEM; omega
  rw [ho, findReg_tile t.isLt (by omega), hrow]
  rfl

theorem findReg_evt {n : Nat} (hn : n < 256) : findReg (R.EVT n) = some (R.EVT n, evtRow) := by
  have hrow : findRow blkG.regs (0x1000 + 4 * n) = some (0x1000 + 4 * n, evtRow) :=
    findRow_at (r := evtRow) (pre := tab_0_1 ++ tab_2_4 ++ tab_2_5 ++ tab_2_15) rfl (by decide) hn (by decide) (by decide)
  unfold R.EVT
  rw [findReg_global (by omega), blockReg]
  simp only [show blkG.base = 0 from rfl, show blkG.stride = 0 from rfl, show blkG.count = 1 from rfl, show blkG.size = 0x2000 from rfl,
    Nat.not_lt_zero, if_false, if_true, Nat.zero_mul, Nat.add_zero, Nat.sub_zero, Nat.zero_add, hrow]
  exact if_pos ⟨Nat.one_pos, by omega⟩

/-- A register that its row starts at reads its row's reset value, outside the ledger's tables. -/
theorem regReset_of_findReg {o : Nat} {r : RegRow} (hf : findReg o = some (o, r)) (hled : ¬ (0x1000000 ≤ o ∧ o < 0x1001000)) :
    regReset o = BitVec.ofNat 64 (rowReset r) := by
  unfold regReset
  rw [if_neg (by unfold R.LEDG_COEF; omega), if_neg (by unfold R.LEDG_VTAB; omega), hf]
  exact if_pos rfl

/-! ### What reset leaves -/

theorem rraw_reset (o : Nat) : rraw State.reset o = (regReset o).toNat := rfl

theorem semVal_reset (t : TileId) (n : SemIdx) : semVal State.reset t n = 0 := by
  have hled : ¬ (0x1000000 ≤ R.SEM t.toNat n.toNat ∧ R.SEM t.toNat n.toNat < 0x1001000) := by unfold R.SEM; omega
  rw [semVal, rget, rraw_reset, regReset_of_findReg (findReg_sem t n) hled]
  rfl

theorem rraw_reset_evt {n : Nat} (hn : n < 256) : rraw State.reset (R.EVT n) = 0 := by
  have hled : ¬ (0x1000000 ≤ R.EVT n ∧ R.EVT n < 0x1001000) := by unfold R.EVT; omega
  rw [rraw_reset, regReset_of_findReg (findReg_evt hn) hled]
  rfl

/-- Every tile's core registers are zero: reset lists no tile. -/
theorem coreRegs_reset (t : TileId) : (∀ r, rdS State.reset t r = 0) ∧ (∀ r, rdV State.reset t r = 0) ∧ (∀ r, rdP State.reset t r = 0) ∧
    (∀ r, rdD State.reset t r = 0) ∧ ∀ r, rdG State.reset t r = 0 := by
  exact ⟨fun r => ite_self 0, fun _ => rfl, fun _ => rfl, fun _ => rfl, fun r => ite_self 0⟩

/-- Settles O4: what nothing has written reads as its default, which for a register is its row's reset value. -/
theorem resetValues : Obligations.ResetValues := by
  unfold Obligations.ResetValues
  refine ⟨rfl, mwf_nil _, fun _ => rfl, rraw_reset, fun t => ?_, by decide, fun n => rraw_reset_evt⟩
  obtain ⟨hs, hv, hp, hd, hg⟩ := coreRegs_reset t
  exact ⟨hs, hv, hp, hd, hg, semVal_reset t⟩

end Sys2Proof
end

section
/-! Host accesses: the gate every access passes, the plain write of a register, and the reads of BAR0. -/

namespace Sys2Proof

open Sys2Proof.Machine

/-! ### The gate -/

theorem hostWrite_of_reaches {s : Machine.State} {n : Nat} (f : Machine.State → Machine.State) (h : HostReaches s n) :
    hostWrite n f s = f s := by
  obtain ⟨hcold, hhio, hon⟩ := h
  simp [hostWrite, hcold, hhio, hon]

theorem hostWrite_of_turned {s : Machine.State} {n : Nat} (f : Machine.State → Machine.State) (h : HostTurned s n) :
    hostWrite n f s = rinc R.PDC_HOST_DROP F.PDC_HOST_DROP_COUNT 1 s := by
  obtain ⟨hcold, hhio, hoff⟩ := h
  simp [hostWrite, hcold, hhio, hoff]

theorem hostRead4_of_reaches {s : Machine.State} {o : Nat} (h : HostReaches s (regDom s o)) : hostRead4 o s = hostReads s o := by
  obtain ⟨hcold, hhio, hon⟩ := h
  simp [hostRead4, hostReads, hcold, hhio, hon]

theorem hostRead4_of_turned {s : Machine.State} {o : Nat} (h : HostTurned s (regDom s o)) : hostRead4 o s = (2 ^ 32 - 1, s) := by
  obtain ⟨hcold, hhio, hoff⟩ := h
  simp [hostRead4, hcold, hhio, hoff]

theorem countedUp_rinc {o : Nat} {f : Fld} (s : Machine.State) (h : f.lo + f.w ≤ 64) : CountedUp o f s (rinc o f 1 s) := by
  have hpos := Nat.two_pow_pos f.w
  unfold CountedUp rinc satAdd
  rw [rget_rset_same _ _ _ _ h, Nat.mod_eq_of_lt (by omega)]

theorem countedUp_hostDrop (s : Machine.State) :
    CountedUp R.PDC_HOST_DROP F.PDC_HOST_DROP_COUNT s (rinc R.PDC_HOST_DROP F.PDC_HOST_DROP_COUNT 1 s) :=
  countedUp_rinc s (by decide)

theorem onlyRegs_hostDrop (s : Machine.State) :
    OnlyRegs [R.PDC_HOST_DROP] s (rinc R.PDC_HOST_DROP F.PDC_HOST_DROP_COUNT 1 s) :=
  onlyRegs_rset _ _ (by simp) (.refl _ s)

/-! ### The registers an access covers -/

theorem regPieces_whole {o n v : Nat} {r : RegRow} (hf : findReg o = some (o, r)) (hn : n = r.bytes) (h8 : r.bytes = 4 ∨ r.bytes = 8) :
    regPieces o n v = [(o, r, 2 ^ (8 * r.bytes) - 1, v)] := by
  subst hn
  simp only [regPieces, hf, if_pos h8.symm, Nat.sub_self, Nat.mul_zero, Nat.shiftLeft_zero]

theorem regPieces_gap {o v : Nat} (hf : findReg o = none) : regPieces o 4 v = [] := by
  simp [regPieces, hf]

/-! ### The merge of a written value -/

/-- Replacing the bits of `a` under `m` by those of `v` stays within `k` bits. -/
theorem sub_and_add_and_lt (k a m v : Nat) (ha : a < 2 ^ k) (hm : m < 2 ^ k) : a - (a &&& m) + (v &&& m) < 2 ^ k := by
  induction k generalizing a m v with
  | zero => simp_all
  | succ k ih =>
    have hrest := ih (a / 2) (m / 2) (v / 2) (by omega) (by omega)
    have hle : a / 2 &&& m / 2 ≤ a / 2 := Nat.and_le_left
    rw [← Nat.and_div_two, ← Nat.and_div_two] at hrest
    rw [← Nat.and_div_two] at hle
    have hbit := Nat.and_mod_two_eq_one (a := a) (b := m)
    have hbit' := Nat.and_mod_two_eq_one (a := v) (b := m)
    omega

/-- A merge is a register value: it has no bit that the old value or the mask has not room for. -/
theorem regMerge_lt (r : RegRow) {old mask : Nat} (v : Nat) (hold : old < 2 ^ 64) (hmask : mask < 2 ^ 64) :
    regMerge r old mask v < 2 ^ 64 := by
  unfold regMerge
  refine Nat.or_lt_two_pow (lt_of_le_of_lt (Nat.sub_le ..) ?_) ?_
  · exact sub_and_add_and_lt 64 old _ v hold (Nat.and_lt_two_pow _ hmask)
  · exact Nat.lt_of_le_of_lt Nat.and_le_left (Nat.and_lt_two_pow _ hmask)

/-- A plain write leaves the merged value in its register and touches no other. -/
theorem rraw_regPlain (o : Nat) (r : RegRow) {mask : Nat} (v : Nat) (s : Machine.State) (hmask : mask < 2 ^ 64) :
    rraw (regPlain o r mask v s) o = regMerge r (rraw s o) mask v := by
  rw [regPlain, rraw_rput_same, Nat.mod_eq_of_lt (regMerge_lt r v (rraw_lt s o) hmask)]

theorem onlyRegs_regPlain (o : Nat) (r : RegRow) (mask v : Nat) (s : Machine.State) : OnlyRegs [o] s (regPlain o r mask v s) :=
  onlyRegs_rput _ (by simp) (.refl _ s)

/-! ### Registers written plainly -/

theorem mem_plainHostRegs {o : Nat} (h : o ∈ plainHostRegs) :
    o ∈ [R.CP_CFG, R.HOSTWIN, R.LEDG_BUDGET, R.MIR_CFG, R.MIR_IN_BASE, R.MIR_PEER_BASE, R.ACC_PLAN, R.ACC_N] ∨
      ∃ k < 64, o = R.MSIX_ADDR k ∨ o = R.MSIX_DATA k := by
  simpa [plainHostRegs, or_assoc] using h

theorem regWrite_msixEntry {o : Nat} (r : RegRow) (mask v : Nat) (s : Machine.State) (hlo : 0x140000 ≤ o) (hhi : o < 0x148000)
    (hctl : o % 16 ≠ 12) : regWrite o r mask v s = regPlain o r mask v s := by
  simp (disch := omega) only [regWrite, tileOff, R.EXD_CMD, if_neg]

theorem regWrite_plain {o : Nat} (r : RegRow) (mask v : Nat) (s : Machine.State) (h : o ∈ plainHostRegs) :
    regWrite o r mask v s = regPlain o r mask v s := by
  rcases mem_plainHostRegs h with h | ⟨k, hk, rfl | rfl⟩
  · fin_cases h <;> rfl
  · apply regWrite_msixEntry <;> unfold R.MSIX_ADDR <;> omega
  · apply regWrite_msixEntry <;> unfold R.MSIX_DATA <;> omega

theorem regWrite_trip (r : RegRow) (mask v : Nat) (s : Machine.State) :
    regWrite R.PDC_TRIP r mask v s = regPlain R.PDC_TRIP r mask v s := rfl

/-! ### The ledger's budget, the trip register and the unroutable counter -/

/-- The row of `LEDG_BUDGET` (Table 14-7). -/
def budgetRow : RegRow := ⟨0x8, 4, 1, 0, [⟨F.LEDG_BUDGET_W, .rw, 4200⟩]⟩

/-- The row of `PDC_TRIP` (Table 15-9). -/
def tripRow : RegRow := ⟨0x2040, 4, 1, 0, [⟨F.PDC_TRIP_TRIPPED, .w1c, 0⟩, ⟨F.PDC_TRIP_TJ, .ro, 0⟩]⟩

/-- The row of `MOS_UNROUTABLE` (Table 13-15). -/
def unroutableRow : RegRow := ⟨0x20, 4, 1, 0, [⟨F.MOS_UNROUTABLE_COUNT, .rc, 0⟩]⟩

theorem findReg_budget : findReg R.LEDG_BUDGET = some (R.LEDG_BUDGET, budgetRow) := by decide

theorem findReg_trip : findReg R.PDC_TRIP = some (R.PDC_TRIP, tripRow) := by decide

theorem findReg_unroutable : findReg R.MOS_UNROUTABLE = some (R.MOS_UNROUTABLE, unroutableRow) := by decide

/-- `W` takes the value; the register has no other field. -/
theorem regMerge_budget (old v : Nat) :
    regMerge budgetRow old (2 ^ (8 * budgetRow.bytes) - 1) v = old - old % 2 ^ 16 + v % 2 ^ 16 := by
  have hrw : (accMask budgetRow (fun a => decide (a = .rw))).land (2 ^ (8 * budgetRow.bytes) - 1) = 2 ^ 16 - 1 := by decide
  have hw1c : (accMask budgetRow (fun a => decide (a = .w1c))).land (2 ^ (8 * budgetRow.bytes) - 1) = 0 := by decide
  have hw1s : (accMask budgetRow (fun a => decide (a = .w1s))).land (2 ^ (8 * budgetRow.bytes) - 1) = 0 := by decide
  simp only [regMerge, hrw, hw1c, hw1s, Nat.land_eq, Nat.lor_eq, Nat.and_two_pow_sub_one_eq_mod, Nat.zero_and, Nat.and_zero, Nat.or_zero,
    Nat.sub_zero]

/-- A 1 clears `TRIPPED`; `TJ` takes no write. -/
theorem regMerge_trip (old v : Nat) :
    regMerge tripRow old (2 ^ (8 * tripRow.bytes) - 1) v = old - old % 2 * (v % 2) := by
  have hrw : (accMask tripRow (fun a => decide (a = .rw))).land (2 ^ (8 * tripRow.bytes) - 1) = 0 := by decide
  have hw1c : (accMask tripRow (fun a => decide (a = .w1c))).land (2 ^ (8 * tripRow.bytes) - 1) = 1 := by decide
  have hw1s : (accMask tripRow (fun a => decide (a = .w1s))).land (2 ^ (8 * tripRow.bytes) - 1) = 0 := by decide
  simp only [regMerge, hrw, hw1c, hw1s, Nat.land_eq, Nat.lor_eq, Nat.zero_and, Nat.and_zero, Nat.or_zero, Nat.sub_zero, Nat.add_zero,
    Nat.one_and_eq_mod_two]
  rcases Nat.mod_two_eq_zero_or_one v with h | h <;> simp [h]

theorem rgnView_outside {s : Machine.State} {o : Nat} (v : Nat) (h : ¬ (0x3000000 ≤ o ∧ o < 0x4000000)) : rgnView s o v = v := by
  unfold rgnView
  exact if_neg (by tauto)

theorem regDom_unroutable (s : Machine.State) : regDom s R.MOS_UNROUTABLE = hostCtl s := by
  simp [regDom, R.MOS_UNROUTABLE]

/-- A read of the unroutable counter gives its count and clears it. -/
theorem hostReads_unroutable (s : Machine.State) :
    hostReads s R.MOS_UNROUTABLE = (rget s R.MOS_UNROUTABLE F.MOS_UNROUTABLE_COUNT,
      rput R.MOS_UNROUTABLE (rraw s R.MOS_UNROUTABLE - rraw s R.MOS_UNROUTABLE % 2 ^ 32) s) := by
  have hread : accMask unroutableRow (fun a => decide (a ≠ .wo)) = 2 ^ 32 - 1 := by decide
  have hclr : (accMask unroutableRow (fun a => decide (a = .rc))).land (0xFFFFFFFF <<< 0) = 2 ^ 32 - 1 := by decide
  have hview : regView s R.MOS_UNROUTABLE = rraw s R.MOS_UNROUTABLE := rfl
  unfold hostReads regRead4
  rw [rgnView_outside _ (by decide)]
  simp only [findReg_unroutable, Nat.sub_self, Nat.mul_zero, hread, hclr, hview, Nat.land_eq, Nat.and_two_pow_sub_one_eq_mod]
  simp [rget, bits, F.MOS_UNROUTABLE_COUNT]

theorem natLe_ones : natLe 4 (2 ^ 32 - 1) = List.replicate 4 255 := by decide

/-! ### Completion -/

theorem barServed_register {o n : Nat} {r : RegRow} (hn : n = r.bytes) (h8 : r.bytes = 4 ∨ r.bytes = 8) (hal : o % r.bytes = 0) :
    barServed o n = true := by
  subst hn
  simp [barServed, h8, hal]

section
variable {off : BitVec 28} {n : BitVec 4} {s : Machine.State}

theorem registerWrite_of_reaches (x : BitVec 64) (hb : barServed off.toNat n.toNat = true) (h : HostReaches s (regDom s off.toNat)) :
    exec (.registerWrite off n x) s = .next ((regPieces off.toNat n.toNat (x.toNat % 2 ^ (8 * n.toNat))).foldl
      (fun s p => regWrite p.1 p.2.1 p.2.2.1 p.2.2.2 s) s) := by
  simp only [exec, execRegisterWrite, hb, if_true, hostWrite_of_reaches _ h]

theorem registerWrite_of_turned (x : BitVec 64) (hb : barServed off.toNat n.toNat = true) (h : HostTurned s (regDom s off.toNat)) :
    exec (.registerWrite off n x) s = .next (rinc R.PDC_HOST_DROP F.PDC_HOST_DROP_COUNT 1 s) := by
  simp only [exec, execRegisterWrite, hb, if_true, hostWrite_of_turned _ h]

/-- A write of one whole register is its write of all bits. -/
theorem registerWrite_whole (x : BitVec 64) {r : RegRow} (hf : findReg off.toNat = some (off.toNat, r)) (hn : n.toNat = r.bytes)
    (h8 : r.bytes = 4 ∨ r.bytes = 8) (hal : off.toNat % r.bytes = 0) (h : HostReaches s (regDom s off.toNat)) :
    exec (.registerWrite off n x) s =
      .next (regWrite off.toNat r (2 ^ (8 * r.bytes) - 1) (x.toNat % 2 ^ (8 * r.bytes)) s) := by
  rw [registerWrite_of_reaches x (barServed_register hn h8 hal) h, regPieces_whole hf hn h8, hn]
  rfl

theorem registerWrite_gap (x : BitVec 64) (hf : findReg off.toNat = none) (hal : off.toNat % 4 = 0)
    (h : HostReaches s (regDom s off.toNat)) : exec (.registerWrite off 4 x) s = .next s := by
  rw [registerWrite_of_reaches x (by simp [barServed, hal]) h]
  exact congrArg (fun l => Host.Outcome.next (List.foldl _ s l)) (regPieces_gap hf)

theorem rcCounterRead_four (hal : off.toNat % 4 = 0) : exec (.rcCounterRead off 4) s =
    .next { (hostRead4 off.toNat s).2 with hostRead := natLe 4 (hostRead4 off.toNat s).1 } := by
  simp [exec, execRcCounterRead, barServed, hal]

theorem rcCounterRead_eight (hal : off.toNat % 8 = 0) : exec (.rcCounterRead off 8) s =
    .next { (hostRead4 (off.toNat + 4) (hostRead4 off.toNat s).2).2 with
      hostRead := natLe 4 (hostRead4 off.toNat s).1 ++ natLe 4 (hostRead4 (off.toNat + 4) (hostRead4 off.toNat s).2).1 } := by
  simp [exec, execRcCounterRead, barServed, hal]

theorem registerWrite_plain (x : BitVec 64) {r : RegRow} (hf : findReg off.toNat = some (off.toNat, r)) (hn : n.toNat = r.bytes)
    (h8 : r.bytes = 4 ∨ r.bytes = 8) (hal : off.toNat % r.bytes = 0) (h : HostReaches s (regDom s off.toNat))
    (hp : off.toNat ∈ plainHostRegs) : ∃ v, exec (.registerWrite off n x) s = .next v ∧ OnlyRegs [off.toNat] s v ∧
      rraw v off.toNat = regMerge r (rraw s off.toNat) (2 ^ (8 * r.bytes) - 1) (x.toNat % 2 ^ (8 * r.bytes)) := by
  have hmask : 2 ^ (8 * r.bytes) - 1 < 2 ^ 64 := by rcases h8 with e | e <;> simp [e]
  rw [registerWrite_whole x hf hn h8 hal h, regWrite_plain _ _ _ _ hp]
  exact ⟨_, rfl, onlyRegs_regPlain .., rraw_regPlain _ _ _ _ hmask⟩

theorem registerWrite_budget (x : BitVec 64) (ho : off.toNat = R.LEDG_BUDGET) (h : HostReaches s (hostCtl s)) :
    ∃ v, exec (.registerWrite off 4 x) s = .next v ∧ rget v R.LEDG_BUDGET F.LEDG_BUDGET_W = x.toNat % 2 ^ 16 ∧
      OnlyRegs [R.LEDG_BUDGET] s v := by
  obtain ⟨v, hv, honly, hraw⟩ := registerWrite_plain (n := 4) x (ho ▸ findReg_budget) rfl (.inl rfl) (by rw [ho]; rfl)
    (by rw [ho]; exact h) (by rw [ho]; simp [plainHostRegs])
  rw [ho] at honly hraw
  refine ⟨v, hv, ?_, honly⟩
  rw [rget, hraw, regMerge_budget]
  simp only [bits, F.LEDG_BUDGET_W, budgetRow, Nat.shiftRight_zero]
  omega

theorem registerWrite_trip (x : BitVec 64) (ho : off.toNat = R.PDC_TRIP) (h : HostReaches s 0) :
    ∃ v, exec (.registerWrite off 4 x) s = .next v ∧ tripped v = (tripped s && !x.getLsbD 0) ∧
      rget v R.PDC_TRIP F.PDC_TRIP_TJ = rget s R.PDC_TRIP F.PDC_TRIP_TJ ∧ OnlyRegs [R.PDC_TRIP] s v := by
  have hw := registerWrite_whole (n := 4) x (ho ▸ findReg_trip) rfl (.inl rfl) (by rw [ho]; rfl) (by rw [ho]; exact h)
  rw [ho, regWrite_trip] at hw
  have hraw := rraw_regPlain R.PDC_TRIP tripRow (x.toNat % 2 ^ (8 * tripRow.bytes)) s (mask := 2 ^ (8 * tripRow.bytes) - 1) (by decide)
  rw [regMerge_trip] at hraw
  refine ⟨_, hw, ?_, ?_, onlyRegs_regPlain ..⟩
  · have hx : x.getLsbD 0 = decide (x.toNat % 2 = 1) := by simp [BitVec.getLsbD]
    have hclear : (rraw s R.PDC_TRIP - rraw s R.PDC_TRIP % 2) % 2 = 0 := by omega
    rw [tripped, rbit, rget, hraw, tripped, rbit, rget, hx]
    simp only [bits, F.PDC_TRIP_TRIPPED, tripRow, Nat.shiftRight_zero]
    rcases Nat.mod_two_eq_zero_or_one x.toNat with hx0 | hx1
    · simp [hx0]
    · simp [hx1, hclear]
  · have hkeep : (rraw s R.PDC_TRIP - rraw s R.PDC_TRIP % 2) / 2 ^ 8 = rraw s R.PDC_TRIP / 2 ^ 8 := by omega
    rw [rget, hraw, rget]
    simp only [bits, F.PDC_TRIP_TJ, tripRow, Nat.shiftRight_eq_div_pow]
    rcases Nat.mod_two_eq_zero_or_one x.toNat with hx0 | hx1
    · simp [hx0]
    · simpa [hx1] using congrArg (· % 256) hkeep

theorem rcCounterRead_unroutable (ho : off.toNat = R.MOS_UNROUTABLE) (h : HostReaches s (hostCtl s)) :
    ∃ v, exec (.rcCounterRead off 4) s = .next v ∧
      v.hostRead = natLe 4 (rget s R.MOS_UNROUTABLE F.MOS_UNROUTABLE_COUNT) ∧ rget v R.MOS_UNROUTABLE F.MOS_UNROUTABLE_COUNT = 0 ∧
      noRead v = noRead s ∧ ∀ p, p ≠ R.MOS_UNROUTABLE → rraw v p = rraw s p := by
  rw [rcCounterRead_four (by rw [ho]; rfl), ho, hostRead4_of_reaches (regDom_unroutable s ▸ h), hostReads_unroutable]
  refine ⟨_, rfl, rfl, ?_, rfl, fun p hp => rraw_rput_other _ _ hp⟩
  refine (rget_rput_same _ _ _ _ (by decide)).trans ?_
  simp only [bits, F.MOS_UNROUTABLE_COUNT, Nat.shiftRight_zero]
  omega

end

/-- Registers as the host reads and writes them, conjunct by conjunct. -/
theorem hostRegisterAccess : Claims.HostRegisterAccess := by
  rintro off n x r s o rfl
  refine ⟨fun hb => ?_, fun hb ht => ?_, ?_, registerWrite_of_reaches x, fun hf hn h8 hal hr => ?_, ?_, ?_, ?_, ?_, ?_, ?_⟩
  · simp [exec, execRegisterWrite, execRcCounterRead, hb]
  · exact ⟨_, registerWrite_of_turned x hb ht, countedUp_hostDrop s, onlyRegs_hostDrop s⟩
  · rintro rfl hb ht
    rw [rcCounterRead_four (by simpa [barServed] using hb), hostRead4_of_turned ht]
    exact congrArg (fun l => Host.Outcome.next { s with hostRead := l }) natLe_ones
  · exact ⟨registerWrite_whole x hf hn h8 hal hr, registerWrite_plain x hf hn h8 hal hr⟩
  · rintro hal rfl hr
    exact ⟨_, by rw [rcCounterRead_four hal, hostRead4_of_reaches hr], rfl⟩
  · rintro hal rfl hr hr'
    exact ⟨_, by rw [rcCounterRead_eight hal, hostRead4_of_reaches hr, hostRead4_of_reaches hr'], rfl⟩
  · rintro hf rfl hal hr
    exact registerWrite_gap x hf hal hr
  · rintro ho rfl hr
    exact registerWrite_budget x ho hr
  · rintro ho rfl hr
    exact registerWrite_trip x ho hr
  · rintro ho rfl hr
    exact rcCounterRead_unroutable ho hr

end Sys2Proof
end

section
/-! The memory window of BAR2: accesses to HBM. -/

namespace Sys2Proof

open Sys2Proof.Machine

/-! ### HBM -/

theorem place_hbm {a : Nat} (h : a < hbmTop) : place a = .hbm (a / 2 ^ 36) := if_pos h

theorem addrOk_hbm (s : Machine.State) {a : Nat} (h : a < hbmTop) : addrOk s a = true := by
  simp only [addrOk, place_hbm h]

theorem localRead_hbm {l : List Nat} {s : Machine.State} (h : ∀ a ∈ l, a < hbmTop) : localRead l s = memRead l s := by
  unfold localRead
  exact if_pos (List.all_eq_true.mpr fun a ha => addrOk_hbm s (h a ha))

theorem localWrite_hbm {c : List (Nat × Byte)} {s : Machine.State} (h : ∀ e ∈ c, e.1 < hbmTop) : localWrite c s = memWrite c s := by
  unfold localWrite
  exact if_pos (List.all_eq_true.mpr fun e he => addrOk_hbm s (h e he))

theorem countCorr_hbm {l : Nat} (s : Machine.State) (h : l * 64 < hbmTop) : countCorr l s = s := by
  simp only [countCorr, place_hbm h]

theorem countUncorr_hbm {c : Nat} (s : Machine.State) (h : c * 32 < hbmTop) : countUncorr c s = s := by
  simp only [countUncorr, place_hbm h]

theorem morLine_hbm {l : Nat} (h : l * 64 < hbmTop) : morLine l = false := by
  simp only [morLine, place_hbm h]

theorem codeword_hbm {l : List Nat} (h : ∀ a ∈ l, a < hbmTop) : ∀ c ∈ codewords l, c * 32 < hbmTop := by
  intro c hc
  simp only [codewords, List.mem_dedup, List.mem_map] at hc
  obtain ⟨a, ha, rfl⟩ := hc
  exact lt_of_le_of_lt (Nat.div_mul_le_self a 32) (h a ha)

/-- No counter counts a correction in HBM. -/
theorem countCorrs_hbm {cs : List Nat} (s : Machine.State) (h : ∀ c ∈ cs, c * 32 < hbmTop) : countCorrs cs s = s := by
  unfold countCorrs
  refine List.foldlRecOn (motive := (· = s)) _ _ rfl fun u hu l hl => ?_
  simp only [List.mem_dedup, List.mem_map, List.mem_filter] at hl
  obtain ⟨c, ⟨hc, -⟩, rfl⟩ := hl
  rw [hu]
  exact countCorr_hbm s (by have := h c hc; omega)

/-- `MOR_ERR` counts no codeword of HBM. -/
theorem countPoison_hbm {cs : List Nat} (s : Machine.State) (h : ∀ c ∈ cs, c * 32 < hbmTop) : countPoison cs s = s := by
  unfold countPoison
  refine if_pos (List.length_eq_zero_iff.mpr (List.filter_eq_nil_iff.mpr fun l hl => ?_))
  simp only [List.mem_dedup, List.mem_map, List.mem_filter] at hl
  obtain ⟨c, ⟨hc, -⟩, rfl⟩ := hl
  rw [morLine_hbm (by have := h c hc; omega)]
  decide

/-- An access to HBM waits for no moraine transaction. -/
theorem lostLines_hbm {l : List Nat} (s : Machine.State) (h : ∀ a ∈ l, a < hbmTop) : lostLines s l = [] := by
  refine List.filter_eq_nil_iff.mpr fun k _ => ?_
  simp only [Bool.and_eq_true, List.any_eq_true, beq_iff_eq, not_and, not_exists]
  rintro hm a ha rfl
  have := h a ha
  rw [morLine_hbm (by omega)] at hm
  exact Bool.noConfusion hm

theorem meetCodeword_hbm_regs {c : Nat} (s : Machine.State) (h : c * 32 < hbmTop) : (meetCodeword c s).2.regs = s.regs := by
  unfold meetCodeword
  split
  · rfl
  · rfl
  · show (setEcc c .poisoned (countUncorr c s)).regs = s.regs
    rw [countUncorr_hbm s h]
    rfl
  · rfl

theorem meetCodewords_hbm_regs {cs : List Nat} (s : Machine.State) (h : ∀ c ∈ cs, c * 32 < hbmTop) :
    (meetCodewords cs s).2.regs = s.regs := by
  induction cs generalizing s with
  | nil => rfl
  | cons c cs ih =>
    exact (ih _ fun d hd => h d (by simp [hd])).trans (meetCodeword_hbm_regs s (h c (by simp)))

theorem raceCells_regs (l : List (Nat × Byte)) (s : Machine.State) : (raceCells l s).2.regs = s.regs := by
  unfold raceCells
  dsimp only
  split <;> rfl

theorem raceCells_length (l : List (Nat × Byte)) (s : Machine.State) : (raceCells l s).1.length = l.length := by
  unfold raceCells
  dsimp only
  split <;> simp

/-- A read of HBM, whatever it meets, changes no register. -/
theorem memRead_hbm_regs {l : List Nat} (s : Machine.State) (h : ∀ a ∈ l, a < hbmTop) : (memRead l s).2.2.regs = s.regs := by
  have hc := codeword_hbm h
  unfold memRead
  simp only [lostLines_hbm s h, countCorrs_hbm s hc, countPoison_hbm s hc]
  have hm := meetCodewords_hbm_regs s hc
  split
  next hlost => simp at hlost
  · split
    · exact (raceCells_regs _ _).trans hm
    · exact hm

theorem memRead_length {l : List Nat} {s : Machine.State} (h : (memRead l s).1 = .ok) : (memRead l s).2.1.length = l.length := by
  unfold memRead at h ⊢
  dsimp only at h ⊢
  split at h
  · cases h
  · rename_i hl
    split at h
    · rename_i hr
      simp [hl, hr, raceCells_length]
    · cases h

/-! ### Cells of consecutive bytes -/

/-- A byte list written at consecutive addresses, as one address sees it. -/
theorem foldl_zipIdx_cells (data : List Byte) (a x k : Nat) (b : Byte) :
    ((data.zipIdx k).map (fun p => (a + p.2, p.1))).foldl (fun b c => if x = c.1 then c.2 else b) b =
      if a + k ≤ x then (data[x - (a + k)]?).getD b else b := by
  induction data generalizing k b with
  | nil => simp
  | cons d data ih =>
    rw [List.zipIdx_cons, List.map_cons, List.foldl_cons, ih]
    rcases Nat.lt_trichotomy x (a + k) with hx | rfl | hx
    · rw [if_neg (by omega), if_neg (by omega), if_neg (by omega)]
    · simp
    · obtain ⟨i, rfl⟩ : ∃ i, x = a + k + i + 1 := ⟨x - (a + k) - 1, by omega⟩
      rw [if_pos (by omega), if_neg (by dsimp only; omega), if_pos (by omega), show a + k + i + 1 - (a + k) = i + 1 by omega,
        show a + k + i + 1 - (a + (k + 1)) = i by omega, List.getElem?_cons_succ]

/-- A write of bytes to HBM that are as they were written stores them and nothing else. -/
theorem memWrite_hbm_good {data : List Byte} {a : Nat} {s : Machine.State} (htop : a + data.length ≤ hbmTop)
    (hclean : ∀ k, k < data.length → Clean s (a + k)) :
    let v := (memWrite (data.zipIdx.map (fun p => (a + p.2, p.1))) s).2
    OnlyMem s v ∧ rdBytes v a data.length = data ∧ ∀ b, b < a ∨ a + data.length ≤ b → rdByte v b = rdByte s b := by
  intro v
  have hcell : ∀ e ∈ data.zipIdx.map (fun p => (a + p.2, p.1)), e.1 < hbmTop ∧ Clean s e.1 := by
    intro e he
    obtain ⟨p, hp, rfl⟩ := List.mem_map.mp he
    have hlt : p.2 < data.length := by simpa using List.snd_lt_add_of_mem_zipIdx hp
    exact ⟨by dsimp only; omega, hclean _ hlt⟩
  obtain ⟨-, honly, hbyte⟩ := localWrite_good (s := s) fun e he => ⟨addrOk_hbm s (hcell e he).1, (hcell e he).2⟩
  rw [localWrite_hbm fun e he => (hcell e he).1] at honly hbyte
  replace hbyte : ∀ x, rdByte v x = if a ≤ x then (data[x - a]?).getD (rdByte s x) else rdByte s x :=
    fun x => (hbyte x).trans (foldl_zipIdx_cells data a x 0 _)
  refine ⟨honly, List.ext_getElem (by simp [rdBytes]) fun i _ hi => ?_, ?_⟩
  · simp [rdBytes, hbyte, List.getElem?_eq_getElem hi]
  · rintro b (hb | hb)
    · rw [hbyte, if_neg (by omega)]
    · rw [hbyte, if_pos (by omega), List.getElem?_eq_none (by omega), Option.getD_none]

/-! ### The window -/

theorem barAddr_top (s : Machine.State) {o n : Nat} (h : o + n ≤ 2 ^ 36) : barStack s * 2 ^ 36 + o + n ≤ hbmTop := by
  have hstack : barStack s < 2 ^ 4 := rget_lt s _ _
  unfold hbmTop
  omega

theorem barAddr_inside (s : Machine.State) {o : Nat} (h : o < 2 ^ 36) : barAddr s o = barStack s * 2 ^ 36 + o := by
  rw [barAddr, Nat.mod_eq_of_lt h]

/-- The addresses of a read that stays in the window. -/
theorem barAddr_range (s : Machine.State) {o n : Nat} (h : o + n ≤ 2 ^ 36) :
    (List.range n).map (fun i => barAddr s (o + i)) = (List.range n).map (fun i => barStack s * 2 ^ 36 + o + i) := by
  refine List.map_congr_left fun i hi => ?_
  rw [List.mem_range] at hi
  rw [barAddr_inside s (by omega), Nat.add_assoc]

/-- The cells of a write that stays in the window. -/
theorem barAddr_cells (s : Machine.State) {o : Nat} {data : List Byte} (h : o + data.length ≤ 2 ^ 36) :
    data.zipIdx.map (fun p => (barAddr s (o + p.2), p.1)) = data.zipIdx.map (fun p => (barStack s * 2 ^ 36 + o + p.2, p.1)) := by
  refine List.map_congr_left fun p hp => ?_
  have hlt : p.2 < data.length := by simpa using List.snd_lt_add_of_mem_zipIdx hp
  rw [barAddr_inside s (by omega), Nat.add_assoc]

section
variable {off : BitVec 36} {s : Machine.State}

theorem bar2Write_open {data : List Byte} (hopen : barOpen s = true) (hin : off.toNat + data.length ≤ 2 ^ 36) :
    exec (.bar2Access off (.write data)) s =
      .next (memWrite (data.zipIdx.map (fun p => (barStack s * 2 ^ 36 + off.toNat + p.2, p.1))) s).2 := by
  simp only [exec, execBar2Access, hopen, if_true, barAddr_cells s hin]

/-- The addresses that a read in the window meets are HBM's. -/
theorem window_hbm (s : Machine.State) {o n : Nat} (hin : o + n ≤ 2 ^ 36) :
    ∀ a ∈ (List.range n).map (fun i => barStack s * 2 ^ 36 + o + i), a < hbmTop := by
  have htop := barAddr_top s hin
  simp only [List.mem_map, List.mem_range]
  rintro _ ⟨i, hi, rfl⟩
  omega

theorem bar2Read_good {n : Nat} (hopen : barOpen s = true) (hin : off.toNat + n ≤ 2 ^ 36)
    (hclean : ∀ k, k < n → Clean s (barStack s * 2 ^ 36 + off.toNat + k)) :
    exec (.bar2Access off (.read n)) s = .next { s with hostRead := rdBytes s (barStack s * 2 ^ 36 + off.toNat) n } := by
  have hsound : ∀ a ∈ (List.range n).map (fun i => barStack s * 2 ^ 36 + off.toNat + i), addrOk s a = true ∧ Clean s a := by
    intro a ha
    refine ⟨addrOk_hbm s (window_hbm s hin a ha), ?_⟩
    obtain ⟨i, hi, rfl⟩ := List.mem_map.mp ha
    exact hclean i (List.mem_range.mp hi)
  have hread := (localRead_hbm (window_hbm s hin)).symm.trans (localRead_good hsound)
  simp only [exec, execBar2Access, hopen, if_true, barAddr_range s hin, hread, List.map_map]
  rfl

/-- A read of the window gives as many bytes as it asks for, whatever it meets, and changes neither memory nor a register. -/
theorem bar2Read_frame {n : Nat} (hopen : barOpen s = true) (hin : off.toNat + n ≤ 2 ^ 36) :
    ∃ v, exec (.bar2Access off (.read n)) s = .next v ∧ v.hostRead.length = n ∧ v.mem = s.mem ∧ v.regs = s.regs := by
  have hmem := memRead_mem ((List.range n).map (fun i => barStack s * 2 ^ 36 + off.toNat + i)) s
  have hregs := memRead_hbm_regs s (window_hbm s hin)
  simp only [exec, execBar2Access, hopen, if_true, barAddr_range s hin]
  split
  · rename_i hok
    exact ⟨_, rfl, (memRead_length hok).trans (by simp), hmem, hregs⟩
  · exact ⟨_, rfl, by simp, hmem, hregs⟩

theorem bar2_closed (h : HostTurned s (48 + barStack s)) : barOpen s = false := by
  obtain ⟨-, -, hoff⟩ := h
  simp [barOpen, hoff]

theorem bar2Write_turned (data : List Byte) (h : HostTurned s (48 + barStack s)) :
    exec (.bar2Access off (.write data)) s = .next (rinc R.PDC_HOST_DROP F.PDC_HOST_DROP_COUNT 1 s) := by
  obtain ⟨-, hhio, -⟩ := id h
  simp [exec, execBar2Access, bar2_closed h, hhio]

theorem bar2Read_turned (n : Nat) (h : HostTurned s (48 + barStack s)) : exec (.bar2Access off (.read n)) s =
    .next { rinc R.PDC_HOST_DROP F.PDC_HOST_DROP_COUNT 1 s with hostRead := List.replicate n 255 } := by
  obtain ⟨-, hhio, -⟩ := id h
  simp [exec, execBar2Access, bar2_closed h, hhio]

theorem hostwinWrite_of_reaches (x : BitVec 32) (h : HostReaches s (hostCtl s)) :
    exec (.hostwinWrite x) s = .next (rset R.HOSTWIN F.HOSTWIN_STACK x.toNat s) := by
  simp only [exec, execHostwinWrite, hostWrite_of_reaches _ h]

end

/-- BAR2 accesses and the move of the window, conjunct by conjunct. -/
theorem hostMemoryWindow : Claims.HostMemoryWindow := by
  rintro off data n x s _ rfl
  refine ⟨fun hopen hin hclean => ?_, bar2Read_good, fun hopen hin _ => bar2Read_frame hopen hin, fun ht => ⟨?_, ?_⟩, fun hr => ?_⟩
  · exact ⟨_, bar2Write_open hopen hin, memWrite_hbm_good (barAddr_top s hin) hclean⟩
  · exact ⟨_, bar2Write_turned data ht, countedUp_hostDrop s, onlyRegs_hostDrop s⟩
  · exact ⟨_, bar2Read_turned n ht, rfl, countedUp_hostDrop s, rfl⟩
  · exact ⟨_, hostwinWrite_of_reaches x hr, rget_rset_same _ _ _ _ (by decide), onlyRegs_rset _ _ (by simp) (.refl _ s)⟩

/-- Settles O60: the registers of BAR0, then the window of BAR2. -/
theorem hostAccesses : Obligations.HostAccesses := ⟨hostRegisterAccess, hostMemoryWindow⟩

end Sys2Proof
end

section
/-! SUPPORT. What leaves memory as it is, part 1: operations, in the order of the modules that define them. An operation that
can write bytes is not among them. -/

namespace Sys2Proof.Machine

/-- The state an X-core instruction leaves to the rules that finish it. -/
def XOut.state : XOut → State
  | .retire s | .jump _ s | .wait _ _ s | .load _ s | .stall s | .fault _ _ s => s

/-- The state an F-core instruction leaves to the rules that finish it. -/
def FOut.state : FOut → State
  | .retire s | .jump _ s | .wait _ _ _ s | .pend s | .fault _ _ s => s
theorem xRetire_state (s) : (XOut.retire s).state = s := rfl
theorem xJump_state (pc s) : (XOut.jump pc s).state = s := rfl
theorem xWait_state (obj w s) : (XOut.wait obj w s).state = s := rfl
theorem xLoad_state (l s) : (XOut.load l s).state = s := rfl
theorem xStall_state (s) : (XOut.stall s).state = s := rfl
theorem xFault_state (st va s) : (XOut.fault st va s).state = s := rfl
theorem fRetire_state (s) : (FOut.retire s).state = s := rfl
theorem fJump_state (pc s) : (FOut.jump pc s).state = s := rfl
theorem fWait_state (obj kind w s) : (FOut.wait obj kind w s).state = s := rfl
theorem fPend_state (s) : (FOut.pend s).state = s := rfl
theorem fFault_state (st va s) : (FOut.fault st va s).state = s := rfl
theorem mem_ite (c : Prop) [Decidable c] (a b : State) : (if c then a else b).mem = if c then a.mem else b.mem := by
  split <;> rfl
theorem state_ite (c : Prop) [Decidable c] (a b : XOut) :
    (if c then a else b).state = if c then a.state else b.state := by
  split <;> rfl
theorem fstate_ite (c : Prop) [Decidable c] (a b : FOut) :
    (if c then a else b).state = if c then a.state else b.state := by
  split <;> rfl
theorem mem_foldl {α : Type} (g : State → α → State) (h : ∀ s x, (g s x).mem = s.mem) (l : List α) (s : State) :
    (l.foldl g s).mem = s.mem := by
  induction l generalizing s with
  | nil => rfl
  | cons x l ih => rw [List.foldl_cons, ih, h]
theorem mem_foldl2 {α β : Type} (g : β × State → α → β × State) (h : ∀ r x, (g r x).2.mem = r.2.mem)
    (l : List α) (r : β × State) : (l.foldl g r).2.mem = r.2.mem := by
  induction l generalizing r with
  | nil => rfl
  | cons x l ih => rw [List.foldl_cons, ih, h]

/-- The state of a pair that is known to be equal to an operation's answer. -/
theorem mem_of_pair {s0 s1 : State} {α : Type} {x : α × State} {r : α} (h : x = (r, s1)) (hx : x.2.mem = s0.mem) :
    s1.mem = s0.mem := by subst h; exact hx

/-- As `mem_of_pair`, for an operation that answers two values. -/
theorem mem_of_triple {s0 s1 : State} {α β : Type} {x : α × β × State} {r : α} {q : β} (h : x = (r, q, s1))
    (hx : x.2.2.mem = s0.mem) : s1.mem = s0.mem := by subst h; exact hx
theorem mem_rwrap (o f v) (s : State) : (rwrap o f v s).mem = s.mem := by rw [rwrap, mem_rset]
theorem mem_rclear (o v) (s : State) : (rclear o v s).mem = s.mem := rfl
theorem mem_modTile (s t f) : (State.modTile s t f).mem = s.mem := rfl
theorem mem_setEcc (c m s) : (setEcc c m s).mem = s.mem := rfl
theorem mem_emBind {ε α β : Type} (x : Except ε α × State)
    (f : α → State → Except ε β × State) (hf : ∀ a s, (f a s).2.mem = s.mem) :
    (emBind x f).2.mem = x.2.mem := by
  obtain ⟨r, s⟩ := x
  cases r <;> simp only [emBind, hf]
theorem mem_emMap {ε α β : Type} (f : α → State → Except ε β × State)
    (hf : ∀ a s, (f a s).2.mem = s.mem) (l : List α) (s : State) : (emMap f l s).2.mem = s.mem := by
  induction l generalizing s with
  | nil => rfl
  | cons a as ih => rw [emMap, mem_emBind _ _ (fun b s => by rw [mem_emBind _ _ (fun _ _ => rfl), ih]), hf]

/-! ### Ops -/

theorem mem_modX (s t f) : (State.modX s t f).mem = s.mem := by
  simp only [State.modX, mem_modTile]
theorem mem_modF (s t f) : (State.modF s t f).mem = s.mem := by
  simp only [State.modF, mem_modTile]
theorem mem_progress (t s) : (progress t s).mem = s.mem := by
  simp only [progress, mem_rput]
theorem mem_hostWrite (n f s) (hf : ∀ u, (f u).mem = u.mem) : (hostWrite n f s).mem = s.mem := by
  simp only [hostWrite, mem_rinc, hf, mem_ite, ite_self]
theorem mem_hostTile (t f s) (hf : ∀ u, (f u).mem = u.mem) : (hostTile t f s).mem = s.mem := by
  simp only [hostTile, mem_hostWrite, hf, mem_ite, ite_self, implies_true]
theorem mem_freeWord (s) : (freeWord s).2.mem = s.mem := by
  simp only [freeWord]

/-! ### Link -/

theorem mem_modPort (s p f) : (State.modPort s p f).mem = s.mem := by
  simp only [State.modPort]
theorem mem_setPortState (p v s) : (setPortState p v s).mem = s.mem := by
  simp only [setPortState, mem_rset]
theorem mem_sendOn (p bad k s) : (sendOn p bad k s).mem = s.mem := by
  simp only [sendOn, mem_modPort, mem_rinc]
theorem mem_freeBuf (b s) : (freeBuf b s).mem = s.mem := by
  simp only [freeBuf]
  split <;> simp only [mem_modPort]
theorem mem_sendHeld (p h s) : (sendHeld p h s).mem = s.mem := by
  simp only [sendHeld, mem_modPort, mem_freeBuf, mem_sendOn]
theorem mem_serveQueue (n p s) : (serveQueue n p s).mem = s.mem := by
  induction n generalizing s with
  | zero => rfl
  | succ n ih =>
    rw [serveQueue]
    split
    · rw [ih, mem_sendHeld]
    · rfl
theorem mem_servePort (p s) : (servePort p s).mem = s.mem := by
  simp only [servePort, mem_serveQueue]
theorem mem_routePkt (h s) : (routePkt h s).mem = s.mem := by
  simp only [routePkt]
  split <;> simp only [mem_freeBuf, mem_servePort, mem_rinc]
theorem mem_sendPkt (k s) : (sendPkt k s).mem = s.mem := by
  simp only [sendPkt, mem_routePkt]
theorem mem_retryPkts (s) : (retryPkts s).mem = s.mem := by
  simp only [retryPkts, mem_routePkt, mem_servePort, mem_foldl, implies_true]
theorem mem_emitTxn (id x s) : (emitTxn id x s).mem = s.mem := by
  simp only [emitTxn]
  split <;> simp only [mem_sendPkt]
theorem mem_sendTxn (x s) : (sendTxn x s).mem = s.mem := by
  simp only [sendTxn, mem_emitTxn]
theorem mem_sendWrite (iss d va cells s) : (sendWrite iss d va cells s).mem = s.mem := by
  simp only [sendWrite, mem_sendTxn, mem_foldl, implies_true]
theorem mem_putTxn (id x s) : (putTxn id x s).mem = s.mem := by
  simp only [putTxn]
theorem mem_dropTxn (id s) : (dropTxn id s).mem = s.mem := by
  simp only [dropTxn]

/-! ### Xlat -/

theorem mem_readEntry (table size idx s) : (readEntry table size idx s).2.mem = s.mem := by
  simp only [readEntry, memRead_mem, mem_ite, ite_self, snd_ite]
theorem mem_walk (d va s) : (walk d va s).2.mem = s.mem := by
  unfold walk
  with_reducible split
  next h => exact mem_of_pair h (mem_readEntry ..)
  next h =>
    replace h := mem_of_pair h (mem_readEntry ..)
    split
    · exact h
    · split
      · exact h
      · with_reducible split
        next h' => exact (mem_of_pair h' (mem_readEntry ..)).trans h
        next h' =>
          replace h' := (mem_of_pair h' (mem_readEntry ..)).trans h
          split <;> exact h'
theorem mem_heldEntry (d va l s) : (heldEntry d va l s).2.mem = s.mem := by
  simp only [heldEntry]
  split <;> simp only [mem_freeWord, mem_ite, ite_self, snd_ite]
theorem mem_findLeaf (t va s) : (findLeaf t va s).2.mem = s.mem := by
  unfold findLeaf
  with_reducible split
  next h => exact mem_of_pair h (mem_heldEntry ..)
  next h =>
    replace h := (mem_rinc (R.XLAT_MISS t.toNat) F.XLAT_MISS_COUNT 1 _).trans (mem_of_pair h (mem_heldEntry ..))
    dsimp only
    with_reducible split
    next h' => exact (mem_modTile ..).trans ((mem_of_pair h' (mem_heldEntry ..)).trans h)
    next h' =>
      replace h' := (mem_of_pair h' (mem_heldEntry ..)).trans h
      with_reducible split
      next hw => exact (mem_of_pair hw (mem_walk ..)).trans h'
      next hw => exact (mem_of_pair hw (mem_walk ..)).trans h'
theorem mem_translate (t va rd wr s) : (translate t va rd wr s).2.mem = s.mem := by
  unfold translate
  split
  · split <;> exact mem_of_pair ‹_› (mem_findLeaf ..)
  · rfl
theorem mem_xlatFault (t va st unit s) : (xlatFault t va st unit s).mem = s.mem := by
  simp only [xlatFault, mem_rput, mem_ite, ite_self]
theorem mem_invalDie (d s) : (invalDie d s).mem = s.mem := by
  rw [invalDie, mem_rset, mem_foldl _ (fun _ _ => mem_modTile ..)]

/-! ### Sync -/

theorem mem_semSet (t n x s) : (semSet t n x s).mem = s.mem := by
  simp only [semSet, mem_rset]
theorem mem_semPost (t n cnt s) : (semPost t n cnt s).mem = s.mem := by
  simp only [semPost, mem_progress, mem_rset, mem_ite, ite_self]
theorem mem_setWaiters (t n l s) : (setWaiters t n l s).mem = s.mem := by
  simp only [setWaiters, mem_modTile]
theorem mem_tellGrant (t n who s) : (tellGrant t n who s).mem = s.mem := by
  simp only [tellGrant]
  split <;> simp only [mem_rwrap, mem_modX, mem_modF, mem_modTile, mem_rset, mem_ite, ite_self]
theorem mem_semGrant (t n s) : (semGrant t n s).mem = s.mem := by
  simp only [semGrant]
  split <;> simp only [mem_setWaiters, mem_tellGrant, mem_semSet, mem_ite, ite_self]
theorem mem_semGrants (k t n s) : (semGrants k t n s).mem = s.mem := by
  induction k generalizing s with
  | zero => rfl
  | succ k ih =>
    rw [semGrants, ih, mem_semGrant]
theorem mem_acquire (t n who cnt s) : (acquire t n who cnt s).2.mem = s.mem := by
  simp only [acquire, mem_setWaiters, mem_semSet, mem_ite, ite_self, snd_ite]
theorem mem_withdraw (t who s) : (withdraw t who s).mem = s.mem := by
  simp only [withdraw, mem_modTile]
theorem mem_semWrite (t n v s) : (semWrite t n v s).mem = s.mem := by
  simp only [semWrite, mem_semSet, mem_rset, mem_ite, ite_self]
theorem mem_semPut (t n v s) : (semPut t n v s).2.mem = s.mem := by
  simp only [semPut, mem_freeWord, mem_ite, ite_self, snd_ite]
theorem mem_setReopen (t w v s) : (setReopen t w v s).mem = s.mem := by
  simp only [setReopen, mem_modTile]
theorem mem_winOpen (t w s) : (winOpen t w s).2.mem = s.mem := by
  simp only [winOpen, mem_setReopen, mem_rset, mem_ite, ite_self, snd_ite]
theorem mem_winClose (t w s) : (winClose t w s).mem = s.mem := by
  simp only [winClose, mem_setReopen, mem_rset, mem_ite, ite_self]
theorem mem_winReopenDone (t w s) : (winReopenDone t w s).mem = s.mem := by
  simp only [winReopenDone]
  split <;> simp only [mem_setReopen, mem_rset]
theorem mem_winRangeWrite (t w v s) : (winRangeWrite t w v s).mem = s.mem := by
  simp only [winRangeWrite, mem_rset, mem_ite, ite_self]
theorem mem_winLate (t offs wdev wtile s) : (winLate t offs wdev wtile s).mem = s.mem := by
  simp only [winLate, mem_rset, mem_rinc, mem_ite, ite_self, mem_foldl, implies_true]
theorem mem_winAdd (t w n s) : (winAdd t w n s).mem = s.mem := by
  simp only [winAdd]
  split <;> simp only [mem_setReopen, mem_progress, mem_rinc]
theorem mem_arrive (id x t serve s) (hserve : ∀ u, (serve u).2.2.mem = u.mem) : (arrive id x t serve s).mem = s.mem := by
  simp only [arrive, mem_putTxn, mem_rinc, hserve, mem_ite, ite_self]
theorem mem_payload (bad cells s) : (payload bad cells s).2.mem = s.mem := by
  simp only [payload, mem_ite, ite_self, snd_ite]

/-! ### Csr -/

theorem mem_regRead4 (o s) : (regRead4 o s).2.mem = s.mem := by
  simp only [regRead4]
  split <;> simp only [mem_rput, mem_ite, ite_self]
theorem mem_regPlain (start r mask v s) : (regPlain start r mask v s).mem = s.mem := by
  simp only [regPlain, mem_rput]
theorem mem_xResume (t s) : (xResume t s).mem = s.mem := by
  simp only [xResume, mem_rset, mem_ite, ite_self]
theorem mem_unitWritten (t lo s) : (unitWritten t lo s).mem = s.mem := by
  simp only [unitWritten, mem_modTile, mem_ite, ite_self]
theorem mem_predGo (t line s) : (predGo t line s).mem = s.mem := by
  simp only [predGo, mem_modTile, mem_rset, mem_ite, ite_self]
theorem mem_tileCsrRead (t lo n s) : (tileCsrRead t lo n s).2.mem = s.mem := by
  simp only [tileCsrRead, mem_regRead4, mem_ite, ite_self, snd_ite]

/-! ### XCore -/

theorem mem_modQueue (s q f) : (State.modQueue s q f).mem = s.mem := by
  simp only [State.modQueue]
theorem mem_modCmd (s q seq f) : (State.modCmd s q seq f).mem = s.mem := by
  simp only [State.modCmd, mem_modQueue]
theorem mem_cmdReport (q seq st detail va s) : (cmdReport q seq st detail va s).mem = s.mem := by
  simp only [cmdReport, mem_modCmd]
theorem mem_setXState (t v s) : (setXState t v s).mem = s.mem := by
  simp only [setXState, mem_rset]
theorem mem_setFState (t v s) : (setFState t v s).mem = s.mem := by
  simp only [setFState, mem_rset]
theorem mem_setSlotState (t sl v s) : (setSlotState t sl v s).mem = s.mem := by
  simp only [setSlotState, mem_rset]
theorem mem_wrS (t r v s) : (wrS t r v s).mem = s.mem := by
  simp only [wrS, mem_modX, mem_ite, ite_self]
theorem mem_wrV (t r v s) : (wrV t r v s).mem = s.mem := by
  simp only [wrV, mem_modX]
theorem mem_wrP (t r v s) : (wrP t r v s).mem = s.mem := by
  simp only [wrP, mem_modX]
theorem mem_wrD (t r v s) : (wrD t r v s).mem = s.mem := by
  simp only [wrD, mem_modX]
theorem mem_slotAbort (t sl st s) : (slotAbort t sl st s).mem = s.mem := by
  simp only [slotAbort, mem_setSlotState, mem_modTile, mem_rset, mem_withdraw, mem_ite, ite_self]
theorem mem_stopUnits (t s) : (stopUnits t s).mem = s.mem := by
  simp only [stopUnits, mem_slotAbort, mem_setFState, mem_modTile, mem_rset, mem_withdraw, mem_ite, ite_self,
      mem_foldl, implies_true]
theorem mem_recordXFault (t source st pc precise illegal s) :
    (recordXFault t source st pc precise illegal s).mem = s.mem := by
  simp only [recordXFault, mem_rput]
theorem mem_abandonTxns (t s) : (abandonTxns t s).mem = s.mem := by
  simp only [abandonTxns]
theorem mem_quitX (t s) : (quitX t s).mem = s.mem := by
  simp only [quitX]
  split <;> simp only [mem_abandonTxns, mem_setReopen, mem_modX, mem_rset, mem_withdraw]
theorem mem_abortTile (t s) : (abortTile t s).mem = s.mem := by
  simp only [abortTile, mem_recordXFault, mem_stopUnits, mem_modX, mem_setXState, mem_quitX, mem_rset, mem_ite,
      ite_self]
theorem mem_abortOthers (q seq t s) : (abortOthers q seq t s).mem = s.mem := by
  simp only [abortOthers]
  split <;> simp only [mem_abortTile, mem_ite, ite_self, mem_foldl, implies_true]
theorem mem_reportTile (t st va s) : (reportTile t st va s).mem = s.mem := by
  simp only [reportTile]
  split <;> simp only [mem_abortOthers, mem_cmdReport, mem_ite, ite_self]
theorem mem_enterFault (t source st pc va precise illegal s) :
    (enterFault t source st pc va precise illegal s).mem = s.mem := by
  simp only [enterFault, mem_recordXFault, mem_reportTile, mem_stopUnits, mem_setXState, mem_quitX]
theorem mem_preciseFault (t st va s) : (preciseFault t st va s).mem = s.mem := by
  simp only [preciseFault, mem_enterFault]
theorem mem_pushFault (t f s) : (pushFault t f s).mem = s.mem := by
  simp only [pushFault, mem_modX]
theorem mem_markFailed (t seq s) : (markFailed t seq s).mem = s.mem := by
  simp only [markFailed, mem_modX]
theorem mem_writeFault (t st pc va seq s) : (writeFault t st pc va seq s).mem = s.mem := by
  simp only [writeFault, mem_pushFault, mem_markFailed]
theorem mem_xRetire (t pc s) : (xRetire t pc s).mem = s.mem := by
  simp only [xRetire, mem_rput, mem_progress, mem_modX, mem_setXState, mem_rinc, mem_ite, ite_self]
theorem mem_xBlock (t obj w s) : (xBlock t obj w s).mem = s.mem := by
  simp only [xBlock, mem_modX, mem_setXState, mem_rset]
theorem mem_xHalt (t s) : (xHalt t s).mem = s.mem := by
  simp only [xHalt, mem_modX, mem_setXState]
theorem mem_fetchWord (t unit pc s) : (fetchWord t unit pc s).2.mem = s.mem := by
  unfold fetchWord
  with_reducible split
  next h => rw [mem_xlatFault, mem_of_pair h (mem_translate ..)]
  next h =>
    rw [← mem_of_pair h (mem_translate ..)]
    split
    · exact localRead_mem ..
    · exact mem_rinc ..
    · exact mem_xlatFault ..
    all_goals rfl
theorem mem_xFetch (t len s) : (xFetch t len s).2.mem = s.mem := by
  unfold xFetch
  dsimp only
  with_reducible split
  next h => exact mem_of_pair h (mem_fetchWord ..)
  next h =>
    replace h := mem_of_pair h (mem_fetchWord ..)
    split
    · with_reducible split <;> exact (mem_of_pair ‹_› (mem_fetchWord ..)).trans h
    · exact h
theorem mem_loadWrite (t dst parts s) : (loadWrite t dst parts s).mem = s.mem := by
  simp only [loadWrite]
  split <;> simp only [mem_wrV, mem_wrS, mem_wrD]
theorem mem_readLine (t va idx iss unit s) : (readLine t va idx iss unit s).2.mem = s.mem := by
  unfold readLine
  dsimp only
  with_reducible split
  next h => rw [mem_xlatFault, mem_of_pair h (mem_translate ..)]
  next h =>
    rw [← mem_of_pair h (mem_translate ..)]
    split
    · split <;> exact localRead_mem ..
    · exact mem_sendTxn ..
    · exact mem_sendTxn ..
    · exact (mem_sendTxn ..).trans (mem_rinc ..)
    · exact mem_xlatFault ..
theorem mem_readLines (t va mk unit k l s) : (readLines t va mk unit k l s).2.mem = s.mem := by
  induction l generalizing k s with
  | nil => rfl
  | cons g gs ih =>
    unfold readLines
    with_reducible split
    next h => exact mem_of_pair h (mem_readLine ..)
    next h =>
      with_reducible split <;> exact (mem_of_pair ‹_› (ih ..)).trans (mem_of_pair h (mem_readLine ..))
theorem mem_xLoad (t va idx dst s) : (xLoad t va idx dst s).state.mem = s.mem := by
  unfold xLoad
  with_reducible split
  next h => exact mem_of_pair h (mem_readLines ..)
  next h =>
    rw [← mem_of_pair h (mem_readLines ..)]
    split
    · exact mem_loadWrite ..
    · rfl
theorem mem_nextSeq (t s) : (nextSeq t s).mem = s.mem := by
  simp only [nextSeq, mem_modX]
theorem mem_firePost (t h s) : (firePost t h s).mem = s.mem := by
  simp only [firePost]
  repeat' split
  all_goals simp only [mem_writeFault, mem_semPost, mem_sendTxn]
theorem mem_xPost (t target cnt obj s) : (xPost t target cnt obj s).state.mem = s.mem := by
  simp only [xPost, mem_nextSeq, mem_firePost, mem_modX, mem_ite, ite_self, state_ite, xRetire_state, xWait_state]
theorem mem_xEndRetire (t s) : (xEndRetire t s).mem = s.mem := by
  simp only [xEndRetire, mem_xRetire, mem_modX, mem_setXState, mem_rset, mem_ite, ite_self]
theorem mem_waitRetire (t w s) : (waitRetire t w s).mem = s.mem := by
  simp only [waitRetire]
  split <;> simp only [mem_xRetire, mem_nextSeq, mem_xEndRetire, mem_modX, mem_setXState, mem_rset]

/-! ### EngMem -/

theorem mem_engReadLine (t unit env vas s) : (engReadLine t unit env vas s).2.mem = s.mem := by
  unfold engReadLine
  dsimp only
  with_reducible split
  next h => rw [mem_xlatFault, mem_of_pair h (mem_translate ..)]
  next h =>
    rw [← mem_of_pair h (mem_translate ..)]
    split
    · split <;> rfl
    · exact mem_rinc ..
    · exact mem_xlatFault ..
    · split
      · rfl
      · split
        · exact localRead_mem ..
        · split <;> exact localRead_mem ..
    · split
      · exact localRead_mem ..
      · split <;> exact localRead_mem ..
theorem mem_engReadLines (t unit env l s) : (engReadLines t unit env l s).2.mem = s.mem := by
  induction l generalizing s with
  | nil => rfl
  | cons g gs ih =>
    unfold engReadLines
    with_reducible split
    next h => exact mem_of_pair h (mem_engReadLine ..)
    next h =>
      with_reducible split <;> exact (mem_of_pair ‹_› (ih ..)).trans (mem_of_pair h (mem_engReadLine ..))
theorem mem_countGathers (t unit n s) : (countGathers t unit n s).mem = s.mem := by
  simp only [countGathers, mem_rinc, mem_ite, ite_self]
theorem mem_engRead (t unit env vas s) : (engRead t unit env vas s).2.mem = s.mem := by
  unfold engRead
  with_reducible split <;> exact (mem_of_pair ‹_› (mem_engReadLines ..)).trans (mem_countGathers ..)
theorem mem_pickWrites {α : Type} (va : α → Nat) (key : Nat → Nat) (cells : List α) (s : State)  :
    (pickWrites va key cells s).2.mem = s.mem := by
  simp only [pickWrites, mem_ite, ite_self]
theorem mem_engRead64 (t unit env va s) : (engRead64 t unit env va s).2.mem = s.mem := by
  unfold engRead64
  with_reducible split <;> exact mem_of_pair ‹_› (mem_engRead ..)

/-! ### Directory -/

theorem mem_alert (n s) : (alert n s).mem = s.mem := by
  simp only [alert, mem_rset, mem_ite, ite_self]
theorem mem_setDirVa (e v s) : (setDirVa e v s).mem = s.mem := by
  simp only [setDirVa, mem_rset]
theorem mem_updSlots (s) : (updSlots s).mem = s.mem := by
  simp only [updSlots, mem_rset]
theorem mem_modExd (s f) : (State.modExd s f).mem = s.mem := by
  simp only [State.modExd]
theorem mem_assignSlot (e s) : (assignSlot e s).mem = s.mem := by
  simp only [assignSlot]
  split <;> simp only [mem_updSlots, mem_modExd]
theorem mem_queueCopy (demand j s) : (queueCopy demand j s).mem = s.mem := by
  simp only [queueCopy, mem_modExd]
theorem mem_endRef (e s) : (endRef e s).mem = s.mem := by
  simp only [endRef, mem_modExd]
theorem mem_cmdStat (st s) : (cmdStat st s).mem = s.mem := by
  simp only [cmdStat, mem_rset]
theorem mem_exdDo (ok eff s) (heff : ∀ u, (eff u).mem = u.mem) : (exdDo ok eff s).mem = s.mem := by
  simp only [exdDo, mem_cmdStat, heff, mem_ite, ite_self]

/-! ### HostBus -/

theorem mem_hostWr (a l s) : (hostWr a l s).mem = s.mem := by
  simp only [hostWr]
theorem mem_sendMsi (v s) : (sendMsi v s).mem = s.mem := by
  simp only [sendMsi, mem_hostWr]
theorem mem_raiseVector (v s) : (raiseVector v s).mem = s.mem := by
  simp only [raiseVector, mem_sendMsi, mem_rput, mem_ite, ite_self]
theorem mem_unmaskVector (v s) : (unmaskVector v s).mem = s.mem := by
  simp only [unmaskVector, mem_sendMsi, mem_rput, mem_ite, ite_self]
theorem mem_deviceEvent (f s) : (deviceEvent f s).mem = s.mem := by
  simp only [deviceEvent, mem_raiseVector, mem_rset]

/-! ### Queue -/

theorem mem_setQState (q v s) : (setQState q v s).mem = s.mem := by
  simp only [setQState, mem_rset]
theorem mem_dropCmd (q seq s) : (dropCmd q seq s).mem = s.mem := by
  simp only [dropCmd, mem_modQueue]
theorem mem_writeRecord (q c st stops step energy kcc s) : (writeRecord q c st stops step energy kcc s).mem = s.mem := by
  simp only [writeRecord, mem_hostWr, mem_modQueue, mem_rset, mem_ite, ite_self]
theorem mem_cmdIrq (q c s) : (cmdIrq q c s).mem = s.mem := by
  simp only [cmdIrq]
  split <;> simp only [mem_raiseVector]
theorem mem_unCandidate (q s) : (unCandidate q s).mem = s.mem := by
  simp only [unCandidate, mem_modQueue]
theorem mem_stopQueue (q seq s) : (stopQueue q seq s).mem = s.mem := by
  simp only [stopQueue, mem_raiseVector, mem_setQState, mem_rput, mem_unCandidate, mem_modQueue, mem_rset, mem_ite,
      ite_self]
theorem mem_completeCmd (q c energy kcc s) : (completeCmd q c energy kcc s).mem = s.mem := by
  simp only [completeCmd, mem_stopQueue, mem_writeRecord, mem_cmdIrq, mem_dropCmd, mem_ite, ite_self]
theorem mem_cpRead (space a n s) : (cpRead space a n s).2.2.mem = s.mem := by
  simp only [cpRead, localRead_mem, mem_ite, ite_self, snd_ite]
theorem mem_fetchLaunch (c s) : (fetchLaunch c s).2.mem = s.mem := by
  simp only [fetchLaunch, mem_freeWord, localRead_mem, mem_ite, ite_self, snd_ite]
theorem mem_addCmd (q c s) : (addCmd q c s).mem = s.mem := by
  simp only [addCmd, mem_modQueue]
theorem mem_fetchEntry (q s) : (fetchEntry q s).mem = s.mem := by
  simp only [fetchEntry, mem_addCmd, mem_modQueue, mem_rset, mem_ite, ite_self]
theorem mem_fetchCmd (q k s) : (fetchCmd q k s).mem = s.mem := by
  simp only [fetchCmd, mem_cpRead, mem_addCmd, mem_fetchLaunch, mem_modQueue, mem_ite, ite_self]
theorem mem_takeTiles (tiles s) : (takeTiles tiles s).mem = s.mem := by
  simp only [takeTiles, mem_modQueue, mem_foldl, implies_true]
theorem mem_dispatchCmd (q c deferred d s) : (dispatchCmd q c deferred d s).mem = s.mem := by
  simp only [dispatchCmd, mem_modCmd, mem_rset, mem_takeTiles, mem_ite, ite_self]
theorem mem_abortLost (q c s) : (abortLost q c s).mem = s.mem := by
  simp only [abortLost, mem_writeRecord, mem_cmdIrq, mem_dropCmd, mem_modQueue, mem_rset, mem_ite, ite_self]
theorem mem_writeQcfg (q v s) : (writeQcfg q v s).mem = s.mem := by
  simp only [writeQcfg, mem_rset, mem_ite, ite_self]
theorem mem_recheck (q s) : (recheck q s).mem = s.mem := by
  simp only [recheck, mem_modQueue]
theorem mem_enableQueue (q s) : (enableQueue q s).mem = s.mem := by
  simp only [enableQueue, mem_setQState, mem_rput, mem_rset, mem_ite, ite_self]
theorem mem_disableQueue (q s) : (disableQueue q s).mem = s.mem := by
  simp only [disableQueue, mem_setQState, mem_unCandidate, mem_rset]
theorem mem_resumeQueue (q s) : (resumeQueue q s).mem = s.mem := by
  refine (mem_foldl _ (fun _ _ => ?_) _ _).trans ((mem_setQState ..).trans (mem_modQueue ..))
  split
  · split
    · exact mem_abortLost ..
    · rfl
  · rfl
theorem mem_qcfgWrite (q v s) : (qcfgWrite q v s).mem = s.mem := by
  simp only [qcfgWrite, mem_resumeQueue, mem_recheck, mem_enableQueue, mem_writeQcfg, mem_disableQueue, mem_rset,
      mem_ite, ite_self]
theorem mem_sqDoorbell (q v s) : (sqDoorbell q v s).mem = s.mem := by
  simp only [sqDoorbell, mem_modQueue, mem_rset, mem_ite, ite_self]
theorem mem_cqDoorbell (q v s) : (cqDoorbell q v s).mem = s.mem := by
  simp only [cqDoorbell, mem_modQueue, mem_rset, mem_ite, ite_self]
theorem mem_endCmd (q seq s) : (endCmd q seq s).mem = s.mem := by
  simp only [endCmd, mem_modCmd]
theorem mem_endWith (q seq st detail va s) : (endWith q seq st detail va s).mem = s.mem := by
  simp only [endWith, mem_endCmd, mem_cmdReport]

/-! ### Scalar -/

theorem mem_xSetS (t rd v s) : (xSetS t rd v s).state.mem = s.mem := by
  simp only [xSetS, mem_wrS, xRetire_state]
theorem mem_spoilSems (t o n busy s) : (spoilSems t o n busy s).mem = s.mem := by
  simp only [spoilSems, mem_freeWord, mem_semSet, mem_foldl, implies_true]

/-! ### Stream -/

theorem mem_wrG (t r v s) : (wrG t r v s).mem = s.mem := by
  simp only [wrG, mem_modF, mem_ite, ite_self]
theorem mem_recordFFault (t v s) : (recordFFault t v s).mem = s.mem := by
  simp only [recordFFault, mem_rput, mem_ite, ite_self]
theorem mem_fFault (t st va illegal s) : (fFault t st va illegal s).mem = s.mem := by
  simp only [fFault, mem_slotAbort, mem_pushFault, mem_setFState, mem_modF, mem_recordFFault, mem_withdraw, mem_foldl,
      implies_true]
theorem mem_fRetire (t pc s) : (fRetire t pc s).mem = s.mem := by
  simp only [fRetire, mem_rput, mem_progress]
theorem mem_fBlock (t obj kind w s) : (fBlock t obj kind w s).mem = s.mem := by
  simp only [fBlock, mem_setFState, mem_modF, mem_rset]
theorem mem_fEndRetire (t s) : (fEndRetire t s).mem = s.mem := by
  simp only [fEndRetire, mem_setFState, mem_fRetire]
theorem mem_slotOpen (t sl va s) : (slotOpen t sl va s).mem = s.mem := by
  simp only [slotOpen, mem_rput, mem_modTile]
theorem mem_fWake (t s) : (fWake t s).mem = s.mem := by
  simp only [fWake]
  repeat' split
  all_goals simp only [mem_fEndRetire, mem_slotOpen, mem_setFState, mem_modF, mem_fRetire]
theorem mem_modSlot (s t sl f) : (State.modSlot s t sl f).mem = s.mem := by
  simp only [State.modSlot, mem_modTile]
theorem mem_streamReport (t sl st va s) : (streamReport t sl st va s).mem = s.mem := by
  simp only [streamReport, mem_pushFault, mem_recordFFault]
theorem mem_slotRefuse (t sl s) : (slotRefuse t sl s).mem = s.mem := by
  simp only [slotRefuse, mem_streamReport, mem_rput]
theorem mem_slotZero (t sl s) : (slotZero t sl s).mem = s.mem := by
  simp only [slotZero, mem_rput]
theorem mem_setPair (t sl d s) : (setPair t sl d s).mem = s.mem := by
  simp only [setPair, mem_freeWord, mem_semSet, mem_ite, ite_self]
theorem mem_slotAccept (t sl d tw s) : (slotAccept t sl d tw s).mem = s.mem := by
  simp only [slotAccept, mem_slotZero, mem_modSlot, mem_rwrap, mem_rput, mem_setPair]
theorem mem_ringRead (t offs s) : (ringRead t offs s).2.2.mem = s.mem := by
  simp only [ringRead, memRead_mem]
theorem mem_bufFault (t sl b st va s) : (bufFault t sl b st va s).mem = s.mem := by
  simp only [bufFault, mem_streamReport, mem_slotAbort, mem_modSlot, mem_xlatFault, mem_rset, mem_ite, ite_self]
theorem mem_remoteFull (t sl d s) : (remoteFull t sl d s).mem = s.mem := by
  simp only [remoteFull, mem_streamReport, mem_slotAbort, mem_semPost, mem_sendTxn, mem_ite, ite_self]
theorem mem_endPosts (t sl s) : (endPosts t sl s).mem = s.mem := by
  simp only [endPosts, mem_remoteFull, mem_semPost, mem_ite, ite_self]
theorem mem_slotAcquire (t sl n idx s) : (slotAcquire t sl n idx s).mem = s.mem := by
  simp only [slotAcquire, mem_acquire, mem_modSlot, mem_rwrap, mem_setSlotState, mem_ite, ite_self]
theorem mem_pastHeld (t sl f s) (hf : ∀ s, (f s).mem = s.mem) : (pastHeld t sl f s).mem = s.mem := by
  unfold pastHeld
  dsimp only
  split
  · exact hf s
  · rfl
theorem mem_issueLine (t sl q g data s) : (issueLine t sl q g data s).mem = s.mem := by
  unfold issueLine
  dsimp only
  with_reducible split
  next h =>
    rw [mem_pastHeld _ _ _ _ (fun _ => mem_modSlot ..), mem_bufFault, mem_of_pair h (mem_translate ..)]
  next h =>
    rw [← mem_of_pair h (mem_translate ..)]
    split
    · rw [mem_modSlot, mem_modTile]
    · rw [mem_modSlot, mem_modTile, mem_sendTxn]
    · rw [mem_modSlot, mem_modTile, mem_sendTxn]
    · rw [mem_modSlot, mem_modTile, mem_sendTxn, mem_rinc]
    · rw [mem_pastHeld _ _ _ _ (fun _ => mem_modSlot ..), mem_bufFault]
theorem mem_dropXfer (t id s) : (dropXfer t id s).mem = s.mem := by
  simp only [dropXfer, mem_modTile]
theorem mem_restoreSnap (t sl s) : (restoreSnap t sl s).mem = s.mem := by
  simp only [restoreSnap, mem_semSet, mem_ite, ite_self]
theorem mem_heldFaults (t sl s) : (heldFaults t sl s).mem = s.mem := by
  simp only [heldFaults]
  repeat' split
  all_goals simp only [mem_streamReport, mem_slotAbort, mem_xlatFault]
theorem mem_slotAfterCancel (t sl s) : (slotAfterCancel t sl s).mem = s.mem := by
  simp only [slotAfterCancel, mem_setSlotState, mem_ite, ite_self]
theorem mem_endIndexStream (t sl s) : (endIndexStream t sl s).mem = s.mem := by
  simp only [endIndexStream, mem_modSlot, mem_restoreSnap, mem_setSlotState, mem_withdraw, mem_ite, ite_self]
theorem mem_slotCancel (t sl n s) : (slotCancel t sl n s).mem = s.mem := by
  simp only [slotCancel, mem_slotAfterCancel, mem_modSlot, mem_endIndexStream, mem_rput, mem_setSlotState, mem_rset,
      mem_withdraw, mem_rinc, mem_ite, ite_self]

/-! ### Mesh -/

theorem mem_writeReply (t pc va seq st s) : (writeReply t pc va seq st s).mem = s.mem := by
  simp only [writeReply, mem_writeFault, mem_ite, ite_self]
theorem mem_leftReply (t seq st s) : (leftReply t seq st s).mem = s.mem := by
  simp only [leftReply]
  split <;> simp only [mem_modX, mem_ite, ite_self]
theorem mem_loadReply (t part va st data s) : (loadReply t part va st data s).mem = s.mem := by
  simp only [loadReply]
  split <;> simp only [mem_xRetire, mem_loadWrite, mem_modX, mem_preciseFault, mem_ite, ite_self]
theorem mem_fLoadReply (t va st data s) : (fLoadReply t va st data s).mem = s.mem := by
  simp only [fLoadReply]
  split <;> simp only [mem_freeWord, mem_fFault, mem_wrG, mem_modF, mem_fRetire, mem_ite, ite_self, snd_ite]
theorem mem_fWriteReply (t va st s) : (fWriteReply t va st s).mem = s.mem := by
  simp only [fWriteReply, mem_fFault, mem_modF, mem_fRetire, mem_ite, ite_self]
theorem mem_slotPostReply (t sl seq st s) : (slotPostReply t sl seq st s).mem = s.mem := by
  simp only [slotPostReply, mem_streamReport, mem_slotAbort, mem_ite, ite_self]
theorem mem_answerPacket (src d unit tag sub st data s) : (answerPacket src d unit tag sub st data s).mem = s.mem := by
  simp only [answerPacket, mem_sendPkt, mem_ite, ite_self]
theorem mem_deliver (id x st data s) : (deliver id x st data s).mem = s.mem := by
  simp only [deliver]
  repeat' split
  all_goals simp only [mem_loadReply, mem_fLoadReply, mem_slotPostReply, mem_dropTxn, mem_leftReply, mem_writeReply,
      mem_putTxn, mem_fWriteReply, mem_modTile, mem_rinc]
theorem mem_takeReply (id x st data s) : (takeReply id x st data s).mem = s.mem := by
  simp only [takeReply]
  split <;> simp only [mem_dropTxn, mem_putTxn, mem_deliver, mem_rinc, mem_ite, ite_self]

/-! ### Launch -/

theorem mem_setQuad (t quad s) : (setQuad t quad s).mem = s.mem := by
  simp only [setQuad, mem_rset]
theorem mem_startTile (q c t s) : (startTile q c t s).mem = s.mem := by
  simp only [startTile, mem_setQuad, mem_rput, mem_setFState, mem_modTile, mem_rset, mem_ite, ite_self]
theorem mem_cancelReqs (mine s) : (cancelReqs mine s).mem = s.mem := by
  simp only [cancelReqs, mem_rset, mem_foldl, implies_true]
theorem mem_cancelAcqs (q seq s) : (cancelAcqs q seq s).mem = s.mem := by
  simp only [cancelAcqs, mem_cancelReqs]
theorem mem_closeTile (q seq quad t s) : (closeTile q seq quad t s).mem = s.mem := by
  simp only [closeTile, mem_setQuad, mem_abortTile, mem_ite, ite_self]
theorem mem_abortLaunchAt (t s) : (abortLaunchAt t s).mem = s.mem := by
  simp only [abortLaunchAt]
  split <;> simp only [mem_abortOthers, mem_cmdReport, mem_abortTile]
theorem mem_drainTile (t s) : (drainTile t s).mem = s.mem := by
  simp only [drainTile, mem_abortLaunchAt, mem_rset]
theorem mem_abandonTile (t s) : (abandonTile t s).mem = s.mem := by
  simp only [abandonTile, mem_modTile]
theorem mem_tileReset (t s) : (tileReset t s).mem = s.mem := by
  simp only [tileReset, mem_drainTile, mem_rset, mem_ite, ite_self]

/-! ### Tensor -/

theorem mem_readCellsBy (unit env who td cs us acc s) : (readCellsBy unit env who td cs us acc s).2.mem = s.mem := by
  induction us generalizing acc s with
  | nil => rfl
  | cons u us ih =>
    unfold readCellsBy
    dsimp only
    with_reducible split
    next h => exact mem_of_pair h (mem_engRead ..)
    next h => exact (ih ..).trans (mem_of_pair h (mem_engRead ..))
theorem mem_readRowBy (tiles unit env who td row stored s) :
    (readRowBy tiles unit env who td row stored s).2.mem = s.mem := by
  simp only [readRowBy, mem_readCellsBy, mem_ite, ite_self, snd_ite]
theorem mem_readRow (t unit env td row stored s) : (readRow t unit env td row stored s).2.mem = s.mem := by
  simp only [readRow, mem_readRowBy]
theorem mem_readRowsBy (tiles unit env who td i2 i3 l s) :
    (readRowsBy tiles unit env who td i2 i3 l s).2.mem = s.mem := by
  induction l generalizing s with
  | nil => rfl
  | cons i l ih =>
    unfold readRowsBy
    with_reducible split
    next h => exact mem_of_pair h (mem_readRowBy ..)
    next h =>
      with_reducible split <;> exact (mem_of_pair ‹_› (ih ..)).trans (mem_of_pair h (mem_readRowBy ..))

/-! ### Collective -/

theorem mem_setGState (g v s) : (setGState g v s).mem = s.mem := by
  simp only [setGState, mem_rset]
theorem mem_grpWrite (g k mask v s) : (grpWrite g k mask v s).mem = s.mem := by
  simp only [grpWrite, mem_setGState, mem_rput, mem_rset, mem_ite, ite_self]
theorem mem_updSegs (e s) : (updSegs e s).mem = s.mem := by
  simp only [updSegs, mem_rset]
theorem mem_sendNotice (dev sub g epoch seq st s) : (sendNotice dev sub g epoch seq st s).mem = s.mem := by
  simp only [sendNotice, mem_sendPkt, mem_ite, ite_self]
theorem mem_segOwner (g st va s) : (segOwner g st va s).mem = s.mem := by
  simp only [segOwner]
  repeat' split
  all_goals simp only [mem_endCmd, mem_modCmd, mem_pushFault, mem_semPost, mem_modX, mem_cmdReport]
theorem mem_dropSeg (g s) : (dropSeg g s).mem = s.mem := by
  simp only [dropSeg, mem_updSegs]
theorem mem_setJobs (st l s) : (setJobs st l s).mem = s.mem := by
  simp only [setJobs]
theorem mem_modChannel (k f s) : (modChannel k f s).mem = s.mem := by
  simp only [modChannel, mem_setJobs]
theorem mem_failInbox (k s) : (failInbox k s).mem = s.mem := by
  simp only [failInbox, mem_modChannel, mem_rset]
theorem mem_segFail (g st va notice s) : (segFail g st va notice s).mem = s.mem := by
  simp only [segFail]
  repeat' split
  all_goals simp only [mem_sendNotice, mem_segOwner, mem_failInbox, mem_dropSeg, mem_setGState, mem_rput, mem_rset,
      mem_foldl, implies_true]
theorem mem_groupAbort (n s) : (groupAbort n s).mem = s.mem := by
  simp only [groupAbort, mem_segFail, mem_foldl, implies_true]
theorem mem_acceptSeg (g s) : (acceptSeg g s).mem = s.mem := by
  simp only [acceptSeg]
  repeat' split
  all_goals simp only [mem_segOwner, mem_updSegs, mem_failInbox, mem_setGState, mem_segFail, mem_rset]
theorem mem_acceptNext (e s) : (acceptNext e s).mem = s.mem := by
  simp only [acceptNext]
  split <;> simp only [mem_acceptSeg, mem_ite, ite_self]
theorem mem_segStep (h s) : (segStep h s).mem = s.mem := by
  simp only [segStep]
  repeat' split
  all_goals simp only [mem_sendNotice, mem_updSegs, mem_freeBuf, mem_segFail, mem_rinc]
theorem mem_takeWaiting (e s) : (takeWaiting e s).mem = s.mem := by
  simp only [takeWaiting, mem_segStep, mem_foldl, implies_true]
theorem mem_pumpSegs (k e s) : (pumpSegs k e s).mem = s.mem := by
  induction k generalizing s with
  | zero => rw [pumpSegs, mem_updSegs, mem_takeWaiting]
  | succ k ih => rw [pumpSegs, ih, mem_acceptNext]
theorem mem_readAll (t env td l s) : (readAll t env td l s).2.mem = s.mem := by
  induction l generalizing s with
  | nil => rfl
  | cons i l ih =>
    unfold readAll
    with_reducible split
    next h => exact mem_of_pair h (mem_readRow ..)
    next h =>
      with_reducible split <;> exact (mem_of_pair ‹_› (ih ..)).trans (mem_of_pair h (mem_readRow ..))
theorem mem_ownPart (g env s) : (ownPart g env s).2.mem = s.mem := by
  unfold ownPart
  dsimp only
  split
  · rfl
  · split
    · split <;> exact localRead_mem ..
    · with_reducible split <;> exact mem_of_pair ‹_› (mem_readAll ..)
theorem mem_spoilChannel (k s) : (spoilChannel k s).mem = s.mem := by
  simp only [spoilChannel, mem_modChannel, mem_ite, ite_self]
theorem mem_sendRing (g e xs s) : (sendRing g e xs s).mem = s.mem := by
  simp only [sendRing, mem_sendPkt, mem_ite, ite_self, mem_foldl, implies_true]
theorem mem_segDone (g s) : (segDone g s).mem = s.mem := by
  simp only [segDone, mem_segOwner, mem_dropSeg, mem_setGState, mem_rset, mem_ite, ite_self]

/-! ### Region -/

theorem mem_setRgnState (r v s) : (setRgnState r v s).mem = s.mem := by
  simp only [setRgnState, mem_rset]
theorem mem_setRgnHeld (r v s) : (setRgnHeld r v s).mem = s.mem := by
  simp only [setRgnHeld, mem_rset]
theorem mem_setRgnCount (r copy v s) : (setRgnCount r copy v s).mem = s.mem := by
  simp only [setRgnCount, mem_rset, mem_ite, ite_self]
theorem mem_rgnAdvance (r s) : (rgnAdvance r s).mem = s.mem := by
  simp only [rgnAdvance, mem_rput, mem_rinc, mem_ite, ite_self]
theorem mem_rgnWrite (r s) : (rgnWrite r s).mem = s.mem := by
  simp only [rgnWrite, mem_setJobs, mem_setRgnState]
theorem mem_rgnStart (r s) : (rgnStart r s).mem = s.mem := by
  simp only [rgnStart, mem_rgnWrite, mem_setRgnState, mem_rinc, mem_ite, ite_self]
theorem mem_rgnSettle (r s) : (rgnSettle r s).mem = s.mem := by
  simp only [rgnSettle, mem_rgnStart, mem_rgnWrite, mem_rgnAdvance, mem_setRgnState, mem_ite, ite_self]
theorem mem_dropReq (q s) : (dropReq q s).mem = s.mem := by
  simp only [dropReq]
theorem mem_rgnRefuse (q s) : (rgnRefuse q s).mem = s.mem := by
  simp only [rgnRefuse, mem_pushFault, mem_dropReq, mem_rinc]
theorem mem_rgnGrant (q s) : (rgnGrant q s).mem = s.mem := by
  simp only [rgnGrant, mem_rgnRefuse, mem_setRgnCount, mem_semPost, mem_dropReq, mem_ite, ite_self]
theorem mem_grantHeld (r s) : (grantHeld r s).mem = s.mem := by
  simp only [grantHeld, mem_rgnGrant, mem_setRgnHeld, mem_foldl, implies_true]
theorem mem_abortHeld (r s) : (abortHeld r s).mem = s.mem := by
  simp only [abortHeld, mem_setRgnHeld, mem_pushFault, mem_dropReq, mem_foldl, implies_true]
theorem mem_rgnAcquire (q s) : (rgnAcquire q s).mem = s.mem := by
  simp only [rgnAcquire, mem_rgnGrant, mem_rgnRefuse, mem_setRgnHeld, mem_ite, ite_self]

/-! ### SparseA -/

theorem mem_engWord (t unit env n va s) : (engWord t unit env n va s).2.mem = s.mem := by
  simp only [engWord, mem_emBind, mem_engRead, implies_true]
theorem mem_engWords (t unit env va n idx s) : (engWords t unit env va n idx s).2.mem = s.mem := by
  simp only [engWords, mem_emBind, mem_engRead, implies_true]
theorem mem_spRead (t env d s) : (spRead t env d s).2.mem = s.mem := by
  unfold spRead
  dsimp only
  refine (mem_emBind _ _ fun _ _ => ?_).trans (mem_engWords ..)
  split
  · exact (mem_emBind _ _ fun _ _ => rfl).trans
      (mem_emMap _ (fun _ _ => (mem_emBind _ _ fun _ _ => rfl).trans (mem_engWords ..)) _ _)
  · exact (mem_emBind _ _ fun _ _ => rfl).trans
      (mem_emMap _ (fun _ _ => (mem_emBind _ _ fun _ _ => rfl).trans (mem_engWords ..)) _ _)
theorem mem_spValue (t env d v s) : (spValue t env d v s).2.mem = s.mem := by
  simp only [spValue]
  split <;> simp only [mem_emBind, mem_engRead, implies_true]

/-! ### Cube -/

theorem mem_readMatrix (h env who td b2 b3 s) : (readMatrix h env who td b2 b3 s).2.mem = s.mem := by
  simp only [readMatrix, mem_emBind, mem_readRowsBy, implies_true]
theorem mem_ceBatch (h env imm ats a b c k kstep b2 b3 s) :
    (ceBatch h env imm ats a b c k kstep b2 b3 s).2.mem = s.mem := by
  refine (mem_emBind _ _ fun _ _ => ?_).trans ?_
  · refine (mem_emBind _ _ fun _ _ => ?_).trans (mem_readMatrix ..)
    refine (mem_emBind _ _ fun _ _ => rfl).trans ?_
    split
    · exact (mem_emBind _ _ fun _ _ => rfl).trans (mem_readMatrix ..)
    · rfl
  · split
    · rfl
    · exact (mem_emBind _ _ fun _ _ => rfl).trans (mem_readMatrix ..)
theorem mem_ceResidue (h env r s) : (ceResidue h env r s).mem = s.mem := by
  simp only [ceResidue, mem_rput, mem_alert, mem_rinc, mem_ite, ite_self]
theorem mem_ceSparse (t env aw s) : (ceSparse t env aw s).2.mem = s.mem := by
  unfold ceSparse
  split
  · refine (mem_emBind _ _ fun _ _ => ?_).trans (mem_spRead ..)
    refine (mem_emBind _ _ fun _ _ => rfl).trans (mem_emMap _ (fun _ _ => mem_emMap _ (fun _ _ => ?_) _ _) _ _)
    exact (mem_emBind _ _ fun _ _ => rfl).trans (mem_spValue ..)
  · rfl
theorem mem_ceProduct (t env aw bw cw imm s) : (ceProduct t env aw bw cw imm s).2.mem = s.mem := by
  simp only [ceProduct, mem_ceSparse, mem_ceBatch, mem_emBind, mem_emMap, implies_true]
theorem mem_addSteps (t n s) : (addSteps t n s).mem = s.mem := by
  simp only [addSteps, mem_rinc]
theorem mem_openSteps (t lo hi s) : (openSteps t lo hi s).mem = s.mem := by
  simp only [openSteps, mem_freeWord, mem_addSteps]
theorem mem_ceBlocks (t aw sp s) : (ceBlocks t aw sp s).mem = s.mem := by
  simp only [ceBlocks]
  split <;> simp only [mem_rinc]
theorem mem_gtTemplates (t env d s) : (gtTemplates t env d s).2.mem = s.mem := by
  unfold gtTemplates
  refine (mem_emBind _ _ fun _ _ => ?_).trans (mem_engRead64 ..)
  refine (mem_emBind _ _ fun _ _ => ?_).trans (mem_engRead64 ..)
  exact (mem_emBind _ _ fun _ _ => rfl).trans (mem_engRead64 ..)
theorem mem_ceHead (t f s) : (ceHead t f s).mem = s.mem := by
  simp only [ceHead, mem_modTile]
theorem mem_ceDone (t bad s) : (ceDone t bad s).mem = s.mem := by
  simp only [ceDone, mem_ceHead]
theorem mem_cePostIn (t e s) : (cePostIn t e s).mem = s.mem := by
  simp only [cePostIn, mem_semPost, mem_ite, ite_self]
theorem mem_ceAccept (t env e s) : (ceAccept t env e s).2.2.mem = s.mem := by
  unfold ceAccept
  split
  · rfl
  · split
    · split
      · rfl
      · split
        · rfl
        · with_reducible split
          next h => exact mem_of_pair h (mem_gtTemplates ..)
          next h => exact (mem_modTile ..).trans (mem_of_pair h (mem_gtTemplates ..))
    · rfl

/-! ### Gme -/

theorem mem_readIndices (t env td s) : (readIndices t env td s).2.mem = s.mem := by
  simp only [readIndices, mem_emBind, mem_readRow, mem_emMap, implies_true]
theorem mem_readRowNo (t env td r s) : (readRowNo t env td r s).2.mem = s.mem := by
  simp only [readRowNo, mem_readRow]
theorem mem_gmeGatherBody (t env xs b c s) : (gmeGatherBody t env xs b c s).2.mem = s.mem := by
  refine (mem_emBind _ _ fun _ _ => rfl).trans (mem_emMap _ (fun e _ => ?_) _ _)
  obtain ⟨_ | _, _⟩ := e
  · rfl
  · exact (mem_emBind _ _ fun _ _ => rfl).trans (mem_readRow ..)
theorem mem_gmeScatterBody (t env xs b c s) : (gmeScatterBody t env xs b c s).2.mem = s.mem := by
  simp only [gmeScatterBody, mem_emBind, mem_readRowNo, mem_emMap, implies_true]
theorem mem_readStep {α : Type} (x : Except (Status × Nat) α × State)  : (readStep x).2.mem = x.2.mem := by
  simp only [readStep]
theorem mem_writeStep {α : Type} (last : Bool) (x : Except (Status × Nat) α × State)  :
    (writeStep last x).2.mem = x.2.mem := by
  simp only [writeStep]
theorem mem_segWords (t env td i1 n s) : (segWords t env td i1 n s).2.mem = s.mem := by
  simp only [segWords, mem_emBind, mem_engRead, implies_true]
theorem mem_gmeSegredBody (t env acc a b c s) : (gmeSegredBody t env acc a b c s).2.mem = s.mem := by
  refine (mem_emBind _ _ fun _ _ => ?_).trans (mem_segWords ..)
  refine (mem_emBind _ _ fun _ _ => ?_).trans ?_
  · refine (mem_emBind _ _ fun _ _ => rfl).trans (mem_emMap _ (fun _ _ => ?_) _ _)
    dsimp only
    split
    · rfl
    · refine (mem_emBind _ _ fun _ _ => ?_).trans
        (mem_emMap _ (fun _ _ => (mem_emBind _ _ fun _ _ => rfl).trans (mem_readRowNo ..)) _ _)
      refine (mem_emBind _ _ fun _ _ => rfl).trans ?_
      split
      · exact (mem_emBind _ _ fun _ _ => rfl).trans (mem_readRowNo ..)
      · rfl
  · split
    · exact ((mem_emBind _ _ fun _ _ => rfl).trans (mem_segWords ..)).trans (mem_rinc ..)
    · exact mem_rinc ..
theorem mem_mergeList (t env td l s) : (mergeList t env td l s).2.mem = s.mem := by
  induction l generalizing s with
  | nil => rfl
  | cons r l ih =>
    refine (mem_emBind _ _ fun _ _ => ?_).trans (mem_readRowNo ..)
    dsimp only
    split
    · rfl
    · exact (mem_emBind _ _ fun _ _ => rfl).trans (ih _)
theorem mem_gmeMergeBody (t env a b c s) : (gmeMergeBody t env a b c s).2.mem = s.mem := by
  simp only [gmeMergeBody, mem_emBind, mem_mergeList, ite_self, implies_true, snd_ite]
theorem mem_gmeResidue (t env r s) : (gmeResidue t env r s).mem = s.mem := by
  simp only [gmeResidue, mem_rput, mem_alert, mem_rinc, mem_ite, ite_self]
theorem mem_gmeIndices (t env e s) : (gmeIndices t env e s).2.mem = s.mem := by
  simp only [gmeIndices]
  split <;> simp only [mem_readIndices]
theorem mem_gmeWork (t env e xs s) : (gmeWork t env e xs s).2.mem = s.mem := by
  unfold gmeWork
  dsimp only
  split
  · exact mem_gmeGatherBody ..
  · exact mem_gmeSegredBody ..
  · exact mem_gmeMergeBody ..
  · exact mem_gmeScatterBody ..

/-! ### Rank -/

theorem mem_readImage (t env d e s) : (readImage t env d e s).2.mem = s.mem := by
  simp only [readImage, mem_emBind, mem_engRead, implies_true]
theorem mem_readPeer (t env d dev s) : (readPeer t env d dev s).2.mem = s.mem := by
  simp only [readPeer, mem_engWord]
theorem mem_readLayer (t env d peers s) : (readLayer t env d peers s).2.mem = s.mem := by
  refine mem_emMap _ (fun _ _ => (mem_emBind _ _ fun _ _ => ?_).trans (mem_readImage ..)) _ _
  split
  · exact (mem_emBind _ _ fun _ _ => rfl).trans (mem_emMap _ (fun _ _ => mem_readPeer ..) _ _)
  · rfl
theorem mem_recDests (d layer recs s) : (recDests d layer recs s).2.mem = s.mem := by
  simp only [recDests]
theorem mem_readRecs (t env b rows s) : (readRecs t env b rows s).2.mem = s.mem := by
  simp only [readRecs, mem_emBind, mem_readRow, mem_emMap, implies_true]
theorem mem_rankTopk (t env d b c s) : (rankTopk t env d b c s).2.mem = s.mem := by
  simp only [rankTopk, mem_emBind, mem_readRowNo, mem_emMap, implies_true]
theorem mem_rankBucket (t env d b c s) : (rankBucket t env d b c s).2.mem = s.mem := by
  simp only [rankBucket, mem_readLayer, mem_emBind, mem_recDests, mem_readRecs, ite_self, implies_true, snd_ite]
theorem mem_cutHosted (t env d s) : (cutHosted t env d s).2.mem = s.mem := by
  simp only [cutHosted, mem_readLayer, mem_emBind, mem_readPeer, implies_true]
theorem mem_rankCut (t env d b c hosted s) : (rankCut t env d b c hosted s).2.mem = s.mem := by
  simp only [rankCut, mem_emBind, mem_emMap, mem_engRead, mem_readRecs, mem_rinc, implies_true]
theorem mem_keptRecs (t env d b s) : (keptRecs t env d b s).2.mem = s.mem := by
  unfold keptRecs
  refine (mem_emBind _ _ fun _ _ => ?_).trans (mem_readLayer ..)
  refine (mem_emBind _ _ fun _ _ => ?_).trans (mem_readRecs ..)
  dsimp only
  refine (mem_emBind _ _ fun _ _ => rfl).trans ?_
  rw [mem_emMap, mem_recDests]
  intro r _
  split
  · rfl
  · exact (mem_emBind _ _ fun _ _ => rfl).trans (mem_engWord ..)
theorem mem_rankPlace (t env d b c s) : (rankPlace t env d b c s).2.mem = s.mem := by
  simp only [rankPlace, mem_keptRecs, mem_emBind, implies_true]
theorem mem_rankJoin (t env d b c s) : (rankJoin t env d b c s).2.mem = s.mem := by
  simp only [rankJoin, mem_keptRecs, mem_emBind, implies_true]

/-! ### Ablation -/

theorem mem_ablRead (st addrs s) : (ablRead st addrs s).2.2.mem = s.mem := by
  simp only [ablRead, memRead_mem, mem_rinc, mem_ite, ite_self, snd_ite]
theorem mem_readKb (st r la b s) : (readKb st r la b s).2.mem = s.mem := by
  simp only [readKb, mem_ablRead, mem_ite, ite_self, snd_ite]
theorem mem_ablMoment (c la b s) : (ablMoment c la b s).2.mem = s.mem := by
  simp only [ablMoment, mem_readKb, mem_ite, ite_self, snd_ite]
theorem mem_ruleRead (c grad b s) (hgrad : ∀ b s, (grad b s).2.mem = s.mem) : (ruleRead c grad b s).2.mem = s.mem := by
  refine (mem_emBind _ _ fun _ _ => ?_).trans (mem_readKb ..)
  refine (mem_emBind _ _ fun _ _ => ?_).trans (mem_ablMoment ..)
  refine (mem_emBind _ _ fun _ _ => ?_).trans (mem_ablMoment ..)
  exact (mem_emBind _ _ fun _ _ => rfl).trans (hgrad ..)
theorem mem_gradHbm (c b s) : (gradHbm c b s).2.mem = s.mem := by
  simp only [gradHbm, mem_ablRead, ite_self, snd_ite]
theorem mem_gradInbox (g b s) : (gradInbox g b s).2.mem = s.mem := by
  simp only [gradInbox]
-- ablBlocks
theorem mem_updAbl (st s) : (updAbl st s).mem = s.mem := by
  simp only [updAbl]
  split <;> simp only [mem_rset]
theorem mem_setCur (st j' s) : (setCur st j' s).mem = s.mem := by
  simp only [setCur]
  split <;> simp only [mem_setJobs, mem_updAbl]
theorem mem_stepCheck (c s) : (stepCheck c s).2.mem = s.mem := by
  simp only [stepCheck, mem_rinc, mem_ite, ite_self, snd_ite]
theorem mem_spoilNext (st k s) : (spoilNext st k s).mem = s.mem := by
  simp only [spoilNext, mem_setJobs, mem_ite, ite_self]
theorem mem_setInbox (k l s) : (setInbox k l s).mem = s.mem := by
  simp only [setInbox, mem_rset]
theorem mem_takeBuffers (n k j s) : (takeBuffers n k j s).2.mem = s.mem := by
  induction n generalizing j s with
  | zero => rfl
  | succ n ih =>
    rw [takeBuffers]
    split
    · split
      · rw [ih, mem_setInbox]
      · rfl
    · rfl
theorem mem_checkEnded (c s) : (checkEnded c s).mem = s.mem := by
  simp only [checkEnded, mem_stepCheck, mem_ite, ite_self]
theorem mem_endInboxCmd (k s) : (endInboxCmd k s).mem = s.mem := by
  simp only [endInboxCmd, mem_endCmd, mem_ite, ite_self, mem_foldl, implies_true]
theorem mem_inboxReset (st ch s) : (inboxReset st ch s).mem = s.mem := by
  simp only [inboxReset, mem_setInbox, mem_rset]
theorem mem_ablOwner (j code s) : (ablOwner j code s).mem = s.mem := by
  simp only [ablOwner]
  repeat' split
  all_goals simp only [mem_endCmd, mem_reportTile, mem_modCmd, mem_pushFault, mem_semPost, mem_modX, mem_cmdReport]
theorem mem_ablTaken (j s) : (ablTaken j s).mem = s.mem := by
  simp only [ablTaken]
  split <;> simp only [mem_modX]
theorem mem_ablErr (st c code b s) : (ablErr st c code b s).mem = s.mem := by
  simp only [ablErr, mem_rput]
theorem mem_rgnEnd (r code s) : (rgnEnd r code s).mem = s.mem := by
  simp only [rgnEnd, mem_rgnStart, mem_abortHeld, mem_rgnAdvance, mem_grantHeld, mem_setRgnState, mem_ite, ite_self]
theorem mem_setBct (c code s) : (setBct c code s).mem = s.mem := by
  simp only [setBct, mem_rput, mem_ite, ite_self]
theorem mem_waitEnd (r code s) : (waitEnd r code s).mem = s.mem := by
  simp only [waitEnd]
  split <;> simp only [mem_setJobs, mem_rgnStart, mem_ablErr, mem_updAbl, mem_abortHeld, mem_ablOwner,
      mem_setRgnState]
theorem mem_ablDrain (st s) : (ablDrain st s).mem = s.mem := by
  simp only [ablDrain, mem_waitEnd, mem_setJobs, mem_ablErr, mem_updAbl, mem_ablOwner, mem_ite, ite_self, mem_foldl,
      implies_true]
theorem mem_setAbState (st v s) : (setAbState st v s).mem = s.mem := by
  simp only [setAbState, mem_rset]
theorem mem_mcLoad (st s) : (mcLoad st s).mem = s.mem := by
  simp only [mcLoad, mem_setAbState, mem_rset, mem_ite, ite_self]
theorem mem_mcRun (st s) : (mcRun st s).mem = s.mem := by
  simp only [mcRun, mem_setAbState, mem_mcLoad, mem_rset, mem_ite, ite_self]

/-! ### Recovery -/

theorem mem_recSend (iss dev addr op s) : (recSend iss dev addr op s).mem = s.mem := by
  simp only [recSend, mem_sendTxn]
theorem mem_recDrop (p s) : (recDrop p s).mem = s.mem := by
  simp only [recDrop]
theorem mem_setMirState (v s) : (setMirState v s).mem = s.mem := by
  simp only [setMirState, mem_rset]
theorem mem_refreshBank (s) : (refreshBank s).mem = s.mem := by
  unfold refreshBank
  dsimp only
  split
  · exact mem_rput ..
  · split <;> exact mem_rput ..
theorem mem_setSharedFeed (s) : (setSharedFeed s).mem = s.mem := by
  simp only [setSharedFeed, mem_rset, mem_foldl, implies_true]
theorem mem_clearSharedFeed (s) : (clearSharedFeed s).mem = s.mem := by
  simp only [clearSharedFeed, mem_rset, mem_foldl, implies_true]
theorem mem_unpair (s) : (unpair s).mem = s.mem := by
  simp only [unpair, mem_setMirState, mem_clearSharedFeed, mem_ite, ite_self]
theorem mem_setRestart (b s) : (setRestart b s).mem = s.mem := by
  simp only [setRestart, mem_rset]
theorem mem_recStatus (st s) : (recStatus st s).mem = s.mem := by
  simp only [recStatus, mem_rset]
theorem mem_setRecState (v s) : (setRecState v s).mem = s.mem := by
  simp only [setRecState, mem_alert, mem_rset, mem_ite, ite_self]
theorem mem_setPend (l s) : (setPend l s).mem = s.mem := by
  refine (mem_foldl _ (fun _ _ => ?_) _ _).trans (mem_rset ..)
  split <;> exact mem_rput ..
theorem mem_setReplay (b s) : (setReplay b s).mem = s.mem := by
  simp only [setReplay, mem_rset]
theorem mem_calveState (x s) : (calveState x s).2.mem = s.mem := by
  simp only [calveState, mem_setRecState, mem_setRestart, mem_setPend, mem_ite, ite_self, snd_ite]
theorem mem_calveGroup (g s) : (calveGroup g s).mem = s.mem := by
  simp only [calveGroup, mem_setGState, mem_rput, mem_groupAbort, mem_pumpSegs, mem_rset]
theorem mem_calveEffects (x slot s) : (calveEffects x slot s).mem = s.mem := by
  simp only [calveEffects, mem_calveGroup, mem_setMirState, mem_rwrap, mem_rput, mem_clearSharedFeed, mem_alert,
      mem_rset, mem_ite, ite_self, mem_foldl, implies_true]
theorem mem_calve (x s) : (calve x s).mem = s.mem := by
  simp only [calve]
  repeat' split
  all_goals simp only [mem_recStatus, mem_calveState, mem_calveEffects]
theorem mem_unfence (x s) : (unfence x s).mem = s.mem := by
  simp only [unfence, mem_recStatus, mem_rput, mem_ite, ite_self, mem_foldl, implies_true]
theorem mem_fillFail (entry st s) : (fillFail entry st s).mem = s.mem := by
  simp only [fillFail, mem_recDrop, mem_rput]
theorem mem_fillMove (s) : (fillMove s).2.mem = s.mem := by
  simp only [fillMove]
  split <;> simp only [localRead_mem, mem_recSend, mem_fillFail, mem_ite, ite_self, snd_ite]
theorem mem_fillPump (k s) : (fillPump k s).mem = s.mem := by
  induction k generalizing s with
  | zero => rfl
  | succ k ih =>
    rw [fillPump]
    split
    · rw [ih, mem_fillMove]
    · rfl
theorem mem_fillStart (s) : (fillStart s).mem = s.mem := by
  simp only [fillStart, mem_recDrop, mem_rput, mem_fillPump]
theorem mem_fillCmd (dev source snap s) : (fillCmd dev source snap s).mem = s.mem := by
  simp only [fillCmd, mem_fillStart, mem_recStatus, mem_setRecState, mem_setRestart, mem_rput, mem_ite, ite_self]
theorem mem_doneCmd (s) : (doneCmd s).mem = s.mem := by
  simp only [doneCmd, mem_recStatus, mem_setRecState, mem_setReplay, mem_setPend, mem_ite, ite_self]
theorem mem_clearCmd (s) : (clearCmd s).mem = s.mem := by
  simp only [clearCmd, mem_recStatus, mem_setRecState, mem_setRestart, mem_setReplay, mem_setPend, mem_ite, ite_self]

/-! ### Firn -/

theorem mem_readRecord (q step s) : (readRecord q step s).2.2.mem = s.mem := by
  simp only [readRecord, localRead_mem, mem_ite, ite_self, snd_ite]
theorem mem_sendRecord (q seq step l s) : (sendRecord q seq step l s).mem = s.mem := by
  simp only [sendRecord, mem_recSend, mem_ite, ite_self]
theorem mem_beginDone (q c s) : (beginDone q c s).mem = s.mem := by
  simp only [beginDone, mem_endCmd, mem_modQueue]
theorem mem_stepEndDone (p st s) : (stepEndDone p st s).mem = s.mem := by
  simp only [stepEndDone, mem_setRecState, mem_endWith, mem_setRestart, mem_setReplay, mem_rput, mem_ite, ite_self]
theorem mem_setPush (p s) : (setPush p s).mem = s.mem := by
  simp only [setPush]
theorem mem_sendStepB (p v s) : (sendStepB p v s).mem = s.mem := by
  simp only [sendStepB, mem_recSend]
theorem mem_sendEntry (p e s) : (sendEntry p e s).2.mem = s.mem := by
  simp only [sendEntry, localRead_mem, mem_recSend, mem_ite, ite_self, mem_foldl2, implies_true, snd_ite]
theorem mem_sendEntries (p s) : (sendEntries p s).2.mem = s.mem := by
  simp only [sendEntries, mem_sendEntry, mem_ite, ite_self, mem_foldl2, implies_true, snd_ite]

/-! ### Fabric -/

theorem mem_renewPort (p s) : (renewPort p s).mem = s.mem := by
  simp only [renewPort]
theorem mem_dropPort (p s) : (dropPort p s).mem = s.mem := by
  simp only [dropPort, mem_freeBuf, mem_rinc, mem_renewPort, mem_foldl, implies_true]
theorem mem_portEnable (p s) : (portEnable p s).mem = s.mem := by
  simp only [portEnable, mem_setPortState, mem_rset, mem_ite, ite_self]
theorem mem_portDisable (p s) : (portDisable p s).mem = s.mem := by
  simp only [portDisable, mem_setPortState, mem_retryPkts, mem_rset, mem_ite, ite_self]
theorem mem_fabricDisable (s) : (fabricDisable s).mem = s.mem := by
  simp only [fabricDisable, mem_setPortState, mem_dropPort, mem_rset, mem_rinc, mem_foldl, implies_true]
theorem mem_portRetrain (p s) : (portRetrain p s).mem = s.mem := by
  simp only [portRetrain, mem_setPortState, mem_modPort, mem_rinc, mem_ite, ite_self]
theorem mem_takeAck (p ack s) : (takeAck p ack s).mem = s.mem := by
  simp only [takeAck, mem_modPort]
theorem mem_takeCredits (p g s) : (takeCredits p g s).mem = s.mem := by
  simp only [takeCredits, mem_modPort, mem_foldl, implies_true]
theorem mem_answer (k st data s) : (answer k st data s).mem = s.mem := by
  simp only [answer, mem_answerPacket]
theorem mem_orphanPkt (s) : (orphanPkt s).mem = s.mem := by
  simp only [orphanPkt, mem_rinc]
theorem mem_takeIn (p k s) : (takeIn p k s).mem = s.mem := by
  simp only [takeIn, mem_modPort]
theorem mem_passed (p k s) : (passed p k s).mem = s.mem := by
  simp only [passed, mem_freeBuf, mem_takeIn]
theorem mem_atTarget (k f s) (hf : ∀ u, (f u).2.2.mem = u.mem) : (atTarget k f s).mem = s.mem := by
  simp only [atTarget]
  repeat' split
  all_goals simp only [mem_answer, mem_orphanPkt, mem_rinc, hf]
theorem mem_orphanReply (k s) : (orphanReply k s).mem = s.mem := by
  simp only [orphanReply, mem_orphanPkt, mem_rinc, mem_ite, ite_self]

/-! ### Ledger -/

theorem mem_modLedger (s f) : (State.modLedger s f).mem = s.mem := by
  simp only [State.modLedger]
theorem mem_setDivider (d s) : (setDivider d s).mem = s.mem := by
  simp only [setDivider, mem_modLedger, mem_rset, mem_rinc]
theorem mem_requestVolt (target goal s) : (requestVolt target goal s).mem = s.mem := by
  simp only [requestVolt, mem_modLedger, mem_rset]
theorem mem_slowTo (d s) : (slowTo d s).mem = s.mem := by
  simp only [slowTo, mem_requestVolt, mem_setDivider, mem_ite, ite_self]
theorem mem_endVolt (s) : (endVolt s).mem = s.mem := by
  simp only [endVolt, mem_modLedger, mem_rset]
theorem mem_attributeUse (counts s) : (attributeUse counts s).mem = s.mem := by
  simp only [attributeUse, mem_modCmd, mem_foldl, implies_true]
theorem mem_setBal (b s) : (setBal b s).mem = s.mem := by
  simp only [setBal, mem_rput, mem_modLedger]
theorem mem_visit (mode q seq k s) : (visit mode q seq k s).2.mem = s.mem := by
  simp only [visit]
  repeat' split
  all_goals simp only [mem_dispatchCmd, mem_slowTo, mem_rset, mem_rinc]
theorem mem_visitAll (mode l k s) : (visitAll mode l k s).2.mem = s.mem := by
  induction l generalizing k s with
  | nil => rfl
  | cons x l ih => exact (ih ..).trans (mem_visit ..)
theorem mem_ageCandidates (n s) : (ageCandidates n s).mem = s.mem := by
  simp only [ageCandidates, mem_modQueue, mem_foldl, implies_true]
theorem mem_foldTag (tag used est s) : (foldTag tag used est s).mem = s.mem := by
  simp only [foldTag, mem_freeWord, mem_rset, mem_rinc, mem_ite, ite_self]
theorem mem_passTags (s) : (passTags s).mem = s.mem := by
  simp only [passTags, mem_modLedger, mem_rclear, mem_foldTag, mem_ite, ite_self, mem_foldl, implies_true]
theorem mem_upset (u s) : (upset u s).mem = s.mem := by
  simp only [upset]
  split <;> simp only [mem_setEcc]
theorem mem_passBalance (counts s) : (passBalance counts s).mem = s.mem := by
  simp only [passBalance, mem_setBal, mem_modLedger, mem_attributeUse, mem_rinc]
theorem mem_passMode (tj brake s) : (passMode tj brake s).mem = s.mem := by
  simp only [passMode, mem_requestVolt, mem_slowTo, mem_rset, mem_ite, ite_self]
theorem mem_passSpeed (k s) : (passSpeed k s).mem = s.mem := by
  simp only [passSpeed, mem_requestVolt, mem_ite, ite_self]
theorem mem_passEnd (k s) : (passEnd k s).mem = s.mem := by
  simp only [passEnd, mem_ageCandidates, mem_rput, mem_modLedger, mem_rset]
theorem mem_tagClr (s) : (tagClr s).mem = s.mem := by
  simp only [tagClr, mem_modLedger]
theorem mem_ledgerTakeover (ns s) : (ledgerTakeover ns s).mem = s.mem := by
  simp only [ledgerTakeover, mem_ageCandidates, mem_setBal, mem_slowTo, mem_modLedger, mem_rset]

/-! ### Domain -/

theorem mem_modPower (s f) : (State.modPower s f).mem = s.mem := by
  simp only [State.modPower]
theorem mem_setDst (n v s) : (setDst n v s).mem = s.mem := by
  simp only [setDst, mem_rset]
theorem mem_ctlFixups (cp s) : (ctlFixups cp s).mem = s.mem := by
  simp only [ctlFixups, mem_rput, mem_rset]
theorem mem_wipeFio (f s) : (wipeFio f s).mem = s.mem := by
  simp only [wipeFio]
theorem mem_wipeCtl (s) : (wipeCtl s).mem = s.mem := by
  simp only [wipeCtl]
theorem mem_fioDrain (f s) : (fioDrain f s).mem = s.mem := by
  rw [fioDrain, mem_foldl _ (fun _ _ => mem_portDisable ..), mem_updSegs, mem_rinc,
    mem_foldl _ (fun _ g => ?_), mem_foldl _ (fun _ _ => mem_segFail ..)]
  rw [mem_segOwner]
  split
  · exact mem_failInbox ..
  · rfl
theorem mem_drainUnits (n force s) : (drainUnits n force s).mem = s.mem := by
  simp only [drainUnits, mem_ablDrain, mem_drainTile, mem_fioDrain, mem_ite, ite_self, mem_foldl, implies_true]
theorem mem_holdReq (n r force s) : (holdReq n r force s).mem = s.mem := by
  simp only [holdReq, mem_rset, mem_modPower]
theorem mem_dropReqHeld (n s) : (dropReqHeld n s).mem = s.mem := by
  simp only [dropReqHeld, mem_rset, mem_modPower]
theorem mem_setTries (n v s) : (setTries n v s).mem = s.mem := by
  simp only [setTries, mem_rset]
theorem mem_startDrain (n r force s) : (startDrain n r force s).mem = s.mem := by
  simp only [startDrain, mem_setDst, mem_drainUnits, mem_modPower]
theorem mem_askDown (n r force s) : (askDown n r force s).mem = s.mem := by
  simp only [askDown, mem_startDrain, mem_setTries, mem_holdReq, mem_dropReqHeld, mem_setDst, mem_modPower, mem_ite,
      ite_self]
theorem mem_askAon (r s) : (askAon r s).mem = s.mem := by
  simp only [askAon, mem_holdReq, mem_modPower, mem_ite, ite_self]
theorem mem_wakeRecord (v s) : (wakeRecord v s).mem = s.mem := by
  simp only [wakeRecord, mem_rset]
theorem mem_drainOver (n s) : (drainOver n s).mem = s.mem := by
  simp only [drainOver, mem_setDst, mem_modPower, mem_ite, ite_self]

/-! ### Reset -/

theorem mem_modMgmt (s f) : (State.modMgmt s f).mem = s.mem := by
  simp only [State.modMgmt]
theorem mem_setAllDst (v s) : (setAllDst v s).mem = s.mem := by
  simp only [setAllDst, mem_rput, mem_ite, ite_self, mem_foldl, implies_true]
theorem mem_setMeas (i d s) : (setMeas i d s).mem = s.mem := mem_foldl _ (fun _ _ => mem_rput ..) _ _
theorem mem_checkRepair (b s) : (checkRepair b s).mem = s.mem := by
  simp only [checkRepair]
  split <;> simp only [mem_modMgmt, mem_setMeas, mem_alert, mem_rset, mem_ite, ite_self]
theorem mem_bootStages (slot fell s) : (bootStages slot fell s).mem = s.mem := by
  simp only [bootStages, mem_modMgmt, mem_setMeas, mem_alert, mem_rset, mem_ite, ite_self, mem_foldl, implies_true]
theorem mem_bootPrimary (b s) : (bootPrimary b s).mem = s.mem := by
  simp only [bootPrimary, mem_rset]
theorem mem_takeReadings (l s) : (takeReadings l s).mem = s.mem := by
  simp only [takeReadings, mem_modMgmt]
theorem mem_rewriteRecord (q slot s) : (rewriteRecord q slot s).mem = s.mem := by
  simp only [rewriteRecord]
  repeat' split
  all_goals simp only [mem_raiseVector, mem_hostWr]

/-! ### Manage -/

theorem mem_answerMgmt (r s) : (answerMgmt r s).mem = s.mem := by
  simp only [answerMgmt, mem_modMgmt]
theorem mem_commitSvn (s) : (commitSvn s).mem = s.mem := by
  simp only [commitSvn, mem_modMgmt, mem_rset]

/-! ### HostRegs -/

theorem mem_recWrite (v s) : (recWrite v s).mem = s.mem := by
  simp only [recWrite]
  repeat' split
  all_goals simp only [mem_calve, mem_unfence, mem_fillCmd, mem_clearCmd, mem_doneCmd]
theorem mem_queueWrite (q k start r mask v s) : (queueWrite q k start r mask v s).mem = s.mem := by
  simp only [queueWrite, mem_regPlain, mem_cqDoorbell, mem_sqDoorbell, mem_qcfgWrite, mem_ite, ite_self]
theorem mem_hostRead4 (o s) : (hostRead4 o s).2.mem = s.mem := by
  simp only [hostRead4, mem_regRead4, mem_ite, ite_self, snd_ite]

/-! ### Predict -/

theorem mem_pdRead (t off n s) : (pdRead t off n s).2.mem = s.mem := by
  simp only [pdRead, memRead_mem, mem_ite, ite_self, snd_ite]
theorem mem_pdReadRow (t d n r s) : (pdReadRow t d n r s).2.mem = s.mem := by
  simp only [pdReadRow, mem_emBind, mem_pdRead, implies_true]
theorem mem_pdHits (t d signed n b s) : (pdHits t d signed n b s).2.mem = s.mem := by
  simp only [pdHits, mem_emBind, mem_pdReadRow, mem_emMap, implies_true]
theorem mem_verdictRun (t env d s) : (verdictRun t env d s).2.mem = s.mem := by
  unfold verdictRun
  with_reducible split
  next h => exact mem_of_pair h (mem_engRead ..)
  next h =>
    refine Eq.trans ?_ (mem_of_pair h (mem_engRead ..))
    dsimp only
    split <;> simp only [mem_rinc, mem_rput]
theorem mem_gmeHead (t f s) : (gmeHead t f s).mem = s.mem := by
  simp only [gmeHead, mem_modTile]
theorem mem_gmeDone (t bad s) : (gmeDone t bad s).mem = s.mem := by
  simp only [gmeDone, mem_gmeHead]
theorem mem_gmePostIn (t e s) : (gmePostIn t e s).mem = s.mem := by
  simp only [gmePostIn]
  split <;> simp only [mem_semPost]
theorem mem_gmeEnd (t e bad s) : (gmeEnd t e bad s).mem = s.mem := by
  simp only [gmeEnd, mem_gmeDone, mem_gmePostIn, mem_ite, ite_self]
theorem mem_gmeTake (t e s) : (gmeTake t e s).2.2.mem = s.mem := by
  simp only [gmeTake]
  repeat' split
  all_goals simp only [mem_gmeHead, mem_rset, mem_pdRead]
theorem mem_freeField (o f s) : (freeField o f s).mem = s.mem := by
  simp only [freeField, mem_freeWord, mem_rset]

/-! ### Tick -/

theorem mem_xCycle (t s) : (xCycle t s).mem = s.mem := by
  simp only [xCycle, mem_rinc, mem_ite, ite_self]
theorem mem_fCycle (t s) : (fCycle t s).mem = s.mem := by
  simp only [fCycle, mem_progress, mem_rinc, mem_ite, ite_self]
theorem mem_cycle (s) : (cycle s).mem = s.mem := by
  simp only [cycle, mem_xCycle, mem_fCycle, mem_ite, ite_self, mem_foldl, implies_true]

end Sys2Proof.Machine
end

section
/-! SUPPORT. What leaves memory as it is, part 2: the meanings of commands that write no byte. -/

namespace Sys2Proof.Machine

/-- The memory of the state that an outcome goes on in. -/
def memOf (o : Host.Outcome State Fault Refusal) : Option (Map Byte) :=
  match o with
  | .next s => some s.mem
  | _ => none
theorem memOf_next (s : State) : memOf (.next s) = some s.mem := rfl
theorem mem_xFinish (t len o) : (xFinish t len o).mem = o.state.mem := by
  cases o <;> simp only [xFinish, xRetire_state, xJump_state, xWait_state, xLoad_state, xStall_state, xFault_state,
      mem_xRetire, mem_xBlock, mem_preciseFault, mem_modX]
theorem mem_fFinish (t o) : (fFinish t o).mem = o.state.mem := by
  cases o <;> simp only [fFinish, fRetire_state, fJump_state, fWait_state, fPend_state, fFault_state, mem_fRetire,
      mem_fBlock, mem_fFault]

/-- Issue on an X-core keeps what its body keeps: fetch, stall and fault write no byte. -/
theorem keeps_xIssue {P : Map Byte → Prop} (t len body s) (hb : ∀ u, P u.mem → P (body u).state.mem) (h : P s.mem) :
    P (xIssue t len body s).mem := by
  unfold xIssue
  split
  · split
    · rwa [mem_xHalt]
    · with_reducible split
      next hf => rwa [mem_preciseFault, mem_of_pair hf (mem_xFetch ..)]
      next hf => rw [mem_xFinish]; exact hb _ (by rwa [mem_of_pair hf (mem_xFetch ..)])
  · exact h

/-- Issue on an F-core keeps what its body keeps. -/
theorem keeps_fIssue {P : Map Byte → Prop} (t body s) (hb : ∀ u, P u.mem → P (body u).state.mem) (h : P s.mem) :
    P (fIssue t body s).mem := by
  unfold fIssue
  split
  · with_reducible split
    next hf => rwa [mem_fFault, mem_of_pair hf (mem_fetchWord ..)]
    next hf => rw [mem_fFinish]; exact hb _ (by rwa [mem_of_pair hf (mem_fetchWord ..)])
  · exact h
theorem mem_xRun (t body s) (hb : ∀ u, (body u).state.mem = u.mem) : memOf (xRun t body s) = some s.mem :=
  congrArg some (keeps_xIssue (P := (· = s.mem)) t 4 body s (fun u hu => (hb u).trans hu) rfl)
theorem mem_xRun8 (t body s) (hb : ∀ u, (body u).state.mem = u.mem) : memOf (xRun8 t body s) = some s.mem :=
  congrArg some (keeps_xIssue (P := (· = s.mem)) t 8 body s (fun u hu => (hb u).trans hu) rfl)
theorem mem_fRun (t body s) (hb : ∀ u, (body u).state.mem = u.mem) : memOf (fRun t body s) = some s.mem :=
  congrArg some (keeps_fIssue (P := (· = s.mem)) t body s (fun u hu => (hb u).trans hu) rfl)

/-! ### Xlat -/

theorem mem_execXlatInval (d s) : memOf (execXlatInval d s) = some s.mem := by
  simp only [execXlatInval, mem_invalDie, mem_hostWrite, implies_true, memOf_next]
theorem mem_execXlatInvalDone (d s) : memOf (execXlatInvalDone d s) = some s.mem := by
  simp only [execXlatInvalDone, mem_rset, memOf_next]

/-! ### Sync -/

theorem mem_execSemWrite (t n v s) : memOf (execSemWrite t n v s) = some s.mem := by
  simp only [execSemWrite, mem_hostTile, mem_semWrite, implies_true, memOf_next]
theorem mem_execWindowOpen (t w s) : memOf (execWindowOpen t w s) = some s.mem := by
  simp only [execWindowOpen, mem_hostTile, mem_winOpen, implies_true, memOf_next]
theorem mem_execWindowClose (t w s) : memOf (execWindowClose t w s) = some s.mem := by
  simp only [execWindowClose, mem_hostTile, mem_winClose, implies_true, memOf_next]
theorem mem_execWindowReopenDone (t w s) : memOf (execWindowReopenDone t w s) = some s.mem := by
  simp only [execWindowReopenDone, mem_winReopenDone, memOf_next]
theorem mem_execWinRangeWrite (t w v s) : memOf (execWinRangeWrite t w v s) = some s.mem := by
  simp only [execWinRangeWrite, mem_hostTile, mem_winRangeWrite, implies_true, memOf_next]
theorem mem_execRemoteRead (id s) : memOf (execRemoteRead id s) = some s.mem := by
  simp only [execRemoteRead]
  repeat' split
  all_goals simp only [localRead_mem, mem_arrive, implies_true, memOf_next]
theorem mem_execSemaphorePost (id s) : memOf (execSemaphorePost id s) = some s.mem := by
  simp only [execSemaphorePost]
  repeat' split
  all_goals simp only [mem_arrive, mem_putTxn, mem_semPost, implies_true, memOf_next]

/-! ### XCore -/

theorem mem_execWaitSatisfied (t s) : memOf (execWaitSatisfied t s) = some s.mem := by
  simp only [execWaitSatisfied]
  repeat' split
  all_goals simp only [mem_waitRetire, memOf_next]
theorem mem_execHeldPostRelease (t s) : memOf (execHeldPostRelease t s) = some s.mem := by
  simp only [execHeldPostRelease]
  split <;> simp only [mem_firePost, mem_modX, mem_ite, ite_self, memOf_next]
theorem mem_execImpreciseFault (t s) : memOf (execImpreciseFault t s) = some s.mem := by
  simp only [execImpreciseFault]
  split <;> simp only [mem_enterFault, mem_ite, ite_self, memOf_next]
theorem mem_execWatchdogTimeout (t s) : memOf (execWatchdogTimeout t s) = some s.mem := by
  simp only [execWatchdogTimeout, mem_enterFault, mem_ite, ite_self, memOf_next]
theorem mem_execXcResume (t s) : memOf (execXcResume t s) = some s.mem := by
  simp only [execXcResume, mem_xResume, mem_hostTile, implies_true, memOf_next]

/-! ### Directory -/

theorem mem_exdCmd (ok eff s) (heff : ∀ u, (eff u).mem = u.mem) : memOf (exdCmd ok eff s) = some s.mem := by
  simp only [exdCmd, mem_exdDo, mem_hostWrite, heff, implies_true, memOf_next]
theorem mem_execCommit (s) : memOf (execCommit s) = some s.mem := by
  simp only [execCommit, mem_exdCmd, mem_rset, implies_true]
theorem mem_execExpanderConfigured (port width gib s) :
    memOf (execExpanderConfigured port width gib s) = some s.mem := by
  simp only [execExpanderConfigured, mem_rset, memOf_next]

/-! ### Queue -/

theorem mem_execCommandFetch (q s) : memOf (execCommandFetch q s) = some s.mem := by
  simp only [execCommandFetch]
  repeat' split
  all_goals simp only [mem_fetchEntry, mem_fetchCmd, memOf_next]
theorem mem_execCommandDispatch (q seq raced s) : memOf (execCommandDispatch q seq raced s) = some s.mem := by
  simp only [execCommandDispatch]
  repeat' split
  all_goals simp only [mem_dispatchCmd, mem_abortLost, mem_modCmd, mem_rset, memOf_next]
theorem mem_execRefusedCommandStop (q s) : memOf (execRefusedCommandStop q s) = some s.mem := by
  simp only [execRefusedCommandStop]
  split <;> simp only [mem_completeCmd, mem_modQueue, mem_rset, mem_ite, ite_self, memOf_next]
theorem mem_execQueueEnable (q cfg s) : memOf (execQueueEnable q cfg s) = some s.mem := by
  simp only [execQueueEnable, mem_qcfgWrite, mem_hostWrite, implies_true, memOf_next]
theorem mem_execQueueDisable (q cfg s) : memOf (execQueueDisable q cfg s) = some s.mem := by
  simp only [execQueueDisable, mem_qcfgWrite, mem_hostWrite, implies_true, memOf_next]
theorem mem_execQueueResume (q cfg s) : memOf (execQueueResume q cfg s) = some s.mem := by
  simp only [execQueueResume, mem_qcfgWrite, mem_hostWrite, implies_true, memOf_next]
theorem mem_execQueueDrainDone (q s) : memOf (execQueueDrainDone q s) = some s.mem := by
  simp only [execQueueDrainDone, mem_enableQueue, mem_setQState, mem_modQueue, mem_rset, mem_ite, ite_self,
      memOf_next]
theorem mem_execSqDoorbell (q tail s) : memOf (execSqDoorbell q tail s) = some s.mem := by
  simp only [execSqDoorbell, mem_sqDoorbell, mem_hostWrite, implies_true, memOf_next]
theorem mem_execCqDoorbell (q head s) : memOf (execCqDoorbell q head s) = some s.mem := by
  simp only [execCqDoorbell, mem_cqDoorbell, mem_hostWrite, implies_true, memOf_next]
theorem mem_execCommandComplete (q seq energy kcc s) : memOf (execCommandComplete q seq energy kcc s) = some s.mem := by
  simp only [execCommandComplete]
  repeat' split
  all_goals simp only [mem_completeCmd, memOf_next]
theorem mem_runCmd (q seq op body s) (hbody : ∀ a u, (body a u).mem = u.mem) :
    memOf (runCmd q seq op body s) = some s.mem := by
  simp only [runCmd]
  repeat' split
  all_goals simp only [hbody, memOf_next]

/-! ### Scalar -/

theorem mem_xAlu (t rd rs1 rs2 f s) : memOf (xAlu t rd rs1 rs2 f s) = some s.mem := by
  simp only [xAlu, mem_xRun, mem_xSetS, implies_true]
theorem mem_xAluI (t rd rs1 imm f s) : memOf (xAluI t rd rs1 imm f s) = some s.mem := by
  simp only [xAluI, mem_xRun, mem_xSetS, implies_true]
theorem mem_xShI (t rd rs1 sh f s) : memOf (xShI t rd rs1 sh f s) = some s.mem := by
  simp only [xShI, mem_xRun, mem_xSetS, implies_true]
theorem mem_xLoadI (t rd rs1 imm size signed s) : memOf (xLoadI t rd rs1 imm size signed s) = some s.mem := by
  simp only [xLoadI, mem_xLoad, mem_xRun, implies_true]
theorem mem_xBranch (t rs1 rs2 off f s) : memOf (xBranch t rs1 rs2 off f s) = some s.mem := by
  simp only [xBranch, mem_xRun, ite_self, implies_true, state_ite, xRetire_state, xJump_state]
theorem mem_execXBpany (t p off s) : memOf (execXBpany t p off s) = some s.mem := by
  simp only [execXBpany, mem_xRun, ite_self, implies_true, state_ite, xRetire_state, xJump_state]
theorem mem_execXBpnone (t p off s) : memOf (execXBpnone t p off s) = some s.mem := by
  simp only [execXBpnone, mem_xRun, ite_self, implies_true, state_ite, xRetire_state, xJump_state]
theorem mem_execXJal (t rd off s) : memOf (execXJal t rd off s) = some s.mem := by
  simp only [execXJal, mem_wrS, mem_xRun, implies_true, xJump_state]
theorem mem_execXJalr (t rd rs1 imm s) : memOf (execXJalr t rd rs1 imm s) = some s.mem := by
  simp only [execXJalr, mem_wrS, mem_xRun, implies_true, xJump_state]
theorem mem_xCsrR (t rd rs1 imm n s) : memOf (xCsrR t rd rs1 imm n s) = some s.mem := by
  simp only [xCsrR, mem_wrS, mem_xRun, mem_tileCsrRead, mem_ite, ite_self, implies_true, state_ite, xRetire_state,
      xFault_state]
theorem mem_execXNop (t s) : memOf (execXNop t s) = some s.mem := mem_xRun _ _ _ fun _ => rfl
theorem mem_execXIflush (t s) : memOf (execXIflush t s) = some s.mem := mem_xRun _ _ _ fun _ => rfl
theorem mem_execXBrk (t s) : memOf (execXBrk t s) = some s.mem := by
  simp only [execXBrk, mem_xHalt, mem_xRun, mem_ite, ite_self, implies_true, state_ite, xRetire_state, xStall_state]
theorem mem_execXFence (t s) : memOf (execXFence t s) = some s.mem := by
  simp only [execXFence, mem_xRun, ite_self, implies_true, state_ite, xRetire_state, xWait_state]
theorem mem_execXFenceE (t s) : memOf (execXFenceE t s) = some s.mem := by
  simp only [execXFenceE, mem_xRun, ite_self, implies_true, state_ite, xRetire_state, xWait_state]
theorem mem_execXEnd (t s) : memOf (execXEnd t s) = some s.mem := by
  simp only [execXEnd, mem_xEndRetire, mem_xRun, mem_ite, ite_self, implies_true, state_ite, xWait_state,
      xStall_state]
theorem mem_execXLi (t rt imm s) : memOf (execXLi t rt imm s) = some s.mem := by
  simp only [execXLi, mem_xRun8, mem_xSetS, implies_true]
theorem mem_execXLih (t rt imm s) : memOf (execXLih t rt imm s) = some s.mem := by
  simp only [execXLih, mem_xRun8, mem_xSetS, implies_true]
theorem mem_execXAddi32 (t rt rs imm s) : memOf (execXAddi32 t rt rs imm s) = some s.mem := by
  simp only [execXAddi32, mem_xRun8, mem_xSetS, implies_true]
theorem mem_execXDld (t da rs imm s) : memOf (execXDld t da rs imm s) = some s.mem := by
  refine mem_xRun8 _ _ _ fun u => ?_
  rw [← mem_xLoad t (dAddr u t rs imm) (List.range 64) (.desc da) u]
  split <;> simp_all only [xLoad_state]
theorem mem_execXDins (t da rt fld s) : memOf (execXDins t da rt fld s) = some s.mem := by
  simp only [execXDins, mem_xRun8, mem_wrD, implies_true, xRetire_state]
theorem mem_execXDext (t da rt fld s) : memOf (execXDext t da rt fld s) = some s.mem := by
  simp only [execXDext, mem_xRun8, mem_xSetS, implies_true]
theorem mem_execXDmov (t da db s) : memOf (execXDmov t da db s) = some s.mem := by
  simp only [execXDmov, mem_xRun8, mem_wrD, implies_true, xRetire_state]
theorem mem_execXSacq (t rs imm n s) : memOf (execXSacq t rs imm n s) = some s.mem := by
  simp only [execXSacq, mem_acquire, mem_xRun, ite_self, implies_true, state_ite, xRetire_state, xWait_state]
theorem mem_execXSpost (t rs imm n s) : memOf (execXSpost t rs imm n s) = some s.mem := by
  simp only [execXSpost, mem_xPost, mem_xRun, implies_true]
theorem mem_execXSset (t rs imm n s) : memOf (execXSset t rs imm n s) = some s.mem := by
  simp only [execXSset, mem_semPut, mem_semSet, mem_xRun, implies_true, xRetire_state]
theorem mem_execXSrd (t rs n s) : memOf (execXSrd t rs n s) = some s.mem := by
  simp only [execXSrd, mem_xRun, mem_xSetS, implies_true]
theorem mem_execXStry (t rs imm n s) : memOf (execXStry t rs imm n s) = some s.mem := by
  simp only [execXStry, mem_semGrants, mem_semSet, mem_xRun, mem_xSetS, mem_ite, ite_self, implies_true, state_ite]
theorem mem_execXWopen (t rs w s) : memOf (execXWopen t rs w s) = some s.mem := by
  simp only [execXWopen, mem_winRangeWrite, mem_xRun, mem_winOpen, mem_ite, ite_self, implies_true, state_ite,
      xRetire_state, xWait_state, xFault_state]
theorem mem_execXWclose (t w s) : memOf (execXWclose t w s) = some s.mem := by
  simp only [execXWclose, mem_xRun, mem_winClose, implies_true, xRetire_state]
theorem mem_execXWwait (t rs imm w s) : memOf (execXWwait t rs imm w s) = some s.mem := by
  simp only [execXWwait, mem_xRun, ite_self, implies_true, state_ite, xRetire_state, xWait_state]
theorem mem_execXWcnt (t rs w s) : memOf (execXWcnt t rs w s) = some s.mem := by
  simp only [execXWcnt, mem_xRun, mem_xSetS, implies_true]
theorem mem_execXRpost (t rs rt treg tile count n s) : memOf (execXRpost t rs rt treg tile count n s) = some s.mem := by
  simp only [execXRpost, mem_xPost, mem_xRun8, implies_true]
theorem mem_execXEwaitCe (t n s) : memOf (execXEwaitCe t n s) = some s.mem := by
  simp only [execXEwaitCe, mem_xRun, ite_self, implies_true, state_ite, xRetire_state, xWait_state]
theorem mem_execXEwaitGme (t n s) : memOf (execXEwaitGme t n s) = some s.mem := by
  simp only [execXEwaitGme, mem_xRun, ite_self, implies_true, state_ite, xRetire_state, xWait_state]
theorem mem_execXEstat (t rs s) : memOf (execXEstat t rs s) = some s.mem := by
  simp only [execXEstat, mem_xRun, mem_xSetS, implies_true]
theorem mem_execXLhint (t cls s) : memOf (execXLhint t cls s) = some s.mem := by
  simp only [execXLhint, mem_xRun, mem_modX, implies_true, xRetire_state]
theorem mem_xEngine (t op isCe da db dc s0 s1 imm s) : memOf (xEngine t op isCe da db dc s0 s1 imm s) = some s.mem := by
  simp only [xEngine, mem_enterFault, mem_xRun8, mem_nextSeq, mem_modTile, mem_ite, ite_self, implies_true, state_ite,
      xRetire_state, xStall_state]
theorem mem_execXSstat (t rs sl s) : memOf (execXSstat t rs sl s) = some s.mem := by
  simp only [execXSstat, mem_xRun, mem_xSetS, implies_true]
theorem mem_execXSwait (t rs imm sl s) : memOf (execXSwait t rs imm sl s) = some s.mem := by
  simp only [execXSwait, mem_xRun, ite_self, implies_true, state_ite, xRetire_state, xWait_state]

/-! ### Stream -/

theorem mem_fSetG (t gd f s) : memOf (fSetG t gd f s) = some s.mem := by
  simp only [fSetG, mem_fRun, mem_wrG, implies_true, fRetire_state]
theorem mem_execFNop (t s) : memOf (execFNop t s) = some s.mem := mem_fRun _ _ _ fun _ => rfl
theorem mem_execFLd (t gd ga imm s) : memOf (execFLd t gd ga imm s) = some s.mem := by
  refine mem_fRun _ _ _ fun u => ?_
  with_reducible split
  next h => rw [fFault_state, mem_of_pair h (mem_readLine ..)]
  next h =>
    split
    · rw [fRetire_state, mem_wrG, mem_of_pair h (mem_readLine ..)]
    · rw [fPend_state, mem_modF, mem_of_pair h (mem_readLine ..)]
theorem mem_fBranch (t ga gb imm f s) : memOf (fBranch t ga gb imm f s) = some s.mem := by
  simp only [fBranch, mem_fRun, ite_self, implies_true, fstate_ite, fRetire_state, fJump_state]
theorem mem_execFEnd (t s) : memOf (execFEnd t s) = some s.mem := by
  simp only [execFEnd, mem_fEndRetire, mem_fRun, mem_ite, ite_self, implies_true, fstate_ite, fWait_state,
      fPend_state]
theorem mem_execFSjoin (t sl s) : memOf (execFSjoin t sl s) = some s.mem := by
  simp only [execFSjoin, mem_fRun, ite_self, implies_true, fstate_ite, fRetire_state, fWait_state]
theorem mem_execFSacq (t ga cnt n s) : memOf (execFSacq t ga cnt n s) = some s.mem := by
  simp only [execFSacq, mem_acquire, mem_fRun, ite_self, implies_true, fstate_ite, fRetire_state, fWait_state]
theorem mem_execFSpost (t ga cnt n s) : memOf (execFSpost t ga cnt n s) = some s.mem := by
  simp only [execFSpost, mem_fRun, mem_semPost, implies_true, fRetire_state]
theorem mem_execFSopen (t ga sl s) : memOf (execFSopen t ga sl s) = some s.mem := by
  simp only [execFSopen, mem_slotOpen, mem_fRun, mem_ite, ite_self, implies_true, fstate_ite, fWait_state]
theorem mem_execAcquireGrant (t n s) : memOf (execAcquireGrant t n s) = some s.mem := by
  simp only [execAcquireGrant, mem_semGrant, mem_fWake, memOf_next]
theorem mem_execStreamAccept (t sl env s) : memOf (execStreamAccept t sl env s) = some s.mem := by
  refine congrArg some ?_
  split
  · with_reducible split
    next h => rw [mem_fFault, mem_of_pair h (mem_engRead64 ..)]
    next h =>
      rw [← mem_of_pair h (mem_engRead64 ..)]
      split
      · rw [mem_fWake, mem_slotRefuse]
      · with_reducible split
        next h' => rw [mem_fFault, mem_of_pair h' (mem_engRead64 ..)]
        next h' =>
          rw [← mem_of_pair h' (mem_engRead64 ..)]
          split
          · rw [mem_fWake, mem_slotRefuse]
          · rw [mem_fWake, mem_slotAccept]
  · rfl
theorem mem_execTransferTimeout (t id s) : memOf (execTransferTimeout t id s) = some s.mem := by
  simp only [execTransferTimeout]
  split <;> simp only [mem_fWake, mem_modSlot, mem_dropXfer, mem_bufFault, mem_modTile, mem_rinc, mem_ite, ite_self,
      memOf_next]
theorem mem_execProgressTimeout (t s) : memOf (execProgressTimeout t s) = some s.mem := by
  simp only [execProgressTimeout]
  repeat' split
  all_goals simp only [mem_streamReport, mem_fFault, mem_slotAbort, mem_progress, mem_rinc, memOf_next]
theorem mem_execStreamAbortComplete (t sl s) : memOf (execStreamAbortComplete t sl s) = some s.mem := by
  simp only [execStreamAbortComplete, mem_fWake, mem_modSlot, mem_restoreSnap, mem_setSlotState, mem_ite, ite_self,
      memOf_next]
theorem mem_execXScancel (t rs imm sl s) : memOf (execXScancel t rs imm sl s) = some s.mem := by
  simp only [execXScancel, mem_slotCancel, mem_fWake, mem_xRun, implies_true, xRetire_state]
theorem mem_execCancelComplete (t sl s) : memOf (execCancelComplete t sl s) = some s.mem := by
  simp only [execCancelComplete, mem_slotAfterCancel, mem_fWake, mem_modSlot, mem_restoreSnap, mem_semPost,
      mem_setSlotState, mem_ite, ite_self, memOf_next]

/-! ### Mesh -/

theorem mem_execMeshReply (id bad s) : memOf (execMeshReply id bad s) = some s.mem := by
  simp only [execMeshReply]
  repeat' split
  all_goals simp only [mem_takeReply, memOf_next]
theorem mem_execRetryResend (id s) : memOf (execRetryResend id s) = some s.mem := by
  simp only [execRetryResend]
  repeat' split
  all_goals simp only [mem_emitTxn, mem_putTxn, mem_takeReply, memOf_next]
theorem mem_execMeshTransactionTimeout (id s) : memOf (execMeshTransactionTimeout id s) = some s.mem := by
  simp only [execMeshTransactionTimeout]
  repeat' split
  all_goals simp only [mem_deliver, memOf_next]

/-! ### Launch -/

theorem mem_execLaunch (q seq s) : memOf (execLaunch q seq s) = some s.mem := by
  simp only [execLaunch, mem_runCmd, mem_endWith, mem_startTile, mem_modCmd, mem_ite, ite_self, mem_foldl,
      implies_true]
theorem mem_execTileReset (t s) : memOf (execTileReset t s) = some s.mem := by
  simp only [execTileReset, mem_tileReset, mem_hostWrite, implies_true, memOf_next]
theorem mem_execCmdNop (q seq s) : memOf (execCmdNop q seq s) = some s.mem := by
  simp only [execCmdNop, mem_runCmd, mem_endCmd, implies_true]
theorem mem_execChain (q seq s) : memOf (execChain q seq s) = some s.mem := by
  simp only [execChain, mem_runCmd, mem_endCmd, mem_modQueue, implies_true]
theorem mem_execEventSignal (q seq s) : memOf (execEventSignal q seq s) = some s.mem := by
  simp only [execEventSignal, mem_runCmd, mem_endCmd, mem_rput, implies_true]
theorem mem_execEventWait (q seq s) : memOf (execEventWait q seq s) = some s.mem := by
  simp only [execEventWait, mem_runCmd, mem_endCmd, mem_modCmd, mem_ite, ite_self, implies_true]
theorem mem_execEventWaitSatisfied (q seq s) : memOf (execEventWaitSatisfied q seq s) = some s.mem := by
  simp only [execEventWaitSatisfied]
  repeat' split
  all_goals simp only [mem_endCmd, memOf_next]
theorem mem_prefetch (q seq op act s) (hact : ∀ a u, (act a u).mem = u.mem) :
    memOf (prefetch q seq op act s) = some s.mem := by
  simp only [prefetch, mem_runCmd, mem_modCmd, hact, mem_ite, ite_self, mem_foldl, implies_true]
theorem mem_execPin (q seq s) : memOf (execPin q seq s) = some s.mem := by
  simp only [execPin, mem_prefetch, mem_rset, implies_true]
theorem mem_execUnpin (q seq s) : memOf (execUnpin q seq s) = some s.mem := by
  simp only [execUnpin, mem_prefetch, mem_rset, implies_true]

/-! ### Collective -/

theorem mem_execGroupDescriptorWrite (g k v s) : memOf (execGroupDescriptorWrite g k v s) = some s.mem := by
  simp only [execGroupDescriptorWrite, mem_grpWrite, mem_hostWrite, mem_ite, ite_self, implies_true, memOf_next]
theorem mem_execCollective (q seq s) : memOf (execCollective q seq s) = some s.mem := by
  refine mem_runCmd _ _ _ _ _ fun c u => ?_
  dsimp only
  split
  · exact mem_endWith ..
  · split
    · rw [mem_endWith]
      split
      · rw [mem_failInbox, mem_rset]
      · exact mem_rset ..
    · rw [mem_pumpSegs, mem_modCmd]
theorem mem_xColl (t rs grp link linkEn label mk s) : memOf (xColl t rs grp link linkEn label mk s) = some s.mem := by
  simp only [xColl, mem_xRun8, mem_pushFault, mem_modX, mem_pumpSegs, mem_ite, ite_self, implies_true, state_ite,
      xRetire_state, xStall_state]
theorem mem_execSegmentTimeout (g seq s) : memOf (execSegmentTimeout g seq s) = some s.mem := by
  simp only [execSegmentTimeout]
  split <;> simp only [mem_segFail, mem_pumpSegs, mem_rinc, memOf_next]

/-! ### Region -/

theorem mem_execRgnAcq (t rs r link s) : memOf (execRgnAcq t rs r link s) = some s.mem := by
  simp only [execRgnAcq, mem_xRun8, mem_nextSeq, mem_ite, ite_self, implies_true, state_ite, xRetire_state,
      xStall_state]
theorem mem_execRgnRel (t rs r s) : memOf (execRgnRel t rs r s) = some s.mem := by
  simp only [execRgnRel, mem_xRun8, mem_nextSeq, implies_true, xRetire_state]
theorem mem_execRegionAcquire (t r s) : memOf (execRegionAcquire t r s) = some s.mem := by
  simp only [execRegionAcquire]
  split <;> simp only [mem_rgnAcquire, mem_dropReq, mem_rinc, mem_ite, ite_self, memOf_next]

/-! ### Cube -/

theorem mem_execDemandTimeout (t s) : memOf (execDemandTimeout t s) = some s.mem := by
  simp only [execDemandTimeout]
  repeat' split
  all_goals simp only [mem_ceDone, memOf_next]

/-! ### Ablation -/

theorem mem_execInboxBuffer (st ch s) : memOf (execInboxBuffer st ch s) = some s.mem := by
  simp only [execInboxBuffer]
  split <;> simp only [mem_setInbox, mem_endInboxCmd, mem_ite, ite_self, memOf_next]
theorem mem_execInboxReset (st ch s) : memOf (execInboxReset st ch s) = some s.mem := by
  simp only [execInboxReset, mem_inboxReset, mem_hostWrite, implies_true, memOf_next]
theorem mem_execUpdate (q seq s) : memOf (execUpdate q seq s) = some s.mem := by
  simp only [execUpdate, mem_setJobs, mem_runCmd, mem_modCmd, mem_foldl, implies_true]
theorem mem_execUpdPost (t da link linkEn s) : memOf (execUpdPost t da link linkEn s) = some s.mem := by
  simp only [execUpdPost, mem_setJobs, mem_xRun8, mem_modX, mem_ite, ite_self, implies_true, state_ite, xRetire_state,
      xStall_state]
theorem mem_execAblationCommandArrival (st s) : memOf (execAblationCommandArrival st s) = some s.mem := by
  simp only [execAblationCommandArrival]
  split <;> simp only [mem_setJobs, mem_rgnStart, mem_updAbl, mem_ablTaken, mem_ablOwner, mem_rinc, mem_ite, ite_self,
      memOf_next]
theorem mem_execAblationCommandComplete (st s) : memOf (execAblationCommandComplete st s) = some s.mem := by
  simp only [execAblationCommandComplete]
  repeat' split
  all_goals simp only [mem_setJobs, mem_ablErr, mem_setBct, mem_updAbl, mem_rgnEnd, mem_ablOwner, memOf_next]
theorem mem_execReaderWaitTimeout (r s) : memOf (execReaderWaitTimeout r s) = some s.mem := by
  simp only [execReaderWaitTimeout, mem_waitEnd, mem_ite, ite_self, memOf_next]
theorem mem_execAblMcLoad (st s) : memOf (execAblMcLoad st s) = some s.mem := by
  simp only [execAblMcLoad, mem_mcLoad, mem_hostWrite, implies_true, memOf_next]
theorem mem_execAblDrainDone (st s) : memOf (execAblDrainDone st s) = some s.mem := by
  simp only [execAblDrainDone, mem_setAbState, mem_ite, ite_self, memOf_next]
theorem mem_execAblMcLoadDone (st s) : memOf (execAblMcLoadDone st s) = some s.mem := by
  simp only [execAblMcLoadDone, mem_mcRun, mem_rput, mem_alert, mem_ablRead, mem_rset, mem_ite, ite_self, snd_ite,
      memOf_next]

/-! ### Recovery -/

theorem mem_execUnpair (s) : memOf (execUnpair s) = some s.mem := by
  simp only [execUnpair, mem_unpair, mem_hostWrite, implies_true, memOf_next]
theorem mem_execMirrorHeaderPoll (st h s) : memOf (execMirrorHeaderPoll st h s) = some s.mem := by
  simp only [execMirrorHeaderPoll, mem_setMirState, mem_setSharedFeed, mem_alert, mem_rset, mem_ite, ite_self,
      memOf_next]
theorem mem_execPairingTimeout (s) : memOf (execPairingTimeout s) = some s.mem := by
  simp only [execPairingTimeout, mem_setMirState, mem_rset, mem_ite, ite_self, memOf_next]
theorem mem_recCmd (f s) (hf : ∀ u, (f u).mem = u.mem) : memOf (recCmd f s) = some s.mem := by
  simp only [recCmd, mem_hostWrite, hf, mem_ite, ite_self, implies_true, memOf_next]
theorem mem_execCalve (dev s) : memOf (execCalve dev s) = some s.mem := by
  simp only [execCalve, mem_calve, mem_recCmd, implies_true]
theorem mem_execCalveComplete (s) : memOf (execCalveComplete s) = some s.mem := by
  simp only [execCalveComplete, mem_rset, memOf_next]
theorem mem_execFill (dev source snap s) : memOf (execFill dev source snap s) = some s.mem := by
  simp only [execFill, mem_recCmd, mem_fillCmd, implies_true]
theorem mem_execDone (s) : memOf (execDone s) = some s.mem := by
  simp only [execDone, mem_recCmd, mem_doneCmd, implies_true]
theorem mem_execClear (s) : memOf (execClear s) = some s.mem := by
  simp only [execClear, mem_recCmd, mem_clearCmd, implies_true]
theorem mem_execUnfence (dev s) : memOf (execUnfence dev s) = some s.mem := by
  simp only [execUnfence, mem_recCmd, mem_unfence, implies_true]
theorem mem_execFillDone (s) : memOf (execFillDone s) = some s.mem := by
  simp only [execFillDone]
  split <;> simp only [mem_deviceEvent, mem_rset, mem_ite, ite_self, memOf_next]

/-! ### Firn -/

theorem mem_execFirnRecordDurable (q seq s) : memOf (execFirnRecordDurable q seq s) = some s.mem := by
  simp only [execFirnRecordDurable]
  repeat' split
  all_goals simp only [mem_endWith, mem_recDrop, mem_beginDone, memOf_next]
theorem mem_execFirnCommitWrite (step s) : memOf (execFirnCommitWrite step s) = some s.mem :=
  congrArg some (mem_hostWrite _ _ _ fun _ => mem_rput ..)

/-! ### Fabric -/

theorem mem_hostPort (p f s) (hf : ∀ u, (f u).mem = u.mem) : memOf (hostPort p f s) = some s.mem := by
  simp only [hostPort, mem_hostWrite, hf, mem_ite, ite_self, implies_true, memOf_next]
theorem mem_execPortEnable (p s) : memOf (execPortEnable p s) = some s.mem := by
  simp only [execPortEnable, mem_portEnable, mem_hostPort, implies_true]
theorem mem_execPortDisable (p s) : memOf (execPortDisable p s) = some s.mem := by
  simp only [execPortDisable, mem_portDisable, mem_hostPort, implies_true]
theorem mem_execFabricDisable (s) : memOf (execFabricDisable s) = some s.mem := by
  simp only [execFabricDisable, mem_fabricDisable, mem_hostWrite, implies_true, memOf_next]
theorem mem_execPortTrained (p s) : memOf (execPortTrained p s) = some s.mem := by
  simp only [execPortTrained, mem_setPortState, mem_retryPkts, mem_renewPort, mem_ite, ite_self, memOf_next]
theorem mem_execPortAckTimeout (p s) : memOf (execPortAckTimeout p s) = some s.mem := by
  simp only [execPortAckTimeout, mem_portRetrain, memOf_next]
theorem mem_execLaneLockLost (p s) : memOf (execLaneLockLost p s) = some s.mem := by
  simp only [execLaneLockLost, mem_portRetrain, memOf_next]
theorem mem_execPortRetrained (p s) : memOf (execPortRetrained p s) = some s.mem := by
  simp only [execPortRetrained, mem_setPortState, mem_modPort, mem_retryPkts, mem_rinc, mem_ite, ite_self, memOf_next]
theorem mem_execRetrainTimeout (p s) : memOf (execRetrainTimeout p s) = some s.mem := by
  simp only [execRetrainTimeout, mem_setPortState, mem_modPort, mem_dropPort, mem_retryPkts, mem_alert, mem_ite,
      ite_self, memOf_next]
theorem mem_execPortDrainDone (p s) : memOf (execPortDrainDone p s) = some s.mem := by
  simp only [execPortDrainDone, mem_setPortState, mem_dropPort, mem_retryPkts, mem_ite, ite_self, memOf_next]
theorem mem_execLinkGroupReceive (p g corr unc s) : memOf (execLinkGroupReceive p g corr unc s) = some s.mem := by
  simp only [execLinkGroupReceive, mem_modPort, mem_takeCredits, mem_retryPkts, mem_takeAck, mem_rinc, mem_ite,
      ite_self, memOf_next]
theorem mem_execFabricHoldDrop (i s) : memOf (execFabricHoldDrop i s) = some s.mem := by
  simp only [execFabricHoldDrop]
  split <;> simp only [mem_freeBuf, mem_rinc, mem_ite, ite_self, memOf_next]
theorem mem_packetIn (p k bad is serve s) (hserve : ∀ a u, (serve a u).mem = u.mem) :
    memOf (packetIn p k bad is serve s) = some s.mem := by
  simp only [packetIn, mem_passed, mem_routePkt, mem_answer, mem_takeIn, mem_orphanPkt, mem_rinc, hserve, mem_ite,
      ite_self, memOf_next]
theorem mem_execRead (p k bad s) : memOf (execRead p k bad s) = some s.mem := by
  simp only [execRead, localRead_mem, mem_packetIn, mem_atTarget, implies_true]
theorem mem_execPost (p k bad s) : memOf (execPost p k bad s) = some s.mem := by
  simp only [execPost, mem_packetIn, mem_answer, mem_semPost, mem_rinc, mem_ite, ite_self, implies_true]
theorem mem_execNoticeEpoch (p k bad s) : memOf (execNoticeEpoch p k bad s) = some s.mem := by
  refine mem_packetIn _ _ _ _ _ _ fun _ u => ?_
  dsimp only
  split
  · rfl
  · split
    · rw [mem_pumpSegs, mem_segFail]
    · rfl
theorem mem_execNoticeAbort (p k bad s) : memOf (execNoticeAbort p k bad s) = some s.mem := by
  simp only [execNoticeAbort, mem_packetIn, mem_setGState, mem_groupAbort, mem_pumpSegs, mem_ite, ite_self,
      implies_true]
theorem mem_execSeg (p k bad s) : memOf (execSeg p k bad s) = some s.mem := by
  simp only [execSeg, mem_freeBuf, mem_packetIn, mem_segStep, mem_orphanPkt, mem_pumpSegs, mem_ite, ite_self,
      implies_true]

/-! ### Ledger -/

theorem mem_execAvsVdone (s) : memOf (execAvsVdone s) = some s.mem := by
  simp only [execAvsVdone]
  repeat' split
  all_goals simp only [mem_endVolt, mem_modLedger, mem_setDivider, memOf_next]
theorem mem_execAvsAttemptTimeout (s) : memOf (execAvsAttemptTimeout s) = some s.mem := by
  simp only [execAvsAttemptTimeout]
  split <;> simp only [mem_freeWord, mem_endVolt, mem_modLedger, mem_alert, mem_rset, mem_rinc, mem_ite, ite_self,
      memOf_next]
theorem mem_execLedgerTick (counts moves upsets tj pwrbrk s) :
    memOf (execLedgerTick counts moves upsets tj pwrbrk s) = some s.mem := by
  simp only [execLedgerTick, mem_passMode, mem_passTags, mem_passSpeed, mem_passEnd, mem_modLedger, mem_visitAll,
      mem_passBalance, mem_upset, mem_ite, ite_self, mem_foldl, implies_true, memOf_next]
theorem mem_execReconcile (measured s) : memOf (execReconcile measured s) = some s.mem := by
  simp only [execReconcile]
  repeat' split
  all_goals simp only [mem_modLedger, mem_rset, mem_rinc, memOf_next]
theorem mem_execTagClr (s) : memOf (execTagClr s) = some s.mem := by
  simp only [execTagClr, mem_tagClr, mem_hostWrite, implies_true, memOf_next]

/-! ### Domain -/

theorem mem_execStandbyMirrorComplete (s) : memOf (execStandbyMirrorComplete s) = some s.mem := by
  simp only [execStandbyMirrorComplete, mem_rset, mem_ite, ite_self, memOf_next]

/-! ### Reset -/

theorem mem_execHeartbeat (s) : memOf (execHeartbeat s) = some s.mem := by
  simp only [execHeartbeat, memOf_next]

/-! ### Manage -/

theorem mem_execCommitSvn (s) : memOf (execCommitSvn s) = some s.mem := by
  simp only [execCommitSvn, mem_commitSvn, mem_hostWrite, implies_true, memOf_next]
theorem mem_execSensorUpdate (readings s) : memOf (execSensorUpdate readings s) = some s.mem := by
  simp only [execSensorUpdate, mem_takeReadings, mem_ite, ite_self, memOf_next]
theorem mem_execVralert (s) : memOf (execVralert s) = some s.mem := by
  simp only [execVralert, mem_alert, mem_ite, ite_self, memOf_next]
theorem mem_execTestAccessPortOpen (good s) : memOf (execTestAccessPortOpen good s) = some s.mem := by
  simp only [execTestAccessPortOpen, mem_rset, mem_ite, ite_self, memOf_next]
theorem mem_pmbus (f s) (hf : ∀ u, (f u).mem = u.mem) : memOf (pmbus f s) = some s.mem := by
  simp only [pmbus, hf, mem_ite, ite_self, memOf_next]
theorem mem_execClearFaults (s) : memOf (execClearFaults s) = some s.mem := by
  simp only [execClearFaults, mem_modMgmt, mem_pmbus, implies_true]
theorem mem_execStatusWord (s) : memOf (execStatusWord s) = some s.mem := by
  simp only [execStatusWord, mem_pmbus, mem_answerMgmt, implies_true]
theorem mem_execReadVin (s) : memOf (execReadVin s) = some s.mem := by
  simp only [execReadVin, mem_pmbus, mem_answerMgmt, implies_true]
theorem mem_execReadIin (s) : memOf (execReadIin s) = some s.mem := by
  simp only [execReadIin, mem_pmbus, mem_answerMgmt, implies_true]
theorem mem_execReadTemperature1 (s) : memOf (execReadTemperature1 s) = some s.mem := by
  simp only [execReadTemperature1, mem_pmbus, mem_answerMgmt, implies_true]
theorem mem_execReadPin (s) : memOf (execReadPin s) = some s.mem := by
  simp only [execReadPin, mem_pmbus, mem_answerMgmt, implies_true]

/-! ### HostRegs -/

theorem mem_execRcCounterRead (off bytes s) : memOf (execRcCounterRead off bytes s) = some s.mem := by
  simp only [execRcCounterRead, mem_hostRead4, mem_ite, ite_self, memOf_next]
theorem mem_execHostwinWrite (v s) : memOf (execHostwinWrite v s) = some s.mem := by
  simp only [execHostwinWrite, mem_rset, mem_hostWrite, implies_true, memOf_next]

/-! ### Predict -/

theorem mem_predBody (t op run s) (hrun : ∀ a u, (run a u).2.mem = u.mem) :
    memOf (predBody t op run s) = some s.mem := by
  simp only [predBody]
  split <;> simp only [mem_gmeEnd, hrun, mem_ite, ite_self, memOf_next]
theorem mem_execVerdict (t env s) : memOf (execVerdict t env s) = some s.mem := by
  simp only [execVerdict, mem_predBody, mem_verdictRun, implies_true]

/-! ### Reserved -/

theorem mem_execReservedEncoding (t w0 w1 s) : memOf (execReservedEncoding t w0 w1 s) = some s.mem := by
  refine congrArg some ?_
  split
  · rfl
  · split
    · split
      · exact mem_xHalt ..
      · with_reducible split
        next h => rw [mem_preciseFault, mem_of_pair h (mem_xFetch ..)]
        next h => rw [mem_enterFault, mem_of_pair h (mem_xFetch ..)]
    · rfl
theorem mem_execFcReservedEncoding (t w s) : memOf (execFcReservedEncoding t w s) = some s.mem := by
  simp only [execFcReservedEncoding]
  split <;> simp only [mem_fFault, mem_fRun, implies_true, fPend_state, memOf_next]

/-! ### Vector -/

theorem mem_vOp3 (t pg vd va vb f s) : memOf (vOp3 t pg vd va vb f s) = some s.mem := by
  simp only [vOp3, mem_wrV, mem_xRun, implies_true, xRetire_state]
theorem mem_vOp2 (t pg vd va f s) : memOf (vOp2 t pg vd va f s) = some s.mem := by
  simp only [vOp2, mem_wrV, mem_xRun, implies_true, xRetire_state]
theorem mem_execVbcast (t pg vd rs s) : memOf (execVbcast t pg vd rs s) = some s.mem := by
  simp only [execVbcast, mem_wrV, mem_xRun, implies_true, xRetire_state]
theorem mem_execVext (t _pg rd va rs s) : memOf (execVext t _pg rd va rs s) = some s.mem := by
  simp only [execVext, mem_xRun, mem_xSetS, implies_true]
theorem mem_execVins (t pg vd rs1 rs2 s) : memOf (execVins t pg vd rs1 rs2 s) = some s.mem := by
  simp only [execVins, mem_wrV, mem_xRun, implies_true, xRetire_state]
theorem mem_execVshuf (t pg vd va vb s) : memOf (execVshuf t pg vd va vb s) = some s.mem := by
  simp only [execVshuf, mem_wrV, mem_xRun, implies_true, xRetire_state]
theorem mem_execViota (t pg vd s) : memOf (execViota t pg vd s) = some s.mem := by
  simp only [execViota, mem_wrV, mem_xRun, implies_true, xRetire_state]
theorem mem_execVsel (t pg vd va vb s) : memOf (execVsel t pg vd va vb s) = some s.mem := by
  simp only [execVsel, mem_wrV, mem_xRun, implies_true, xRetire_state]
theorem mem_vReduce (t pg rd va z f s) : memOf (vReduce t pg rd va z f s) = some s.mem := by
  simp only [vReduce, mem_xRun, mem_xSetS, implies_true]
theorem mem_vLoad (t pg vd rs1 imm esz s) : memOf (vLoad t pg vd rs1 imm esz s) = some s.mem := by
  simp only [vLoad, mem_xLoad, mem_xRun, implies_true]
theorem mem_execVldBc (t pg vd rs1 imm s) : memOf (execVldBc t pg vd rs1 imm s) = some s.mem := by
  simp only [execVldBc, mem_xLoad, mem_xRun, mem_ite, ite_self, implies_true, state_ite, xRetire_state]
theorem mem_vCmp (t pg pd va vb f s) : memOf (vCmp t pg pd va vb f s) = some s.mem := by
  simp only [vCmp, mem_xRun, mem_wrP, implies_true, xRetire_state]
theorem mem_pOp (t pg pd f s) : memOf (pOp t pg pd f s) = some s.mem := by
  simp only [pOp, mem_xRun, mem_wrP, implies_true, xRetire_state]
theorem mem_execPcnt (t pg rd pa s) : memOf (execPcnt t pg rd pa s) = some s.mem := by
  simp only [execPcnt, mem_xRun, mem_xSetS, implies_true]

end Sys2Proof.Machine
end

section
/-! SUPPORT. What writes memory keeps its canonical form: the operations, then the meanings, then `exec`. -/

namespace Sys2Proof.Machine

/-- The canonical form of a memory; `MemoryWf s` is `Canon s.mem`. -/
def Canon (m : Map Byte) : Prop := mwf (fun _ => (0 : Byte)) m = true
theorem canon_ite (c : Prop) [Decidable c] (a b : Map Byte) :
    Canon (if c then a else b) ↔ if c then Canon a else Canon b := by
  split <;> rfl

/-- An outcome goes on with memory in canonical form. -/
def CanonOut (o : Host.Outcome State Fault Refusal) : Prop :=
  match o with
  | .next s => Canon s.mem
  | _ => True
theorem canonOut_next (s : State) : CanonOut (.next s) ↔ Canon s.mem := Iff.rfl
theorem canonOut_of_mem {o} {s : State} (h : Canon s.mem) (e : memOf o = some s.mem) : CanonOut o := by
  cases o with
  | next v => exact (congrArg Canon (Option.some.inj e)).mpr h
  | _ => trivial
theorem keeps_foldl {P : Map Byte → Prop} {α : Type} (g : State → α → State) (l : List α) (s : State)
    (hg : ∀ u x, P u.mem → P (g u x).mem) (h : P s.mem) : P (l.foldl g s).mem := by
  induction l generalizing s with
  | nil => exact h
  | cons x l ih => exact ih _ (hg _ _ h)
theorem keeps_emBind {P : Map Byte → Prop} {ε α β : Type} (x : Except ε α × State)
    (f : α → State → Except ε β × State)
    (hf : ∀ a u, P u.mem → P (f a u).2.mem) (h : P x.2.mem) : P (emBind x f).2.mem := by
  obtain ⟨_ | a, u⟩ := x
  · exact h
  · exact hf a u h
theorem keeps_emMap {P : Map Byte → Prop} {ε α β : Type} (f : α → State → Except ε β × State) (l : List α) (s : State)
    (hf : ∀ a u, P u.mem → P (f a u).2.mem) (h : P s.mem) : P (emMap f l s).2.mem := by
  induction l generalizing s with
  | nil => exact h
  | cons a l ih =>
    exact keeps_emBind _ _ (fun _ _ hu => keeps_emBind _ _ (fun _ _ hv => hv) (ih _ hu)) (hf _ _ h)
theorem keeps_emElim {P : Map Byte → Prop} {ε α β : Type} (x : Except ε α × State) (f : ε → State → β × State)
    (g : α → State → β × State) (hf : ∀ a u, P u.mem → P (f a u).2.mem) (hg : ∀ a u, P u.mem → P (g a u).2.mem)
    (h : P x.2.mem) : P (emElim x f g).2.mem := by
  obtain ⟨_ | a, u⟩ := x
  · exact hf _ u h
  · exact hg a u h
theorem wf_wrCells (cells) {s} (h : Canon s.mem) : Canon (wrCells cells s).mem := wrCells_wf cells s h
theorem wf_freeBytes (l) {s} (h : Canon s.mem) : Canon (freeBytes l s).mem := freeBytes_wf l s h
theorem wf_memWrite (cells) {s} (h : Canon s.mem) : Canon (memWrite cells s).2.mem := memWrite_wf cells s h
theorem wf_localWrite (cells) {s} (h : Canon s.mem) : Canon (localWrite cells s).2.mem := localWrite_wf cells s h
theorem wf_localAadd (a wide v) {s} (h : Canon s.mem) : Canon (localAadd a wide v s).2.2.mem :=
    localAadd_wf a wide v s h

/-- The state of a pair that is known to be equal to an operation's answer. -/
theorem canon_of_pair {α : Type} {x : α × State} {r : α} {s1 : State} (h : x = (r, s1)) (hx : Canon x.2.mem) :
    Canon s1.mem := by
  subst h; exact hx

/-- As `canon_of_pair`, for an operation that answers two values. -/
theorem canon_of_triple {α β : Type} {x : α × β × State} {r : α} {q : β} {s1 : State} (h : x = (r, q, s1))
    (hx : Canon x.2.2.mem) :
    Canon s1.mem := by
  subst h; exact hx
theorem wf_foldl {α : Type} (g : State → α → State) (l : List α) {s : State}
    (hg : ∀ u x, Canon u.mem → Canon (g u x).mem)
    (hm : Canon s.mem) : Canon (l.foldl g s).mem := keeps_foldl g l s hg hm
theorem wf_emBind {ε α β : Type} {x : Except ε α × State} {f : α → State → Except ε β × State}
    (hf : ∀ a u, Canon u.mem → Canon (f a u).2.mem) (hm : Canon x.2.mem) : Canon (emBind x f).2.mem :=
        keeps_emBind x f hf hm
theorem wf_emMap {ε α β : Type} {f : α → State → Except ε β × State} {l : List α} {s : State}
    (hf : ∀ a u, Canon u.mem → Canon (f a u).2.mem) (hm : Canon s.mem) : Canon (emMap f l s).2.mem :=
        keeps_emMap f l s hf hm
theorem wf_emElim {ε α β : Type} {x : Except ε α × State} {f : ε → State → β × State} {g : α → State → β × State}
    (hf : ∀ a u, Canon u.mem → Canon (f a u).2.mem) (hg : ∀ a u, Canon u.mem → Canon (g a u).2.mem)
    (hm : Canon x.2.mem) : Canon (emElim x f g).2.mem := keeps_emElim x f g hf hg hm
theorem wf_hostWrite (n f) {s : State} (hf : ∀ u, Canon u.mem → Canon (f u).mem) (hm : Canon s.mem) :
    Canon (hostWrite n f s).mem := by
  simp only [hostWrite, mem_rinc, hf s hm, hm, mem_ite, canon_ite, ite_self]
theorem wf_hostTile (t f) {s : State} (hf : ∀ u, Canon u.mem → Canon (f u).mem) (hm : Canon s.mem) :
    Canon (hostTile t f s).mem := by
  refine wf_hostWrite _ _ (fun u hu => ?_) hm
  simp only [hf u hu, hu, mem_ite, canon_ite, ite_self]
theorem wf_arrive (id x t serve) {s : State} (hf : ∀ u, Canon u.mem → Canon (serve u).2.2.mem) (hm : Canon s.mem) :
    Canon (arrive id x t serve s).mem := by
  simp only [arrive, mem_putTxn, mem_rinc, hf s hm, hm, mem_ite, canon_ite, ite_self]
theorem wf_xRun (t) {body : State → XOut} {s : State} (hb : ∀ u, Canon u.mem → Canon (body u).state.mem)
    (hm : Canon s.mem) :
    CanonOut (xRun t body s) := (canonOut_next _).2 (keeps_xIssue t 4 body s hb hm)
theorem wf_xRun8 (t) {body : State → XOut} {s : State} (hb : ∀ u, Canon u.mem → Canon (body u).state.mem)
    (hm : Canon s.mem) :
    CanonOut (xRun8 t body s) := (canonOut_next _).2 (keeps_xIssue t 8 body s hb hm)
theorem wf_fRun (t) {body : State → FOut} {s : State} (hb : ∀ u, Canon u.mem → Canon (body u).state.mem)
    (hm : Canon s.mem) :
    CanonOut (fRun t body s) := (canonOut_next _).2 (keeps_fIssue t body s hb hm)
theorem wf_runCmd (q seq op) {body : Cmd → State → State} {s : State} (hb : ∀ c u, Canon u.mem → Canon (body c u).mem)
    (hm : Canon s.mem) : CanonOut (runCmd q seq op body s) := by
  simp only [runCmd]
  repeat' split
  all_goals simp only [canonOut_next, hb _ s hm, hm]
theorem wf_exdDo (ok) {eff : State → State} {s : State} (hf : ∀ u, Canon u.mem → Canon (eff u).mem)
    (hm : Canon s.mem) :
    Canon (exdDo ok eff s).mem := by
  simp only [exdDo, mem_cmdStat, hf s hm, hm, mem_ite, canon_ite, ite_self]
theorem wf_exdCmd (ok) {eff : State → State} {s : State} (hf : ∀ u, Canon u.mem → Canon (eff u).mem)
    (hm : Canon s.mem) :
    CanonOut (exdCmd ok eff s) := (canonOut_next _).2 (wf_hostWrite _ _ (fun _ => wf_exdDo _ hf) hm)
theorem wf_prefetch (q seq op) {act : Nat → State → State} {s : State} (hf : ∀ e u, Canon u.mem → Canon (act e u).mem)
    (hm : Canon s.mem) : CanonOut (prefetch q seq op act s) := by
  refine wf_runCmd _ _ _ (fun c u hu => ?_) hm
  split
  · rw [mem_modCmd]
    exact wf_foldl _ _ (fun v e => hf e v) hu
  · exact hu
theorem wf_packetIn (p k bad is) {serve : InBuf → State → State} {s : State}
    (hf : ∀ b u, Canon u.mem → Canon (serve b u).mem)
    (hm : Canon s.mem) : CanonOut (packetIn p k bad is serve s) := by
  have h1 : ∀ b, Canon (serve b (passed p.toNat k s)).mem := fun b => hf b _ (by rwa [mem_passed])
  have h2 : ∀ b, Canon (serve b (takeIn p.toNat k s)).mem := fun b => hf b _ (by rwa [mem_takeIn])
  simp only [packetIn, mem_passed, mem_routePkt, mem_answer, mem_takeIn, mem_orphanPkt, mem_rinc, h1, h2, hm, mem_ite,
      canon_ite, ite_self, canonOut_next]
theorem wf_atTarget (k) {f : State → Status × List Byte × State} {s : State}
    (hf : ∀ u, Canon u.mem → Canon (f u).2.2.mem)
    (hm : Canon s.mem) : Canon (atTarget k f s).mem := by
  simp only [atTarget]
  repeat' split
  all_goals simp only [mem_answer, mem_orphanPkt, mem_rinc, hf s hm, hm]
theorem wf_pastHeld (t sl) {f : State → State} {s : State} (hf : ∀ u, Canon u.mem → Canon (f u).mem)
    (hm : Canon s.mem) :
    Canon (pastHeld t sl f s).mem := by
  simp only [pastHeld, hf s hm, hm, mem_ite, canon_ite, ite_self]
theorem wf_predBody (t op) {run : EngCmd → State → Option RunBad × State} {s : State}
    (hf : ∀ e u, Canon u.mem → Canon (run e u).2.mem)
    (hm : Canon s.mem) : CanonOut (predBody t op run s) := by
  simp only [predBody]
  split <;> simp only [canonOut_next, mem_gmeEnd, hf _ s hm, hm, mem_ite, canon_ite, ite_self]

/-! ### Sync -/

theorem wf_windowWrite (t : TileId) (cells : List (Nat × Byte)) (wdev : Nat) (wtile : Nat) {s : State}
    (hm : Canon s.mem) : Canon (windowWrite t cells wdev wtile s).2.mem := by
  simp only [windowWrite]
  repeat' split
  all_goals simp only [mem_winAdd, hm, wf_memWrite, mem_winLate]
theorem wf_windowAadd (t : TileId) (addr : Nat) (wide : Bool) (v : Word) (wdev : Nat) (wtile : Nat) {s : State}
    (hm : Canon s.mem) : Canon (windowAadd t addr wide v wdev wtile s).2.2.mem := by
  simp only [windowAadd]
  repeat' split
  all_goals simp only [mem_winAdd, hm, wf_localAadd, mem_winLate]
theorem wf_swizzleWrite (t : TileId) (n v : Nat) {s : State} (hm : Canon s.mem) : Canon (swizzleWrite t n v s).mem := by
  refine wf_foldl _ _ (fun u x hu => ?_) (by rwa [mem_rput])
  simp only [mem_ite, canon_ite, hu, wf_freeBytes, ite_self]
theorem wf_execSwizzleRangeWrite (t n v) {s : State} (hm : Canon s.mem) : CanonOut (execSwizzleRangeWrite t n v s) :=
  (canonOut_next _).2 (wf_hostTile _ _ (fun _ => wf_swizzleWrite _ _ _) hm)
theorem wf_execRemoteWrite (id bad) {s : State} (hm : Canon s.mem) : CanonOut (execRemoteWrite id bad s) := by
  refine (canonOut_next _).2 ?_
  repeat' split
  · refine wf_arrive _ _ _ _ (fun u hu => ?_) hm
    exact wf_windowWrite _ _ _ _ (by rwa [mem_payload])
  · exact hm
  · exact hm
theorem wf_execRemoteAtomicAdd (id bad) {s : State} (hm : Canon s.mem) : CanonOut (execRemoteAtomicAdd id bad s) := by
  refine (canonOut_next _).2 ?_
  split
  · split
    · refine wf_arrive _ _ _ _ (fun u hu => ?_) hm
      refine wf_windowAadd _ _ _ _ _ _ ?_
      split <;> simp only [mem_freeWord, hu]
    · exact hm
  · exact hm

/-! ### Csr -/

theorem wf_tileRegWrite (t : TileId) (lo : Nat) (start : Nat) (r : RegRow) (mask : Nat) (v : Nat) {s : State}
    (hm : Canon s.mem) : Canon (tileRegWrite t lo start r mask v s).mem := by
  simp only [tileRegWrite, mem_ite, mem_semWrite, ite_self, mem_winRangeWrite, mem_winOpen, mem_regPlain,
      mem_winClose, mem_xResume, mem_predGo, canon_ite, hm, wf_swizzleWrite]
theorem wf_tileCsrWrite (t : TileId) (lo n v : Nat) {s : State} (hm : Canon s.mem) :
    Canon (tileCsrWrite t lo n v s).mem := by
  simp only [tileCsrWrite]
  split
  · exact hm
  · exact wf_foldl _ _ (fun u p hu => by simp only [mem_unitWritten, hu, wf_tileRegWrite]) hm

/-! ### XCore -/

theorem wf_storeLine (t : TileId) (cells : List (Nat × Byte)) {s : State} (hm : Canon s.mem) :
    Canon (storeLine t cells s).mem := by
  have h1 : Canon (translate t (cells.headD (0, 0)).1 false true s).2.mem := by rwa [mem_translate]
  simp only [storeLine]
  with_reducible split
  next hx => simp only [mem_writeFault, mem_xlatFault, canon_of_pair hx h1]
  next hx => split <;> simp only [mem_ite, mem_writeFault, ite_self, canon_of_pair hx h1, wf_localWrite, mem_sendTxn,
      mem_sendWrite, mem_rinc, mem_xlatFault]
theorem wf_xStore (t : TileId) (cells : List (Nat × Byte)) {s : State} (hm : Canon s.mem) :
    Canon (xStore t cells s).state.mem := by
  rw [xStore, xRetire_state, mem_nextSeq]
  exact wf_foldl _ _ (fun u g => wf_storeLine _ _) hm
theorem wf_xAtomic (t : TileId) (addr : Nat) (wide : Bool) (v : Word) (ret : Option SReg) {s : State}
    (hm : Canon s.mem) :
    Canon (xAtomic t addr wide v ret s).state.mem := by
  have h1 : ∀ a, Canon (translate t a true true s).2.mem := fun a => by rwa [mem_translate]
  simp only [xAtomic]
  with_reducible split
  next hx => simp only [state_ite, xFault_state, xRetire_state, mem_ite, mem_xlatFault, mem_writeFault, ite_self,
      canon_of_pair hx (h1 _)]
  next hx => split <;> simp only [state_ite, xRetire_state, xFault_state, mem_ite, mem_loadWrite, mem_nextSeq,
      ite_self, mem_writeFault, canon_of_pair hx (h1 _), wf_localAadd, xLoad_state, mem_sendTxn, mem_rinc,
      mem_xlatFault]

/-! ### EngMem -/

theorem wf_engWriteLine (t : TileId) (unit : Nat) (w : Writer) (env : EngEnv) (cells : List (Nat × Byte)) {s : State}
    (hm : Canon s.mem) :
    Canon (engWriteLine t unit w env cells s).2.mem := by
  have h1 : Canon (translate t (cells.headD (0, 0)).1 false true s).2.mem := by rwa [mem_translate]
  simp only [engWriteLine]
  with_reducible split
  next hx => simp only [mem_xlatFault, canon_of_pair hx h1]
  next hx =>
    have h2 := canon_of_pair hx h1
    repeat' split
    all_goals simp only [h2, mem_sendWrite, mem_rinc, mem_xlatFault, wf_localWrite, wf_windowWrite]
theorem wf_engWriteLines (t : TileId) (unit : Nat) (w : Writer) (env : EngEnv) (l : List (List (Nat × Byte)))
    {s : State} (hm : Canon s.mem) :
    Canon (engWriteLines t unit w env l s).2.mem := by
  induction l generalizing s with
  | nil => exact hm
  | cons g l ih =>
    rw [engWriteLines]
    with_reducible split
    next hx => exact canon_of_pair hx (wf_engWriteLine _ _ _ _ _ hm)
    next hx => exact ih (canon_of_pair hx (wf_engWriteLine _ _ _ _ _ hm))
theorem wf_engWriteX (t : TileId) (unit : Nat) (w : Writer) (env : EngEnv) (cells : List (Nat × Byte)) {s : State}
    (hm : Canon s.mem) : Canon (engWriteX t unit w env cells s).2.mem := by
  simp only [engWriteX, mem_countGathers, hm, wf_engWriteLines]
theorem wf_engWrite (t : TileId) (unit : Nat) (env : EngEnv) (cells : List (Nat × Byte)) {s : State}
    (hm : Canon s.mem) : Canon (engWrite t unit env cells s).2.mem := by
  simp only [engWrite, hm, wf_engWriteX]
theorem wf_undefineVas (t : TileId) (w : Writer) (vas : List Nat) {s : State} (hm : Canon s.mem) :
    Canon (undefineVas t w vas s).mem := by
  simp only [undefineVas, hm, wf_freeBytes]

/-! ### Directory -/

theorem wf_writeRestab (e : Nat) {s : State} (hm : Canon s.mem) : Canon (writeRestab e s).mem := by
  simp only [writeRestab, hm, wf_memWrite]
theorem wf_setRes (e : Nat) (r : Nat) {s : State} (hm : Canon s.mem) : Canon (setRes e r s).mem := by
  simp only [setRes, mem_rset, hm, wf_writeRestab]
theorem wf_passSlot (v : Nat) (e : Nat) {s : State} (hm : Canon s.mem) : Canon (passSlot v e s).mem := by
  simp only [passSlot]
  split <;> simp only [mem_updSlots, mem_modExd, mem_setDirVa, hm, wf_setRes]
theorem wf_claimSlot (e : Nat) (demand : Bool) {s : State} (hm : Canon s.mem) : Canon (claimSlot e demand s).mem := by
  simp only [claimSlot]
  repeat' split
  all_goals simp only [mem_assignSlot, hm, wf_passSlot, mem_queueCopy, wf_setRes]
theorem wf_queueFetch (e : Nat) (demand : Bool) {s : State} (hm : Canon s.mem) : Canon (queueFetch e demand s).mem := by
  simp only [queueFetch, mem_queueCopy, hm, wf_setRes, wf_claimSlot]
theorem wf_requestFetch (e : Nat) (demand : Bool) {s : State} (hm : Canon s.mem) :
    Canon (requestFetch e demand s).mem := by
  simp only [requestFetch, mem_ite, mem_modExd, ite_self, canon_ite, hm, wf_queueFetch]
theorem wf_retryHeld {s : State} (hm : Canon s.mem) : Canon (retryHeld s).mem :=
  wf_foldl _ _ (fun _ _ => wf_requestFetch _ _) hm
theorem wf_freeSlot (e : Nat) {s : State} (hm : Canon s.mem) : Canon (freeSlot e s).mem := by
  simp only [freeSlot]
  split <;> simp only [mem_updSlots, mem_assignSlot, mem_modExd, hm, wf_retryHeld]
theorem wf_becomeResting (e : Nat) {s : State} (hm : Canon s.mem) : Canon (becomeResting e s).mem := by
  have h1 : Canon (freeSlot e (setDirVa e 0 (setRes e resResting s))).mem := wf_freeSlot _
      (by simp only [mem_setDirVa, hm, wf_setRes])
  simp only [becomeResting]
  split
  · exact wf_requestFetch _ _ h1
  · exact h1
theorem wf_startEvict (e : Nat) (queue : Bool) {s : State} (hm : Canon s.mem) : Canon (startEvict e queue s).mem := by
  simp only [startEvict, mem_ite, mem_modExd, ite_self, canon_ite, hm, wf_becomeResting, wf_setRes]
theorem wf_requestEvict (e : Nat) {s : State} (hm : Canon s.mem) : Canon (requestEvict e s).mem := by
  simp only [requestEvict, mem_ite, mem_modExd, ite_self, canon_ite, hm, wf_startEvict]
theorem wf_retryEvicts {s : State} (hm : Canon s.mem) : Canon (retryEvicts s).mem :=
  wf_foldl _ _ (fun _ _ => wf_requestEvict _) hm
theorem wf_copyRange (src dst len : Nat) {s : State} (hm : Canon s.mem) : Canon (copyRange src dst len s).2.mem := by
  simp only [copyRange]
  split
  · exact hm
  · exact mwf_msets _ _ _ (mwf_mclear _ _ _ _ hm)
theorem wf_fetchFault (e : Nat) (st : Status) {s : State} (hm : Canon s.mem) : Canon (fetchFault e st s).mem := by
  simp only [fetchFault, mem_modExd, hm, wf_setRes, wf_freeSlot]
theorem wf_writeBackFault (e : Nat) {s : State} (hm : Canon s.mem) : Canon (writeBackFault e s).mem := by
  simp only [writeBackFault, mem_alert, mem_rinc, hm, wf_setRes]
theorem wf_execAdoptRes (e : ExpertId) {s : State} (hm : Canon s.mem) : CanonOut (execAdoptRes e s) :=
  wf_exdCmd _ (fun _ => wf_setRes _ _) hm
theorem wf_execAdoptRest (e : ExpertId) {s : State} (hm : Canon s.mem) : CanonOut (execAdoptRest e s) :=
  wf_exdCmd _ (fun _ => wf_setRes _ _) hm
theorem wf_execDrop (e : ExpertId) {s : State} (hm : Canon s.mem) : CanonOut (execDrop e s) :=
  wf_exdCmd _ (fun u hu => wf_setRes _ _ (by simp only [mem_setDirVa, mem_modExd, hu])) hm
theorem wf_execRetry (e : ExpertId) {s : State} (hm : Canon s.mem) : CanonOut (execRetry e s) :=
  wf_exdCmd _ (fun _ => wf_requestFetch _ _) hm
theorem wf_execExdCommitComplete {s : State} (hm : Canon s.mem) : CanonOut (execExdCommitComplete s) := by
  simp only [execExdCommitComplete]
  refine (canonOut_next _).2 ?_
  split
  · rw [mem_rset, mem_rwrap]
    exact mwf_msets _ _ _ (mwf_mclear _ _ _ _ hm)
  · exact hm
theorem wf_startCopy (l : List (Bool × Nat)) (drop : Bool × Nat → Exd → Exd) {s u : State}
    (hu : startCopy l drop s = some u)
    (hm : Canon s.mem) : Canon u.mem := by
  simp only [startCopy] at hu
  split at hu
  · cases hu
    simp only [mem_modExd, hm]
  · split at hu
    · cases hu
      split
      · exact wf_passSlot _ _ hm
      · exact wf_setRes _ _ hm
    · cases hu
theorem wf_execDirectoryTransferStart {s : State} (hm : Canon s.mem) : CanonOut (execDirectoryTransferStart s) := by
  refine (canonOut_next _).2 ?_
  split
  · exact hm
  · have h1 : Canon ((needSlot s (s.exd.demands ++ s.exd.prefs)).foldl (fun s e => assignSlot e s) s).mem :=
      by simp only [mem_assignSlot, implies_true, mem_foldl, hm]
    dsimp only
    split
    next hu => exact wf_startCopy _ _ hu h1
    · generalize hu : startCopy _ _ _ = o
      cases o with
      | none => exact h1
      | some u => exact wf_startCopy _ _ hu h1
theorem wf_execFetchComplete (bad : Bool) {s : State} (hm : Canon s.mem) : CanonOut (execFetchComplete bad s) := by
  simp only [execFetchComplete]
  repeat' split
  all_goals simp only [canonOut_next, hm, mem_rinc, mem_modExd, wf_copyRange, wf_fetchFault, mem_setDirVa, wf_setRes]
theorem wf_execEvictionComplete (bad : Bool) {s : State} (hm : Canon s.mem) : CanonOut (execEvictionComplete bad s) := by
  simp only [execEvictionComplete]
  repeat' split
  all_goals simp only [canonOut_next, hm, mem_modExd, wf_copyRange, wf_writeBackFault, mem_rinc, wf_becomeResting]
theorem wf_copyTimeout {s : State} (hm : Canon s.mem) : Canon (copyTimeout s).mem := by
  simp only [copyTimeout]
  split <;> simp only [mem_ite, canon_ite, mem_rinc, mem_modExd, hm, wf_writeBackFault, wf_fetchFault, ite_self]
theorem wf_execMoraineTimeout (lines : List Nat) {s : State} (hm : Canon s.mem) :
    CanonOut (execMoraineTimeout lines s) := by
  simp only [execMoraineTimeout, canonOut_next, mem_ite, canon_ite, hm, wf_copyTimeout, ite_self]

/-! ### Scalar -/

theorem wf_xStoreI (t rs1 rs2 imm size) {s : State} (hm : Canon s.mem) : CanonOut (xStoreI t rs1 rs2 imm size s) :=
  wf_xRun _ (fun _ => wf_xStore _ _) hm
theorem wf_xAtom (t rd rs1 rs2 wide) {s : State} (hm : Canon s.mem) : CanonOut (xAtom t rd rs1 rs2 wide s) :=
  wf_xRun _ (fun _ => wf_xAtomic _ _ _ _ _) hm
theorem wf_xCsrW (t rd rs1 imm n) {s : State} (hm : Canon s.mem) : CanonOut (xCsrW t rd rs1 imm n s) := by
  refine wf_xRun _ (fun u hu => ?_) hm
  dsimp only
  repeat' split
  · simp only [xStall_state, hu]
  · rw [xRetire_state, mem_spoilSems]
    exact wf_tileCsrWrite _ _ _ _ hu
  · simp only [xFault_state, hu]
theorem wf_execXDst (t da rs imm) {s : State} (hm : Canon s.mem) : CanonOut (execXDst t da rs imm s) :=
  wf_xRun8 _ (fun _ => wf_xStore _ _) hm

/-! ### Stream -/

theorem wf_execFSt (t ga gb imm) {s : State} (hm : Canon s.mem) : CanonOut (execFSt t ga gb imm s) := by
  refine wf_fRun _ (fun u hu => ?_) hm
  have h1 : ∀ a, Canon (translate t a false true u).2.mem := fun a => by rwa [mem_translate]
  dsimp only
  with_reducible split
  next hx => simp only [fFault_state, mem_xlatFault, canon_of_pair hx (h1 _)]
  next hx => split <;> simp only [fstate_ite, fRetire_state, fFault_state, ite_self, canon_of_pair hx (h1 _),
      wf_localWrite, fPend_state, mem_modF, mem_sendTxn, mem_rinc, mem_xlatFault]
theorem wf_ringWrite (t : TileId) (cells : List (Nat × Byte)) {s : State} (hm : Canon s.mem) :
    Canon (ringWrite t cells s).2.mem := by
  simp only [ringWrite, hm, wf_memWrite]
theorem wf_ringLand (t : TileId) (cells : List (Nat × Byte)) {s : State} (hm : Canon s.mem) :
    Canon (ringLand t cells s).2.mem := by
  simp only [ringLand, hm, wf_ringWrite]
theorem wf_postHead (t : TileId) (sl : SlotIdx) {s : State} (hm : Canon s.mem) : Canon (postHead t sl s).mem := by
  simp only [postHead]
  split <;> simp only [mem_ite, mem_setSlotState, mem_rwrap, mem_endPosts, ite_self, canon_ite, mem_modSlot, hm,
      wf_wrCells]
theorem wf_postHeads (n : Nat) (t : TileId) (sl : SlotIdx) {s : State} (hm : Canon s.mem) :
    Canon (postHeads n t sl s).mem := by
  induction n generalizing s with
  | zero => exact hm
  | succ n ih => exact ih (wf_postHead _ _ hm)
theorem wf_landBuf (t : TileId) (sl : SlotIdx) (b : Nat) {s : State} (hm : Canon s.mem) :
    Canon (landBuf t sl b s).mem := by
  simp only [landBuf]
  split <;> simp only [mem_ite, canon_ite, mem_progress, mem_rwrap, mem_modSlot, ite_self, hm, wf_postHeads]
theorem wf_unitDone (t : TileId) (sl : SlotIdx) {s : State} (hm : Canon s.mem) : Canon (unitDone t sl s).mem := by
  simp only [unitDone, mem_ite, mem_modSlot, mem_semPost, ite_self, canon_ite, hm, mem_setSlotState, wf_landBuf]
theorem wf_slotUnit (t : TileId) (sl : SlotIdx) (x : Nat) (isNull : Bool) {s : State} (hm : Canon s.mem) :
    Canon (slotUnit t sl x isNull s).mem := by
  simp only [slotUnit]
  split
  · split
    · exact wf_unitDone _ _ (by simp only [mem_modSlot, hm, wf_ringLand])
    · exact wf_pastHeld _ _ (fun _ => wf_unitDone _ _) (by simp only [mem_bufFault, hm, wf_ringLand])
  · repeat' split
    · exact hm
    · simp only [mem_issueLine, mem_ringRead, hm]
    · rw [mem_bufFault]
      exact wf_undefineVas _ _ _ (by simp only [mem_ringRead, hm])
    · simp only [mem_issueLine, hm]
theorem wf_slotStep (t : TileId) (sl : SlotIdx) {s : State} (hm : Canon s.mem) : Canon (slotStep t sl s).mem := by
  simp only [slotStep]
  repeat' split
  case isFalse.isFalse.isFalse.isFalse.isFalse.isTrue.isFalse.isFalse =>
    exact wf_pastHeld _ _ (fun _ => wf_unitDone _ _) (by simp only [mem_bufFault, mem_ringRead, hm])
  all_goals simp only [hm, mem_setSlotState, mem_slotAcquire, mem_modSlot, mem_ringRead, wf_slotUnit]
theorem wf_execStreamTransferIssue (t : TileId) (sl : SlotIdx) {s : State} (hm : Canon s.mem) :
    CanonOut (execStreamTransferIssue t sl s) := by
  simp only [execStreamTransferIssue, canonOut_next, mem_fWake, hm, wf_slotStep]
theorem wf_xferLand (t : TileId) (x : Xfer) (st : Status) (data : List Byte) {s : State} (hm : Canon s.mem) :
    Canon (xferLand t x st data s).mem := by
  simp only [xferLand, mem_ite, mem_rinc, ite_self, mem_bufFault, mem_modSlot, canon_ite, hm, wf_ringLand, wf_landBuf,
      wf_freeBytes]
theorem wf_xferServe (bad : Bool) (x : Xfer) {s : State} (hm : Canon s.mem) : Canon (xferServe bad x s).2.2.mem := by
  simp only [xferServe, snd_ite, mem_ite, localRead_mem, canon_ite, hm, mem_payload, wf_localWrite, ite_self]
theorem wf_execTransferReply (t : TileId) (id : Nat) (bad : Bool) {s : State} (hm : Canon s.mem) :
    CanonOut (execTransferReply t id bad s) := by
  simp only [execTransferReply]
  repeat' split
  all_goals simp only [canonOut_next, mem_fWake, mem_dropXfer, hm, wf_xferLand, wf_xferServe, mem_rinc, mem_modTile]
theorem wf_slotCommit (t : TileId) (sl : SlotIdx) (n : Nat) {s : State} (hm : Canon s.mem) :
    Canon (slotCommit t sl n s).mem := by
  simp only [slotCommit, mem_ite, canon_ite, hm, mem_heldFaults, mem_setSlotState, mem_rput, ite_self, wf_postHeads]
theorem wf_execXScommit (t rs imm sl) {s : State} (hm : Canon s.mem) : CanonOut (execXScommit t rs imm sl s) := by
  refine wf_xRun _ (fun u hu => ?_) hm
  simp only [xRetire_state, mem_fWake, wf_slotCommit _ _ _ hu]

/-! ### Launch -/

theorem wf_execLaunchComplete (q seq energy kcc dests) {s : State} (hm : Canon s.mem) :
    CanonOut (execLaunchComplete q seq energy kcc dests s) := by
  refine (canonOut_next _).2 ?_
  split
  next c _ =>
    split
    · split
      · dsimp only
        have h1 : Canon (c.tiles.foldl (fun s t => closeTile q seq (cF c 0x32 1 == 2) (BitVec.ofNat 11 t) s) s).mem :=
            by simp only [mem_closeTile, implies_true, mem_foldl, hm]
        rw [mem_completeCmd]
        split <;> split
        · exact wf_freeBytes _ (by rwa [mem_cancelAcqs])
        · exact h1
        · exact wf_freeBytes _ (by rwa [mem_cancelAcqs])
        · exact h1
      · exact hm
    · exact hm
  · exact hm
theorem wf_drainNow (t : TileId) {s : State} (hm : Canon s.mem) : Canon (drainNow t s).mem := by
  simp only [drainNow, mem_modX, mem_abandonTile, hm, wf_freeBytes]
theorem wf_resetTile (t : TileId) {s : State} (hm : Canon s.mem) : Canon (resetTile t s).mem := by
  simp only [resetTile, mem_rput, mem_rclear]
  exact mwf_mclear _ _ _ _ hm
theorem wf_execTileResetDone (t : TileId) {s : State} (hm : Canon s.mem) : CanonOut (execTileResetDone t s) := by
  simp only [execTileResetDone, canonOut_next, mem_ite, mem_rset, canon_ite, hm, wf_resetTile, ite_self]
theorem wf_undefineRange (space : Nat) (a : Nat) (n : Nat) {s : State} (hm : Canon s.mem) :
    Canon (undefineRange space a n s).mem := by
  simp only [undefineRange, mem_ite, canon_ite, hm, wf_freeBytes, ite_self]
theorem wf_execCopy (q seq host) {s : State} (hm : Canon s.mem) : CanonOut (execCopy q seq host s) := by
  refine wf_runCmd _ _ _ (fun c u hu => ?_) hm
  dsimp only
  with_reducible split
  · simp only [mem_endWith, hu]
  · split
    · simp only [mem_endWith, hu, wf_undefineRange]
    · simp only [mem_endWith, hu, wf_undefineRange]
    · simp only [mem_endWith, hu, wf_undefineRange]
    · repeat' split
      all_goals simp only [mem_endWith, mem_cpRead, hu, wf_undefineRange, mem_endCmd, mem_hostWr, wf_memWrite]
theorem wf_execFetch (q seq) {s : State} (hm : Canon s.mem) : CanonOut (execFetch q seq s) :=
  wf_prefetch _ _ _ (fun _ _ => wf_requestFetch _ _) hm
theorem wf_execEvict (q seq) {s : State} (hm : Canon s.mem) : CanonOut (execEvict q seq s) :=
  wf_prefetch _ _ _ (fun _ _ => wf_requestEvict _) hm

/-! ### Collective -/

theorem wf_putResult (g : Seg) (env : EngEnv) (out : List (Option Nat)) {s : State} (hm : Canon s.mem) :
    Canon (putResult g env out s).2.mem := by
  simp only [putResult]
  repeat' split
  all_goals simp only [mem_spoilChannel, hm, wf_localWrite, mem_pickWrites, wf_engWriteX]
theorem wf_undefineSeg (g : Seg) (n : Nat) {s : State} (hm : Canon s.mem) : Canon (undefineSeg g n s).mem := by
  simp only [undefineSeg]
  split <;> simp only [hm, wf_freeBytes, mem_ite, canon_ite, wf_undefineVas, ite_self]
theorem wf_execSegmentComplete (g seq peers fails memErr env) {s : State} (hm : Canon s.mem) :
    CanonOut (execSegmentComplete g seq peers fails memErr env s) := by
  have h1 : ∀ k, Canon (ownPart k env s).2.mem := fun k => by rwa [mem_ownPart]
  refine (canonOut_next _).2 ?_
  split
  next k _ =>
    dsimp only
    generalize (if k.null = true ∧ k.elems = 0 then _ else k.elems) = n
    split
    · simp only [mem_pumpSegs, mem_segFail, hm]
    with_reducible split
    next hx => simp only [mem_pumpSegs, mem_segFail, canon_of_pair hx (h1 _), wf_undefineSeg]
    next v hx =>
      have h2 := canon_of_pair hx (h1 _)
      split
      · simp only [mem_pumpSegs, mem_segFail, mem_ite, mem_rinc, ite_self, h2, wf_undefineSeg]
      split
      · simp only [mem_pumpSegs, mem_segFail, mem_alert, mem_rinc, mem_ite, ite_self, h2, wf_undefineSeg]
      have h3 : ∀ l, Canon (sendRing k n l (if fails = 1 then
          rinc (R.CLE_RESIDUE (gEngine g.toNat)) F.CLE_RESIDUE_CORR 1 v else v)).mem :=
              fun l => by simp only [mem_sendRing, mem_ite, mem_rinc, ite_self, h2]
      with_reducible split
      next hy =>
        have h4 := canon_of_pair hy (wf_putResult _ _ _ (h3 _))
        simp only [mem_pumpSegs, mem_segFail, h4, wf_undefineSeg]
      next hy =>
        have h4 := canon_of_pair hy (wf_putResult _ _ _ (h3 _))
        simp only [mem_pumpSegs, mem_segDone, h4]
  · exact hm

/-! ### Region -/

theorem wf_rgnRelease (q : RgnReq) {s : State} (hm : Canon s.mem) : Canon (rgnRelease q s).mem := by
  simp only [rgnRelease, mem_ite, mem_rinc, mem_dropReq, canon_ite, hm, mem_rgnSettle, mem_setRgnCount,
      wf_retryEvicts, ite_self]
theorem wf_execRegionRelease (t : TileId) (r : RegionId) {s : State} (hm : Canon s.mem) :
    CanonOut (execRegionRelease t r s) := by
  simp only [execRegionRelease]
  split <;> simp only [canonOut_next, mem_ite, mem_rinc, mem_dropReq, canon_ite, hm, wf_rgnRelease, ite_self]
theorem wf_rgnvWrite (r : Nat) (k : Nat) (v : Nat) {s : State} (hm : Canon s.mem) : Canon (rgnvWrite r k v s).mem := by
  simp only [rgnvWrite, mem_ite, mem_rput, ite_self, mem_rset, canon_ite, hm, mem_rgnSettle, mem_setRgnCount,
      wf_retryEvicts]
theorem wf_execRgnvWrite (r k v) {s : State} (hm : Canon s.mem) : CanonOut (execRgnvWrite r k v s) :=
  (canonOut_next _).2 (wf_hostWrite _ _ (fun _ => wf_rgnvWrite _ _ _) hm)

/-! ### Cube -/

theorem wf_ceWriteBy (h : CeShape) (env : EngEnv) (cells : List (TileId × Nat × Byte)) (l : List TileId) {s : State}
    (hm : Canon s.mem) : Canon (ceWriteBy h env cells l s).2.mem := by
  induction l generalizing s with
  | nil => exact hm
  | cons u l ih =>
    simp only [ceWriteBy]
    with_reducible split
    next hx => exact canon_of_pair hx (wf_engWriteX _ _ _ _ _ hm)
    next hx => exact ih (canon_of_pair hx (wf_engWriteX _ _ _ _ _ hm))
theorem wf_ceWrite (h : CeShape) (env : EngEnv) (c : TDesc) (cells : List (TileId × Nat × Byte)) {s : State}
    (hm : Canon s.mem) : Canon (ceWrite h env c cells s).2.mem := by
  simp only [ceWrite, mem_pickWrites, hm, wf_ceWriteBy]
theorem wf_undefineC (h : CeShape) (dest : List (TileId × Nat)) {s : State} (hm : Canon s.mem) :
    Canon (undefineC h dest s).mem :=
  wf_foldl _ _ (fun _ _ => wf_undefineVas _ _ _) hm
theorem wf_ceFail (h : CeShape) (c : TDesc) (read : Bool) (e : Status × Nat) {s : State} (hm : Canon s.mem) :
    Canon (ceFail h c read e s).2.mem := by
  simp only [ceFail, hm, wf_undefineC]
theorem wf_ceFinish (t env n h aw bw cw imm sp cells) {s : State} (hm : Canon s.mem) :
    Canon (ceFinish t env n h aw bw cw imm sp cells s).2.mem := by
  simp only [ceFinish]
  split
  · simp only [mem_openSteps, hm, wf_ceFail]
  · split
    · simp only [mem_openSteps, mem_ceBlocks, mem_ceResidue, hm, wf_ceFail]
    · with_reducible split
      next hx =>
        have h1 := canon_of_pair hx (wf_ceWrite _ _ _ _ (by simp only [mem_ceBlocks, mem_ceResidue, hm]))
        exact wf_ceFail _ _ _ _ (by rwa [mem_openSteps])
      next hx =>
        have h1 := canon_of_pair hx (wf_ceWrite _ _ _ _ (by simp only [mem_ceBlocks, mem_ceResidue, hm]))
        exact wf_undefineC _ _ (by rwa [mem_addSteps])
theorem wf_ceReadFail (t : TileId) (h : CeShape) (aw : DWord) (bw : DWord) (cw : DWord) (imm : EngImm)
    (e : Status × Nat) {s : State} (hm : Canon s.mem) : Canon (ceReadFail t h aw bw cw imm e s).2.mem := by
  simp only [ceReadFail, mem_openSteps, hm, wf_ceFail]
theorem wf_ceMm (t env n aw bw cw imm) {s : State} (hm : Canon s.mem) : Canon (ceMm t env n aw bw cw imm s).2.mem := by
  have h1 : Canon (ceProduct t env aw bw cw imm s).2.mem := by rwa [mem_ceProduct]
  simp only [ceMm]
  with_reducible split
  next hx => exact wf_ceReadFail _ _ _ _ _ _ _ (canon_of_pair hx h1)
  next hx => exact wf_ceFinish _ _ _ _ _ _ _ _ _ _ (canon_of_pair hx h1)
theorem wf_gtBase (t env d e dirb isFirst own) {s : State} (hm : Canon s.mem) :
    Canon (gtBase t env d e dirb isFirst own s).2.mem := by
  have h1 : ∀ a, Canon (engWord t unitCe env 8 a s).2.mem := fun a => by rwa [mem_engWord]
  simp only [gtBase]
  split
  · exact hm
  · with_reducible split
    next hx => exact canon_of_pair hx (h1 _)
    next hx =>
      have h2 := canon_of_pair hx (h1 _)
      repeat' split
      all_goals simp only [mem_endRef, h2, mem_rinc, wf_requestFetch]
theorem wf_gtEntry (t env e ta tb tc n i isFirst) {s : State} (hm : Canon s.mem) :
    Canon (gtEntry t env e ta tb tc n i isFirst s).2.mem := by
  have h1 : ∀ l, Canon (engRead t unitCe env l s).2.mem := fun l => by rwa [mem_engRead]
  simp only [gtEntry]
  with_reducible split
  next hx => exact canon_of_pair hx (h1 _)
  next hx =>
    have h2 := canon_of_pair hx (h1 _)
    split
    · exact h2
    split
    · exact h2
    with_reducible split
    next hx => exact canon_of_pair hx (wf_gtBase _ _ _ _ _ _ _ h2)
    next hx =>
      have h3 := canon_of_pair hx (wf_gtBase _ _ _ _ _ _ _ h2)
      split
      · exact h3
      split
      · exact wf_ceMm _ _ _ _ _ _ _ h3
      · have h4 := wf_ceMm t env
        split
        · exact wf_undefineC _ _ (h4 _ _ _ _ _ h3)
        · exact h4 _ _ _ _ _ h3
theorem wf_gtWalk (t env e ta tb tc isFirst l n) {s : State} (hm : Canon s.mem) :
    Canon (gtWalk t env e ta tb tc isFirst l n s).2.mem := by
  induction l generalizing n s with
  | nil => exact hm
  | cons i l ih =>
    simp only [gtWalk]
    with_reducible split
    next hx => exact canon_of_pair hx (wf_gtEntry _ _ _ _ _ _ _ _ _ hm)
    next hx => exact ih _ (canon_of_pair hx (wf_gtEntry _ _ _ _ _ _ _ _ _ hm))
    next hx => exact ih _ (canon_of_pair hx (wf_gtEntry _ _ _ _ _ _ _ _ _ hm))
theorem wf_gtOverlap (t : TileId) (cs : List DWord) {s : State} (hm : Canon s.mem) : Canon (gtOverlap t cs s).mem := by
  simp only [gtOverlap, mem_ite, canon_ite, hm, wf_undefineC, ite_self]
theorem wf_gtEnd (t : TileId) (e : EngCmd) (r : GtRun × State) (hm : Canon r.2.mem) : Canon (gtEnd t e r).mem := by
  simp only [gtEnd]
  split <;> simp only [mem_ceDone, mem_ite, mem_cePostIn, ite_self, hm, mem_ceHead, canon_ite, wf_gtOverlap]
theorem wf_ceBody (t : TileId) (env : EngEnv) (e : EngCmd) {s : State} (hm : Canon s.mem) :
    Canon (ceBody t env e s).mem := by
  simp only [ceBody]
  repeat' split
  all_goals simp only [hm, wf_gtWalk, wf_gtEnd, mem_ceDone, mem_cePostIn, wf_ceFinish]
theorem wf_ceOut (t : TileId) (env : EngEnv) (e : EngCmd) {s : State} (hm : Canon s.mem) :
    Canon (ceOut t env e s).mem := by
  simp only [ceOut, mem_ite, mem_ceHead, mem_acquire, canon_ite, hm, wf_ceBody, ite_self]
theorem wf_ceFromIn (t env e) {s : State} (hm : Canon s.mem) : Canon (ceFromIn t env e s).mem := by
  have h1 : Canon (ceProduct t env e.da e.db e.dc e.imm s).2.mem := by rwa [mem_ceProduct]
  unfold ceFromIn
  split
  · exact wf_ceOut _ _ _ hm
  · dsimp only
    with_reducible split
    next hx => rw [mem_ceDone]; exact wf_ceReadFail _ _ _ _ _ _ _ (canon_of_pair hx h1)
    next hx => exact wf_ceOut _ _ _ (by rw [mem_ceHead, mem_cePostIn]; exact canon_of_pair hx h1)
theorem wf_execCeExecute (t env) {s : State} (hm : Canon s.mem) : CanonOut (execCeExecute t env s) := by
  refine (canonOut_next _).2 ?_
  split
  · exact hm
  split
  · with_reducible split
    next hx => rwa [mem_ceDone, mem_of_triple hx (mem_ceAccept ..)]
    next hx =>
      have h1 := canon_of_triple hx (by rwa [mem_ceAccept])
      split
      · dsimp only
        split
        · exact wf_ceFromIn _ _ _ (by simp only [mem_acquire, h1])
        · simp only [mem_ceHead, mem_acquire, h1]
      · exact wf_ceFromIn _ _ _ h1
  · exact wf_ceFromIn _ _ _ hm
  · exact wf_ceBody _ _ _ hm
  · exact hm
theorem wf_execCeInstructionComplete (t : TileId) {s : State} (hm : Canon s.mem) :
    CanonOut (execCeInstructionComplete t s) := by
  simp only [execCeInstructionComplete]
  repeat' split
  all_goals simp only [canonOut_next, hm, mem_semPost, mem_progress, mem_modTile, wf_undefineC, mem_pushFault]
theorem wf_execGroupedResidencyPoll (t : TileId) (env : EngEnv) {s : State} (hm : Canon s.mem) :
    CanonOut (execGroupedResidencyPoll t env s) := by
  simp only [execGroupedResidencyPoll]
  repeat' split
  all_goals simp only [canonOut_next, hm, wf_gtWalk, wf_gtEnd]

/-! ### Gme -/

theorem wf_gmeAccRow (t env b c last x r) {s : State} (hm : Canon s.mem) :
    Canon (gmeAccRow t env b c last x r s).2.mem := by
  simp only [gmeAccRow]
  split
  · simp only [mem_xlatFault, hm]
  · refine wf_emBind (fun p u hu => wf_emBind (fun old v hv => ?_) (by simp only [mem_readStep, mem_readRow, hu]))
      (by simp only [mem_readStep, mem_readRowNo, hm])
    rw [mem_writeStep]
    exact wf_engWrite _ _ _ _ (by simp only [mem_pickWrites, hv])
theorem wf_gmeAccRows (t env b c l) {s : State} (hm : Canon s.mem) : Canon (gmeAccRows t env b c l s).2.mem := by
  induction l generalizing s with
  | nil => exact hm
  | cons e l ih => exact wf_emBind (fun _ _ hu => ih hu) (wf_gmeAccRow _ _ _ _ _ _ _ hm)
theorem wf_gmeFail (t : TileId) (dest : List Nat) (x : Status × Nat) {s : State} (hm : Canon s.mem) :
    Canon (gmeFail t dest x s).2.mem := by
  simp only [gmeFail, hm, wf_undefineVas]
theorem wf_gmeForm (t env e) {s : State} (hm : Canon s.mem) : Canon (gmeForm t env e s).2.mem := by
  have h1 : Canon (gmeIndices t env e s).2.mem := by rwa [mem_gmeIndices]
  simp only [gmeForm]
  with_reducible split
  next x _ hx => exact wf_gmeFail _ _ x (canon_of_pair hx h1)
  next hx =>
    have h2 := canon_of_pair hx h1
    with_reducible split
    next x _ hy => exact wf_gmeFail _ _ x (by rwa [mem_of_pair hy (mem_gmeWork ..)])
    next hy => rwa [mem_of_pair hy (mem_gmeWork ..)]
theorem wf_gmeFinish (t env e k) {s : State} (hm : Canon s.mem) : Canon (gmeFinish t env e k s).2.mem := by
  simp only [gmeFinish]
  split
  · exact wf_gmeFail _ _ _ (by simp only [mem_gmeResidue, hm])
  · with_reducible split
    next hx => exact wf_gmeFail _ _ _ (canon_of_pair hx
        (wf_engWrite _ _ _ _ (by simp only [mem_pickWrites, mem_gmeResidue, hm])))
    next hx =>
      have h1 := canon_of_pair hx (wf_engWrite _ _ _ _ (by simp only [mem_pickWrites, mem_gmeResidue, hm]))
      split
      · exact h1
      · exact wf_undefineVas _ _ _ h1
theorem wf_gmeAccRun (t env e) {s : State} (hm : Canon s.mem) : Canon (gmeAccRun t env e s).2.2.2.mem := by
  have h1 : Canon (gmeIndices t env e s).2.mem := by rwa [mem_gmeIndices]
  simp only [gmeAccRun]
  with_reducible split
  next x _ hx => exact wf_gmeFail _ _ x (canon_of_pair hx h1)
  next hx =>
    have h2 := canon_of_pair hx h1
    split
    · exact wf_gmeFail _ _ (.faultResidue, 0) (by simp only [mem_gmeResidue, h2])
    · with_reducible split
      next x _ hy =>
        have h3 := canon_of_pair hy (wf_gmeAccRows _ _ _ _ _ (by simp only [mem_gmeResidue, h2]))
        exact wf_gmeFail _ _ x.at_ h3
      next hy =>
        have h3 := canon_of_pair hy (wf_gmeAccRows _ _ _ _ _ (by simp only [mem_gmeResidue, h2]))
        split
        · exact h3
        · exact wf_undefineVas _ _ _ h3

/-! ### Rank -/

theorem wf_rankEnd (t : TileId) (dest : List Nat) (r : Except (Status × Nat) GmeOut × State)
    (hm : Canon r.2.mem) : Canon (rankEnd t dest r).2.mem := by
  simp only [rankEnd]
  split <;> simp only [hm, wf_undefineVas]
theorem wf_rankForm (t env e) {s : State} (hm : Canon s.mem) : Canon (rankForm t env e s).2.mem := by
  have h1 : Canon (cutHosted t env e.da s).2.mem := by rwa [mem_cutHosted]
  simp only [rankForm]
  split
  case h_3 =>
    with_reducible split
    next hx => exact wf_rankEnd _ _ _ (canon_of_pair hx h1)
    next hx => exact wf_rankEnd _ _ _ (by rw [mem_rankCut]; exact canon_of_pair hx h1)
  all_goals exact wf_rankEnd _ _ _ (by simp only [mem_rankTopk, hm, mem_rankBucket, mem_rankPlace, mem_rankJoin])

/-! ### Ablation -/

theorem wf_ablWrite (st : Nat) (a : Nat) (l : List Byte) {s : State} (hm : Canon s.mem) :
    Canon (ablWrite st a l s).2.mem := by
  simp only [ablWrite, snd_ite, mem_ite, mem_rinc, ite_self, hm, wf_memWrite]
theorem wf_writeKb (st : Nat) (r : Nat) (la : Nat) (b : Nat) (q : Nat × List Byte) {s : State}
    (hm : Canon s.mem) : Canon (writeKb st r la b q s).2.mem := by
  simp only [writeKb, snd_ite, mem_ite, canon_ite, hm, wf_ablWrite, ite_self]
theorem wf_writeImg (st : Nat) (r : Nat) (copy : Nat) (b : Nat) (vals : List FV) {s : State} (hm : Canon s.mem) :
    Canon (writeImg st r copy b vals s).2.mem := by
  simp only [writeImg]
  split <;> simp only [hm, wf_ablWrite, snd_ite, mem_ite, canon_ite, ite_self]
theorem wf_imageBlock (c b) {s : State} (hm : Canon s.mem) : Canon (imageBlock c b s).2.mem :=
  wf_emElim (fun _ _ hu => hu) (fun _ _ => wf_writeImg _ _ _ _ _) (by rwa [mem_readKb])
theorem wf_ruleWrite (c : DWord) (k : AblConst) (b : Nat) (x : List FV × List FV × List FV × List Nat) {s : State}
    (hm : Canon s.mem) : Canon (ruleWrite c k b x s).2.mem := by
  simp only [ruleWrite, snd_ite, mem_ite, canon_ite, hm, wf_writeKb, ite_self, wf_writeImg]
theorem wf_ruleBlock (c k b) {grad : Nat → State → Except Status (List Nat) × State} {s : State}
    (hg : ∀ a u, (grad a u).2.mem = u.mem) (hm : Canon s.mem) : Canon (ruleBlock c k grad b s).2.mem :=
  wf_emElim (fun _ _ hu => hu) (fun _ _ => wf_ruleWrite _ _ _ _) (by rwa [mem_ruleRead _ _ _ _ hg])
theorem wf_undefineRegion (r : Nat) {s : State} (hm : Canon s.mem) : Canon (undefineRegion r s).mem := by
  simp only [undefineRegion, hm, wf_freeBytes]
theorem wf_undefineShared (c : DWord) {s : State} (hm : Canon s.mem) : Canon (undefineShared c s).mem := by
  simp only [undefineShared, snd_ite, mem_ite, canon_ite, hm, wf_freeBytes, ite_self]
theorem wf_ablEnd (st : Nat) (j : AblJob) (code : Status) (b : Nat) {s : State} (hm : Canon s.mem) :
    Canon (ablEnd st j code b s).mem := by
  simp only [ablEnd, mem_ite, mem_setCur, canon_ite, hm, wf_undefineRegion, ite_self]
theorem wf_ablBlocks (st residue) {f : Nat → State → Status × State} (l) {s : State}
    (hf : ∀ a u, Canon u.mem → Canon (f a u).2.mem)
    (hm : Canon s.mem) : Canon (ablBlocks st residue f l s).2.mem := by
  induction l generalizing s with
  | nil => exact hm
  | cons b l ih =>
    have h1 : ∀ u, Canon u.mem → Canon (if (f b u).1 = .ok then ablBlocks st residue f l (f b u).2
        else (((f b u).1, b), (f b u).2)).2.mem := fun u hu => by
      split
      · exact ih (hf _ _ hu)
      · exact hf _ _ hu
    rw [ablBlocks]
    split
    · simp only [mem_alert, mem_rinc, hm]
    · exact h1 _ (by simp only [mem_ite, mem_rinc, ite_self, hm])
theorem wf_ablRun (st j residue k) {f : Nat → State → Status × State} {s : State}
    (hf : ∀ a u, Canon u.mem → Canon (f a u).2.mem)
    (hm : Canon s.mem) : Canon (ablRun st j residue k f s).mem := by
  have h1 : ∀ l, Canon (ablBlocks st residue f l s).2.mem := fun l => wf_ablBlocks st residue l hf hm
  simp only [ablRun]
  repeat' split
  all_goals simp only [hm, wf_undefineRegion, wf_ablEnd, h1, wf_undefineShared]
theorem wf_doEmpty (st j residue) {s : State} (hm : Canon s.mem) : Canon (doEmpty st j residue s).mem := by
  simp only [doEmpty]
  repeat' split
  · exact wf_ablRun _ _ _ _ (fun _ _ => wf_imageBlock _ _) (by simp only [mem_rinc, mem_stepCheck, hm])
  · simp only [mem_rinc, mem_stepCheck, hm, wf_ablEnd]
  · exact wf_ablRun _ _ _ _ (fun _ _ => wf_ruleBlock _ _ _ (mem_gradInbox _)) (by simp only [mem_stepCheck, hm])
theorem wf_doApply (st j residue) {s : State} (hm : Canon s.mem) : Canon (doApply st j residue s).mem := by
  have h1 : ∀ (c : Bool) k u, Canon u.mem → Canon (if c then spoilNext st k u else u).mem :=
      fun c k u hu => by simp only [mem_ite, mem_spoilNext, ite_self, hu]
  have h2 : ∀ (c : Bool) l, Canon (if c then { s with inboxOdd := l } else s).mem :=
      fun c l => by simp only [mem_ite, ite_self, hm]
  simp only [doApply]
  split
  · exact wf_doEmpty _ _ _ (h1 _ _ _ (h2 _ _))
  · refine wf_ablRun _ _ _ _ (fun _ _ => wf_ruleBlock _ _ _ ?_) (by rw [mem_stepCheck]; exact h1 _ _ _ (h2 _ _))
    split
    · exact fun _ _ => rfl
    split
    · exact mem_gradInbox _
    · exact mem_gradHbm _
theorem wf_execApply (st : StackId) (residue : List (Nat × Nat)) {s : State} (hm : Canon s.mem) :
    CanonOut (execApply st residue s) := by
  simp only [execApply]
  split <;> simp only [canonOut_next, mem_ite, mem_setCur, mem_setJobs, mem_takeBuffers, canon_ite, hm,
      mem_checkEnded, wf_ablEnd, wf_doApply, ite_self]
theorem wf_execEmpty (st : StackId) (residue : List (Nat × Nat)) {s : State} (hm : Canon s.mem) :
    CanonOut (execEmpty st residue s) := by
  simp only [execEmpty]
  split <;> simp only [canonOut_next, mem_ite, canon_ite, hm, wf_doEmpty, ite_self]
theorem wf_execReimage (st residue) {s : State} (hm : Canon s.mem) : CanonOut (execReimage st residue s) := by
  refine (canonOut_next _).2 ?_
  repeat' split
  · exact wf_ablRun _ _ _ _ (fun _ _ => wf_imageBlock _ _) hm
  · exact hm
  · exact hm
theorem wf_execAblationCommandTimeout (st : StackId) {s : State} (hm : Canon s.mem) :
    CanonOut (execAblationCommandTimeout st s) := by
  simp only [execAblationCommandTimeout]
  split <;> simp only [canonOut_next, mem_ite, canon_ite, hm, mem_checkEnded, mem_rinc, wf_ablEnd, ite_self]
theorem wf_descWritten (r : Nat) {s : State} (hm : Canon s.mem) : Canon (descWritten r s).mem := by
  simp only [descWritten, mem_ite, mem_setJobs, canon_ite, hm, wf_undefineRegion, ite_self]

/-! ### Recovery -/

theorem wf_pair {s : State} (hm : Canon s.mem) : Canon (pair s).mem := by
  simp only [pair, mem_ite, mem_rput, mem_setMirState, canon_ite, hm, wf_localWrite, ite_self]
theorem wf_execPair {s : State} (hm : Canon s.mem) : CanonOut (execPair s) :=
  (canonOut_next _).2 (wf_hostWrite _ _ (fun _ => wf_pair) hm)
theorem wf_execFillReadReply (id : Nat) {s : State} (hm : Canon s.mem) : CanonOut (execFillReadReply id s) := by
  simp only [execFillReadReply]
  repeat' split
  all_goals simp only [canonOut_next, mem_fillFail, hm, mem_dropTxn, wf_localWrite, mem_rinc, mem_fillPump]

/-! ### Firn -/

theorem wf_writeRec (q : QIdx) (step : Nat) (l : List Byte) {s : State} (hm : Canon s.mem) :
    Canon (writeRec q step l s).2.mem := by
  simp only [writeRec, hm, wf_localWrite]
theorem wf_beginRecord (q : QIdx) (c : Cmd) (seeds : List Byte) {s : State} (hm : Canon s.mem) :
    Canon (beginRecord q c seeds s).mem := by
  simp only [beginRecord, mem_ite, mem_endWith, mem_sendRecord, mem_modCmd, ite_self, hm, wf_writeRec]
theorem wf_beginLogged (q : QIdx) (c : Cmd) {s : State} (hm : Canon s.mem) : Canon (beginLogged q c s).mem := by
  simp only [beginLogged, mem_ite, mem_endWith, mem_cpRead, mem_readRecord, mem_beginDone, mem_rset, ite_self,
      canon_ite, hm, wf_beginRecord]
theorem wf_execStepBegin (q seq) {s : State} (hm : Canon s.mem) : CanonOut (execStepBegin q seq s) := by
  refine wf_runCmd _ _ _ (fun c u hu => ?_) hm
  dsimp only
  repeat' split
  all_goals simp only [mem_endWith, mem_modCmd, hu, mem_rset, wf_beginLogged, mem_beginDone]
theorem wf_pushEnd (p : Push) (st : Status) (pushed : Bool) {s : State} (hm : Canon s.mem) :
    Canon (pushEnd p st pushed s).mem := by
  simp only [pushEnd, mem_ite, mem_stepEndDone, mem_readRecord, mem_recDrop, mem_rset, ite_self, mem_sendRecord,
      mem_setPush, canon_ite, hm, wf_writeRec]
theorem wf_pushMove (p : Push) {s : State} (hm : Canon s.mem) : Canon (pushMove p s).mem := by
  simp only [pushMove]
  repeat' split
  all_goals simp only [mem_stepEndDone, mem_recDrop, hm, wf_pushEnd, mem_sendEntries, mem_setPush, mem_sendStepB]
theorem wf_pushAdvance (n q seq) {s : State} (hm : Canon s.mem) : Canon (pushAdvance n q seq s).mem := by
  induction n generalizing s with
  | zero => exact hm
  | succ n ih =>
    simp only [pushAdvance]
    split
    · exact ih (wf_pushMove _ hm)
    · exact hm
theorem wf_stepEndPush (q : QIdx) (c : Cmd) (rec : Bool) {s : State} (hm : Canon s.mem) :
    Canon (stepEndPush q c rec s).mem := by
  simp only [stepEndPush, mem_modCmd, mem_ite, mem_sendStepB, canon_ite, hm, wf_pushEnd, ite_self]
theorem wf_stepEndLoss (q : QIdx) (c : Cmd) (rec : List Byte) (loss : List Byte) {s : State} (hm : Canon s.mem) :
    Canon (stepEndLoss q c rec loss s).mem := by
  simp only [stepEndLoss, mem_ite, mem_endWith, canon_ite, hm, wf_writeRec, wf_stepEndPush, ite_self]
theorem wf_stepEndLogged (q : QIdx) (c : Cmd) {s : State} (hm : Canon s.mem) : Canon (stepEndLogged q c s).mem := by
  simp only [stepEndLogged, mem_ite, mem_endWith, mem_readRecord, mem_rset, localRead_mem, mem_setRecState, mem_rput,
      ite_self, canon_ite, hm, mem_rinc, wf_stepEndPush, wf_stepEndLoss]
theorem wf_execStepEnd (q : QIdx) (seq : W32) {s : State} (hm : Canon s.mem) : CanonOut (execStepEnd q seq s) := by
  simp only [execStepEnd]
  repeat' split
  all_goals simp only [canonOut_next, hm, wf_stepEndLogged, wf_stepEndPush, wf_pushAdvance]

/-! ### Fabric -/

theorem wf_packetLine (k : Packet) (cells : List (Nat × Byte)) {s : State} (hm : Canon s.mem) :
    Canon (packetLine k cells s).2.mem := by
  simp only [packetLine]
  split <;> simp only [hm, wf_windowWrite, wf_localWrite]
theorem wf_packetLines (k l) {s : State} (hm : Canon s.mem) : Canon (packetLines k l s).2.mem := by
  induction l generalizing s with
  | nil => exact hm
  | cons g l ih => exact ih (wf_packetLine _ _ hm)
theorem wf_execWrite (p k bad) {s : State} (hm : Canon s.mem) : CanonOut (execWrite p k bad s) := by
  refine wf_packetIn _ _ _ _ (fun _ u hu => wf_atTarget _ (fun v hv => ?_) hu) hm
  have h1 := wf_packetLines k (writeLines k) hv
  dsimp only
  split
  · simp only [mem_refreshBank, h1]
  · exact h1
theorem wf_execAadd (p k bad) {s : State} (hm : Canon s.mem) : CanonOut (execAadd p k bad s) := by
  refine wf_packetIn _ _ _ _ (fun _ u hu => wf_atTarget _ (fun v hv => ?_) hu) hm
  dsimp only
  split
  · exact wf_windowAadd _ _ _ _ _ _ hv
  · exact wf_localAadd _ _ _ hv
theorem wf_execReply (p k bad) {s : State} (hm : Canon s.mem) : CanonOut (execReply p k bad s) := by
  refine wf_packetIn _ _ _ _ (fun _ u hu => ?_) hm
  split
  next id x _ =>
    dsimp only
    generalize hv : takeReply id x _ _ u = v
    have h1 : Canon v.mem := by
      rw [← hv]
      simp only [mem_takeReply, hu]
    split
    · exact wf_pushAdvance _ _ _ h1
    · split
      · exact wf_pushAdvance _ _ _ h1
      · exact h1
    · exact h1
  · simp only [mem_orphanReply, hu]

/-! ### Domain -/

theorem wf_wipeRange (lo hi) {s : State} (hm : Canon s.mem) : Canon (wipeRange lo hi s).mem := mwf_mclear _ _ _ _ hm
theorem wf_resetDom (n) {s : State} (hm : Canon s.mem) : Canon (resetDom n s).mem := by
  simp only [resetDom]
  repeat' split
  all_goals try simp only [mem_cancelReqs, hm, wf_wipeRange, mem_wipeFio, mem_ctlFixups, mem_wipeCtl, mem_modQueue,
      implies_true, mem_foldl]
theorem wf_powerUp (n : Nat) {s : State} (hm : Canon s.mem) : Canon (powerUp n s).mem := by
  simp only [powerUp, mem_ite, mem_setDst, mem_modPower, canon_ite, hm, wf_resetDom, ite_self]
theorem wf_powerNeeds (n) {s : State} (hm : Canon s.mem) : Canon (powerNeeds n s).mem := by
  refine wf_foldl _ _ (fun u k hu => ?_) hm
  repeat' split
  all_goals simp only [hu, wf_powerUp, mem_holdReq]
theorem wf_askOn (n : Nat) {s : State} (hm : Canon s.mem) : Canon (askOn n s).mem := by
  simp only [askOn, mem_ite, mem_setDst, mem_holdReq, mem_dropReqHeld, ite_self, canon_ite, hm, wf_powerNeeds,
      wf_powerUp]
theorem wf_askDom (n : Nat) (r : Nat) (force : Bool) {s : State} (hm : Canon s.mem) :
    Canon (askDom n r force s).mem := by
  simp only [askDom, mem_ite, mem_askAon, mem_askDown, canon_ite, hm, wf_askOn, ite_self]
theorem wf_settleDom (n : Nat) {s : State} (hm : Canon s.mem) : Canon (settleDom n s).mem := by
  simp only [settleDom]
  repeat' split
  all_goals simp only [hm, wf_powerUp, mem_startDrain, mem_dropReqHeld, mem_setDst]
theorem wf_settle {s : State} (hm : Canon s.mem) : Canon (settle s).mem := by
  have h1 := wf_foldl (fun s n => settleDom n s) domIds (fun u n => wf_settleDom n) hm
  simp only [settle]
  simp only [mem_ite, mem_modPower, mem_rset, mem_setDst, ite_self, h1]
theorem wf_seqEnd (n : Nat) (reached : Nat) {s : State} (hm : Canon s.mem) : Canon (seqEnd n reached s).mem := by
  simp only [seqEnd]
  split <;> simp only [mem_ite, mem_dropReqHeld, canon_ite, hm, wf_askDom, ite_self, wf_settle]
theorem wf_modeRequest (m) {s : State} (hm : Canon s.mem) : Canon (modeRequest m s).mem := by
  simp only [modeRequest]
  split
  · exact hm
  · refine wf_settle (wf_foldl _ _ (fun _ _ => wf_askDom _ _ _) ?_)
    simp only [mem_rset, implies_true, mem_foldl, hm]
theorem wf_execModeRequest (m) {s : State} (hm : Canon s.mem) : CanonOut (execModeRequest m s) :=
  (canonOut_next _).2 (wf_hostWrite _ _ (fun _ => wf_modeRequest _) hm)
theorem wf_domRequest (n : Nat) (v : Nat) {s : State} (hm : Canon s.mem) : Canon (domRequest n v s).mem := by
  simp only [domRequest, mem_ite, mem_rset, canon_ite, hm, wf_askDom, wf_settle, ite_self]
theorem wf_execDomainRequest (n v) {s : State} (hm : Canon s.mem) : CanonOut (execDomainRequest n v s) :=
  (canonOut_next _).2 (wf_hostWrite _ _ (fun _ => wf_domRequest _ _) hm)
theorem wf_reachOn (n : Nat) {s : State} (hm : Canon s.mem) : Canon (reachOn n s).mem := by
  simp only [reachOn, mem_ite, mem_modPower, mem_setTries, mem_setDst, ite_self, hm, wf_seqEnd]
theorem wf_execDomainPowerUpDone (n : DomId) {s : State} (hm : Canon s.mem) : CanonOut (execDomainPowerUpDone n s) := by
  simp only [execDomainPowerUpDone, canonOut_next, mem_ite, mem_setDst, canon_ite, hm, wf_reachOn, ite_self]
theorem wf_powerUpFail (n) {s : State} (hm : Canon s.mem) : Canon (powerUpFail n s).mem := by
  have h1 := wf_resetDom n hm
  simp only [powerUpFail]
  repeat' split
  all_goals try simp only [mem_dropReqHeld, mem_setDst, mem_rinc, mem_setTries, h1, wf_powerUp, wf_settle, wf_seqEnd,
      mem_alert]
theorem wf_execDomainPowerUpTimeout (n : DomId) {s : State} (hm : Canon s.mem) :
    CanonOut (execDomainPowerUpTimeout n s) := by
  simp only [execDomainPowerUpTimeout, canonOut_next, mem_ite, canon_ite, hm, wf_powerUpFail, ite_self]
theorem wf_execDomainInitDone (n : DomId) {s : State} (hm : Canon s.mem) : CanonOut (execDomainInitDone n s) := by
  simp only [execDomainInitDone, canonOut_next, mem_ite, canon_ite, mem_rput, ite_self, hm, wf_reachOn]
theorem wf_execDomainInitTimeout (n : DomId) {s : State} (hm : Canon s.mem) : CanonOut (execDomainInitTimeout n s) := by
  simp only [execDomainInitTimeout, canonOut_next, mem_ite, canon_ite, hm, wf_powerUpFail, ite_self]
theorem wf_execRimeExitDone (n) {s : State} (hm : Canon s.mem) : CanonOut (execRimeExitDone n s) := by
  refine (canonOut_next _).2 ?_
  split
  · refine wf_reachOn _ ?_
    split
    · refine wf_foldl _ _ (fun u t hu => ?_) hm
      simp only [mem_ite, mem_rset, ite_self, hu]
    · exact hm
  · exact hm
theorem wf_execDomainPowerDownDone (n : DomId) {s : State} (hm : Canon s.mem) :
    CanonOut (execDomainPowerDownDone n s) := by
  simp only [execDomainPowerDownDone, canonOut_next, mem_ite, canon_ite, mem_rset, mem_setDst, ite_self, hm,
      wf_resetDom, wf_seqEnd]
theorem wf_wakeUp (srcs) {s : State} (hm : Canon s.mem) : Canon (wakeUp srcs s).mem := by
  simp only [wakeUp]
  repeat' split
  case isFalse.isFalse.isTrue.isFalse =>
    refine wf_settle ?_
    rw [mem_wakeRecord]
    exact wf_foldl _ _ (fun _ _ hu => wf_askOn _ (by rwa [mem_rset])) hm
  all_goals simp only [hm, mem_rset, mem_wakeRecord, mem_setDst, mem_modPower, wf_modeRequest]
theorem wf_execWakeEvent (srcs : BitVec 5) {s : State} (hm : Canon s.mem) : CanonOut (execWakeEvent srcs s) := by
  simp only [execWakeEvent, canonOut_next, mem_ite, canon_ite, hm, wf_wakeUp, ite_self]
theorem wf_execRimeEntryDone (n : DomId) (levels : BitVec 5) {s : State} (hm : Canon s.mem) :
    CanonOut (execRimeEntryDone n levels s) := by
  simp only [execRimeEntryDone, canonOut_next, mem_ite, canon_ite, mem_setDst, mem_dropReqHeld, ite_self, hm,
      wf_seqEnd, wf_wakeUp]

/-! ### Reset -/

theorem wf_wipe (b) {s : State} (hm : Canon s.mem) : Canon (wipe b s).mem := by
  rw [wipe, mem_ctlFixups]
  exact mwf_filter _ _ _ hm
theorem wf_shutAll {s : State} (hm : Canon s.mem) : Canon (shutAll s).mem := by
  simp only [shutAll, mem_modPower, mem_rset, mem_setAllDst, hm, wf_wipe]
theorem wf_bootUp (b) {s : State} (hm : Canon s.mem) : Canon (bootUp b s).mem := by
  simp only [bootUp]
  repeat' split
  case h_2.isFalse =>
    refine wf_settle (wf_foldl _ _ (fun u n hu => ?_)
        (by simp only [mem_ite, mem_setDst, ite_self, implies_true, mem_foldl, mem_ctlFixups, mem_checkRepair,
        mem_bootPrimary, mem_bootStages, mem_modPower, hm]))
    split
    · exact hu
    · exact wf_askDom _ _ _ hu
  all_goals simp only [hm, mem_modPower, mem_checkRepair, mem_bootPrimary, mem_bootStages]
theorem wf_coldDown (cause : Nat) {s : State} (hm : Canon s.mem) : Canon (coldDown cause s).mem := by
  simp only [coldDown, mem_modMgmt, mem_modPower, mem_rset, mem_setAllDst, mem_ctlFixups, hm, wf_wipe]
theorem wf_coldReset (cause : Nat) (b : SelfTest) {s : State} (hm : Canon s.mem) : Canon (coldReset cause b s).mem := by
  simp only [coldReset, hm, wf_coldDown, wf_bootUp]
theorem wf_execColdReset (b) {s : State} (hm : Canon s.mem) : CanonOut (execColdReset b s) :=
  (canonOut_next _).2 (wf_hostWrite _ _ (fun _ => wf_coldReset _ _) hm)
theorem wf_execPerstAssert {s : State} (hm : Canon s.mem) : CanonOut (execPerstAssert s) := by
  simp only [execPerstAssert, canonOut_next, mem_ite, mem_modPower, canon_ite, hm, wf_coldDown, ite_self]
theorem wf_execPerstDeassert (bist : SelfTest) {s : State} (hm : Canon s.mem) : CanonOut (execPerstDeassert bist s) := by
  simp only [execPerstDeassert, canonOut_next, mem_modPower, hm, wf_bootUp]
theorem wf_powerOn (feed : Nat) (slot : Nat) (b : SelfTest) {s : State} (hm : Canon s.mem) :
    Canon (powerOn feed slot b s).mem := by
  simp only [powerOn, mem_rset, hm, wf_coldReset]
theorem wf_execPowerOn (feed : BitVec 4) (slot : BitVec 6) (bist : SelfTest) {s : State} (hm : Canon s.mem) :
    CanonOut (execPowerOn feed slot bist s) := by
  simp only [execPowerOn, canonOut_next, hm, wf_powerOn]
theorem wf_warmOver {s : State} (hm : Canon s.mem) : Canon (warmOver s).mem := by
  simp only [warmOver, mem_ite, mem_modPower, mem_rput, canon_ite, hm, wf_wipe, wf_modeRequest, ite_self]
theorem wf_warmReset (b) {s : State} (hm : Canon s.mem) : Canon (warmReset b s).mem := by
  simp only [warmReset]
  repeat' split
  all_goals simp only [hm, mem_drainUnits, implies_true, mem_foldl, mem_modPower, mem_rset, wf_warmOver]
theorem wf_execWarmReset {s : State} (hm : Canon s.mem) : CanonOut (execWarmReset s) :=
  (canonOut_next _).2 (wf_hostWrite _ _ (fun _ => wf_warmReset _) hm)
theorem wf_execFunctionLevelReset {s : State} (hm : Canon s.mem) : CanonOut (execFunctionLevelReset s) := by
  simp only [execFunctionLevelReset, canonOut_next, mem_ite, canon_ite, hm, wf_warmReset, ite_self]
theorem wf_execDomainDrainDone (n : DomId) {s : State} (hm : Canon s.mem) : CanonOut (execDomainDrainDone n s) := by
  simp only [execDomainDrainDone, canonOut_next, mem_ite, mem_modPower, mem_drainOver, ite_self, canon_ite, hm,
      wf_warmOver]
theorem wf_execDrainLimitExpiry (n t) {s : State} (hm : Canon s.mem) : CanonOut (execDrainLimitExpiry n t s) := by
  refine (canonOut_next _).2 ?_
  dsimp only
  repeat' split
  case isFalse.isFalse.isFalse.isTrue =>
    refine wf_foldl _ _ (fun u t hu => ?_) hm
    simp only [mem_ite, mem_setPortState, mem_dropPort, ite_self, hu]
  all_goals simp only [mem_abandonTile, hm, wf_ablEnd, wf_copyTimeout]
theorem wf_execThermalTrip (tj : BitVec 8) {s : State} (hm : Canon s.mem) : CanonOut (execThermalTrip tj s) := by
  simp only [execThermalTrip, canonOut_next, mem_ite, mem_alert, mem_rset, canon_ite, hm, wf_shutAll, ite_self]
theorem wf_execRailFault {s : State} (hm : Canon s.mem) : CanonOut (execRailFault s) := by
  simp only [execRailFault, canonOut_next, mem_ite, mem_modPower, mem_rset, canon_ite, hm, wf_shutAll, ite_self]
theorem wf_execHotSwapDisconnect (why : InputFault) {s : State} (hm : Canon s.mem) :
    CanonOut (execHotSwapDisconnect why s) := by
  simp only [execHotSwapDisconnect, canonOut_next, mem_modMgmt, mem_modPower, mem_rset, hm, wf_shutAll]
theorem wf_execHotSwapReconnect (feed : BitVec 4) (slot : BitVec 6) (bist : SelfTest) {s : State}
    (hm : Canon s.mem) : CanonOut (execHotSwapReconnect feed slot bist s) := by
  simp only [execHotSwapReconnect, canonOut_next, mem_ite, canon_ite, hm, wf_powerOn, ite_self]
theorem wf_execRefclkLost {s : State} (hm : Canon s.mem) : CanonOut (execRefclkLost s) := by
  simp only [execRefclkLost, canonOut_next, mem_ite, mem_modPower, mem_alert, mem_rset, canon_ite, hm, wf_shutAll,
      ite_self]
theorem wf_execFrostSample (readings : List (Nat × Int)) (levels : BitVec 5) {s : State} (hm : Canon s.mem) :
    CanonOut (execFrostSample readings levels s) := by
  simp only [execFrostSample, canonOut_next, mem_ite, canon_ite, mem_takeReadings, hm, wf_wakeUp, ite_self]
theorem wf_execHeartbeatLossWithNoStandby {s : State} (hm : Canon s.mem) :
    CanonOut (execHeartbeatLossWithNoStandby s) := by
  simp only [execHeartbeatLossWithNoStandby, canonOut_next, mem_ite, canon_ite, hm, wf_warmReset, ite_self]
theorem wf_reconcileCmd (q seq) {s : State} (hm : Canon s.mem) : Canon (reconcileCmd q seq s).mem := by
  simp only [reconcileCmd]
  split
  next c _ =>
    split
    · have h1 : Canon (if cmdOp c = opLaunch then c.tiles.foldl (fun s t =>
          if ((closeTile q seq (cF c 0x32 1 == 2) (BitVec.ofNat 11 t) s).tile
              (BitVec.ofNat 11 t)).x.launch.isNone then
            drainNow (BitVec.ofNat 11 t) (closeTile q seq (cF c 0x32 1 == 2) (BitVec.ofNat 11 t) s)
          else closeTile q seq (cF c 0x32 1 == 2) (BitVec.ofNat 11 t) s)
              (cancelAcqs q seq (cmdReport q seq .aborted 0 0 s))
          else cmdReport q seq .aborted 0 0 s).mem := by
        split
        · refine wf_foldl _ _ (fun u t hu => ?_) (by simp only [mem_cancelAcqs, mem_cmdReport, hm])
          simp only [mem_ite, mem_closeTile, canon_ite, hu, wf_drainNow, ite_self]
        · simp only [mem_cmdReport, hm]
      with_reducible split
      · rw [mem_completeCmd]; exact h1
      · exact h1
    · exact hm
  · exact hm
theorem wf_execTakeover (gap l recs) {s : State} (hm : Canon s.mem) : CanonOut (execTakeover gap l recs s) := by
  refine (canonOut_next _).2 ?_
  split
  · have h1 : Canon (recs.foldl (fun s r => rewriteRecord r.1 r.2.toNat s)
      (s.modPower (fun p => { p with fenced := true }))).mem := by
      simp only [mem_rewriteRecord, implies_true, mem_foldl, mem_modPower, hm]
    have h2 := wf_foldl (fun s c => reconcileCmd c.1 c.2 s) l (fun _ _ => wf_reconcileCmd _ _) h1
    simp only [mem_alert, mem_deviceEvent, mem_ite, mem_rset, ite_self, implies_true, mem_foldl, mem_rinc,
        mem_ledgerTakeover, h2]
  · exact hm

/-! ### Manage -/

theorem wf_mctp (pcie : Bool) (update : Bool) (f : State → State) {s : State}
    (hf : ∀ u, Canon u.mem → Canon (f u).mem) (hm : Canon s.mem) : CanonOut (mctp pcie update f s) := by
  simp only [mctp, canonOut_next, mem_ite, canon_ite, hm, wf_wakeUp, ite_self, hf]
theorem wf_execSetEventReceiver (pcie eid) {s : State} (hm : Canon s.mem) :
    CanonOut (execSetEventReceiver pcie eid s) :=
  wf_mctp _ _ _ (fun u hu => by simp only [mem_answerMgmt, mem_modMgmt, hu]) hm
theorem wf_execMctpEidAssign (pcie eid) {s : State} (hm : Canon s.mem) : CanonOut (execMctpEidAssign pcie eid s) :=
  wf_mctp _ _ _ (fun u hu => by simp only [mem_answerMgmt, mem_rset, hu]) hm
theorem wf_effecter (pcie listed st) {f : State → State} {s : State} (hf : ∀ u, Canon u.mem → Canon (f u).mem)
    (hm : Canon s.mem) : CanonOut (effecter pcie listed st f s) := by
  refine wf_mctp _ _ _ (fun u hu => ?_) hm
  split
  · exact hf u hu
  · simp only [mem_answerMgmt, hu]

/-- A request over MCTP that is answered and does nothing else. -/
theorem wf_mctpAnswer (pcie update) {a : State → Reply} {s : State} (hm : Canon s.mem) :
    CanonOut (mctp pcie update (fun s => answerMgmt (a s) s) s) :=
  wf_mctp _ _ _ (fun u hu => by rwa [mem_answerMgmt]) hm
theorem wf_execAlertClear (pcie st) {s : State} (hm : Canon s.mem) : CanonOut (execAlertClear pcie st s) :=
  wf_effecter _ _ _ (fun u hu => by simp only [mem_answerMgmt, mem_rset, hu]) hm
theorem wf_execTripClear (pcie st b) {s : State} (hm : Canon s.mem) : CanonOut (execTripClear pcie st b s) := by
  refine wf_effecter _ _ _ (fun u hu => ?_) hm
  repeat' split
  all_goals simp only [mem_answerMgmt, hu, mem_rset, wf_coldReset]
theorem wf_execMode (pcie st) {s : State} (hm : Canon s.mem) : CanonOut (execMode pcie st s) := by
  refine wf_effecter _ _ _ (fun u hu => ?_) hm
  simp only [mem_answerMgmt, mem_ite, canon_ite, hu, wf_modeRequest, ite_self]
theorem wf_execReset (pcie st b) {s : State} (hm : Canon s.mem) : CanonOut (execReset pcie st b s) := by
  refine wf_effecter _ _ _ (fun u hu => ?_) hm
  simp only [mem_answerMgmt, mem_ite, canon_ite, hu, wf_warmReset, wf_coldReset, ite_self]
theorem wf_execRequestUpdate (pcie) {s : State} (hm : Canon s.mem) : CanonOut (execRequestUpdate pcie s) := by
  refine wf_mctp _ _ _ (fun u hu => ?_) hm
  repeat' split
  all_goals simp only [mem_answerMgmt, hu, mem_rset, mem_modMgmt]
theorem wf_execFirmwareComponentTransfer (pcie comp svn ok ver bytes) {s : State} (hm : Canon s.mem) :
    CanonOut (execFirmwareComponentTransfer pcie comp svn ok ver bytes s) := by
  refine wf_mctp _ _ _ (fun u hu => ?_) hm
  dsimp only
  repeat' split
  all_goals simp only [mem_answerMgmt, hu, mem_modMgmt]
theorem wf_loadMicrocode (bytes : List Byte) (st : Nat) {s : State} (hm : Canon s.mem) :
    Canon (loadMicrocode bytes st s).mem := by
  simp only [loadMicrocode, mem_mcLoad, mem_modMgmt, hm, wf_memWrite]
theorem wf_execActivateFirmware (pcie) {s : State} (hm : Canon s.mem) : CanonOut (execActivateFirmware pcie s) := by
  refine wf_mctp _ _ _ (fun u hu => ?_) hm
  dsimp only
  split
  · simp only [mem_answerMgmt, hu]
  · rw [mem_answerMgmt]
    split
    · refine wf_foldl _ _ (fun v st hv => ?_) (by simp only [mem_modMgmt, mem_rset, hu])
      simp only [mem_ite, canon_ite, hv, wf_loadMicrocode, ite_self]
    · simp only [mem_rset, mem_modMgmt, hu]

/-! ### HostRegs -/

theorem wf_exdDrop (e : Nat) {s : State} (hm : Canon s.mem) : Canon (exdDrop e s).mem := by
  simp only [exdDrop, mem_setDirVa, mem_modExd, hm, wf_setRes]
theorem wf_exdWrite (v) {s : State} (hm : Canon s.mem) : Canon (exdWrite v s).mem := by
  unfold exdWrite
  dsimp only
  split
  · exact wf_exdDo _ (fun _ => wf_setRes _ _) hm
  · exact wf_exdDo _ (fun _ => wf_setRes _ _) hm
  · exact wf_exdDo _ (fun _ => wf_exdDrop _) hm
  · exact wf_exdDo _ (fun _ hu => by rwa [mem_rset]) hm
  · exact wf_exdDo _ (fun _ => wf_requestFetch _ _) hm
  · simp only [mem_ite, mem_rset, mem_freeWord, ite_self, hm]
theorem wf_freeColdReset {s : State} (hm : Canon s.mem) : Canon (freeColdReset s).mem := by
  simp only [freeColdReset, hm, wf_coldReset]
theorem wf_aonWrite (start : Nat) (r : RegRow) (mask : Nat) (v : Nat) {s : State} (hm : Canon s.mem) :
    Canon (aonWrite start r mask v s).mem := by
  simp only [aonWrite, mem_ite, mem_tileReset, ite_self, mem_regPlain, mem_modPower, mem_tagClr, mem_commitSvn,
      canon_ite, hm, wf_modeRequest, wf_domRequest, wf_warmReset, wf_freeColdReset]
theorem wf_ablRegWrite (st : Nat) (k : Nat) (start : Nat) (r : RegRow) (mask : Nat) (v : Nat) {s : State}
    (hm : Canon s.mem) : Canon (ablRegWrite st k start r mask v s).mem := by
  simp only [ablRegWrite, mem_ite, mem_regPlain, mem_mcLoad, ite_self, mem_inboxReset, canon_ite, hm, wf_rgnvWrite,
      wf_descWritten]
theorem wf_mosWrite (start : Nat) (r : RegRow) (mask : Nat) (v : Nat) {s : State} (hm : Canon s.mem) :
    Canon (mosWrite start r mask v s).mem := by
  simp only [mosWrite, mem_regPlain, mem_ite, mem_rset, mem_fabricDisable, ite_self, mem_portEnable, mem_portDisable,
      mem_grpWrite, mem_unpair, mem_recWrite, canon_ite, hm, wf_pair]
theorem wf_regWrite (start : Nat) (r : RegRow) (mask : Nat) (v : Nat) {s : State} (hm : Canon s.mem) :
    Canon (regWrite start r mask v s).mem := by
  simp only [regWrite]
  repeat' split
  all_goals simp only [mem_queueWrite, hm, mem_unmaskVector, mem_regPlain, wf_aonWrite, wf_exdWrite, wf_ablRegWrite,
      wf_mosWrite, mem_updSlots, mem_invalDie, wf_tileRegWrite]
theorem wf_execRegisterWrite (off bytes v) {s : State} (hm : Canon s.mem) :
    CanonOut (execRegisterWrite off bytes v s) := by
  refine (canonOut_next _).2 ?_
  split
  · exact wf_hostWrite _ _ (fun _ => wf_foldl _ _ (fun _ _ => wf_regWrite _ _ _ _)) hm
  · exact hm
theorem wf_execBar2Access (off : BitVec 36) (acc : HostAcc) {s : State} (hm : Canon s.mem) :
    CanonOut (execBar2Access off acc s) := by
  simp only [execBar2Access]
  split <;> simp only [canonOut_next, mem_ite, mem_rinc, ite_self, canon_ite, hm, wf_memWrite, memRead_mem]

/-! ### Predict -/

theorem wf_pdWrite (t : TileId) (off : Nat) (l : List Byte) {s : State} (hm : Canon s.mem) :
    Canon (pdWrite t off l s).2.mem := by
  simp only [pdWrite, hm, wf_memWrite]
theorem wf_scanBlock (t d b) {s : State} (hm : Canon s.mem) : Canon (scanBlock t d b s).2.mem := by
  refine wf_emBind (fun act u hu => wf_emBind (fun _ v hv => wf_emBind (fun _ _ hw => hw) ?_) ?_)
      (by simp only [mem_readStep, mem_pdHits, hm])
  · simp only [mem_writeStep, hv, wf_pdWrite]
  · simp only [mem_writeStep, hu, wf_pdWrite]
theorem wf_pdUndefine (t : TileId) (d : DWord) {s : State} (hm : Canon s.mem) : Canon (pdUndefine t d s).mem := by
  simp only [pdUndefine, hm, wf_freeBytes]
theorem wf_scanRun (t d) {s : State} (hm : Canon s.mem) : Canon (scanRun t d s).2.mem := by
  refine wf_emElim (fun _ u hu => wf_pdUndefine _ _ hu) (fun n u hu => ?_)
      (wf_emMap (fun _ _ => wf_scanBlock _ _ _) hm)
  simp only [mem_ite, mem_rinc, canon_ite, hu, wf_pdUndefine, ite_self]
theorem wf_setMisses (t : TileId) (d : DWord) (b n : Nat) (hits : List Nat) {s : State} (hm : Canon s.mem) :
    Canon (setMisses t d b n hits s).2.mem := by
  simp only [setMisses, implies_true, mem_emBind, hm, wf_pdWrite]
theorem wf_checkMisses (t d b n) {s : State} (hm : Canon s.mem) : Canon (checkMisses t d b n s).2.mem :=
  wf_emBind (fun _ _ hu => by simp only [mem_writeStep, hu, wf_setMisses])
      (by simp only [mem_readStep, mem_pdHits, hm])
theorem wf_checkBlock (t d b) {s : State} (hm : Canon s.mem) : Canon (checkBlock t d b s).2.mem :=
  wf_emBind (fun _ _ => wf_checkMisses _ _ _ _) (by simp only [mem_readStep, mem_pdRead, hm])
theorem wf_missUndefine (t : TileId) (d : DWord) {s : State} (hm : Canon s.mem) : Canon (missUndefine t d s).mem := by
  simp only [missUndefine, hm, wf_freeBytes]
theorem wf_tallyAdd (t env va v) {s : State} (hm : Canon s.mem) : Canon (tallyAdd t env va v s).2.mem := by
  have h1 : Canon (translate t va true true s).2.mem := by rwa [mem_translate]
  simp only [tallyAdd]
  with_reducible split
  next hx => simp only [mem_xlatFault, canon_of_pair hx h1]
  next hx =>
    have h2 := canon_of_pair hx h1
    repeat' split
    all_goals simp only [h2, wf_localAadd, wf_windowAadd, mem_sendTxn, mem_rinc, mem_xlatFault]
theorem wf_checkRun (t env d) {s : State} (hm : Canon s.mem) : Canon (checkRun t env d s).2.mem := by
  refine wf_emElim (fun _ u hu => wf_missUndefine _ _ hu) (fun l u hu => ?_)
      (wf_emMap (fun _ _ => wf_checkBlock _ _ _) hm)
  refine wf_emElim (fun _ _ hv => hv) (fun _ v hv => ?_)
      (wf_emBind (fun _ _ => wf_tallyAdd _ _ _ _) (wf_tallyAdd _ _ _ _ (by simp only [mem_rinc, hu])))
  simp only [mem_ite, canon_ite, hv, wf_pdUndefine, ite_self]
theorem wf_gmeBody (t : TileId) (env : EngEnv) (e : EngCmd) {s : State} (hm : Canon s.mem) :
    Canon (gmeBody t env e s).mem := by
  simp only [gmeBody]
  repeat' split
  all_goals simp only [mem_gmeHead, hm, mem_gmeEnd, wf_gmeAccRun, mem_gmeDone, wf_gmeFinish]
theorem wf_gmeOut (t : TileId) (env : EngEnv) (e : EngCmd) {s : State} (hm : Canon s.mem) :
    Canon (gmeOut t env e s).mem := by
  simp only [gmeOut]
  split <;> simp only [mem_ite, mem_gmeHead, mem_acquire, canon_ite, hm, wf_gmeBody, ite_self]
theorem wf_gmeReads (t : TileId) (env : EngEnv) (e : EngCmd) {s : State} (hm : Canon s.mem) :
    Canon (gmeReads t env e s).2.mem := by
  simp only [gmeReads]
  split <;> simp only [hm, wf_rankForm, wf_gmeForm]
theorem wf_gmeFromIn (t env e) {s : State} (hm : Canon s.mem) : Canon (gmeFromIn t env e s).mem := by
  simp only [gmeFromIn]
  split
  · exact wf_gmeOut _ _ _ hm
  · with_reducible split
    next hx =>
      rw [mem_gmeDone]
      exact canon_of_pair hx (wf_gmeReads _ _ _ hm)
    next hx =>
      refine wf_gmeOut _ _ _ ?_
      rw [mem_gmeHead, mem_gmePostIn]
      exact canon_of_pair hx (wf_gmeReads _ _ _ hm)
theorem wf_execGmeExecute (t env) {s : State} (hm : Canon s.mem) : CanonOut (execGmeExecute t env s) := by
  refine (canonOut_next _).2 ?_
  split
  · exact hm
  split
  · with_reducible split
    next hx => rwa [mem_gmeDone, mem_of_triple hx (mem_gmeTake ..)]
    next hx =>
      have h1 := canon_of_triple hx (by rwa [mem_gmeTake])
      split
      · dsimp only
        split
        · exact wf_gmeFromIn _ _ _ (by simp only [mem_acquire, h1])
        · simp only [mem_gmeHead, mem_acquire, h1]
      · exact wf_gmeFromIn _ _ _ h1
  · exact wf_gmeFromIn _ _ _ hm
  · exact wf_gmeBody _ _ _ hm
  · exact hm
theorem wf_execScan (t) {s : State} (hm : Canon s.mem) : CanonOut (execScan t s) :=
  wf_predBody _ _ (fun _ _ => wf_scanRun _ _) hm
theorem wf_execCheck (t env) {s : State} (hm : Canon s.mem) : CanonOut (execCheck t env s) :=
  wf_predBody _ _ (fun _ _ => wf_checkRun _ _ _) hm
theorem wf_predUndefine (t : TileId) (d : DWord) {s : State} (hm : Canon s.mem) : Canon (predUndefine t d s).mem := by
  simp only [predUndefine]
  split <;> simp only [mem_freeField, hm, wf_pdUndefine, wf_undefineVas, wf_missUndefine]
theorem wf_gmeUndefine (t : TileId) (e : EngCmd) {s : State} (hm : Canon s.mem) : Canon (gmeUndefine t e s).mem := by
  simp only [gmeUndefine]
  split <;> simp only [hm, wf_predUndefine, wf_undefineVas]
theorem wf_execGmeInstructionComplete (t : TileId) {s : State} (hm : Canon s.mem) :
    CanonOut (execGmeInstructionComplete t s) := by
  simp only [execGmeInstructionComplete]
  repeat' split
  all_goals simp only [canonOut_next, hm, mem_semPost, mem_rset, mem_progress, mem_modTile, wf_gmeUndefine,
      mem_pushFault]

/-! ### Vector -/

theorem wf_vStore (t pg vd rs1 imm esz) {s : State} (hm : Canon s.mem) : CanonOut (vStore t pg vd rs1 imm esz s) :=
  wf_xRun _ (fun _ => wf_xStore _ _) hm

/-- Every command's meaning leaves memory in canonical form: most leave it as it is, and those that write keep the form. -/
theorem canonOut_exec (i : Instr) {s : State} (h : Canon s.mem) : CanonOut (exec i s) := by
  cases i <;> dsimp only [exec]
  case registerWrite => exact wf_execRegisterWrite (hm := h) ..
  case rcCounterRead => exact canonOut_of_mem h (mem_execRcCounterRead ..)
  case bar2Access => exact wf_execBar2Access (hm := h) ..
  case hostwinWrite => exact canonOut_of_mem h (mem_execHostwinWrite ..)
  case queueEnable => exact canonOut_of_mem h (mem_execQueueEnable ..)
  case queueDisable => exact canonOut_of_mem h (mem_execQueueDisable ..)
  case queueResume => exact canonOut_of_mem h (mem_execQueueResume ..)
  case sqDoorbell => exact canonOut_of_mem h (mem_execSqDoorbell ..)
  case cqDoorbell => exact canonOut_of_mem h (mem_execCqDoorbell ..)
  case commandFetch => exact canonOut_of_mem h (mem_execCommandFetch ..)
  case refusedCommandStop => exact canonOut_of_mem h (mem_execRefusedCommandStop ..)
  case queueDrainDone => exact canonOut_of_mem h (mem_execQueueDrainDone ..)
  case commandDispatch => exact canonOut_of_mem h (mem_execCommandDispatch ..)
  case cmdNop => exact canonOut_of_mem h (mem_execCmdNop ..)
  case launch => exact canonOut_of_mem h (mem_execLaunch ..)
  case launchComplete => exact wf_execLaunchComplete (hm := h) ..
  case commandComplete => exact canonOut_of_mem h (mem_execCommandComplete ..)
  case copy => exact wf_execCopy (hm := h) ..
  case eventSignal => exact canonOut_of_mem h (mem_execEventSignal ..)
  case eventWait => exact canonOut_of_mem h (mem_execEventWait ..)
  case eventWaitSatisfied => exact canonOut_of_mem h (mem_execEventWaitSatisfied ..)
  case stepBegin => exact wf_execStepBegin (hm := h) ..
  case firnRecordDurable => exact canonOut_of_mem h (mem_execFirnRecordDurable ..)
  case stepEnd => exact wf_execStepEnd (hm := h) ..
  case chain => exact canonOut_of_mem h (mem_execChain ..)
  case heartbeat => exact canonOut_of_mem h (mem_execHeartbeat ..)
  case takeover => exact wf_execTakeover (hm := h) ..
  case semWrite => exact canonOut_of_mem h (mem_execSemWrite ..)
  case semaphorePost => exact canonOut_of_mem h (mem_execSemaphorePost ..)
  case acquireGrant => exact canonOut_of_mem h (mem_execAcquireGrant ..)
  case heldPostRelease => exact canonOut_of_mem h (mem_execHeldPostRelease ..)
  case windowOpen => exact canonOut_of_mem h (mem_execWindowOpen ..)
  case windowClose => exact canonOut_of_mem h (mem_execWindowClose ..)
  case windowReopenDone => exact canonOut_of_mem h (mem_execWindowReopenDone ..)
  case winRangeWrite => exact canonOut_of_mem h (mem_execWinRangeWrite ..)
  case swizzleRangeWrite => exact wf_execSwizzleRangeWrite (hm := h) ..
  case remoteWrite => exact wf_execRemoteWrite (hm := h) ..
  case remoteRead => exact canonOut_of_mem h (mem_execRemoteRead ..)
  case remoteAtomicAdd => exact wf_execRemoteAtomicAdd (hm := h) ..
  case meshReply => exact canonOut_of_mem h (mem_execMeshReply ..)
  case xlatInval => exact canonOut_of_mem h (mem_execXlatInval ..)
  case xlatInvalDone => exact canonOut_of_mem h (mem_execXlatInvalDone ..)
  case tileReset => exact canonOut_of_mem h (mem_execTileReset ..)
  case tileResetDone => exact wf_execTileResetDone (hm := h) ..
  case xNop => exact canonOut_of_mem h (mem_execXNop ..)
  case xEnd => exact canonOut_of_mem h (mem_execXEnd ..)
  case xFence => exact canonOut_of_mem h (mem_execXFence ..)
  case xFenceE => exact canonOut_of_mem h (mem_execXFenceE ..)
  case xIflush => exact canonOut_of_mem h (mem_execXIflush ..)
  case xBrk => exact canonOut_of_mem h (mem_execXBrk ..)
  case xAdd | xSub | xAnd | xOr | xXor | xSll | xSrl | xSra | xMul | xMulhu | xSlt | xSltu | xMin | xMax | xMinu
    | xMaxu => exact canonOut_of_mem h (mem_xAlu ..)
  case xAddi | xAndi | xOri | xXori | xSlti | xSltiu => exact canonOut_of_mem h (mem_xAluI ..)
  case xSlli | xSrli | xSrai => exact canonOut_of_mem h (mem_xShI ..)
  case xLb | xLh | xLw | xLd | xLbu | xLhu | xLwu => exact canonOut_of_mem h (mem_xLoadI ..)
  case xSb | xSh | xSw | xSd => exact wf_xStoreI (hm := h) ..
  case xBeq | xBne | xBlt | xBge | xBltu | xBgeu => exact canonOut_of_mem h (mem_xBranch ..)
  case xBpany => exact canonOut_of_mem h (mem_execXBpany ..)
  case xBpnone => exact canonOut_of_mem h (mem_execXBpnone ..)
  case xJal => exact canonOut_of_mem h (mem_execXJal ..)
  case xJalr => exact canonOut_of_mem h (mem_execXJalr ..)
  case xCsrrW | xCsrrD => exact canonOut_of_mem h (mem_xCsrR ..)
  case xCsrwW | xCsrwD => exact wf_xCsrW (hm := h) ..
  case xAaddW | xAaddD | xAaddrW | xAaddrD => exact wf_xAtom (hm := h) ..
  case vfadd | vfsub | vfmul | vfma | vfmin | vfmax | vadd | vsub | vmul | vand | vor | vxor | vsll | vsrl | vsra
    | vmin | vmax | vminu | vmaxu => exact canonOut_of_mem h (mem_vOp3 ..)
  case vfabs | vfneg | vfrcp | vfrsq | vfexp2 | vflog2 | vmov | vcvtF2i | vcvtI2f | vcvtF2bf16 | vcvtBf162f
    | vcvtF2fp16 | vcvtFp162f | vcvtF2e4m3 | vcvtE4m32f | vcvtF2e5m2 | vcvtE5m22f =>
    exact canonOut_of_mem h (mem_vOp2 ..)
  case vbcast => exact canonOut_of_mem h (mem_execVbcast ..)
  case vext => exact canonOut_of_mem h (mem_execVext ..)
  case vins => exact canonOut_of_mem h (mem_execVins ..)
  case vshuf => exact canonOut_of_mem h (mem_execVshuf ..)
  case viota => exact canonOut_of_mem h (mem_execViota ..)
  case vsel => exact canonOut_of_mem h (mem_execVsel ..)
  case vrsum | vrmax | vrmin | vradd => exact canonOut_of_mem h (mem_vReduce ..)
  case vld | vldH | vldB => exact canonOut_of_mem h (mem_vLoad ..)
  case vst | vstH | vstB => exact wf_vStore (hm := h) ..
  case vldBc => exact canonOut_of_mem h (mem_execVldBc ..)
  case vfeq | vflt | vfle | vieq | vilt | vile | viltu => exact canonOut_of_mem h (mem_vCmp ..)
  case pand | por | pxor | pnot | pfirst => exact canonOut_of_mem h (mem_pOp ..)
  case pcnt => exact canonOut_of_mem h (mem_execPcnt ..)
  case xLi => exact canonOut_of_mem h (mem_execXLi ..)
  case xLih => exact canonOut_of_mem h (mem_execXLih ..)
  case xAddi32 => exact canonOut_of_mem h (mem_execXAddi32 ..)
  case xDld => exact canonOut_of_mem h (mem_execXDld ..)
  case xDst => exact wf_execXDst (hm := h) ..
  case xDins => exact canonOut_of_mem h (mem_execXDins ..)
  case xDext => exact canonOut_of_mem h (mem_execXDext ..)
  case xDmov => exact canonOut_of_mem h (mem_execXDmov ..)
  case ceMm | ceGrouped | gmeGather | gmeSegred | gmeMerge | gmeScatter | topk | bucket | cut | place | join =>
    exact canonOut_of_mem h (mem_xEngine ..)
  case ceExecute => exact wf_execCeExecute (hm := h) ..
  case ceInstructionComplete => exact wf_execCeInstructionComplete (hm := h) ..
  case groupedResidencyPoll => exact wf_execGroupedResidencyPoll (hm := h) ..
  case demandTimeout => exact canonOut_of_mem h (mem_execDemandTimeout ..)
  case gmeExecute => exact wf_execGmeExecute (hm := h) ..
  case gmeInstructionComplete => exact wf_execGmeInstructionComplete (hm := h) ..
  case xRpost => exact canonOut_of_mem h (mem_execXRpost ..)
  case collSeg | collNull => exact canonOut_of_mem h (mem_xColl ..)
  case updPost => exact canonOut_of_mem h (mem_execUpdPost ..)
  case rgnAcq => exact canonOut_of_mem h (mem_execRgnAcq ..)
  case rgnRel => exact canonOut_of_mem h (mem_execRgnRel ..)
  case xSacq => exact canonOut_of_mem h (mem_execXSacq ..)
  case xSpost => exact canonOut_of_mem h (mem_execXSpost ..)
  case xSset => exact canonOut_of_mem h (mem_execXSset ..)
  case xSrd => exact canonOut_of_mem h (mem_execXSrd ..)
  case xStry => exact canonOut_of_mem h (mem_execXStry ..)
  case xWopen => exact canonOut_of_mem h (mem_execXWopen ..)
  case xWclose => exact canonOut_of_mem h (mem_execXWclose ..)
  case xWwait => exact canonOut_of_mem h (mem_execXWwait ..)
  case xWcnt => exact canonOut_of_mem h (mem_execXWcnt ..)
  case xEwaitCe => exact canonOut_of_mem h (mem_execXEwaitCe ..)
  case xEwaitGme => exact canonOut_of_mem h (mem_execXEwaitGme ..)
  case xEstat => exact canonOut_of_mem h (mem_execXEstat ..)
  case xLhint => exact canonOut_of_mem h (mem_execXLhint ..)
  case xScommit => exact wf_execXScommit (hm := h) ..
  case xScancel => exact canonOut_of_mem h (mem_execXScancel ..)
  case xSstat => exact canonOut_of_mem h (mem_execXSstat ..)
  case xSwait => exact canonOut_of_mem h (mem_execXSwait ..)
  case waitSatisfied => exact canonOut_of_mem h (mem_execWaitSatisfied ..)
  case impreciseFault => exact canonOut_of_mem h (mem_execImpreciseFault ..)
  case watchdogTimeout => exact canonOut_of_mem h (mem_execWatchdogTimeout ..)
  case xcResume => exact canonOut_of_mem h (mem_execXcResume ..)
  case fNop => exact canonOut_of_mem h (mem_execFNop ..)
  case fEnd => exact canonOut_of_mem h (mem_execFEnd ..)
  case fAdd | fSub | fMul | fAddi | fSlli | fSrli | fOri | fAndi | fStat => exact canonOut_of_mem h (mem_fSetG ..)
  case fLd => exact canonOut_of_mem h (mem_execFLd ..)
  case fSt => exact wf_execFSt (hm := h) ..
  case fBeq | fBne | fBlt | fBltu => exact canonOut_of_mem h (mem_fBranch ..)
  case fSopen => exact canonOut_of_mem h (mem_execFSopen ..)
  case fSjoin => exact canonOut_of_mem h (mem_execFSjoin ..)
  case fSacq => exact canonOut_of_mem h (mem_execFSacq ..)
  case fSpost => exact canonOut_of_mem h (mem_execFSpost ..)
  case streamAccept => exact canonOut_of_mem h (mem_execStreamAccept ..)
  case streamTransferIssue => exact wf_execStreamTransferIssue (hm := h) ..
  case transferReply => exact wf_execTransferReply (hm := h) ..
  case transferTimeout => exact canonOut_of_mem h (mem_execTransferTimeout ..)
  case progressTimeout => exact canonOut_of_mem h (mem_execProgressTimeout ..)
  case streamAbortComplete => exact canonOut_of_mem h (mem_execStreamAbortComplete ..)
  case cancelComplete => exact canonOut_of_mem h (mem_execCancelComplete ..)
  case scan => exact wf_execScan (hm := h) ..
  case check => exact wf_execCheck (hm := h) ..
  case verdict => exact canonOut_of_mem h (mem_execVerdict ..)
  case adoptRes => exact wf_execAdoptRes (hm := h) ..
  case adoptRest => exact wf_execAdoptRest (hm := h) ..
  case drop => exact wf_execDrop (hm := h) ..
  case commit => exact canonOut_of_mem h (mem_execCommit ..)
  case exdCommitComplete => exact wf_execExdCommitComplete (hm := h) ..
  case retry => exact wf_execRetry (hm := h) ..
  case fetch => exact wf_execFetch (hm := h) ..
  case evict => exact wf_execEvict (hm := h) ..
  case pin => exact canonOut_of_mem h (mem_execPin ..)
  case unpin => exact canonOut_of_mem h (mem_execUnpin ..)
  case directoryTransferStart => exact wf_execDirectoryTransferStart (hm := h) ..
  case fetchComplete => exact wf_execFetchComplete (hm := h) ..
  case evictionComplete => exact wf_execEvictionComplete (hm := h) ..
  case moraineTimeout => exact wf_execMoraineTimeout (hm := h) ..
  case regionAcquire => exact canonOut_of_mem h (mem_execRegionAcquire ..)
  case regionRelease => exact wf_execRegionRelease (hm := h) ..
  case ablationCommandArrival => exact canonOut_of_mem h (mem_execAblationCommandArrival ..)
  case readerWaitTimeout => exact canonOut_of_mem h (mem_execReaderWaitTimeout ..)
  case rgnvWrite => exact wf_execRgnvWrite (hm := h) ..
  case update => exact canonOut_of_mem h (mem_execUpdate ..)
  case apply => exact wf_execApply (hm := h) ..
  case empty => exact wf_execEmpty (hm := h) ..
  case reimage => exact wf_execReimage (hm := h) ..
  case ablationCommandComplete => exact canonOut_of_mem h (mem_execAblationCommandComplete ..)
  case ablationCommandTimeout => exact wf_execAblationCommandTimeout (hm := h) ..
  case inboxBuffer => exact canonOut_of_mem h (mem_execInboxBuffer ..)
  case inboxReset => exact canonOut_of_mem h (mem_execInboxReset ..)
  case ablMcLoad => exact canonOut_of_mem h (mem_execAblMcLoad ..)
  case ablDrainDone => exact canonOut_of_mem h (mem_execAblDrainDone ..)
  case ablMcLoadDone => exact canonOut_of_mem h (mem_execAblMcLoadDone ..)
  case portEnable => exact canonOut_of_mem h (mem_execPortEnable ..)
  case portDisable => exact canonOut_of_mem h (mem_execPortDisable ..)
  case fabricDisable => exact canonOut_of_mem h (mem_execFabricDisable ..)
  case portTrained => exact canonOut_of_mem h (mem_execPortTrained ..)
  case portAckTimeout => exact canonOut_of_mem h (mem_execPortAckTimeout ..)
  case portRetrained => exact canonOut_of_mem h (mem_execPortRetrained ..)
  case retrainTimeout => exact canonOut_of_mem h (mem_execRetrainTimeout ..)
  case portDrainDone => exact canonOut_of_mem h (mem_execPortDrainDone ..)
  case linkGroupReceive => exact canonOut_of_mem h (mem_execLinkGroupReceive ..)
  case write => exact wf_execWrite (hm := h) ..
  case read => exact canonOut_of_mem h (mem_execRead ..)
  case aadd => exact wf_execAadd (hm := h) ..
  case post => exact canonOut_of_mem h (mem_execPost ..)
  case noticeEpoch => exact canonOut_of_mem h (mem_execNoticeEpoch ..)
  case noticeAbort => exact canonOut_of_mem h (mem_execNoticeAbort ..)
  case seg => exact canonOut_of_mem h (mem_execSeg ..)
  case reply => exact wf_execReply (hm := h) ..
  case fabricHoldDrop => exact canonOut_of_mem h (mem_execFabricHoldDrop ..)
  case collective => exact canonOut_of_mem h (mem_execCollective ..)
  case segmentComplete => exact wf_execSegmentComplete (hm := h) ..
  case segmentTimeout => exact canonOut_of_mem h (mem_execSegmentTimeout ..)
  case groupDescriptorWrite => exact canonOut_of_mem h (mem_execGroupDescriptorWrite ..)
  case ledgerTick => exact canonOut_of_mem h (mem_execLedgerTick ..)
  case reconcile => exact canonOut_of_mem h (mem_execReconcile ..)
  case avsVdone => exact canonOut_of_mem h (mem_execAvsVdone ..)
  case avsAttemptTimeout => exact canonOut_of_mem h (mem_execAvsAttemptTimeout ..)
  case tagClr => exact canonOut_of_mem h (mem_execTagClr ..)
  case modeRequest => exact wf_execModeRequest (hm := h) ..
  case domainRequest => exact wf_execDomainRequest (hm := h) ..
  case domainPowerUpDone => exact wf_execDomainPowerUpDone (hm := h) ..
  case domainPowerUpTimeout => exact wf_execDomainPowerUpTimeout (hm := h) ..
  case domainInitDone => exact wf_execDomainInitDone (hm := h) ..
  case domainInitTimeout => exact wf_execDomainInitTimeout (hm := h) ..
  case domainDrainDone => exact wf_execDomainDrainDone (hm := h) ..
  case drainLimitExpiry => exact wf_execDrainLimitExpiry (hm := h) ..
  case rimeEntryDone => exact wf_execRimeEntryDone (hm := h) ..
  case rimeExitDone => exact wf_execRimeExitDone (hm := h) ..
  case domainPowerDownDone => exact wf_execDomainPowerDownDone (hm := h) ..
  case wakeEvent => exact wf_execWakeEvent (hm := h) ..
  case frostSample => exact wf_execFrostSample (hm := h) ..
  case thermalTrip => exact wf_execThermalTrip (hm := h) ..
  case railFault => exact wf_execRailFault (hm := h) ..
  case powerOn => exact wf_execPowerOn (hm := h) ..
  case coldReset => exact wf_execColdReset (hm := h) ..
  case warmReset => exact wf_execWarmReset (hm := h) ..
  case perstAssert => exact wf_execPerstAssert (hm := h) ..
  case perstDeassert => exact wf_execPerstDeassert (hm := h) ..
  case functionLevelReset => exact wf_execFunctionLevelReset (hm := h) ..
  case retryResend => exact canonOut_of_mem h (mem_execRetryResend ..)
  case meshTransactionTimeout => exact canonOut_of_mem h (mem_execMeshTransactionTimeout ..)
  case hotSwapDisconnect => exact wf_execHotSwapDisconnect (hm := h) ..
  case hotSwapReconnect => exact wf_execHotSwapReconnect (hm := h) ..
  case refclkLost => exact wf_execRefclkLost (hm := h) ..
  case firnCommitWrite => exact canonOut_of_mem h (mem_execFirnCommitWrite ..)
  case pair => exact wf_execPair (hm := h) ..
  case unpair => exact canonOut_of_mem h (mem_execUnpair ..)
  case mirrorHeaderPoll => exact canonOut_of_mem h (mem_execMirrorHeaderPoll ..)
  case pairingTimeout => exact canonOut_of_mem h (mem_execPairingTimeout ..)
  case calve => exact canonOut_of_mem h (mem_execCalve ..)
  case calveComplete => exact canonOut_of_mem h (mem_execCalveComplete ..)
  case fill => exact canonOut_of_mem h (mem_execFill ..)
  case fillReadReply => exact wf_execFillReadReply (hm := h) ..
  case fillDone => exact canonOut_of_mem h (mem_execFillDone ..)
  case done => exact canonOut_of_mem h (mem_execDone ..)
  case clear => exact canonOut_of_mem h (mem_execClear ..)
  case unfence => exact canonOut_of_mem h (mem_execUnfence ..)
  case commitSvn => exact canonOut_of_mem h (mem_execCommitSvn ..)
  case getVersion | getCapabilities | negotiateAlgorithms | getDigests | getCertificate | challenge | getMeasurements
    | getTid | getPldmVersion | getPldmTypes | getPldmCommands | getPdr | getSensorReading | getStateSensorReadings =>
    exact wf_mctpAnswer _ _ h
  case setEventReceiver => exact wf_execSetEventReceiver (hm := h) ..
  case alertClear => exact wf_execAlertClear (hm := h) ..
  case tripClear => exact wf_execTripClear (hm := h) ..
  case mode => exact wf_execMode (hm := h) ..
  case reset => exact wf_execReset (hm := h) ..
  case requestUpdate => exact wf_execRequestUpdate (hm := h) ..
  case firmwareComponentTransfer => exact wf_execFirmwareComponentTransfer (hm := h) ..
  case activateFirmware => exact wf_execActivateFirmware (hm := h) ..
  case sensorUpdate => exact canonOut_of_mem h (mem_execSensorUpdate ..)
  case mctpEidAssign => exact wf_execMctpEidAssign (hm := h) ..
  case clearFaults => exact canonOut_of_mem h (mem_execClearFaults ..)
  case statusWord => exact canonOut_of_mem h (mem_execStatusWord ..)
  case readVin => exact canonOut_of_mem h (mem_execReadVin ..)
  case readIin => exact canonOut_of_mem h (mem_execReadIin ..)
  case readTemperature1 => exact canonOut_of_mem h (mem_execReadTemperature1 ..)
  case readPin => exact canonOut_of_mem h (mem_execReadPin ..)
  case reservedEncoding => exact canonOut_of_mem h (mem_execReservedEncoding ..)
  case fcReservedEncoding => exact canonOut_of_mem h (mem_execFcReservedEncoding ..)
  case laneLockLost => exact canonOut_of_mem h (mem_execLaneLockLost ..)
  case expanderConfigured => exact canonOut_of_mem h (mem_execExpanderConfigured ..)
  case standbyMirrorComplete => exact canonOut_of_mem h (mem_execStandbyMirrorComplete ..)
  case heartbeatLossWithNoStandby => exact wf_execHeartbeatLossWithNoStandby (hm := h) ..
  case vralert => exact canonOut_of_mem h (mem_execVralert ..)
  case testAccessPortOpen => exact canonOut_of_mem h (mem_execTestAccessPortOpen ..)

end Sys2Proof.Machine
end

section
/-! The canonical form of memory. -/

namespace Sys2Proof

open Sys2Proof.Machine

/-- Settles O5: an idle cycle leaves memory as it is, and a command keeps its form. -/
theorem memoryKeepsItsForm : Obligations.MemoryKeepsItsForm := by
  unfold Obligations.MemoryKeepsItsForm
  intro s v h hv
  unfold step at hv
  split at hv
  next =>
    cases hv
    exact (congrArg Canon (mem_cycle s)).mpr h
  next c rest _ =>
    have hout := canonOut_exec c (s := { s with pending := rest }) h
    rwa [hv, canonOut_next] at hout

end Sys2Proof
end

section
/-! Requests of other tiles at a tile's router. -/

namespace Sys2Proof

open Sys2Proof.Machine

/-! ### The router -/

section
variable {id : Nat} {x : Txn} {t : TileId} {serve : Machine.State → Status × List Byte × Machine.State} {s : Machine.State}

theorem olderWaits_iff : olderWaits s id x = true ↔ ¬ InTurn s id x := by
  unfold InTurn olderWaits
  simp only [Bool.and_eq_true, List.any_eq_true, decide_eq_true_eq, Option.isSome_iff_ne_none, ne_eq]
  push Not
  constructor
  · rintro ⟨hx, e, he, ⟨⟨hlt, hiss⟩, hdst⟩, h⟩
    refine ⟨e, he, hlt, hx, hiss, hdst, ?_⟩
    split at h
    next hp => exact ⟨.inl hp, by simpa using h⟩
    next hp => exact ⟨.inr hp, by simpa using h⟩
    next => exact absurd h Bool.false_ne_true
  · rintro ⟨e, he, hlt, hx, hiss, hdst, hp, a, ha, ha'⟩
    refine ⟨hx, e, he, ⟨⟨hlt, hiss⟩, hdst⟩, ?_⟩
    rcases hp with hp | hp <;> simp only [hp, List.any_eq_true] <;> exact ⟨a, ha, by simpa using ha'⟩

theorem arrive_unreached (h : s.domReach (16 + tileDie t) = false) : arrive id x t serve s =
    putTxn id { x with phase := .lost } (rinc (R.MESH_ORPHAN t.toNat) F.MESH_ORPHAN_COUNT 1 s) := by
  simp [arrive, h]

theorem arrive_draining (h : s.domReach (16 + tileDie t) = true) (hd : s.tileDraining t = true) :
    arrive id x t serve s = replied s id x .retryLater [] := by
  simp [arrive, h, hd, replied, putTxn]

theorem arrive_waits (h : Serves s t) (hi : ¬ InTurn s id x) : arrive id x t serve s = s := by
  obtain ⟨hr, hd⟩ := h
  simp [arrive, hr, hd, olderWaits_iff.mpr hi]

theorem arrive_served (h : Serves s t) (hi : InTurn s id x) :
    arrive id x t serve s = replied (serve s).2.2 id x (serve s).1 (serve s).2.1 := by
  obtain ⟨hr, hd⟩ := h
  have ho : olderWaits s id x = false := Bool.eq_false_iff.mpr fun h => olderWaits_iff.mp h hi
  simp [arrive, hr, hd, ho, replied, putTxn]

end

/-- A post names no address, so nothing it issued goes before it. -/
theorem inTurn_of_post {s : Machine.State} {id : Nat} {x : Txn} {k : TileId} {n : SemIdx} {cnt : Nat} (hop : x.op = .post k n cnt) :
    InTurn s id x := by
  intro e _ _ _ _ _ _ a _
  simp [hop, opAddrs]

/-! ### The commands -/

/-- What the window stage answers to a write whose payload may be spoilt. -/
def serveWrite (bad : Bool) (x : Txn) (t : TileId) (cells : List (Nat × Byte)) (s : Machine.State) :
    Status × List Byte × Machine.State :=
  let p := payload bad cells s
  let r := windowWrite t p.1 (writerOf s x.iss).1 (writerOf s x.iss).2 p.2
  (spoiled bad r.1, [], r.2)

/-- What the window stage answers to an atomic add whose payload may be spoilt. -/
def serveAadd (bad : Bool) (x : Txn) (t : TileId) (a : Nat) (wide : Bool) (y : Word) (ret : Bool) (s : Machine.State) :
    Status × List Byte × Machine.State :=
  let p := if bad then freeWord s else (y, s)
  let r := windowAadd t a wide p.1 (writerOf s x.iss).1 (writerOf s x.iss).2 p.2
  (spoiled bad r.1, if ret && !bad then r.2.1 else [], r.2.2)

section
variable {id : Nat} {x : Txn} {t : TileId} {s : Machine.State} (h : Arriving s id x t)
include h

theorem exec_remoteRead {addrs : List Nat} (hop : x.op = .read addrs) :
    exec (.remoteRead id) s = .next (arrive id x t (localRead addrs) s) := by
  obtain ⟨hx, hp, hd⟩ := h
  simp only [exec, execRemoteRead, hx, hp, hd, hop]

theorem exec_remoteWrite {cells : List (Nat × Byte)} (bad : Bool) (hop : x.op = .write cells) :
    exec (.remoteWrite id bad) s = .next (arrive id x t (serveWrite bad x t cells) s) := by
  obtain ⟨hx, hp, hd⟩ := h
  simp only [exec, execRemoteWrite, hx, hp, hd, hop]
  rfl

theorem exec_remoteAtomicAdd {a : Nat} {wide ret : Bool} {y : Word} (bad : Bool) (hop : x.op = .aadd a wide y ret) :
    exec (.remoteAtomicAdd id bad) s = .next (arrive id x t (serveAadd bad x t a wide y ret) s) := by
  obtain ⟨hx, hp, hd⟩ := h
  simp only [exec, execRemoteAtomicAdd, hx, hp, hd, hop]
  rfl

theorem exec_semaphorePost {k : TileId} {n : SemIdx} {cnt : Nat} (hop : x.op = .post k n cnt) (he : s.enabled t = true) :
    exec (.semaphorePost id) s = .next (arrive id x t (fun s => (.ok, [], semPost t n cnt s)) s) := by
  obtain ⟨hx, hp, hd⟩ := h
  simp only [exec, execSemaphorePost, hx, hp, hd, hop, he, if_true]

theorem exec_semaphorePost_disabled {k : TileId} {n : SemIdx} {cnt : Nat} (hop : x.op = .post k n cnt) (he : s.enabled t = false) :
    exec (.semaphorePost id) s = .next (replied s id x .protection []) := by
  obtain ⟨hx, hp, hd⟩ := h
  simp only [exec, execSemaphorePost, hx, hp, hd, hop, he, Bool.false_eq_true, if_false, replied, putTxn]

/-- A request that is not in turn stays where it is, whichever command serves it: the others do not take its operation. -/
theorem exec_remote_waits (hs : Serves s t) (hi : ¬ InTurn s id x) (bad : Bool) : exec (.remoteRead id) s = .next s ∧
    exec (.remoteWrite id bad) s = .next s ∧ exec (.remoteAtomicAdd id bad) s = .next s := by
  have hw : ∀ f, arrive id x t f s = s := fun f => arrive_waits hs hi
  obtain ⟨hx, hp, hd⟩ := h
  refine ⟨?_, ?_, ?_⟩
  · simp only [exec, execRemoteRead, hx, hp, hd]
    cases x.op <;> simp only [hw]
  · simp only [exec, execRemoteWrite, hx, hp, hd]
    cases x.op <;> simp only [hw]
  · simp only [exec, execRemoteAtomicAdd, hx, hp, hd]
    cases x.op <;> simp only [hw]

end

/-! ### The window stage -/

/-- A counter raised reads the sum, or all ones. -/
theorem rget_rinc_same {o : Nat} {f : Fld} (n : Nat) (s : Machine.State) (h : f.lo + f.w ≤ 64) :
    rget (rinc o f n s) o f = satAdd f.w (rget s o f) n := by
  have hpos := Nat.two_pow_pos f.w
  rw [rinc, rget_rset_same _ _ _ _ h, satAdd, Nat.mod_eq_of_lt (by omega)]

theorem allWins_find {p : WinIdx → Bool} {w : WinIdx} (hw : p w = true) (hbefore : ∀ k, k < w → p k = false) :
    allWins.find? p = some w := by
  have hrange : (List.range 32).find? (p ∘ BitVec.ofNat 5) = some w.toNat := by
    refine List.find?_range_eq_some.mpr ⟨by simpa using hw, List.mem_range.mpr w.isLt, fun j hj => ?_⟩
    have hlt : BitVec.ofNat 5 j < w := by
      rw [BitVec.lt_def, BitVec.toNat_ofNat]
      exact lt_of_le_of_lt (Nat.mod_le ..) hj
    simpa using hbefore _ hlt
  rw [allWins, List.find?_map, hrange]
  simp

section
variable {s : Machine.State} {t : TileId} {offs : List Nat}

theorem winCheck_of_takes {w : WinIdx} (h : Takes s t w offs) : winCheck s t offs = .accept w := by
  obtain ⟨hopen, hcov, hfirst⟩ := h
  have hfind : allWins.find? (fun w => winIsOpen s t w && offs.all (winCovers s t w)) = some w := by
    refine allWins_find (by simpa [hopen] using hcov) fun k hk => ?_
    have := hfirst k hk
    rw [Bool.eq_false_iff]
    simpa using this
  rw [winCheck, hfind]

theorem winCheck_of_noWindow (hne : offs ≠ []) (h : NoWindow s t offs) : winCheck s t offs = .closed := by
  obtain ⟨o, l, rfl⟩ := List.exists_cons_of_ne_nil hne
  have hfind : allWins.find? (fun w => winIsOpen s t w && (o :: l).all (winCovers s t w)) = none := by
    refine List.find?_eq_none.mpr fun w _ => ?_
    cases ho : winIsOpen s t w
    · simp
    · simp [h w ho o List.mem_cons_self]
  have hany : allWins.any (fun w => winIsOpen s t w && (o :: l).any (winCovers s t w)) = false := by
    refine List.any_eq_false.mpr fun w _ => ?_
    cases ho : winIsOpen s t w
    · simp
    · have hn : (o :: l).any (winCovers s t w) = false := List.any_eq_false.mpr fun a ha => by simp [h w ho a ha]
      simp [hn]
  rw [winCheck, hfind]
  dsimp only
  rw [hany]
  rfl

end

/-- Bytes counted after an access that changed no register and no tile. -/
theorem counted_winAdd {s u : Machine.State} (t : TileId) (w : WinIdx) (n : Nat) (hr : u.regs = s.regs) (ht : u.tiles = s.tiles) :
    Counted s (winAdd t w n u) t w n := by
  have hne : R.WIN_COUNT t.toNat w.toNat ≠ R.FC_PROGRESS t.toNat := by
    have := w.isLt
    simp only [R.WIN_COUNT, R.FC_PROGRESS]
    omega
  have hraw : ∀ o, rraw u o = rraw s o := fun o => by rw [rraw, hr, rraw]
  have hregs : ∀ o, rraw (winAdd t w n u) o =
      rraw (rput (R.FC_PROGRESS t.toNat) 0 (rinc (R.WIN_COUNT t.toNat w.toNat) F.WIN_COUNT_COUNT n u)) o := by
    intro o
    unfold winAdd progress
    dsimp only
    split <;> rfl
  refine ⟨?_, ?_, fun o ho ho' => ?_, fun k hk => ?_⟩
  · rw [winCount, rget, hregs, ← rget, rget_rput_other _ _ _ hne, rget_rinc_same _ _ (by decide), rget, hraw]
    rfl
  · rw [hregs, rraw_rput_same]
    rfl
  · rw [hregs, rraw_rput_other _ _ ho', rinc, rraw_rset_other _ _ _ ho, hraw]
  · have htile : ∀ v, (setReopen t w v (rinc (R.WIN_COUNT t.toNat w.toNat) F.WIN_COUNT_COUNT n u)).tile k = u.tile k :=
      fun v => mget_mset_other _ _ _ (tile_toNat_ne hk)
    have hu : u.tile k = s.tile k := by rw [State.tile, ht, State.tile]
    unfold winAdd progress
    dsimp only
    split
    next p _ => exact (htile (some (p + n))).trans hu
    next => exact hu

theorem rdByte_winAdd (t : TileId) (w : WinIdx) (n a : Nat) (s : Machine.State) : rdByte (winAdd t w n s) a = rdByte s a := by
  unfold winAdd progress
  dsimp only
  split <;> rfl

/-! ### A write refused -/

section
variable (t : TileId) (offs : List Nat) (dev tile : Nat) (s : Machine.State)

/-- The closed windows that a refused write touches are marked LATE: nothing else changes. -/
theorem rraw_markLate {o : Nat} (ho : ∀ w : WinIdx, o ≠ R.WIN_CTL t.toNat w.toNat) (l : List WinIdx) (u : Machine.State) :
    rraw (l.foldl (fun s w => if !winIsOpen s t w && offs.any (winCovers s t w) then
      rset (R.WIN_CTL t.toNat w.toNat) F.WIN_CTL_LATE 1 s else s) u) o = rraw u o := by
  refine List.foldlRecOn (motive := fun v => rraw v o = rraw u o) _ _ rfl fun v hv w _ => ?_
  split
  · rw [rraw_rset_other _ _ _ (ho w), hv]
  · exact hv

theorem rraw_winLate {o : Nat} (ho : ∀ w : WinIdx, o ≠ R.WIN_CTL t.toNat w.toNat) (hl : o ≠ R.WIN_LAST_LATE t.toNat) :
    rraw (winLate t offs dev tile s) o = rraw (rinc (R.WIN_LATE t.toNat) F.WIN_LATE_COUNT 1 s) o := by
  rw [winLate, rraw_markLate t offs ho, rraw_rset_other _ _ _ hl, rraw_rset_other _ _ _ hl, rraw_rset_other _ _ _ hl,
    rraw_rset_other _ _ _ hl]

theorem winLate_count : rget (winLate t offs dev tile s) (R.WIN_LATE t.toNat) F.WIN_LATE_COUNT =
    satAdd F.WIN_LATE_COUNT.w (rget s (R.WIN_LATE t.toNat) F.WIN_LATE_COUNT) 1 := by
  have hctl : ∀ w : WinIdx, R.WIN_LATE t.toNat ≠ R.WIN_CTL t.toNat w.toNat := fun w => by
    have := w.isLt
    simp only [R.WIN_LATE, R.WIN_CTL]
    omega
  rw [rget, rraw_winLate t offs dev tile s hctl (by simp only [R.WIN_LATE, R.WIN_LAST_LATE]; omega), ← rget,
    rget_rinc_same _ _ (by decide)]

theorem winLate_winCount (w : WinIdx) : winCount (winLate t offs dev tile s) t w = winCount s t w := by
  have hw := w.isLt
  have hctl : ∀ k : WinIdx, R.WIN_COUNT t.toNat w.toNat ≠ R.WIN_CTL t.toNat k.toNat := fun k => by
    simp only [R.WIN_COUNT, R.WIN_CTL]
    omega
  rw [winCount, rget, rraw_winLate t offs dev tile s hctl (by simp only [R.WIN_COUNT, R.WIN_LAST_LATE]; omega), rinc,
    rraw_rset_other _ _ _ (by simp only [R.WIN_COUNT, R.WIN_LATE]; omega), ← rget, winCount]

theorem noRegs_winLate : noRegs (winLate t offs dev tile s) = noRegs s := by
  unfold winLate
  refine List.foldlRecOn (motive := fun v => noRegs v = noRegs s) _ _ ?_ fun v hv w _ => ?_
  · rw [noRegs_rset, noRegs_rset, noRegs_rset, noRegs_rset, noRegs_rinc]
  · split
    · rwa [noRegs_rset]
    · exact hv

end

/-! ### Bytes written -/

/-- Of cells at different addresses, each is what its address then reads. -/
theorem foldl_cell_of_nodup {cells : List (Nat × Byte)} (hn : (cells.map (·.1)).Nodup) {c : Nat × Byte} (hc : c ∈ cells) (b : Byte) :
    cells.foldl (fun b e => if c.1 = e.1 then e.2 else b) b = c.2 := by
  induction cells generalizing b with
  | nil => simp at hc
  | cons e l ih =>
    rw [List.map_cons, List.nodup_cons] at hn
    obtain ⟨hfresh, hn⟩ := hn
    rcases List.mem_cons.mp hc with rfl | hc
    · rw [List.foldl_cons, if_pos rfl]
      exact foldl_no_cell l _ (fun d hd heq => hfresh (List.mem_map.mpr ⟨d, hd, heq⟩)) _
    · rw [List.foldl_cons, ih hn hc]

theorem payload_map {β : Type} (bad : Bool) (cells : List (Nat × Byte)) (f : Nat → β) (s : Machine.State) :
    (payload bad cells s).1.map (fun c => f c.1) = cells.map (fun c => f c.1) := by
  cases bad with
  | false => rfl
  | true =>
    rw [payload, if_pos rfl, List.map_map]
    calc (cells.zipIdx.map fun p => f p.1.1) = (cells.zipIdx.map Prod.fst).map (fun c => f c.1) := by rw [List.map_map]; rfl
      _ = cells.map (fun c => f c.1) := by rw [List.zipIdx_map_fst]

theorem payload_address {bad : Bool} {cells : List (Nat × Byte)} {s : Machine.State} {e : Nat × Byte}
    (he : e ∈ (payload bad cells s).1) :
    ∃ c ∈ cells, c.1 = e.1 := by
  have hmem : e.1 ∈ (payload bad cells s).1.map (fun c => id c.1) := List.mem_map.mpr ⟨e, he, rfl⟩
  rw [payload_map] at hmem
  exact List.mem_map.mp hmem

theorem payload_length (bad : Bool) (cells : List (Nat × Byte)) (s : Machine.State) : (payload bad cells s).1.length = cells.length := by
  simpa using congrArg List.length (payload_map bad cells id s)

/-- A payload takes free bytes at most: the rest of the state is as it was. -/
theorem payload_state (bad : Bool) (cells : List (Nat × Byte)) (s : Machine.State) :
    ∃ k, (payload bad cells s).2 = { s with freeCtr := k } := by
  cases bad with
  | false => exact ⟨_, rfl⟩
  | true => exact ⟨_, rfl⟩

section
variable {t : TileId} {cells : List (Nat × Byte)} {s : Machine.State}

/-- A write that a window takes is made and counted. -/
theorem windowWrite_of_takes {w : WinIdx} (hg : ∀ c ∈ cells, addrOk s c.1 = true ∧ Clean s c.1)
    (hw : Takes s t w (cells.map (fun c => c.1 % 2 ^ 24))) (dev tile : Nat) :
    windowWrite t cells dev tile s = (.ok, winAdd t w cells.length (localWrite cells s).2) := by
  have hok : cells.all (fun c => addrOk s c.1) = true := List.all_eq_true.mpr fun c hc => (hg c hc).1
  have hlocal : localWrite cells s = memWrite cells s := by rw [localWrite, if_pos hok]
  have hstatus := (localWrite_good hg).1
  rw [hlocal] at hstatus ⊢
  simp only [windowWrite, hok, if_true, winCheck_of_takes hw, hstatus]

theorem windowWrite_of_noWindow (hok : ∀ c ∈ cells, addrOk s c.1 = true) (hne : cells ≠ [])
    (hw : NoWindow s t (cells.map (fun c => c.1 % 2 ^ 24))) (dev tile : Nat) :
    windowWrite t cells dev tile s = (.windowClosed, winLate t (cells.map (fun c => c.1 % 2 ^ 24)) dev tile s) := by
  have hall : cells.all (fun c => addrOk s c.1) = true := List.all_eq_true.mpr hok
  simp only [windowWrite, hall, if_true, winCheck_of_noWindow (by simpa using hne) hw]

end

theorem regs_of_onlyMem {s u : Machine.State} (h : OnlyMem s u) : u.regs = s.regs := by rw [← h.rest]

theorem tiles_of_onlyMem {s u : Machine.State} (h : OnlyMem s u) : u.tiles = s.tiles := by rw [← h.rest]

/-- The write of a request that a window takes: its bytes, or free ones for a spoilt payload. -/
theorem serveWrite_of_takes {x : Txn} {t : TileId} {cells : List (Nat × Byte)} {w : WinIdx} {s : Machine.State} (bad : Bool)
    (hn : (cells.map (·.1)).Nodup) (hg : ∀ c ∈ cells, addrOk s c.1 = true ∧ Clean s c.1)
    (hw : Takes s t w (cells.map (fun c => c.1 % 2 ^ 24))) :
    ∃ v, serveWrite bad x t cells s = (if bad then .faultEcc else .ok, [], v) ∧ Counted s v t w cells.length ∧
      (bad = false → ∀ c ∈ cells, rdByte v c.1 = c.2) ∧ ∀ a, (∀ c ∈ cells, c.1 ≠ a) → rdByte v a = rdByte s a := by
  obtain ⟨k, hk⟩ := payload_state bad cells s
  have hgood : ∀ e ∈ (payload bad cells s).1, addrOk (payload bad cells s).2 e.1 = true ∧ Clean (payload bad cells s).2 e.1 := by
    intro e he
    obtain ⟨c, hc, heq⟩ := payload_address he
    rw [hk, ← heq]
    exact hg c hc
  have htakes : Takes (payload bad cells s).2 t w ((payload bad cells s).1.map (fun c => c.1 % 2 ^ 24)) := by
    rw [hk, payload_map bad cells (· % 2 ^ 24)]
    exact hw
  obtain ⟨-, honly, hbyte⟩ := localWrite_good hgood
  refine ⟨winAdd t w cells.length (localWrite (payload bad cells s).1 (payload bad cells s).2).2, ?_, ?_, ?_, ?_⟩
  · rw [serveWrite, windowWrite_of_takes hgood htakes, payload_length]
    cases bad <;> rfl
  · refine counted_winAdd t w _ ((regs_of_onlyMem honly).trans ?_) ((tiles_of_onlyMem honly).trans ?_) <;> rw [hk]
  · rintro rfl c hc
    rw [rdByte_winAdd, hbyte]
    exact foldl_cell_of_nodup hn hc _
  · intro a ha
    rw [rdByte_winAdd, hbyte, foldl_no_cell _ _ fun e he => ?_, hk]
    · rfl
    · obtain ⟨c, hc, heq⟩ := payload_address he
      exact heq ▸ ha c hc

/-- A write that no window takes is refused, and its writer noted. -/
theorem serveWrite_of_noWindow {x : Txn} {t : TileId} {cells : List (Nat × Byte)} {s : Machine.State}
    (hok : ∀ c ∈ cells, addrOk s c.1 = true) (hne : cells ≠ []) (hw : NoWindow s t (cells.map (fun c => c.1 % 2 ^ 24))) :
    serveWrite false x t cells s = (.windowClosed, [],
      winLate t (cells.map (fun c => c.1 % 2 ^ 24)) (writerOf s x.iss).1 (writerOf s x.iss).2 s) := by
  rw [serveWrite, payload, if_neg Bool.false_ne_true, windowWrite_of_noWindow hok hne hw]
  rfl

/-! ### Atomic adds -/

theorem leNat_bytes (x n : Nat) : leNat ((List.range n).map (fun k => BitVec.ofNat 8 (x / 256 ^ k))) = x % 2 ^ (8 * n) := by
  induction n generalizing x with
  | zero => simp [leNat, Nat.mod_one]
  | succ n ih =>
    have hshift : (List.range n).map ((fun k => BitVec.ofNat 8 (x / 256 ^ k)) ∘ Nat.succ) =
        (List.range n).map (fun k => BitVec.ofNat 8 (x / 256 / 256 ^ k)) :=
      List.map_congr_left fun k _ => by rw [Function.comp_apply, Nat.div_div_eq_div_mul, pow_succ']
    rw [List.range_succ_eq_map, List.map_cons, List.map_map, hshift, leNat, ih, BitVec.toNat_ofNat, Nat.pow_zero, Nat.div_one,
      show 8 * (n + 1) = 8 + 8 * n by ring, pow_add, Nat.mod_mul]
    norm_num

/-- What `Stored` leaves as a number. -/
theorem memNat_of_bytes {u v : Machine.State} {la n x : Nat}
    (h : ∀ a, rdByte v a = if la ≤ a ∧ a < la + n then BitVec.ofNat 8 (x / 256 ^ (a - la)) else rdByte u a) :
    memNat v la n = x % 2 ^ (8 * n) := by
  rw [memNat, ← leNat_bytes, rdBytes]
  refine congrArg leNat (List.map_congr_left fun k hk => ?_)
  have hlt := List.mem_range.mp hk
  rw [h, if_pos (by omega), Nat.add_sub_cancel_left]

/-- The atomic add of a request that a window takes: of its operand, or of a free value for a spoilt payload. -/
theorem serveAadd_of_takes {x : Txn} {t : TileId} {a n la : Nat} {wide ret : Bool} {y : Word} {w : WinIdx} {s : Machine.State} (bad : Bool)
    (hn : n = if wide then 8 else 4) (hla : la = a / n * n) (hg : Sound s la n) (hp : ∀ o, place la ≠ .moraine o)
    (hw : Takes s t w ((List.range n).map (fun i => (la + i) % 2 ^ 24))) :
    ∃ v, serveAadd bad x t a wide y ret s = (if bad then .faultEcc else .ok, if ret && !bad then rdBytes s la n else [], v) ∧
      Counted s v t w n ∧ (bad = false → memNat v la n = (memNat s la n + y.toNat) % 2 ^ (8 * n)) ∧
      ∀ b, b < la ∨ la + n ≤ b → rdByte v b = rdByte s b := by
  have hpos : 0 < n := by cases wide <;> simp [hn]
  obtain ⟨z, k, hz, hzy⟩ : ∃ z k, (if bad then freeWord s else (y, s)) = (z, { s with freeCtr := k }) ∧
      (bad = false → z = y) := by
    cases bad with
    | false => exact ⟨y, s.freeCtr, rfl, fun _ => rfl⟩
    | true => exact ⟨_, _, rfl, nofun⟩
  obtain ⟨u, hst, hadd⟩ := localAadd_good (la := la) (wide := wide) (v := z) (u := { s with freeCtr := k }) hp
    (by rw [← hn, hla]; exact Dvd.intro_left _ rfl) (by rw [← hn]; exact hg)
  rw [← hn] at hst hadd
  have hbyte : ∀ b, rdByte (winAdd t w n u) b = if la ≤ b ∧ b < la + n then
      BitVec.ofNat 8 ((memNat s la n + z.toNat) / 256 ^ (b - la)) else rdByte s b :=
    fun b => (rdByte_winAdd ..).trans (hst.bytes b)
  refine ⟨winAdd t w n u, ?_, counted_winAdd t w n (regs_of_onlyMem (s := { s with freeCtr := k }) hst.only)
    (tiles_of_onlyMem (s := { s with freeCtr := k }) hst.only), ?_, ?_⟩
  · have hok : addrOk ({ s with freeCtr := k } : Machine.State) la = true := (hg 0 hpos).1
    have hcheck : winCheck ({ s with freeCtr := k } : Machine.State) t ((List.range n).map (fun i => (la + i) % 2 ^ 24)) = .accept w :=
      winCheck_of_takes hw
    rw [serveAadd, hz]
    simp only [windowAadd, ← hn, ← hla, hok, if_true, hcheck, hadd]
    cases bad <;> rfl
  · intro hbad
    rw [← hzy hbad]
    exact memNat_of_bytes hbyte
  · intro b hb
    rw [hbyte, if_neg (by omega)]

/-! ### The obligation -/

theorem meshRequestsServed : Claims.MeshRequestsServed := by
  intro id x t s h hs
  refine ⟨fun k n cnt hop hcnt he => ?_, fun hi bad => exec_remote_waits h hs hi bad, fun addrs hop hi hg => ?_,
    fun cells hop hi hn hg => ⟨fun w hw bad => ?_, fun hne hw => ?_⟩, fun a wide ret y n la w hop hi hn hla hg hp hw bad => ?_⟩
  · refine ⟨_, semPost_posted t n cnt s hcnt, ?_⟩
    rw [exec_semaphorePost h hop he, arrive_served hs (inTurn_of_post hop)]
  · rw [exec_remoteRead h hop, arrive_served hs hi, localRead_good hg]
  · obtain ⟨v, hv, hcount, hnew, hold⟩ := serveWrite_of_takes (x := x) bad hn hg hw
    refine ⟨v, ?_, hcount, hnew, hold⟩
    rw [exec_remoteWrite h bad hop, arrive_served hs hi, hv]
  · refine ⟨winLate t (cells.map (fun c => c.1 % 2 ^ 24)) (writerOf s x.iss).1 (writerOf s x.iss).2 s, ?_, winLate_count ..,
      fun w => winLate_winCount .., noRegs_winLate ..⟩
    rw [exec_remoteWrite h false hop, arrive_served hs hi, serveWrite_of_noWindow (fun c hc => (hg c hc).1) hne hw]
  · obtain ⟨v, hv, hcount, hnew, hold⟩ := serveAadd_of_takes (x := x) (ret := ret) bad hn hla hg hp hw
    refine ⟨v, ?_, hcount, hnew, hold⟩
    rw [exec_remoteAtomicAdd h bad hop, arrive_served hs hi, hv]

/-- The four commands that bring a request to a tile's router. -/
theorem exec_request_arrives {id : Nat} {x : Txn} {t k : TileId} {n : SemIdx} {cnt : Nat} {addrs : List Nat} {cells : List (Nat × Byte)}
    {a : Nat} {wide ret : Bool} {y : Word} {bad : Bool} {s : Machine.State} (h : Arriving s id x t) (he : s.enabled t = true)
    {p : Instr × MemOp} (hp : p ∈ [(Instr.semaphorePost id, MemOp.post k n cnt), (.remoteRead id, .read addrs),
      (.remoteWrite id bad, .write cells), (.remoteAtomicAdd id bad, .aadd a wide y ret)]) (hop : x.op = p.2) :
    ∃ serve, exec p.1 s = .next (arrive id x t serve s) := by
  simp only [List.mem_cons, List.not_mem_nil, or_false] at hp
  rcases hp with rfl | rfl | rfl | rfl
  · exact ⟨_, exec_semaphorePost h hop he⟩
  · exact ⟨_, exec_remoteRead h hop⟩
  · exact ⟨_, exec_remoteWrite h bad hop⟩
  · exact ⟨_, exec_remoteAtomicAdd h bad hop⟩

/-- Beside the request that is replaced, only registers differ. -/
theorem onlyRegs_putTxn {offs : List Nat} {id : Nat} {x : Txn} {s v : Machine.State} (h : OnlyRegs offs s v) :
    OnlyRegs offs s { putTxn id x v with txns := s.txns } :=
  ⟨congrArg (fun w : Machine.State => { w with txns := s.txns }) h.rest, h.regs⟩

theorem meshRequestsTurnedAway : Claims.MeshRequestsTurnedAway := by
  intro id x t k n cnt addrs cells a wide ret y bad s h
  refine ⟨fun p hp hop he => ?_, fun hop he => exec_semaphorePost_disabled h hop he⟩
  obtain ⟨serve, hserve⟩ := exec_request_arrives h he hp hop
  rw [hserve]
  refine ⟨fun hr => ⟨_, rfl, ?_, ?_, ?_⟩, fun hr hd => by rw [arrive_draining hr hd]⟩
  all_goals rw [arrive_unreached hr]
  · rfl
  · exact rget_rinc_same 1 s (by decide)
  · exact onlyRegs_putTxn (onlyRegs_rset _ _ (by simp) (.refl _ s))

/-- Settles O25: the requests a tile serves, then those it turns away. -/
theorem meshRequests : Obligations.MeshRequests := ⟨meshRequestsServed, meshRequestsTurnedAway⟩

end Sys2Proof
end

section
/-! The ledger: what it counts of the mesh, what a tick does, and what its events do. -/

namespace Sys2Proof

open Sys2Proof.Machine

/-! ### Hops and die edges -/

/-- The places passed from one coordinate to another, the first one left out (R20). -/
def meshSpan (a b : Nat) : List Nat :=
  if a ≤ b then (List.range (b - a)).map (a + 1 + ·) else (List.range (a - b)).map (a - 1 - ·)

theorem meshRoute_eq (t u : TileId) :
    meshRoute t u = (meshSpan (tileX t) (tileX u)).map (tileAt · (tileY t)) ++
      (meshSpan (tileY t) (tileY u)).map (tileAt (tileX u) ·) := rfl

theorem meshSpan_length (a b : Nat) : (meshSpan a b).length = apart a b := by
  unfold meshSpan apart
  split <;> simp <;> omega

theorem meshSpan_self (a : Nat) : meshSpan a a = [] := by simp [meshSpan]

theorem meshSpan_up {a b : Nat} (h : a < b) : meshSpan a b = (a + 1) :: meshSpan (a + 1) b := by
  obtain ⟨n, rfl⟩ : ∃ n, b = a + 1 + n := ⟨b - (a + 1), by omega⟩
  have e : a + 1 + n - a = n + 1 := by omega
  simp only [meshSpan, if_pos h.le, Nat.le_add_right, if_true, e, Nat.add_sub_cancel_left, List.range_succ_eq_map, List.map_cons,
    List.map_map]
  refine congrArg _ (List.map_congr_left fun i _ => ?_)
  simp only [Function.comp_apply]; omega

theorem meshSpan_down {a b : Nat} (h : b < a) : meshSpan a b = (a - 1) :: meshSpan (a - 1) b := by
  obtain ⟨n, rfl⟩ : ∃ n, a = b + n + 1 := ⟨a - b - 1, by omega⟩
  have e : b + n + 1 - b = n + 1 := by omega
  have e' : b + n + 1 - 1 = b + n := rfl
  rw [meshSpan, if_neg (by omega), e, e', List.range_succ_eq_map, List.map_cons, List.map_map]
  refine congrArg _ ?_
  rcases n with _ | n
  · simp [meshSpan]
  · rw [meshSpan, if_neg (by omega), show b + (n + 1) - b = n + 1 by omega]
    refine List.map_congr_left fun i _ => ?_
    simp only [Function.comp_apply]; omega

/-- The die edges crossed along a line of tiles whose dies change with every eighth place. -/
theorem edgesFrom_line {p : Nat → TileId} {k : Nat}
    (hp : ∀ a b, a < k → b < k → (tileDie (p a) = tileDie (p b) ↔ a / 8 = b / 8)) (rest : List TileId) {a b : Nat}
    (ha : a < k) (hb : b < k) :
    edgesFrom (p a) ((meshSpan a b).map p ++ rest) = apart (a / 8) (b / 8) + edgesFrom (p b) rest := by
  induction hn : apart a b generalizing a with
  | zero =>
    obtain rfl : a = b := by unfold apart at hn; omega
    simp [meshSpan_self, apart]
  | succ n ih =>
    unfold apart at hn
    rcases Nat.lt_or_ge a b with h | h
    · have hi := ih (a := a + 1) (by omega) (by unfold apart; omega)
      have hd := hp (a + 1) a (by omega) ha
      rw [meshSpan_up h, List.map_cons, List.cons_append, edgesFrom, hi]
      unfold apart
      split <;> omega
    · have hi := ih (a := a - 1) (by omega) (by unfold apart; omega)
      have hd := hp (a - 1) a (by omega) ha
      rw [meshSpan_down (by omega), List.map_cons, List.cons_append, edgesFrom, hi]
      unfold apart
      split <;> omega

theorem tileX_lt (t : TileId) : tileX t < 64 := by unfold tileX tileDie; omega

theorem tileY_lt (t : TileId) : tileY t < 32 := by have := t.isLt; unfold tileY tileDie; omega

theorem tileAt_tileX_tileY (t : TileId) : tileAt (tileX t) (tileY t) = t := by
  apply BitVec.eq_of_toNat_eq
  have := t.isLt
  unfold tileAt tileX tileY tileDie
  rw [BitVec.toNat_ofNat]; omega

theorem tileDie_tileAt {x y : Nat} (hx : x < 64) (hy : y < 32) : tileDie (tileAt x y) = y / 8 * 8 + x / 8 := by
  unfold tileDie tileAt
  rw [BitVec.toNat_ofNat]; omega

theorem meshHops_eq (t u : TileId) : meshHops t u = apart (tileX t) (tileX u) + apart (tileY t) (tileY u) := by
  simp [meshHops, meshRoute_eq, meshSpan_length]

theorem meshEdges_eq (t u : TileId) :
    meshEdges t u = apart (tileX t / 8) (tileX u / 8) + apart (tileY t / 8) (tileY u / 8) := by
  have hx := edgesFrom_line (p := (tileAt · (tileY t))) (k := 64)
    (fun a b ha hb => by rw [tileDie_tileAt ha (tileY_lt t), tileDie_tileAt hb (tileY_lt t)]; omega)
    ((meshSpan (tileY t) (tileY u)).map (tileAt (tileX u) ·)) (tileX_lt t) (tileX_lt u)
  have hy := edgesFrom_line (p := (tileAt (tileX u) ·)) (k := 32)
    (fun a b ha hb => by rw [tileDie_tileAt (tileX_lt u) ha, tileDie_tileAt (tileX_lt u) hb]; omega)
    [] (tileY_lt t) (tileY_lt u)
  simp only [tileAt_tileX_tileY, List.append_nil] at hx hy
  rw [meshEdges, meshRoute_eq, hx, hy, edgesFrom]; rfl

theorem portTile_eq (k x : Nat) :
    portTile k x = tileAt (max (8 * (k % 8)) (min x (8 * (k % 8) + 7))) (if k < 8 then 0 else 31) := by
  unfold portTile stackJoins
  by_cases h : k < 8
  · simp [h]
  · have e : (24 + (k - 8)) % 8 = k % 8 := by omega
    simp [h, e]

theorem meshCounts : Claims.MeshCounts := by
  intro m u hnone hsome
  have hu : moveEnd m = u := by
    unfold moveEnd
    cases hk : m.stack with
    | none => exact (hnone hk).symm
    | some k => exact (portTile_eq _ _).trans (hsome k hk).symm
  simp [tickCounts, moveCounts, hu, meshHops_eq, meshEdges_eq, ceilDiv]

/-! ### Registers and the ledger alone -/

/-- From `u` to `v` only the ledger and the registers `offs` may differ. -/
structure OnlyLedger (offs : List Nat) (u v : Machine.State) : Prop where
  rest : noLedger v = noLedger u
  regs : ∀ o, o ∉ offs → rraw v o = rraw u o

theorem OnlyLedger.refl (offs : List Nat) (u : Machine.State) : OnlyLedger offs u u := ⟨rfl, fun _ _ => rfl⟩

theorem OnlyLedger.trans {offs : List Nat} {u v w : Machine.State} (a : OnlyLedger offs u v) (b : OnlyLedger offs v w) :
    OnlyLedger offs u w :=
  ⟨b.rest.trans a.rest, fun o h => (b.regs o h).trans (a.regs o h)⟩

theorem OnlyLedger.mono {a b : List Nat} {u v : Machine.State} (h : OnlyLedger a u v) (hs : a ⊆ b) : OnlyLedger b u v :=
  ⟨h.rest, fun o ho => h.regs o (fun hx => ho (hs hx))⟩

theorem onlyLedger_rput {offs : List Nat} {o : Nat} (v : Nat) {u w : Machine.State} (ho : o ∈ offs) (h : OnlyLedger offs u w) :
    OnlyLedger offs u (rput o v w) :=
  h.trans ⟨rfl, fun _ hp => rraw_rput_other _ _ (fun e => hp (e ▸ ho))⟩

theorem onlyLedger_rset {offs : List Nat} {o : Nat} (f : Fld) (v : Nat) {u w : Machine.State} (ho : o ∈ offs)
    (h : OnlyLedger offs u w) : OnlyLedger offs u (rset o f v w) := onlyLedger_rput _ ho h

theorem onlyLedger_rinc {offs : List Nat} {o : Nat} (f : Fld) (n : Nat) {u w : Machine.State} (ho : o ∈ offs)
    (h : OnlyLedger offs u w) : OnlyLedger offs u (rinc o f n w) := onlyLedger_rset _ _ ho h

theorem onlyLedger_modLedger {offs : List Nat} (f : Ledger → Ledger) {u w : Machine.State} (h : OnlyLedger offs u w) :
    OnlyLedger offs u (w.modLedger f) := h.trans ⟨rfl, fun _ _ => rfl⟩

theorem OnlyLedger.rget {offs : List Nat} {u v : Machine.State} (h : OnlyLedger offs u v) {o : Nat} (f : Fld) (ho : o ∉ offs) :
    rget v o f = rget u o f := by
  unfold Machine.rget; rw [h.regs o ho]

@[simp] theorem rget_modLedger (s : Machine.State) (f : Ledger → Ledger) (o : Nat) (g : Fld) :
    rget (s.modLedger f) o g = rget s o g := rfl

@[simp] theorem ledger_modLedger (s : Machine.State) (f : Ledger → Ledger) : (s.modLedger f).ledger = f s.ledger := rfl

theorem onlyLedger_setDivider {offs : List Nat} (d : Nat) {u w : Machine.State} (h : OnlyLedger offs u w)
    (hs : R.LEDG_STATUS ∈ offs) (hc : R.LEDG_DIVCHG ∈ offs) : OnlyLedger offs u (setDivider d w) :=
  onlyLedger_rinc _ _ hc (onlyLedger_rset _ _ hs (onlyLedger_modLedger _ h))

theorem onlyLedger_requestVolt {offs : List Nat} (t : Nat) (g : Option Nat) {u w : Machine.State} (h : OnlyLedger offs u w)
    (hs : R.LEDG_STATUS ∈ offs) : OnlyLedger offs u (requestVolt t g w) :=
  onlyLedger_rset _ _ hs (onlyLedger_modLedger _ h)

theorem onlyLedger_endVolt {offs : List Nat} {u w : Machine.State} (h : OnlyLedger offs u w) (hs : R.LEDG_STATUS ∈ offs) :
    OnlyLedger offs u (endVolt w) :=
  onlyLedger_rset _ _ hs (onlyLedger_modLedger _ h)

/-! ### The fields of LEDG_STATUS -/

/-- A field of `LEDG_STATUS` beside one just written. -/
theorem status_rset_field {f g : Fld} (v : Nat) (s : Machine.State) (hg : g.lo + g.w ≤ 64)
    (h : g.lo + g.w ≤ f.lo ∨ f.lo + f.w ≤ g.lo) : rget (rset R.LEDG_STATUS f v s) R.LEDG_STATUS g = rget s R.LEDG_STATUS g :=
  rget_rset_field _ _ _ _ _ hg h

theorem ledgDiv_le (s : Machine.State) : ledgDiv s ≤ 3 := Nat.le_of_lt_succ (rget_lt s R.LEDG_STATUS F.LEDG_STATUS_DIV)

theorem setDivider_status (d : Nat) (s : Machine.State) (g : Fld) (hg : g.lo + g.w ≤ 64)
    (h : g.lo + g.w ≤ F.LEDG_STATUS_DIV.lo ∨ F.LEDG_STATUS_DIV.lo + F.LEDG_STATUS_DIV.w ≤ g.lo) :
    rget (setDivider d s) R.LEDG_STATUS g = rget s R.LEDG_STATUS g := by
  unfold setDivider rinc
  rw [rget_rset_other _ _ _ _ (by decide), rget_rset_field _ _ _ _ _ hg h, rget_modLedger]

theorem ledgDiv_setDivider {d : Nat} (hd : d ≤ 3) (s : Machine.State) : ledgDiv (setDivider d s) = d := by
  unfold ledgDiv setDivider rinc
  rw [rget_rset_other _ _ _ _ (by decide), rget_rset_same _ _ _ _ (by decide), Nat.mod_eq_of_lt]
  exact Nat.lt_succ_of_le hd

theorem countedUp_setDivider (d : Nat) (s : Machine.State) :
    CountedUp R.LEDG_DIVCHG F.LEDG_DIVCHG_COUNT s (setDivider d s) := by
  have h := countedUp_rinc (o := R.LEDG_DIVCHG) (f := F.LEDG_DIVCHG_COUNT)
    (rset R.LEDG_STATUS F.LEDG_STATUS_DIV d (s.modLedger (fun l => { l with hold := 0 }))) (by decide)
  unfold CountedUp at *
  rwa [rget_rset_other _ _ _ _ (by decide)] at h

@[simp] theorem ledger_setDivider (d : Nat) (s : Machine.State) : (setDivider d s).ledger = { s.ledger with hold := 0 } := rfl

/-- A voltage request shows CHANGING and leaves the other fields of `LEDG_STATUS`. -/
theorem requestVolt_status (t : Nat) (gl : Option Nat) (s : Machine.State) (g : Fld) (hg : g.lo + g.w ≤ 64)
    (h : g.lo + g.w ≤ F.LEDG_STATUS_CHANGING.lo ∨ F.LEDG_STATUS_CHANGING.lo + F.LEDG_STATUS_CHANGING.w ≤ g.lo) :
    rget (requestVolt t gl s) R.LEDG_STATUS g = rget s R.LEDG_STATUS g := by
  unfold requestVolt
  rw [rget_rset_field _ _ _ _ _ hg h, rget_modLedger]

theorem endVolt_status (s : Machine.State) (g : Fld) (hg : g.lo + g.w ≤ 64)
    (h : g.lo + g.w ≤ F.LEDG_STATUS_CHANGING.lo ∨ F.LEDG_STATUS_CHANGING.lo + F.LEDG_STATUS_CHANGING.w ≤ g.lo) :
    rget (endVolt s) R.LEDG_STATUS g = rget s R.LEDG_STATUS g := by
  unfold endVolt
  rw [rget_rset_field _ _ _ _ _ hg h, rget_modLedger]

theorem endVolt_other (s : Machine.State) (o : Nat) (g : Fld) (h : o ≠ R.LEDG_STATUS) : rget (endVolt s) o g = rget s o g := by
  unfold endVolt
  rw [rget_rset_other _ _ _ _ h, rget_modLedger]

theorem changing_endVolt (s : Machine.State) :
    rget (endVolt s) R.LEDG_STATUS F.LEDG_STATUS_CHANGING = b2n s.ledger.next.isSome := by
  unfold endVolt
  rw [rget_rset_same _ _ _ _ (by decide), ledger_modLedger]
  cases s.ledger.next <;> rfl

@[simp] theorem ledger_endVolt (s : Machine.State) : (endVolt s).ledger =
    { s.ledger with volt := s.ledger.next, next := none, goal := none, tries := 0 } := rfl

/-! ### RECONCILE, AVS_VDONE, AVS_ATTEMPT_TIMEOUT and TAG_CLR -/

theorem reconcile_none {s : Machine.State} (hon : s.domOn (hostCtl s) = true) :
    exec (.reconcile none) s = .next { s with ledger := { s.ledger with silicon := 0 } } := by
  change execReconcile none s = _
  simp [execReconcile, hon, State.modLedger]

/-- The ledger's own part of a reconciliation: the measured energy counted, the silicon count begun again. -/
def energyMeasured (x : BitVec 64) (s : Machine.State) : Machine.State :=
  rinc R.LEDG_EMEAS F.LEDG_EMEAS_E ((s.ledger.measRem + x.toNat) / 16000)
    { s with ledger := { s.ledger with silicon := 0, measRem := (s.ledger.measRem + x.toNat) % 16000 } }

theorem ledgRecon_energyMeasured (x : BitVec 64) (s : Machine.State) : ledgRecon (energyMeasured x s) = ledgRecon s := by
  unfold ledgRecon energyMeasured rinc
  rw [rget_rset_other _ _ _ _ (by decide)]; rfl

theorem reconcile_some {x : BitVec 64} {s : Machine.State} (hon : s.domOn (hostCtl s) = true) (hk : s.ledger.silicon ≠ 0) :
    exec (.reconcile (some x)) s = .next (rset R.LEDG_RECON F.LEDG_RECON_FACTOR
      (min 8192 (max 2048 (approach (ledgRecon s) (4096 * x.toNat / s.ledger.silicon) 16))) (energyMeasured x s)) := by
  rw [← ledgRecon_energyMeasured x s]
  change execReconcile (some x) s = _
  simp only [execReconcile, hon, if_true, if_neg hk, energyMeasured, State.modLedger]

theorem reconcileMeets (x : BitVec 64) {s : Machine.State} (hon : s.domOn (hostCtl s) = true) (hk : s.ledger.silicon ≠ 0) :
    ∃ v, exec (.reconcile (some x)) s = .next v ∧
      rget v R.LEDG_RECON F.LEDG_RECON_FACTOR =
        min 8192 (max 2048 (approach (ledgRecon s) (4096 * x.toNat / s.ledger.silicon) 16)) ∧
      rget v R.LEDG_EMEAS F.LEDG_EMEAS_E =
        min (rget s R.LEDG_EMEAS F.LEDG_EMEAS_E + (s.ledger.measRem + x.toNat) / 16000) (2 ^ 64 - 1) ∧
      v.ledger = { s.ledger with silicon := 0, measRem := (s.ledger.measRem + x.toNat) % 16000 } ∧ noLedger v = noLedger s ∧
      ∀ o, o ∉ [R.LEDG_RECON, R.LEDG_EMEAS] → rraw v o = rraw s o := by
  refine ⟨_, reconcile_some hon hk, ?_, ?_, rfl, ?_⟩
  · rw [rget_rset_same _ _ _ _ (by decide), Nat.mod_eq_of_lt]
    change min 8192 _ < 65536
    omega
  · rw [rget_rset_other _ _ _ _ (by decide)]
    exact rget_rinc_same _ _ (by decide)
  · have h : OnlyLedger [R.LEDG_RECON, R.LEDG_EMEAS] s { s with ledger :=
        { s.ledger with silicon := 0, measRem := (s.ledger.measRem + x.toNat) % 16000 } } := ⟨rfl, fun _ _ => rfl⟩
    have h' := onlyLedger_rset (o := R.LEDG_RECON) F.LEDG_RECON_FACTOR
      (min 8192 (max 2048 (approach (ledgRecon s) (4096 * x.toNat / s.ledger.silicon) 16))) (by decide)
      (onlyLedger_rinc (o := R.LEDG_EMEAS) F.LEDG_EMEAS_E ((s.ledger.measRem + x.toNat) / 16000) (by decide) h)
    exact ⟨h'.rest, h'.regs⟩

theorem avs_idle {s : Machine.State} (hv : s.ledger.volt = none) :
    ∀ c ∈ [Instr.avsVdone, .avsAttemptTimeout], exec c s = .next s := by
  intro c hc
  obtain rfl | rfl : c = .avsVdone ∨ c = .avsAttemptTimeout := by simpa using hc
  · change execAvsVdone s = _
    simp [execAvsVdone, hv]
  · change execAvsAttemptTimeout s = _
    simp [execAvsAttemptTimeout, hv]

/-- The requested voltage is reached. -/
def voltReached (t : Nat) (s : Machine.State) : Machine.State := s.modLedger (fun l => { l with vdd := t })

theorem avsVdone_goal {s : Machine.State} {t d : Nat} (hv : s.ledger.volt = some t) (hg : s.ledger.goal = some d) :
    exec .avsVdone s = .next (endVolt (setDivider d (voltReached t s))) := by
  change execAvsVdone s = _
  simp only [execAvsVdone, hv, voltReached, ledger_modLedger, hg]

theorem avsVdone_noGoal {s : Machine.State} {t : Nat} (hv : s.ledger.volt = some t) (hg : s.ledger.goal = none) :
    exec .avsVdone s = .next (endVolt (voltReached t s)) := by
  change execAvsVdone s = _
  simp only [execAvsVdone, hv, voltReached, ledger_modLedger, hg]

theorem avsVdoneGoalMeets {s : Machine.State} {t d : Nat} (hv : s.ledger.volt = some t) (hg : s.ledger.goal = some d)
    (hd : d ≤ 3) :
    ∃ v, exec .avsVdone s = .next v ∧ ledgDiv v = d ∧
      CountedUp R.LEDG_DIVCHG F.LEDG_DIVCHG_COUNT s v ∧
      rget v R.LEDG_STATUS F.LEDG_STATUS_CHANGING = b2n s.ledger.next.isSome ∧
      v.ledger = { s.ledger with volt := s.ledger.next, next := none, goal := none, tries := 0, hold := 0, vdd := t } ∧
      noLedger v = noLedger s ∧ ∀ o, o ∉ [R.LEDG_STATUS, R.LEDG_DIVCHG] → rraw v o = rraw s o := by
  have hf : OnlyLedger [R.LEDG_STATUS, R.LEDG_DIVCHG] s (endVolt (setDivider d (voltReached t s))) :=
    onlyLedger_endVolt (onlyLedger_setDivider d (onlyLedger_modLedger _ (.refl _ s)) (by decide) (by decide)) (by decide)
  refine ⟨_, avsVdone_goal hv hg, ?_, ?_, changing_endVolt _, rfl, hf.rest, hf.regs⟩
  · exact (endVolt_status _ _ (by decide) (by decide)).trans (ledgDiv_setDivider hd _)
  · have h := countedUp_setDivider d (voltReached t s)
    unfold CountedUp at *
    rw [endVolt_other _ _ _ (by decide), h]; rfl

theorem avsVdoneNoGoalMeets {s : Machine.State} {t : Nat} (hv : s.ledger.volt = some t) (hg : s.ledger.goal = none) :
    ∃ v, exec .avsVdone s = .next v ∧ ledgDiv v = ledgDiv s ∧
      v.ledger = { s.ledger with volt := s.ledger.next, next := none, goal := none, tries := 0, vdd := t } ∧
      noLedger v = noLedger s ∧ ∀ o, o ≠ R.LEDG_STATUS → rraw v o = rraw s o := by
  have hf : OnlyLedger [R.LEDG_STATUS] s (endVolt (voltReached t s)) :=
    onlyLedger_endVolt (onlyLedger_modLedger _ (.refl _ s)) (by decide)
  exact ⟨_, avsVdone_noGoal hv hg, endVolt_status _ _ (by decide) (by decide), rfl, hf.rest,
    fun o ho => hf.regs o (by simpa using ho)⟩

/-- A failed attempt counted. -/
def attemptFailed (s : Machine.State) : Machine.State :=
  rinc R.LEDG_AVS_ERR F.LEDG_AVS_ERR_COUNT 1 (s.modLedger (fun l => { l with tries := l.tries + 1 }))

theorem countedUp_attemptFailed (s : Machine.State) :
    CountedUp R.LEDG_AVS_ERR F.LEDG_AVS_ERR_COUNT s (attemptFailed s) :=
  countedUp_rinc (s.modLedger (fun l => { l with tries := l.tries + 1 })) (by decide)

theorem onlyLedger_attemptFailed {offs : List Nat} (s : Machine.State) (h : R.LEDG_AVS_ERR ∈ offs) :
    OnlyLedger offs s (attemptFailed s) := onlyLedger_rinc _ _ h (onlyLedger_modLedger _ (.refl _ s))

theorem avsAttemptTimeout_retry {s : Machine.State} {t : Nat} (hv : s.ledger.volt = some t) (h : s.ledger.tries < 2) :
    exec .avsAttemptTimeout s = .next (attemptFailed s) := by
  have h' : (attemptFailed s).ledger.tries < 3 := Nat.succ_lt_succ h
  change execAvsAttemptTimeout s = _
  simp only [execAvsAttemptTimeout, hv]
  exact congrArg Host.Outcome.next (if_pos h')

/-- The third failure: AVS_FAIL, the rail where the free value has it, and the alert. -/
def voltFailed (t : Nat) (s : Machine.State) : Machine.State :=
  alert 4 (rset R.LEDG_STATUS F.LEDG_STATUS_AVS_FAIL 1
    ((freeWord s).2.modLedger (fun l => { l with vdd := if (freeWord s).1.getLsbD 0 then t else l.vdd })))

theorem avsAttemptTimeout_giveUp {s : Machine.State} {t : Nat} (hv : s.ledger.volt = some t) (h : 2 ≤ s.ledger.tries) :
    exec .avsAttemptTimeout s = .next (endVolt (voltFailed t (attemptFailed s))) := by
  have h' : ¬ (attemptFailed s).ledger.tries < 3 := by
    change ¬ s.ledger.tries + 1 < 3; omega
  change execAvsAttemptTimeout s = _
  simp only [execAvsAttemptTimeout, hv]
  exact congrArg Host.Outcome.next (if_neg h')

/-- With no receiver an alert only sets its bit. -/
theorem alert_of_no_receiver (n : Nat) {s : Machine.State} (h : s.mgmt.receiver = none) :
    alert n s = rset R.MGMT_ALERT F.MGMT_ALERT_EVENTS ((rget s R.MGMT_ALERT F.MGMT_ALERT_EVENTS).lor (2 ^ n)) s := by
  simp [alert, h]

/-- The rail after a third failure: AVS_FAIL shown, and the voltage the free value says. -/
def railFailed (t : Nat) (s : Machine.State) : Machine.State :=
  rset R.LEDG_STATUS F.LEDG_STATUS_AVS_FAIL 1
    ((freeWord s).2.modLedger (fun l => { l with vdd := if (freeWord s).1.getLsbD 0 then t else l.vdd }))

theorem voltFailed_of_no_receiver (t : Nat) {s : Machine.State} (h : s.mgmt.receiver = none) :
    voltFailed t s = rset R.MGMT_ALERT F.MGMT_ALERT_EVENTS ((rget s R.MGMT_ALERT F.MGMT_ALERT_EVENTS).lor (2 ^ 4))
      (railFailed t s) := by
  have ha : rget (railFailed t s) R.MGMT_ALERT F.MGMT_ALERT_EVENTS = rget s R.MGMT_ALERT F.MGMT_ALERT_EVENTS :=
    rget_rset_other _ _ _ _ (by decide)
  rw [← ha]
  exact alert_of_no_receiver 4 (s := railFailed t s) h

theorem voltFailed_frame (t : Nat) {s : Machine.State} (h : s.mgmt.receiver = none) :
    OnlyLedger [R.LEDG_STATUS, R.MGMT_ALERT] { s with freeCtr := s.freeCtr + 1 } (voltFailed t s) := by
  rw [voltFailed_of_no_receiver t h]
  exact onlyLedger_rset _ _ (by decide) (onlyLedger_rset _ _ (by decide) (onlyLedger_modLedger _ (.refl _ _)))

theorem voltFailed_status (t : Nat) {s : Machine.State} (h : s.mgmt.receiver = none) (g : Fld) :
    rget (voltFailed t s) R.LEDG_STATUS g = rget (railFailed t s) R.LEDG_STATUS g := by
  rw [voltFailed_of_no_receiver t h, rget_rset_other _ _ _ _ (by decide)]

theorem ledger_voltFailed (t : Nat) {s : Machine.State} (h : s.mgmt.receiver = none) :
    (voltFailed t s).ledger = { s.ledger with vdd := if (freeWord s).1.getLsbD 0 then t else s.ledger.vdd } := by
  rw [voltFailed_of_no_receiver t h]; rfl

/-- The alert of the third failure stands, whatever else MGMT_ALERT held. -/
theorem voltFailed_alerts (t : Nat) {s : Machine.State} (h : s.mgmt.receiver = none) :
    bit (rget (voltFailed t s) R.MGMT_ALERT F.MGMT_ALERT_EVENTS) 4 = true := by
  rw [voltFailed_of_no_receiver t h, rget_rset_same _ _ _ _ (by decide), bit, Nat.testBit_mod_two_pow]
  have hb : Nat.testBit (2 ^ 4) 4 = true := by decide
  have ho : (Nat.lor (rget s R.MGMT_ALERT F.MGMT_ALERT_EVENTS) (2 ^ 4)).testBit 4 = true := by
    rw [show ∀ a b : Nat, Nat.lor a b = a ||| b from fun _ _ => rfl, Nat.testBit_or, hb, Bool.or_true]
  rw [ho]; rfl

theorem avsGiveUpMeets {s : Machine.State} {t : Nat} (hv : s.ledger.volt = some t) (h2 : 2 ≤ s.ledger.tries)
    (hr : s.mgmt.receiver = none) :
    ∃ v, exec .avsAttemptTimeout s = .next v ∧
      CountedUp R.LEDG_AVS_ERR F.LEDG_AVS_ERR_COUNT s v ∧ avsFail v = true ∧ v.ledger.volt = s.ledger.next ∧
      ledgDiv v = ledgDiv s ∧ (v.ledger.vdd = t ∨ v.ledger.vdd = s.ledger.vdd) ∧
      bit (rget v R.MGMT_ALERT F.MGMT_ALERT_EVENTS) 4 = true ∧ noLedger v = noLedger { s with freeCtr := v.freeCtr } ∧
      ∀ o, o ∉ [R.LEDG_AVS_ERR, R.LEDG_STATUS, R.MGMT_ALERT] → rraw v o = rraw s o := by
  refine ⟨_, avsAttemptTimeout_giveUp hv h2, ?_⟩
  have hr' : (attemptFailed s).mgmt.receiver = none := hr
  have hf : OnlyLedger [R.LEDG_AVS_ERR, R.LEDG_STATUS, R.MGMT_ALERT] { s with freeCtr := s.freeCtr + 1 }
      (endVolt (voltFailed t (attemptFailed s))) := by
    have ha : OnlyLedger [R.LEDG_AVS_ERR, R.LEDG_STATUS, R.MGMT_ALERT] { s with freeCtr := s.freeCtr + 1 }
        (attemptFailed { s with freeCtr := s.freeCtr + 1 }) := onlyLedger_attemptFailed _ (by decide)
    exact onlyLedger_endVolt (ha.trans ((voltFailed_frame t hr').mono (by decide))) (by decide)
  have hl := ledger_voltFailed t hr'
  refine ⟨?_, ?_, ?_, ?_, ?_, ?_, ?_, hf.regs⟩
  · have h := countedUp_attemptFailed s
    unfold CountedUp at *
    rw [endVolt_other _ _ _ (by decide), (voltFailed_frame t hr').rget _ (by decide)]
    exact h
  · rw [avsFail, rbit, endVolt_status _ _ (by decide) (by decide), voltFailed_status t hr', railFailed,
      rget_rset_same _ _ _ _ (by decide)]
    rfl
  · rw [ledger_endVolt, hl]; rfl
  · rw [ledgDiv, endVolt_status _ _ (by decide) (by decide), voltFailed_status t hr', railFailed,
      rget_rset_field _ _ _ _ _ (by decide) (by decide)]
    exact (onlyLedger_attemptFailed (offs := [R.LEDG_AVS_ERR]) s (by decide)).rget _ (by decide)
  · rw [ledger_endVolt, hl]
    cases (freeWord (attemptFailed s)).1.getLsbD 0
    · exact .inr rfl
    · exact .inl rfl
  · rw [endVolt_other _ _ _ (by decide)]
    exact voltFailed_alerts t hr'
  · have hn : (endVolt (voltFailed t (attemptFailed s))).freeCtr = s.freeCtr + 1 := congrArg (·.freeCtr) hf.rest
    rw [hn]
    exact hf.rest

theorem ledgerEvents : Claims.LedgerEvents := by
  intro x s k d t nx
  refine ⟨fun hon => ⟨reconcile_none hon, ?_⟩, avs_idle, ?_, ?_, fun hv => ⟨fun h2 => ?_, avsGiveUpMeets hv⟩,
    fun h => ?_⟩
  · rintro rfl hk
    exact reconcileMeets x hon hk
  · rintro hv hg hd rfl
    exact avsVdoneGoalMeets hv hg hd
  · rintro hv hg rfl
    exact avsVdoneNoGoalMeets hv hg
  · have hf := onlyLedger_attemptFailed (offs := [R.LEDG_AVS_ERR]) s (by decide)
    exact ⟨_, avsAttemptTimeout_retry hv h2, countedUp_attemptFailed s, rfl, hf.rest, fun o ho => hf.regs o (by simpa using ho)⟩
  · exact congrArg Host.Outcome.next (hostWrite_of_reaches tagClr h)

/-! ### Upsets -/

theorem upset_ecc (x : Upset) (s : Machine.State) : ∃ e, upset x s = { s with ecc := e } := by
  unfold upset
  split
  · exact ⟨_, rfl⟩
  · exact ⟨_, rfl⟩
  · exact ⟨s.ecc, rfl⟩

/-- Memory errors leave all but the error marks. -/
theorem upsets_ecc (ups : List Upset) (s : Machine.State) : ∃ e, ups.foldl (fun s x => upset x s) s = { s with ecc := e } := by
  induction ups generalizing s with
  | nil => exact ⟨s.ecc, rfl⟩
  | cons x ups ih =>
    obtain ⟨e, he⟩ := upset_ecc x s
    obtain ⟨e', he'⟩ := ih { s with ecc := e }
    exact ⟨e', by rw [List.foldl_cons, he, he']⟩

/-! ### Counting and the balance -/

/-- The state a tick balances: one tick further from the last divider change, no tag work. -/
def holdRaised (u : Machine.State) : Machine.State := u.modLedger (fun l => { l with hold := l.hold + 1 })

theorem modLedger_of_fixed {f : Ledger → Ledger} {s : Machine.State} (h : f s.ledger = s.ledger) : s.modLedger f = s := by
  unfold State.modLedger; rw [h]

theorem passTags_of_none {u : Machine.State} (hd : u.ledger.done = []) (ht : u.ledger.tagClr = false) : passTags u = u := by
  have hu : u.modLedger (fun l => { l with done := [], tagClr := false }) = u :=
    modLedger_of_fixed (by rw [← hd, ← ht])
  simp only [passTags, ht, Bool.false_eq_true, if_false, hd, List.foldl_nil, hu]

theorem attributeUse_of_unowned {counts : List EventCount} (h : ∀ e ∈ counts, e.owner = none) (s : Machine.State) :
    attributeUse counts s = s := by
  have hn : counts.filterMap (·.owner) = [] := List.filterMap_eq_nil_iff.mpr h
  simp [attributeUse, hn]

/-- A tick's refill (R386). -/
def tickGain (u : Machine.State) : Nat :=
  min 5000 u.ledger.budget * 10 ^ 4 * (refill u (ledgMode u) (rget u R.LEDG_STATUS F.LEDG_STATUS_TJ_MAX)).1 /
    (refill u (ledgMode u) (rget u R.LEDG_STATUS F.LEDG_STATUS_TJ_MAX)).2

/-- A tick's energy counted, with what counting in units of 16 µJ leaves over. -/
def energyCounted (counts : List EventCount) (u : Machine.State) : Machine.State :=
  rinc R.LEDG_ECOUNT F.LEDG_ECOUNT_E ((u.ledger.inRem + tickInput u counts) / 16000)
    (u.modLedger (fun l => { l with
      silicon := l.silicon + (countsFj u counts + staticFj u) / 10 ^ 6
      inRem := (u.ledger.inRem + tickInput u counts) % 16000 }))

/-- The state after a tick's counts that belong to no command. -/
def tickBalanced (counts : List EventCount) (u : Machine.State) : Machine.State :=
  setBal (u.ledger.bal + tickGain u - tickInput u counts) (energyCounted counts u)

theorem ledger_energyCounted (counts : List EventCount) (u : Machine.State) :
    (energyCounted counts u).ledger = { u.ledger with
      silicon := u.ledger.silicon + (countsFj u counts + staticFj u) / 10 ^ 6
      inRem := (u.ledger.inRem + tickInput u counts) % 16000 } := by
  rw [energyCounted, ledger_of_rinc, ledger_modLedger]

theorem passBalance_of_unowned {counts : List EventCount} (h : ∀ e ∈ counts, e.owner = none) (u : Machine.State) :
    passBalance counts u = tickBalanced counts u := by
  simp only [passBalance, attributeUse_of_unowned h, tickBalanced, energyCounted, tickGain, tickInput, ledger_of_rinc, ledger_modLedger]

theorem onlyLedger_tickBalanced (counts : List EventCount) (u : Machine.State) :
    OnlyLedger [R.LEDG_ECOUNT, R.LEDG_BAL] u (tickBalanced counts u) :=
  onlyLedger_rput _ (by decide) (onlyLedger_modLedger _ (onlyLedger_rinc _ _ (by decide) (onlyLedger_modLedger _ (.refl _ u))))

theorem ledger_setBal (b : Int) (s : Machine.State) :
    (setBal b s).ledger = { s.ledger with bal := max (-(2 ^ 31 * 16000)) (min (capNj s) b) } := by
  rw [setBal, ledger_of_rput, ledger_modLedger]

theorem capNj_energyCounted (counts : List EventCount) (u : Machine.State) : capNj (energyCounted counts u) = capNj u := by
  rw [capNj, capNj, ledger_energyCounted]

theorem ledger_tickBalanced (counts : List EventCount) (u : Machine.State) :
    (tickBalanced counts u).ledger = { (energyCounted counts u).ledger with bal := tickBalance u counts } := by
  rw [tickBalanced, ledger_setBal, capNj_energyCounted]
  simp only [tickBalance, tickGain]

theorem bal_tickBalanced (counts : List EventCount) (u : Machine.State) : (tickBalanced counts u).ledger.bal = tickBalance u counts := by
  rw [ledger_tickBalanced]

theorem reserve_tickBalanced (counts : List EventCount) (u : Machine.State) :
    (tickBalanced counts u).ledger.reserve = u.ledger.reserve := by
  rw [ledger_tickBalanced, ledger_energyCounted]

theorem defer_tickBalanced (counts : List EventCount) (u : Machine.State) : (tickBalanced counts u).ledger.defer = u.ledger.defer := by
  rw [ledger_tickBalanced, ledger_energyCounted]

theorem ecount_tickBalanced (counts : List EventCount) (u : Machine.State) :
    rget (tickBalanced counts u) R.LEDG_ECOUNT F.LEDG_ECOUNT_E =
      min (rget u R.LEDG_ECOUNT F.LEDG_ECOUNT_E + (u.ledger.inRem + tickInput u counts) / 16000) (2 ^ 64 - 1) := by
  have hw : F.LEDG_ECOUNT_E.w = 64 := rfl
  rw [tickBalanced, setBal, energyCounted, rget_rput_other _ _ _ (by decide), rget_modLedger, rget_rinc_same _ _ (by decide), satAdd, hw,
    rget_modLedger]

theorem tickBalance_holdRaised (u : Machine.State) (counts : List EventCount) :
    tickBalance (holdRaised u) counts = tickBalance u counts := rfl

theorem tickInput_holdRaised (u : Machine.State) (counts : List EventCount) : tickInput (holdRaised u) counts = tickInput u counts := rfl

/-! ### Registers that admission reads -/

theorem ledgExpert_only {offs : List Nat} {u v : Machine.State} (h : OnlyLedger offs u v) (ho : R.LEDG_CTL ∉ offs) :
    ledgExpert v = ledgExpert u := by
  unfold ledgExpert rbit; rw [h.rget _ ho]

theorem thermHard_only {offs : List Nat} {u v : Machine.State} (h : OnlyLedger offs u v) (ho : R.LEDG_CTL ∉ offs)
    (ht : R.LEDG_THERM ∉ offs) : thermHard v = thermHard u := by
  unfold thermHard; rw [ledgExpert_only h ho, h.rget _ ht]

theorem thermSoft_only {offs : List Nat} {u v : Machine.State} (h : OnlyLedger offs u v) (ho : R.LEDG_CTL ∉ offs)
    (ht : R.LEDG_THERM ∉ offs) : thermSoft v = thermSoft u := by
  unfold thermSoft; rw [ledgExpert_only h ho, thermHard_only h ho ht, h.rget _ ht]

theorem ledgFixed_only {offs : List Nat} {u v : Machine.State} (h : OnlyLedger offs u v) (ho : R.LEDG_CTL ∉ offs) :
    ledgFixed v = ledgFixed u := by
  unfold ledgFixed rbit; rw [ledgExpert_only h ho, h.rget _ ho]

theorem nextMode_tickBalanced (counts : List EventCount) (u : Machine.State) (tj : Nat) (brake : Bool) :
    nextMode (tickBalanced counts u) (ledgMode (tickBalanced counts u)) tj brake = tickMode u counts tj brake := by
  have h := onlyLedger_tickBalanced counts u
  have hm : ledgMode (tickBalanced counts u) = ledgMode u := h.rget _ (by decide)
  have hh := thermHard_only h (by decide) (by decide)
  have hs := thermSoft_only h (by decide) (by decide)
  have e : ∀ l, thermHard { u with ledger := l } = thermHard u ∧ thermSoft { u with ledger := l } = thermSoft u :=
    fun _ => ⟨rfl, rfl⟩
  simp only [tickMode, nextMode, hm, hh, hs, bal_tickBalanced, reserve_tickBalanced, e]

theorem nextMode_le (s : Machine.State) (was tj : Nat) (brake : Bool) : nextMode s was tj brake ≤ 3 := by
  rw [nextMode]
  split
  · decide
  · split
    · decide
    · split <;> decide

/-! ### Slowing down and voltage requests -/

/-- The fields of `LEDG_STATUS` that neither a divider change nor a voltage request writes. -/
def Aside (g : Fld) : Prop := g.lo + g.w ≤ 64 ∧ (g.lo + g.w ≤ 2 ∨ 5 ≤ g.lo)

/-- From `u` to `v` the divider has slowed or stays, and at most a voltage was asked for. -/
structure Slowed (u v : Machine.State) : Prop where
  only : OnlyLedger [R.LEDG_STATUS, R.LEDG_DIVCHG] u v
  bal : v.ledger.bal = u.ledger.bal
  div : ledgDiv u ≤ ledgDiv v
  rest : ∀ g, Aside g → rget v R.LEDG_STATUS g = rget u R.LEDG_STATUS g

theorem Slowed.refl (u : Machine.State) : Slowed u u := ⟨.refl _ _, rfl, le_rfl, fun _ _ => rfl⟩

theorem Slowed.trans {u v w : Machine.State} (a : Slowed u v) (b : Slowed v w) : Slowed u w :=
  ⟨a.only.trans b.only, b.bal.trans a.bal, a.div.trans b.div, fun g hg => (b.rest g hg).trans (a.rest g hg)⟩

theorem ledgDiv_requestVolt (t : Nat) (g : Option Nat) (s : Machine.State) : ledgDiv (requestVolt t g s) = ledgDiv s :=
  requestVolt_status t g s _ (by decide) (by decide)

theorem bal_requestVolt (t : Nat) (g : Option Nat) (s : Machine.State) :
    (requestVolt t g s).ledger.bal = s.ledger.bal := by
  unfold requestVolt
  rw [ledger_of_rset, ledger_modLedger]
  split <;> rfl

theorem slowed_requestVolt (t : Nat) (g : Option Nat) (s : Machine.State) : Slowed s (requestVolt t g s) where
  only := onlyLedger_requestVolt _ _ (.refl _ s) (by decide)
  bal := bal_requestVolt t g s
  div := (ledgDiv_requestVolt t g s).ge
  rest := fun f hf => requestVolt_status _ _ _ _ hf.1 (hf.2.imp (fun h => h.trans (by decide)) (fun h => h))

theorem slowed_setDivider {d : Nat} (hd : d ≤ 3) {s : Machine.State} (h : ledgDiv s ≤ d) : Slowed s (setDivider d s) where
  only := onlyLedger_setDivider d (.refl _ s) (by decide) (by decide)
  bal := by rw [ledger_setDivider]
  div := by rw [ledgDiv_setDivider hd]; exact h
  rest := fun f hf => setDivider_status _ _ _ hf.1 (hf.2.imp (fun h => h) (fun h => le_trans (by decide) h))

theorem slowTo_of_le {d : Nat} {s : Machine.State} (h : d ≤ ledgDiv s) : slowTo d s = s := if_pos h

theorem slowed_slowTo {d : Nat} (hd : d ≤ 3) (s : Machine.State) : Slowed s (slowTo d s) := by
  by_cases h : d ≤ ledgDiv s
  · rw [slowTo_of_le h]; exact .refl s
  · rw [slowTo, if_neg h]
    exact (slowed_setDivider hd (by omega)).trans (slowed_requestVolt _ _ _)

theorem ledgDiv_slowTo {d : Nat} (hd : d ≤ 3) (s : Machine.State) : ledgDiv (slowTo d s) = max d (ledgDiv s) := by
  by_cases h : d ≤ ledgDiv s
  · rw [slowTo_of_le h, max_eq_right h]
  · rw [slowTo, if_neg h, ledgDiv_requestVolt, ledgDiv_setDivider hd, max_eq_left (by omega)]

/-! ### The mode -/

/-- The samples and the mode of a tick, shown. -/
def modeShown (m tj : Nat) (brake : Bool) (s : Machine.State) : Machine.State :=
  rset R.MOD_STRAP F.MOD_STRAP_PWRBRK (b2n brake) (rset R.LEDG_STATUS F.LEDG_STATUS_MODE m
    (rset R.LEDG_STATUS F.LEDG_STATUS_TJ_MAX tj (rset R.LEDG_STATUS F.LEDG_STATUS_PWRBRK (b2n brake) s)))

theorem onlyLedger_modeShown (m tj : Nat) (brake : Bool) (s : Machine.State) :
    OnlyLedger [R.LEDG_STATUS, R.MOD_STRAP] s (modeShown m tj brake s) :=
  onlyLedger_rset _ _ (by decide) (onlyLedger_rset _ _ (by decide) (onlyLedger_rset _ _ (by decide)
    (onlyLedger_rset _ _ (by decide) (.refl _ s))))

theorem ledger_modeShown (m tj : Nat) (brake : Bool) (s : Machine.State) : (modeShown m tj brake s).ledger = s.ledger := by
  rw [modeShown, ledger_of_rset, ledger_of_rset, ledger_of_rset, ledger_of_rset]

theorem ledgMode_modeShown {m : Nat} (hm : m ≤ 3) (tj : Nat) (brake : Bool) (s : Machine.State) :
    ledgMode (modeShown m tj brake s) = m := by
  unfold ledgMode modeShown
  rw [rget_rset_other _ _ _ _ (by decide), rget_rset_same _ _ _ _ (by decide), Nat.mod_eq_of_lt]
  exact Nat.lt_succ_of_le hm

theorem tjMax_modeShown (m : Nat) (tj : BitVec 8) (brake : Bool) (s : Machine.State) :
    rget (modeShown m tj.toNat brake s) R.LEDG_STATUS F.LEDG_STATUS_TJ_MAX = tj.toNat := by
  unfold modeShown
  rw [rget_rset_other _ _ _ _ (by decide), status_rset_field _ _ (by decide) (by decide), rget_rset_same _ _ _ _ (by decide),
    Nat.mod_eq_of_lt]
  exact tj.isLt

theorem pwrbrk_modeShown (m tj : Nat) (brake : Bool) (s : Machine.State) :
    rget (modeShown m tj brake s) R.LEDG_STATUS F.LEDG_STATUS_PWRBRK = b2n brake := by
  unfold modeShown
  rw [rget_rset_other _ _ _ _ (by decide), status_rset_field _ _ (by decide) (by decide),
    status_rset_field _ _ (by decide) (by decide), rget_rset_same _ _ _ _ (by decide)]
  cases brake <;> rfl

theorem ledgDiv_modeShown (m tj : Nat) (brake : Bool) (s : Machine.State) : ledgDiv (modeShown m tj brake s) = ledgDiv s := by
  unfold ledgDiv modeShown
  rw [rget_rset_other _ _ _ _ (by decide), status_rset_field _ _ (by decide) (by decide),
    status_rset_field _ _ (by decide) (by decide), status_rset_field _ _ (by decide) (by decide)]

/-- What the mode just set calls for (R397, Table 14-5). -/
def modeTaken (m : Nat) (w : Machine.State) : Machine.State :=
  if m = lmClamp then slowTo 3 w
  else if ledgFixed w then
    if fixDiv w < ledgDiv w ∧ w.ledger.volt.isNone ∧ avsFail w = false then
      requestVolt (vtab w (fixDiv w)) (some (fixDiv w)) w
    else slowTo (fixDiv w) w
  else if m = lmRecovery then slowTo (admittedLim w) w
  else w

theorem passMode_eq (tj : Nat) (brake : Bool) (s : Machine.State) :
    passMode tj brake s = modeTaken (nextMode s (ledgMode s) tj brake) (modeShown (nextMode s (ledgMode s) tj brake) tj brake s) := by
  unfold passMode modeTaken modeShown
  rfl

theorem fixDiv_le (s : Machine.State) : fixDiv s ≤ 3 := Nat.le_of_lt_succ (rget_lt s R.LEDG_CTL F.LEDG_CTL_FIX_DIV)

theorem admittedLim_le (s : Machine.State) : admittedLim s ≤ 3 := by
  have h : ∀ (l : List Cmd) (m : Nat), m ≤ 3 → l.foldl (fun m c => min m c.div) m ≤ 3 := by
    intro l
    induction l with
    | nil => exact fun m hm => hm
    | cons c l ih => exact fun m hm => ih _ ((min_le_left _ _).trans hm)
  exact h _ _ le_rfl

/-- Setting the mode only slows the divider down, or asks for a voltage. -/
theorem slowed_modeTaken (m : Nat) (w : Machine.State) : Slowed w (modeTaken m w) := by
  rw [modeTaken]
  split
  · exact slowed_slowTo le_rfl w
  · split
    · split
      · exact slowed_requestVolt _ _ w
      · exact slowed_slowTo (fixDiv_le w) w
    · split
      · exact slowed_slowTo (admittedLim_le w) w
      · exact .refl w

/-- CLAMP takes the slowest divider (Table 14-5). -/
theorem ledgDiv_modeTaken_clamp (w : Machine.State) : ledgDiv (modeTaken 3 w) = 3 := by
  rw [modeTaken, if_pos (show 3 = lmClamp from rfl), ledgDiv_slowTo le_rfl]
  exact max_eq_left (ledgDiv_le w)

theorem modeTaken_normal {w : Machine.State} (hf : ledgFixed w = false) : modeTaken 0 w = w := by
  simp [modeTaken, hf, lmClamp, lmRecovery]

/-! ### The end of a pass -/

theorem passSpeed_cases (k : PassLog) (s : Machine.State) :
    passSpeed k s = requestVolt (vtab s (ledgDiv s - 1)) (some (ledgDiv s - 1)) s ∨ passSpeed k s = s := by
  rw [passSpeed]
  exact ite_eq_or_eq ..

theorem slowed_passSpeed (k : PassLog) (s : Machine.State) : Slowed s (passSpeed k s) := by
  rcases passSpeed_cases k s with h | h <;> rw [h]
  · exact slowed_requestVolt _ _ s
  · exact .refl s

theorem ledgDiv_passSpeed (k : PassLog) (s : Machine.State) : ledgDiv (passSpeed k s) = ledgDiv s := by
  rcases passSpeed_cases k s with h | h <;> rw [h]
  exact ledgDiv_requestVolt _ _ s

theorem admittedCmds_of_queues {a b : Machine.State} (h : a.queues = b.queues) : admittedCmds a = admittedCmds b := by
  rw [admittedCmds, admittedCmds, h]

theorem reservations_of_queues {a b : Machine.State} (h : a.queues = b.queues) : reservations a = reservations b := by
  rw [reservations, reservations, admittedCmds_of_queues h]

/-- What a pass shows at its end. -/
def passShown (waited : Nat) (s : Machine.State) : Machine.State :=
  rput R.LEDG_RESV (min (2 ^ 32 - 1) (reservations (rset R.LEDG_STATUS F.LEDG_STATUS_WAITING (min 4095 waited) s) / 16000))
    (rset R.LEDG_STATUS F.LEDG_STATUS_WAITING (min 4095 waited) s)

/-- The settings the next tick starts with. -/
def settingsTaken (s : Machine.State) : Machine.State :=
  s.modLedger (fun l => { l with
    budget := rget s R.LEDG_BUDGET F.LEDG_BUDGET_W
    cap := rget s R.LEDG_CAP F.LEDG_CAP_J
    reserve := rget s R.LEDG_RESERVE F.LEDG_RESERVE_J
    defer := rget s R.LEDG_MAX_DEFER F.LEDG_MAX_DEFER_MS
    recon := ledgRecon s
    hold := min 100 l.hold })

theorem passEnd_eq (k : PassLog) (s : Machine.State) : passEnd k s = settingsTaken (passShown k.waited (ageCandidates 1 s)) := by
  simp only [passEnd, settingsTaken, passShown]

theorem onlyLedger_settingsTaken (offs : List Nat) (s : Machine.State) : OnlyLedger offs s (settingsTaken s) :=
  onlyLedger_modLedger _ (.refl _ s)

theorem onlyLedger_passShown (n : Nat) (s : Machine.State) : OnlyLedger [R.LEDG_STATUS, R.LEDG_RESV] s (passShown n s) :=
  onlyLedger_rput _ (by decide) (onlyLedger_rset _ _ (by decide) (.refl _ s))

theorem waiting_passShown (n : Nat) (s : Machine.State) :
    rget (passShown n s) R.LEDG_STATUS F.LEDG_STATUS_WAITING = min 4095 n := by
  unfold passShown
  rw [rget_rput_other _ _ _ (by decide), rget_rset_same _ _ _ _ (by decide), Nat.mod_eq_of_lt]
  change min 4095 n < 4096
  omega

theorem status_passShown (n : Nat) (s : Machine.State) {g : Fld} (h : g.lo + g.w ≤ 16) :
    rget (passShown n s) R.LEDG_STATUS g = rget s R.LEDG_STATUS g := by
  unfold passShown
  rw [rget_rput_other _ _ _ (by decide), rget_rset_field _ _ _ _ _ (h.trans (by decide)) (.inl h)]

theorem resv_passShown (n : Nat) (s : Machine.State) :
    rget (passShown n s) R.LEDG_RESV F.LEDG_RESV_R = min (2 ^ 32 - 1) (reservations s / 16000) := by
  rw [passShown, rget_rput_same _ _ _ _ (by decide), reservations_of_queues (queues_of_rset ..)]
  change min (2 ^ 32 - 1) (reservations s / 16000) % 2 ^ 32 = _
  omega

/-! ### What admission reads -/

/-- The registers that a tick with the NORMAL mode writes before its pass. -/
def tickRegs : List Nat := [R.LEDG_STATUS, R.MOD_STRAP, R.LEDG_ECOUNT, R.LEDG_BAL]

/-- Two states that admission sees alike. -/
structure SeenAlike (a b : Machine.State) : Prop where
  regs : ∀ o, o ∉ tickRegs → rraw b o = rraw a o
  div : ledgDiv b = ledgDiv a
  queues : b.queues = a.queues
  tiles : b.tiles = a.tiles
  abl : b.abl = a.abl
  repair : b.repair = a.repair
  freeCtr : b.freeCtr = a.freeCtr

theorem notTick_iff {o : Nat} : o ∉ tickRegs ↔ o ≠ 0x1000028 ∧ o ≠ 0x6002000 ∧ o ≠ 0x1000070 ∧ o ≠ 0x1000020 := by
  simp [tickRegs, R.LEDG_STATUS, R.MOD_STRAP, R.LEDG_ECOUNT, R.LEDG_BAL]

theorem any_of_agree {α : Type} {l : List α} {p q : α → Bool} (h : ∀ x ∈ l, p x = q x) : l.any p = l.any q := by
  rw [Bool.eq_iff_iff, List.any_eq_true, List.any_eq_true]
  exact exists_congr fun x => and_congr_right fun hx => by rw [h x hx]

namespace SeenAlike

variable {a b : Machine.State}

theorem rget (h : SeenAlike a b) {o : Nat} (f : Fld) (ho : o ∉ tickRegs) : rget b o f = rget a o f := by
  unfold Machine.rget; rw [h.regs o ho]

theorem rbit (h : SeenAlike a b) {o : Nat} (f : Fld) (ho : o ∉ tickRegs) : rbit b o f = rbit a o f := by
  unfold Machine.rbit; rw [h.rget f ho]

theorem domOn (h : SeenAlike a b) {n : Nat} (hn : n < 1000) : b.domOn n = a.domOn n := by
  unfold State.domOn; rw [h.rget _ (notTick_iff.mpr (by unfold R.PDC_DOM_STAT; omega))]

theorem enabled (h : SeenAlike a b) (t : TileId) : b.enabled t = a.enabled t := by
  unfold State.enabled; rw [h.repair]

theorem tile (h : SeenAlike a b) (t : TileId) : b.tile t = a.tile t := by
  unfold State.tile; rw [h.tiles]

theorem queue (h : SeenAlike a b) (q : QIdx) : b.queue q = a.queue q := by
  unfold State.queue; rw [h.queues]

theorem admittedCmds (h : SeenAlike a b) : admittedCmds b = admittedCmds a := admittedCmds_of_queues h.queues

/-! Energy -/

theorem ledgExpert (h : SeenAlike a b) : ledgExpert b = ledgExpert a := h.rbit _ (by decide)

theorem ledgRecon (h : SeenAlike a b) : ledgRecon b = ledgRecon a := h.rget _ (by decide)

theorem vtab (h : SeenAlike a b) (d : Nat) : vtab b d = vtab a d := by
  unfold Machine.vtab; rw [h.ledgExpert, h.repair, h.regs R.LEDG_VTAB (by decide)]

theorem scaleD (h : SeenAlike a b) (d : Nat) : scaleD b d = scaleD a d := by
  simp only [Machine.scaleD, h.vtab]

theorem ledgEff (h : SeenAlike a b) : ledgEff b = ledgEff a := by
  unfold Machine.ledgEff; rw [h.rget _ (by decide)]

theorem toInput (h : SeenAlike a b) (x : Nat) : toInput b x = toInput a x := by
  unfold Machine.toInput; rw [h.ledgRecon, h.ledgEff]

theorem coef (h : SeenAlike a b) {i : Nat} (hi : i < 16) : coef b i = coef a i := by
  unfold Machine.coef
  rw [h.ledgExpert, h.rget _ (notTick_iff.mpr (by unfold R.LEDG_COEF; omega))]

theorem tagFactor (h : SeenAlike a b) (t : Nat) : tagFactor b t = tagFactor a t := by
  have ht : tagEntry t < 1024 := Nat.mod_lt _ (by decide)
  unfold Machine.tagFactor
  rw [h.ledgExpert, h.rbit _ (by decide), h.rget _ (notTick_iff.mpr (by unfold R.LEDG_TAG; omega))]

theorem rgnF (h : SeenAlike a b) (r : Nat) {off : Nat} (n : Nat) (ho : off < 56) : rgnF b r off n = rgnF a r off n := by
  have hw : ∀ k < 8, rgnWord b r k = rgnWord a r k := fun k hk => h.regs _ (notTick_iff.mpr (by unfold R.RGND; omega))
  unfold Machine.rgnF
  rw [hw _ (by omega), hw _ (by omega)]

theorem rgnDouble (h : SeenAlike a b) (r : Nat) : rgnDouble b r = rgnDouble a r := by
  unfold Machine.rgnDouble
  rw [h.rbit _ (notTick_iff.mpr (by unfold R.RGN_CFG; omega)), h.rbit _ (notTick_iff.mpr (by unfold R.RGNV_STATE; omega))]

theorem skipEmpty (h : SeenAlike a b) (st : Nat) : skipEmpty b st = skipEmpty a st := by
  have hc : R.ABL_CTL st ∉ tickRegs := notTick_iff.mpr (by unfold R.ABL_CTL; omega)
  unfold Machine.skipEmpty ablExpert
  rw [h.rbit _ hc, h.rbit _ hc]

theorem ablLines (h : SeenAlike a b) (c : DWord) : ablLines b c = ablLines a c := by
  unfold Machine.ablLines
  simp only [h.rgnF _ _ (show 0x34 < 56 by decide), h.skipEmpty, h.rgnDouble]

theorem grpBf16 (h : SeenAlike a b) (g : Nat) : grpBf16 b g = grpBf16 a g := by
  unfold Machine.grpBf16; rw [h.regs _ (notTick_iff.mpr (by unfold R.GRP; omega))]

theorem siliconEst (h : SeenAlike a b) (c : Cmd) : siliconEst b c = siliconEst a c := by
  unfold Machine.siliconEst
  simp only [h.grpBf16, h.ablLines, h.rgnF _ _ (show 0x28 < 56 by decide), h.coef (show 14 < 16 by decide),
    h.coef (show 9 < 16 by decide), h.coef (show 13 < 16 by decide), h.coef (show 11 < 16 by decide)]

theorem estimate (h : SeenAlike a b) (c : Cmd) (d : Nat) : estimate b c d = estimate a c d := by
  unfold Machine.estimate
  simp only [h.scaleD, h.ledgRecon, h.tagFactor, h.toInput, h.siliconEst]

theorem peakOf (h : SeenAlike a b) (c : Cmd) (d : Nat) : peakOf b c d = peakOf a c d := by
  unfold Machine.peakOf
  rw [h.estimate, h.siliconEst]

theorem peakMax (h : SeenAlike a b) : peakMax b = peakMax a := by
  unfold Machine.peakMax; rw [h.rget _ (by decide)]

theorem peakNow (h : SeenAlike a b) (d : Nat) (hn : Machine.admittedCmds a = []) : peakNow b d = peakNow a d := by
  unfold Machine.peakNow
  rw [h.toInput, h.rget _ (by decide), h.admittedCmds, hn]; rfl

/-! Queues -/

theorem qRegs (q : QIdx) : R.QSTAT q.toNat ∉ tickRegs ∧ R.QCFG q.toNat ∉ tickRegs ∧ R.QCQ_TAIL q.toNat ∉ tickRegs := by
  have := q.isLt
  simp only [notTick_iff, R.QSTAT, R.QCFG, R.QCQ_TAIL]
  omega

theorem qState (h : SeenAlike a b) (q : QIdx) : qState b q = qState a q := h.rget _ (qRegs q).1

theorem cqHalted (h : SeenAlike a b) (q : QIdx) : cqHalted b q = cqHalted a q := by
  obtain ⟨hs, hc, ht⟩ := qRegs q
  unfold Machine.cqHalted cqFree cqSize cqTail
  simp only [h.queue, h.rbit _ hs, h.rget _ hc, h.rget _ ht]

theorem depsMet (h : SeenAlike a b) (q : QIdx) (c : Cmd) : depsMet b q c = depsMet a q c := by
  obtain ⟨-, hc, -⟩ := qRegs q
  unfold Machine.depsMet qExpert inWindow
  simp only [h.queue, h.rbit _ hc, h.rget _ hc, h.freeCtr]

theorem tilesFree (h : SeenAlike a b) (c : Cmd) : tilesFree b c = tilesFree a c := by
  simp only [Machine.tilesFree, h.tile]

theorem tilesClaimed (h : SeenAlike a b) (c : Cmd) : tilesClaimed b c = tilesClaimed a c := by
  unfold Machine.tilesClaimed; rw [h.queues]

theorem gated (h : SeenAlike a b) (c : Cmd) : gated b c = gated a c := by
  unfold Machine.gated ablFull
  rw [h.abl, h.rbit _ (by decide), h.rbit _ (by decide), h.rget _ (by decide)]

theorem eligible (h : SeenAlike a b) (q : QIdx) (c : Cmd) : eligible b q c = eligible a q c := by
  unfold Machine.eligible
  rw [h.qState, h.queue, h.depsMet, h.tilesFree, h.tilesClaimed, h.gated]

/-! Draining parts -/

theorem dieFree (h : SeenAlike a b) (d : Nat) : b.dieFree d = a.dieFree d := by
  simp only [State.dieFree, h.tile]

theorem tileDraining (h : SeenAlike a b) (t : TileId) : b.tileDraining t = a.tileDraining t := by
  have := t.isLt
  unfold State.tileDraining
  rw [h.rget _ (notTick_iff.mpr (by unfold R.TILE_STATE; omega)), h.rget _ (notTick_iff.mpr (by unfold R.PDC_DOM_STAT tileDie; omega)),
    h.enabled, h.dieFree]

theorem updStacks_lt {c : Cmd} {k : Nat} (hk : k ∈ updStacks c) : k < 16 := by
  obtain ⟨d, -, rfl⟩ := List.mem_map.mp (List.mem_dedup.mp hk)
  have := bits_lt d.toNat 32 16
  omega

theorem copyStacks_lt {c : Cmd} {k : Nat} (hk : k ∈ copyStacks c) : k < 16 := by
  have hr : ∀ {x : Nat} {p : Nat → Bool} {b : Prop} [Decidable b], x ∈ (if b then (List.range 16).filter p else []) → x < 16 := by
    intro x p b _ hx
    split at hx
    · exact List.mem_range.mp (List.mem_of_mem_filter hx)
    · cases hx
  rcases List.mem_append.mp hk with h | h
  · exact hr h
  · exact hr h

theorem needsDrained (h : SeenAlike a b) (c : Cmd) : needsDrained b c = needsDrained a c := by
  have hl : (setTiles c).any (fun t => let u : TileId := BitVec.ofNat 11 t
        b.enabled u && (!b.domOn (16 + tileDie u) || b.tileDraining u)) =
      (setTiles c).any (fun t => let u : TileId := BitVec.ofNat 11 t
        a.enabled u && (!a.domOn (16 + tileDie u) || a.tileDraining u)) := by
    refine any_of_agree fun t _ => ?_
    have hd : 16 + tileDie (BitVec.ofNat 11 t) < 1000 := by have := (BitVec.ofNat 11 t).isLt; unfold tileDie; omega
    simp only [h.enabled, h.domOn hd, h.tileDraining]
  have hu : (updStacks c).any (fun k => !b.domOn (48 + k) || Machine.rget b (R.ABL_STATUS k) F.ABL_STATUS_STATE != 0) =
      (updStacks c).any (fun k => !a.domOn (48 + k) || Machine.rget a (R.ABL_STATUS k) F.ABL_STATUS_STATE != 0) := by
    refine any_of_agree fun k hk => ?_
    have := updStacks_lt hk
    rw [h.domOn (by omega), h.rget _ (notTick_iff.mpr (by unfold R.ABL_STATUS; omega))]
  have hc : (copyStacks c).any (fun k => !b.domOn (48 + k)) = (copyStacks c).any (fun k => !a.domOn (48 + k)) := by
    refine any_of_agree fun k hk => ?_
    have := copyStacks_lt hk
    rw [h.domOn (by omega)]
  unfold Machine.needsDrained
  rw [hl, hu, hc, h.domOn (by omega)]

end SeenAlike

/-! ### One queue's commands -/

theorem queue_modQueue_same (s : Machine.State) (q : QIdx) (f : HostQueue → HostQueue) :
    (s.modQueue q f).queue q = f (s.queue q) := mget_mset_same ..

theorem queue_modQueue_other (s : Machine.State) {q p : QIdx} (f : HostQueue → HostQueue) (h : p ≠ q) :
    (s.modQueue q f).queue p = s.queue p := mget_mset_other _ _ _ (fun e => h (BitVec.eq_of_toNat_eq e))

/-- Every command of the queues listed, changed. -/
def eachCmd (φ : Cmd → Cmd) (qs : List Nat) (s : Machine.State) : Machine.State :=
  qs.foldl (fun s q => s.modQueue (BitVec.ofNat 6 q) (fun h => { h with cmds := h.cmds.map φ })) s

theorem ageCandidates_eq (n : Nat) (s : Machine.State) :
    ageCandidates n s =
      eachCmd (fun c => if c.phase = .candidate then { c with wait := c.wait + n } else c) (s.queues.map (·.1)) s := rfl

/-- A candidate that wants a tile just taken waits for dispatch again. -/
def yieldTiles (tiles : List Nat) (c : Cmd) : Cmd :=
  match c.phase with
  | .candidate => if (claimTiles c).any (fun t => tiles.contains t) then { c with phase := .waiting, wait := 0 } else c
  | _ => c

theorem takeTiles_eq (tiles : List Nat) (s : Machine.State) :
    takeTiles tiles s = eachCmd (yieldTiles tiles) (s.queues.map (·.1)) s := rfl

/-- From `u` to `v` only the queues' commands may differ. -/
structure OnlyQueues (u v : Machine.State) : Prop where
  regs : v.regs = u.regs
  ledger : v.ledger = u.ledger

theorem onlyQueues_eachCmd (φ : Cmd → Cmd) (qs : List Nat) (s : Machine.State) : OnlyQueues s (eachCmd φ qs s) := by
  induction qs generalizing s with
  | nil => exact ⟨rfl, rfl⟩
  | cons q qs ih =>
    obtain ⟨hr, hl⟩ := ih (s.modQueue (BitVec.ofNat 6 q) (fun h => { h with cmds := h.cmds.map φ }))
    exact ⟨hr, hl⟩

theorem OnlyQueues.rget {u v : Machine.State} (h : OnlyQueues u v) (o : Nat) (f : Fld) : rget v o f = rget u o f := by
  unfold Machine.rget rraw; rw [h.regs]

/-- Commands that a change leaves as they are stay as they are, however often their queue is listed. -/
theorem cmds_eachCmd_of_fixed {φ : Cmd → Cmd} {q : QIdx} {l : List Cmd} (hφ : l.map φ = l) (qs : List Nat) {s : Machine.State}
    (hs : (s.queue q).cmds = l) : ((eachCmd φ qs s).queue q).cmds = l := by
  induction qs generalizing s with
  | nil => exact hs
  | cons p qs ih =>
    refine ih ?_
    by_cases hp : q = BitVec.ofNat 6 p
    · rw [hp, queue_modQueue_same, ← hp]
      exact (congrArg (List.map φ) hs).trans hφ
    · rw [queue_modQueue_other _ _ hp]
      exact hs

theorem cmds_eachCmd_one (φ : Cmd → Cmd) (q : QIdx) (s : Machine.State) :
    ((eachCmd φ [q.toNat] s).queue q).cmds = (s.queue q).cmds.map φ := by
  have hq : BitVec.ofNat 6 q.toNat = q := by simp
  rw [eachCmd, List.foldl_cons, List.foldl_nil, hq, queue_modQueue_same]

theorem cmds_of_queues {u v : Machine.State} (h : v.queues = u.queues) (q : QIdx) : (v.queue q).cmds = (u.queue q).cmds := by
  unfold State.queue; rw [h]

theorem cmd_of_cmds {s : Machine.State} {q : QIdx} {c : Cmd} (h : (s.queue q).cmds = [c]) : s.cmd q c.seq = some c := by
  unfold State.cmd; rw [h]; simp

/-! ### The pass over one candidate -/

/-- The only command is candidate `c` of queue `q`. -/
structure OneCandidate (s : Machine.State) (q : QIdx) (c : Cmd) : Prop where
  keys : s.queues.map (·.1) = [q.toNat]
  cmds : (s.queue q).cmds = [c]
  cands : candidates s = [(q, c)]
  admitted : admittedCmds s = []
  phase : c.phase = .candidate

theorem oneCandidate_of {s : Machine.State} {q : QIdx} {h : HostQueue} {c : Cmd} (hq : s.queues = [(q.toNat, h)])
    (hc : h.cmds = [c]) (hp : c.phase = .candidate) : OneCandidate s q c where
  keys := by rw [hq]; rfl
  cmds := by rw [State.queue, hq, mget, if_pos rfl, hc]
  cands := by simp [candidates, hq, hc, hp, putCand]
  admitted := by simp [admittedCmds, hq, hc, dispatched, hp]
  phase := hp

theorem available_of_none {s : Machine.State} (h : admittedCmds s = []) : available s = s.ledger.bal := by
  simp [available, reservations, h]

/-- Without admitted commands, and while the divider follows the ledger, the present divider is tested first. -/
theorem head_testDivs {s : Machine.State} {c : Cmd} (ha : admittedCmds s = []) (hf : ledgFixed s = false)
    (hd : ledgDiv s ≤ candDiv c) : ∃ l, testDivs s c = ledgDiv s :: l := by
  have key : ∀ d ≤ 3, ∀ m ≤ 3, d ≤ m → ((List.range 4).filter (fun x => decide (d ≤ x ∧ x ≤ m))).head? = some d := by decide
  have h := key _ (ledgDiv_le s) (min (candDiv c) 3) (min_le_right _ _) (le_min hd (ledgDiv_le s))
  have hl : admittedLim s = 3 := by rw [admittedLim, ha]; rfl
  rw [testDivs, hf, hl, if_neg Bool.false_ne_true]
  obtain ⟨l, hl⟩ := List.head?_eq_some_iff.mp h
  exact ⟨l, hl⟩

theorem testDivs_le {s : Machine.State} {c : Cmd} (hf : ledgFixed s = false) {d : Nat} (hd : d ∈ testDivs s c) : d ≤ 3 := by
  rw [testDivs, hf, if_neg Bool.false_ne_true] at hd
  exact Nat.le_of_lt_succ (List.mem_range.mp (List.mem_of_mem_filter hd))

theorem fits_head {s : Machine.State} {c : Cmd} {d : Nat} (l : List Nat)
    (h : ((estimate s c d).1 : Int) ≤ available s ∧ peakNow s d + peakOf s c d ≤ peakMax s) : fits s c (d :: l) = some d := by
  rw [fits, if_pos h]

theorem fits_none {s : Machine.State} {c : Cmd} {l : List Nat} (h : ∀ d ∈ l, available s < ((estimate s c d).1 : Int)) :
    fits s c l = none := by
  induction l with
  | nil => rfl
  | cons d l ih =>
    have hd := h d (List.mem_cons_self ..)
    rw [fits, if_neg (by omega)]
    exact ih fun x hx => h x (List.mem_cons_of_mem _ hx)

/-- What a visit in the NORMAL mode needs of its candidate, before its energy is looked at. -/
structure Visitable (s : Machine.State) (q : QIdx) (c : Cmd) : Prop where
  one : OneCandidate s q c
  elig : eligible s q c = true
  free : cqHalted s q = false
  young : c.wait < maxDefer s
  follows : ledgFixed s = false

theorem visit_fits {s : Machine.State} {q : QIdx} {c : Cmd} (h : Visitable s q c) (k : PassLog) {d : Nat}
    (hd : fits s c (testDivs s c) = some d) :
    visit 0 q c.seq k s = ({ k with first := some (k.first.getD false) }, dispatchCmd q c false d (slowTo d s)) := by
  have hy : ¬ maxDefer s ≤ c.wait := by have := h.young; omega
  rw [visit, cmd_of_cmds h.one.cmds]
  simp only [h.one.phase, h.elig, h.free, hd, hy, lmRecovery, lmClamp, Bool.not_true, Bool.false_eq_true, if_false, or_self,
    show ¬ (0 = 2) by decide, show ¬ (0 = 3) by decide]

theorem visit_waits {s : Machine.State} {q : QIdx} {c : Cmd} (h : Visitable s q c) (k : PassLog)
    (hd : fits s c (testDivs s c) = none) :
    (visit 0 q c.seq k s).1.waited = k.waited + 1 ∧ (visit 0 q c.seq k s).2 = s := by
  have hy : ¬ maxDefer s ≤ c.wait := by have := h.young; omega
  rw [visit, cmd_of_cmds h.one.cmds]
  simp only [h.one.phase, h.elig, h.free, hd, hy, lmRecovery, lmClamp, Bool.not_true, Bool.false_eq_true, if_false, or_self,
    show ¬ (0 = 2) by decide, show ¬ (0 = 3) by decide, passWait, and_self]

/-- A command admitted at a divider. -/
def admittedAt (s : Machine.State) (q : QIdx) (c : Cmd) (d : Nat) : Cmd :=
  { c with
    phase := .admitted, reserved := true, step := (s.queue q).step, epoch := (s.queue q).epoch, deferred := false
    div := if cmdOp c = opLaunch then cF c 0x31 1 else 3
    est := (estimate s c d).1, baseEst := (estimate s c d).2, peak := peakOf s c 0 }

theorem dispatchCmd_eq {s : Machine.State} {q : QIdx} {c : Cmd} (d : Nat) (hf : cqHalted s q = false)
    (hn : needsDrained s c = false) :
    dispatchCmd q c false d s =
      takeTiles (admittedAt s q c d).tiles (s.modCmd q c.seq (fun _ => admittedAt s q c d)) := by
  simp only [dispatchCmd, hf, hn, Bool.false_eq_true, if_false, admittedAt]

theorem onlyQueues_dispatchCmd {s : Machine.State} {q : QIdx} {c : Cmd} (d : Nat) (hf : cqHalted s q = false)
    (hn : needsDrained s c = false) : OnlyQueues s (dispatchCmd q c false d s) := by
  rw [dispatchCmd_eq d hf hn, takeTiles_eq]
  obtain ⟨hr, hl⟩ := onlyQueues_eachCmd (yieldTiles (admittedAt s q c d).tiles)
    ((s.modCmd q c.seq (fun _ => admittedAt s q c d)).queues.map (·.1)) (s.modCmd q c.seq (fun _ => admittedAt s q c d))
  exact ⟨hr, hl⟩

theorem cmds_dispatchCmd {s : Machine.State} {q : QIdx} {c : Cmd} (d : Nat) (hc : (s.queue q).cmds = [c])
    (hf : cqHalted s q = false) (hn : needsDrained s c = false) :
    ((dispatchCmd q c false d s).queue q).cmds = [admittedAt s q c d] := by
  rw [dispatchCmd_eq d hf hn, takeTiles_eq]
  refine cmds_eachCmd_of_fixed rfl _ ?_
  rw [State.modCmd, queue_modQueue_same, hc]
  simp [modSeq]

/-! ### The end of a pass over its visits -/

/-- A pass ended after its visits, its first speed-up taken. -/
def passDone (k : PassLog) (s : Machine.State) : Machine.State := passEnd k (passSpeed k s)

theorem passDone_eq (k : PassLog) (s : Machine.State) :
    passDone k s = settingsTaken (passShown k.waited (ageCandidates 1 (passSpeed k s))) := passEnd_eq ..

theorem onlyQueues_ageCandidates (n : Nat) (s : Machine.State) : OnlyQueues s (ageCandidates n s) := onlyQueues_eachCmd ..

theorem status_passDone (k : PassLog) (s : Machine.State) {g : Fld} (h : g.lo + g.w ≤ 16) :
    rget (passDone k s) R.LEDG_STATUS g = rget (passSpeed k s) R.LEDG_STATUS g := by
  rw [passDone_eq, settingsTaken, rget_modLedger, status_passShown _ _ h, (onlyQueues_ageCandidates 1 _).rget]

theorem ledgDiv_passDone (k : PassLog) (s : Machine.State) : ledgDiv (passDone k s) = ledgDiv s :=
  (status_passDone k s (by decide)).trans (ledgDiv_passSpeed k s)

theorem aside_passDone (k : PassLog) (s : Machine.State) {g : Fld} (h : g.lo + g.w ≤ 16) (ha : Aside g) :
    rget (passDone k s) R.LEDG_STATUS g = rget s R.LEDG_STATUS g :=
  (status_passDone k s h).trans ((slowed_passSpeed k s).rest g ha)

theorem waiting_passDone (k : PassLog) (s : Machine.State) :
    rget (passDone k s) R.LEDG_STATUS F.LEDG_STATUS_WAITING = min 4095 k.waited := by
  rw [passDone_eq, settingsTaken, rget_modLedger, waiting_passShown]

theorem bal_passDone (k : PassLog) (s : Machine.State) : (passDone k s).ledger.bal = s.ledger.bal := by
  rw [passDone_eq, settingsTaken, ledger_modLedger, passShown, ledger_of_rput, ledger_of_rset,
    (onlyQueues_ageCandidates 1 _).ledger, (slowed_passSpeed k s).bal]

theorem queues_passSpeed (k : PassLog) (s : Machine.State) : (passSpeed k s).queues = s.queues :=
  congrArg (·.queues) (slowed_passSpeed k s).only.rest

theorem queues_settingsTaken (s : Machine.State) : (settingsTaken s).queues = s.queues := rfl

theorem queues_passDone (k : PassLog) (s : Machine.State) :
    (passDone k s).queues = (ageCandidates 1 (passSpeed k s)).queues := by
  rw [passDone_eq, queues_settingsTaken, passShown, queues_of_rput, queues_of_rset]

theorem ageCandidates_of_empty (n : Nat) {s : Machine.State} (h : s.queues = []) : ageCandidates n s = s := by
  rw [ageCandidates_eq, h]; rfl

/-- With no commands a pass ends with the ledger and its registers alone changed. -/
theorem onlyLedger_passDone (k : PassLog) {s : Machine.State} (h : s.queues = []) :
    OnlyLedger [R.LEDG_STATUS, R.LEDG_DIVCHG, R.LEDG_RESV] s (passDone k s) := by
  rw [passDone_eq, ageCandidates_of_empty 1 ((queues_passSpeed k s).trans h)]
  exact ((slowed_passSpeed k s).only.mono (by decide)).trans
    (((onlyLedger_passShown k.waited _).mono (by decide)).trans (onlyLedger_settingsTaken _ _))

theorem resv_passDone (k : PassLog) {s : Machine.State} (h : s.queues = []) :
    rget (passDone k s) R.LEDG_RESV F.LEDG_RESV_R = 0 := by
  have hq : (passSpeed k s).queues = [] := (queues_passSpeed k s).trans h
  rw [passDone_eq, settingsTaken, rget_modLedger, resv_passShown, ageCandidates_of_empty 1 hq]
  simp [reservations, admittedCmds, hq]

/-- A dispatched command is not aged. -/
theorem cmds_passDone_of_dispatched (k : PassLog) {s : Machine.State} {q : QIdx} {c : Cmd} (h : (s.queue q).cmds = [c])
    (hp : c.phase ≠ .candidate) : ((passDone k s).queue q).cmds = [c] := by
  rw [cmds_of_queues (queues_passDone k s), ageCandidates_eq]
  refine cmds_eachCmd_of_fixed ?_ _ ((cmds_of_queues (queues_passSpeed k s) q).trans h)
  rw [List.map_singleton, if_neg hp]

theorem cmds_passDone_of_waiting (k : PassLog) {s : Machine.State} {q : QIdx} {c : Cmd} (h : OneCandidate s q c) :
    ((passDone k s).queue q).cmds = [{ c with wait := c.wait + 1 }] := by
  rw [cmds_of_queues (queues_passDone k s), ageCandidates_eq, queues_passSpeed, h.keys, cmds_eachCmd_one,
    cmds_of_queues (queues_passSpeed k s), h.cmds, List.map_singleton, if_pos h.phase]

/-! ### The tick -/

/-- The state that a tick's pass finds. -/
def preVisit (counts : List EventCount) (tj : Nat) (brake : Bool) (u : Machine.State) : Machine.State :=
  modeTaken (tickMode u counts tj brake) (modeShown (tickMode u counts tj brake) tj brake (tickBalanced counts (holdRaised u)))

theorem onlyLedger_holdRaised (offs : List Nat) (u : Machine.State) : OnlyLedger offs u (holdRaised u) := onlyLedger_modLedger _ (.refl _ u)

theorem tickMode_holdRaised (u : Machine.State) (counts : List EventCount) (tj : Nat) (brake : Bool) :
    tickMode (holdRaised u) counts tj brake = tickMode u counts tj brake := by
  have hm : ledgMode (holdRaised u) = ledgMode u := rfl
  have hr : (holdRaised u).ledger.reserve = u.ledger.reserve := rfl
  have hh : ∀ l, thermHard { holdRaised u with ledger := l } = thermHard u ∧ thermSoft { holdRaised u with ledger := l } = thermSoft u :=
    fun _ => ⟨rfl, rfl⟩
  have hu : ∀ l, thermHard { u with ledger := l } = thermHard u ∧ thermSoft { u with ledger := l } = thermSoft u :=
    fun _ => ⟨rfl, rfl⟩
  simp only [tickMode, nextMode, tickBalance_holdRaised, hm, hr, hh, hu]

theorem tickMode_le (u : Machine.State) (counts : List EventCount) (tj : Nat) (brake : Bool) :
    tickMode u counts tj brake ≤ 3 := nextMode_le ..

/-- A tick of a ledger with no tag work and no owned count: the visits start at `preVisit`. -/
theorem preVisit_of_alone {u : Machine.State} {counts : List EventCount} (h : TicksAlone u counts) (tj : Nat) (brake : Bool) :
    passMode tj brake (passBalance counts (passTags (holdRaised u))) = preVisit counts tj brake u := by
  obtain ⟨-, hd, ht, ho⟩ := h
  rw [passTags_of_none (u := holdRaised u) hd ht, passBalance_of_unowned ho, passMode_eq, nextMode_tickBalanced, tickMode_holdRaised]
  rfl

theorem exec_ledgerTick_on {units : List EventCount} {moves : List MeshMove} {ups : List Upset} {tj : BitVec 8} {brake : Bool}
    {s u : Machine.State} (hu : u = ups.foldl (fun s x => upset x s) s) (h : TicksAlone u (tickCounts units moves)) :
    exec (.ledgerTick units moves ups tj brake) s = .next
      (let p := preVisit (tickCounts units moves) tj.toNat brake u
       let r := visitAll (ledgMode p) (candidates p) ⟨none, false, 0⟩ p
       passDone r.1 r.2) := by
  rw [← preVisit_of_alone h]
  change execLedgerTick units moves ups tj brake s = _
  rw [execLedgerTick, ← hu]
  simp only [h.1, if_true, passDone, holdRaised]

theorem exec_ledgerTick_off {units : List EventCount} {moves : List MeshMove} {ups : List Upset} {tj : BitVec 8} {brake : Bool}
    {s u : Machine.State} (hu : u = ups.foldl (fun s x => upset x s) s) (h : u.domOn (hostCtl u) = false) :
    exec (.ledgerTick units moves ups tj brake) s = .next u := by
  change execLedgerTick units moves ups tj brake s = _
  rw [execLedgerTick, ← hu]
  simp only [h, Bool.false_eq_true, if_false]

/-! What the pass finds -/

theorem slowed_preVisit (counts : List EventCount) (tj : Nat) (brake : Bool) (u : Machine.State) :
    Slowed (modeShown (tickMode u counts tj brake) tj brake (tickBalanced counts (holdRaised u))) (preVisit counts tj brake u) :=
  slowed_modeTaken ..

theorem onlyLedger_preVisit (counts : List EventCount) (tj : Nat) (brake : Bool) (u : Machine.State) :
    OnlyLedger (R.LEDG_DIVCHG :: tickRegs) u (preVisit counts tj brake u) :=
  (onlyLedger_holdRaised _ u).trans (((onlyLedger_tickBalanced counts (holdRaised u)).mono (by decide)).trans
    (((onlyLedger_modeShown _ tj brake _).mono (by decide)).trans ((slowed_preVisit counts tj brake u).only.mono (by decide))))

theorem queues_preVisit (counts : List EventCount) (tj : Nat) (brake : Bool) (u : Machine.State) :
    (preVisit counts tj brake u).queues = u.queues := congrArg (·.queues) (onlyLedger_preVisit counts tj brake u).rest

theorem bal_preVisit (counts : List EventCount) (tj : Nat) (brake : Bool) (u : Machine.State) :
    (preVisit counts tj brake u).ledger.bal = tickBalance u counts := by
  rw [(slowed_preVisit counts tj brake u).bal, ledger_modeShown, bal_tickBalanced, tickBalance_holdRaised]

theorem ledgDiv_tickBalanced (counts : List EventCount) (u : Machine.State) : ledgDiv (tickBalanced counts u) = ledgDiv u :=
  (onlyLedger_tickBalanced counts u).rget _ (by decide)

theorem ledgDiv_le_preVisit (counts : List EventCount) (tj : Nat) (brake : Bool) (u : Machine.State) :
    ledgDiv u ≤ ledgDiv (preVisit counts tj brake u) := by
  have h := (slowed_preVisit counts tj brake u).div
  rwa [ledgDiv_modeShown, ledgDiv_tickBalanced] at h

theorem ledgMode_preVisit (counts : List EventCount) (tj : Nat) (brake : Bool) (u : Machine.State) :
    ledgMode (preVisit counts tj brake u) = tickMode u counts tj brake :=
  ((slowed_preVisit counts tj brake u).rest _ ⟨by decide, .inl (by decide)⟩).trans (ledgMode_modeShown (tickMode_le ..) ..)

theorem ledgDiv_preVisit_clamp {counts : List EventCount} {tj : Nat} {brake : Bool} {u : Machine.State}
    (h : tickMode u counts tj brake = 3) : ledgDiv (preVisit counts tj brake u) = 3 := by
  rw [preVisit, h, ledgDiv_modeTaken_clamp]

theorem ecount_preVisit (counts : List EventCount) (tj : Nat) (brake : Bool) (u : Machine.State) :
    rget (preVisit counts tj brake u) R.LEDG_ECOUNT F.LEDG_ECOUNT_E =
      min (rget u R.LEDG_ECOUNT F.LEDG_ECOUNT_E + (u.ledger.inRem + tickInput u counts) / 16000) (2 ^ 64 - 1) := by
  rw [(slowed_preVisit counts tj brake u).only.rget _ (by decide), (onlyLedger_modeShown _ tj brake _).rget _ (by decide),
    ecount_tickBalanced, tickInput_holdRaised, (onlyLedger_holdRaised [] u).rget _ (by decide)]
  rfl

/-- In the NORMAL mode of a ledger that sets its own divider, the pass finds what it reads as it was. -/
theorem preVisit_normal {counts : List EventCount} {tj : Nat} {brake : Bool} {u : Machine.State}
    (hm : tickMode u counts tj brake = 0) (hf : ledgFixed u = false) :
    preVisit counts tj brake u = modeShown 0 tj brake (tickBalanced counts (holdRaised u)) := by
  rw [preVisit, hm]
  refine modeTaken_normal ?_
  rw [ledgFixed_only (onlyLedger_modeShown 0 tj brake _) (by decide),
    ledgFixed_only (onlyLedger_tickBalanced counts (holdRaised u)) (by decide), ledgFixed_only (onlyLedger_holdRaised [] u) (by decide), hf]

theorem exec_ledgerTick_empty {units : List EventCount} {moves : List MeshMove} {ups : List Upset} {tj : BitVec 8} {brake : Bool}
    {s u : Machine.State} (hu : u = ups.foldl (fun s x => upset x s) s) (h : TicksAlone u (tickCounts units moves))
    (hq : u.queues = []) :
    exec (.ledgerTick units moves ups tj brake) s =
      .next (passDone ⟨none, false, 0⟩ (preVisit (tickCounts units moves) tj.toNat brake u)) := by
  have hc : candidates (preVisit (tickCounts units moves) tj.toNat brake u) = [] := by
    rw [candidates, queues_preVisit, hq]; rfl
  rw [exec_ledgerTick_on hu h]
  simp only [hc, visitAll]

theorem exec_ledgerTick_one {units : List EventCount} {moves : List MeshMove} {ups : List Upset} {tj : BitVec 8} {brake : Bool}
    {s u : Machine.State} {q : QIdx} {c : Cmd} (hu : u = ups.foldl (fun s x => upset x s) s)
    (h : TicksAlone u (tickCounts units moves)) (hm : tickMode u (tickCounts units moves) tj.toNat brake = 0)
    (hc : candidates (preVisit (tickCounts units moves) tj.toNat brake u) = [(q, c)]) :
    exec (.ledgerTick units moves ups tj brake) s =
      .next (passDone (visit 0 q c.seq ⟨none, false, 0⟩ (preVisit (tickCounts units moves) tj.toNat brake u)).1
        (visit 0 q c.seq ⟨none, false, 0⟩ (preVisit (tickCounts units moves) tj.toNat brake u)).2) := by
  rw [exec_ledgerTick_on hu h]
  simp only [hc, visitAll, ledgMode_preVisit, hm]

theorem seenAlike_of_only {u p : Machine.State} (h : OnlyLedger tickRegs u p) (hd : ledgDiv p = ledgDiv u) : SeenAlike u p where
  regs := h.regs
  div := hd
  queues := congrArg (·.queues) h.rest
  tiles := congrArg (·.tiles) h.rest
  abl := congrArg (·.abl) h.rest
  repair := congrArg (·.repair) h.rest
  freeCtr := congrArg (·.freeCtr) h.rest

theorem seenAlike_preVisit {counts : List EventCount} {tj : Nat} {brake : Bool} {u : Machine.State}
    (hm : tickMode u counts tj brake = 0) (hf : ledgFixed u = false) : SeenAlike u (preVisit counts tj brake u) := by
  rw [preVisit_normal hm hf]
  refine seenAlike_of_only ?_ ?_
  · exact (onlyLedger_holdRaised _ u).trans (((onlyLedger_tickBalanced counts (holdRaised u)).mono (by decide)).trans
      ((onlyLedger_modeShown 0 tj brake _).mono (by decide)))
  · rw [ledgDiv_modeShown, ledgDiv_tickBalanced]
    exact (onlyLedger_holdRaised [] u).rget _ (by decide)

theorem defer_preVisit {counts : List EventCount} {tj : Nat} {brake : Bool} {u : Machine.State}
    (hm : tickMode u counts tj brake = 0) (hf : ledgFixed u = false) :
    maxDefer (preVisit counts tj brake u) = maxDefer u := by
  rw [preVisit_normal hm hf, maxDefer, ledger_modeShown, defer_tickBalanced]
  rfl

/-! ### The tick with no command, and with one candidate -/

theorem tick_of_empty {counts : List EventCount} {tj : BitVec 8} {brake : Bool} {s u : Machine.State} {e : Map EccMark}
    (hu : u = { s with ecc := e }) (hq : s.queues = []) :
    let m := tickMode s counts tj.toNat brake
    let v := passDone ⟨none, false, 0⟩ (preVisit counts tj.toNat brake u)
    v.ledger.bal = tickBalance s counts ∧ ledgMode v = m ∧ rget v R.LEDG_STATUS F.LEDG_STATUS_TJ_MAX = tj.toNat ∧
      rget v R.LEDG_STATUS F.LEDG_STATUS_PWRBRK = b2n brake ∧ (m = 3 → ledgDiv v = 3) ∧ ledgDiv s ≤ ledgDiv v ∧
      rget v R.LEDG_ECOUNT F.LEDG_ECOUNT_E =
        min (rget s R.LEDG_ECOUNT F.LEDG_ECOUNT_E + (s.ledger.inRem + tickInput s counts) / 16000) (2 ^ 64 - 1) ∧
      rget v R.LEDG_STATUS F.LEDG_STATUS_WAITING = 0 ∧ rget v R.LEDG_RESV F.LEDG_RESV_R = 0 ∧ noLedger v = noLedger u := by
  intro m v
  have hm : tickMode u counts tj.toNat brake = m := by rw [hu]; rfl
  have hp : (preVisit counts tj.toNat brake u).queues = [] := by rw [queues_preVisit, hu]; exact hq
  have hs := slowed_preVisit counts tj.toNat brake u
  refine ⟨?_, ?_, ?_, ?_, fun h => ?_, ?_, ?_, waiting_passDone .., resv_passDone _ hp, ?_⟩
  · rw [bal_passDone, bal_preVisit, hu]; rfl
  · exact (aside_passDone _ _ (by decide) ⟨by decide, .inl (by decide)⟩).trans ((ledgMode_preVisit ..).trans hm)
  · rw [aside_passDone _ _ (by decide) ⟨by decide, .inr (by decide)⟩, hs.rest _ ⟨by decide, .inr (by decide)⟩, tjMax_modeShown]
  · rw [aside_passDone _ _ (by decide) ⟨by decide, .inr (by decide)⟩, hs.rest _ ⟨by decide, .inr (by decide)⟩, pwrbrk_modeShown]
  · exact (ledgDiv_passDone ..).trans (ledgDiv_preVisit_clamp (hm.trans h))
  · have hd : ledgDiv u = ledgDiv s := by rw [hu]; rfl
    exact hd.ge.trans ((ledgDiv_le_preVisit counts tj.toNat brake u).trans (ledgDiv_passDone ..).ge)
  · rw [(onlyLedger_passDone _ hp).rget _ (by decide), ecount_preVisit, hu]; rfl
  · exact (onlyLedger_passDone _ hp).rest.trans (onlyLedger_preVisit ..).rest

/-- A candidate that fits at the present divider is admitted there. -/
theorem tick_admits {p : Machine.State} {q : QIdx} {c : Cmd} (h : Visitable p q c)
    (hb : ((estimate p c (ledgDiv p)).1 : Int) ≤ p.ledger.bal)
    (hk : peakNow p (ledgDiv p) + peakOf p c (ledgDiv p) ≤ peakMax p) (hd : ledgDiv p ≤ candDiv c)
    (hn : needsDrained p c = false) :
    let r := visit 0 q c.seq ⟨none, false, 0⟩ p
    (passDone r.1 r.2).cmd q c.seq = some (admittedAt p q c (ledgDiv p)) ∧ ledgDiv (passDone r.1 r.2) = ledgDiv p ∧
      rget (passDone r.1 r.2) R.LEDG_STATUS F.LEDG_STATUS_WAITING = 0 := by
  obtain ⟨l, hl⟩ := head_testDivs h.one.admitted h.follows hd
  have hfit : fits p c (testDivs p c) = some (ledgDiv p) := by
    rw [hl]; exact fits_head l ⟨by rw [available_of_none h.one.admitted]; exact hb, hk⟩
  have ho := onlyQueues_dispatchCmd (ledgDiv p) h.free hn
  rw [visit_fits h _ hfit, slowTo_of_le le_rfl]
  refine ⟨?_, (ledgDiv_passDone ..).trans (ho.rget ..), ?_⟩
  · exact cmd_of_cmds (c := admittedAt p q c (ledgDiv p)) (cmds_passDone_of_dispatched _
      (cmds_dispatchCmd (ledgDiv p) h.one.cmds h.free hn) nofun)
  · rw [waiting_passDone]; rfl

/-- A candidate whose estimate exceeds the balance at every divider waits. -/
theorem tick_waits {p : Machine.State} {q : QIdx} {c : Cmd} (h : Visitable p q c)
    (hb : ∀ d ≤ 3, p.ledger.bal < ((estimate p c d).1 : Int)) :
    let r := visit 0 q c.seq ⟨none, false, 0⟩ p
    (passDone r.1 r.2).cmd q c.seq = some { c with wait := c.wait + 1 } ∧
      rget (passDone r.1 r.2) R.LEDG_STATUS F.LEDG_STATUS_WAITING = 1 := by
  have hfit : fits p c (testDivs p c) = none := fits_none fun d hd => by
    rw [available_of_none h.one.admitted]; exact hb d (testDivs_le h.follows hd)
  obtain ⟨hk, hs⟩ := visit_waits h ⟨none, false, 0⟩ hfit
  intro r
  refine ⟨?_, ?_⟩
  · rw [show r.2 = p from hs]
    exact cmd_of_cmds (c := { c with wait := c.wait + 1 }) (cmds_passDone_of_waiting _ h.one)
  · rw [waiting_passDone, show r.1.waited = 1 from hk]; rfl

/-! ### Ticks of a ledger whose memory errors have arisen -/

theorem seenAlike_ecc (s : Machine.State) (e : Map EccMark) : SeenAlike s { s with ecc := e } :=
  ⟨fun _ _ => rfl, rfl, rfl, rfl, rfl, rfl, rfl⟩

theorem SeenAlike.trans {a b c : Machine.State} (h : SeenAlike a b) (k : SeenAlike b c) : SeenAlike a c :=
  ⟨fun o ho => (k.regs o ho).trans (h.regs o ho), k.div.trans h.div, k.queues.trans h.queues, k.tiles.trans h.tiles,
    k.abl.trans h.abl, k.repair.trans h.repair, k.freeCtr.trans h.freeCtr⟩

/-- What the pass of a NORMAL tick finds of a state whose memory errors have arisen: all that it reads, and the new balance. -/
structure Finds (s p : Machine.State) (counts : List EventCount) : Prop where
  alike : SeenAlike s p
  bal : p.ledger.bal = tickBalance s counts
  defer : maxDefer p = maxDefer s
  follows : ledgFixed p = false

theorem finds_preVisit {counts : List EventCount} {tj : Nat} {brake : Bool} {s u : Machine.State} {e : Map EccMark}
    (hu : u = { s with ecc := e }) (hm : tickMode s counts tj brake = 0) (hf : ledgFixed s = false) :
    Finds s (preVisit counts tj brake u) counts := by
  have hmu : tickMode u counts tj brake = 0 := by rw [hu]; exact hm
  have hfu : ledgFixed u = false := by rw [hu]; exact hf
  have hsu : SeenAlike s u := by rw [hu]; exact seenAlike_ecc s e
  have ha := seenAlike_preVisit hmu hfu
  refine ⟨hsu.trans ha, ?_, ?_, ?_⟩
  · rw [bal_preVisit, hu]; rfl
  · rw [defer_preVisit hmu hfu, hu]; rfl
  · rw [ledgFixed_only (onlyLedger_preVisit ..) (by decide), hfu]

/-- The one candidate as the pass finds it. -/
theorem Finds.visitable {s p : Machine.State} {counts : List EventCount} (hf : Finds s p counts) {q : QIdx} {h : HostQueue} {c : Cmd}
    (hq : s.queues = [(q.toNat, h)]) (hc : h.cmds = [c]) (hp : c.phase = .candidate) (hw : c.wait < maxDefer s)
    (he : eligible s q c = true) (hn : cqHalted s q = false) : Visitable p q c where
  one := oneCandidate_of (hf.alike.queues.trans hq) hc hp
  elig := (hf.alike.eligible q c).trans he
  free := (hf.alike.cqHalted q).trans hn
  young := hw.trans_eq hf.defer.symm
  follows := hf.follows

theorem ledgerTicks : Claims.LedgerTicks := by
  intro units moves ups tj brake s u m q h c counts hcounts hm hu
  subst hcounts hm
  obtain ⟨e, he⟩ := upsets_ecc ups s
  have hue : u = { s with ecc := e } := hu.trans he
  have halone : TicksAlone s (tickCounts units moves) → TicksAlone u (tickCounts units moves) := by rw [hue]; exact id
  refine ⟨fun hoff => exec_ledgerTick_off hu (by rw [hue]; exact hoff), fun ha hq => ?_,
    fun ha hq hc hp hw hel hcq hm hf => ?_⟩
  · exact ⟨_, exec_ledgerTick_empty hu (halone ha) (by rw [hue]; exact hq), tick_of_empty hue hq⟩
  · have hfinds : Finds s (preVisit (tickCounts units moves) tj.toNat brake u) (tickCounts units moves) :=
      finds_preVisit hue hm hf
    have hv : Visitable _ q c := hfinds.visitable hq hc hp hw hel hcq
    have hexec := exec_ledgerTick_one (tj := tj) (brake := brake) hu (halone ha) (by rw [hue]; exact hm) hv.one.cands
    obtain ⟨hs, hbal, -, -⟩ := hfinds
    refine ⟨fun hb hk hd hn => ?_, fun hb => ?_⟩
    · obtain ⟨hcmd, hdiv, hwait⟩ := tick_admits hv (by rw [hs.div, hs.estimate, hbal]; exact hb)
        (by rw [hs.div, hs.peakNow _ (hs.admittedCmds ▸ hv.one.admitted), hs.peakOf, hs.peakMax]; exact hk)
        (by rw [hs.div]; exact hd) ((hs.needsDrained c).trans hn)
      exact ⟨_, _, hexec, hcmd, rfl, rfl, by rw [hs.div, ← hs.estimate]; rfl, rfl, hdiv.trans hs.div, hwait⟩
    · obtain ⟨hcmd, hwait⟩ := tick_waits hv (fun d hd => by rw [hs.estimate, hbal]; exact hb d hd)
      exact ⟨_, hexec, hcmd, hwait⟩

/-- Settles O49: the mesh's counts, a tick with no command or one candidate, and the ledger's events. -/
theorem ledgerTicksAndEvents : Obligations.LedgerTicksAndEvents := ⟨meshCounts, ledgerTicks, ledgerEvents⟩

end Sys2Proof
end

section
/-! Host queues: what an update of a queue, of one of its commands, or of a register leaves as it was. -/

namespace Sys2Proof

open Sys2Proof.Machine

/-! ### Frames of one queue -/

@[simp] theorem queue_rput (o v : Nat) (s : Machine.State) (q : QIdx) : (rput o v s).queue q = s.queue q := rfl

@[simp] theorem queue_rset (o : Nat) (f : Fld) (v : Nat) (s : Machine.State) (q : QIdx) : (rset o f v s).queue q = s.queue q := rfl

@[simp] theorem rget_modQueue (s : Machine.State) (q : QIdx) (g : HostQueue → HostQueue) (o : Nat) (f : Fld) :
    rget (s.modQueue q g) o f = rget s o f := rfl

section
variable {q : QIdx} {offs : List Nat} {u v w : Machine.State}

theorem OnlyQueue.refl (q : QIdx) (offs : List Nat) (u : Machine.State) : OnlyQueue q offs u u :=
  ⟨rfl, fun _ _ => rfl, fun _ _ => rfl, rfl⟩

theorem OnlyQueue.trans (a : OnlyQueue q offs u v) (b : OnlyQueue q offs v w) : OnlyQueue q offs u w :=
  ⟨b.rest.trans a.rest, fun o h => (b.regs o h).trans (a.regs o h), fun p h => (b.queues p h).trans (a.queues p h), b.host.trans a.host⟩

theorem OnlyQueue.mono {a b : List Nat} (h : OnlyQueue q a u v) (hs : a ⊆ b) : OnlyQueue q b u v :=
  ⟨h.rest, fun o ho => h.regs o (fun hx => ho (hs hx)), h.queues, h.host⟩

theorem OnlyQueue.of_onlyRegs (h : OnlyRegs offs u v) : OnlyQueue q offs u v := by
  have hv : v = { u with regs := v.regs } := by
    have := h.rest
    unfold noRegs at this
    calc v = { ({ v with regs := [] } : Machine.State) with regs := v.regs } := rfl
      _ = _ := by rw [this]
  exact ⟨by rw [hv]; rfl, h.regs, fun _ _ => by rw [hv]; rfl, by rw [hv]⟩

theorem onlyQueue_rput {o : Nat} (x : Nat) (ho : o ∈ offs) (h : OnlyQueue q offs u w) : OnlyQueue q offs u (rput o x w) :=
  h.trans ⟨rfl, fun _ hp => rraw_rput_other _ _ (fun e => hp (e ▸ ho)), fun _ _ => rfl, rfl⟩

theorem onlyQueue_rset {o : Nat} (f : Fld) (x : Nat) (ho : o ∈ offs) (h : OnlyQueue q offs u w) :
    OnlyQueue q offs u (rset o f x w) := onlyQueue_rput _ ho h

theorem onlyQueue_modQueue (f : HostQueue → HostQueue) (h : OnlyQueue q offs u w) : OnlyQueue q offs u (w.modQueue q f) :=
  h.trans ⟨rfl, fun _ _ => rfl, fun _ hp => queue_modQueue_other _ _ hp, rfl⟩

end

/-! ### One command -/

theorem find?_modSeq_same (seq : W32) {f : Cmd → Cmd} (hf : ∀ d, (f d).seq = d.seq) (l : List Cmd) :
    (modSeq seq f l).find? (fun c => c.seq == seq) = (l.find? (fun c => c.seq == seq)).map f := by
  induction l with
  | nil => rfl
  | cons d l ih =>
    by_cases hd : d.seq = seq
    · simp [modSeq, hd, hf]
    · simp [modSeq, hd, ih]

theorem find?_modSeq_other {seq k : W32} (hk : k ≠ seq) {f : Cmd → Cmd} (hf : ∀ d, (f d).seq = d.seq) (l : List Cmd) :
    (modSeq seq f l).find? (fun c => c.seq == k) = l.find? (fun c => c.seq == k) := by
  induction l with
  | nil => rfl
  | cons d l ih =>
    by_cases hd : d.seq = seq
    · have hne : d.seq ≠ k := fun e => hk (e.symm.trans hd)
      simp [modSeq, hd, hf, hk.symm]
    · by_cases hdk : d.seq = k
      · have hks : ¬ k = seq := hk
        simp [modSeq, hdk, hks]
      · simp [modSeq, hd, hdk, ih]

theorem seq_of_cmd {s : Machine.State} {q : QIdx} {seq : W32} {c : Cmd} (h : s.cmd q seq = some c) : c.seq = seq := by
  have := List.find?_some (p := fun c : Cmd => c.seq == seq) h
  simpa using this

section
variable {q : QIdx} {seq : W32} {c d e : Cmd} {offs : List Nat} {s u v : Machine.State}

/-- A command changed, its number kept. -/
theorem cmdLeft_modCmd {f : Cmd → Cmd} (hc : s.cmd q seq = some c) (hf : ∀ d, (f d).seq = d.seq) :
    CmdLeft q seq (f c) [] s (s.modCmd q seq f) where
  cmd := by
    unfold State.cmd State.modCmd at *
    rw [queue_modQueue_same, find?_modSeq_same seq hf, hc, Option.map_some]
  others k hk := by
    unfold State.cmd State.modCmd
    rw [queue_modQueue_same, find?_modSeq_other hk hf]
  frame := onlyQueue_modQueue _ (.refl ..)

theorem CmdLeft.trans (a : CmdLeft q seq c offs s u) (b : CmdLeft q seq d offs u v) : CmdLeft q seq d offs s v :=
  ⟨b.cmd, fun k hk => (b.others k hk).trans (a.others k hk), a.frame.trans b.frame⟩

theorem CmdLeft.mono {a b : List Nat} (h : CmdLeft q seq c a s u) (hs : a ⊆ b) : CmdLeft q seq c b s u :=
  ⟨h.cmd, h.others, h.frame.mono hs⟩

/-- What leaves the queue's commands as they are leaves this one so. -/
theorem CmdLeft.of_cmds (hc : s.cmd q seq = some c) (hq : (u.queue q).cmds = (s.queue q).cmds) (h : OnlyQueue q offs s u) :
    CmdLeft q seq c offs s u := by
  have hk : ∀ k, u.cmd q k = s.cmd q k := fun k => by unfold State.cmd; rw [hq]
  exact ⟨(hk seq).trans hc, fun k _ => hk k, h⟩

theorem cmdLeft_rput (o x : Nat) (hc : s.cmd q seq = some c) : CmdLeft q seq c [o] s (rput o x s) :=
  .of_cmds hc rfl (onlyQueue_rput _ (List.mem_singleton_self _) (.refl ..))

theorem cmdLeft_rset (o : Nat) (f : Fld) (x : Nat) (hc : s.cmd q seq = some c) : CmdLeft q seq c [o] s (rset o f x s) :=
  cmdLeft_rput o _ hc

theorem cmdLeft_phase (p : CmdPhase) (hc : s.cmd q seq = some c) :
    CmdLeft q seq { c with phase := p } [] s (s.modCmd q seq (fun c => { c with phase := p })) :=
  cmdLeft_modCmd (f := fun c => { c with phase := p }) hc (fun _ => rfl)

theorem endCmd_left (hc : s.cmd q seq = some c) : CmdLeft q seq { c with phase := .ended } [] s (endCmd q seq s) :=
  cmdLeft_phase .ended hc

/-- The first status that stops the queue stays with its command (R34). -/
theorem cmdReport_left {st : Status} (detail va : Nat) (hc : s.cmd q seq = some c) (hn : c.status = none) (hs : st.stops = true) :
    CmdLeft q seq { c with status := some st, detail := detail, faultAddr := va } [] s (cmdReport q seq st detail va s) := by
  have h := cmdLeft_modCmd (f := fun c => if st.stops then
      if c.status.isSome then c else { c with status := some st, detail := detail, faultAddr := va }
    else if st = .stepMismatch then { c with stepMis := true } else c) hc (fun d => by
      rw [if_pos hs]
      split <;> rfl)
  rwa [if_pos hs, hn, if_neg (by decide)] at h

theorem endWith_left {st : Status} (detail va : Nat) (hc : s.cmd q seq = some c) (hn : c.status = none) (hs : st.stops = true) :
    CmdLeft q seq { c with phase := .ended, status := some st, detail := detail, faultAddr := va } [] s
      (endWith q seq st detail va s) := by
  have h := cmdReport_left detail va hc hn hs
  exact h.trans (endCmd_left h.cmd)

theorem runCmd_atHand {op : Nat} (body : Cmd → Machine.State → Machine.State) (h : AtHand s q seq op c) :
    runCmd q seq op body s = .next (body c s) := by
  obtain ⟨hc, hp, ho⟩ := h
  simp only [runCmd, hc, hp, ho, if_true]

end

/-! ### NOP, EVENT_SIGNAL, EVENT_WAIT and CHAIN -/

theorem eventWaitSatisfied_running {q : QIdx} {seq : W32} {c : Cmd} {s : Machine.State} (hc : s.cmd q seq = some c)
    (hp : c.phase = .running) (ho : cmdOp c = 6) :
    exec (.eventWaitSatisfied q seq) s =
      .next (if cF c 0x14 4 ≤ rraw s (R.EVT (cF c 0x10 2)) then endCmd q seq s else s) := by
  simp only [exec, execEventWaitSatisfied, hc, hp, ho, opWait, true_and, evt]

theorem exec_eventSignal {q : QIdx} {seq : W32} {c : Cmd} {s : Machine.State} (h : AtHand s q seq 5 c) :
    exec (.eventSignal q seq) s = .next (endCmd q seq (rput (R.EVT (cF c 0x10 2))
      ((rraw s (R.EVT (cF c 0x10 2)) + cF c 0x14 4) % 2 ^ 32) s)) := by
  rw [exec, execEventSignal]
  exact runCmd_atHand _ h

theorem exec_eventWait {q : QIdx} {seq : W32} {c : Cmd} {s : Machine.State} (h : AtHand s q seq 6 c) :
    exec (.eventWait q seq) s = .next (if cF c 0x14 4 ≤ rraw s (R.EVT (cF c 0x10 2)) then endCmd q seq s
      else s.modCmd q seq (fun c => { c with phase := .running })) := by
  rw [exec, execEventWait]
  exact runCmd_atHand _ h

/-- A buffer takes the place of the one being read. -/
def chained (c : Cmd) (h : HostQueue) : HostQueue :=
  { h with cursor := some ⟨cF c 0x10 8, cF c 0x18 4, cF c 0x1C 1⟩, blocked := false }

theorem exec_chain {q : QIdx} {seq : W32} {c : Cmd} {s : Machine.State} (h : AtHand s q seq 10 c) :
    exec (.chain q seq) s = .next (endCmd q seq (s.modQueue q (chained c))) := by
  rw [exec, execChain]
  exact runCmd_atHand _ h

theorem queue_endCmd (q : QIdx) (seq : W32) (s : Machine.State) :
    (endCmd q seq s).queue q = { s.queue q with cmds := modSeq seq (fun c => { c with phase := .ended }) (s.queue q).cmds } :=
  queue_modQueue_same ..

/-- Settles O29: each of the four is the body that `runCmd` runs on the command at hand. -/
theorem immediateCommands : Obligations.ImmediateCommands := by
  rintro q seq c s n x rfl rfl
  refine ⟨fun h => ⟨_, runCmd_atHand _ h, endCmd_left h.1⟩, fun h _ => ⟨_, exec_eventSignal h, ?_, ?_⟩,
    fun h => ⟨_, exec_eventWait h, fun hle => ?_, fun hlt => ?_⟩,
    fun hc hp ho => ⟨fun hle => ⟨_, eventWaitSatisfied_running hc hp ho, ?_⟩, fun hlt => ?_⟩, fun h => ⟨_, exec_chain h, ?_, ?_, ?_⟩⟩
  · exact (rraw_rput_same ..).trans (Nat.mod_eq_of_lt (by omega))
  · have hput := cmdLeft_rput (R.EVT (cF c 0x10 2)) ((rraw s (R.EVT (cF c 0x10 2)) + cF c 0x14 4) % 2 ^ 32) h.1
    exact hput.trans ((endCmd_left hput.cmd).mono (List.nil_subset _))
  · rw [if_pos hle]
    exact endCmd_left h.1
  · rw [if_neg (Nat.not_le.mpr hlt)]
    exact cmdLeft_phase .running h.1
  · rw [if_pos hle]
    exact endCmd_left hc
  · rw [eventWaitSatisfied_running hc hp ho, if_neg (Nat.not_le.mpr hlt)]
  · have hcur : CmdLeft q seq c [] s (s.modQueue q (chained c)) :=
      .of_cmds h.1 (by rw [queue_modQueue_same]; rfl) (onlyQueue_modQueue _ (.refl ..))
    exact hcur.trans (endCmd_left hcur.cmd)
  all_goals rw [queue_endCmd, queue_modQueue_same]; rfl

end Sys2Proof
end

section
/-! Host queues: the fetch of submission entries and of the commands of a buffer in host memory. -/

namespace Sys2Proof

open Sys2Proof.Machine

/-! ### Bytes of host memory -/

theorem hostRd_drop (s : Machine.State) (a n off : Nat) : (hostRd s a n).drop off = hostRd s (a + off) (n - off) := by
  unfold hostRd
  apply List.ext_getElem
  · simp
  · intro i _ _
    simp [Nat.add_assoc]

theorem padTo_hostRd (s : Machine.State) (a : Nat) {k n : Nat} (h : k ≤ n) : padTo k (hostRd s a n) = hostRd s a k := by
  have hlen : (hostRd s a n).length = n := by simp [hostRd]
  have htake : (hostRd s a n).take k = hostRd s a k := by
    unfold hostRd
    rw [← List.map_take, List.take_range, Nat.min_eq_left h]
  rw [padTo, hlen, Nat.sub_eq_zero_of_le h, htake, List.replicate_zero, List.append_nil]

theorem leAt_hostRd (s : Machine.State) (a : Nat) {off k n : Nat} (h : off + k ≤ n) :
    leAt (hostRd s a n) off k = leNat (hostRd s (a + off) k) := by
  rw [leAt, hostRd_drop, padTo_hostRd _ _ (Nat.le_sub_of_add_le' h)]

/-! ### A command joins its queue -/

section
variable {q : QIdx} {c : Cmd} {offs : List Nat} {s u : Machine.State}

theorem onlyQueue_addCmd (h : OnlyQueue q offs u s) : OnlyQueue q offs u (addCmd q c s) := onlyQueue_modQueue _ h

theorem cmds_addCmd (q : QIdx) (c : Cmd) (s : Machine.State) : ((addCmd q c s).queue q).cmds = (s.queue q).cmds ++ [c] := by
  rw [addCmd, queue_modQueue_same]

theorem cursor_addCmd (q : QIdx) (c : Cmd) (s : Machine.State) : ((addCmd q c s).queue q).cursor = (s.queue q).cursor := by
  rw [addCmd, queue_modQueue_same]

theorem lastSeq_addCmd (hb : c.badRef = none) : ((addCmd q c s).queue q).lastSeq = some c.seq := by
  rw [addCmd, queue_modQueue_same, hb]
  rfl

theorem blocked_addCmd {st : Status} (hr : c.refused = some st) : ((addCmd q c s).queue q).blocked = true := by
  rw [addCmd, queue_modQueue_same, hr]
  simp

end

/-! ### COMMAND_FETCH -/

section
variable {q : QIdx} {s : Machine.State}

theorem exec_commandFetch_entry (hr : qState s q = 1) (hb : (s.queue q).blocked = false) (hc : (s.queue q).cursor = none) :
    exec (.commandFetch q) s = .next (fetchEntry q s) := by
  simp only [exec, execCommandFetch, hr, hb, hc, qRunning, and_self, if_true]

theorem exec_commandFetch_buffer {k : Cursor} (hr : qState s q = 1) (hb : (s.queue q).blocked = false)
    (hc : (s.queue q).cursor = some k) : exec (.commandFetch q) s = .next (fetchCmd q k s) := by
  simp only [exec, execCommandFetch, hr, hb, hc, qRunning, and_self, if_true]

/-- The refused command that stands for a bad submission entry at ring index `head` (R508). -/
def badRefCmd (seq : W32) (head : Nat) : Cmd :=
  { Cmd.fetched seq [] 0 with refused := some .aborted, badRef := some head, status := some .aborted, detail := head }

/-- The number a refused entry takes: the one after the last fetched, or 0. -/
def nextSeqOf (h : HostQueue) : W32 :=
  match h.lastSeq with
  | some l => l + 1
  | none => 0

/-- Host address of the submission entry at a ring index. -/
def entryAddr (s : Machine.State) (q : QIdx) (head : Nat) : Nat := rget s (R.QSQ_BASE q.toNat) F.QSQ_BASE_ADDR * 2 ^ 12 + 16 * head

/-- The queue's head advanced past one submission entry. -/
def headAdvanced (q : QIdx) (s : Machine.State) : Machine.State :=
  rset (R.QSQ_HEAD q.toNat) F.QSQ_HEAD_HEAD ((rget s (R.QSQ_HEAD q.toNat) F.QSQ_HEAD_HEAD + 1) % sqSize s q) s

theorem fetchEntry_empty (h : (s.queue q).sqTail = rget s (R.QSQ_HEAD q.toNat) F.QSQ_HEAD_HEAD) : fetchEntry q s = s := by
  simp [fetchEntry, h]

theorem fetchEntry_taken {head : Nat} (hh : head = rget s (R.QSQ_HEAD q.toNat) F.QSQ_HEAD_HEAD) (h : (s.queue q).sqTail ≠ head) :
    fetchEntry q s = if badEntry (hostRd s (entryAddr s q head) 16) then
        addCmd q (badRefCmd (nextSeqOf (s.queue q)) head) (headAdvanced q s)
      else (headAdvanced q s).modQueue q (fun h => { h with cursor := some ⟨leAt (hostRd s (entryAddr s q head) 16) 0 8,
        leAt (hostRd s (entryAddr s q head) 16) 8 4, leAt (hostRd s (entryAddr s q head) 16) 12 1⟩ }) := by
  subst hh
  rw [fetchEntry]
  dsimp only
  rw [if_neg h, Nat.shiftLeft_eq]
  rfl

theorem onlyQueue_headAdvanced (q : QIdx) (s : Machine.State) : OnlyQueue q [R.QSQ_HEAD q.toNat] s (headAdvanced q s) :=
  onlyQueue_rset _ _ (List.mem_singleton_self _) (.refl ..)

theorem head_headAdvanced (q : QIdx) (s : Machine.State) : rget (headAdvanced q s) (R.QSQ_HEAD q.toNat) F.QSQ_HEAD_HEAD =
    (rget s (R.QSQ_HEAD q.toNat) F.QSQ_HEAD_HEAD + 1) % 2 ^ rget s (R.QCFG q.toNat) F.QCFG_SQ_LOG2 % 2 ^ 16 :=
  rget_rset_same _ _ _ _ (by decide)

/-! ### The next command of a buffer in host memory -/

/-- The `n` units of 16 bytes at a host address, as a command fetched. -/
def hostCmd (s : Machine.State) (a n : Nat) : Cmd :=
  Cmd.fetched (BitVec.ofNat 32 (leNat (hostRd s (a + 4) 4))) (hostRd s a (16 * n)) 0

/-- A fetched command as the checks leave it: refused where they fail (R49). -/
def checked (c : Cmd) : Cmd := if cmdOk c then c else { c with refused := some .aborted, status := some .aborted }

theorem checked_seq (c : Cmd) : (checked c).seq = c.seq := by unfold checked; split <;> rfl

theorem checked_bytes (c : Cmd) : (checked c).bytes = c.bytes := by unfold checked; split <;> rfl

theorem checked_phase (c : Cmd) : (checked c).phase = c.phase := by unfold checked; split <;> rfl

theorem checked_badRef (c : Cmd) : (checked c).badRef = c.badRef := by unfold checked; split <;> rfl

theorem cmdOk_checked (c : Cmd) : cmdOk (checked c) = cmdOk c := by unfold checked; split <;> rfl

theorem checked_refused_iff {c : Cmd} (h : c.refused = none) : (checked c).refused = none ↔ cmdOk (checked c) = true := by
  rw [cmdOk_checked]
  unfold checked
  split
  next hok => simp [h, hok]
  next hbad => simp [hbad]

theorem cmdOp_hostCmd {a n : Nat} (hn : 0 < n) : cmdOp (hostCmd s a n) = leNat (hostRd s a 1) :=
  leAt_hostRd s a (off := 0) (by omega)

/-- A whole command in host memory that is no LAUNCH is taken, checked, and the cursor moves past it. -/
theorem fetchCmd_host {k : Cursor} {n : Nat} (hs : k.space = 0) (hn : n = leNat (hostRd s (k.addr + 2) 2)) (h0 : 0 < n)
    (hl : 16 * n ≤ k.left) (hop : leNat (hostRd s k.addr 1) ≠ 1) :
    fetchCmd q k s = addCmd q (checked (hostCmd s k.addr n)) (s.modQueue q (fun h => { h with
      cursor := if k.left = 16 * n then none else some ⟨k.addr + 16 * n, k.left - 16 * n, k.space⟩ })) := by
  obtain ⟨a, left, space⟩ := k
  subst hs
  have hlen : leAt (hostRd s a 16) 2 2 = n := (leAt_hostRd s a (by omega)).trans hn.symm
  have hseq : leAt (hostRd s a 16) 4 4 = leNat (hostRd s (a + 4) 4) := leAt_hostRd s a (by omega)
  have hread : ∀ m, cpRead 0 a m s = (.ok, hostRd s a m, s) := fun _ => rfl
  have hlaunch : ¬ cmdOp (hostCmd s a n) = opLaunch := by rw [cmdOp_hostCmd h0]; exact hop
  have hfit : ¬ (16 * n = 0 ∨ left < 16 * n) := by simp only at hl; omega
  unfold fetchCmd
  simp only [hread, hlen, hseq, ne_eq, not_true_eq_false, if_false, hfit]
  change (if (!cmdOk (hostCmd s a n)) = true then addCmd q _ _
    else if cmdOp (hostCmd s a n) = opLaunch then _ else addCmd q (hostCmd s a n) _) = _
  rw [if_neg hlaunch, checked]
  cases cmdOk (hostCmd s a n) <;> rfl

end

/-- Settles O28: an empty ring, the next submission entry, and the next command of a host buffer. -/
theorem commandsFetched : Obligations.CommandsFetched := by
  intro q s head a n hrun hopen hhead
  refine ⟨fun hcur hempty => ?_, fun hcur hmore ha => ?_, fun k hcur hspace hn h0 hleft hop => ?_⟩
  · rw [exec_commandFetch_entry hrun hopen hcur, fetchEntry_empty (hempty.trans hhead)]
  · have hv := exec_commandFetch_entry hrun hopen hcur
    have haddr : entryAddr s q head = a := ha.symm
    rw [fetchEntry_taken hhead hmore, haddr] at hv
    refine ⟨_, hv, ?_, ?_, fun hgood => ?_, fun hbad => ?_⟩
    · rw [hhead]
      split <;> exact head_headAdvanced q s
    · split
      · exact onlyQueue_addCmd (onlyQueue_headAdvanced q s)
      · exact onlyQueue_modQueue _ (onlyQueue_headAdvanced q s)
    · rw [hgood, if_neg Bool.false_ne_true, queue_modQueue_same]
      rw [leAt_hostRd _ _ (by omega), leAt_hostRd _ _ (by omega), leAt_hostRd _ _ (by omega)]
      rfl
    · rw [if_pos hbad]
      exact ⟨_, cmds_addCmd .., blocked_addCmd rfl, rfl, rfl, rfl, rfl⟩
  · have hv := exec_commandFetch_buffer hrun hopen hcur
    rw [fetchCmd_host hspace hn h0 hleft hop] at hv
    refine ⟨_, checked (hostCmd s k.addr n), hv, ?_, ?_, ?_, ?_, checked_refused_iff rfl, ?_, ?_, ?_⟩
    · rw [cmds_addCmd, queue_modQueue_same]
    · exact checked_seq _
    · exact checked_bytes _
    · exact checked_phase _
    · exact lastSeq_addCmd (checked_badRef _)
    · rw [cursor_addCmd, queue_modQueue_same, hspace]
    · exact onlyQueue_addCmd (onlyQueue_modQueue _ (.refl ..))

end Sys2Proof
end

section
/-! Host queues: writes of `QCFG`, the end of a drain, and the doorbells. -/

namespace Sys2Proof

open Sys2Proof.Machine

/-! ### Candidates that wait again -/

/-- A candidate that is no longer eligible waits for dispatch again (R507). -/
def recheckCmd (s : Machine.State) (q : QIdx) (c : Cmd) : Cmd :=
  match c.phase with
  | .candidate => if eligible s q c then c else { c with phase := .waiting, wait := 0 }
  | _ => c

/-- A candidate of a queue that leaves RUNNING waits for dispatch again. -/
def waitCmd (c : Cmd) : Cmd :=
  match c.phase with
  | .candidate => { c with phase := .waiting, wait := 0 }
  | _ => c

theorem recheck_eq (q : QIdx) (s : Machine.State) :
    recheck q s = s.modQueue q (fun h => { h with cmds := h.cmds.map (recheckCmd s q) }) := rfl

theorem unCandidate_eq (q : QIdx) (s : Machine.State) :
    unCandidate q s = s.modQueue q (fun h => { h with cmds := h.cmds.map waitCmd }) := rfl

theorem recheckCmd_seq (s : Machine.State) (q : QIdx) (c : Cmd) : (recheckCmd s q c).seq = c.seq := by
  unfold recheckCmd
  split
  · split <;> rfl
  · rfl

theorem recheckCmd_of_no_candidate {c : Cmd} (s : Machine.State) (q : QIdx) (h : c.phase ≠ .candidate) : recheckCmd s q c = c := by
  unfold recheckCmd
  split
  next hp => exact absurd hp h
  next => rfl

theorem waitCmd_seq (c : Cmd) : (waitCmd c).seq = c.seq := by
  unfold waitCmd
  split <;> rfl

theorem waitCmd_phase (c : Cmd) : (waitCmd c).phase ≠ .candidate := by
  unfold waitCmd
  split
  · nofun
  next h => exact h

theorem map_seq_of_keeps {φ : Cmd → Cmd} (h : ∀ c, (φ c).seq = c.seq) (l : List Cmd) : (l.map φ).map (·.seq) = l.map (·.seq) := by
  rw [List.map_map]
  exact List.map_congr_left fun c _ => h c

/-! ### Registers of one queue -/

theorem qcfg_ne_qstat (n : Nat) : R.QCFG n ≠ R.QSTAT n := by unfold R.QCFG R.QSTAT; omega

theorem qhead_ne_qcfg (n : Nat) : R.QSQ_HEAD n ≠ R.QCFG n := by unfold R.QSQ_HEAD R.QCFG; omega

theorem qhead_ne_qstat (n : Nat) : R.QSQ_HEAD n ≠ R.QSTAT n := by unfold R.QSQ_HEAD R.QSTAT; omega

theorem qhead_ne_qtail (n : Nat) : R.QSQ_HEAD n ≠ R.QCQ_TAIL n := by unfold R.QSQ_HEAD R.QCQ_TAIL; omega

theorem qtail_ne_qcfg (n : Nat) : R.QCQ_TAIL n ≠ R.QCFG n := by unfold R.QCQ_TAIL R.QCFG; omega

theorem qtail_ne_qstat (n : Nat) : R.QCQ_TAIL n ≠ R.QSTAT n := by unfold R.QCQ_TAIL R.QSTAT; omega

theorem OnlyQueue.rget {q : QIdx} {offs : List Nat} {u v : Machine.State} (h : OnlyQueue q offs u v) {o : Nat} (f : Fld)
    (ho : o ∉ offs) : rget v o f = rget u o f := by
  unfold Machine.rget
  rw [h.regs o ho]

/-! ### What a write of `QCFG` changes before its EN acts -/

/-- EXPERT, LOOKAHEAD and, while DISABLED, the ring sizes written; the queue's candidates checked again. -/
def configured (q : QIdx) (x : Nat) (s : Machine.State) : Machine.State := recheck q (writeQcfg q x s)

section
variable {q : QIdx} {s : Machine.State}

theorem onlyQueue_configured (q : QIdx) (x : Nat) (s : Machine.State) : OnlyQueue q [R.QCFG q.toNat] s (configured q x s) := by
  have hlevel : OnlyQueue q [R.QCFG q.toNat] s
      (rset (R.QCFG q.toNat) F.QCFG_LOOKAHEAD (bits x 14 5) (rset (R.QCFG q.toNat) F.QCFG_EXPERT (bits x 2 1) s)) :=
    onlyQueue_rset _ _ (by simp) (onlyQueue_rset _ _ (by simp) (.refl ..))
  rw [configured, recheck_eq]
  refine onlyQueue_modQueue _ ?_
  unfold writeQcfg
  dsimp only
  split
  · exact onlyQueue_rset _ _ (by simp) (onlyQueue_rset _ _ (by simp) hlevel)
  · exact hlevel

theorem queue_writeQcfg (q : QIdx) (x : Nat) (s : Machine.State) : (writeQcfg q x s).queue q = s.queue q := by
  unfold writeQcfg
  dsimp only
  split <;> simp only [queue_rset]

theorem queue_configured (q : QIdx) (x : Nat) (s : Machine.State) : (configured q x s).queue q =
    { s.queue q with cmds := (s.queue q).cmds.map (recheckCmd (writeQcfg q x s) q) } := by
  rw [configured, recheck_eq, queue_modQueue_same, queue_writeQcfg]

theorem queue_configured_of_no_candidate (x : Nat) (h : ∀ c ∈ (s.queue q).cmds, c.phase ≠ .candidate) :
    (configured q x s).queue q = s.queue q := by
  have hmap : (s.queue q).cmds.map (recheckCmd (writeQcfg q x s) q) = (s.queue q).cmds :=
    (List.map_congr_left (g := id) fun c hc => recheckCmd_of_no_candidate _ _ (h c hc)).trans (List.map_id _)
  rw [queue_configured, hmap]

theorem qState_configured (q : QIdx) (x : Nat) (s : Machine.State) : qState (configured q x s) q = qState s q :=
  (onlyQueue_configured q x s).rget _ (by simp [(qcfg_ne_qstat _).symm])

theorem sizes_configured (x : Nat) (h : qState s q = 0) :
    rget (configured q x s) (R.QCFG q.toNat) F.QCFG_SQ_LOG2 = bits x 4 5 ∧
      rget (configured q x s) (R.QCFG q.toNat) F.QCFG_CQ_LOG2 = bits x 9 5 := by
  have hlevel : qState (rset (R.QCFG q.toNat) F.QCFG_LOOKAHEAD (bits x 14 5) (rset (R.QCFG q.toNat) F.QCFG_EXPERT (bits x 2 1) s)) q =
      qDisabled := by
    unfold qState
    rw [rget_rset_other _ _ _ _ (qcfg_ne_qstat _).symm, rget_rset_other _ _ _ _ (qcfg_ne_qstat _).symm]
    exact h
  rw [configured, recheck_eq, rget_modQueue, rget_modQueue, writeQcfg, if_pos hlevel, rget_rset_field _ _ _ _ _ (by decide) (by decide), rget_rset_same _ _ _ _ (by decide),
    rget_rset_same _ _ _ _ (by decide)]
  exact ⟨Nat.mod_eq_of_lt (bits_lt ..), Nat.mod_eq_of_lt (bits_lt ..)⟩

/-! ### What EN and RESUME do in each state (Table 2-7) -/

theorem qcfgWrite_disabled {x : Nat} (h : qState s q = 0) (hen : bit x 0 = true) :
    qcfgWrite q x s = enableQueue q (configured q x s) := by
  have hk : qState (configured q x s) q = qDisabled := (qState_configured ..).trans h
  unfold qcfgWrite
  dsimp only
  rw [← configured, if_pos hk, if_pos hen]

theorem qcfgWrite_draining {x : Nat} (h : qState s q = 3) (hen : bit x 0 = true) :
    qcfgWrite q x s = rset (R.QSTAT q.toNat) F.QSTAT_PEND_EN 1 (configured q x s) := by
  have hk : qState (configured q x s) q = qDraining := (qState_configured ..).trans h
  unfold qcfgWrite
  dsimp only
  rw [← configured, hk, if_neg (by decide), if_pos rfl, hen]
  rfl

theorem qcfgWrite_off {x : Nat} (h : qState s q = 1 ∨ qState s q = 2) (hen : bit x 0 = false) :
    qcfgWrite q x s = disableQueue q (configured q x s) := by
  have hk : qState (configured q x s) q = qState s q := qState_configured ..
  unfold qcfgWrite
  dsimp only
  rw [← configured, hk, if_neg (by simp only [qDisabled]; omega), if_neg (by simp only [qDraining]; omega), hen]
  rfl

theorem qcfgWrite_resume {x : Nat} (h : qState s q = 2) (hen : bit x 0 = true) (hres : bit x 1 = true) :
    qcfgWrite q x s = resumeQueue q (configured q x s) := by
  have hk : qState (configured q x s) q = qStopped := (qState_configured ..).trans h
  unfold qcfgWrite
  dsimp only
  rw [← configured, hk, if_neg (by decide), if_neg (by decide), hen, if_neg (by decide), if_pos ⟨rfl, hres⟩]

/-- The queue started with empty rings, before EN is set. -/
def started (q : QIdx) (s : Machine.State) : Machine.State :=
  setQState q qRunning (rput (R.QCQ_TAIL q.toNat) 0 (rput (R.QSQ_HEAD q.toNat) 0 (s.modQueue q (fun _ => HostQueue.reset))))

/-- The ring sizes that a queue holds are legal (R46). -/
def LegalSizes (s : Machine.State) (q : QIdx) : Prop :=
  6 ≤ rget s (R.QCFG q.toNat) F.QCFG_SQ_LOG2 ∧ rget s (R.QCFG q.toNat) F.QCFG_SQ_LOG2 ≤ 16 ∧
    6 ≤ rget s (R.QCFG q.toNat) F.QCFG_CQ_LOG2 ∧ rget s (R.QCFG q.toNat) F.QCFG_CQ_LOG2 ≤ 16

theorem enableQueue_legal (h : LegalSizes s q) :
    enableQueue q s = rset (R.QCFG q.toNat) F.QCFG_EN 1 (rset (R.QSTAT q.toNat) F.QSTAT_CQ_FULL 0 (started q s)) := if_pos h

theorem enableQueue_illegal (h : ¬ LegalSizes s q) :
    enableQueue q s = rset (R.QSTAT q.toNat) F.QSTAT_CFG_ERR 1 (rset (R.QCFG q.toNat) F.QCFG_EN 0 s) := if_neg h

/-- Registers that enabling a queue writes. -/
def enableRegs (q : QIdx) : List Nat := [R.QCFG q.toNat, R.QSTAT q.toNat, R.QSQ_HEAD q.toNat, R.QCQ_TAIL q.toNat]

/-- From `u`, the queue runs with empty rings in `v`. -/
structure QueueStarted (q : QIdx) (u v : Machine.State) : Prop where
  state : qState v q = 1
  en    : rget v (R.QCFG q.toNat) F.QCFG_EN = 1
  sizes : rget v (R.QCFG q.toNat) F.QCFG_SQ_LOG2 = rget u (R.QCFG q.toNat) F.QCFG_SQ_LOG2 ∧
    rget v (R.QCFG q.toNat) F.QCFG_CQ_LOG2 = rget u (R.QCFG q.toNat) F.QCFG_CQ_LOG2
  rings : rraw v (R.QSQ_HEAD q.toNat) = 0 ∧ rraw v (R.QCQ_TAIL q.toNat) = 0
  queue : v.queue q = HostQueue.reset
  frame : OnlyQueue q (enableRegs q) u v

theorem onlyQueue_started (q : QIdx) (s : Machine.State) : OnlyQueue q (enableRegs q) s (started q s) :=
  onlyQueue_rset _ _ (by simp [enableRegs]) (onlyQueue_rput _ (by simp [enableRegs]) (onlyQueue_rput _ (by simp [enableRegs])
    (onlyQueue_modQueue _ (.refl ..))))

theorem qcfg_started (q : QIdx) (s : Machine.State) (f : Fld) :
    rget (started q s) (R.QCFG q.toNat) f = rget s (R.QCFG q.toNat) f := by
  rw [started, setQState, rget_rset_other _ _ _ _ (qcfg_ne_qstat _), rget_rput_other _ _ _ (qtail_ne_qcfg _).symm,
    rget_rput_other _ _ _ (qhead_ne_qcfg _).symm, rget_modQueue]

theorem head_started (q : QIdx) (s : Machine.State) : rraw (started q s) (R.QSQ_HEAD q.toNat) = 0 := by
  rw [started, setQState, rraw_rset_other _ _ _ (qhead_ne_qstat _), rraw_rput_other _ _ (qhead_ne_qtail _), rraw_rput_same,
    Nat.zero_mod]

theorem tail_started (q : QIdx) (s : Machine.State) : rraw (started q s) (R.QCQ_TAIL q.toNat) = 0 := by
  rw [started, setQState, rraw_rset_other _ _ _ (qtail_ne_qstat _), rraw_rput_same, Nat.zero_mod]

theorem queueStarted_enable (h : LegalSizes s q) : QueueStarted q s (enableQueue q s) := by
  rw [enableQueue_legal h]
  refine ⟨?_, ?_, ⟨?_, ?_⟩, ⟨?_, ?_⟩, ?_, ?_⟩
  · unfold qState
    rw [rget_rset_other _ _ _ _ (qcfg_ne_qstat _).symm, rget_rset_field _ _ _ _ _ (by decide) (by decide), started, setQState,
      rget_rset_same _ _ _ _ (by decide)]
    rfl
  · rw [rget_rset_same _ _ _ _ (by decide)]
    rfl
  · rw [rget_rset_field _ _ _ _ _ (by decide) (by decide), rget_rset_other _ _ _ _ (qcfg_ne_qstat _), qcfg_started]
  · rw [rget_rset_field _ _ _ _ _ (by decide) (by decide), rget_rset_other _ _ _ _ (qcfg_ne_qstat _), qcfg_started]
  · rw [rraw_rset_other _ _ _ (qhead_ne_qcfg _), rraw_rset_other _ _ _ (qhead_ne_qstat _), head_started]
  · rw [rraw_rset_other _ _ _ (qtail_ne_qcfg _), rraw_rset_other _ _ _ (qtail_ne_qstat _), tail_started]
  · exact queue_modQueue_same s q (fun _ => HostQueue.reset)
  · exact onlyQueue_rset _ _ (by simp [enableRegs]) (onlyQueue_rset _ _ (by simp [enableRegs]) (onlyQueue_started q s))

@[simp] theorem qState_modQueue (f : HostQueue → HostQueue) : qState (s.modQueue q f) q = qState s q := rfl

theorem qState_setQState (x : Nat) : qState (setQState q x s) q = x % 4 := rget_rset_same _ _ _ _ (by decide)

theorem qcfg_setQState (x : Nat) (f : Fld) : rget (setQState q x s) (R.QCFG q.toNat) f = rget s (R.QCFG q.toNat) f :=
  rget_rset_other _ _ _ _ (qcfg_ne_qstat _)

theorem qState_disableQueue (q : QIdx) (s : Machine.State) : qState (disableQueue q s) q = 3 := by
  rw [disableQueue, unCandidate_eq, qState_modQueue, qState_setQState]
  rfl

theorem en_disableQueue (q : QIdx) (s : Machine.State) : rget (disableQueue q s) (R.QCFG q.toNat) F.QCFG_EN = 0 := by
  rw [disableQueue, unCandidate_eq, rget_modQueue, qcfg_setQState, rget_rset_same _ _ _ _ (by decide)]
  rfl

theorem cmds_disableQueue (q : QIdx) (s : Machine.State) :
    ((disableQueue q s).queue q).cmds = (s.queue q).cmds.map waitCmd := by
  rw [disableQueue, unCandidate_eq, queue_modQueue_same, setQState, queue_rset, queue_rset]

theorem onlyQueue_disableQueue {u : Machine.State} {offs : List Nat} (hcfg : R.QCFG q.toNat ∈ offs) (hstat : R.QSTAT q.toNat ∈ offs)
    (h : OnlyQueue q offs u s) : OnlyQueue q offs u (disableQueue q s) := by
  rw [disableQueue, unCandidate_eq, setQState]
  exact onlyQueue_modQueue _ (onlyQueue_rset _ _ hstat (onlyQueue_rset _ _ hcfg h))

theorem resumeQueue_of_empty (h : (s.queue q).cmds = []) : resumeQueue q s =
    setQState q qRunning (s.modQueue q (fun h => { h with lost := h.lost ++ h.stops, stops := [] })) := by
  have hnone : ((setQState q qRunning (s.modQueue q (fun h => { h with lost := h.lost ++ h.stops, stops := [] }))).queue q).cmds = [] := by
    rw [setQState, queue_rset, queue_modQueue_same]
    exact h
  unfold resumeQueue
  dsimp only
  rw [hnone, List.foldl_nil]

end

/-! ### The words that a write of `QCFG` carries -/

theorem bits_enable (x : Nat) : bits (x / 4 * 4 + 1) 4 5 = x / 2 ^ 4 % 32 ∧ bits (x / 4 * 4 + 1) 9 5 = x / 2 ^ 9 % 32 := by
  simp only [bits, Nat.shiftRight_eq_div_pow]
  omega

theorem bit_zero_enable (x : Nat) : bit (x / 4 * 4 + 1) 0 = true := by
  simp only [bit, Nat.testBit_zero, decide_eq_true_eq]
  omega

theorem bit_zero_disable (x : Nat) : bit (x / 2 * 2) 0 = false := by
  simp [bit, Nat.testBit_zero]

theorem bit_zero_resume {x : BitVec 32} (h : x.getLsbD 0 = true) : bit (x.toNat ||| 2) 0 = true := by
  rw [bit, Nat.testBit_or]
  exact Bool.or_eq_true_iff.mpr (.inl h)

theorem bit_one_resume (x : Nat) : bit (x ||| 2) 1 = true := by
  rw [bit, Nat.testBit_or]
  exact Bool.or_eq_true_iff.mpr (.inr (by decide))

section
variable {q : QIdx} {cfg : BitVec 32} {s : Machine.State} (hh : HostReaches s (hostCtl s))
include hh

theorem exec_queueEnable : exec (.queueEnable q cfg) s = .next (qcfgWrite q (cfg.toNat / 4 * 4 + 1) s) := by
  rw [exec, execQueueEnable, hostWrite_of_reaches _ hh]

theorem exec_queueDisable : exec (.queueDisable q cfg) s = .next (qcfgWrite q (cfg.toNat / 2 * 2) s) := by
  rw [exec, execQueueDisable, hostWrite_of_reaches _ hh]

theorem exec_queueResume : exec (.queueResume q cfg) s = .next (qcfgWrite q (cfg.toNat ||| 2) s) := by
  rw [exec, execQueueResume, hostWrite_of_reaches _ hh]

end

theorem queueControl : Claims.QueueControl := by
  rintro q cfg a b s hh ha hb
  have hcfg : ∀ x, OnlyQueue q [R.QCFG q.toNat, R.QSTAT q.toNat] s (configured q x s) :=
    fun x => (onlyQueue_configured q x s).mono (by simp)
  have hsize (h0 : qState s q = 0) : rget (configured q (cfg.toNat / 4 * 4 + 1) s) (R.QCFG q.toNat) F.QCFG_SQ_LOG2 = a ∧
      rget (configured q (cfg.toNat / 4 * 4 + 1) s) (R.QCFG q.toNat) F.QCFG_CQ_LOG2 = b := by
    rw [ha, hb, ← (bits_enable cfg.toNat).1, ← (bits_enable cfg.toNat).2]
    exact sizes_configured _ h0
  have hlegal (h0 : qState s q = 0) : LegalSizes (configured q (cfg.toNat / 4 * 4 + 1) s) q ↔ (6 ≤ a ∧ a ≤ 16) ∧ 6 ≤ b ∧ b ≤ 16 := by
    rw [LegalSizes, (hsize h0).1, (hsize h0).2, and_assoc]
  refine ⟨fun h0 hl => ?_, fun h0 hl => ?_, fun h3 => ?_, fun h12 => ?_, fun h2 hen hnone => ?_⟩
  · obtain ⟨hstate, hen, ⟨hsq, hcq⟩, ⟨hhead, htail⟩, hqueue, hframe⟩ := queueStarted_enable ((hlegal h0).mpr hl)
    refine ⟨_, (exec_queueEnable hh).trans (congrArg _ (qcfgWrite_disabled h0 (bit_zero_enable _))), hstate, hen,
      hsq.trans (hsize h0).1, hcq.trans (hsize h0).2, hhead, htail, hqueue, ?_⟩
    exact ((onlyQueue_configured ..).mono (by simp)).trans hframe
  · have hv := (exec_queueEnable hh).trans (congrArg _ (qcfgWrite_disabled (q := q) h0 (bit_zero_enable cfg.toNat)))
    rw [enableQueue_illegal (mt (hlegal h0).mp hl)] at hv
    refine ⟨_, hv, ?_, ?_, ?_, ?_, fun hcand => ?_⟩
    · unfold qState
      rw [rget_rset_field _ _ _ _ _ (by decide) (by decide), rget_rset_other _ _ _ _ (qcfg_ne_qstat _).symm]
      exact (qState_configured q _ s).trans h0
    · rw [rget_rset_other _ _ _ _ (qcfg_ne_qstat _), rget_rset_same _ _ _ _ (by decide)]
      rfl
    · exact rget_rset_same _ _ _ _ (by decide)
    · exact onlyQueue_rset _ _ (by simp) (onlyQueue_rset _ _ (by simp) (hcfg _))
    · rw [queue_rset, queue_rset, queue_configured_of_no_candidate _ hcand]
  · refine ⟨_, (exec_queueEnable hh).trans (congrArg _ (qcfgWrite_draining h3 (bit_zero_enable _))), ?_, ?_, ?_, fun hcand => ?_⟩
    · unfold qState
      rw [rget_rset_field _ _ _ _ _ (by decide) (by decide)]
      exact (qState_configured ..).trans h3
    · exact rget_rset_same _ _ _ _ (by decide)
    · exact onlyQueue_rset _ _ (by simp) (hcfg _)
    · rw [queue_rset, queue_configured_of_no_candidate _ hcand]
  · have hv := (exec_queueDisable hh).trans (congrArg _ (qcfgWrite_off h12 (bit_zero_disable cfg.toNat)))
    refine ⟨_, hv, qState_disableQueue .., en_disableQueue .., ?_, ?_, onlyQueue_disableQueue (by simp) (by simp) (hcfg _)⟩
    · rw [cmds_disableQueue]
      intro c hc
      obtain ⟨d, -, rfl⟩ := List.mem_map.mp hc
      exact waitCmd_phase d
    · rw [cmds_disableQueue, queue_configured]
      exact (map_seq_of_keeps waitCmd_seq _).trans (map_seq_of_keeps (recheckCmd_seq _ _) _)
  · have hsame : (configured q (cfg.toNat ||| 2) s).queue q = s.queue q :=
      queue_configured_of_no_candidate _ (by simp [hnone])
    have hv := (exec_queueResume hh).trans (congrArg _ (qcfgWrite_resume (q := q) h2 (bit_zero_resume hen) (bit_one_resume _)))
    rw [resumeQueue_of_empty (by rw [hsame]; exact hnone)] at hv
    refine ⟨_, hv, ?_, ?_, ?_⟩
    · exact rget_rset_same _ _ _ _ (by decide)
    · rw [setQState, queue_rset, queue_modQueue_same, hsame]
    · exact onlyQueue_rset _ _ (by simp) (onlyQueue_modQueue _ (hcfg _))

/-! ### The end of a drain, and the doorbells -/

section
variable {q : QIdx} {s : Machine.State}

/-- The drained queue, before PEND_EN acts. -/
def drainEnded (q : QIdx) (s : Machine.State) : Machine.State :=
  setQState q qDisabled (s.modQueue q (fun h => { h with cmds := [], cursor := none, blocked := false }))

theorem all_undispatched_iff (l : List Cmd) : l.all (fun c => !dispatched c) = true ↔ ∀ c ∈ l, dispatched c = false := by
  simp

theorem exec_queueDrainDone (h3 : qState s q = 3) (hd : ∀ c ∈ (s.queue q).cmds, dispatched c = false)
    (hp : rget s (R.QSTAT q.toNat) F.QSTAT_PEND_EN = 0) : exec (.queueDrainDone q) s = .next (drainEnded q s) := by
  have hpend : rbit (drainEnded q s) (R.QSTAT q.toNat) F.QSTAT_PEND_EN = false := by
    rw [rbit, drainEnded, setQState, rget_rset_field _ _ _ _ _ (by decide) (by decide), rget_modQueue, hp]
    rfl
  rw [exec, execQueueDrainDone, if_pos ⟨h3, (all_undispatched_iff _).mpr hd⟩]
  dsimp only
  rw [← drainEnded, hpend]
  rfl

theorem exec_queueDrainDone_waits (h : ¬ (qState s q = 3 ∧ ∀ c ∈ (s.queue q).cmds, dispatched c = false)) :
    exec (.queueDrainDone q) s = .next s := by
  rw [exec, execQueueDrainDone, if_neg]
  rwa [all_undispatched_iff]

theorem exec_sqDoorbell {x : BitVec 16} (hh : HostReaches s 3) : exec (.sqDoorbell q x) s = .next (sqDoorbell q x.toNat s) := by
  rw [exec, execSqDoorbell, hostWrite_of_reaches _ hh]

theorem exec_cqDoorbell {x : BitVec 16} (hh : HostReaches s 3) : exec (.cqDoorbell q x) s = .next (cqDoorbell q x.toNat s) := by
  rw [exec, execCqDoorbell, hostWrite_of_reaches _ hh]

/-- The records at ring indices the host has released, a HEAD of `h` given, are kept no longer. -/
def released (s : Machine.State) (q : QIdx) (h : Nat) (k : HostQueue) : HostQueue :=
  { k with
    cqHead := h
    recs := k.recs.filter (fun r => decide ((r.1 + cqSize s q - h) % cqSize s q < (cqTail s q + cqSize s q - h) % cqSize s q)) }

theorem sqDoorbell_used (x : Nat) (h : qState s q ≠ 0) :
    sqDoorbell q x s = s.modQueue q (fun h => { h with sqTail := x % sqSize s q }) := if_neg h

theorem cqDoorbell_used (x : Nat) (h : qState s q ≠ 0) :
    cqDoorbell q x s = if x % cqSize s q = (s.queue q).cqHead then s.modQueue q (released s q (x % cqSize s q))
      else rset (R.QSTAT q.toNat) F.QSTAT_CQ_FULL 0 (s.modQueue q (released s q (x % cqSize s q))) := if_neg h

theorem queue_cqDoorbell (x : Nat) (h : qState s q ≠ 0) :
    (cqDoorbell q x s).queue q = released s q (x % cqSize s q) (s.queue q) := by
  rw [cqDoorbell_used _ h]
  split
  · exact queue_modQueue_same ..
  · rw [queue_rset, queue_modQueue_same]

theorem onlyQueue_cqDoorbell (x : Nat) (h : qState s q ≠ 0) : OnlyQueue q [R.QSTAT q.toNat] s (cqDoorbell q x s) := by
  rw [cqDoorbell_used _ h]
  split
  · exact onlyQueue_modQueue _ (.refl ..)
  · exact onlyQueue_rset _ _ (by simp) (onlyQueue_modQueue _ (.refl ..))

end

theorem queueDrainsAndDoorbells : Claims.QueueDrainsAndDoorbells := by
  intro q x s
  refine ⟨fun h3 hd hp => ⟨_, exec_queueDrainDone h3 hd hp, ?_, ?_, ?_⟩, exec_queueDrainDone_waits, fun hh => ⟨fun h0 c hc => ?_,
    fun hused => ⟨⟨_, exec_sqDoorbell hh, ?_⟩, _, exec_cqDoorbell hh, ?_⟩⟩⟩
  · exact rget_rset_same _ _ _ _ (by decide)
  · rw [drainEnded, setQState, queue_rset, queue_modQueue_same]
  · exact onlyQueue_rset _ _ (by simp) (onlyQueue_modQueue _ (.refl ..))
  · refine ⟨rset (R.QSTAT q.toNat) F.QSTAT_DB_DISABLED 1 s, ?_, rget_rset_same _ _ _ _ (by decide),
      onlyRegs_rset _ _ (by simp) (.refl ..)⟩
    rcases List.mem_pair.mp hc with rfl | rfl
    · exact (exec_sqDoorbell hh).trans (congrArg _ (if_pos h0))
    · exact (exec_cqDoorbell hh).trans (congrArg _ (if_pos h0))
  · rw [sqDoorbell_used _ hused]
    exact ⟨queue_modQueue_same .., onlyQueue_modQueue _ (.refl ..)⟩
  · refine ⟨?_, fun hne => ?_, fun heq => ?_, onlyQueue_cqDoorbell _ hused⟩
    · rw [queue_cqDoorbell _ hused]
      rfl
    · rw [cqDoorbell_used _ hused, cqSize, if_neg hne, rget_rset_same _ _ _ _ (by decide)]
      rfl
    · rw [cqDoorbell_used _ hused, cqSize, if_pos heq, rraw_modQueue]

/-- Settles O27: writes of `QCFG` in each state, then drains and doorbells. -/
theorem queueControlAndDoorbells : Obligations.QueueControlAndDoorbells := ⟨queueControl, queueDrainsAndDoorbells⟩

end Sys2Proof
end

section
/-! COPY: the ranges it may reach, and the bytes it moves or leaves undefined. -/

namespace Sys2Proof

open Sys2Proof.Machine

/-! ### What a change of one queue keeps -/

section
variable {q : QIdx} {offs : List Nat} {u v : Machine.State}

theorem OnlyQueue.mem (h : OnlyQueue q offs u v) : v.mem = u.mem := congrArg (fun s => s.mem) h.rest

theorem OnlyQueue.freeCtr (h : OnlyQueue q offs u v) : v.freeCtr = u.freeCtr := congrArg (fun s => s.freeCtr) h.rest

theorem OnlyQueue.exd (h : OnlyQueue q offs u v) : v.exd = u.exd := congrArg (fun s => s.exd) h.rest

theorem OnlyQueue.hostByte (h : OnlyQueue q offs u v) (a : Nat) : hostByte v a = hostByte u a := by
  unfold Sys2Proof.hostByte
  rw [h.host]

theorem OnlyQueue.rdByte (h : OnlyQueue q offs u v) (a : Nat) : rdByte v a = rdByte u a := by
  unfold Machine.rdByte
  rw [h.mem]

theorem cmd_of_queues (h : v.queues = u.queues) (q : QIdx) (seq : W32) : v.cmd q seq = u.cmd q seq := by
  unfold State.cmd State.queue
  rw [h]

end

/-! ### Bytes of host memory written -/

/-- Values written in order, as one key sees them. -/
theorem mget_msets {α : Type} [DecidableEq α] (d : Nat → α) (l : List (Nat × α)) (m : Map α) (a : Nat) :
    mget d (msets d m l) a = l.foldl (fun b c => if a = c.1 then c.2 else b) (mget d m a) := by
  unfold msets
  induction l generalizing m with
  | nil => rfl
  | cons c l ih => rw [List.foldl_cons, ih, mget_mset, List.foldl_cons]

/-- A byte list at consecutive host addresses, as one address sees it. -/
theorem hostByte_hostWr (dst : Nat) (l : List Byte) (s : Machine.State) (a : Nat) :
    hostByte (hostWr dst l s) a = if dst ≤ a then (l[a - dst]?).getD (hostByte s a) else hostByte s a :=
  (mget_msets _ _ _ a).trans (foldl_zipIdx_cells l dst a 0 _)

theorem hostByte_copied (src dst n : Nat) (s : Machine.State) (a : Nat) : hostByte (hostWr dst (hostRd s src n) s) a =
    if dst ≤ a ∧ a < dst + n then hostByte s (src + (a - dst)) else hostByte s a := by
  rw [hostByte_hostWr]
  by_cases hin : dst ≤ a ∧ a < dst + n
  · rw [if_pos hin.1, if_pos hin, hostRd, List.getElem?_map, List.getElem?_range (by omega)]
    rfl
  · rw [if_neg hin]
    split
    · rw [hostRd, List.getElem?_map, List.getElem?_eq_none (by simp only [List.length_range]; omega)]
      rfl
    · rfl

/-- The free values that a range of host memory takes. -/
def freeRange (s : Machine.State) (n : Nat) : List Byte := (List.range n).map (fun k => Config.freeByte (s.freeCtr + k))

theorem undefineRange_host (a n : Nat) (s : Machine.State) :
    undefineRange 0 a n s = { hostWr a (freeRange s n) s with freeCtr := s.freeCtr + n } := by
  have hcells : (((List.range n).map (a + ·)).zipIdx.map (fun p => (p.1, Config.freeByte (s.freeCtr + p.2)))) =
      (freeRange s n).zipIdx.map (fun p => (a + p.2, p.1)) := by
    apply List.ext_getElem
    · simp [freeRange]
    · intro i _ _
      simp [freeRange]
  rw [undefineRange, if_neg (by decide), hcells]
  rfl

theorem hostByte_undefined (a n : Nat) (s : Machine.State) (b : Nat) : hostByte (undefineRange 0 a n s) b =
    if a ≤ b then ((freeRange s n)[b - a]?).getD (hostByte s b) else hostByte s b := by
  rw [undefineRange_host]
  exact hostByte_hostWr a (freeRange s n) s b

/-! ### Ranges -/

theorem place_gap {a : Nat} (h : ¬ a < hbmTop) (hs : a < spadBase) : place a = .none := by
  unfold hbmTop at h
  unfold spadBase at hs
  unfold place hbmTop spadBase csrBase morBase
  rw [if_neg h, if_neg (by omega), if_neg (by omega), if_neg (by omega)]

theorem reachEnd_below_spad (s : Machine.State) {a : Nat} (h : a < spadBase) : reachEnd s a = max a hbmTop := by
  unfold reachEnd
  by_cases htop : a < hbmTop
  · rw [place_hbm htop, Nat.max_eq_right (Nat.le_of_lt htop)]
  · rw [place_gap htop h, Nat.max_eq_left (Nat.le_of_not_lt htop)]

theorem firstRefused_past_hbm (s : Machine.State) {a n : Nat} (h : a < spadBase) (hn : 0 < n) (hpast : hbmTop < a + n) :
    firstRefused s a n = some (max a hbmTop) := by
  rw [firstRefused, reachEnd_below_spad s h, if_neg (by omega)]

theorem firstRefused_hbm (s : Machine.State) {a n : Nat} (h : a + n ≤ hbmTop) (hn : 0 < n) : firstRefused s a n = none := by
  have hspad : a < spadBase := by unfold hbmTop at h; unfold spadBase; omega
  rw [firstRefused, reachEnd_below_spad s hspad, if_pos (by omega)]

/-! ### COPY -/

section
variable {q : QIdx} {seq : W32} {c : Cmd} {s : Machine.State} {src dst n : Nat} (h : AtHand s q seq 4 c)
include h

/-- A source in local memory that leaves what R23 and R288 let it reach. -/
theorem exec_copy_refused {hf : HostFault} {a : Nat} (hs : cF c 0x28 1 = 1) (ha : firstRefused s (cF c 0x10 8) (cF c 0x20 8) = some a) :
    exec (.copy q seq hf) s = .next (endWith q seq .protection 0 a s) := by
  rw [exec, execCopy, runCmd_atHand (op := opCopy) _ h]
  dsimp only
  rw [if_pos hs, ha]
  rfl

theorem exec_copy_host (hs : cF c 0x28 1 = 0) (hd : cF c 0x29 1 = 0) : exec (.copy q seq .none) s =
    .next (endCmd q seq (hostWr (cF c 0x18 8) (hostRd s (cF c 0x10 8) (cF c 0x20 8)) s)) := by
  rw [exec, execCopy, runCmd_atHand (op := opCopy) _ h]
  dsimp only
  rw [hs, hd]
  rfl

/-- A host read that fails ends the copy with its status and address, the destination undefined. -/
theorem exec_copy_failed {hf : HostFault} {st : Status} {x : BitVec 64}
    (hp : (hf, st) ∈ [(HostFault.refused x, Status.protection), (.timeout x, .timeout), (.poison x, .faultEcc)])
    (hs : cF c 0x28 1 = 0) (hd : cF c 0x29 1 = 0) : exec (.copy q seq hf) s =
      .next (endWith q seq st 0 x.toNat (undefineRange 0 (cF c 0x18 8) (cF c 0x20 8) s)) := by
  rw [exec, execCopy, runCmd_atHand (op := opCopy) _ h]
  dsimp only
  rw [hs, hd]
  simp only [List.mem_cons, Prod.mk.injEq, List.not_mem_nil, or_false] at hp
  obtain ⟨rfl, rfl⟩ | ⟨rfl, rfl⟩ | ⟨rfl, rfl⟩ := hp <;> rfl

/-- The bytes of a range of local memory. -/
theorem exec_copy_local {hf : HostFault} {v : Machine.State} {l : List Byte} (hs : cF c 0x28 1 = 1) (hd : cF c 0x29 1 = 1)
    (hsrc : firstRefused s (cF c 0x10 8) (cF c 0x20 8) = none) (hdst : firstRefused s (cF c 0x18 8) (cF c 0x20 8) = none)
    (hr : localRead ((List.range (cF c 0x20 8)).map (cF c 0x10 8 + ·)) s = (.ok, l, s))
    (hw : memWrite (l.zipIdx.map (fun p => (cF c 0x18 8 + p.2, p.1))) s = (.ok, v)) :
    exec (.copy q seq hf) s = .next (endCmd q seq v) := by
  have hread : cpRead 1 (cF c 0x10 8) (cF c 0x20 8) s = (.ok, l, s) := hr
  rw [exec, execCopy, runCmd_atHand (op := opCopy) _ h]
  dsimp only
  rw [hs, hd, if_pos rfl, if_pos rfl, hsrc, hdst, hread]
  change Host.Outcome.next (if (memWrite (l.zipIdx.map (fun p => (cF c 0x18 8 + p.2, p.1))) s).1 = .ok then
    endCmd q seq (memWrite (l.zipIdx.map (fun p => (cF c 0x18 8 + p.2, p.1))) s).2 else _) = _
  rw [hw]
  rfl

end

/-- A range of sound HBM written over another. -/
theorem memWrite_copied {src dst n : Nat} {s : Machine.State} (hdst : dst + n ≤ hbmTop) (hc : ∀ k, k < n → Clean s (dst + k)) :
    ∃ v, memWrite ((rdBytes s src n).zipIdx.map (fun p => (dst + p.2, p.1))) s = (.ok, v) ∧ OnlyMem s v ∧
      ∀ a, rdByte v a = if dst ≤ a ∧ a < dst + n then rdByte s (src + (a - dst)) else rdByte s a := by
  have hlen : (rdBytes s src n).length = n := by simp [rdBytes]
  have hcell : ∀ e ∈ (rdBytes s src n).zipIdx.map (fun p => (dst + p.2, p.1)), e.1 < hbmTop ∧ Clean s e.1 := by
    intro e he
    obtain ⟨p, hp, rfl⟩ := List.mem_map.mp he
    have hlt : p.2 < n := by simpa [hlen] using List.snd_lt_add_of_mem_zipIdx hp
    exact ⟨by dsimp only; omega, hc _ hlt⟩
  obtain ⟨hok, honly, hbyte⟩ := localWrite_good (s := s) fun e he => ⟨addrOk_hbm s (hcell e he).1, (hcell e he).2⟩
  rw [localWrite_hbm fun e he => (hcell e he).1] at hok honly hbyte
  refine ⟨_, Prod.ext hok rfl, honly, fun a => (hbyte a).trans ((foldl_zipIdx_cells _ dst a 0 _).trans ?_)⟩
  by_cases hin : dst ≤ a ∧ a < dst + n
  · rw [Nat.add_zero, if_pos hin.1, if_pos hin, rdBytes, List.getElem?_map, List.getElem?_range (by omega)]
    rfl
  · rw [Nat.add_zero, if_neg hin]
    split
    · rw [List.getElem?_eq_none (by omega)]
      rfl
    · rfl

theorem copyResults : Claims.CopyResults := by
  rintro q seq c s src dst n hf h rfl rfl rfl hn
  obtain ⟨hc, -, -⟩ := id h
  refine ⟨fun hs hd => ?_, fun hs hd hsrc hdst hclean => ?_, fun hs hspad hpast hnone => ?_, fun x hs hd hnone p hp => ?_⟩
  · have hleft := endCmd_left (s := hostWr (cF c 0x18 8) (hostRd s (cF c 0x10 8) (cF c 0x20 8)) s) hc
    exact ⟨_, exec_copy_host h hs hd, hleft.cmd, hleft.frame.rest, fun o => hleft.frame.regs o (by simp),
      fun a => (hleft.frame.hostByte a).trans (hostByte_copied ..)⟩
  · have hread : localRead ((List.range (cF c 0x20 8)).map (cF c 0x10 8 + ·)) s = (.ok, rdBytes s (cF c 0x10 8) (cF c 0x20 8), s) := by
      rw [localRead_good, List.map_map]
      · rfl
      · intro a ha
        obtain ⟨k, hk, rfl⟩ := List.mem_map.mp ha
        have hk' := List.mem_range.mp hk
        exact ⟨addrOk_hbm s (by omega), (hclean k hk').1⟩
    obtain ⟨u, hw, honly, hbyte⟩ := memWrite_copied (src := cF c 0x10 8) hdst (fun k hk => (hclean k hk).2)
    have hu : u = { s with mem := u.mem, ecc := u.ecc } := by rw [← honly.rest]
    have hleft := endCmd_left (s := u) ((cmd_of_queues (by rw [hu]) q seq).trans hc)
    refine ⟨_, exec_copy_local h hs hd (firstRefused_hbm s hsrc hn) (firstRefused_hbm s hdst hn) hread hw, hleft.cmd,
      hleft.frame.host.trans (by rw [hu]), fun o => (hleft.frame.regs o (by simp)).trans (by rw [hu]; rfl),
      fun a => (hleft.frame.rdByte a).trans (hbyte a)⟩
  · exact ⟨_, exec_copy_refused h hs (firstRefused_past_hbm s hspad hn hpast), endWith_left 0 _ hc hnone rfl⟩
  · obtain ⟨hf, st⟩ := p
    have hstops : st.stops = true := by
      simp only [List.mem_cons, Prod.mk.injEq, List.not_mem_nil, or_false] at hp
      obtain ⟨-, rfl⟩ | ⟨-, rfl⟩ | ⟨-, rfl⟩ := hp <;> rfl
    have hu := undefineRange_host (cF c 0x18 8) (cF c 0x20 8) s
    have hleft := endWith_left (s := undefineRange 0 (cF c 0x18 8) (cF c 0x20 8) s) (st := st) 0 x.toNat
      ((cmd_of_queues (by rw [hu]; rfl) q seq).trans hc) hnone hstops
    have hbyte := fun a => (hleft.frame.hostByte a).trans (hostByte_undefined ..)
    refine ⟨_, exec_copy_failed h hp hs hd, hleft.cmd, hleft.frame.freeCtr.trans (by rw [hu]), fun a ha => ?_, fun k hk => ?_,
      fun o => (hleft.frame.regs o (by simp)).trans (by rw [hu]; rfl)⟩
    · rw [hbyte]
      split
      · rw [List.getElem?_eq_none (by simp only [freeRange, List.length_map, List.length_range]; omega)]
        rfl
      · rfl
    · rw [hbyte, if_pos (by omega), freeRange, List.getElem?_map, Nat.add_sub_cancel_left, List.getElem?_range hk]
      rfl

end Sys2Proof
end

section
/-! EXPERT_PREFETCH: what a write of memory leaves of the registers, and the requests for one expert. -/

namespace Sys2Proof

open Sys2Proof.Machine

/-! ### What memory accesses touch -/

/-- The state with its registers, memory, error marks, count of free values and lost moraine transactions left out. -/
def beyondMem (s : Machine.State) : Machine.State := { s with regs := [], mem := [], ecc := [], freeCtr := 0, morLost := [] }

/-- From `u` to `v` only memory and what counts its errors may differ: tiles' registers and `MOR_ERR`. -/
structure MemTouched (u v : Machine.State) : Prop where
  rest : beyondMem v = beyondMem u
  regs : ∀ o, o < 0x8000000 → o ≠ R.MOR_ERR → rraw v o = rraw u o

section
variable {u v w : Machine.State}

theorem MemTouched.refl (u : Machine.State) : MemTouched u u := ⟨rfl, fun _ _ _ => rfl⟩

theorem MemTouched.trans (a : MemTouched u v) (b : MemTouched v w) : MemTouched u w :=
  ⟨b.rest.trans a.rest, fun o ht hm => (b.regs o ht hm).trans (a.regs o ht hm)⟩

theorem MemTouched.rget (h : MemTouched u v) {o : Nat} (f : Fld) (ht : o < 0x8000000) (hm : o ≠ R.MOR_ERR) :
    rget v o f = rget u o f := by
  unfold Machine.rget
  rw [h.regs o ht hm]

theorem MemTouched.queues (h : MemTouched u v) : v.queues = u.queues := congrArg (fun s => s.queues) h.rest

theorem MemTouched.exd (h : MemTouched u v) : v.exd = u.exd := congrArg (fun s => s.exd) h.rest

theorem memTouched_tileReg {o : Nat} (f : Fld) (x : Nat) (u : Machine.State) (ho : 0x8000000 ≤ o) : MemTouched u (rset o f x u) :=
  ⟨rfl, fun _ hp _ => rraw_rset_other _ _ _ (by omega)⟩

theorem memTouched_morErr (f : Fld) (n : Nat) (u : Machine.State) : MemTouched u (rinc R.MOR_ERR f n u) :=
  ⟨rfl, fun _ _ hm => rraw_rset_other _ _ _ hm⟩

theorem memTouched_foldl {α : Type} {g : Machine.State → α → Machine.State} (hg : ∀ s a, MemTouched s (g s a)) (l : List α)
    (u : Machine.State) : MemTouched u (l.foldl g u) := by
  induction l generalizing u with
  | nil => exact .refl u
  | cons a l ih => exact (hg u a).trans (ih _)

theorem memTouched_countCorr (l : Nat) (u : Machine.State) : MemTouched u (countCorr l u) := by
  unfold countCorr
  split
  · exact memTouched_tileReg _ _ _ (by unfold R.SPAD_ECC; omega)
  · exact .refl u

theorem memTouched_countCorrs (cs : List Nat) (u : Machine.State) : MemTouched u (countCorrs cs u) :=
  memTouched_foldl (fun s l => memTouched_countCorr l s) _ u

theorem memTouched_countPoison (cs : List Nat) (u : Machine.State) : MemTouched u (countPoison cs u) := by
  unfold countPoison
  dsimp only
  split
  · exact .refl u
  · exact memTouched_morErr ..

theorem memTouched_loseLines (ls : List Nat) (u : Machine.State) : MemTouched u (loseLines ls u) :=
  .trans (v := { u with morLost := u.morLost.filter (fun l => !ls.contains l) }) ⟨rfl, fun _ _ _ => rfl⟩ (memTouched_morErr ..)

theorem memTouched_raceCells (cells : List (Nat × Byte)) (u : Machine.State) : MemTouched u (raceCells cells u).2 := by
  unfold raceCells
  dsimp only
  split
  · exact .refl u
  · exact ⟨rfl, fun _ _ _ => rfl⟩

theorem memTouched_countUncorr (c : Nat) (u : Machine.State) : MemTouched u (countUncorr c u) := by
  unfold countUncorr
  split
  · exact (memTouched_tileReg _ _ _ (by unfold R.SPAD_ECC; omega)).trans
      (memTouched_tileReg _ _ _ (by unfold R.SPAD_ERRADDR; omega))
  · exact .refl u

theorem memTouched_cells (m : Map Byte) (e : Map EccMark) (n : Nat) (u : Machine.State) :
    MemTouched u { u with mem := m, ecc := e, freeCtr := n } := ⟨rfl, fun _ _ _ => rfl⟩

theorem memTouched_freeBytes (l : List Nat) (u : Machine.State) : MemTouched u (freeBytes l u) := ⟨rfl, fun _ _ _ => rfl⟩

theorem memTouched_meetCodeword (c : Nat) (u : Machine.State) : MemTouched u (meetCodeword c u).2 := by
  unfold meetCodeword
  split
  · exact .refl u
  · exact .refl u
  · exact (memTouched_countUncorr c u).trans (memTouched_cells _ _ _ _)
  · exact .refl u

theorem memTouched_writeCodeword (c : Nat) (cells : List (Nat × Byte)) (u : Machine.State) :
    MemTouched u (writeCodeword c cells u).2 := by
  unfold writeCodeword
  dsimp only
  split
  · exact memTouched_cells _ _ _ _
  · have hmeet := memTouched_meetCodeword c u
    split
    · exact hmeet.trans (memTouched_cells _ _ _ _)
    · exact hmeet

theorem memTouched_writeCodewords (cells : List (Nat × Byte)) (cs : List Nat) (u : Machine.State) :
    MemTouched u (writeCodewords cells cs u).2 := by
  induction cs generalizing u with
  | nil => exact .refl u
  | cons c cs ih => exact (memTouched_writeCodeword c cells u).trans (ih _)

/-- A write of memory, wherever it goes and however it ends. -/
theorem memTouched_memWrite (cells : List (Nat × Byte)) (u : Machine.State) : MemTouched u (memWrite cells u).2 := by
  unfold memWrite
  dsimp only
  split
  · exact (memTouched_loseLines _ u).trans (memTouched_freeBytes _ _)
  · exact (memTouched_countCorrs ..).trans ((memTouched_countPoison ..).trans ((memTouched_raceCells ..).trans
      (memTouched_writeCodewords ..)))

end

/-! ### Residency of one expert -/

section
variable {e : Nat} {s u v : Machine.State}

theorem dirLocal_range (he : e < 65536) : R.DIR_LOCAL e < 0x5000000 := by unfold R.DIR_LOCAL; omega

theorem resOf_memTouched (he : e < 65536) (h : MemTouched u v) : resOf v e = resOf u e := by
  have := dirLocal_range he
  exact h.rget _ (by omega) (by unfold R.MOR_ERR; omega)

theorem memTouched_writeRestab (e : Nat) (s : Machine.State) : MemTouched s (writeRestab e s) := memTouched_memWrite ..

theorem resOf_setRes {r : Nat} (he : e < 65536) (hr : r < 256) (s : Machine.State) : resOf (setRes e r s) e = r := by
  rw [setRes, resOf_memTouched he (memTouched_writeRestab ..), resOf, rget_rset_same _ _ _ _ (by decide)]
  exact Nat.mod_eq_of_lt hr

theorem queues_setRes (e r : Nat) (s : Machine.State) : (setRes e r s).queues = s.queues := by
  rw [setRes, (memTouched_writeRestab e _).queues, queues_of_rset]

theorem exd_setRes (e r : Nat) (s : Machine.State) : (setRes e r s).exd = s.exd := by
  rw [setRes, (memTouched_writeRestab e _).exd, exd_of_rset]

theorem rget_setRes {o r : Nat} (f : Fld) (he : o ≠ R.DIR_LOCAL e) (ht : o < 0x8000000) (hm : o ≠ R.MOR_ERR) (s : Machine.State) :
    rget (setRes e r s) o f = rget s o f := by
  rw [setRes, (memTouched_writeRestab e _).rget f ht hm, rget_rset_other _ _ _ _ he]

/-- The pool registers that say which slots there are and where they lie. -/
theorem freeSlots_congr (hx : v.exd.slots = u.exd.slots) (hcfg : ∀ f, rget v R.MOR_POOL_CFG f = rget u R.MOR_POOL_CFG f)
    (hbase : ∀ f, rget v R.MOR_POOL_BASE f = rget u R.MOR_POOL_BASE f) : freeSlots v = freeSlots u := by
  have hla : ∀ i, slotLa v i = slotLa u i := fun i => by rw [slotLa, slotLa, hcfg, hbase]
  have husable : ∀ i, slotUsable v i = slotUsable u i := fun i => by simp only [slotUsable, hla, hcfg]
  simp only [freeSlots, husable, hx, hcfg]

theorem freeSlots_setRes {r : Nat} (he : e < 65536) (s : Machine.State) : freeSlots (setRes e r s) = freeSlots s := by
  have := dirLocal_range he
  refine freeSlots_congr (by rw [exd_setRes]) (fun f => ?_) (fun f => ?_)
  · exact rget_setRes f (by unfold R.MOR_POOL_CFG; omega) (by decide) (by decide) s
  · exact rget_setRes f (by unfold R.MOR_POOL_BASE; omega) (by decide) (by decide) s

@[simp] theorem resOf_modExd (f : Exd → Exd) (s : Machine.State) (e : Nat) : resOf (s.modExd f) e = resOf s e := rfl

@[simp] theorem queues_modExd (f : Exd → Exd) (s : Machine.State) : (s.modExd f).queues = s.queues := rfl

@[simp] theorem exd_modExd (f : Exd → Exd) (s : Machine.State) : (s.modExd f).exd = f s.exd := rfl

/-- With a free slot, a prefetch of a RESTING expert makes it FETCHING, gives it the slot and queues its copy (Table 10-11). -/
theorem requestFetch_resting {i : Nat} {l : List Nat} (he : e < 65536) (hr : resOf s e = 1) (hs : freeSlots s = i :: l) :
    resOf (requestFetch e false s) e = 2 ∧ (requestFetch e false s).queues = s.queues ∧
      (requestFetch e false s).exd = { s.exd with slots := mins s.exd.slots e i, prefs := s.exd.prefs ++ [(false, e)] } := by
  have hfree : freeSlots (setRes e resFetching s) = i :: l := (freeSlots_setRes he s).trans hs
  have hreq : requestFetch e false s = queueCopy false (false, e) (updSlots ((setRes e resFetching s).modExd
      (fun x => { x with slots := mins x.slots e i }))) := by
    unfold requestFetch
    simp only [hr, hs, resResting, true_or, if_true, List.isEmpty_cons, Bool.not_false, Bool.true_or, queueFetch, claimSlot, hfree,
      assignSlot]
  have hslots : R.DIR_LOCAL e ≠ R.MOR_SLOTS := by
    have := dirLocal_range he
    unfold R.MOR_SLOTS
    omega
  rw [hreq]
  refine ⟨?_, ?_, ?_⟩
  · rw [queueCopy, resOf_modExd, updSlots, resOf, rget_rset_other _ _ _ _ hslots, ← resOf, resOf_modExd, resOf_setRes he (by decide)]
    rfl
  · rw [queueCopy, queues_modExd, updSlots, queues_of_rset, queues_modExd, queues_setRes]
  · rw [queueCopy, exd_modExd, updSlots, exd_of_rset, exd_modExd, exd_setRes]
    rfl

/-- An expert of the pool that nothing reads begins its eviction: EVICTING, its write-back queued (Table 10-11, R282). -/
theorem requestEvict_resident (he : e < 65536) (hc : canEvict s e = true) (hro : dirRestRo s e = false) :
    resOf (requestEvict e s) e = 4 ∧ (requestEvict e s).queues = s.queues ∧
      (requestEvict e s).exd = { s.exd with prefs := s.exd.prefs ++ [(true, e)] } := by
  have hreq : requestEvict e s = (setRes e resEvicting s).modExd (fun x => { x with prefs := x.prefs ++ [(true, e)] }) := by
    simp only [requestEvict, hc, if_true, startEvict, hro, Bool.false_eq_true, if_false]
  rw [hreq]
  rw [resOf_modExd, queues_modExd, exd_modExd, exd_setRes]
  exact ⟨resOf_setRes he (by decide) s, queues_setRes .., rfl⟩

end

/-! ### The command -/

theorem cF_two_lt (c : Cmd) (off : Nat) : cF c off 2 < 65536 := by
  have hlen : (padTo 2 (c.bytes.drop off)).length = 2 := by
    simp only [padTo, List.length_append, List.length_take, List.length_replicate]
    omega
  obtain ⟨a, b, hab⟩ := List.length_eq_two.mp hlen
  have ha := a.isLt
  have hb := b.isLt
  rw [cF, leAt, hab]
  simp only [leNat]
  omega

theorem prefetchIds_lt {c : Cmd} {e : Nat} (h : prefetchIds c = [e]) : e < 65536 := by
  have hmem : e ∈ prefetchIds c := by simp [h]
  obtain ⟨i, -, rfl⟩ := List.mem_map.mp hmem
  exact cF_two_lt ..

/-- A prefetch command as its requests leave it: a FETCH or EVICT may wait for them (R286). -/
def prefetched (skips op : Nat) (c : Cmd) : Cmd :=
  { c with skips := skips, phase := if bit (cF c 0x11 1) 0 && decide (op < 2) then .running else .ended }

section
variable {q : QIdx} {seq : W32} {c : Cmd} {s : Machine.State} {e op : Nat} {act : Nat → Machine.State → Machine.State}
  (h : AtHand s q seq 9 c) (hids : prefetchIds c = [e]) (hop : cF c 0x10 1 = op)
include h hids hop

theorem prefetch_one (hr : resOf s e ≠ 0) : prefetch q seq op act s =
    .next ((act e s).modCmd q seq (prefetched 0 op)) := by
  have hskip : [e].filter (fun e => resOf s e == resNone) = [] := by simpa [resNone] using hr
  have htake : [e].filter (fun e => resOf s e != resNone) = [e] := by simpa [resNone] using hr
  rw [prefetch, runCmd_atHand (op := opPrefetch) _ h]
  dsimp only
  rw [if_pos hop, hids, hskip, htake]
  rfl

theorem prefetch_none (hr : resOf s e = 0) : prefetch q seq op act s =
    .next (s.modCmd q seq (prefetched 1 op)) := by
  have hskip : [e].filter (fun e => resOf s e == resNone) = [e] := by simpa [resNone] using hr
  have htake : [e].filter (fun e => resOf s e != resNone) = [] := by simpa [resNone] using hr
  rw [prefetch, runCmd_atHand (op := opPrefetch) _ h]
  dsimp only
  rw [if_pos hop, hids, hskip, htake]
  rfl

end

theorem cmdLeft_prefetched {q : QIdx} {seq : W32} {c : Cmd} {s : Machine.State} (skips op : Nat) (hc : s.cmd q seq = some c) :
    CmdLeft q seq (prefetched skips op c) [] s (s.modCmd q seq (prefetched skips op)) := cmdLeft_modCmd hc (fun _ => rfl)

/-- PIN and UNPIN: PINNED set or cleared where the expert has a state. -/
theorem pins {q : QIdx} {seq : W32} {c : Cmd} {s : Machine.State} {e op x : Nat} {i : Instr}
    (hi : exec i s = prefetch q seq op (fun e s => rset (R.DIR_LOCAL e) F.DIR_PINNED x s) s) (hop2 : ¬ op < 2) (hx : x < 2)
    (h : AtHand s q seq 9 c) (hids : prefetchIds c = [e]) (hop : cF c 0x10 1 = op) :
    (resOf s e ≠ 0 → ∃ v, exec i s = .next v ∧ rget v (R.DIR_LOCAL e) F.DIR_PINNED = x ∧
      CmdLeft q seq { c with phase := .ended, skips := 0 } [R.DIR_LOCAL e] s v) ∧
    (resOf s e = 0 → ∃ v, exec i s = .next v ∧ CmdLeft q seq { c with phase := .ended, skips := 1 } [] s v) := by
  have hends : ∀ k, prefetched k op c = { c with phase := .ended, skips := k } := fun k => by simp [prefetched, hop2]
  rw [hi]
  refine ⟨fun hr => ⟨_, prefetch_one h hids hop hr, ?_, ?_⟩, fun hr => ⟨_, prefetch_none h hids hop hr, ?_⟩⟩
  · rw [State.modCmd, rget_modQueue, rget_rset_same _ _ _ _ (by decide)]
    exact Nat.mod_eq_of_lt hx
  · rw [← hends]
    have hset := cmdLeft_rset (R.DIR_LOCAL e) F.DIR_PINNED x h.1
    exact hset.trans ((cmdLeft_prefetched 0 op hset.cmd).mono (List.nil_subset _))
  · rw [← hends]
    exact cmdLeft_prefetched 1 op h.1

theorem prefetchCommands : Claims.PrefetchCommands := by
  intro q seq c s e h hids
  have he := prefetchIds_lt hids
  refine ⟨fun p hp hop => ?_, fun i l hop hr hs => ?_, fun hop hr hpool hpin hreaders hro => ?_⟩
  · rcases List.mem_pair.mp hp with rfl | rfl
    · exact pins (op := 2) (x := 1) rfl (by decide) (by decide) h hids hop
    · exact pins (op := 3) (x := 0) rfl (by decide) (by decide) h hids hop
  · obtain ⟨hres, hqueues, hexd⟩ := requestFetch_resting he hr hs
    have hleft := cmdLeft_prefetched 0 0 ((cmd_of_queues hqueues q seq).trans h.1)
    refine ⟨_, prefetch_one h hids hop (by omega), hres, hexd, hleft.cmd.trans ?_⟩
    simp [prefetched]
  · have hcan : canEvict s e = true := by simp [canEvict, hr, hpool, hpin, hreaders, resResident]
    obtain ⟨hres, hqueues, hexd⟩ := requestEvict_resident he hcan hro
    have hleft := cmdLeft_prefetched 0 1 ((cmd_of_queues hqueues q seq).trans h.1)
    refine ⟨_, prefetch_one h hids hop (by omega), hres, hexd, hleft.cmd.trans ?_⟩
    simp [prefetched]

/-- Settles O30: COPY, then EXPERT_PREFETCH of one expert. -/
theorem copiesAndPrefetches : Obligations.CopiesAndPrefetches := ⟨copyResults, prefetchCommands⟩

end Sys2Proof
end

section
/-! Thermal trips, lost supplies and the takeover by the standby. -/

namespace Sys2Proof

open Sys2Proof.Machine

/-! ### Alerts and vectors -/

theorem bit_lor_two_pow (x n : Nat) : bit (x.lor (2 ^ n)) n = true := by
  rw [bit, show ∀ a b : Nat, Nat.lor a b = a ||| b from fun _ _ => rfl, Nat.testBit_or, Nat.testBit_two_pow_self, Bool.or_true]

/-- With no receiver the alert's bit stands, whatever else `MGMT_ALERT` held. -/
theorem alert_stands {n : Nat} (hn : n < 14) {s : Machine.State} (h : s.mgmt.receiver = none) :
    bit (rget (alert n s) R.MGMT_ALERT F.MGMT_ALERT_EVENTS) n = true := by
  rw [alert_of_no_receiver n h, rget_rset_same _ _ _ _ (by decide), bit, Nat.testBit_mod_two_pow]
  exact Bool.and_eq_true_iff.mpr ⟨decide_eq_true hn, bit_lor_two_pow _ n⟩

/-- A vector raised leaves every register but the pending bits. -/
theorem rraw_raiseVector {n o : Nat} (hn : n < 2048) (ho : o < 0x148000 ∨ 0x148100 ≤ o) (s : Machine.State) :
    rraw (raiseVector n s) o = rraw s o := by
  unfold raiseVector
  split
  · exact rraw_rput_other _ _ (by unfold R.MSIX_PBA; omega)
  · rfl

theorem noHost_raiseVector (n : Nat) (s : Machine.State) : noHost (raiseVector n s) = noHost s := by
  unfold raiseVector
  split <;> rfl

theorem queue_raiseVector (n : Nat) (s : Machine.State) (q : QIdx) : (raiseVector n s).queue q = s.queue q := by
  unfold raiseVector
  split <;> rfl

/-! ### Everything down at once (R427) -/

theorem mget_filter_key {α : Type} (d : Nat → α) (p : Nat → Bool) (m : Map α) (k : Nat) :
    mget d (m.filter (fun e => p e.1)) k = if p k then mget d m k else d k := by
  induction m with
  | nil => simp [mget]
  | cons e m ih =>
    obtain ⟨j, v⟩ := e
    rw [List.filter_cons, mget]
    by_cases hk : k = j
    · subst hk
      by_cases hp : p k = true
      · rw [if_pos hp, mget, if_pos rfl, if_pos hp, if_pos rfl]
      · rw [if_neg hp, ih, if_neg hp, if_neg hp]
    · rw [if_neg hk]
      split
      · rw [mget, if_neg hk, ih]
      · exact ih

/-- One domain but AON takes a state. -/
def putDst (x : Nat) (s : Machine.State) (n : Nat) : Machine.State := if n = 0 then s else rput (R.PDC_DOM_STAT n) x s

theorem setAllDst_eq (x : Nat) (s : Machine.State) : setAllDst x s = domIds.foldl (putDst x) s := rfl

theorem noRegs_putDst (x : Nat) (l : List Nat) (s : Machine.State) : noRegs (l.foldl (putDst x) s) = noRegs s := by
  induction l generalizing s with
  | nil => rfl
  | cons n l ih =>
    refine (ih _).trans ?_
    unfold putDst
    split <;> rfl

theorem dst_putDst {n : Nat} (hn : n ≠ 0) (l : List Nat) {s : Machine.State} (h : n ∈ l ∨ dst s n = 0) :
    dst (l.foldl (putDst 0) s) n = 0 := by
  induction l generalizing s with
  | nil => exact h.resolve_left List.not_mem_nil
  | cons k l ih =>
    refine ih ?_
    by_cases hk : n = k
    · right
      rw [← hk, putDst, if_neg hn, dst, rget_rput_same _ _ _ _ (by decide)]
      rfl
    · refine h.imp (fun h => (List.mem_cons.mp h).resolve_left hk) fun h => ?_
      unfold putDst
      split
      · exact h
      · exact (rget_rput_other _ _ _ (by unfold R.PDC_DOM_STAT; omega)).trans h

/-- What the power domain controller knows after everything went down. -/
def downPower (p : Power) : Power :=
  { p with cold := false, boot := false, warmOn := false, warm := [], want := [], target := [], forced := [], frost := false }

/-- Everything but AON down, and shown so. -/
def shown (s : Machine.State) : Machine.State :=
  rset R.PDC_MODE F.PDC_MODE_BUSY 0 (rset R.PDC_MODE F.PDC_MODE_CUR 2
    (rset R.CP_STATUS F.CP_STATUS_STANDBY_OK 0 (setAllDst dsOff (wipe false s))))

theorem shutAll_eq (s : Machine.State) : shutAll s = (shown s).modPower downPower := rfl

theorem noRegs_shown (s : Machine.State) : noRegs (shown s) = noRegs (wipe false s) := by
  rw [shown, noRegs_rset, noRegs_rset, noRegs_rset, setAllDst_eq, noRegs_putDst]

theorem mem_wipe (s : Machine.State) (a : Nat) : rdByte (wipe false s) a = if morBase ≤ a then rdByte s a else 0 := by
  have h : (wipe false s).mem = s.mem.filter (fun p => decide (morBase ≤ p.1) || (false && decide (p.1 < hbmTop))) := by
    simp only [wipe, ctlFixups, mem_of_rset, mem_of_rput]
  rw [rdByte, h, mget_filter_key _ (fun a => decide (morBase ≤ a) || (false && decide (a < hbmTop)))]
  simp [rdByte]

theorem mgmt_shutAll (s : Machine.State) : (shutAll s).mgmt = s.mgmt := congrArg (fun s => s.mgmt) (noRegs_shown s)

theorem power_shutAll (s : Machine.State) : (shutAll s).power = downPower s.power := by
  rw [shutAll_eq]
  exact congrArg (fun s => downPower s.power) (noRegs_shown s)

theorem rget_modPower (g : Power → Power) (s : Machine.State) (o : Nat) (f : Fld) : rget (s.modPower g) o f = rget s o f := rfl

theorem mgmt_modPower (g : Power → Power) (s : Machine.State) : (s.modPower g).mgmt = s.mgmt := rfl

theorem mode_shutAll (s : Machine.State) : rget (shutAll s) R.PDC_MODE F.PDC_MODE_CUR = 2 := by
  rw [shutAll_eq, rget_modPower, shown, rget_rset_field _ _ _ _ _ (by decide) (by decide), rget_rset_same _ _ _ _ (by decide)]
  rfl

theorem dom_lt {n : Nat} (h : n ∈ domIds) : n < 64 := by
  simp [domIds] at h
  omega

theorem dst_shutAll {n : Nat} (hn : n ∈ domIds) (h0 : n ≠ 0) (s : Machine.State) : dst (shutAll s) n = 0 := by
  have hlt := dom_lt hn
  have hmode : R.PDC_DOM_STAT n ≠ R.PDC_MODE := by unfold R.PDC_DOM_STAT R.PDC_MODE; omega
  have hctl : R.PDC_DOM_STAT n ≠ R.CP_STATUS := by unfold R.PDC_DOM_STAT R.CP_STATUS; omega
  rw [dst, shutAll_eq, rget_modPower, shown, rget_rset_other _ _ _ _ hmode, rget_rset_other _ _ _ _ hmode,
    rget_rset_other _ _ _ _ hctl, setAllDst_eq]
  exact dst_putDst h0 domIds (.inl hn)

theorem allDown_shutAll (s : Machine.State) : AllDown s (shutAll s) where
  domains _ hn h0 := dst_shutAll hn h0 s
  tiles := congrArg (fun s => (s.tiles = [] ∧ s.queues = [] ∧ s.txns = [] ∧ s.abl = [] ∧ s.segs = [] ∧ s.ports = [])) (noRegs_shown s)
    |>.mpr ⟨rfl, rfl, rfl, rfl, rfl, rfl⟩
  memory a := (congrArg (fun s => rdByte s a) (noRegs_shown s)).trans (mem_wipe s a)
  kept := congrArg (fun u => (u.hostMem = s.hostMem ∧ u.repair = s.repair ∧ u.mgmt.images = s.mgmt.images)) (noRegs_shown s)
    |>.mpr ⟨rfl, rfl, rfl⟩

section
variable {u v w : Machine.State}

/-- A change that leaves the domains' states and all that a fall takes away leaves everything down. -/
theorem AllDown.of_kept (h : AllDown u v) (hrest : w = { v with regs := w.regs, power := w.power, mgmt := w.mgmt })
    (himg : w.mgmt.images = v.mgmt.images) (hdst : ∀ n, n < 64 → dst w n = dst v n) : AllDown u w where
  domains n hn h0 := (hdst n (dom_lt hn)).trans (h.domains n hn h0)
  tiles := by rw [hrest]; exact h.tiles
  memory a := by rw [hrest]; exact h.memory a
  kept := by
    obtain ⟨hhost, hrepair, hold⟩ := h.kept
    exact ⟨by rw [hrest]; exact hhost, by rw [hrest]; exact hrepair, himg.trans hold⟩

/-- A register that no domain's state stands in. -/
def BesideDst (o : Nat) : Prop := o < R.PDC_DOM_STAT 0 ∨ R.PDC_DOM_STAT 64 ≤ o

theorem AllDown.rset {o : Nat} (f : Fld) (x : Nat) (ho : BesideDst o) (h : AllDown u v) : AllDown u (rset o f x v) :=
  h.of_kept rfl rfl fun n hn => rget_rset_other _ _ _ _ (by unfold BesideDst R.PDC_DOM_STAT at *; omega)

theorem AllDown.modPower (f : Power → Power) (h : AllDown u v) : AllDown u (v.modPower f) := h.of_kept rfl rfl fun _ _ => rfl

theorem AllDown.modMgmt (f : Mgmt → Mgmt) (himg : (f v.mgmt).images = v.mgmt.images) (h : AllDown u v) : AllDown u (v.modMgmt f) :=
  h.of_kept rfl himg fun _ _ => rfl

theorem AllDown.alert (n : Nat) (hr : v.mgmt.receiver = none) (h : AllDown u v) : AllDown u (alert n v) := by
  rw [alert_of_no_receiver n hr]
  exact h.rset _ _ (.inr (by decide))

end

/-! ### Trips and supplies (R419, R427, R496, R499) -/

/-- Everything down for a trip, its reading kept. -/
def tripShown (tj : Nat) (s : Machine.State) : Machine.State :=
  rset R.PDC_TRIP F.PDC_TRIP_TJ tj (rset R.PDC_TRIP F.PDC_TRIP_TRIPPED 1 (shutAll s))

theorem exec_thermalTrip {tj : BitVec 8} (h : 105 ≤ tj.toNat) (s : Machine.State) :
    exec (.thermalTrip tj) s = .next (alert 0 (tripShown tj.toNat s)) := by
  show execThermalTrip tj s = _
  rw [execThermalTrip, if_pos h]
  rfl

theorem allDown_tripShown (tj : Nat) (s : Machine.State) : AllDown s (tripShown tj s) :=
  ((allDown_shutAll s).rset _ _ (.inl (by decide))).rset _ _ (.inl (by decide))

theorem mgmt_tripShown (tj : Nat) (s : Machine.State) : (tripShown tj s).mgmt = s.mgmt := by
  rw [tripShown, mgmt_of_rset, mgmt_of_rset, mgmt_shutAll]

theorem tripped_tripShown (tj : Nat) (s : Machine.State) : tripped (tripShown tj s) = true := by
  rw [tripped, rbit, tripShown, rget_rset_field _ _ _ _ _ (by decide) (by decide), rget_rset_same _ _ _ _ (by decide)]
  rfl

/-- Everything down, and the module without the supply or the clock named. -/
def fallen (why : OffWhy) (s : Machine.State) : Machine.State :=
  (rset R.PDC_RST_CAUSE F.PDC_RST_CAUSE_CAUSE 0 (shutAll s)).modPower (fun p => { p with off := some why })

theorem allDown_fallen (why : OffWhy) (s : Machine.State) : AllDown s (fallen why s) :=
  ((allDown_shutAll s).rset _ _ (.inl (by decide))).modPower _

theorem off_fallen (why : OffWhy) (s : Machine.State) : (fallen why s).power.off = some why := rfl

theorem mgmt_fallen (why : OffWhy) (s : Machine.State) : (fallen why s).mgmt = s.mgmt := by
  rw [fallen, mgmt_modPower, mgmt_of_rset, mgmt_shutAll]

theorem mode_fallen (why : OffWhy) (s : Machine.State) : rget (fallen why s) R.PDC_MODE F.PDC_MODE_CUR = 2 := by
  rw [fallen, rget_modPower, rget_rset_other _ _ _ _ (by decide), mode_shutAll]

theorem cause_fallen (why : OffWhy) (s : Machine.State) : rget (fallen why s) R.PDC_RST_CAUSE F.PDC_RST_CAUSE_CAUSE = 0 := by
  rw [fallen, rget_modPower, rget_rset_same _ _ _ _ (by decide), Nat.zero_mod]

theorem exec_railFault {s : Machine.State} (h : s.power.off ≠ some .input) : exec .railFault s = .next (fallen .rail s) := by
  show execRailFault s = _
  rw [execRailFault, if_neg h]
  rfl

/-- The fault of the input kept for STATUS_WORD (R501). -/
def inputFault (why : InputFault) (m : Mgmt) : Mgmt :=
  { m with uv := m.uv || decide (why = .under), ov := m.ov || decide (why = .over), oc := m.oc || decide (why = .current) }

theorem power_modMgmt (f : Mgmt → Mgmt) (s : Machine.State) : (s.modMgmt f).power = s.power := rfl

theorem mgmt_modMgmt (f : Mgmt → Mgmt) (s : Machine.State) : (s.modMgmt f).mgmt = f s.mgmt := rfl

theorem images_inputFault (why : InputFault) (m : Mgmt) : (inputFault why m).images = m.images := rfl

theorem exec_hotSwapDisconnect (why : InputFault) (s : Machine.State) :
    exec (.hotSwapDisconnect why) s = .next ((fallen .input s).modMgmt (inputFault why)) := by
  refine congrArg (fun f => Host.Outcome.next ((fallen .input s).modMgmt f)) (funext fun m => ?_)
  cases why <;> simp [inputFault]

/-- Everything down for a lost reference clock, shown. -/
def refclkShown (s : Machine.State) : Machine.State := rset R.MOD_STRAP F.MOD_STRAP_REFCLK_LOST 1 (shutAll s)

theorem exec_refclkLost {s : Machine.State} (h : s.power.off = none) :
    exec .refclkLost s = .next ((alert 1 (refclkShown s)).modPower (fun p => { p with off := some .refclk })) := by
  show execRefclkLost s = _
  rw [execRefclkLost, if_neg (by simp [h])]
  rfl

theorem mgmt_refclkShown (s : Machine.State) : (refclkShown s).mgmt = s.mgmt := by
  rw [refclkShown, mgmt_of_rset, mgmt_shutAll]

theorem tripsAndSupplies : Claims.TripsAndSupplies := by
  intro tj why s
  refine ⟨fun h => congrArg Host.Outcome.next (if_neg (by omega)), fun h hr => ?_, fun h c hc => ?_, fun h => ?_, fun h hr => ?_, ?_⟩
  · have hr' : (tripShown tj.toNat s).mgmt.receiver = none := by rw [mgmt_tripShown]; exact hr
    refine ⟨_, exec_thermalTrip h s, (allDown_tripShown _ s).alert 0 hr', ?_, ?_, ?_, alert_stands (by decide) hr', ?_⟩
    · rw [tripped, rbit, alert_of_no_receiver 0 hr', rget_rset_other _ _ _ _ (by decide)]
      exact tripped_tripShown _ s
    · rw [alert_of_no_receiver 0 hr', rget_rset_other _ _ _ _ (by decide), tripShown, rget_rset_same _ _ _ _ (by decide)]
      exact Nat.mod_eq_of_lt tj.isLt
    · rw [alert_of_no_receiver 0 hr', rget_rset_other _ _ _ _ (by decide), tripShown, rget_rset_other _ _ _ _ (by decide),
        rget_rset_other _ _ _ _ (by decide), mode_shutAll]
    · rw [alert_of_no_receiver 0 hr', power_of_rset, tripShown, power_of_rset, power_of_rset, power_shutAll]
      rfl
  · rcases List.mem_pair.mp hc with rfl | rfl
    · exact congrArg Host.Outcome.next (if_pos h)
    · exact congrArg Host.Outcome.next (if_pos (.inl h))
  · exact ⟨_, exec_railFault h, allDown_fallen _ s, off_fallen _ s, cause_fallen _ s, mode_fallen _ s⟩
  · have hr' : (refclkShown s).mgmt.receiver = none := by rw [mgmt_refclkShown]; exact hr
    refine ⟨_, exec_refclkLost h, (((allDown_shutAll s).rset _ _ (.inr (by decide))).alert 1 hr').modPower _, rfl, ?_, ?_⟩
    · rw [rget_modPower, alert_of_no_receiver 1 hr', rget_rset_other _ _ _ _ (by decide), refclkShown,
        rget_rset_same _ _ _ _ (by decide)]
      rfl
    · rw [rget_modPower]
      exact alert_stands (by decide) hr'
  · refine ⟨_, exec_hotSwapDisconnect why s, (allDown_fallen .input s).modMgmt _ (images_inputFault why _), ?_, ?_⟩
    · rw [power_modMgmt]
      exact off_fallen _ s
    · rw [mgmt_modMgmt, mgmt_fallen]
      rfl

/-! ### The takeover (R64, R67, R404) -/

/-- The divider of a slow-down leaves the limit of the balance. -/
theorem cap_slowTo (d : Nat) (s : Machine.State) : (slowTo d s).ledger.cap = s.ledger.cap := by
  unfold slowTo requestVolt
  split
  · rfl
  · rw [ledger_of_rset, ledger_modLedger]
    split <;> rfl

theorem noHost_eachCmd (φ : Cmd → Cmd) (qs : List Nat) (s : Machine.State) : noHost (eachCmd φ qs s) = noHost s := by
  induction qs generalizing s with
  | nil => rfl
  | cons q qs ih => exact ih _

/-- The standby's ledger slowed and charged for the gap, before its candidates age (R404). -/
def charged (ns : Nat) (s : Machine.State) : Machine.State :=
  let w := rset R.LEDG_RECON F.LEDG_RECON_FACTOR s.ledger.recon (slowTo 3 s)
  setBal (w.ledger.bal - (min 5000 (rget w R.LEDG_PEAK F.LEDG_PEAK_W) * ns : Nat)) w

theorem ledgerTakeover_eq (ns : Nat) (s : Machine.State) :
    ledgerTakeover ns s = (ageCandidates (ns / 10000) (charged ns s)).modLedger (fun l => { l with hold := 0 }) := rfl

theorem onlyLedger_charged (ns : Nat) (s : Machine.State) :
    OnlyLedger [R.LEDG_STATUS, R.LEDG_DIVCHG, R.LEDG_RECON, R.LEDG_BAL] s (charged ns s) :=
  ((slowed_slowTo le_rfl s).only.mono (by decide)).trans
    (onlyLedger_rput _ (by decide) (onlyLedger_modLedger _ (onlyLedger_rset _ _ (by decide) (.refl _ _))))

theorem bal_charged (ns : Nat) (s : Machine.State) :
    (charged ns s).ledger.bal = max (-(2 ^ 31 * 16000)) (min (capNj s)
      (s.ledger.bal - (min 5000 (rget s R.LEDG_PEAK F.LEDG_PEAK_W) * ns : Nat))) := by
  rw [charged, ledger_setBal, ledger_of_rset, (slowed_slowTo le_rfl s).bal, rget_rset_other _ _ _ _ (by decide),
    (slowed_slowTo le_rfl s).only.rget _ (by decide), capNj, ledger_of_rset, cap_slowTo]
  rfl

theorem ledgDiv_charged (ns : Nat) (s : Machine.State) : ledgDiv (charged ns s) = 3 := by
  have hle : ledgDiv s ≤ 3 := Nat.le_of_lt_succ (rget_lt ..)
  rw [ledgDiv, charged, setBal, rget_rput_other _ _ _ (by decide), rget_modLedger, rget_rset_other _ _ _ _ (by decide)]
  exact (ledgDiv_slowTo le_rfl s).trans (max_eq_left hle)

theorem power_charged (ns : Nat) (s : Machine.State) : (charged ns s).power = s.power :=
  congrArg (fun s => s.power) (onlyLedger_charged ns s).rest

theorem mgmt_charged (ns : Nat) (s : Machine.State) : (charged ns s).mgmt = s.mgmt :=
  congrArg (fun s => s.mgmt) (onlyLedger_charged ns s).rest

theorem noHost_ageCandidates (n : Nat) (s : Machine.State) : noHost (ageCandidates n s) = noHost s := noHost_eachCmd ..

theorem rget_ledgerTakeover (ns : Nat) (s : Machine.State) (o : Nat) (f : Fld) :
    rget (ledgerTakeover ns s) o f = rget (charged ns s) o f := by
  rw [ledgerTakeover_eq, rget_modLedger, (onlyQueues_ageCandidates _ _).rget]

theorem power_ledgerTakeover (ns : Nat) (s : Machine.State) : (ledgerTakeover ns s).power = s.power :=
  (congrArg (fun s => s.power) (noHost_ageCandidates (ns / 10000) (charged ns s))).trans (power_charged ns s)

theorem mgmt_ledgerTakeover (ns : Nat) (s : Machine.State) : (ledgerTakeover ns s).mgmt = s.mgmt :=
  (congrArg (fun s => s.mgmt) (noHost_ageCandidates (ns / 10000) (charged ns s))).trans (mgmt_charged ns s)

theorem hold_ledgerTakeover (ns : Nat) (s : Machine.State) : (ledgerTakeover ns s).ledger.hold = 0 := rfl

theorem bal_ledgerTakeover (ns : Nat) (s : Machine.State) : (ledgerTakeover ns s).ledger.bal = (charged ns s).ledger.bal := by
  rw [ledgerTakeover_eq, ledger_modLedger, (onlyQueues_ageCandidates _ _).ledger]

/-- The other die is primary, without a standby, and the takeover counted (Table 2-14). -/
def swapped (s : Machine.State) : Machine.State :=
  rinc R.CP_STATUS F.CP_STATUS_TAKEOVER_COUNT 1 (rset R.CP_STATUS F.CP_STATUS_TAKEOVER 1
    (rset R.CP_STATUS F.CP_STATUS_PRIMARY (1 - rget s R.CP_STATUS F.CP_STATUS_PRIMARY) (rset R.CP_STATUS F.CP_STATUS_STANDBY_OK 0 s)))

/-- A queue that is enabled shows the takeover. -/
def markQueue (s : Machine.State) (q : Nat) : Machine.State :=
  if rbit s (R.QCFG q) F.QCFG_EN then rset (R.QSTAT q) F.QSTAT_TAKEOVER 1 s else s

/-- What the standby has done before it tells the host and the management controller. -/
def takenOver (ns : Nat) (s : Machine.State) : Machine.State :=
  (List.range 64).foldl markQueue (swapped (ledgerTakeover ns (s.modPower (fun p => { p with fenced := true }))))

theorem exec_takeover {s : Machine.State} (h : rbit s R.CP_STATUS F.CP_STATUS_STANDBY_OK = true) (gap : BitVec 32) :
    exec (.takeover gap [] []) s = .next (alert 3 (deviceEvent F.CP_DEVEVT_TAKEOVER (takenOver gap.toNat s))) := by
  show execTakeover gap [] [] s = _
  rw [execTakeover, if_pos h]
  rfl

theorem noRegs_markQueues (l : List Nat) (s : Machine.State) : noRegs (l.foldl markQueue s) = noRegs s := by
  induction l generalizing s with
  | nil => rfl
  | cons q l ih =>
    refine (ih _).trans ?_
    unfold markQueue
    split
    · exact noRegs_rset ..
    · rfl

/-- A register that is no queue's status. -/
def BesideQstat (o : Nat) : Prop := ∀ q, q < 64 → o ≠ R.QSTAT q

theorem rget_markQueue {o q : Nat} (ho : BesideQstat o) (hq : q < 64) (f : Fld) (s : Machine.State) :
    rget (markQueue s q) o f = rget s o f := by
  unfold markQueue
  split
  · exact rget_rset_other _ _ _ _ (ho q hq)
  · rfl

theorem rget_markQueues {o : Nat} (ho : BesideQstat o) (f : Fld) {l : List Nat} (hl : ∀ q ∈ l, q < 64) (s : Machine.State) :
    rget (l.foldl markQueue s) o f = rget s o f := by
  induction l generalizing s with
  | nil => rfl
  | cons q l ih =>
    obtain ⟨hq, hl⟩ := List.forall_mem_cons.mp hl
    exact (ih hl _).trans (rget_markQueue ho hq f s)

theorem all_queues_lt : ∀ q ∈ List.range 64, q < 64 := fun _ => List.mem_range.mp

theorem besideQstat_qcfg (q : Nat) : BesideQstat (R.QCFG q) := fun k _ => by unfold R.QCFG R.QSTAT; omega

theorem besideQstat_of_lt {o : Nat} (h : o < R.QSTAT 0 ∨ R.QSTAT 64 ≤ o) : BesideQstat o := fun k _ => by unfold R.QSTAT at *; omega

/-- A mark once set stays. -/
theorem mark_kept {q : Nat} (k : Nat) {s : Machine.State} (h : rget s (R.QSTAT q) F.QSTAT_TAKEOVER = 1) :
    rget (markQueue s k) (R.QSTAT q) F.QSTAT_TAKEOVER = 1 := by
  unfold markQueue
  split
  · by_cases hk : q = k
    · rw [hk, rget_rset_same _ _ _ _ (by decide)]
      rfl
    · rw [rget_rset_other _ _ _ _ (by unfold R.QSTAT; omega), h]
  · exact h

theorem marked_markQueues {q : Nat} {l : List Nat} (hl : ∀ q ∈ l, q < 64) {s : Machine.State} (hen : rbit s (R.QCFG q) F.QCFG_EN = true)
    (h : q ∈ l ∨ rget s (R.QSTAT q) F.QSTAT_TAKEOVER = 1) : rget (l.foldl markQueue s) (R.QSTAT q) F.QSTAT_TAKEOVER = 1 := by
  induction l generalizing s with
  | nil => exact h.resolve_left List.not_mem_nil
  | cons k l ih =>
    obtain ⟨hk, hl⟩ := List.forall_mem_cons.mp hl
    refine ih hl (by rw [rbit, rget_markQueue (besideQstat_qcfg q) hk]; exact hen) ?_
    by_cases hk : q = k
    · right
      subst hk
      rw [markQueue, if_pos hen, rget_rset_same _ _ _ _ (by decide)]
      rfl
    · exact h.imp (fun h => (List.mem_cons.mp h).resolve_left hk) (mark_kept k)

theorem noRegs_takenOver (ns : Nat) (s : Machine.State) :
    noRegs (takenOver ns s) = noRegs (ledgerTakeover ns (s.modPower (fun p => { p with fenced := true }))) := by
  rw [takenOver, noRegs_markQueues, swapped, noRegs_rinc, noRegs_rset, noRegs_rset, noRegs_rset]

theorem rget_swapped_other {o : Nat} (ho : o ≠ R.CP_STATUS) (f : Fld) (s : Machine.State) : rget (swapped s) o f = rget s o f := by
  rw [swapped, rinc, rget_rset_other _ _ _ _ ho, rget_rset_other _ _ _ _ ho, rget_rset_other _ _ _ _ ho, rget_rset_other _ _ _ _ ho]

theorem primary_swapped (s : Machine.State) :
    rget (swapped s) R.CP_STATUS F.CP_STATUS_PRIMARY = 1 - rget s R.CP_STATUS F.CP_STATUS_PRIMARY := by
  rw [swapped, rinc, rget_rset_field _ _ _ _ _ (by decide) (by decide), rget_rset_field _ _ _ _ _ (by decide) (by decide),
    rget_rset_same _ _ _ _ (by decide)]
  exact Nat.mod_eq_of_lt (by change _ < 2; omega)

theorem standby_swapped (s : Machine.State) : rbit (swapped s) R.CP_STATUS F.CP_STATUS_STANDBY_OK = false := by
  rw [rbit, swapped, rinc, rget_rset_field _ _ _ _ _ (by decide) (by decide), rget_rset_field _ _ _ _ _ (by decide) (by decide),
    rget_rset_field _ _ _ _ _ (by decide) (by decide), rget_rset_same _ _ _ _ (by decide), Nat.zero_mod]
  rfl

theorem takeover_swapped (s : Machine.State) : rget (swapped s) R.CP_STATUS F.CP_STATUS_TAKEOVER = 1 := by
  rw [swapped, rinc, rget_rset_field _ _ _ _ _ (by decide) (by decide), rget_rset_same _ _ _ _ (by decide)]
  rfl

theorem count_swapped (s : Machine.State) : CountedUp R.CP_STATUS F.CP_STATUS_TAKEOVER_COUNT s (swapped s) := by
  have h : ∀ u, rget u R.CP_STATUS F.CP_STATUS_TAKEOVER_COUNT = rget s R.CP_STATUS F.CP_STATUS_TAKEOVER_COUNT →
      CountedUp R.CP_STATUS F.CP_STATUS_TAKEOVER_COUNT s (rinc R.CP_STATUS F.CP_STATUS_TAKEOVER_COUNT 1 u) := by
    intro u hu
    rw [CountedUp, ← hu]
    exact countedUp_rinc u (by decide)
  refine h _ ?_
  rw [rget_rset_field _ _ _ _ _ (by decide) (by decide), rget_rset_field _ _ _ _ _ (by decide) (by decide),
    rget_rset_field _ _ _ _ _ (by decide) (by decide)]

/-- A device event leaves every register but `CP_DEVEVT` and the pending vectors. -/
theorem rget_deviceEvent {o : Nat} (hdev : o ≠ R.CP_DEVEVT) (hpba : o < 0x148000 ∨ 0x148100 ≤ o) (f g : Fld) (s : Machine.State) :
    rget (deviceEvent g s) o f = rget s o f := by
  rw [deviceEvent, rget, rraw_raiseVector (rget_lt ..) hpba]
  exact rget_rset_other _ _ _ _ hdev

theorem noHost_deviceEvent (g : Fld) (s : Machine.State) : noHost (deviceEvent g s) = noHost s := by
  rw [deviceEvent, noHost_raiseVector, noHost_rset]

/-- What outlives the marks, the event and the alert: registers other than theirs, and all that is no register. -/
theorem rget_takenOver {o : Nat} (hq : BesideQstat o) (ho : o ≠ R.CP_STATUS) (f : Fld) (ns : Nat) (s : Machine.State) :
    rget (takenOver ns s) o f = rget (charged ns (s.modPower (fun p => { p with fenced := true }))) o f := by
  rw [takenOver, rget_markQueues hq _ all_queues_lt, rget_swapped_other ho, rget_ledgerTakeover]

/-- Registers of `LEDG` and `CP` that a charge for the gap leaves. -/
theorem rget_charged {o : Nat} (ho : o ∉ [R.LEDG_STATUS, R.LEDG_DIVCHG, R.LEDG_RECON, R.LEDG_BAL]) (f : Fld) (ns : Nat)
    (s : Machine.State) : rget (charged ns s) o f = rget s o f :=
  (onlyLedger_charged ns s).rget f ho

theorem mgmt_deviceEvent (g : Fld) (s : Machine.State) : (deviceEvent g s).mgmt = s.mgmt :=
  congrArg (fun s => s.mgmt) (noHost_deviceEvent g s)

theorem mgmt_noRegs (s : Machine.State) : (noRegs s).mgmt = s.mgmt := rfl

theorem mgmt_takenOver (ns : Nat) (s : Machine.State) : (takenOver ns s).mgmt = s.mgmt := by
  rw [← mgmt_noRegs, noRegs_takenOver, mgmt_noRegs, mgmt_ledgerTakeover, mgmt_modPower]

/-- The standby that took over, the host and the management controller told. -/
def told (ns : Nat) (s : Machine.State) : Machine.State := alert 3 (deviceEvent F.CP_DEVEVT_TAKEOVER (takenOver ns s))

section
variable {s : Machine.State} (hr : s.mgmt.receiver = none) (ns : Nat)
include hr

theorem receiver_event : (deviceEvent F.CP_DEVEVT_TAKEOVER (takenOver ns s)).mgmt.receiver = none := by
  rw [mgmt_deviceEvent, mgmt_takenOver]
  exact hr

theorem told_eq : told ns s = rset R.MGMT_ALERT F.MGMT_ALERT_EVENTS
    ((rget (deviceEvent F.CP_DEVEVT_TAKEOVER (takenOver ns s)) R.MGMT_ALERT F.MGMT_ALERT_EVENTS).lor (2 ^ 3))
    (deviceEvent F.CP_DEVEVT_TAKEOVER (takenOver ns s)) := alert_of_no_receiver 3 (receiver_event hr ns)

theorem rget_told {o : Nat} (ho : o < 0x148000 ∨ 0x148100 ≤ o) (hdev : o ≠ R.CP_DEVEVT) (hal : o ≠ R.MGMT_ALERT) (f : Fld) :
    rget (told ns s) o f = rget (takenOver ns s) o f := by
  rw [told_eq hr, rget_rset_other _ _ _ _ hal, rget_deviceEvent hdev ho]

theorem noHost_told : noHost (told ns s) = noHost (takenOver ns s) := by
  rw [told_eq hr, noHost_rset, noHost_deviceEvent]

theorem status_told (f : Fld) : rget (told ns s) R.CP_STATUS f =
    rget (swapped (ledgerTakeover ns (s.modPower (fun p => { p with fenced := true })))) R.CP_STATUS f := by
  rw [rget_told hr ns (.inl (by decide)) (by decide) (by decide), takenOver, rget_markQueues (besideQstat_of_lt (.inl (by decide))) _ all_queues_lt]

theorem power_told : (told ns s).power = { s.power with fenced := true } :=
  (congrArg (fun s => s.power) (noHost_told hr ns)).trans
    ((congrArg (fun s => s.power) (noRegs_takenOver ns s)).trans (power_ledgerTakeover ns _))

theorem ledger_told : (told ns s).ledger = (ledgerTakeover ns (s.modPower (fun p => { p with fenced := true }))).ledger :=
  (congrArg (fun s => s.ledger) (noHost_told hr ns)).trans (congrArg (fun s => s.ledger) (noRegs_takenOver ns s))

theorem ledgDiv_told : ledgDiv (told ns s) = 3 := by
  rw [ledgDiv, rget_told hr ns (.inr (by decide)) (by decide) (by decide),
    rget_takenOver (besideQstat_of_lt (.inr (by decide))) (by decide)]
  exact ledgDiv_charged ns _

theorem event_told : rget (told ns s) R.CP_DEVEVT F.CP_DEVEVT_TAKEOVER = 1 := by
  rw [told_eq hr, rget_rset_other _ _ _ _ (by decide), deviceEvent, rget, rraw_raiseVector (rget_lt ..) (.inl (by decide))]
  exact rget_rset_same _ _ _ _ (by decide)

theorem marked_told {q : Nat} (hq : q < 64) (hen : rbit s (R.QCFG q) F.QCFG_EN = true) :
    rget (told ns s) (R.QSTAT q) F.QSTAT_TAKEOVER = 1 := by
  have hstat : R.QSTAT q < 0x148000 := by unfold R.QSTAT; omega
  rw [rget_told hr ns (.inl hstat) (by unfold R.QSTAT R.CP_DEVEVT; omega) (by unfold R.QSTAT R.MGMT_ALERT; omega)]
  refine marked_markQueues all_queues_lt ?_ (.inl (List.mem_range.mpr hq))
  have hcfg : R.QCFG q ∉ [R.LEDG_STATUS, R.LEDG_DIVCHG, R.LEDG_RECON, R.LEDG_BAL] := by
    simp [R.QCFG, R.LEDG_STATUS, R.LEDG_DIVCHG, R.LEDG_RECON, R.LEDG_BAL]
    omega
  rw [rbit, rget_swapped_other (by unfold R.QCFG R.CP_STATUS; omega), rget_ledgerTakeover, rget_charged hcfg]
  exact hen

end

theorem takeovers : Claims.Takeovers := by
  intro gap s
  refine ⟨rfl, fun h u r => congrArg Host.Outcome.next (if_neg (by simp [h])), fun h hr => ?_⟩
  have hkept : ∀ f, rget (ledgerTakeover gap.toNat (s.modPower (fun p => { p with fenced := true }))) R.CP_STATUS f =
      rget s R.CP_STATUS f := fun f => by
    rw [rget_ledgerTakeover, rget_charged (by decide), rget_modPower]
  refine ⟨told gap.toNat s, exec_takeover h gap, ?_, ?_, ?_, ?_, power_told hr _, fun q => marked_told hr _, ledgDiv_told hr _, ?_, ?_,
    event_told hr _, alert_stands (by decide) (receiver_event hr _)⟩
  · rw [status_told hr, primary_swapped, hkept]
  · rw [rbit, status_told hr]
    exact standby_swapped _
  · rw [status_told hr, takeover_swapped]
  · rw [CountedUp, status_told hr, ← hkept]
    exact count_swapped _
  · rw [ledger_told hr, hold_ledgerTakeover]
  · rw [ledger_told hr, bal_ledgerTakeover, bal_charged]
    rfl

/-- Settles O54: a fall takes every domain but AON and then shows its cause, and a takeover changes `CP_STATUS`, the ledger, the
queues' marks, the event and the alert one after the other. -/
theorem tripsAndTakeovers : Obligations.TripsAndTakeovers := ⟨tripsAndSupplies, takeovers⟩

end Sys2Proof
end

section
/-! A launch starts on its tile (R58, R153, Table 2-12). -/

namespace Sys2Proof

open Sys2Proof.Machine

/-! ### The start values -/

theorem mget_msets_range {α : Type} [DecidableEq α] (d : Nat → α) (g : Nat → α) (n k : Nat) :
    mget d (msets d [] ((List.range n).map (fun i => (i + 1, g i)))) k = if 1 ≤ k ∧ k ≤ n then g (k - 1) else d k := by
  induction n with
  | zero => exact (if_neg (by omega)).symm
  | succ n ih =>
    rw [List.range_succ, List.map_append, msets, List.foldl_append]
    change mget d (mset d (msets d [] ((List.range n).map (fun i => (i + 1, g i)))) (n + 1) (g n)) k = _
    rw [mget_mset, ih]
    by_cases hk : k = n + 1
    · rw [if_pos hk, if_pos (by omega), hk, Nat.add_sub_cancel]
    · rw [if_neg hk]
      exact if_congr (by omega) rfl rfl

theorem startReg_eq (c : Cmd) (rank count : Nat) {k : Nat} (h1 : 1 ≤ k) (h : k < 14) :
    startReg c rank count k = StartValues c rank count ⟨k, h⟩ := by
  rw [startReg, StartValues, if_neg (show ¬ k = 0 by omega), show 0x40 + 8 * (k - 1) = 0x38 + 8 * k by omega]

/-- S1 to S13 hold their start values, every other register zero. -/
theorem mget_startRegs (c : Cmd) (rank count k : Nat) : mget (fun _ => 0) (startRegs c rank count) k =
    if h : k < 14 then BitVec.ofNat 64 (StartValues c rank count ⟨k, h⟩) else 0 := by
  rw [startRegs, mget_msets_range _ (fun i => BitVec.ofNat 64 (startReg c rank count (i + 1)))]
  by_cases h0 : k = 0
  · subst h0
    rfl
  · by_cases h : k < 14
    · rw [if_pos (by omega), dif_pos h, Nat.sub_add_cancel (by omega), startReg_eq c rank count (by omega) h]
    · rw [if_neg (by omega), dif_neg h]

theorem startRank_single {c : Cmd} {t : TileId} (h : c.tiles = [t.toNat]) (hk : cF c 0x32 1 ≠ 2) : startRank c t = 0 := by
  rw [startRank, if_neg hk, h]
  simp

theorem startCount_single {c : Cmd} {n : Nat} (h : c.tiles = [n]) (hk : cF c 0x32 1 ≠ 2) : startCount c = 1 := by
  rw [startCount, if_neg hk, h]
  rfl

/-! ### The registers of a tile that starts -/

/-- The X-core's registers at launch start. -/
def xStarted (n pc : Nat) (s : Machine.State) : Machine.State :=
  rput (R.XC_WDOG n) 0 (rput (R.XC_CYCLES n) 0 (rput (R.XC_RETIRED n) 0 (rput (R.XC_FAULT_PC n) 0 (rput (R.XC_FAULT n) 0
    (rput (R.XC_PC n) (pc / 4 * 4) (rput (R.XC_STATUS n) xcRunning s))))))

/-- The F-core's registers at launch start: RUNNING at its program if it has one, else IDLE. -/
def fStarted (t : TileId) (pc : Nat) (s : Machine.State) : Machine.State :=
  if pc = 0 then setFState t fcIdle (rput (R.FC_FAULT t.toNat) 0 s)
  else rput (R.FC_PC t.toNat) (pc / 4 * 4) (rput (R.FC_STATUS t.toNat) fcRunning (rput (R.FC_FAULT t.toNat) 0 s))

/-- What a tile holds at launch start, `fixed` the order of its accesses. -/
def tileStarted (q : QIdx) (c : Cmd) (t : TileId) (fixed : Bool) (k : Tile) : Tile :=
  { k with
    x := { XCore.reset with s := startRegs c (startRank c t) (startCount c), seq := k.x.seq, launch := some (q, c.seq) }
    f := { FCore.reset with g := if cF c 0x18 8 = 0 then k.f.g else startRegs c (startRank c t) (startCount c) }
    fixed := fixed }

theorem startTile_eq (q : QIdx) (c : Cmd) (t : TileId) (s : Machine.State) : startTile q c t s =
    rset (R.TILE_STATE t.toNat) F.TILE_STATE_STATE tsRunning (setQuad t (cF c 0x32 1 == 2)
      (fStarted t (cF c 0x18 8) (xStarted t.toNat (cF c 0x10 8)
        (s.modTile t (tileStarted q c t (rbit s R.EXD_CTL F.EXD_CTL_FIXED_ORDER)))))) := rfl

section
variable {t : TileId} {o : Nat} (s : Machine.State)

theorem rraw_setQuad_other (h : o ≠ R.CE_STATUS t.toNat) (b : Bool) : rraw (setQuad t b s) o = rraw s o := by
  rw [setQuad, rraw_rset_other _ _ _ h, rraw_rset_other _ _ _ h, rraw_rset_other _ _ _ h]

theorem quad_setQuad (b : Bool) : rget (setQuad t b s) (R.CE_STATUS t.toNat) F.CE_STATUS_QUAD = b2n b := by
  rw [setQuad, rget_rset_field _ _ _ _ _ (by decide) (by decide), rget_rset_field _ _ _ _ _ (by decide) (by decide),
    rget_rset_same _ _ _ _ (by decide)]
  cases b <;> rfl

theorem qwidth_setQuad : rget (setQuad t false s) (R.CE_STATUS t.toNat) F.CE_STATUS_QWIDTH = 0 := by
  rw [setQuad, rget_rset_same _ _ _ _ (by decide)]
  rfl

theorem tile_setQuad (b : Bool) (w : TileId) : (setQuad t b s).tile w = s.tile w := by
  rw [setQuad, tile_rset, tile_rset, tile_rset]

theorem tile_fStarted (pc : Nat) (w : TileId) : (fStarted t pc s).tile w = s.tile w := by
  unfold fStarted setFState
  split
  · rw [tile_rset, tile_rset, tile_rset, tile_rput]
  · rw [tile_rput, tile_rput, tile_rput]

theorem tile_xStarted (n pc : Nat) (w : TileId) : (xStarted n pc s).tile w = s.tile w := by
  rw [xStarted]
  simp only [tile_rput]

theorem rraw_fStarted_other (hs : o ≠ R.FC_STATUS t.toNat) (hp : o ≠ R.FC_PC t.toNat) (hf : o ≠ R.FC_FAULT t.toNat) (pc : Nat) :
    rraw (fStarted t pc s) o = rraw s o := by
  unfold fStarted setFState
  split
  · rw [rraw_rset_other _ _ _ hs, rraw_rset_other _ _ _ hs, rraw_rset_other _ _ _ hs, rraw_rput_other _ _ hf]
  · rw [rraw_rput_other _ _ hp, rraw_rput_other _ _ hs, rraw_rput_other _ _ hf]

theorem fState_fStarted (pc : Nat) : fState (fStarted t pc s) t = if pc = 0 then 0 else 1 := by
  rw [fState, fStarted]
  split
  · rw [setFState, rget_rset_same _ _ _ _ (by decide)]
    rfl
  · rw [rget_rput_other _ _ _ (by unfold R.FC_STATUS R.FC_PC; omega), rget_rput_same _ _ _ _ (by decide)]
    rfl

theorem bits_pc (x : Nat) : bits (x / 4 * 4) 0 48 = x % 2 ^ 48 / 4 * 4 := by
  rw [bits, Nat.shiftRight_zero]
  omega

theorem fPc_fStarted {pc : Nat} (h : pc ≠ 0) : fPc (fStarted t pc s) t = pc % 2 ^ 48 / 4 * 4 := by
  rw [fPc, fStarted, if_neg h, rget_rput_same _ _ _ _ (by decide)]
  exact bits_pc pc

end

theorem rget_congr {u v : Machine.State} {o : Nat} (h : rraw u o = rraw v o) (f : Fld) : rget u o f = rget v o f := by
  rw [rget, rget, h]

section
variable (q : QIdx) (c : Cmd) (t : TileId) (s : Machine.State)

theorem noTiles_startTile : noTiles (startTile q c t s) = noTiles s := by
  rw [startTile_eq, noTiles_rset, setQuad, noTiles_rset, noTiles_rset, noTiles_rset, fStarted, setFState, apply_ite noTiles]
  simp only [noTiles_rset, noTiles_rput, xStarted, noTiles_modTile, ite_self]

theorem cmd_noTiles (s : Machine.State) (p : QIdx) (seq : W32) : (noTiles s).cmd p seq = s.cmd p seq := rfl

theorem cmd_startTile (p : QIdx) (seq : W32) : (startTile q c t s).cmd p seq = s.cmd p seq := by
  rw [← cmd_noTiles, noTiles_startTile, cmd_noTiles]

theorem tile_startTile : (startTile q c t s).tile t = tileStarted q c t (rbit s R.EXD_CTL F.EXD_CTL_FIXED_ORDER) (s.tile t) := by
  rw [startTile_eq, tile_rset, tile_setQuad, tile_fStarted, tile_xStarted, tile_modTile_same]

theorem tile_startTile_other {w : TileId} (h : w ≠ t) : (startTile q c t s).tile w = s.tile w := by
  rw [startTile_eq, tile_rset, tile_setQuad, tile_fStarted, tile_xStarted, tile_modTile_other _ _ h]

/-- The X-core's registers are those of its start. -/
theorem rraw_startTile_core {o : Nat} (h : R.XC_CTL t.toNat ≤ o ∧ o < R.FC_CTL t.toNat) :
    rraw (startTile q c t s) o = rraw (xStarted t.toNat (cF c 0x10 8) s) o := by
  unfold R.XC_CTL R.FC_CTL at h
  rw [startTile_eq, rraw_rset_other _ _ _ (by unfold R.TILE_STATE; omega), rraw_setQuad_other _ (by unfold R.CE_STATUS; omega),
    rraw_fStarted_other _ (by unfold R.FC_STATUS; omega) (by unfold R.FC_PC; omega) (by unfold R.FC_FAULT; omega)]
  rfl

/-- The F-core's registers are those of its start. -/
theorem rget_startTile_fetch {o : Nat} (h : R.FC_CTL t.toNat ≤ o ∧ o < R.CE_STATUS t.toNat) (f : Fld) :
    rget (startTile q c t s) o f = rget (fStarted t (cF c 0x18 8) (xStarted t.toNat (cF c 0x10 8)
      (s.modTile t (tileStarted q c t (rbit s R.EXD_CTL F.EXD_CTL_FIXED_ORDER))))) o f := by
  unfold R.FC_CTL R.CE_STATUS at h
  refine rget_congr ?_ f
  rw [startTile_eq, rraw_rset_other _ _ _ (by unfold R.TILE_STATE; omega), rraw_setQuad_other _ (by unfold R.CE_STATUS; omega)]

theorem xState_startTile : xState (startTile q c t s) t = 1 := by
  rw [xState, rget_congr (rraw_startTile_core q c t s (by unfold R.XC_CTL R.XC_STATUS R.FC_CTL; omega)), xStarted,
    rget_rput_other _ _ _ (by unfold R.XC_STATUS R.XC_WDOG; omega), rget_rput_other _ _ _ (by unfold R.XC_STATUS R.XC_CYCLES; omega),
    rget_rput_other _ _ _ (by unfold R.XC_STATUS R.XC_RETIRED; omega), rget_rput_other _ _ _ (by unfold R.XC_STATUS R.XC_FAULT_PC; omega),
    rget_rput_other _ _ _ (by unfold R.XC_STATUS R.XC_FAULT; omega), rget_rput_other _ _ _ (by unfold R.XC_STATUS R.XC_PC; omega),
    rget_rput_same _ _ _ _ (by decide)]
  rfl

theorem xPc_startTile : xPc (startTile q c t s) t = cF c 0x10 8 % 2 ^ 48 / 4 * 4 := by
  rw [xPc, rget_congr (rraw_startTile_core q c t s (by unfold R.XC_CTL R.XC_PC R.FC_CTL; omega)), xStarted,
    rget_rput_other _ _ _ (by unfold R.XC_PC R.XC_WDOG; omega), rget_rput_other _ _ _ (by unfold R.XC_PC R.XC_CYCLES; omega),
    rget_rput_other _ _ _ (by unfold R.XC_PC R.XC_RETIRED; omega), rget_rput_other _ _ _ (by unfold R.XC_PC R.XC_FAULT_PC; omega),
    rget_rput_other _ _ _ (by unfold R.XC_PC R.XC_FAULT; omega), rget_rput_same _ _ _ _ (by decide)]
  exact bits_pc _

theorem fault_startTile : rraw (startTile q c t s) (R.XC_FAULT t.toNat) = 0 := by
  rw [rraw_startTile_core q c t s (by unfold R.XC_CTL R.XC_FAULT R.FC_CTL; omega), xStarted,
    rraw_rput_other _ _ (by unfold R.XC_FAULT R.XC_WDOG; omega), rraw_rput_other _ _ (by unfold R.XC_FAULT R.XC_CYCLES; omega),
    rraw_rput_other _ _ (by unfold R.XC_FAULT R.XC_RETIRED; omega), rraw_rput_other _ _ (by unfold R.XC_FAULT R.XC_FAULT_PC; omega),
    rraw_rput_same, Nat.zero_mod]

theorem retired_startTile : rraw (startTile q c t s) (R.XC_RETIRED t.toNat) = 0 := by
  rw [rraw_startTile_core q c t s (by unfold R.XC_CTL R.XC_RETIRED R.FC_CTL; omega), xStarted,
    rraw_rput_other _ _ (by unfold R.XC_RETIRED R.XC_WDOG; omega), rraw_rput_other _ _ (by unfold R.XC_RETIRED R.XC_CYCLES; omega),
    rraw_rput_same, Nat.zero_mod]

theorem wdog_startTile : rraw (startTile q c t s) (R.XC_WDOG t.toNat) = 0 := by
  rw [rraw_startTile_core q c t s (by unfold R.XC_CTL R.XC_WDOG R.FC_CTL; omega), xStarted, rraw_rput_same, Nat.zero_mod]

theorem state_startTile : rget (startTile q c t s) (R.TILE_STATE t.toNat) F.TILE_STATE_STATE = 1 := by
  rw [startTile_eq, rget_rset_same _ _ _ _ (by decide)]
  rfl

theorem quad_startTile : rget (startTile q c t s) (R.CE_STATUS t.toNat) F.CE_STATUS_QUAD = b2n (cF c 0x32 1 == 2) := by
  rw [startTile_eq, rget_rset_other _ _ _ _ (by unfold R.CE_STATUS R.TILE_STATE; omega), quad_setQuad]

theorem fState_startTile : fState (startTile q c t s) t = if cF c 0x18 8 = 0 then 0 else 1 := by
  rw [fState, rget_startTile_fetch q c t s (by unfold R.FC_CTL R.FC_STATUS R.CE_STATUS; omega)]
  exact fState_fStarted ..

theorem fPc_startTile (h : cF c 0x18 8 ≠ 0) : fPc (startTile q c t s) t = cF c 0x18 8 % 2 ^ 48 / 4 * 4 := by
  rw [fPc, rget_startTile_fetch q c t s (by unfold R.FC_CTL R.FC_PC R.CE_STATUS; omega)]
  exact fPc_fStarted _ h

/-- S registers at launch start; S0 reads zero. -/
theorem rdS_startTile (r : SReg) : rdS (startTile q c t s) t r =
    if h : r.toNat < 14 then BitVec.ofNat 64 (StartValues c (startRank c t) (startCount c) ⟨r.toNat, h⟩) else 0 := by
  unfold rdS
  split
  · next h => subst h; rfl
  · rw [tile_startTile]
    exact mget_startRegs ..

/-- With a fetch program G1 to G15 start as S1 to S15 do (R153). -/
theorem rdG_startTile (h : cF c 0x18 8 ≠ 0) {r : GReg} (hr : r ≠ 0) :
    rdG (startTile q c t s) t r = rdS (startTile q c t s) t (r.setWidth 5) := by
  have hn : (r.setWidth 5).toNat = r.toNat := by
    rw [BitVec.toNat_setWidth]
    exact Nat.mod_eq_of_lt (by omega)
  have hr' : r.setWidth 5 ≠ 0 := fun e => hr (BitVec.eq_of_toNat_eq (by rw [← hn, e]; rfl))
  rw [rdG, rdS, if_neg hr, if_neg hr', tile_startTile, hn]
  simp only [tileStarted, if_neg h]

end

/-! ### LAUNCH -/

theorem tileSettled_iff (s : Machine.State) (t : TileId) : tileSettled s t = true ↔ NothingLeft s t := by
  simp only [tileSettled, NothingLeft, Bool.and_eq_true, List.isEmpty_iff, Bool.not_eq_true', List.any_eq_false, and_assoc]
  refine and_congr_right fun _ => and_congr_right fun _ => forall₂_congr fun e _ => ?_
  cases e.2.op with
  | read l => simp
  | write l => simp
  | aadd a wide x ret => simp
  | post u sem n => simp

theorem claimTiles_bitmap {c : Cmd} (ho : cmdOp c = opLaunch) (hk : cF c 0x32 1 ≠ 2) : claimTiles c = setTiles c := by
  rw [claimTiles, if_pos ho, oddQuad, if_neg (by simp [hk])]

theorem tilesFree_iff {c : Cmd} (ho : cmdOp c = opLaunch) (hk : cF c 0x32 1 ≠ 2) (s : Machine.State) :
    tilesFree s c = true ↔ ∀ k ∈ setTiles c, (s.tile (BitVec.ofNat 11 k)).x.launch = none := by
  rw [tilesFree, claimTiles_bitmap ho hk]
  simp

section
variable {q : QIdx} {seq : W32} {c : Cmd} {s : Machine.State}

theorem exec_launch_empty (h : AtHand s q seq 1 c) (ht : c.tiles = []) : exec (.launch q seq) s = .next (endWith q seq .protection 0 0 s) := by
  rw [exec, execLaunch, runCmd_atHand (op := opLaunch) _ h, if_pos ht]

variable {t : TileId} (h : AtHand s q seq 1 c) (ht : c.tiles = [t.toNat]) (hk : cF c 0x32 1 ≠ 2)
  (hf : ∀ k ∈ setTiles c, (s.tile (BitVec.ofNat 11 k)).x.launch = none)
include h ht

theorem exec_launch_waits (hl : ¬ NothingLeft s t) : exec (.launch q seq) s = .next s := by
  rw [exec, execLaunch, runCmd_atHand (op := opLaunch) _ h, if_neg (by simp [ht]), if_neg]
  rintro ⟨-, hs⟩
  rw [ht, List.all_cons, BitVec.ofNat_toNat, BitVec.setWidth_eq, Bool.and_eq_true] at hs
  exact hl ((tileSettled_iff s t).mp hs.1)

include hk hf

theorem exec_launch_single (hl : NothingLeft s t) : exec (.launch q seq) s =
    .next (startTile q c t (s.modCmd q seq (fun c => { c with phase := .running }))) := by
  have hset : c.tiles.all (fun t => tileSettled s (BitVec.ofNat 11 t)) = true := by
    rw [ht, List.all_cons, BitVec.ofNat_toNat, BitVec.setWidth_eq, (tileSettled_iff s t).mpr hl]
    rfl
  rw [exec, execLaunch, runCmd_atHand (op := opLaunch) _ h, if_neg (by simp [ht]), if_pos ⟨(tilesFree_iff h.2.2 hk s).mpr hf, hset⟩,
    ht, List.foldl_cons, List.foldl_nil, BitVec.ofNat_toNat, BitVec.setWidth_eq]

end

theorem launchStarts : Claims.LaunchStarts := by
  intro q seq c s h hn
  refine ⟨fun ht => ⟨_, exec_launch_empty h ht, endWith_left 0 0 h.1 hn rfl⟩, fun t ht _ hl _ => exec_launch_waits h ht hl,
    fun t ht hf hl h1 => ?_⟩
  have hk : cF c 0x32 1 ≠ 2 := by omega
  have hrank := startRank_single ht hk
  have hcount := startCount_single ht hk
  have hcmd : (s.modCmd q seq (fun c => { c with phase := .running })).cmd q seq = some { c with phase := .running } :=
    (cmdLeft_phase .running h.1).cmd
  refine ⟨_, exec_launch_single h ht hk hf hl, ?_, ?_, xState_startTile .., xPc_startTile .., fun r => ?_, fun r => ?_, fun r => ?_,
    fun r => ?_, fault_startTile .., retired_startTile .., wdog_startTile .., state_startTile .., ?_, fun hp => ⟨?_, fPc_startTile _ _ _ _ hp,
    fun r => rdG_startTile _ _ _ _ hp⟩, fun hp => ?_, fun w hw => tile_startTile_other _ _ _ _ hw, ?_, fun a => ?_⟩
  · rw [cmd_startTile, hcmd]
  · rw [tile_startTile]
    rfl
  · rw [rdS_startTile, hrank, hcount]
  · rw [rdV, tile_startTile]
    rfl
  · rw [rdP, tile_startTile]
    rfl
  · rw [rdD, tile_startTile]
    rfl
  · rw [quad_startTile, h1]
    rfl
  · rw [fState_startTile, if_neg hp]
  · rw [fState_startTile, if_pos hp]
  · rw [tile_startTile]
    rfl
  · rw [rdByte, mem_startTile]
    rfl

end Sys2Proof
end

section
/-! A launch ends when its tiles have (R59, R60, R201). -/

namespace Sys2Proof

open Sys2Proof.Machine

/-! ### What a completion leaves (R47, R60, R62) -/

theorem leAt_one_lt (l : List Byte) (off : Nat) : leAt l off 1 < 256 := by
  unfold leAt padTo
  cases l.drop off with
  | nil => decide
  | cons b bs => simpa [leNat] using b.isLt

section
variable (q : QIdx) (c : Cmd) (s : Machine.State)

theorem irqVec_lt {v : Nat} (h : irqVec q c = some v) : v < 2048 := by
  unfold irqVec at h
  split at h
  · have hb : cF c 1 1 < 256 := leAt_one_lt _ _
    injection h with h
    omega
  · exact absurd h nofun

theorem noHost_cmdIrq : noHost (cmdIrq q c s) = noHost s := by
  unfold cmdIrq
  split
  · exact noHost_raiseVector ..
  · rfl

theorem queue_cmdIrq (p : QIdx) : (cmdIrq q c s).queue p = s.queue p := by
  unfold cmdIrq
  split
  · exact queue_raiseVector ..
  · rfl

theorem rraw_cmdIrq {o : Nat} (ho : o < 0x148000 ∨ 0x148100 ≤ o) : rraw (cmdIrq q c s) o = rraw s o := by
  unfold cmdIrq
  split
  next v hv => exact rraw_raiseVector (irqVec_lt q c hv) ho s
  · rfl

variable (st : Status) (stops : Bool) (step energy kcc : Nat)

/-- The record written in its slot, and kept with the vector it raises until the host releases it (R65). -/
def recordKept : Machine.State :=
  (hostWr (slotAddr s q (cqTail s q)) (recordBytes c q st (s.queue q).phase step energy kcc) s).modQueue q (fun h => { h with
    recs := h.recs ++ [(cqTail s q, recordBytes c q st (s.queue q).phase step energy kcc,
      if (irqVec q c).isSome ∨ stops = false then irqVec q c else some (q.toNat * 32))] })

/-- The record written, and the tail moved past it (R47). -/
def recordPut : Machine.State :=
  rset (R.QCQ_TAIL q.toNat) F.QCQ_TAIL_TAIL ((cqTail s q + 1) % cqSize (recordKept q c s st stops step energy kcc) q)
    (recordKept q c s st stops step energy kcc)

/-- Where the tail wraps PHASE inverts (R61). -/
theorem writeRecord_eq : writeRecord q c st stops step energy kcc s =
    if cqTail s q + 1 = cqSize (recordPut q c s st stops step energy kcc) q then
      (recordPut q c s st stops step energy kcc).modQueue q (fun h => { h with phase := !h.phase })
    else recordPut q c s st stops step energy kcc := rfl

theorem noHost_hostWr (a : Nat) (b : List Byte) : noHost (hostWr a b s) = noHost s := rfl

theorem queue_hostWr (a : Nat) (b : List Byte) : (hostWr a b s).queue q = s.queue q := rfl

theorem rraw_hostWr (a : Nat) (b : List Byte) (o : Nat) : rraw (hostWr a b s) o = rraw s o := rfl

theorem noHost_recordPut : noHost (recordPut q c s st stops step energy kcc) = noHost s := by
  rw [recordPut, noHost_rset, recordKept, noHost_modQueue, noHost_hostWr]

theorem cmds_recordPut : ((recordPut q c s st stops step energy kcc).queue q).cmds = (s.queue q).cmds := by
  rw [recordPut, queue_rset, recordKept, queue_modQueue_same, queue_hostWr]

theorem rraw_recordPut {o : Nat} (ho : o ≠ R.QCQ_TAIL q.toNat) : rraw (recordPut q c s st stops step energy kcc) o = rraw s o := by
  rw [recordPut, rraw_rset_other _ _ _ ho, recordKept, rraw_modQueue, rraw_hostWr]

theorem noHost_writeRecord : noHost (writeRecord q c st stops step energy kcc s) = noHost s := by
  rw [writeRecord_eq]
  split
  · rw [noHost_modQueue, noHost_recordPut]
  · exact noHost_recordPut ..

theorem cmds_writeRecord : ((writeRecord q c st stops step energy kcc s).queue q).cmds = (s.queue q).cmds := by
  rw [writeRecord_eq]
  split
  · rw [queue_modQueue_same, cmds_recordPut]
  · exact cmds_recordPut ..

theorem rraw_writeRecord {o : Nat} (ho : o ≠ R.QCQ_TAIL q.toNat) : rraw (writeRecord q c st stops step energy kcc s) o = rraw s o := by
  rw [writeRecord_eq]
  split
  · rw [rraw_modQueue, rraw_recordPut q c s st stops step energy kcc ho]
  · exact rraw_recordPut q c s st stops step energy kcc ho

end

theorem qstat_lt (q : QIdx) : R.QSTAT q.toNat < 0x148000 := by
  unfold R.QSTAT
  omega

/-- The stop is told: CMD_FAULT, its vector, and the command among those that stopped the queue. -/
def stopShown (q : QIdx) (seq : W32) (s : Machine.State) : Machine.State :=
  (raiseVector (q.toNat * 32) (rset (R.QSTAT q.toNat) F.QSTAT_CMD_FAULT 1 s)).modQueue q (fun h => { h with stops := h.stops ++ [seq] })

section
variable (q : QIdx) (seq : W32) (s : Machine.State)

theorem noHost_stopShown : noHost (stopShown q seq s) = noHost s := by
  rw [stopShown, noHost_modQueue, noHost_raiseVector, noHost_rset]

theorem cmds_stopShown : ((stopShown q seq s).queue q).cmds = (s.queue q).cmds := by
  rw [stopShown, queue_modQueue_same, queue_raiseVector, queue_rset]

theorem qState_stopShown : qState (stopShown q seq s) q = qState s q := by
  rw [stopShown, qState_modQueue, qState,
    rget_congr (rraw_raiseVector (by omega) (.inl (qstat_lt q)) (rset (R.QSTAT q.toNat) F.QSTAT_CMD_FAULT 1 s)),
    rget_rset_field _ _ _ _ _ (by decide) (by decide)]
  rfl

theorem stopQueue_eq : stopQueue q seq s = if qState (stopShown q seq s) q = qRunning then
    unCandidate q (setQState q qStopped (rput (R.QERR_SEQ q.toNat) seq.toNat (stopShown q seq s))) else stopShown q seq s := rfl

theorem stopQueue_running (h : qState s q = 1) : stopQueue q seq s =
    unCandidate q (setQState q qStopped (rput (R.QERR_SEQ q.toNat) seq.toNat (stopShown q seq s))) := by
  rw [stopQueue_eq, qState_stopShown, h, if_pos (show 1 = qRunning from rfl)]

variable {s} (h : qState s q = 1)
include h

theorem noHost_stopQueue : noHost (stopQueue q seq s) = noHost s := by
  rw [stopQueue_running q seq s h, unCandidate_eq, noHost_modQueue, setQState, noHost_rset, noHost_rput, noHost_stopShown]

theorem cmds_stopQueue : ((stopQueue q seq s).queue q).cmds = (s.queue q).cmds.map waitCmd := by
  rw [stopQueue_running q seq s h, unCandidate_eq, queue_modQueue_same, setQState, queue_rset, queue_rput, cmds_stopShown]

theorem qState_stopQueue : qState (stopQueue q seq s) q = 2 := by
  rw [stopQueue_running q seq s h, unCandidate_eq, qState_modQueue, qState_setQState]
  rfl

theorem errSeq_stopQueue : rraw (stopQueue q seq s) (R.QERR_SEQ q.toNat) = seq.toNat := by
  rw [stopQueue_running q seq s h, unCandidate_eq, rraw_modQueue, setQState,
    rraw_rset_other _ _ _ (by unfold R.QERR_SEQ R.QSTAT; omega), rraw_rput_same]
  exact Nat.mod_eq_of_lt (by omega)

end

section
variable {q : QIdx} {c : Cmd} {s : Machine.State} (energy kcc : Nat)

theorem badRef_of_launch (ho : cmdOp c = 1) : c.badRef = none := by
  unfold cmdOp at ho
  split at ho
  · exact absurd ho (by decide)
  next h => exact Option.not_isSome_iff_eq_none.mp h

/-- A launch that asks for no record and ends well only leaves its queue (R60). -/
theorem completeCmd_silent (ho : cmdOp c = 1) (hrec : bit (cF c 1 1) 1 = false) (hok : finalStatus c = .ok) :
    completeCmd q c energy kcc s = dropCmd q c.seq s := by
  simp [completeCmd, hok, hrec, ho, badRef_of_launch ho, Status.stops, opWait, opStepBegin, opStepEnd]

/-- A command that stops its queue leaves a record, whatever it asks for (R33). -/
theorem completeCmd_stops (h : (finalStatus c).stops = true) : completeCmd q c energy kcc s =
    stopQueue q c.seq (cmdIrq q c (writeRecord q c (finalStatus c) true c.step.toNat energy kcc (dropCmd q c.seq s))) := by
  simp [completeCmd, h]

theorem cmds_dropCmd (q : QIdx) (seq : W32) (s : Machine.State) : ((dropCmd q seq s).queue q).cmds = without1 s q seq := by
  rw [dropCmd, queue_modQueue_same]
  rfl

/-- The queue of a command that stops it: the command gone, the others as they were but for candidates, the stop shown. -/
structure QueueStopped (q : QIdx) (seq : W32) (u v : Machine.State) : Prop where
  seqs  : (v.queue q).cmds.map (·.seq) = (without1 u q seq).map (·.seq)
  state : qState v q = 2
  seq   : rraw v (R.QERR_SEQ q.toNat) = seq.toNat
  rest  : noHost v = noHost u

theorem queueStopped_completeCmd (h : (finalStatus c).stops = true) (hq : qState s q = 1) :
    QueueStopped q c.seq s (completeCmd q c energy kcc s) := by
  have hrun : qState (cmdIrq q c (writeRecord q c (finalStatus c) true c.step.toNat energy kcc (dropCmd q c.seq s))) q = 1 := by
    rw [qState, rget_congr (rraw_cmdIrq q c _ (.inl (qstat_lt q))), rget_congr (rraw_writeRecord q c _ _ _ _ _ _ (qtail_ne_qstat _).symm)]
    exact hq
  rw [completeCmd_stops energy kcc h]
  refine ⟨?_, qState_stopQueue q _ hrun, errSeq_stopQueue q _ hrun, ?_⟩
  · rw [cmds_stopQueue q _ hrun, map_seq_of_keeps waitCmd_seq, queue_cmdIrq, cmds_writeRecord, cmds_dropCmd]
  · rw [noHost_stopQueue q _ hrun, noHost_cmdIrq, noHost_writeRecord, dropCmd, noHost_modQueue]

end

/-! ### What a launch that ends leaves on its tile, and the ACQs and destinations that a stop takes -/

theorem noRegs_setQuad (t : TileId) (b : Bool) (s : Machine.State) : noRegs (setQuad t b s) = noRegs s := by
  rw [setQuad, noRegs_rset, noRegs_rset, noRegs_rset]

theorem onlyRegs_setQuad (t : TileId) (b : Bool) (s : Machine.State) : OnlyRegs [R.CE_STATUS t.toNat] s (setQuad t b s) :=
  ⟨noRegs_setQuad t b s, fun _ h => rraw_setQuad_other s (List.ne_of_not_mem_cons h) b⟩

/-- A tile that no longer runs the launch shows no quad; nothing else changes there (R201). -/
theorem closeTile_over {s : Machine.State} {t : TileId} (h : (s.tile t).x.launch = none) (q : QIdx) (seq : W32) (b : Bool) :
    closeTile q seq b t s = if b then setQuad t false s else s := by
  simp [closeTile, h]

/-- A held region request gives up its claim on the region (R310). -/
def heldDropped (s : Machine.State) (r : RgnReq) : Machine.State :=
  rset (R.RGNV_STATE (r.region.toNat / 4096) (r.region.toNat % 4096)) F.RGNV_STATE_HELD
    (rget s (R.RGNV_STATE (r.region.toNat / 4096) (r.region.toNat % 4096)) F.RGNV_STATE_HELD - 1) s

theorem noRegs_heldDropped (l : List RgnReq) (s : Machine.State) : noRegs (l.foldl heldDropped s) = noRegs s := by
  induction l generalizing s with
  | nil => rfl
  | cons r l ih => rw [List.foldl_cons, ih, heldDropped, noRegs_rset]

theorem rraw_heldDropped {o : Nat} (ho : o < 0x3080004) (l : List RgnReq) (s : Machine.State) : rraw (l.foldl heldDropped s) o = rraw s o := by
  induction l generalizing s with
  | nil => rfl
  | cons r l ih => rw [List.foldl_cons, ih, heldDropped, rraw_rset_other _ _ _ (by unfold R.RGNV_STATE; omega)]

/-- The requests that the condition names are gone; what holds no register is otherwise as it was. -/
theorem cancelReqs_eq (mine : RgnReq → Bool) (s : Machine.State) : cancelReqs mine s =
    { ((s.rgns.filter (fun r => mine r && r.held)).foldl heldDropped s) with
      rgns := ((s.rgns.filter (fun r => mine r && r.held)).foldl heldDropped s).rgns.filter (fun r => !mine r) } := rfl

/-- The ACQs of a launch. -/
def acqOf (q : QIdx) (seq : W32) (r : RgnReq) : Bool := r.acq && decide (r.owner = some (q, seq))

theorem noRegs_cancelAcqs (q : QIdx) (seq : W32) (s : Machine.State) :
    noRegs (cancelAcqs q seq s) = { noRegs s with rgns := s.rgns.filter (fun r => !acqOf q seq r) } := by
  have h := noRegs_heldDropped (s.rgns.filter (fun r => acqOf q seq r && r.held)) s
  rw [cancelAcqs, cancelReqs_eq]
  exact congrArg (fun u : Machine.State => { u with rgns := u.rgns.filter (fun r => !acqOf q seq r) }) h

theorem rraw_cancelAcqs {o : Nat} (ho : o < 0x3080004) (q : QIdx) (seq : W32) (s : Machine.State) :
    rraw (cancelAcqs q seq s) o = rraw s o := by
  rw [cancelAcqs, cancelReqs_eq]
  exact rraw_heldDropped ho _ s

theorem rdByte_freeBytes {l : List Nat} {a : Nat} (h : a ∉ l) (s : Machine.State) : rdByte (freeBytes l s) a = rdByte s a := by
  refine mget_msets_other _ _ _ _ fun e he => ?_
  obtain ⟨p, hp, rfl⟩ := List.mem_map.mp he
  exact fun e => h (e ▸ List.fst_mem_of_mem_zipIdx hp)

/-! ### LAUNCH_COMPLETE -/

/-- The launch off its tile. -/
def launchClosed (q : QIdx) (seq : W32) (c : Cmd) (t : TileId) (s : Machine.State) : Machine.State :=
  closeTile q seq (cF c 0x32 1 == 2) t s

/-- What a code that stops takes: the launch's ACQs, and the bytes of its destinations that exist. -/
def launchCleared (q : QIdx) (seq : W32) (dests : List Nat) (c : Cmd) (s : Machine.State) : Machine.State :=
  if (finalStatus c).stops then freeBytes (dests.filter (addrOk s)) (cancelAcqs q seq s) else s

/-- The energy of a launch that did not stop, with its tag (R389). -/
def launchBilled (energy : Nat) (c : Cmd) (s : Machine.State) : Machine.State :=
  if cF c 0x34 4 ≠ 0 ∧ (finalStatus c).stops = false then
    { s with ledger := { s.ledger with done := s.ledger.done ++ [(cF c 0x34 4, c.used + energy, c.baseEst)] } } else s

section
variable {q : QIdx} {seq : W32} {c : Cmd} {t : TileId} {s : Machine.State} (energy kcc : W32) (dests : List Nat)

theorem exec_launchComplete (hc : s.cmd q seq = some c) (hp : c.phase = .running) (ho : cmdOp c = 1) (ht : c.tiles = [t.toNat]) :
    exec (.launchComplete q seq energy kcc dests) s = .next (if tileDone s q seq t then
      completeCmd q c ((c.used + energy.toNat) / 16000) kcc.toNat
        (launchBilled energy.toNat c (launchCleared q seq dests c (launchClosed q seq c t s))) else s) := by
  rw [exec, execLaunchComplete, hc]
  simp only [hp, ho, ht, List.all_cons, List.all_nil, Bool.and_true, List.foldl_cons, List.foldl_nil, BitVec.ofNat_toNat,
    BitVec.setWidth_eq, opLaunch, true_and]
  rfl

theorem tileDone_running (h : (s.tile t).x.launch = some (q, seq)) (hx : xState s t ≠ 4) : tileDone s q seq t = false := by
  have : (xState s t == xcFaulted) = false := beq_eq_false_iff_ne.mpr hx
  simp [tileDone, tileOver, h, this]

theorem tileDone_stopped (h : (s.tile t).x.launch = none) : tileDone s q seq t = true ↔ NothingLeft s t := by
  rw [← tileSettled_iff]
  simp [tileDone, tileOver, h]

theorem exec_launchComplete_over (hc : s.cmd q seq = some c) (hp : c.phase = .running) (ho : cmdOp c = 1) (ht : c.tiles = [t.toNat])
    (hl : (s.tile t).x.launch = none) (hn : NothingLeft s t) : exec (.launchComplete q seq energy kcc dests) s =
      .next (completeCmd q c ((c.used + energy.toNat) / 16000) kcc.toNat
        (launchBilled energy.toNat c (launchCleared q seq dests c (launchClosed q seq c t s)))) := by
  rw [exec_launchComplete energy kcc dests hc hp ho ht, if_pos ((tileDone_stopped hl).mpr hn)]

end

theorem rdByte_launchClosed (q : QIdx) (seq : W32) (c : Cmd) (t : TileId) (s : Machine.State) (a : Nat) :
    rdByte (launchClosed q seq c t s) a = rdByte s a := by
  rw [rdByte, launchClosed, mem_closeTile]
  rfl

section
variable {q : QIdx} {seq : W32} {c : Cmd} {t : TileId} {s : Machine.State} (hl : (s.tile t).x.launch = none)
include hl

theorem launchClosed_eq : launchClosed q seq c t s = if cF c 0x32 1 = 2 then setQuad t false s else s := by
  rw [launchClosed, closeTile_over hl]
  simp

theorem onlyRegs_launchClosed : OnlyRegs [R.CE_STATUS t.toNat] s (launchClosed q seq c t s) := by
  rw [launchClosed_eq hl]
  split
  · exact onlyRegs_setQuad ..
  · exact .refl ..

theorem queue_launchClosed (p : QIdx) : (launchClosed q seq c t s).queue p = s.queue p :=
  congrArg (fun s => s.queue p) (onlyRegs_launchClosed hl).rest

theorem without1_launchClosed : without1 (launchClosed q seq c t s) q seq = without1 s q seq := by
  rw [without1, queue_launchClosed hl, without1]

theorem ledger_launchClosed : (launchClosed q seq c t s).ledger = s.ledger := congrArg (fun s => s.ledger) (onlyRegs_launchClosed hl).rest

theorem qState_launchClosed : qState (launchClosed q seq c t s) q = qState s q := by
  have hne : R.QSTAT q.toNat ∉ [R.CE_STATUS t.toNat] := by
    have := qstat_lt q
    rw [List.mem_singleton]
    unfold R.CE_STATUS
    omega
  exact rget_congr ((onlyRegs_launchClosed hl).regs _ hne) _

end

section
variable {q : QIdx} {seq : W32} {c : Cmd} {u : Machine.State} (dests : List Nat) (energy : Nat)

theorem finalStatus_ok (hs : c.status = none) (hm : c.stepMis = false) (hd : c.deferred = false) : finalStatus c = .ok := by
  simp [finalStatus, hs, hm, hd]

theorem finalStatus_some {x : Status} (hs : c.status = some x) : finalStatus c = x := by
  simp [finalStatus, hs]

theorem launchCleared_ok (h : finalStatus c = .ok) : launchCleared q seq dests c u = u := by
  rw [launchCleared, h]
  rfl

theorem launchBilled_untagged (h : cF c 0x34 4 = 0) : launchBilled energy c u = u := if_neg fun hb => hb.1 h

theorem launchBilled_tagged (h : cF c 0x34 4 ≠ 0) (hok : finalStatus c = .ok) : launchBilled energy c u =
    { u with ledger := { u.ledger with done := u.ledger.done ++ [(cF c 0x34 4, c.used + energy, c.baseEst)] } } :=
  if_pos ⟨h, by rw [hok]; rfl⟩

theorem launchBilled_stops (h : (finalStatus c).stops = true) : launchBilled energy c u = u := if_neg fun hb => by simp [h] at hb

theorem launchCleared_stops (h : (finalStatus c).stops = true) :
    launchCleared q seq dests c u = freeBytes (dests.filter (addrOk u)) (cancelAcqs q seq u) := if_pos h

variable (q seq u)

theorem queue_cleared (l : List Nat) (p : QIdx) : (freeBytes l (cancelAcqs q seq u)).queue p = u.queue p :=
  (congrArg (fun s => s.queue p) (memTouched_freeBytes l (cancelAcqs q seq u)).rest).trans
    (congrArg (fun s => s.queue p) (noRegs_cancelAcqs q seq u))

theorem rgns_cleared (l : List Nat) : (freeBytes l (cancelAcqs q seq u)).rgns = u.rgns.filter (fun r => !acqOf q seq r) :=
  (congrArg (fun s => s.rgns) (memTouched_freeBytes l (cancelAcqs q seq u)).rest).trans
    (congrArg (fun s => s.rgns) (noRegs_cancelAcqs q seq u))

theorem qState_cleared (l : List Nat) : qState (freeBytes l (cancelAcqs q seq u)) q = qState u q := by
  have hq := qstat_lt q
  rw [qState, (memTouched_freeBytes l _).rget _ (by omega) (by unfold R.MOR_ERR; omega), rget_congr (rraw_cancelAcqs (by omega) q seq u)]
  rfl

theorem rdByte_cleared {l : List Nat} {a : Nat} (h : a ∉ l) : rdByte (freeBytes l (cancelAcqs q seq u)) a = rdByte u a := by
  rw [rdByte_freeBytes h, rdByte, mem_cancelAcqs]
  rfl

end

theorem launchesEnd : Claims.LaunchesEnd := by
  intro q seq energy kcc dests c t s hc hp ho ht
  have hseq := seq_of_cmd hc
  refine ⟨fun hl hx => ?_, fun hl hn => ?_, fun hl hn hs hm hd hrec htag => ?_, fun hl hn hs hm hd hrec htag => ?_,
    fun x hl hn hs hx hq => ?_⟩
  · rw [exec_launchComplete energy kcc dests hc hp ho ht, tileDone_running hl hx, if_neg Bool.false_ne_true]
  · rw [exec_launchComplete energy kcc dests hc hp ho ht, if_neg (mt (tileDone_stopped hl).mp hn)]
  · have hok := finalStatus_ok hs hm hd
    refine ⟨_, exec_launchComplete_over energy kcc dests hc hp ho ht hl hn, ?_⟩
    rw [completeCmd_silent _ _ ho hrec hok, launchCleared_ok dests hok, launchBilled_untagged _ htag, hseq]
    refine ⟨by rw [cmds_dropCmd, without1_launchClosed hl], fun hk => ?_, fun hk => ?_⟩
    · rw [launchClosed_eq hl, if_neg hk]
      exact onlyQueue_modQueue _ (.refl ..)
    · rw [launchClosed_eq hl, if_pos hk, dropCmd, rget_modQueue, rget_modQueue, quad_setQuad, qwidth_setQuad]
      exact ⟨onlyQueue_modQueue _ (.of_onlyRegs (onlyRegs_setQuad ..)), rfl, rfl⟩
  · have hok := finalStatus_ok hs hm hd
    refine ⟨_, exec_launchComplete_over energy kcc dests hc hp ho ht hl hn, ?_⟩
    rw [completeCmd_silent _ _ ho hrec hok, launchCleared_ok dests hok, launchBilled_tagged _ htag hok, hseq]
    refine ⟨?_, ?_⟩
    · rw [cmds_dropCmd]
      exact without1_launchClosed hl
    · rw [← ledger_launchClosed (q := q) (seq := seq) (c := c) hl]
      rfl
  · have hfin := finalStatus_some hs
    have hst : (finalStatus c).stops = true := by rw [hfin]; exact hx
    obtain ⟨hseqs, hstate, herr, hrest⟩ := queueStopped_completeCmd (q := q)
      (s := freeBytes (dests.filter (addrOk (launchClosed q seq c t s))) (cancelAcqs q seq (launchClosed q seq c t s)))
      ((c.used + energy.toNat) / 16000) kcc.toNat hst (by rw [qState_cleared, qState_launchClosed hl, hq])
    refine ⟨_, exec_launchComplete_over energy kcc dests hc hp ho ht hl hn, ?_⟩
    rw [launchCleared_stops dests hst, launchBilled_stops _ hst]
    refine ⟨?_, hstate, ?_, fun r hr => ?_, fun a ha => ?_⟩
    · rw [hseqs, hseq, without1, queue_cleared, queue_launchClosed hl, without1]
    · rw [herr, hseq]
    · have hrgns := (congrArg Machine.State.rgns hrest).trans
        (rgns_cleared q seq (launchClosed q seq c t s) (dests.filter (addrOk (launchClosed q seq c t s))))
      have hmem : r ∈ (launchClosed q seq c t s).rgns.filter (fun r => !acqOf q seq r) := hrgns ▸ hr
      have hnot := (List.mem_filter.mp hmem).2
      rintro ⟨ha, ho⟩
      simp [acqOf, ha, ho] at hnot
    · have hmem : a ∉ dests.filter (addrOk (launchClosed q seq c t s)) := fun h => ha (List.mem_of_mem_filter h)
      rw [rdByte, mem_completeCmd]
      exact (rdByte_cleared q seq _ hmem).trans (rdByte_launchClosed q seq c t s a)

/-- Settles O33: a launch on one tile is `startTile`, read register by register; its end is the launch taken off its tile, what a
code that stops takes, its energy, and the completion, one after the other. -/
theorem launchesStartAndEnd : Obligations.LaunchesStartAndEnd := ⟨launchStarts, launchesEnd⟩

end Sys2Proof
end

section
/-! A tile reset: it starts by draining the tile, and ends with the tile at reset (R77, R422). -/

namespace Sys2Proof

open Sys2Proof.Machine

/-! ### A range of registers or of memory cleared -/

theorem rraw_rclear (lo hi o : Nat) (s : Machine.State) :
    rraw (rclear lo hi s) o = if lo ≤ o ∧ o < hi then (regReset o).toNat else rraw s o := by
  rw [rraw, rclear, mget_mclear, apply_ite BitVec.toNat, rraw]

theorem rbit_iff (s : Machine.State) (o : Nat) (f : Fld) : rbit s o f = true ↔ rget s o f ≠ 0 := by
  simp [rbit]

theorem rbit_eq_false (s : Machine.State) (o : Nat) (f : Fld) : rbit s o f = false ↔ rget s o f = 0 := by
  simp [rbit]

theorem rdByte_rset (o : Nat) (f : Fld) (v : Nat) (s : Machine.State) (a : Nat) : rdByte (rset o f v s) a = rdByte s a := rfl

/-! ### What a reset leaves -/

section
variable (t : TileId) (s : Machine.State)

theorem tile_resetTile : (resetTile t s).tile t = Tile.reset := by
  rw [resetTile, State.tile, mget_mdel, if_pos rfl]

theorem tile_resetTile_other {w : TileId} (h : w ≠ t) : (resetTile t s).tile w = s.tile w := by
  rw [resetTile, State.tile, mget_mdel, if_neg (tile_toNat_ne h)]
  rfl

theorem rdByte_resetTile (a : Nat) :
    rdByte (resetTile t s) a = if spadAddr t 0 ≤ a ∧ a < spadAddr t 0 + 1572864 then 0 else rdByte s a := by
  rw [resetTile, rdByte, mget_mclear]
  rfl

theorem rraw_resetTile (o : Nat) : rraw (resetTile t s) o = if o = R.MESH_ORPHAN t.toNat then rraw s o
    else if 0x8000000 + 0x10000 * t.toNat ≤ o ∧ o < 0x8010000 + 0x10000 * t.toNat then (regReset o).toNat else rraw s o := by
  have hend : 0x8000000 + 0x10000 * t.toNat + 0x10000 = 0x8010000 + 0x10000 * t.toNat := by omega
  change rraw (rput (R.MESH_ORPHAN t.toNat) (rraw s (R.MESH_ORPHAN t.toNat)) (rclear _ _ s)) o = _
  rw [rraw_rput, rraw_rclear, hend]
  split
  · next h => rw [h, Nat.mod_eq_of_lt (rraw_lt ..)]
  · rfl

end

theorem tileQuiet_iff (s : Machine.State) (t : TileId) :
    tileQuiet s t = true ↔ (s.tile t).xfers = [] ∧ ∀ e ∈ s.txns, issuerTile e.2.iss ≠ some t := by
  simp [tileQuiet]

/-! ### The two commands -/

section
variable {t : TileId} {s : Machine.State}

theorem tileReset_starts (hb : rget s R.PDC_TILE_RST F.PDC_TILE_RST_BUSY = 0) (he : s.enabled t = true)
    (hl : (s.tile t).x.launch = none) : tileReset t s =
      rset R.PDC_TILE_RST F.PDC_TILE_RST_BUSY 1 (rset R.PDC_TILE_RST F.PDC_TILE_RST_TILE t.toNat
        (rset (R.TILE_STATE t.toNat) F.TILE_STATE_STATE tsDraining s)) := by
  simp only [tileReset, (rbit_eq_false ..).mpr hb, he, drainTile, abortLaunchAt, hl]
  rfl

theorem tileReset_refused (h : rget s R.PDC_TILE_RST F.PDC_TILE_RST_BUSY = 1 ∨ s.enabled t = false) : tileReset t s = s := by
  rw [tileReset, if_pos]
  rcases h with h | h
  · rw [(rbit_iff ..).mpr (by rw [h]; decide), Bool.true_or]
  · rw [h, Bool.not_false, Bool.or_true]

theorem exec_tileReset (h : HostReaches s 0) : exec (.tileReset t) s = .next (tileReset t s) := by
  exact congrArg Host.Outcome.next (hostWrite_of_reaches _ h)

theorem exec_tileResetDone (hb : rget s R.PDC_TILE_RST F.PDC_TILE_RST_BUSY = 1)
    (ht : rget s R.PDC_TILE_RST F.PDC_TILE_RST_TILE = t.toNat) (hq : tileQuiet s t = true) :
    exec (.tileResetDone t) s = .next (rset R.PDC_TILE_RST F.PDC_TILE_RST_BUSY 0 (resetTile t s)) := by
  exact congrArg Host.Outcome.next (if_pos ⟨(rbit_iff ..).mpr (by rw [hb]; decide), ht, hq⟩)

end

/-- Settles O35: a reset starts with the tile DRAINING, and its end is `resetTile`, read part by part. -/
theorem tileResets : Obligations.TileResets := by
  unfold Obligations.TileResets
  refine fun t s => ⟨fun hr hb he hl => ?_, fun hr h => ?_, fun hb ht hx hq => ?_⟩
  · have hne : R.TILE_STATE t.toNat ≠ R.PDC_TILE_RST := by unfold R.TILE_STATE R.PDC_TILE_RST; omega
    refine ⟨_, exec_tileReset hr, ?_⟩
    rw [tileReset_starts hb he hl]
    refine ⟨?_, rget_rset_same _ _ _ _ (by decide), ?_, ?_⟩
    · rw [rget_rset_other _ _ _ _ hne, rget_rset_other _ _ _ _ hne, rget_rset_same _ _ _ _ (by decide)]
      rfl
    · rw [rget_rset_field _ _ _ _ _ (by decide) (by decide), rget_rset_same _ _ _ _ (by decide)]
      exact Nat.mod_eq_of_lt t.isLt
    · exact onlyRegs_rset _ _ (by simp) (onlyRegs_rset _ _ (by simp) (onlyRegs_rset _ _ (by simp) (.refl _ s)))
  · rw [exec_tileReset hr, tileReset_refused h]
  · have hraw : ∀ o, o ≠ R.PDC_TILE_RST →
        rraw (rset R.PDC_TILE_RST F.PDC_TILE_RST_BUSY 0 (resetTile t s)) o = rraw (resetTile t s) o :=
      fun o ho => rraw_rset_other _ _ _ ho
    have hbelow : R.PDC_TILE_RST < 0x8000000 := by decide
    have hin : R.MESH_ORPHAN t.toNat = 0x8000610 + 0x10000 * t.toNat := rfl
    refine ⟨_, exec_tileResetDone hb ht ((tileQuiet_iff ..).mpr ⟨hx, hq⟩), rget_rset_same _ _ _ _ (by decide),
      (tile_rset ..).trans (tile_resetTile t s), fun w hw => (tile_rset ..).trans (tile_resetTile_other t s hw),
      fun a => (rdByte_rset ..).trans (rdByte_resetTile t s a), fun o hlo hhi ho => ?_,
      fun o ho hp => ?_, ?_⟩
    · rw [hraw o (by omega), rraw_resetTile, if_neg ho, if_pos ⟨hlo, hhi⟩]
    · rw [hraw o hp, rraw_resetTile, if_neg (by omega), if_neg (by omega)]
    · rw [hraw _ (by omega), rraw_resetTile, if_pos rfl]

end Sys2Proof
end

section
/-! Windows, semaphores and swizzle ranges: what each of their operations leaves, and the host's writes to them. -/

namespace Sys2Proof

open Sys2Proof.Machine

/-! ### Lookups of optional parts -/

theorem mfind_mins_same {α : Type} (m : Map α) (k : Nat) (v : α) : mfind (mins m k v) k = some v := by
  induction m with
  | nil => simp [mfind, mins]
  | cons e m ih =>
    obtain ⟨k', v'⟩ := e
    unfold mfind at ih ⊢
    rw [mins]
    split
    · simp
    · split
      · simp
      · next _ hne => rw [List.find?_cons_of_neg (by simpa using Ne.symm hne), ih]

theorem mfind_mdel_same {α : Type} (m : Map α) (k : Nat) : mfind (mdel m k) k = none := by
  simp [mfind, mdel]

/-! ### Reopens -/

section
variable (t : TileId) (w : WinIdx) (s : Machine.State)

theorem winReopen_setReopen (v : Option Nat) : winReopen (setReopen t w v s) t w = v := by
  rw [winReopen, setReopen, tile_modTile_same]
  cases v with
  | none => exact mfind_mdel_same ..
  | some n => exact mfind_mins_same ..

theorem onlyTile_setReopen (v : Option Nat) (offs : List Nat) : OnlyTile t offs s (setReopen t w v s) :=
  onlyTile_modTile _ (.refl t offs s)

theorem winCount_setReopen (v : Option Nat) : winCount (setReopen t w v s) t w = winCount s t w := rfl

theorem winIsOpen_setReopen (v : Option Nat) : winIsOpen (setReopen t w v s) t w = winIsOpen s t w := rfl

/-! ### OPEN and CLOSE -/

theorem winCtl_ne_count : R.WIN_CTL t.toNat w.toNat ≠ R.WIN_COUNT t.toNat w.toNat := by
  unfold R.WIN_CTL R.WIN_COUNT; omega

variable {t w s}

theorem winRangeOk_iff (base len : Nat) : winRangeOk base len = true ↔ 1 ≤ len ∧ base + len ≤ 24576 := decide_eq_true_iff

theorem winOpen_open (h : winIsOpen s t w = true) : winOpen t w s = (true, setReopen t w (some 0) s) := if_pos h

theorem winOpen_closed (h : winIsOpen s t w = false) (hr : 1 ≤ winLen s t w ∧ winBase s t w + winLen s t w ≤ 24576) :
    winOpen t w s = (true, rset (R.WIN_COUNT t.toNat w.toNat) F.WIN_COUNT_COUNT 0 (rset (R.WIN_CTL t.toNat w.toNat) F.WIN_CTL_OPEN 1 s)) := by
  rw [winOpen, h, if_neg Bool.false_ne_true, if_pos ((winRangeOk_iff ..).mpr hr)]

theorem winOpen_refused (h : winIsOpen s t w = false) (hr : ¬ (1 ≤ winLen s t w ∧ winBase s t w + winLen s t w ≤ 24576)) :
    winOpen t w s = (false, s) := by
  rw [winOpen, h, if_neg Bool.false_ne_true, if_neg fun k => hr ((winRangeOk_iff ..).mp k)]

/-- A CLOSED window with a legal range opens with COUNT 0. -/
theorem winOpen_opens (h : winIsOpen s t w = false) (hr : 1 ≤ winLen s t w ∧ winBase s t w + winLen s t w ≤ 24576) :
    winIsOpen (winOpen t w s).2 t w = true ∧ winCount (winOpen t w s).2 t w = 0 ∧
      OnlyRegs [R.WIN_CTL t.toNat w.toNat, R.WIN_COUNT t.toNat w.toNat] s (winOpen t w s).2 := by
  rw [winOpen_closed h hr]
  refine ⟨?_, rget_rset_same _ _ _ _ (by decide), onlyRegs_rset _ _ (by simp) (onlyRegs_rset _ _ (by simp) (.refl _ s))⟩
  rw [winIsOpen, rbit_iff, rget_rset_other _ _ _ _ (winCtl_ne_count t w), rget_rset_same _ _ _ _ (by decide)]
  decide

/-- CLOSE leaves the window CLOSED, withdraws a waiting reopen of an open one and keeps COUNT. -/
theorem winClose_closes (t : TileId) (w : WinIdx) (s : Machine.State) : winIsOpen (winClose t w s) t w = false ∧
    winReopen (winClose t w s) t w = (if winIsOpen s t w then none else winReopen s t w) ∧
    winCount (winClose t w s) t w = winCount s t w ∧ OnlyTile t [R.WIN_CTL t.toNat w.toNat] s (winClose t w s) := by
  unfold winClose
  split
  · refine ⟨?_, winReopen_setReopen .., ?_, onlyTile_modTile _ (onlyTile_rset _ _ (by simp) (.refl t _ s))⟩
    · rw [winIsOpen_setReopen, winIsOpen, rbit_eq_false, rget_rset_same _ _ _ _ (by decide), Nat.zero_mod]
    · rw [winCount_setReopen, winCount, rget_rset_other _ _ _ _ (winCtl_ne_count t w).symm, winCount]
  · next h => exact ⟨Bool.eq_false_iff.mpr h, rfl, rfl, .refl t _ s⟩

/-- A reopen ends with the bytes tallied since its OPEN as COUNT. -/
theorem winReopenDone_waiting {k : Nat} (h : winReopen s t w = some k) :
    winCount (winReopenDone t w s) t w = min k (2 ^ 32 - 1) ∧ winReopen (winReopenDone t w s) t w = none ∧
      OnlyTile t [R.WIN_COUNT t.toNat w.toNat] s (winReopenDone t w s) := by
  simp only [winReopenDone, h]
  refine ⟨?_, winReopen_setReopen .., onlyTile_modTile _ (onlyTile_rset _ _ (by simp) (.refl t _ s))⟩
  rw [winCount_setReopen, winCount, rget_rset_same _ _ _ _ (by decide)]
  exact Nat.mod_eq_of_lt (by simp only [F.WIN_COUNT_COUNT]; omega)

theorem winReopenDone_idle (h : winReopen s t w = none) : winReopenDone t w s = s := by
  simp only [winReopenDone, h]

end

/-! ### Ranges of windows and semaphores' values -/

theorem winRangeWrite_open {t : TileId} {w : WinIdx} {s : Machine.State} (v : Nat) (h : winIsOpen s t w = true) :
    winRangeWrite t w v s = s := if_pos h

theorem winRangeWrite_closed {t : TileId} {w : WinIdx} {s : Machine.State} (v : Nat) (h : winIsOpen s t w = false) :
    winBase (winRangeWrite t w v s) t w = v % 2 ^ 15 ∧ winLen (winRangeWrite t w v s) t w = v / 2 ^ 16 % 2 ^ 15 ∧
      OnlyRegs [R.WIN_RANGE t.toNat w.toNat] s (winRangeWrite t w v s) := by
  rw [winRangeWrite, h, if_neg Bool.false_ne_true]
  refine ⟨?_, ?_, onlyRegs_rset _ _ (by simp) (onlyRegs_rset _ _ (by simp) (.refl _ s))⟩
  · rw [winBase, rget_rset_field _ _ _ _ _ (by decide) (by decide), rget_rset_same _ _ _ _ (by decide)]
    simp [bits, F.WIN_RANGE_BASE_LINE]
  · rw [winLen, rget_rset_same _ _ _ _ (by decide)]
    simp [bits, F.WIN_RANGE_LEN_LINES, Nat.shiftRight_eq_div_pow]

theorem semWrite_writes (t : TileId) (n : SemIdx) (v : Nat) (s : Machine.State) : semVal (semWrite t n v s) t n = v % 2 ^ 16 ∧
    rget (semWrite t n v s) (R.SEM t.toNat n.toNat) F.SEM_OVF = (if bit v 16 then 0 else rget s (R.SEM t.toNat n.toNat) F.SEM_OVF) ∧
    OnlyRegs [R.SEM t.toNat n.toNat] s (semWrite t n v s) := by
  obtain ⟨hval, hovf, hframe⟩ := semSet_value t n (v % 2 ^ 16) (if bit v 16 then rset (R.SEM t.toNat n.toNat) F.SEM_OVF 0 s else s)
  refine ⟨hval.trans (Nat.mod_mod ..), hovf.trans ?_, .trans ?_ hframe⟩
  · split
    · rw [rget_rset_same _ _ _ _ (by decide), Nat.zero_mod]
    · rfl
  · split
    · exact onlyRegs_rset _ _ (by simp) (.refl _ s)
    · exact .refl _ s

/-! ### Swizzle ranges -/

theorem unitPattern_congr {u v : Machine.State} (h : ∀ o, rraw v o = rraw u o) (t : TileId) (k : Nat) :
    unitPattern v t k = unitPattern u t k := by
  have hget : ∀ o f, rget v o f = rget u o f := fun o f => by rw [rget, rget, h]
  simp only [unitPattern, rbit, hget]

/-- The swizzle register with its fields set. -/
def swizzled (t : TileId) (n v : Nat) (s : Machine.State) : Machine.State :=
  rput (R.SPAD_SWZR t.toNat n) (v % 2 ^ 3 + (bits v 8 5) <<< 8 + (bits v 16 5) <<< 16) s

/-- From `u` to `v` bytes have become undefined, and none at the addresses that `keep` names. -/
structure BytesFreed (keep : Nat → Prop) (u v : Machine.State) : Prop where
  regs  : ∀ o, rraw v o = rraw u o
  rest  : noMem v = noMem u
  marks : ∀ c, eccAt v c = eccAt u c
  bytes : ∀ a, keep a → rdByte v a = rdByte u a

theorem BytesFreed.refl (keep : Nat → Prop) (u : Machine.State) : BytesFreed keep u u :=
  ⟨fun _ => rfl, rfl, fun _ => rfl, fun _ _ => rfl⟩

theorem BytesFreed.freeBytes {keep : Nat → Prop} {u v : Machine.State} {l : List Nat} (h : BytesFreed keep u v)
    (hl : ∀ a ∈ l, ¬ keep a) : BytesFreed keep u (freeBytes l v) :=
  ⟨h.regs, h.rest, h.marks, fun a ha => (rdByte_freeBytes (fun hm => hl a hm ha) v).trans (h.bytes a ha)⟩

/-- Only bytes of units whose pattern changes become undefined (R74). -/
theorem swizzleWrite_frees (t : TileId) (n v : Nat) (s : Machine.State) :
    BytesFreed (fun a => ∀ k, k < 24 → unitPattern (swizzled t n v s) t k ≠ unitPattern s t k →
      a < spadAddr t (k * 65536) ∨ spadAddr t (k * 65536) + 65536 ≤ a) (swizzled t n v s) (swizzleWrite t n v s) := by
  unfold swizzleWrite
  refine List.foldlRecOn (motive := BytesFreed _ (swizzled t n v s)) _ _ (.refl ..) fun u hu k hk => ?_
  split
  · exact hu
  · next hne =>
    refine hu.freeBytes fun a ha hkeep => ?_
    obtain ⟨i, hi, rfl⟩ := List.mem_map.mp ha
    have hi' := List.mem_range.mp hi
    have := hkeep k (List.mem_range.mp hk) (Ne.symm hne)
    omega

theorem rraw_swizzled (t : TileId) (n v : Nat) (s : Machine.State) : rraw (swizzled t n v s) (R.SPAD_SWZR t.toNat n) =
    v % 8 + v / 2 ^ 8 % 32 * 2 ^ 8 + v / 2 ^ 16 % 32 * 2 ^ 16 := by
  rw [swizzled, rraw_rput_same]
  simp only [bits, Nat.shiftRight_eq_div_pow, Nat.shiftLeft_eq]
  exact Nat.mod_eq_of_lt (by omega)

theorem eccAt_swizzled (t : TileId) (n v c : Nat) (s : Machine.State) : eccAt (swizzled t n v s) c = eccAt s c := by
  rw [eccAt, swizzled, ecc_of_rput, eccAt]

theorem rdByte_swizzled (t : TileId) (n v a : Nat) (s : Machine.State) : rdByte (swizzled t n v s) a = rdByte s a := by
  rw [rdByte, swizzled, mem_of_rput, rdByte]

/-! ### The host's writes -/

theorem hostTile_of_reaches {s : Machine.State} {t : TileId} (f : Machine.State → Machine.State) (h : HostTile s t) :
    hostTile t f s = f s := by
  obtain ⟨hr, he⟩ := h
  rw [hostTile, hostWrite_of_reaches _ hr, if_pos he]

/-- A write to a tile's register is dropped and counted while its die is not ON. -/
theorem hostTile_of_turned {s : Machine.State} {t : TileId} (f : Machine.State → Machine.State)
    (h : HostTurned s (16 + tileDie t)) : hostTile t f s = rinc R.PDC_HOST_DROP F.PDC_HOST_DROP_COUNT 1 s :=
  hostWrite_of_turned _ h

/-- A disabled tile takes no write. -/
theorem hostTile_of_disabled {s : Machine.State} {t : TileId} (f : Machine.State → Machine.State)
    (h : HostReaches s (16 + tileDie t)) (he : s.enabled t = false) : hostTile t f s = s := by
  rw [hostTile, hostWrite_of_reaches _ h, he, if_neg Bool.false_ne_true]

theorem rraw_hostDrop (s : Machine.State) : rraw (rinc R.PDC_HOST_DROP F.PDC_HOST_DROP_COUNT 1 s) R.PDC_HOST_DROP =
    putBits (rraw s R.PDC_HOST_DROP) F.PDC_HOST_DROP_COUNT.lo F.PDC_HOST_DROP_COUNT.w
      (min (2 ^ F.PDC_HOST_DROP_COUNT.w - 1) (rget s R.PDC_HOST_DROP F.PDC_HOST_DROP_COUNT + 1)) := by
  rw [rinc, rset, rraw_rput_same, satAdd, Nat.min_comm]
  refine Nat.mod_eq_of_lt (Nat.lt_pow_two_of_testBit _ fun i hi => ?_)
  rw [putBits_testBit, if_neg (by simp only [F.PDC_HOST_DROP_COUNT]; omega)]
  exact Nat.testBit_lt_two_pow (Nat.lt_of_lt_of_le (rraw_lt ..) (Nat.pow_le_pow_right (by decide) hi))

section
variable {t : TileId} {s : Machine.State} (n : SemIdx) (w : WinIdx) (r : BitVec 3) (v : BitVec 32)

/-- Each of the five commands is a write of the host to a register of the tile. -/
theorem exec_tileWrite : ∀ c ∈ [Instr.semWrite t n v, .windowOpen t w, .windowClose t w, .winRangeWrite t w v, .swizzleRangeWrite t r v],
    ∃ f, exec c s = .next (hostTile t f s) := by
  simp only [List.forall_mem_cons, List.not_mem_nil, false_imp_iff, implies_true, and_true]
  exact ⟨⟨_, rfl⟩, ⟨_, rfl⟩, ⟨_, rfl⟩, ⟨_, rfl⟩, ⟨_, rfl⟩⟩

variable (h : HostTile s t)
include h

theorem exec_semWrite : exec (.semWrite t n v) s = .next (semWrite t n v.toNat s) :=
  congrArg Host.Outcome.next (hostTile_of_reaches _ h)

theorem exec_windowOpen : exec (.windowOpen t w) s = .next (winOpen t w s).2 :=
  congrArg Host.Outcome.next (hostTile_of_reaches _ h)

theorem exec_windowClose : exec (.windowClose t w) s = .next (winClose t w s) :=
  congrArg Host.Outcome.next (hostTile_of_reaches _ h)

theorem exec_winRangeWrite : exec (.winRangeWrite t w v) s = .next (winRangeWrite t w v.toNat s) :=
  congrArg Host.Outcome.next (hostTile_of_reaches _ h)

theorem exec_swizzleRangeWrite : exec (.swizzleRangeWrite t r v) s = .next (swizzleWrite t r.toNat v.toNat s) :=
  congrArg Host.Outcome.next (hostTile_of_reaches _ h)

end

theorem tileHostWrites_claim : Claims.TileHostWrites := by
  intro t n w r v s h
  refine ⟨⟨_, exec_semWrite n v h, semWrite_writes t n v.toNat s⟩, ⟨_, exec_windowOpen w h, fun ho => ?_, winOpen_opens, fun ho hr => ?_⟩,
    ⟨_, exec_windowClose w h, ?_⟩, ⟨_, exec_winRangeWrite w v h, winRangeWrite_open _, winRangeWrite_closed _⟩,
    ⟨_, exec_swizzleRangeWrite r v h, ?_⟩⟩
  · simp only [winOpen_open ho]
    exact ⟨winReopen_setReopen .., onlyTile_setReopen t w s _ _⟩
  · rw [winOpen_refused ho hr]
  · obtain ⟨hclosed, hreopen, hcount, hframe⟩ := winClose_closes t w s
    exact ⟨hclosed, hcount, fun ho => hreopen.trans (if_pos ho), hframe⟩
  · obtain ⟨hregs, hrest, hmarks, hbytes⟩ := swizzleWrite_frees t r.toNat v.toNat s
    refine ⟨(hregs _).trans (rraw_swizzled ..), fun o ho => (hregs o).trans (rraw_rput_other _ _ ho), hrest.trans (noMem_rput ..),
      fun c => (hmarks c).trans (eccAt_swizzled ..), fun a ha => ?_⟩
    refine (hbytes a ?_).trans (rdByte_swizzled ..)
    refine fun k hk hne => ha k hk ?_
    rwa [unitPattern_congr hregs]

theorem hostWritesTurnedAway_claim : Claims.HostWritesTurnedAway := by
  intro t n w r v s c hc
  obtain ⟨f, hf⟩ := exec_tileWrite (s := s) n w r v c hc
  refine ⟨fun hcold hhio hoff => ⟨_, hf, ?_⟩, fun hcold hhio hon he => ?_⟩
  · rw [hostTile_of_turned f ⟨hcold, hhio, hoff⟩]
    exact ⟨rraw_hostDrop s, onlyRegs_hostDrop s⟩
  · rw [hf, hostTile_of_disabled f ⟨hcold, hhio, hon⟩ he]

/-- Settles O19: each write reaches an enabled tile of a die that is ON, and is turned away elsewhere. -/
theorem tileHostWrites : Obligations.TileHostWrites := by
  unfold Obligations.TileHostWrites
  exact ⟨tileHostWrites_claim, hostWritesTurnedAway_claim⟩

end Sys2Proof
end

section
/-! The end of a window's reopen, and XLAT_INVAL with its end (R90, R99, R100). -/

namespace Sys2Proof

open Sys2Proof.Machine

/-- The tiles of die `d` with the numbers `l` in it, their TLBs emptied. -/
def emptyTlbs (d : Nat) (l : List Nat) (s : Machine.State) : Machine.State :=
  l.foldl (fun s i => s.modTile (BitVec.ofNat 11 (d * 64 + i)) (fun c => { c with tlb := [] })) s

theorem invalDie_eq (d : Nat) (s : Machine.State) : invalDie d s =
    rset (R.XLAT_STATUS d) F.XLAT_STATUS_BUSY 1 (emptyTlbs d (List.range 64) { s with dieCache := mdel s.dieCache d }) := rfl

theorem emptyTlbs_frame (d : Nat) (l : List Nat) (s : Machine.State) :
    { emptyTlbs d l s with tiles := s.tiles } = s := by
  refine List.foldlRecOn (motive := fun v : Machine.State => { v with tiles := s.tiles } = s) _ _ rfl fun v hv i _ => hv

/-- A tile's TLB is emptied when the tile is one of those named; nothing else of it changes. -/
theorem tile_emptyTlbs (d : Nat) (l : List Nat) (s : Machine.State) (t : TileId) :
    (emptyTlbs d l s).tile t = if ∃ i ∈ l, BitVec.ofNat 11 (d * 64 + i) = t then { s.tile t with tlb := [] } else s.tile t := by
  induction l generalizing s with
  | nil => simp [emptyTlbs]
  | cons i l ih =>
    change (emptyTlbs d l (s.modTile _ _)).tile t = _
    rw [ih]
    by_cases hi : BitVec.ofNat 11 (d * 64 + i) = t
    · subst hi
      rw [tile_modTile_same]
      simp
    · rw [tile_modTile_other _ _ (Ne.symm hi)]
      simp [hi]

/-- The tiles of a die are the 64 that its number begins (R18). -/
theorem tileDie_eq_iff (t : TileId) (d : DieId) : tileDie t = d.toNat ↔ ∃ i ∈ List.range 64, BitVec.ofNat 11 (d.toNat * 64 + i) = t := by
  have hd := d.isLt
  have ht := t.isLt
  constructor
  · intro h
    unfold tileDie at h
    refine ⟨t.toNat % 64, List.mem_range.mpr (Nat.mod_lt _ (by decide)), BitVec.eq_of_toNat_eq ?_⟩
    rw [BitVec.toNat_ofNat]
    omega
  · rintro ⟨i, hi, rfl⟩
    have := List.mem_range.mp hi
    rw [tileDie, BitVec.toNat_ofNat]
    omega

theorem rraw_emptyTlbs (d : Nat) (l : List Nat) (s : Machine.State) (o : Nat) : rraw (emptyTlbs d l s) o = rraw s o := by
  have h : (emptyTlbs d l s).regs = s.regs := (congrArg (fun v : Machine.State => v.regs) (emptyTlbs_frame d l s) :)
  rw [rraw, h, rraw]

theorem dieCache_emptyTlbs (d : Nat) (l : List Nat) (s : Machine.State) : (emptyTlbs d l s).dieCache = s.dieCache :=
  (congrArg (fun v : Machine.State => v.dieCache) (emptyTlbs_frame d l s) :)

theorem noXlat_emptyTlbs (d : Nat) (l : List Nat) (s : Machine.State) : noXlat (emptyTlbs d l s) = noXlat s :=
  (congrArg noXlat (emptyTlbs_frame d l s) :)

theorem dieEntries_invalDie (d e : Nat) (s : Machine.State) : dieEntries (invalDie d s) e = if e = d then [] else dieEntries s e := by
  rw [invalDie_eq, dieEntries, dieCache_of_rset, dieCache_emptyTlbs, mget_mdel, dieEntries]

theorem tile_invalDie (d : DieId) (s : Machine.State) (t : TileId) :
    (invalDie d.toNat s).tile t = if tileDie t = d.toNat then { s.tile t with tlb := [] } else s.tile t := by
  rw [invalDie_eq, tile_rset, tile_emptyTlbs]
  exact if_congr (tileDie_eq_iff t d).symm rfl rfl

theorem windowReopens_claim : Claims.WindowReopens :=
  fun _ _ _ => ⟨fun _ hk => ⟨_, rfl, winReopenDone_waiting hk⟩, fun h => congrArg Host.Outcome.next (winReopenDone_idle h)⟩

theorem translationInvalidation_claim : Claims.TranslationInvalidation := by
  refine fun d s => ⟨fun hr => ⟨_, congrArg Host.Outcome.next (hostWrite_of_reaches _ hr), ?_, ?_, tile_invalDie d s, fun o ho => ?_, ?_,
    fun e he => ?_⟩, _, rfl, ?_, onlyRegs_rset _ _ (by simp) (.refl _ s)⟩
  · rw [rbit_iff, invalDie_eq, rget_rset_same _ _ _ _ (by decide)]
    decide
  · rw [dieEntries_invalDie, if_pos rfl]
  · rw [invalDie_eq, rraw_rset_other _ _ _ ho, rraw_emptyTlbs]
    rfl
  · rw [invalDie_eq, noXlat_rset, noXlat_emptyTlbs]
    rfl
  · rw [dieEntries_invalDie, if_neg he]
  · rw [rbit_eq_false, rget_rset_same _ _ _ _ (by decide), Nat.zero_mod]

/-- Settles O20: a reopen ends as `winReopenDone` gives it, and an invalidation is `invalDie`, read part by part. -/
theorem reopensAndInvalidations : Obligations.ReopensAndInvalidations := by
  unfold Obligations.ReopensAndInvalidations
  exact ⟨windowReopens_claim, translationInvalidation_claim⟩

end Sys2Proof
end

section
/-! Instructions on windows, and instructions that wait for an engine or a slot (Table 4-11). -/

namespace Sys2Proof

open Sys2Proof.Machine

/-! ### What a change of registers leaves of a core -/

section
variable {offs : List Nat} {u w : Machine.State}

theorem OnlyRegs.tile (h : OnlyRegs offs u w) (t : TileId) : w.tile t = u.tile t := by
  have ht : w.tiles = u.tiles := (congrArg (fun v : Machine.State => v.tiles) h.rest :)
  rw [State.tile, ht, State.tile]

theorem OnlyRegs.rget (h : OnlyRegs offs u w) {o : Nat} (ho : o ∉ offs) (f : Fld) : rget w o f = rget u o f :=
  rget_congr (h.regs o ho) f

theorem OnlyTile.rget {t : TileId} (h : OnlyTile t offs u w) {o : Nat} (ho : o ∉ offs) (f : Fld) : rget w o f = rget u o f :=
  rget_congr (h.regs o ho) f

/-- After a change of registers that leaves the PC, an instruction retires from where it stood. -/
theorem retired_onlyRegs {t : TileId} (len : Nat) (h : OnlyRegs offs u w) (hpc : R.XC_PC t.toNat ∉ offs) :
    XRetired t (xPc u t + len) (u.tile t).x w (xFinish t len (.retire w)) := by
  have hpc' : xPc w t = xPc u t := h.rget hpc _
  rw [xFinish, hpc', ← h.tile t]
  exact xRetire_retired ..

theorem retired_onlyTile {t : TileId} (len : Nat) (h : OnlyTile t offs u w) (hpc : R.XC_PC t.toNat ∉ offs) :
    XRetired t (xPc u t + len) (w.tile t).x w (xFinish t len (.retire w)) := by
  have hpc' : xPc w t = xPc u t := h.rget hpc _
  rw [xFinish, hpc']
  exact xRetire_retired ..

end

/-- An instruction that retires where its condition holds, and blocks where it does not (Table 4-11). -/
theorem retires_or_blocks {c : Prop} [Decidable c] (t : TileId) (obj : Nat) (w : XWait) (u : Machine.State) :
    (c → XRetired t (xPc u t + 4) (u.tile t).x u (xFinish t 4 (if c then .retire u else .wait obj w u))) ∧
    (¬ c → XBlocked t obj w u (xFinish t 4 (if c then .retire u else .wait obj w u))) := by
  refine ⟨fun h => ?_, fun h => ?_⟩
  · rw [if_pos h]
    exact xRetire_retired ..
  · rw [if_neg h]
    exact xBlock_blocked ..

theorem swaitOk_iff (s : Machine.State) (t : TileId) (sl : SlotIdx) (thr : Nat) : swaitOk s t sl thr = true ↔
    slotState s t sl = 0 ∨ slotState s t sl = 7 ∨
      (thr ≠ 0 ∧ thr ≤ rget s (R.SLOT_LANDED t.toNat sl.toNat) F.SLOT_LANDED_BUFS) := by
  simp [swaitOk, slIdle, slAborted, or_assoc]

theorem slotWord_eq (s : Machine.State) (t : TileId) (sl : SlotIdx) : slotWord s t sl =
    rraw s (R.SLOT_STATE t.toNat sl.toNat) % 2 ^ 13 + rget s (R.SLOT_LANDED t.toNat sl.toNat) F.SLOT_LANDED_BUFS * 2 ^ 32 := by
  unfold slotWord
  simp only [Nat.shiftLeft_eq]

/-! ### Windows -/

section
variable {t : TileId} {s : Machine.State} (h : Issues s t 4)
include h

theorem wopen_result (rs : SReg) (w : WinIdx) : ∃ v, exec (.xWopen t rs w) s = .next v ∧
    (winIsOpen (fetched s t 4) t w = true →
      XBlocked t w.toNat (.reopen w) (setReopen t w (some 0) (fetched s t 4)) v) ∧
    (winIsOpen (fetched s t 4) t w = false → rs = 0 →
      1 ≤ winLen (fetched s t 4) t w ∧ winBase (fetched s t 4) t w + winLen (fetched s t 4) t w ≤ 24576 →
      ∃ x, winIsOpen x t w = true ∧ winCount x t w = 0 ∧
        OnlyRegs [R.WIN_CTL t.toNat w.toNat, R.WIN_COUNT t.toNat w.toNat] (fetched s t 4) x ∧
        XRetired t (xPc (fetched s t 4) t + 4) ((fetched s t 4).tile t).x x v) ∧
    (winIsOpen (fetched s t 4) t w = false → rs = 0 →
      ¬ (1 ≤ winLen (fetched s t 4) t w ∧ winBase (fetched s t 4) t w + winLen (fetched s t 4) t w ≤ 24576) →
      v = preciseFault t .protection 0 (fetched s t 4)) := by
  refine ⟨_, xRun_runs _ h, fun ho => ?_, fun ho hrs hr => ?_, fun ho hrs hr => ?_⟩
  · simp only [ho, if_true, winOpen_open ho]
    exact xBlock_blocked ..
  · subst hrs
    simp only [ho, Bool.false_eq_true, if_false, if_true, (winRangeOk_iff ..).mpr hr]
    obtain ⟨hopen, hcount, hframe⟩ := winOpen_opens ho hr
    exact ⟨_, hopen, hcount, hframe, retired_onlyRegs 4 hframe (by simp [R.XC_PC, R.WIN_CTL, R.WIN_COUNT]; omega)⟩
  · subst hrs
    have hbad := Bool.eq_false_iff.mpr fun k => hr ((winRangeOk_iff ..).mp k)
    simp only [ho, Bool.false_eq_true, if_false, if_true, hbad]
    rfl

theorem wclose_result (w : WinIdx) : ∃ v x, exec (.xWclose t w) s = .next v ∧ winIsOpen x t w = false ∧
    winReopen x t w = (if winIsOpen (fetched s t 4) t w then none else winReopen (fetched s t 4) t w) ∧
    winCount x t w = winCount (fetched s t 4) t w ∧ OnlyTile t [R.WIN_CTL t.toNat w.toNat] (fetched s t 4) x ∧
    XRetired t (xPc (fetched s t 4) t + 4) (x.tile t).x x v := by
  obtain ⟨hclosed, hreopen, hcount, hframe⟩ := winClose_closes t w (fetched s t 4)
  exact ⟨_, _, xRun_runs _ h, hclosed, hreopen, hcount, hframe,
    retired_onlyTile 4 hframe (by simp [R.XC_PC, R.WIN_CTL]; omega)⟩

end

/-- Settles O17, instruction by instruction. -/
theorem windowsAndWaits : Obligations.WindowsAndWaits := by
  unfold Obligations.WindowsAndWaits
  rintro t rs imm w sl n cls s u h rfl
  refine ⟨wopen_result h rs w, wclose_result h w, ⟨_, xRun_runs _ h, ?_⟩, ⟨_, xRun_runs _ h, sResult_retire ..⟩,
    ⟨_, xRun_runs _ h, ?_⟩, ⟨_, xRun_runs _ h, ?_⟩, ⟨_, xRun_runs _ h, sResult_retire ..⟩, ⟨_, xRun_runs _ h, ?_⟩,
    ⟨_, xRun_runs _ h, ?_⟩, _, xRun_runs _ h, ?_⟩
  · rw [← not_le]
    exact retires_or_blocks ..
  · rw [← not_le]
    exact retires_or_blocks ..
  · rw [← not_le]
    exact retires_or_blocks ..
  · exact retired_modX t _ (fun x => { x with hint := some cls }) _
  · rw [← slotWord_eq]
    exact sResult_retire ..
  · simp only [← swaitOk_iff]
    exact retires_or_blocks ..

end Sys2Proof
end

section
/-! Translation: what it leaves unchanged, and the walk of the two-level table (R96 to R98). -/

namespace Sys2Proof

open Sys2Proof.Machine

/-! ### What a translation may change -/

/-- From `u` to `v` only what a translation of tile `t` may change differs: the tile's TLB and its count of misses, the dies' caches,
the count of free values, and the marks of codewords of HBM found uncorrectable. -/
structure XlatTouched (t : TileId) (u v : Machine.State) : Prop where
  rest  : { v with regs := u.regs, tiles := u.tiles, dieCache := u.dieCache, ecc := u.ecc, freeCtr := u.freeCtr } = u
  regs  : ∀ o, o ≠ R.XLAT_MISS t.toNat → rraw v o = rraw u o
  tiles : ∀ w, w ≠ t → v.tile w = u.tile w
  tile  : v.tile t = { u.tile t with tlb := (v.tile t).tlb }
  marks : ∀ c, eccAt v c ≠ eccAt u c → eccAt u c = .uncorrectable ∧ eccAt v c = .poisoned ∧ c * 32 < hbmTop

section
variable {t : TileId} {u v w : Machine.State}

theorem XlatTouched.refl (t : TileId) (u : Machine.State) : XlatTouched t u u :=
  ⟨rfl, fun _ _ => rfl, fun _ _ => rfl, rfl, fun _ h => absurd rfl h⟩

theorem XlatTouched.trans (a : XlatTouched t u v) (b : XlatTouched t v w) : XlatTouched t u w := by
  refine ⟨?_, fun o h => (b.regs o h).trans (a.regs o h), fun x h => (b.tiles x h).trans (a.tiles x h), ?_, fun c hc => ?_⟩
  · calc ({ w with regs := u.regs, tiles := u.tiles, dieCache := u.dieCache, ecc := u.ecc, freeCtr := u.freeCtr } : Machine.State)
        = { ({ w with regs := v.regs, tiles := v.tiles, dieCache := v.dieCache, ecc := v.ecc, freeCtr := v.freeCtr } : Machine.State) with
            regs := u.regs, tiles := u.tiles, dieCache := u.dieCache, ecc := u.ecc, freeCtr := u.freeCtr } := rfl
      _ = u := by rw [b.rest, a.rest]
  · rw [b.tile, a.tile]
  · by_cases hv : eccAt v c = eccAt u c
    · rw [← hv] at hc ⊢
      exact b.marks c hc
    · obtain ⟨hu, hp, htop⟩ := a.marks c hv
      refine ⟨hu, by_contra fun hw => ?_, htop⟩
      have := (b.marks c (hp ▸ hw)).1
      rw [hp] at this
      cases this

theorem XlatTouched.mem (h : XlatTouched t u v) : v.mem = u.mem := (congrArg (fun s : Machine.State => s.mem) h.rest :)

theorem XlatTouched.repair (h : XlatTouched t u v) : v.repair = u.repair := (congrArg (fun s : Machine.State => s.repair) h.rest :)

theorem XlatTouched.rget (h : XlatTouched t u v) {o : Nat} (ho : o ≠ R.XLAT_MISS t.toNat) (f : Fld) : rget v o f = rget u o f :=
  rget_congr (h.regs o ho) f

theorem xlatTouched_freeCtr (t : TileId) (n : Nat) (u : Machine.State) : XlatTouched t u { u with freeCtr := n } :=
  ⟨rfl, fun _ _ => rfl, fun _ _ => rfl, rfl, fun _ h => absurd rfl h⟩

theorem xlatTouched_dieCache (t : TileId) (m : Map (List TlbEntry)) (u : Machine.State) : XlatTouched t u { u with dieCache := m } :=
  ⟨rfl, fun _ _ => rfl, fun _ _ => rfl, rfl, fun _ h => absurd rfl h⟩

theorem xlatTouched_tlb (t : TileId) (f : List TlbEntry → List TlbEntry) (u : Machine.State) :
    XlatTouched t u (u.modTile t (fun c => { c with tlb := f c.tlb })) :=
  ⟨rfl, fun _ _ => rfl, fun _ h => tile_modTile_other _ _ h, by rw [tile_modTile_same], fun _ h => absurd rfl h⟩

/-- The count of a miss. -/
def missed (t : TileId) (s : Machine.State) : Machine.State := rinc (R.XLAT_MISS t.toNat) F.XLAT_MISS_COUNT 1 s

theorem xlatTouched_missed (t : TileId) (u : Machine.State) : XlatTouched t u (missed t u) :=
  ⟨rfl, fun _ h => rraw_rset_other _ _ _ h, fun _ _ => rfl, rfl, fun _ h => absurd rfl h⟩

end

/-! ### Table entries in HBM -/

theorem xlatTouched_meetCodeword (t : TileId) {c : Nat} (s : Machine.State) (h : c * 32 < hbmTop) :
    XlatTouched t s (meetCodeword c s).2 := by
  unfold meetCodeword
  split
  · exact .refl t s
  · exact .refl t s
  · next hu =>
    rw [countUncorr_hbm s h]
    refine ⟨rfl, fun _ _ => rfl, fun _ _ => rfl, rfl, fun d hd => ?_⟩
    rw [eccAt_setEcc] at hd ⊢
    split at hd
    · next e => exact ⟨e ▸ hu, if_pos e, e ▸ h⟩
    · exact absurd rfl hd
  · exact .refl t s

theorem xlatTouched_meetCodewords (t : TileId) {cs : List Nat} (s : Machine.State) (h : ∀ c ∈ cs, c * 32 < hbmTop) :
    XlatTouched t s (meetCodewords cs s).2 := by
  induction cs generalizing s with
  | nil => exact .refl t s
  | cons c cs ih =>
    exact (xlatTouched_meetCodeword t s (h c (by simp))).trans (ih _ fun d hd => h d (by simp [hd]))

theorem xlatTouched_raceCells (t : TileId) (l : List (Nat × Byte)) (s : Machine.State) : XlatTouched t s (raceCells l s).2 := by
  unfold raceCells
  dsimp only
  split
  · exact .refl t s
  · exact xlatTouched_freeCtr ..

/-- A read of HBM marks the uncorrectable codewords it meets, and may draw free values. -/
theorem xlatTouched_memRead (t : TileId) {l : List Nat} (s : Machine.State) (h : ∀ a ∈ l, a < hbmTop) :
    XlatTouched t s (memRead l s).2.2 := by
  have hc := codeword_hbm h
  have hmeet := xlatTouched_meetCodewords t s hc
  unfold memRead
  simp only [lostLines_hbm s h, countCorrs_hbm s hc, countPoison_hbm s hc, List.isEmpty_nil, Bool.not_true, Bool.false_eq_true, if_false]
  split
  · exact hmeet.trans (xlatTouched_raceCells ..)
  · exact hmeet

section
variable {table size idx : Nat}

theorem entry_hbm (h : size + table ≤ hbmTop) (hi : 8 * idx + 8 ≤ size) :
    ∀ a ∈ (List.range 8).map (table + 8 * idx + ·), a < hbmTop := by
  intro a ha
  obtain ⟨k, hk, rfl⟩ := List.mem_map.mp ha
  have := List.mem_range.mp hk
  omega

theorem xlatTouched_readEntry (t : TileId) (s : Machine.State) (hi : 8 * idx + 8 ≤ size) :
    XlatTouched t s (readEntry table size idx s).2 := by
  unfold readEntry
  split
  · next h =>
    have hread := xlatTouched_memRead t s (entry_hbm h hi)
    dsimp only
    split <;> exact hread
  · exact .refl t s

/-- A sound entry of a table in HBM is read as it stands. -/
theorem readEntry_sound {s : Machine.State} (h : table + size ≤ hbmTop) (hi : 8 * idx + 8 ≤ size) (hs : Sound s (table + 8 * idx) 8) :
    readEntry table size idx s = (.ok (memNat s (table + 8 * idx) 8), s) := by
  have hbytes : ∀ a ∈ (List.range 8).map (table + 8 * idx + ·), addrOk s a = true ∧ Clean s a := by
    intro a ha
    obtain ⟨k, hk, rfl⟩ := List.mem_map.mp ha
    exact hs k (List.mem_range.mp hk)
  rw [Nat.add_comm] at h
  unfold readEntry
  rw [if_pos h, ← localRead_hbm (entry_hbm h hi), localRead_good hbytes, List.map_map]
  rfl

theorem level1_lt {va : Nat} (h : va < 2 ^ 48) : 8 * (va / 2 ^ 30) + 8 ≤ 2 ^ 21 := by omega

theorem level2_lt (va : Nat) : 8 * (va / 2 ^ 21 % 512) + 8 ≤ 4096 := by omega

end

/-! ### The frame -/

/-- A leaf held in the tile's TLB and in the die's cache. -/
def leafHeld (t : TileId) (va : Nat) (big : Bool) (e : Nat) (s : Machine.State) : Machine.State :=
  let h : TlbEntry := ⟨if big then va / 2 ^ 30 else va / 2 ^ 21, big, e⟩
  let s := s.modTile t (fun c => { c with tlb := tlbFill 64 va c.tlb h })
  { s with dieCache := mset (fun _ => []) s.dieCache (tileDie t) (tlbFill 4096 va (dieEntries s (tileDie t)) h) }

theorem xlatTouched_leafHeld (t : TileId) (va : Nat) (big : Bool) (e : Nat) (s : Machine.State) :
    XlatTouched t s (leafHeld t va big e s) :=
  (xlatTouched_tlb t (fun l => tlbFill 64 va l ⟨if big then va / 2 ^ 30 else va / 2 ^ 21, big, e⟩) s).trans
    (xlatTouched_dieCache ..)

theorem xlatTouched_walk (t : TileId) (d : Nat) {va : Nat} (s : Machine.State) (h : va < 2 ^ 48) : XlatTouched t s (walk d va s).2 := by
  have h1 := xlatTouched_readEntry (table := xlatBase s d) t s (level1_lt h)
  unfold walk
  split
  · next _ _ heq => rwa [heq] at h1
  · next e1 s1 heq =>
    rw [heq] at h1
    split
    · exact h1
    · split
      · exact h1
      · have h2 := xlatTouched_readEntry (table := bits e1 21 32 <<< 12) t s1 (level2_lt va)
        split
        · next _ _ heq2 =>
          rw [heq2] at h2
          exact h1.trans h2
        · next _ _ heq2 =>
          rw [heq2] at h2
          split <;> exact h1.trans h2

theorem xlatTouched_heldEntry (t : TileId) (d va : Nat) (l : List TlbEntry) (s : Machine.State) :
    XlatTouched t s (heldEntry d va l s).2 := by
  unfold heldEntry
  split
  · split
    · exact .refl t s
    · exact xlatTouched_freeCtr ..
  · exact .refl t s

theorem xlatTouched_findLeaf (t : TileId) {va : Nat} (s : Machine.State) (h : va < 2 ^ 48) : XlatTouched t s (findLeaf t va s).2 := by
  have hheld := xlatTouched_heldEntry t (tileDie t) va (s.tile t).tlb s
  unfold findLeaf
  split
  · next _ _ heq => rwa [heq] at hheld
  · next s1 heq =>
    rw [heq] at hheld
    have hmiss := hheld.trans (xlatTouched_missed t s1)
    have hcache := xlatTouched_heldEntry t (tileDie t) va (dieEntries (missed t s1) (tileDie t)) (missed t s1)
    unfold missed at hmiss hcache
    dsimp only
    split
    · next e s2 heq2 =>
      rw [heq2] at hcache
      exact (hmiss.trans hcache).trans (xlatTouched_tlb t (fun l => tlbFill 64 va l e) s2)
    · next s2 heq2 =>
      rw [heq2] at hcache
      have hwalk := xlatTouched_walk t (tileDie t) s2 h
      split
      · next _ _ heq3 =>
        rw [heq3] at hwalk
        exact (hmiss.trans hcache).trans hwalk
      · next big e s3 heq3 =>
        rw [heq3] at hwalk
        exact ((hmiss.trans hcache).trans hwalk).trans (xlatTouched_leafHeld t va big e s3)

theorem xlatTouched_translate (t : TileId) (va : Nat) (rd wr : Bool) (s : Machine.State) :
    XlatTouched t s (Machine.translate t va rd wr s).2 := by
  unfold Machine.translate
  split
  · next h =>
    have hleaf := xlatTouched_findLeaf t s h
    split <;> next heq => rwa [heq] at hleaf
  · exact .refl t s

theorem translationFrame_claim : Claims.TranslationFrame := by
  intro t va rd wr s v x htr
  have h := xlatTouched_translate t va rd wr s
  rw [htr] at h
  exact ⟨h.rest, fun a => by rw [rdByte, h.mem, rdByte], h.regs, h.tiles, h.tile, h.marks⟩

/-! ### The checks on a leaf -/

theorem XlatTouched.addrOk {t : TileId} {u v : Machine.State} (h : XlatTouched t u v) (a : Nat) : addrOk v a = addrOk u a := by
  have hctl : ∀ f, Machine.rget v R.MOR_CTL f = Machine.rget u R.MOR_CTL f :=
    fun f => h.rget (by unfold R.MOR_CTL R.XLAT_MISS; omega) f
  have hport : ∀ n, n < 2 → ∀ f, Machine.rget v (R.MOR_PORT n) f = Machine.rget u (R.MOR_PORT n) f :=
    fun n hn f => h.rget (by unfold R.MOR_PORT R.XLAT_MISS; omega) f
  have hcap : ∀ n, n < 2 → morCap v n = morCap u n := fun n hn => by
    unfold morCap rbit
    rw [hport n hn, hport n hn]
  have hmor : ∀ o, morOk v o = morOk u o := fun o => by
    unfold morOk rbit
    rw [hctl, hctl, hcap 0 (by decide), hcap 1 (by decide)]
  have hen : ∀ w, v.enabled w = u.enabled w := fun w => by rw [State.enabled, h.repair, State.enabled]
  unfold Machine.addrOk
  split <;> simp only [hen, hmor]

/-- The checks on a leaf see nothing that a translation changes. -/
theorem XlatTouched.leafCheck {t : TileId} {u v : Machine.State} (h : XlatTouched t u v) (va : Nat) (big : Bool) (e : Nat) (rd wr : Bool) :
    leafCheck v va big e rd wr = leafCheck u va big e rd wr := by
  have hdev : v.devId = u.devId := h.rget (by unfold R.MOS_DEVID R.XLAT_MISS; omega) _
  simp only [Machine.leafCheck, hdev, h.addrOk]

/-! ### The walk -/

section
variable {t : TileId} {va e1 e2 : Nat} {s : Machine.State}

theorem walk_absent {d : Nat} (h1 : readEntry (xlatBase s d) (2 ^ 21) (va / 2 ^ 30) s = (.ok e1, s)) (hv : bit e1 0 = false) :
    walk d va s = (.error .translation, s) := by
  unfold walk
  rw [h1]
  simp only [hv, Bool.not_false, if_true]

theorem walk_big {d : Nat} (h1 : readEntry (xlatBase s d) (2 ^ 21) (va / 2 ^ 30) s = (.ok e1, s)) (hv : bit e1 0 = true)
    (hl : bit e1 1 = true) : walk d va s = (.ok (true, e1), s) := by
  unfold walk
  rw [h1]
  simp only [hv, hl, Bool.not_true, Bool.false_eq_true, if_false, if_true]

/-- An entry that is no leaf sends the walk to the second level. -/
theorem walk_second {d : Nat} (h1 : readEntry (xlatBase s d) (2 ^ 21) (va / 2 ^ 30) s = (.ok e1, s)) (hv : bit e1 0 = true)
    (hl : bit e1 1 = false) (h2 : readEntry (bits e1 21 32 * 4096) 4096 (va / 2 ^ 21 % 512) s = (.ok e2, s)) :
    walk d va s = if !bit e2 0 || !bit e2 1 then (.error .translation, s) else (.ok (false, e2), s) := by
  have hshift : bits e1 21 32 <<< 12 = bits e1 21 32 * 4096 := Nat.shiftLeft_eq ..
  unfold walk
  rw [h1]
  simp only [hv, hl, hshift, Bool.not_true, Bool.false_eq_true, if_false]
  rw [h2]

theorem tile_leafHeld (big : Bool) (e : Nat) (ht : (s.tile t).tlb = []) :
    ((leafHeld t va big e s).tile t).tlb = [⟨if big then va / 2 ^ 30 else va / 2 ^ 21, big, e⟩] := by
  have htile : (leafHeld t va big e s).tile t = (s.modTile t (fun c =>
      { c with tlb := tlbFill 64 va c.tlb ⟨if big then va / 2 ^ 30 else va / 2 ^ 21, big, e⟩ })).tile t := rfl
  rw [htile, tile_modTile_same, ht]
  rfl

/-- With nothing cached a miss is counted, and the walk's leaf is held. -/
theorem findLeaf_uncached (ht : (s.tile t).tlb = []) (hd : dieEntries s (tileDie t) = []) {r : Except Status (Bool × Nat)}
    (hw : walk (tileDie t) va (missed t s) = (r, missed t s)) :
    findLeaf t va s = (r, match r with
      | .error _ => missed t s
      | .ok (big, e) => leafHeld t va big e (missed t s)) := by
  unfold missed at hw
  have hd' : dieEntries (rinc (R.XLAT_MISS t.toNat) F.XLAT_MISS_COUNT 1 s) (tileDie t) = [] := by
    rw [dieEntries, dieCache_of_rinc, ← dieEntries, hd]
  unfold findLeaf heldEntry
  simp only [ht, List.find?_nil, hd', hw]
  cases r <;> rfl

/-- With nothing cached, a walk that fails ends the access. -/
theorem translate_walk_error {st : Status} (rd wr : Bool) (hva : va < 2 ^ 48) (ht : (s.tile t).tlb = [])
    (hd : dieEntries s (tileDie t) = []) (hw : walk (tileDie t) va (missed t s) = (.error st, missed t s)) :
    (Machine.translate t va rd wr s).1 = .bad st := by
  unfold Machine.translate
  rw [if_pos hva, findLeaf_uncached ht hd hw]

/-- With nothing cached, a leaf that the walk finds is checked, and is then what the TLB holds. -/
theorem translate_walk_ok {big : Bool} {e : Nat} (rd wr : Bool) (hva : va < 2 ^ 48) (ht : (s.tile t).tlb = [])
    (hd : dieEntries s (tileDie t) = []) (hw : walk (tileDie t) va (missed t s) = (.ok (big, e), missed t s)) :
    (Machine.translate t va rd wr s).1 = leafCheck s va big e rd wr ∧
    ((Machine.translate t va rd wr s).2.tile t).tlb = [⟨if big then va / 2 ^ 30 else va / 2 ^ 21, big, e⟩] := by
  have hframe := xlatTouched_translate t va rd wr s
  unfold Machine.translate at hframe ⊢
  rw [if_pos hva, findLeaf_uncached ht hd hw] at hframe ⊢
  exact ⟨hframe.leafCheck .., tile_leafHeld big e ht⟩

theorem xlatBase_missed (t u : TileId) (s : Machine.State) : xlatBase (missed t s) (tileDie u) = xlatBase s (tileDie u) := by
  have hdie : tileDie u < 32 := by have := u.isLt; unfold tileDie; omega
  have hne : R.XLAT_BASE (tileDie u) ≠ R.XLAT_MISS t.toNat := by unfold R.XLAT_BASE R.XLAT_MISS; omega
  exact congrArg (· <<< 21) ((xlatTouched_missed t s).rget hne _)

/-- An entry that is sound before the miss is counted is read as it stands after. -/
theorem readEntry_missed {table size idx : Nat} (h : table + size ≤ hbmTop) (hi : 8 * idx + 8 ≤ size)
    (hs : Sound s (table + 8 * idx) 8) :
    readEntry table size idx (missed t s) = (.ok (memNat s (table + 8 * idx) 8), missed t s) :=
  readEntry_sound h hi fun k hk => ⟨((xlatTouched_missed t s).addrOk _).trans (hs k hk).1, (hs k hk).2⟩

end

theorem translationWalk_claim : Claims.TranslationWalk := by
  intro t va e1 e2 rd wr s hva ht hd hbase hs1 he1
  have h1 := readEntry_missed (t := t) hbase (level1_lt hva) hs1
  rw [← he1, ← xlatBase_missed t t s] at h1
  refine ⟨fun hv => ?_, fun hv hl => ?_, fun hv hl hbase2 hs2 he2 => ?_⟩
  · exact translate_walk_error rd wr hva ht hd (walk_absent h1 hv)
  · exact translate_walk_ok rd wr hva ht hd (walk_big h1 hv hl)
  · have h2 := readEntry_missed (t := t) hbase2 (level2_lt va) hs2
    rw [← he2] at h2
    have hw := walk_second h1 hv hl h2
    refine ⟨fun hb => translate_walk_error rd wr hva ht hd (hw.trans (if_pos ?_)),
      fun hb => translate_walk_ok rd wr hva ht hd (hw.trans (if_neg ?_))⟩
    · simpa only [Bool.or_eq_true, Bool.not_eq_true', ← Bool.not_eq_true, ← not_and_or] using fun k : bit e2 0 = true ∧ bit e2 1 = true => hb k
    · simpa only [Bool.or_eq_true, Bool.not_eq_true', ← Bool.not_eq_true, ← not_and_or, not_not] using (show bit e2 0 = true ∧ bit e2 1 = true from hb)

/-- Settles O8: the frame of any translation, then the walk from an empty TLB and cache. -/
theorem translationWalks : Obligations.TranslationWalks := by
  unfold Obligations.TranslationWalks
  exact ⟨translationFrame_claim, translationWalk_claim⟩

end Sys2Proof
end

section
/-! What the X-core's accesses under way let an instruction do, and the conditions of posts and fences (R117, Table 4-11). -/

namespace Sys2Proof

open Sys2Proof.Machine

/-! ### Accesses under way -/

/-- Whether a request is a write, atomic or remote post of tile `t` issued before number `n`. -/
def issuedBefore (t : TileId) (n : Nat) (x : Txn) : Bool :=
  match x.iss with
  | .xwrite u _ k => u == t && decide (k < n)
  | .abandoned u (some k) => u == t && decide (k < n)
  | _ => false

theorem issuedBefore_eq_false (t : TileId) (n : Nat) (x : Txn) : issuedBefore t n x = false ↔ ∀ k, IssuedAs x t k → n ≤ k := by
  unfold issuedBefore IssuedAs
  split
  · next u pc k h =>
    simp only [h, Bool.and_eq_false_imp, beq_iff_eq, decide_eq_false_iff_not, not_lt]
    constructor
    · rintro hu j (⟨_, hj⟩ | hj)
      · cases hj
        exact hu rfl
      · cases hj
    · rintro hu rfl
      exact hu k (.inl ⟨pc, rfl⟩)
  · next u k h =>
    simp only [h, Bool.and_eq_false_imp, beq_iff_eq, decide_eq_false_iff_not, not_lt]
    constructor
    · rintro hu j (⟨_, hj⟩ | hj)
      · cases hj
      · cases hj
        exact hu rfl
    · rintro hu rfl
      exact hu k (.inr rfl)
  · next h1 h2 =>
    simp only [true_iff]
    rintro k (⟨pc, hk⟩ | hk)
    · exact absurd hk (h1 t pc k)
    · exact absurd hk (h2 t k)

section
variable (s : Machine.State) (t : TileId) (n : Nat)

theorem xOutstanding_eq_any : xOutstanding s t n = s.txns.any (fun e => issuedBefore t n e.2) := rfl

theorem xOutstanding_eq_false : xOutstanding s t n = false ↔ ∀ e ∈ s.txns, ∀ k, IssuedAs e.2 t k → n ≤ k := by
  rw [xOutstanding_eq_any, List.any_eq_false]
  exact forall₂_congr fun e _ => by rw [Bool.not_eq_true, issuedBefore_eq_false]

theorem postLives_iff (x : XCore) : postLives x n = true ↔ ∀ k, x.failed = some k → n ≤ k := by
  unfold postLives
  split <;> simp_all

/-- Nothing before number `n` is outstanding or has failed. -/
theorem noneBefore_iff : NoneBefore s t n ↔ xOutstanding s t n = false ∧ postLives (s.tile t).x n = true := by
  rw [NoneBefore, xOutstanding_eq_false, postLives_iff]

theorem postsAtOnce_iff : PostsAtOnce s t ↔ (s.tile t).x.held = [] ∧ xOutstanding s t (s.tile t).x.seq = false ∧
    postLives (s.tile t).x (s.tile t).x.seq = true := by
  rw [PostsAtOnce, xOutstanding_eq_false, postLives_iff]
  tauto

theorem fenceOk_iff : fenceOk s t = true ↔ WritesDone s t := by
  simp only [fenceOk, WritesDone, Bool.and_eq_true, Bool.not_eq_true', List.isEmpty_iff, xOutstanding_eq_false, Nat.succ_le_iff, and_assoc]

theorem fenceEOk_iff : fenceEOk s t = true ↔ WritesDone s t ∧ UnitsDone s t := by
  simp only [fenceEOk, UnitsDone, Bool.and_eq_true, Bool.not_eq_true', List.isEmpty_iff, fenceOk_iff, List.any_eq_false,
    decide_eq_true_eq, and_assoc, ne_eq]

theorem endOk_iff : endOk s t = true ↔ WritesDone s t ∧ UnitsDone s t ∧ StreamsDone s t := by
  simp only [endOk, StreamsDone, Bool.and_eq_true, Bool.or_eq_true, beq_iff_eq, List.isEmpty_iff, fenceEOk_iff, fcIdle, fcEnded, and_assoc]

end

/-! ### Retiring after a change of the core -/

/-- A body that changes only tile `t`, leaves its X-core as `x` and touches of the registers at most `XC_STATUS`, then retires. -/
theorem retired_after {t : TileId} {len : Nat} {x : XCore} {u w : Machine.State} (hf : OnlyTile t [R.XC_STATUS t.toNat] u w)
    (ht : w.tile t = { u.tile t with x := x }) : XRetired t (xPc u t + len) x u (xRetire t (xPc w t + len) w) := by
  obtain ⟨hpc, hret, hwdog, hframe, htile⟩ := xRetire_retired t (xPc w t + len) w
  have hpcs : xPc w t = xPc u t := hf.rget (by simp [R.XC_PC, R.XC_STATUS]) _
  have hrets : rraw w (R.XC_RETIRED t.toNat) = rraw u (R.XC_RETIRED t.toNat) :=
    hf.regs _ (by simp [R.XC_RETIRED, R.XC_STATUS])
  rw [hpcs] at hpc hret hwdog hframe htile ⊢
  rw [hrets] at hret
  refine ⟨hpc, hret, hwdog, (hf.mono (by simp [retireRegs])).trans hframe, ?_⟩
  rw [htile, ht]

theorem onlyTile_nextSeq (t : TileId) (offs : List Nat) (u : Machine.State) : OnlyTile t offs u (nextSeq t u) :=
  onlyTile_modX _ (.refl t offs u)

theorem tile_modX (s : Machine.State) (t : TileId) (f : XCore → XCore) :
    (s.modX t f).tile t = { s.tile t with x := f (s.tile t).x } := tile_modTile_same ..

theorem tile_nextSeq (t : TileId) (u : Machine.State) :
    (nextSeq t u).tile t = { u.tile t with x := { (u.tile t).x with seq := (u.tile t).x.seq + 1 } } := tile_modX ..

/-- An access that takes a number and retires. -/
theorem retired_nextSeq (t : TileId) (len : Nat) (u : Machine.State) :
    XRetired t (xPc u t + len) { (u.tile t).x with seq := (u.tile t).x.seq + 1 } u (xFinish t len (.retire (nextSeq t u))) :=
  retired_after (onlyTile_nextSeq ..) (tile_nextSeq ..)

/-! ### Posts -/

section
variable {t : TileId} {target : PostTarget} {cnt obj : Nat} {u : Machine.State}

theorem xPost_zero : xPost t target 0 obj u = .retire u := by
  unfold xPost
  exact if_pos rfl

theorem xPost_atOnce (hc : cnt ≠ 0) (h : PostsAtOnce u t) : xPost t target cnt obj u =
    .retire (firePost t ⟨target, cnt, xPc u t, (u.tile t).x.seq⟩ (nextSeq t u)) := by
  unfold xPost
  dsimp only
  rw [if_neg hc, if_pos ((postsAtOnce_iff ..).mp h)]

theorem xPost_held (hc : cnt ≠ 0) (h : ¬ PostsAtOnce u t) (hn : (u.tile t).x.held.length < 8) : xPost t target cnt obj u =
    .retire (nextSeq t (u.modX t (fun x =>
      { x with held := x.held ++ [⟨target, cnt, xPc u t, (u.tile t).x.seq⟩] }))) := by
  unfold xPost
  dsimp only
  rw [if_neg hc, if_neg (fun k => h ((postsAtOnce_iff ..).mpr k)), if_pos hn]

theorem xPost_blocks (hc : cnt ≠ 0) (h : ¬ PostsAtOnce u t) (hn : 8 ≤ (u.tile t).x.held.length) : xPost t target cnt obj u =
    .wait obj (.post ⟨target, cnt, xPc u t, (u.tile t).x.seq⟩) u := by
  unfold xPost
  dsimp only
  rw [if_neg hc, if_neg (fun k => h ((postsAtOnce_iff ..).mpr k)), if_neg (Nat.not_lt.mpr hn)]

end

theorem rset_nextSeq (o : Nat) (f : Fld) (v : Nat) (t : TileId) (u : Machine.State) :
    rset o f v (nextSeq t u) = nextSeq t (rset o f v u) := rfl

theorem progress_nextSeq (t w : TileId) (u : Machine.State) : progress w (nextSeq t u) = nextSeq t (progress w u) := rfl

/-- A post and the taking of a number touch different parts of the state. -/
theorem semPost_nextSeq (t : TileId) (n : SemIdx) (cnt : Nat) (u : Machine.State) :
    semPost t n cnt (nextSeq t u) = nextSeq t (semPost t n cnt u) := by
  have hval : semVal (nextSeq t u) t n = semVal u t n := rfl
  unfold semPost
  dsimp only
  rw [hval]
  simp only [rset_nextSeq, progress_nextSeq, ← apply_ite (nextSeq t)]

end Sys2Proof
end

section
/-! The fetch of an instruction's words leaves the core as it was: what reads of memory count. -/

namespace Sys2Proof

open Sys2Proof.Machine

/-- The registers that count what accesses to memory meet. -/
def CountsErrors (o : Nat) : Prop := o = R.MOR_ERR ∨ ∃ n, o = R.SPAD_ECC n ∨ o = R.SPAD_ERRADDR n

section
variable {o : Nat} (h : ¬ CountsErrors o)
include h

theorem rraw_countCorr (l : Nat) (s : Machine.State) : rraw (countCorr l s) o = rraw s o := by
  unfold countCorr
  split
  · exact rraw_rset_other _ _ _ fun e => h (.inr ⟨_, .inl e⟩)
  · rfl

theorem rraw_countCorrs (cs : List Nat) (s : Machine.State) : rraw (countCorrs cs s) o = rraw s o :=
  List.foldlRecOn (motive := fun v => rraw v o = rraw s o) _ _ rfl fun _ hv _ _ => (rraw_countCorr h _ _).trans hv

theorem rraw_countPoison (cs : List Nat) (s : Machine.State) : rraw (countPoison cs s) o = rraw s o := by
  unfold countPoison
  dsimp only
  split
  · rfl
  · exact rraw_rset_other _ _ _ fun e => h (.inl e)

theorem rraw_countUncorr (c : Nat) (s : Machine.State) : rraw (countUncorr c s) o = rraw s o := by
  unfold countUncorr
  split
  · rw [rraw_rset_other _ _ _ fun e => h (.inr ⟨_, .inr e⟩), rinc, rraw_rset_other _ _ _ fun e => h (.inr ⟨_, .inl e⟩)]
  · rfl

theorem rraw_meetCodeword (c : Nat) (s : Machine.State) : rraw (meetCodeword c s).2 o = rraw s o := by
  unfold meetCodeword
  split
  · rfl
  · rfl
  · exact rraw_countUncorr h c s
  · rfl

theorem rraw_meetCodewords (cs : List Nat) (s : Machine.State) : rraw (meetCodewords cs s).2 o = rraw s o := by
  induction cs generalizing s with
  | nil => rfl
  | cons c cs ih => exact (ih _).trans (rraw_meetCodeword h c s)

/-- A read of memory changes no register but those that count errors. -/
theorem rraw_localRead (l : List Nat) (s : Machine.State) : rraw (localRead l s).2.2 o = rraw s o := by
  have hmeet := (rraw_meetCodewords h (codewords l) (countPoison (codewords l) (countCorrs (codewords l) s))).trans
    ((rraw_countPoison h ..).trans (rraw_countCorrs h ..))
  unfold localRead memRead
  dsimp only
  split
  · split
    · exact rraw_rset_other _ _ _ fun e => h (.inl e)
    · split
      · rw [rraw, raceCells_regs, ← rraw, hmeet]
      · exact hmeet
  · rfl

theorem rraw_fetchWord {t : TileId} {unit pc : Nat} {s : Machine.State} (hm : o ≠ R.XLAT_MISS t.toNat)
    (hok : (fetchWord t unit pc s).1 = none) : rraw (fetchWord t unit pc s).2 o = rraw s o := by
  have htr := (xlatTouched_translate t pc true false s).regs o hm
  unfold fetchWord at hok ⊢
  split at hok <;> rename_i heq <;> rw [heq] at htr
  · cases hok
  · dsimp only at hok ⊢
    split at hok
    · exact (rraw_localRead h _ _).trans htr
    · cases hok
    · cases hok
    · exact htr
    · exact htr

theorem rraw_fetched {t : TileId} {len : Nat} {s : Machine.State} (hm : o ≠ R.XLAT_MISS t.toNat) (hok : (xFetch t len s).1 = none) :
    rraw (fetched s t len) o = rraw s o := by
  unfold fetched
  unfold xFetch at hok ⊢
  dsimp only at hok ⊢
  split at hok
  · cases hok
  · next s1 heq =>
    have h1 := rraw_fetchWord h hm (congrArg Prod.fst heq)
    rw [heq] at h1
    split
    · next hlen =>
      rw [if_pos hlen] at hok
      split at hok
      · cases hok
      · next s2 heq2 =>
        have h2 := rraw_fetchWord h hm (congrArg Prod.fst heq2)
        rw [heq2] at h2
        exact h2.trans h1
    · exact h1

end

theorem xcStatus_counts_nothing (t : TileId) : ¬ CountsErrors (R.XC_STATUS t.toNat) := by
  rintro (h | ⟨n, h | h⟩)
  · unfold R.XC_STATUS R.MOR_ERR at h; omega
  · unfold R.XC_STATUS R.SPAD_ECC at h; omega
  · unfold R.XC_STATUS R.SPAD_ERRADDR at h; omega

/-- A core that issues is still RUNNING once the words are fetched. -/
theorem Issues.xState_fetched {s : Machine.State} {t : TileId} {len : Nat} (h : Issues s t len) : xState (fetched s t len) t = 1 := by
  obtain ⟨hready, -, hok⟩ := h
  have hm : R.XC_STATUS t.toNat ≠ R.XLAT_MISS t.toNat := by unfold R.XC_STATUS R.XLAT_MISS; omega
  rw [xState, rget_congr (rraw_fetched (xcStatus_counts_nothing t) hm hok)]
  simp only [xReady, Bool.and_eq_true, beq_iff_eq] at hready
  exact hready.1.2

end Sys2Proof
end

section
/-! SACQ, SPOST, SSET, SRD, STRY and RPOST (R117, Table 3-6, Table 4-11). -/

namespace Sys2Proof

open Sys2Proof.Machine

/-! ### Acquires -/

section
variable {t : TileId} {n : SemIdx} {who : AcqWho} {cnt : Nat} {u : Machine.State}

theorem acquire_zero : acquire t n who 0 u = (true, u) := if_pos rfl

theorem acquire_granted (hc : cnt ≠ 0) (h : semWaiters u t n = [] ∧ cnt ≤ semVal u t n) :
    acquire t n who cnt u = (true, semSet t n (semVal u t n - cnt) u) := by
  rw [acquire, if_neg hc, if_pos h]

theorem acquire_waits (hc : cnt ≠ 0) (h : ¬ (semWaiters u t n = [] ∧ cnt ≤ semVal u t n)) :
    acquire t n who cnt u = (false, setWaiters t n (semWaiters u t n ++ [⟨who, cnt⟩]) u) := by
  rw [acquire, if_neg hc, if_neg h]

/-- Nothing is granted while the oldest pending acquire asks for more than there is. -/
theorem semGrant_short {a : Waiter} {l : List Waiter} (hw : semWaiters u t n = a :: l) (h : semVal u t n < a.n) :
    semGrant t n u = u := by
  simp only [semGrant, hw]
  exact if_neg (Nat.not_le.mpr h)

theorem semGrants_short {a : Waiter} {l : List Waiter} (k : Nat) (hw : semWaiters u t n = a :: l) (h : semVal u t n < a.n) :
    semGrants k t n u = u := by
  induction k with
  | zero => rfl
  | succ k ih => rw [semGrants, semGrant_short hw h, ih]

end

/-! ### Posts and values, then the retirement -/

theorem sem_ne_pc (t : TileId) (n : SemIdx) : R.XC_PC t.toNat ≠ R.SEM t.toNat n.toNat := by
  have := n.isLt
  simp only [R.SEM, R.XC_PC]; omega

theorem pc_ne_progress (t : TileId) : R.XC_PC t.toNat ≠ R.FC_PROGRESS t.toNat := by
  simp only [R.XC_PC, R.FC_PROGRESS]; omega

theorem pc_not_mem_semPosted (t : TileId) (n : SemIdx) : R.XC_PC t.toNat ∉ [R.SEM t.toNat n.toNat, R.FC_PROGRESS t.toNat] := by
  simp [sem_ne_pc, pc_ne_progress]

section
variable {t : TileId} {n : SemIdx} {c : Nat} {u : Machine.State}

theorem retired_semSet (x : Nat) : SemValue t n x u (semSet t n x u) ∧
    XRetired t (xPc u t + 4) (u.tile t).x (semSet t n x u) (xFinish t 4 (.retire (semSet t n x u))) :=
  ⟨semSet_value .., retired_onlyRegs 4 (semSet_value ..).frame (by simp [sem_ne_pc])⟩

/-- A post that takes effect at once, after which the instruction retires. -/
theorem retired_semPost (len : Nat) (hc : c ≠ 0) : ∃ w, SemPosted t n c u w ∧
    XRetired t (xPc u t + len) { (u.tile t).x with seq := (u.tile t).x.seq + 1 } w
      (xFinish t len (.retire (semPost t n c (nextSeq t u)))) := by
  have hpost := semPost_posted t n c u hc
  have hpc : xPc (semPost t n c u) t = xPc u t := hpost.frame.rget (pc_not_mem_semPosted t n) _
  refine ⟨_, hpost, ?_⟩
  rw [semPost_nextSeq, ← hpc, ← hpost.frame.tile t]
  exact retired_nextSeq ..

/-- A post that is held, after which the instruction retires. -/
theorem retired_held (len : Nat) (h : HeldPost) :
    XRetired t (xPc u t + len) { (u.tile t).x with seq := (u.tile t).x.seq + 1, held := (u.tile t).x.held ++ [h] } u
      (xFinish t len (.retire (nextSeq t (u.modX t (fun x => { x with held := x.held ++ [h] }))))) :=
  retired_after (.trans (onlyTile_modX _ (.refl t _ u)) (onlyTile_nextSeq ..)) (by rw [tile_nextSeq, tile_modX])

end

/-! ### The semaphore instructions -/

/-- The value that SSET leaves: its operand, unless the pair's link is under way (Table 4-18). -/
theorem semPut_value (t : TileId) (n : SemIdx) (x : Nat) (u : Machine.State) : ∃ y f, semPut t n x u = (y, { u with freeCtr := f }) ∧
    (linkBusy u t (n.extractLsb' 1 5) = false → y = x ∧ f = u.freeCtr) := by
  unfold semPut
  split
  · next hb => exact ⟨_, _, rfl, fun hf => by rw [hb] at hf; cases hf⟩
  · exact ⟨_, _, rfl, fun _ => ⟨rfl, rfl⟩⟩

section
variable {t : TileId} {s : Machine.State} (h : Issues s t 4) (rs : SReg) (imm : BitVec 11) (n : SemIdx) {c : Nat}
include h

theorem sacq_result (hcnt : c = countOp (fetched s t 4) t rs imm 16) : ∃ v, exec (.xSacq t rs imm n) s = .next v ∧
    (c = 0 → XRetired t (xPc (fetched s t 4) t + 4) ((fetched s t 4).tile t).x (fetched s t 4) v) ∧
    (c ≠ 0 → semWaiters (fetched s t 4) t n = [] ∧ c ≤ semVal (fetched s t 4) t n →
      ∃ w, SemValue t n (semVal (fetched s t 4) t n - c) (fetched s t 4) w ∧
        XRetired t (xPc (fetched s t 4) t + 4) ((fetched s t 4).tile t).x w v) ∧
    (c ≠ 0 → ¬ (semWaiters (fetched s t 4) t n = [] ∧ c ≤ semVal (fetched s t 4) t n) →
      XBlocked t n.toNat (.sacq n false)
        (setWaiters t n (semWaiters (fetched s t 4) t n ++ [⟨.xcore, c⟩]) (fetched s t 4)) v) := by
  have hop : opCount (fetched s t 4) t rs imm 16 = c := hcnt.symm
  refine ⟨_, xRun_runs _ h, fun hc => ?_, fun hc hg => ?_, fun hc hg => ?_⟩
  · simp only [hop, hc, acquire_zero, if_true]
    exact xRetire_retired ..
  · simp only [hop, acquire_granted hc hg, if_true]
    exact ⟨_, retired_semSet _⟩
  · simp only [hop, acquire_waits hc hg, Bool.false_eq_true, if_false]
    exact xBlock_blocked ..

theorem spost_result (hcnt : c = countOp (fetched s t 4) t rs imm 16) : ∃ v, exec (.xSpost t rs imm n) s = .next v ∧
    (c = 0 → XRetired t (xPc (fetched s t 4) t + 4) ((fetched s t 4).tile t).x (fetched s t 4) v) ∧
    (c ≠ 0 → PostsAtOnce (fetched s t 4) t → ∃ w, SemPosted t n c (fetched s t 4) w ∧
      XRetired t (xPc (fetched s t 4) t + 4)
        { ((fetched s t 4).tile t).x with seq := ((fetched s t 4).tile t).x.seq + 1 } w v) ∧
    (c ≠ 0 → ¬ PostsAtOnce (fetched s t 4) t → ((fetched s t 4).tile t).x.held.length < 8 →
      XRetired t (xPc (fetched s t 4) t + 4) { ((fetched s t 4).tile t).x with
        seq := ((fetched s t 4).tile t).x.seq + 1,
        held := ((fetched s t 4).tile t).x.held ++ [⟨.own n, c, xPc (fetched s t 4) t, ((fetched s t 4).tile t).x.seq⟩] }
        (fetched s t 4) v) ∧
    (c ≠ 0 → ¬ PostsAtOnce (fetched s t 4) t → 8 ≤ ((fetched s t 4).tile t).x.held.length →
      XBlocked t n.toNat (.post ⟨.own n, c, xPc (fetched s t 4) t, ((fetched s t 4).tile t).x.seq⟩) (fetched s t 4) v) := by
  have hop : opCount (fetched s t 4) t rs imm 16 = c := hcnt.symm
  refine ⟨_, xRun_runs _ h, ?_⟩
  simp only [hop]
  refine ⟨fun hc => ?_, fun hc hp => ?_, fun hc hp hn => ?_, fun hc hp hn => ?_⟩
  · rw [hc, xPost_zero]
    exact xRetire_retired ..
  · rw [xPost_atOnce hc hp, firePost, if_neg hc]
    exact retired_semPost 4 hc
  · rw [xPost_held hc hp hn]
    exact retired_held 4 _
  · rw [xPost_blocks hc hp hn]
    exact xBlock_blocked ..

theorem sset_result (hcnt : c = countOp (fetched s t 4) t rs imm 16) : ∃ v w x f, exec (.xSset t rs imm n) s = .next v ∧
    (linkBusy (fetched s t 4) t (n.extractLsb' 1 5) = false → x = c ∧ f = (fetched s t 4).freeCtr) ∧
    SemValue t n x { fetched s t 4 with freeCtr := f } w ∧
    XRetired t (xPc (fetched s t 4) t + 4) ((fetched s t 4).tile t).x w v := by
  obtain ⟨x, f, hput, hx⟩ := semPut_value t n (opCount (fetched s t 4) t rs imm 16) (fetched s t 4)
  have hset := retired_semSet (t := t) (n := n) (u := { fetched s t 4 with freeCtr := f }) x
  refine ⟨_, semSet t n x { fetched s t 4 with freeCtr := f }, x, f, xRun_runs _ h, fun hb => ?_, ?_⟩
  · obtain ⟨hx, hf⟩ := hx hb
    exact ⟨hx.trans hcnt.symm, hf⟩
  · simp only [hput]
    exact hset

theorem stry_result (hw : semWaiters (fetched s t 4) t n = []) : ∃ v w, exec (.xStry t rs imm n) s = .next v ∧
    (imm.toNat ≤ semVal (fetched s t 4) t n →
      SemValue t n (semVal (fetched s t 4) t n - imm.toNat) (fetched s t 4) w ∧ SResult t 4 rs 1 w v) ∧
    (semVal (fetched s t 4) t n < imm.toNat → w = fetched s t 4 ∧ SResult t 4 rs 0 (fetched s t 4) v) := by
  by_cases hc : imm.toNat ≤ semVal (fetched s t 4) t n
  · refine ⟨_, _, xRun_runs _ h, fun _ => ⟨semSet_value .., ?_⟩, fun hlt => absurd hc (Nat.not_le.mpr hlt)⟩
    simp only [hw, List.length_nil, semGrants, true_and, if_pos hc]
    exact sResult_retire ..
  · refine ⟨_, fetched s t 4, xRun_runs _ h, fun hle => absurd hle hc, fun _ => ⟨rfl, ?_⟩⟩
    simp only [hw, List.length_nil, semGrants, true_and, if_neg hc]
    exact sResult_retire ..

/-- An older acquire that cannot be granted keeps STRY from its count. -/
theorem stry_behind {a : Waiter} {l : List Waiter} (hw : semWaiters (fetched s t 4) t n = a :: l)
    (hlt : semVal (fetched s t 4) t n < a.n) : ∃ v, exec (.xStry t rs imm n) s = .next v ∧ SResult t 4 rs 0 (fetched s t 4) v := by
  refine ⟨_, xRun_runs _ h, ?_⟩
  simp only [semGrants_short _ hw hlt, hw, reduceCtorEq, false_and, if_false]
  exact sResult_retire ..

end

theorem semaphoreInstructions_claim : Claims.SemaphoreInstructions := by
  rintro t rs imm n s u c h rfl
  exact ⟨fun hc => ⟨sacq_result h rs imm n hc, spost_result h rs imm n hc, sset_result h rs imm n hc⟩,
    ⟨_, xRun_runs _ h, sResult_retire ..⟩, stry_result h rs imm n, fun _ _ => stry_behind h rs imm n⟩

/-! ### RPOST -/

/-- Where RPOST goes: a semaphore of a tile of this module, or of another module. -/
def rpostDest (u : Machine.State) (t : TileId) (rs : SReg) (x : TileId) : Dest :=
  if rs = 0 ∨ (rdS u t rs).toNat % 2 ^ 15 = u.devId then .tile x else .dev (BitVec.ofNat 15 ((rdS u t rs).toNat % 2 ^ 15))

section
variable {t x : TileId} {n : SemIdx} {c : Nat} {u : Machine.State}

/-- A post to another tile of the module becomes a request. -/
theorem retired_postTile (hx : x ≠ t) (hs : xState u t = 1) (hc : c ≠ 0) :
    XRetired t (xPc u t + 8) { (u.tile t).x with seq := (u.tile t).x.seq + 1 }
      { u with txns := mins u.txns u.txnNext ⟨.xwrite t (xPc u t) (u.tile t).x.seq, .tile x, 0, .post x n c, .request⟩,
               txnNext := u.txnNext + 1 }
      (xFinish t 8 (.retire (firePost t ⟨.remote (.tile x) x n, c, xPc u t, (u.tile t).x.seq⟩ (nextSeq t u)))) := by
  have hs' : xState (nextSeq t u) t = 1 := hs
  have hiss : ∀ h : HeldPost, postIssuer (nextSeq t u) t h = .xwrite t h.pc h.seq := fun h => by
    rw [postIssuer, hs', if_neg (by decide)]
  rw [firePost, if_neg hc]
  simp only [if_neg hx, hiss]
  exact retired_nextSeq t 8 { u with txns := mins u.txns u.txnNext _, txnNext := u.txnNext + 1 }

/-- A post to a module without a valid route is a PROTECTION fault on its way. -/
theorem retired_postNoRoute {d : DevId} (hs : xState u t = 1) (hc : c ≠ 0)
    (hr : bit (rget u (R.MOS_ROUTE d.toNat) F.MOS_ROUTE_ENTRY) 31 = false) :
    XRetired t (xPc u t + 8) { (u.tile t).x with
      seq := (u.tile t).x.seq + 1, faults := (u.tile t).x.faults ++ [⟨4, .protection, xPc u t, 0⟩],
      failed := some ((u.tile t).x.failed.elim (u.tile t).x.seq (min (u.tile t).x.seq)) } u
      (xFinish t 8 (.retire (firePost t ⟨.remote (.dev d) x n, c, xPc u t, (u.tile t).x.seq⟩ (nextSeq t u)))) := by
  have hs' : xState (nextSeq t u) t = 1 := hs
  have hr' : bit (rget (nextSeq t u) (R.MOS_ROUTE d.toNat) F.MOS_ROUTE_ENTRY) 31 = false := hr
  rw [firePost, if_neg hc]
  simp only [hr', hs', Bool.false_eq_true, if_false, xcIdle, xcFaulted, OfNat.one_ne_ofNat, one_ne_zero, or_self, writeFault, markFailed, pushFault]
  refine retired_after ((onlyTile_nextSeq ..).trans (onlyTile_modX _ (onlyTile_modX _ (.refl ..)))) ?_
  rw [tile_modX, tile_modX, tile_nextSeq]

end

theorem remotePosts_claim : Claims.RemotePosts := by
  rintro t rs rt treg tile x count n s u h rfl rfl
  generalize hx : (if treg then (rdS (fetched s t 8) t rt).extractLsb' 0 11 else tile) = x
  have hc0 : count = 0 ↔ count.toNat = 0 := by rw [← BitVec.toNat_inj]; rfl
  have hs := h.xState_fetched
  have hrun : exec (.xRpost t rs rt treg tile count n) s = .next (xFinish t 8
      (xPost t (.remote (rpostDest (fetched s t 8) t rs x) x n) count.toNat n.toNat (fetched s t 8))) := by
    rw [← hx]
    exact xRun8_runs _ h
  generalize fetched s t 8 = u at hrun hs ⊢
  refine ⟨_, hrun, fun hc => ?_, fun hd hc hp => ?_, fun hd hc hp hr => ?_, fun hc hp hn => ?_⟩
  · rw [hc0.mp hc, xPost_zero]
    exact xRetire_retired ..
  · rw [xPost_atOnce (mt hc0.mpr hc) hp, rpostDest, if_pos hd]
    refine ⟨fun hxt => ?_, fun hxt => retired_postTile hxt hs (mt hc0.mpr hc)⟩
    rw [firePost, if_neg (mt hc0.mpr hc)]
    simp only [if_pos hxt]
    exact retired_semPost 8 (mt hc0.mpr hc)
  · rw [xPost_atOnce (mt hc0.mpr hc) hp, rpostDest, if_neg hd]
    refine retired_postNoRoute hs (mt hc0.mpr hc) ?_
    rwa [BitVec.toNat_ofNat, Nat.mod_mod]
  · rw [xPost_blocks (mt hc0.mpr hc) hp hn]
    have hb := xBlock_blocked t n.toNat (.post ⟨.remote (rpostDest u t rs x) x n, count.toNat, xPc u t, (u.tile t).x.seq⟩) u
    exact ⟨hb.state, hb.pc⟩

/-- Settles O16: the own tile's semaphores, then remote posts. -/
theorem semaphoresAndPosts : Obligations.SemaphoresAndPosts := by
  unfold Obligations.SemaphoresAndPosts
  exact ⟨semaphoreInstructions_claim, remotePosts_claim⟩

end Sys2Proof
end

section
/-! Blocked instructions that retire, held posts, and pending acquires (R81, R82, R117, R126). -/

namespace Sys2Proof

open Sys2Proof.Machine

/-! ### Conditions -/

theorem waitOk_iff {s : Machine.State} {t : TileId} {w : XWait} (hf : w ≠ .finish) (hp : ∀ h, w ≠ .post h) :
    waitOk s t w = true ↔ WaitHolds s t w := by
  cases w with
  | sacq n g => exact Iff.rfl
  | wwait w thr => exact decide_eq_true_iff
  | reopen w => exact Option.isNone_iff_eq_none
  | fence => exact fenceOk_iff s t
  | fenceE => exact fenceEOk_iff s t
  | ewaitCe n => exact decide_eq_true_iff
  | ewaitGme n => exact decide_eq_true_iff
  | swait sl thr => exact swaitOk_iff s t sl thr
  | finish => exact absurd rfl hf
  | post h => exact absurd rfl (hp h)

/-- The waits that just retire are neither END's nor a post's. -/
theorem WaitHolds.ne {s : Machine.State} {t : TileId} {w : XWait} (h : WaitHolds s t w) : w ≠ .finish ∧ ∀ p, w ≠ .post p := by
  constructor
  · rintro rfl
    exact h
  · rintro p rfl
    exact h

/-! ### Retiring and the core's status -/

/-- A retired instruction's state before a halt after a single step. -/
def advanced (t : TileId) (pc : Nat) (u : Machine.State) : Machine.State :=
  progress t ((rput (R.XC_WDOG t.toNat) 0 (rinc (R.XC_RETIRED t.toNat) F.XC_RETIRED_COUNT 1
    (rput (R.XC_PC t.toNat) (pc % 2 ^ 48 / 4 * 4) u))).modX t (fun x => { x with skipBrk := false }))

section
variable (t : TileId) (pc : Nat) (u : Machine.State)

theorem xRetire_eq_advanced : xRetire t pc u =
    if xDebug (advanced t pc u) t && rbit (advanced t pc u) (R.XC_CTL t.toNat) F.XC_CTL_STEP then
      (if xState (advanced t pc u) t = xcRunning then setXState t xcHalted (advanced t pc u) else advanced t pc u)
    else advanced t pc u := rfl

theorem rraw_advanced {o : Nat} (hp : o ≠ R.FC_PROGRESS t.toNat) (hw : o ≠ R.XC_WDOG t.toNat) (hr : o ≠ R.XC_RETIRED t.toNat)
    (hpc : o ≠ R.XC_PC t.toNat) : rraw (advanced t pc u) o = rraw u o := by
  rw [advanced, progress, rraw_rput_other _ _ hp, rraw_modX, rraw_rput_other _ _ hw, rinc, rraw_rset_other _ _ _ hr,
    rraw_rput_other _ _ hpc]

theorem status_advanced : rraw (advanced t pc u) (R.XC_STATUS t.toNat) = rraw u (R.XC_STATUS t.toNat) := by
  apply rraw_advanced <;> simp [R.XC_STATUS, R.FC_PROGRESS, R.XC_WDOG, R.XC_RETIRED, R.XC_PC]

theorem ctl_advanced : rraw (advanced t pc u) (R.XC_CTL t.toNat) = rraw u (R.XC_CTL t.toNat) := by
  apply rraw_advanced <;> simp [R.XC_CTL, R.FC_PROGRESS, R.XC_WDOG, R.XC_RETIRED, R.XC_PC]

/-- A retirement leaves WAIT_OBJ as it is. -/
theorem waitObj_xRetire :
    rget (xRetire t pc u) (R.XC_STATUS t.toNat) F.XC_STATUS_WAIT_OBJ = rget u (R.XC_STATUS t.toNat) F.XC_STATUS_WAIT_OBJ := by
  have hadv := rget_congr (status_advanced t pc u) F.XC_STATUS_WAIT_OBJ
  rw [xRetire_eq_advanced]
  split
  · split
    · exact (rget_rset_field _ _ _ _ _ (by decide) (by decide)).trans hadv
    · exact hadv
  · exact hadv

/-- Outside expert level nothing halts the core as an instruction retires (R125). -/
theorem xState_xRetire (h : xExpert u t = false) : xState (xRetire t pc u) t = xState u t := by
  have hexp : xExpert (advanced t pc u) t = false := by
    rw [xExpert, rbit, rget_congr (ctl_advanced t pc u)]
    exact h
  rw [xRetire_eq_advanced, xDebug, hexp]
  exact rget_congr (status_advanced t pc u) _

end

/-! ### A wait ends -/

/-- The core RUNNING again, with nothing to wait for. -/
def woken (t : TileId) (s : Machine.State) : Machine.State :=
  rset (R.XC_STATUS t.toNat) F.XC_STATUS_WAIT_OBJ 0 (setXState t xcRunning (s.modX t (fun x => { x with wait := none })))

section
variable (t : TileId) (s : Machine.State)

theorem tile_woken : (woken t s).tile t = { s.tile t with x := { (s.tile t).x with wait := none } } := by
  rw [woken, tile_rset, setXState, tile_rset, tile_modX]

theorem onlyTile_woken : OnlyTile t [R.XC_STATUS t.toNat] s (woken t s) :=
  onlyTile_rset _ _ (by simp) (onlyTile_rset _ _ (by simp) (onlyTile_modX _ (.refl t _ s)))

theorem waitObj_woken : rget (woken t s) (R.XC_STATUS t.toNat) F.XC_STATUS_WAIT_OBJ = 0 := rget_rset_same _ _ _ _ (by decide)

theorem xState_woken : xState (woken t s) t = 1 := by
  rw [xState, woken, rget_rset_field _ _ _ _ _ (by decide) (by decide), setXState, rget_rset_same _ _ _ _ (by decide)]
  rfl

theorem xExpert_woken : xExpert (woken t s) t = xExpert s t := by
  rw [xExpert, rbit, (onlyTile_woken t s).rget (by simp [R.XC_CTL, R.XC_STATUS])]
  rfl

theorem xPc_woken : xPc (woken t s) t = xPc s t := (onlyTile_woken t s).rget (by simp [R.XC_PC, R.XC_STATUS]) _

variable {t s} {w : XWait}

theorem exec_waitSatisfied (hs : xState s t = 2) (hw : (s.tile t).x.wait = some w) :
    exec (.waitSatisfied t) s = .next (if waitOk s t w then waitRetire t w s else s) := by
  refine congrArg Host.Outcome.next ((if_pos hs).trans ?_)
  rw [hw]

/-- A wait whose condition has come to hold just retires, but for END and posts. -/
theorem waitRetire_plain (hf : w ≠ .finish) (hp : ∀ h, w ≠ .post h) :
    waitRetire t w s = xRetire t (xPc (woken t s) t + 4) (woken t s) := by
  cases w with
  | finish => exact absurd rfl hf
  | post h => exact absurd rfl (hp h)
  | _ => rfl

theorem waitRetire_post (h : HeldPost) : waitRetire t (.post h) s =
    xRetire t (xPc (woken t s) t + (match h.target with | .own _ => 4 | .remote _ _ _ => 8))
      (nextSeq t ((woken t s).modX t (fun x => { x with held := x.held ++ [h] }))) := rfl

/-- A blocked post joins the held ones and retires. -/
theorem retired_woken_post (h : HeldPost) (len : Nat) :
    XRetired t (xPc s t + len) { (s.tile t).x with
      wait := none, seq := (s.tile t).x.seq + 1, held := (s.tile t).x.held ++ [h] } s
      (xRetire t (xPc (woken t s) t + len) (nextSeq t ((woken t s).modX t (fun x => { x with held := x.held ++ [h] })))) := by
  have hheld : OnlyTile t [] (woken t s) (nextSeq t ((woken t s).modX t (fun x => { x with held := x.held ++ [h] }))) :=
    .trans (onlyTile_modX _ (.refl ..)) (onlyTile_nextSeq ..)
  have hpc : xPc (nextSeq t ((woken t s).modX t (fun x => { x with held := x.held ++ [h] }))) t = xPc (woken t s) t :=
    hheld.rget List.not_mem_nil _
  rw [← hpc]
  refine retired_after ((onlyTile_woken t s).trans (hheld.mono (List.nil_subset _))) ?_
  rw [tile_nextSeq, tile_modX, tile_woken]

end

/-! ### END retires -/

/-- A launch ended on a tile whose core has retired END. -/
def coreEnded (t : TileId) (s : Machine.State) : Machine.State := setXState t xcIdle (s.modX t (fun x => { x with launch := none }))

section
variable {t : TileId} {s : Machine.State}

theorem onlyTile_coreEnded (t : TileId) (s : Machine.State) : OnlyTile t [R.XC_STATUS t.toNat] s (coreEnded t s) :=
  onlyTile_rset _ _ (by simp) (onlyTile_modX _ (.refl t _ s))

theorem tile_coreEnded (t : TileId) (s : Machine.State) :
    (coreEnded t s).tile t = { s.tile t with x := { (s.tile t).x with launch := none } } := by
  rw [coreEnded, setXState, tile_rset, tile_modX]

theorem xState_coreEnded (t : TileId) (s : Machine.State) : xState (coreEnded t s) t = 0 := rget_rset_same _ _ _ _ (by decide)

theorem xEndRetire_eq (t : TileId) (s : Machine.State) : xEndRetire t s =
    (if (coreEnded t (xRetire t (xPc s t + 4) s)).tileDraining t then coreEnded t (xRetire t (xPc s t + 4) s)
    else rset (R.TILE_STATE t.toNat) F.TILE_STATE_STATE tsIdle (coreEnded t (xRetire t (xPc s t + 4) s))) := rfl

/-- A tile that is not told to drain, on a die that is ON, refuses nothing. -/
theorem tileDraining_of_on (hd : s.domOn (16 + tileDie t) = true) : s.tileDraining t = true ↔
    rget s (R.TILE_STATE t.toNat) F.TILE_STATE_STATE = 2 := by
  have hon : rget s (R.PDC_DOM_STAT (16 + tileDie t)) F.PDC_DOM_STAT_STATE = 3 := by simpa [State.domOn] using hd
  simp [State.tileDraining, hon, tsDraining]

/-- END of a core that a change of its status left as `u`: the core IDLE, its launch over, the PC past END. -/
theorem xEndRetire_ends {u : Machine.State} (hf : OnlyTile t [R.XC_STATUS t.toNat] s u) :
    xState (xEndRetire t u) t = 0 ∧ ((xEndRetire t u).tile t).x.launch = none ∧
    xPc (xEndRetire t u) t = (xPc s t + 4) % 2 ^ 48 / 4 * 4 ∧
    (s.tileDraining t = false → s.domOn (16 + tileDie t) = true →
      rget (xEndRetire t u) (R.TILE_STATE t.toNat) F.TILE_STATE_STATE = 0) ∧
    OnlyTile t (R.TILE_STATE t.toNat :: retireRegs t) s (xEndRetire t u) := by
  have hret := xRetire_retired t (xPc u t + 4) u
  have hall : OnlyTile t (retireRegs t) s (coreEnded t (xRetire t (xPc u t + 4) u)) :=
    (hf.mono (by simp [retireRegs])).trans (hret.frame.trans ((onlyTile_coreEnded ..).mono (by simp [retireRegs])))
  have hpc : xPc (coreEnded t (xRetire t (xPc u t + 4) u)) t = (xPc s t + 4) % 2 ^ 48 / 4 * 4 := by
    have hpcu : xPc u t = xPc s t := hf.rget (by simp [R.XC_PC, R.XC_STATUS]) _
    rw [← hpcu, ← hret.pc]
    exact (onlyTile_coreEnded ..).rget (by simp [R.XC_PC, R.XC_STATUS]) _
  have hstate : xState (coreEnded t (xRetire t (xPc u t + 4) u)) t = 0 := xState_coreEnded ..
  have hlaunch : ((coreEnded t (xRetire t (xPc u t + 4) u)).tile t).x.launch = none := by rw [tile_coreEnded]
  have hdrain : s.tileDraining t = false → s.domOn (16 + tileDie t) = true →
      (coreEnded t (xRetire t (xPc u t + 4) u)).tileDraining t = false := by
    intro hd hon
    have hon' : (coreEnded t (xRetire t (xPc u t + 4) u)).domOn (16 + tileDie t) = true := by
      have hdie : tileDie t < 32 := by have := t.isLt; unfold tileDie; omega
      rw [State.domOn, hall.rget (by simp [retireRegs, R.PDC_DOM_STAT, R.XC_PC, R.XC_RETIRED, R.XC_WDOG, R.FC_PROGRESS, R.XC_STATUS]; omega)]
      exact hon
    rw [Bool.eq_false_iff, Ne, tileDraining_of_on hon',
      hall.rget (by simp [retireRegs, R.TILE_STATE, R.XC_PC, R.XC_RETIRED, R.XC_WDOG, R.FC_PROGRESS, R.XC_STATUS]), ← tileDraining_of_on hon,
      hd]
    decide
  rw [xEndRetire_eq]
  generalize coreEnded t (xRetire t (xPc u t + 4) u) = w at hall hpc hstate hlaunch hdrain
  split
  next hd =>
    refine ⟨hstate, hlaunch, hpc, fun hs hon => ?_, hall.mono (List.subset_cons_self ..)⟩
    exact absurd (hd.symm.trans (hdrain hs hon)) (by decide)
  next =>
    refine ⟨?_, by rw [tile_rset]; exact hlaunch, ?_, fun _ _ => rget_rset_same _ _ _ _ (by decide),
      onlyTile_rset _ _ (List.mem_cons_self ..) (hall.mono (List.subset_cons_self ..))⟩
    · exact (rget_rset_other _ _ _ _ (by simp [R.XC_STATUS, R.TILE_STATE])).trans hstate
    · exact (rget_rset_other _ _ _ _ (by simp [R.XC_PC, R.TILE_STATE])).trans hpc

end

theorem waitRetire_finish (t : TileId) (s : Machine.State) : waitRetire t .finish s = xEndRetire t (woken t s) := rfl

theorem waitsEnd_claim : Claims.WaitsEnd := by
  intro t w s hs hw
  have hexec := exec_waitSatisfied hs hw
  have hnext : ∀ {v}, waitOk s t w = true → waitRetire t w s = v → exec (.waitSatisfied t) s = .next v := by
    rintro v hok rfl
    rw [hexec, if_pos hok]
  have hobj := fun pc => (waitObj_xRetire t pc (woken t s)).trans (waitObj_woken t s)
  refine ⟨fun h => ?_, fun h hf hp => ?_, ?_, ?_⟩
  · obtain ⟨hf, hp⟩ := h.ne
    refine ⟨_, hnext ((waitOk_iff hf hp).mpr h) (waitRetire_plain hf hp), ?_, hobj _, fun hexp => ?_⟩
    · exact retired_after (onlyTile_woken t s) (tile_woken t s)
    · exact (xState_xRetire t _ _ ((xExpert_woken t s).trans hexp)).trans (xState_woken t s)
  · rw [hexec, if_neg (mt (waitOk_iff hf hp).mp h)]
  · rintro h rfl hlen
    exact ⟨_, hnext (decide_eq_true hlen) (waitRetire_post h), retired_woken_post h _⟩
  · rintro rfl hdone
    exact ⟨_, hnext ((endOk_iff s t).mpr hdone) (waitRetire_finish t s), xEndRetire_ends (onlyTile_woken t s)⟩

/-! ### Held posts and pending acquires -/

section
variable {t : TileId} {n : SemIdx} {s : Machine.State}

theorem exec_heldPostRelease {h : HeldPost} {hs : List HeldPost} (hh : (s.tile t).x.held = h :: hs) :
    exec (.heldPostRelease t) s = .next
      (if xOutstanding s t h.seq = true ∨ postLives (s.tile t).x h.seq = false then s
      else firePost t h (s.modX t (fun x => { x with held := hs }))) := by
  refine congrArg Host.Outcome.next ?_
  rw [hh]

theorem firePost_own {h : HeldPost} {k : SemIdx} (ht : h.target = .own k) (hn : h.n ≠ 0) (u : Machine.State) :
    firePost t h u = semPost t k h.n u := by
  rw [firePost, if_neg hn, ht]

/-- An F-core that does not wait is not woken. -/
theorem fWake_idle (h : fState s t ≠ 2) : fWake t s = s := if_neg h

theorem exec_acquireGrant (t : TileId) (n : SemIdx) (s : Machine.State) :
    exec (.acquireGrant t n) s = .next (fWake t (semGrant t n s)) := rfl

/-- What a grant to the X-core leaves. -/
def xGranted (t : TileId) (n : SemIdx) (c : Nat) (ws : List Waiter) (s : Machine.State) : Machine.State :=
  (setWaiters t n ws (semSet t n (semVal s t n - c) s)).modX t (fun x => { x with wait := some (.sacq n true) })

theorem semGrant_xcore {w : Waiter} {ws : List Waiter} (hw : semWaiters s t n = w :: ws) (hn : w.n ≤ semVal s t n)
    (hx : w.who = .xcore) : semGrant t n s = xGranted t n w.n ws s := by
  simp only [semGrant, hw]
  rw [if_pos hn, hx]
  rfl

theorem onlyTile_xGranted (c : Nat) (ws : List Waiter) : OnlyTile t [R.SEM t.toNat n.toNat] s (xGranted t n c ws s) :=
  onlyTile_modX _ (onlyTile_modTile _ (onlyTile_rset _ _ (List.mem_singleton_self _) (.refl ..)))

theorem tile_xGranted (c : Nat) (ws : List Waiter) : (xGranted t n c ws s).tile t =
    { s.tile t with
      waiters := mset (fun _ => []) (s.tile t).waiters n.toNat ws
      x := { (s.tile t).x with wait := some (.sacq n true) } } := by
  rw [xGranted, tile_modX, setWaiters, tile_modTile_same, semSet, tile_rset]

theorem sem_xGranted (c : Nat) (ws : List Waiter) : rraw (xGranted t n c ws s) (R.SEM t.toNat n.toNat) =
    rraw (semSet t n (semVal s t n - c) s) (R.SEM t.toNat n.toNat) := by
  rw [xGranted, rraw_modX, setWaiters, rraw_modTile]

theorem semVal_xGranted (c : Nat) (ws : List Waiter) : semVal (xGranted t n c ws s) t n = semVal s t n - c := by
  have hlt : semVal s t n < 2 ^ 16 := rget_lt ..
  calc semVal (xGranted t n c ws s) t n
      = semVal (semSet t n (semVal s t n - c) s) t n := rget_congr (sem_xGranted c ws) _
    _ = (semVal s t n - c) % 2 ^ 16 := (semSet_value ..).value
    _ = semVal s t n - c := Nat.mod_eq_of_lt (by omega)

theorem fState_xGranted (c : Nat) (ws : List Waiter) : fState (xGranted t n c ws s) t = fState s t := by
  refine (onlyTile_xGranted c ws).rget ?_ _
  have := n.isLt
  simp only [R.FC_STATUS, R.SEM, List.mem_singleton]
  omega

end

theorem lateGrantsAndPosts_claim : Claims.LateGrantsAndPosts := by
  intro t n s
  refine ⟨fun h hs k hh ht hn => ?_, fun hf hw => ?_, fun w ws hf hw => ⟨fun hshort => ?_, fun hle hx => ?_⟩⟩
  · rw [exec_heldPostRelease hh, firePost_own ht hn, noneBefore_iff]
    constructor
    · rintro ⟨hout, hlives⟩
      exact ⟨_, by rw [hout, hlives]; rfl, semPost_posted t k h.n _ hn⟩
    · intro hbefore
      rw [if_pos]
      rwa [not_and_or, Bool.not_eq_false, Bool.not_eq_true] at hbefore
  · have hnone : semGrant t n s = s := by simp only [semGrant, hw]
    rw [exec_acquireGrant, hnone, fWake_idle hf]
  · rw [exec_acquireGrant, semGrant_short hw hshort, fWake_idle hf]
  · refine ⟨xGranted t n w.n ws s, ?_, semVal_xGranted .., ?_, by rw [tile_xGranted], onlyTile_xGranted ..⟩
    · rw [exec_acquireGrant, semGrant_xcore hw hle hx, fWake_idle ((fState_xGranted w.n ws).trans_ne hf)]
    · rw [semWaiters, tile_xGranted, mget_mset_same]

/-- Settles O23: a wait is over when its condition holds, and then the instruction retires as it would have; the oldest held post
waits for what was issued before it, and the oldest pending acquire alone is granted. -/
theorem waitsAndGrants : Obligations.WaitsAndGrants := ⟨waitsEnd_claim, lateGrantsAndPosts_claim⟩

end Sys2Proof
end

section
/-! Stores and atomic adds (R75, R78, R107, R109, R110, R113). -/

namespace Sys2Proof

open Sys2Proof.Machine

/-! ### Retiring after a write of memory -/

section
variable {t : TileId} {u w : Machine.State}

theorem xPc_onlyMem (h : OnlyMem u w) : xPc w t = xPc u t := by
  rw [xPc, rget, rraw, regs_of_onlyMem h]
  rfl

theorem tile_onlyMem (h : OnlyMem u w) : w.tile t = u.tile t := by
  rw [State.tile, tiles_of_onlyMem h]
  rfl

/-- A posted write takes a number, then its instruction retires. -/
theorem retired_write (len : Nat) (h : OnlyMem u w) :
    XRetired t (xPc u t + len) { (u.tile t).x with seq := (u.tile t).x.seq + 1 } w (xFinish t len (.retire (nextSeq t w))) := by
  rw [← xPc_onlyMem h, ← tile_onlyMem h]
  exact retired_nextSeq t len w

end

/-! ### Scalar and descriptor stores -/

section
variable {t : TileId} {rs1 rs2 : SReg} {s u : Machine.State} {la : Nat}

/-- An aligned store whose page reaches memory without a request, from its address on. -/
theorem stored_retired {va n : Nat} (x len : Nat) (hn : n ∣ 64) (ha : n ∣ va) (h : Reaches t va false true la s u) (hg : Sound u la n) :
    ∃ v w, xFinish t len (xStore t (cellsAt va n x) s) = v ∧ Stored la n x u w ∧
      XRetired t (xPc u t + len) { (u.tile t).x with seq := (u.tile t).x.seq + 1 } w v := by
  obtain ⟨w, hw, hstore⟩ := xStore_one (x := x) hn ha h hg
  exact ⟨_, w, rfl, hw, hstore ▸ retired_write len hw.only⟩

theorem xStoreI_result {n : Nat} {imm : BitVec 12} (hn : n ∣ 64) (hi : Issues s t 4)
    (h : Reaches t (scalarAddr (fetched s t 4) t rs1 imm n) false true la (fetched s t 4) u) (hg : Sound u la n) :
    ∃ v w, xStoreI t rs1 rs2 imm n s = .next v ∧ Stored la n (rdS (fetched s t 4) t rs2).toNat u w ∧
      XRetired t (xPc u t + 4) { (u.tile t).x with seq := (u.tile t).x.seq + 1 } w v := by
  obtain ⟨v, w, hv, hw, hret⟩ := stored_retired (rdS (fetched s t 4) t rs2).toNat 4 hn (Nat.dvd_mul_left _ _) h hg
  exact ⟨v, w, (xRun_runs _ hi).trans (congrArg _ hv), hw, hret⟩

theorem dst_result {da : DReg} {imm : BitVec 32} (hi : Issues s t 8)
    (h : Reaches t (descAddr (fetched s t 8) t rs1 imm) false true la (fetched s t 8) u) (hg : Sound u la 64) :
    ∃ v w, exec (.xDst t da rs1 imm) s = .next v ∧ Stored la 64 (rdD (fetched s t 8) t da).toNat u w ∧
      XRetired t (xPc u t + 8) { (u.tile t).x with seq := (u.tile t).x.seq + 1 } w v := by
  obtain ⟨v, w, hv, hw, hret⟩ := stored_retired (rdD (fetched s t 8) t da).toNat 8 (dvd_refl 64) (Nat.dvd_mul_left _ _) h hg
  exact ⟨v, w, (xRun8_runs _ hi).trans (congrArg _ hv), hw, hret⟩

end

theorem storeResults_claim : Claims.StoreResults := by
  intro t rs1 s u la
  refine ⟨fun p hp rs2 imm hi h hg => ?_, fun da imm hi h hg => dst_result hi h hg⟩
  simp only [storeTable, List.mem_cons, List.not_mem_nil, or_false] at hp
  obtain rfl | rfl | rfl | rfl := hp
  all_goals exact xStoreI_result (by decide) hi h hg

/-! ### Atomic adds -/

section
variable {t : TileId} {rd rs1 rs2 : SReg} {wide : Bool} {la : Nat} {s u : Machine.State}

/-- An atomic add that reaches memory without a request is done at once. -/
theorem xAtomic_reaches {addr : Nat} {v : Word} {ret : Option SReg} {w : Machine.State}
    (h : Reaches t (addr / (if wide then 8 else 4) * (if wide then 8 else 4)) true true la s u)
    (hadd : localAadd la wide v u = (.ok, rdBytes u la (if wide then 8 else 4), w)) :
    xAtomic t addr wide v ret s =
      if ret.isSome then .retire (loadWrite t (.scalar (ret.getD 0) (if wide then 8 else 4) false)
        [⟨List.range (if wide then 8 else 4), some (rdBytes u la (if wide then 8 else 4))⟩] w)
      else .retire (nextSeq t w) := by
  obtain ⟨htr, hroute⟩ := h
  unfold xAtomic
  dsimp only
  rw [htr]
  dsimp only
  rw [hroute]
  dsimp only
  rw [hadd]
  exact if_pos rfl

/-- The register of a finished one-line scalar load that is not sign-extended. -/
theorem loadWrite_unsigned (n : Nat) (w : Machine.State) :
    loadWrite t (.scalar rd n false) [⟨List.range n, some (rdBytes u la n)⟩] w = wrS t rd (BitVec.ofNat 64 (memNat u la n)) w := by
  simp only [loadWrite]
  rw [rdBytes, loadByte_one, leNat_rdBytes]
  rfl

end

theorem atomicResults_claim : Claims.AtomicResults := by
  rintro t rd rs1 rs2 wide n la s u rfl hi h hla hp hg
  obtain ⟨w, hw, hadd⟩ := localAadd_good (v := rdS (fetched s t 4) t rs2) hp hla hg
  have hatom : ∀ ret r, xAtomic t (rdS (fetched s t 4) t rs1).toNat wide (rdS (fetched s t 4) t rs2) ret (fetched s t 4) = r →
      xAtom t ret rs1 rs2 wide s = .next (xFinish t 4 r) := by
    rintro ret r rfl
    exact xRun_runs _ hi
  refine ⟨⟨xFinish t 4 (.retire (nextSeq t w)), w, ?_, hw, retired_write 4 hw.only⟩,
    ⟨xFinish t 4 (xSetS t rd (BitVec.ofNat 64 (memNat u la (if wide then 8 else 4))) w), w, ?_, hw, sResult_retire ..⟩⟩
  · have hnone := hatom none _ (xAtomic_reaches (ret := none) h hadd)
    cases wide <;> exact hnone
  · have hsome := hatom (some rd) _ ((xAtomic_reaches (ret := some rd) h hadd).trans (if_pos rfl))
    rw [Option.getD_some, loadWrite_unsigned] at hsome
    cases wide <;> exact hsome

/-! ### Vector stores -/

/-- Cells of which none meets a test leave the byte. -/
theorem foldl_unmet {γ : Type} {p : γ → Prop} [DecidablePred p] {g : γ → Byte} {l : List γ} (h : ∀ c ∈ l, ¬ p c) (b : Byte) :
    l.foldl (fun b c => if p c then g c else b) b = b := by
  induction l with
  | nil => rfl
  | cons c l ih => rw [List.foldl_cons, if_neg (h c List.mem_cons_self), ih (fun d hd => h d (List.mem_cons_of_mem _ hd))]

/-- Of the cells that meet a test, all with the same byte, the last leaves it. -/
theorem foldl_agreeing {γ : Type} {p : γ → Prop} [DecidablePred p] {g : γ → Byte} {x : Byte} {l : List γ}
    (hx : ∀ c ∈ l, p c → g c = x) (hex : ∃ c ∈ l, p c) (b : Byte) : l.foldl (fun b c => if p c then g c else b) b = x := by
  induction l generalizing b with
  | nil => simp at hex
  | cons c l ih =>
    have hx' : ∀ d ∈ l, p d → g d = x := fun d hd => hx d (List.mem_cons_of_mem _ hd)
    rw [List.foldl_cons]
    by_cases hl : ∃ d ∈ l, p d
    · exact ih hx' hl _
    · have hc : p c := by
        obtain ⟨d, hd, hpd⟩ := hex
        obtain rfl | hd := List.mem_cons.mp hd
        · exact hpd
        · exact absurd ⟨d, hd, hpd⟩ hl
      rw [if_pos hc, hx c List.mem_cons_self hc]
      exact foldl_unmet (fun d hd hpd => hl ⟨d, hd, hpd⟩) x

/-- The lines of a store: its cells grouped by the 64-byte line they fall in. -/
def cellLines (cells : List (Nat × Byte)) : List (List (Nat × Byte)) :=
  ((cells.map (fun c => c.1 / 64)).dedup).map (fun l => cells.filter (fun c => c.1 / 64 == l))

theorem xStore_eq (t : TileId) (cells : List (Nat × Byte)) (s : Machine.State) :
    xStore t cells s = .retire (nextSeq t ((cellLines cells).foldl (fun s g => storeLine t g s) s)) := rfl

theorem mem_cellLines {cells g : List (Nat × Byte)} (h : g ∈ cellLines cells) :
    ∃ l, g = cells.filter (fun c => c.1 / 64 == l) ∧ g ≠ [] := by
  obtain ⟨l, hl, rfl⟩ := List.mem_map.mp h
  obtain ⟨c, hc, rfl⟩ := List.mem_map.mp (List.mem_dedup.mp hl)
  exact ⟨_, rfl, List.ne_nil_of_mem (a := c) (by simp [hc])⟩

theorem mem_flatten_cellLines {cells : List (Nat × Byte)} {c : Nat × Byte} : c ∈ (cellLines cells).flatten ↔ c ∈ cells := by
  rw [List.mem_flatten]
  constructor
  · rintro ⟨g, hg, hc⟩
    obtain ⟨l, rfl, -⟩ := mem_cellLines hg
    exact List.mem_of_mem_filter hc
  · intro hc
    refine ⟨cells.filter (fun d => d.1 / 64 == c.1 / 64), List.mem_map.mpr ⟨c.1 / 64, ?_, rfl⟩, by simp [hc]⟩
    exact List.mem_dedup.mpr (List.mem_map.mpr ⟨c, hc, rfl⟩)

/-- In cells of rising addresses a line begins with its lowest. -/
theorem cellLines_head {cells g : List (Nat × Byte)} (hs : cells.Pairwise (fun c d => c.1 < d.1)) (h : g ∈ cellLines cells) :
    ∀ e ∈ g, (g.headD (0, 0)).1 ≤ e.1 := by
  obtain ⟨l, hg, hne⟩ := mem_cellLines h
  have hsg : g.Pairwise (fun c d => c.1 < d.1) := hg ▸ hs.filter _
  obtain ⟨c, g, rfl⟩ := List.exists_cons_of_ne_nil hne
  intro e he
  obtain rfl | he := List.mem_cons.mp he
  · exact le_refl _
  · exact Nat.le_of_lt ((List.pairwise_cons.mp hsg).1 e he)

/-- Cell `k` of an access at `va` whose bytes are `f`. -/
def cellOf (va : Nat) (f : Nat → Byte) (k : Nat) : Nat × Byte := (va + k, f k)

/-- A store of the bytes `idx` that the TLB holds, none of them a table word of another's walk: those bytes and no others change. -/
theorem xStore_held {t : TileId} {va la : Nat} {idx : List Nat} {f : Nat → Byte} {u : Machine.State} (hs : idx.Pairwise (· < ·))
    (h : ∀ k ∈ idx, Held u t (va + k) false true (la + k)) (ht : ∀ k ∈ idx, ∀ j ∈ idx, la + k ∉ walkBytes u t (va + j)) :
    ∃ w, xStore t (idx.map (cellOf va f)) u = .retire (nextSeq t w) ∧ OnlyMem u w ∧
      (∀ k ∈ idx, rdByte w (la + k) = f k) ∧ ∀ a, (∀ k ∈ idx, a ≠ la + k) → rdByte w a = rdByte u a := by
  have hcell : ∀ g ∈ cellLines (idx.map (cellOf va f)), ∀ e ∈ g, ∃ k ∈ idx, e = cellOf va f k := by
    intro g hg e he
    obtain ⟨k, hk, rfl⟩ := List.mem_map.mp (mem_flatten_cellLines.mp (List.mem_flatten.mpr ⟨g, hg, he⟩))
    exact ⟨k, hk, rfl⟩
  have hoff : ∀ k, la + ((cellOf va f k).1 - va) = la + k := fun k => by rw [cellOf, Nat.add_sub_cancel_left]
  have hsorted : (idx.map (cellOf va f)).Pairwise (fun c d => c.1 < d.1) :=
    List.pairwise_map.mpr (hs.imp (fun hlt => Nat.add_lt_add_left hlt va))
  obtain ⟨honly, hbytes⟩ := storeLines_held (t := t) (va := va) (la := la) (u := u) (cellLines (idx.map (cellOf va f)))
    (by
      intro g hg
      refine ⟨(mem_cellLines hg).choose_spec.2, cellLines_head hsorted hg, fun e he => ?_⟩
      obtain ⟨k, hk, rfl⟩ := hcell g hg e he
      rw [hoff]
      exact ⟨Nat.le_add_right .., h k hk⟩)
    (by
      intro g hg e he g' hg' e' he'
      obtain ⟨k, hk, rfl⟩ := hcell g hg e he
      obtain ⟨j, hj, rfl⟩ := hcell g' hg' e' he'
      rw [hoff]
      exact ht k hk j hj)
  have hfold : ∀ a, rdByte ((cellLines (idx.map (cellOf va f))).foldl (fun s g => storeLine t g s) u) a =
      (cellLines (idx.map (cellOf va f))).flatten.foldl (fun b c => if a = la + (c.1 - va) then c.2 else b) (rdByte u a) :=
    fun a => by rw [hbytes a, List.foldl_flatten]
  have hmem : ∀ c ∈ (cellLines (idx.map (cellOf va f))).flatten, ∃ k ∈ idx, c = cellOf va f k := by
    intro c hc
    obtain ⟨g, hg, hcg⟩ := List.mem_flatten.mp hc
    exact hcell g hg c hcg
  refine ⟨_, xStore_eq .., honly, fun k hk => ?_, fun a ha => ?_⟩
  · rw [hfold]
    refine foldl_agreeing (fun c hc heq => ?_) ⟨cellOf va f k, ?_, (hoff k).symm⟩ _
    · obtain ⟨j, -, rfl⟩ := hmem c hc
      rw [hoff, Nat.add_left_cancel_iff] at heq
      rw [heq, cellOf]
    · exact mem_flatten_cellLines.mpr (List.mem_map_of_mem hk)
  · rw [hfold]
    refine foldl_unmet (fun c hc => ?_) _
    obtain ⟨k, hk, rfl⟩ := hmem c hc
    rw [hoff]
    exact ha k hk

/-- The bytes that the active lanes of an access name, lane by lane. -/
theorem mem_activeBytes {u : Machine.State} {t : TileId} {pg : PReg} {esz k : Nat} (he : 0 < esz) :
    k ∈ activeBytes (activeLanes u t pg) esz ↔ ∃ i j, i < 64 ∧ j < esz ∧ LaneActive u t pg i ∧ k = esz * i + j := by
  rw [activeBytes, List.mem_filter, List.mem_range]
  constructor
  · rintro ⟨hk, hact⟩
    have hi : k / esz < 64 := (Nat.div_lt_iff_lt_mul he).mpr hk
    rw [activeLanes_bit u t pg _ hi] at hact
    exact ⟨k / esz, k % esz, hi, Nat.mod_lt _ he, hact, (Nat.div_add_mod k esz).symm⟩
  · rintro ⟨i, j, hi, hj, hact, rfl⟩
    have hdiv : (esz * i + j) / esz = i := by rw [Nat.mul_add_div he, Nat.div_eq_of_lt hj, Nat.add_zero]
    rw [hdiv, activeLanes_bit u t pg _ hi]
    exact ⟨(Nat.div_lt_iff_lt_mul he).mp (hdiv.trans_lt hi), hact⟩

/-- Byte `j` of lane `i` of a V register. -/
theorem laneByte_eq (v : VWord) (i j : Nat) :
    BitVec.ofNat 8 (lane v i / 256 ^ j) = (vlane v i).extractLsb' (8 * j) 8 := by
  have hpow : (256 : Nat) ^ j = 2 ^ (8 * j) := by rw [Nat.pow_mul]
  apply BitVec.eq_of_toNat_eq
  rw [BitVec.toNat_ofNat, BitVec.extractLsb'_toNat, vlane, BitVec.extractLsb'_toNat, lane, bits, hpow, Nat.shiftRight_eq_div_pow _ (8 * j)]

/-- The byte that a vector store of `esz` bytes a lane puts at offset `k`. -/
def vecByte (v : VWord) (esz k : Nat) : Byte := BitVec.ofNat 8 (lane v (k / esz) / 256 ^ (k % esz))

section
variable {t : TileId} {pg : PReg} {vd : VReg} {rs1 : SReg} {imm : BitVec 10} {s : Machine.State} {esz : Nat}

theorem vStore_issued (hi : Issues s t 4) : vStore t pg vd rs1 imm esz s = .next (xFinish t 4
    (xStore t ((activeBytes (activeLanes (fetched s t 4) t pg) esz).map
      (cellOf (vectorAddr (fetched s t 4) t rs1 imm 64) (vecByte (rdV (fetched s t 4) t vd) esz))) (fetched s t 4))) :=
  xRun_runs _ hi

/-- A vector store whose active lanes' bytes the TLB holds. -/
theorem vStore_result {la : Nat} (he : 0 < esz) (hi : Issues s t 4)
    (h : ∀ i j, i < 64 → j < esz → LaneActive (fetched s t 4) t pg i →
      Held (fetched s t 4) t (vectorAddr (fetched s t 4) t rs1 imm 64 + (esz * i + j)) false true (la + (esz * i + j)))
    (hwalk : ∀ i j k l, i < 64 → j < esz → LaneActive (fetched s t 4) t pg i → k < 64 → l < esz → LaneActive (fetched s t 4) t pg k →
      la + (esz * i + j) ∉ walkBytes (fetched s t 4) t (vectorAddr (fetched s t 4) t rs1 imm 64 + (esz * k + l))) :
    ∃ v w, vStore t pg vd rs1 imm esz s = .next v ∧ OnlyMem (fetched s t 4) w ∧
      (∀ i j, i < 64 → j < esz → LaneActive (fetched s t 4) t pg i →
        rdByte w (la + (esz * i + j)) = (vlane (rdV (fetched s t 4) t vd) i).extractLsb' (8 * j) 8) ∧
      (∀ a, (∀ i j, i < 64 → j < esz → LaneActive (fetched s t 4) t pg i → a ≠ la + (esz * i + j)) →
        rdByte w a = rdByte (fetched s t 4) a) ∧
      XRetired t (xPc (fetched s t 4) t + 4)
        { ((fetched s t 4).tile t).x with seq := ((fetched s t 4).tile t).x.seq + 1 } w v := by
  have hsorted : (activeBytes (activeLanes (fetched s t 4) t pg) esz).Pairwise (· < ·) := List.pairwise_lt_range.filter _
  obtain ⟨w, hstore, honly, hbytes, hkept⟩ := xStore_held (t := t) (la := la) (va := vectorAddr (fetched s t 4) t rs1 imm 64)
    (f := vecByte (rdV (fetched s t 4) t vd) esz) hsorted
    (by
      intro k hk
      obtain ⟨i, j, hi, hj, hact, rfl⟩ := (mem_activeBytes he).mp hk
      exact h i j hi hj hact)
    (by
      intro k hk m hm
      obtain ⟨i, j, hi, hj, hact, rfl⟩ := (mem_activeBytes he).mp hk
      obtain ⟨i', j', hi', hj', hact', rfl⟩ := (mem_activeBytes he).mp hm
      exact hwalk i j i' j' hi hj hact hi' hj' hact')
  refine ⟨_, w, (vStore_issued hi).trans (by rw [hstore]), honly, fun i j hi hj hact => ?_, fun a ha => ?_, retired_write 4 honly⟩
  · have hdiv : (esz * i + j) / esz = i := by rw [Nat.mul_add_div he, Nat.div_eq_of_lt hj, Nat.add_zero]
    have hmod : (esz * i + j) % esz = j := by rw [Nat.mul_add_mod, Nat.mod_eq_of_lt hj]
    rw [hbytes _ ((mem_activeBytes he).mpr ⟨i, j, hi, hj, hact, rfl⟩), vecByte, hdiv, hmod, laneByte_eq]
  · apply hkept
    intro k hk
    obtain ⟨i, j, hi, hj, hact, rfl⟩ := (mem_activeBytes he).mp hk
    exact ha i j hi hj hact

end

theorem vectorStores_claim : Claims.VectorStores := by
  intro t pg vd rs1 imm s la hi p hp
  simp only [vstoreTable, List.mem_cons, List.not_mem_nil, or_false] at hp
  obtain rfl | rfl | rfl := hp
  all_goals exact vStore_result (by decide) hi

/-- Settles O13: an access whose page is reached without a request writes at once, line by line; atomic adds answer what their bytes
held before. -/
theorem storesAndAtomicsWrite : Obligations.StoresAndAtomicsWrite :=
  ⟨storeResults_claim, vectorStores_claim, atomicResults_claim⟩

end Sys2Proof
end

section
/-! The words of an instruction decode to it: the fields of each layout, what each class of words decodes to, and the encoder's rows
class by class (R105, R106, R154 to R156, Tables 4-2 to 4-11, 6-1, 6-2). A word is a chain of `++`, which the lemmas on `++` match
as long as its width stays the sum of its fields' widths: so `simp` does without `Nat.reduceAdd`. -/

namespace Sys2Proof

open Sys2Proof.Machine BitVec

/-! ### The fields of a word -/

section
variable (cls : BitVec 5) (sub fn da db dc : BitVec 4) (pg : BitVec 3) (rs rs1 rs2 rd rt : BitVec 5) (imm11 : BitVec 11)
  (imm12 : BitVec 12) (obj : BitVec 6) (imm32 : BitVec 32)

@[simp] theorem form_eR : (eR cls sub pg fn rs2 rs1 rd).getLsbD 0 = false := by rw [eR, getLsbD_append]; rfl

@[simp] theorem form_eI : (eI cls imm12 fn rs1 rd).getLsbD 0 = false := by rw [eI, getLsbD_append]; rfl

@[simp] theorem form_eY : (eY cls imm11 rs obj fn).getLsbD 0 = false := by rw [eY, getLsbD_append]; rfl

@[simp] theorem form_eW : (eW cls imm32 rt rs dc db da fn).1.getLsbD 0 = true := by rw [eW, getLsbD_append]; rfl

@[simp] theorem class_eR : (eR cls sub pg fn rs2 rs1 rd).extractLsb' 1 5 = cls := by
  simp [eR, -Nat.reduceAdd, extractLsb'_append_eq_of_le, extractLsb'_append_eq_of_add_le]

@[simp] theorem class_eI : (eI cls imm12 fn rs1 rd).extractLsb' 1 5 = cls := by
  simp [eI, -Nat.reduceAdd, extractLsb'_append_eq_of_le, extractLsb'_append_eq_of_add_le]

@[simp] theorem class_eY : (eY cls imm11 rs obj fn).extractLsb' 1 5 = cls := by
  simp [eY, -Nat.reduceAdd, extractLsb'_append_eq_of_le, extractLsb'_append_eq_of_add_le]

@[simp] theorem class_eW : (eW cls imm32 rt rs dc db da fn).1.extractLsb' 1 5 = cls := by
  simp [eW, -Nat.reduceAdd, extractLsb'_append_eq_of_le, extractLsb'_append_eq_of_add_le]

@[simp] theorem rForm_eR : rForm (eR cls sub pg fn rs2 rs1 rd) = ⟨sub, pg, fn, rs2, rs1, rd⟩ := by
  simp [rForm, eR, -Nat.reduceAdd, extractLsb'_append_eq_of_le, extractLsb'_append_eq_of_add_le]

@[simp] theorem iForm_eI : iForm (eI cls imm12 fn rs1 rd) = ⟨imm12, fn, rs1, rd⟩ := by
  simp [iForm, eI, -Nat.reduceAdd, extractLsb'_append_eq_of_le, extractLsb'_append_eq_of_add_le]

@[simp] theorem yForm_eY : yForm (eY cls imm11 rs obj fn) = ⟨imm11, rs, obj, fn⟩ := by
  simp [yForm, eY, -Nat.reduceAdd, extractLsb'_append_eq_of_le, extractLsb'_append_eq_of_add_le]

@[simp] theorem wForm_eW : wForm (eW cls imm32 rt rs dc db da fn).1 (eW cls imm32 rt rs dc db da fn).2 =
    ⟨imm32, rt, rs, dc, db, da, fn⟩ := by
  simp [wForm, eW, -Nat.reduceAdd, extractLsb'_append_eq_of_le, extractLsb'_append_eq_of_add_le]

end

/-! ### Fields in wider fields -/

/-- A field put into a wider one stays below its own bound. -/
theorem setWidth_lt {n m : Nat} (x : BitVec n) (h : n ≤ m) : (x.setWidth m).toNat < 2 ^ n := by
  rw [toNat_setWidth_of_le h]; exact x.isLt

/-- A field put into a wider one comes back. -/
theorem setWidth_back {n m : Nat} (x : BitVec n) (h : n ≤ m) : (x.setWidth m).setWidth n = x := by
  rw [setWidth_setWidth_of_le _ h, setWidth_eq]

@[simp] theorem vField_setWidth (v : VReg) : vField (v.setWidth 5) = some v :=
  (if_pos (setWidth_lt v (by decide))).trans (congrArg some (setWidth_back v (by decide)))

@[simp] theorem pField_setWidth (p : PReg) : pField (p.setWidth 5) = some p :=
  (if_pos (setWidth_lt p (by decide))).trans (congrArg some (setWidth_back p (by decide)))

/-- A word whose bits from `k` on are zero. -/
theorem toNat_lt_of_high {k : Nat} {x : BitVec 32} (h : x.extractLsb' k (32 - k) = 0) (hk : k ≤ 32) : x.toNat < 2 ^ k := by
  have hx : x.toNat >>> k % 2 ^ (32 - k) = 0 := by rw [← extractLsb'_toNat, h]; rfl
  rw [Nat.shiftRight_eq_div_pow, Nat.mod_eq_of_lt] at hx
  · exact (Nat.div_eq_zero_iff_lt (Nat.two_pow_pos k)).mp hx
  · rw [Nat.div_lt_iff_lt_mul (Nat.two_pow_pos k), ← Nat.pow_add, Nat.sub_add_cancel hk]
    exact x.isLt

/-! ### The fields of IMM32 -/

section
variable (e : EngImm) (grp : GroupId) (link : PairIdx) (linkEn : Bool) (seg : BitVec 14) (r : RegionId)

@[simp] theorem engImm_immEng : engImm (immEng e) = e := by
  simp [engImm, immEng, -Nat.reduceAdd, extractLsb'_append_eq_of_le, extractLsb'_append_eq_of_add_le, getLsbD_append,
    -getLsbD_eq_getElem]

theorem immEng_lt : (immEng e).toNat < 32768 := by
  refine toNat_lt_of_high (k := 15) ?_ (by decide)
  simp [immEng, -Nat.reduceAdd, extractLsb'_append_eq_of_le]

theorem immEng_lt_gme (h : (!e.ta && !e.tb) = true) : (immEng e).toNat < 8192 := by
  obtain ⟨hta, htb⟩ : e.ta = false ∧ e.tb = false := by simpa using h
  refine toNat_lt_of_high (k := 13) ?_ (by decide)
  rw [immEng, hta, htb]
  simp [-Nat.reduceAdd, extractLsb'_append_eq_of_le]

theorem immColl_fields : (immColl grp link linkEn seg).extractLsb' 0 12 = grp ∧ (immColl grp link linkEn seg).extractLsb' 12 5 = link ∧
    (immColl grp link linkEn seg)[17] = linkEn ∧ (immColl grp link linkEn seg).extractLsb' 18 14 = seg := by
  rw [← getLsbD_eq_getElem]
  simp [immColl, -Nat.reduceAdd, extractLsb'_append_eq_of_le, extractLsb'_append_eq_of_add_le, getLsbD_append, -getLsbD_eq_getElem]

theorem immUpd_fields : (immUpd link linkEn).extractLsb' 0 5 = link ∧ (immUpd link linkEn)[5] = linkEn ∧
    (immUpd link linkEn).toNat < 64 := by
  rw [← getLsbD_eq_getElem]
  refine ⟨?_, ?_, toNat_lt_of_high (k := 6) ?_ (by decide)⟩
  all_goals simp [immUpd, -Nat.reduceAdd, extractLsb'_append_eq_of_le, extractLsb'_append_eq_of_add_le, getLsbD_append,
    -getLsbD_eq_getElem]

theorem immAcq_fields : (immAcq r link).extractLsb' 0 16 = r ∧ (immAcq r link).extractLsb' 16 5 = link ∧
    (immAcq r link).extractLsb' 21 11 = 1 := by
  simp [immAcq, -Nat.reduceAdd, extractLsb'_append_eq_of_le, extractLsb'_append_eq_of_add_le]

end

/-! ### The layouts of one class (Tables 4-2, 4-3, 6-1) -/

section
variable (imm10 : BitVec 10) (off13 : BitVec 13) (off21 : BitVec 21) (pg fn3 : BitVec 3) (rs rs1 rs2 rd rt : BitVec 5) (treg : Bool)
  (tile : BitVec 11) (count : BitVec 16) (sem opc : BitVec 6) (imm14 : BitVec 14) (gb ga gd : BitVec 4)

@[simp] theorem form_eB : (eB off13 fn3 rs2 rs1).getLsbD 0 = false := by rw [eB, getLsbD_append]; rfl

@[simp] theorem form_eJ : (eJ off21 rd).getLsbD 0 = false := by rw [eJ, getLsbD_append]; rfl

@[simp] theorem form_eM : (eM imm10 pg fn3 rs1 rd).getLsbD 0 = false := by rw [eM, getLsbD_append]; rfl

@[simp] theorem form_eWR : (eWR treg tile count rt rs sem).1.getLsbD 0 = true := by rw [eWR, getLsbD_append]; rfl

@[simp] theorem class_eB : (eB off13 fn3 rs2 rs1).extractLsb' 1 5 = 0x05#5 := by
  simp [eB, -Nat.reduceAdd, extractLsb'_append_eq_of_le, extractLsb'_append_eq_of_add_le]

@[simp] theorem class_eJ : (eJ off21 rd).extractLsb' 1 5 = 0x06#5 := by
  simp [eJ, -Nat.reduceAdd, extractLsb'_append_eq_of_le, extractLsb'_append_eq_of_add_le]

@[simp] theorem class_eM : (eM imm10 pg fn3 rs1 rd).extractLsb' 1 5 = 0x0A#5 := by
  simp [eM, -Nat.reduceAdd, extractLsb'_append_eq_of_le, extractLsb'_append_eq_of_add_le]

@[simp] theorem class_eWR : (eWR treg tile count rt rs sem).1.extractLsb' 1 5 = 0x04#5 := by
  simp [eWR, -Nat.reduceAdd, extractLsb'_append_eq_of_le, extractLsb'_append_eq_of_add_le]

@[simp] theorem bForm_eB : bForm (eB off13 fn3 rs2 rs1) = ⟨off13, fn3, rs2, rs1⟩ := by
  simp [bForm, eB, -Nat.reduceAdd, extractLsb'_append_eq_of_le, extractLsb'_append_eq_of_add_le]

theorem fields_eJ : (eJ off21 rd).extractLsb' 6 5 = rd ∧ (eJ off21 rd).extractLsb' 11 21 = off21 := by
  simp [eJ, -Nat.reduceAdd, extractLsb'_append_eq_of_le, extractLsb'_append_eq_of_add_le]

@[simp] theorem mForm_eM : mForm (eM imm10 pg fn3 rs1 rd) = ⟨imm10, pg, fn3, rs1, rd⟩ := by
  simp [mForm, eM, -Nat.reduceAdd, extractLsb'_append_eq_of_le, extractLsb'_append_eq_of_add_le]

@[simp] theorem wrForm_eWR : wrForm (eWR treg tile count rt rs sem).1 (eWR treg tile count rt rs sem).2 =
    ⟨0, ofBool treg, tile, count, rt, rs, 0, sem, 0⟩ := by
  simp [wrForm, eWR, -Nat.reduceAdd, extractLsb'_append_eq_of_le, extractLsb'_append_eq_of_add_le]

@[simp] theorem opcode_eF : (eF imm14 gb ga gd opc).extractLsb' 0 6 = opc := by
  simp [eF, -Nat.reduceAdd, extractLsb'_append_eq_of_add_le]

@[simp] theorem fForm_eF : fForm (eF imm14 gb ga gd opc) = ⟨imm14, gb, ga, gd⟩ := by
  simp [fForm, eF, -Nat.reduceAdd, extractLsb'_append_eq_of_le, extractLsb'_append_eq_of_add_le]

end

/-! ### What a class of words decodes to -/

section
variable (t : TileId) (rank : Nat) (sub fn da db dc : BitVec 4) (pg : BitVec 3) (rs rs1 rs2 rd rt : BitVec 5) (imm11 : BitVec 11)
  (imm12 : BitVec 12) (obj : BitVec 6) (imm32 : BitVec 32) (w : W32)

theorem xDecode_sys : xDecode t rank (eR 0x00 sub pg fn rs2 rs1 rd) w = decSys t ⟨sub, pg, fn, rs2, rs1, rd⟩ := by
  simp only [xDecode, form_eR, class_eR, rForm_eR]
  rfl

theorem xDecode_alu : xDecode t rank (eR 0x01 sub pg fn rs2 rs1 rd) w = decAlu t ⟨sub, pg, fn, rs2, rs1, rd⟩ := by
  simp only [xDecode, form_eR, class_eR, rForm_eR]
  rfl

theorem xDecode_vop : xDecode t rank (eR 0x09 sub pg fn rs2 rs1 rd) w = decVop t ⟨sub, pg, fn, rs2, rs1, rd⟩ := by
  simp only [xDecode, form_eR, class_eR, rForm_eR]
  rfl

theorem xDecode_pred : xDecode t rank (eR 0x0B sub pg fn rs2 rs1 rd) w = decPred t ⟨sub, pg, fn, rs2, rs1, rd⟩ := by
  simp only [xDecode, form_eR, class_eR, rForm_eR]
  rfl

theorem xDecode_atom : xDecode t rank (eR 0x10 sub pg fn rs2 rs1 rd) w = decAtom t ⟨sub, pg, fn, rs2, rs1, rd⟩ := by
  simp only [xDecode, form_eR, class_eR, rForm_eR]
  rfl

theorem xDecode_alui : xDecode t rank (eI 0x02 imm12 fn rs1 rd) w = decAlui t ⟨imm12, fn, rs1, rd⟩ := by
  simp only [xDecode, form_eI, class_eI, iForm_eI]
  rfl

theorem xDecode_ld : xDecode t rank (eI 0x03 imm12 fn rs1 rd) w = decLd t ⟨imm12, fn, rs1, rd⟩ := by
  simp only [xDecode, form_eI, class_eI, iForm_eI]
  rfl

theorem xDecode_st : xDecode t rank (eI 0x04 imm12 fn rs1 rd) w = decSt t ⟨imm12, fn, rs1, rd⟩ := by
  simp only [xDecode, form_eI, class_eI, iForm_eI]
  rfl

theorem xDecode_csr : xDecode t rank (eI 0x08 imm12 fn rs1 rd) w = decCsr t ⟨imm12, fn, rs1, rd⟩ := by
  simp only [xDecode, form_eI, class_eI, iForm_eI]
  rfl

theorem xDecode_sem : xDecode t rank (eY 0x0C imm11 rs obj fn) w = decSem t ⟨imm11, rs, obj, fn⟩ := by
  simp only [xDecode, form_eY, class_eY, yForm_eY]
  rfl

theorem xDecode_win : xDecode t rank (eY 0x0D imm11 rs obj fn) w = decWin t ⟨imm11, rs, obj, fn⟩ := by
  simp only [xDecode, form_eY, class_eY, yForm_eY]
  rfl

theorem xDecode_strm : xDecode t rank (eY 0x0E imm11 rs obj fn) w = decStrm t ⟨imm11, rs, obj, fn⟩ := by
  simp only [xDecode, form_eY, class_eY, yForm_eY]
  rfl

theorem xDecode_eng : xDecode t rank (eY 0x0F imm11 rs obj fn) w = decEng t ⟨imm11, rs, obj, fn⟩ := by
  simp only [xDecode, form_eY, class_eY, yForm_eY]
  rfl

theorem xDecode_hint : xDecode t rank (eY 0x11 imm11 rs obj fn) w = decHint t ⟨imm11, rs, obj, fn⟩ := by
  simp only [xDecode, form_eY, class_eY, yForm_eY]
  rfl

theorem xDecode_limm : xDecode t rank (eW 0x00 imm32 rt rs dc db da fn).1 (eW 0x00 imm32 rt rs dc db da fn).2 =
    decLimm t ⟨imm32, rt, rs, dc, db, da, fn⟩ := by
  simp only [xDecode, form_eW, class_eW, wForm_eW]
  rfl

theorem xDecode_desc : xDecode t rank (eW 0x01 imm32 rt rs dc db da fn).1 (eW 0x01 imm32 rt rs dc db da fn).2 =
    decDesc t ⟨imm32, rt, rs, dc, db, da, fn⟩ := by
  simp only [xDecode, form_eW, class_eW, wForm_eW]
  rfl

theorem xDecode_ce : xDecode t rank (eW 0x02 imm32 rt rs dc db da fn).1 (eW 0x02 imm32 rt rs dc db da fn).2 =
    decCe t ⟨imm32, rt, rs, dc, db, da, fn⟩ := by
  simp only [xDecode, form_eW, class_eW, wForm_eW]
  rfl

theorem xDecode_gme : xDecode t rank (eW 0x03 imm32 rt rs dc db da fn).1 (eW 0x03 imm32 rt rs dc db da fn).2 =
    decGme t rank ⟨imm32, rt, rs, dc, db, da, fn⟩ := by
  simp only [xDecode, form_eW, class_eW, wForm_eW]
  rfl

theorem xDecode_coll : xDecode t rank (eW 0x05 imm32 rt rs dc db da fn).1 (eW 0x05 imm32 rt rs dc db da fn).2 =
    decColl t ⟨imm32, rt, rs, dc, db, da, fn⟩ := by
  simp only [xDecode, form_eW, class_eW, wForm_eW]
  rfl

theorem xDecode_upd : xDecode t rank (eW 0x06 imm32 rt rs dc db da fn).1 (eW 0x06 imm32 rt rs dc db da fn).2 =
    decUpd t ⟨imm32, rt, rs, dc, db, da, fn⟩ := by
  simp only [xDecode, form_eW, class_eW, wForm_eW]
  rfl

theorem xDecode_br (off : BitVec 13) (cond : BitVec 3) : xDecode t rank (eB off cond rs2 rs1) w = decBr t ⟨off, cond, rs2, rs1⟩ := by
  simp only [xDecode, form_eB, class_eB, bForm_eB]
  rfl

theorem xDecode_jal (off : BitVec 21) : xDecode t rank (eJ off rd) w = some (.xJal t rd off) := by
  simp only [xDecode, form_eJ, class_eJ, fields_eJ off rd]
  rfl

theorem xDecode_jalr : xDecode t rank (eI 0x07 imm12 0 rs1 rd) w = some (.xJalr t rd rs1 imm12) := by
  simp only [xDecode, form_eI, class_eI, iForm_eI]
  rfl

theorem xDecode_vmem (imm : BitVec 10) (fn3 : BitVec 3) : xDecode t rank (eM imm pg fn3 rs1 rd) w = decVmem t ⟨imm, pg, fn3, rs1, rd⟩ := by
  simp only [xDecode, form_eM, class_eM, mForm_eM]
  rfl

theorem xDecode_rpost (treg : Bool) (tile : BitVec 11) (count : BitVec 16) (n : BitVec 6) :
    xDecode t rank (eWR treg tile count rt rs n).1 (eWR treg tile count rt rs n).2 =
      decRpost t ⟨0, ofBool treg, tile, count, rt, rs, 0, n, 0⟩ := by
  simp only [xDecode, form_eWR, class_eWR, wrForm_eWR]
  rfl

end

/-! ### The encoder's rows -/

/-- The field of RPOST that does not name the target is zero in a well-formed command (R117). -/
theorem decRpost_wf {t : TileId} {rs rt : SReg} {treg : Bool} {tile : TileId} {count : BitVec 16} {n : SemIdx}
    (h : (Instr.xRpost t rs rt treg tile count n).wf = true) :
    decRpost t ⟨0, ofBool treg, tile, count, rt, rs, 0, n, 0⟩ = some (.xRpost t rs rt treg tile count n) := by
  cases treg with
  | false => simpa [decRpost, whenZ, Instr.wf] using h
  | true => simpa [decRpost, whenZ, Instr.wf] using h

theorem xDecode_xEncode (i : Instr) (w : W32 × W32) (hwf : i.wf = true) (h : xEncode i = some w) :
    ∃ t rank, xDecode t rank w.1 w.2 = some i := by
  cases i with
  | xNop t | xEnd t | xFence t | xFenceE t | xIflush t | xBrk t =>
    cases h; exact ⟨t, 0, (xDecode_sys ..).trans rfl⟩
  | xAdd t rd rs1 rs2 | xSub t rd rs1 rs2 | xAnd t rd rs1 rs2 | xOr t rd rs1 rs2 | xXor t rd rs1 rs2 | xSll t rd rs1 rs2
  | xSrl t rd rs1 rs2 | xSra t rd rs1 rs2 | xMul t rd rs1 rs2 | xMulhu t rd rs1 rs2 | xSlt t rd rs1 rs2 | xSltu t rd rs1 rs2
  | xMin t rd rs1 rs2 | xMax t rd rs1 rs2 | xMinu t rd rs1 rs2 | xMaxu t rd rs1 rs2 =>
    cases h; exact ⟨t, 0, (xDecode_alu ..).trans rfl⟩
  | xLb t rd rs1 imm | xLh t rd rs1 imm | xLw t rd rs1 imm | xLd t rd rs1 imm | xLbu t rd rs1 imm | xLhu t rd rs1 imm
  | xLwu t rd rs1 imm =>
    cases h; exact ⟨t, 0, (xDecode_ld ..).trans rfl⟩
  | xSb t rs1 rs2 imm | xSh t rs1 rs2 imm | xSw t rs1 rs2 imm | xSd t rs1 rs2 imm =>
    cases h; exact ⟨t, 0, (xDecode_st ..).trans rfl⟩
  | xCsrrW t rd rs1 imm | xCsrwW t rd rs1 imm | xCsrrD t rd rs1 imm | xCsrwD t rd rs1 imm =>
    cases h; exact ⟨t, 0, (xDecode_csr ..).trans rfl⟩
  | xAaddW t rs1 rs2 | xAaddD t rs1 rs2 | xAaddrW t rd rs1 rs2 | xAaddrD t rd rs1 rs2 =>
    cases h; exact ⟨t, 0, (xDecode_atom ..).trans rfl⟩
  | xSacq t rs imm n | xSpost t rs imm n | xSset t rs imm n | xSrd t rs n | xStry t rs imm n =>
    cases h; exact ⟨t, 0, (xDecode_sem ..).trans rfl⟩
  | xScommit t rs imm sl | xScancel t rs imm sl | xSstat t rs sl | xSwait t rs imm sl =>
    cases h; exact ⟨t, 0, (xDecode_strm ..).trans rfl⟩
  | xLi t rt imm | xLih t rt imm | xAddi32 t rt rs imm =>
    cases h; exact ⟨t, 0, (xDecode_limm ..).trans rfl⟩
  | vfadd t pg vd va vb | vfsub t pg vd va vb | vfmul t pg vd va vb | vfma t pg vd va vb | vfmin t pg vd va vb
  | vfmax t pg vd va vb | vfabs t pg vd va | vfneg t pg vd va | vfrcp t pg vd va | vfrsq t pg vd va | vfexp2 t pg vd va
  | vflog2 t pg vd va =>
    cases h; exact ⟨t, 0, (xDecode_vop ..).trans (by simp [decVop, decVop0, whenZ])⟩
  | vadd t pg vd va vb | vsub t pg vd va vb | vmul t pg vd va vb | vand t pg vd va vb | vor t pg vd va vb | vxor t pg vd va vb
  | vsll t pg vd va vb | vsrl t pg vd va vb | vsra t pg vd va vb | vmin t pg vd va vb | vmax t pg vd va vb
  | vminu t pg vd va vb | vmaxu t pg vd va vb =>
    cases h; exact ⟨t, 0, (xDecode_vop ..).trans (by simp [decVop, decVop1])⟩
  | vmov t pg vd va | vbcast t pg vd rs | vext t pg rd va rs | vins t pg vd rs1 rs2 | vshuf t pg vd va vb | viota t pg vd
  | vsel t pg vd va vb =>
    cases h; exact ⟨t, 0, (xDecode_vop ..).trans (by simp [decVop, decVop2, whenZ])⟩
  | vrsum t pg rd va | vrmax t pg rd va | vrmin t pg rd va | vradd t pg rd va =>
    cases h; exact ⟨t, 0, (xDecode_vop ..).trans (by simp [decVop, decVop3, whenZ])⟩
  | vcvtF2i t pg vd va | vcvtI2f t pg vd va | vcvtF2bf16 t pg vd va | vcvtBf162f t pg vd va | vcvtF2fp16 t pg vd va
  | vcvtFp162f t pg vd va | vcvtF2e4m3 t pg vd va | vcvtE4m32f t pg vd va | vcvtF2e5m2 t pg vd va | vcvtE5m22f t pg vd va =>
    cases h; exact ⟨t, 0, (xDecode_vop ..).trans (by simp [decVop, decVop4, whenZ])⟩
  | vfeq t pg pd va vb | vflt t pg pd va vb | vfle t pg pd va vb | vieq t pg pd va vb | vilt t pg pd va vb | vile t pg pd va vb
  | viltu t pg pd va vb | pand t pg pd pa pb | por t pg pd pa pb | pxor t pg pd pa pb | pnot t pg pd pa | pfirst t pg pd rs
  | pcnt t pg rd pa =>
    cases h; exact ⟨t, 0, (xDecode_pred ..).trans (by simp [decPred, whenZ])⟩
  | xAddi t rd rs1 imm | xAndi t rd rs1 imm | xOri t rd rs1 imm | xXori t rd rs1 imm | xSlti t rd rs1 imm | xSltiu t rd rs1 imm
  =>
    cases h; exact ⟨t, 0, (xDecode_alui ..).trans rfl⟩
  | xSlli t rd rs1 sh | xSrli t rd rs1 sh | xSrai t rd rs1 sh =>
    cases h; exact ⟨t, 0, (xDecode_alui ..).trans (by simp [decAlui, whenZ]; omega)⟩
  | xBeq t rs1 rs2 off | xBne t rs1 rs2 off | xBlt t rs1 rs2 off | xBge t rs1 rs2 off | xBltu t rs1 rs2 off
  | xBgeu t rs1 rs2 off =>
    cases h; exact ⟨t, 0, (xDecode_br ..).trans rfl⟩
  | xBpany t p off | xBpnone t p off =>
    cases h; exact ⟨t, 0, (xDecode_br ..).trans (by simp [decBr])⟩
  | xJal t rd off =>
    cases h; exact ⟨t, 0, xDecode_jal ..⟩
  | xJalr t rd rs1 imm =>
    cases h; exact ⟨t, 0, xDecode_jalr ..⟩
  | vld t pg vd rs1 imm | vst t pg vd rs1 imm | vldH t pg vd rs1 imm | vstH t pg vd rs1 imm | vldB t pg vd rs1 imm
  | vstB t pg vd rs1 imm | vldBc t pg vd rs1 imm =>
    cases h; exact ⟨t, 0, (xDecode_vmem ..).trans (by simp [decVmem])⟩
  | xWopen t rs w | xWclose t w | xWwait t rs imm w | xWcnt t rs w =>
    cases h; exact ⟨t, 0, (xDecode_win ..).trans (by simp [decWin, whenZ]; omega)⟩
  | xEwaitCe t n | xEwaitGme t n =>
    cases h; exact ⟨t, 0, (xDecode_eng ..).trans (by simp [decEng, whenZ]; omega)⟩
  | xEstat t rs =>
    cases h; exact ⟨t, 0, (xDecode_eng ..).trans rfl⟩
  | xLhint t cls =>
    cases h; exact ⟨t, 0, (xDecode_hint ..).trans (by simp [decHint, whenZ]; omega)⟩
  | xDins t da rt fld | xDext t da rt fld =>
    cases h; exact ⟨t, 0, (xDecode_desc ..).trans (by simp [decDesc, whenZ]; omega)⟩
  | xDld t da rs imm | xDst t da rs imm | xDmov t da db =>
    cases h; exact ⟨t, 0, (xDecode_desc ..).trans rfl⟩
  | ceMm t da db dc imm | ceGrouped t da rs rt imm =>
    cases h; exact ⟨t, 0, (xDecode_ce ..).trans (by simp [decCe, whenZ, immEng_lt])⟩
  | gmeGather t da db dc imm | gmeSegred t da db dc imm | gmeMerge t da db dc imm | gmeScatter t da db dc imm
  | topk t da db dc imm =>
    cases h; exact ⟨t, 0, (xDecode_gme ..).trans (by simp [decGme, immEng_lt_gme imm hwf])⟩
  | bucket t da db dc imm =>
    cases h; exact ⟨t, 1, (xDecode_gme ..).trans (by simp [decGme, immEng_lt_gme imm hwf])⟩
  | cut t da db dc imm =>
    cases h; exact ⟨t, 2, (xDecode_gme ..).trans (by simp [decGme, immEng_lt_gme imm hwf])⟩
  | place t da db dc imm =>
    cases h; exact ⟨t, 3, (xDecode_gme ..).trans (by simp [decGme, immEng_lt_gme imm hwf])⟩
  | join t da db dc imm =>
    cases h; exact ⟨t, 4, (xDecode_gme ..).trans (by simp [decGme, immEng_lt_gme imm hwf])⟩
  | xRpost t rs rt treg tile count n =>
    cases h; exact ⟨t, 0, (xDecode_rpost ..).trans (decRpost_wf hwf)⟩
  | collSeg t da dc rs grp link linkEn seg | collNull t rs grp link linkEn seg =>
    cases h; exact ⟨t, 0, (xDecode_coll ..).trans (by simp [decColl, whenZ, immColl_fields])⟩
  | updPost t da link linkEn | rgnAcq t rs r link =>
    cases h; exact ⟨t, 0, (xDecode_upd ..).trans (by simp [decUpd, whenZ, immUpd_fields, immAcq_fields])⟩
  | rgnRel t rs r =>
    cases h; exact ⟨t, 0, (xDecode_upd ..).trans (by simp [decUpd, whenZ]; omega)⟩
  | _ => cases h

/-- IMM14 of an F-core semaphore command: the count over the semaphore, the count zero where a register gives it (R156). -/
theorem semImm_fields {ga : GReg} {cnt : BitVec 8} (n : SemIdx) (h : (ga == 0 || cnt == 0) = true) :
    (ga = 0#4 ∨ (cnt ++ n).toNat < 64) ∧ (cnt ++ n).extractLsb' 6 8 = cnt ∧ (cnt ++ n).setWidth 6 = n := by
  refine ⟨?_, ?_, ?_⟩
  · have hz : ga = 0#4 ∨ cnt = 0#8 := by simpa using h
    refine hz.imp_right fun hc => ?_
    rw [hc, toNat_append]
    simpa using n.isLt
  · rw [extractLsb'_append_eq_of_le (by decide)]
    exact extractLsb'_eq_self
  · exact setWidth_append_eq_right

theorem fDecode_fEncode (i : Instr) (w : W32) (hwf : i.wf = true) (h : fEncode i = some w) : ∃ t, fDecode t w = some i := by
  cases i with
  | fNop t | fEnd t | fAdd t gd ga gb | fSub t gd ga gb | fMul t gd ga gb | fAddi t gd ga imm | fOri t gd ga imm
  | fAndi t gd ga imm | fLd t gd ga imm | fSt t ga gb imm | fBeq t ga gb imm | fBne t ga gb imm | fBlt t ga gb imm
  | fBltu t ga gb imm =>
    cases h; exact ⟨t, by simp [fDecode, whenZ]⟩
  | fSlli t gd ga sh | fSrli t gd ga sh | fSopen t ga sl | fSjoin t sl | fStat t gd sl =>
    cases h; exact ⟨t, by simp [fDecode, whenZ]; omega⟩
  | fSacq t ga cnt n | fSpost t ga cnt n =>
    cases h; exact ⟨t, by simpa [fDecode, whenZ] using semImm_fields n hwf⟩
  | _ => cases h

/-- Settles O6: class by class, a word's fields are those it was built from. -/
theorem decodeOfEncode : Obligations.DecodeOfEncode := by
  unfold Obligations.DecodeOfEncode
  exact ⟨xDecode_xEncode, fDecode_fEncode⟩


/-- Settles O7, word by word. -/
theorem loopWordsDecode : Obligations.LoopWordsDecode := by
  unfold Obligations.LoopWordsDecode
  intro t rank w p hp
  simp only [List.mem_cons, List.not_mem_nil, or_false] at hp
  obtain rfl | rfl | rfl | rfl | rfl | rfl | rfl | rfl | rfl | rfl | rfl := hp
  all_goals
    constructor
    · dsimp only; rfl
    · rfl

end Sys2Proof
end

section
/-! Scalar, immediate and descriptor-register instructions (Tables 4-5 and 4-9). -/

namespace Sys2Proof

open Sys2Proof.Machine

/-! ### The ALU -/

/-- A comparison's word is 1 where it holds. -/
theorem boolWord_decide (p : Prop) [Decidable p] : boolWord (decide p) = if p then 1 else 0 := by simp [boolWord]

theorem ite_slt {n : Nat} {α : Type} (a b : BitVec n) (x y : α) : (if a.slt b then x else y) = if a.toInt < b.toInt then x else y := by
  simp only [BitVec.slt, decide_eq_true_eq]

theorem ite_ult {n : Nat} {α : Type} (a b : BitVec n) (x y : α) : (if a.ult b then x else y) = if a.toNat < b.toNat then x else y := by
  simp only [BitVec.ult, decide_eq_true_eq]

theorem aluResults_claim : Claims.AluResults := by
  intro p hp t rd rs1 rs2 s h
  simp only [aluTable, List.mem_cons, List.not_mem_nil, or_false] at hp
  obtain rfl | rfl | rfl | rfl | rfl | rfl | rfl | rfl | rfl | rfl | rfl | rfl | rfl | rfl | rfl | rfl := hp
  all_goals
    dsimp only
    refine ⟨_, xRun_runs _ h, ?_⟩
  iterate 10 (· exact sResult_retire ..)
  iterate 2 (· rw [← boolWord_decide]; exact sResult_retire ..)
  iterate 2 (· rw [← ite_slt]; exact sResult_retire ..)
  iterate 2 (· rw [← ite_ult]; exact sResult_retire ..)

/-! ### Immediates -/

theorem immediateResults_claim : Claims.ImmediateResults := by
  refine ⟨fun p hp t rd rs1 imm s h => ?_, fun p hp t rd rs1 sh s h => ?_, fun t rt rs imm s h =>
    ⟨⟨_, xRun8_runs _ h, sResult_retire ..⟩, ⟨_, xRun8_runs _ h, ?_⟩, _, xRun8_runs _ h, sResult_retire ..⟩⟩
  · simp only [aluImmTable, List.mem_cons, List.not_mem_nil, or_false] at hp
    obtain rfl | rfl | rfl | rfl | rfl | rfl := hp
    all_goals
      dsimp only
      refine ⟨_, xRun_runs _ h, ?_⟩
    iterate 4 (· exact sResult_retire ..)
    iterate 2 (· rw [← boolWord_decide]; exact sResult_retire ..)
  · simp only [shiftTable, List.mem_cons, List.not_mem_nil, or_false] at hp
    obtain rfl | rfl | rfl := hp
    all_goals exact ⟨_, xRun_runs _ h, sResult_retire ..⟩
  · rw [BitVec.setWidth_eq_extractLsb' (by decide)]
    exact sResult_retire ..

/-! ### Descriptor registers -/

/-- Bit `i` of a descriptor with field `n` replaced. -/
theorem getLsbD_putField (d : DWord) (x : Word) (n : BitVec 3) (i : Nat) :
    (BitVec.ofNat 512 (putBits d.toNat (64 * n.toNat) 64 x.toNat)).getLsbD i =
      if 64 * n.toNat ≤ i ∧ i < 64 * n.toNat + 64 then x.getLsbD (i - 64 * n.toNat) else d.getLsbD i := by
  rw [BitVec.getLsbD_ofNat, putBits_testBit]
  split
  next hi =>
    have hn := n.isLt
    rw [decide_eq_true (by omega), Bool.true_and]
    rfl
  next =>
    rw [← BitVec.getLsbD, Bool.and_eq_right_iff_imp]
    exact fun hd => decide_eq_true (BitVec.lt_of_getLsbD hd)

theorem descriptorRegisters_claim : Claims.DescriptorRegisters := fun _ _ _ _ _ _ h =>
  ⟨⟨_, _, xRun8_runs _ h, dResult_retire .., getLsbD_putField _ _ _⟩, ⟨_, xRun8_runs _ h, sResult_retire ..⟩,
    _, xRun8_runs _ h, dResult_retire ..⟩

/-- Settles O9: an instruction that issues retires with the function its table gives. -/
theorem scalarResults : Obligations.ScalarResults := by
  unfold Obligations.ScalarResults
  exact ⟨aluResults_claim, immediateResults_claim, descriptorRegisters_claim⟩

end Sys2Proof
end

section
/-! Vector instructions lane by lane (Table 4-6, R110, R111, R510). -/

namespace Sys2Proof

open Sys2Proof.Machine

/-! ### Lanes -/

/-- Lane-wise operations retire with the lanes that their function gives. -/
theorem laneResult_of {t : TileId} {pg : PReg} {vd : VReg} {f : Nat → Nat} {g : Nat → W32} {u : Machine.State}
    (hfg : ∀ i, BitVec.ofNat 32 (f i) = g i) :
    LaneResult t pg vd g u (xFinish t 4 (.retire (wrV t vd (lanesOf (rdV u t vd) (activeLanes u t pg) f) u))) := by
  rw [← funext hfg]
  exact laneResult_retire ..

/-- An integer operation on lanes is that operation on their words. -/
theorem ofNat_vInt (f : W32 → W32 → W32) (d : Nat) (a b : VWord) (i : Nat) :
    BitVec.ofNat 32 (vInt f d (lane a i) (lane b i)) = f (vlane a i) (vlane b i) := by
  rw [vInt, BitVec.ofNat_toNat, BitVec.setWidth_eq, ofNat_lane, ofNat_lane]

theorem vectorIntegerResults_claim : Claims.VectorIntegerResults := by
  intro p hp t pg vd va vb s h
  simp only [vecTable3, List.mem_cons, List.not_mem_nil, or_false] at hp
  obtain rfl | rfl | rfl | rfl | rfl | rfl | rfl | rfl | rfl | rfl | rfl | rfl | rfl := hp
  all_goals
    dsimp only
    refine ⟨_, xRun_runs _ h, laneResult_of fun i => (ofNat_vInt ..).trans ?_⟩
  iterate 9 (· rfl)
  iterate 2 (· exact ite_slt ..)
  iterate 2 (· exact ite_ult ..)

theorem vectorFloatResults_claim : Claims.VectorFloatResults := by
  refine ⟨fun p hp t pg vd va vb s h => ?_, fun p hp t pg vd va s h => ?_⟩
  · simp only [vecFloat3, List.mem_cons, List.not_mem_nil, or_false] at hp
    obtain rfl | rfl | rfl | rfl | rfl | rfl := hp
    all_goals exact ⟨_, xRun_runs _ h, laneResult_of fun i => by simp only [lane_toNat]⟩
  · simp only [vecFloat2, List.mem_cons, List.not_mem_nil, or_false] at hp
    obtain rfl | rfl | rfl | rfl | rfl | rfl | rfl | rfl | rfl | rfl | rfl | rfl | rfl | rfl | rfl | rfl := hp
    all_goals exact ⟨_, xRun_runs _ h, laneResult_of fun i => by simp only [lane_toNat]⟩

/-! ### Lane moves -/

/-- The mask of VINS: the lane it names, where it is active. -/
theorem getLsbD_insMask {u : Machine.State} {t : TileId} {pg : PReg} {i j : Nat} (hj : j < 64) :
    (activeLanes u t pg &&& BitVec.ofNat 64 (2 ^ i)).getLsbD j = true ↔ LaneActive u t pg j ∧ j = i := by
  rw [BitVec.getLsbD_and, Bool.and_eq_true, activeLanes_bit u t pg j hj, BitVec.getLsbD_ofNat, Nat.testBit_two_pow]
  simp only [hj, decide_true, Bool.true_and, decide_eq_true_eq, eq_comm (a := i)]
  rfl

/-- The low 32 bits of a scalar register, as a lane. -/
theorem ofNat_mod_eq_setWidth (x : Word) : BitVec.ofNat 32 (x.toNat % 2 ^ 32) = x.setWidth 32 :=
  BitVec.eq_of_toNat_eq (by rw [BitVec.toNat_ofNat, Nat.mod_mod, BitVec.toNat_setWidth])

/-- Lane `j` of a word merged under a mask. -/
theorem vlane_lanesOf {o : VWord} {m : BitVec 64} {f : Nat → Nat} {j : Nat} (hj : j < 64) :
    (m.getLsbD j = true → vlane (lanesOf o m f) j = BitVec.ofNat 32 (f j)) ∧
    (¬ m.getLsbD j = true → vlane (lanesOf o m f) j = vlane o j) :=
  ⟨fun h => (lanesOf_lane o m f j hj).trans (if_pos h), fun h => (lanesOf_lane o m f j hj).trans (if_neg h)⟩

theorem laneMoves_claim : Claims.LaneMoves := by
  intro t pg vd va vb rd rs rs2 s h
  refine ⟨⟨_, xRun_runs _ h, laneResult_of fun i => ofNat_lane ..⟩, ⟨_, xRun_runs _ h, laneResult_of fun i => ?_⟩,
    ⟨_, xRun_runs _ h, laneResult_of fun i => rfl⟩, ⟨_, xRun_runs _ h, laneResult_of fun i => ?_⟩,
    ⟨_, xRun_runs _ h, ?_⟩, ⟨_, _, xRun_runs _ h, vResult_retire .., fun i hi => ?_⟩,
    _, _, xRun_runs _ h, vResult_retire .., fun i hi => ?_⟩
  · exact ofNat_mod_eq_setWidth _
  · rw [ofNat_lane, lane_toNat]
  · rw [← BitVec.ofNat_toNat, ← lane_toNat]
    exact sResult_retire ..
  · exact (lanesOf_active _ _ t pg _ i hi).imp_left fun hact ha => (hact ha).trans (ofNat_lane ..)
  · rw [← getLsbD_insMask hi, ← ofNat_mod_eq_setWidth]
    exact vlane_lanesOf hi

/-- Settles O10: the integer and FP32 operations lane by lane, then the moves. -/
theorem vectorLaneResults : Obligations.VectorLaneResults := by
  unfold Obligations.VectorLaneResults
  exact ⟨vectorIntegerResults_claim, vectorFloatResults_claim, laneMoves_claim⟩

end Sys2Proof
end

section
/-! Lane compares, predicate operations and reductions (Tables 4-6 and 4-8, R110, R112). -/

namespace Sys2Proof

open Sys2Proof.Machine

/-! ### Lane compares -/

/-- The two's-complement reading of the low `w` bits. -/
theorem sx_eq_toInt (v w : Nat) : sx v w = (BitVec.ofNat w v).toInt := by
  have hhalf : v % 2 ^ w < 2 ^ (w - 1) ↔ 2 * (v % 2 ^ w) < 2 ^ w := by
    cases w with
    | zero => simp [Nat.mod_one]
    | succ w => rw [Nat.add_sub_cancel, Nat.pow_succ]; omega
  simp only [BitVec.toInt_eq_toNat_cond, BitVec.toNat_ofNat, sx, hhalf]

theorem sx_toNat (x : W32) : sx x.toNat 32 = x.toInt := by rw [sx_eq_toInt, BitVec.ofNat_toNat, BitVec.setWidth_eq]

/-- An operation on predicates retires with its word's bits in the active lanes. -/
theorem predResult_of {t : TileId} {pg pd : PReg} {w : BitVec 64} {p : Nat → Prop} {u : Machine.State}
    (hwp : ∀ i, i < 64 → (w.getLsbD i = true ↔ p i)) :
    PredResult t pg pd p u (xFinish t 4 (.retire (wrP t pd (w &&& activeLanes u t pg) u))) := by
  obtain ⟨r, hr, hbits⟩ := predResult_retire t pg pd w.getLsbD w u fun _ _ => rfl
  exact ⟨r, hr, fun i hi => (hbits i hi).trans (and_congr_right' (hwp i hi))⟩

theorem compareResults_claim : Claims.CompareResults := by
  intro p hp t pg pd va vb s h
  simp only [cmpTable, List.mem_cons, List.not_mem_nil, or_false] at hp
  obtain rfl | rfl | rfl | rfl | rfl | rfl | rfl := hp
  all_goals
    dsimp only
    refine ⟨_, xRun_runs _ h, predResult_of fun i hi => ?_⟩
    rw [predOf_bit _ _ hi, lane_toNat, lane_toNat]
  · rw [f32Le, Bool.or_eq_true]
  · rw [beq_iff_eq, BitVec.toNat_inj]
  iterate 2 (· rw [decide_eq_true_iff, sx_toNat, sx_toNat])
  · exact decide_eq_true_iff

/-! ### Predicates -/

/-- The set bits among the low `n`. -/
theorem popcount_eq_length (v n : Nat) : popcount v n = ((List.range n).filter v.testBit).length := by
  induction n with
  | zero => rfl
  | succ n ih =>
    rw [popcount, ih, List.range_succ, List.filter_append, List.length_append, b2n]
    cases hbit : v.testBit n <;> simp [hbit]

theorem predicateResults_claim : Claims.PredicateResults := by
  intro t pg pd pa pb rd rs s h
  refine ⟨⟨_, xRun_runs _ h, predResult_of fun i hi => ?_⟩, ⟨_, xRun_runs _ h, predResult_of fun i hi => ?_⟩,
    ⟨_, xRun_runs _ h, predResult_of fun i hi => ?_⟩, ⟨_, xRun_runs _ h, predResult_of fun i hi => ?_⟩,
    ⟨_, xRun_runs _ h, predResult_of fun i hi => ?_⟩, _, _, xRun_runs _ h, sResult_retire .., ?_⟩
  · rw [BitVec.getLsbD_and, Bool.and_eq_true]
  · rw [BitVec.getLsbD_or, Bool.or_eq_true]
  · rw [BitVec.getLsbD_xor, bne_iff_ne]
  · rw [BitVec.getLsbD_not, decide_eq_true hi, Bool.true_and, Bool.not_eq_true']
  · rw [predOf_bit _ _ hi, decide_eq_true_iff]
  · rw [popcount_eq_length]
    refine ⟨(List.length_filter_le ..).trans_eq List.length_range, _, List.nodup_range.filter _, rfl, fun i => ?_⟩
    rw [List.mem_filter, List.mem_range, and_congr_right_iff, ← BitVec.getLsbD, BitVec.getLsbD_and, Bool.and_eq_true]
    intro hi
    rw [activeLanes_bit _ t pg i hi, and_comm]
    rfl

/-! ### Reductions -/

/-- One level of the tree over the values at `0` to `2 * n - 1`. -/
theorem pairUp_map_range (f : Nat → Nat → Nat) (n : Nat) (x : Nat → Nat) :
    pairUp f ((List.range (2 * n)).map x) = (List.range n).map fun i => f (x (2 * i)) (x (2 * i + 1)) := by
  induction n generalizing x with
  | zero => rfl
  | succ n ih =>
    have hrest : List.map (x ∘ Nat.succ ∘ Nat.succ) (List.range (2 * n)) = List.map (fun i => x (i + 2)) (List.range (2 * n)) :=
      rfl
    rw [Nat.mul_succ, List.range_succ_eq_map, List.range_succ_eq_map, List.range_succ_eq_map (n := n)]
    simp only [List.map_cons, List.map_map, pairUp, hrest, ih]
    rfl

/-- Six levels over 64 lanes. -/
theorem treeReduce_eq_laneTree (f : Nat → Nat → Nat) (x : Nat → Nat) :
    treeReduce f ((List.range 64).map x) = laneTree f x 6 0 := by
  have level (k n : Nat) : pairUp f ((List.range (2 * n)).map (laneTree f x k)) = (List.range n).map (laneTree f x (k + 1)) :=
    pairUp_map_range f n _
  have lanes : (List.range 64).map x = (List.range 64).map (laneTree f x 0) := rfl
  rw [treeReduce, lanes, level 0 32, level 1 16, level 2 8, level 3 4, level 4 2, level 5 1]
  rfl

/-- A reduction's values: the lane where it is active, the operation's neutral value elsewhere. -/
theorem reduceInput_eq {u : Machine.State} {t : TileId} {pg : PReg} {a : VWord} {z : Nat} {x : Nat → Nat} {i : Nat} (hi : i < 64)
    (hx : (LaneActive u t pg i → x i = (vlane a i).toNat) ∧ (¬ LaneActive u t pg i → x i = z)) :
    (if (activeLanes u t pg).getLsbD i then lane a i else z) = x i := by
  have hbit := activeLanes_bit u t pg i hi
  split
  next hset => rw [lane_toNat, hx.1 (hbit.mp hset)]
  next hclear => rw [hx.2 (mt hbit.mpr hclear)]

/-- The tree over a reduction's values. -/
theorem treeReduce_input {u : Machine.State} {t : TileId} {pg : PReg} {a : VWord} {z : Nat} {x : Nat → Nat} (f : Nat → Nat → Nat)
    (hx : ∀ i, i < 64 → (LaneActive u t pg i → x i = (vlane a i).toNat) ∧ (¬ LaneActive u t pg i → x i = z)) :
    treeReduce f ((List.range 64).map fun i => if (activeLanes u t pg).getLsbD i then lane a i else z) = laneTree f x 6 0 := by
  rw [← treeReduce_eq_laneTree, List.map_congr_left fun i hi => reduceInput_eq (List.mem_range.mp hi) (hx i (List.mem_range.mp hi))]

theorem reductionResults_claim : Claims.ReductionResults := by
  intro p hp t pg rd va x s h hx
  simp only [reduceTable, List.mem_cons, List.not_mem_nil, or_false] at hp
  obtain rfl | rfl | rfl | rfl := hp
  all_goals
    dsimp only at hx ⊢
    refine ⟨_, xRun_runs _ h, ?_⟩
    rw [← treeReduce_input _ hx]
    exact sResult_retire ..

/-- Settles O11: each active lane's test, and the pairwise tree level by level. -/
theorem compareAndReduce : Obligations.CompareAndReduce := by
  unfold Obligations.CompareAndReduce
  exact ⟨compareResults_claim, predicateResults_claim, reductionResults_claim⟩

end Sys2Proof
end

section
/-! Branches, jumps and system instructions (Tables 4-5 and 4-11, R125, R126). -/

namespace Sys2Proof

open Sys2Proof.Machine

/-! ### Branches -/

/-- A branch retires to its target where its test holds, and past itself otherwise. -/
theorem branch_retires {t : TileId} {off : BitVec 13} {c : Bool} {p : Prop} {u : Machine.State} (hcp : c = true ↔ p) :
    (p → XRetired t (relTarget u t off.toInt) (u.tile t).x u
      (xFinish t 4 (if c then .jump (brTarget (xPc u t) off) u else .retire u))) ∧
    (¬ p → XRetired t (xPc u t + 4) (u.tile t).x u
      (xFinish t 4 (if c then .jump (brTarget (xPc u t) off) u else .retire u))) := by
  refine ⟨fun hp => ?_, fun hp => ?_⟩
  · rw [if_pos (hcp.mpr hp)]
    exact xRetire_retired ..
  · rw [if_neg (mt hcp.mp hp)]
    exact xRetire_retired ..

/-- S[RD] is set, S0 kept zero (R106). -/
theorem rdS_mset {x : XCore} {rd : SReg} {v : Word} {u w : Machine.State} {t : TileId}
    (hw : w.tile t = { u.tile t with x := x }) (hx : x.s = mset (fun _ => 0) (u.tile t).x.s rd.toNat v) (r : SReg) :
    rdS w t r = if r = rd ∧ r ≠ 0 then v else rdS u t r := by
  rw [rdS, rdS, hw]
  by_cases hr : r = 0
  · simp [hr]
  · simp only [hr, if_false, hx, mget_mset, BitVec.toNat_inj, ne_eq, not_false_eq_true, and_true]

/-- A jump that links retires to its target with the next address in S[RD]. -/
theorem jump_linked (t : TileId) (rd : SReg) (pc : Nat) (u : Machine.State) :
    Linked t rd pc u (xFinish t 4 (.jump pc (wrS t rd (BitVec.ofNat 64 (xPc u t + 4)) u))) := by
  rw [xFinish, wrS]
  split
  next hrd =>
    have hret := xRetire_retired t pc u
    refine ⟨fun r => ?_, ?_⟩
    · rw [hrd, if_neg (fun hr => hr.2 hr.1), rdS, rdS, hret.tile]
    · rw [congrArg (·.x.s) hret.tile]
      exact hret
  next =>
    have hret := retired_modX t pc (fun x => { x with s := mset (fun _ => 0) x.s rd.toNat (BitVec.ofNat 64 (xPc u t + 4)) }) u
    refine ⟨rdS_mset hret.tile rfl, ?_⟩
    rw [congrArg (·.x.s) hret.tile]
    exact hret

theorem branchResults_claim : Claims.BranchResults := by
  intro t rd rs1 rs2 s h
  refine ⟨fun p hp off => ?_, fun p off => ⟨⟨_, xRun_runs _ h, ?_⟩, _, xRun_runs _ h, ?_⟩,
    fun off => ⟨_, xRun_runs _ h, jump_linked ..⟩, fun imm => ⟨_, xRun_runs _ h, jump_linked ..⟩⟩
  · simp only [branchTable, List.mem_cons, List.not_mem_nil, or_false] at hp
    obtain rfl | rfl | rfl | rfl | rfl | rfl := hp
    all_goals exact ⟨_, xRun_runs _ h, branch_retires (by simp [BitVec.slt, BitVec.ult])⟩
  · obtain hz | hz := eq_or_ne (rdP (fetched s t 4) t p) 0
    · rw [if_pos hz, if_neg (not_not.mpr hz)]
      exact xRetire_retired ..
    · rw [if_neg hz, if_pos hz]
      exact xRetire_retired ..
  · split <;> exact xRetire_retired ..

/-! ### System instructions -/

/-- In debug, BRK halts the core once before it executes (R125). -/
theorem brk_halts (t : TileId) (u : Machine.State) :
    xState (xHalt t u) t = 3 ∧ xPc (xHalt t u) t = xPc u t ∧ OnlyTile t [R.XC_STATUS t.toNat] u (xHalt t u) ∧
      (xHalt t u).tile t = { u.tile t with x := { (u.tile t).x with skipBrk := true } } := by
  have hframe : OnlyTile t [R.XC_STATUS t.toNat] u (xHalt t u) := onlyTile_rset _ _ (by simp) (onlyTile_modX _ (.refl ..))
  refine ⟨rget_rset_same _ _ _ _ (by decide), hframe.rget (by simp [R.XC_PC, R.XC_STATUS]) _, hframe, ?_⟩
  rw [xHalt, setXState, tile_rset, tile_modX]

/-- A tile that is not told to drain, on a die that is not told to. -/
theorem tileDraining_eq_false {t : TileId} {u : Machine.State} (htile : rget u (R.TILE_STATE t.toNat) F.TILE_STATE_STATE ≠ 2)
    (hdie : rget u (R.PDC_DOM_STAT (16 + tileDie t)) F.PDC_DOM_STAT_STATE ≠ 4) : u.tileDraining t = false := by
  rw [State.tileDraining, tsDraining, beq_false_of_ne htile, beq_false_of_ne hdie]
  rfl

/-- END at issue counts as an instruction and leaves the tile IDLE unless it drains. -/
theorem xEndRetire_counts (t : TileId) (u : Machine.State) :
    rraw (xEndRetire t u) (R.XC_RETIRED t.toNat) = min (rraw u (R.XC_RETIRED t.toNat) + 1) (2 ^ 64 - 1) ∧
    (rget u (R.TILE_STATE t.toNat) F.TILE_STATE_STATE ≠ 2 →
      rget u (R.PDC_DOM_STAT (16 + tileDie t)) F.PDC_DOM_STAT_STATE ≠ 4 →
      rget (xEndRetire t u) (R.TILE_STATE t.toNat) F.TILE_STATE_STATE = 0) := by
  have hret := xRetire_retired t (xPc u t + 4) u
  have hend := onlyTile_coreEnded t (xRetire t (xPc u t + 4) u)
  have hall : OnlyTile t (retireRegs t) u (coreEnded t (xRetire t (xPc u t + 4) u)) :=
    hret.frame.trans (hend.mono (by simp [retireRegs]))
  have hcount := (hend.regs _ (by simp [R.XC_RETIRED, R.XC_STATUS])).trans hret.retired
  rw [xEndRetire_eq]
  generalize coreEnded t (xRetire t (xPc u t + 4) u) = w at hall hcount
  refine ⟨?_, fun htile hdie => ?_⟩
  · split
    · exact hcount
    · exact (rraw_rset_other _ _ _ (by simp [R.XC_RETIRED, R.TILE_STATE])).trans hcount
  · have hdrain : w.tileDraining t = false := by
      have hbound : tileDie t < 32 := by have := t.isLt; unfold tileDie; omega
      refine tileDraining_eq_false ?_ ?_
      · rwa [hall.rget (by simp [retireRegs, R.TILE_STATE, R.XC_PC, R.XC_RETIRED, R.XC_WDOG, R.FC_PROGRESS, R.XC_STATUS])]
      · rwa [hall.rget (by
          simp [retireRegs, R.PDC_DOM_STAT, R.XC_PC, R.XC_RETIRED, R.XC_WDOG, R.FC_PROGRESS, R.XC_STATUS]; omega)]
    rw [hdrain]
    exact rget_rset_same _ _ _ _ (by decide)

theorem systemResults_claim : Claims.SystemResults := by
  intro t s h
  refine ⟨⟨_, xRun_runs _ h, xRetire_retired ..⟩, ⟨_, xRun_runs _ h, xRetire_retired ..⟩,
    ⟨_, xRun_runs _ h, fun hbrk => ?_, fun hbrk => ?_⟩, ⟨_, xRun_runs _ h, ?_⟩, ⟨_, xRun_runs _ h, ?_⟩,
    _, xRun_runs _ h, fun hend => ?_, fun hend => ?_⟩
  · rw [hbrk.1, hbrk.2]
    exact brk_halts ..
  · rw [if_neg (by simpa using hbrk)]
    exact xRetire_retired ..
  · rw [← fenceOk_iff]
    exact retires_or_blocks ..
  · rw [← fenceEOk_iff]
    exact retires_or_blocks ..
  · obtain ⟨hstate, hlaunch, -, -, hframe⟩ := xEndRetire_ends (.refl t _ (fetched s t 4))
    obtain ⟨hcount, hidle⟩ := xEndRetire_counts t (fetched s t 4)
    rw [if_pos ((endOk_iff ..).mpr hend), xFinish]
    exact ⟨hstate, hlaunch, hcount, hidle, hframe⟩
  · rw [if_neg (mt (endOk_iff ..).mp hend)]
    exact xBlock_blocked ..

/-- Settles O14: each test decides between target and next instruction, each condition of Table 4-11 between retiring and blocking. -/
theorem branchAndSystem : Obligations.BranchAndSystem := by
  unfold Obligations.BranchAndSystem
  exact ⟨branchResults_claim, systemResults_claim⟩

end Sys2Proof
end

section
/-! CSR instructions (R108, R505). -/

namespace Sys2Proof

open Sys2Proof.Machine

/-- The BAR0 offset of a register of tile `t`'s block. -/
def blockOff (t : TileId) (o : Nat) : Nat := 0x8000000 + 0x10000 * t.toNat + o

theorem blockOff_mod (t : TileId) {o : Nat} (ho : o < 2 ^ 16) : blockOff t o % 0x10000 = o := by
  rw [blockOff]
  omega

theorem csrOk_iff (o n : Nat) : csrOk o n = true ↔ o ≤ 0xFFFF ∧ o % n = 0 := decide_eq_true_iff

/-! ### Reads -/

/-- An 8-byte read takes the low piece, then the high one (R505). -/
theorem tileCsrRead_eight (t : TileId) (o : Nat) (s : Machine.State) : tileCsrRead t o 8 s =
    ((regRead4 (0x8000000 + 0x10000 * t.toNat + o) s).1 +
        (regRead4 (0x8000000 + 0x10000 * t.toNat + o + 4) (regRead4 (0x8000000 + 0x10000 * t.toNat + o) s).2).1 * 2 ^ 32,
      (regRead4 (0x8000000 + 0x10000 * t.toNat + o + 4) (regRead4 (0x8000000 + 0x10000 * t.toNat + o) s).2).2) := by
  simp only [tileCsrRead, if_pos, Nat.shiftLeft_eq]

theorem csrRead_result {t : TileId} {rd rs1 : SReg} {imm : BitVec 12} {s : Machine.State} {o n : Nat} (h : Issues s t 4)
    (ho : o = (rdS (fetched s t 4) t rs1 + imm.signExtend 64).toNat) (hok : csrOk o n = true) :
    ∃ v, xCsrR t rd rs1 imm n s = .next v ∧
      SResult t 4 rd (BitVec.ofNat 64 (tileCsrRead t o n (fetched s t 4)).1) (tileCsrRead t o n (fetched s t 4)).2 v := by
  subst ho
  refine ⟨_, xRun_runs _ h, ?_⟩
  dsimp only [sext64]
  rw [if_pos hok]
  exact sResult_retire ..

/-! ### Writes -/

/-- No semaphore lies in an aligned access that starts outside them. -/
theorem spoilSems_outside {t : TileId} {o n : Nat} {busy : PairIdx → Bool} {u : Machine.State} (hn : n = 4 ∨ n = 8)
    (ha : o % n = 0) (ho : ¬ (0x100 ≤ o ∧ o < 0x200)) : spoilSems t o n busy u = u := by
  have hnone : (List.range 64).filter (fun k => decide (o ≤ 0x100 + 4 * k ∧ 0x100 + 4 * k + 4 ≤ o + n) &&
      busy (BitVec.ofNat 5 (k / 2))) = [] := by
    refine List.filter_eq_nil_iff.mpr fun k hk => ?_
    rw [decide_eq_false, Bool.false_and]
    · exact Bool.false_ne_true
    · have := List.mem_range.mp hk
      obtain rfl | rfl := hn <;> omega
  rw [spoilSems, hnone]
  rfl

/-- A CSR write that reaches neither a semaphore nor `PRED_GO` retires with what the write of its registers leaves. -/
theorem csrWrite_runs {t : TileId} {rd rs1 : SReg} {imm : BitVec 12} {s : Machine.State} {o n : Nat} (h : Issues s t 4)
    (ho : o = (rdS (fetched s t 4) t rs1 + imm.signExtend 64).toNat) (hok : csrOk o n = true) (hn : n = 4 ∨ n = 8)
    (hsem : ¬ (0x100 ≤ o ∧ o < 0x200)) (hpred : ¬ (0x8000 ≤ o ∧ o < 0x9000)) :
    xCsrW t rd rs1 imm n s = .next (xFinish t 4 (.retire
      (tileCsrWrite t o n ((rdS (fetched s t 4) t rd).toNat % 2 ^ (8 * n)) (fetched s t 4)))) := by
  obtain ⟨hmax, halign⟩ := (csrOk_iff o n).mp hok
  subst ho
  have hgo : ¬ ((rdS (fetched s t 4) t rs1 + imm.signExtend 64).toNat ≤ 0x8010 ∧
      0x8010 < (rdS (fetched s t 4) t rs1 + imm.signExtend 64).toNat + n ∧ 8 ≤ ((fetched s t 4).tile t).gme.length) := by
    obtain rfl | rfl := hn <;> omega
  rw [xCsrW, xRun_runs _ h]
  dsimp only [sext64]
  rw [decide_eq_false hgo, Bool.and_false, Bool.false_and, if_neg Bool.false_ne_true, if_pos hok, spoilSems_outside hn halign hsem]

/-- The control block takes no write. -/
theorem csrWrite_control {t : TileId} {rd rs1 : SReg} {imm : BitVec 12} {s : Machine.State} {o n : Nat} (h : Issues s t 4)
    (ho : o = (rdS (fetched s t 4) t rs1 + imm.signExtend 64).toNat) (hn : n = 4 ∨ n = 8) (halign : o % n = 0)
    (hctl : 0x2000 ≤ o ∧ o < 0x4000) :
    ∃ v, xCsrW t rd rs1 imm n s = .next v ∧ XRetired t (xPc (fetched s t 4) t + 4) ((fetched s t 4).tile t).x (fetched s t 4) v := by
  refine ⟨_, csrWrite_runs h ho ((csrOk_iff o n).mpr ⟨by omega, halign⟩) hn (by omega) (by omega), ?_⟩
  rw [tileCsrWrite, if_pos hctl]
  exact xRetire_retired ..

section
variable {t : TileId} {o : Nat} {r : RegRow} {u : Machine.State}

/-- Only an FLD under way, an engine's instruction or a prediction makes a CSR write's effect undefined. -/
theorem unitWritten_plain (hp : PlainOff o) (hf : 0x4000 ≤ o ∧ o < 0x6000 → (u.tile t).f.load = none) : unitWritten t o u = u := by
  obtain ⟨-, -, -, -, hunit⟩ := hp
  rw [unitWritten, if_neg (show ¬ (0x6000 ≤ o ∧ o < 0x7000) by omega), if_neg (show ¬ o = 0x8010 by omega),
    if_neg (show ¬ (0x7000 ≤ o ∧ o < 0x9000) by omega)]
  split
  next hfetch => rw [hf hfetch]; rfl
  next => rfl

theorem tileRegWrite_plain (hp : PlainOff o) (hen : u.enabled t = true) (start mask v : Nat) :
    tileRegWrite t o start r mask v u = rput start (regMerge r (rraw u start) mask v) u := by
  obtain ⟨hswz, hsem, hwin, hctl, hunit⟩ := hp
  rw [tileRegWrite, hen, if_neg (by decide), if_neg hsem, if_neg hwin, if_neg hswz, if_neg (by omega), if_neg (by omega), regPlain]

/-- A write of a whole register with no further effect merges the value under its fields' access types. -/
theorem tileCsrWrite_plain {n : Nat} (hp : PlainOff o) (hf : 0x4000 ≤ o ∧ o < 0x6000 → (u.tile t).f.load = none)
    (hen : u.enabled t = true) (ho : o < 2 ^ 16) (hr : findReg (blockOff t o) = some (blockOff t o, r)) (hb : r.bytes = n)
    (hn : n = 4 ∨ n = 8) (v : Nat) :
    tileCsrWrite t o n v u = rput (blockOff t o) (regMerge r (rraw u (blockOff t o)) (2 ^ (8 * n) - 1) v) u := by
  have hpieces : regPieces (blockOff t o) n v = [(blockOff t o, r, 2 ^ (8 * n) - 1, v)] := by
    rw [regPieces, hr]
    dsimp only
    rw [if_pos (by omega), Nat.sub_self]
    rfl
  rw [tileCsrWrite, if_neg hp.2.2.2.1, ← blockOff, hpieces, List.foldl_cons, List.foldl_nil, blockOff_mod t ho,
    unitWritten_plain hp hf, tileRegWrite_plain hp hen]

end

theorem csrWrite_plain {t : TileId} {rd rs1 : SReg} {imm : BitVec 12} {s : Machine.State} {o n : Nat} {r : RegRow} (h : Issues s t 4)
    (ho : o = (rdS (fetched s t 4) t rs1 + imm.signExtend 64).toNat) (hlt : o < 2 ^ 16) (hn : n = 4 ∨ n = 8) (halign : o % n = 0)
    (hp : PlainOff o) (hf : 0x4000 ≤ o ∧ o < 0x6000 → ((fetched s t 4).tile t).f.load = none)
    (hen : (fetched s t 4).enabled t = true) (hr : findReg (blockOff t o) = some (blockOff t o, r)) (hb : r.bytes = n) :
    ∃ v, xCsrW t rd rs1 imm n s = .next v ∧
      XRetired t (xPc (fetched s t 4) t + 4) ((fetched s t 4).tile t).x
        (rput (blockOff t o) (regMerge r (rraw (fetched s t 4) (blockOff t o)) (2 ^ (8 * n) - 1)
          ((rdS (fetched s t 4) t rd).toNat % 2 ^ (8 * n))) (fetched s t 4)) v := by
  have ⟨_, hsem, _, hctl, hunit⟩ := hp
  refine ⟨_, csrWrite_runs h ho ((csrOk_iff o n).mpr ⟨by omega, halign⟩) hn hsem (by omega), ?_⟩
  rw [tileCsrWrite_plain hp hf hen hlt hr hb hn]
  refine retired_onlyRegs 4 (onlyRegs_rput _ (List.mem_singleton_self _) (.refl ..)) ?_
  simp only [List.mem_singleton, R.XC_PC, blockOff]
  omega

/-- Settles O15: reads through the register's own read, writes by the part of the block they reach. -/
theorem csrAccesses : Obligations.CsrAccesses := by
  unfold Obligations.CsrAccesses
  intro t rd rs1 imm s o h ho hlt
  refine ⟨fun ha => csrRead_result h ho ((csrOk_iff o 4).mpr ⟨by omega, ha⟩), fun ha => ?_,
    fun hctl => ⟨fun ha => csrWrite_control h ho (.inl rfl) ha hctl, fun ha => csrWrite_control h ho (.inr rfl) ha hctl⟩,
    fun r hp hf hen hr => ⟨fun ha hb => csrWrite_plain h ho hlt (.inl rfl) ha hp hf hen hr hb, fun ha hb => ?_⟩⟩
  · obtain ⟨v, hv, hres⟩ := csrRead_result (rd := rd) h ho ((csrOk_iff o 8).mpr ⟨by omega, ha⟩)
    refine ⟨v, _, hv, rfl, ?_⟩
    rw [tileCsrRead_eight] at hres
    exact hres
  · have hval : (rdS (fetched s t 4) t rd).toNat % 2 ^ (8 * 8) = (rdS (fetched s t 4) t rd).toNat :=
      Nat.mod_eq_of_lt (BitVec.isLt _)
    rw [← hval]
    exact csrWrite_plain h ho hlt (.inr rfl) ha hp hf hen hr hb

end Sys2Proof
end

section
/-! Scalar, descriptor and vector loads that reach memory without a request (R107, R110, R113). -/

namespace Sys2Proof

open Sys2Proof.Machine

/-! ### Scalar and descriptor loads -/

section
variable {t : TileId} {rd rs1 : SReg} {da : DReg} {s u : Machine.State} {la : Nat}

/-- The register of a finished one-line scalar load that is sign-extended. -/
theorem loadWrite_signed (n : Nat) (w : Machine.State) :
    loadWrite t (.scalar rd n true) [⟨List.range n, some (rdBytes u la n)⟩] w =
      wrS t rd ((BitVec.ofNat (8 * n) (memNat u la n)).signExtend 64) w := by
  simp only [loadWrite]
  rw [rdBytes, loadByte_one, leNat_rdBytes, if_pos trivial, sx_eq_toInt]
  rfl

/-- The bytes of a finished one-line load of a descriptor register. -/
theorem loadWrite_desc (w : Machine.State) :
    loadWrite t (.desc da) [⟨List.range 64, some (rdBytes u la 64)⟩] w = wrD t da (BitVec.ofNat 512 (memNat u la 64)) w := by
  simp only [loadWrite]
  rw [rdBytes, loadByte_one, leNat_rdBytes]

/-- The word that a scalar load writes: what it read, extended. -/
def loaded (signed : Bool) (n x : Nat) : Word := if signed then (BitVec.ofNat (8 * n) x).signExtend 64 else BitVec.ofNat 64 x

theorem loadWrite_scalar (signed : Bool) (n : Nat) (w : Machine.State) :
    loadWrite t (.scalar rd n signed) [⟨List.range n, some (rdBytes u la n)⟩] w = wrS t rd (loaded signed n (memNat u la n)) w := by
  cases signed
  · exact loadWrite_unsigned ..
  · exact loadWrite_signed ..

theorem xLoadI_result {n : Nat} {signed : Bool} {imm : BitVec 12} (hn : n ∣ 64) (hi : Issues s t 4)
    (h : Reaches t (scalarAddr (fetched s t 4) t rs1 imm n) true false la (fetched s t 4) u) (hg : Sound u la n) :
    ∃ v, xLoadI t rd rs1 imm n signed s = .next v ∧ SResult t 4 rd (loaded signed n (memNat u la n)) u v := by
  have hload := (xLoad_one (dst := .scalar rd n signed) hn (Nat.dvd_mul_left _ _) h hg).trans
    (congrArg XOut.retire (loadWrite_scalar signed n u))
  exact ⟨_, (xRun_runs _ hi).trans (congrArg (Host.Outcome.next <| xFinish t 4 ·) hload), sResult_retire ..⟩

theorem dld_result {imm : BitVec 32} (hi : Issues s t 8)
    (h : Reaches t (descAddr (fetched s t 8) t rs1 imm) true false la (fetched s t 8) u) (hg : Sound u la 64) :
    ∃ v, exec (.xDld t da rs1 imm) s = .next v ∧ DResult t 8 da (BitVec.ofNat 512 (memNat u la 64)) u v := by
  have hload : xLoad t (dAddr (fetched s t 8) t rs1 imm) (List.range 64) (.desc da) (fetched s t 8) =
      .retire (wrD t da (BitVec.ofNat 512 (memNat u la 64)) u) :=
    (xLoad_one (dvd_refl 64) (Nat.dvd_mul_left _ _) h hg).trans (congrArg XOut.retire (loadWrite_desc u))
  refine ⟨_, (xRun8_runs _ hi).trans ?_, dResult_retire ..⟩
  rw [hload]

end

theorem loadResults_claim : Claims.LoadResults := by
  intro t rd rs1 s u la
  refine ⟨fun p hp imm hi h hg => ?_, fun da imm hi h hg => dld_result hi h hg⟩
  simp only [loadTable, List.mem_cons, List.not_mem_nil, or_false] at hp
  obtain rfl | rfl | rfl | rfl | rfl | rfl | rfl := hp
  case inr.inr.inr.inl =>
    have hext : loaded true 8 (memNat u la 8) = BitVec.ofNat 64 (memNat u la 8) := BitVec.signExtend_eq _
    dsimp only
    rw [← hext]
    exact xLoadI_result (by decide) hi h hg
  all_goals exact xLoadI_result (by decide) hi h hg

/-! ### Vector loads -/

section
variable {t : TileId} {pg : PReg} {vd : VReg} {rs1 : SReg} {imm : BitVec 10} {s u : Machine.State} {la esz : Nat}

/-- Only the values of active lanes are seen. -/
theorem laneResult_congr {f g : Nat → W32} {v : Machine.State} (h : LaneResult t pg vd f u v)
    (hfg : ∀ i, i < 64 → LaneActive u t pg i → f i = g i) : LaneResult t pg vd g u v := by
  obtain ⟨w, hw, hlanes⟩ := h
  exact ⟨w, hw, fun i hi => ⟨fun ha => ((hlanes i hi).1 ha).trans (hfg i hi ha), (hlanes i hi).2⟩⟩

/-- What a vector load's lines give an active lane. -/
theorem lane_of_lines {va i : Nat} (he : 0 < esz) (hi : i < 64) (ha : LaneActive u t pg i) :
    leNat ((List.range esz).map fun j => loadByte ((groupLines va (activeBytes (activeLanes u t pg) esz)).map fun g =>
      ⟨g, some (g.map fun k => rdByte u (la + k))⟩) (esz * i + j)) = memNat u (la + esz * i) esz := by
  rw [memNat, rdBytes]
  congr 1
  refine List.map_congr_left fun j hj => ?_
  rw [loadByte_map _ _ _ (groupLines_cover ((mem_activeBytes he).mpr ⟨i, j, hi, List.mem_range.mp hj, ha, rfl⟩)), Nat.add_assoc]

theorem vLoad_result (he : 0 < esz) (hi : Issues s t 4)
    (h : ∀ i j, i < 64 → j < esz → LaneActive (fetched s t 4) t pg i →
      Held (fetched s t 4) t (vectorAddr (fetched s t 4) t rs1 imm 64 + (esz * i + j)) true false (la + (esz * i + j))) :
    ∃ v, vLoad t pg vd rs1 imm esz s = .next v ∧
      LaneResult t pg vd (fun i => BitVec.ofNat 32 (memNat (fetched s t 4) (la + esz * i) esz)) (fetched s t 4) v := by
  have hload := xLoad_held (t := t) (la := la) (va := vectorAddr (fetched s t 4) t rs1 imm 64)
    (idx := activeBytes (activeLanes (fetched s t 4) t pg) esz) (dst := .vec vd esz (activeLanes (fetched s t 4) t pg))
    (List.pairwise_lt_range.filter _) fun k hk => by
      obtain ⟨i, j, hi, hj, hact, rfl⟩ := (mem_activeBytes he).mp hk
      exact h i j hi hj hact
  refine ⟨_, (xRun_runs _ hi).trans (congrArg (Host.Outcome.next <| xFinish t 4 ·) hload),
    laneResult_congr (laneResult_retire ..) fun i hi ha => ?_⟩
  rw [lane_of_lines he hi ha]

/-- A translation keeps the X-core's registers. -/
theorem activeLanes_of_reaches {va : Nat} {r w : Bool} (h : Reaches t va r w la s u) : activeLanes u t pg = activeLanes s t pg := by
  have htouched := xlatTouched_translate t va r w s
  rw [h.1] at htouched
  rw [activeLanes, activeLanes, rdP, rdP, htouched.tile]

/-- A load of one word for all active lanes. -/
theorem vldBc_result (hi : Issues s t 4) (hact : ∃ i, i < 64 ∧ LaneActive (fetched s t 4) t pg i)
    (h : Reaches t (vectorAddr (fetched s t 4) t rs1 imm 4) true false la (fetched s t 4) u) (hg : Sound u la 4) :
    ∃ v, exec (.vldBc t pg vd rs1 imm) s = .next v ∧ LaneResult t pg vd (fun _ => BitVec.ofNat 32 (memNat u la 4)) u v := by
  have hmask : activeLanes (fetched s t 4) t pg ≠ 0 := by
    obtain ⟨i, hi, ha⟩ := hact
    intro hzero
    have hbit := (activeLanes_bit _ t pg i hi).mpr ha
    rw [hzero] at hbit
    exact absurd hbit (by simp)
  have hload : xLoad t (vAddr (fetched s t 4) t rs1 imm 4) (List.range 4) (.bcast vd (activeLanes (fetched s t 4) t pg))
      (fetched s t 4) = .retire (wrV t vd (lanesOf (rdV u t vd) (activeLanes u t pg) fun _ => memNat u la 4) u) := by
    refine (xLoad_one (by decide) (Nat.dvd_mul_left _ _) h hg).trans (congrArg XOut.retire ?_)
    simp only [loadWrite]
    rw [loadByte_one, leNat_rdBytes, activeLanes_of_reaches h]
  refine ⟨_, (xRun_runs _ hi).trans ?_, laneResult_retire ..⟩
  dsimp only
  rw [if_neg hmask, hload]

end

theorem vectorLoads_claim : Claims.VectorLoads := by
  intro t pg vd rs1 imm s la hi
  refine ⟨fun p hp h => ?_, fun u => vldBc_result hi⟩
  simp only [vloadTable, List.mem_cons, List.not_mem_nil, or_false] at hp
  obtain rfl | rfl | rfl := hp
  all_goals exact vLoad_result (by decide) hi h

/-- Settles O12: a load whose bytes are reached without a request is done at once, from the lines that hold them. -/
theorem loadsRead : Obligations.LoadsRead := by
  unfold Obligations.LoadsRead
  exact ⟨loadResults_claim, vectorLoads_claim⟩

end Sys2Proof
end

section
/-! Replies, resends and timeouts of a tile's requests (R119, R121, R356, R425, R429). -/

namespace Sys2Proof

open Sys2Proof.Machine

/-! ### A fault on its way -/

theorem mins_mins {α : Type} (m : Map α) (k : Nat) (v w : α) : mins (mins m k v) k w = mins m k w := by
  induction m with
  | nil => simp [mins]
  | cons e m ih =>
    obtain ⟨k', v'⟩ := e
    simp only [mins]
    split
    next => simp [mins]
    next hlt =>
      split
      next => simp [mins]
      next hne => rw [mins, if_neg hlt, if_neg hne, ih]

theorem mdel_mins {α : Type} (m : Map α) (k : Nat) (v : α) : mdel (mins m k v) k = mdel m k := by
  induction m with
  | nil => simp [mins, mdel]
  | cons e m ih =>
    obtain ⟨k', v'⟩ := e
    simp only [mins]
    split
    next => simp [mdel]
    next =>
      split
      next heq => simp [mdel, heq]
      next => simp only [mdel, List.filter_cons] at ih ⊢; rw [ih]

/-- A listed value written over. -/
theorem mset_mset {α : Type} [DecidableEq α] (d : Nat → α) (m : Map α) {k : Nat} {v : α} (w : α) (hv : v ≠ d k) :
    mset d (mset d m k v) k w = mset d m k w := by
  simp only [mset, if_neg hv, mins_mins, mdel_mins]

section
variable {t : TileId} {s : Machine.State}

/-- Two changes of an X-core of which the first leaves a fault on its way. -/
theorem modX_modX (f g : XCore → XCore) (hf : (f (s.tile t).x).faults ≠ []) : (s.modX t f).modX t g = s.modX t (g ∘ f) := by
  have hreset : ({ s.tile t with x := f (s.tile t).x } : Tile) ≠ Tile.reset := fun h => hf (congrArg (·.x.faults) h)
  rw [State.modX, State.modTile, tile_modX]
  exact congrArg (fun m => ({ s with tiles := m } : Machine.State)) (mset_mset _ _ _ hreset)

/-- A write that fails leaves a fault on its way and its number for the posts behind it. -/
theorem writeFault_eq (st : Status) (pc va k : Nat) :
    writeFault t st pc va k s = s.modX t (fun c => failedX c ⟨4, st, pc, va⟩ k) := by
  rw [writeFault, markFailed, pushFault, modX_modX]
  · rfl
  · simp

end

/-! ### Replies -/

section
variable {id : Nat} {x : Txn} {t : TileId} {s : Machine.State} {st : Status} {data : List Byte}

theorem deliver_write {pc k : Nat} (hiss : x.iss = .xwrite t pc k) : deliver id x st data s =
    if st = .ok then without s id else (without s id).modX t (fun c => failedX c ⟨4, st, pc, x.va⟩ k) := by
  rw [deliver, hiss]
  dsimp only
  rw [writeReply, writeFault_eq]
  rfl

theorem deliver_failed {pc k : Nat} (hiss : x.iss = .xwrite t pc k) (hst : st ≠ .ok) :
    deliver id x st data s = (without s id).modX t (fun c => failedX c ⟨4, st, pc, x.va⟩ k) :=
  (deliver_write hiss).trans (if_neg hst)

/-- A tile that is not fully drained takes its replies; RETRY_LATER waits for the resend. -/
theorem takeReply_reached (hiss : issuerTile x.iss = some t) (hd : s.domReach (16 + tileDie t) = true) :
    takeReply id x st data s =
      if st = .retryLater then { s with txns := mins s.txns id { x with phase := .refused } } else deliver id x st data s := by
  rw [takeReply, hiss]
  simp only [hd, Bool.not_true, Bool.false_eq_true, if_false]
  rfl

/-- The reply of a tile's request arrives, with FAULT_ECC for an OK whose payload is bad. -/
theorem exec_meshReply (hx : mfind s.txns id = some x) (hphase : x.phase = .reply st data) (hiss : issuerTile x.iss = some t)
    (bad : Bool) : exec (.meshReply id bad) s = .next
      (if bad = true ∧ st = .ok then takeReply id x .faultEcc [] s else takeReply id x st data s) := by
  rw [exec, execMeshReply, hx]
  dsimp only
  rw [hphase]
  dsimp only
  split <;> simp_all [issuerTile]

theorem exec_retryResend_tile {u : TileId} (hx : mfind s.txns id = some x) (hphase : x.phase = .refused) (hdst : x.dst = .tile u) :
    exec (.retryResend id) s = .next { s with txns := mins s.txns id { x with phase := .request } } := by
  rw [exec, execRetryResend, hx]
  dsimp only
  rw [hphase]
  dsimp only
  rw [hdst]
  rfl

theorem exec_retryResend_unrouted {d : DevId} (hx : mfind s.txns id = some x) (hphase : x.phase = .refused) (hdst : x.dst = .dev d)
    (hroute : bit (rget s (R.MOS_ROUTE d.toNat) F.MOS_ROUTE_ENTRY) 31 = false) :
    exec (.retryResend id) s = .next (takeReply id { x with phase := .request } .protection [] s) := by
  rw [exec, execRetryResend, hx]
  dsimp only
  rw [hphase]
  dsimp only
  rw [hdst]
  dsimp only
  rw [routeEntry, hroute, if_neg Bool.false_ne_true]

theorem exec_timeout {pc k : Nat} (hx : mfind s.txns id = some x) (hiss : x.iss = .xwrite t pc k) :
    exec (.meshTransactionTimeout id) s = .next (deliver id x .timeout [] s) := by
  rw [exec, execMeshTransactionTimeout, hx]
  dsimp only
  rw [hiss]

/-! ### Loads -/

/-- The bytes of a load of one part. -/
theorem loadByte_data {n : Nat} (hlen : data.length = n) :
    (List.range n).map (loadByte [⟨List.range n, some data⟩]) = data := by
  have hdata : data = (List.range n).map (fun k => data.getD k 0) :=
    List.ext_getElem (by simp [hlen]) fun i h _ => by simp [h]
  rw [hdata]
  exact loadByte_one ..

/-- The reply to a load of 8 bytes in one part writes the register and retires. -/
theorem loadReply_retires {rd : SReg} (va : Nat) (hlen : data.length = 8)
    (hload : (s.tile t).x.load = some ⟨.scalar rd 8 false, 4, [⟨List.range 8, none⟩]⟩) :
    SResult t 4 rd (BitVec.ofNat 64 (leNat data)) (s.modX t (fun c => { c with load := none })) (loadReply t 0 va .ok data s) := by
  have hwrite : ∀ w, loadWrite t (.scalar rd 8 false) [⟨List.range 8, some data⟩] w = wrS t rd (BitVec.ofNat 64 (leNat data)) w := by
    intro w
    simp only [loadWrite]
    rw [loadByte_data hlen]
    rfl
  have hpc : xPc (wrS t rd (BitVec.ofNat 64 (leNat data)) (s.modX t fun c => { c with load := none })) t = xPc s t := by
    rw [wrS]
    split <;> rfl
  have hreply : loadReply t 0 va .ok data s =
      xFinish t 4 (xSetS t rd (BitVec.ofNat 64 (leNat data)) (s.modX t fun c => { c with load := none })) := by
    rw [xSetS, xFinish, hpc, ← hwrite, loadReply, hload]
    rfl
  rw [hreply]
  exact sResult_retire ..

end

/-- Settles O26: a reply, a refusal that cannot be resent and a timeout all end the request the same way. -/
theorem meshReplies : Obligations.MeshReplies := by
  unfold Obligations.MeshReplies
  intro id x t pc k st data bad s hx hd
  refine ⟨fun hiss hphase hst => ?_, fun hiss hphase => ?_, fun rd idx hiss hphase hidx hlen hload => ?_, fun u hdst hphase => ?_,
    fun d hdst hphase hiss hroute => ?_, fun hiss => ?_⟩
  · have htile : issuerTile x.iss = some t := by rw [hiss]; rfl
    refine ⟨fun hbad => ?_, fun hbad hok => ?_⟩
    · rw [exec_meshReply hx hphase htile, if_neg (by simp [hbad]), takeReply_reached htile hd, if_neg hst, deliver_write hiss]
    · rw [exec_meshReply hx hphase htile, if_pos ⟨hbad, hok⟩, takeReply_reached htile hd, if_neg (by decide),
        deliver_failed hiss (by decide)]
  · have htile : issuerTile x.iss = some t := by rw [hiss]; rfl
    rw [exec_meshReply hx hphase htile, if_neg (by simp), takeReply_reached htile hd, if_pos rfl]
  · have htile : issuerTile x.iss = some t := by rw [hiss]; rfl
    subst hidx
    refine ⟨_, exec_meshReply hx hphase htile false, ?_⟩
    rw [if_neg (by simp), takeReply_reached htile hd, if_neg (by decide), deliver, hiss]
    exact loadReply_retires (s := without s id) _ hlen hload
  · exact exec_retryResend_tile hx hphase hdst
  · have htile : issuerTile ({ x with phase := .request } : Txn).iss = some t := by rw [hiss]; rfl
    rw [exec_retryResend_unrouted hx hphase hdst hroute, takeReply_reached htile hd, if_neg (by decide)]
    exact congrArg _ (deliver_failed (x := { x with phase := .request }) hiss (by decide))
  · rw [exec_timeout hx hiss, deliver_failed hiss (by decide)]

end Sys2Proof
end

section
/-! A step with nothing waiting is one cc of the counters (R123, R178, Table 4-16; log entry 36). -/

namespace Sys2Proof

open Sys2Proof.Machine

section
variable {t : TileId} {s : Machine.State}

/-- The registers that a cc of tile `t` counts in. -/
def cycleRegs (t : TileId) : List Nat := [R.XC_CYCLES t.toNat, R.XC_WDOG t.toNat, R.FC_PROGRESS t.toNat]

theorem OnlyRegs.mono {a b : List Nat} {u v : Machine.State} (h : OnlyRegs a u v) (hs : a ⊆ b) : OnlyRegs b u v :=
  ⟨h.rest, fun o ho => h.regs o fun hm => ho (hs hm)⟩

/-- A counter of a cc: one more, saturating. -/
theorem onlyRegs_rinc {offs : List Nat} {o : Nat} (f : Fld) (n : Nat) {u w : Machine.State} (ho : o ∈ offs) (h : OnlyRegs offs u w) :
    OnlyRegs offs u (rinc o f n w) := onlyRegs_rset f _ ho h

theorem xCycles_ne_xWdog (t : TileId) : R.XC_CYCLES t.toNat ≠ R.XC_WDOG t.toNat := by simp [R.XC_CYCLES, R.XC_WDOG]

theorem rget_rinc_other {o p : Nat} (f g : Fld) (n : Nat) (u : Machine.State) (h : o ≠ p) : rget (rinc p f n u) o g = rget u o g :=
  rget_rset_other _ _ _ _ h

/-- The X-core's part of a cc. -/
theorem xCycle_counts (t : TileId) (s : Machine.State) :
    rget (xCycle t s) (R.XC_CYCLES t.toNat) F.XC_CYCLES_COUNT =
      min (rget s (R.XC_CYCLES t.toNat) F.XC_CYCLES_COUNT + 1) (2 ^ F.XC_CYCLES_COUNT.w - 1) ∧
    rget (xCycle t s) (R.XC_WDOG t.toNat) F.XC_WDOG_COUNT = (if xState s t ≠ 3 then
      min (rget s (R.XC_WDOG t.toNat) F.XC_WDOG_COUNT + 1) (2 ^ F.XC_WDOG_COUNT.w - 1) else rget s (R.XC_WDOG t.toNat) F.XC_WDOG_COUNT) ∧
    OnlyRegs [R.XC_CYCLES t.toNat, R.XC_WDOG t.toNat] s (xCycle t s) := by
  have hne := xCycles_ne_xWdog t
  have hstate : xState (rinc (R.XC_CYCLES t.toNat) F.XC_CYCLES_COUNT 1 s) t = xState s t :=
    rget_rinc_other _ _ _ _ (by simp [R.XC_STATUS, R.XC_CYCLES])
  have hcycles : OnlyRegs [R.XC_CYCLES t.toNat, R.XC_WDOG t.toNat] s (rinc (R.XC_CYCLES t.toNat) F.XC_CYCLES_COUNT 1 s) :=
    onlyRegs_rinc _ _ (by simp) (.refl ..)
  have hheld : xcHalted = 3 := rfl
  simp only [xCycle, hstate, hheld]
  split
  next =>
    refine ⟨?_, ?_, onlyRegs_rinc _ _ (by simp) hcycles⟩
    · rw [rget_rinc_other _ _ _ _ hne, rget_rinc_same _ _ (by decide), satAdd]
    · rw [rget_rinc_same _ _ (by decide), rget_rinc_other _ _ _ _ hne.symm, satAdd]
  next => exact ⟨rget_rinc_same _ _ (by decide), rget_rinc_other _ _ _ _ hne.symm, hcycles⟩

theorem mem_allSlots (sl : SlotIdx) : sl ∈ allSlots :=
  List.mem_map.mpr ⟨sl.toNat, List.mem_range.mpr sl.isLt, by simp⟩

/-- A slot of the tile is BLOCKED. -/
theorem allSlots_blocked : allSlots.any (fun sl => slotState s t sl == slBlocked) = true ↔ ∃ sl, slotState s t sl = 3 := by
  simp only [List.any_eq_true, mem_allSlots, true_and, beq_iff_eq]
  rfl

/-- The F-core's part of a cc. -/
theorem fCycle_counts (t : TileId) (s : Machine.State) :
    rget (fCycle t s) (R.FC_PROGRESS t.toNat) F.FC_PROGRESS_COUNT = (if fState s t = 2 ∨ ∃ sl, slotState s t sl = 3 then
      min (rget s (R.FC_PROGRESS t.toNat) F.FC_PROGRESS_COUNT + 1) (2 ^ F.FC_PROGRESS_COUNT.w - 1) else 0) ∧
    OnlyRegs [R.FC_PROGRESS t.toNat] s (fCycle t s) := by
  have hwaiting : fcWaiting = 2 := rfl
  simp only [fCycle, allSlots_blocked, hwaiting]
  split
  next => exact ⟨rget_rinc_same _ _ (by decide), onlyRegs_rinc _ _ (by simp) (.refl ..)⟩
  next =>
    refine ⟨?_, onlyRegs_rput _ (by simp) (.refl ..)⟩
    rw [progress, rget, rraw_rput_same]
    rfl

/-- A cc of a tile with a launch. -/
theorem tileCycle_counts (t : TileId) (s : Machine.State) :
    rget (fCycle t (xCycle t s)) (R.XC_CYCLES t.toNat) F.XC_CYCLES_COUNT =
      min (rget s (R.XC_CYCLES t.toNat) F.XC_CYCLES_COUNT + 1) (2 ^ F.XC_CYCLES_COUNT.w - 1) ∧
    rget (fCycle t (xCycle t s)) (R.XC_WDOG t.toNat) F.XC_WDOG_COUNT = (if xState s t ≠ 3 then
      min (rget s (R.XC_WDOG t.toNat) F.XC_WDOG_COUNT + 1) (2 ^ F.XC_WDOG_COUNT.w - 1) else rget s (R.XC_WDOG t.toNat) F.XC_WDOG_COUNT) ∧
    rget (fCycle t (xCycle t s)) (R.FC_PROGRESS t.toNat) F.FC_PROGRESS_COUNT = (if fState s t = 2 ∨ ∃ sl, slotState s t sl = 3 then
      min (rget s (R.FC_PROGRESS t.toNat) F.FC_PROGRESS_COUNT + 1) (2 ^ F.FC_PROGRESS_COUNT.w - 1) else 0) ∧
    OnlyRegs (cycleRegs t) s (fCycle t (xCycle t s)) := by
  obtain ⟨hcycles, hwdog, hx⟩ := xCycle_counts t s
  obtain ⟨hprogress, hf⟩ := fCycle_counts t (xCycle t s)
  have hfs : fState (xCycle t s) t = fState s t := hx.rget (by simp [R.FC_STATUS, R.XC_CYCLES, R.XC_WDOG]) _
  have hslots : ∀ sl, slotState (xCycle t s) t sl = slotState s t sl := fun sl =>
    hx.rget (by have := sl.isLt; simp only [R.SLOT_STATE, R.XC_CYCLES, R.XC_WDOG, List.mem_cons, List.not_mem_nil, or_false]; omega) _
  have hold : rget (xCycle t s) (R.FC_PROGRESS t.toNat) F.FC_PROGRESS_COUNT = rget s (R.FC_PROGRESS t.toNat) F.FC_PROGRESS_COUNT :=
    hx.rget (by simp [R.FC_PROGRESS, R.XC_CYCLES, R.XC_WDOG]) _
  simp only [hfs, hslots, hold] at hprogress
  refine ⟨?_, ?_, hprogress, (hx.mono (by simp [cycleRegs])).trans (hf.mono (by simp [cycleRegs]))⟩
  · rw [hf.rget (by simp [R.XC_CYCLES, R.FC_PROGRESS]), hcycles]
  · rw [hf.rget (by simp [R.XC_WDOG, R.FC_PROGRESS]), hwdog]

/-- A cc of a block that holds one tile. -/
theorem cycle_one {c : Tile} (hs : s.tiles = [(t.toNat, c)]) :
    cycle s = if c.x.launch.isSome then fCycle t (xCycle t s) else s := by
  have htile : s.tile t = c := by simp [State.tile, hs, mget]
  have hid : BitVec.ofNat 11 t.toNat = t := by rw [BitVec.ofNat_toNat, BitVec.setWidth_eq]
  simp only [cycle, hs, List.foldl_cons, List.foldl_nil, hid, htile]

theorem step_idle (h : s.pending = []) : step s = .next (cycle s) := by simp only [step, h]

end

/-- Settles O3: an empty queue is one cc of every tile that the block holds. -/
theorem idleCycles : Obligations.IdleCycles := by
  unfold Obligations.IdleCycles
  intro s h
  refine ⟨fun hs => ?_, fun t c hs hl => ⟨_, step_idle h, ?_⟩, fun t c hs hl => ?_⟩
  · rw [step_idle h, cycle, hs, List.foldl_nil]
  · rw [cycle_one hs, if_pos (Option.isSome_iff_ne_none.mpr hl)]
    exact tileCycle_counts t s
  · rw [step_idle h, cycle_one hs, hl]
    rfl

end Sys2Proof
end

section
/-! How an X-core stops FAULTED: what its engines and streams leave, and what the launch's other tiles leave (R121 to R124). -/

namespace Sys2Proof

open Sys2Proof.Machine

/-! ### Changes inside a tile's block -/

/-- An offset in the register block of tile `t`. -/
def OfBlock (t : TileId) (o : Nat) : Prop := o / 0x10000 = 0x800 + t.toNat

/-- An offset in that block outside the X-core's control registers (Table 4-16). -/
def OfUnits (t : TileId) (o : Nat) : Prop := OfBlock t o ∧ ¬ (0x2000 ≤ o % 0x10000 ∧ o % 0x10000 < 0x4000)

/-- Of the registers only those that `p` names may differ, and of the tiles only tile `t`; the host queues are as they were. -/
structure TileTouched (t : TileId) (p : Nat → Prop) (u v : Machine.State) : Prop where
  regs   : ∀ o, ¬ p o → rraw v o = rraw u o
  tiles  : ∀ w, w ≠ t → v.tile w = u.tile w
  queues : v.queues = u.queues

section
variable {t : TileId} {p : Nat → Prop} {u v w : Machine.State}

theorem TileTouched.refl (t : TileId) (p : Nat → Prop) (u : Machine.State) : TileTouched t p u u :=
  ⟨fun _ _ => rfl, fun _ _ => rfl, rfl⟩

theorem TileTouched.trans (a : TileTouched t p u v) (b : TileTouched t p v w) : TileTouched t p u w :=
  ⟨fun o ho => (b.regs o ho).trans (a.regs o ho), fun x hx => (b.tiles x hx).trans (a.tiles x hx),
    b.queues.trans a.queues⟩

theorem TileTouched.mono {q : Nat → Prop} (h : TileTouched t p u v) (hpq : ∀ o, p o → q o) : TileTouched t q u v :=
  ⟨fun o ho => h.regs o (mt (hpq o) ho), h.tiles, h.queues⟩

theorem TileTouched.rget (h : TileTouched t p u v) {o : Nat} (ho : ¬ p o) (f : Fld) : rget v o f = rget u o f :=
  rget_congr (h.regs o ho) f

theorem tileTouched_rput {o : Nat} (x : Nat) (ho : p o) (h : TileTouched t p u v) : TileTouched t p u (rput o x v) :=
  h.trans ⟨fun _ hq => rraw_rput_other _ _ fun e => hq (e ▸ ho), fun _ _ => rfl, rfl⟩

theorem tileTouched_rset {o : Nat} (f : Fld) (x : Nat) (ho : p o) (h : TileTouched t p u v) : TileTouched t p u (rset o f x v) :=
  tileTouched_rput _ ho h

theorem tileTouched_modTile (f : Tile → Tile) (h : TileTouched t p u v) : TileTouched t p u (v.modTile t f) :=
  h.trans ⟨fun _ _ => rfl, fun _ hx => tile_modTile_other _ _ hx, rfl⟩

end

/-! ### Streams and engines stop -/

/-- What a stopping unit keeps of its tile: the X-core, and engine queues that are empty. -/
structure CoreKept (c d : Tile) : Prop where
  core : d.x = c.x
  ce   : c.ce = [] → d.ce = []
  gme  : c.gme = [] → d.gme = []

theorem CoreKept.refl (c : Tile) : CoreKept c c := ⟨rfl, id, id⟩

theorem CoreKept.trans {c d e : Tile} (a : CoreKept c d) (b : CoreKept d e) : CoreKept c e :=
  ⟨b.core.trans a.core, fun h => b.ce (a.ce h), fun h => b.gme (a.gme h)⟩

/-- The tile once its engines and its fetch program have stopped. -/
def enginesStopped (c : Tile) : Tile :=
  { c with ce := [], gme := [], f := { c.f with wait := none, load := none, store := false } }

section
variable (t : TileId) (s : Machine.State)

theorem coreKept_withdraw (who : AcqWho) : CoreKept (s.tile t) ((withdraw t who s).tile t) := by
  rw [withdraw, tile_modTile_same]
  exact ⟨rfl, id, id⟩

theorem tileTouched_withdraw (p : Nat → Prop) (who : AcqWho) : TileTouched t p s (withdraw t who s) := tileTouched_modTile _ (.refl ..)

theorem slotState_ofUnits (sl : SlotIdx) : OfUnits t (R.SLOT_STATE t.toNat sl.toNat) := by
  have := sl.isLt
  unfold OfUnits OfBlock R.SLOT_STATE
  omega

theorem slotAbort_stops (sl : SlotIdx) (st : Status) :
    TileTouched t (OfUnits t) s (slotAbort t sl st s) ∧ CoreKept (s.tile t) ((slotAbort t sl st s).tile t) := by
  have ho := slotState_ofUnits t sl
  unfold slotAbort
  dsimp only
  split
  next =>
    refine ⟨tileTouched_rset _ _ ho (tileTouched_rset _ _ ho (tileTouched_rset _ _ ho
      (tileTouched_modTile _ (tileTouched_withdraw ..)))), (coreKept_withdraw t s (.slot sl)).trans ?_⟩
    rw [tile_rset, tile_rset, setSlotState, tile_rset, tile_modTile_same]
    exact ⟨rfl, id, id⟩
  next => exact ⟨.refl .., .refl _⟩

theorem slotsAbort_stop (st : Status) (l : List SlotIdx) :
    TileTouched t (OfUnits t) s (l.foldl (fun s sl => slotAbort t sl st s) s) ∧
      CoreKept (s.tile t) ((l.foldl (fun s sl => slotAbort t sl st s) s).tile t) := by
  induction l generalizing s with
  | nil => exact ⟨.refl .., .refl _⟩
  | cons sl l ih =>
    obtain ⟨htouched, hkept⟩ := slotAbort_stops t s sl st
    obtain ⟨htouched', hkept'⟩ := ih (slotAbort t sl st s)
    exact ⟨htouched.trans htouched', hkept.trans hkept'⟩

/-- A fetch program that runs or waits stops. -/
theorem fetchStops :
    TileTouched t (OfUnits t) s (if fState s t = fcRunning ∨ fState s t = fcWaiting then setFState t fcIdle s else s) ∧
      (if fState s t = fcRunning ∨ fState s t = fcWaiting then setFState t fcIdle s else s).tile t = s.tile t := by
  have ho : OfUnits t (R.FC_STATUS t.toNat) := by unfold OfUnits OfBlock R.FC_STATUS; omega
  split
  · exact ⟨tileTouched_rset _ _ ho (tileTouched_rset _ _ ho (tileTouched_rset _ _ ho (.refl ..))), by simp only [setFState, tile_rset]⟩
  · exact ⟨.refl .., rfl⟩

/-- The engines empty their queues, the streams abort and the fetch program stops; the X-core is as it was. -/
theorem stopUnits_stops : TileTouched t (OfUnits t) s (stopUnits t s) ∧ ((stopUnits t s).tile t).x = (s.tile t).x ∧
    ((stopUnits t s).tile t).ce = [] ∧ ((stopUnits t s).tile t).gme = [] := by
  have ho : OfUnits t (R.PRED_STATUS t.toNat) := by unfold OfUnits OfBlock R.PRED_STATUS; omega
  let a := withdraw t .fprog (withdraw t .gme (withdraw t .ce s))
  let b := rset (R.PRED_STATUS t.toNat) F.PRED_STATUS_BUSY 0 (a.modTile t enginesStopped)
  have ha : TileTouched t (OfUnits t) s a := (tileTouched_withdraw ..).trans ((tileTouched_withdraw ..).trans (tileTouched_withdraw ..))
  have hkept : CoreKept (s.tile t) (a.tile t) := (coreKept_withdraw ..).trans ((coreKept_withdraw ..).trans (coreKept_withdraw ..))
  have hb : b.tile t = enginesStopped (a.tile t) := tile_modTile_same ..
  obtain ⟨hslots, hslotsKept⟩ := slotsAbort_stop t b .aborted allSlots
  obtain ⟨hfetch, hfetchTile⟩ := fetchStops t (allSlots.foldl (fun s sl => slotAbort t sl .aborted s) b)
  rw [hb] at hslotsKept
  have hstop : stopUnits t s = (if fState (allSlots.foldl (fun s sl => slotAbort t sl .aborted s) b) t = fcRunning ∨
      fState (allSlots.foldl (fun s sl => slotAbort t sl .aborted s) b) t = fcWaiting then
    setFState t fcIdle (allSlots.foldl (fun s sl => slotAbort t sl .aborted s) b)
    else allSlots.foldl (fun s sl => slotAbort t sl .aborted s) b) := rfl
  rw [hstop, hfetchTile]
  exact ⟨((tileTouched_rset _ _ ho (tileTouched_modTile _ ha)).trans hslots).trans hfetch, hslotsKept.core.trans hkept.core,
    hslotsKept.ce rfl, hslotsKept.gme rfl⟩

/-! ### The X-core quits -/

/-- The X-core that stops: nothing waits or loads, and only posts that no failed write holds back stay held. -/
def quitted (x : XCore) : XCore :=
  { x with wait := none, load := none, held := x.held.filter (fun h => postLives x h.seq), faults := [], skipBrk := false }

/-- The core's last step, once its reopen is withdrawn. -/
theorem quit_from {a : Machine.State} (htouched : TileTouched t (· = R.XC_STATUS t.toNat) s a) (hcore : (a.tile t).x = (s.tile t).x) :
    TileTouched t (· = R.XC_STATUS t.toNat) s
        ((rset (R.XC_STATUS t.toNat) F.XC_STATUS_WAIT_OBJ 0 (abandonTxns t (withdraw t .xcore a))).modX t quitted) ∧
      (((rset (R.XC_STATUS t.toNat) F.XC_STATUS_WAIT_OBJ 0 (abandonTxns t (withdraw t .xcore a))).modX t quitted).tile t).x =
        quitted (s.tile t).x := by
  have habandon : TileTouched t (· = R.XC_STATUS t.toNat) a (abandonTxns t (withdraw t .xcore a)) :=
    (tileTouched_withdraw t a _ .xcore).trans ⟨fun _ _ => rfl, fun _ _ => rfl, rfl⟩
  refine ⟨tileTouched_modTile _ (tileTouched_rset _ _ rfl (htouched.trans habandon)), ?_⟩
  rw [tile_modX, tile_rset, ← hcore, ← (coreKept_withdraw t a .xcore).core]
  rfl

theorem quitX_quits : TileTouched t (· = R.XC_STATUS t.toNat) s (quitX t s) ∧ ((quitX t s).tile t).x = quitted (s.tile t).x := by
  unfold quitX
  dsimp only
  split
  · exact quit_from t s (tileTouched_modTile _ (.refl ..)) (by rw [setReopen, tile_modTile_same])
  · exact quit_from t s (.refl ..) rfl

theorem recordXFault_records (source : Nat) (st : Status) (pc : Nat) (precise illegal : Bool) :
    TileTouched t (fun o => o = R.XC_FAULT t.toNat ∨ o = R.XC_FAULT_PC t.toNat) s (recordXFault t source st pc precise illegal s) :=
  tileTouched_rput _ (.inr rfl) (tileTouched_rput _ (.inl rfl) (.refl ..))

/-! ### The launch's other tiles -/

theorem abortTile_touches : TileTouched t (OfBlock t) s (abortTile t s) := by
  have hstatus : OfBlock t (R.XC_STATUS t.toNat) := by unfold OfBlock R.XC_STATUS; omega
  have hfault : OfBlock t (R.XC_FAULT t.toNat) := by unfold OfBlock R.XC_FAULT; omega
  have hfaultPc : OfBlock t (R.XC_FAULT_PC t.toNat) := by unfold OfBlock R.XC_FAULT_PC; omega
  have htile : OfBlock t (R.TILE_STATE t.toNat) := by unfold OfBlock R.TILE_STATE; omega
  unfold abortTile
  split
  next => exact .refl ..
  next =>
    have hrecord : TileTouched t (OfBlock t) s
        (if xState s t = xcFaulted then s else recordXFault t 6 .aborted (xPc s t) false false s) := by
      split
      · exact .refl ..
      · exact (recordXFault_records ..).mono (by rintro o (rfl | rfl) <;> assumption)
    refine tileTouched_rset _ _ htile (tileTouched_rset _ _ hstatus (tileTouched_modTile _ (hrecord.trans ?_)))
    exact ((quitX_quits ..).1.mono (by rintro o rfl; exact hstatus)).trans ((stopUnits_stops ..).1.mono fun _ h => h.1)

end

/-- Tile `t` and the registers of its block are as they were. -/
structure BlockKept (t : TileId) (u v : Machine.State) : Prop where
  regs : ∀ o, OfBlock t o → rraw v o = rraw u o
  tile : v.tile t = u.tile t

section
variable {t : TileId} {s u v w : Machine.State}

theorem BlockKept.refl (t : TileId) (u : Machine.State) : BlockKept t u u := ⟨fun _ _ => rfl, rfl⟩

theorem BlockKept.trans (a : BlockKept t u v) (b : BlockKept t v w) : BlockKept t u w :=
  ⟨fun o ho => (b.regs o ho).trans (a.regs o ho), b.tile.trans a.tile⟩

theorem abortTile_keeps {x : TileId} (h : t ≠ x) (s : Machine.State) : BlockKept t s (abortTile x s) := by
  have htouched := abortTile_touches x s
  have hne : t.toNat ≠ x.toNat := fun he => h (BitVec.eq_of_toNat_eq he)
  exact ⟨fun o ho => htouched.regs o fun hx => hne (by unfold OfBlock at ho hx; omega), htouched.tiles t h⟩

/-- Aborting the other tiles of a launch keeps the tile that reports. -/
theorem abortOthers_keeps (q : QIdx) (seq : W32) (h : ∀ c, s.cmd q seq = some c → ∀ x ∈ c.tiles, x < 2048) :
    BlockKept t s (abortOthers q seq t s) := by
  unfold abortOthers
  split
  next c hc =>
    refine List.foldlRecOn (motive := BlockKept t s) _ _ (.refl ..) fun v hv x hx => ?_
    split
    next => exact hv
    next hne =>
      refine hv.trans (abortTile_keeps (fun ht => hne ?_) v)
      rw [ht, BitVec.toNat_ofNat, Nat.mod_eq_of_lt (h c hc x hx)]
  next => exact .refl ..

end

end Sys2Proof
end

section
/-! Imprecise faults, the watchdog, reserved encodings and RESUME (R106, R121 to R125). -/

namespace Sys2Proof

open Sys2Proof.Machine

/-! ### An X-core enters FAULTED -/

/-- The fault register's value (Table 4-16). -/
theorem faultWord_eq (source : Nat) (st : Status) (precise illegal : Bool) (hs : source < 8) :
    (st.code + source <<< 8 + b2n illegal <<< 11 + b2n precise <<< 12) % 2 ^ 64 =
      st.code + 256 * source + (if illegal then 2048 else 0) + if precise then 4096 else 0 := by
  have hcode : st.code ≤ 13 := by cases st <;> decide
  simp only [Nat.shiftLeft_eq]
  cases illegal <;> cases precise <;> simp [b2n] <;> omega

/-- The tile as its core has stopped FAULTED, the launch not yet told. -/
def coreStopped (t : TileId) (source : Nat) (st : Status) (pc : Nat) (precise illegal : Bool) (s : Machine.State) : Machine.State :=
  setXState t xcFaulted (stopUnits t (quitX t (recordXFault t source st pc precise illegal s)))

theorem enterFault_eq (t : TileId) (source : Nat) (st : Status) (pc va : Nat) (precise illegal : Bool) (s : Machine.State) :
    enterFault t source st pc va precise illegal s = reportTile t st va (coreStopped t source st pc precise illegal s) := rfl

section
variable {t : TileId} {source pc : Nat} {st : Status} {precise illegal : Bool} {s u v : Machine.State}

/-- What stops the core touches none of its control registers but `XC_STATUS` and the fault's. -/
theorem coreStopped_touches : TileTouched t (fun o => OfUnits t o ∨ o ∈ [R.XC_STATUS t.toNat, R.XC_FAULT t.toNat, R.XC_FAULT_PC t.toNat]) s
    (coreStopped t source st pc precise illegal s) := by
  refine tileTouched_rset _ _ (by simp) (.trans (v := recordXFault t source st pc precise illegal s) ?_ (.trans (v := quitX t
    (recordXFault t source st pc precise illegal s)) ?_ ?_))
  · exact (recordXFault_records ..).mono (by rintro o (rfl | rfl) <;> simp)
  · exact (quitX_quits ..).1.mono (by rintro o rfl; simp)
  · exact (stopUnits_stops ..).1.mono fun _ h => .inl h

/-- The registers of the fault outlast the stop. -/
theorem rraw_coreStopped {o : Nat} (ho : o = R.XC_FAULT t.toNat ∨ o = R.XC_FAULT_PC t.toNat) :
    rraw (coreStopped t source st pc precise illegal s) o = rraw (recordXFault t source st pc precise illegal s) o := by
  have hstatus : o ≠ R.XC_STATUS t.toNat := by unfold R.XC_FAULT R.XC_FAULT_PC at ho; unfold R.XC_STATUS; omega
  have hunits : ¬ OfUnits t o := by unfold R.XC_FAULT R.XC_FAULT_PC at ho; unfold OfUnits OfBlock; omega
  rw [coreStopped, setXState, rraw_rset_other _ _ _ hstatus, (stopUnits_stops ..).1.regs o hunits, (quitX_quits ..).1.regs o hstatus]

theorem core_coreStopped : ((coreStopped t source st pc precise illegal s).tile t).x = quitted (s.tile t).x := by
  rw [coreStopped, setXState, tile_rset, (stopUnits_stops ..).2.1, (quitX_quits ..).2]
  rfl

theorem queues_coreStopped : ((coreStopped t source st pc precise illegal s).tile t).ce = [] ∧
    ((coreStopped t source st pc precise illegal s).tile t).gme = [] := by
  rw [coreStopped, setXState, tile_rset]
  exact (stopUnits_stops ..).2.2

theorem coreStopped_stopped (hs : source < 8) (hpc : pc < 2 ^ 48) :
    XStopped t source st pc precise illegal s (coreStopped t source st pc precise illegal s) where
  state := rget_rset_same _ _ _ _ (by decide)
  fault := by
    rw [rraw_coreStopped (.inl rfl), recordXFault, rraw_rput_other _ _ (by simp [R.XC_FAULT, R.XC_FAULT_PC]), rraw_rput_same,
      faultWord_eq source st precise illegal hs]
  at_pc := by rw [rraw_coreStopped (.inr rfl), recordXFault, rraw_rput_same, Nat.mod_eq_of_lt (by omega)]
  pc := coreStopped_touches.rget (by
    simp only [OfUnits, OfBlock, R.XC_PC, R.XC_STATUS, R.XC_FAULT, R.XC_FAULT_PC, List.mem_cons, List.not_mem_nil, or_false]
    omega) _
  queues := queues_coreStopped
  core := core_coreStopped
  memory a := by
    rw [rdByte, rdByte, coreStopped, mem_setXState, mem_stopUnits, mem_quitX, mem_recordXFault]

/-! ### The launch is told -/

theorem cmd_cmdReport {q : QIdx} {seq : W32} {detail va : Nat} {c : Cmd} (hc : (cmdReport q seq st detail va s).cmd q seq = some c) :
    ∃ d, s.cmd q seq = some d ∧ c.tiles = d.tiles := by
  unfold cmdReport State.cmd State.modCmd at hc
  rw [queue_modQueue_same, find?_modSeq_same, Option.map_eq_some_iff] at hc
  · obtain ⟨d, hd, rfl⟩ := hc
    refine ⟨d, hd, ?_⟩
    split_ifs <;> rfl
  · intro d
    split_ifs <;> rfl

theorem reportTile_keeps (va : Nat) (h : LaunchTiles s t) : BlockKept t s (reportTile t st va s) := by
  unfold reportTile
  split
  next q seq hl =>
    have hreport : BlockKept t s (cmdReport q seq st t.toNat va s) := ⟨fun _ _ => rfl, rfl⟩
    dsimp only
    split
    · refine hreport.trans (abortOthers_keeps q seq fun c hc => ?_)
      obtain ⟨d, hd, htiles⟩ := cmd_cmdReport hc
      exact htiles ▸ h q seq d hl hd
    · exact hreport
  next => exact .refl ..

theorem launchTiles_of (h : LaunchTiles s t) (hl : (u.tile t).x.launch = (s.tile t).x.launch) (hq : u.queues = s.queues) :
    LaunchTiles u t := fun q seq c hu hc => h q seq c (hl ▸ hu) (cmd_of_queues hq q seq ▸ hc)

/-- A tile kept with its block is stopped as it was. -/
theorem xStopped_of_kept (h : XStopped t source st pc precise illegal s u) (hk : BlockKept t u v) (hm : v.mem = u.mem) :
    XStopped t source st pc precise illegal s v where
  state := (rget_congr (hk.regs _ (by unfold OfBlock R.XC_STATUS; omega)) _).trans h.state
  fault := (hk.regs _ (by unfold OfBlock R.XC_FAULT; omega)).trans h.fault
  at_pc := (hk.regs _ (by unfold OfBlock R.XC_FAULT_PC; omega)).trans h.at_pc
  pc := (rget_congr (hk.regs _ (by unfold OfBlock R.XC_PC; omega)) _).trans h.pc
  queues := by rw [hk.tile]; exact h.queues
  core := by rw [hk.tile]; exact h.core
  memory a := by rw [rdByte, hm]; exact h.memory a

/-- A core that enters FAULTED stops, and with it what it feeds; the tiles of its launch are told. -/
theorem enterFault_stops (va : Nat) (h : LaunchTiles s t) (hs : source < 8) (hpc : pc < 2 ^ 48) :
    XStopped t source st pc precise illegal s (enterFault t source st pc va precise illegal s) ∧
      ((s.tile t).x.launch = none → XFaulted t source st pc precise illegal s (enterFault t source st pc va precise illegal s)) := by
  have hstop := coreStopped_stopped (t := t) (s := s) (st := st) (precise := precise) (illegal := illegal) hs hpc
  have htouched := coreStopped_touches (t := t) (s := s) (source := source) (st := st) (pc := pc) (precise := precise) (illegal := illegal)
  have hlaunch : ((coreStopped t source st pc precise illegal s).tile t).x.launch = (s.tile t).x.launch := by rw [core_coreStopped]; rfl
  have hall := xStopped_of_kept hstop (reportTile_keeps (st := st) va (launchTiles_of h hlaunch htouched.queues)) (mem_reportTile ..)
  rw [enterFault_eq]
  refine ⟨hall, fun hnone => ⟨hall, fun w hw => ?_⟩⟩
  rw [reportTile, hlaunch, hnone]
  exact htouched.tiles w hw

/-! ### A reserved encoding -/

theorem memTouched_meetCodewords (cs : List Nat) (u : Machine.State) : MemTouched u (meetCodewords cs u).2 := by
  induction cs generalizing u with
  | nil => exact .refl u
  | cons c cs ih => exact (memTouched_meetCodeword c u).trans (ih _)

/-- A read of memory, wherever it goes and however it ends. -/
theorem memTouched_localRead (l : List Nat) (u : Machine.State) : MemTouched u (localRead l u).2.2 := by
  have hmeet := (memTouched_countCorrs (codewords l) u).trans ((memTouched_countPoison (codewords l) _).trans
    (memTouched_meetCodewords (codewords l) _))
  unfold localRead memRead
  dsimp only
  split
  · split
    · exact memTouched_loseLines ..
    · split
      · exact hmeet.trans (memTouched_raceCells ..)
      · exact hmeet
  · exact .refl u

/-- What a fetch keeps of the launch: the X-core and the host queues. -/
structure LaunchKept (t : TileId) (u v : Machine.State) : Prop where
  core   : (v.tile t).x = (u.tile t).x
  queues : v.queues = u.queues

theorem LaunchKept.trans {w : Machine.State} (a : LaunchKept t s u) (b : LaunchKept t u w) : LaunchKept t s w :=
  ⟨b.core.trans a.core, b.queues.trans a.queues⟩

theorem launchKept_of_xlat (h : XlatTouched t s u) : LaunchKept t s u :=
  ⟨by rw [h.tile], (congrArg (fun s : Machine.State => s.queues) h.rest :)⟩

theorem launchKept_of_mem (h : MemTouched s u) : LaunchKept t s u :=
  ⟨congrArg (fun s => (s.tile t).x) h.rest, h.queues⟩

theorem launchKept_fetchWord {unit pc : Nat} (hok : (fetchWord t unit pc s).1 = none) : LaunchKept t s (fetchWord t unit pc s).2 := by
  have htr := launchKept_of_xlat (xlatTouched_translate t pc true false s)
  unfold fetchWord at hok ⊢
  split at hok <;> rename_i heq <;> rw [heq] at htr
  · cases hok
  · dsimp only at hok ⊢
    split at hok
    · exact htr.trans (launchKept_of_mem (memTouched_localRead ..))
    · cases hok
    · cases hok
    · exact htr
    · exact htr

theorem launchKept_fetched {len : Nat} (hok : (xFetch t len s).1 = none) : LaunchKept t s (fetched s t len) := by
  unfold fetched
  unfold xFetch at hok ⊢
  dsimp only at hok ⊢
  split at hok
  · cases hok
  next s1 heq =>
    have hfirst := launchKept_fetchWord (congrArg Prod.fst heq)
    rw [heq] at hfirst
    split
    next hlen =>
      rw [if_pos hlen] at hok
      split at hok
      · cases hok
      next s2 heq2 =>
        have hsecond := launchKept_fetchWord (congrArg Prod.fst heq2)
        rw [heq2] at hsecond
        exact hfirst.trans hsecond
    next => exact hfirst

theorem exec_reservedEncoding {w0 w1 : BitVec 32} (h : Issues s t (if w0.getLsbD 0 then 8 else 4)) (hw : xDecode t 0 w0 w1 = none) :
    exec (.reservedEncoding t w0 w1) s = .next (enterFault t 0 .aborted (xPc (fetched s t (if w0.getLsbD 0 then 8 else 4)) t) 0 true true
      (fetched s t (if w0.getLsbD 0 then 8 else 4))) := by
  obtain ⟨hready, hbreak, hfetch⟩ := h
  rw [exec, execReservedEncoding, hw, if_neg (by simp), if_pos hready, if_neg (by simp [hbreak])]
  unfold fetched
  generalize xFetch t (if w0.getLsbD 0 then 8 else 4) s = r at hfetch ⊢
  obtain ⟨e, v⟩ := r
  subst hfetch
  rfl

/-! ### Dispatch -/

theorem exec_impreciseFault {f : XFault} (hf : firstFault (s.tile t).x.faults = some f)
    (hs : xState s t = 1 ∨ xState s t = 2 ∨ xState s t = 3) :
    exec (.impreciseFault t) s = .next (enterFault t f.source f.status f.pc f.va false false s) := by
  rw [exec, execImpreciseFault, hf]
  exact congrArg _ (if_pos hs)

theorem wdogLimit_basic (h : xExpert s t = false) : wdogLimit s t = 2 ^ 24 := by
  rw [wdogLimit, h, Bool.false_and, if_neg Bool.false_ne_true]

theorem exec_watchdogTimeout (h : xExpert s t = false) : exec (.watchdogTimeout t) s =
    .next (if (xState s t = 1 ∨ xState s t = 2) ∧ 2 ^ 24 ≤ rget s (R.XC_WDOG t.toNat) F.XC_WDOG_COUNT then
      enterFault t 5 .timeout (xPc s t) 0 false false s else s) := by
  rw [exec, execWatchdogTimeout, wdogLimit_basic h]
  rfl

theorem xResume_eq : xResume t s = if xState s t = 3 then rset (R.XC_STATUS t.toNat) F.XC_STATUS_STATE 1 s else s := rfl

theorem exec_xcResume (h : HostTile s t) : exec (.xcResume t) s = .next (xResume t s) := by
  rw [exec, execXcResume, hostTile, hostWrite_of_reaches _ h.1, if_pos h.2]

theorem xPc_lt (u : Machine.State) (t : TileId) : xPc u t < 2 ^ 48 := Nat.mod_lt _ (by decide)

end

/-- Settles O24: every way into FAULTED stops the same things, and telling the launch touches nothing of the tile that reports. -/
theorem coreFaults : Obligations.CoreFaults := by
  unfold Obligations.CoreFaults
  intro t f w0 w1 s u hl
  refine ⟨fun hf hs hsource hpc => ⟨_, exec_impreciseFault hf hs, enterFault_stops _ hl hsource hpc⟩, fun hf => ?_,
    fun hs hx hw => ⟨_, (exec_watchdogTimeout hx).trans (congrArg _ (if_pos ⟨hs, hw⟩)), enterFault_stops _ hl (by decide) (xPc_lt s t)⟩,
    fun hx hw => (exec_watchdogTimeout hx).trans (congrArg _ (if_neg fun h => absurd h.2 (by omega))), fun hi hu hw => ?_,
    fun hh => ⟨fun hs => ⟨_, exec_xcResume hh, ?_⟩, fun hs => ?_⟩⟩
  · rw [exec, execImpreciseFault, hf]
    rfl
  · subst hu
    have hkept := launchKept_fetched hi.2.2
    obtain ⟨hstop, hfaulted⟩ := enterFault_stops (source := 0) (st := .aborted) (precise := true) (illegal := true) 0
      (launchTiles_of hl (congrArg XCore.launch hkept.core) hkept.queues) (by decide) (xPc_lt _ t)
    exact ⟨_, exec_reservedEncoding hi hw, hstop, fun hnone => hfaulted (hkept.core ▸ hnone)⟩
  · rw [xResume_eq, if_pos hs]
    exact ⟨rget_rset_same _ _ _ _ (by decide), onlyRegs_rset _ _ (List.mem_singleton_self _) (.refl ..)⟩
  · rw [exec_xcResume hh, xResume_eq, if_neg hs]

end Sys2Proof
end

section
/-! The engines' queues and links, and the Cube Engine (R115, R187, R199, R271, R272). -/

namespace Sys2Proof

open Sys2Proof.Machine

/-! ### Links -/

/-- The state with an engine's link acquire pending. -/
def linkWaiting (t : TileId) (n : SemIdx) (who : AcqWho) (s : Machine.State) : Machine.State :=
  setWaiters t n (semWaiters s t n ++ [⟨who, 1⟩]) s

section
variable {t : TileId} {n : SemIdx} {who : AcqWho} {s u : Machine.State}

theorem acquire_link (h : ¬ (semWaiters s t n = [] ∧ 1 ≤ semVal s t n)) : acquire t n who 1 s = (false, linkWaiting t n who s) :=
  acquire_waits Nat.one_ne_zero h

theorem tile_linkWaiting : (linkWaiting t n who s).tile t =
    { s.tile t with waiters := mset (fun _ => []) (s.tile t).waiters n.toNat (semWaiters s t n ++ [⟨who, 1⟩]) } :=
  tile_modTile_same ..

theorem semWaiters_linkWaiting : semWaiters (linkWaiting t n who s) t n = semWaiters s t n ++ [⟨who, 1⟩] := by
  rw [semWaiters, tile_linkWaiting]
  exact mget_mset_same ..

theorem onlyTile_linkWaiting (h : OnlyTile t [] u s) : OnlyTile t [] u (linkWaiting t n who s) := by
  rw [linkWaiting, setWaiters]
  exact onlyTile_modTile _ h

theorem emptySem_toNat (k : PairIdx) : (emptySem k).toNat = 2 * k.toNat := by
  have := k.isLt
  rw [emptySem, BitVec.toNat_ofNat, Nat.mod_eq_of_lt (by omega)]

/-- A post on the EMPTY of one pair keeps the EMPTY of another. -/
theorem semVal_otherPair {a b : PairIdx} {cnt : Nat} (h : SemPosted t (emptySem a) cnt s u) (hab : a ≠ b) :
    semVal u t (emptySem b) = semVal s t (emptySem b) := by
  have hne : a.toNat ≠ b.toNat := fun he => hab (BitVec.eq_of_toNat_eq he)
  have hb := b.isLt
  refine h.frame.rget ?_ _
  simp only [R.SEM, R.FC_PROGRESS, emptySem_toNat, List.mem_cons, List.not_mem_nil, or_false]
  omega

theorem tile_posted {cnt : Nat} (h : SemPosted t n cnt s u) : u.tile t = s.tile t := h.frame.tile t

theorem semWaiters_congr {v : Machine.State} (h : (u.tile t).waiters = (v.tile t).waiters) (k : SemIdx) :
    semWaiters u t k = semWaiters v t k := by rw [semWaiters, semWaiters, h]

end

/-! ### The head of the Cube Engine's queue -/

section
variable {t : TileId} {env : EngEnv} {e : EngCmd} {es : List EngCmd} {s : Machine.State}

theorem tile_ceHead (f : EngCmd → EngCmd) : (ceHead t f s).tile t = { s.tile t with ce := modHead f (s.tile t).ce } := tile_modTile_same ..

theorem ceHead_left (f : EngCmd → EngCmd) (h : (s.tile t).ce = e :: es) :
    ((ceHead t f s).tile t).ce = f e :: es ∧ OnlyTile t [] s (ceHead t f s) :=
  ⟨by rw [tile_ceHead, h]; rfl, onlyTile_modTile _ (.refl ..)⟩

theorem ceDone_left (bad : Option (Status × Nat)) (h : (s.tile t).ce = e :: es) :
    ((ceDone t bad s).tile t).ce = { e with phase := .done (bad.getD (.ok, 0)).1 (bad.getD (.ok, 0)).2 } :: es ∧
      OnlyTile t [] s (ceDone t bad s) := ceHead_left _ h

theorem cePostIn_none (h : e.imm.linEn = false) : cePostIn t e s = s := by rw [cePostIn, h, if_neg Bool.false_ne_true]

/-! ### An instruction is taken, waits for its links, and runs -/

theorem ceAccept_mm (hop : e.op = .ceMm) (hq : inQuad s t = false) : ceAccept t env e s =
    (if ceRefused s t true e.da e.db e.dc e.imm then some (.aborted, 0) else none, e, s) := by
  rw [ceAccept, hq, Bool.false_and, if_neg Bool.false_ne_true, hop]

theorem ceExecute_refused {x : Status × Nat} {d : EngCmd} {u : Machine.State} (h : (s.tile t).ce = e :: es) (hp : e.phase = .queued)
    (ha : ceAccept t env e s = (some x, d, u)) : exec (.ceExecute t env) s = .next (ceDone t (some x) u) := by
  rw [exec, execCeExecute, h]
  dsimp only
  rw [hp]
  dsimp only
  rw [ha]

theorem ceExecute_waits {d : EngCmd} {u : Machine.State} (h : (s.tile t).ce = e :: es) (hp : e.phase = .queued)
    (ha : ceAccept t env e s = (none, d, u)) (hl : d.imm.linEn = true)
    (hw : ¬ (semWaiters u t (fullSem d.imm.lin) = [] ∧ 1 ≤ semVal u t (fullSem d.imm.lin))) :
    exec (.ceExecute t env) s =
      .next (ceHead t (fun c => { c with phase := .waitIn }) (linkWaiting t (fullSem d.imm.lin) .ce u)) := by
  rw [exec, execCeExecute, h]
  dsimp only
  rw [hp]
  dsimp only
  rw [ha]
  dsimp only
  rw [if_pos hl, acquire_link hw]
  rfl

theorem ceExecute_haveIn (h : (s.tile t).ce = e :: es) (hp : e.phase = .haveIn) :
    exec (.ceExecute t env) s = .next (ceFromIn t env e s) := by
  rw [exec, execCeExecute, h]
  dsimp only
  rw [hp]

theorem ceExecute_ready (h : (s.tile t).ce = e :: es) (hp : e.phase = .ready) :
    exec (.ceExecute t env) s = .next (ceBody t env e s) := by
  rw [exec, execCeExecute, h]
  dsimp only
  rw [hp]

theorem ceFromIn_read {p : Option SpMeta × List (TileId × Nat × Byte)} {u : Machine.State} (hop : e.op = .ceMm)
    (hread : ceProduct t env e.da e.db e.dc e.imm s = (.ok p, u)) :
    ceFromIn t env e s = ceOut t env { e with held := some ⟨p.1, p.2, [], writeVas (tdOf e.dc)⟩ }
      (ceHead t (fun _ => { e with held := some ⟨p.1, p.2, [], writeVas (tdOf e.dc)⟩ }) (cePostIn t e u)) := by
  obtain ⟨sp, cells⟩ := p
  rw [ceFromIn, hop]
  dsimp only
  rw [hread]
  rfl

theorem ceOut_waits (hl : e.imm.loutEn = true)
    (hw : ¬ (semWaiters s t (emptySem e.imm.lout) = [] ∧ 1 ≤ semVal s t (emptySem e.imm.lout))) :
    ceOut t env e s = ceHead t (fun c => { c with phase := .waitOut }) (linkWaiting t (emptySem e.imm.lout) .ce s) := by
  rw [ceOut, if_pos hl, acquire_link hw]
  rfl

/-- Reads done, the output taken: EMPTY of LIN is posted, then EMPTY of LOUT is waited for (R115). -/
theorem ceRead_waits {p : Option SpMeta × List (TileId × Nat × Byte)} {u : Machine.State} (hu : (u.tile t).ce = e :: es)
    (h : (s.tile t).ce = e :: es) (hp : e.phase = .haveIn) (hop : e.op = .ceMm)
    (hread : ceProduct t env e.da e.db e.dc e.imm s = (.ok p, u)) (hin : e.imm.linEn = true) (hout : e.imm.loutEn = true)
    (hne : e.imm.lin ≠ e.imm.lout)
    (hw : ¬ (semWaiters u t (emptySem e.imm.lout) = [] ∧ 1 ≤ semVal u t (emptySem e.imm.lout))) :
    ∃ a v, SemPosted t (emptySem e.imm.lin) 1 u a ∧ exec (.ceExecute t env) s = .next v ∧
      (v.tile t).ce = { e with held := some ⟨p.1, p.2, [], writeVas (tdOf e.dc)⟩, phase := .waitOut } :: es ∧
      semWaiters v t (emptySem e.imm.lout) = semWaiters u t (emptySem e.imm.lout) ++ [⟨.ce, 1⟩] ∧ OnlyTile t [] a v := by
  have hpost := semPost_posted t (emptySem e.imm.lin) 1 u Nat.one_ne_zero
  have hread' := ceFromIn_read hop hread
  rw [cePostIn, if_pos hin] at hread'
  generalize semPost t (emptySem e.imm.lin) 1 u = a at hpost hread'
  generalize hd : ({ e with held := some ⟨p.1, p.2, [], writeVas (tdOf e.dc)⟩ } : EngCmd) = d at hread'
  have hlout : d.imm = e.imm := by rw [← hd]
  have ha : (a.tile t).ce = e :: es := by rw [tile_posted hpost, hu]
  obtain ⟨hhead, honly⟩ := ceHead_left (fun _ => d) ha
  have hwaiters : semWaiters (ceHead t (fun _ => d) a) t (emptySem d.imm.lout) = semWaiters u t (emptySem e.imm.lout) := by
    rw [hlout]
    exact semWaiters_congr (by rw [tile_ceHead, tile_posted hpost]) _
  have hval : semVal (ceHead t (fun _ => d) a) t (emptySem d.imm.lout) = semVal u t (emptySem e.imm.lout) := by
    rw [hlout, ← semVal_otherPair hpost hne]
    rfl
  rw [ceOut_waits (hlout ▸ hout) (by rwa [hwaiters, hval])] at hread'
  obtain ⟨hce, hframe⟩ := ceHead_left (t := t) (s := linkWaiting t (emptySem d.imm.lout) .ce (ceHead t (fun _ => d) a))
    (fun c => { c with phase := .waitOut }) (by rw [tile_linkWaiting]; exact hhead)
  refine ⟨a, _, hpost, (ceExecute_haveIn h hp).trans (congrArg _ hread'), ?_, ?_, (onlyTile_linkWaiting honly).trans hframe⟩
  · rw [hce, ← hd]
  · rw [← hwaiters, ← semWaiters_linkWaiting, ← hlout]
    exact semWaiters_congr (by rw [tile_ceHead]) _

/-! ### A product's writes -/

theorem undefineC_nil (h : CeShape) : undefineC h [] s = s := by
  rw [undefineC]
  exact List.foldlRecOn (motive := (· = s)) _ _ rfl fun v hv _ _ => hv

theorem ceShape_alone (hq : inQuad s t = false) : (ceShape s t).tiles = [t] := by
  rw [ceShape, hq, if_neg Bool.false_ne_true]

theorem ceBody_mm {x : EngHeld} (hop : e.op = .ceMm) (hx : e.held = some x) : ceBody t env e s =
    ceDone t (ceFinish t env 0 (ceShape s t) e.da e.db e.dc e.imm x.sp x.cells s).1.bad
      (ceFinish t env 0 (ceShape s t) e.da e.db e.dc e.imm x.sp x.cells s).2 := by
  rw [ceBody, hop]
  dsimp only
  rw [hx]

/-- A product of one tile whose checks all pass first time is written, and its steps are counted. -/
theorem ceFinish_written {x : EngHeld} {u : Machine.State} (hq : inQuad s t = false)
    (hres : residueRun env 0 (ceChunks (ceShape s t) (tdOf e.dc)) (ceRetry s t) = (0, 0, none))
    (hwrite : ceWrite (ceShape s t) env (tdOf e.dc) x.cells (ceBlocks t e.da x.sp (ceResidue (ceShape s t) env (0, 0, none) s)) = (none, u))
    (hundef : ceUndefined t u (ceShape s t) e.da e.db e.dc e.imm x.sp = []) :
    ceFinish t env 0 (ceShape s t) e.da e.db e.dc e.imm x.sp x.cells s =
      (⟨none, ceChunks (ceShape s t) (tdOf e.dc), true⟩,
        addSteps t (ceTotal s t (ceShape s t) e.da e.db (tdOf e.dc) (ceK e.da e.imm) x.sp) u) := by
  have halone : (env.linkErr && (ceShape s t).tiles.length == 4) = false := by
    rw [ceShape_alone hq]
    exact Bool.and_false _
  rw [ceFinish]
  dsimp only
  rw [halone, if_neg Bool.false_ne_true, hres]
  dsimp only
  rw [hwrite]
  dsimp only
  rw [hundef, undefineC_nil, Nat.zero_mul, Nat.add_zero]

theorem ceBody_written {x : EngHeld} {u : Machine.State} (hop : e.op = .ceMm) (hx : e.held = some x) (hq : inQuad s t = false)
    (hres : residueRun env 0 (ceChunks (ceShape s t) (tdOf e.dc)) (ceRetry s t) = (0, 0, none))
    (hwrite : ceWrite (ceShape s t) env (tdOf e.dc) x.cells (ceBlocks t e.da x.sp (ceResidue (ceShape s t) env (0, 0, none) s)) = (none, u))
    (hundef : ceUndefined t u (ceShape s t) e.da e.db e.dc e.imm x.sp = []) (hu : (u.tile t).ce = e :: es) :
    ((ceBody t env e s).tile t).ce = { e with phase := .done .ok 0 } :: es ∧ OnlyTile t [R.CE_STEPS t.toNat] u (ceBody t env e s) ∧
      rget (ceBody t env e s) (R.CE_STEPS t.toNat) F.CE_STEPS_COUNT = satAdd F.CE_STEPS_COUNT.w
        (rget u (R.CE_STEPS t.toNat) F.CE_STEPS_COUNT) (ceTotal s t (ceShape s t) e.da e.db (tdOf e.dc) (ceK e.da e.imm) x.sp) := by
  rw [ceBody_mm hop hx, ceFinish_written hq hres hwrite hundef]
  dsimp only
  generalize ceTotal s t (ceShape s t) e.da e.db (tdOf e.dc) (ceK e.da e.imm) x.sp = n
  obtain ⟨hce, honly⟩ := ceDone_left (t := t) (s := addSteps t n u) none hu
  refine ⟨hce, (onlyTile_rset _ _ (List.mem_singleton_self _) (.refl ..)).trans (honly.mono (List.nil_subset _)), ?_⟩
  rw [honly.rget List.not_mem_nil]
  exact rget_rinc_same _ _ (by decide)

/-! ### Completion -/

/-- The state once the head of the queue has left it. -/
def cePopped (t : TileId) (es : List EngCmd) (s : Machine.State) : Machine.State :=
  progress t (s.modTile t (fun c => { c with ce := es }))

theorem tile_cePopped : (cePopped t es s).tile t = { s.tile t with ce := es } := by
  rw [cePopped, progress, tile_rput, tile_modTile_same]

theorem onlyTile_cePopped : OnlyTile t [R.FC_PROGRESS t.toNat] s (cePopped t es s) :=
  onlyTile_rput _ (List.mem_singleton_self _) (onlyTile_modTile _ (.refl ..))

theorem progress_cePopped : rraw (cePopped t es s) (R.FC_PROGRESS t.toNat) = 0 := rraw_rput_same ..

theorem exec_ceInstructionComplete {st : Status} {va : Nat} (h : (s.tile t).ce = e :: es) (hp : e.phase = .done st va)
    (hu : e.undef = false) : exec (.ceInstructionComplete t) s = .next (if st = .ok then
      (if e.imm.loutEn then semPost t (fullSem e.imm.lout) 1 (cePopped t es s) else cePopped t es s)
      else pushFault t ⟨1, st, e.pc, va⟩ (cePopped t es s)) := by
  rw [exec, execCeInstructionComplete, h]
  dsimp only
  rw [hp]
  dsimp only
  rw [hu, Bool.false_and, if_neg Bool.false_ne_true]
  rfl

/-- A fault on its way to a core leaves the rest of the tile. -/
theorem pushFault_left {offs : List Nat} {u : Machine.State} (f : XFault) (h : OnlyTile t offs s u) :
    ((pushFault t f u).tile t).x.faults = (u.tile t).x.faults ++ [f] ∧ OnlyTile t offs s (pushFault t f u) :=
  ⟨by rw [pushFault, tile_modX], onlyTile_modX _ h⟩

theorem ceComplete_left {st : Status} {va : Nat} (h : (s.tile t).ce = e :: es) (hp : e.phase = .done st va) (hu : e.undef = false) :
    ∃ v, exec (.ceInstructionComplete t) s = .next v ∧ (v.tile t).ce = es ∧ rraw v (R.FC_PROGRESS t.toNat) = 0 ∧
      (st = .ok → e.imm.loutEn = false → OnlyTile t [R.FC_PROGRESS t.toNat] s v ∧ (v.tile t).x = (s.tile t).x) ∧
      (st = .ok → e.imm.loutEn = true → ∃ u, SemPosted t (fullSem e.imm.lout) 1 u v ∧
        OnlyTile t [R.FC_PROGRESS t.toNat] s u ∧ (u.tile t).x = (s.tile t).x) ∧
      (st ≠ .ok → (v.tile t).x.faults = (s.tile t).x.faults ++ [⟨1, st, e.pc, va⟩] ∧ OnlyTile t [R.FC_PROGRESS t.toNat] s v) := by
  have hce : ((cePopped t es s).tile t).ce = es := by rw [tile_cePopped]
  have hx : ((cePopped t es s).tile t).x = (s.tile t).x := by rw [tile_cePopped]
  have honly : OnlyTile t [R.FC_PROGRESS t.toNat] s (cePopped t es s) := onlyTile_cePopped
  have hprog : rraw (cePopped t es s) (R.FC_PROGRESS t.toNat) = 0 := progress_cePopped
  refine ⟨_, exec_ceInstructionComplete h hp hu, ?_⟩
  generalize cePopped t es s = u at hce hx honly hprog
  by_cases hst : st = .ok
  · rw [if_pos hst]
    cases hl : e.imm.loutEn
    · exact ⟨hce, hprog, fun _ _ => ⟨honly, hx⟩, fun _ h => absurd h Bool.false_ne_true, fun h => absurd hst h⟩
    · have hpost := semPost_posted t (fullSem e.imm.lout) 1 u Nat.one_ne_zero
      exact ⟨(congrArg Tile.ce (tile_posted hpost)).trans hce, hpost.progress, fun _ h => absurd h.symm Bool.false_ne_true,
        fun _ _ => ⟨u, hpost, honly, hx⟩, fun h => absurd hst h⟩
  · rw [if_neg hst]
    obtain ⟨hfaults, hframe⟩ := pushFault_left ⟨1, st, e.pc, va⟩ honly
    refine ⟨?_, hprog, fun h => absurd h hst, fun h => absurd h hst, fun _ => ⟨hx ▸ hfaults, hframe⟩⟩
    rw [pushFault, tile_modX]
    exact hce

/-! ### Grouped entries -/

theorem ceBody_noEntry (hop : e.op = .ceGrouped) (ht : e.tmpl = none) (hl : e.imm.linEn = false) : ceBody t env e s = ceDone t none s := by
  rw [ceBody, hop]
  dsimp only
  rw [ht]
  dsimp only
  rw [cePostIn_none hl]

theorem exec_demandTimeout {l : List Nat} (h : (s.tile t).ce = e :: es) (hp : e.phase = .deferred l) :
    exec (.demandTimeout t) s = .next (ceDone t (some (.timeout, 0)) s) := by
  rw [exec, execDemandTimeout, h]
  dsimp only
  rw [hp]

theorem exec_poll_noTemplate {l : List Nat} (h : (s.tile t).ce = e :: es) (hp : e.phase = .deferred l) (ht : e.tmpl = none) :
    exec (.groupedResidencyPoll t env) s = .next s := by
  rw [exec, execGroupedResidencyPoll, h]
  dsimp only
  rw [hp]
  dsimp only
  rw [ht]

theorem exec_poll {l : List Nat} {a b c : DWord} (h : (s.tile t).ce = e :: es) (hp : e.phase = .deferred l)
    (ht : e.tmpl = some (a, b, c)) :
    exec (.groupedResidencyPoll t env) s = .next (gtEnd t e (gtWalk t env e a b c false l 0 s)) := by
  rw [exec, execGroupedResidencyPoll, h]
  dsimp only
  rw [hp]
  dsimp only
  rw [ht]

/-- Entries that write no byte twice leave nothing undefined (Table 7-7). -/
theorem gtOverlap_one (d : Option DWord) : gtOverlap t d.toList s = s := by
  have hnodup : ∀ v ∈ d.toList.flatMap (fun d => (writeVas (tdOf d)).dedup),
      ¬ 1 < (d.toList.flatMap (fun d => (writeVas (tdOf d)).dedup)).count v := by
    intro v _
    cases d with
    | none => simp
    | some d => simpa using List.nodup_iff_count_le_one.mp (List.nodup_dedup _) v
  have hnone : (d.toList.flatMap (fun d => (writeVas (tdOf d)).dedup)).filter
      (fun v => decide (1 < (d.toList.flatMap (fun d => (writeVas (tdOf d)).dedup)).count v)) = [] :=
    List.filter_eq_nil_iff.mpr fun v hv => by simpa using hnodup v hv
  rw [gtOverlap, hnone]
  rfl

section
variable {l : List Nat} {r : GtRun} {u : Machine.State}

/-- A walk that an entry ends. -/
theorem gtEnd_stopped {x : Status × Nat} (hu : (u.tile t).ce = e :: es) (hl : e.imm.linEn = false) (hr : r.bad = some x) :
    ((gtEnd t e (r, u)).tile t).ce = { e with phase := .done x.1 x.2 } :: es ∧ OnlyTile t [] u (gtEnd t e (r, u)) := by
  rw [gtEnd]
  dsimp only
  rw [hr]
  dsimp only
  rw [cePostIn_none hl, ite_self]
  exact ceDone_left _ hu

/-- A walk after which no entry waits. -/
theorem gtEnd_done (d : Option DWord) (hu : (u.tile t).ce = e :: es) (hl : e.imm.linEn = false) (hr : r.bad = none) (hd : r.defer = [])
    (ho : e.outs ++ r.outs = d.toList) :
    ((gtEnd t e (r, u)).tile t).ce = { e with phase := .done .ok 0, outs := d.toList } :: es ∧ OnlyTile t [] u (gtEnd t e (r, u)) := by
  obtain ⟨hdone, honly⟩ := ceDone_left none hu
  obtain ⟨hhead, hframe⟩ := ceHead_left (fun c => { c with outs := d.toList }) hdone
  rw [gtEnd]
  dsimp only
  rw [hr]
  dsimp only
  rw [hd, if_pos List.isEmpty_nil, cePostIn_none hl, ho, gtOverlap_one]
  exact ⟨hhead, honly.trans hframe⟩

/-- A walk after which the same entries wait. -/
theorem gtEnd_deferred (hu : (u.tile t).ce = e :: es) (hp : e.phase = .deferred l) (hr : r.bad = none) (hd : r.defer = l) (hne : l ≠ [])
    (ho : r.outs = []) : ((gtEnd t e (r, u)).tile t).ce = e :: es ∧ OnlyTile t [] u (gtEnd t e (r, u)) := by
  obtain ⟨hhead, hframe⟩ := ceHead_left (fun c => { c with phase := .deferred l, outs := e.outs }) hu
  rw [gtEnd]
  dsimp only
  rw [hr]
  dsimp only
  rw [hd, if_neg (by simpa using hne), ho, List.append_nil]
  refine ⟨hhead.trans ?_, hframe⟩
  rw [← hp]

end

end

theorem cubeEngineRuns_claim : Claims.CubeEngineRuns := by
  intro t env e es s h
  refine ⟨fun hp hop hq href => ?_, fun hp hop hq href hl hw => ?_, fun sp cells s1 hp hop hread hu hin hout hne hw =>
    ceRead_waits hu h hp hop hread hin hout hne hw, fun x k s2 hp hop hx hq hk hres hwrite hundef hu => ?_,
    fun hp hop ht hl => ⟨_, ceExecute_ready h hp, ?_⟩, fun st va hp hu => ceComplete_left h hp hu, fun l hp =>
    ⟨⟨_, exec_demandTimeout h hp, ceDone_left _ h⟩, fun ht => exec_poll_noTemplate h hp ht, fun a b c ht hl hout hin => ?_,
      fun a b c s1 i ht hl hin hu => ?_⟩⟩
  · have haccept := ceAccept_mm (env := env) hop hq
    rw [href] at haccept
    exact ⟨_, ceExecute_refused h hp haccept, ceDone_left _ h⟩
  · have haccept := ceAccept_mm (env := env) hop hq
    rw [href] at haccept
    obtain ⟨hce, honly⟩ := ceHead_left (t := t) (s := linkWaiting t (fullSem e.imm.lin) .ce s) (fun c => { c with phase := .waitIn })
      (by rw [tile_linkWaiting]; exact h)
    refine ⟨_, ceExecute_waits h hp haccept hl hw, hce, ?_, (onlyTile_linkWaiting (.refl ..)).trans honly⟩
    rw [← semWaiters_linkWaiting]
    exact semWaiters_congr (by rw [tile_ceHead]) _
  · subst hk
    exact ⟨_, ceExecute_ready h hp, ceBody_written hop hx hq hres hwrite hundef hu⟩
  · rw [ceBody_noEntry hop ht hl]
    exact ceDone_left _ h
  · refine ⟨_, exec_poll h hp ht, ?_⟩
    subst hl
    obtain ⟨hce, honly⟩ := gtEnd_done (r := ⟨[], [], none, true⟩) none h hin rfl rfl (by rw [hout]; rfl)
    exact ⟨hce.trans (by rw [hout]; rfl), honly⟩
  · subst hl
    refine ⟨fun st va rd hv => ⟨_, exec_poll h hp ht, ?_⟩, fun hv => ⟨_, exec_poll h hp ht, ?_⟩,
      fun n d hv hout => ⟨_, exec_poll h hp ht, ?_⟩⟩
    · rw [gtWalk, hv]
      dsimp only
      exact gtEnd_stopped (x := (st, va)) hu hin rfl
    · rw [gtWalk, hv]
      exact gtEnd_deferred hu hp rfl rfl (List.cons_ne_nil i []) rfl
    · rw [gtWalk, hv]
      dsimp only
      exact (gtEnd_done (some d) hu hin rfl rfl (by rw [hout]; rfl)).symm

end Sys2Proof
end

section
/-! The Gather-Merge Engine runs the head of its queue (R115, R213, R232, R235). -/

namespace Sys2Proof

open Sys2Proof.Machine

/-! ### The head of its queue -/

section
variable {t : TileId} {env : EngEnv} {e : EngCmd} {es : List EngCmd} {s : Machine.State}

theorem tile_gmeHead (f : EngCmd → EngCmd) : (gmeHead t f s).tile t = { s.tile t with gme := modHead f (s.tile t).gme } :=
  tile_modTile_same ..

theorem gmeHead_left (f : EngCmd → EngCmd) (h : (s.tile t).gme = e :: es) :
    ((gmeHead t f s).tile t).gme = f e :: es ∧ OnlyTile t [] s (gmeHead t f s) :=
  ⟨by rw [tile_gmeHead, h]; rfl, onlyTile_modTile _ (.refl ..)⟩

theorem gmeDone_left (bad : Option (Status × Nat)) (h : (s.tile t).gme = e :: es) :
    ((gmeDone t bad s).tile t).gme = { e with phase := .done (bad.getD (.ok, 0)).1 (bad.getD (.ok, 0)).2 } :: es ∧
      OnlyTile t [] s (gmeDone t bad s) := gmeHead_left _ h

theorem ce_gmeDone (bad : Option (Status × Nat)) : ((gmeDone t bad s).tile t).ce = (s.tile t).ce := by
  rw [gmeDone, tile_gmeHead]

theorem gmeLinks_instr (hop : e.op ≠ .pred) :
    gmeLinks e = (if e.imm.linEn then some e.imm.lin else none, if e.imm.loutEn then some e.imm.lout else none) := by
  unfold gmeLinks
  split
  next h => exact absurd h hop
  next => rfl

/-! ### An instruction is taken, waits for its output, and writes -/

theorem gmeTake_gather (hop : e.op = .gather) : gmeTake t e s = (if gmeRefused e then some (.aborted, 0) else none, e, s) := by
  rw [gmeTake, hop]

theorem gmeExecute_refused {x : Status × Nat} {d : EngCmd} {u : Machine.State} (h : (s.tile t).gme = e :: es) (hp : e.phase = .queued)
    (ha : gmeTake t e s = (some x, d, u)) : exec (.gmeExecute t env) s = .next (gmeDone t (some x) u) := by
  rw [exec, execGmeExecute, h]
  dsimp only
  rw [hp]
  dsimp only
  rw [ha]

theorem gmeExecute_haveIn (h : (s.tile t).gme = e :: es) (hp : e.phase = .haveIn) :
    exec (.gmeExecute t env) s = .next (gmeFromIn t env e s) := by
  rw [exec, execGmeExecute, h]
  dsimp only
  rw [hp]

theorem gmeExecute_ready (h : (s.tile t).gme = e :: es) (hp : e.phase = .ready) :
    exec (.gmeExecute t env) s = .next (gmeBody t env e s) := by
  rw [exec, execGmeExecute, h]
  dsimp only
  rw [hp]

theorem gmeAdds_gather (hop : e.op = .gather) : gmeAdds e = false := by
  rw [gmeAdds, hop]
  rfl

theorem gmeFromIn_read {k : EngHeld} {u : Machine.State} (hop : e.op = .gather) (hread : gmeForm t env e s = (.ok k, u)) :
    gmeFromIn t env e s = gmeOut t env { e with held := some k } (gmeHead t (fun _ => { e with held := some k }) (gmePostIn t e u)) := by
  have hreads : gmeReads t env e s = (.ok k, u) := by rw [gmeReads, hop]; exact hread
  rw [gmeFromIn, if_neg (by simp [hop, gmeAdds_gather hop]), hreads]
  rfl

theorem gmeOut_waits (hop : e.op ≠ .pred) (hl : e.imm.loutEn = true)
    (hw : ¬ (semWaiters s t (emptySem e.imm.lout) = [] ∧ 1 ≤ semVal s t (emptySem e.imm.lout))) :
    gmeOut t env e s = gmeHead t (fun c => { c with phase := .waitOut }) (linkWaiting t (emptySem e.imm.lout) .gme s) := by
  rw [gmeOut, gmeLinks_instr hop, hl, if_pos rfl]
  dsimp only
  rw [acquire_link hw]
  rfl

theorem gmePostIn_lin (hop : e.op ≠ .pred) (hl : e.imm.linEn = true) : gmePostIn t e s = semPost t (emptySem e.imm.lin) 1 s := by
  rw [gmePostIn, gmeLinks_instr hop, hl, if_pos rfl]

/-- Reads done, the output taken: EMPTY of LIN is posted, then EMPTY of LOUT is waited for (R115). -/
theorem gmeRead_waits {k : EngHeld} {u : Machine.State} (hu : (u.tile t).gme = e :: es)
    (h : (s.tile t).gme = e :: es) (hp : e.phase = .haveIn) (hop : e.op = .gather) (hread : gmeForm t env e s = (.ok k, u))
    (hin : e.imm.linEn = true) (hout : e.imm.loutEn = true) (hne : e.imm.lin ≠ e.imm.lout)
    (hw : ¬ (semWaiters u t (emptySem e.imm.lout) = [] ∧ 1 ≤ semVal u t (emptySem e.imm.lout))) :
    ∃ a v, SemPosted t (emptySem e.imm.lin) 1 u a ∧ exec (.gmeExecute t env) s = .next v ∧
      (v.tile t).gme = { e with held := some k, phase := .waitOut } :: es ∧
      semWaiters v t (emptySem e.imm.lout) = semWaiters u t (emptySem e.imm.lout) ++ [⟨.gme, 1⟩] ∧ OnlyTile t [] a v := by
  have hinstr : e.op ≠ .pred := by rw [hop]; decide
  have hpost := semPost_posted t (emptySem e.imm.lin) 1 u Nat.one_ne_zero
  have hread' := gmeFromIn_read hop hread
  rw [gmePostIn_lin hinstr hin] at hread'
  generalize semPost t (emptySem e.imm.lin) 1 u = a at hpost hread'
  generalize hd : ({ e with held := some k } : EngCmd) = d at hread'
  have hlout : d.imm = e.imm := by rw [← hd]
  have ha : (a.tile t).gme = e :: es := by rw [tile_posted hpost, hu]
  obtain ⟨hhead, honly⟩ := gmeHead_left (fun _ => d) ha
  have hwaiters : semWaiters (gmeHead t (fun _ => d) a) t (emptySem d.imm.lout) = semWaiters u t (emptySem e.imm.lout) := by
    rw [hlout]
    exact semWaiters_congr (by rw [tile_gmeHead, tile_posted hpost]) _
  have hval : semVal (gmeHead t (fun _ => d) a) t (emptySem d.imm.lout) = semVal u t (emptySem e.imm.lout) := by
    rw [hlout, ← semVal_otherPair hpost hne]
    rfl
  rw [gmeOut_waits (by rw [← hd]; exact hinstr) (hlout ▸ hout) (by rwa [hwaiters, hval])] at hread'
  obtain ⟨hgme, hframe⟩ := gmeHead_left (t := t) (s := linkWaiting t (emptySem d.imm.lout) .gme (gmeHead t (fun _ => d) a))
    (fun c => { c with phase := .waitOut }) (by rw [tile_linkWaiting]; exact hhead)
  refine ⟨a, _, hpost, (gmeExecute_haveIn h hp).trans (congrArg _ hread'), ?_, ?_, (onlyTile_linkWaiting honly).trans hframe⟩
  · rw [hgme, ← hd]
  · rw [← hwaiters, ← semWaiters_linkWaiting, ← hlout]
    exact semWaiters_congr (by rw [tile_gmeHead]) _

/-- What a GATHER has formed is written; it has no residue check (R231). -/
theorem gmeBody_written {k : EngHeld} {u : Machine.State} (hop : e.op = .gather) (hk : e.held = some k) (hundef : k.undef = [])
    (hwrite : engWrite t unitGme env (pickWrites (·.1) (fieldKey (tdOf e.dc)) (k.cells.map (·.2)) (gmeResidue t env (0, 0, none) s)).1
      (pickWrites (·.1) (fieldKey (tdOf e.dc)) (k.cells.map (·.2)) (gmeResidue t env (0, 0, none) s)).2 = (none, u)) :
    gmeBody t env e s = gmeDone t none u := by
  have hunits : gmeUnits e = 0 := by rw [gmeUnits, hop]
  have hres : ∀ n, residueRun env 0 0 n = (0, 0, none) := fun _ => rfl
  have hfinish : gmeFinish t env e k s = (none, u) := by
    rw [gmeFinish, hunits, hres]
    dsimp only
    rw [Option.isSome_none, if_neg Bool.false_ne_true, hwrite]
    dsimp only
    rw [hundef, if_pos List.isEmpty_nil]
  rw [gmeBody, if_neg (by rw [hop]; decide), gmeAdds_gather hop, if_neg Bool.false_ne_true, hk]
  dsimp only
  rw [hfinish]

/-! ### Completion -/

/-- The state once the head of the queue has left it. -/
def gmePopped (t : TileId) (es : List EngCmd) (s : Machine.State) : Machine.State :=
  progress t (s.modTile t (fun c => { c with gme := es }))

/-- What completion leaves of the prediction registers: BUSY cleared, with the status. -/
def predEnded (t : TileId) (st : Status) (s : Machine.State) : Machine.State :=
  rset (R.PRED_STATUS t.toNat) F.PRED_STATUS_STATUS st.code (rset (R.PRED_STATUS t.toNat) F.PRED_STATUS_BUSY 0 s)

/-- The state in which a completed instruction's links and faults take effect. -/
def gmeEnded (t : TileId) (e : EngCmd) (es : List EngCmd) (st : Status) (s : Machine.State) : Machine.State :=
  if e.op = .pred then predEnded t st (gmePopped t es s) else gmePopped t es s

theorem tile_gmePopped : (gmePopped t es s).tile t = { s.tile t with gme := es } := by
  rw [gmePopped, progress, tile_rput, tile_modTile_same]

theorem x_gmePopped : ((gmePopped t es s).tile t).x = (s.tile t).x := by rw [tile_gmePopped]

theorem onlyTile_gmePopped : OnlyTile t [R.FC_PROGRESS t.toNat] s (gmePopped t es s) :=
  onlyTile_rput _ (List.mem_singleton_self _) (onlyTile_modTile _ (.refl ..))

theorem progress_ne_pred (t : TileId) : R.FC_PROGRESS t.toNat ≠ R.PRED_STATUS t.toNat := by simp [R.FC_PROGRESS, R.PRED_STATUS]

theorem tile_gmeEnded (st : Status) : (gmeEnded t e es st s).tile t = { s.tile t with gme := es } := by
  rw [gmeEnded]
  split
  · rw [predEnded, tile_rset, tile_rset, tile_gmePopped]
  · exact tile_gmePopped

theorem onlyTile_gmeEnded (st : Status) : OnlyTile t [R.FC_PROGRESS t.toNat, R.PRED_STATUS t.toNat] s (gmeEnded t e es st s) := by
  have hpop : OnlyTile t [R.FC_PROGRESS t.toNat, R.PRED_STATUS t.toNat] s (gmePopped t es s) := onlyTile_gmePopped.mono (by simp)
  rw [gmeEnded]
  split
  · exact onlyTile_rset _ _ (by simp) (onlyTile_rset _ _ (by simp) hpop)
  · exact hpop

theorem progress_gmeEnded (st : Status) : rraw (gmeEnded t e es st s) (R.FC_PROGRESS t.toNat) = 0 := by
  have hpop : rraw (gmePopped t es s) (R.FC_PROGRESS t.toNat) = 0 := rraw_rput_same ..
  rw [gmeEnded]
  split
  · rw [predEnded, rraw_rset_other _ _ _ (progress_ne_pred t), rraw_rset_other _ _ _ (progress_ne_pred t), hpop]
  · exact hpop

theorem gmeEnded_pred (hop : e.op = .pred) (st : Status) :
    rget (gmeEnded t e es st s) (R.PRED_STATUS t.toNat) F.PRED_STATUS_BUSY = 0 ∧
      rget (gmeEnded t e es st s) (R.PRED_STATUS t.toNat) F.PRED_STATUS_STATUS = st.code % 256 := by
  rw [gmeEnded, if_pos hop, predEnded]
  refine ⟨?_, rget_rset_same _ _ _ _ (by decide)⟩
  rw [rget_rset_field _ _ _ _ _ (by decide) (by decide)]
  exact rget_rset_same _ _ _ _ (by decide)

theorem gmeEnded_instr (hop : e.op ≠ .pred) (st : Status) : gmeEnded t e es st s = gmePopped t es s := if_neg hop

/-- FULL of the output link, where there is one. -/
def fullPosted (t : TileId) (k : Option PairIdx) (s : Machine.State) : Machine.State :=
  k.elim s (fun k => semPost t (fullSem k) 1 s)

theorem exec_gmeInstructionComplete {st : Status} {va : Nat} (h : (s.tile t).gme = e :: es) (hp : e.phase = .done st va)
    (hu : e.undef = false) : exec (.gmeInstructionComplete t) s = .next (if st = .ok then
      fullPosted t (gmeLinks e).2 (gmeEnded t e es st s) else pushFault t ⟨2, st, e.pc, va⟩ (gmeEnded t e es st s)) := by
  rw [exec, execGmeInstructionComplete, h]
  dsimp only
  rw [hp]
  dsimp only
  rw [hu, Bool.false_and, if_neg Bool.false_ne_true]
  cases hk : (gmeLinks e).2 <;> rfl

/-- A post of FULL touches neither the tile nor a register outside the semaphores and the progress counter. -/
theorem fullPosted_kept (k : Option PairIdx) : (fullPosted t k s).tile t = s.tile t ∧
    (rraw s (R.FC_PROGRESS t.toNat) = 0 → rraw (fullPosted t k s) (R.FC_PROGRESS t.toNat) = 0) ∧
    ∀ f, rget (fullPosted t k s) (R.PRED_STATUS t.toNat) f = rget s (R.PRED_STATUS t.toNat) f := by
  cases k with
  | none => exact ⟨rfl, id, fun _ => rfl⟩
  | some k =>
    have hpost := semPost_posted t (fullSem k) 1 s Nat.one_ne_zero
    refine ⟨tile_posted hpost, fun _ => hpost.progress, fun f => hpost.frame.rget ?_ f⟩
    have := (fullSem k).isLt
    simp only [R.PRED_STATUS, R.SEM, R.FC_PROGRESS, List.mem_cons, List.not_mem_nil, or_false]
    omega

theorem gmeComplete_left {st : Status} {va : Nat} (h : (s.tile t).gme = e :: es) (hp : e.phase = .done st va) (hu : e.undef = false) :
    ∃ v, exec (.gmeInstructionComplete t) s = .next v ∧
      (v.tile t).gme = es ∧ rraw v (R.FC_PROGRESS t.toNat) = 0 ∧
      (e.op = .pred → rget v (R.PRED_STATUS t.toNat) F.PRED_STATUS_BUSY = 0 ∧
        rget v (R.PRED_STATUS t.toNat) F.PRED_STATUS_STATUS = st.code % 256) ∧
      (e.op ≠ .pred → st = .ok → e.imm.loutEn = false → OnlyTile t [R.FC_PROGRESS t.toNat] s v ∧ (v.tile t).x = (s.tile t).x) ∧
      (e.op ≠ .pred → st = .ok → e.imm.loutEn = true → ∃ u, SemPosted t (fullSem e.imm.lout) 1 u v ∧
        OnlyTile t [R.FC_PROGRESS t.toNat] s u ∧ (u.tile t).x = (s.tile t).x) ∧
      (st ≠ .ok → (v.tile t).x.faults = (s.tile t).x.faults ++ [⟨2, st, e.pc, va⟩] ∧
        OnlyTile t [R.FC_PROGRESS t.toNat, R.PRED_STATUS t.toNat] s v) := by
  have htile := tile_gmeEnded (t := t) (e := e) (es := es) (s := s) st
  have hprog := progress_gmeEnded (t := t) (e := e) (es := es) (s := s) st
  refine ⟨_, exec_gmeInstructionComplete h hp hu, ?_⟩
  by_cases hst : st = .ok
  · rw [if_pos hst]
    obtain ⟨hkept, hprog', hpred⟩ := fullPosted_kept (t := t) (s := gmeEnded t e es st s) (gmeLinks e).2
    refine ⟨by rw [hkept, htile], hprog' hprog, fun hop => ?_, fun hop _ hl => ?_, fun hop _ hl => ?_, fun h => absurd hst h⟩
    · rw [hpred, hpred]
      exact gmeEnded_pred hop st
    · rw [gmeLinks_instr hop, hl, if_neg Bool.false_ne_true, gmeEnded_instr hop]
      exact ⟨onlyTile_gmePopped, x_gmePopped⟩
    · rw [gmeLinks_instr hop, hl, if_pos rfl, gmeEnded_instr hop]
      exact ⟨_, semPost_posted _ _ _ _ Nat.one_ne_zero, onlyTile_gmePopped, x_gmePopped⟩
  · rw [if_neg hst]
    obtain ⟨hfaults, hframe⟩ := pushFault_left (t := t) ⟨2, st, e.pc, va⟩ (onlyTile_gmeEnded (e := e) (es := es) (s := s) st)
    refine ⟨?_, hprog, fun hop => gmeEnded_pred hop st, fun _ h => absurd h hst, fun _ h => absurd h hst, fun _ => ⟨?_, hframe⟩⟩
    · rw [pushFault, tile_modX, htile]
    · rw [hfaults, htile]

/-! ### A prediction command is taken -/

/-- A read of the own scratchpad whose bytes are as they were written. -/
theorem pdRead_good {off n : Nat} (hn : off + n ≤ spadBytes) (hg : GoodSpad s t) :
    pdRead t off n s = (.ok (rdBytes s (spadAddr t off) n), s) := by
  have hclean : ∀ a ∈ (List.range n).map (fun i => spadAddr t (off + i)), Clean s a := by
    intro a ha
    obtain ⟨i, hi, rfl⟩ := List.mem_map.mp ha
    exact hg _ (by have := List.mem_range.mp hi; omega)
  have hgood := codewords_good hclean
  rw [pdRead, if_neg (by omega)]
  dsimp only
  rw [memRead]
  dsimp only
  rw [lostLines_clean fun a ha => (hclean a ha).2.2, countCorrs_good hgood, countPoison_good hgood, meetCodewords_good hgood,
    raceCells_clean fun c hc => by
      obtain ⟨a, ha, rfl⟩ := List.mem_map.mp hc
      exact (hclean a ha).2.1]
  simp [rdBytes, spadAddr, Nat.add_assoc]

/-- The command that a prediction takes from its line. -/
def predLine (s : Machine.State) (t : TileId) (e : EngCmd) : DWord := BitVec.ofNat 512 (memNat s (spadAddr t (64 * e.s0.toNat)) 64)

theorem gmeTake_pred (hop : e.op = .pred) (hn : 64 * e.s0.toNat + 64 ≤ spadBytes) (hg : GoodSpad s t) :
    gmeTake t e s = (if pdRefused (predLine s t e) then some (.aborted, 0) else none, { e with da := predLine s t e },
      gmeHead t (fun _ => { e with da := predLine s t e })
        (rset (R.PRED_STATUS t.toNat) F.PRED_STATUS_OP (pdOp (predLine s t e)) s)) := by
  rw [gmeTake, hop]
  dsimp only
  rw [if_neg (by omega), pdRead_good hn hg]
  rfl

theorem pred_refused (h : (s.tile t).gme = e :: es) (hp : e.phase = .queued) (hop : e.op = .pred)
    (hn : 64 * e.s0.toNat + 64 ≤ spadBytes) (hg : GoodSpad s t) (href : pdRefused (predLine s t e) = true) :
    ∃ v, exec (.gmeExecute t env) s = .next v ∧
      (v.tile t).gme = { e with da := predLine s t e, phase := .done .aborted 0 } :: es ∧ OnlyTile t [R.PRED_STATUS t.toNat] s v := by
  have htake := gmeTake_pred hop hn hg
  rw [href, if_pos rfl] at htake
  generalize predLine s t e = d at htake ⊢
  obtain ⟨hhead, honly⟩ := gmeHead_left (t := t) (s := rset (R.PRED_STATUS t.toNat) F.PRED_STATUS_OP (pdOp d) s)
    (fun _ => { e with da := d }) h
  obtain ⟨hdone, hframe⟩ := gmeDone_left (some (.aborted, 0)) hhead
  exact ⟨_, gmeExecute_refused h hp htake, hdone,
    (onlyTile_rset _ _ (List.mem_singleton_self _) (.refl ..)).trans ((honly.trans hframe).mono (List.nil_subset _))⟩

end

theorem gatherMergeRuns_claim : Claims.GatherMergeRuns := by
  intro t env e es s h
  refine ⟨fun hp hop href => ?_, fun k s1 hp hop hread hu hin hout hne hw => gmeRead_waits hu h hp hop hread hin hout hne hw,
    fun k c s2 hp hop hk hundef hc hwrite hu => ?_, fun st va hp hu => gmeComplete_left h hp hu,
    fun hp hop hn hg href => pred_refused h hp hop hn hg href⟩
  · have htake := gmeTake_gather (t := t) (s := s) hop
    rw [href] at htake
    obtain ⟨hgme, honly⟩ := gmeDone_left (some (.aborted, 0)) h
    exact ⟨_, gmeExecute_refused h hp htake, ⟨hgme, ce_gmeDone _, honly.tiles⟩, honly⟩
  · subst hc
    exact ⟨_, (gmeExecute_ready h hp).trans (congrArg _ (gmeBody_written hop hk hundef hwrite)), gmeDone_left none hu⟩

/-- Settles O38: each engine's head from the check to its completion, a step of its state at a time. -/
theorem engineRuns : Obligations.EngineRuns := by
  unfold Obligations.EngineRuns
  exact ⟨cubeEngineRuns_claim, gatherMergeRuns_claim⟩

end Sys2Proof
end

section
/-! The fetch program's arithmetic, branches, accesses and semaphores (R153, R154, R156, Table 6-2). -/

namespace Sys2Proof

open Sys2Proof.Machine

section
variable {t : TileId} {s u w : Machine.State}

/-! ### Arithmetic -/

/-- An instruction that sets G[GD] retires with the number it computes. -/
theorem fSetG_result {n : Nat} (gd : GReg) (f : Machine.State → Word) (h : FIssues s t)
    (hn : f (fFetched s t) = BitVec.ofNat 64 n) :
    ∃ v, fSetG t gd f s = .next v ∧ GResult t gd (BitVec.ofNat 64 n) (fFetched s t) v :=
  ⟨_, fRun_runs _ h, hn ▸ gResult_retire ..⟩

/-- A word is the number that it reads as. -/
theorem word_eq_ofNat {a : Word} {n : Nat} (h : a.toNat = n % 2 ^ 64) : a = BitVec.ofNat 64 n :=
  BitVec.eq_of_toNat_eq (h.trans (BitVec.toNat_ofNat ..).symm)

theorem fetchArithmetic (gd ga gb : GReg) (imm : BitVec 14) (sh sl : BitVec 6) {a b : Word} (h : FIssues s t)
    (ha : a = rdG (fFetched s t) t ga) (hb : b = rdG (fFetched s t) t gb) :
    ∀ p ∈ [(Instr.fAdd t gd ga gb, a.toNat + b.toNat), (.fSub t gd ga gb, a.toNat + 2 ^ 64 - b.toNat),
        (.fMul t gd ga gb, a.toNat * b.toNat), (.fAddi t gd ga imm, a.toNat + (imm.signExtend 64).toNat),
        (.fSlli t gd ga sh, a.toNat * 2 ^ sh.toNat), (.fSrli t gd ga sh, a.toNat / 2 ^ sh.toNat),
        (.fOri t gd ga imm, a.toNat ||| imm.toNat), (.fAndi t gd ga imm, a.toNat &&& imm.toNat),
        (.fStat t gd sl, rraw (fFetched s t) (R.SLOT_STATE t.toNat sl.toNat) % 2 ^ 13 +
          rget (fFetched s t) (R.SLOT_LANDED t.toNat sl.toNat) F.SLOT_LANDED_BUFS * 2 ^ 32)],
      ∃ v, exec p.1 s = .next v ∧ GResult t gd (BitVec.ofNat 64 p.2) (fFetched s t) v := by
  subst ha hb
  have himm : imm.toNat < 2 ^ 64 := imm.isLt.trans (by decide)
  have hwide : (imm.setWidth 64).toNat = imm.toNat := by rw [BitVec.toNat_setWidth, Nat.mod_eq_of_lt himm]
  intro p hp
  simp only [List.mem_cons, List.not_mem_nil, or_false] at hp
  obtain rfl | rfl | rfl | rfl | rfl | rfl | rfl | rfl | rfl := hp
  · exact fSetG_result _ _ h (word_eq_ofNat (BitVec.toNat_add ..))
  · refine fSetG_result _ _ h (word_eq_ofNat ((BitVec.toNat_sub ..).trans (congrArg (· % 2 ^ 64) ?_)))
    have := (rdG (fFetched s t) t gb).isLt
    omega
  · exact fSetG_result _ _ h (word_eq_ofNat (BitVec.toNat_mul ..))
  · exact fSetG_result _ _ h (word_eq_ofNat (BitVec.toNat_add ..))
  · exact fSetG_result _ _ h (word_eq_ofNat (by rw [BitVec.toNat_shiftLeft, Nat.shiftLeft_eq]))
  · refine fSetG_result _ _ h (word_eq_ofNat ?_)
    rw [BitVec.toNat_ushiftRight, Nat.shiftRight_eq_div_pow, Nat.mod_eq_of_lt ((Nat.div_le_self ..).trans_lt (BitVec.isLt _))]
  · refine fSetG_result _ _ h (word_eq_ofNat ?_)
    rw [BitVec.toNat_or, hwide, Nat.mod_eq_of_lt (Nat.or_lt_two_pow (BitVec.isLt _) himm)]
  · refine fSetG_result _ _ h (word_eq_ofNat ?_)
    rw [BitVec.toNat_and, hwide, Nat.mod_eq_of_lt (Nat.and_lt_two_pow _ himm)]
  · exact fSetG_result _ _ h (congrArg _ (slotWord_eq ..))

/-! ### Branches -/

/-- A branch of the program retires to its target where its test holds, and past itself otherwise. -/
theorem fBranch_retires {imm : BitVec 14} {c : Bool} {p : Prop} (hcp : c = true ↔ p) :
    (p → FRetired t (((fPc u t : Int) + 4 * imm.toInt) % 2 ^ 48).toNat (u.tile t).f u
      (fFinish t (if c then .jump (brTarget (fPc u t) imm) u else .retire u))) ∧
    (¬ p → FRetired t (fPc u t + 4) (u.tile t).f u
      (fFinish t (if c then .jump (brTarget (fPc u t) imm) u else .retire u))) := by
  refine ⟨fun hp => ?_, fun hp => ?_⟩
  · rw [if_pos (hcp.mpr hp)]
    exact fRetire_retired ..
  · rw [if_neg (mt hcp.mp hp)]
    exact fRetire_retired ..

theorem fetchProgramResults_claim : Claims.FetchProgramResults := by
  rintro t gd ga gb imm sh sl s u a b h rfl ha hb
  refine ⟨⟨_, fRun_runs _ h, fRetire_retired ..⟩, fetchArithmetic gd ga gb imm sh sl h ha hb, fun p hp => ?_⟩
  subst ha hb
  simp only [fBranchTable, List.mem_cons, List.not_mem_nil, or_false] at hp
  obtain rfl | rfl | rfl | rfl := hp
  all_goals exact ⟨_, fRun_runs _ h, fBranch_retires (by simp [BitVec.slt, BitVec.ult])⟩

/-! ### FLD and FST -/

theorem fAddr_eq (u : Machine.State) (t : TileId) (ga : GReg) (imm : BitVec 14) : fAddr u t ga imm = fetchAddr u t ga imm := by
  rw [fAddr, fetchAddr, BitVec.mul_comm]
  rfl

/-- A program that stands where it stood retires. -/
theorem fRetired_kept (hpc : fPc w t = fPc u t) (hf : (w.tile t).f = (u.tile t).f) :
    FRetired t (fPc u t + 4) (u.tile t).f w (fFinish t (.retire w)) := by
  rw [fFinish, hpc, ← hf]
  exact fRetire_retired ..

theorem fRetired_onlyRegs {offs : List Nat} (h : OnlyRegs offs u w) (hpc : R.FC_PC t.toNat ∉ offs) :
    FRetired t (fPc u t + 4) (u.tile t).f w (fFinish t (.retire w)) :=
  fRetired_kept (h.rget hpc _) (by rw [h.tile])

/-- The bytes of a number written where they exist and are as written. -/
theorem localWrite_cellsAt {la n : Nat} (x : Nat) (hg : Sound u la n) :
    ∃ w, localWrite (cellsAt la n x) u = (.ok, w) ∧ Stored la n x u w := by
  obtain ⟨hok, honly, hbyte⟩ := localWrite_good (cells := cellsAt la n x) (s := u) fun e he => by
    have hin := cellsAt_fst he
    rw [show e.1 = la + (e.1 - la) by omega]
    exact hg _ (by omega)
  refine ⟨_, Prod.ext hok rfl, honly, fun a => (hbyte a).trans ?_⟩
  simpa [cellsAt] using foldl_natLe n x la a 0 (rdByte u a)

section
variable {la : Nat} {ga gb gd : GReg} {imm : BitVec 14} (h : FIssues s t)
include h

theorem fld_result (hr : Reaches t (fetchAddr (fFetched s t) t ga imm) true false la (fFetched s t) w) (hg : Sound w la 8) :
    ∃ v, exec (.fLd t gd ga imm) s = .next v ∧ GResult t gd (BitVec.ofNat 64 (memNat w la 8)) w v := by
  rw [← fAddr_eq] at hr
  have hread := readLine_reaches (va := fAddr (fFetched s t) t ga imm) (idx := List.range 8) (iss := .fload t) (unit := unitF) hr
    fun k hk => hg k (List.mem_range.mp hk)
  refine ⟨_, fRun_runs _ h, ?_⟩
  rw [hread]
  exact gResult_retire ..

/-- FST is complete when its bytes are written, since it needs no request. -/
theorem fst_result (hr : Reaches t (fetchAddr (fFetched s t) t ga imm) false true la (fFetched s t) w) (hg : Sound w la 8) :
    ∃ v x, exec (.fSt t ga gb imm) s = .next v ∧ Stored la 8 (rdG (fFetched s t) t gb).toNat w x ∧
      FRetired t (fPc (fFetched s t) t + 4) ((fFetched s t).tile t).f x v := by
  obtain ⟨htr, hroute⟩ := hr
  obtain ⟨x, hwrite, hst⟩ := localWrite_cellsAt (rdG (fFetched s t) t gb).toNat hg
  have htouched : XlatTouched t (fFetched s t) w := by
    have := xlatTouched_translate t (fetchAddr (fFetched s t) t ga imm) false true (fFetched s t)
    rwa [htr] at this
  have hpc : fPc x t = fPc (fFetched s t) t := by
    have hx : fPc x t = fPc w t := rget_congr (by rw [rraw, regs_of_onlyMem hst.only, rraw]) _
    exact hx.trans (htouched.rget (by simp [R.FC_PC, R.XLAT_MISS]) _)
  have hf : (x.tile t).f = ((fFetched s t).tile t).f := by rw [tile_onlyMem hst.only, htouched.tile]
  refine ⟨_, x, fRun_runs _ h, hst, ?_⟩
  dsimp only
  rw [fAddr_eq, htr]
  dsimp only
  rw [hroute]
  dsimp only
  rw [hwrite, if_pos rfl]
  exact fRetired_kept hpc hf

end

/-! ### FSACQ and FSPOST -/

section
variable {ga : GReg} {cnt : BitVec 8} {n : SemIdx} {c : Nat} (h : FIssues s t)
  (hc : c = if ga = 0 then cnt.toNat else (rdG (fFetched s t) t ga).toNat % 2 ^ 16)
include h hc

theorem fsacq_result : ∃ v, exec (.fSacq t ga cnt n) s = .next v ∧
    (c = 0 → FRetired t (fPc (fFetched s t) t + 4) ((fFetched s t).tile t).f (fFetched s t) v) ∧
    (c ≠ 0 → semWaiters (fFetched s t) t n = [] → c ≤ semVal (fFetched s t) t n →
      ∃ x, SemValue t n (semVal (fFetched s t) t n - c) (fFetched s t) x ∧
        FRetired t (fPc (fFetched s t) t + 4) ((fFetched s t).tile t).f x v) ∧
    (c ≠ 0 → ¬ (semWaiters (fFetched s t) t n = [] ∧ c ≤ semVal (fFetched s t) t n) →
      FBlocked t n.toNat 0 (.sem n false)
        (setWaiters t n (semWaiters (fFetched s t) t n ++ [⟨.fprog, c⟩]) (fFetched s t)) v) := by
  have hcnt : fCount (fFetched s t) t ga cnt = c := hc.symm
  have hne : R.FC_PC t.toNat ∉ [R.SEM t.toNat n.toNat] := by
    have := n.isLt
    simp only [R.FC_PC, R.SEM, List.mem_singleton]
    omega
  refine ⟨_, fRun_runs _ h, ?_⟩
  simp only [hcnt]
  refine ⟨fun h0 => ?_, fun h0 hw hle => ?_, fun h0 hg => ?_⟩
  · rw [h0, acquire_zero, if_pos rfl]
    exact fRetire_retired ..
  · have hset := semSet_value t n (semVal (fFetched s t) t n - c) (fFetched s t)
    rw [acquire_granted h0 ⟨hw, hle⟩, if_pos rfl]
    exact ⟨_, hset, fRetired_onlyRegs hset.frame hne⟩
  · rw [acquire_waits h0 hg, if_neg Bool.false_ne_true]
    exact fBlock_blocked ..

theorem fspost_result : ∃ v, exec (.fSpost t ga cnt n) s = .next v ∧
    (c = 0 → FRetired t (fPc (fFetched s t) t + 4) ((fFetched s t).tile t).f (fFetched s t) v) ∧
    (c ≠ 0 → ∃ x, SemPosted t n c (fFetched s t) x ∧
      FRetired t (fPc (fFetched s t) t + 4) ((fFetched s t).tile t).f x v) := by
  have hcnt : fCount (fFetched s t) t ga cnt = c := hc.symm
  have hne : R.FC_PC t.toNat ∉ [R.SEM t.toNat n.toNat, R.FC_PROGRESS t.toNat] := by
    have := n.isLt
    simp only [R.FC_PC, R.SEM, R.FC_PROGRESS, List.mem_cons, List.not_mem_nil, or_false]
    omega
  refine ⟨_, fRun_runs _ h, ?_⟩
  simp only [hcnt]
  refine ⟨fun h0 => ?_, fun h0 => ?_⟩
  · rw [h0, semPost, if_pos rfl]
    exact fRetire_retired ..
  · have hpost := semPost_posted t n c (fFetched s t) h0
    exact ⟨_, hpost, fRetired_onlyRegs hpost.frame hne⟩

end

end

theorem fetchProgramAccesses_claim : Claims.FetchProgramAccesses := by
  rintro t gd ga gb imm cnt n s u w la c h rfl hc
  exact ⟨fld_result h, fst_result h, fsacq_result h hc, fspost_result h hc⟩

/-- Settles O21: an instruction that issues runs its body, and each body sets a G register, branches, reaches memory or counts on
a semaphore as its row says. -/
theorem fetchInstructions : Obligations.FetchInstructions := by
  unfold Obligations.FetchInstructions
  exact ⟨fetchProgramResults_claim, fetchProgramAccesses_claim⟩

end Sys2Proof
end

section
/-! Stream slots as parts of a tile, and what their abort and their reports change (R165, R170, R171). -/

namespace Sys2Proof

open Sys2Proof.Machine

/-! ### A slot beside its registers -/

section
variable {t : TileId} {sl : SlotIdx} {s u v : Machine.State} {c d e : Tile}

/-- Of a tile, only its slots and its pending acquires may differ. -/
def StreamsOnly (c d : Tile) : Prop := d = { c with slots := d.slots, waiters := d.waiters }

theorem StreamsOnly.refl (c : Tile) : StreamsOnly c c := rfl

theorem StreamsOnly.trans (a : StreamsOnly c d) (b : StreamsOnly d e) : StreamsOnly c e := by
  refine Eq.trans b ?_
  rw [a]

theorem StreamsOnly.core (h : StreamsOnly c d) : d.x = c.x := by rw [h]

theorem StreamsOnly.xfers (h : StreamsOnly c d) : d.xfers = c.xfers := by rw [h]

theorem StreamsOnly.late (h : StreamsOnly c d) : d.late = c.late := by rw [h]

theorem slot_congr (h : (v.tile t).slots = (u.tile t).slots) (k : SlotIdx) : v.slot t k = u.slot t k := by
  rw [State.slot, State.slot, h]

@[simp] theorem slot_rput (o x : Nat) (k : SlotIdx) : (rput o x s).slot t k = s.slot t k := slot_congr (by rw [tile_rput]) k

@[simp] theorem slot_rset (o : Nat) (f : Fld) (x : Nat) (k : SlotIdx) : (rset o f x s).slot t k = s.slot t k :=
  slot_congr (by rw [tile_rset]) k

@[simp] theorem tile_setSlotState (w : TileId) (x : Nat) : (setSlotState t sl x s).tile w = s.tile w := by rw [setSlotState, tile_rset]

@[simp] theorem slot_setSlotState (x : Nat) (k : SlotIdx) : (setSlotState t sl x s).slot t k = s.slot t k :=
  slot_congr (by rw [tile_setSlotState]) k

theorem tile_modSlot (f : Slot → Slot) : (s.modSlot t sl f).tile t =
    { s.tile t with slots := mmod (fun _ => Slot.reset) (s.tile t).slots sl.toNat f } := tile_modTile_same ..

theorem slot_modSlot (f : Slot → Slot) : (s.modSlot t sl f).slot t sl = f (s.slot t sl) := by
  rw [State.slot, tile_modSlot, mmod, mget_mset_same, State.slot]

theorem rraw_modSlot (f : Slot → Slot) (o : Nat) : rraw (s.modSlot t sl f) o = rraw s o := rfl

theorem semVal_modSlot (f : Slot → Slot) (n : SemIdx) : semVal (s.modSlot t sl f) t n = semVal s t n := rget_congr (rraw_modSlot ..) _

theorem onlyTile_modSlot {offs : List Nat} (f : Slot → Slot) (h : OnlyTile t offs u v) : OnlyTile t offs u (v.modSlot t sl f) :=
  onlyTile_modTile _ h

theorem streamsOnly_modSlot (f : Slot → Slot) : StreamsOnly (s.tile t) ((s.modSlot t sl f).tile t) := by
  rw [tile_modSlot]
  rfl

theorem OnlyRegs.onlyTile {offs : List Nat} (h : OnlyRegs offs u v) (t : TileId) : OnlyTile t offs u v :=
  ⟨(congrArg (fun w : Machine.State => ({ w with tiles := [] } : Machine.State)) h.rest :), h.regs, fun w _ => h.tile w⟩

theorem OnlyRegs.slot {offs : List Nat} (h : OnlyRegs offs u v) (t : TileId) (k : SlotIdx) : v.slot t k = u.slot t k :=
  slot_congr (by rw [h.tile]) k

theorem OnlyTile.rdByte {offs : List Nat} (h : OnlyTile t offs u v) (a : Nat) : rdByte v a = rdByte u a := by
  have hmem : v.mem = u.mem := (congrArg (fun w : Machine.State => w.mem) h.rest :)
  rw [Machine.rdByte, hmem, Machine.rdByte]

/-! ### A slot aborts -/

theorem slotAbort_closed (st : Status) (h : ¬ (1 ≤ slotState s t sl ∧ slotState s t sl ≤ 5)) : slotAbort t sl st s = s := if_neg h

theorem slotAbort_open (st : Status) (h : 1 ≤ slotState s t sl ∧ slotState s t sl ≤ 5) : slotAbort t sl st s =
    rset (R.SLOT_STATE t.toNat sl.toNat) F.SLOT_STATE_HELD_FAULT 0 (rset (R.SLOT_STATE t.toNat sl.toNat) F.SLOT_STATE_STATUS st.code
      (setSlotState t sl slAborting ((withdraw t (.slot sl) s).modSlot t sl fun q => { q with waiting := none, wantIdx := false }))) :=
  if_pos h

/-- An open slot is ABORTING with the status, and waits on nothing. -/
theorem slotAbort_aborts (st : Status) (h : 1 ≤ slotState s t sl ∧ slotState s t sl ≤ 5) :
    slotState (slotAbort t sl st s) t sl = 6 ∧
    rget (slotAbort t sl st s) (R.SLOT_STATE t.toNat sl.toNat) F.SLOT_STATE_STATUS = st.code ∧
    ((slotAbort t sl st s).slot t sl).waiting = none := by
  rw [slotAbort_open st h]
  refine ⟨?_, ?_, ?_⟩
  · rw [slotState, rget_rset_field _ _ _ _ _ (by decide) (by decide), rget_rset_field _ _ _ _ _ (by decide) (by decide),
      setSlotState, rget_rset_same _ _ _ _ (by decide)]
    rfl
  · rw [rget_rset_field _ _ _ _ _ (by decide) (by decide), rget_rset_same _ _ _ _ (by decide)]
    cases st <;> rfl
  · rw [slot_rset, slot_rset, slot_setSlotState, slot_modSlot]

theorem slotAbort_frame (t : TileId) (sl : SlotIdx) (st : Status) (s : Machine.State) :
    OnlyTile t [R.SLOT_STATE t.toNat sl.toNat] s (slotAbort t sl st s) ∧ StreamsOnly (s.tile t) ((slotAbort t sl st s).tile t) := by
  by_cases h : 1 ≤ slotState s t sl ∧ slotState s t sl ≤ 5
  · rw [slotAbort_open st h]
    refine ⟨onlyTile_rset _ _ (by simp) (onlyTile_rset _ _ (by simp) (onlyTile_rset _ _ (by simp)
      (onlyTile_modSlot _ (onlyTile_modTile _ (.refl ..))))), ?_⟩
    have hwithdraw : StreamsOnly (s.tile t) ((withdraw t (.slot sl) s).tile t) := by
      rw [withdraw, tile_modTile_same]
      rfl
    rw [tile_rset, tile_rset, tile_setSlotState]
    exact hwithdraw.trans (streamsOnly_modSlot _)
  · rw [slotAbort_closed st h]
    exact ⟨.refl .., .refl _⟩

/-! ### Reports -/

theorem onlyRegs_recordFFault (t : TileId) (x : Nat) (s : Machine.State) : OnlyRegs [R.FC_FAULT t.toNat] s (recordFFault t x s) := by
  unfold recordFFault
  split
  · exact onlyRegs_rput _ (by simp) (.refl ..)
  · exact .refl ..

/-- The first fault stays recorded. -/
theorem rraw_recordFFault {x : Nat} (hx : x < 2 ^ 64) : rraw (recordFFault t x s) (R.FC_FAULT t.toNat) =
    if rraw s (R.FC_FAULT t.toNat) = 0 then x else rraw s (R.FC_FAULT t.toNat) := by
  rw [recordFFault, apply_ite (fun v : Machine.State => rraw v (R.FC_FAULT t.toNat)), rraw_rput_same, Nat.mod_eq_of_lt hx]

theorem tile_streamReport (st : Status) (va : Nat) : (streamReport t sl st va s).tile t =
    { s.tile t with x := { (s.tile t).x with faults := (s.tile t).x.faults ++ [⟨3, st, 0, va⟩] } } := by
  rw [streamReport, pushFault, tile_modX, (onlyRegs_recordFFault ..).tile]

theorem onlyTile_streamReport (t : TileId) (sl : SlotIdx) (st : Status) (va : Nat) (s : Machine.State) :
    OnlyTile t [R.FC_FAULT t.toNat] s (streamReport t sl st va s) := by
  rw [streamReport, pushFault]
  exact onlyTile_modX _ ((onlyRegs_recordFFault ..).onlyTile t)

theorem slotState_ne_fcFault (t : TileId) (sl : SlotIdx) : R.SLOT_STATE t.toNat sl.toNat ∉ [R.FC_FAULT t.toNat] := by
  simp only [R.SLOT_STATE, R.FC_FAULT, List.mem_singleton]
  omega

/-- The slot's abort with a status, and its report. -/
def slotFails (t : TileId) (sl : SlotIdx) (st : Status) (va : Nat) (s : Machine.State) : Machine.State :=
  streamReport t sl st va (slotAbort t sl st s)

theorem slotFails_failed (st : Status) (va : Nat) (h : 1 ≤ slotState s t sl ∧ slotState s t sl ≤ 5) :
    SlotFailed t sl st va s (slotFails t sl st va s) := by
  have hreport := onlyTile_streamReport t sl st va (slotAbort t sl st s)
  have hne := slotState_ne_fcFault t sl
  obtain ⟨hstate, hstatus, hwaiting⟩ := slotAbort_aborts st h
  refine ⟨(hreport.rget hne _).trans hstate, (hreport.rget hne _).trans hstatus, ?_, ?_⟩
  · rw [slotFails, slot_congr (u := slotAbort t sl st s) (by rw [tile_streamReport]), hwaiting]
  · rw [slotFails, tile_streamReport, (slotAbort_frame t sl st s).2.core]

theorem onlyTile_slotFails (t : TileId) (sl : SlotIdx) (st : Status) (va : Nat) (s : Machine.State) :
    OnlyTile t [R.SLOT_STATE t.toNat sl.toNat, R.FC_FAULT t.toNat] s (slotFails t sl st va s) :=
  ((slotAbort_frame ..).1.mono (by simp)).trans ((onlyTile_streamReport ..).mono (by simp))

theorem xfers_slotFails (st : Status) (va : Nat) : ((slotFails t sl st va s).tile t).xfers = (s.tile t).xfers := by
  rw [slotFails, tile_streamReport]
  exact (slotAbort_frame t sl st s).2.xfers

theorem late_slotFails (st : Status) (va : Nat) : ((slotFails t sl st va s).tile t).late = (s.tile t).late := by
  rw [slotFails, tile_streamReport]
  exact (slotAbort_frame t sl st s).2.late

/-- A failure counts from any state with the same faults on their way. -/
theorem SlotFailed.from {st : Status} {va : Nat} (h : SlotFailed t sl st va u v) (hu : (u.tile t).x.faults = (s.tile t).x.faults) :
    SlotFailed t sl st va s v := by
  obtain ⟨hstate, hstatus, hwaiting, hfaults⟩ := h
  exact ⟨hstate, hstatus, hwaiting, hu ▸ hfaults⟩

end

/-! ### The program faults -/

/-- The record of a program's fault, marked PROG. -/
def programFault (st : Status) (illegal : Bool) : Nat := st.code + 1 <<< 14 + b2n illegal <<< 15

/-- The program FAULTED and recorded, its streams not yet told. -/
def programFaulted (t : TileId) (st : Status) (illegal : Bool) (s : Machine.State) : Machine.State :=
  (withdraw t .fprog (setFState t fcFaulted (recordFFault t (programFault st illegal) s))).modF t
    (fun f => { f with wait := none, load := none, store := false })

/-- A slot's `SLOT_STATE`. -/
def SlotStateReg (t : TileId) (o : Nat) : Prop := ∃ k : SlotIdx, o = R.SLOT_STATE t.toNat k.toNat

section
variable (t : TileId) (st : Status) (va : Nat) (illegal : Bool) (s : Machine.State)

theorem fFault_eq : fFault t st va illegal s =
    pushFault t ⟨3, st, 0, va⟩ (allSlots.foldl (fun s sl => slotAbort t sl .aborted s) (programFaulted t st illegal s)) := rfl

theorem onlyRegs_setFState (x : Nat) : OnlyRegs [R.FC_STATUS t.toNat] s (setFState t x s) :=
  onlyRegs_rset _ _ (by simp) (onlyRegs_rset _ _ (by simp) (onlyRegs_rset _ _ (by simp) (.refl ..)))

theorem fState_setFState (x : Nat) : fState (setFState t x s) t = x % 8 := rget_rset_same _ _ _ _ (by decide)

theorem onlyTile_programFaulted :
    OnlyTile t [R.FC_STATUS t.toNat, R.FC_FAULT t.toNat] s (programFaulted t st illegal s) := by
  have hregs : OnlyRegs [R.FC_STATUS t.toNat, R.FC_FAULT t.toNat] s (setFState t fcFaulted (recordFFault t (programFault st illegal) s)) :=
    ((onlyRegs_recordFFault ..).mono (by simp)).trans ((onlyRegs_setFState ..).mono (by simp))
  rw [programFaulted, State.modF, withdraw]
  exact onlyTile_modTile _ (onlyTile_modTile _ (hregs.onlyTile t))

theorem rraw_programFaulted_setFState (o : Nat) : rraw (programFaulted t st illegal s) o =
    rraw (setFState t fcFaulted (recordFFault t (programFault st illegal) s)) o := by
  rw [programFaulted, State.modF, withdraw, rraw_modTile, rraw_modTile]

theorem fState_programFaulted : fState (programFaulted t st illegal s) t = 3 :=
  (rget_congr (rraw_programFaulted_setFState ..) _).trans (fState_setFState ..)

theorem tile_programFaulted : (programFaulted t st illegal s).tile t =
    { s.tile t with
      waiters := ((programFaulted t st illegal s).tile t).waiters
      f := { (s.tile t).f with wait := none, load := none, store := false } } := by
  have hregs : (setFState t fcFaulted (recordFFault t (programFault st illegal) s)).tile t = s.tile t :=
    ((onlyRegs_setFState ..).tile t).trans ((onlyRegs_recordFFault ..).tile t)
  rw [programFaulted, tile_modF, withdraw, tile_modTile_same, hregs]

/-- The first fault of the program stays recorded, marked PROG. -/
theorem rraw_programFaulted : rraw (programFaulted t st illegal s) (R.FC_FAULT t.toNat) =
    if rraw s (R.FC_FAULT t.toNat) = 0 then programFault st illegal else rraw s (R.FC_FAULT t.toNat) := by
  have hword : programFault st illegal < 2 ^ 64 := by cases st <;> cases illegal <;> decide
  rw [← rraw_recordFFault hword, rraw_programFaulted_setFState]
  exact (onlyRegs_setFState ..).regs _ (by simp [R.FC_FAULT, R.FC_STATUS])

theorem slotsAbort_frame (l : List SlotIdx) :
    TileTouched t (SlotStateReg t) s (l.foldl (fun s sl => slotAbort t sl st s) s) ∧
      StreamsOnly (s.tile t) ((l.foldl (fun s sl => slotAbort t sl st s) s).tile t) := by
  induction l generalizing s with
  | nil => exact ⟨.refl .., .refl _⟩
  | cons sl l ih =>
    obtain ⟨honly, hstreams⟩ := slotAbort_frame t sl st s
    obtain ⟨htouched', hstreams'⟩ := ih (slotAbort t sl st s)
    have htouched : TileTouched t (SlotStateReg t) s (slotAbort t sl st s) :=
      ⟨fun o ho => honly.regs o fun hm => ho ⟨sl, List.mem_singleton.mp hm⟩, honly.tiles,
        (congrArg (fun v : Machine.State => v.queues) honly.rest :)⟩
    exact ⟨htouched.trans htouched', hstreams.trans hstreams'⟩

/-- With no stream open there is none to abort. -/
theorem slotsAbort_free {s : Machine.State} (h : ∀ k, SlotFree s t k) (l : List SlotIdx) :
    l.foldl (fun s sl => slotAbort t sl st s) s = s := by
  refine List.foldlRecOn (motive := (· = s)) _ _ rfl fun v hv sl _ => ?_
  subst hv
  refine slotAbort_closed st fun hopen => ?_
  have hfree := h sl
  unfold SlotFree at hfree
  omega

theorem rraw_fFault (o : Nat) : rraw (fFault t st va illegal s) o =
    rraw (allSlots.foldl (fun s sl => slotAbort t sl .aborted s) (programFaulted t st illegal s)) o := by
  rw [fFault_eq, pushFault, rraw_modX]

/-- A program that faults is FAULTED, with one fault more on its way; it touches no register but its own and its slots' states. -/
theorem fFault_faults : fState (fFault t st va illegal s) t = 3 ∧
    ((fFault t st va illegal s).tile t).x.faults = (s.tile t).x.faults ++ [⟨3, st, 0, va⟩] ∧
    ∀ o, o ∉ [R.FC_STATUS t.toNat, R.FC_FAULT t.toNat] → ¬ SlotStateReg t o → rraw (fFault t st va illegal s) o = rraw s o := by
  obtain ⟨htouched, hstreams⟩ := slotsAbort_frame t .aborted (programFaulted t st illegal s) allSlots
  have hne : ¬ SlotStateReg t (R.FC_STATUS t.toNat) := by
    rintro ⟨k, hk⟩
    unfold R.FC_STATUS R.SLOT_STATE at hk
    omega
  refine ⟨(rget_congr (rraw_fFault ..) _).trans ((htouched.rget hne _).trans (fState_programFaulted ..)), ?_, fun o ho hs => ?_⟩
  · rw [fFault_eq, pushFault, tile_modX, hstreams.core, tile_programFaulted]
  · rw [rraw_fFault, htouched.regs o hs, (onlyTile_programFaulted ..).regs o ho]

end

end Sys2Proof
end

section
/-! SOPEN, SJOIN, FEND and the reserved encodings of a fetch program (R155, R157, Table 6-2, Table 6-6, Table 6-9). -/

namespace Sys2Proof

open Sys2Proof.Machine

section
variable {t : TileId} {sl : SlotIdx} {u w : Machine.State}

theorem slotFree_iff (u : Machine.State) (t : TileId) (sl : SlotIdx) : slotFree u t sl = true ↔ SlotFree u t sl := by
  simp [slotFree, SlotFree, slIdle, slAborted]

theorem fEndOk_iff (u : Machine.State) (t : TileId) :
    fEndOk u t = true ↔ (∀ k, SlotFree u t k) ∧ (u.tile t).xfers = [] := by
  simp [fEndOk, mem_allSlots, slotFree_iff]

/-- An instruction that retires where its condition holds, and blocks where it does not (Table 6-9). -/
theorem fRetires_or_blocks {b : Bool} {p : Prop} (hb : b = true ↔ p) (obj kind : Nat) (x : FWait) :
    (p → FRetired t (fPc u t + 4) (u.tile t).f u (fFinish t (if b then .retire u else .wait obj kind x u))) ∧
    (¬ p → FBlocked t obj kind x u (fFinish t (if b then .retire u else .wait obj kind x u))) := by
  refine ⟨fun h => ?_, fun h => ?_⟩
  · rw [if_pos (hb.mpr h)]
    exact fRetire_retired ..
  · rw [if_neg (mt hb.mp h)]
    exact fBlock_blocked ..

/-! ### SOPEN -/

/-- A slot that starts its opening. -/
theorem slotOpen_opens (t : TileId) (sl : SlotIdx) (va : Nat) (u : Machine.State) :
    slotState (slotOpen t sl va u) t sl = 1 ∧ (slotOpen t sl va u).slot t sl = Slot.reset ∧
    rraw (slotOpen t sl va u) (R.SLOT_DESC_VA t.toNat sl.toNat) = va % 2 ^ 48 ∧
    OnlyTile t [R.SLOT_DESC_VA t.toNat sl.toNat, R.SLOT_STATE t.toNat sl.toNat] u (slotOpen t sl va u) := by
  have hne : R.SLOT_DESC_VA t.toNat sl.toNat ≠ R.SLOT_STATE t.toNat sl.toNat := by simp [R.SLOT_DESC_VA, R.SLOT_STATE]
  refine ⟨rget_rput_same _ _ _ _ (by decide), ?_, ?_,
    onlyTile_rput _ (by simp) (onlyTile_modTile _ (onlyTile_rput _ (by simp) (.refl ..)))⟩
  · rw [State.slot, slotOpen, tile_rput, tile_modTile_same, mget_mset_same]
  · rw [slotOpen, rraw_rput_other _ _ hne, rraw_modTile, rraw_rput_same, Nat.mod_eq_of_lt]
    omega

/-- SOPEN on a free slot leaves it OPENING, and the program waits for its acceptance. -/
theorem sopen_opening {va : Nat} (hw : FBlocked t sl.toNat 1 (.opening sl) (slotOpen t sl va u) w) :
    fPc w t = fPc u t ∧ (w.tile t).f.wait = some (.opening sl) ∧ slotState w t sl = 1 ∧ w.slot t sl = Slot.reset ∧
    rraw w (R.SLOT_DESC_VA t.toNat sl.toNat) = va % 2 ^ 48 ∧
    OnlyTile t [R.FC_STATUS t.toNat, R.SLOT_DESC_VA t.toNat sl.toNat, R.SLOT_STATE t.toNat sl.toNat] u w := by
  obtain ⟨hstate, hslot, hva, honly⟩ := slotOpen_opens t sl va u
  have hpc : R.FC_PC t.toNat ∉ [R.SLOT_DESC_VA t.toNat sl.toNat, R.SLOT_STATE t.toNat sl.toNat] := by
    simp only [R.FC_PC, R.SLOT_DESC_VA, R.SLOT_STATE, List.mem_cons, List.not_mem_nil, or_false]
    omega
  have hstateReg : R.SLOT_STATE t.toNat sl.toNat ∉ [R.FC_STATUS t.toNat] := by
    simp only [R.SLOT_STATE, R.FC_STATUS, List.mem_singleton]
    omega
  have hvaReg : R.SLOT_DESC_VA t.toNat sl.toNat ∉ [R.FC_STATUS t.toNat] := by
    simp only [R.SLOT_DESC_VA, R.FC_STATUS, List.mem_singleton]
    omega
  refine ⟨hw.pc.trans (honly.rget hpc _), by rw [hw.tile], (hw.frame.rget hstateReg _).trans hstate, ?_,
    (hw.frame.regs _ hvaReg).trans hva, (honly.mono (by simp)).trans (hw.frame.mono (by simp))⟩
  exact (slot_congr (by rw [hw.tile]) sl).trans hslot

/-! ### FEND -/

theorem fEndRetire_ends (t : TileId) (u : Machine.State) : fState (fEndRetire t u) t = 4 ∧
    fPc (fEndRetire t u) t = (fPc u t + 4) % 2 ^ 48 / 4 * 4 ∧
    OnlyTile t [R.FC_STATUS t.toNat, R.FC_PC t.toNat, R.FC_PROGRESS t.toNat] u (fEndRetire t u) ∧
    (fEndRetire t u).tile t = u.tile t := by
  have hret := fRetire_retired t (fPc u t + 4) u
  have hstatus := onlyRegs_setFState t (fRetire t (fPc u t + 4) u) fcEnded
  exact ⟨fState_setFState .., (hstatus.rget (by simp [R.FC_PC, R.FC_STATUS]) _).trans hret.pc,
    (hret.frame.mono (by simp)).trans ((hstatus.onlyTile t).mono (by simp)), (hstatus.tile t).trans hret.tile⟩

/-! ### A reserved encoding -/

/-- A program without open streams faults: one fault on its way, and nothing else of the tile changes. -/
theorem fFault_alone (t : TileId) (st : Status) (va : Nat) (illegal : Bool) {u : Machine.State} (h : ∀ k, SlotFree u t k) :
    fFault t st va illegal u = pushFault t ⟨3, st, 0, va⟩ (programFaulted t st illegal u) := by
  rw [fFault_eq, slotsAbort_free]
  intro k
  have hstate : slotState (programFaulted t st illegal u) t k = slotState u t k := by
    refine (onlyTile_programFaulted ..).rget ?_ _
    simp only [R.SLOT_STATE, R.FC_STATUS, R.FC_FAULT, List.mem_cons, List.not_mem_nil, or_false]
    omega
  have hfree := h k
  rwa [SlotFree, ← hstate] at hfree

theorem exec_fcReservedEncoding {s : Machine.State} {x : BitVec 32} (h : FIssues s t) (hx : fDecode t x = none) :
    exec (.fcReservedEncoding t x) s = .next (fFault t .aborted 0 true (fFetched s t)) := by
  rw [exec, execFcReservedEncoding, hx, Option.isSome_none, if_neg Bool.false_ne_true, fRun_runs _ h]
  rfl

end

/-- Settles O22: SOPEN opens a free slot, SJOIN and FEND wait on the slots, and a reserved word faults the program alone. -/
theorem fetchProgramSlots : Obligations.FetchProgramSlots := by
  unfold Obligations.FetchProgramSlots
  rintro t ga sl x s u h rfl
  refine ⟨?_, ⟨_, fRun_runs _ h, fRetires_or_blocks (slotFree_iff ..) ..⟩, ⟨_, fRun_runs _ h, fun hfree hx => ?_, fun hn => ?_⟩,
    fun hx hfree => ⟨_, exec_fcReservedEncoding h hx, ?_⟩⟩
  · refine ⟨_, fRun_runs _ h, ?_⟩
    dsimp only
    by_cases hfree : SlotFree (fFetched s t) t sl
    · rw [if_pos ((slotFree_iff ..).mpr hfree)]
      have hblocked := fBlock_blocked t sl.toNat 1 (.opening sl)
        (slotOpen t sl ((rdG (fFetched s t) t ga).toNat / 64 * 64) (fFetched s t))
      obtain ⟨hpc, hopening⟩ := sopen_opening hblocked
      exact ⟨hblocked.state, hpc, fun _ => hopening, fun hn => absurd hfree hn⟩
    · rw [if_neg (mt (slotFree_iff ..).mp hfree)]
      have hblocked := fBlock_blocked t sl.toNat 1 (.sopen sl ((rdG (fFetched s t) t ga).toNat / 64 * 64)) (fFetched s t)
      exact ⟨hblocked.state, hblocked.pc, fun hp => absurd hp hfree, fun _ => hblocked⟩
  · rw [if_pos ((fEndOk_iff ..).mpr ⟨hfree, hx⟩)]
    exact fEndRetire_ends ..
  · rw [if_neg (mt (fEndOk_iff ..).mp hn)]
    exact fBlock_blocked ..
  · rw [fFault_alone t .aborted 0 true hfree]
    have hframe := onlyTile_programFaulted t .aborted true (fFetched s t)
    have hkept : ∀ o, rraw (pushFault t ⟨3, .aborted, 0, 0⟩ (programFaulted t .aborted true (fFetched s t))) o =
        rraw (programFaulted t .aborted true (fFetched s t)) o := fun o => by rw [pushFault, rraw_modX]
    refine ⟨(rget_congr (hkept _) _).trans (fState_programFaulted ..), (hkept _).trans (rraw_programFaulted ..), ?_, ?_,
      (rget_congr (hkept _) _).trans (hframe.rget (by simp [R.FC_PC, R.FC_STATUS, R.FC_FAULT]) _), onlyTile_modX _ hframe⟩
    · rw [pushFault, tile_modX, tile_programFaulted]
    · rw [pushFault, tile_modX, tile_programFaulted]

end Sys2Proof
end

section
/-! The progress timeout, the end of an abort and the end of a cancel (R171, R175, R178, R179). -/

namespace Sys2Proof

open Sys2Proof.Machine

/-! ### The youngest BLOCKED slot -/

/-- Of a candidate, if there is one, and another, the one of lesser age. -/
def younger {α : Type} (age : α → Nat) (b : Option α) (a : α) : Option α :=
  match b with
  | none => some a
  | some c => if age a < age c then some a else some c

theorem younger_self {α : Type} {age : α → Nat} {a c : α} (h : c ≠ a → age a < age c) : younger age (some a) c = some a := by
  obtain rfl | hc := eq_or_ne c a
  · exact if_neg (Nat.lt_irrefl _)
  · exact if_neg (h hc).asymm

/-- The member that is younger than all others is found. -/
theorem foldl_younger {α : Type} {age : α → Nat} {a : α} {l : List α} {b : Option α} (hl : ∀ c ∈ l, c ≠ a → age a < age c)
    (hb : b = some a ∨ a ∈ l ∧ ∀ c, b = some c → age a < age c) : l.foldl (younger age) b = some a := by
  induction l generalizing b with
  | nil =>
    obtain rfl | ⟨hmem, -⟩ := hb
    · rfl
    · cases hmem
  | cons d l ih =>
    refine ih (fun c hc => hl c (List.mem_cons_of_mem _ hc)) ?_
    obtain rfl | ⟨hmem, hb⟩ := hb
    · exact .inl (younger_self (hl d List.mem_cons_self))
    · obtain rfl | hd := eq_or_ne d a
      · left
        cases b with
        | none => rfl
        | some c => exact if_pos (hb c rfl)
      · refine .inr ⟨(List.mem_cons.mp hmem).resolve_left hd.symm, fun c hc => ?_⟩
        have hage := hl d List.mem_cons_self hd
        cases b with
        | none =>
          cases hc
          exact hage
        | some e =>
          rw [younger] at hc
          split at hc
          · cases hc
            exact hage
          · cases hc
            exact hb _ rfl

section
variable {t : TileId} {sl : SlotIdx} {s : Machine.State}

theorem youngestBlocked_eq (s : Machine.State) (t : TileId) : youngestBlocked s t =
    (allSlots.filter (fun sl => slotState s t sl == slBlocked)).foldl (younger (slotAge s t)) none := by
  rw [youngestBlocked]
  congr 1
  funext b k
  cases b <;> rfl

theorem youngestBlocked_none (h : ∀ k, slotState s t k ≠ 3) : youngestBlocked s t = none := by
  rw [youngestBlocked_eq, List.filter_eq_nil_iff.mpr]
  · rfl
  · exact fun k _ => by simpa [slBlocked] using h k

theorem youngestBlocked_some (hsl : slotState s t sl = 3)
    (h : ∀ k, k ≠ sl → slotState s t k = 3 → slotAge s t sl < slotAge s t k) : youngestBlocked s t = some sl := by
  rw [youngestBlocked_eq]
  refine foldl_younger (fun k hk hne => ?_) (.inr ⟨?_, nofun⟩)
  · exact h k hne (beq_iff_eq.mp (List.mem_filter.mp hk).2)
  · exact List.mem_filter.mpr ⟨mem_allSlots sl, beq_iff_eq.mpr hsl⟩

/-! ### The progress timeout -/

theorem onlyRegs_progress (t : TileId) (s : Machine.State) : OnlyRegs [R.FC_PROGRESS t.toNat] s (progress t s) :=
  onlyRegs_rput _ (by simp) (.refl ..)

theorem rraw_progress (t : TileId) (s : Machine.State) : rraw (progress t s) (R.FC_PROGRESS t.toNat) = 0 := rraw_rput_same ..

theorem fState_progress : fState (progress t s) t = fState s t :=
  (onlyRegs_progress t s).rget (by simp [R.FC_STATUS, R.FC_PROGRESS]) _

theorem slotState_progress (k : SlotIdx) : slotState (progress t s) t k = slotState s t k := by
  refine (onlyRegs_progress t s).rget ?_ _
  simp only [R.SLOT_STATE, R.FC_PROGRESS, List.mem_singleton]
  omega

theorem slotAge_progress (k : SlotIdx) : slotAge (progress t s) t k = slotAge s t k := by
  have hseq : R.SLOT_SEQ t.toNat k.toNat ∉ [R.FC_PROGRESS t.toNat] := by
    simp only [R.SLOT_SEQ, R.FC_PROGRESS, List.mem_singleton]
    omega
  rw [slotAge, (onlyRegs_progress t s).rget (by simp [R.FC_SEQ, R.FC_PROGRESS]), (onlyRegs_progress t s).rget hseq, slotAge]

theorem exec_progressTimeout_early (h : rget s (R.FC_PROGRESS t.toNat) F.FC_PROGRESS_COUNT < progLimit s t) :
    exec (.progressTimeout t) s = .next s := congrArg _ (if_neg (Nat.not_le.mpr h))

section
variable (hlimit : progLimit s t ≤ rget s (R.FC_PROGRESS t.toNat) F.FC_PROGRESS_COUNT)
include hlimit

theorem exec_progressTimeout_program (h : ∀ k, slotState s t k ≠ 3) : exec (.progressTimeout t) s =
    .next (if fState s t = 2 then fFault t .timeout 0 false (progress t s) else progress t s) := by
  have hnone : youngestBlocked (progress t s) t = none := youngestBlocked_none fun k => (slotState_progress k).trans_ne (h k)
  rw [exec, execProgressTimeout, if_pos hlimit]
  dsimp only
  rw [hnone, fState_progress]
  rfl

theorem exec_progressTimeout_slot (hsl : slotState s t sl = 3)
    (h : ∀ k, k ≠ sl → slotState s t k = 3 → slotAge s t sl < slotAge s t k) : exec (.progressTimeout t) s =
    .next (slotFails t sl .timeout 0 (rinc (R.FC_MUTUAL t.toNat) F.FC_MUTUAL_COUNT 1 (progress t s))) := by
  have hsome : youngestBlocked (progress t s) t = some sl := by
    refine youngestBlocked_some ((slotState_progress sl).trans hsl) fun k hk h3 => ?_
    rw [slotAge_progress, slotAge_progress]
    exact h k hk ((slotState_progress k).symm.trans h3)
  rw [exec, execProgressTimeout, if_pos hlimit]
  dsimp only
  rw [hsome]
  rfl

end

/-- The BLOCKED slot that ends is counted, and the count of progress restarts. -/
theorem slotTimesOut (hsl : slotState s t sl = 3) :
    let v := slotFails t sl .timeout 0 (rinc (R.FC_MUTUAL t.toNat) F.FC_MUTUAL_COUNT 1 (progress t s))
    rraw v (R.FC_PROGRESS t.toNat) = 0 ∧ SlotFailed t sl .timeout 0 s v ∧
      rget v (R.FC_MUTUAL t.toNat) F.FC_MUTUAL_COUNT = satAdd F.FC_MUTUAL_COUNT.w (rget s (R.FC_MUTUAL t.toNat) F.FC_MUTUAL_COUNT) 1 := by
  intro v
  have hprogress : R.FC_PROGRESS t.toNat ∉ [R.SLOT_STATE t.toNat sl.toNat, R.FC_FAULT t.toNat] := by
    simp only [R.FC_PROGRESS, R.SLOT_STATE, R.FC_FAULT, List.mem_cons, List.not_mem_nil, or_false]
    omega
  have hmutual : R.FC_MUTUAL t.toNat ∉ [R.SLOT_STATE t.toNat sl.toNat, R.FC_FAULT t.toNat] := by
    simp only [R.FC_MUTUAL, R.SLOT_STATE, R.FC_FAULT, List.mem_cons, List.not_mem_nil, or_false]
    omega
  have hcount : OnlyRegs [R.FC_MUTUAL t.toNat] (progress t s) (rinc (R.FC_MUTUAL t.toNat) F.FC_MUTUAL_COUNT 1 (progress t s)) :=
    onlyRegs_rinc _ _ (by simp) (.refl ..)
  have hopen : slotState (rinc (R.FC_MUTUAL t.toNat) F.FC_MUTUAL_COUNT 1 (progress t s)) t sl = 3 := by
    refine (hcount.rget ?_ _).trans ((slotState_progress sl).trans hsl)
    simp only [R.SLOT_STATE, R.FC_MUTUAL, List.mem_singleton]
    omega
  have hframe := onlyTile_slotFails t sl .timeout 0 (rinc (R.FC_MUTUAL t.toNat) F.FC_MUTUAL_COUNT 1 (progress t s))
  refine ⟨?_, (slotFails_failed .timeout 0 (by rw [hopen]; decide)).from rfl, ?_⟩
  · rw [hframe.regs _ hprogress, hcount.regs _ (by simp [R.FC_PROGRESS, R.FC_MUTUAL]), rraw_progress]
  · rw [hframe.rget hmutual, rget_rinc_same _ _ (by decide), (onlyRegs_progress t s).rget (by simp [R.FC_PROGRESS, R.FC_MUTUAL])]

theorem progress_fFault {st : Status} {va : Nat} {illegal : Bool} :
    rraw (fFault t st va illegal (progress t s)) (R.FC_PROGRESS t.toNat) = 0 := by
  obtain ⟨-, -, hregs⟩ := fFault_faults t st va illegal (progress t s)
  rw [hregs _ (by simp [R.FC_PROGRESS, R.FC_STATUS, R.FC_FAULT]), rraw_progress]
  rintro ⟨k, hk⟩
  unfold R.FC_PROGRESS R.SLOT_STATE at hk
  omega

end

/-! ### The semaphores of a pair -/

/-- Both semaphores of a pair set. -/
def pairSet (t : TileId) (k : PairIdx) (x y : Nat) (s : Machine.State) : Machine.State :=
  semSet t (fullSem k) y (semSet t (emptySem k) x s)

section
variable {t : TileId} {sl : SlotIdx} {s : Machine.State}

theorem fullSem_toNat (k : PairIdx) : (fullSem k).toNat = 2 * k.toNat + 1 := by
  have := k.isLt
  rw [fullSem, BitVec.toNat_ofNat, Nat.mod_eq_of_lt (by omega)]

theorem onlyRegs_pairSet (t : TileId) (k : PairIdx) (x y : Nat) (s : Machine.State) :
    OnlyRegs [R.SEM t.toNat (emptySem k).toNat, R.SEM t.toNat (fullSem k).toNat] s (pairSet t k x y s) :=
  onlyRegs_rset _ _ (by simp) (onlyRegs_rset _ _ (by simp) (.refl ..))

theorem empty_pairSet (k : PairIdx) (x y : Nat) : semVal (pairSet t k x y s) t (emptySem k) = x % 2 ^ 16 := by
  refine ((semSet_value ..).frame.rget ?_ _).trans (semSet_value ..).value
  simp only [R.SEM, emptySem_toNat, fullSem_toNat, List.mem_singleton]
  omega

theorem full_pairSet (k : PairIdx) (x y : Nat) : semVal (pairSet t k x y s) t (fullSem k) = y % 2 ^ 16 := (semSet_value ..).value

theorem sem_ne_slotState (t : TileId) (sl : SlotIdx) (n : SemIdx) : R.SEM t.toNat n.toNat ∉ [R.SLOT_STATE t.toNat sl.toNat] := by
  have := n.isLt
  simp only [R.SEM, R.SLOT_STATE, List.mem_singleton]
  omega

/-- A post of any count, none included. -/
theorem semPost_any (t : TileId) (n : SemIdx) (c : Nat) (s : Machine.State) :
    semVal (semPost t n c s) t n = min (semVal s t n + c) 0xFFFF ∧
    OnlyRegs [R.SEM t.toNat n.toNat, R.FC_PROGRESS t.toNat] s (semPost t n c s) := by
  obtain rfl | hc := eq_or_ne c 0
  · have hlt : semVal s t n < 2 ^ 16 := rget_lt ..
    rw [semPost, if_pos rfl]
    exact ⟨by omega, .refl ..⟩
  · have hpost := semPost_posted t n c s hc
    exact ⟨hpost.value, hpost.frame⟩

/-! ### The end of an abort -/

theorem slotQuiet_iff (s : Machine.State) (t : TileId) (sl : SlotIdx) :
    slotQuiet s t sl = true ↔ ∀ e ∈ (s.tile t).xfers, e.2.slot ≠ sl := by
  simp [slotQuiet]

theorem setSlotState_state {x : Nat} (hx : x < 8) : slotState (setSlotState t sl x s) t sl = x :=
  (rget_rset_same _ _ _ _ (by decide)).trans (Nat.mod_eq_of_lt hx)

theorem onlyTile_setSlotState (t : TileId) (sl : SlotIdx) (x : Nat) (s : Machine.State) :
    OnlyTile t [R.SLOT_STATE t.toNat sl.toNat] s (setSlotState t sl x s) := onlyTile_rset _ _ (by simp) (.refl ..)

/-- Without a credit semaphore, the pair alone is set back. -/
theorem restoreSnap_pair (hacc : (s.slot t sl).acc = true) (hcredit : sFlag (s.slot t sl).sdesc 3 = false) : restoreSnap t sl s =
    pairSet t (sPair (s.slot t sl).sdesc) (rget s (R.SLOT_SNAP t.toNat sl.toNat) F.SLOT_SNAP_EMPTY)
      (rget s (R.SLOT_SNAP t.toNat sl.toNat) F.SLOT_SNAP_FULL) s := by
  simp only [restoreSnap, hacc, hcredit, if_true, Bool.false_eq_true, if_false]
  rfl

theorem exec_streamAbortComplete (hsl : slotState s t sl = 6) (hquiet : ∀ e ∈ (s.tile t).xfers, e.2.slot ≠ sl) :
    exec (.streamAbortComplete t sl) s =
      .next (fWake t (setSlotState t sl slAborted ((restoreSnap t sl s).modSlot t sl fun _ => Slot.reset))) :=
  congrArg _ (if_pos ⟨hsl, (slotQuiet_iff ..).mpr hquiet⟩)

theorem exec_streamAbortComplete_busy (h : ∃ e ∈ (s.tile t).xfers, e.2.slot = sl) :
    exec (.streamAbortComplete t sl) s = .next s := by
  refine congrArg _ (if_neg fun hquiet => ?_)
  obtain ⟨e, he, hslot⟩ := h
  exact (slotQuiet_iff ..).mp hquiet.2 e he hslot

theorem abortEnds (hacc : (s.slot t sl).acc = true) (hcredit : sFlag (s.slot t sl).sdesc 3 = false) :
    let d := (s.slot t sl).sdesc
    let v := setSlotState t sl slAborted ((restoreSnap t sl s).modSlot t sl fun _ => Slot.reset)
    slotState v t sl = 7 ∧ v.slot t sl = Slot.reset ∧
      semVal v t (emptySem (sPair d)) = rget s (R.SLOT_SNAP t.toNat sl.toNat) F.SLOT_SNAP_EMPTY ∧
      semVal v t (fullSem (sPair d)) = rget s (R.SLOT_SNAP t.toNat sl.toNat) F.SLOT_SNAP_FULL ∧
      OnlyTile t [R.SLOT_STATE t.toNat sl.toNat, R.SEM t.toNat (emptySem (sPair d)).toNat,
        R.SEM t.toNat (fullSem (sPair d)).toNat] s v := by
  rw [restoreSnap_pair hacc hcredit]
  intro d v
  have hstate := onlyTile_setSlotState t sl slAborted ((pairSet t (sPair d) (rget s (R.SLOT_SNAP t.toNat sl.toNat) F.SLOT_SNAP_EMPTY)
    (rget s (R.SLOT_SNAP t.toNat sl.toNat) F.SLOT_SNAP_FULL) s).modSlot t sl fun _ => Slot.reset)
  refine ⟨setSlotState_state (by decide), ?_, ?_, ?_, ?_⟩
  · exact (slot_setSlotState ..).trans (slot_modSlot _)
  · exact (hstate.rget (sem_ne_slotState t sl _) _).trans ((semVal_modSlot ..).trans ((empty_pairSet ..).trans (Nat.mod_eq_of_lt (rget_lt ..))))
  · exact (hstate.rget (sem_ne_slotState t sl _) _).trans ((semVal_modSlot ..).trans ((full_pairSet ..).trans (Nat.mod_eq_of_lt (rget_lt ..))))
  · exact (onlyTile_modSlot _ (((onlyRegs_pairSet ..).onlyTile t).mono (by simp))).trans (hstate.mono (by simp))

/-! ### The end of a cancel -/

theorem slotAfterCancel_eq (t : TileId) (sl : SlotIdx) (s : Machine.State) : slotAfterCancel t sl s =
    setSlotState t sl (if slotPosted s t sl = slotLenBufs s t sl then 0 else if slotLenBufs s t sl ≤ (s.slot t sl).buf then 4 else 2) s := by
  rw [slotAfterCancel]
  split
  · rfl
  · split <;> rfl

/-- The semaphore that a stream acquires its buffers on: FULL for a STORE or SCATTER, else EMPTY. -/
def bufferSem (d : DWord) : SemIdx := if isOutKind (sKind d) then fullSem (sPair d) else emptySem (sPair d)

/-- The credits given back. -/
def creditsPosted (t : TileId) (sl : SlotIdx) (s : Machine.State) : Machine.State :=
  semPost t (bufferSem (s.slot t sl).sdesc) (s.slot t sl).credits (s.modSlot t sl fun q => { q with credits := 0 })

theorem exec_cancelComplete (hsl : slotState s t sl = 5) (hending : (s.slot t sl).ending = false)
    (h : ∀ e ∈ (s.tile t).xfers, e.2.slot = sl → e.2.buf < slotLenBufs s t sl) :
    exec (.cancelComplete t sl) s = .next (fWake t (slotAfterCancel t sl (creditsPosted t sl s))) := by
  have hnone : (!(s.tile t).xfers.any fun e => e.2.slot == sl && decide (slotLenBufs s t sl ≤ e.2.buf)) = true := by
    simpa using h
  rw [exec, execCancelComplete, hending, hnone, hsl, if_neg (by simp), if_pos ⟨rfl, rfl⟩]
  rfl

/-- A cancel waits for the transfers past its length. -/
theorem exec_cancelComplete_past (h : ∃ e ∈ (s.tile t).xfers, e.2.slot = sl ∧ slotLenBufs s t sl ≤ e.2.buf) :
    exec (.cancelComplete t sl) s = .next s := by
  obtain ⟨e, he, hslot, hbuf⟩ := h
  have hany : ((s.tile t).xfers.any fun e => e.2.slot == sl && decide (slotLenBufs s t sl ≤ e.2.buf)) = true :=
    List.any_eq_true.mpr ⟨e, he, by simp [hslot, hbuf]⟩
  have hbusy : slotQuiet s t sl = false := Bool.eq_false_iff.mpr fun hq => (slotQuiet_iff ..).mp hq e he hslot
  rw [exec, execCancelComplete, hany, hbusy]
  simp

/-- An index stream that ends waits for all its transfers. -/
theorem exec_cancelComplete_ending (hsl : slotState s t sl = 5) (hending : (s.slot t sl).ending = true)
    (h : ∃ e ∈ (s.tile t).xfers, e.2.slot = sl) : exec (.cancelComplete t sl) s = .next s := by
  obtain ⟨e, he, hslot⟩ := h
  have hbusy : slotQuiet s t sl = false := Bool.eq_false_iff.mpr fun hq => (slotQuiet_iff ..).mp hq e he hslot
  rw [exec, execCancelComplete, if_pos ⟨hsl, hending⟩, hbusy, if_neg Bool.false_ne_true]

theorem cancelEnds (t : TileId) (sl : SlotIdx) (s : Machine.State) :
    let n := bufferSem (s.slot t sl).sdesc
    let v := slotAfterCancel t sl (creditsPosted t sl s)
    (v.slot t sl).credits = 0 ∧
      slotState v t sl = (if slotPosted s t sl = slotLenBufs s t sl then 0 else if slotLenBufs s t sl ≤ (s.slot t sl).buf then 4 else 2) ∧
      semVal v t n = min (semVal s t n + (s.slot t sl).credits) 0xFFFF ∧
      OnlyTile t [R.SLOT_STATE t.toNat sl.toNat, R.SEM t.toNat n.toNat, R.FC_PROGRESS t.toNat] s v := by
  intro n v
  obtain ⟨hval, hpost⟩ := semPost_any t n (s.slot t sl).credits (s.modSlot t sl fun q => { q with credits := 0 })
  have hslot : (creditsPosted t sl s).slot t sl = { s.slot t sl with credits := 0 } :=
    (hpost.slot t sl).trans (slot_modSlot _)
  have hposted : slotPosted (creditsPosted t sl s) t sl = slotPosted s t sl := by
    refine hpost.rget ?_ _
    have := n.isLt
    simp only [R.SLOT_POSTED, R.SEM, R.FC_PROGRESS, List.mem_cons, List.not_mem_nil, or_false]
    omega
  have hlen : slotLenBufs (creditsPosted t sl s) t sl = slotLenBufs s t sl := by
    refine hpost.rget ?_ _
    have := n.isLt
    simp only [R.SLOT_LENGTH, R.SEM, R.FC_PROGRESS, List.mem_cons, List.not_mem_nil, or_false]
    omega
  have hv : v = setSlotState t sl (if slotPosted s t sl = slotLenBufs s t sl then 0
      else if slotLenBufs s t sl ≤ (s.slot t sl).buf then 4 else 2) (creditsPosted t sl s) := by
    rw [← hposted, ← hlen]
    exact (slotAfterCancel_eq ..).trans (by rw [hslot])
  rw [hv]
  refine ⟨?_, setSlotState_state (by split_ifs <;> decide), ?_, ?_⟩
  · rw [slot_setSlotState, hslot]
  · exact ((onlyTile_setSlotState ..).rget (sem_ne_slotState t sl _) _).trans hval
  · exact ((onlyTile_modSlot _ (.refl ..)).trans ((hpost.onlyTile t).mono (by simp))).trans ((onlyTile_setSlotState ..).mono (by simp))

end

/-- Settles O37: the timeout ends the youngest BLOCKED slot or the program that waits, an abort sets its pair back, and a cancel
gives its credits back. -/
theorem streamsEnd : Obligations.StreamsEnd := by
  unfold Obligations.StreamsEnd
  rintro t sl s d rfl
  refine ⟨exec_progressTimeout_early, fun hlimit => ⟨fun hk hf => ⟨_, ?_, rraw_progress t s, onlyRegs_progress t s⟩, fun hk hf => ?_,
      fun hsl hk => ⟨_, exec_progressTimeout_slot hlimit hsl hk, slotTimesOut hsl⟩⟩,
    fun hsl hquiet hacc hcredit => ⟨_, exec_streamAbortComplete hsl hquiet, abortEnds hacc hcredit⟩,
    fun _ hbusy => exec_streamAbortComplete_busy hbusy,
    fun hsl hending h => ⟨_, exec_cancelComplete hsl hending h, cancelEnds t sl s⟩,
    fun _ hpast => exec_cancelComplete_past hpast, exec_cancelComplete_ending⟩
  · rw [exec_progressTimeout_program hlimit hk, if_neg hf]
  · obtain ⟨hstate, hfaults, -⟩ := fFault_faults t .timeout 0 false (progress t s)
    exact ⟨_, by rw [exec_progressTimeout_program hlimit hk, if_pos hf], progress_fFault, hstate, hfaults⟩

end Sys2Proof
end

section
/-! STREAM_ACCEPT: a slot accepts or refuses its descriptor (R163, R164). -/

namespace Sys2Proof

open Sys2Proof.Machine

section
variable {t : TileId} {sl : SlotIdx} {s u v : Machine.State} {d tw : DWord}

/-- Both descriptors are read, and then judged. -/
theorem exec_streamAccept {env : EngEnv} {s1 s2 : Machine.State} (hopen : slotState s t sl = slOpening)
    (hd : engRead64 t unitF env (rget s (R.SLOT_DESC_VA t.toNat sl.toNat) F.SLOT_DESC_VA_VA) s = (.ok d, s1))
    (halign : sTdVa d % 64 = 0) (hva : sTdVa d < 2 ^ 48) (htw : engRead64 t unitF env (sTdVa d) s1 = (.ok tw, s2)) :
    exec (.streamAccept t sl env) s =
      .next (fWake t (if sdRefused s2 t sl d (tdOf tw) then slotRefuse t sl s2 else slotAccept t sl d tw s2)) := by
  have hgood : ¬ (sTdVa d % 64 ≠ 0 ∨ 2 ^ 48 ≤ sTdVa d) := by omega
  rw [exec, execStreamAccept, if_pos hopen, hd]
  dsimp only
  rw [if_neg hgood, htw, apply_ite (fWake t)]

/-! ### Refusal -/

theorem slotRefuse_refused (t : TileId) (sl : SlotIdx) (s : Machine.State) : slotState (slotRefuse t sl s) t sl = 7 ∧
    rget (slotRefuse t sl s) (R.SLOT_STATE t.toNat sl.toNat) F.SLOT_STATE_STATUS = Status.aborted.code ∧
    ((slotRefuse t sl s).tile t).x.faults = (s.tile t).x.faults ++ [⟨3, .aborted, 0, 0⟩] := by
  have hreport := onlyTile_streamReport t sl .aborted 0
    (rput (R.SLOT_STATE t.toNat sl.toNat) (slAborted + Status.aborted.code <<< 4) s)
  have hne := slotState_ne_fcFault t sl
  refine ⟨(hreport.rget hne _).trans (rget_rput_same _ _ _ _ (by decide)),
    (hreport.rget hne _).trans (rget_rput_same _ _ _ _ (by decide)), ?_⟩
  rw [slotRefuse, tile_streamReport, tile_rput]

/-! ### Registers above the semaphores -/

/-- A change of registers above the semaphores keeps their values. -/
theorem semVal_above {offs : List Nat} (h : OnlyTile t offs u v) (hoffs : ∀ o ∈ offs, 0x8000200 + 0x10000 * t.toNat ≤ o) (n : SemIdx) :
    semVal v t n = semVal u t n := by
  refine h.rget (fun hm => ?_) _
  have := hoffs _ hm
  have := n.isLt
  unfold R.SEM at *
  omega

/-- A pair that is set leaves the registers above the semaphores. -/
theorem rget_pairSet {o : Nat} (ho : 0x8000200 + 0x10000 * t.toNat ≤ o) (k : PairIdx) (x y : Nat) (f : Fld) :
    rget (pairSet t k x y s) o f = rget s o f := by
  have := k.isLt
  refine (onlyRegs_pairSet ..).rget ?_ f
  simp only [R.SEM, emptySem_toNat, fullSem_toNat, List.mem_cons, List.not_mem_nil, or_false]
  omega

/-! ### The counts of a new stream -/

theorem onlyRegs_slotZero (t : TileId) (sl : SlotIdx) (s : Machine.State) :
    OnlyRegs [R.SLOT_POSTED t.toNat sl.toNat, R.SLOT_COMMITTED t.toNat sl.toNat, R.SLOT_LANDED t.toNat sl.toNat] s
      (slotZero t sl s) :=
  onlyRegs_rput _ (by simp) (onlyRegs_rput _ (by simp) (onlyRegs_rput _ (by simp) (.refl ..)))

theorem slotZero_counts (t : TileId) (sl : SlotIdx) (s : Machine.State) :
    slotPosted (slotZero t sl s) t sl = 0 ∧ slotCommitted (slotZero t sl s) t sl = 0 ∧
    rget (slotZero t sl s) (R.SLOT_LANDED t.toNat sl.toNat) F.SLOT_LANDED_BUFS = 0 := by
  refine ⟨rget_rput_same _ _ _ _ (by decide), ?_, ?_⟩
  · rw [slotCommitted, slotZero, rget_rput_other _ _ _ (by simp [R.SLOT_COMMITTED, R.SLOT_POSTED]), rget_rput_same _ _ _ _ (by decide)]
    rfl
  · rw [slotZero, rget_rput_other _ _ _ (by simp [R.SLOT_LANDED, R.SLOT_POSTED]),
      rget_rput_other _ _ _ (by simp [R.SLOT_LANDED, R.SLOT_COMMITTED]), rget_rput_same _ _ _ _ (by decide)]
    rfl

/-! ### The pair of a new stream -/

/-- No other open stream names the pair of the descriptor. -/
def PairOwn (s : Machine.State) (t : TileId) (sl : SlotIdx) (d : DWord) : Prop :=
  ∀ k, k ≠ sl → (s.slot t k).acc = true → sPair (s.slot t k).sdesc = sPair d → slotState s t k = 0 ∨ slotState s t k = 7

theorem pairShared_own (h : PairOwn s t sl d) : pairShared s t sl (sPair d) = false := by
  rw [pairShared, List.any_eq_false]
  intro k _ hk
  simp only [Bool.and_eq_true, bne_iff_ne, Bool.not_eq_true', beq_iff_eq] at hk
  obtain ⟨⟨⟨hne, hopen⟩, hacc⟩, hpair⟩ := hk
  exact Bool.eq_false_iff.mp hopen ((slotFree_iff ..).mpr (h k hne hacc hpair))

theorem PairOwn.congr (h : PairOwn s t sl d) (htile : v.tile t = s.tile t) (hstate : ∀ k, slotState v t k = slotState s t k) :
    PairOwn v t sl d := by
  intro k
  rw [slot_congr (u := s) (by rw [htile]), hstate]
  exact h k

/-- The pair of a stream that owns it: a ring of free buffers. -/
theorem setPair_own (hown : PairOwn s t sl d) (hexpert : fcExpert s t = false) :
    setPair t sl d s = pairSet t (sPair d) (sDepth d) 0 s := by
  rw [setPair, pairShared_own hown, hexpert]
  rfl

theorem setPair_slotZero (hown : PairOwn s t sl d) (hexpert : fcExpert s t = false) :
    setPair t sl d (slotZero t sl s) = pairSet t (sPair d) (sDepth d) 0 (slotZero t sl s) := by
  have hzero := onlyRegs_slotZero t sl s
  refine setPair_own (hown.congr (hzero.tile t) fun k => hzero.rget ?_ _) (hexpert ▸ ?_)
  · simp only [R.SLOT_STATE, R.SLOT_POSTED, R.SLOT_COMMITTED, R.SLOT_LANDED, List.mem_cons, List.not_mem_nil, or_false]
    omega
  · rw [fcExpert, fcExpert, rbit, rbit, hzero.rget]
    simp only [R.FC_CTL, R.SLOT_POSTED, R.SLOT_COMMITTED, R.SLOT_LANDED, List.mem_cons, List.not_mem_nil, or_false]
    omega

/-! ### The start of a new stream -/

/-- The snapshot of a stream's semaphores. -/
def snapTaken (t : TileId) (sl : SlotIdx) (d : DWord) (s : Machine.State) : Machine.State :=
  let u := rput (R.SLOT_SNAP t.toNat sl.toNat) (semVal s t (emptySem (sPair d)) + semVal s t (fullSem (sPair d)) <<< 16) s
  rput (R.SLOT_SNAP2 t.toNat sl.toNat) (if sFlag d 3 then semVal u t (sCredit d) else 0) u

/-- The stream's number taken, and its length in buffers set. -/
def numbered (t : TileId) (sl : SlotIdx) (n : Nat) (s : Machine.State) : Machine.State :=
  rput (R.SLOT_LENGTH t.toNat sl.toNat) n (rwrap (R.FC_SEQ t.toNat) F.FC_SEQ_NEXT 1
    (rput (R.SLOT_SEQ t.toNat sl.toNat) (rget s (R.FC_SEQ t.toNat) F.FC_SEQ_NEXT) s))

/-- The stream RUNNING with what its slot holds. -/
def slotStarted (t : TileId) (sl : SlotIdx) (d : DWord) (q : Slot) (ahead : Bool) (s : Machine.State) : Machine.State :=
  rput (R.SLOT_STATE t.toNat sl.toNat) (slRunning + b2n ahead <<< 3)
    ((numbered t sl (ceilDiv q.len (sRpb d)) (snapTaken t sl d s)).modSlot t sl fun _ => q)

/-- What a slot holds of the stream that it accepts. -/
def acceptedSlot (s : Machine.State) (t : TileId) (d tw : DWord) : Slot :=
  { Slot.reset with
    acc := true, sdesc := d, tdesc := tw, len := if sLen d = 0 then defaultLen s t d (tdOf tw) else sLen d
    idxS := if isIdxKind (sKind d) then (s.slot t (sSrc d)).sdesc else 0
    idxT := if isIdxKind (sKind d) then (s.slot t (sSrc d)).tdesc else 0
    idxLen := if isIdxKind (sKind d) then (s.slot t (sSrc d)).len else 0 }

theorem slotAccept_eq (hown : PairOwn s t sl d) (hexpert : fcExpert s t = false) : slotAccept t sl d tw s =
    slotStarted t sl d (acceptedSlot s t d tw) false (pairSet t (sPair d) (sDepth d) 0 (slotZero t sl s)) := by
  rw [slotAccept, hexpert, setPair_slotZero hown hexpert]
  rfl

theorem onlyTile_snapTaken (t : TileId) (sl : SlotIdx) (d : DWord) (s : Machine.State) :
    OnlyTile t [R.SLOT_SNAP t.toNat sl.toNat, R.SLOT_SNAP2 t.toNat sl.toNat] s (snapTaken t sl d s) :=
  onlyTile_rput _ (by simp) (onlyTile_rput _ (by simp) (.refl ..))

/-- The registers that the start of a stream writes. -/
def startRegs (t : TileId) (sl : SlotIdx) : List Nat :=
  [R.SLOT_SNAP t.toNat sl.toNat, R.SLOT_SNAP2 t.toNat sl.toNat, R.SLOT_SEQ t.toNat sl.toNat, R.FC_SEQ t.toNat,
    R.SLOT_LENGTH t.toNat sl.toNat, R.SLOT_STATE t.toNat sl.toNat]

theorem startRegs_above : ∀ o ∈ startRegs t sl, 0x8000200 + 0x10000 * t.toNat ≤ o := by
  simp only [startRegs, R.SLOT_SNAP, R.SLOT_SNAP2, R.SLOT_SEQ, R.FC_SEQ, R.SLOT_LENGTH, R.SLOT_STATE, List.mem_cons,
    List.not_mem_nil, or_false]
  omega

theorem onlyTile_slotStarted (q : Slot) (ahead : Bool) : OnlyTile t (startRegs t sl) s (slotStarted t sl d q ahead s) :=
  onlyTile_rput _ (by simp [startRegs]) (onlyTile_modSlot _ (onlyTile_rput _ (by simp [startRegs])
    (onlyTile_rset _ _ (by simp [startRegs]) (onlyTile_rput _ (by simp [startRegs]) ((onlyTile_snapTaken ..).mono (by simp [startRegs]))))))

theorem rget_numbered (n : Nat) : rget (numbered t sl n s) (R.SLOT_LENGTH t.toNat sl.toNat) F.SLOT_LENGTH_BUFS = n % 2 ^ 32 ∧
    rget (numbered t sl n s) (R.SLOT_SEQ t.toNat sl.toNat) F.SLOT_SEQ_SEQ = rget s (R.FC_SEQ t.toNat) F.FC_SEQ_NEXT ∧
    rget (numbered t sl n s) (R.FC_SEQ t.toNat) F.FC_SEQ_NEXT = (rget s (R.FC_SEQ t.toNat) F.FC_SEQ_NEXT + 1) % 2 ^ 32 := by
  have hseq : R.FC_SEQ t.toNat ≠ R.SLOT_SEQ t.toNat sl.toNat := by
    unfold R.FC_SEQ R.SLOT_SEQ
    omega
  have hlen : R.FC_SEQ t.toNat ≠ R.SLOT_LENGTH t.toNat sl.toNat := by
    unfold R.FC_SEQ R.SLOT_LENGTH
    omega
  refine ⟨rget_rput_same _ _ _ _ (by decide), ?_, ?_⟩
  · rw [numbered, rget_rput_other _ _ _ (by simp [R.SLOT_SEQ, R.SLOT_LENGTH]), rwrap, rget_rset_other _ _ _ _ hseq.symm,
      rget_rput_same _ _ _ _ (by decide)]
    exact Nat.mod_eq_of_lt (rget_lt ..)
  · rw [numbered, rget_rput_other _ _ _ hlen, rwrap, rget_rset_same _ _ _ _ (by decide), rget_rput_other _ _ _ hseq]
    rfl

/-- A stream that starts without run-ahead. -/
theorem slotStarted_runs (q : Slot) :
    let w := slotStarted t sl d q false s
    slotState w t sl = 2 ∧ runsAhead w t sl = false ∧ w.slot t sl = q ∧ slotLenBufs w t sl = (q.len + sRpb d - 1) / sRpb d % 2 ^ 32 ∧
      rget w (R.SLOT_SEQ t.toNat sl.toNat) F.SLOT_SEQ_SEQ = rget s (R.FC_SEQ t.toNat) F.FC_SEQ_NEXT ∧
      rget w (R.FC_SEQ t.toNat) F.FC_SEQ_NEXT = (rget s (R.FC_SEQ t.toNat) F.FC_SEQ_NEXT + 1) % 2 ^ 32 := by
  intro w
  obtain ⟨hlen, hseq, hnext⟩ := rget_numbered (t := t) (sl := sl) (s := snapTaken t sl d s) (ceilDiv q.len (sRpb d))
  have hkept : rget (snapTaken t sl d s) (R.FC_SEQ t.toNat) F.FC_SEQ_NEXT = rget s (R.FC_SEQ t.toNat) F.FC_SEQ_NEXT := by
    refine (onlyTile_snapTaken ..).rget ?_ _
    simp only [R.FC_SEQ, R.SLOT_SNAP, R.SLOT_SNAP2, List.mem_cons, List.not_mem_nil, or_false]
    omega
  have hfc : R.FC_SEQ t.toNat ≠ R.SLOT_STATE t.toNat sl.toNat := by
    unfold R.FC_SEQ R.SLOT_STATE
    omega
  have hother : ∀ {o : Nat} (f : Fld), o ≠ R.SLOT_STATE t.toNat sl.toNat →
      rget w o f = rget (numbered t sl (ceilDiv q.len (sRpb d)) (snapTaken t sl d s)) o f := fun f ho =>
    (rget_rput_other f _ _ ho).trans (rget_congr (rraw_modSlot ..) f)
  have hstate : ∀ f : Fld, f.lo + f.w ≤ 64 → rget w (R.SLOT_STATE t.toNat sl.toNat) f = bits 2 f.lo f.w := fun f hf =>
    rget_rput_same _ f _ _ hf
  refine ⟨(hstate _ (by decide)).trans (by decide), ?_, ?_, (hother _ (by simp [R.SLOT_LENGTH, R.SLOT_STATE])).trans hlen,
    (hother _ (by simp [R.SLOT_SEQ, R.SLOT_STATE])).trans (hseq.trans hkept), (hother _ hfc).trans (hnext.trans (by rw [hkept]))⟩
  · rw [runsAhead, rbit, hstate _ (by decide)]
    decide
  · exact (slot_rput ..).trans (slot_modSlot _)

/-! ### Acceptance -/

/-- A stream accepted at the ordinary level, with a pair of its own. -/
theorem slotAccept_accepted (hown : PairOwn s t sl d) (hexpert : fcExpert s t = false) :
    let w := slotAccept t sl d tw s
    let len := if sLen d = 0 then defaultLen s t d (tdOf tw) else sLen d
    slotState w t sl = 2 ∧ runsAhead w t sl = false ∧ w.slot t sl = acceptedSlot s t d tw ∧
      slotLenBufs w t sl = (len + sRpb d - 1) / sRpb d % 2 ^ 32 ∧ slotPosted w t sl = 0 ∧ slotCommitted w t sl = 0 ∧
      rget w (R.SLOT_LANDED t.toNat sl.toNat) F.SLOT_LANDED_BUFS = 0 ∧ semVal w t (emptySem (sPair d)) = sDepth d ∧
      semVal w t (fullSem (sPair d)) = 0 ∧
      rget w (R.SLOT_SEQ t.toNat sl.toNat) F.SLOT_SEQ_SEQ = rget s (R.FC_SEQ t.toNat) F.FC_SEQ_NEXT ∧
      rget w (R.FC_SEQ t.toNat) F.FC_SEQ_NEXT = (rget s (R.FC_SEQ t.toNat) F.FC_SEQ_NEXT + 1) % 2 ^ 32 ∧
      ∀ a, rdByte w a = rdByte s a := by
  intro w len
  have hw : w = slotStarted t sl d (acceptedSlot s t d tw) false (pairSet t (sPair d) (sDepth d) 0 (slotZero t sl s)) :=
    slotAccept_eq hown hexpert
  obtain ⟨hstate, hahead, hslot, hlen, hseq, hnext⟩ := slotStarted_runs (t := t) (sl := sl) (d := d)
    (s := pairSet t (sPair d) (sDepth d) 0 (slotZero t sl s)) (acceptedSlot s t d tw)
  obtain ⟨hposted, hcommitted, hlanded⟩ := slotZero_counts t sl s
  have hstarted := onlyTile_slotStarted (t := t) (sl := sl) (d := d) (s := pairSet t (sPair d) (sDepth d) 0 (slotZero t sl s))
    (acceptedSlot s t d tw) false
  have hnumber : rget (pairSet t (sPair d) (sDepth d) 0 (slotZero t sl s)) (R.FC_SEQ t.toNat) F.FC_SEQ_NEXT =
      rget s (R.FC_SEQ t.toNat) F.FC_SEQ_NEXT := by
    rw [rget_pairSet (by unfold R.FC_SEQ; omega), (onlyRegs_slotZero ..).rget]
    simp only [R.FC_SEQ, R.SLOT_POSTED, R.SLOT_COMMITTED, R.SLOT_LANDED, List.mem_cons, List.not_mem_nil, or_false]
    omega
  have hdepth : sDepth d % 2 ^ 16 = sDepth d := Nat.mod_eq_of_lt (bits_lt ..)
  rw [← hw] at hstate hahead hslot hlen hseq hnext hstarted
  refine ⟨hstate, hahead, hslot, hlen, (hstarted.rget ?_ _).trans ((rget_pairSet ?_ ..).trans hposted),
    (hstarted.rget ?_ _).trans ((rget_pairSet ?_ ..).trans hcommitted), (hstarted.rget ?_ _).trans ((rget_pairSet ?_ ..).trans hlanded),
    (semVal_above hstarted startRegs_above _).trans ((empty_pairSet ..).trans hdepth),
    (semVal_above hstarted startRegs_above _).trans (full_pairSet ..), hseq.trans hnumber, hnext.trans (by rw [hnumber]), fun a => ?_⟩
  · simp [startRegs, R.SLOT_POSTED, R.SLOT_SNAP, R.SLOT_SNAP2, R.SLOT_SEQ, R.FC_SEQ, R.SLOT_LENGTH, R.SLOT_STATE]
    omega
  · unfold R.SLOT_POSTED
    omega
  · simp [startRegs, R.SLOT_COMMITTED, R.SLOT_SNAP, R.SLOT_SNAP2, R.SLOT_SEQ, R.FC_SEQ, R.SLOT_LENGTH, R.SLOT_STATE]
    omega
  · unfold R.SLOT_COMMITTED
    omega
  · simp [startRegs, R.SLOT_LANDED, R.SLOT_SNAP, R.SLOT_SNAP2, R.SLOT_SEQ, R.FC_SEQ, R.SLOT_LENGTH, R.SLOT_STATE]
    omega
  · unfold R.SLOT_LANDED
    omega
  · rw [hstarted.rdByte, ((onlyRegs_pairSet ..).onlyTile t).rdByte, ((onlyRegs_slotZero ..).onlyTile t).rdByte]

theorem isIdxKind_iff (k : Nat) : isIdxKind k = true ↔ k = 2 ∨ k = 4 := by simp [isIdxKind]

end

theorem streamsOpen_claim : Claims.StreamsOpen := by
  rintro t sl env s s1 s2 d tw len hopen hd halign hva htw rfl
  have hexec := exec_streamAccept hopen hd halign hva htw
  refine ⟨fun hgood hexpert hown => ⟨slotAccept t sl d tw s2, ?_, ?_⟩, fun hbad => ⟨slotRefuse t sl s2, ?_, slotRefuse_refused t sl s2⟩⟩
  · rw [hexec, hgood, if_neg Bool.false_ne_true]
  · have haccepted := slotAccept_accepted (tw := tw) hown hexpert
    simp only [acceptedSlot, isIdxKind_iff] at haccepted
    exact haccepted
  · rw [hexec, hbad, if_pos rfl]

end Sys2Proof
end

section
/-! A slot's acquires, and the replies and timeouts of its transfers (R167 to R170, R174). -/

namespace Sys2Proof

open Sys2Proof.Machine

/-! ### The acquire of a buffer -/

section
variable {t : TileId} {sl : SlotIdx} {n : SemIdx} {s : Machine.State}

theorem slotStep_acquires (h : Delivering s t sl) (hstage : (s.slot t sl).stage = 0) :
    slotStep t sl s = slotAcquire t sl (bufferSem (s.slot t sl).sdesc) false s := by
  obtain ⟨hrun, hbuf, hahead⟩ := h
  have hgoes : ¬ slotState s t sl ≠ slRunning := not_not.mpr hrun
  rw [slotStep]
  dsimp only
  rw [if_neg hgoes, if_neg (Nat.not_le.mpr hbuf), if_pos hstage, hahead, Bool.false_and, if_neg Bool.false_ne_true]
  rfl

/-- A buffer counted as committed where its stream writes out (R172). -/
def committedOut (t : TileId) (sl : SlotIdx) (out : Bool) (s : Machine.State) : Machine.State :=
  if out then rwrap (R.SLOT_COMMITTED t.toNat sl.toNat) F.SLOT_COMMITTED_BUFS 1 s else s

theorem slotCommitted_committedOut (out : Bool) : slotCommitted (committedOut t sl out s) t sl =
    if out then (slotCommitted s t sl + 1) % 2 ^ 32 else slotCommitted s t sl := by
  cases out with
  | false => rfl
  | true => exact rget_rset_same _ _ _ _ (by decide)

theorem onlyRegs_committedOut (out : Bool) :
    OnlyRegs [R.SLOT_COMMITTED t.toNat sl.toNat] s (committedOut t sl out s) := by
  cases out with
  | false => exact .refl ..
  | true => exact onlyRegs_rset _ _ (by simp) (.refl ..)

theorem slotAcquire_granted (hstage : (s.slot t sl).stage = 0) (h : semWaiters s t n = [] ∧ 1 ≤ semVal s t n) :
    slotAcquire t sl n false s =
      (committedOut t sl (isOutKind (sKind (s.slot t sl).sdesc)) (semSet t n (semVal s t n - 1) s)).modSlot t sl
        fun q => { q with stage := q.stage + 1 } := by
  have hslot : (semSet t n (semVal s t n - 1) s).slot t sl = s.slot t sl := rfl
  rw [slotAcquire, acquire_granted Nat.one_ne_zero h]
  dsimp only
  rw [if_pos rfl, hslot, hstage]
  rfl

/-- A granted acquire takes one, and the slot is at its next stage. -/
theorem slotAcquire_takes (hstage : (s.slot t sl).stage = 0) (h : semWaiters s t n = [] ∧ 1 ≤ semVal s t n) :
    let v := slotAcquire t sl n false s
    let out := isOutKind (sKind (s.slot t sl).sdesc)
    semVal v t n = semVal s t n - 1 ∧ v.slot t sl = { s.slot t sl with stage := 1 } ∧
      slotCommitted v t sl = (if out then (slotCommitted s t sl + 1) % 2 ^ 32 else slotCommitted s t sl) ∧
      OnlyTile t [R.SEM t.toNat n.toNat, R.SLOT_COMMITTED t.toNat sl.toNat] s v := by
  intro v out
  have hn := n.isLt
  have hset := semSet_value t n (semVal s t n - 1) s
  have hcommit := onlyRegs_committedOut (t := t) (sl := sl) (s := semSet t n (semVal s t n - 1) s) out
  have hv : v = (committedOut t sl out (semSet t n (semVal s t n - 1) s)).modSlot t sl fun q => { q with stage := q.stage + 1 } :=
    slotAcquire_granted hstage h
  have hlt : semVal s t n < 2 ^ 16 := rget_lt ..
  have hsem : R.SEM t.toNat n.toNat ∉ [R.SLOT_COMMITTED t.toNat sl.toNat] := by
    simp only [R.SEM, R.SLOT_COMMITTED, List.mem_singleton]
    omega
  have hcommitted : R.SLOT_COMMITTED t.toNat sl.toNat ∉ [R.SEM t.toNat n.toNat] := by
    simp only [R.SEM, R.SLOT_COMMITTED, List.mem_singleton]
    omega
  rw [hv]
  refine ⟨(hcommit.rget hsem _).trans (hset.value.trans (Nat.mod_eq_of_lt (by omega))), ?_, ?_,
    onlyTile_modSlot _ (((hset.frame.onlyTile t).mono (by simp)).trans ((hcommit.onlyTile t).mono (by simp)))⟩
  · rw [slot_modSlot, slot_congr (u := s) (by rw [hcommit.tile, hset.frame.tile]), hstage]
  · have hkept : slotCommitted (semSet t n (semVal s t n - 1) s) t sl = slotCommitted s t sl := hset.frame.rget hcommitted _
    exact (slotCommitted_committedOut out).trans (by rw [hkept])

/-- An acquire that is not granted leaves the slot BLOCKED behind the others. -/
theorem slotAcquire_blocks (h : ¬ (semWaiters s t n = [] ∧ 1 ≤ semVal s t n)) :
    let v := slotAcquire t sl n false s
    slotState v t sl = 3 ∧ semWaiters v t n = semWaiters s t n ++ [⟨.slot sl, 1⟩] ∧
      v.slot t sl = { s.slot t sl with waiting := some n, wantIdx := false } ∧ OnlyTile t [R.SLOT_STATE t.toNat sl.toNat] s v := by
  intro v
  have hv : v = setSlotState t sl slBlocked
      ((linkWaiting t n (.slot sl) s).modSlot t sl fun q => { q with waiting := some n, wantIdx := false }) := by
    show slotAcquire t sl n false s = _
    rw [slotAcquire, acquire_link h]
    rfl
  have htile : v.tile t = ((linkWaiting t n (.slot sl) s).modSlot t sl fun q => { q with waiting := some n, wantIdx := false }).tile t := by
    rw [hv, setSlotState, tile_rset]
  refine ⟨hv ▸ setSlotState_state (by decide), ?_, ?_, ?_⟩
  · rw [semWaiters_congr (v := linkWaiting t n (.slot sl) s) (by rw [htile, tile_modSlot]), semWaiters_linkWaiting]
  · rw [hv, slot_setSlotState, slot_modSlot, slot_congr (u := s) (by rw [tile_linkWaiting])]
  · rw [hv]
    exact (onlyTile_modSlot _ ((onlyTile_linkWaiting (.refl ..)).mono (by simp))).trans (onlyTile_setSlotState ..)

theorem exec_streamTransferIssue (h : Delivering s t sl) (hstage : (s.slot t sl).stage = 0) :
    exec (.streamTransferIssue t sl) s = .next (fWake t (slotAcquire t sl (bufferSem (s.slot t sl).sdesc) false s)) := by
  rw [exec, execStreamTransferIssue, slotStep_acquires h hstage]

end

/-! ### Ring bytes that land -/

/-- A write of bytes that are as written. -/
theorem memWrite_clean {cells : List (Nat × Byte)} {s : Machine.State} (h : ∀ e ∈ cells, Clean s e.1) :
    ∃ w, memWrite cells s = (.ok, w) ∧ OnlyMem s w ∧
      ∀ a, rdByte w a = cells.foldl (fun b c => if a = c.1 then c.2 else b) (rdByte s a) := by
  have hclean : ∀ a ∈ cells.map (·.1), Clean s a := List.forall_mem_map.mpr h
  have hecc := codewords_good hclean
  have hpart : ∀ c ∈ (codewords (cells.map (·.1))).filter (fun c => !fillsCodeword c cells), eccAt s c = .good :=
    fun c hc => hecc c (List.mem_of_mem_filter hc)
  obtain ⟨hok, honly, hbyte⟩ := writeCodewords_good (cells := cells) hecc (List.nodup_dedup _)
  refine ⟨(writeCodewords cells (codewords (cells.map (·.1))) s).2, ?_, honly, fun a => (hbyte a).trans ?_⟩
  · rw [memWrite]
    rw [lostLines_clean (fun a ha => (hclean a ha).2.2), countCorrs_good hpart, countPoison_good hpart,
      raceCells_clean (fun e he => (h e he).2.1), hok]
    rfl
  · split
    · rfl
    · next hn =>
      refine (foldl_no_cell _ _ (fun e he ha => hn ?_) _).symm
      exact List.mem_dedup.mpr (List.mem_map.mpr ⟨a, List.mem_map.mpr ⟨e, he, ha⟩, rfl⟩)

section
variable {t : TileId} {cells : List (Nat × Byte)} {s : Machine.State}

theorem spadAddr_injective (t : TileId) : Function.Injective (spadAddr t) := fun a b h => by
  unfold spadAddr at h
  omega

/-- What a landing writes: a free value to each of its ring bytes (R174). -/
def freeCells (t : TileId) (cells : List (Nat × Byte)) (k : Nat) : List (Nat × Byte) :=
  cells.zipIdx.map fun p => (spadAddr t p.1.1, Config.freeByte (k + p.2))

theorem ringLand_eq (t : TileId) (cells : List (Nat × Byte)) (s : Machine.State) : ringLand t cells s =
    memWrite (freeCells t cells s.freeCtr) { s with freeCtr := s.freeCtr + cells.length } := by
  rw [ringLand, ringWrite, List.map_map]
  rfl

theorem freeCells_fst (k : Nat) : (freeCells t cells k).map (·.1) = (cells.map (·.1)).map (spadAddr t) := by
  rw [freeCells, List.map_map, List.map_map]
  calc cells.zipIdx.map (fun p => spadAddr t p.1.1) = (cells.zipIdx.map Prod.fst).map (fun c => spadAddr t c.1) := by
        rw [List.map_map]; rfl
    _ = cells.map (fun c => spadAddr t c.1) := by rw [List.zipIdx_map_fst]

theorem mem_freeCells {k i : Nat} {c : Nat × Byte} (h : cells[i]? = some c) :
    (spadAddr t c.1, Config.freeByte (k + i)) ∈ freeCells t cells k :=
  List.mem_map.mpr ⟨(c, i), List.mem_zipIdx_iff_getElem?.mpr h, rfl⟩

/-- Ring bytes of a landing, each at a place of its own, read as free values; no other byte changes. -/
theorem ringLand_lands (hclean : ∀ c ∈ cells, Clean s (spadAddr t c.1)) (hn : (cells.map (·.1)).Nodup) :
    ∃ w, ringLand t cells s = (.ok, w) ∧ (∀ u, w.tile u = s.tile u) ∧ (∀ o, rraw w o = rraw s o) ∧
      (∀ i c, cells[i]? = some c → rdByte w (spadAddr t c.1) = Config.freeByte (s.freeCtr + i)) ∧
      ∀ a, (∀ c ∈ cells, spadAddr t c.1 ≠ a) → rdByte w a = rdByte s a := by
  have hfst : ∀ e ∈ freeCells t cells s.freeCtr, ∃ c ∈ cells, spadAddr t c.1 = e.1 := fun e he => by
    have hmem : e.1 ∈ (cells.map (·.1)).map (spadAddr t) := freeCells_fst s.freeCtr ▸ List.mem_map_of_mem he
    simpa using hmem
  have hfree : ∀ e ∈ freeCells t cells s.freeCtr, Clean { s with freeCtr := s.freeCtr + cells.length } e.1 := fun e he => by
    obtain ⟨c, hc, hce⟩ := hfst e he
    exact hce ▸ hclean c hc
  have hnodup : ((freeCells t cells s.freeCtr).map (·.1)).Nodup := by
    rw [freeCells_fst]
    exact hn.map (spadAddr_injective t)
  obtain ⟨w, hw, honly, hbyte⟩ := memWrite_clean hfree
  refine ⟨w, (ringLand_eq ..).trans hw, fun u => (tile_onlyMem honly :), fun o => ?_, fun i c hc => ?_, fun a ha => ?_⟩
  · rw [rraw, regs_of_onlyMem honly, rraw]
  · exact (hbyte _).trans (foldl_cell_of_nodup hnodup (mem_freeCells hc) _)
  · refine (hbyte a).trans (foldl_no_cell _ _ (fun e he hea => ?_) _)
    obtain ⟨c, hc, hce⟩ := hfst e he
    exact ha c hc (hce.trans hea)

end

/-! ### Buffers that want replies -/

section
variable {t : TileId} {sl : SlotIdx} {b : Nat} {s u v : Machine.State}

theorem bufLive_iff (s : Machine.State) (t : TileId) (sl : SlotIdx) (b : Nat) : bufLive s t sl b = true ↔ Wants s t sl b := by
  simp [bufLive, Wants, slRunning, slBlocked, slFlushing, slCancelling, or_assoc, and_assoc]

theorem wants_congr (hstate : slotState v t sl = slotState u t sl) (hlen : slotLenBufs v t sl = slotLenBufs u t sl)
    (hslot : v.slot t sl = u.slot t sl) : Wants v t sl b ↔ Wants u t sl b := by
  rw [Wants, Wants, hstate, hlen, hslot]

/-- A slot that wants replies is open. -/
theorem Wants.isOpen (h : Wants s t sl b) : 1 ≤ slotState s t sl ∧ slotState s t sl ≤ 5 := by
  obtain ⟨hstate, -⟩ := h
  omega

/-- A buffer that is not issued whole does not land. -/
theorem landBuf_unissued (h : ∀ e ∈ (s.slot t sl).bufs, e.no = b → e.issued = false) : landBuf t sl b s = s := by
  rw [landBuf]
  cases hfind : (s.slot t sl).bufs.find? (fun e => e.no == b) with
  | none => rfl
  | some e =>
    have hissued := h e (List.mem_of_find?_eq_some hfind) (beq_iff_eq.mp (List.find?_some hfind :))
    dsimp only
    rw [hissued, Bool.false_and, Bool.false_and, Bool.false_and, if_neg Bool.false_ne_true]

/-- One reply fewer to come for a buffer. -/
def replyCounted (b : Nat) (q : Slot) : Slot := modBuf q b fun e => { e with left := e.left - 1 }

/-- Bytes kept for the end posts of a buffer. -/
def bytesKept (b : Nat) (cells : List (Nat × Byte)) (q : Slot) : Slot := modBuf q b fun e => { e with data := e.data ++ cells }

theorem bytesKept_replyCounted (b : Nat) (cells : List (Nat × Byte)) (q : Slot) :
    bytesKept b cells (replyCounted b q) = slotArrived q b cells := by
  simp only [bytesKept, replyCounted, modBuf, slotArrived, List.map_map]
  congr 1
  refine List.map_congr_left fun e _ => ?_
  simp only [Function.comp_apply]
  split <;> simp_all

theorem slotArrived_unissued {q : Slot} {cells : List (Nat × Byte)} (h : ∀ e ∈ q.bufs, e.no = b → e.issued = false) :
    ∀ e ∈ (slotArrived q b cells).bufs, e.no = b → e.issued = false := by
  intro e he hb
  obtain ⟨c, hc, rfl⟩ := List.mem_map.mp he
  split at hb
  · next hno => rw [if_pos hno]; exact h c hc hno
  · next hno => exact absurd hb hno

/-! ### A buffer's transfer fails -/

theorem bufFault_fails {st : Status} {va : Nat} (h : ¬ (runsAhead s t sl = true ∧ slotCommitted s t sl ≤ b))
    (hst : ¬ (st = .translation ∨ st = .protection)) : bufFault t sl b st va s = slotFails t sl st va s := by
  rw [bufFault, if_neg (by simpa using h), xlatFault, if_neg hst]
  rfl

/-- The fault of a buffer kept with it. -/
def faultHeld (b : Nat) (st : Status) (va : Nat) (q : Slot) : Slot :=
  modBuf q b fun e => { e with held := some (e.held.getD (st, va)) }

theorem bufFault_held {st : Status} {va : Nat} (hahead : runsAhead s t sl = true) (hb : slotCommitted s t sl ≤ b) :
    bufFault t sl b st va s =
      rset (R.SLOT_STATE t.toNat sl.toNat) F.SLOT_STATE_HELD_FAULT 1 (s.modSlot t sl (faultHeld b st va)) := by
  rw [bufFault, hahead, decide_eq_true hb]
  rfl

end

/-! ### Replies -/

section
variable {t : TileId} {id : Nat} {x : Xfer} {bad : Bool} {s : Machine.State}

theorem tile_dropXfer : (dropXfer t id s).tile t = { s.tile t with xfers := mdel (s.tile t).xfers id } := tile_modTile_same ..

theorem rget_dropXfer (o : Nat) (f : Fld) : rget (dropXfer t id s) o f = rget s o f := rget_congr (rraw_modTile ..) f

theorem wants_dropXfer (sl : SlotIdx) (b : Nat) : Wants (dropXfer t id s) t sl b ↔ Wants s t sl b :=
  wants_congr rfl rfl (slot_congr (by rw [tile_dropXfer]) sl)

/-- A reply of memory that is as written: its bytes, unless the payload was spoilt on its way (R25). -/
theorem xferServe_read (hreads : x.reads = true) (hclean : ∀ c ∈ x.cells, addrOk s c.1 = true ∧ Clean s c.1) :
    xferServe bad x s = (spoiled bad .ok, if bad then [] else x.cells.map (fun c => rdByte s c.1), s) := by
  rw [xferServe, if_pos hreads, localRead_good (List.forall_mem_map.mpr hclean), List.map_map]
  rfl

theorem exec_transferReply (hx : mfind (s.tile t).xfers id = some x) (hreads : x.reads = true) (hsent : x.sent = false)
    (hclean : ∀ c ∈ x.cells, addrOk s c.1 = true ∧ Clean s c.1) : exec (.transferReply t id bad) s =
      .next (fWake t (xferLand t x (spoiled bad .ok) (if bad then [] else x.cells.map (fun c => rdByte s c.1)) (dropXfer t id s))) := by
  rw [exec, execTransferReply, hx]
  dsimp only
  rw [hsent, if_neg Bool.false_ne_true, xferServe_read hreads hclean]

theorem exec_transferReply_sent (hx : mfind (s.tile t).xfers id = some x) (hsent : x.sent = true) (hreply : x.reply = none) :
    exec (.transferReply t id bad) s = .next s := by
  rw [exec, execTransferReply, hx]
  dsimp only
  rw [if_pos hsent, hreply]

theorem onlyTile_dropXfer (t : TileId) (id : Nat) (s : Machine.State) (offs : List Nat) : OnlyTile t offs s (dropXfer t id s) :=
  onlyTile_modTile _ (.refl ..)

/-- A reply that no buffer wants is discarded and counted (R169). -/
theorem xferLand_late {st : Status} {data : List Byte} (hreads : x.reads = true) (h : ¬ Wants s t x.slot x.buf) :
    let v := xferLand t x st data (dropXfer t id s)
    (v.tile t).xfers = mdel (s.tile t).xfers id ∧
      rget v (R.FC_LATE t.toNat) F.FC_LATE_COUNT = satAdd F.FC_LATE_COUNT.w (rget s (R.FC_LATE t.toNat) F.FC_LATE_COUNT) 1 ∧
      OnlyTile t [R.FC_LATE t.toNat] s v := by
  intro v
  have hlive : bufLive (dropXfer t id s) t x.slot x.buf = false :=
    Bool.eq_false_iff.mpr fun hl => h ((wants_dropXfer ..).mp ((bufLive_iff ..).mp hl))
  have hv : v = rinc (R.FC_LATE t.toNat) F.FC_LATE_COUNT 1 (dropXfer t id s) := by
    show xferLand t x st data (dropXfer t id s) = _
    rw [xferLand, hlive, Bool.not_false, if_pos rfl, if_pos hreads]
  have hcount : OnlyRegs [R.FC_LATE t.toNat] (dropXfer t id s) (rinc (R.FC_LATE t.toNat) F.FC_LATE_COUNT 1 (dropXfer t id s)) :=
    onlyRegs_rinc _ _ (by simp) (.refl ..)
  rw [hv]
  exact ⟨by rw [hcount.tile, tile_dropXfer], by rw [rget_rinc_same _ _ (by decide), rget_dropXfer],
    (onlyTile_dropXfer ..).trans (hcount.onlyTile t)⟩

/-- The state that a reply of a wanted buffer meets: its transfer gone, and the reply counted. -/
def xferAnswered (t : TileId) (id : Nat) (x : Xfer) (s : Machine.State) : Machine.State :=
  (dropXfer t id s).modSlot t x.slot (replyCounted x.buf)

theorem slot_xferAnswered : (xferAnswered t id x s).slot t x.slot = replyCounted x.buf (s.slot t x.slot) := by
  rw [xferAnswered, slot_modSlot, slot_congr (u := s) (by rw [tile_dropXfer])]

theorem xfers_xferAnswered : ((xferAnswered t id x s).tile t).xfers = mdel (s.tile t).xfers id := by
  rw [xferAnswered, tile_modSlot, tile_dropXfer]

theorem core_xferAnswered : ((xferAnswered t id x s).tile t).x = (s.tile t).x := by
  rw [xferAnswered, tile_modSlot, tile_dropXfer]

theorem rraw_xferAnswered (o : Nat) : rraw (xferAnswered t id x s) o = rraw s o := by
  rw [xferAnswered, rraw_modSlot, dropXfer, rraw_modTile]

theorem bufLive_dropXfer (h : Wants s t x.slot x.buf) : bufLive (dropXfer t id s) t x.slot x.buf = true :=
  (bufLive_iff ..).mpr ((wants_dropXfer ..).mpr h)

/-- The ring bytes that a read brings. -/
def arrivedCells (x : Xfer) (s : Machine.State) : List (Nat × Byte) := x.cells.map fun c => (c.2, rdByte s c.1)

theorem xferLand_read (hreads : x.reads = true) (h : Wants s t x.slot x.buf) :
    xferLand t x .ok (x.cells.map (fun c => rdByte s c.1)) (dropXfer t id s) =
      let r := ringLand t (arrivedCells x s) (xferAnswered t id x s)
      if r.1 = .ok then landBuf t x.slot x.buf (r.2.modSlot t x.slot (bytesKept x.buf (arrivedCells x s)))
      else bufFault t x.slot x.buf r.1 0 r.2 := by
  rw [xferLand, bufLive_dropXfer h, Bool.not_true, if_neg Bool.false_ne_true]
  dsimp only
  rw [if_pos rfl, if_pos hreads, List.zip_map']
  rfl

/-- A wanted reply keeps its bytes for the end posts; the ring bytes read as free values until then (R174). -/
theorem xferLand_lands (hreads : x.reads = true) (h : Wants s t x.slot x.buf)
    (hclean : ∀ c ∈ x.cells, Clean s (spadAddr t c.2)) (hn : (x.cells.map (·.2)).Nodup)
    (hissued : ∀ e ∈ (s.slot t x.slot).bufs, e.no = x.buf → e.issued = false) :
    let v := xferLand t x .ok (x.cells.map (fun c => rdByte s c.1)) (dropXfer t id s)
    (v.tile t).xfers = mdel (s.tile t).xfers id ∧ v.slot t x.slot = slotArrived (s.slot t x.slot) x.buf (arrivedCells x s) ∧
      (∀ k c, x.cells[k]? = some c → rdByte v (spadAddr t c.2) = Config.freeByte (s.freeCtr + k)) ∧ RingOnly t x s v ∧
      ∀ o, rraw v o = rraw s o := by
  have hcells : ∀ c ∈ arrivedCells x s, Clean (xferAnswered t id x s) (spadAddr t c.1) := List.forall_mem_map.mpr hclean
  have hplaces : ((arrivedCells x s).map (·.1)).Nodup := by
    rw [arrivedCells, List.map_map]
    exact hn
  obtain ⟨w, hw, htile, hregs, hfree, hrest⟩ := ringLand_lands hcells hplaces
  have hslot : (w.modSlot t x.slot (bytesKept x.buf (arrivedCells x s))).slot t x.slot =
      slotArrived (s.slot t x.slot) x.buf (arrivedCells x s) := by
    rw [slot_modSlot, slot_congr (u := xferAnswered t id x s) (by rw [htile]), slot_xferAnswered, bytesKept_replyCounted]
  rw [xferLand_read hreads h]
  dsimp only
  rw [hw, if_pos rfl, landBuf_unissued (hslot ▸ slotArrived_unissued hissued)]
  refine ⟨?_, hslot, fun k c hc => ?_, fun a ha => ?_, fun o => ?_⟩
  · rw [tile_modSlot, htile, xfers_xferAnswered]
  · exact hfree k (c.2, rdByte s c.1) (by rw [arrivedCells, List.getElem?_map, hc]; rfl)
  · exact hrest a (List.forall_mem_map.mpr ha)
  · rw [rraw_modSlot, hregs, rraw_xferAnswered]

/-- The state that a bad reply of a wanted buffer meets: its ring bytes have become undefined (R26). -/
def ringUndefined (t : TileId) (id : Nat) (x : Xfer) (s : Machine.State) : Machine.State :=
  freeBytes (x.cells.map fun c => spadAddr t c.2) (xferAnswered t id x s)

theorem rraw_ringUndefined (o : Nat) : rraw (ringUndefined t id x s) o = rraw s o := by
  have hregs : (ringUndefined t id x s).regs = (xferAnswered t id x s).regs := rfl
  rw [rraw, hregs]
  exact rraw_xferAnswered o

theorem tile_ringUndefined : (ringUndefined t id x s).tile t = (xferAnswered t id x s).tile t := rfl

theorem slotState_ringUndefined : slotState (ringUndefined t id x s) t x.slot = slotState s t x.slot :=
  rget_congr (rraw_ringUndefined _) _

theorem ringOnly_ringUndefined : RingOnly t x s (ringUndefined t id x s) := fun a ha => by
  refine rdByte_freeBytes (fun hm => ?_) _
  obtain ⟨c, hc, hca⟩ := List.mem_map.mp hm
  exact ha c hc hca

theorem xferLand_bad_fails (hreads : x.reads = true) (h : Wants s t x.slot x.buf) (hahead : runsAhead s t x.slot = false) :
    xferLand t x .faultEcc [] (dropXfer t id s) = slotFails t x.slot .faultEcc x.va (ringUndefined t id x s) := by
  have hgoes : runsAhead (ringUndefined t id x s) t x.slot = false := by
    rw [← hahead, runsAhead, rbit, rget_congr (rraw_ringUndefined _), runsAhead, rbit]
  rw [xferLand, bufLive_dropXfer h, Bool.not_true, if_neg Bool.false_ne_true]
  dsimp only
  rw [if_neg (by decide), if_pos ⟨rfl, hreads⟩]
  refine bufFault_fails (fun hheld => ?_) (by decide)
  exact Bool.false_ne_true (hgoes.symm.trans hheld.1)

/-- A wanted reply whose data is bad ends its stream (R170). -/
theorem xferLand_bad (hreads : x.reads = true) (h : Wants s t x.slot x.buf) (hahead : runsAhead s t x.slot = false) :
    let v := xferLand t x .faultEcc [] (dropXfer t id s)
    (v.tile t).xfers = mdel (s.tile t).xfers id ∧ SlotFailed t x.slot .faultEcc x.va s v ∧ RingOnly t x s v := by
  have hopen : 1 ≤ slotState (ringUndefined t id x s) t x.slot ∧ slotState (ringUndefined t id x s) t x.slot ≤ 5 := by
    rw [slotState_ringUndefined]
    exact h.isOpen
  rw [xferLand_bad_fails hreads h hahead]
  refine ⟨?_, (slotFails_failed _ _ hopen).from ?_, fun a ha => ?_⟩
  · rw [xfers_slotFails, tile_ringUndefined, xfers_xferAnswered]
  · rw [tile_ringUndefined, core_xferAnswered]
  · rw [(onlyTile_slotFails ..).rdByte, ringOnly_ringUndefined a ha]

/-! ### Timeouts -/

/-- The state that a timeout leaves of its transfer: counted, and its answer still to come where memory owes it. -/
def xferExpired (t : TileId) (id : Nat) (x : Xfer) (s : Machine.State) : Machine.State :=
  let u := rinc (R.FC_XFER_TO t.toNat) F.FC_XFER_TO_COUNT 1 (dropXfer t id s)
  if x.sent then u else u.modTile t fun c => { c with late := mins c.late id x }

/-- A timeout has ended a transfer: it is off its tile, counted, and late where memory still owes it; memory stays. -/
structure Expired (t : TileId) (id : Nat) (x : Xfer) (s v : Machine.State) : Prop where
  xfers : (v.tile t).xfers = mdel (s.tile t).xfers id
  late  : (v.tile t).late = if x.sent then (s.tile t).late else mins (s.tile t).late id x
  count : rget v (R.FC_XFER_TO t.toNat) F.FC_XFER_TO_COUNT =
    satAdd F.FC_XFER_TO_COUNT.w (rget s (R.FC_XFER_TO t.toNat) F.FC_XFER_TO_COUNT) 1
  bytes : ∀ a, rdByte v a = rdByte s a

theorem Expired.trans {offs : List Nat} {u v : Machine.State} (h : Expired t id x s u) (hframe : OnlyTile t offs u v)
    (hoffs : R.FC_XFER_TO t.toNat ∉ offs) (hxfers : (v.tile t).xfers = (u.tile t).xfers) (hlate : (v.tile t).late = (u.tile t).late) :
    Expired t id x s v :=
  ⟨hxfers.trans h.xfers, hlate.trans h.late, (hframe.rget hoffs _).trans h.count, fun a => (hframe.rdByte a).trans (h.bytes a)⟩

theorem tile_xferExpired : (xferExpired t id x s).tile t =
    { s.tile t with
      xfers := mdel (s.tile t).xfers id
      late := if x.sent then (s.tile t).late else mins (s.tile t).late id x } := by
  have hcount : (rinc (R.FC_XFER_TO t.toNat) F.FC_XFER_TO_COUNT 1 (dropXfer t id s)).tile t =
      { s.tile t with xfers := mdel (s.tile t).xfers id } := tile_dropXfer
  rw [xferExpired]
  split
  · rw [hcount]
  · rw [tile_modTile_same, hcount]

theorem onlyTile_xferExpired : OnlyTile t [R.FC_XFER_TO t.toNat] s (xferExpired t id x s) := by
  have hcount : OnlyTile t [R.FC_XFER_TO t.toNat] s (rinc (R.FC_XFER_TO t.toNat) F.FC_XFER_TO_COUNT 1 (dropXfer t id s)) :=
    (onlyTile_dropXfer ..).trans ((onlyRegs_rinc _ _ (by simp) (.refl ..)).onlyTile t)
  rw [xferExpired]
  split
  · exact hcount
  · exact onlyTile_modTile _ hcount

theorem expired_xferExpired : Expired t id x s (xferExpired t id x s) := by
  refine ⟨by rw [tile_xferExpired], by rw [tile_xferExpired], ?_, onlyTile_xferExpired.rdByte⟩
  have hcount : rget (rinc (R.FC_XFER_TO t.toNat) F.FC_XFER_TO_COUNT 1 (dropXfer t id s)) (R.FC_XFER_TO t.toNat) F.FC_XFER_TO_COUNT =
      satAdd F.FC_XFER_TO_COUNT.w (rget s (R.FC_XFER_TO t.toNat) F.FC_XFER_TO_COUNT) 1 := by
    rw [rget_rinc_same _ _ (by decide), rget_dropXfer]
  rw [xferExpired]
  split
  · exact hcount
  · exact (rget_congr (rraw_modTile ..) _).trans hcount

theorem slotState_xferExpired (sl : SlotIdx) : slotState (xferExpired t id x s) t sl = slotState s t sl := by
  refine onlyTile_xferExpired.rget ?_ _
  simp only [R.SLOT_STATE, R.FC_XFER_TO, List.mem_singleton]
  omega

theorem wants_xferExpired (sl : SlotIdx) (b : Nat) : Wants (xferExpired t id x s) t sl b ↔ Wants s t sl b := by
  refine wants_congr (slotState_xferExpired sl) (onlyTile_xferExpired.rget ?_ _) (slot_congr (by rw [tile_xferExpired]) sl)
  simp only [R.SLOT_LENGTH, R.FC_XFER_TO, List.mem_singleton]
  omega

theorem exec_transferTimeout (hx : mfind (s.tile t).xfers id = some x) : exec (.transferTimeout t id) s =
    .next (fWake t (if bufLive (xferExpired t id x s) t x.slot x.buf then
      bufFault t x.slot x.buf .timeout x.va ((xferExpired t id x s).modSlot t x.slot (replyCounted x.buf))
      else xferExpired t id x s)) := by
  rw [exec, execTransferTimeout, hx]
  rfl

end

end Sys2Proof
end

section
/-! What a transfer's timeout does to its stream, and the answers that come after it (R169, R170, R173). -/

namespace Sys2Proof

open Sys2Proof.Machine

section
variable {t : TileId} {id : Nat} {x : Xfer} {bad : Bool} {s : Machine.State}

/-- The state in which a wanted transfer's timeout meets its stream: the transfer has expired, and no reply of it is to come. -/
def xferTimedOut (t : TileId) (id : Nat) (x : Xfer) (s : Machine.State) : Machine.State :=
  (xferExpired t id x s).modSlot t x.slot (replyCounted x.buf)

theorem slot_xferTimedOut : (xferTimedOut t id x s).slot t x.slot = replyCounted x.buf (s.slot t x.slot) := by
  rw [xferTimedOut, slot_modSlot, slot_congr (u := s) (by rw [tile_xferExpired])]

theorem core_xferTimedOut : ((xferTimedOut t id x s).tile t).x = (s.tile t).x := by
  rw [xferTimedOut, tile_modSlot, tile_xferExpired]

theorem onlyTile_xferTimedOut : OnlyTile t [R.FC_XFER_TO t.toNat] s (xferTimedOut t id x s) := onlyTile_modSlot _ onlyTile_xferExpired

theorem expired_xferTimedOut : Expired t id x s (xferTimedOut t id x s) := by
  refine expired_xferExpired.trans (offs := []) (onlyTile_modSlot _ (.refl ..)) List.not_mem_nil ?_ ?_
  · rw [xferTimedOut, tile_modSlot]
  · rw [xferTimedOut, tile_modSlot]

theorem slotState_xferTimedOut (sl : SlotIdx) : slotState (xferTimedOut t id x s) t sl = slotState s t sl := slotState_xferExpired sl

theorem runsAhead_xferTimedOut (sl : SlotIdx) : runsAhead (xferTimedOut t id x s) t sl = runsAhead s t sl := by
  have hkept : rget (xferTimedOut t id x s) (R.SLOT_STATE t.toNat sl.toNat) F.SLOT_STATE_RUNAHEAD =
      rget s (R.SLOT_STATE t.toNat sl.toNat) F.SLOT_STATE_RUNAHEAD := by
    refine onlyTile_xferTimedOut.rget ?_ _
    simp only [R.SLOT_STATE, R.FC_XFER_TO, List.mem_singleton]
    omega
  rw [runsAhead, rbit, hkept]
  rfl

theorem slotCommitted_xferTimedOut (sl : SlotIdx) : slotCommitted (xferTimedOut t id x s) t sl = slotCommitted s t sl := by
  refine onlyTile_xferTimedOut.rget ?_ _
  simp only [R.SLOT_COMMITTED, R.FC_XFER_TO, List.mem_singleton]
  omega

theorem xferTo_slotRegs (t : TileId) (sl : SlotIdx) : R.FC_XFER_TO t.toNat ∉ [R.SLOT_STATE t.toNat sl.toNat, R.FC_FAULT t.toNat] := by
  simp only [R.FC_XFER_TO, R.SLOT_STATE, R.FC_FAULT, List.mem_cons, List.not_mem_nil, or_false]
  omega

/-! ### Timeouts -/

theorem exec_transferTimeout_unwanted (hx : mfind (s.tile t).xfers id = some x) (h : ¬ Wants s t x.slot x.buf) :
    exec (.transferTimeout t id) s = .next (fWake t (xferExpired t id x s)) := by
  rw [exec_transferTimeout hx, if_neg]
  rwa [bufLive_iff, wants_xferExpired]

theorem exec_transferTimeout_wanted (hx : mfind (s.tile t).xfers id = some x) (h : Wants s t x.slot x.buf) :
    exec (.transferTimeout t id) s =
      .next (fWake t (bufFault t x.slot x.buf .timeout x.va (xferTimedOut t id x s))) := by
  rw [exec_transferTimeout hx, if_pos]
  · rfl
  · rwa [bufLive_iff, wants_xferExpired]

/-- A wanted transfer that times out ends its stream, unless the fault is held. -/
theorem timeout_fails (h : Wants s t x.slot x.buf)
    (hnot : ¬ (runsAhead s t x.slot = true ∧ slotCommitted s t x.slot ≤ x.buf)) :
    let v := bufFault t x.slot x.buf .timeout x.va (xferTimedOut t id x s)
    Expired t id x s v ∧ SlotFailed t x.slot .timeout x.va s v := by
  have hopen : 1 ≤ slotState (xferTimedOut t id x s) t x.slot ∧ slotState (xferTimedOut t id x s) t x.slot ≤ 5 := by
    rw [slotState_xferTimedOut]
    exact h.isOpen
  rw [bufFault_fails (by rwa [runsAhead_xferTimedOut, slotCommitted_xferTimedOut]) (by decide)]
  exact ⟨expired_xferTimedOut.trans (onlyTile_slotFails ..) (xferTo_slotRegs t _) (xfers_slotFails ..) (late_slotFails ..),
    (slotFails_failed _ _ hopen).from (congrArg (·.faults) core_xferTimedOut)⟩

/-- Where the stream runs ahead, a buffer not committed keeps the fault, and the stream goes on (R173). -/
theorem timeout_held (h : Wants s t x.slot x.buf) (hahead : runsAhead s t x.slot = true) (hbuf : slotCommitted s t x.slot ≤ x.buf) :
    let v := bufFault t x.slot x.buf .timeout x.va (xferTimedOut t id x s)
    Expired t id x s v ∧ rget v (R.SLOT_STATE t.toNat x.slot.toNat) F.SLOT_STATE_HELD_FAULT = 1 ∧
      slotState v t x.slot = slotState s t x.slot ∧ (v.tile t).x.faults = (s.tile t).x.faults ∧
      ∃ e ∈ (v.slot t x.slot).bufs, e.no = x.buf ∧ e.held ≠ none := by
  obtain ⟨-, -, e, he, hno⟩ := h
  have hframe : OnlyTile t [R.SLOT_STATE t.toNat x.slot.toNat] (xferTimedOut t id x s)
      (rset (R.SLOT_STATE t.toNat x.slot.toNat) F.SLOT_STATE_HELD_FAULT 1
        ((xferTimedOut t id x s).modSlot t x.slot (faultHeld x.buf .timeout x.va))) :=
    onlyTile_rset _ _ (by simp) (onlyTile_modSlot _ (.refl ..))
  have hoffs : R.FC_XFER_TO t.toNat ∉ [R.SLOT_STATE t.toNat x.slot.toNat] := fun hm =>
    xferTo_slotRegs t x.slot (List.mem_cons.mpr (.inl (List.mem_singleton.mp hm)))
  rw [bufFault_held (by rwa [runsAhead_xferTimedOut]) (by rwa [slotCommitted_xferTimedOut])]
  refine ⟨expired_xferTimedOut.trans hframe hoffs ?_ ?_, rget_rset_same _ _ _ _ (by decide), ?_, ?_, ?_⟩
  · rw [tile_rset, tile_modSlot]
  · rw [tile_rset, tile_modSlot]
  · exact (rget_rset_field _ _ _ _ _ (by decide) (by decide)).trans (slotState_xferTimedOut _)
  · rw [tile_rset, tile_modSlot]
    exact congrArg (·.faults) core_xferTimedOut
  · rw [slot_rset, slot_modSlot, slot_xferTimedOut]
    simp only [faultHeld, replyCounted, modBuf, List.map_map]
    exact ⟨_, List.mem_map_of_mem he, by simp [hno]⟩

/-! ### No such transfer -/

theorem exec_transferTimeout_none (hx : mfind (s.tile t).xfers id = none) : exec (.transferTimeout t id) s = .next s := by
  rw [exec, execTransferTimeout, hx]

theorem exec_transferReply_none (hx : mfind (s.tile t).xfers id = none) (hlate : mfind (s.tile t).late id = none) :
    exec (.transferReply t id bad) s = .next s := by
  rw [exec, execTransferReply, hx, hlate]

/-- The answer of a transfer that has timed out is counted (R169). -/
theorem exec_transferReply_late (hx : mfind (s.tile t).xfers id = none) (hlate : mfind (s.tile t).late id = some x)
    (hreads : x.reads = true) (hclean : ∀ c ∈ x.cells, addrOk s c.1 = true ∧ Clean s c.1) :
    exec (.transferReply t id bad) s = .next (rinc (R.FC_LATE t.toNat) F.FC_LATE_COUNT 1
      (s.modTile t fun c => { c with late := mdel c.late id })) := by
  rw [exec, execTransferReply, hx, hlate]
  dsimp only
  rw [xferServe_read hreads hclean]

theorem late_counted (t : TileId) (id : Nat) (s : Machine.State) :
    let v := rinc (R.FC_LATE t.toNat) F.FC_LATE_COUNT 1 (s.modTile t fun c => { c with late := mdel c.late id })
    (v.tile t).late = mdel (s.tile t).late id ∧
      rget v (R.FC_LATE t.toNat) F.FC_LATE_COUNT = satAdd F.FC_LATE_COUNT.w (rget s (R.FC_LATE t.toNat) F.FC_LATE_COUNT) 1 ∧
      OnlyTile t [R.FC_LATE t.toNat] s v := by
  intro v
  have hcount : OnlyRegs [R.FC_LATE t.toNat] (s.modTile t fun c => { c with late := mdel c.late id }) v :=
    onlyRegs_rinc _ _ (by simp) (.refl ..)
  exact ⟨by rw [hcount.tile, tile_modTile_same], rget_rinc_same _ _ (by decide), (onlyTile_modTile _ (.refl ..)).trans (hcount.onlyTile t)⟩

end

theorem streamTransfers_claim : Claims.StreamTransfers := by
  intro t sl s id x bad
  refine ⟨fun h hstage => ⟨_, exec_streamTransferIssue h hstage, fun hw hv => slotAcquire_takes hstage ⟨hw, hv⟩, slotAcquire_blocks⟩,
    fun hx hreads hsent hclean => ?_, exec_transferReply_sent, fun hx => ?_, fun hx => ⟨exec_transferTimeout_none hx,
      exec_transferReply_none hx, fun hlate hreads hclean => ⟨_, exec_transferReply_late hx hlate hreads hclean, late_counted t id s⟩⟩⟩
  · have hsource : ∀ c ∈ x.cells, addrOk s c.1 = true ∧ Clean s c.1 := fun c hc => ⟨(hclean c hc).1, (hclean c hc).2.1⟩
    have hring : ∀ c ∈ x.cells, Clean s (spadAddr t c.2) := fun c hc => (hclean c hc).2.2
    exact ⟨fun hlate => ⟨_, exec_transferReply hx hreads hsent hsource, xferLand_late hreads hlate⟩,
      fun hwants hn hissued => ⟨_, exec_transferReply hx hreads hsent hsource, xferLand_lands hreads hwants hring hn hissued⟩,
      fun hwants hahead => ⟨_, exec_transferReply hx hreads hsent hsource, xferLand_bad hreads hwants hahead⟩⟩
  · by_cases hwants : Wants s t x.slot x.buf
    · refine ⟨_, exec_transferTimeout_wanted hx hwants, ?_⟩
      by_cases hheld : runsAhead s t x.slot = true ∧ slotCommitted s t x.slot ≤ x.buf
      · obtain ⟨⟨hxfers, hlate, hcount, hbytes⟩, hkept⟩ := timeout_held hwants hheld.1 hheld.2
        exact ⟨hxfers, hlate, hcount, hbytes, fun hn => absurd hwants hn, fun _ hn => absurd hheld hn, fun _ _ _ => hkept⟩
      · obtain ⟨⟨hxfers, hlate, hcount, hbytes⟩, hfailed⟩ := timeout_fails hwants hheld
        exact ⟨hxfers, hlate, hcount, hbytes, fun hn => absurd hwants hn, fun _ _ => hfailed, fun _ ha hb => absurd ⟨ha, hb⟩ hheld⟩
    · obtain ⟨hxfers, hlate, hcount, hbytes⟩ := expired_xferExpired (t := t) (id := id) (x := x) (s := s)
      exact ⟨_, exec_transferTimeout_unwanted hx hwants, hxfers, hlate, hcount, hbytes, fun _ => onlyTile_xferExpired,
        fun hw => absurd hw hwants, fun hw => absurd hw hwants⟩

/-- Settles O36: a descriptor that is good starts a stream and another is refused; a stream acquires its buffers or is BLOCKED for
them, and each reply and each timeout of its transfers is kept, counted or held, or ends it. -/
theorem streamsOpenAndTransfer : Obligations.StreamsOpenAndTransfer := ⟨streamsOpen_claim, streamTransfers_claim⟩

end Sys2Proof
end
